-- ==== Sys2Proof/Word.lean ====
section
/-! DEFINITION. The block's words and the shapes its commands' operands take. -/
namespace Sys2Proof

/-- One byte. -/
abbrev Byte := BitVec 8

/-- A 32-bit register or word. -/
abbrev Word := BitVec 32

/-- A sparse table: rows by number, rising, a number with no row holding its reset value. -/
abbrev Tab (α : Type) := List (Nat × α)

/-- An actuator, 0 to 143 (00 R1). -/
abbrev ActId := Fin 144

/-- A bay, 0 to 71 (00 R1). -/
abbrev BayId := Fin 72

/-- A function, 64 * port + k (00 R4). -/
abbrev FnId := Fin 256

/-- A host port. -/
abbrev PortId := Fin 4

/-- A head of an actuator. -/
abbrev HeadId := Fin 16

/-- Who sends a mailbox message: a function, or the board management controller over SMBus (15 R387, R391). -/
inductive Requester where
  /-- a PCIe function -/
  | fn (f : FnId)
  /-- the sideband mailbox -/
  | sideband
  deriving DecidableEq, Repr

/-- What a memory line that the scrubber reads is used for: the firmware's allocation inside an area is its own (11 Tables 11.1, 11.4). -/
inductive LineUse where
  /-- nothing held -/
  | free
  /-- a firmware image copy (areas 0 and 1) -/
  | image
  /-- Markhor working data; `shared`: not owned by a single core (area 0) -/
  | markhor (shared : Bool)
  /-- working data of a herd's Chamois core (area 1) -/
  | chamois (h : Fin 18)
  /-- a spilled ledger entry (area 2) -/
  | ledger (id : Nat)
  /-- a table loaded from flash or calibration records (areas 3, 4, 16) -/
  | table
  /-- an ATI counter (area 5) -/
  | ati (a : ActId) (g : Nat)
  /-- any other media map line of an actuator (area 5) -/
  | map (a : ActId)
  /-- tally accumulators (area 6) -/
  | tally (accs : List Nat)
  /-- Poison List entries; `both`: the other copy fails too (area 7) -/
  | plist (both : Bool) (ids : List Word)
  /-- samples of a sector in a retention area (area 8) -/
  | samples (a : ActId) (cmd key : Nat)
  /-- held data of a Recovery List entry (area 9) -/
  | recovery (id : BitVec 16)
  /-- a write-staging slot, by order of staging (area 10) -/
  | staged (order : Nat)
  /-- a read-staging slot (area 11) -/
  | cached (nsid lba : Nat)
  /-- a line of a transit window region (areas 12 to 15) -/
  | window
  deriving DecidableEq, Repr
/-- an entry of a herd's dispatch table (07 R191). -/
structure DispEnt where
  /-- ROM address 0x0000 to 0x3FFF, or detour address 0x4000 to 0x43FF (07 R190) -/
  addr : BitVec 15 := 0
  /-- marked invalid -/
  invalid : Bool := false
  deriving DecidableEq, Repr

/-- what the flash holds in a slot beside bytes written through FW_CTRL, and what is found in it (16 R412, T16.2). -/
structure FlashImage where
  /-- the flash cannot be read -/
  unreadable : Bool := false
  /-- the first 4,096 bytes of the slot; those beyond the list are 0 -/
  head : List (BitVec 8) := []
  /-- the bytes of its components, in the order of the header -/
  comps : List (List (BitVec 8)) := []
  /-- SIG verifies: the arithmetic of ECDSA P-384 stands outside the model -/
  sigOk : Bool := true
  /-- a law program costs more cycles than it states (08 R222) -/
  refused : Bool := false
  deriving DecidableEq, Repr

/-- spindle constants of the HDA calibration record (09 R256, R257, R262). -/
structure SpinCal where
  /-- electronics power in mW -/
  elecMw : Nat := 2500
  /-- steady spindle power at Amble in mW -/
  ambleMw : Nat := 4100
  /-- steady spindle power at Trot in mW -/
  trotMw : Nat := 6300
  /-- steady spindle power at Gallop in mW -/
  gallopMw : Nat := 9200
  /-- spin-up power in mW -/
  spinupMw : Nat := 24000
  /-- calibrated coast deceleration in rpm/s -/
  coastDec : Nat := 400
  /-- calibrated shorted-winding deceleration in rpm/s -/
  shortDec : Nat := 1000
  /-- phase-current slew in us -/
  slew : Nat := 16
  /-- combo current limit in mA -/
  icmdMax : Nat := 4095
  /-- calibrated align current in mA -/
  alignMa : Nat := 1000
  /-- back-EMF constant, winding resistance and inductance, single-precision floats (09 R256) -/
  motor : List (BitVec 32) := []
  /-- advance table of the spindle loop's coefficient set: rpm, mA and tenths of an electrical degree (09 R256) -/
  adv : List (Nat × Nat × Nat) := []
  /-- gains of its speed loop, single-precision floats (09 R258) -/
  gains : List (BitVec 32) := []
  deriving DecidableEq, Repr

/-- samples of one thermal sensor since the last evaluation (13 R361). -/
structure TempReading where
  /-- 0 on-die, 1 bay, 2 head -/
  cls : Nat := 0
  /-- on-die sensor 0 to 95; 4 * bay + kind; 16 * actuator + head -/
  key : Nat := 0
  /-- the samples, signed, 1/16 C -/
  samples : List (BitVec 16) := []
  /-- FAULT reported, open or shorted (13 R362) -/
  fault : Bool := false
  deriving DecidableEq, Repr

/-- one radial recording zone of ZONE_GEOM (05 Table 5.1; 06 R155). -/
structure RecZone where
  /-- first track -/
  first : Nat := 0
  /-- tracks of one surface, at the shingled pitch -/
  tracks : Nat := 0
  /-- sectors per track -/
  spt : Nat := 832
  /-- RATE of a transfer at Gallop -/
  rate : Nat := 8856
  /-- conventional track pitch in pm -/
  convPitch : Nat := 1
  /-- shingled track pitch in pm -/
  shinPitch : Nat := 1
  deriving DecidableEq, Repr

/-- descriptor fields as read over the link (05 Table 5.1). -/
structure Descriptor where
  /-- the check word passes and the geometry keeps its limits -/
  crcOk : Bool := true
  /-- DESC_VER -/
  version : Nat := 1
  /-- HDA_SERIAL, 16 bytes -/
  serial : List (BitVec 8) := []
  /-- CAPACITY in GB -/
  capacity : Nat := 0
  /-- HEADS_A -/
  headsA : Nat := 12
  /-- HEADS_B -/
  headsB : Nat := 12
  /-- ASSIST: 1 spin-torque oscillator -/
  sto : Bool := false
  /-- recording zones per surface of ZONE_GEOM, at most 64 -/
  recZones : Nat := 64
  /-- SPARE_PCT in 0.1 % -/
  sparePct : Nat := 10
  /-- ATI_LIMIT -/
  atiLimit : Nat := 256
  /-- the descriptor store -/
  bytes : List (BitVec 8) := []
  /-- ZONE_GEOM -/
  zones : List RecZone := []
  deriving DecidableEq, Repr

/-- equaliser and cross-track taps of one head at one recording zone and gait (06 R161, R168). -/
structure TapSet where
  /-- the 16 taps of reader 0's equaliser -/
  eq0 : List Int := []
  /-- the 16 taps of reader 1's -/
  eq1 : List Int := []
  /-- the 8 taps of reader 0's cross-track response -/
  can0 : List Int := []
  /-- the 8 taps of reader 1's -/
  can1 : List Int := []
  deriving DecidableEq, Repr

/-- a single-reader equaliser and target (06 R161, R166). -/
structure OneReader where
  /-- its 16 taps -/
  taps : List Int := []
  /-- its 5-tap target -/
  target : List Int := []
  deriving DecidableEq, Repr

/-- channel calibration of one head at one recording zone and gait (06 R161, R162). -/
structure ChanSet where
  /-- start taps -/
  start : TapSet := {}
  /-- lower ends of the taps' envelopes -/
  lo : TapSet := {}
  /-- upper ends -/
  hi : TapSet := {}
  /-- targets T0 to T3, 5 taps each -/
  targets : List (List Int) := []
  /-- the single-reader set of reader 0 -/
  single0 : OneReader := {}
  /-- that of reader 1 -/
  single1 : OneReader := {}
  deriving DecidableEq, Repr

/-- the information word a converged attempt gives, as the checks read it (06 R174, Table 6.3). -/
structure DecOut where
  /-- its tag -/
  tag : BitVec 128 := 0
  /-- its reserved bits are zero -/
  resv : Bool := true
  /-- its CRC field, unmasked -/
  crc : BitVec 64 := 0
  deriving DecidableEq, Repr

/-- assist calibration of one head at one recording zone and gait (07 R208, R214). -/
structure AsstSet where
  /-- idle bias code -/
  idle : Nat := 0
  /-- drive current at idle bias in uA -/
  idleUa : Nat := 0
  /-- target feedback value -/
  target : Nat := 512
  /-- lowest drive code -/
  codeMin : Nat := 0
  /-- highest drive code -/
  codeMax : Nat := 4095
  deriving DecidableEq, Repr

/-- a state that a law marks as an integrator, and its clamp limits (08 R228). -/
structure Integ where
  /-- the state -/
  idx : Nat := 0
  /-- lower limit, a single-precision float -/
  lo : BitVec 32 := 0
  /-- upper limit -/
  hi : BitVec 32 := 0
  deriving DecidableEq, Repr

/-- the law of one mode at one gait, in single-precision floats, and its cycle cost (08 R222, R227). -/
structure Law where
  /-- rows of A -/
  a : List (List (BitVec 32)) := []
  /-- B -/
  b : List (BitVec 32) := []
  /-- Cv -/
  cv : List (BitVec 32) := []
  /-- Cm1 -/
  cm1 : List (BitVec 32) := []
  /-- Cm2 -/
  cm2 : List (BitVec 32) := []
  /-- Dv -/
  dv : BitVec 32 := 0
  /-- Dm1 -/
  dm1 : BitVec 32 := 0
  /-- Dm2 -/
  dm2 : BitVec 32 := 0
  /-- predictor row Cp -/
  cp : List (BitVec 32) := []
  /-- integrators, at most 2 -/
  ints : List Integ := []
  /-- stated cycle cost of its run -/
  stated : Nat := 0
  /-- static count of its program -/
  counted : Nat := 0
  deriving DecidableEq, Repr

/-- one notch section: numerator b, denominator a (08 R227). -/
structure Biquad where
  /-- b0 -/
  b0 : BitVec 32 := 0
  /-- b1 -/
  b1 : BitVec 32 := 0
  /-- b2 -/
  b2 : BitVec 32 := 0
  /-- a1 -/
  a1 : BitVec 32 := 0
  /-- a2 -/
  a2 : BitVec 32 := 0
  deriving DecidableEq, Repr

/-- a coefficient set of an actuator (08 R229). -/
structure CoeffSet where
  /-- its version -/
  ver : BitVec 16 := 0
  /-- laws, key 16 * gait + law: 0 PARKED, 1 LOAD, 2 SEEK, 3 SETTLE, 4 FOLLOW, 5 RETRACT, 6 limp FOLLOW, 7 limp SEEK -/
  laws : Tab Law := []
  /-- rows of the transfer matrices, key 256 * old law + new law -/
  xfer : Tab (List (List (BitVec 32))) := []
  /-- notches of the voice coil by gait -/
  notchV : Tab (List Biquad) := []
  /-- notches of the microactuator by gait -/
  notchM : Tab (List Biquad) := []
  /-- seek trajectory tables, key 32 * gait + distance bin -/
  traj : Tab (List (BitVec 32)) := []
  /-- retract velocity -/
  retVel : BitVec 32 := 0
  deriving DecidableEq, Repr

/-- one wedge's entry of a runout table (08 R230). -/
structure RroEnt where
  /-- f_v -/
  fv : BitVec 16 := 0
  /-- f_m -/
  fm : BitVec 16 := 0
  /-- f_m at the half-wedge -/
  fmh : BitVec 16 := 0
  /-- correction c -/
  corr : BitVec 16 := 0
  deriving DecidableEq, Repr

/-- runout tables of an actuator (08 R230). -/
structure RroSet where
  /-- their version -/
  ver : BitVec 16 := 0
  /-- entries, key (64 * head + band) * 640 + wedge -/
  tabs : Tab RroEnt := []
  deriving DecidableEq, Repr

/-- a calibration record of an HDA as its copies are read: the bytes of each, header and body (12 R354 to R356). -/
structure HdaRec where
  /-- TYPE of its place -/
  typ : Nat := 0
  /-- SCOPE of its place -/
  scope : Nat := 0
  /-- actuator of the bay -/
  side : Nat := 0
  /-- head -/
  head : Nat := 0
  /-- first copy in the reserved media area -/
  copy0 : List (BitVec 8) := []
  /-- second copy -/
  copy1 : List (BitVec 8) := []
  /-- copy in the descriptor store -/
  store : List (BitVec 8) := []
  /-- factory baseline -/
  base : List (BitVec 8) := []
  deriving DecidableEq, Repr

/-- calibration of one head (07 R208 to R215, 09 R264, 10 R294). -/
structure HeadCal where
  /-- assist drive start code -/
  start : Nat := 0
  /-- feedback target -/
  target : Nat := 512
  /-- lowest drive code -/
  codeMin : Nat := 0
  /-- highest drive code -/
  codeMax : Nat := 4095
  /-- lower feedback limit -/
  fbLo : Nat := 1
  /-- upper feedback limit -/
  fbHi : Nat := 1022
  /-- wear budget of write-level time in ns -/
  wear : Nat := 0
  /-- write-level assist power in mW -/
  writeMw : Nat := 0
  /-- reader 0 marked faulty -/
  rd0Bad : Bool := false
  /-- reader 1 marked faulty -/
  rd1Bad : Bool := false
  /-- channel sets, key 4 * recording zone + gait -/
  chan : Tab ChanSet := []
  /-- assist sets, same key -/
  asst : Tab AsstSet := []
  /-- reader offset in 1/10,240 of a track -/
  rdOff : Int := 0
  /-- writer offset in 1/10,240 of a track -/
  wrOff : Int := 0
  /-- precompensation tables of 8 shifts in 1/64 of a bit, same key -/
  precomp : Tab (List Nat) := []
  /-- heater code for reads and idle bias -/
  heatRd : BitVec 8 := 0
  /-- heater code for writes -/
  heatWr : BitVec 8 := 0
  /-- current-voltage table of a laser: uA and mV, rising -/
  iv : List (Nat × Nat) := []
  deriving DecidableEq, Repr

/-- what journal replay reads where no waymark is known to have passed (07 R200). -/
structure FoundSec where
  /-- the sector that belongs at the place, nsid * 2^48 + LBA -/
  key : Nat := 0
  /-- the tag it reads -/
  tag : BitVec 128 := 0
  /-- the sector decodes on rung 1 or 2 and its CRC passes -/
  ok : Bool := true
  /-- its plaintext -/
  data : List (BitVec 8) := []
  deriving DecidableEq, Repr

/-- the two copies of a record of the reserved media area as they are read (05 R128). -/
structure RecCopies where
  /-- the first copy's check word passes -/
  ok0 : Bool := true
  /-- the second copy's does -/
  ok1 : Bool := true
  /-- sequence number of the first -/
  seq0 : Nat := 0
  /-- sequence number of the second -/
  seq1 : Nat := 0
  deriving DecidableEq, Repr

/-- what the calibration check finds and reads from the bay's calibration records (12 R356, R357; 09 R262). -/
structure CalData where
  /-- spindle constants -/
  spin : SpinCal := {}
  /-- factory seek bounds of side A in ns, key 32 * gait + bin -/
  seekA : Tab Nat := []
  /-- factory seek bounds of side B in ns, key 32 * gait + bin -/
  seekB : Tab Nat := []
  /-- seek model version -/
  seekVer : BitVec 16 := 0
  /-- version of the other gait-specific tables -/
  gaitVer : BitVec 16 := 0
  /-- tap set version -/
  tapVer : BitVec 16 := 0
  /-- target set version -/
  tgtVer : BitVec 16 := 0
  /-- calibration of the heads, key 16 * side + head -/
  heads : Tab HeadCal := []
  /-- media identity record: 0 none or invalid, 1 this device and bay, 2 this device and another bay, 3 another device -/
  identity : Nat := 0
  /-- places of regions (track, head, angle, sectors per track) of both sides, key 2^24 * side + region -/
  places : Tab (Nat × Nat × Nat × Nat) := []
  /-- the records read, each with its copies -/
  recs : List HdaRec := []
  /-- coefficient set of side A -/
  setA : Option CoeffSet := none
  /-- coefficient set of side B -/
  setB : Option CoeffSet := none
  /-- runout tables of side A -/
  rroA : Option RroSet := none
  /-- runout tables of side B -/
  rroB : Option RroSet := none
  /-- rated load cycles -/
  budLoads : Nat := 0
  /-- rated spindle revolutions -/
  budRevs : Nat := 0
  /-- rated spindle starts -/
  budStarts : Nat := 0
  /-- heads that fail the channel step, 16 * side + head -/
  chanBad : List Nat := []
  /-- heads that fail the assist step, 16 * side + head -/
  asstBad : List Nat := []
  /-- side A held FOLLOW for 8 revolutions without a streak of 3 -/
  followA : Bool := true
  /-- side B did -/
  followB : Bool := true
  /-- copies of the reserved area's records, key 16 * side + kind: 0 identity, 1 band journal, 2 written map, 3 checkpoint, 4 hold-up directory, 5 format progress (05 R128) -/
  copies : Tab RecCopies := []
  /-- what the replay of the band journal reads beyond what the device knows committed (07 R200) -/
  found : List FoundSec := []
  deriving DecidableEq, Repr

/-- an upstream frame as received on one lane (10 Table 10.1). -/
structure UpFrame where
  /-- block 0 -/
  hdr : BitVec 64 := 0
  /-- blocks 28 to 30 -/
  tele : List (BitVec 64) := []
  /-- block 31 -/
  check : BitVec 64 := 0
  /-- blocks 1 to 27, the samples -/
  blocks : List (BitVec 64) := []
  /-- its block 0 comes 32 blocks after the last one -/
  atPlace : Bool := true
  deriving DecidableEq, Repr

/-- what a training phase ends with (10 Table 10.6). -/
structure TrainOut where
  /-- BASIC: lane D locked -/
  dLock : Bool := true
  /-- BASIC: U0 locked -/
  u0Lock : Bool := true
  /-- BASIC: U1 locked -/
  u1Lock : Bool := true
  /-- DESCRIPTOR: what was read -/
  desc : Descriptor := {}
  /-- TRAIN: lane D without PRBS error -/
  dPrbs : Bool := true
  /-- TRAIN: U0 without PRBS error -/
  u0Prbs : Bool := true
  /-- TRAIN: U1 without PRBS error -/
  u1Prbs : Bool := true
  /-- TRAIN: round trip and front-end turnaround of the 16 echo rounds, in 0.1 ns -/
  echo : List (Nat × Nat) := []
  /-- TRAIN: RATE set -/
  rate : BitVec 16 := 0
  /-- the combo's park state -/
  parked : Bool := true
  deriving DecidableEq, Repr

/-- one sync-mark hit candidate: bits that differ at a position near the expected one (06 R163). -/
structure Hit where
  /-- offset e from the mark's expected position -/
  e : Int := 0
  /-- bits that differ from the mark's pattern, of 32 -/
  dist : Nat := 0
  deriving DecidableEq, Repr

/-- what one run of an actuator loop finds beside its law (08 R225, R230, R231). -/
structure LawOut where
  /-- the runout entry of the next wedge, prefetched in this run, fails its CRC -/
  rroFail : Bool := false
  /-- inside the target's settle window -/
  inWindow : Bool := false
  /-- predicted speed in tracks per wedge -/
  vel : Nat := 0
  /-- predicted track of the next wedge -/
  predTrack : Nat := 0
  /-- a local line that failed its check -/
  line : Option Nat := none
  /-- the refetch of that line succeeded -/
  refetchOk : Bool := true
  /-- run start in ns after the record's arrival -/
  start : Nat := 0
  /-- run cycles -/
  cycles : Nat := 0
  deriving DecidableEq, Repr

/-- a record of the soft repair map (11 R333). -/
structure SoftRec where
  /-- SRAM macro; those of the line cache are 0 to 255, 32 per way group -/
  macro_ : Nat := 0
  /-- a column -/
  col : Bool := false
  /-- the faulty row or column -/
  num : Nat := 0
  deriving DecidableEq, Repr

/-- one line read of the scrubber and what it finds (11 R331, R332). -/
structure ScrubRead where
  /-- 0 DRAM, 1 line cache, 2 victim store, 3 other on-die SRAM -/
  level : Nat := 0
  /-- staging address of the line (levels 0 and 2) -/
  addr : Nat := 0
  /-- line cache set (level 1) -/
  set : Nat := 0
  /-- line cache way (level 1) -/
  way : Nat := 0
  /-- level 3: 1 a decoder engine's memory, 2 a Loop Engine's, 0 another -/
  unit : Nat := 0
  /-- level 3: that engine's number -/
  num : Nat := 0
  /-- the check word fails -/
  fails : Bool := false
  /-- the rewrite of a failing line reads back good -/
  readsBack : Bool := true
  /-- levels 1 to 3: macro and row or column of the fault -/
  place : SoftRec := {}
  /-- what the line holds -/
  use : LineUse := .free
  deriving DecidableEq, Repr

/-- what an assist calibration pass finds (12 T12.4, R351). -/
structure AsstCal where
  /-- a feedback fault ended it (07 R211) -/
  fault : Bool := false
  /-- a code of the envelope converges within rung 1, and its feedback lies within 20 % of the factory baseline -/
  passed : Bool := true
  /-- the code chosen -/
  code : BitVec 12 := 0
  /-- its feedback -/
  target : BitVec 10 := 0
  deriving DecidableEq, Repr

/-- what a channel or servo calibration pass finds (12 T12.4, R350). -/
structure ChanCal where
  /-- channel: new tap start values and envelopes -/
  newTaps : Bool := true
  /-- channel: new target sets or single-reader sets, which are gait-specific -/
  newTargets : Bool := false
  /-- channel: precompensation tables to try with it, key 4 * recording zone + gait -/
  precomp : Tab (List Nat) := []
  /-- channel: the sets it measured, key 4 * recording zone + gait -/
  chan : Tab ChanSet := []
  /-- servo: the change of the gain scale, in tenths of a percent -/
  gain : Nat := 0
  /-- servo: the coefficient set with that gain scale -/
  set : Option CoeffSet := none
  /-- servo: the runout tables learned -/
  rro : Option RroSet := none
  deriving DecidableEq, Repr

/-- a step of a channel island's clock switch (14 R374, R375). -/
inductive SwitchStep where
  /-- the old clock stops at a low phase -/
  | starts
  /-- the new clock starts from a low phase -/
  | ends
  /-- 16 cycles of the new clock have passed -/
  | settled
  deriving DecidableEq, Repr, Inhabited

/-- the straps as COLD_RST_N's end samples them (18 R446). -/
structure Straps where
  /-- PBIF[3:0] (04 R96) -/
  pbif : BitVec 4 := 0
  /-- CLKMODE[3:0] (04 R97) -/
  clkMode : BitVec 4 := 0
  /-- STEWARD_SEL[1:0] (04 R101) -/
  stewardSel : BitVec 2 := 0
  /-- BAR2SZ of the ports, 3 bits each (04 R106) -/
  bar2sz : BitVec 12 := 0
  /-- SMBADDR[1:0] (15 R391) -/
  smbAddr : BitVec 2 := 0
  /-- TRAILHEAD_N asserted (16 R420) -/
  trailhead : Bool := false
  deriving DecidableEq, Repr

/-- a port's flash record as the steward's mailbox request writes it (04 R106, R120, Table 4.18). -/
structure PortRec where
  /-- the port -/
  port : Fin 4 := 0
  /-- TWN_SIZE -/
  size : BitVec 3 := 0
  /-- BASE of the window, in bytes -/
  base : BitVec 36 := 0
  /-- LIMIT -/
  limit : BitVec 35 := 0xFFFFF
  /-- EN -/
  en : Bool := false
  /-- TWN_GRANT[k]: k, EN, START, END -/
  grants : List (Nat × Bool × BitVec 12 × BitVec 12) := []
  deriving DecidableEq, Repr

/-- where a register access goes: the block's own registers at an offset, or a register of the function's configuration space, the offset numbering those of a kind (04 R100 to R108, R113, R121). -/
inductive RegSpace where
  /-- a register of BAR0 -/
  | bar0
  /-- the Command register: Memory Space Enable bit 1, Bus Master Enable bit 2, SERR# Enable bit 8 -/
  | command
  /-- Device Control: error reporting bits 3:0, Enable Relaxed Ordering bit 4, Max Payload Size bits 7:5 -/
  | deviceControl
  /-- Device Control 2: Completion Timeout Value bits 3:0, LTR Mechanism Enable bit 10 -/
  | deviceControl2
  /-- Link Control: ASPM Control bits 1:0 -/
  | linkControl
  /-- L1 PM Substates Control -/
  | l1ssControl
  /-- base address register 0 to 5, and 6 the expansion ROM -/
  | barReg
  /-- VF base address register 0 to 5 of the SR-IOV capability -/
  | vfBarReg
  /-- Uncorrectable Error Status, write 1 to clear -/
  | aerUncStatus
  /-- Uncorrectable Error Mask -/
  | aerUncMask
  /-- Uncorrectable Error Severity -/
  | aerUncSeverity
  /-- Correctable Error Status, write 1 to clear -/
  | aerCorStatus
  /-- Correctable Error Mask -/
  | aerCorMask
  /-- header log word 0 to 3 -/
  | aerHeader
  /-- ACS Control -/
  | acsControl
  /-- SR-IOV: 0 TotalVFs, 1 First VF Offset and VF Stride, 2 NumVFs, 3 VF Device ID -/
  | sriov
  /-- identity: 0 Vendor and Device ID, 1 Class Code, 2 and 3 Device Serial Number, 4 vendor-specific part number and silicon revision, 5 Device Capabilities, 6 Device Capabilities 2, 7 Power Management -/
  | ident
  /-- capability number n of the list: its PCIe identifier, 0 past the end -/
  | capability
  deriving DecidableEq, Repr, Inhabited

/-- an instruction of the JTAG port (16 R427). -/
inductive JtagOp where
  /-- BYPASS -/
  | bypass
  /-- IDCODE -/
  | idcode
  /-- SAMPLE/PRELOAD -/
  | sample
  /-- EXTEST -/
  | extest
  /-- an internal debug instruction -/
  | debug
  deriving DecidableEq, Repr, Inhabited

/-- the register a read goes to (04 R105; 18 R438). -/
structure RegAddr where
  /-- the space -/
  sp : RegSpace := .bar0
  /-- the offset there -/
  off : BitVec 22 := 0
  deriving DecidableEq, Repr

/-- failed regions of a sector's samples, by the first of each region's frames (06 R156). -/
structure Erasures where
  /-- of reader 0 -/
  r0 : List (BitVec 6) := []
  /-- of reader 1 -/
  r1 : List (BitVec 6) := []
  deriving DecidableEq, Repr

/-- what is measured of the assist drive as a sector is written (07 R209, R214). -/
structure DriveMeas where
  /-- current in uA -/
  ua : Nat := 0
  /-- resistance of the oscillator in mOhm -/
  rosc : Nat := 0
  deriving DecidableEq, Repr

/-- what a spindle run runs for (09 R255). -/
inductive SpinCause where
  /-- the zero-crossing report that waits -/
  | crossing
  /-- the commutation tick that waits -/
  | tick
  deriving DecidableEq, Repr, Inhabited

/-- a record in the flash whose write has ended (15 R398; 04 R106). -/
structure FlashWrite where
  /-- the port's record; none: the configuration record -/
  port : Option PortRec := none
  /-- it reads back as written -/
  pass : Bool := true
  deriving DecidableEq, Repr

/-- fresh LLRs of a rung-2 replay of an actuator (06 R164, R180). -/
structure Reframing where
  /-- the actuator -/
  act : ActId := 0
  /-- matches in the SM1 window -/
  sm1 : List Hit := []
  /-- matches in the SM2 window -/
  sm2 : List Hit := []
  deriving DecidableEq, Repr

end Sys2Proof
end

