-- ==== Sys2Proof/Syntax.lean ====
section
/-! DEFINITION. The commands of the block: one constructor per row of spec/opcode_table.json, with the operands the rule
named in its docstring gives it. -/
namespace Sys2Proof

/-- A command of the block. -/
inductive Instr where
  /-- SQ_DOORBELL (R65): A 32-bit write of a new tail index to an SQ doorbell is accepted, or ignored and logged in QH_ERRLOG. -/
  | sqDoorbell (f : FnId) (q : Fin 64) (upper : Bool) (val : Word)
  /-- CQ_DOORBELL (R65): A 32-bit write of a new head index to a CQ doorbell releases completion slots, or is ignored and logged. -/
  | cqDoorbell (f : FnId) (q : Fin 64) (upper : Bool) (val : Word)
  /-- SUBMISSION_FETCH_ISSUE (R63): Once a slot is reserved in the bound CQ, the Queue Hub issues the read of the next SQ entry in round-robin order. -/
  | submissionFetchIssue (p : PortId)
  /-- SUBMISSION_ENTRY_ARRIVAL (R70): A fetched 64-byte entry arrives and its checks start; the ledger entry and arrival are written if they pass. -/
  | submissionEntryArrival (f : FnId) (q : Fin 64) (entry : BitVec 512)
  /-- SQ_FETCH_ERROR (R67): A fetch read that returns an error completion or times out stops its SQ, and cause 0x5 is logged. -/
  | sqFetchError (f : FnId) (q : Fin 64) (timeout : Bool)
  /-- READ (R45): A READ is admitted on the actuator plans or the host-port model, or is refused at once. -/
  | read (id : Nat)
  /-- WRITE (R18): A STAGED or LANDED WRITE reserves write-staging slots and is admitted or refused. -/
  | write (id : Nat)
  /-- ZONE_APPEND (R82): A ZONE_APPEND takes its LBA from the zone's admitted write pointer at admission. -/
  | zoneAppend (id : Nat)
  /-- ZONE_OPEN (R131): ZONE_MGMT OPEN makes the zone EXPLICIT_OPEN at admission. -/
  | zoneOpen (id : Nat)
  /-- ZONE_CLOSE (R131): ZONE_MGMT CLOSE makes the zone CLOSED, or EMPTY, at admission. -/
  | zoneClose (id : Nat)
  /-- ZONE_FINISH (R131): ZONE_MGMT FINISH makes the zone FULL in its admitted state and is planned as a band-journal write. -/
  | zoneFinish (id : Nat)
  /-- ZONE_RESET (R131): ZONE_MGMT RESET makes the zone EMPTY in its admitted state and is planned as a band-journal write. -/
  | zoneReset (id : Nat)
  /-- ZONE_REPORT (R90): ZONE_REPORT writes zone descriptors as of its admission. -/
  | zoneReport (id : Nat)
  /-- FLUSH (R84): A FLUSH covers the posted STAGED writes of its function and is admitted on the plans of the covered data. -/
  | flush (id : Nat)
  /-- ABORT (R83): An ABORT completes every target not yet at its waymark with ABORTED_BY_HOST. -/
  | abort (id : Nat)
  /-- RECOVERY_LIST (R93): RECOVERY_LIST writes the function's Recovery List entries in id order. -/
  | recoveryList (id : Nat)
  /-- CONT_READ (R93): CONT_READ delivers the held data of a RECOVERED entry and may release the entry. -/
  | contRead (id : Nat)
  /-- DC7_RETEST (R34): A held DC7 command is tested again when the condition that stopped it changes. -/
  | dc7Retest (id : Nat)
  /-- MEDIA_OPERATION_END (R46): The running media operation of an actuator ends, making a dispatch point. -/
  | mediaOperationEnd (a : ActId)
  /-- DEADLINE_CUTOFF (R48): At deadline minus 20 µs, an unfinished command completes with UNRECOVERED_IN_DEADLINE. -/
  | deadlineCutoff (id : Nat)
  /-- FLUSH_COMPLETE (R84): A FLUSH completes when every covered sector is persistent or a covered sector is lost. -/
  | flushComplete (id : Nat)
  /-- ABORT_COMPLETE (R83): An ABORT completes with its counts after every aborted target's completion is posted. -/
  | abortComplete (id : Nat)
  /-- KEY_UNLOAD_COMPLETE (R71): A key unload completes once no admitted command of the namespace remains. -/
  | keyUnloadComplete (k : Fin 4096)
  /-- RECOVERY_ENTRY_EXPIRY (R92): A Recovery List entry is removed 600 s after it became RECOVERED, FAILED or STALE. -/
  | recoveryEntryExpiry (id : BitVec 16)
  /-- BACKGROUND_RECOVERY_TIMEOUT (R182): A Recovery List entry becomes FAILED 60 s after its creation. -/
  | backgroundRecoveryTimeout (id : BitVec 16)
  /-- HOST_DATA_COMPLETION (R112): A completion for a device read request arrives; a poisoned, error or unmatched completion is handled and logged. -/
  | hostDataCompletion (f : FnId) (id : Nat) (list failed : Bool) (data : List Byte)
  /-- HOST_COMPLETION_TIMEOUT (R112): A device read request times out, and its command completes with HOST_DATA_ERROR. -/
  | hostCompletionTimeout (f : FnId) (id : Nat)
  /-- SECTOR_DELIVERY (R174): A decoded sector is decrypted, CRC-checked and written to the host buffer. -/
  | sectorDelivery (id lba : Nat) (crc : BitVec 64)
  /-- BME_CLEAR (R121): Bus Master Enable of a function clears, and the device stops issuing requests for it. -/
  | bmeClear (f : FnId)
  /-- BME_SET (R121): Bus Master Enable is set again; deliveries resume and held completions post with LATE_HOST_DISABLED. -/
  | bmeSet (f : FnId)
  /-- FUNCTION_LEVEL_RESET (R122): An FLR clears BME, discards held completions, deletes the queues and resets the function's registers. -/
  | functionLevelReset (f : FnId)
  /-- PCIE_LINK_UP (R123): A host link reaches link up. -/
  | pcieLinkUp (p : PortId) (half : Bool) (width : BitVec 5) (rate : BitVec 3)
  /-- PCIE_LINK_DOWN (R123): Link down, hot reset or disable acts as an FLR on every function of the link. -/
  | pcieLinkDown (p : PortId) (half : Bool)
  /-- PCIE_RETRAIN (R99): A rate or width change recomputes the link's host-port model. -/
  | pcieRetrain (p : PortId) (half : Bool) (width : BitVec 5) (rate : BitVec 3)
  /-- PERST_ASSERT (R123): PERST_N[p] asserted acts as link down on both halves and reloads the HPT and TWN registers. -/
  | perstAssert (p : PortId) (flight : Tab Nat)
  /-- PERST_DEASSERT (R450): PERST_N[p] deasserted starts link training and answers configuration requests with CRS until ready. -/
  | perstDeassert (p : PortId)
  /-- REFUSED_REQUEST (R111): A request of Table 4.5 is refused with Unsupported Request or dropped, and is logged. -/
  | refusedRequest (f : FnId) (unsupported poisoned misaligned diag window posted : Bool) (hdr : BitVec 128)
  /-- BAR2_WRITE (R114): A peer write inside the window in force is taken line by line into staging. -/
  | bar2Write (p : PortId) (off : BitVec 36) (data : List Byte)
  /-- BAR2_READ (R114): A BAR2 read inside the window in force returns the window's contents. -/
  | bar2Read (p : PortId) (off : BitVec 36) (len : Fin 4097)
  /-- TWN_COMMIT (R115): A write of GO to TWN_COMMIT requests a window switch, or is refused with REJ set. -/
  | twnCommit (f : FnId) (val : Word)
  /-- WINDOW_SWITCH (R116): When no BAR2 TLP is between decode and DRAM, TWN_CUR takes the pending values. -/
  | windowSwitch (p : PortId)
  /-- L1_ENTRY (R113): After L1_IDLE µs with no TLP and no ledger entry, the link enters L1. -/
  | l1Entry (p : PortId) (half sub : Bool)
  /-- GLB_STEWARD_WRITE (R102): The steward writes GLB_STEWARD.PORT, moving stewardship if the target port is up and enabled. -/
  | glbStewardWrite (f : FnId) (val : Word)
  /-- REGISTER_WRITE (R11): A write to a register with no row of its own sets its fields by their access codes, or is ignored and logged. -/
  | registerWrite (f : FnId) (sp : RegSpace) (off : BitVec 22) (wide : Bool) (data : BitVec 64) (flight : Tab Nat)
  /-- REGISTER_LOW_HALF_READ (R438): A 4-byte read of the low half of a 64-bit register captures the high half. -/
  | registerLowHalfRead (f : FnId) (reg : RegAddr) (wide : Bool)
  /-- CFG_ADM_STAT_READ (R11): A read of CFG_ADM_STAT returns the plan state and clears SLOT_LIMIT. -/
  | cfgAdmStatRead (f : FnId)
  /-- CFG_CFE_STAT_READ (R11): A read of CFG_CFE_STAT returns the channel state and clears RETAIN_FULL. -/
  | cfgCfeStatRead (f : FnId)
  /-- CFG_DEC_WAITMAX_READ (R11): A read of CFG_DEC_WAITMAX returns the longest class 1 wait and clears it. -/
  | cfgDecWaitmaxRead (f : FnId)
  /-- EVT_LATCH_CLEAR (R401): A W1C write to EVT_LATCH clears bits in the writer's own view only. -/
  | evtLatchClear (f : FnId) (n : Fin 64) (val : Word)
  /-- EVT_FN_LATCH_CLEAR (R401): A W1C write to EVT_FN_LATCH clears bits of the function view. -/
  | evtFnLatchClear (f : FnId) (val : Word)
  /-- POWER_LOSS_DECLARED (R141): Three or more BUSV below VTRIP for 10 µs stops fetch, posting and grazing, and starts the hold-up flush. -/
  | powerLossDeclared
  /-- HOLDUP_FLUSH_END (R142): The hold-up flush on a bay ends at TMAX or at BUSV below VSTOP, and after the last bay a device-level reset begins. -/
  | holdupFlushEnd (b : BayId) (landedA landedB : Option Nat)
  /-- ATI_LIMIT_REACHED (R146): A track-group or band-edge counter reaches ATI_LIMIT and a refresh is queued as grazing. -/
  | atiLimitReached (a : ActId) (g : Nat)
  /-- ATI_HOLD_LIMIT (R147): A counter reaches 2 × ATI_LIMIT, and writes to the group are held until its refresh. -/
  | atiHoldLimit (a : ActId) (g : Nat)
  /-- ATI_CHECKPOINT (R148): Every 60 s the ATI counters and assist figures are checkpointed to the reserved media area. -/
  | atiCheckpoint (a : ActId)
  /-- FORMAT_START (R150): A format in WAITING starts as grazing once every admitted command of the namespace has completed. -/
  | formatStart (id : Nat)
  /-- MEDIA_FORMAT_NAMESPACE (R149): MEDIA_FORMAT KIND 1 requests a namespace format. -/
  | mediaFormatNamespace (r : Requester)
  /-- MEDIA_FORMAT_ACTUATOR (R149): MEDIA_FORMAT KIND 2 requests an actuator format with a new conventional fraction. -/
  | mediaFormatActuator (r : Requester)
  /-- MEDIA_FORMAT_STATUS (R151): MEDIA_FORMAT_STATUS returns the state and progress of a format operation. -/
  | mediaFormatStatus (r : Requester)
  /-- SECTOR_FRAMING (R164): The CFE scans the sync-mark windows and frames the sector from SM1 or SM2. -/
  | sectorFraming (a : ActId) (key : Nat) (sm1 sm2 : List Hit) (lost : Erasures)
  /-- TAP_CLAMP_LIMIT (R162): A tap held at its clamp for 256 sectors returns the head's taps to calibration and marks the head. -/
  | tapClampLimit (a : ActId) (h : HeadId)
  /-- DETECTION_NOTICE (R177): The CFE announces a codeword's LLRs, and the pool dispatches or pre-empts work for it. -/
  | detectionNotice (a : ActId) (cmd key : Nat)
  /-- ITERATION_BOUNDARY (R177): An engine ends an iteration, tests the syndrome and the pool dispatches waiting attempts. -/
  | iterationBoundary (e : Fin 64) (zero : Bool) (out : DecOut) (taps : TapSet)
  /-- ROUND_REDETECTION_DONE (R172): New LLRs of a re-detection round enter the attempt at an iteration boundary. -/
  | roundRedetectionDone (e : Fin 64)
  /-- REPLAY_LLRS_READY (R180): A rung-2 replay writes fresh LLRs 10.0 µs after its request, and the attempt enters the pool. -/
  | replayLlrsReady (rep : Reframing)
  /-- DECODER_SELF_TEST (R184): An engine runs its known-answer test, and a failure retires it. -/
  | decoderSelfTest (e : Fin 64) (memory pass : Bool)
  /-- DECODER_RETIRE (R187): DECODER_CTRL action 1 retires an engine unless the planning margin would break. -/
  | decoderRetire (r : Requester)
  /-- DECODER_RETEST (R187): DECODER_CTRL action 2 retests an engine and returns it to the pool on a pass. -/
  | decoderRetest (r : Requester)
  /-- DECODER_STATUS (R187): DECODER_CTRL action 3 returns an engine's state and failure count. -/
  | decoderStatus (r : Requester)
  /-- READ_RUN (R191): Formatter opcode 0x01 runs a media read. -/
  | readRun (a : ActId)
  /-- READ_REPLAY (R180): Formatter opcode 0x02 runs a rung-2 replay of retained samples. -/
  | readReplay (a : ActId)
  /-- READ_AVERAGE (R181): Formatter opcode 0x03 re-reads passages and averages their samples. -/
  | readAverage (a : ActId)
  /-- SQUEEZE_CHECK (R206): Formatter opcode 0x04 re-reads track t − 1 after an off-track band write abandonment. -/
  | squeezeCheck (a : ActId) (failed : Option (Fin 65536))
  /-- WRITE_CONV (R199): Formatter opcode 0x10 writes a conventional run after any map intent record. -/
  | writeConv (a : ActId)
  /-- WRITE_BAND (R205): Formatter opcode 0x11 writes shingled band segments, keeping track t − 1 sources. -/
  | writeBand (a : ActId)
  /-- WRITE_LANDING (R139): Formatter opcode 0x12 writes landing-band segments with their record header. -/
  | writeLanding (a : ActId)
  /-- WRITE_RECORD (R198): Formatter opcode 0x13 writes a reserved media area record twice. -/
  | writeRecord (a : ActId)
  /-- ASSIST_CAL (R349): Formatter opcode 0x20 runs an assist power calibration pass. -/
  | assistCal (a : ActId) (o : AsstCal)
  /-- CHANNEL_CAL (R349): Formatter opcode 0x21 runs a channel and servo calibration pass. -/
  | channelCal (a : ActId) (o : ChanCal)
  /-- ROM_FAULT_ROUTINE (R191): An invalid dispatch entry or unlisted opcode reports the command failed and counts CFG_WRT_ABANDON. -/
  | romFaultRoutine (a : ActId)
  /-- WAYMARK_PASSED (R195): A commit group's waymark passes when its write, acknowledgement and journal acceptance complete. -/
  | waymarkPassed (a : ActId)
  /-- JOURNAL_WRITE_DUE (R198): A band journal buffer unwritten for 10 s is written as grazing. -/
  | journalWriteDue (a : ActId)
  /-- ROUTINE_RESTART (R197): An abandoned routine restarts or resumes at the next passage of its first sector. -/
  | routineRestart (a : ActId)
  /-- ASSIST_FEEDBACK (R209): An assist feedback sample updates the drive code for the next sector. -/
  | assistFeedback (a : ActId) (sample : BitVec 10) (meas : DriveMeas)
  /-- DUTY_WINDOW_END (R213): Each 100 ms window the formatter reports each domain's write-level time to admission. -/
  | dutyWindowEnd
  /-- ASSIST_STATUS (R215): ASSIST_STATUS returns a head's assist state, wear and energy. -/
  | assistStatus (r : Requester)
  /-- FORMATTER_IDLE (R193): Every formatter of a held herd reaches idle, and the new dispatch and detour image is written and checked. -/
  | formatterIdle (h : Fin 18) (digestOk : Bool)
  /-- POSITION_RECORD (R219): A position record reaches the engine, is classified and creates a run. -/
  | positionRecord (a : ActId) (hi lo : BitVec 64)
  /-- RECORD_MISSING_TIMEOUT (R219): No record at the engine 0.70 µs after the predicted field end makes the wedge missing. -/
  | recordMissingTimeout (a : ActId)
  /-- ACTUATOR_RUN (R227): An actuator loop run executes the law and writes the command record and state mirror. -/
  | actuatorRun (a : ActId) (o : LawOut)
  /-- RUN_OVERRUN (R242): A run not started or stopped at its budget end holds the command, raises write-inhibit and predicts the wedge. -/
  | runOverrun (spin : Bool) (k : ActId) (budget : Nat)
  /-- COMMAND_SLOT_DEPARTURE (R226): At 4.00 µs after the field end the command frame departs, carrying HOLD if no new record. -/
  | commandSlotDeparture (a : ActId)
  /-- MIGRATION_TAKEN (R245): At the first wedge boundary after the target is loaded, the target runs the loop. -/
  | migrationTaken (spin : Bool) (k : ActId) (mirrorOk : Bool)
  /-- LIMP_EXIT (R247): A limp loop migrates to an engine with room and returns to the normal law. -/
  | limpExit (a : ActId)
  /-- WRITE_INHIBIT_RELEASE (R235): Write-inhibit releases after 4 valid wedges within WR_ON and WINH_MIN µs. -/
  | writeInhibitRelease (a : ActId)
  /-- PARK_REPORT (R238): The combo reports the heads parked, and the loop becomes PARKED. -/
  | parkReport (a : ActId)
  /-- RETRACT_EMRG_TIMEOUT (R238): 100 ms after a retract began without a park report, every command carries EMRG. -/
  | retractEmrgTimeout (a : ActId)
  /-- RELOAD_REQUEST (R239): Chamois firmware requests LOAD 1 s after a park for lost or frozen position. -/
  | reloadRequest (a : ActId)
  /-- LOOP_ENGINE_SELF_TEST (R248): A Loop Engine completes its known-answer test, and a failure retires it. -/
  | loopEngineSelfTest (n : Fin 32) (pass : Bool)
  /-- COEFF_SET_LOAD (R222): A coefficient set is loaded after its cycle costs are checked, or refused. -/
  | coeffSetLoad (a : ActId) (ver : BitVec 16) (set : CoeffSet) (rro : Option RroSet)
  /-- SPINDLE_ACTION_START (R21): Once both actuators report parked, the pending brake or slowdown proceeds. -/
  | spindleActionStart (b : BayId)
  /-- LOOP_MIGRATE_ACTUATOR (R250): LOOP_CTRL action 1 migrates an actuator loop. -/
  | loopMigrateActuator (r : Requester)
  /-- LOOP_MIGRATE_SPINDLE (R250): LOOP_CTRL action 2 migrates a spindle loop. -/
  | loopMigrateSpindle (r : Requester)
  /-- LOOP_RETIRE_ENGINE (R250): LOOP_CTRL action 3 retires an engine after moving its loops. -/
  | loopRetireEngine (r : Requester)
  /-- LOOP_RETEST_ENGINE (R250): LOOP_CTRL action 4 retests an engine and returns it on a pass. -/
  | loopRetestEngine (r : Requester)
  /-- LOOP_RELOAD_ACTUATOR (R239): LOOP_CTRL action 5 reloads a PARKED actuator. -/
  | loopReloadActuator (r : Requester)
  /-- LOOP_ENGINE_STATUS (R250): LOOP_CTRL action 6 returns an engine's state and load. -/
  | loopEngineStatus (r : Requester)
  /-- TRACE_ARM (R251): Writing ARM to DIAG_TRC_CTRL starts capture into the trace ring. -/
  | traceArm (f : FnId) (n : Fin 32) (val : Word)
  /-- TRACE_FORCE (R251): Writing FORCE to DIAG_TRC_CTRL triggers the capture now. -/
  | traceForce (f : FnId) (n : Fin 32) (val : Word)
  /-- ZERO_CROSSING_REPORT (R255): The first copy of a zero-crossing report creates a spindle run. -/
  | zeroCrossingReport (b : BayId) (time : BitVec 32) (fields : BitVec 32)
  /-- COMMUTATION_TICK (R255): In ALIGN and OPEN the CFE sends a tick at each commanded TCOMM, creating a run. -/
  | commutationTick (b : BayId)
  /-- SPINDLE_RUN (R258): A spindle run places the next commutation and runs the speed loop. -/
  | spindleRun (b : BayId) (cause : SpinCause)
  /-- SPIN_UP_PHASE_TIMER (R257): A spin-up phase time expires, advancing ALIGN to OPEN or failing the spin-up. -/
  | spinUpPhaseTimer (b : BayId)
  /-- OBSERVER_WINDOW_CLOSE (R266): An expected crossing window closes, and a second empty window declares observer loss. -/
  | observerWindowClose (b : BayId)
  /-- FLOAT_PERIOD_END (R267): The float of one electrical period ends and a relock attempt starts. -/
  | floatPeriodEnd (b : BayId)
  /-- RELOCK_ATTEMPT_END (R267): A relock attempt ends; success resumes drive, and two failures brake the spindle. -/
  | relockAttemptEnd (b : BayId) (u v : Unit)
  /-- BUS_SAMPLE (R269): Every 10 µs the domain bus is evaluated, and brakes and lowerings react. -/
  | busSample (d : Fin 4) (busv : BitVec 12) (chop : Bool)
  /-- SPINDLE_STOP_DETECTED (R270): A brake below 1,000 rpm with no crossing for 100 ms declares the spindle stopped. -/
  | spindleStopDetected (b : BayId)
  /-- SHORTED_HOLD_END (R270): After 1 s of shorted windings all phases open, and the state is STOPPED. -/
  | shortedHoldEnd (b : BayId)
  /-- DOMAIN_FAULT (R271): One or two BUSV below VTRIP for 10 µs take the domain's actuators out of service. -/
  | domainFault (d : Fin 4)
  /-- DOMAIN_RESTORE (R272): BUSV above VTRIP + 0.4 V for 100 ms restores the domain, and its bays rejoin. -/
  | domainRestore (d : Fin 4)
  /-- GAIT_TARGET_RECOMPUTE (R260): Every 100 ms the herd's Chamois core recomputes each bay's target gait. -/
  | gaitTargetRecompute (b : BayId) (u v w x : Unit)
  /-- POWER_PROJECTION (R262): The device projects shelf power and recomputes power ceilings. -/
  | powerProjection (pkgMw : Nat)
  /-- PWRCAP_WINDOW (R261): A 10 ms PWRCAP window ends and the cap is updated or defaulted. -/
  | pwrcapWindow (duty : Fin 101)
  /-- SPIN_UP_TOKEN_GRANT (R265): A domain issues a spin-up token to the first waiting request it can. -/
  | spinUpTokenGrant (d : Fin 4)
  /-- IDLE_TIMER_EXPIRY (R278): A bay with no admitted command for IDLE_T seconds enters Idle. -/
  | idleTimerExpiry (b : BayId)
  /-- STANDBY_TIMER_EXPIRY (R278): A bay with no admitted command for STBY_T seconds enters Standby. -/
  | standbyTimerExpiry (b : BayId)
  /-- STANDBY_ENTRY_READY (R275): Once the bay holds no commands or data, both actuators retract and the spindle brakes. -/
  | standbyEntryReady (b : BayId)
  /-- POWER_STATE_ACTIVE (R277): POWER_STATE STATE 0 requests Active for a bay or all bays. -/
  | powerStateActive (r : Requester)
  /-- POWER_STATE_IDLE (R275): POWER_STATE STATE 1 requests Idle. -/
  | powerStateIdle (r : Requester)
  /-- POWER_STATE_STANDBY (R275): POWER_STATE STATE 2 requests Standby. -/
  | powerStateStandby (r : Requester)
  /-- POWER_STATUS (R279): POWER_STATUS returns a bay's power state, gait, ceiling and exit time. -/
  | powerStatus (r : Requester)
  /-- UPSTREAM_FRAME (R291): An upstream frame is received and checked; samples and telemetry are delivered or erased. -/
  | upstreamFrame (a : ActId) (u1 : Bool) (fr : UpFrame)
  /-- UPSTREAM_SILENCE_TIMEOUT (R295): No upstream frame passing its check for 2 µs declares the link lost. -/
  | upstreamSilenceTimeout (a : ActId)
  /-- EMRG_PERIOD_END (R295): After 1 ms of EMRG frames, lane D goes to electrical idle. -/
  | emrgPeriodEnd (a : ActId)
  /-- CAUSEWAY_RETRAIN (R299): A lost link retrains from BASIC 10 ms after loss, and every 10 s after a failed retraining. -/
  | causewayRetrain (a : ActId)
  /-- TRAINING_PHASE_END (R297): A training phase passes or reaches its time limit. -/
  | trainingPhaseEnd (a : ActId) (o : TrainOut)
  /-- INSERTION_DECLARED (R300): 100 ms of presence assertion declares an insertion and starts bring-up. -/
  | insertionDeclared (b : BayId)
  /-- REMOVAL_DECLARED (R302): 100 µs of presence deassertion declares a removal, and admitted commands complete with BAY_REMOVED. -/
  | removalDeclared (b : BayId)
  /-- BRING_UP_RETRY (R301): A failed bring-up attempt is retried after 1 s. -/
  | bringUpRetry (b : BayId)
  /-- CALIBRATION_CHECK_END (R357): The bring-up calibration check ends, and the media state is determined or the attempt fails. -/
  | calibrationCheckEnd (b : BayId) (c : CalData)
  /-- LINK_RETRAIN_ACTUATOR (R305): LINK_CTRL action 1 retrains a PARKED actuator's link. -/
  | linkRetrainActuator (r : Requester)
  /-- LINK_PREPARE_REMOVAL (R303): LINK_CTRL action 2 prepares a bay for removal. -/
  | linkPrepareRemoval (r : Requester)
  /-- LINK_CANCEL_PREPARATION (R303): LINK_CTRL action 3 cancels a removal preparation. -/
  | linkCancelPreparation (r : Requester)
  /-- LINK_STATUS (R305): LINK_CTRL action 4 returns the link state and counters. -/
  | linkStatus (r : Requester)
  /-- LINK_READ_DESCRIPTOR (R305): LINK_CTRL action 5 returns descriptor bytes. -/
  | linkReadDescriptor (r : Requester)
  /-- SCRUB_LINE_READ (R331): The scrubber reads a DRAM or SRAM line and repairs or poisons it on a failure. -/
  | scrubLineRead (r : ScrubRead)
  /-- MERGE_ENTRY_AGE (R328): A merge buffer entry is written out 8 µs after its first write. -/
  | mergeEntryAge (ok : Bool)
  /-- WAY_GROUP_DISABLE (R318): A 1 in WGDIS starts the walk that evicts and invalidates a way group. -/
  | wayGroupDisable (f : FnId) (g : Fin 8)
  /-- WAY_GROUP_ENABLE (R319): A 0 in WGDIS returns a way group to allocation. -/
  | wayGroupEnable (f : FnId) (g : Fin 8)
  /-- CACHE_DISABLE (R320): CDIS = 1 walks every group and makes the victim store the privileged cache. -/
  | cacheDisable (f : FnId)
  /-- CACHE_ENABLE (R320): CDIS = 0 re-enables the groups whose WGDIS bits are clear. -/
  | cacheEnable (f : FnId)
  /-- WAY_GROUP_WALK_END (R318): A disable walk ends, and the group is powered down. -/
  | wayGroupWalkEnd (g : Fin 8)
  /-- LAYOUT_READ_IN_FORCE (R310): MEM_LAYOUT action 1 returns the layout in force. -/
  | layoutReadInForce (r : Requester)
  /-- LAYOUT_READ_PENDING (R310): MEM_LAYOUT action 2 returns the pending layout record. -/
  | layoutReadPending (r : Requester)
  /-- LAYOUT_WRITE_PENDING (R310): MEM_LAYOUT action 3 writes a pending layout after checking R309. -/
  | layoutWritePending (r : Requester)
  /-- LAYOUT_DISCARD_PENDING (R310): MEM_LAYOUT action 4 discards the pending layout record. -/
  | layoutDiscardPending (r : Requester)
  /-- POISON_READ (R327): POISON_CTRL action 1 returns Poison List entries. -/
  | poisonRead (r : Requester)
  /-- POISON_CLEAR (R327): POISON_CTRL action 2 clears a kind 1 or kind 2 entry. -/
  | poisonClear (r : Requester)
  /-- CALIBRATION_DUE (R349): A scheduled calibration falls due and is queued as grazing. -/
  | calibrationDue (a : ActId) (h : HeadId) (kind : Fin 4) (gait : Fin 4)
  /-- PLAN_EMPTY_PERIOD (R348): A plan-empty period passes, and pending gait-specific corrections take effect. -/
  | planEmptyPeriod (a : ActId)
  /-- ASSIST_CAL_RETRY (R351): A failed assist calibration is retried after 1 s, 10 s and 60 s. -/
  | assistCalRetry (a : ActId) (h : HeadId)
  /-- CALREF_CHECK (R353): Each second CALREF is measured against the bandgap, and trims are computed or held. -/
  | calrefCheck (uv10 : BitVec 18)
  /-- GRAZE_READ_UNREADABLE (R358): GRAZE_CTRL action 1 returns unreadable-sector table entries. -/
  | grazeReadUnreadable (r : Requester)
  /-- GRAZE_CLEAR_ENTRY (R344): GRAZE_CTRL action 2 with KIND 0 clears an unreadable-sector entry. -/
  | grazeClearEntry (r : Requester)
  /-- GRAZE_RECAL_CHANNEL (R358): GRAZE_CTRL action 2 with KIND 1 queues channel calibration of a head. -/
  | grazeRecalChannel (r : Requester)
  /-- GRAZE_RECAL_SERVO (R358): GRAZE_CTRL action 2 with KIND 2 queues servo calibration of a head. -/
  | grazeRecalServo (r : Requester)
  /-- GRAZE_RECAL_ASSIST (R351): GRAZE_CTRL action 2 with KIND 3 retries assist calibration of a suspended head. -/
  | grazeRecalAssist (r : Requester)
  /-- GRAZE_WEAR_STATUS (R346): GRAZE_CTRL action 3 returns wear and grazing figures. -/
  | grazeWearStatus (r : Requester)
  /-- GRAZE_PLAN_EMPTY_REQUEST (R348): GRAZE_CTRL action 4 requests a plan-empty period on a busy actuator. -/
  | grazePlanEmptyRequest (r : Requester)
  /-- THERMAL_EVALUATION (R363): Every 10 ms readings are updated, and each sensor and scope level is evaluated. -/
  | thermalEvaluation (rs : List TempReading)
  /-- CEILING_STEP_TIMER (R365): The thermal ceiling steps down every 2 s at action, or up every 30 s at normal. -/
  | ceilingStepTimer (b : Option BayId)
  /-- THERMTRIP (R369): A die comparator trips at 110 °C and latches THERMTRIP_N. -/
  | thermtrip (n : Fin 96)
  /-- THERMAL_BAY_STATUS (R370): THERMAL_CTRL action 1 returns a bay's thermal status. -/
  | thermalBayStatus (r : Requester)
  /-- THERMAL_SUBSTITUTE (R370): THERMAL_CTRL action 2 substitutes a broken bay sensor. -/
  | thermalSubstitute (r : Requester)
  /-- THERMAL_END_SUBSTITUTION (R370): THERMAL_CTRL action 3 ends a substitution. -/
  | thermalEndSubstitution (r : Requester)
  /-- ISLAND_RESET (R382): A write to CLK_ISL_RST resets a channel, decoder or loop island. -/
  | islandReset (f : FnId) (isl : BitVec 8) (flight : Tab Nat)
  /-- CROSSING_REARM (R381): When the reset side signals ready, the crossing is re-armed. -/
  | crossingRearm (isl : Fin 217)
  /-- CLOCK_SWITCH (R374): A channel island switches its clock glitch-free between transfers. -/
  | clockSwitch (a : ActId) (st : SwitchStep)
  /-- TIMEREF_LOST (R383): TIMEREF is lost, and the PLLs hold on the on-die oscillator. -/
  | timerefLost
  /-- TIMEREF_RESTORED (R383): TIMEREF good for 10 ms slews the oscillator back to its phase. -/
  | timerefRestored
  /-- PPS_EDGE (R384): A PPS_IN edge qualifies the lock and disciplines device time by a step or a slew. -/
  | ppsEdge (falling : Bool)
  /-- PPS_LOST (R384): 2 s without a qualified PPS edge declares PPS lost. -/
  | ppsLost
  /-- MAILBOX_DEFERRED_RESPONSE (R389): A message that responds after its operation writes its response when the operation ends. -/
  | mailboxDeferredResponse (r : Requester) (pass : Bool)
  /-- SMBUS_REQUEST_WRITE (R391): SMBus command 0x01 writes bytes into the sideband request buffer. -/
  | smbusRequestWrite (off : BitVec 16) (data : List Byte) (pec : Bool)
  /-- SMBUS_STATUS_READ (R391): SMBus command 0x03 returns the sideband MBX_STAT and MBX_RSP. -/
  | smbusStatusRead
  /-- SMBUS_READ_OFFSET (R391): SMBus command 0x04 sets the response read offset. -/
  | smbusReadOffset (off : BitVec 16) (pec : Bool)
  /-- SMBUS_RESPONSE_READ (R391): SMBus command 0x05 returns response bytes and advances the offset. -/
  | smbusResponseRead
  /-- IDENTIFY (R393): IDENTIFY returns the device's identity and the requester's function. -/
  | identify (r : Requester)
  /-- QUEUE_CREATE (R61): QUEUE_CREATE creates an SQ or CQ within the limits. -/
  | queueCreate (r : Requester)
  /-- QUEUE_DELETE (R394): QUEUE_DELETE deletes a queue, stopping an SQ's fetch at once. -/
  | queueDelete (r : Requester)
  /-- QUEUE_RESET (R85): QUEUE_RESET stops fetch and aborts the function's commands not at their waymark. -/
  | queueReset (r : Requester)
  /-- NS_CREATE (R395): NS_CREATE creates a namespace on an actuator set. -/
  | nsCreate (r : Requester)
  /-- NS_DELETE (R395): NS_DELETE discards a namespace's data and frees its space. -/
  | nsDelete (r : Requester)
  /-- NS_GRANT (R396): NS_GRANT with GRANT 1 stages a grant of a namespace to a port. -/
  | nsGrant (r : Requester)
  /-- NS_REVOKE (R396): NS_GRANT with GRANT 0 stages a revocation. -/
  | nsRevoke (r : Requester)
  /-- NS_ATTACH (R396): NS_ATTACH with ATTACH 1 attaches a granted namespace to a function. -/
  | nsAttach (r : Requester)
  /-- NS_DETACH (R396): NS_ATTACH with ATTACH 0 detaches a namespace from a function. -/
  | nsDetach (r : Requester)
  /-- NS_INFO (R393): NS_INFO returns a namespace's type, state and grants. -/
  | nsInfo (r : Requester)
  /-- CFG_COMMIT (R398): CFG_COMMIT checks every staged value and starts a configuration epoch. -/
  | cfgCommit (r : Requester)
  /-- CFG_STATUS (R398): CFG_STATUS returns epoch application state. -/
  | cfgStatus (r : Requester)
  /-- EPOCH_SAFE_POINT (R398): At wedge 0 an actuator applies the new epoch's class table, policy and weights. -/
  | epochSafePoint (a : ActId)
  /-- FLASH_RECORD_WRITTEN (R398): The configuration flash record passes its read-back, and FLASH_PEND clears. -/
  | flashRecordWritten (wr : FlashWrite)
  /-- TALLY_RING_CREATE (R405): TALLY_RING action 1 creates a tally ring. -/
  | tallyRingCreate (r : Requester)
  /-- TALLY_RING_DELETE (R405): TALLY_RING action 2 deletes a tally ring. -/
  | tallyRingDelete (r : Requester)
  /-- TALLY_RING_STATUS (R405): TALLY_RING action 3 returns a ring's next sequence number. -/
  | tallyRingStatus (r : Requester)
  /-- STEWARD_MOVE (R397): The sideband moves stewardship when the steward's port has been down. -/
  | stewardMove (r : Requester)
  /-- TALLY_MINUTE_END (R405): At each minute's end, function, namespace and device records are written to their rings. -/
  | tallyMinuteEnd (spinPj : Nat) (decPj : Nat) (chTrim : Option (Nat × Nat))
  /-- COLD_RST_ASSERT (R449): An assertion of COLD_RST_N of 10 µs or more holds every island but always-on in reset. -/
  | coldRstAssert (ns : Nat)
  /-- COLD_RST_DEASSERT (R414): COLD_RST_N ends, the straps are sampled, device time starts at 0 and a start begins. -/
  | coldRstDeassert (st : Straps) (bad : List Nat) (lost : List Nat)
  /-- START_COMPLETE (R416): All components are loaded and checked, the counter returns to 0 and the bays are brought up. -/
  | startComplete (img : FlashImage) (failedDe failedLe : List Nat)
  /-- START_TIMEOUT (R415): Start complete not reached within 30 s fails the start. -/
  | startTimeout
  /-- MARKHOR_WATCHDOG (R418): An unserviced Markhor watchdog fails the start, restarts a core or resets the device. -/
  | markhorWatchdog
  /-- CHAMOIS_WATCHDOG (R418): A Chamois watchdog restarts that herd's firmware and holds its arrivals. -/
  | chamoisWatchdog (h : Fin 18)
  /-- DEVICE_LEVEL_RESET (R419): A device-level reset lands staged data, resets the islands and begins a start. -/
  | deviceLevelReset (landed : Tab (Option Nat))
  /-- DEVICE_RESET (R434): DEVICE_RESET action 1 requests a device-level reset 10 ms after the response. -/
  | deviceReset (r : Requester)
  /-- TRAILHEAD_RESET (R420): DEVICE_RESET action 2 resets into Trailhead mode. -/
  | trailheadReset (r : Requester)
  /-- FW_WRITE (R434): FW_CTRL action 1 writes image bytes into a slot. -/
  | fwWrite (r : Requester)
  /-- FW_VERIFY (R412): FW_CTRL action 2 verifies a slot's image. -/
  | fwVerify (r : Requester)
  /-- FW_ACTIVATE (R422): FW_CTRL action 3 announces the pause and activates changed components. -/
  | fwActivate (r : Requester)
  /-- FW_STATUS (R434): FW_CTRL action 4 returns slot and activation state. -/
  | fwStatus (r : Requester)
  /-- FW_RAISE_SVN (R413): FW_CTRL action 5 raises BOOT_SVN.MIN to the running image's SVN. -/
  | fwRaiseSvn (r : Requester)
  /-- FW_SET_PREFERRED (R434): FW_CTRL action 6 sets the preferred slot to a verified slot. -/
  | fwSetPreferred (r : Requester)
  /-- FW_ERASE (R434): FW_CTRL action 7 erases a slot. -/
  | fwErase (r : Requester)
  /-- FW_CANCEL_ACTIVATION (R423): FW_CTRL action 8 cancels an activation and rolls it back. -/
  | fwCancelActivation (r : Requester)
  /-- ACTIVATION_HOLD_START (R55): An activation hold starts when the pause fits every affected plan as a slack-safe change. -/
  | activationHoldStart
  /-- QUARANTINE_STATUS (R434): QUARANTINE_CTRL action 1 returns a bay's quarantine state. -/
  | quarantineStatus (r : Requester)
  /-- QUARANTINE_RELEASE (R421): QUARANTINE_CTRL action 2 clears the record and starts a bring-up. -/
  | quarantineRelease (r : Requester)
  /-- KEY_GENERATE (R430): KEY_CTRL action 1 generates, loads and returns a namespace key blob. -/
  | keyGenerate (r : Requester)
  /-- KEY_LOAD (R430): KEY_CTRL action 2 loads a key from a matching blob. -/
  | keyLoad (r : Requester)
  /-- KEY_UNLOAD (R71): KEY_CTRL action 3 starts unloading a namespace key. -/
  | keyUnload (r : Requester)
  /-- KEY_STATUS (R430): KEY_CTRL action 4 returns a key slot's state and generation. -/
  | keyStatus (r : Requester)
  /-- SANITIZE_CRYPTO_ERASE (R431): SANITIZE KIND 1 starts a crypto erase of the scope. -/
  | sanitizeCryptoErase (r : Requester)
  /-- SANITIZE_OVERWRITE (R431): SANITIZE KIND 2 starts a crypto erase followed by an overwrite. -/
  | sanitizeOverwrite (r : Requester)
  /-- SANITIZE_WAIT_END (R431): When no ledger entry of the scope remains, the sanitize runs its CRYPTO state. -/
  | sanitizeWaitEnd (id : Nat)
  /-- SANITIZE_STATUS (R434): SANITIZE_STATUS returns a sanitize operation's state and progress. -/
  | sanitizeStatus (r : Requester)
  /-- LCK_CTRL_WRITE (R425): A steward write to LCK_CTRL sets lock bits, which stay set until a cold reset. -/
  | lckCtrlWrite (f : FnId) (val : Word)
  /-- DBG_CTRL_WRITE (R427): A steward write to DBG_CTRL opens or closes the DIAG window and JTAG debug. -/
  | dbgCtrlWrite (f : FnId) (val : Word)
  /-- BOOT_FWKEY_WRITE (R413): A write to BOOT_FWKEY enables key slots and is stored in the boot record. -/
  | bootFwkeyWrite (f : FnId) (val : Word)
  /-- MARKHOR_CORE_SWITCH (R422): During an activation, a Markhor core reaches core idle and switches to the new image; for core 0 this ends the handover hold. -/
  | markhorCoreSwitch
  /-- CORE_SWITCH_TIMEOUT (R423): A Markhor or Chamois core not running within 1 s of its switch fails the activation and starts the rollback. -/
  | coreSwitchTimeout
  /-- HERD_FIRMWARE_RESTART_END (R418): A herd's Chamois firmware restart ends, and the arrivals held on its 8 actuators are tested with deadlines counted from arrival. -/
  | herdFirmwareRestartEnd (h : Fin 18)
  /-- SLOT_ERASE_END (R434): A slot erase started by FW_CTRL action 7 ends, STATE returns to 0 and event 0x782 latches. -/
  | slotEraseEnd
  /-- SLOT_VERIFY_END (R412): A slot verify started by FW_CTRL action 2 ends with its outcome; a pass marks the slot verified and in Trailhead mode clears the counter. -/
  | slotVerifyEnd (img : FlashImage)
  /-- START_IMAGE_INVALID (R415): During a start, the chosen slot's image is found invalid or unreadable, and the start fails. -/
  | startImageInvalid (img : FlashImage)
  /-- D3HOT_TRANSITION (R121): A function enters D3hot or returns to D0; in D3hot the device issues no request for it, and on return deliveries and held completions resume. -/
  | d3hotTransition (f : FnId) (enter : Bool)
  /-- VF_ENABLE_CHANGE (R122): The host sets or clears VF Enable of a PF, enabling the VFs or resetting every VF under it. -/
  | vfEnableChange (f : FnId) (on : Bool) (n : Fin 64)
  /-- JTAG_INSTRUCTION (R427): A JTAG instruction is loaded and acts, or acts as BYPASS when JTAG_DBG is 0. -/
  | jtagInstruction (op : JtagOp)
  /-- SMBUS_REQUEST_START (R391): SMBus command 0x02 writes OPCODE and LEN and starts the sideband request as a write of MBX_GO. -/
  | smbusRequestStart (op : BitVec 16) (len : BitVec 16) (seq : BitVec 16) (pec : Bool)
  /-- ISLAND_HARD_FAULT_RESET (R380): An island resets on its own after a hard fault in its own logic, and the live sides of its crossings see the peer-reset indication. -/
  | islandHardFaultReset (isl : Fin 217) (flight : Tab Nat)
  /-- MARGINAL_REREAD_DUE (R341): One eighth of SCRUB_D after a pass, the marginal sectors of a band left in place are queued to be read again. -/
  | marginalRereadDue (a : ActId)
  deriving DecidableEq, Repr

end Sys2Proof
end

