-- ==== Sys2Proof/Decode.lean ====
section
/-! DEFINITION. Reading a command from a word of the opcode table. -/
namespace Sys2Proof

/-- The command a word spells by the bits of spec/opcode_table.json: the table gives no row any bits, since the block's
commands arrive as TLPs, frames, events and pins, so no word spells a command. -/
def decodeTableWord (_nbits _w : Nat) : Option Instr := none

end Sys2Proof
end

