-- ==== Sys2Proof/Config.lean ====
section
/-! DEFINITION. What an implementation fixes and the spec does not list, and the free values: constants with no body, so
that no proof can see what they are. -/
namespace Sys2Proof

/-- The free value numbered `n`: an unstated result takes the next number of State's counter `fresh`. -/
opaque Config.freeValue : Nat → BitVec 64

/-- Silicon revision B1, IDENTIFY SILREV and VF_IDENT (15 Table 15.5, 17 Table 17.20, 18 R461). -/
def Config.silRev : BitVec 8 := 0x11#8

/-- Device Serial Number (04 R104). -/
opaque Config.serialNumber : BitVec 64

/-- Vendor ID of Saluold Microsystems (04 R104). -/
opaque Config.vendorId : BitVec 16

/-- Completion timeout in ns for a value of Device Control 2 other than 0 (04 R107, R112). -/
opaque Config.ctoNs : BitVec 4 → Nat

/-- What limp adds to the seek bound of bin `k` (gait and distance) of actuator `a`, in ns (02 R51, 08 R246). -/
opaque Config.limpSeek : Nat → Nat → Nat

/-- Which three block rows block column `c` of the LDPC code has circulants in, as an index of the 455 such sets (06 R170). -/
opaque Config.ldpcRows : Nat → BitVec 16

/-- Shift of entry `i` of the LDPC code table (06 Table 6.18). -/
opaque Config.ldpcShift : Nat → BitVec 8

/-- What the detector makes of both readers' samples, the taps, a target, the form of the reference, the position of the codeword's first bit and the
round, for codeword bit `i`, before it is limited to 6 bits: the detector's arithmetic is not stated (06 R161, R165, R168, R172). -/
opaque Config.llr : List (List (BitVec 6)) → TapSet → List Int → Nat × Int × Nat → Nat → BitVec 32

/-- The running average of a reader's samples with those of passage `k`, on the sector's bit grid: the interpolation is not stated (06 R181). -/
opaque Config.average : List (BitVec 6) → List (BitVec 6) → Nat → List (BitVec 6)

/-- Length of a wedge's servo field in ns, and the time from its end to the arrival of its record: the spec gives neither (06 R157, 08 R219). -/
opaque Config.fieldNs : Nat
/-- Time from the end of a wedge's servo field to the arrival of its record in ns (06 R157, 08 R219). -/
opaque Config.recordNs : Nat

/-- Voltage in mV of a laser at a drive current in µA that its current-voltage table does not reach (07 R214). -/
opaque Config.ivOutside : Nat → Nat

/-- What a head switch that changes heater power adds to the seek bound, in ns (07 R212). -/
opaque Config.heaterNs : Nat

/-- The loop engines' fused multiply-add of single-precision floats, `a b + c`: its rounding is not stated (08 R220). -/
opaque Config.fma : Word → Word → Word → Word

/-- `n / 10,240` as a single-precision float where that is not exact (08 R227). -/
opaque Config.f32Track : Int → Word

/-- The correction c of a runout entry in 1/10,240 of a track: the unit of its 16 bits is not stated (08 R230). -/
opaque Config.runoutCorr : BitVec 16 → Int

/-- The feed-forward value of a runout entry's 16 bits as a float: its scale is not stated (08 R230). -/
opaque Config.runoutF : BitVec 16 → Word

/-- The input of the RETRACT law from the voice-coil velocity telemetry and the set's retract velocity: not stated (08 R238). -/
opaque Config.retractErr : BitVec 16 → Word → Word

/-- The input of the SEEK law from the trajectory table of the distance bin and the position error: not stated (08 R229, Table 8.6). -/
opaque Config.trajectory : List Word → Word → Word

/-- The voice-coil (true) or microactuator field of a command for a value of the law, saturated to full scale: its scale is not stated (08
R227, Table 8.5). -/
opaque Config.toDrive : Bool → Word → BitVec 16

/-- Does that value saturate: 1 above full scale, -1 below, else 0 (08 R228)? -/
opaque Config.overScale : Bool → Word → Int

/-- Integrator `i` of a law at a state, solved so that Cv x and Cm1 x have the values given: where the two equations have no one solution the
spec does not state which (08 R232). -/
opaque Config.solve : Law → List Word → Word × Word → Nat → Word

/-- The measured wedge period's place between those of two gaits, as a float from 0 to 1 (08 R233). -/
opaque Config.mix : Nat → Nat → Nat → Word

/-- Advance in tenths of an electrical degree by the advance table, the speed in rpm and the phase current in mA: how the table is read between its entries
is not stated (09 R256). -/
opaque Config.advance : List (Nat × Nat × Nat) → Nat → Int → Fin 151

/-- The motor model observer at a crossing: its new time per 60 electrical degrees and the correction of its angle, both in ns, from the motor's
constants, its time before, the crossing's error in ns and the phase current (09 R256). -/
opaque Config.observe : List Word → Nat → Int → Int → Nat × Int

/-- The speed loop's phase current in mA and its new integral, from its gains, its integral, the speed error in 1/1,000 rpm and the acceleration in
rpm/s (09 R258). -/
opaque Config.speedLaw : List Word → Word → Int → Int → Nat × Word

/-- Phase current command of the OPEN schedule in mA (09 Table 9.3). -/
opaque Config.openMa : Nat

/-- Fixed pipeline delays of the downstream (true) or upstream direction of a link, in 0.1 ns (10 R298). -/
opaque Config.pipeDelay : Bool → Int

/-- Parity bit `i` that the LDPC code gives to information bits (06 R170, 07 R201). -/
opaque Config.ldpcParity : List Bool → Nat → Bool

/-- XTS-AES-256 of a sector's bytes under the key of a key slot and key generation, by LBA (16 R428). -/
opaque Config.cipher : Nat → BitVec 32 → Nat → List Byte → List Byte

/-- Mask of a sector's CRC: AES-256 of its tag under the mask key of a key slot and key generation (06 R169, 16 R428). -/
opaque Config.crcMask : Nat → BitVec 32 → BitVec 128 → BitVec 64


/-- Crossings of an island, less one: CLK_ISL_STAT.XCOUNT shows them (14 Table 14.6). -/
opaque Config.crossings : Nat → Fin 16

/-- CLK_XING_STAT.DIR of crossing `x` of an island (14 Table 14.6). -/
opaque Config.crossDir : Nat → Nat → Bool

/-- CLK_XING_STAT.KIND of crossing `x` of an island (14 Table 14.6). -/
opaque Config.crossKind : Nat → Nat → Bool

/-- CLK_XING_STAT.PEER_ISL of crossing `x` of an island (14 Table 14.6). -/
opaque Config.crossPeer : Nat → Nat → BitVec 8

/-- SHA-384 hash of a public key fused at manufacture, by key slot (16 R413). -/
opaque Config.keyHash : Nat → List Byte

/-- How long what leaves the line cache for line `x` at a device time takes to reach DRAM, in ns; at most 2 µs for a write-back, at most 8 ns a line
for the victim store (11 R315, R316). -/
opaque Config.dramNs : Nat → Nat → Nat

/-- Spare rows, or with `true` spare columns, of an SRAM macro the factory fuse map has assigned, 0 to 2 (11 R333). -/
opaque Config.fusedSpares : Nat → Bool → Nat

end Sys2Proof
end

