-- ==== Sys2Proof/Machine/Types.lean ====
section
/-! DEFINITION. The pieces State is made of: one structure per unit of the block, each field naming the register or the
implied state it holds, its width, the file and rule or table of spec/ that gives it, and its value at reset. -/
namespace Sys2Proof.Machine

/-- The operation a deferred mailbox response waits for (15 R389). -/
inductive Owed where
  /-- deletion of the submission queue of this key (15 R394) -/
  | sqDelete (key : Nat)
  /-- migration of an actuator loop (`spin = false`) or a spindle loop to an engine (08 R250) -/
  | migrate (spin : Bool) (loop : Nat) (target : Nat)
  /-- retirement of a Loop Engine (08 R250) -/
  | leRetire (le : Nat)
  /-- retest of a Loop Engine (08 R250) -/
  | leRetest (le : Nat)
  /-- retest of a decoder engine (06 R187) -/
  | deRetest (de : Nat)
  deriving DecidableEq, Repr

/-- assist drive level (07 R208). -/
inductive AssistLevel where
  /-- no drive -/
  | off
  /-- idle bias -/
  | idle
  /-- write level -/
  | write
  deriving DecidableEq, Repr, Inhabited

/-- What leaves the block: every TLP toward a host, sideband data, and the records sent down a Causeway link. -/
inductive OutMsg where
  /-- a completion entry written to a slot of a CQ, eight words (03 R75) -/
  | completion (fn cq slot : Nat) (words : List (BitVec 32))
  /-- a data write to host memory, with its Relaxed Ordering attribute (03 R68, R90, R93, 04 R108) -/
  | hostData (fn addr : Nat) (ro : Bool) (data : List (BitVec 8))
  /-- a read request to host memory: submission entry, scatter segment or write data, with its Relaxed Ordering attribute (04 R108; 03 R63, R69, 01 R17) -/
  | hostRead (fn addr len : Nat) (ro : Bool)
  /-- the data of a register read (04 R105) -/
  | regData (fn off : Nat) (val : BitVec 64)
  /-- the data of a BAR2 read (04 R114) -/
  | bar2Data (port : Nat) (data : List (BitVec 8))
  /-- an AER message: level 0 ERR_COR, 1 ERR_NONFATAL, 2 ERR_FATAL (04 R107) -/
  | errMsg (fn level : Nat)
  /-- a completion with Unsupported Request status (04 R111) -/
  | unsupported (fn : Nat)
  /-- a tally record written to a ring in host memory (15 R406) -/
  | tallyRec (fn addr : Nat) (data : List (BitVec 8))
  /-- bytes returned over SMBus (15 Table 15.3) -/
  | smbus (data : List (BitVec 8))
  /-- the actuator command record of a wedge's command frame (08 R226, 10 R290) -/
  | wedgeCmd (act : Nat) (rec : BitVec 64)
  /-- a sector frame written, with the shift of each bit in 1/64 of a bit and the downstream latency it is sent ahead by, in 0.1 ns (05 R144; 07 R201, R202) -/
  | written (act head key : Nat) (frame : List Bool) (shifts : List Nat) (lead : BitVec 16)
  /-- a heater code for a head, and the latency it is sent ahead by (07 R202, R212) -/
  | heater (act head : Nat) (code : BitVec 8) (lead : BitVec 16)
  /-- an assist drive code and level for a head, and the latency it is sent ahead by (07 R202, R208, R209) -/
  | assist (act head code : Nat) (lvl : AssistLevel) (lead : BitVec 16)
  /-- a write gate entry (10 Table 10.4) -/
  | gate (act : Nat) (on : Bool) (lead : BitVec 16)
  /-- a head select entry (10 Table 10.4; 08 R231) -/
  | headSelect (act head : Nat)
  /-- a rate entry (10 Table 10.4, R284) -/
  | rate (act : Nat) (rate wrate : BitVec 16)
  /-- a lane mode entry: single-lane mode, its lane and reader, for every head (10 Table 10.4, R294) -/
  | laneMode (act : Nat) (single u1 rdr : Bool)
  /-- a spindle command record (09 Table 9.1, 10 R296) -/
  | spinCmd (bay : Nat) (rec : BitVec 64)
  deriving DecidableEq, Repr

/-- where a ledger entry stands (02, 03 R72). -/
inductive Phase where
  /-- ledger entry written, admission not yet run (02 R31) -/
  | arrived
  /-- a DC7 command held unadmitted, or an arrival held by an activation pause (02 R34, 03 R87) -/
  | held
  /-- admitted, work unfinished -/
  | admitted
  /-- status fixed and completion held while Bus Master Enable is clear (02 R57) -/
  | heldCpl
  deriving DecidableEq, Repr, Inhabited

/-- kinds of plan operation (02 Table 2.2, R36). -/
inductive OpKind where
  /-- a media transfer of a command's part -/
  | media
  /-- media operations of a retry rung (02 R49) -/
  | rung
  /-- the band-journal write of a zone FINISH or RESET, or a record write -/
  | journal
  /-- a gait transition or power-state exit -/
  | pause
  /-- the announced pause of an activation, in its place while a change is tested (02 R55) -/
  | hold
  /-- one grazing quantum (02 R52) -/
  | grazing
  /-- one destage quantum (01 R18) -/
  | destage
  deriving DecidableEq, Repr, Inhabited

/-- zone states (05 Table 5.3). -/
inductive ZState where
  /-- 0x1 -/
  | empty
  /-- 0x2 -/
  | implicitOpen
  /-- 0x3 -/
  | explicitOpen
  /-- 0x4 -/
  | closed
  /-- 0xD -/
  | readOnly
  /-- 0xE -/
  | full
  /-- 0xF -/
  | offline
  deriving DecidableEq, Repr, Inhabited

/-- states of a landing-band slot (05 R139). -/
inductive SlotSt where
  /-- reserved for an admitted write -/
  | reserved
  /-- holds a sector not yet committed in its band or superseded -/
  | live
  /-- superseded, committed in its band, or voided by a RESET -/
  | void
  deriving DecidableEq, Repr, Inhabited

/-- Recovery List states (03 Table 3.10). -/
inductive RecState where
  /-- 0x0 -/
  | pending
  /-- 0x1 -/
  | recovered
  /-- 0x2 -/
  | failed
  /-- 0x3 -/
  | stale
  deriving DecidableEq, Repr, Inhabited
/-- one deadline class (02 T2.8-T2.10). -/
structure ClassRow where
  /-- class deadline in us (24; 02 T2.8; Table 2.1 default) -/
  deadline : BitVec 24 := 0
  /-- class margin in us (24; 02 T2.9; Table 2.1 default) -/
  margin : BitVec 24 := 0
  /-- REL_EN (1; 02 T2.10; 1, and 0 for n = 7) -/
  relEn : Bool := true
  /-- EN (1; 02 T2.10; 1) -/
  en : Bool := true
  deriving DecidableEq, Repr

/-- CFG_ADMS_POLICY / CFG_ADMA_POLICY (02 T2.11). -/
structure AdmPolicy where
  /-- GRAZE_WGT (8; 02 T2.11; 0x08) -/
  grazeWgt : BitVec 8 := 8
  /-- FLOOR_PCT (5; 02 T2.11; 5) -/
  floorPct : BitVec 5 := 5
  /-- URG_RES (6; 02 T2.11; 8) -/
  urgRes : BitVec 6 := 8
  deriving DecidableEq, Repr

/-- CFG_LDGS_POLICY / CFG_LDGA_POLICY (03 T3.15). -/
structure LdgPolicy where
  /-- CAP in units of 8 entries (16; 03 T3.15; 0x1000) -/
  cap : BitVec 16 := 0x1000
  /-- FLOOR (10; 03 T3.15; 64) -/
  floor : BitVec 10 := 64
  deriving DecidableEq, Repr

/-- CFG_PWRS_POLICY / CFG_PWRA_POLICY (09 T9.13). -/
structure PwrPolicy where
  /-- TARGET in W (16; 09 T9.13; flash, else 1500) -/
  target : BitVec 16 := 1500
  /-- ASSIST_PCT (8; 09 T9.13; 10) -/
  assistPct : BitVec 8 := 10
  /-- TOKENS per domain (3; 09 T9.13; 6) -/
  tokens : BitVec 3 := 6
  deriving DecidableEq, Repr

/-- CFG_PWRS_GAIT / CFG_PWRA_GAIT (09 T9.13). -/
structure GaitPolicy where
  /-- UTIL_HI (8; 09 T9.13; 70) -/
  utilHi : BitVec 8 := 70
  /-- UTIL_LO (8; 09 T9.13; 45) -/
  utilLo : BitVec 8 := 45
  /-- DWELL in s (8; 09 T9.13; 60) -/
  dwell : BitVec 8 := 60
  /-- MIN_GAIT (2; 09 T9.13; 1) -/
  minGait : BitVec 2 := 1
  deriving DecidableEq, Repr

/-- CFG_PWRS_TIMER / CFG_PWRA_TIMER (09 T9.13). -/
structure TimerPolicy where
  /-- STBY_T in s (16; 09 T9.13; 0) -/
  stbyT : BitVec 16 := 0
  /-- IDLE_T in s (16; 09 T9.13; 0) -/
  idleT : BitVec 16 := 0
  deriving DecidableEq, Repr

/-- everything one configuration epoch covers but the grants (15 R398). -/
structure EpochCfg where
  /-- class table, DC0 to DC7; an absent row reads as Table 2.1 (02 R30; Table 2.1) -/
  classes : Tab ClassRow := []
  /-- admission policy (02 R398) -/
  adm : AdmPolicy := {}
  /-- weight of each function; an absent row reads 0x10 (8 each; 02 T2.12; 0x10) -/
  wgts : Tab (BitVec 8) := []
  /-- ledger policy (03 R74) -/
  ldg : LdgPolicy := {}
  /-- power policy (09 R280) -/
  pwr : PwrPolicy := {}
  /-- gait policy (09 R280) -/
  gait : GaitPolicy := {}
  /-- power-state timers (09 R280) -/
  timer : TimerPolicy := {}
  deriving DecidableEq, Repr

/-- one grant or revocation staged by NS_GRANT (15 R396). -/
structure StagedGrant where
  /-- namespace -/
  nsid : Nat := 0
  /-- port 0 to 3 -/
  port : Nat := 0
  /-- true: grant; false: revoke -/
  grant : Bool := true
  deriving DecidableEq, Repr

/-- THM_LIM[k] (13 T13.9). -/
structure ThmLim where
  /-- EMRG in degrees C -/
  emrg : BitVec 8 := 0
  /-- ACT in degrees C -/
  act : BitVec 8 := 0
  /-- WARN in degrees C -/
  warn : BitVec 8 := 0
  deriving DecidableEq, Repr

/-- the view selectors each PF holds its own copy of (17 R440). -/
structure PfSel where
  /-- CFG_ADM_SEL.ACT (8; 02 T2.13; 0) -/
  adm : BitVec 8 := 0
  /-- CFG_CFE_SEL.ACT (8; 06 T6.9; 0) -/
  cfe : BitVec 8 := 0
  /-- CFG_WRT_SEL.ACT (8; 07 T7.8; 0) -/
  wrt : BitVec 8 := 0
  /-- CFG_SRV_SEL.ACT (8; 08 T8.11; 0) -/
  srv : BitVec 8 := 0
  /-- CFG_SPN_SEL.BAY (7; 09 T9.10; 0) -/
  spn : BitVec 7 := 0
  /-- CFG_CWY_SEL.ACT (8; 10 T10.9; 0) -/
  cwy : BitVec 8 := 0
  /-- CFG_LC_CHSEL.CHAN (5; 11 T11.11; 0) -/
  chan : BitVec 5 := 0
  /-- CFG_GRZ_SEL.ACT (8; 12 T12.9; 0) -/
  grz : BitVec 8 := 0
  /-- THM_SEL.BAY (7; 13 T13.7; 0) -/
  thm : BitVec 7 := 0
  /-- CLK_ISL_SEL.XING (4; 14 T14.6; 0) -/
  xing : BitVec 4 := 0
  /-- CLK_ISL_SEL.ISL (8; 14 T14.6; 0) -/
  isl : BitVec 8 := 0
  deriving DecidableEq, Repr

/-- configuration registers: epochs, staged and applied copies, and the device-wide steward-only registers. -/
structure Cfg where
  /-- staged copies CFG_DCS_*, CFG_ADMS_POLICY, CFG_WGTS, CFG_LDGS_POLICY, CFG_PWRS_* (02 R59; flash/defaults) -/
  staged : EpochCfg := {}
  /-- copies of the latest committed epoch, as the CFG_*A registers show (02 R30; flash/defaults) -/
  applied : EpochCfg := {}
  /-- the steward's own previous commit, under which an actuator still to apply admits (02 R30, 15 R399; as applied) -/
  prev : EpochCfg := {}
  /-- CFG_EPOCH_REQ (32; 15 T15.17; flash, DESIGN CHOICE 0 for an empty record) -/
  epochReq : BitVec 32 := 0
  /-- epoch number of the previous commit (32; 15 R399; as epochReq) -/
  prevEpoch : BitVec 32 := 0
  /-- actuators that have not applied the epoch: CFG_EPOCH_APPLIED bit clear, LEFT = length, APPLYING = non-empty (144; 15 T15.17; all applied) -/
  left : List Nat := []
  /-- CFG_EPOCH_STAT.FLASH_PEND (1; 15 T15.17; 0) -/
  flashPend : Bool := false
  /-- flash configuration record: applied copies (15 R398; flash) -/
  flashCfg : EpochCfg := {}
  /-- flash configuration record: epoch number (15 R400; flash) -/
  flashEpoch : BitVec 32 := 0
  /-- flash configuration record: namespace and port of each grant (15 R396, R398; flash, DESIGN CHOICE none) -/
  flashGrants : List (Nat × Nat) := []
  /-- the applied copies the flash record being written holds (15 R398) -/
  pendCfg : EpochCfg := {}
  /-- its epoch number (15 R398) -/
  pendEpoch : BitVec 32 := 0
  /-- its grants (15 R398) -/
  pendGrants : List (Nat × Nat) := []
  /-- grants and revocations staged since the last commit (15 R396; none) -/
  stagedGrants : List StagedGrant := []
  /-- CFG_MED_SEL.ACT (8; 05 T5.11; 0) -/
  medSel : BitVec 8 := 0
  /-- CFG_MED_HOLDUP.TMAX in ms (12; 05 T5.15; 400) -/
  tmax : BitVec 12 := 400
  /-- CFG_MED_HOLDUP.VTRIP in 0.1 V (8; 05 T5.15; 114) -/
  vtrip : BitVec 8 := 114
  /-- CFG_MED_HOLDUP.VSTOP in 0.1 V (8; 05 T5.15; 102) -/
  vstop : BitVec 8 := 102
  /-- CFG_CFE_SMCFG.SM_THRESH (4; 06 T6.12; 4) -/
  smThresh : BitVec 4 := 4
  /-- CFG_ASST_CFG.LEAD (8; 07 T7.13; 20) -/
  asstLead : BitVec 8 := 20
  /-- CFG_ASST_CFG.STEP_MAX (8; 07 T7.13; 4) -/
  asstStep : BitVec 8 := 4
  /-- CFG_ASST_CFG.GAIN (8; 07 T7.13; 8) -/
  asstGain : BitVec 8 := 8
  /-- CFG_SRV_WCFG.WR_OFF (8; 08 T8.15; 31) -/
  wrOff : BitVec 8 := 31
  /-- CFG_SRV_WCFG.WR_ON (8; 08 T8.15; 20) -/
  wrOn : BitVec 8 := 20
  /-- CFG_SRV_WCFG.RD_LIM (8; 08 T8.15; 38) -/
  rdLim : BitVec 8 := 38
  /-- CFG_SRV_WCFG.WINH_MIN in us (8; 08 T8.15; 70) -/
  winhMin : BitVec 8 := 70
  /-- CFG_SPN_CFG.REGEN_V in 0.1 V (8; 09 T9.11; 132) -/
  regenV : BitVec 8 := 132
  /-- CFG_SPN_CFG.SLEW_OVR (8; 09 T9.11; 0) -/
  slewOvr : BitVec 8 := 0
  /-- CFG_CWY_CFG.ERR_LIMIT (8; 10 T10.10; 64) -/
  errLimit : BitVec 8 := 64
  /-- CFG_MEM_SCRUBCFG.DRAM_H (8; 11 T11.9; 8) -/
  dramH : BitVec 8 := 8
  /-- CFG_MEM_SCRUBCFG.SRAM_MIN (8; 11 T11.9; 10) -/
  sramMin : BitVec 8 := 10
  /-- CFG_GRZ_CFG.SCRUB_D (8; 12 T12.10; 28) -/
  scrubD : BitVec 8 := 28
  /-- CFG_GRZ_CFG.MARG_ITER (8; 12 T12.10; 24) -/
  margIter : BitVec 8 := 24
  /-- SCRUB_D in force since the last grazing quantum (8; 12 R359; 28) -/
  scrubDNow : BitVec 8 := 28
  /-- MARG_ITER in force since the last grazing quantum (8; 12 R359; 24) -/
  margIterNow : BitVec 8 := 24
  /-- flash record of THM_LIM; an absent row is the default of Table 13.9 (24 each; 13 T13.9; flash, DESIGN CHOICE an empty record) -/
  flashThm : Tab ThmLim := []
  /-- THM_LIM[0..5]; an absent row reads the default of Table 13.9 (24 each; 13 T13.9; flash, else defaults) -/
  thmLim : Tab ThmLim := []
  /-- the selectors of the four PFs, by port (17 R440; 0) -/
  sels : Tab PfSel := []
  deriving DecidableEq, Repr

/-- identity, straps, stewardship, locks and captured register halves. -/
structure Glb where
  /-- strap PBIF[3:0] as last sampled (4; 04 R96; strap, DESIGN CHOICE 0) -/
  pbif : BitVec 4 := 0
  /-- strap CLKMODE[3:0] (4; 04 R97; strap, DESIGN CHOICE 0) -/
  clkMode : BitVec 4 := 0
  /-- strap STEWARD_SEL[1:0] (2; 04 R101; strap, DESIGN CHOICE 0) -/
  stewardSel : BitVec 2 := 0
  /-- straps BAR2SZ_P0 to BAR2SZ_P3, 3 bits each (12; 04 R106; strap, DESIGN CHOICE 0) -/
  bar2sz : BitVec 12 := 0
  /-- strap SMBADDR[1:0] (2; 15 R391; strap, DESIGN CHOICE 0) -/
  smbAddr : BitVec 2 := 0
  /-- GLB_STEWARD.PORT (2; 04 T4.2; strap STEWARD_SEL) -/
  steward : BitVec 2 := 0
  /-- LCK_CTRL: 0 STEWARD, 1 ATTACH, 2 TWN, 3 FWKEY, 4 DIAG, 5 JTAG, 6 SANPOL (7; 16 T16.13; 0) -/
  lck : BitVec 7 := 0
  /-- DBG_CTRL.JTAG_DBG (1; 16 T16.13; 0) -/
  jtagDbg : Bool := false
  /-- DBG_CTRL.DIAG_EN (1; 16 T16.13; 1) -/
  diagEn : Bool := true
  /-- JTAG instruction in force, 0 BYPASS (8; 16 R427; DESIGN CHOICE 0) -/
  jtagIr : BitVec 8 := 0
  /-- captured high halves, by reading function and register, key fn * 2^24 + offset (32 each; 17 R438; DESIGN CHOICE 0) -/
  captured : Tab (BitVec 32) := []
  /-- COLD_RST_N asserted (1; 18 R449; deasserted) -/
  coldRst : Bool := false
  /-- THERMTRIP_N asserted, latched (1; 13 R369; released) -/
  thermTrip : Bool := false
  /-- SHELF_FAULT_N asserted (1; 13 T13.3, 18 R453; released) -/
  shelfFault : Bool := false
  deriving DecidableEq, Repr

/-- one PCIe link of a port: half 0 or the only link, or half 1. -/
structure Link where
  /-- H0_UP / H1_UP (1; 04 T4.9; 0) -/
  up : Bool := false
  /-- trained lanes (5; 04 T4.9; 0) -/
  width : BitVec 5 := 0
  /-- trained rate code (3; 04 T4.9; 0) -/
  rate : BitVec 3 := 0
  /-- HPT_PM state: 0 L0, 1 L0s, 2 L1, 3 L1.1 or L1.2 (2; 04 T4.10; 0) -/
  lstate : BitVec 2 := 0
  /-- device time of the last TLP of the link (04 R113; DESIGN CHOICE 0) -/
  idleSince : Nat := 0
  /-- device time of the last transmission on the link (04 R113; DESIGN CHOICE 0) -/
  txAt : Nat := 0
  /-- ASPM Control of Link Control: bit 0 L0s, bit 1 L1 (2; 04 R113; PRESUMED 0, the PCIe reset value) -/
  aspm : BitVec 2 := 0
  /-- L1 PM Substates Control: bits 0, 1 PCI-PM L1.2, L1.1; bits 2, 3 ASPM L1.2, L1.1 (32; 04 R107, R113; PRESUMED 0, the PCIe reset value) -/
  l1ss : BitVec 32 := 0
  deriving DecidableEq, Repr

/-- a transit window: base, limit and enable. -/
structure Twn where
  /-- BASE, staging address, 1 MiB aligned (36; 04 T4.13; flash, 0) -/
  base : Nat := 0
  /-- LIMIT, low 20 bits ones (35; 04 T4.14; flash, 0 above the low ones) -/
  limit : Nat := 0xFFFFF
  /-- EN (1; 04 T4.14; flash, 0) -/
  en : Bool := false
  deriving DecidableEq, Repr

/-- TWN_GRANT[k] (04 T4.18). -/
structure Grant where
  /-- EN (1; 04 T4.18; 1 for k = 0) -/
  en : Bool := false
  /-- END, exclusive, 16 MiB units (12; 04 T4.18; 0x800 for k = 0) -/
  fin : BitVec 12 := 0
  /-- START (12; 04 T4.18; 0) -/
  start : BitVec 12 := 0
  deriving DecidableEq, Repr

/-- a BAR2 request held at window decode (04 R116). -/
structure HeldTlp where
  /-- posted write, else read -/
  write : Bool := false
  /-- BAR2 offset -/
  off : Nat := 0
  /-- data of a write -/
  bytes : List (BitVec 8) := []
  /-- bytes asked of a read -/
  len : Nat := 0
  deriving DecidableEq, Repr

/-- one host port. -/
structure PortSt where
  /-- half 0, or the only link (04 R96) -/
  h0 : Link := {}
  /-- half 1 (04 R96) -/
  h1 : Link := {}
  /-- HPT_PM.L1_IDLE in us (16; 04 T4.10; 64) -/
  l1Idle : BitVec 16 := 64
  /-- HPT_ERRLOG.VALID (1; 04 T4.11; 0) -/
  errValid : Bool := false
  /-- HPT_ERRLOG.CAUSE (4; 04 T4.11; 0) -/
  errCause : BitVec 4 := 0
  /-- HPT_ERRLOG.FUNC (6; 04 T4.11; 0) -/
  errFunc : BitVec 6 := 0
  /-- HPT_URCNT (32; 04 T4.12; 0) -/
  urCnt : BitVec 32 := 0
  /-- HPT_CTOCNT (32; 04 T4.12; 0) -/
  ctoCnt : BitVec 32 := 0
  /-- HPT_RETRAIN (32; 04 T4.12; 0) -/
  retrain : BitVec 32 := 0
  /-- PERST_N[p] asserted (1; 04 T4.7; DESIGN CHOICE deasserted) -/
  perst : Bool := false
  /-- device time from which PERST_N[p] has been asserted or no link of the port has been up (04 R103; 0) -/
  downAt : Nat := 0
  /-- link training under way after PERST_N (1; 04 T4.7; 0) -/
  training : Bool := false
  /-- configuration requests answered with Configuration Request Retry Status (1; 04 T4.7, 18 R450; 1 until start complete) -/
  crs : Bool := true
  /-- TWN_BASE_*, TWN_LIMIT_*: pending copies (04 T4.13, T4.14; flash, 0) -/
  wpend : Twn := {}
  /-- TWN_CUR_*: window in force (04 T4.13, T4.14; flash, 0) -/
  wcur : Twn := {}
  /-- TWN_STAT.PEND (1; 04 T4.16; 0) -/
  pend : Bool := false
  /-- TWN_STAT.REJ (1; 04 T4.16; 0) -/
  rej : Bool := false
  /-- TWN_STAT.WIGN (1; 04 T4.16; 0) -/
  wign : Bool := false
  /-- TWN_SWITCH_COUNT (32; 04 T4.12; 0) -/
  switchCnt : BitVec 32 := 0
  /-- TWN_DROP_COUNT (32; 04 T4.12; 0) -/
  dropCnt : BitVec 32 := 0
  /-- TWN_SIZE.SIZE (3; 04 T4.17; flash, strap) -/
  twnSize : BitVec 3 := 0
  /-- TWN_GRANT[0..63]; an absent row reads its reset value (04 T4.18) -/
  grants : Tab Grant := []
  /-- the port's flash record: window (04 R106, R120; flash, DESIGN CHOICE no record) -/
  flashTwn : Option Twn := none
  /-- the port's flash record: TWN_SIZE (04 R106; DESIGN CHOICE no record) -/
  flashSize : Option (BitVec 3) := none
  /-- the port's flash record: grants (04 T4.18; DESIGN CHOICE none) -/
  flashGrants : Tab Grant := []
  /-- BAR2 requests held at window decode (04 R116; none) -/
  held : List HeldTlp := []
  /-- next SQ in the round robin, key of the SQ served last, plus one (03 R66; DESIGN CHOICE 0) -/
  rrNext : Nat := 0
  /-- entries the SQ being served may still give in its turn (03 R66; 8) -/
  rrLeft : Nat := 8
  deriving DecidableEq, Repr

/-- a read request of the device's own without its whole completion (04 R112). -/
structure RdReq where
  /-- ledger entry it was made for -/
  id : Nat := 0
  /-- it reads a scatter-list segment -/
  list : Bool := false
  /-- bytes still to come -/
  left : Nat := 0
  /-- device time it was issued -/
  at_ : Nat := 0
  deriving DecidableEq, Repr

/-- Advanced Error Reporting of one function; the places of the bits and the reset values of masks and severity are PCIe's (04 R107, R111, R112; PRESUMED). -/
structure Aer where
  /-- Uncorrectable Error Status: bit 12 Poisoned TLP Received, 16 Unexpected Completion, 20 Unsupported Request (32; 04 R111, R112; 0) -/
  unc : BitVec 32 := 0
  /-- Uncorrectable Error Mask (32; 04 R107; 0) -/
  uncMask : BitVec 32 := 0
  /-- Uncorrectable Error Severity (32; 04 R107; PRESUMED 0x00462030) -/
  sev : BitVec 32 := 0x00462030
  /-- Correctable Error Status: bit 13 Advisory Non-Fatal (32; 04 R107; 0) -/
  cor : BitVec 32 := 0
  /-- Correctable Error Mask (32; 04 R107; PRESUMED 0x00002000) -/
  corMask : BitVec 32 := 0x2000
  /-- header log (128; 04 R111; DESIGN CHOICE 0) -/
  hdr : BitVec 128 := 0
  deriving DecidableEq, Repr

/-- base address registers of one function (04 R105, Table 4.3). -/
structure Bars where
  /-- BAR0/1: base address (64; 04 T4.3; PRESUMED 0, the PCIe reset value) -/
  bar0 : BitVec 64 := 0
  /-- BAR2/3 (64; 04 T4.3; PRESUMED 0) -/
  bar2 : BitVec 64 := 0
  /-- VF BAR0/1 of its SR-IOV capability (64; 04 T4.3; PRESUMED 0) -/
  vfBar : BitVec 64 := 0
  deriving DecidableEq, Repr

/-- one PCIe function. -/
structure FnSt where
  /-- the function exists and is enabled: a PF, or a VF under VF Enable (04 R100, R122; PF true, VF false) -/
  enabled : Bool := false
  /-- Bus Master Enable (1; 04 R121; DESIGN CHOICE 0, the PCIe reset value) -/
  bme : Bool := false
  /-- Memory Space Enable (1; 04 R102; DESIGN CHOICE 0, the PCIe reset value) -/
  mse : Bool := false
  /-- in D3hot (1; 04 T4.4; D0) -/
  d3 : Bool := false
  /-- Enable Relaxed Ordering (1; 04 R108; PRESUMED 1, the PCIe reset value) -/
  relaxed : Bool := true
  /-- QH_ERRLOG.VALID (1; 03 T3.12; 0) -/
  qhValid : Bool := false
  /-- QH_ERRLOG.CAUSE (4; 03 T3.12; 0) -/
  qhCause : BitVec 4 := 0
  /-- QH_ERRLOG.CQ (1; 03 T3.12; 0) -/
  qhCq : Bool := false
  /-- QH_ERRLOG.QID (6; 03 T3.12; 0) -/
  qhQid : BitVec 6 := 0
  /-- QH_ERRCNT (32; 03 T3.13; 0) -/
  qhCnt : BitVec 32 := 0
  /-- EVT_FN_LATCH.BITS (16; 15 T15.15; 0) -/
  fnLatch : BitVec 16 := 0
  /-- TAL_DROP (32; 15 T15.16; 0) -/
  talDrop : BitVec 32 := 0
  /-- the device's read requests outstanding, oldest first (04 R112, R121; none) -/
  rdOut : List RdReq := []
  /-- base address registers (04 R105) -/
  bars : Bars := {}
  /-- Advanced Error Reporting (04 R107) -/
  aer : Aer := {}
  /-- Device Control 3:0: correctable, non-fatal, fatal, Unsupported Request reporting (4; 04 R107; PRESUMED 0) -/
  errEn : BitVec 4 := 0
  /-- SERR# Enable of the Command register (1; 04 R107; PRESUMED 0) -/
  serr : Bool := false
  /-- Max Payload Size of Device Control (3; 04 R107; PRESUMED 0) -/
  mps : BitVec 3 := 0
  /-- Completion Timeout Value of Device Control 2; 0 is 32 ms (4; 04 R107, R112; PRESUMED 0) -/
  cto : BitVec 4 := 0
  /-- LTR Mechanism Enable of Device Control 2 (1; 04 R107; PRESUMED 0) -/
  ltrEn : Bool := false
  /-- ACS Control (16; 04 R107; PRESUMED 0) -/
  acs : BitVec 16 := 0
  /-- NumVFs of its SR-IOV capability (16; 04 R100; PRESUMED 0) -/
  numVfs : BitVec 16 := 0
  /-- ledger entries whose completion is held under the BME exception, in the order their statuses were fixed (04 R121; none) -/
  held : List Nat := []
  deriving DecidableEq, Repr

/-- a submission queue (03 R61). -/
structure Sq where
  /-- host base address (64; 03 R61) -/
  base : Nat := 0
  /-- entries (17; 03 R61) -/
  size : Nat := 0
  /-- bound CQ (6; 03 R62) -/
  cq : Nat := 0
  /-- device fetch head (16; 03 R65) -/
  head : Nat := 0
  /-- last accepted tail (16; 03 R64; 0) -/
  tail : Nat := 0
  /-- entries read from host memory whose checks have not ended (03 R85) -/
  fetching : Nat := 0
  /-- stopped by a fetch error (1; 03 R67) -/
  stopped : Bool := false
  /-- delete requested, response owed (15 R394) -/
  deleting : Bool := false
  deriving DecidableEq, Repr

/-- a completion queue (03 R61). -/
structure Cq where
  /-- host base address (64; 03 R61) -/
  base : Nat := 0
  /-- entries (17; 03 R61) -/
  size : Nat := 0
  /-- last accepted head: completions released (16; 03 R65; 0) -/
  head : Nat := 0
  /-- next slot the device writes (16; 03 R75) -/
  tail : Nat := 0
  /-- PHASE of the present pass (1; 03 R75; 1) -/
  phase : Bool := true
  /-- time base (64; 03 R77) -/
  timeBase : Nat := 0
  /-- slots reserved for commands fetched and not yet posted (03 R63) -/
  reserved : Nat := 0
  deriving DecidableEq, Repr
/-- the work of a command on one actuator (02 R44). -/
structure Part where
  /-- actuator -/
  act : Nat := 0
  /-- first sector's place on the actuator (05 R135, R136) -/
  pos : Nat := 0
  /-- sectors -/
  count : Nat := 0
  /-- the part has finished -/
  done : Bool := false
  /-- device time the part finished -/
  fin : Nat := 0
  /-- sectors whose media work has ended -/
  moved : Nat := 0
  deriving DecidableEq, Repr

/-- one ledger entry (03 R72). -/
structure Cmd where
  /-- ledger order number; arrival order -/
  id : Nat := 0
  /-- function -/
  fn : Nat := 0
  /-- submission queue -/
  sq : Nat := 0
  /-- completion queue -/
  cq : Nat := 0
  /-- TAG -/
  tag : BitVec 32 := 0
  /-- OPC, and ZONE_MGMT action in `act4` -/
  op : BitVec 8 := 0
  /-- ZONE_MGMT action -/
  act4 : Nat := 0
  /-- namespace, 0 none -/
  nsid : Nat := 0
  /-- first LBA (a ZONE_APPEND takes its own at admission) -/
  slba : Nat := 0
  /-- sectors -/
  len : Nat := 0
  /-- LANDED -/
  dur : Bool := false
  /-- CONT flag -/
  cont : Bool := false
  /-- SGL flag -/
  sgl : Bool := false
  /-- WIN flag -/
  win : Bool := false
  /-- staging address a WIN = 1 range was resolved to (04 R118) -/
  winAddr : Nat := 0
  /-- DPTR -/
  dptr : Nat := 0
  /-- DCNT -/
  dcnt : Nat := 0
  /-- ARG0 -/
  arg0 : Nat := 0
  /-- ARG1 -/
  arg1 : Nat := 0
  /-- deadline class -/
  dc : Nat := 0
  /-- RELDL in us -/
  reldl : Nat := 0
  /-- head of the SQ after this command's fetch (03 T3.6) -/
  sqhd : Nat := 0
  /-- arrival (02 R31) -/
  arrival : Nat := 0
  /-- deadline; none for DC7 and ABORT (02 R31) -/
  deadline : Option Nat := none
  /-- milestone (02 R32) -/
  milestone : Option Nat := none
  /-- bulk allowance a of Table 2.2, ns -/
  allowance : Nat := 0
  /-- FLOOR_PCT of the epoch it is tested under (02 T2.2) -/
  pct : Nat := 0
  /-- write generation taken at admission (05 R145) -/
  gen : BitVec 32 := 0
  /-- epoch the command was admitted under -/
  epoch : BitVec 32 := 0
  /-- where the command stands -/
  phase : Phase := .arrived
  /-- a held completion of a failed check: it holds no ledger entry (03 R70, 04 R121) -/
  noEntry : Bool := false
  /-- it has been admitted: its completion counts in CMDS (15 T15.11) -/
  wasAdm : Bool := false
  /-- admitted on the host-port model (02 R45) -/
  hostModel : Bool := false
  /-- bytes still promised on its port (02 R45) -/
  promised : Nat := 0
  /-- actuator parts (02 R44) -/
  parts : List Part := []
  /-- command waymark reached (03 T3.5) -/
  waymark : Bool := false
  /-- runs to its end without posting (03 R85) -/
  silent : Bool := false
  /-- a thermal abort of the present device time, to be posted when time moves on (01 R26, 13 R366) -/
  early : Bool := false
  /-- its completion queue has been deleted: its slot is none of a queue made since (03 R63, 04 R122) -/
  cqGone : Bool := false
  /-- first final status, fixed; the entry ends with it -/
  status : Option Nat := none
  /-- RESULT to report -/
  result : Nat := 0
  /-- CONT of the completion -/
  contBit : Bool := false
  /-- LBAs decoded or held in staging or cache, waiting for delivery -/
  ready : List Nat := []
  /-- LBAs delivered to the host -/
  delivered : List Nat := []
  /-- LBAs unresolved by the ladder -/
  unresolved : List Nat := []
  /-- sectors committed by the command -/
  committed : Nat := 0
  /-- the data fetch is complete (01 R17) -/
  fetched : Bool := false
  /-- buffer ranges met so far: address and bytes (03 R68, R69) -/
  bufs : List (Nat × Nat) := []
  /-- write data fetched so far (01 R17) -/
  fdata : List (BitVec 8) := []
  /-- bytes of the buffer the scatter walk has met (03 R69) -/
  walk : Nat := 0
  /-- DATA entries read (03 R69) -/
  walkData : Nat := 0
  /-- CHAIN entries followed (03 R69) -/
  walkChain : Nat := 0
  /-- entries of the segment asked for (03 R69) -/
  walkLeft : Nat := 0
  /-- host reads not yet issued while the function may issue none: list segment or data, address, bytes (04 R121) -/
  asks : List (Bool × Nat × Nat) := []
  /-- largest decoder grant used (03 T3.6) -/
  iter : Nat := 0
  /-- e_spin in pJ (15 R408) -/
  eSpin : Nat := 0
  /-- e_asst in pJ (15 R408) -/
  eAsst : Nat := 0
  /-- e_chan in pJ (15 R408) -/
  eChan : Nat := 0
  /-- e_dec in pJ (15 R408) -/
  eDec : Nat := 0
  /-- actuator busy time in ns (15 T15.11) -/
  busyNs : Nat := 0
  /-- device time its running media operation was dispatched (15 R408) -/
  dispatchAt : Nat := 0
  /-- actuator whose part finished last, or of a refusal's first failing part (03 R76) -/
  lastAct : Option Nat := none
  /-- FINISH, RESET: admitted write pointer before the action (05 R131) -/
  preWp : Nat := 0
  /-- FINISH, RESET: admitted state before the action (05 R131) -/
  preAdm : ZState := .empty
  /-- FINISH, RESET: the last OPEN (1) or CLOSE (2) admitted on the zone after it; 0 none (05 R131) -/
  openCond : Nat := 0
  /-- decoder iterations, summed (15 R408) -/
  iters : Nat := 0
  /-- detector re-detections and replays (15 R408) -/
  rounds : Nat := 0
  /-- FLUSH: sectors covered and not yet persistent, nsid * 2^48 + LBA (03 R84) -/
  covered : List Nat := []
  /-- FLUSH: a covered sector was lost (03 R84) -/
  lost : Bool := false
  /-- ABORT: targets aborted whose completions are still to be posted -/
  matched : Nat := 0
  /-- ABORT: RESULT counts (03 T3.7) -/
  counts : Nat := 0
  /-- gait the exit of its admission targets (09 R277) -/
  minGait : Nat := 0
  deriving DecidableEq, Repr

/-- one operation of an actuator plan (02 Table 2.2). -/
structure PlanOp where
  /-- ledger id; 0 for an operation of the device's own -/
  cmd : Nat := 0
  /-- what the operation is -/
  kind : OpKind := .media
  /-- function, 256 grazing, 257 destage (02 R47) -/
  fn : Nat := 0
  /-- deadline class -/
  dc : Nat := 0
  /-- milestone; ignored for DC7 and the device's own work -/
  milestone : Nat := 0
  /-- arrival, for ties -/
  arrival : Nat := 0
  /-- bulk allowance a -/
  allowance : Nat := 0
  /-- track of the first sector -/
  track : Nat := 0
  /-- head -/
  head : Nat := 0
  /-- angle of the first sector in millionths of a revolution -/
  angle : Nat := 0
  /-- sectors per track of the recording zone -/
  spt : Nat := 832
  /-- first sector's place -/
  pos : Nat := 0
  /-- sectors -/
  count : Nat := 0
  /-- reads the media -/
  read : Bool := true
  /-- writes the landing band -/
  land : Bool := false
  /-- sectors, nsid * 2^48 + LBA, in media order -/
  keys : List Nat := []
  /-- holds a decode slot (02 R38) -/
  slot : Bool := true
  /-- gait it is planned at -/
  gait : Nat := 3
  /-- time before the seek: token wait, exit, map-intent record, pause length (02 R36, 07 R199) -/
  pre : Nat := 0
  /-- projected dispatch -/
  start : Nat := 0
  /-- projected media start -/
  mediaStart : Nat := 0
  /-- projected media end -/
  mediaEnd : Nat := 0
  /-- order of the grazing operation it is a quantum of (12 T12.1), 0 none -/
  order : Nat := 0
  /-- kind of a calibration it serves: 1 channel, 2 servo, 3 assist; 4 a squeeze check (07 R206) -/
  gkind : Nat := 0
  /-- what the grazing operation it is a quantum of works for -/
  ref : Nat := 0
  /-- passages read by its end when it re-reads a sector (06 R181) -/
  k : Nat := 1
  /-- passages its rung averages (06 R181) -/
  kTot : Nat := 1
  /-- it re-reads a sector for an averaging rung (06 R181, R182) -/
  again : Bool := false
  /-- SEQ of the last waymark of the abandoned routine it goes on from (07 R196; none) -/
  mark : Option Nat := none
  /-- sectors that routine committed (07 R196) -/
  prior : Nat := 0
  /-- step of rung 4 it reads for, 0 none (06 R182) -/
  step : Nat := 0
  /-- projected finish -/
  finish : Nat := 0
  deriving DecidableEq, Repr

/-- one Admission Unit (02). -/
structure Adm where
  /-- the plan: admitted work not started, in order (02; empty) -/
  queue : List PlanOp := []
  /-- the operation now running (02 R46; none) -/
  running : Option PlanOp := none
  /-- device time the last media operation ended (12 R348; 0) -/
  idleSince : Nat := 0
  /-- track at the end of the last operation (02 T2.2; DESIGN CHOICE 0) -/
  endTrack : Nat := 0
  /-- head selected at its end (07 R212; DESIGN CHOICE 0) -/
  endHead : Nat := 0
  /-- heater code applied (07 R212; DESIGN CHOICE 0) -/
  heater : BitVec 8 := 0
  /-- virtual time per function; 256 grazing, 257 destage (02 R47; 0) -/
  vtime : Tab Nat := []
  /-- functions in the order last served, least recent first (02 R47; none) -/
  served : List Nat := []
  /-- functions with work here that have started in virtual time (02 R47; none) -/
  joined : List Nat := []
  /-- device time to which the plan counts the actuator as out of service (02 R51; 0) -/
  outUntil : Nat := 0
  /-- the weight-0 function last served (02 R47; 0) -/
  lastZero : Nat := 0
  /-- CFG_ADM_STAT.GAIT_PLAN (2; 02 T2.14; 0) -/
  gaitPlan : BitVec 2 := 0
  /-- CFG_ADM_STAT.HOLD (1; 02 T2.14; 0) -/
  hold : Bool := false
  /-- CFG_ADM_STAT.SLOT_LIMIT, RC (1; 02 T2.14; 0) -/
  slotLimit : Bool := false
  /-- CFG_ADM_REFUSE_DL (32; 02 T2.15; 0) -/
  refuseDl : BitVec 32 := 0
  /-- CFG_ADM_REFUSE_PWR (32; 02 T2.15; 0) -/
  refusePwr : BitVec 32 := 0
  /-- CFG_ADM_CUTOFF (32; 02 T2.15; 0) -/
  cutoff : BitVec 32 := 0
  /-- CFG_ADM_EPOCH while the actuator has yet to apply the epoch of CFG_EPOCH_REQ (32; 02 T2.15; flash) -/
  epoch : Option (BitVec 32) := none
  /-- CFG_ADM_STAT.OFFLINE (1; 02 T2.14; 0) -/
  offline : Bool := false
  /-- announced pause that stands in this plan for a hold to come, ns; 0 none (02 R55) -/
  holdNs : Nat := 0
  /-- device time by which the hold in force ends (02 R55) -/
  holdEnd : Nat := 0
  /-- arrivals held while the herd's firmware restarts (16 R418; 0) -/
  restartHold : Bool := false
  /-- a plan-empty period is requested: new DC1-DC6 refused (12 R348; 0) -/
  planEmpty : Bool := false
  /-- device time of the last seek's end (09 R260; 0) -/
  followAt : Nat := 0
  /-- seeks of the last second: begin and end (09 R260; none) -/
  seekLog : List (Nat × Nat) := []
  /-- times in rotational wait and transfer of admitted commands in the last second (09 R260; none) -/
  workLog : List (Nat × Nat) := []
  /-- device time until which writing is planned as impossible (09 R266; 0) -/
  writeBlock : Nat := 0
  deriving DecidableEq, Repr

/-- one entry of a retention area (06 R160). -/
structure Retain where
  /-- ledger id, 0 grazing -/
  cmd : Nat := 0
  /-- sector, nsid * 2^48 + LBA -/
  key : Nat := 0
  /-- head -/
  head : Nat := 0
  /-- rung of the ladder it is on, 1 to 4 (06 R179) -/
  rung : Nat := 1
  /-- order of the grazing operation that reads it, 0 none (12 T12.1) -/
  order : Nat := 0
  /-- what that grazing operation works for -/
  ref : Nat := 0
  /-- step of rung 4, from 1; 0 on rungs 1 to 3 (06 R182) -/
  step : Nat := 0
  /-- passages read so far by an averaging rung (06 R181) -/
  k : Nat := 1
  /-- passages it averages -/
  kTot : Nat := 1
  /-- its codeword has been announced to the pool (06 T6.1) -/
  noticed : Bool := false
  /-- framed from an early SM1 hit -/
  early : Bool := false
  /-- framed from SM2 alone -/
  sm2 : Bool := false
  /-- an alternative framing exists (06 R180) -/
  alt : Bool := false
  /-- framing succeeded -/
  framed : Bool := true
  /-- replays run -/
  replays : Nat := 0
  /-- replays that pass the test of R49; 0 while it is not being replayed (06 R180, R181) -/
  replayMax : Nat := 0
  /-- position of the codeword's first bit in the frame (06 R164) -/
  first : Int := 0
  /-- that of its alternative framing (06 R180) -/
  altFirst : Int := 0
  /-- device time its last pad sample arrives (06 R158) -/
  padAt : Nat := 0
  /-- samples of reader 0, averaged ones in an accumulation entry (06 R159, R181) -/
  r0 : List (BitVec 6) := []
  /-- samples of reader 1 -/
  r1 : List (BitVec 6) := []
  /-- erased samples: first and count (06 R156) -/
  erased : List (Nat × Nat) := []
  /-- detected band-aware (06 R167) -/
  aware : Bool := false
  /-- form of its reference: 0 none, 1 decoded, 2 soft (06 R168) -/
  form : Nat := 0
  /-- read afresh as the reference of the track after it (06 R182) -/
  isRef : Bool := false
  /-- holds averaged samples (06 R181) -/
  averaged : Bool := false
  deriving DecidableEq, Repr

/-- one formatter command (07 R191). -/
structure FmtCmd where
  /-- formatter opcode -/
  opc : BitVec 8 := 0
  /-- ledger id, 0 for the device's own -/
  cmd : Nat := 0
  /-- function charged; 256 grazing, 257 destage -/
  fn : Nat := 0
  /-- head -/
  head : Nat := 0
  /-- first track -/
  track : Nat := 0
  /-- first sector's place -/
  pos : Nat := 0
  /-- sectors -/
  count : Nat := 0
  /-- sectors per track -/
  spt : Nat := 832
  /-- kind of a calibration it serves -/
  gkind : Nat := 0
  /-- order of the grazing operation it serves, 0 none -/
  grazeOrder : Nat := 0
  /-- passages of a READ_AVERAGE read by its end -/
  k : Nat := 1
  /-- passages averaged -/
  kTot : Nat := 1
  /-- step of rung 4, 0 none -/
  step : Nat := 0
  /-- what the grazing operation it serves works for -/
  ref : Nat := 0
  /-- order of staging the next slot would take when it was issued: newer copies are not its own -/
  stamp : Nat := 0
  /-- SEQ of the last waymark of the abandoned routine it goes on from (07 R196; none) -/
  mark : Option Nat := none
  /-- sectors that routine committed (07 R196) -/
  prior : Nat := 0
  /-- sectors, nsid * 2^48 + LBA, in media order -/
  keys : List Nat := []
  deriving DecidableEq, Repr

/-- one channel front-end (06). -/
structure Cfe where
  /-- CFG_CFE_STAT.SINGLE (16; 06 T6.10; 0) -/
  single : BitVec 16 := 0
  /-- CFG_CFE_STAT.BAND (1; 06 T6.10; 0) -/
  band : Bool := false
  /-- CFG_CFE_STAT.RETAIN_FULL, RC (1; 06 T6.10; 0) -/
  retainFull : Bool := false
  /-- retention area entries, at most 64 (06 R160; empty) -/
  retained : List Retain := []
  /-- on-die sample slots, at most 8, oldest first (06 R159; empty) -/
  slots : List Retain := []
  /-- CFG_CFE_VERSION.TAP_VER (16; 06 T6.11; 0) -/
  tapVer : BitVec 16 := 0
  /-- CFG_CFE_VERSION.TGT_VER (16; 06 T6.11; 0) -/
  tgtVer : BitVec 16 := 0
  /-- CFG_CFE_FRAME_SM1 (32; 06 T6.13; 0) -/
  sm1 : BitVec 32 := 0
  /-- CFG_CFE_FRAME_SM2ONLY (32; 06 T6.13; 0) -/
  sm2only : BitVec 32 := 0
  /-- CFG_CFE_FRAME_FALSE (32; 06 T6.13; 0) -/
  false_ : BitVec 32 := 0
  /-- CFG_CFE_FRAME_RETRY (32; 06 T6.13; 0) -/
  retry : BitVec 32 := 0
  /-- CFG_CFE_FRAME_FAIL (32; 06 T6.13; 0) -/
  fail : BitVec 32 := 0
  /-- CFG_CFE_ERASE (32; 06 T6.13; 0) -/
  erase : BitVec 32 := 0
  /-- CFG_CFE_BAND_NOREF (32; 06 T6.13; 0) -/
  noref : BitVec 32 := 0
  /-- CFG_CFE_CHKFAIL (32; 06 T6.13; 0) -/
  chkfail : BitVec 32 := 0
  /-- CFG_CFE_RUNG2 (32; 06 T6.13; 0) -/
  rung2 : BitVec 32 := 0
  /-- CFG_CFE_RUNG3 (32; 06 T6.13; 0) -/
  rung3 : BitVec 32 := 0
  /-- CFG_CFE_UNREC (32; 06 T6.13; 0) -/
  unrec : BitVec 32 := 0
  /-- the first track of the running read has a reference (06 R167; 0) -/
  bandFirst : Bool := false
  /-- samples erased ahead of the next sector's framing (06 R156; 0) -/
  eraseNext : Nat := 0
  /-- device time the servo gate next opens (06 R157; 0) -/
  gateFrom : Nat := 0
  /-- device time it then closes (06 R157; 0) -/
  gateTo : Nat := 0
  /-- gait the reference track was read at (06 R167; 0) -/
  refGait : Nat := 0
  /-- reference track of band-aware detection, last read (06 R167; none) -/
  refTrack : Option Nat := none
  /-- replays and journal writes asked for while the formatter's command queue is full (06 R180, 07 R191; none) -/
  replayQ : List FmtCmd := []
  /-- head of the reference track (06 R167; 0) -/
  refHead : Nat := 0
  deriving DecidableEq, Repr

/-- a routine running, or abandoned and waiting to restart (07 R191, R194). -/
structure Routine where
  /-- its command -/
  req : FmtCmd := {}
  /-- sectors covered by passed waymarks -/
  done : Nat := 0
  /-- SEQ of the last passed waymark -/
  mark : Option Nat := none
  /-- device time it started (07 R214) -/
  startAt : Nat := 0
  /-- its time at write level in ns (07 R214) -/
  lvl : Nat := 0
  /-- write-inhibit cause at its abandonment (07 R204) -/
  winhCause : Option Nat := none
  /-- the off-track inhibit was toward track t - 1 (07 R206) -/
  toward : Bool := false
  /-- it ends at its next waymark or boundary -/
  endAt : Bool := false
  /-- address the dispatch table gave it (07 R190, R191) -/
  addr : BitVec 15 := 0
  /-- times its write gate has opened since the last feedback sample (07 R203) -/
  leads : Nat := 1
  deriving DecidableEq, Repr

/-- a waymark or map intent record of the band journal buffer (07 T7.3). -/
structure WayRec where
  /-- TYPE -/
  type : BitVec 4 := 1
  /-- SEQ -/
  seq : BitVec 32 := 0
  /-- UNIT -/
  unit : Nat := 0
  /-- FIRST -/
  first : Nat := 0
  /-- COUNT -/
  count : Nat := 0
  /-- GEN -/
  gen : BitVec 32 := 0
  deriving DecidableEq, Repr

/-- a record of the band journal beside the waymarks and map intents: its layout is not stated (05 R140). -/
structure StRec where
  /-- 1 a zone's state, 2 a landing segment allocated, 3 one released -/
  kind : Nat := 1
  /-- band of the zone, or segment -/
  unit : Nat := 0
  /-- the zone's committed state -/
  st : ZState := .empty
  /-- the zone's committed write pointer -/
  wp : Nat := 0
  deriving DecidableEq, Repr

/-- one formatter and write side (07). -/
structure Fmt where
  /-- the routine running (07 R191; idle) -/
  running : Option Routine := none
  /-- a routine abandoned and waiting to restart or resume (07 R196; none) -/
  waiting : Option Routine := none
  /-- the 4-entry command queue (07 R191; empty) -/
  queue : List FmtCmd := []
  /-- CFG_WRT_STAT.HOLD (1; 07 T7.9; 0) -/
  hold : Bool := false
  /-- CFG_WRT_STAT.SQZ (1; 07 T7.9; 0) -/
  sqz : Bool := false
  /-- a squeeze check is due before the next write to the band (07 R206; 0) -/
  sqzWait : Bool := false
  /-- that check: the sectors of track t - 1 it reads (07 R206; none) -/
  sqzReq : Option FmtCmd := none
  /-- the band write it follows (07 R206, R207; none) -/
  sqzBand : Option FmtCmd := none
  /-- the write routine last abandoned (07 R213; none) -/
  stopped : Option Routine := none
  /-- device time of that abandonment (07 R213; 0) -/
  stopAt : Nat := 0
  /-- CFG_WRT_STAT.WSUSP (16; 07 T7.9; 0) -/
  wsusp : BitVec 16 := 0
  /-- waymark SEQ; CFG_WRT_COMMIT.SEQ shows [15:0] (32; 07 T7.3, T7.10; 0) -/
  seq : BitVec 32 := 0
  /-- CFG_WRT_COMMIT.COUNT (16; 07 T7.10; 0) -/
  count : BitVec 16 := 0
  /-- CFG_WRT_INH[0] off-track (32; 07 T7.11; 0) -/
  inh0 : BitVec 32 := 0
  /-- CFG_WRT_INH[1] missing or invalid wedge (32; 07 T7.11; 0) -/
  inh1 : BitVec 32 := 0
  /-- CFG_WRT_INH[2] overrun or limp (32; 07 T7.11; 0) -/
  inh2 : BitVec 32 := 0
  /-- CFG_WRT_INH[3] retract (32; 07 T7.11; 0) -/
  inh3 : BitVec 32 := 0
  /-- CFG_WRT_ABANDON (32; 07 T7.11; 0) -/
  abandon : BitVec 32 := 0
  /-- CFG_WRT_RESUME (32; 07 T7.11; 0) -/
  resume : BitVec 32 := 0
  /-- CFG_WRT_SQZ_CHECK (32; 07 T7.11; 0) -/
  sqzCheck : BitVec 32 := 0
  /-- CFG_WRT_SQZ_REWRITE (32; 07 T7.11; 0) -/
  sqzRewrite : BitVec 32 := 0
  /-- CFG_WRT_LINKERR (32; 07 T7.11; 0) -/
  linkErr : BitVec 32 := 0
  /-- CFG_ASST_STAT.CALPEND (16; 07 T7.12; 0) -/
  calPend : BitVec 16 := 0
  /-- CFG_ASST_STAT.HELD (16; 07 T7.12; 0) -/
  heldCode : BitVec 16 := 0
  /-- CFG_ASST_FBFAULT (32; 07 T7.11; 0) -/
  fbFault : BitVec 32 := 0
  /-- band journal buffer, written at 64 records (07 R198; empty) -/
  jbuf : List WayRec := []
  /-- device time of the buffer's last write (07 R198; 0) -/
  jlast : Nat := 0
  /-- records written to the reserved media area (05 R140; none) -/
  journal : List WayRec := []
  /-- records of zone states and of landing segments there (05 R140; none) -/
  jstate : List StRec := []
  /-- assist drive level (07 R208; off) -/
  assist : AssistLevel := .off
  /-- a routine writes: its write gate is open but across servo wedges (07 R203; closed) -/
  gate : Bool := false
  /-- write-level time in the present 100 ms window, ns (07 R213; 0) -/
  level : Nat := 0
  deriving DecidableEq, Repr

/-- a trial precompensation table of a head, used on alternate rewritten groups (12 T12.4). -/
structure PrecompTrial where
  /-- tables of 8 shifts under trial, key 4 * recording zone + gait -/
  tables : Tab (List Nat) := []
  /-- the next group uses them -/
  turn : Bool := false
  /-- groups written in the trial -/
  groups : Nat := 0
  /-- iterations the verify reads of its own groups used -/
  itOwn : Nat := 0
  /-- sectors of those reads -/
  nOwn : Nat := 0
  /-- iterations the verify reads of the other groups used -/
  itOld : Nat := 0
  /-- sectors of those reads -/
  nOld : Nat := 0
  deriving DecidableEq, Repr

/-- one head (06, 07, 12). -/
structure HeadSt where
  /-- the descriptor gives the head (05 T5.1; absent) -/
  present : Bool := false
  /-- assist drive code in force (07 R209; calibrated start code) -/
  code : Nat := 0
  /-- last good code (07 R209; calibrated start code) -/
  lastGood : Nat := 0
  /-- calibration: feedback target (07 R208; calibration record, DESIGN CHOICE mid-scale) -/
  target : Nat := 512
  /-- calibration: code_min (07 R209; calibration record) -/
  codeMin : Nat := 0
  /-- calibration: code_max (07 R209; calibration record) -/
  codeMax : Nat := 4095
  /-- calibration: lower feedback limit (07 R210; calibration record) -/
  fbLo : Nat := 1
  /-- calibration: upper feedback limit (07 R210; calibration record) -/
  fbHi : Nat := 1022
  /-- consecutive equal samples (07 R210; 0) -/
  eqRun : Nat := 0
  /-- drive code at the start of that run (07 R210; 0) -/
  eqCode : Nat := 0
  /-- last feedback sample (07 R210; 0) -/
  lastSample : Nat := 0
  /-- sectors at a clamp with the error pushing further (07 R210; 0) -/
  stuck : Nat := 0
  /-- write-level time in ns (07 R214; 0) -/
  writeNs : Nat := 0
  /-- idle-bias time in ns (07 R214; 0) -/
  idleNs : Nat := 0
  /-- assist energy in pJ; ASSIST_STATUS gives uJ (07 R214; 0) -/
  energy : Nat := 0
  /-- wear budget of write-level time in ns, 0 none known (07 R215; calibration record) -/
  wear : Nat := 0
  /-- write-level time at the last checkpoint, ns (07 R214; 0) -/
  ckWrite : Nat := 0
  /-- idle-bias time at the last checkpoint, ns (07 R214; 0) -/
  ckIdle : Nat := 0
  /-- assist energy at the last checkpoint, pJ (07 R214; 0) -/
  ckEnergy : Nat := 0
  /-- wear thresholds already reported: 0, 1 at 90 %, 2 at 100 % (07 R215; 0) -/
  wearStep : Nat := 0
  /-- consecutive sectors with a tap at its clamp (06 R162; 0) -/
  tapClamp : Nat := 0
  /-- consecutive failed assist calibrations (12 R351; 0) -/
  calFails : Nat := 0
  /-- device time the next assist-calibration retry is due (12 R351; 0) -/
  calDue : Nat := 0
  /-- suspended finally (12 R351; 0) -/
  final : Bool := false
  /-- last oscillator resistance measured, in mOhm (07 R214; DESIGN CHOICE 0) -/
  rosc : Nat := 0
  /-- marked for channel calibration (06 R162; 0) -/
  markChan : Bool := false
  /-- marked for servo calibration (12 R350; 0) -/
  markServo : Bool := false
  /-- device time of its last channel calibration (12 T12.4; 0) -/
  chanAt : Nat := 0
  /-- device time of its last servo calibration (12 T12.4; 0) -/
  servoAt : Nat := 0
  /-- device time of its last assist calibration (12 T12.4; 0) -/
  asstAt : Nat := 0
  /-- front-end reading at its last channel calibration, 1/16 C (12 T12.4; DESIGN CHOICE 0) -/
  chanTemp : Int := 0
  /-- assist-source reading at its last assist calibration, 1/16 C (12 T12.4; DESIGN CHOICE 0) -/
  asstTemp : Int := 0
  /-- calibration: reader 0 marked faulty (10 R294; calibration record) -/
  rd0Bad : Bool := false
  /-- calibration: reader 1 marked faulty (06 R166; calibration record) -/
  rd1Bad : Bool := false
  /-- channel calibration by recording zone and gait, key 4 * zone + gait (06 R161; calibration record) -/
  chan : Tab ChanSet := []
  /-- calibration: reader offset in 1/10,240 of a track (08 R227; calibration record) -/
  rdOff : Int := 0
  /-- calibration: writer offset in 1/10,240 of a track (08 R227; calibration record) -/
  wrOff : Int := 0
  /-- target and single-reader sets that wait for a plan-empty period, same key (12 R348; none) -/
  targNext : Tab ChanSet := []
  /-- assist calibration by recording zone and gait, same key; one without a row is what is in force (07 R208; calibration record) -/
  asst : Tab AsstSet := []
  /-- write precompensation tables, same key (07 R202; calibration record) -/
  precomp : Tab (List Nat) := []
  /-- trial precompensation table (12 T12.4; none) -/
  trial : PrecompTrial := {}
  /-- heater code for reads and idle bias (07 R212; calibration record) -/
  heatRd : BitVec 8 := 0
  /-- heater code for writes (07 R212; calibration record) -/
  heatWr : BitVec 8 := 0
  /-- current-voltage table of a laser: uA and mV, rising (07 R214; calibration record) -/
  iv : List (Nat × Nat) := []
  /-- calibration: idle bias code (07 R208; calibration record) -/
  idleCode : Nat := 0
  /-- calibration: drive current at idle bias in uA (07 R214; calibration record) -/
  idleUa : Nat := 0
  /-- taps in force, same key; one without a row is at its start values (06 R162; calibration record) -/
  taps : Tab TapSet := []
  /-- calibrated write-level assist power in mW (09 R264; calibration record, DESIGN CHOICE 0) -/
  writeMw : Nat := 0
  deriving DecidableEq, Repr

/-- what a run of a loop leaves for the next, and the state mirror holds (08 R224, R227). -/
structure LawSt where
  /-- state vector, integrators among it, single-precision floats (08 R227; DESIGN CHOICE zeros) -/
  x : List (BitVec 32) := []
  /-- states of the voice coil's notch sections (08 R227; DESIGN CHOICE zeros) -/
  nv : List (BitVec 32 × BitVec 32) := []
  /-- states of the microactuator's (08 R227; DESIGN CHOICE zeros) -/
  nm : List (BitVec 32 × BitVec 32) := []
  /-- last command record (64; 08 R224; DESIGN CHOICE 0) -/
  cmd : BitVec 64 := 0
  /-- wedge number of the run (10; 08 R224; DESIGN CHOICE 0) -/
  wedge : BitVec 10 := 0
  deriving DecidableEq, Repr

/-- one actuator loop (08). -/
structure Loop where
  /-- CFG_SRV_STAT.MODE (3; 08 T8.12; 0) -/
  mode : BitVec 3 := 0
  /-- CFG_SRV_STAT.LIMP (1; 08 T8.12; 0) -/
  limp : Bool := false
  /-- wedges counted from limp entry (08 R246; 0) -/
  limpK : Nat := 0
  /-- CFG_SRV_STAT.WINH (1; 08 T8.12; 0) -/
  winh : Bool := false
  /-- device time of the last raise (08 R235; 0) -/
  winhTime : Nat := 0
  /-- consecutive valid wedges within WR_ON since the last raise (08 R235; 0) -/
  winhOk : Nat := 0
  /-- CFG_SRV_STAT.MIGPEND (1; 08 T8.12; 0) -/
  migPend : Bool := false
  /-- target engine of the pending migration (08 R245; 0) -/
  migTo : Nat := 0
  /-- CFG_SRV_STAT.ENGINE (5; 08 T8.12; reference layout) -/
  engine : BitVec 5 := 0
  /-- CFG_SRV_STAT.RET_CAUSE (3; 08 T8.12; 0) -/
  retCause : BitVec 3 := 0
  /-- cause of the retract in progress, reported at the park (08 R238; 0) -/
  pendCause : BitVec 3 := 0
  /-- CFG_SRV_STAT.STREAK (3; 08 T8.12; 0) -/
  streak : BitVec 3 := 0
  /-- overruns among the last 64 wedges, bit 0 the newest (08 R242; 0) -/
  ovrWin : BitVec 64 := 0
  /-- wedges lost to overrun, to catch up (08 R227; 0) -/
  catchUp : Nat := 0
  /-- the wedge's position record, waiting for its run (08 R218; none) -/
  record : Option (BitVec 128) := none
  /-- class of the last record: 0 valid, 1 invalid, 2 missing (08 T8.2; 0) -/
  cls : Nat := 0
  /-- predicted wedge number (08 R219; 0) -/
  wedge : BitVec 10 := 0
  /-- predicted track (08 T8.2; 0) -/
  predTrack : Nat := 0
  /-- predicted speed in tracks per wedge (08 T8.2; 0) -/
  vel : Nat := 0
  /-- burst values of the last record (08 R237; none) -/
  bursts : Option (BitVec 48) := none
  /-- consecutive records with identical bursts (08 R237; 0) -/
  burstRun : Nat := 0
  /-- consecutive records with the same WEDGE (08 R237; 0) -/
  wedgeRun : Nat := 0
  /-- WEDGE of the last record (08 R237; 0) -/
  lastWedge : BitVec 10 := 0
  /-- consecutive valid wedges counted toward the mode's exit (08 T8.6; 0) -/
  settleOk : Nat := 0
  /-- position error used by the last run, a float in tracks (08 R227; DESIGN CHOICE 0) -/
  yF : BitVec 32 := 0
  /-- predicted position error of the last run, Cp x (08 R227; DESIGN CHOICE 0) -/
  yP : BitVec 32 := 0
  /-- u_v of the last run before its notches (08 R227; DESIGN CHOICE 0) -/
  uv : BitVec 32 := 0
  /-- outputs of the notch sections of the last run (08 R227; DESIGN CHOICE none) -/
  nout : List (BitVec 32) := []
  /-- what the last run left (08 R227; DESIGN CHOICE zeros) -/
  st : LawSt := {}
  /-- state mirror in the channel island (08 R224; DESIGN CHOICE zeros) -/
  mirror : LawSt := {}
  /-- outputs saturated by the last run: 1 above, -1 below (08 R228; 0) -/
  sat : Int × Int × Int := (0, 0, 0)
  /-- coefficient set in force (08 R229; DESIGN CHOICE empty) -/
  set : CoeffSet := {}
  /-- coefficient set that comes into force at the next wedge boundary (08 R229; none) -/
  setNext : Option CoeffSet := none
  /-- runout tables in force, key (64 * head + band) * 640 + wedge (08 R230; none) -/
  rro : Tab RroEnt := []
  /-- runout tables that come into force at the next wedge boundary (12 Table 12.3; none) -/
  rroNext : Option RroSet := none
  /-- entries whose check failed, until they are reloaded (08 R230; none) -/
  rroBad : List Nat := []
  /-- law of the last run (08 R232; none) -/
  law : Law := {}
  /-- its place in the set (08 R232; none) -/
  lawKey : Option Nat := none
  /-- version of its set (08 R232; 0) -/
  lawVer : BitVec 16 := 0
  /-- last measured wedge period in ns (08 R233; 0) -/
  period : Nat := 0
  /-- head's reader or writer offset and the read offset asked for, in 1/10,240 of a track (08 R227; 0) -/
  tgtOff : Int := 0
  /-- target track (08 R231; 0) -/
  tgtTrack : Nat := 0
  /-- target head (08 R231; 0) -/
  tgtHead : Nat := 0
  /-- the target is for a write (08 R231; 0) -/
  tgtWrite : Bool := false
  /-- device time of the seek request (08 R231; 0) -/
  seekStart : Nat := 0
  /-- seek bound of the target (08 R231; 0) -/
  seekBound : Nat := 0
  /-- distance of the seek in tracks (08 R231; 0) -/
  seekDist : Nat := 0
  /-- a seek is in progress (08 R231; 0) -/
  seeking : Bool := false
  /-- command register of the channel island (08 T8.5; 0) -/
  cmdRec : BitVec 64 := 0
  /-- a new record for the wedge is in the command register (08 R226; 0) -/
  newRec : Bool := false
  /-- record of the last command frame (08 R226; 0) -/
  sent : BitVec 64 := 0
  /-- every command carries EMRG (08 R238; 0) -/
  emrg : Bool := false
  /-- device time the retract began (08 R238; 0) -/
  retractAt : Nat := 0
  /-- device times of lost-position and frozen retracts of the last 10 minutes (08 R239; none) -/
  reloads : List Nat := []
  /-- device time LOAD is to be requested, 0 none (08 R239; 0) -/
  reloadAt : Nat := 0
  /-- device time LOAD began (08 T8.6; 0) -/
  loadAt : Nat := 0
  /-- the state mirror's check word passes (08 R224; 1) -/
  mirrorOk : Bool := true
  /-- a run of the loop is due (08 R220; 0) -/
  runDue : Bool := false
  /-- position error of the waiting record, in 1/10,240 of a track (08 R227; 0) -/
  yRec : Int := 0
  /-- a controlled retract asked for, and its cause: it takes effect at the next run (08 R238; none) -/
  retractReq : Option (BitVec 3) := none
  /-- write-inhibit stays until FOLLOW has been reached again (08 R235; 0) -/
  needFollow : Bool := false
  /-- no engine carries the loop (08 R246; 0) -/
  noEngine : Bool := false
  /-- a migration cancelled by a retract is decided afresh at the park (08 R241; 0) -/
  migAgain : Bool := false
  /-- a valid record has come since LOAD began (08 R219; 0) -/
  acquired : Bool := false
  /-- device time of the last valid wedge (07 R206; 0) -/
  goodAt : Nat := 0
  /-- the present wedge already counts as predicted (08 R236; 0) -/
  predCounted : Bool := false
  /-- wedge number of the run due or last made (08 T8.5; 0) -/
  runWedge : BitVec 10 := 0
  /-- device time the last record reached the engine, or was found missing (08 R251; 0) -/
  recAt : Nat := 0
  /-- wedges counted in LOAD (08 T8.6; 0) -/
  loadN : Nat := 0
  /-- CFG_SRV_POS.PES (16; 08 T8.13; 0) -/
  posPes : BitVec 16 := 0
  /-- CFG_SRV_POS.HEAD (4; 08 T8.13; 0) -/
  posHead : BitVec 4 := 0
  /-- CFG_SRV_POS.WEDGE (10; 08 T8.13; 0) -/
  posWedge : BitVec 10 := 0
  /-- CFG_SRV_TRACK.TRACK (24; 08 T8.13; 0) -/
  trackReg : BitVec 24 := 0
  /-- CFG_SRV_VERSION.SET_VER (16; 08 T8.13; 0) -/
  setVer : BitVec 16 := 0
  /-- CFG_SRV_VERSION.RRO_VER (16; 08 T8.13; 0) -/
  rroVer : BitVec 16 := 0
  /-- weight of the coefficient set in force in cycles (08 R222; 420) -/
  weight : Nat := 420
  /-- CFG_SRV_OVERRUN (32; 08 T8.14; 0) -/
  overrun : BitVec 32 := 0
  /-- CFG_SRV_MISSING (32; 08 T8.14; 0) -/
  missing : BitVec 32 := 0
  /-- CFG_SRV_INVALID (32; 08 T8.14; 0) -/
  invalid : BitVec 32 := 0
  /-- CFG_SRV_RETRACT (32; 08 T8.14; 0) -/
  retract : BitVec 32 := 0
  /-- CFG_SRV_MIGRATE (32; 08 T8.14; 0) -/
  migrate : BitVec 32 := 0
  /-- CFG_SRV_SEEK (32; 08 T8.14; 0) -/
  seek : BitVec 32 := 0
  /-- CFG_SRV_SEEKLATE (32; 08 T8.14; 0) -/
  seekLate : BitVec 32 := 0
  /-- CFG_SRV_CLAMP (32; 08 T8.14; 0) -/
  clamp : BitVec 32 := 0
  /-- CFG_SRV_RROMISS (32; 08 T8.14; 0) -/
  rroMiss : BitVec 32 := 0
  deriving DecidableEq, Repr

/-- one Causeway link (10). -/
structure Cwy where
  /-- CFG_CWY_STAT.STATE (4; 10 T10.9; 0) -/
  state : BitVec 4 := 0
  /-- D_OK (1; 10 T10.9; 0) -/
  dOk : Bool := false
  /-- U0_OK (1; 10 T10.9; 0) -/
  u0Ok : Bool := false
  /-- U1_OK (1; 10 T10.9; 0) -/
  u1Ok : Bool := false
  /-- SINGLE (1; 10 T10.9; 0) -/
  single : Bool := false
  /-- RDR (1; 10 T10.9; 0) -/
  rdr : Bool := false
  /-- SPN: this link carries the bay's spindle records (1; 10 T10.9; 0) -/
  spn : Bool := false
  /-- EMRG frames being sent (1; 10 T10.9; 0) -/
  emrg : Bool := false
  /-- RATE in force (16; 10 T10.9; 0) -/
  rate : BitVec 16 := 0
  /-- WRATE in force (16; 10 R284; DESIGN CHOICE 0) -/
  wrate : BitVec 16 := 0
  /-- DLAT in 0.1 ns (16; 10 T10.10; 0) -/
  dlat : BitVec 16 := 0
  /-- ULAT in 0.1 ns (16; 10 T10.10; 0) -/
  ulat : BitVec 16 := 0
  /-- CFG_CWY_UERR (32; 10 T10.11; 0) -/
  uerr : BitVec 32 := 0
  /-- CFG_CWY_DERR (32; 10 T10.11; 0) -/
  derr : BitVec 32 := 0
  /-- CFG_CWY_LOSS (32; 10 T10.11; 0) -/
  loss : BitVec 32 := 0
  /-- CFG_CWY_TRAIN (32; 10 T10.11; 0) -/
  train : BitVec 32 := 0
  /-- CFG_CWY_SPARE (32; 10 T10.11; 0) -/
  spare : BitVec 32 := 0
  /-- next SIDX expected on U0 (10 R287; none) -/
  sidx0 : Option (BitVec 16) := none
  /-- next SIDX expected on U1 (10 R287; none) -/
  sidx1 : Option (BitVec 16) := none
  /-- consecutive frames of U0 whose block 0 is out of place (10 R286; 0) -/
  off0 : Nat := 0
  /-- consecutive frames of U1 whose block 0 is out of place (10 R286; 0) -/
  off1 : Nat := 0
  /-- consecutive failed frames on U0 (10 R293; 0) -/
  bad0 : Nat := 0
  /-- consecutive failed frames on U1 (10 R293; 0) -/
  bad1 : Nat := 0
  /-- device times of the failed frames of U0 in the last 1 ms (10 R293; none) -/
  win0 : List Nat := []
  /-- device times of the failed frames of U1 in the last 1 ms (10 R293; none) -/
  win1 : List Nat := []
  /-- device times of the failed downstream frames in the last 1 ms (10 R293; none) -/
  winD : List Nat := []
  /-- consecutive failed downstream frames (10 R293; 0) -/
  badD : Nat := 0
  /-- last DERRCNT seen since training (10 R292; none) -/
  derrCnt : Option (BitVec 8) := none
  /-- U0 kept in use by the training under way (10 R297; 0) -/
  tr0 : Bool := false
  /-- U1 kept in use by the training under way (10 R297; 0) -/
  tr1 : Bool := false
  /-- the training under way is of a link lost in service (10 R299; 0) -/
  wasUp : Bool := false
  /-- device time of the last upstream frame that passed its check (10 R295; 0) -/
  lastOk : Nat := 0
  /-- device time the link was declared lost (10 R295; 0) -/
  lostAt : Nat := 0
  /-- device time the training phase began (10 R297; 0) -/
  phaseAt : Nat := 0
  /-- device time the next retraining is due (10 R299; 0) -/
  retryAt : Nat := 0
  /-- last voice-coil velocity (10 T10.2; 0) -/
  vcmVel : BitVec 16 := 0
  /-- last voice-coil entry's PARKED (10 T10.2; DESIGN CHOICE 0) -/
  parked : Bool := false
  /-- last SELF_RETRACT (10 T10.2; 0) -/
  selfRet : Bool := false
  /-- combo supply in 10 mV (10 T10.2; 0) -/
  vsup : BitVec 12 := 0
  /-- combo FAULTS (10 T10.2; 0) -/
  faults : BitVec 8 := 0
  /-- telemetry register data last returned (10 T10.2; 0) -/
  deferred : Nat := 0
  deriving DecidableEq, Repr

/-- one pending grazing operation (12 R336). -/
structure GrazeOp where
  /-- order of Table 12.1 -/
  order : Nat := 0
  /-- calibration kind or other detail: 1 channel, 2 servo, 3 assist -/
  kind : Nat := 0
  /-- head -/
  head : Nat := 0
  /-- first sector's place, group or entry id -/
  pos : Nat := 0
  /-- sectors -/
  count : Nat := 0
  /-- the quantum reads; false writes -/
  isRead : Bool := true
  /-- it re-reads its sector for an averaging rung, a passage a quantum (06 R183) -/
  again : Bool := false
  /-- it is the verify read of a rewrite (12 R342) -/
  verify : Bool := false
  /-- sector an averaging rung re-reads, or a rewrite writes, nsid * 2^48 + LBA; 0 none (06 R183, 12 R341) -/
  key : Nat := 0
  /-- step of rung 4, 0 none (06 R182) -/
  step : Nat := 0
  /-- Recovery List entry it recovers (order 5), or counted group it refreshes -/
  ref : Nat := 0
  /-- sectors or passages already done -/
  done : Nat := 0
  /-- of a verify read: 1 its group was written with the precompensation table in force beside a trial table, 2 with the trial table -/
  side : Nat := 0
  deriving DecidableEq, Repr

/-- an entry of the unreadable-sector table (12 R343). -/
structure Unreadable where
  /-- INDEX -/
  index : Nat := 0
  /-- NSID -/
  nsid : Nat := 0
  /-- true LOST, false WEAK -/
  lost : Bool := true
  /-- LBA -/
  lba : Nat := 0
  /-- GEN -/
  gen : BitVec 32 := 0
  /-- TIME -/
  time : Nat := 0
  deriving DecidableEq, Repr

/-- grazing and calibration of one actuator (12). -/
structure Graze where
  /-- pending grazing operations, in the order they came (12 R336; none) -/
  pending : List GrazeOp := []
  /-- unreadable-sector table, at most 4,096 (12 R343; empty) -/
  unread : List Unreadable := []
  /-- next INDEX (12 T12.7; DESIGN CHOICE 0) -/
  unrNext : Nat := 0
  /-- CFG_GRZ_STAT.UNR_FULL (1; 12 T12.9; 0) -/
  unrFull : Bool := false
  /-- CFG_GRZ_STAT.PE_WAIT (1; 12 T12.9; 0) -/
  peWait : Bool := false
  /-- CFG_GRZ_PASS.PCT (8; 12 T12.9; 0) -/
  pct : BitVec 8 := 0
  /-- CFG_GRZ_PASS.PASSES, saturating (16; 12 T12.9; 0) -/
  passes : BitVec 16 := 0
  /-- key of the next sector of the scrub pass (12 R340; 0) -/
  scrubAt : Nat := 0
  /-- device time the scrub pass may begin (12 R340; 0) -/
  passStart : Nat := 0
  /-- CFG_GRZ_SCRUBSECT (32; 12 T12.11; 0) -/
  scrubSect : BitVec 32 := 0
  /-- CFG_GRZ_MARGINAL (32; 12 T12.11; 0) -/
  marginal : BitVec 32 := 0
  /-- CFG_GRZ_REWRITE (32; 12 T12.11; 0) -/
  rewrite : BitVec 32 := 0
  /-- CFG_GRZ_UNREAD (32; 12 T12.11; 0) -/
  unreadCnt : BitVec 32 := 0
  /-- CFG_CAL_ADMVER.SEEK_VER (16; 12 T12.10; 0) -/
  seekVer : BitVec 16 := 0
  /-- CFG_CAL_ADMVER.GAIT_VER (16; 12 T12.10; 0) -/
  gaitVer : BitVec 16 := 0
  /-- seek bounds in force in ns, key gait * 32 + bin (12 R347; calibration record) -/
  seek : Tab Nat := []
  /-- factory seek bounds, same key (12 R347; calibration record) -/
  factory : Tab Nat := []
  /-- times of the last 4,096 seeks, same key (12 R347; none) -/
  measured : Tab (List Nat) := []
  /-- seeks later than the bound in force, same key (12 R347; 0) -/
  late : Tab Nat := []
  /-- seeks counted for the 1 in 10,000 rule, same key (12 R347; 0) -/
  seeks : Tab Nat := []
  /-- device time a bound was last lowered, same key (12 R347; 0) -/
  lowered : Tab Nat := []
  /-- another gait-specific correction waits for its boundary (12 R348; 0) -/
  newGait : Bool := false
  /-- marginal sectors of bands left in place, read again after SCRUB_D / 8 (12 R341; none) -/
  marg8 : List Nat := []
  /-- device time the last scrub pass ended (12 R341; 0) -/
  passEnd : Nat := 0
  /-- calibrations due at a gait not yet running: kind, head, gait (12 R349; none) -/
  calWait : List (Nat × Nat × Nat) := []
  /-- marginal sectors found in each band in this pass (12 R341; 0) -/
  bandMarg : Tab Nat := []
  /-- load cycles (12 R346; 0) -/
  loads : Nat := 0
  deriving DecidableEq, Repr
/-- one sector as a copy of it is held: tag, contents and condition (05 R145, 01 R15). -/
structure Sector where
  /-- NSID of the tag -/
  nsid : Nat := 0
  /-- LBA of the tag -/
  lba : Nat := 0
  /-- write generation of the tag -/
  gen : BitVec 32 := 0
  /-- key slot of the tag -/
  keyslot : Nat := 0
  /-- generation of the key it is encrypted under (16 R430) -/
  keyGen : BitVec 32 := 0
  /-- the 4,096 plaintext bytes; a shorter list reads as zeros to its end -/
  data : List (BitVec 8) := []
  /-- marked unrecoverable, or a placeholder (05 R140, 07 R201) -/
  bad : Bool := false
  deriving DecidableEq, Repr

/-- a STAGED write whose sector a slot has superseded: a FLUSH that covers it waits for the slot's data (03 R84). -/
structure Heir where
  /-- function of the superseded write -/
  fn : Nat := 0
  /-- its ledger id, 0 once that command has ended -/
  cmd : Nat := 0
  /-- device time its completion was posted (03 R84) -/
  acked : Option Nat := none
  deriving DecidableEq, Repr

/-- one write-staging slot in use (11 R311). -/
structure WSlot where
  /-- order of staging, rising -/
  order : Nat := 0
  /-- the sector -/
  sec : Sector := {}
  /-- ledger id of the write that staged it, 0 once that command has ended -/
  cmd : Nat := 0
  /-- function that wrote it -/
  fn : Nat := 0
  /-- ledger id of the write whose data it holds: its place in arrival order (03 R81) -/
  src : Nat := 0
  /-- acknowledged STAGED writes whose sector it has superseded (03 R84; none) -/
  heirs : List Heir := []
  /-- actuator of its final place -/
  act : Nat := 0
  /-- device time the STAGED write's completion was posted (03 R84) -/
  acked : Option Nat := none
  /-- named by a running hold-up flush (05 R141) -/
  flush : Bool := false
  /-- a landing-band copy exists (11 R311) -/
  inLand : Bool := false
  /-- a line of the slot is poisoned (11 R324) -/
  poisoned : Bool := false
  /-- committed in its band and kept as the source of the track before the last (07 R205) -/
  inBand : Bool := false
  deriving DecidableEq, Repr

/-- write-staging slots reserved by an admitted write (02 R45). -/
structure WRes where
  /-- ledger id -/
  cmd : Nat := 0
  /-- slots -/
  count : Nat := 0
  deriving DecidableEq, Repr

/-- one landing-band slot in use (05 R139). -/
structure LSlot where
  /-- segment 0 to 2,047 -/
  seg : Nat := 0
  /-- slot 0 to 254 of the segment -/
  idx : Nat := 0
  /-- what it holds -/
  st : SlotSt := .reserved
  /-- ledger id that reserved it, 0 for the hold-up flush -/
  cmd : Nat := 0
  /-- the sector once written -/
  sec : Sector := {}
  /-- committed in its band and kept as the source of the track before the last (07 R205) -/
  inBand : Bool := false
  /-- read back for its destage (12 T12.1) -/
  rd : Bool := false
  deriving DecidableEq, Repr

/-- one read-staging or read-cache slot (11 R311). -/
structure RSlot where
  /-- the sector -/
  sec : Sector := {}
  /-- ledger ids of the admitted reads that will deliver it -/
  pins : List Nat := []
  /-- device time it was last delivered, 0 not yet -/
  deliveredAt : Nat := 0
  /-- a line of the slot failed its check (11 R322) -/
  poisoned : Bool := false
  deriving DecidableEq, Repr

/-- one zone of a zoned namespace (05 R130-R133). -/
structure Zone where
  /-- admitted state (05 R131; EMPTY) -/
  adm : ZState := .empty
  /-- admitted write pointer, sectors from the zone start (03 R82; 0) -/
  admWp : Nat := 0
  /-- committed state (05 R131; EMPTY) -/
  com : ZState := .empty
  /-- committed write pointer, sectors from the zone start (05 R133; 0) -/
  comWp : Nat := 0
  /-- device time of the zone's last admission (05 R132; 0) -/
  lastAdm : Nat := 0
  /-- committed write pointer last written with the band journal (05 R133, 07 R200; 0) -/
  jwp : Nat := 0
  /-- write generation of the last sector before that pointer (07 R200; 0) -/
  jgen : BitVec 32 := 0
  deriving DecidableEq, Repr

/-- one Recovery List entry (03 Table 3.10). -/
structure RecEntry where
  /-- ID -/
  id : BitVec 16 := 0
  /-- function it belongs to -/
  fn : Nat := 0
  /-- NSID -/
  nsid : Nat := 0
  /-- TAG -/
  tag : BitVec 32 := 0
  /-- SLBA -/
  slba : Nat := 0
  /-- COUNT -/
  count : Nat := 0
  /-- STATE -/
  st : RecState := .pending
  /-- SQID -/
  sq : Nat := 0
  /-- TIME -/
  time : Nat := 0
  /-- device time of creation (06 R182) -/
  born : Nat := 0
  /-- sectors resolved by background recovery -/
  done : List Nat := []
  /-- held data (11 area 9) -/
  data : List Sector := []
  /-- ledger ids of CONT_READs admitted on it (03 R93) -/
  readers : List Nat := []
  deriving DecidableEq, Repr

/-- where a region of an actuator lies, as the descriptor and the format give it (05 R127, R129). -/
structure Place where
  /-- first track -/
  track : Nat := 0
  /-- head -/
  head : Nat := 0
  /-- angle of the first sector in millionths of a revolution -/
  angle : Nat := 0
  /-- sectors per track of the recording zone -/
  spt : Nat := 832
  deriving DecidableEq, Repr

/-- what a segment's record header names for one slot (05 R139). -/
structure HdrEnt where
  /-- namespace -/
  nsid : Nat := 0
  /-- LBA -/
  lba : Nat := 0
  /-- generation -/
  gen : BitVec 32 := 0
  deriving DecidableEq, Repr

/-- a record of the reserved media area, which is written twice (05 R128). -/
structure MedRec where
  /-- sequence number it was last written with -/
  seq : Nat := 0
  /-- place of its first copy -/
  pos0 : Nat := 0
  /-- place of its second, 1 GiB on -/
  pos1 : Nat := 0
  deriving DecidableEq, Repr

/-- media side of one actuator (05). -/
structure Med where
  /-- conventional fraction in % (05 R127; 3) -/
  convPct : Nat := 3
  /-- conventional extents of the layout (05 T5.2; descriptor and fraction) -/
  extents : Nat := 0
  /-- bands of the layout (05 T5.2; descriptor and fraction) -/
  bands : Nat := 0
  /-- heads of the actuator, as its layout uses them (05 T5.1; descriptor) -/
  heads : Nat := 0
  /-- recording zones of a surface (05 T5.1; descriptor) -/
  zones : List RecZone := []
  /-- SPARE_PCT in 0.1 % (05 T5.1; descriptor) -/
  sparePct : Nat := 10
  /-- places of regions that do not lie where the layout alone would put them, extents (key n), bands (2^20 + n), landing segments (2^21 + n), the reserved media area (2^22): a band takes a spare track (05 R127, R129; calibration record) -/
  places : Tab Place := []
  /-- landing-band slots in use (05 R139; none) -/
  landing : List LSlot := []
  /-- next slot of the log, segment * 255 + slot (05 R139; 0) -/
  landNext : Nat := 0
  /-- records of the reserved media area, by kind: 0 identity, 1 band journal, 2 written map, 3 checkpoint, 4 hold-up directory, 5 format progress (05 R128; none) -/
  recs : Tab MedRec := []
  /-- record headers of the landing segments on the media, key segment * 255 + slot; a slot they do not name has no row (05 R139; none) -/
  landHdr : Tab HdrEnt := []
  /-- segments the band journal records as allocated (05 R140; none) -/
  jsegs : List Nat := []
  /-- conventional sectors whose written-map bit was set since the journal buffer was last written (05 R137, 07 R200; none) -/
  unsaved : List Nat := []
  /-- what that replay reads where no waymark is known to have passed; the model's own, from the calibration check to the replay (07 R200; none) -/
  found : List FoundSec := []
  /-- the band journal is to be replayed when the bay is next READY (05 R140, 07 R200; 0) -/
  replay : Bool := false
  /-- free space fell below 25 % and is not yet above 50 % (05 R139; 0) -/
  landLow : Bool := false
  /-- ATI counters by track group (2^24 * head + group) or band edge (2^40 + 2 * band + edge) (05 R146; 0) -/
  ati : Tab Nat := []
  /-- what an ATI counter without a row reads: 0, or what a restoring added to each (05 R148; 0) -/
  atiBase : Nat := 0
  /-- groups held at 2 x ATI_LIMIT; CFG_MED_ACTSTAT.ATI_HOLD counts them (05 R147; none) -/
  atiHeld : List Nat := []
  /-- last checkpoint of the counters (05 R148; none) -/
  atiCkpt : Tab Nat := []
  /-- what a counter without a row read at that checkpoint (05 R148; 0) -/
  atiCkptBase : Nat := 0
  /-- device time of the last checkpoint (05 R148; 0) -/
  ckptAt : Nat := 0
  /-- CFG_MED_ATI_REFRESH (32; 05 T5.14; 0) -/
  atiRefresh : BitVec 32 := 0
  /-- hold-up directory: staged ranges listed (05 R141; none) -/
  holdDir : List Sector := []
  /-- closing record: sectors landed (05 R143; none) -/
  holdClosed : Option Nat := none
  /-- maps poisoned, being rebuilt: namespaces not ready (11 T11.4; 0) -/
  mapRebuild : Bool := false
  /-- the last stop left a final checkpoint: the hold-up flush wrote one (05 R148, 07 R214; 0) -/
  ckptFinal : Bool := false
  /-- media identity record: 0 none or invalid, 1 this device and bay, 2 this device and another bay, 3 another device (05 R153) -/
  identity : Nat := 0
  deriving DecidableEq, Repr

/-- one format operation (05 R149-R151). -/
structure FmtOp where
  /-- OP_ID -/
  id : Nat := 0
  /-- true: namespace format (KIND 1); false: actuator format (KIND 2) -/
  nsFmt : Bool := true
  /-- NSID -/
  nsid : Nat := 0
  /-- ACT -/
  act : Nat := 0
  /-- CONV_PCT -/
  convPct : Nat := 0
  /-- STATE: 0 WAITING, 1 RUNNING, 2 PAUSED, 3 DONE -/
  st : Nat := 0
  /-- units completed, by actuator (05 R151) -/
  doneAt : Tab Nat := []
  /-- units in the operation -/
  total : Nat := 0
  /-- actuator format: passes of the island's certification done, 1 the write, 2 the read (05 R149; 0) -/
  cert : Nat := 0
  deriving DecidableEq, Repr
/-- one mailbox: of a function, or the sideband's (15 Table 15.1). -/
structure Mbx where
  /-- MBX_REQBUF, by byte offset (4,096 bytes; 15 T15.1; DESIGN CHOICE 0) -/
  reqbuf : Tab (BitVec 8) := []
  /-- MBX_RSPBUF bytes 0 to RSP_LEN - 1; later bytes read 0 (4,096 bytes; 15 R387; 0) -/
  rspbuf : List (BitVec 8) := []
  /-- MBX_REQ.OPCODE (16; 15 T15.14; 0) -/
  opcode : BitVec 16 := 0
  /-- MBX_REQ.LEN (16; 15 T15.14; 0) -/
  len : BitVec 16 := 0
  /-- MBX_STAT.BUSY (1; 15 T15.14; 0) -/
  busy : Bool := false
  /-- MBX_STAT.DONE (1; 15 T15.14; 0) -/
  done : Bool := false
  /-- MBX_STAT.GOIGN (1; 15 T15.14; 0) -/
  goign : Bool := false
  /-- MBX_STAT.TSTATUS (4; 15 T15.14; 0) -/
  tstatus : BitVec 4 := 0
  /-- MBX_RSP.SEQ (16; 15 T15.14; 0) -/
  rspSeq : BitVec 16 := 0
  /-- MBX_RSP.OPCODE (16; 15 T15.14; 0) -/
  rspOpcode : BitVec 16 := 0
  /-- the last completed response has not been displaced (15 R388; 0) -/
  rspValid : Bool := false
  /-- opcode of the request in progress (15 R387) -/
  rqOp : Nat := 0
  /-- SEQ of the request in progress (15 R387) -/
  rqSeq : BitVec 16 := 0
  /-- payload taken at the accepted MBX_GO (15 R387) -/
  rqData : List (BitVec 8) := []
  /-- the operation a deferred response waits for (15 R389; none) -/
  owed : Option Owed := none
  /-- SMBus response read offset (12; 15 T15.3; DESIGN CHOICE 0) -/
  rdOff : BitVec 12 := 0
  deriving DecidableEq, Repr

/-- event latches of the PFs and live conditions (15 R401). -/
structure Evt where
  /-- EVT_LATCH of each PF's own view, key port * 64 + group (32 each; 15 T15.15; 0) -/
  latch : Tab (BitVec 32) := []
  deriving DecidableEq, Repr

/-- one tally ring: function f, kind k, key 4 * f + k (15 R405). -/
structure Ring where
  /-- the ring exists (15 T15.7; none) -/
  present : Bool := false
  /-- host base address (64; 15 T15.7) -/
  base : Nat := 0
  /-- ENTRIES (17; 15 T15.7) -/
  entries : Nat := 0
  /-- TAL_HEAD (16; 15 T15.16; 0) -/
  head : BitVec 16 := 0
  /-- TAL_TAIL (16; 15 T15.16; 0) -/
  tail : BitVec 16 := 0
  /-- SEQ of the last record due (64; 15 R406; counts from 1) -/
  seq : Nat := 0
  /-- TAL_OVERRUN (32; 15 T15.16; 0) -/
  overrun : BitVec 32 := 0
  deriving DecidableEq, Repr

/-- tally accumulators of a function, a namespace or the device, of the running minute (15 T15.11). -/
structure Acc where
  /-- CMDS per class (32 each; 15 T15.11; 0) -/
  cmds : Tab Nat := []
  /-- SECT per class (32 each; 15 T15.11; 0) -/
  sect : Tab Nat := []
  /-- REF_DL (32; 15 T15.11; 0) -/
  refDl : Nat := 0
  /-- REF_LDG (16, saturating; 15 T15.11; 0) -/
  refLdg : Nat := 0
  /-- REF_PWR (16, saturating; 15 T15.11; 0) -/
  refPwr : Nat := 0
  /-- BUSY_US, held in ns (48; 15 T15.11; 0) -/
  busyNs : Nat := 0
  /-- ITER (48; 15 T15.11; 0) -/
  iter : Nat := 0
  /-- FAILS (16, saturating; 15 T15.11; 0) -/
  fails : Nat := 0
  /-- POISON (16, saturating; 15 T15.11; 0) -/
  poison : Nat := 0
  /-- E_SPIN in pJ, remainder carried (15 R408; 0) -/
  eSpin : Nat := 0
  /-- E_ASST in pJ, remainder carried (15 R408; 0) -/
  eAsst : Nat := 0
  /-- E_CHAN in pJ, remainder carried (15 R408; 0) -/
  eChan : Nat := 0
  /-- E_DEC in pJ, remainder carried (15 R408; 0) -/
  eDec : Nat := 0
  /-- FLAGS bit 2: partial minute (15 T15.11; 0) -/
  partial_ : Bool := false
  /-- FLAGS bit 3: accumulators restarted (15 T15.11; 0) -/
  restarted : Bool := false
  /-- the function was enabled, or the namespace existed, during the minute (15 R405; 0) -/
  enabled : Bool := false
  deriving DecidableEq, Repr

/-- tally minute and device trims (15 R404, R408). -/
structure Tally where
  /-- index k of the running tally minute (15 R404; 0) -/
  minute : Nat := 0
  /-- FLAGS bit 0: times untraced during the minute (15 T15.11; 0) -/
  untraced : Bool := false
  /-- FLAGS bit 1: energy untraced during the minute (15 T15.11; 0) -/
  enUntraced : Bool := false
  /-- device time was stepped within the minute, which is partial (15 R404, T15.11; 0) -/
  stepped : Bool := false
  /-- E_SPIN of the function records carried over from earlier minutes, in pJ (15 R408; 0) -/
  carry : Nat := 0
  /-- trim ch_a in uW (15 R408; nominal 0.35 W) -/
  chA : Nat := 350000
  /-- trim ch_b in uW per GS/s (15 R408; nominal 0.22 W per GS/s) -/
  chB : Nat := 220000
  /-- trim e_it in pJ (15 R408; nominal 0.3125 uJ) -/
  eIt : Nat := 312500
  /-- trim e_rd in pJ (15 R408; nominal 1.2 uJ) -/
  eRd : Nat := 1200000
  deriving DecidableEq, Repr

/-- one namespace (15 T15.6, 05 R134-R137). -/
structure Ns where
  /-- the namespace exists (15 R395; none) -/
  present : Bool := false
  /-- TYPE (1; 15 T15.6) -/
  zoned : Bool := false
  /-- UNIT, log2 of the stripe unit (4; 15 T15.6) -/
  unit : Nat := 0
  /-- KEYSLOT (12; 15 T15.6) -/
  keyslot : Nat := 0
  /-- PER_ACT (32; 15 T15.6) -/
  perAct : Nat := 0
  /-- SECTORS, sector count (64; 15 T15.6) -/
  sectors : Nat := 0
  /-- actuators of the set, rising (144; 15 T15.6) -/
  actset : List Nat := []
  /-- extents or bands held on each actuator, in order (05 R134) -/
  space : Tab (List Nat) := []
  /-- ports granted in the applied configuration (4; 15 R396; none) -/
  ports : List Nat := []
  /-- functions attached (256; 15 R396; none) -/
  attached : List Nat := []
  /-- next write sequence number (32; 05 R145) -/
  nextGen : BitVec 32 := 0
  /-- a format of it is under way (05 R150; 0) -/
  formatting : Bool := false
  /-- a sanitize covers it (16 R431; 0) -/
  sanitizing : Bool := false
  /-- latched not-ready condition, for function view bits 5 and 6 (15 T15.9; 0) -/
  notReady : Bool := false
  deriving DecidableEq, Repr
/-- spindle action waiting for both actuators to park (01 R21). -/
inductive SpinAct where
  /-- a brake to Stand (09 R268) -/
  | brake
  /-- a Standby entry (09 R275) -/
  | standby
  /-- an observer-loss recovery below the flying floor (09 R267) -/
  | recover
  /-- a domain fault's coast (09 R271) -/
  | coast
  /-- a thermal emergency (13) -/
  | thermal
  /-- a loop that no engine carries: a shorted-winding brake (09 R274) -/
  | lost
  deriving DecidableEq, Repr, Inhabited

/-- spindle side of one bay (09). -/
structure Spin where
  /-- CFG_SPN_STAT.STATE (4; 09 T9.10; 0) -/
  state : BitVec 4 := 0
  /-- CFG_SPN_STAT.GAIT, running gait (2; 09 T9.10; 0) -/
  gait : BitVec 2 := 0
  /-- CFG_SPN_STAT.TARGET (2; 09 T9.10; 0) -/
  target : BitVec 2 := 0
  /-- CFG_SPN_STAT.PSTATE (2; 09 T9.10; 2) -/
  pstate : BitVec 2 := 2
  /-- power state an entry in progress leads to (09 R275; 2) -/
  pwant : BitVec 2 := 2
  /-- CFG_SPN_STAT.TOKEN (1; 09 T9.10; 0) -/
  token : Bool := false
  /-- CFG_SPN_STAT.TOKWAIT (1; 09 T9.10; 0) -/
  tokwait : Bool := false
  /-- kind of the waiting request: 1 exit for an admitted command, 2 gait raise, 3 other exit or bring-up (09 R265; 0) -/
  tokKind : Nat := 0
  /-- earliest milestone of a waiting kind 1 request (09 R265; 0) -/
  tokMile : Nat := 0
  /-- device time of the waiting request (09 R265; 0) -/
  tokAt : Nat := 0
  /-- CFG_SPN_STAT.RELOCK (2; 09 T9.10; 0) -/
  relock : BitVec 2 := 0
  /-- CFG_SPN_SPEED.RPM (16; 09 T9.11; 0) -/
  rpm : BitVec 16 := 0
  /-- CFG_SPN_SPEED.PHERR (8; 09 T9.11; 0) -/
  pherr : BitVec 8 := 0
  /-- CFG_SPN_OBSLOSS (32; 09 T9.14; 0) -/
  obsloss : BitVec 32 := 0
  /-- CFG_SPN_RELOCKFAIL (32; 09 T9.14; 0) -/
  relockfail : BitVec 32 := 0
  /-- CFG_SPN_BRAKE (32; 09 T9.14; 0) -/
  brake : BitVec 32 := 0
  /-- CFG_SPN_GAITCHG (32; 09 T9.14; 0) -/
  gaitchg : BitVec 32 := 0
  /-- CFG_SPN_SPINFAIL (32; 09 T9.14; 0) -/
  spinfail : BitVec 32 := 0
  /-- power ceiling (2; 09 R263; 0, as CFG_SPN_STAT.CEIL) -/
  ceilPwr : BitVec 2 := 0
  /-- gait the spin-up or transition leads to (09 R259; 0) -/
  goal : BitVec 2 := 0
  /-- a gait transition is in progress (09 R259; 0) -/
  moving : Bool := false
  /-- the transition is a raise (09 R259; 0) -/
  raising : Bool := false
  /-- planned end of the transition pause (09 R259; 0) -/
  pauseEnd : Nat := 0
  /-- a lowering waiting under R25: the gait it leads to (01 R25; none) -/
  lowerTo : Option (BitVec 2) := none
  /-- device time from which u(target) <= UTIL_LO has held (09 R260; none) -/
  lowSince : Option Nat := none
  /-- last spindle command record (64; 09 T9.1; 0) -/
  record : BitVec 64 := 0
  /-- SEQ of the next spindle command record (8; 09 T9.1; 0) -/
  seq : BitVec 8 := 0
  /-- zero-crossing report waiting for its run (09 R255; none) -/
  report : Option (BitVec 64) := none
  /-- an ALIGN or OPEN tick waits for its run (09 R255; 0) -/
  tick : Bool := false
  /-- SEQ of the last report used (09 R255; none) -/
  repSeq : Option (BitVec 8) := none
  /-- device time bits 31:0 of the last qualified crossing (09 R256; 0) -/
  crossAt : Nat := 0
  /-- last crossing interval in ns (09 R256; 0) -/
  interval : Nat := 0
  /-- consecutive qualified crossings (09 T9.3; 0) -/
  crossings : Nat := 0
  /-- observer mode (09 R256; 0) -/
  observer : Bool := false
  /-- consecutive empty expected windows (09 R266; 0) -/
  missed : Nat := 0
  /-- device time bits 31:0 of the predicted next crossing, the centre of its expected window (09 R256; 0) -/
  predAt : Nat := 0
  /-- step whose crossing it is (09 R256; 0) -/
  predStep : Nat := 0
  /-- expected windows closed since the last crossing used (09 R266; 0) -/
  closed : Nat := 0
  /-- crossings captured in the relock attempt under way: TIME and STEP (09 R267; none) -/
  captures : List (Nat × Nat) := []
  /-- commutations of the OPEN schedule made (09 T9.3; 0) -/
  openN : Nat := 0
  /-- speed target after its ramp, in 1/1,000 rpm (09 R258; 0) -/
  tgtMil : Nat := 0
  /-- device time of the last spindle run (09 R258; 0) -/
  tgtAt : Nat := 0
  /-- integral of the speed loop, a float (09 R258; DESIGN CHOICE 0) -/
  integ : BitVec 32 := 0
  /-- consecutive revolutions within 0.1 % of the gait speed (09 R258; 0) -/
  inBand : Nat := 0
  /-- device time ALIGN began (09 R257; 0) -/
  alignAt : Nat := 0
  /-- device time OPEN began (09 R257; 0) -/
  openAt : Nat := 0
  /-- consecutive failed spin-ups (09 R257; 0) -/
  fails : Nat := 0
  /-- out of service after three failed spin-ups (09 R257; 0) -/
  stoppedFor : Bool := false
  /-- a spin-up is retried once the spindle has stopped (09 R257; 0) -/
  retrySpin : Bool := false
  /-- spindle action waiting for both parks (01 R21; none) -/
  action : Option SpinAct := none
  /-- the brake under way ends at Stand (09 R268; 0) -/
  brakeTo : Bool := false
  /-- device time of the last crossing (09 R270; 0) -/
  lastCross : Nat := 0
  /-- a qualified crossing fell in the present expected window (09 R266; 0) -/
  windowHit : Bool := false
  /-- steps since the present revolution began (09 R258; 0) -/
  revSteps : Nat := 0
  /-- device time bits 31:0 at which it began (09 R258; 0) -/
  revAt : Nat := 0
  /-- device time the float or the relock attempt under way began (09 R267; 0) -/
  ticked : Nat := 0
  /-- a link has returned after the loss of both: the spindle resumes only within the flying floor (09 R273; 0) -/
  linkBack : Bool := false
  /-- a relock attempt is under way (09 R267; 0) -/
  relocking : Bool := false
  /-- a spin-up, or an acceleration out of a cancelled Standby entry, is in progress (09 R257, R276; 0) -/
  spinUp : Bool := false
  /-- projected device time of LOCKED (09 R265; 0) -/
  lockAt : Nat := 0
  /-- sum of the phase currents measured in the present 10 ms window, mA (15 R408; 0) -/
  iphSum : Int := 0
  /-- their number (15 R408; 0) -/
  iphN : Nat := 0
  /-- device time that window began (15 R408; 0) -/
  iphAt : Nat := 0
  /-- device time the spindle was declared stopped (09 R270; 0) -/
  stopAt : Nat := 0
  /-- the Standby entry's retract has started (09 R276; 0) -/
  standbyRet : Bool := false
  /-- device time the bay last held an admitted command (09 R278; 0) -/
  lastCmd : Nat := 0
  /-- a device time at which angle 0 passed (02, rotational plan; 0) -/
  phase0 : Nat := 0
  /-- mean measured spindle power of the last 10 ms window in mW (15 R408; 0) -/
  measMw : Nat := 0
  /-- device time the running gait was reached (12 R346; 0) -/
  gaitAt : Nat := 0
  /-- last measured or calibrated coast deceleration, the larger, in rpm/s (09 R267; calibration record) -/
  coastDec : Nat := 400
  /-- spindle constants of the calibration record (09 R262; calibration record) -/
  cal : SpinCal := {}
  /-- projected utilisation in % by gait of the busier actuator (09 R260; 0) -/
  utils : Tab Nat := []
  deriving DecidableEq, Repr

/-- one power domain (09 T9.12). -/
structure Dom where
  /-- BUSV in 10 mV (12; 09 T9.12; 0) -/
  busv : BitVec 12 := 0
  /-- CHOP_FAULT (1; 09 T9.12; 0) -/
  chop : Bool := false
  /-- REGEN_OFF (1; 09 T9.12; 0) -/
  regenOff : Bool := false
  /-- COAST (1; 09 T9.12; 0) -/
  coast : Bool := false
  /-- DOMFAULT (1; 09 T9.12; 0) -/
  domfault : Bool := false
  /-- device time from which BUSV has been below VTRIP (09 R271; none) -/
  lowAt : Option Nat := none
  /-- device time from which BUSV has been below REGEN_V (09 T9.7; none) -/
  belowAt : Option Nat := none
  /-- device time from which BUSV has been below REGEN_V - 0.3 V (09 T9.7; none) -/
  clearAt : Option Nat := none
  /-- device time from which BUSV has been above VTRIP + 0.4 V (09 R272; none) -/
  goodAt : Option Nat := none
  /-- write-level time of the last 100 ms window in ns, as reported (07 R213; 0) -/
  dutyNs : Nat := 0
  /-- write-level assist energy of the present 100 ms window in pJ (09 R264; 0) -/
  assistPj : Nat := 0
  deriving DecidableEq, Repr

/-- shelf power cap and projection (09 R261, R262). -/
structure Pwr where
  /-- CFG_PWR_CAP.DUTY (8; 09 T9.12; 0) -/
  duty : BitVec 8 := 0
  /-- the cap in 1/1,000 % of TARGET: CAP_PCT with its fraction (09 R261; 60 %) -/
  capMil : Nat := 60000
  /-- CFG_PWR_CAP.CAP_PCT (8; 09 T9.12; 60) -/
  capPct : BitVec 8 := 60
  /-- CFG_PWR_CAP.DEFAULT (1; 09 T9.12; 1) -/
  dflt : Bool := true
  /-- duty of the last window when it was valid (09 R261; none) -/
  lastDuty : Option Nat := none
  /-- consecutive invalid windows (09 R261; 0) -/
  badWins : Nat := 0
  /-- CFG_PWR_PROJ.PROJ_W (16; 09 T9.12; 0) -/
  projW : BitVec 16 := 0
  /-- CFG_PWR_PROJ.CAP_W (16; 09 T9.12; 0) -/
  capW : BitVec 16 := 0
  /-- device time the present 100 ms window began (07 R213; 0) -/
  dutyAt : Nat := 0
  /-- last measured package power in mW (09 R262; 0) -/
  pkgMw : Nat := 0
  deriving DecidableEq, Repr
/-- presence, descriptor and bring-up of one bay (10). -/
structure BayLink where
  /-- debounced BAYPRES_N; CFG_CWY_PRES (1; 10 R300; 0) -/
  present : Bool := false
  /-- CFG_MED_BAYSTAT: bay media state (4; 05 T5.16; 0) -/
  media : BitVec 4 := 0
  /-- bring-up step of R301: 0 none, 1 training, 2 spin-up, 3 LOAD, 4 calibration check, 5 media state (10 R301; 0) -/
  step : Nat := 0
  /-- device time of the insertion declaration; order of joining (10 R300; 0) -/
  insertAt : Nat := 0
  /-- device time a failed attempt is retried (10 R301; none) -/
  retryAt : Option Nat := none
  /-- consecutive failed attempts counted toward quarantine (16 R421; 0) -/
  failed : Nat := 0
  /-- BOOT_QREASON field of the bay, 0 not quarantined (4; 16 T16.14; flash) -/
  quar : BitVec 4 := 0
  /-- serial of the quarantined HDA (16 R421; flash) -/
  quarSerial : List (BitVec 8) := []
  /-- bring-up from link training with no descriptor read: after a domain restore or a cancelled preparation (09 R272, 10 R303; 0) -/
  rejoin : Bool := false
  /-- the attempt does not count toward quarantine (09 R272, 10 R303; 0) -/
  noCount : Bool := false
  /-- the descriptor has been read since the insertion (10 R299; 0) -/
  descRead : Bool := false
  /-- descriptor store as read (10 T10.12; none) -/
  descBytes : List (BitVec 8) := []
  /-- HDA_SERIAL (16 bytes; 05 T5.1; none) -/
  serial : List (BitVec 8) := []
  /-- DESC_VER (05 T5.1; none) -/
  version : Nat := 0
  /-- CAPACITY (05 T5.1; none) -/
  capacity : Nat := 0
  /-- HEADS_A (05 T5.1; none) -/
  headsA : Nat := 0
  /-- HEADS_B (05 T5.1; none) -/
  headsB : Nat := 0
  /-- ASSIST: spin-torque oscillator (05 T5.1; none) -/
  sto : Bool := false
  /-- recording zones per surface (05 T5.1; none) -/
  recZones : Nat := 0
  /-- SPARE_PCT in 0.1 % (05 T5.1; none) -/
  sparePct : Nat := 0
  /-- ATI_LIMIT (16; 05 T5.1; descriptor, DESIGN CHOICE the least allowed) -/
  atiLimit : Nat := 256
  /-- removal preparation under way (10 R303; 0) -/
  prep : Bool := false
  /-- the preparation is done, STATE OFF (10 R303; 0) -/
  off : Bool := false
  /-- target engine of a pending migration of the spindle loop (08 R245; none) -/
  spnMigTo : Option Nat := none
  /-- no engine carries the spindle loop (09 R274; 0) -/
  spnNoEngine : Bool := false
  /-- overruns among the last 64 runs of the spindle loop (08 R243; 0) -/
  spnOvr : BitVec 64 := 0
  /-- Loop Engine of the bay's spindle loop (08 R223; reference layout) -/
  spnEngine : BitVec 5 := 0
  /-- spindle starts, a wear figure (12 R346; DESIGN CHOICE 0) -/
  starts : Nat := 0
  /-- band revolutions, a wear figure (12 R346; DESIGN CHOICE 0) -/
  revs : Nat := 0
  /-- rated load cycles, 0 none known (12 R346; calibration record) -/
  budLoads : Nat := 0
  /-- rated spindle revolutions, 0 none known (12 R346; calibration record) -/
  budRevs : Nat := 0
  /-- rated spindle starts, 0 none known (12 R346; calibration record) -/
  budStarts : Nat := 0
  /-- time at each gait in ns, a wear figure (12 R346; DESIGN CHOICE 0) -/
  hours : Tab Nat := []
  deriving DecidableEq, Repr
/-- base and size of one DRAM area in 256 MiB granules (11 R308). -/
structure Area where
  /-- CFG_MEM_AREA_BASE.BASE (8; 11 T11.10; flash, Table 11.1) -/
  base : BitVec 8 := 0
  /-- CFG_MEM_AREA_SIZE.SIZE (8; 11 T11.10; flash, Table 11.1) -/
  size : BitVec 8 := 0
  deriving DecidableEq, Repr

/-- one Poison List entry (11 Table 11.5). -/
structure PoisonEnt where
  /-- KIND -/
  kind : Nat := 0
  /-- COARSE -/
  coarse : Bool := false
  /-- AREA -/
  area : Nat := 0
  /-- NSID -/
  nsid : Nat := 0
  /-- ID -/
  id : BitVec 32 := 0
  /-- START -/
  start : Nat := 0
  /-- COUNT -/
  count : Nat := 0
  /-- LEFT -/
  left : Nat := 0
  /-- TIME -/
  time : Nat := 0
  deriving DecidableEq, Repr

/-- one merge-buffer entry (11 R328). -/
structure MergeEnt where
  /-- staging address of the line -/
  line : Nat := 0
  /-- bytes written, by offset in the line: the keys are the mask -/
  bytes : Tab (BitVec 8) := []
  /-- device time of its first write -/
  at_ : Nat := 0
  deriving DecidableEq, Repr

/-- staging memory (11). -/
structure MemSt where
  /-- layout in force; an absent row reads Table 11.1 (11 R308; flash, Table 11.1) -/
  areas : Tab Area := []
  /-- pending layout record (11 R310; none) -/
  pendLay : Option (Tab Area) := none
  /-- CFG_MEM_STAT.LAYOUT_DEFAULT (1; 11 T11.9; 0) -/
  layDef : Bool := false
  /-- CFG_MEM_STAT.REMAP_FULL (1; 11 T11.9; 0) -/
  remapFull : Bool := false
  /-- lines moved to the remap pool; REMAP_USED counts them (11 R332; none) -/
  remap : List Nat := []
  /-- fenced 4 KiB ranges (11 R332; none) -/
  fenced : List Nat := []
  /-- DRAM lines the scrubber has read in this pass (11 R331; 0) -/
  scrubDone : Nat := 0
  /-- device time a line was last repaired or rewritten (11 R332; none) -/
  fixedAt : Tab Nat := []
  /-- staging addresses of lines carrying the poison marker (11 R323; none) -/
  poisoned : List Nat := []
  /-- Poison List in id order (11 R326; empty) -/
  plist : List PoisonEnt := []
  /-- next entry id (32; 11 R326; DESIGN CHOICE 0) -/
  plistNext : BitVec 32 := 0
  /-- CFG_MEM_PLIST.COARSE (1; 11 T11.9; 0) -/
  plCoarse : Bool := false
  /-- CFG_MEM_CRCFIX (32; 11 T11.12; 0) -/
  crcfix : BitVec 32 := 0
  /-- CFG_MEM_POISONCNT (32; 11 T11.12; 0) -/
  poisoncnt : BitVec 32 := 0
  /-- CFG_MEM_MERGEPSN (32; 11 T11.12; 0) -/
  mergepsn : BitVec 32 := 0
  /-- CFG_MEM_HARDFLT (32; 11 T11.12; 0) -/
  hardflt : BitVec 32 := 0
  /-- CFG_MEM_SCRUBPASS (32; 11 T11.12; 0) -/
  scrubpass : BitVec 32 := 0
  /-- soft repair records of DRAM lines in flash (11 R332; DESIGN CHOICE none) -/
  softRecs : List Nat := []
  /-- soft repair map in flash, at most 256 records (11 R333; DESIGN CHOICE none) -/
  softMap : List SoftRec := []
  /-- merge buffer, oldest first, at most 32 (11 R328; empty) -/
  merge : List MergeEnt := []
  deriving DecidableEq, Repr

/-- one line of the line cache or of the victim store. -/
structure Line where
  /-- staging address of the line -/
  addr : Nat := 0
  /-- dirty -/
  dirty : Bool := false
  /-- privileged (11 R312) -/
  priv : Bool := false
  /-- way 0 to 15 -/
  way : Nat := 0
  /-- device time the victim store's write of a dirty line to DRAM ends (11 R316) -/
  due : Nat := 0
  deriving DecidableEq, Repr

/-- line cache and victim store (11). -/
structure CacheSt where
  /-- CFG_LC_CTRL.WGDIS (8; 11 T11.11; 0) -/
  wgdis : BitVec 8 := 0
  /-- CFG_LC_CTRL.CDIS (1; 11 T11.11; 0) -/
  cdis : Bool := false
  /-- CFG_LC_CTRL.CLEAN_LIMIT (8; 11 T11.11; 75) -/
  cleanLimit : BitVec 8 := 75
  /-- CFG_LC_STAT.WGON (8; 11 T11.11; 0xFF) -/
  wgon : BitVec 8 := 0xFF
  /-- CFG_LC_STAT.WGFAIL (8; 11 T11.11; 0) -/
  wgfail : BitVec 8 := 0
  /-- groups down for a reset of their islands only (14 T14.2; 0) -/
  wgrst : BitVec 8 := 0
  /-- CFG_LC_STAT.DIS_DONE (1; 11 T11.11; 0) -/
  disDone : Bool := false
  /-- CFG_LC_STAT.CDISABLED (1; 11 T11.11; 0) -/
  cdisabled : Bool := false
  /-- way groups being walked; CFG_LC_STAT.WALK is 1 while non-zero (11 R318; 0) -/
  walking : BitVec 8 := 0
  /-- valid lines by set (11 R312; none) -/
  lines : Tab (List Line) := []
  /-- tree pseudo-LRU bits by set (15 each; 11 R314; DESIGN CHOICE 0) -/
  tree : Tab (BitVec 15) := []
  /-- victim store lines, oldest first (11 R316; empty) -/
  victim : List Line := []
  /-- CFG_LC_HITS by channel (32 each; 11 T11.12; 0) -/
  hits : Tab (BitVec 32) := []
  /-- CFG_LC_MISSES by channel (32 each; 11 T11.12; 0) -/
  misses : Tab (BitVec 32) := []
  /-- lines whose write-back has left the cache: the device time it reaches DRAM (11 R315; none) -/
  wback : Tab Nat := []
  /-- CFG_LC_EVWAIT (32; 11 T11.12; 0) -/
  evwait : BitVec 32 := 0
  /-- CFG_LC_VDECLINE (32; 11 T11.12; 0) -/
  vdecline : BitVec 32 := 0
  /-- CFG_LC_CRCFIX (32; 11 T11.12; 0) -/
  crcfix : BitVec 32 := 0
  deriving DecidableEq, Repr
/-- device calibration (12 R353-R356). -/
structure Cal where
  /-- CFG_CAL_STAT.REF_FAULT (1; 12 T12.10; 0) -/
  refFault : Bool := false
  /-- CFG_CAL_STAT.TRIM_VER (16; 12 T12.10; 0) -/
  trimVer : BitVec 16 := 0
  /-- CFG_CAL_REF.UV10 (18; 12 T12.10; 0) -/
  uv10 : BitVec 18 := 0
  /-- CFG_CAL_FALLBACK (32; 12 T12.10; 0) -/
  fallback : BitVec 32 := 0
  /-- consecutive seconds in disagreement (12 R353; 0) -/
  disagree : Nat := 0
  /-- device records of the flash calibration sector by TYPE, in two slots (12 R355; DESIGN CHOICE none) -/
  flash : Tab (List (BitVec 8) × List (BitVec 8)) := []
  /-- consecutive seconds in agreement while REF_FAULT is set (12 R353; 0) -/
  agree : Nat := 0
  deriving DecidableEq, Repr
/-- one level of a sensor (13 R363). -/
structure Lev where
  /-- the sensor stands at this level or above (13 R363; 0) -/
  on : Bool := false
  /-- device time from which its conditions have been clear (13 R363; none) -/
  clear : Option Nat := none
  deriving DecidableEq, Repr

/-- one thermal sensor (13). -/
structure Sens where
  /-- the sensor has a reading (13 R361) -/
  seen : Bool := false
  /-- reading in 1/16 C (16; 13 T13.8; 0) -/
  temp : Int := 0
  /-- samples of the last 100 ms by evaluation: device time, sum, number (13 R361; none) -/
  win : List (Nat × Int × Nat) := []
  /-- readings of the last 2 s with their device times, newest first (13 R361; none) -/
  hist : List (Nat × Int) := []
  /-- FAULT reported, or open, shorted or out of range (13 R362; 0) -/
  fault : Bool := false
  /-- broken (1; 13 T13.7, T13.10; 0) -/
  broken : Bool := false
  /-- device time from which every test of R362 has passed (13 R362; none) -/
  okSince : Option Nat := none
  /-- substituted (1; 13 T13.7; 0) -/
  subst : Bool := false
  /-- the warning level (13 R363) -/
  warn : Lev := {}
  /-- the action level (13 R363) -/
  act : Lev := {}
  /-- the emergency level, a broken sensor apart (13 R363) -/
  emrg : Lev := {}
  /-- device time of the last reading (13 T13.1; 0) -/
  seenAt : Nat := 0
  deriving DecidableEq, Repr

/-- one thermal scope: the die, a bay or a head (13). -/
structure Scope where
  /-- level 0 to 3 (2; 13 T13.7; 0) -/
  level : Nat := 0
  /-- ceiling the scope sets (2; 13 T13.7; 3) -/
  ceil : BitVec 2 := 3
  /-- assisted writes inhibited (1; 13 T13.7; 0) -/
  ainh : Bool := false
  /-- device time the inhibit began (13 R365, R367; 0) -/
  ainhAt : Nat := 0
  /-- ceiling stepping up (1; 13 T13.7; 0) -/
  exiting : Bool := false
  /-- device time of the last ceiling step or of the entry to action (13 R365; 0) -/
  stepAt : Nat := 0
  /-- device time from which the scope has been at normal, or the last upward step (13 R365; none) -/
  normSince : Option Nat := none
  /-- device time from which the conditions of R368 have held (13 R368; none) -/
  coolSince : Option Nat := none
  /-- in emergency until R368 is met (13 R366; 0) -/
  emerg : Bool := false
  deriving DecidableEq, Repr

/-- thermal sensing and management (13). -/
structure Thm where
  /-- on-die sensors 0 to 95 (13 T13.1; 0) -/
  die : Tab Sens := []
  /-- bay sensors, key 4 * bay + kind (13 T13.1; 0) -/
  bay : Tab Sens := []
  /-- head readbacks, key 16 * actuator + head (13 T13.1; 0) -/
  head : Tab Sens := []
  /-- die scope (13 R363) -/
  dieScope : Scope := {}
  /-- ceiling the die scope sets on each bay (2; 13 R364; 3) -/
  dieCeil : Tab (BitVec 2) := []
  /-- scope of each bay (13 R363) -/
  bayScope : Tab Scope := []
  /-- scope of each head, key 16 * actuator + head (13 R363) -/
  headScope : Tab Scope := []
  /-- THM_EMRGCNT (32; 13 T13.10; 0) -/
  emrgcnt : BitVec 32 := 0
  /-- THM_BRKCNT (32; 13 T13.10; 0) -/
  brkcnt : BitVec 32 := 0
  deriving DecidableEq, Repr
/-- one clock island (14 T14.6). -/
structure Isl where
  /-- CLK_ISL_STAT.READY (1; 14 T14.6; 0) -/
  ready : Bool := false
  /-- CLK_ISL_STAT.RESET (1; 14 T14.6; 0) -/
  reset : Bool := false
  /-- CLK_ISL_STAT.HOLDOVER (1; 14 T14.6; 0) -/
  holdover : Bool := false
  /-- CLK_ISL_STAT.SWITCHING (1; 14 T14.6; 0) -/
  switching : Bool := false
  /-- after a clock switch, 16 cycles of the new clock have not passed (14 R375; 0) -/
  recov : Bool := false
  /-- CLK_ISL_STAT.PERIOD in ps (16; 14 T14.6; 0) -/
  period : BitVec 16 := 0
  /-- CLK_ISL_OVRCNT (32; 14 T14.7; 0) -/
  ovrcnt : BitVec 32 := 0
  /-- CLK_ISL_PEERCNT (32; 14 T14.7; 0) -/
  peercnt : BitVec 32 := 0
  deriving DecidableEq, Repr

/-- one crossing as its island sees it, key 16 * island + crossing (14 T14.6). -/
structure Xing where
  /-- CLK_XING_STAT.OVR (1; 14 T14.6; 0) -/
  ovr : Bool := false
  /-- CLK_XING_STAT.PEER (1; 14 T14.6; 0) -/
  peer : Bool := false
  /-- CLK_XING_STAT.NOAGREE (1; 14 T14.6; 0) -/
  noagree : Bool := false
  /-- CLK_XING_STAT.REFUSING (1; 14 T14.6; 0) -/
  refusing : Bool := false
  /-- CLK_XING_STAT.DISCARD, saturating (8; 14 T14.6; 0) -/
  discard : BitVec 8 := 0
  /-- CLK_XING_STAT.LOST, saturating (8; 14 T14.6; 0) -/
  lost : BitVec 8 := 0
  deriving DecidableEq, Repr

/-- TIMEREF and PPS_IN (14). -/
structure Clk where
  /-- CLK_TSTAT.TREF_HOLD (1; 14 T14.5; 0) -/
  trefHold : Bool := false
  /-- CLK_TSTAT.PPS (2; 14 T14.5; 0) -/
  pps : BitVec 2 := 0
  /-- CLK_TSTAT.SLEWING (1; 14 T14.5; 0) -/
  slewing : Bool := false
  /-- CLK_TSTAT.STEPS, saturating (16; 14 T14.5; 0) -/
  steps : BitVec 16 := 0
  /-- CLK_PPS_ERR (32; 14 T14.5; 0) -/
  ppsErr : BitVec 32 := 0
  /-- CLK_CTRL.PPS_EN (1; 14 T14.5; 0) -/
  ppsEn : Bool := false
  /-- CLK_CTRL.PPS_FALL (1; 14 T14.5; 0) -/
  ppsFall : Bool := false
  /-- CLK_CTRL.SLEW_PPM (8; 14 T14.5; 50) -/
  slewPpm : BitVec 8 := 50
  /-- phase error still to slew, in ns (14 R384; 0) -/
  slewLeft : Int := 0
  /-- slew not yet making a whole ns, in 1/25,000 ns (14 R384; 0) -/
  slewAcc : Nat := 0
  /-- time of the last PPS edge (14 R384; none) -/
  lastEdge : Option Nat := none
  /-- time of the last qualified PPS edge (14 R384; 0) -/
  lastQual : Nat := 0
  /-- consecutive edges 1 s +- 100 us apart (14 R384; 0) -/
  edgeRun : Nat := 0
  deriving DecidableEq, Repr
/-- what a check of a slot's image finds (16 R412). -/
structure SlotCheck where
  /-- valid by every rule of R412 but SVN and key slot -/
  ok : Bool := true
  /-- the flash cannot be read -/
  unreadable : Bool := false
  /-- KEYSLOT -/
  keyslot : BitVec 2 := 0
  /-- IMG_VER -/
  ver : BitVec 32 := 0
  /-- SVN -/
  svn : BitVec 32 := 0
  /-- VER by component TYPE -/
  comps : Tab (BitVec 32) := []
  /-- detour words of the microcode component -/
  detour : BitVec 11 := 0
  /-- its dispatch table by opcode; an absent row is valid at address 0 -/
  table : Tab DispEnt := []
  /-- its detour store by word; an absent word is 0 -/
  store : Tab (BitVec 128) := []
  /-- a law program costs more cycles than it states (08 R222) -/
  refused : Bool := false
  deriving DecidableEq, Repr

/-- content of a flash slot, as the last writes and its check gave it (16 R411, T16.2). -/
structure Slot where
  /-- bytes written through FW_CTRL, by offset (16 T16.10; flash, DESIGN CHOICE erased) -/
  bytes : Tab (BitVec 8) := []
  /-- the slot has been erased: bytes not written since read 0xFF (16 R434) -/
  erased : Bool := false
  /-- BOOT_SLOT.VERIFIED bit (1; 16 T16.14; 0) -/
  verified : Bool := false
  /-- IMG_VER of the image as last checked (32; 16 T16.2) -/
  ver : BitVec 32 := 0
  /-- SVN of the image as last checked (32; 16 T16.2) -/
  svn : BitVec 32 := 0
  /-- KEYSLOT of the image as last checked (2; 16 T16.2) -/
  keyslot : BitVec 2 := 0
  /-- VER of each component TYPE 1 to 4 as last checked (16 T16.2) -/
  comps : Tab (BitVec 32) := []
  /-- detour words of its microcode component as last checked (11; 07 T7.14) -/
  detour : BitVec 11 := 0
  /-- its dispatch table, as last checked (07 R191; an absent row is valid at address 0) -/
  table : Tab DispEnt := []
  /-- its detour store, as last checked (07 R190; an absent word is 0) -/
  store : Tab (BitVec 128) := []
  /-- a law program in it costs more cycles than it states (08 R222) -/
  refused : Bool := false
  /-- REASON of the last check: 0 valid, 4, 5 or 6; 8 not checked since written (16 T16.10; DESIGN CHOICE 8) -/
  chk : BitVec 4 := 8
  deriving DecidableEq, Repr

/-- a live activation (16 R422). -/
structure Act16 where
  /-- slot being activated: 1 A, 2 B -/
  slot : Nat := 0
  /-- unit being switched: 0 to 7 Markhor core, 8 + h herd h, 26 loops -/
  unit : Nat := 0
  /-- Markhor core switching, 1 to 7, then 0 -/
  core : Nat := 0
  /-- a hold is in force (16 R422) -/
  hold : Bool := false
  /-- rolling back (16 R423) -/
  rolling : Bool := false
  /-- failing TYPE, 0 for a cancel -/
  fail : Nat := 0
  /-- units switched, newest first -/
  switched : List Nat := []
  /-- device time of the present switch (16 R423) -/
  switchAt : Nat := 0
  /-- device time the hold began (02 R55) -/
  holdAt : Nat := 0
  /-- component TYPEs to activate -/
  todo : List Nat := []
  deriving DecidableEq, Repr

/-- one herd: formatter microcode and Chamois core (07 R192, 16). -/
structure Herd where
  /-- MC_VERSION.IMG_VER (16; 07 T7.14; flash) -/
  imgVer : BitVec 16 := 0
  /-- MC_VERSION.STATE (4; 07 T7.14; 0) -/
  mcState : BitVec 4 := 0
  /-- MC_VERSION.DETOUR_WORDS (11; 07 T7.14; flash) -/
  detour : BitVec 11 := 0
  /-- dispatch table by opcode (07 R191; flash; an absent row is valid at address 0) -/
  table : Tab DispEnt := []
  /-- detour store, 1,024 words of 128 bits (07 R190; flash; an absent word is 0) -/
  store : Tab (BitVec 128) := []
  /-- image version of the previous copy (07 R192; 16 T16.7) -/
  prevVer : BitVec 16 := 0
  /-- detour words of the previous copy (07 R192) -/
  prevDetour : BitVec 11 := 0
  /-- dispatch table of the previous copy (07 R192) -/
  prevTable : Tab DispEnt := []
  /-- detour store of the previous copy (07 R192) -/
  prevStore : Tab (BitVec 128) := []
  /-- Chamois core running (16 R416; 0) -/
  running : Bool := false
  /-- device time a firmware restart began (16 R418; none) -/
  restart : Option Nat := none
  deriving DecidableEq, Repr

/-- one key slot (16 R430). -/
structure KeySlot where
  /-- NSID of the key record (16 R430; flash) -/
  nsid : Nat := 0
  /-- GEN of the key record (32; 16 R430; flash) -/
  gen : BitVec 32 := 0
  /-- a key of the current GEN has been generated (16 R430; flash) -/
  generated : Bool := false
  /-- key loaded (16 R430; erased) -/
  loaded : Bool := false
  /-- unload requested and not complete (16 R430; 0) -/
  unloading : Bool := false
  /-- WRAPPED bytes of the blob made for the current GEN (16 T16.8) -/
  blob : List (BitVec 8) := []
  deriving DecidableEq, Repr

/-- one sanitize operation (16 R431). -/
structure SanOp where
  /-- OP_ID -/
  id : Nat := 0
  /-- KIND -/
  kind : Nat := 1
  /-- namespaces of the scope -/
  nsids : List Nat := []
  /-- key slot and target GEN (16 R431) -/
  targets : List (Nat × BitVec 32) := []
  /-- STATE (16 T16.9) -/
  st : Nat := 0
  /-- journal: crypto done (16 T16.9) -/
  cryptoDone : Bool := false
  /-- overwrite units done and in all, by actuator (16 T16.9) -/
  units : Tab (Nat × Nat) := []
  deriving DecidableEq, Repr

/-- start, firmware, history and activation (16). -/
structure Boot where
  /-- BOOT_WHY.TRAILHEAD (1; 16 T16.14; 0) -/
  trailhead : Bool := false
  /-- BOOT_WHY.SLOT, BOOT_SLOT.RUNNING (2; 16 T16.14; 0) -/
  slot : BitVec 2 := 0
  /-- BOOT_WHY.LAST_FAIL (6; 16 T16.14; 0) -/
  lastFail : BitVec 6 := 0
  /-- BOOT_WHY.CAUSE (6; 16 T16.14; 0) -/
  cause : BitVec 6 := 0
  /-- BOOT_ATTEMPT.COUNT (2; 16 T16.14; flash, DESIGN CHOICE 0) -/
  attempt : BitVec 2 := 0
  /-- attempt counter mirror of the boot record (2; 16 R414; flash, DESIGN CHOICE 0) -/
  mirror : BitVec 2 := 0
  /-- BOOT_HISTORY entries, newest first, at most 8, absent ones read 0 (8 each; 16 T16.14; flash, DESIGN CHOICE 0) -/
  history : List (BitVec 8) := []
  /-- BOOT_SLOT.PREFERRED (2; 16 T16.14; flash, DESIGN CHOICE 1) -/
  preferred : BitVec 2 := 1
  /-- start complete has been reached (16 R416; 0) -/
  running : Bool := false
  /-- a start is under way (16 R414; 0) -/
  starting : Bool := false
  /-- device time the start began (16 R415; 0) -/
  startAt : Nat := 0
  /-- SHA-384 hashes of the four public keys, fused; an absent row reads as the constant of manufacture (384 each; 16 R413) -/
  keyHash : Tab (List (BitVec 8)) := []
  /-- BOOT_FWKEY.EN (4; 16 T16.15; flash, 0x1) -/
  fwkey : BitVec 4 := 1
  /-- BOOT_SVN.MIN (7; 16 T16.15; fuses, DESIGN CHOICE 0) -/
  svnMin : BitVec 7 := 0
  /-- SVN of the running image; BOOT_SVN.RUNNING saturates it (32; 16 T16.15; 0) -/
  svnRun : BitVec 32 := 0
  /-- IMG_VER running (32; 16 T16.10; 0) -/
  runVer : BitVec 32 := 0
  /-- VER of each running component TYPE (16 R422) -/
  runComps : Tab (BitVec 32) := []
  /-- flash slots: 0 Golden, 1 A, 2 B (16 T16.1; flash) -/
  slots : Tab Slot := []
  /-- FW_ACT_STAT.STATE (4; 16 T16.15; 0) -/
  fwState : BitVec 4 := 0
  /-- FW_ACT_STAT.COMP (4; 16 T16.15; 0) -/
  fwComp : BitVec 4 := 0
  /-- FW_ACT_STAT.HERD (5; 16 T16.15; 0) -/
  fwHerd : BitVec 5 := 0
  /-- FW_ACT_STAT.PAUSE (8; 16 T16.15; 50) -/
  fwPause : BitVec 8 := 50
  /-- slot being erased or verified (16 T16.10; 0) -/
  fwSlot : Nat := 0
  /-- activation under way (16 R422; none) -/
  act : Option Act16 := none
  /-- SAN_POLICY.MODE (2; 16 T16.16; flash, 0) -/
  sanPolicy : BitVec 2 := 0
  /-- device times of Markhor core watchdogs of the last second (16 R418; none) -/
  dogAt : List Nat := []
  /-- device times of the 0x04 resets of the last 10 minutes (16 R418; none) -/
  resets4 : List Nat := []
  /-- DEVICE_RESET accepted: device time due and action (16 R434; none) -/
  resetReq : Option (Nat × Nat) := none
  /-- power-loss marker of the boot record (16 R417; flash, DESIGN CHOICE 0) -/
  lossMark : Bool := false
  /-- power loss declared, and when (05 R141; none) -/
  lossAt : Option Nat := none
  /-- bays whose hold-up flush has not ended (05 R142; none) -/
  bayFlush : List Nat := []
  /-- fetching and posting stopped: power loss declared or device-level reset under way (05 R141, 16 R419; 0) -/
  postStop : Bool := false
  deriving DecidableEq, Repr
/-- one decoder engine (06 R184-R187). -/
structure Engine where
  /-- 0 in service; 1 retired by self-check; 2 retired by the steward; 3 under retest (06 R187; 0) -/
  state : Nat := 0
  /-- self-check failures (06 T6.7; 0) -/
  fails : Nat := 0
  /-- attempt it runs (06 R177; none) -/
  job : Option Nat := none
  /-- retired by the steward, it still runs its present iteration (06 R187; 0) -/
  leaving : Bool := false
  /-- its work is pre-empted at its next iteration boundary (06 R177) -/
  yields : Bool := false
  /-- device time its present iteration began (06 R171) -/
  iterAt : Nat := 0
  /-- device time of its last known-answer test (06 R184; 0) -/
  testAt : Nat := 0
  deriving DecidableEq, Repr

/-- one decode attempt in the pool (06 R171-R178). -/
structure Attempt where
  /-- attempt number, in order of arrival -/
  id : Nat := 0
  /-- actuator of the sector -/
  act : Nat := 0
  /-- ledger id, 0 grazing -/
  cmd : Nat := 0
  /-- sector, nsid * 2^48 + LBA -/
  key : Nat := 0
  /-- head -/
  head : Nat := 0
  /-- rung that started it -/
  rung : Nat := 1
  /-- it decodes a replay (06 R180) -/
  replay : Bool := false
  /-- order of the grazing operation it serves, 0 none -/
  order : Nat := 0
  /-- what that operation works for -/
  ref : Nat := 0
  /-- step of rung 4, 0 none -/
  step : Nat := 0
  /-- target it is detected with, T0 to T3 (06 R180, R182) -/
  target : Nat := 0
  /-- position of the codeword's first bit in the frame it is detected in (06 R164, R180) -/
  first : Int := 0
  /-- its LLRs, one a codeword bit, as they entered the pool or its last round (06 R165, R172) -/
  soft : List (BitVec 6) := []
  /-- milestone; none for DC7 and grazing -/
  milestone : Option Nat := none
  /-- decoder island whose save slot holds it (06 R177) -/
  isl : Option Nat := none
  /-- device time of its notice -/
  arrived : Nat := 0
  /-- engine running it -/
  engine : Option Nat := none
  /-- iterations run -/
  iters : Nat := 0
  /-- iteration ceiling (06 R178) -/
  ceiling : Nat := 48
  /-- detector-decoder rounds beyond the first -/
  rounds : Nat := 0
  /-- rounds due and not started (06 R172) -/
  due : Nat := 0
  /-- iteration at whose end the LLRs of the round under way enter (06 R172) -/
  redAt : Option Nat := none
  /-- its wait for an engine has been counted (06 T6.16) -/
  waited : Bool := false
  deriving DecidableEq, Repr

/-- decoder pool (06). -/
structure Pool where
  /-- attempts, in arrival order (06 R177; none) -/
  attempts : List Attempt := []
  /-- next attempt number -/
  next : Nat := 1
  /-- CFG_DEC_CW (32; 06 T6.16; 0) -/
  cw : BitVec 32 := 0
  /-- CFG_DEC_LENT (32; 06 T6.16; 0) -/
  lent : BitVec 32 := 0
  /-- CFG_DEC_PREEMPT (32; 06 T6.16; 0) -/
  preempt : BitVec 32 := 0
  /-- CFG_DEC_MISCORR (32; 06 T6.16; 0) -/
  miscorr : BitVec 32 := 0
  /-- CFG_DEC_WAITMAX in ns, RC (32; 06 T6.17; 0) -/
  waitmax : BitVec 32 := 0
  /-- CFG_DEC_SELFCHK.FAILS (8; 06 T6.17; 0) -/
  chkFails : BitVec 8 := 0
  /-- CFG_DEC_SELFCHK.LAST (6; 06 T6.17; 0) -/
  chkLast : BitVec 6 := 0
  /-- CFG_DEC_HIST by bin (32 each; 06 T6.16; 0) -/
  hist : Tab (BitVec 32) := []
  deriving DecidableEq, Repr
/-- one Loop Engine (08 T8.16). -/
structure LoopEng where
  /-- CFG_LE_STAT.STATE: 0 in service or as the table codes it (2; 08 T8.16) -/
  state : Nat := 0
  /-- CFG_LE_STAT.SPARE (1; 08 T8.16; reference layout) -/
  spare : Bool := false
  /-- CFG_LE_STAT.FAILS (8; 08 T8.16; 0) -/
  fails : BitVec 8 := 0
  /-- device times of the last second at which a line of its memory failed, by line (08 R225; none) -/
  lines : Tab (List Nat) := []
  deriving DecidableEq, Repr

/-- one trace channel (08 T8.20). -/
structure TrcSrc where
  /-- DIAG_TRC_SRC (32; 08 T8.20; 0) -/
  word : BitVec 32 := 0
  deriving DecidableEq, Repr

/-- trace buffer of one Loop Engine (08 R251). -/
structure Trc where
  /-- ARM and STAT.ARMED (1; 08 T8.18; 0) -/
  armed : Bool := false
  /-- STAT.DONE (1; 08 T8.19; 0) -/
  done : Bool := false
  /-- DIAG_TRC_CTRL fields as written, ARM and FORCE apart (32; 08 T8.18; 0) -/
  ctrl : BitVec 32 := 0
  /-- STAT.TRIG_IDX (14; 08 T8.19; 0) -/
  trigIdx : BitVec 14 := 0
  /-- DIAG_TRC_TIME (64; 08 T8.19; 0) -/
  time : BitVec 64 := 0
  /-- DIAG_TRC_SRC by channel (32 each; 08 T8.20; 0) -/
  src : Tab (BitVec 32) := []
  /-- samples, key channel * 2^14 + index; unwritten ones read 0xFFFF_FFFF (32 each; 08 T8.21) -/
  data : Tab (BitVec 32) := []
  /-- samples taken since arming, by channel (08 R251; 0) -/
  pos : Tab Nat := []
  /-- runs of the trigger loop before the trigger run (08 R251; none) -/
  trigAt : Option Nat := none
  /-- runs still to capture after the trigger (08 R251; none) -/
  left : Option Nat := none
  /-- runs of the trigger loop since arming (08 R251; 0) -/
  runs : Nat := 0
  deriving DecidableEq, Repr
/-- everything one actuator holds. -/
structure ActSt where
  /-- Admission Unit (02) -/
  adm : Adm := {}
  /-- media side (05) -/
  med : Med := {}
  /-- channel front-end (06) -/
  cfe : Cfe := {}
  /-- formatter and write side (07) -/
  fmt : Fmt := {}
  /-- heads hd0 to hd15 (05 T5.1) -/
  heads : Tab HeadSt := []
  /-- actuator loop (08) -/
  loop : Loop := {}
  /-- Causeway link (10) -/
  cwy : Cwy := {}
  /-- grazing and calibration (12) -/
  graze : Graze := {}
  deriving DecidableEq, Repr

/-- everything one bay holds. -/
structure BaySt where
  /-- spindle side (09) -/
  spin : Spin := {}
  /-- presence, descriptor and bring-up (10) -/
  link : BayLink := {}
  deriving DecidableEq, Repr

/-- a fetched entry whose zone has an earlier arrival still to be admitted: its checks have not ended (03 R82, R85). -/
structure CheckWait where
  /-- function -/
  fn : Nat := 0
  /-- submission queue -/
  sq : Nat := 0
  /-- completion queue -/
  cq : Nat := 0
  /-- head of the SQ after its fetch -/
  sqhd : Nat := 0
  /-- the 64 bytes -/
  entry : BitVec 512 := 0
  deriving DecidableEq, Repr

/-- ledger numbering and registers (03). -/
structure Ldg where
  /-- next ledger order number -/
  next : Nat := 1
  /-- fetched entries whose checks wait for their zone (03 R82; none) -/
  checking : List CheckWait := []
  /-- CFG_LDG_HWM (18; 03 T3.14; 0) -/
  hwm : BitVec 18 := 0
  /-- CFG_LDG_FULL (32; 03 T3.13; 0) -/
  full : BitVec 32 := 0
  deriving DecidableEq, Repr

/-- staging slots (11 R311). -/
structure Staging where
  /-- write-staging slots holding sectors, oldest first (11 R311; empty) -/
  wslots : List WSlot := []
  /-- slots reserved by admitted writes (02 R45; none) -/
  wres : List WRes := []
  /-- next order of staging -/
  next : Nat := 1
  /-- read-staging and read-cache slots (11 R311; empty) -/
  rslots : List RSlot := []
  deriving DecidableEq, Repr

end Sys2Proof.Machine
end

