-- ==== Sys2Proof/Machine/State.lean ====
section
/-! DEFINITION. The state of the block, why a command may stop, and the state after reset. -/
namespace Sys2Proof.Machine

/-- Why the block stops. Each stop is safe: the model stops where the hardware's behaviour is not given. -/
inductive Fault where
  /-- Raised by COLD_RST_ASSERT for a pulse of 1 µs to under 10 µs, whose effect the spec leaves undefined (18 R449). Safe. -/
  | coldResetPulseUndefined
  deriving DecidableEq, Repr

/-- Why a command has no meaning. -/
inductive Refusal where
  /-- Raised by an arm of `exec` whose command has no meaning yet. Safe. -/
  | notModelled (mnemonic : String)
  deriving DecidableEq, Repr

/-- The whole state of the block. -/
structure State where
  /-- commands waiting, first in first out; the block's input queue, not a register of the spec -/
  pending : List Sys2Proof.Instr := []
  /-- device time in ns; CLK_TIME shows its low 64 bits (64; 00 R10, 14 R378; 0) -/
  now : Nat := 0
  /-- the MODEL's own counter of free values used; no register of the spec (DESIGN CHOICE 0) -/
  fresh : Nat := 0
  /-- what has left the block toward hosts, newest first; the model's record of its outputs (DESIGN CHOICE empty) -/
  out : List OutMsg := []
  /-- configuration registers and epochs -/
  cfg : Cfg := {}
  /-- stewardship, straps, locks, pins, captured halves -/
  glb : Glb := {}
  /-- host ports P0 to P3 -/
  ports : Tab PortSt := []
  /-- functions 0 to 255 -/
  fns : Tab FnSt := []
  /-- submission queues, key 64 * function + queue -/
  sqs : Tab Sq := []
  /-- completion queues, key 64 * function + queue -/
  cqs : Tab Cq := []
  /-- the command ledger, in arrival order (03 R72; empty) -/
  ledger : List Cmd := []
  /-- ledger numbering and its registers -/
  ldg : Ldg := {}
  /-- Recovery List in id order (03 R91; empty) -/
  recs : List RecEntry := []
  /-- next Recovery List id (16; 03 R91; DESIGN CHOICE 0) -/
  recNext : BitVec 16 := 0
  /-- namespaces 1 to 4,096 -/
  nss : Tab Ns := []
  /-- zones, key nsid * 2^24 + zone -/
  zones : Tab Zone := []
  /-- write staging, read staging and read cache -/
  stage : Staging := {}
  /-- sectors committed at their final place, key nsid * 2^48 + LBA; an absent row is unwritten: its written-map bit is clear (05 R137) -/
  media : Tab Sector := []
  /-- actuators 0 to 143 -/
  acts : Tab ActSt := []
  /-- bays 0 to 71 -/
  bays : Tab BaySt := []
  /-- power domains D0 to D3 -/
  doms : Tab Dom := []
  /-- power cap and projection -/
  pwr : Pwr := {}
  /-- Loop Engines LE00 to LE31 -/
  les : Tab LoopEng := []
  /-- trace buffers of the Loop Engines -/
  trcs : Tab Trc := []
  /-- DIAG_TRC_SEL (32; 08 T8.21; 0) -/
  trcSel : BitVec 32 := 0
  /-- decoder engines DE00 to DE63 -/
  engines : Tab Engine := []
  /-- decoder pool -/
  pool : Pool := {}
  /-- herds 0 to 17 -/
  herds : Tab Herd := []
  /-- staging memory -/
  mem : MemSt := {}
  /-- staging DRAM bytes, canonical (11 R307; an unlisted byte reads 0, DESIGN CHOICE) -/
  ram : List Host.Cell := []
  /-- line cache and victim store -/
  cache : CacheSt := {}
  /-- device calibration -/
  cal : Cal := {}
  /-- thermal sensing and management -/
  thm : Thm := {}
  /-- TIMEREF and PPS_IN -/
  clk : Clk := {}
  /-- clock islands 0 to 216 -/
  isls : Tab Isl := []
  /-- crossings, key 16 * island + crossing -/
  xings : Tab Xing := []
  /-- mailboxes of functions 0 to 255, and 256 the sideband -/
  mbxs : Tab Mbx := []
  /-- event latches and live conditions -/
  evt : Evt := {}
  /-- tally rings, key 4 * function + kind -/
  rings : Tab Ring := []
  /-- tally accumulators: functions 0 to 255, the device 256, namespaces 512 + NSID -/
  accs : Tab Acc := []
  /-- tally minute and trims -/
  tally : Tally := {}
  /-- start, firmware, history and activation -/
  boot : Boot := {}
  /-- key slots 0 to 4,095 -/
  keys : Tab KeySlot := []
  /-- sanitize operations and their journal (16 R431; flash, DESIGN CHOICE none) -/
  sans : List SanOp := []
  /-- format operations and their journal (05 R151; flash, DESIGN CHOICE none) -/
  fmts : List FmtOp := []
  /-- next operation number of formats and sanitizes (05 T5.8, 16 T16.11; DESIGN CHOICE 1) -/
  opNext : Nat := 1
  deriving DecidableEq, Repr

/-- The block right after reset: every field at its reset value, nothing present in any bay, no queue, no command. -/
def State.reset : State := {}

end Sys2Proof.Machine
end

