-- ==== Sys2Proof/Machine/Tab.lean ====
section
/-! DEFINITION. Sparse tables: looking a row up and putting a row in its place. -/
namespace Sys2Proof

/-- The row of number `k`, or what the table holds at reset there. -/
def Tab.get {α : Type} (d : Nat → α) : Tab α → Nat → α
  | [], k => d k
  | (j, v) :: t, k => if j = k then v else Tab.get d t k

/-- Insert a row before the first greater number. -/
def Tab.ins {α : Type} (k : Nat) (v : α) : Tab α → Tab α
  | [] => [(k, v)]
  | (j, u) :: t => if k < j then (k, v) :: (j, u) :: t else (j, u) :: Tab.ins k v t

/-- Take row `k` out. -/
def Tab.del {α : Type} (t : Tab α) (k : Nat) : Tab α := t.filter fun r => r.1 != k

/-- Put `v` at row `k`. -/
def Tab.put {α : Type} (t : Tab α) (k : Nat) (v : α) : Tab α := Tab.ins k v (Tab.del t k)

/-- Change row `k` by `g`. -/
def Tab.upd {α : Type} (d : Nat → α) (t : Tab α) (k : Nat) (g : α → α) : Tab α := Tab.put t k (g (Tab.get d t k))

/-- The row of number `k` if the table has one. -/
def Tab.find {α : Type} : Tab α → Nat → Option α
  | [], _ => none
  | (j, v) :: t, k => if j = k then some v else Tab.find t k

end Sys2Proof
end

