-- ==== Sys2Proof/Machine/Access.lean ====
section
/-! DEFINITION. Reading and changing one row of each table of State. -/
namespace Sys2Proof.Machine

/-- What port `k` holds while no row of `ports` names it: its value at reset. -/
def portReset : Nat → PortSt := fun _ => {}
/-- Port `k`. -/
def State.port (s : State) (k : Nat) : PortSt := s.ports.get portReset k
/-- Put `v` at port `k`. -/
def State.setPort (s : State) (k : Nat) (v : PortSt) : State := { s with ports := s.ports.put k v }
/-- Change port `k` by `g`. -/
def State.modPort (s : State) (k : Nat) (g : PortSt → PortSt) : State := s.setPort k (g (s.port k))

/-- What fn `k` holds while no row of `fns` names it: its value at reset. -/
def fnReset : Nat → FnSt := fun k => { enabled := k % 64 = 0 }
/-- Fn `k`. -/
def State.fn (s : State) (k : Nat) : FnSt := s.fns.get fnReset k
/-- Put `v` at fn `k`. -/
def State.setFn (s : State) (k : Nat) (v : FnSt) : State := { s with fns := s.fns.put k v }
/-- Change fn `k` by `g`. -/
def State.modFn (s : State) (k : Nat) (g : FnSt → FnSt) : State := s.setFn k (g (s.fn k))

/-- What sq `k` holds while no row of `sqs` names it: its value at reset. -/
def sqReset : Nat → Sq := fun _ => {}
/-- Sq `k`. -/
def State.sq (s : State) (k : Nat) : Sq := s.sqs.get sqReset k
/-- Put `v` at sq `k`. -/
def State.setSq (s : State) (k : Nat) (v : Sq) : State := { s with sqs := s.sqs.put k v }
/-- Change sq `k` by `g`. -/
def State.modSq (s : State) (k : Nat) (g : Sq → Sq) : State := s.setSq k (g (s.sq k))

/-- What cq `k` holds while no row of `cqs` names it: its value at reset. -/
def cqReset : Nat → Cq := fun _ => {}
/-- Cq `k`. -/
def State.cq (s : State) (k : Nat) : Cq := s.cqs.get cqReset k
/-- Put `v` at cq `k`. -/
def State.setCq (s : State) (k : Nat) (v : Cq) : State := { s with cqs := s.cqs.put k v }
/-- Change cq `k` by `g`. -/
def State.modCq (s : State) (k : Nat) (g : Cq → Cq) : State := s.setCq k (g (s.cq k))

/-- What ns `k` holds while no row of `nss` names it: its value at reset. -/
def nsReset : Nat → Ns := fun _ => {}
/-- Ns `k`. -/
def State.ns (s : State) (k : Nat) : Ns := s.nss.get nsReset k
/-- Put `v` at ns `k`. -/
def State.setNs (s : State) (k : Nat) (v : Ns) : State := { s with nss := s.nss.put k v }
/-- Change ns `k` by `g`. -/
def State.modNs (s : State) (k : Nat) (g : Ns → Ns) : State := s.setNs k (g (s.ns k))

/-- What zone `k` holds while no row of `zones` names it: its value at reset. -/
def zoneReset : Nat → Zone := fun _ => {}
/-- Zone `k`. -/
def State.zone (s : State) (k : Nat) : Zone := s.zones.get zoneReset k
/-- Put `v` at zone `k`. -/
def State.setZone (s : State) (k : Nat) (v : Zone) : State := { s with zones := s.zones.put k v }
/-- Change zone `k` by `g`. -/
def State.modZone (s : State) (k : Nat) (g : Zone → Zone) : State := s.setZone k (g (s.zone k))

/-- What act `k` holds while no row of `acts` names it: its value at reset. -/
def actReset : Nat → ActSt := fun k => { loop := { engine := BitVec.ofNat 5 (4 * (k / 18) + k / 6 % 3) } }
/-- Act `k`. -/
def State.act (s : State) (k : Nat) : ActSt := s.acts.get actReset k
/-- Put `v` at act `k`. -/
def State.setAct (s : State) (k : Nat) (v : ActSt) : State := { s with acts := s.acts.put k v }
/-- Change act `k` by `g`. -/
def State.modAct (s : State) (k : Nat) (g : ActSt → ActSt) : State := s.setAct k (g (s.act k))

/-- What bay `k` holds while no row of `bays` names it: its value at reset. -/
def bayReset : Nat → BaySt := fun k => { link := { spnEngine := BitVec.ofNat 5 (4 * (k / 9) + k / 3 % 3) } }
/-- Bay `k`. -/
def State.bay (s : State) (k : Nat) : BaySt := s.bays.get bayReset k
/-- Put `v` at bay `k`. -/
def State.setBay (s : State) (k : Nat) (v : BaySt) : State := { s with bays := s.bays.put k v }
/-- Change bay `k` by `g`. -/
def State.modBay (s : State) (k : Nat) (g : BaySt → BaySt) : State := s.setBay k (g (s.bay k))

/-- What dom `k` holds while no row of `doms` names it: its value at reset. -/
def domReset : Nat → Dom := fun _ => {}
/-- Dom `k`. -/
def State.dom (s : State) (k : Nat) : Dom := s.doms.get domReset k
/-- Put `v` at dom `k`. -/
def State.setDom (s : State) (k : Nat) (v : Dom) : State := { s with doms := s.doms.put k v }
/-- Change dom `k` by `g`. -/
def State.modDom (s : State) (k : Nat) (g : Dom → Dom) : State := s.setDom k (g (s.dom k))

/-- What le `k` holds while no row of `les` names it: its value at reset. -/
def leReset : Nat → LoopEng := fun k => { spare := k % 4 = 3 }
/-- Le `k`. -/
def State.le (s : State) (k : Nat) : LoopEng := s.les.get leReset k
/-- Put `v` at le `k`. -/
def State.setLe (s : State) (k : Nat) (v : LoopEng) : State := { s with les := s.les.put k v }
/-- Change le `k` by `g`. -/
def State.modLe (s : State) (k : Nat) (g : LoopEng → LoopEng) : State := s.setLe k (g (s.le k))

/-- What trc `k` holds while no row of `trcs` names it: its value at reset. -/
def trcReset : Nat → Trc := fun _ => {}
/-- Trc `k`. -/
def State.trc (s : State) (k : Nat) : Trc := s.trcs.get trcReset k
/-- Put `v` at trc `k`. -/
def State.setTrc (s : State) (k : Nat) (v : Trc) : State := { s with trcs := s.trcs.put k v }
/-- Change trc `k` by `g`. -/
def State.modTrc (s : State) (k : Nat) (g : Trc → Trc) : State := s.setTrc k (g (s.trc k))

/-- What eng `k` holds while no row of `engines` names it: its value at reset. -/
def engReset : Nat → Engine := fun _ => {}
/-- Eng `k`. -/
def State.eng (s : State) (k : Nat) : Engine := s.engines.get engReset k
/-- Put `v` at eng `k`. -/
def State.setEng (s : State) (k : Nat) (v : Engine) : State := { s with engines := s.engines.put k v }
/-- Change eng `k` by `g`. -/
def State.modEng (s : State) (k : Nat) (g : Engine → Engine) : State := s.setEng k (g (s.eng k))

/-- What herd `k` holds while no row of `herds` names it: its value at reset. -/
def herdReset : Nat → Herd := fun _ => {}
/-- Herd `k`. -/
def State.herd (s : State) (k : Nat) : Herd := s.herds.get herdReset k
/-- Put `v` at herd `k`. -/
def State.setHerd (s : State) (k : Nat) (v : Herd) : State := { s with herds := s.herds.put k v }
/-- Change herd `k` by `g`. -/
def State.modHerd (s : State) (k : Nat) (g : Herd → Herd) : State := s.setHerd k (g (s.herd k))

/-- What isl `k` holds while no row of `isls` names it: its value at reset. -/
def islReset : Nat → Isl := fun _ => {}
/-- Isl `k`. -/
def State.isl (s : State) (k : Nat) : Isl := s.isls.get islReset k
/-- Put `v` at isl `k`. -/
def State.setIsl (s : State) (k : Nat) (v : Isl) : State := { s with isls := s.isls.put k v }
/-- Change isl `k` by `g`. -/
def State.modIsl (s : State) (k : Nat) (g : Isl → Isl) : State := s.setIsl k (g (s.isl k))

/-- What xing `k` holds while no row of `xings` names it: its value at reset. -/
def xingReset : Nat → Xing := fun _ => {}
/-- Xing `k`. -/
def State.xing (s : State) (k : Nat) : Xing := s.xings.get xingReset k
/-- Put `v` at xing `k`. -/
def State.setXing (s : State) (k : Nat) (v : Xing) : State := { s with xings := s.xings.put k v }
/-- Change xing `k` by `g`. -/
def State.modXing (s : State) (k : Nat) (g : Xing → Xing) : State := s.setXing k (g (s.xing k))

/-- What mbx `k` holds while no row of `mbxs` names it: its value at reset. -/
def mbxReset : Nat → Mbx := fun _ => {}
/-- Mbx `k`. -/
def State.mbx (s : State) (k : Nat) : Mbx := s.mbxs.get mbxReset k
/-- Put `v` at mbx `k`. -/
def State.setMbx (s : State) (k : Nat) (v : Mbx) : State := { s with mbxs := s.mbxs.put k v }
/-- Change mbx `k` by `g`. -/
def State.modMbx (s : State) (k : Nat) (g : Mbx → Mbx) : State := s.setMbx k (g (s.mbx k))

/-- What ring `k` holds while no row of `rings` names it: its value at reset. -/
def ringReset : Nat → Ring := fun _ => {}
/-- Ring `k`. -/
def State.ring (s : State) (k : Nat) : Ring := s.rings.get ringReset k
/-- Put `v` at ring `k`. -/
def State.setRing (s : State) (k : Nat) (v : Ring) : State := { s with rings := s.rings.put k v }
/-- Change ring `k` by `g`. -/
def State.modRing (s : State) (k : Nat) (g : Ring → Ring) : State := s.setRing k (g (s.ring k))

/-- What acc `k` holds while no row of `accs` names it: its value at reset. -/
def accReset : Nat → Acc := fun _ => {}
/-- Acc `k`. -/
def State.acc (s : State) (k : Nat) : Acc := s.accs.get accReset k
/-- Put `v` at acc `k`. -/
def State.setAcc (s : State) (k : Nat) (v : Acc) : State := { s with accs := s.accs.put k v }
/-- Change acc `k` by `g`. -/
def State.modAcc (s : State) (k : Nat) (g : Acc → Acc) : State := s.setAcc k (g (s.acc k))

/-- What key `k` holds while no row of `keys` names it: its value at reset. -/
def keyReset : Nat → KeySlot := fun _ => {}
/-- Key `k`. -/
def State.key (s : State) (k : Nat) : KeySlot := s.keys.get keyReset k
/-- Put `v` at key `k`. -/
def State.setKey (s : State) (k : Nat) (v : KeySlot) : State := { s with keys := s.keys.put k v }
/-- Change key `k` by `g`. -/
def State.modKey (s : State) (k : Nat) (g : KeySlot → KeySlot) : State := s.setKey k (g (s.key k))

end Sys2Proof.Machine
end

