-- ==== Sys2Proof/Machine/Bits.lean ====
section
/-! DEFINITION. Byte order, bit fields and the CRC-32C of records. -/
namespace Sys2Proof.Machine

/-- 0 or 1. -/
def bit (b : Bool) : Nat := if b then 1 else 0

/-- The `n` low bytes of `v`, low byte first: every field wider than a byte is little-endian (00 R8). -/
def leBytes : Nat → Nat → List Byte
  | 0, _ => []
  | n + 1, v => BitVec.ofNat 8 v :: leBytes n (v / 256)

/-- The number that bytes spell, low byte first. -/
def leNat : List Byte → Nat
  | [] => 0
  | b :: t => b.toNat + 256 * leNat t

/-- Byte `i` of a payload; bytes beyond its end are 0 (15 R387). -/
def byteAt (p : List Byte) (i : Nat) : Nat := (p.getD i 0).toNat

/-- The `n`-byte field at byte `i` of a payload. -/
def fieldAt (p : List Byte) (i n : Nat) : Nat := leNat ((p.drop i).take n)

/-- Bits `lo` to `lo + w - 1` of a number. -/
def bits (v lo w : Nat) : Nat := v / 2 ^ lo % 2 ^ w

/-- Is every byte of a payload zero outside the ranges (first byte, length) given: the reserved bytes of R393. -/
def reservedZero (p : List Byte) (used : List (Nat × Nat)) : Bool :=
  (p.zipIdx).all fun (b, i) => b == 0 || used.any fun (o, n) => o ≤ i && i < o + n

/-- A number of `n` bits as a field at bit `lo` of a register. -/
def at_ (lo v : Nat) : Nat := v * 2 ^ lo

/-- A 32-bit register from the sum of its fields. -/
def reg32 (v : Nat) : Word := BitVec.ofNat 32 v

/-- The signed value of a `w`-bit field. -/
def sInt (w v : Nat) : Int := if v % 2 ^ w < 2 ^ (w - 1) then (v % 2 ^ w : Nat) else ((v % 2 ^ w : Nat) : Int) - (2 ^ w : Nat)

/-- The `w`-bit field of a signed value. -/
def ofInt (w : Nat) (v : Int) : Nat := (v % ((2 ^ w : Nat) : Int)).toNat

/-- One bit of the CRC-32C register. -/
def crcStep (c : Word) : Word := if c.getLsbD 0 then (c >>> 1) ^^^ 0x82F63B78#32 else c >>> 1

/-- One byte into the CRC-32C register. -/
def crcByte (c : Word) (b : Byte) : Word :=
  crcStep (crcStep (crcStep (crcStep (crcStep (crcStep (crcStep (crcStep (c ^^^ b.zeroExtend 32))))))))

/-- CRC-32C of a run of bytes. -/
def crc32c (p : List Byte) : Word := ~~~ (p.foldl crcByte 0xFFFFFFFF#32)

/-- `lo ≤ v ≤ hi`, or else the default `d`. -/
def within (lo hi d v : Nat) : Nat := if lo ≤ v ∧ v ≤ hi then v else d

/-- Insert into a sorted list, before the first element it does not come after. -/
def insBy {α : Type} (le : α → α → Bool) (x : α) : List α → List α
  | [] => [x]
  | y :: t => if le x y then x :: y :: t else y :: insBy le x t

/-- Sort a list; equal elements keep their order. -/
def sortBy {α : Type} (le : α → α → Bool) (l : List α) : List α := l.foldr (insBy le) []

/-- Add one to a saturating 16-bit count. -/
def satInc16 (n : Nat) : Nat := min (n + 1) 0xFFFF

/-- Add one to a saturating 8-bit count. -/
def satInc8 (v : BitVec 8) : BitVec 8 := if v = 0xFF#8 then v else v + 1

end Sys2Proof.Machine
end

