-- ==== Sys2Proof/Machine/Frame.lean ====
section
/-! DEFINITION. A sector as the media hold it: tag, CRC, information word, codeword and frame (05 R144, R145; 06 R169, R170; 07 R201). -/
namespace Sys2Proof.Machine

open Sys2Proof

/-! ### The tag (05 R145) -/

/-- The 4,096 bytes of a sector. -/
def Sector.bytes (x : Sector) : List Byte := x.data ++ List.replicate (4096 - x.data.length) 0

/-- The 128-bit tag of a sector: NSID, LBA, write generation, key slot, 16 reserved bits of 0, lowest bits first (05 R145). -/
def Sector.tag (x : Sector) : BitVec 128 :=
  BitVec.ofNat 128 (x.nsid % 2 ^ 16 + 2 ^ 16 * (x.lba % 2 ^ 48) + 2 ^ 64 * x.gen.toNat + 2 ^ 96 * (x.keyslot % 2 ^ 16))

/-- Write generation a tag carries. -/
def tagGen (t : BitVec 128) : Word := BitVec.ofNat 32 (bits t.toNat 64 32)

/-- Does a tag match a read: NSID, LBA and key slot of the sector read, and zero reserved bits (05 R145, 06 R174)? -/
def tagMatches (t : BitVec 128) (n lba keyslot : Nat) : Bool :=
  bits t.toNat 0 16 == n && bits t.toNat 16 48 == lba && bits t.toNat 96 16 == keyslot && bits t.toNat 112 16 == 0

/-! ### The sector CRC (06 R169; 16 R428) -/

/-- One bit of the CRC-64 register: the ECMA-182 polynomial 0x42F0_E1EB_A9EA_3693, reflected. -/
def crc64Step (c : BitVec 64) : BitVec 64 := if c.getLsbD 0 then (c >>> 1) ^^^ 0xC96C5795D7870F42#64 else c >>> 1

/-- One byte into the CRC-64 register. -/
def crc64Byte (c : BitVec 64) (b : Byte) : BitVec 64 :=
  crc64Step (crc64Step (crc64Step (crc64Step (crc64Step (crc64Step (crc64Step (crc64Step (c ^^^ b.zeroExtend 64))))))))

/-- CRC-64 of a run of bytes, with an initial value and a final XOR of all ones (06 R169). -/
def crc64 (p : List Byte) : BitVec 64 := ~~~ (p.foldl crc64Byte (BitVec.allOnes 64))

/-- The sector CRC: over the plaintext and the 16 tag bytes (06 R169). -/
def Sector.crc (x : Sector) : BitVec 64 := crc64 (x.bytes ++ leBytes 16 x.tag.toNat)

/-! ### The information word (06 Table 6.3, 07 R201) -/

/-- A placeholder's information word is zero but for tag bits 127:112, which are ones, so that every read check fails (07 R201). -/
def placeholderTag : BitVec 128 := BitVec.ofNat 128 (2 ^ 112 * 0xFFFF)

/-- The 4,128 bytes of a sector's information word: ciphertext, tag, masked CRC and reserved bits (06 Table 6.3); a placeholder's is of
zeros but for its tag (07 R201). -/
def Sector.info (x : Sector) : List Byte :=
  if x.bad then List.replicate 4096 0 ++ leBytes 16 placeholderTag.toNat ++ List.replicate 16 0
  else Config.cipher x.keyslot x.keyGen x.lba x.bytes ++ leBytes 16 x.tag.toNat
    ++ leBytes 8 (x.crc ^^^ Config.crcMask x.keyslot x.keyGen x.tag).toNat ++ List.replicate 8 0

/-! ### The code (06 R170, Table 6.18) -/

/-- The sets of three block rows out of 15, each in increasing order. -/
def rowTriples : List (List Nat) :=
  (List.range 15).flatMap fun a => (List.range 15).flatMap fun b => ((List.range 15).filter fun c => a < b && b < c).map fun c => [a, b, c]

/-- Block column of entry `i` of the code table: three entries a column to column 129, then two (06 R170). -/
def codeCol (i : Nat) : Nat := if i < 390 then i / 3 else 130 + (i - 390) / 2

/-- Block row of entry `i`: the rows of a column in increasing order; columns 130 to 143 are the dual diagonal (06 R170). -/
def codeRow (i : Nat) : Nat :=
  if i < 390 then (rowTriples.getD ((Config.ldpcRows (i / 3)).toNat % 455) []).getD (i % 3) 0 else (i - 390) / 2 + (i - 390) % 2

/-- Word `i` of DIAG_LDPC_CODE (06 Table 6.18). -/
def ldpcCode (i : Nat) : Nat := at_ 16 (codeCol i) + at_ 8 (codeRow i) + (Config.ldpcShift i).toNat

/-- Bits of a run of bytes, each least significant bit first (06 Table 6.3). -/
def bitsOfBytes (p : List Byte) : List Bool := p.flatMap fun b => (List.range 8).map b.getLsbD

/-- The 36,864 bits of a codeword: the information bits, then the 3,840 parity bits the code gives them (06 R170, 07 R201). -/
def Sector.codeword (x : Sector) : List Bool :=
  let w := bitsOfBytes x.info
  w ++ (List.range 3840).map (Config.ldpcParity w)

/-! ### The frame (05 R144, Table 5.7) -/

/-- `n` bits of a pattern that changes every `t` bits. -/
def pattern (t n : Nat) : List Bool := (List.range n).map fun i => i / t % 2 == 0

/-- A 32-bit sync mark, most significant bit first. -/
def markBits (v : Nat) : List Bool := (List.range 32).map fun i => v.testBit (31 - i)

/-- SM1 and SM2 (05 Table 5.7). -/
def sm1 : Nat := 0x7A3C0E95
/-- SM2 (05 Table 5.7). -/
def sm2 : Nat := 0x1D6BF248

/-- The 37,072 channel bits of a sector frame: preamble, SM1, gap, SM2, codeword, pad (05 R144, Table 5.7). -/
def Sector.frame (x : Sector) : List Bool :=
  pattern 2 48 ++ markBits sm1 ++ pattern 4 64 ++ markBits sm2 ++ x.codeword ++ pattern 2 32

end Sys2Proof.Machine
end

