-- ==== Sys2Proof/Machine/Ops.lean ====
section
/-! DEFINITION. The operations every family shares: rows of sub-units, free values, who is the steward, events, and what
leaves the block. -/
namespace Sys2Proof.Machine

/-! ### Sub-units of an actuator and a bay -/

/-- Change the Admission Unit of actuator `a`. -/
def State.modAdm (s : State) (a : Nat) (g : Adm → Adm) : State := s.modAct a fun x => { x with adm := g x.adm }
/-- Change the media side of actuator `a`. -/
def State.modMed (s : State) (a : Nat) (g : Med → Med) : State := s.modAct a fun x => { x with med := g x.med }
/-- Change the channel front-end of actuator `a`. -/
def State.modCfe (s : State) (a : Nat) (g : Cfe → Cfe) : State := s.modAct a fun x => { x with cfe := g x.cfe }
/-- Change the formatter of actuator `a`. -/
def State.modFmt (s : State) (a : Nat) (g : Fmt → Fmt) : State := s.modAct a fun x => { x with fmt := g x.fmt }
/-- Change the loop of actuator `a`. -/
def State.modLoop (s : State) (a : Nat) (g : Loop → Loop) : State := s.modAct a fun x => { x with loop := g x.loop }
/-- Change the Causeway link of actuator `a`. -/
def State.modCwy (s : State) (a : Nat) (g : Cwy → Cwy) : State := s.modAct a fun x => { x with cwy := g x.cwy }
/-- Change grazing of actuator `a`. -/
def State.modGraze (s : State) (a : Nat) (g : Graze → Graze) : State := s.modAct a fun x => { x with graze := g x.graze }
/-- Head `h` of actuator `a`. -/
def State.head (s : State) (a h : Nat) : HeadSt := (s.act a).heads.get (fun _ => {}) h
/-- Change head `h` of actuator `a`. -/
def State.modHead (s : State) (a h : Nat) (g : HeadSt → HeadSt) : State :=
  s.modAct a fun x => { x with heads := Tab.upd (fun _ => {}) x.heads h g }
/-- Change the spindle side of bay `b`. -/
def State.modSpin (s : State) (b : Nat) (g : Spin → Spin) : State := s.modBay b fun x => { x with spin := g x.spin }
/-- Change the link side of bay `b`. -/
def State.modLink (s : State) (b : Nat) (g : BayLink → BayLink) : State := s.modBay b fun x => { x with link := g x.link }

/-- The bay of an actuator: actuator 2b is side A of bay b, 2b + 1 side B (00 R2). -/
def bayOf (a : Nat) : Nat := a / 2
/-- The herd of an actuator (00 R3). -/
def herdOf (a : Nat) : Nat := a / 8
/-- The power domain of a bay (00 R3). -/
def domOf (b : Nat) : Nat := b / 18
/-- The port of a function (00 R4). -/
def portOf (f : Nat) : Nat := f / 64

/-! ### Free values -/

/-- The free value in turn: a value the spec does not state. -/
def State.free (s : State) : BitVec 64 := Config.freeValue s.fresh
/-- Take the free value in turn, so that the next one is another. -/
def State.useFree (s : State) : State := { s with fresh := s.fresh + 1 }

/-- Does port `p` train two links: its strap PBIF[p] is high, and the device is not in Trailhead mode (04 R96, 16 R420)? -/
def State.bif (s : State) (p : Nat) : Bool := s.glb.pbif.getLsbD p && !s.boot.trailhead

/-- Does function `f` use half 1 of its port (04 R96, R100)? -/
def State.onHalf1 (s : State) (f : Nat) : Bool := s.bif (portOf f) && decide (32 ≤ f % 64)

/-- A TLP crosses a link in either direction: the link is in L0, and its idle time starts again (04 R113). -/
def Link.tlp (l : Link) (t : Nat) : Link := { l with lstate := 0, idleSince := t }
/-- The device transmits on a link (04 R113). -/
def Link.sent (l : Link) (t : Nat) : Link := { l with lstate := 0, idleSince := t, txAt := t }
/-- A TLP of function `f` is received on its link. -/
def State.touch (s : State) (f : Nat) : State :=
  s.modPort (portOf f) fun p => if s.onHalf1 f then { p with h1 := p.h1.tlp s.now } else { p with h0 := p.h0.tlp s.now }
/-- A TLP of function `f` is sent on its link. -/
def State.sendTlp (s : State) (f : Nat) : State :=
  s.modPort (portOf f) fun p => if s.onHalf1 f then { p with h1 := p.h1.sent s.now } else { p with h0 := p.h0.sent s.now }

/-- The function whose link carries something that leaves the block. -/
def OutMsg.fn? : OutMsg → Option Nat
  | .completion f _ _ _ => some f
  | .hostData f _ _ _ => some f
  | .hostRead f _ _ _ => some f
  | .regData f _ _ => some f
  | .bar2Data p _ => some (64 * p)
  | .errMsg f _ => some f
  | .unsupported f => some f
  | .tallyRec f _ _ => some f
  | .smbus _ => none
  | .wedgeCmd _ _ => none
  | .written _ _ _ _ _ _ => none
  | .heater _ _ _ _ => none
  | .gate _ _ _ => none
  | .headSelect _ _ => none
  | .rate _ _ _ => none
  | .laneMode _ _ _ _ => none
  | .assist _ _ _ _ _ => none
  | .spinCmd _ _ => none

/-- Something leaves the block. -/
def State.emit (s : State) (m : OutMsg) : State :=
  let s := { s with out := m :: s.out }
  match m.fn? with
  | some f => s.sendTlp f
  | none => s

/-! ### Authority -/

/-- The port whose PF is the steward: P0 in Trailhead mode (04 R101). -/
def State.stewardPort (s : State) : Nat := if s.boot.trailhead then 0 else s.glb.steward.toNat
/-- Is function `f` the steward? -/
def State.isSteward (s : State) (f : Nat) : Bool := f % 64 == 0 && portOf f == s.stewardPort
/-- Is function `f` a PF? -/
def isPf (f : Nat) : Bool := f % 64 == 0

/-- Namespaces that exist, by number. -/
def State.namespaces (s : State) : List (Nat × Ns) := s.nss.filter fun r => r.2.present
/-- Does a namespace granted to port `p` have actuator `a` in its set? -/
def State.portHasAct (s : State) (p a : Nat) : Bool :=
  s.namespaces.any fun r => r.2.ports.contains p && r.2.actset.contains a
/-- Does a namespace granted to port `p` have an actuator of bay `b` in its set? -/
def State.portHasBay (s : State) (p b : Nat) : Bool := s.portHasAct p (2 * b) || s.portHasAct p (2 * b + 1)
/-- Does a namespace attached to function `f` have an actuator of bay `b` in its set? -/
def State.fnHasBay (s : State) (f b : Nat) : Bool :=
  s.namespaces.any fun r => r.2.attached.contains f && r.2.actset.any fun a => bayOf a == b

/-! ### Events (15 R401 to R403) -/

/-- May the PF of port `p` see source `src` (15 Table 15.8)? -/
def State.sees (s : State) (p src : Nat) : Bool :=
  if s.stewardPort = p then src < 2048
  else if src < 0x480 then s.portHasAct p (src / 8)
  else if src < 0x5A0 then s.portHasBay p ((src - 0x480) / 4)
  else if src < 0x5E0 then (src - 0x5A0) / 16 == p
  else if src < 0x628 then s.portHasBay p (src - 0x5E0)
  else if src < 0x6A0 then true
  else if src < 0x740 then false
  else if src < 0x7C0 then true
  else src == 0x7C0 + p || src == 0x7C4 + p || src == 0x7C8

/-- Bit `i` of a 32-bit register. -/
def bit32 (i : Nat) : Word := BitVec.ofNat 32 (2 ^ (i % 32))

/-- Set source `src` in the copies of the PFs given. -/
def latchIn (ports : List Nat) (src : Nat) (t : Tab Word) : Tab Word :=
  ports.foldl (fun t p => Tab.upd (fun _ => 0) t (64 * p + src / 32) (· ||| bit32 src)) t

/-- An occurrence of event source `src` latches in every PF view entitled to it (15 R401). -/
def State.raise (s : State) (src : Nat) : State :=
  { s with evt := { s.evt with latch := latchIn ((List.range 4).filter (s.sees · src)) src s.evt.latch } }

/-- A bit latches in the function view of `f`; for a VF, event 0x7C0 + p latches too (15 R403). -/
def State.raiseFn (s : State) (f b : Nat) : State :=
  let s := s.modFn f fun x => { x with fnLatch := x.fnLatch ||| BitVec.ofNat 16 (2 ^ b) }
  if isPf f then s else s.raise (0x7C0 + portOf f)

/-- A bit latches in the function view of every function of a list. -/
def State.raiseFns (s : State) (fs : List Nat) (b : Nat) : State := fs.foldl (fun s f => s.raiseFn f b) s

/-- Functions that exist and are enabled. -/
def State.enabledFns (s : State) : List Nat := (List.range 256).filter fun f => (s.fn f).enabled

/-- Actuator event 8a + i (00 R6). -/
def actEvt (a i : Nat) : Nat := 8 * a + i
/-- Bay event 0x480 + 4b + i (00 R6). -/
def bayEvt (b i : Nat) : Nat := 0x480 + 4 * b + i
/-- Port event 0x5A0 + 16p + i (04 R125). -/
def portEvt (p i : Nat) : Nat := 0x5A0 + 16 * p + i

/-! ### Port fault log (04 R111, R101) -/

/-- HPT_ERRLOG of the port of function `f` takes a cause. -/
def State.logPort (s : State) (f cause : Nat) : State :=
  s.modPort (portOf f) fun p => { p with errValid := true, errCause := BitVec.ofNat 4 cause, errFunc := BitVec.ofNat 6 (f % 64) }

/-- A port event that names function `f`: the PFs' views of the source, and bit 15 of the function view (04 R125, 15
Table 15.9). -/
def State.portFault (s : State) (f i : Nat) : State := (s.raise (portEvt (portOf f) i)).raiseFn f 15

/-- A steward-only register write from another function is ignored and logged (04 R101, 17 R440). -/
def State.ignoreWrite (s : State) (f : Nat) : State := (s.logPort f 2).raise (portEvt (portOf f) 6)

/-- An error of function `f` is logged in AER as uncorrectable error `b`, of non-fatal severity with `adv` also as the correctable Advisory
Non-Fatal Error: events 13 and 12, and the message that the host has enabled, if any (04 R107, R111, R112, R125; that an error the device
answers itself is advisory is PRESUMED, PCIe's rule). -/
def State.aerLog (s : State) (f b : Nat) (adv : Bool) (hdr : Option Nat) : State :=
  let x := s.fn f
  let a := x.aer
  let cor := adv && !a.sev.getLsbD b
  let y := { a with unc := a.unc ||| bit32 b, cor := if cor then a.cor ||| bit32 13 else a.cor,
                    hdr := match hdr with
                      | some h => BitVec.ofNat 128 h
                      | none => a.hdr }
  let s := (s.modFn f fun x => { x with aer := y }).raise (portEvt (portOf f) 13)
  let s := if cor then s.raise (portEvt (portOf f) 12) else s
  let fatal := a.sev.getLsbD b
  let on := if cor then x.errEn.getLsbD 0 && !a.corMask.getLsbD 13 else x.serr || x.errEn.getLsbD (if fatal then 2 else 1)
  if a.uncMask.getLsbD b || !on || (b == 20 && !x.errEn.getLsbD 3 && !x.serr) then s else s.emit (.errMsg f (if cor then 0 else if fatal then 2 else 1))

/-- Refuse a request of function `f` with a cause: log it, count it, answer or drop it (04 R111, Table 4.5). -/
def State.refuseReq (s : State) (f cause : Nat) (posted : Bool) (hdr : Nat) : State :=
  let s := (s.logPort f cause).modPort (portOf f) fun p =>
    { p with urCnt := p.urCnt + 1, dropCnt := if cause = 3 ∧ posted then p.dropCnt + 1 else p.dropCnt }
  let s := s.aerLog f (if cause = 5 then 12 else 20) (!posted && cause != 5) (some hdr)
  let s := if posted then s else s.emit (.unsupported f)
  match cause with
  | 3 => s.raise (portEvt (portOf f) 10)
  | 5 => s.portFault f 8
  | _ => s.portFault f 6

/-- Refuse a request whose header, which AER logs, the command does not carry: it is a free value (04 R111). -/
def State.refuseAny (s : State) (f cause : Nat) (posted : Bool) : State :=
  s.useFree.useFree.refuseReq f cause posted (s.free.toNat + 2 ^ 64 * s.useFree.free.toNat)

/-- A BAR0 request of function `f`, which acts as `k` says unless the function is in D3hot or decodes no memory requests (04 Table 4.5). -/
def State.bar0 (s : State) (f : Nat) (posted : Bool) (k : State → State) : State :=
  if !(s.fn f).enabled then s
  else
    let s := s.touch f
    if (s.fn f).d3 || !(s.fn f).mse then s.refuseAny f 9 posted else k s

/-- A write to a steward-only register: from another PF it is ignored and logged (04 R101, 17 R440). A VF's BAR0 has no such register (17 R442). -/
def State.stewardWrite (s : State) (f : Nat) (k : State → State) : State :=
  s.bar0 f true fun s => if !isPf f then s else if s.isSteward f then k s else s.ignoreWrite f

/-- QH_ERRLOG of function `f` takes a cause, and QH_ERRCNT counts it (03 R65, R67). -/
def State.logQueue (s : State) (f cause : Nat) (cq : Bool) (q : Nat) : State :=
  (s.modFn f fun x => { x with qhValid := true, qhCause := BitVec.ofNat 4 cause, qhCq := cq,
                               qhQid := BitVec.ofNat 6 q, qhCnt := x.qhCnt + 1 }).raiseFn f 1

/-- Is the DIAG window open (16 R426)? -/
def State.diagOpen (s : State) : Bool := s.glb.diagEn && !s.glb.lck.getLsbD 4

/-! ### Tally accumulators (15 R404) -/

/-- Accumulator number of a namespace. -/
def nsAcc (n : Nat) : Nat := 512 + n
/-- Accumulator number of the device record. -/
def devAcc : Nat := 256

/-- Change the accumulators of a command's function and namespace alike. -/
def State.charge (s : State) (f n : Nat) (g : Acc → Acc) : State :=
  let s := s.modAcc f g
  if n = 0 then s else s.modAcc (nsAcc n) g

/-- Poison events counted for a namespace (15 Table 15.11). -/
def State.chargePoison (s : State) (n : Nat) : State :=
  s.modAcc (nsAcc n) fun x => { x with poison := satInc16 x.poison }

/-- Device time as the 64-bit registers show it. -/
def State.time64 (s : State) : BitVec 64 := BitVec.ofNat 64 s.now

/-- Is this command number that of an entry still in the ledger? -/
def State.cmd? (s : State) (id : Nat) : Option Cmd := s.ledger.find? (·.id == id)

/-- Change ledger entry `id`. -/
def State.modCmd (s : State) (id : Nat) (g : Cmd → Cmd) : State :=
  { s with ledger := s.ledger.map fun c => if c.id = id then g c else c }

/-- Power, gait and timer policies in force device-wide: a committed epoch's take effect when the last actuator has applied it
(15 R398). -/
def State.devCfg (s : State) : EpochCfg := if s.cfg.left.isEmpty then s.cfg.applied else s.cfg.prev

/-- One tick of device time: 40 ns, the resolution of the device's clock (14 R378), slewed by SLEW_PPM toward the PPS edge while a phase error
is left (14 R384). -/
def State.tick (s : State) : State :=
  let c := s.clk
  if c.slewLeft = 0 then { s with now := s.now + 40 }
  else
    let ppm := if 1 ≤ c.slewPpm.toNat ∧ c.slewPpm.toNat ≤ 200 then c.slewPpm.toNat else 50
    let acc := c.slewAcc + ppm
    if acc < 25000 then { s with now := s.now + 40, clk := { c with slewAcc := acc } }
    else
      let left := if 0 < c.slewLeft then c.slewLeft - 1 else c.slewLeft + 1
      { s with now := if 0 < c.slewLeft then s.now + 39 else s.now + 41,
               clk := { c with slewLeft := left, slewing := left != 0, slewAcc := if left = 0 then 0 else acc - 25000 } }

/-- Change every function that holds a state of its own. -/
def State.mapFns (s : State) (g : Nat → FnSt → FnSt) : State := { s with fns := s.fns.map fun r => (r.1, g r.1 r.2) }
/-- Change every ledger entry. -/
def State.mapCmds (s : State) (g : Cmd → Cmd) : State := { s with ledger := s.ledger.map g }
/-- Change the staging slots. -/
def State.modStage (s : State) (g : Staging → Staging) : State := { s with stage := g s.stage }
/-- Change every read-staging slot. -/
def State.mapR (s : State) (g : RSlot → RSlot) : State := s.modStage fun x => { x with rslots := x.rslots.map g }
/-- Change every write-staging slot. -/
def State.mapW (s : State) (g : WSlot → WSlot) : State := s.modStage fun x => { x with wslots := x.wslots.map g }
/-- Change every Recovery List entry. -/
def State.mapRec (s : State) (g : RecEntry → RecEntry) : State := { s with recs := s.recs.map g }
/-- Change every format operation. -/
def State.mapFmt (s : State) (g : FmtOp → FmtOp) : State := { s with fmts := s.fmts.map g }
/-- Change every sanitize operation. -/
def State.mapSan (s : State) (g : SanOp → SanOp) : State := { s with sans := s.sans.map g }
/-- Change staging memory. -/
def State.modMem (s : State) (g : MemSt → MemSt) : State := { s with mem := g s.mem }
/-- Change the decoder pool. -/
def State.modPool (s : State) (g : Pool → Pool) : State := { s with pool := g s.pool }
/-- Change start, firmware and activation state. -/
def State.modBoot (s : State) (g : Boot → Boot) : State := { s with boot := g s.boot }
/-- Change the configuration. -/
def State.modCfg (s : State) (g : Cfg → Cfg) : State := { s with cfg := g s.cfg }
/-- Power-loss threshold as it acts, in 0.1 V (05 Table 5.15). -/
def Cfg.tripV (c : Cfg) : Nat := within 100 120 114 c.vtrip.toNat
/-- Flush stop threshold as it acts, in 0.1 V (05 Table 5.15). -/
def Cfg.stopV (c : Cfg) : Nat := within 90 (c.tripV - 2) 102 c.vstop.toNat
/-- Change stewardship, locks and pins. -/
def State.modGlb (s : State) (g : Glb → Glb) : State := { s with glb := g s.glb }

/-- Area `n` of the default layout, in granules of 256 MiB (11 Table 11.1). -/
def areaReset : Nat → Area
  | 0 => { base := 0x00, size := 4 } | 1 => { base := 0x04, size := 5 } | 2 => { base := 0x09, size := 1 }
  | 3 => { base := 0x0A, size := 1 } | 4 => { base := 0x0B, size := 4 } | 5 => { base := 0x0F, size := 24 }
  | 6 => { base := 0x27, size := 1 } | 7 => { base := 0x28, size := 1 } | 8 => { base := 0x29, size := 2 }
  | 9 => { base := 0x2B, size := 8 } | 10 => { base := 0x33, size := 64 } | 11 => { base := 0x73, size := 37 }
  | 12 => { base := 0x98, size := 8 } | 13 => { base := 0xA0, size := 8 } | 14 => { base := 0xA8, size := 8 }
  | 15 => { base := 0xB0, size := 8 } | 16 => { base := 0xB8, size := 2 } | _ => {}
/-- Area `n` of the layout in force (11 R308). -/
def State.area (s : State) (n : Nat) : Area := s.mem.areas.get areaReset n

/-- Run one change of state per element of a list. -/
def State.each {α : Type} (s : State) (l : List α) (g : State → α → State) : State := l.foldl g s

end Sys2Proof.Machine
end

