-- ==== Sys2Proof/Machine/Plan.lean ====
section
/-! DEFINITION. The actuator plan: gaits, places, projection, slack-safe changes, positions and decode slots (02). -/
namespace Sys2Proof.Machine

/-! ### Gaits -/

/-- Speed of a gait in rpm (09 Table 9.4). -/
def gaitRpm : Nat → Nat
  | 0 => 0 | 1 => 4800 | 2 => 6000 | _ => 7200

/-- One revolution at a gait in ns (09 Table 9.4); at Stand, Amble's, which no plan uses. -/
def revNs : Nat → Nat
  | 0 => 12500000 | 1 => 12500000 | 2 => 10000000 | _ => 8333333

/-- Period in ps of a channel island at a RATE: 8 periods of a sample clock of 28.125 GHz × RATE / 65,536, to the nearest ps (10 R284, 14
Table 14.1). -/
def channelPs (rate : Nat) : Nat := if rate = 0 then 0 else (2 * 524288000000 + 28125 * rate) / (2 * 28125 * rate)

/-- Planned pause of a transition between running gaits, ramp at 1,200 rpm/s plus 0.2 s (09 R259, Table 9.6). -/
def transNs (g g' : Nat) : Nat :=
  let d := if gaitRpm g ≤ gaitRpm g' then gaitRpm g' - gaitRpm g else gaitRpm g - gaitRpm g'
  d * 1000000000 / 1200 + 200000000

/-- Planned exit from Standby (09 Table 9.6). -/
def standbyExitNs : Nat → Nat
  | 0 => 0 | 1 => 13700000000 | 2 => 16700000000 | _ => 19700000000

/-- Scope of a bay (13 R363). -/
def State.bayScope (s : State) (b : Nat) : Scope := s.thm.bayScope.get (fun _ => {}) b
/-- Scope of head `h` of actuator `a` (13 R363). -/
def State.headScope (s : State) (a h : Nat) : Scope := s.thm.headScope.get (fun _ => {}) (16 * a + h)
/-- Is a bay in emergency, its own or the die's (13 Table 13.3, R366)? -/
def State.bayEmerg (s : State) (b : Nat) : Bool := s.thm.dieScope.emerg || (s.bayScope b).emerg

/-- Does a thermal inhibit of assisted writes stop a write of command `id` on head `h`: one admitted before the inhibit passes, and none passes
a head's emergency (07 R213; 13 R365, R367)? -/
def State.inhibited (s : State) (a h id : Nat) : Bool :=
  let stops (x : Scope) : Bool := x.ainh && !((s.cmd? id).any fun c => decide (c.arrival < x.ainhAt))
  stops (s.bayScope (bayOf a)) || stops (s.headScope a h) || (s.headScope a h).emerg

/-- Thermal ceiling of a bay: the lower of its own scope's and the die scope's (13 R364). -/
def State.thermalCeil (s : State) (b : Nat) : Nat :=
  min (s.thm.dieCeil.get (fun _ => 3) b).toNat (s.bayScope b).ceil.toNat

/-- Gait ceiling of a bay: the lowest of the power ceiling, the thermal ceiling and Gallop (09 R263). -/
def State.ceil (s : State) (b : Nat) : Nat := min (s.bay b).spin.ceilPwr.toNat (s.thermalCeil b)

/-- The gait a bay runs at, or is on its way to. -/
def State.gaitNow (s : State) (b : Nat) : Nat :=
  let sp := (s.bay b).spin
  if sp.moving then sp.goal.toNat else sp.gait.toNat

/-! ### Where sectors lie -/

/-- Actuator, region and position of a sector (05 R135, R136). Regions: extent e is e, band d is 2^20 + d. -/
def Ns.locate (n : Ns) (lba : Nat) : Nat × Nat × Nat :=
  let k := n.actset.length
  if n.zoned then
    let z := lba / 65536
    let a := n.actset.getD (z % k) 0
    (a, 2 ^ 20 + (n.space.get (fun _ => []) a).getD (z / k) 0, lba % 65536)
  else
    let u := 2 ^ n.unit
    let st := lba / u
    let a := n.actset.getD (st % k) 0
    let loc := st / k * u + lba % u
    (a, (n.space.get (fun _ => []) a).getD (loc / 65536) 0, loc % 65536)

/-- Region of the landing segment `g` (05 R127). -/
def landRegion (g : Nat) : Nat := 2 ^ 21 + g
/-- Region of the reserved media area (05 R127). -/
def reservedRegion : Nat := 2 ^ 22

/-- Region of a track of a head taken as it lies, whatever the layout puts there (05 R146). -/
def trackRegion (h t : Nat) : Nat := 2 ^ 28 + h * 2 ^ 24 + t

/-- First track behind `k` units of `n` sectors and `g` guard tracks each from track `t` on; no unit lies across a boundary of recording zones
(05 R127, R129). -/
def layTrack (n g : Nat) : List RecZone → Nat → Nat → Nat
  | [], t, _ => t
  | z :: zs, t, k =>
    let e := z.first + z.tracks
    let u := (n + z.spt - 1) / max 1 z.spt + g
    if e ≤ t then layTrack n g zs t k
    else if k < (e - t) / max 1 u then t + k * u
    else layTrack n g zs e (k - (e - t) / max 1 u)

/-- Sectors per track at a track (05 Table 5.1). -/
def sptAt (zs : List RecZone) (t : Nat) : Nat :=
  match zs.find? fun z => decide (z.first ≤ t ∧ t < z.first + z.tracks) with
  | some z => z.spt
  | none => 832

/-- Recording zone of a track, 0 where none is known (05 Table 5.1). -/
def recZoneOf (zs : List RecZone) (t : Nat) : Nat := zs.findIdx (fun z => decide (z.first ≤ t ∧ t < z.first + z.tracks)) % max 1 zs.length

/-- RATE of a transfer at a track and a gait: the recording zone's at Gallop, in proportion to the speed, within its limits; 0 where no recording
zone is known (06 R155, 10 R284; DEDUCED). -/
def rateOf (zs : List RecZone) (t g : Nat) : Nat :=
  match zs.find? fun z => decide (z.first ≤ t ∧ t < z.first + z.tracks) with
  | some z => max 2796 (min 8856 (z.rate * gaitRpm g / 7200))
  | none => 0

/-- Sectors of an operation before it would cross a recording-zone boundary (06 R155). -/
def zoneRoom (zs : List RecZone) (o : PlanOp) : Nat :=
  match zs.find? fun z => decide (z.first ≤ o.track ∧ o.track < z.first + z.tracks) with
  | some z => (z.first + z.tracks - o.track) * o.spt - o.angle * o.spt / 1000000
  | none => o.count

/-- Sectors of the conventional island: 2 GiB of landing band, then 4 GiB of reserved media area (05 Table 5.2). -/
def islandSectors : Nat := 6 * 2 ^ 30 / 4096

/-- Where the layout of Table 5.2 puts position `pos` of region `r`, outer diameter first: the extents, the outer half of the bands, the island at
mid-stroke, the inner half of the bands. How the heads share a part is not stated: the model gives each the next equal share of it (DESIGN
CHOICE) (05 R127, R129). -/
def Med.layPlace (m : Med) (r pos : Nat) : Place :=
  let heads := max 1 m.heads
  let share (n : Nat) : Nat := max 1 ((n + heads - 1) / heads)
  let outer := m.bands / 2
  let tBand := layTrack 65536 0 m.zones 0 (share m.extents)
  let tIsland := layTrack 65536 1 m.zones tBand (share outer)
  let tInner := layTrack 1 0 m.zones tIsland (share islandSectors)
  let put (h t : Nat) (p : Nat) : Place :=
    let spt := sptAt m.zones t
    { track := t + p / spt, head := h, angle := p % spt * 1000000 / spt, spt := spt }
  let sector (i : Nat) : Place := put (i / share islandSectors) tIsland (i % share islandSectors)
  if 2 ^ 28 ≤ r then put ((r - 2 ^ 28) / 2 ^ 24) ((r - 2 ^ 28) % 2 ^ 24) pos
  else if 2 ^ 22 ≤ r then sector (2 ^ 19 + (r - 2 ^ 22) * 65536 + pos)
  else if 2 ^ 21 ≤ r then sector ((r - 2 ^ 21) * 256 + pos)
  else if 2 ^ 20 ≤ r then
    let d := r - 2 ^ 20
    if d < outer then put (d / share outer) (layTrack 65536 1 m.zones tBand (d % share outer)) pos
    else put ((d - outer) / share (m.bands - outer)) (layTrack 65536 1 m.zones tInner ((d - outer) % share (m.bands - outer))) pos
  else put (r / share m.extents) (layTrack 65536 0 m.zones 0 (r % share m.extents)) pos

/-- Place of position `pos` of region `r` on actuator `a`: sectors follow the region's tracks in order; a region the calibration records place
elsewhere lies there (05 R127, R129). -/
def State.placeOf (s : State) (a r pos : Nat) : Place :=
  let m := (s.act a).med
  match m.places.find r with
  | some p => { p with track := p.track + pos / p.spt, angle := (p.angle + pos % p.spt * 1000000 / p.spt) % 1000000 }
  | none => m.layPlace r pos

/-- The layout a conventional fraction gives an actuator: of the bytes its surface area would hold, the fraction at the conventional pitch less
the island as extents of 256 MiB, the rest at the shingled pitch less the spare tracks as bands of 256 MiB (05 R127, Table 5.2; DEDUCED from the
worked example). -/
def Med.layOut (m : Med) : Med :=
  let shing := m.heads * (m.zones.map fun z => z.tracks * z.spt * 4096).sum
  let conv := m.heads * (m.zones.map fun z => z.tracks * z.spt * 4096 * z.shinPitch / max 1 z.convPitch).sum
  { m with extents := (conv * m.convPct / 100 - 6 * 2 ^ 30) / 2 ^ 28,
           bands := shing * (100 - m.convPct) / 100 * (1000 - m.sparePct) / 1000 / 2 ^ 28 }

/-! ### Track groups (05 R146, R147) -/

/-- The track group of a place, 16 tracks of a head (05 R146). -/
def Place.group (p : Place) : Nat := p.head * 2 ^ 24 + p.track / 16

/-- The counter of an edge of a band, 0 its first track and 1 its last (05 R146). -/
def bandEdge (d e : Nat) : Nat := 2 ^ 40 + 2 * d + e

/-- What a write at position `pos` of region `r` is counted under: the group of its track; in a band, on an edge track, the edge of the band
beside it (05 R146). -/
def State.atiGroups (s : State) (a r pos : Nat) : List Nat :=
  let p := s.placeOf a r pos
  if 2 ^ 20 ≤ r ∧ r < 2 ^ 21 then
    let d := r - 2 ^ 20
    (if pos / p.spt = 0 ∧ 0 < d then [bandEdge (d - 1) 1] else [])
      ++ (if pos / p.spt = 65535 / p.spt ∧ d + 1 < (s.act a).med.bands then [bandEdge (d + 1) 0] else [])
  else [p.group]

/-- Is a counted group held that a write of `n` sectors from place `pos` of the plan would be counted under (05 R147)? -/
def State.atiHolds (s : State) (a pos n : Nat) : Bool :=
  let r := pos / 65536
  let spt := (s.placeOf a r (pos % 65536)).spt
  (((List.range (n / spt + 1)).map (· * spt)) ++ [n - 1]).any fun i => (s.atiGroups a r (pos % 65536 + i)).any (s.act a).med.atiHeld.contains

/-- An ATI counter (05 R146, R148). -/
def Med.atiOf (m : Med) (g : Nat) : Nat := m.ati.get (fun _ => m.atiBase) g

/-- One more revolution of writing in the groups of a place (05 R146). -/
def State.worn (s : State) (a : Nat) (gs : List Nat) : State :=
  s.modMed a fun m => { m with ati := gs.eraseDups.foldl (fun t g => Tab.upd (fun _ => m.atiBase) t g (· + 1)) m.ati }

/-- Sectors of the first `x` of a striped namespace that lie on the actuator of index `i` (05 R135). -/
def stripeCount (u k i x : Nat) : Nat := x / (u * k) * u + min u (x % (u * k) - i * u)

/-- The parts of a range: one per actuator that holds sectors of it, in actuator order, with the LBA-order position of the
first sector (02 R44, 05 R135, R136). -/
def Ns.parts (n : Ns) (lba len : Nat) : List Part :=
  if n.zoned then
    let (a, r, pos) := n.locate lba
    [{ act := a, pos := r * 65536 + pos, count := len }]
  else
    let u := 2 ^ n.unit
    let k := n.actset.length
    (n.actset.zipIdx).filterMap fun (a, i) =>
      let lo := stripeCount u k i lba
      let hi := stripeCount u k i (lba + len)
      if hi ≤ lo then none
      else some { act := a, pos := (n.space.get (fun _ => []) a).getD (lo / 65536) 0 * 65536 + lo % 65536, count := hi - lo }

/-! ### Projection (02 Table 2.2, R36) -/

/-- Distance bin of a seek over `d` tracks (08 R231). -/
def seekBin (d : Nat) : Nat := if d = 0 then 0 else min 31 (1 + Nat.log2 d)

/-- Distance of two tracks. -/
def trackDist (t t' : Nat) : Nat := if t ≤ t' then t' - t else t - t'

/-- Seek bound in force at a gait over a distance (12 R347); in limp, whose wedge rate is lower, longer by a time the spec does not give: a free
value (02 R51, 08 R246). -/
def State.seekBound (s : State) (a g t t' : Nat) : Nat :=
  let k := 32 * g + seekBin (trackDist t t')
  (s.act a).graze.seek.get (fun _ => 0) k + if (s.act a).loop.limp then Config.limpSeek a k else 0

/-- First passage of an angle at or after time `t` (02, rotational plan). -/
def nextPass (phase0 rev angle t : Nat) : Nat :=
  t + ((phase0 + angle * rev / 1000000) % rev + rev - t % rev) % rev

/-- The tail of an operation: 11.1 µs for a read, 1.5 µs for a write or a band-journal write (02 Table 2.2). -/
def tailNs (read : Bool) : Nat := if read then 11100 else 1500

/-- Where the plan's projection stands: time, track and gait. -/
structure Cursor where
  /-- end of the operation before -/
  t : Nat
  /-- track at its end -/
  track : Nat
  /-- gait from there on -/
  gait : Nat
  /-- head selected -/
  head : Nat
  /-- its heater code -/
  heat : BitVec 8
  deriving DecidableEq, Repr

/-- Heater code of a head for an operation: its read or its write power (07 R212). -/
def State.heaterFor (s : State) (a h : Nat) (read : Bool) : BitVec 8 := if read then (s.head a h).heatRd else (s.head a h).heatWr

/-- The seek bound of an operation from where the plan stands: a head switch that changes heater power is part of it, by a time the spec does not give (a
free value), and write power is applied 50 µs before the first write gate (07 R212). -/
def State.seekTime (s : State) (a : Nat) (c : Cursor) (o : PlanOp) : Nat :=
  let code := s.heaterFor a o.head o.read
  let t := s.seekBound a c.gait c.track o.track + if o.head ≠ c.head ∧ code ≠ c.heat then Config.heaterNs else 0
  if o.read ∨ code = c.heat then t else max t 50000

/-- Project one operation from a cursor. -/
def State.projectOp (s : State) (a : Nat) (c : Cursor) (o : PlanOp) : PlanOp × Cursor :=
  match o.kind with
  | .pause => ({ o with start := c.t, mediaStart := c.t, mediaEnd := c.t + o.pre, finish := c.t + o.pre },
               { c with t := c.t + o.pre, gait := o.gait })
  | .hold => ({ o with start := c.t, mediaStart := c.t, mediaEnd := c.t + o.pre, finish := c.t + o.pre }, { c with t := c.t + o.pre })
  | _ =>
    let rev := revNs c.gait
    let ready := c.t + o.pre + s.seekTime a c o
    let ready := if o.read then ready else max ready (s.act a).adm.writeBlock
    let ms := nextPass (s.bay (bayOf a)).spin.phase0 rev o.angle ready
    let me := ms + o.count * (rev / o.spt)
    ({ o with start := c.t, gait := c.gait, mediaStart := ms, mediaEnd := me, finish := me + tailNs o.read },
     { t := me, track := o.track + o.count / o.spt, gait := c.gait, head := o.head, heat := s.heaterFor a o.head o.read })

/-- Project a list of operations from a cursor. -/
def State.projectFrom (s : State) (a : Nat) : Cursor → List PlanOp → List PlanOp
  | _, [] => []
  | c, o :: t => let (o', c') := s.projectOp a c o; o' :: s.projectFrom a c' t

/-- Where the plan begins: at the projected end of the running operation, or now, and not before an actuator out of service is back (02
R36, R51). -/
def State.planStart (s : State) (a : Nat) : Cursor :=
  let adm := (s.act a).adm
  let sp := (s.bay (bayOf a)).spin
  let g := if sp.moving then sp.goal.toNat else sp.gait.toNat
  let free := max adm.outUntil (if adm.hold then max s.now adm.holdEnd else s.now)
  match adm.running with
  | some r => { t := max free r.mediaEnd, track := r.track + r.count / r.spt, gait := g, head := r.head, heat := s.heaterFor a r.head r.read }
  | none => { t := if sp.moving then max free sp.pauseEnd else free, track := adm.endTrack, gait := g, head := adm.endHead, heat := adm.heater }

/-- The plan of actuator `a` with `ops` behind the running operation. -/
def State.project (s : State) (a : Nat) (ops : List PlanOp) : List PlanOp := s.projectFrom a (s.planStart a) ops

/-- The plan of actuator `a` as it stands. -/
def State.plan (s : State) (a : Nat) : List PlanOp := s.project a (s.act a).adm.queue

/-! ### Slack-safe changes (02 R40, R41) -/

/-- Does an operation carry an admitted command's milestone (DC0 to DC6)? -/
def PlanOp.promised (o : PlanOp) : Bool := o.cmd != 0 && o.dc < 7

/-- An operation of a DC1 to DC6 command. -/
def PlanOp.bounded (o : PlanOp) : Bool := o.promised && o.dc != 0

/-- Finish of the same operation in another plan, if it is there. -/
def finishIn (p : List PlanOp) (o : PlanOp) : Option Nat :=
  (p.find? fun q => q.cmd == o.cmd && q.kind == o.kind && q.pos == o.pos && q.k == o.k).map (·.finish)

/-- Condition 1 of R40: every admitted command finishes at or before its milestone. -/
def cond1 (p : List PlanOp) : Bool := p.all fun o => !o.promised || o.finish ≤ o.milestone

/-- A change from plan `p` to plan `q` is slack-safe, `r` giving the urgent reserve at each planned gait (02 R40, Table 2.2). -/
def slackSafe (r : Nat → Nat) (p q : List PlanOp) : Bool :=
  cond1 q && q.all fun o =>
    !o.bounded || o.finish + r o.gait ≤ o.milestone ||
      match finishIn p o with
      | some f => decide (o.milestone < f + r o.gait ∧ o.finish ≤ f)
      | none => false

/-- Class table, policy and weights an actuator admits under: the applied ones, or the steward's previous commit until the
actuator's own safe point (02 R30, 15 R399). -/
def State.epochOf (s : State) (a : Nat) : EpochCfg := if s.cfg.left.contains a then s.cfg.prev else s.cfg.applied

/-- Urgent reserve in ns under an epoch: URG_RES eighths of a revolution at the planned gait (02 Table 2.2). -/
def EpochCfg.reserve (e : EpochCfg) (g : Nat) : Nat := revNs g * e.adm.urgRes.toNat / 8

/-- Urgent reserve of an actuator under the epoch it has applied (02 Table 2.2). -/
def State.urgent (s : State) (a g : Nat) : Nat := (s.epochOf a).reserve g

/-- The epoch a command on these actuators is tested under: the oldest of theirs (02 R56). A command that lies on no actuator
(RECOVERY_LIST, CONT_READ, a FLUSH that covers nothing) is timed by the latest committed epoch (DESIGN CHOICE: the spec names none). -/
def State.epochFor (s : State) (acts : List Nat) : EpochCfg × BitVec 32 :=
  if acts.any s.cfg.left.contains then (s.cfg.prev, s.cfg.prevEpoch) else (s.cfg.applied, s.cfg.epochReq)

/-- Number of decode slots: ⌊(n − 1) × 2.5 / 1.007⌋ for n engines in service (02 R38). -/
def decodeSlots (n : Nat) : Nat := (n - 1) * 2500 / 1007

/-- Decoder engines in service (06 R184). -/
def State.enginesIn (s : State) : Nat := ((List.range 64).filter fun e => (s.eng e).state == 0).length

/-- Intervals in which admitted reads of every actuator but `a` hold decode slots. -/
def State.slotSpans (s : State) (a : Nat) : List (Nat × Nat) :=
  (List.range 144).flatMap fun x =>
    if x = a then [] else
      let adm := (s.act x).adm
      ((adm.running.toList ++ adm.queue).filter (·.slot)).map fun o => (o.mediaStart, o.mediaEnd)

/-- Is a slot free throughout every slot-holding operation of a trial plan (02 R38)? -/
def State.slotsFree (s : State) (a : Nat) (trial : List PlanOp) : Bool :=
  let own := ((s.act a).adm.running.toList ++ trial).filter (·.slot) |>.map fun o => (o.mediaStart, o.mediaEnd)
  let all := s.slotSpans a ++ own
  let n := decodeSlots s.enginesIn
  all.length ≤ n || own.all fun (lo, hi) =>
    ((lo, hi) :: all.filter fun (l, _) => lo ≤ l && l < hi).all fun (p, _) =>
      decide ((all.filter fun (l, h) => l ≤ p && p < h).length ≤ n)

/-- Does a trial plan that holds new operation `n` pass R41 against the plan `p` it changes, `r` giving the urgent reserve of the epoch
the command is tested under at each planned gait (02 R41, R56)? -/
def passes (r : Nat → Nat) (p : List PlanOp) (n : PlanOp) (trial : List PlanOp) : Bool :=
  if n.dc = 0 then cond1 trial else
    let me := (finishIn trial n).getD 0
    let g := ((trial.find? fun q => q.cmd == n.cmd && q.pos == n.pos && q.kind == n.kind).map (·.gait)).getD 0
    slackSafe r p trial && decide (me + r g + n.allowance ≤ n.milestone) &&
      trial.all fun o => !o.bounded || o.cmd == n.cmd || finishIn p o == some o.finish
        || decide (o.finish + r o.gait + o.allowance ≤ o.milestone)

/-- Insert at index `i`. -/
def insertAt {α : Type} (l : List α) (i : Nat) (x : α) : List α := l.take i ++ x :: l.drop i

/-- The earliest-milestone position in a queue: before the first operation of a later milestone, or of none; pauses are passed over (02
R42). In a plan that is not in milestone order R42 does not say which place that is: the first such place is the model's (DESIGN
CHOICE). -/
def milestonePos (q : List PlanOp) (m : Nat) : Nat :=
  (q.takeWhile fun o => o.kind == .pause || o.kind == .hold || (o.promised && o.milestone ≤ m)).length

/-- Positions in the order of R42, none before `lo`: the earliest-milestone one, up to 8 later, up to 8 earlier. -/
def positions (lo len e : Nat) : List Nat :=
  let e := max lo (min e len)
  e :: ((List.range 8).map (e + 1 + ·)).filter (· ≤ len) ++ ((List.range 8).filter (· < e - lo)).map (e - 1 - ·)

/-- Do two ledger entries overlap (03 R80)? -/
def overlaps (c d : Cmd) : Bool :=
  let rng (x : Cmd) : Nat × Nat :=
    if x.op = 3 || x.op = 4 then (x.slba / 65536 * 65536, 65536)
    else if x.op = 5 then (x.slba / 65536 * 65536, 65536 * x.arg0)
    else (x.slba, x.len)
  let has (x : Cmd) : Bool := x.op = 1 || x.op = 2 || x.op = 3 || x.op = 4 || x.op = 5
  has c && has d && c.nsid == d.nsid && decide ((rng c).1 < (rng d).1 + (rng d).2 ∧ (rng d).1 < (rng c).1 + (rng c).2)

/-- Ledger entries that arrived before `c`, are unfinished and overlap it (03 R81). -/
def State.earlierOverlaps (s : State) (c : Cmd) : List Nat :=
  (s.ledger.filter fun d => d.id < c.id && d.phase != .heldCpl && overlaps c d).map (·.id)

/-- Are two commands writes or appends of one zone, which commit in the order of their admission (03 R82)? -/
def sameZone (c d : Cmd) : Bool :=
  let wr (x : Cmd) : Bool := x.op == 2 || x.op == 3
  wr c && wr d && c.nsid == d.nsid && c.slba / 65536 == d.slba / 65536

/-- Ledger entries whose work must come before that of `c`: earlier unfinished ones that overlap it, or write the same zone (03 R81,
R82). -/
def State.ahead (s : State) (c : Cmd) : List Nat :=
  (s.ledger.filter fun d => d.id < c.id && d.phase != .heldCpl && (overlaps c d || ((s.ns c.nsid).zoned && sameZone c d))).map (·.id)

/-- Is the data of an earlier write that work of `c` must follow still on its way into write staging, or its commit there in wait of its
turn (01 R20, 03 R81, R82)? -/
def State.awaitsStaging (s : State) (c : Cmd) : Bool :=
  (s.ledger.filter fun d => (s.ahead c).contains d.id).any fun d => d.hostModel && d.phase == .admitted && (d.op == 2 || d.op == 3)

/-- First position a new operation of command `c` may take: behind every fixed pause (01 R25) and behind every operation of
an earlier command its work must follow (03 R81, R82). -/
def State.firstPos (s : State) (a : Nat) (c : Cmd) : Nat :=
  let q := (s.act a).adm.queue
  let ov := s.ahead c
  ((q.zipIdx).filter fun (o, _) => o.kind == .pause || ov.contains o.cmd).foldl (fun m (_, i) => max m (i + 1)) 0

/-- Positions tried, first to last, and whether decode slots alone refused one: the first trial plan that passes (02 R42). -/
def State.tryPositions (s : State) (a : Nat) (r : Nat → Nat) (p base : List PlanOp) (n : PlanOp) :
    List Nat → Bool → Option (List PlanOp) × Bool
  | [], lim => (none, lim)
  | i :: t, lim =>
    let trial := s.project a (insertAt base i n)
    if passes r p n trial then
      if s.slotsFree a trial then (some trial, lim) else s.tryPositions a r p base n t true
    else s.tryPositions a r p base n t lim

/-- The announced pause of an activation as it stands in the plan of actuator `a` (02 R55). -/
def State.holdOp (s : State) (a : Nat) : PlanOp := { kind := .hold, pre := (s.act a).adm.holdNs, slot := false }

/-- The earliest place of the announced pause among `base`: the first that leaves the plan slack-safe, or its end (02 Table 2.5, R55). -/
def State.holdPos (s : State) (a : Nat) (base : List PlanOp) : Nat :=
  let p := s.plan a
  let ok (i : Nat) : Bool := slackSafe (s.urgent a) p (s.project a (insertAt base i (s.holdOp a)))
  ((List.range (base.length + 1)).find? ok).getD base.length

/-- The admission test of one operation on an actuator's plan, `r` the urgent reserve of the epoch it is tested under: the plan that admits
it, if any, and whether decode slots refused a position. A DC7 operation takes the end of the plan untested (02 R34, R52). -/
def State.testOp (s : State) (a : Nat) (r : Nat → Nat) (c : Cmd) (base : List PlanOp) (n : PlanOp) : Option (List PlanOp) × Bool :=
  if n.dc = 7 then (some (s.project a (base ++ [n])), false)
  else
    let lo := s.firstPos a c + (base.length - (s.act a).adm.queue.length)
    if (s.act a).adm.holdNs = 0 then s.tryPositions a r (s.plan a) base n (positions lo base.length (milestonePos base n.milestone)) false
    else
      let i := s.holdPos a base
      let held := insertAt base i (s.holdOp a)
      let lo := if i < lo then lo + 1 else lo
      let t := s.tryPositions a r (s.project a held) held n (positions lo held.length (milestonePos held n.milestone)) false
      (t.1.map fun q => s.project a (q.filter (·.kind != .hold)), t.2)

/-- Put a plan in force on an actuator. -/
def State.setPlan (s : State) (a : Nat) (q : List PlanOp) : State := s.modAdm a fun x => { x with queue := q }

/-- Take every operation of a command out of an actuator's plan and project what is left. -/
def State.unplan (s : State) (a id : Nat) : State :=
  s.setPlan a (s.project a ((s.act a).adm.queue.filter fun o => o.cmd != id))

/-- Project an actuator's plan anew from the present. -/
def State.replan (s : State) (a : Nat) : State := s.setPlan a (s.plan a)

/-- Is actuator `a` out of service: link not UP, parked or retracting, bay not READY (02 Table 2.14)? -/
def State.offline (s : State) (a : Nat) : Bool :=
  let x := s.act a
  let b := s.bay (bayOf a)
  b.link.media != 2 || x.cwy.state != 5 || x.adm.offline || b.spin.stoppedFor

end Sys2Proof.Machine
end

