-- ==== Sys2Proof/Machine/Copies.lean ====
section
/-! DEFINITION. Which copy of a sector is the newest: write staging, landing band, final place (05 R137, R138). -/
namespace Sys2Proof.Machine

open Sys2Proof

/-- Zone number in the table of zones. -/
def zoneKey (nsid lba : Nat) : Nat := nsid * 2 ^ 24 + lba / 65536

/-- Key of a sector in tables that cover every namespace. -/
def secKey (n lba : Nat) : Nat := n * 2 ^ 48 + lba

/-! ### Copies of a sector (05 R137, R138) -/

/-- Is a staged sector committed to staging: not one of a LANDED write still under way? -/
def State.slotCommitted (s : State) (w : WSlot) : Bool :=
  w.cmd == 0 || match s.cmd? w.cmd with
    | some c => !c.dur
    | none => true

/-- The later of two staged copies: that of the write which arrived later (03 R81). -/
def laterSlot (m : Option WSlot) (w : WSlot) : Option WSlot :=
  match m with
  | none => some w
  | some x => if x.src ≤ w.src then some w else some x

/-- The newest copy in write staging: of the write that arrived last, whatever the order their data came in (03 R81, 05 R138). -/
def State.stagedCopy (s : State) (n lba : Nat) : Option WSlot :=
  (s.stage.wslots.filter fun w => w.sec.nsid == n && w.sec.lba == lba && s.slotCommitted w).foldl laterSlot none

/-- The newest copy in write staging of a write that arrived before command `id`: what a read of that arrival takes (03 R81). -/
def State.stagedFor (s : State) (id n lba : Nat) : Option WSlot :=
  (s.stage.wslots.filter fun w => w.sec.nsid == n && w.sec.lba == lba && decide (w.src < id) && s.slotCommitted w).foldl laterSlot none

/-- Actuator of a sector's final place. -/
def State.actOf (s : State) (n lba : Nat) : Nat := ((s.ns n).locate lba).1

/-- The live copy on the landing band, with its slot. -/
def State.landedCopy (s : State) (n lba : Nat) : Option LSlot :=
  (s.act (s.actOf n lba)).med.landing.find? fun l => l.st == .live && l.sec.nsid == n && l.sec.lba == lba

/-- Does a Poison List entry of kind 1 or 2 name the sector (11 R325)? -/
def State.poisonNamed (s : State) (n lba : Nat) : Bool :=
  s.mem.plist.any fun e => (e.kind == 1 || e.kind == 2) && e.nsid == n && decide (e.start ≤ lba ∧ lba < e.start + e.count)

/-- Does the sector read as zeros without media access: unwritten since format, or at or beyond the committed write pointer
(05 R137)? -/
def State.readsZero (s : State) (n lba : Nat) : Bool :=
  ((s.ns n).zoned && decide ((s.zone (zoneKey n lba)).comWp ≤ lba % 65536))
    || ((s.media.find (secKey n lba)).isNone && (s.landedCopy n lba).isNone)

/-- The copy a media read finds: the landing band's, or the final place's. -/
def State.onMedia (s : State) (n lba : Nat) : Option Sector :=
  match s.landedCopy n lba with
  | some l => some l.sec
  | none => s.media.find (secKey n lba)

/-- The copy of a sector of the highest generation on the media, wherever it lies. -/
def State.newestMedia (s : State) (n lba : Nat) : Option Sector :=
  match s.landedCopy n lba, s.media.find (secKey n lba) with
  | some l, some x => if x.gen < l.sec.gen then some l.sec else some x
  | some l, none => some l.sec
  | none, m => m

/-- The cached copy in read staging that command `id` may take: what the media hold, and no later write's data (03 R81, 05 R138). -/
def State.cachedCopy (s : State) (n lba : Nat) : Option RSlot :=
  s.stage.rslots.find? fun r => r.sec.nsid == n && r.sec.lba == lba && !r.poisoned && r.deliveredAt != 0
    && (s.onMedia n lba).any (·.gen == r.sec.gen)

/-- Is the newest copy of the sector for command `id` poisoned: named by the Poison List, or a poisoned line of its staging slot (11 R324,
R325)? -/
def State.poisonedRead (s : State) (id n lba : Nat) : Bool :=
  s.poisonNamed n lba || (s.stagedFor id n lba).any (·.poisoned)

/-- Does reading the sector for command `id` need no media access (02 R45)? -/
def State.noMedia (s : State) (id n lba : Nat) : Bool :=
  s.poisonedRead id n lba || (s.stagedFor id n lba).isSome || (s.cachedCopy n lba).isSome || s.readsZero n lba

/-- A sector of zeros. -/
def zeroSector (n lba : Nat) : Sector := { nsid := n, lba := lba }

/-- The sector's newest copy wherever it lies. -/
def State.newest (s : State) (n lba : Nat) : Sector :=
  match s.stagedCopy n lba with
  | some w => w.sec
  | none => if s.readsZero n lba then zeroSector n lba else (s.onMedia n lba).getD (zeroSector n lba)

/-- Slots of read staging: area 11 in granules of 256 MiB, 4,224 bytes a slot (11 R311). -/
def State.readSlots (s : State) : Nat := (s.area 11).size.toNat * 268435456 / 4224

/-- Room for one more slot of read staging: of a full one the least recently delivered slot that is not pinned is replaced (11 R311). -/
def State.replaceRead (s : State) : State :=
  if s.stage.rslots.length < s.readSlots then s
  else match s.stage.rslots.filter (·.pins.isEmpty) with
    | [] => s
    | h :: t =>
      let old := t.foldl (fun b r => if r.deliveredAt < b.deliveredAt then r else b) h
      { s with stage := { s.stage with rslots := s.stage.rslots.erase old } }

/-- Pin a copy of a sector in read staging for command `id` (02 R45). -/
def State.pin (s : State) (id : Nat) (x : Sector) : State :=
  let hit (r : RSlot) : Bool := r.sec == x && !r.poisoned
  if s.stage.rslots.any hit then
    { s with stage := { s.stage with rslots := s.stage.rslots.map fun r => if hit r then { r with pins := r.pins ++ [id] } else r } }
  else
    let s := s.replaceRead
    { s with stage := { s.stage with rslots := s.stage.rslots ++ [{ sec := x, pins := [id] }] } }

/-- The copy pinned for command `id`. -/
def State.pinned (s : State) (id n lba : Nat) : Option RSlot :=
  s.stage.rslots.find? fun r => r.pins.contains id && r.sec.nsid == n && r.sec.lba == lba

/-- First sector of a zone not yet in its band: the lowest one still only on the landing band or in write staging, else the committed
write pointer (05 R139, R140). -/
def State.bandWp (s : State) (n lba : Nat) : Nat :=
  let z := s.zone (zoneKey n lba)
  let here (x : Sector) : Bool := x.nsid == n && x.lba / 65536 == lba / 65536
  let land := ((s.act (s.actOf n lba)).med.landing.filter fun l => l.st == .live && !l.inBand && here l.sec).map (·.sec.lba % 65536)
  let stag := (s.stage.wslots.filter fun w => w.cmd == 0 && !w.inBand && here w.sec).map (·.sec.lba % 65536)
  match land ++ stag with
  | [] => z.comWp
  | x :: t => t.foldl min x

/-! ### Commits in write staging (01 R18; 03 R81, R82; 05 R138) -/

/-- A write of a sector has committed: poison entries that name it lose it, and go when every sector of them is rewritten
(11 R325, R326). -/
def State.rewritten (s : State) (n lba : Nat) : State :=
  let hit (e : PoisonEnt) : Bool := (e.kind == 1 || e.kind == 2) && e.nsid == n && decide (e.start ≤ lba ∧ lba < e.start + e.count)
  let split (e : PoisonEnt) : List PoisonEnt :=
    if hit e then
      let l := { e with count := lba - e.start, left := lba - e.start }
      let r := { e with start := lba + 1, count := e.start + e.count - lba - 1, left := e.start + e.count - lba - 1 }
      (if l.count = 0 then [] else [l]) ++ (if r.count = 0 then [] else [r])
    else [e]
  { s with mem := { s.mem with plist := s.mem.plist.flatMap split } }

/-- A host write of a sector has committed, in staging or on media: entries that call it poisoned or unreadable go (11 R325, 12 R344). -/
def State.writeCommitted (s : State) (n lba : Nat) : State :=
  (s.rewritten n lba).modGraze (s.actOf n lba) fun g =>
    { g with unread := g.unread.filter fun u => !(u.nsid == n && u.lba == lba) }

/-- Is staged copy `w` superseded by staged copy `x`: the same sector of a later arrival, both committed to staging (03 R81, 05 R138)? -/
def State.supersededBy (s : State) (w x : WSlot) : Bool :=
  x.sec.nsid == w.sec.nsid && x.sec.lba == w.sec.lba && decide (w.src < x.src) && !w.inBand && s.slotCommitted w && s.slotCommitted x

/-- Does an unfinished read that arrived between two writes of a sector still need the older one's copy (03 R81)? -/
def State.copyNeeded (s : State) (w : WSlot) (before : Nat) : Bool :=
  s.ledger.any fun c => c.op == 1 && c.phase != .heldCpl && decide (w.src < c.id ∧ c.id < before) && c.nsid == w.sec.nsid
    && decide (c.slba ≤ w.sec.lba ∧ w.sec.lba < c.slba + c.len) && !c.delivered.contains w.sec.lba && (s.pinned c.id w.sec.nsid w.sec.lba).isNone

/-- The acknowledged writes a superseded copy stands for: its own and those it had superseded (03 R84). -/
def WSlot.asHeirs (w : WSlot) : List Heir :=
  w.heirs ++ (if w.inLand then [] else [{ fn := w.fn, cmd := w.cmd, acked := w.acked }])

/-- Superseded copies go from staging, but for those an earlier read still needs; the newest copy of the sector stands for the writes a FLUSH
may cover (03 R81, R84; 05 R138). -/
def State.pruneStaged (s : State) : State :=
  let ws := s.stage.wslots
  let later (w : WSlot) : List WSlot := ws.filter (s.supersededBy w ·)
  let gone (w : WSlot) : Bool := !(later w).isEmpty && !(later w).any fun x => s.copyNeeded w x.src
  let dead := ws.filter gone
  if dead.isEmpty then s
  else
    let top (w : WSlot) : Bool := (later w).isEmpty
    let inherit (x : WSlot) : WSlot :=
      if top x then { x with heirs := x.heirs ++ (dead.filter fun w => w.sec.nsid == x.sec.nsid && w.sec.lba == x.sec.lba && decide (w.src < x.src)).flatMap WSlot.asHeirs }
      else x
    s.modStage fun g => { g with wslots := (ws.filter (!gone ·)).map inherit }

end Sys2Proof.Machine
end

