-- ==== Sys2Proof/Machine/Ram.lean ====
section
/-! DEFINITION. Staging DRAM as bytes: its canonical form, the merge buffer, poisoned lines and the Poison List (11 R307, R323,
R326, R328 to R330). -/
namespace Sys2Proof.Machine

open Sys2Proof

/-- Bytes of the staging DRAM; an unlisted byte reads 0. -/
def ramRead : List Host.Cell → Nat → Byte
  | [], _ => 0
  | (a, v) :: t, k => if a = k then v else ramRead t k

/-- Write one byte, keeping the canonical form: addresses rising and no byte listed that reads 0. -/
def ramSet : List Host.Cell → Nat → Byte → List Host.Cell
  | [], k, v => if v = 0 then [] else [(k, v)]
  | (a, u) :: t, k, v =>
    if a < k then (a, u) :: ramSet t k v
    else if a = k then (if v = 0 then t else (k, v) :: t)
    else if v = 0 then (a, u) :: t else (k, v) :: (a, u) :: t

/-- Write bytes from an address on. -/
def ramWrite : List Host.Cell → Nat → List Byte → List Host.Cell
  | m, _, [] => m
  | m, k, b :: t => ramWrite (ramSet m k b) (k + 1) t

/-- `n` bytes from an address. -/
def ramBytes (m : List Host.Cell) (k n : Nat) : List Byte := (List.range n).map fun i => ramRead m (k + i)

/-- The line an address lies in. -/
def lineOf (k : Nat) : Nat := k / 128 * 128

/-- The area an address lies in (11 R308). -/
def State.areaOf (s : State) (k : Nat) : Option Nat :=
  (List.range 32).find? fun n =>
    let a := s.area n
    decide (a.base.toNat * 2 ^ 28 ≤ k ∧ k < (a.base.toNat + a.size.toNat) * 2 ^ 28)

/-! ### The Poison List (11 R326) -/

/-- Distance of a new poison from an entry it could widen. -/
def PoisonEnt.dist (e : PoisonEnt) (x : Nat) : Nat :=
  let u := if e.kind = 0 then 128 else 1
  if x < e.start then e.start - x else x + u - (e.start + u * e.count)

/-- Widen an entry over a new unit at `x`; an entry of kind 0 counts lines. -/
def PoisonEnt.widen (e : PoisonEnt) (x : Nat) : PoisonEnt :=
  let u := if e.kind = 0 then 128 else 1
  let lo := min e.start x
  let hi := max (e.start + u * e.count) (x + u)
  { e with coarse := true, start := lo, count := (hi - lo) / u, left := e.left + 1 }

/-- Enter one line or sector in the Poison List, or widen the nearest entry when the list is full; a new entry of a namespace
latches bit 8 of its functions' views (11 R326, 15 Table 15.9). -/
def State.addPoison (s : State) (e : PoisonEnt) : State :=
  if s.mem.plist.length < 65536 then
    let s := s.modMem fun m => { m with plist := m.plist ++ [{ e with id := m.plistNext, time := s.now }], plistNext := m.plistNext + 1 }
    if e.kind = 0 then s else s.raiseFns (s.ns e.nsid).attached 8
  else
    let near := (s.mem.plist.filter fun x => if e.kind = 0 then x.kind == 0 && x.area == e.area else x.kind != 0 && x.nsid == e.nsid)
    match near with
    | [] => (s.modMem fun m => { m with plCoarse := true }).raise 0x6AC
    | h :: t =>
      let b := t.foldl (fun b x => if x.dist e.start < b.dist e.start then x else b) h
      (s.modMem fun m =>
        { m with plCoarse := true, plist := m.plist.map fun x => if x.id = b.id then x.widen e.start else x }).raise 0x6AC

/-- A line of area `n` without a clean source takes the poison marker, an entry and its event; of a line of a transit window what
the failing bytes read as is not stated (11 R323). -/
def State.poisonLine (s : State) (n x : Nat) : State :=
  let s := s.modMem fun m => { m with poisoned := m.poisoned ++ [x], poisoncnt := m.poisoncnt + 1 }
  let s := (s.addPoison { kind := 0, area := n, start := x, count := 1, left := 1 }).raise (0x6C0 + n)
  if 12 ≤ n ∧ n ≤ 15 then
    { s with ram := ramWrite s.ram x ((List.range 128).map fun i => (Config.freeValue (s.fresh + i)).truncate 8), fresh := s.fresh + 128 }
  else s

/-- A whole-line write makes a poisoned line good: the marker goes, its entry's LEFT falls, and at 0 the entry goes (11 R329). -/
def State.clearLine (s : State) (x : Nat) : State :=
  if !s.mem.poisoned.contains x then s else
    let hit (e : PoisonEnt) : Bool := e.kind == 0 && decide (e.start ≤ x ∧ x < e.start + 128 * e.count)
    s.modMem fun m =>
      let l := m.plist.map fun e => if hit e then { e with left := e.left - 1 } else e
      { m with poisoned := m.poisoned.filter (· != x), fixedAt := m.fixedAt.put x s.now, plist := l.filter fun e => !(e.kind == 0 && e.left == 0) }

/-! ### The merge buffer (11 R328 to R330) -/

/-- A whole line is written: its merge entry is dropped. -/
def State.putLine (s : State) (x : Nat) (bs : List Byte) : State :=
  let s := s.modMem fun m => { m with merge := m.merge.filter (·.line != x) }
  { s.clearLine x with ram := ramWrite s.ram x bs }

/-- A merge entry is written out: a full mask as a whole line, a partial one merged into the line. Merged into a poisoned line,
or into one whose check fails (`ok` false), the line stays poisoned and the merge is counted (11 R329, R330). -/
def State.writeOut (s : State) (e : MergeEnt) (ok : Bool) : State :=
  if e.bytes.length = 128 then s.putLine e.line (e.bytes.map (·.2))
  else
    let s := s.modMem fun m => { m with merge := m.merge.filter (·.line != e.line) }
    let was := s.mem.poisoned.contains e.line
    let s := if ok || was then s else s.poisonLine ((s.areaOf e.line).getD 0) e.line
    let s := if ok && !was then s else s.modMem fun m => { m with mergepsn := m.mergepsn + 1 }
    { s with ram := e.bytes.foldl (fun m (i, b) => ramSet m (e.line + i) b) s.ram }

/-- Write out the merge entries of the lines of a range, before they are read (11 R328). -/
def State.settle (s : State) (k n : Nat) : State :=
  s.each (s.mem.merge.filter fun e => decide (k < e.line + 128 ∧ e.line < k + n)) fun s e => s.writeOut e true

/-- A narrow write joins the line's merge entry or takes one; the oldest goes when 32 are held, and a full mask goes at once
(11 R328). -/
def State.mergeWrite (s : State) (k : Nat) (bs : List Byte) : State :=
  let x := lineOf k
  let new := (bs.zipIdx).map fun (b, i) => (k - x + i, b)
  let join (t : Tab Byte) : Tab Byte := new.foldl (fun t (i, b) => t.put i b) t
  let s := if s.mem.merge.any (·.line == x) then
      s.modMem fun m => { m with merge := m.merge.map fun e => if e.line = x then { e with bytes := join e.bytes } else e }
    else
      let s := match s.mem.merge with
        | e :: _ => if 32 ≤ s.mem.merge.length then s.writeOut e true else s
        | [] => s
      s.modMem fun m => { m with merge := m.merge ++ [{ line := x, bytes := join [], at_ := s.now }] }
  match s.mem.merge.find? fun e => e.line == x && e.bytes.length == 128 with
  | some e => s.writeOut e true
  | none => s

/-- Bytes written to staging, line by line: whole lines at once, the rest through the merge buffer (04 R114). -/
def State.ramStore : Nat → State → Nat → List Byte → State
  | 0, s, _, _ => s
  | n + 1, s, k, bs =>
    match bs with
    | [] => s
    | _ =>
      let c := min (lineOf k + 128 - k) bs.length
      let s := if c = 128 then s.putLine k (bs.take 128) else s.mergeWrite k (bs.take c)
      State.ramStore n s (k + c) (bs.drop c)

/-- Accesses of requester channel `ch` in an area that allocates nothing miss the line cache (11 R313). -/
def State.missOn (s : State) (ch n : Nat) : State :=
  { s with cache := { s.cache with misses := Tab.upd (fun _ => 0) s.cache.misses ch (· + BitVec.ofNat 32 n) } }

/-- Lines a range touches. -/
def linesIn (k n : Nat) : Nat := if n = 0 then 0 else (lineOf (k + n - 1) - lineOf k) / 128 + 1

end Sys2Proof.Machine
end

