-- ==== Sys2Proof/Machine/Routine.lean ====
section
/-! DEFINITION. What becomes of a formatter's routine: gate and assist levels, assist energy, abandonment, and what is left of it (07 R194 to R197,
R203, R206, R208, R214). -/
namespace Sys2Proof.Machine

open Sys2Proof

/-- Does the opcode's routine write (07 Table 7.1)? -/
def writes (opc : Byte) : Bool := opc == 0x10 || opc == 0x11 || opc == 0x12 || opc == 0x13 || opc == 0x20

/-- Key of a head's calibration rows at a track and the running gait: recording zone and gait (06 R161, 07 R202, R208). -/
def State.calKey (s : State) (a track : Nat) : Nat := 4 * recZoneOf (s.act a).med.zones track + s.gaitNow (bayOf a)

/-! ### Assist drive and write gate (07 R203, R208, R214) -/

/-- ASST_LEAD in ns (07 Table 7.13). -/
def State.asstLead (s : State) : Nat := 10 * within 5 50 20 s.cfg.asstLead.toNat

/-- Time at the writer of one sector frame in ns: its 37,072 bits at WRATE (05 R144, 07 Table 7.4); a sector's share of the revolution where no rate is
known. -/
def State.frameNs (s : State) (a spt : Nat) : Nat :=
  let r := (s.act a).cwy.wrate.toNat
  if r = 0 then revNs (s.gaitNow (bayOf a)) / spt else 37072 * channelPs r / 8000

/-- Is the servo gate of actuator `a` over its heads now (06 R157)? -/
def State.overWedge (s : State) (a : Nat) : Bool := decide ((s.act a).cfe.gateFrom ≤ s.now ∧ s.now < (s.act a).cfe.gateTo)

/-- Is write gate open now: a routine writes and no servo wedge passes (07 R203)? -/
def State.gateOpen (s : State) (a : Nat) : Bool := (s.act a).fmt.gate && !(s.overWedge a)

/-- Piecewise-linear value of a rising table, none outside it. -/
def interpolate : List (Nat × Nat) → Nat → Option Nat
  | [], _ => none
  | [(x0, y0)], x => if x = x0 then some y0 else none
  | (x0, y0) :: (x1, y1) :: t, x =>
    if x0 ≤ x ∧ x ≤ x1 then some (if y0 ≤ y1 then y0 + (x - x0) * (y1 - y0) / (x1 - x0) else y0 - (x - x0) * (y0 - y1) / (x1 - x0))
    else interpolate ((x1, y1) :: t) x

/-- Energy in pJ of `t` ns at a drive current of `ua` µA: I × V(I) × t of a laser, V(I) by the calibration record's table, free where the table does not
reach; I² × Rosc × t of an STO with the resistance last measured (07 R214). -/
def HeadSt.drivePj (h : HeadSt) (sto : Bool) (ua t : Nat) : Nat :=
  if sto then ua * ua * h.rosc * t / 1000000000000 else ua * ((interpolate h.iv ua).getD (Config.ivOutside ua)) * t / 1000000

/-- Assist energy of a routine goes to its head, its domain, and its command or the device (07 R214, R215). -/
def State.payAssist (s : State) (a : Nat) (q : FmtCmd) (e : Nat) : State :=
  let s := (s.modHead a q.head fun x => { x with energy := x.energy + e }).modDom (domOf (bayOf a)) fun d => { d with assistPj := d.assistPj + e }
  if q.cmd = 0 then s.modAcc devAcc fun x => { x with eAsst := x.eAsst + e } else s.modCmd q.cmd fun c => { c with eAsst := c.eAsst + e }

/-- The assist command of a level leaves for a head, ahead of its time by the downstream latency (07 R202, R208). -/
def State.sendAssist (s : State) (a h : Nat) (lvl : AssistLevel) : State :=
  let x := s.head a h
  let code := match lvl with
    | .off => 0
    | .idle => x.idleCode
    | .write => x.code
  s.emit (.assist a h code lvl (s.act a).cwy.dlat)

/-- A write routine opens its gate, at write level ASST_LEAD before it; the calibration of the head's recording zone and gait is in force, and the first
sector uses the head's last good code (07 R203, R208, R209). -/
def State.openGate (s : State) (a : Nat) (q : FmtCmd) : State :=
  let k := s.calKey a q.track
  let s := s.modHead a q.head fun x =>
    let x := match x.asst.find k with
      | some r => { x with target := r.target, codeMin := r.codeMin, codeMax := r.codeMax, idleCode := r.idle, idleUa := r.idleUa }
      | none => x
    { x with code := x.lastGood }
  ((s.sendAssist a q.head .write).emit (.gate a true (s.act a).cwy.dlat)).modFmt a fun f => { f with assist := .write, gate := true }

/-- A write routine closes its gate and the drive takes a level; the routine's time that was not at write level was at idle bias (07 R203, R208, R214). -/
def State.closeGate (s : State) (a : Nat) (lvl : AssistLevel) : State :=
  let s := match (s.act a).fmt.running with
    | some r =>
      let q := r.req
      let t := s.now - r.startAt - r.lvl
      let x := s.head a q.head
      let s := s.modHead a q.head fun x => { x with idleNs := x.idleNs + t }
      (s.payAssist a q (x.drivePj (s.bay (bayOf a)).link.sto x.idleUa t)).sendAssist a q.head lvl
    | none => s
  let s := if (s.act a).fmt.gate then s.emit (.gate a false (s.act a).cwy.dlat) else s
  s.modFmt a fun f => { f with assist := lvl, gate := false }

/-- Across a servo wedge write gate closes, the assist goes to idle bias, and it is at write level again ASST_LEAD before the gate reopens (07 R203). -/
def State.crossWedge (s : State) (a : Nat) : State :=
  match (s.act a).fmt.running with
  | some r =>
    if (s.act a).fmt.gate then
      let lead := (s.act a).cwy.dlat
      let s := (((s.emit (.gate a false lead)).sendAssist a r.req.head .idle).sendAssist a r.req.head .write).emit (.gate a true lead)
      s.modFmt a fun f =>
        { f with running := some { r with leads := r.leads + 1 } }
    else s
  | none => s

/-! ### What is left of a routine (07 R196, R197) -/

/-- Does a formatter command serve plan operation `o`: its routine, its map intent, its squeeze check? -/
def FmtCmd.serves (q : FmtCmd) (o : PlanOp) : Bool :=
  q.cmd == o.cmd && q.opc != 2 && (q.cmd != 0 || q.pos == o.pos || (q.opc == 0x13 && !q.keys.isEmpty))

/-- What is left of a plan operation behind the last waymark of its routine (07 R196, R197). -/
def State.leftOf (s : State) (a : Nat) (r : Routine) (o : PlanOp) : PlanOp :=
  let pos := o.pos + r.done
  let p := s.placeOf a (pos / 65536) (pos % 65536)
  { o with pos := pos, count := o.count - r.done, keys := o.keys.drop r.done, track := p.track, head := p.head, angle := p.angle, spt := p.spt,
           pre := 0, mark := r.mark, prior := r.req.prior + r.done }

/-- What is left of a routine of the device's own (07 R197). -/
def State.leftRoutine (s : State) (a : Nat) (r : Routine) : Routine :=
  let q := r.req
  let pos := q.pos + r.done
  let p := s.placeOf a (pos / 65536) (pos % 65536)
  { r with done := 0, endAt := false, lvl := 0, leads := 1,
           req := { q with pos := pos, count := q.count - r.done, keys := q.keys.drop r.done, track := p.track, head := p.head, spt := p.spt,
                           mark := r.mark, prior := q.prior + r.done } }

/-- The quantum of the device's own that a routine ran in ends with the sectors its waymarks cover; what is left waits to restart (07 R197). -/
def State.cutQuantum (s : State) (a : Nat) (r : Routine) : State :=
  (s.modAdm a fun x =>
    { x with running := x.running.map fun o => if r.req.serves o then { o with count := r.done, keys := o.keys.take r.done } else o }).modFmt a
    fun f => { f with waiting := some (s.leftRoutine a r) }

/-! ### Abandonment and the squeeze check (07 R194, R204, R206, R213) -/

/-- The squeeze check that an abandoned routine needs, none where it needs none: a band write stopped by a write-inhibit toward the track before, or at a
missing or invalid wedge. It reads the sectors of the track before whose angles overlap the span from the last good wedge to now; the first track
of a band has none before it (07 R206). -/
def State.squeezeOf (s : State) (a : Nat) (r : Routine) (cause : Option Nat) (toward : Bool) : Option FmtCmd :=
  let q := r.req
  let t := (q.pos % 65536 + r.done) / q.spt
  if q.opc ≠ 0x11 ∨ !((cause == some 0 && toward) || cause == some 1) ∨ t = 0 then none
  else
    let rev := revNs (s.gaitNow (bayOf a))
    let st := rev / q.spt
    let good := (s.act a).loop.goodAt
    let at' := (good + (rev - (s.bay (bayOf a)).spin.phase0 % rev)) % rev
    let n := min q.spt ((at' % st + (s.now - good)) / st + 1)
    let ps := sortBy Nat.ble ((List.range n).map fun i => (t - 1) * q.spt + (at' / st + i) % q.spt)
    let pos := q.pos / 65536 * 65536 + ps.headD 0
    some { opc := 4, cmd := q.cmd, fn := q.fn, head := q.head, track := (s.placeOf a (pos / 65536) (pos % 65536)).track, pos := pos, count := n, spt := q.spt,
           gkind := 4, keys := ps.map (q.keys.headD 0 / 65536 * 65536 + ·) }

/-- A squeeze check is due: SQZ rises, and a command's runs in its own place of the plan, where it holds a decode slot (02 R38, 07 R206). -/
def State.wantSqueeze (s : State) (a : Nat) (r : Routine) (c : Option FmtCmd) : State :=
  match c with
  | none => s
  | some q =>
    let s := s.modFmt a fun f =>
      { f with sqz := true, sqzWait := true, sqzReq := some q, sqzBand := some r.req, queue := if q.cmd = 0 then f.queue else q :: f.queue }
    if q.cmd = 0 then s
    else s.modAdm a fun x => { x with running := x.running.map fun o => if r.req.serves o then { o with slot := true } else o }

/-- A write-inhibit that reaches a routine within a sector of the feedback fault that ended it is the cause it reports (07 R213). -/
def State.lateInhibit (s : State) (a : Nat) (cause : Option Nat) (toward : Bool) : State :=
  let f := (s.act a).fmt
  match f.stopped with
  | none => s
  | some r =>
    if cause.isNone ∨ r.winhCause.isSome ∨ !f.heldCode.getLsbD r.req.head ∨ f.stopAt + s.frameNs a r.req.spt < s.now then s
    else
      (s.modFmt a fun f =>
        { f with waiting := f.waiting.map fun w => { w with winhCause := cause, toward := toward }, stopped := some { r with winhCause := cause } }).wantSqueeze
        a r (s.squeezeOf a r cause toward)

/-- A write or calibration routine is abandoned: gate dropped, assist at idle bias, and it waits to restart (07 R194, R204, R206). -/
def State.abandonWrite (s : State) (a : Nat) (cause : Option Nat) (toward : Bool) : State :=
  match (s.act a).fmt.running with
  | none => s.lateInhibit a cause toward
  | some r =>
    if !(writes r.req.opc) then s
    else
      let sq := s.squeezeOf a r cause toward
      let w := { r with winhCause := cause, toward := toward, endAt := false, lvl := 0, leads := 1 }
      let s := (s.closeGate a .idle).modFmt a fun f =>
        { f with running := none, waiting := some w, stopped := some w, stopAt := s.now, abandon := f.abandon + 1 }
      let s := if r.req.cmd = 0 then s.cutQuantum a w else s
      s.wantSqueeze a r sq

/-! ### An operation put back (02 R51, 07 R197) -/

/-- Is `g` the pending operation that quantum `r` belongs to? -/
def GrazeOp.owns (g : GrazeOp) (r : PlanOp) : Bool :=
  g.order == r.order && g.again == r.again && g.step == r.step && (g.order < 13 || g.ref == r.ref)
    && (if g.again then r.keys.contains g.key else g.pos + g.done == r.pos && g.isRead == r.read)

/-- The running operation of an actuator is stopped and its routine with it. A command's goes back to the head of the plan with what is left of it; of a
quantum of the device's own what waymarks cover is done (07 R194, R197). -/
def State.putBack (s : State) (a : Nat) : State :=
  match (s.act a).adm.running with
  | none => s
  | some o =>
    let s := match (s.act a).fmt.running.filter (·.req.serves o) with
      | some r => if writes r.req.opc then s.abandonWrite a none false
        else s.modFmt a fun f => { f with running := none, abandon := f.abandon + 1 }
      | none => s
    let f := (s.act a).fmt
    let left := match f.waiting.filter fun r => r.req.cmd != 0 && r.req.serves o with
      | some r => s.leftOf a r o
      | none => o
    let n := if o.read || f.queue.any (·.serves o) then 0 else (((s.act a).adm.running).map (·.count)).getD 0
    let s := s.modFmt a fun f =>
      { f with queue := f.queue.filter (!·.serves o), waiting := f.waiting.filter fun r => r.req.cmd == 0 || !r.req.serves o }
    let s := if o.cmd ≠ 0 then s
      else s.modGraze a fun g => { g with pending := g.pending.map fun p => if p.owns o then { p with done := p.done + n } else p }
    s.modAdm a fun x => { x with running := none, queue := if o.cmd = 0 then x.queue else left :: x.queue }

end Sys2Proof.Machine
end

