-- ==== Sys2Proof/Machine/Complete.lean ====
section
/-! DEFINITION. Ending a command: status codes, the completion entry, posting, holding, and what an end undoes (03). -/
namespace Sys2Proof.Machine

/-! ### Status codes (03 Table 3.8) -/

def Sts.success : Nat := 0x0000
def Sts.notAdmittedDeadline : Nat := 0x0101
def Sts.ledgerFull : Nat := 0x0102
def Sts.notAdmittedPower : Nat := 0x0103
def Sts.lengthOutOfRange : Nat := 0x0201
def Sts.bufferTooSmall : Nat := 0x0202
def Sts.invalidField : Nat := 0x0203
def Sts.lbaOutOfRange : Nat := 0x0204
def Sts.hostDataError : Nat := 0x0205
def Sts.unrecoveredInDeadline : Nat := 0x0301
def Sts.unrecovered : Nat := 0x0302
def Sts.dataPoisoned : Nat := 0x0303
def Sts.abortedByHost : Nat := 0x0401
def Sts.abortedByReset : Nat := 0x0402
def Sts.abortedBySanitize : Nat := 0x0403
def Sts.abortedByFlushFailure : Nat := 0x0404
def Sts.lateHostDisabled : Nat := 0x0501
def Sts.zoneState : Nat := 0x0601
def Sts.writePointerMismatch : Nat := 0x0602
def Sts.zoneBoundary : Nat := 0x0603
def Sts.bayRemoved : Nat := 0x0701
def Sts.namespaceNotReady : Nat := 0x0702
def Sts.thermalAbort : Nat := 0x0801
def Sts.keyNotLoaded : Nat := 0x0901

/-! ### The completion entry (03 Table 3.6) -/

/-- What a completion entry says, PHASE and the time base apart. -/
structure Cpl where
  /-- TAG -/
  tag : Word
  /-- STATUS -/
  status : Nat
  /-- SQID -/
  sq : Nat
  /-- CONT -/
  cont : Bool := false
  /-- MULTI -/
  multi : Bool := false
  /-- admission time, device time -/
  adm : Nat
  /-- completion device time -/
  cpl : Nat
  /-- ACT -/
  act : Nat := 0xFF
  /-- ITER -/
  iter : Nat := 0
  /-- SQHD -/
  sqhd : Nat
  /-- ENERGY in µJ -/
  energy : Nat := 0
  /-- RESULT -/
  result : Nat := 0
  deriving DecidableEq, Repr

/-- An offset from a CQ's time base, mod 2^48 (03 R77). -/
def offset48 (t base : Nat) : Nat := (t + (2 ^ 48 - base % 2 ^ 48)) % 2 ^ 48

/-- The eight words of a completion entry (03 Table 3.6). -/
def Cpl.words (c : Cpl) (phase : Bool) (base : Nat) : List Word :=
  let a := offset48 c.adm base
  let t := offset48 c.cpl base
  [c.tag,
   reg32 (c.status % 2 ^ 16 + at_ 16 (c.sq % 64) + at_ 22 (bit c.cont) + at_ 23 (bit c.multi) + at_ 31 (bit phase)),
   reg32 (a % 2 ^ 32),
   reg32 (a / 2 ^ 32 + at_ 16 (t % 2 ^ 16)),
   reg32 (t / 2 ^ 16),
   reg32 (c.act % 256 + at_ 8 (c.iter % 256) + at_ 16 (c.sqhd % 2 ^ 16)),
   reg32 (min c.energy 0xFFFFFFFF),
   reg32 c.result]

/-- Write a completion entry to the tail of a CQ and advance the tail; PHASE inverts on each wrap, and the slot reserved at
the fetch is used (03 R63, R75). A CQ that no longer exists takes nothing (15 R394). -/
def State.postEntry (s : State) (f q : Nat) (c : Cpl) : State :=
  let k := 64 * f + q
  let x := s.cq k
  if x.size = 0 then s else
    (s.emit (.completion f q x.tail (c.words x.phase x.timeBase))).setCq k
      { x with tail := (x.tail + 1) % x.size, phase := if x.tail + 1 = x.size then !x.phase else x.phase,
               reserved := x.reserved - 1 }

/-- Give back the CQ slot reserved for a command that posts nothing; a queue that is gone has none (03 R63, R85). -/
def State.releaseSlot (s : State) (f q : Nat) : State :=
  if (s.cq (64 * f + q)).size = 0 then s else s.modCq (64 * f + q) fun x => { x with reserved := x.reserved - 1 }

/-- ACT of a completion: for a command on actuator plans the actuator whose part finished last, for a refusal that of the first failing
part, for a host-port model 0xFF. A command of several parts that ends with none finished names its first actuator (DESIGN CHOICE: 03
R76 does not say) (02 R44, 03 R76). -/
def Cmd.actField (c : Cmd) : Nat :=
  if c.hostModel then 0xFF
  else if !c.wasAdm then c.lastAct.getD 0xFF
  else
    let last := (c.parts.filter (·.done)).foldl (fun m (p : Part) => match m with
      | none => some p
      | some x => if x.fin ≤ p.fin then some p else some x) (none : Option Part)
    match last, c.parts with
    | some p, _ => p.act
    | none, p :: _ => p.act
    | none, [] => c.lastAct.getD 0xFF

/-- The completion of ledger entry `c`. -/
def Cmd.cpl (c : Cmd) (now status result : Nat) : Cpl :=
  { tag := c.tag, status := status, sq := c.sq, cont := c.contBit, multi := decide (1 < c.parts.length),
    adm := c.arrival, cpl := now, act := c.actField, iter := c.iter, sqhd := c.sqhd,
    energy := (c.eSpin + c.eAsst + c.eChan + c.eDec) / 1000000, result := result }

/-- Does an ending command move data (15 Table 15.11, SECT)? -/
def Cmd.movesData (c : Cmd) : Bool := c.op = 1 || c.op = 2 || c.op = 3 || c.op = 0x0B

/-- The tally takes an ended command's quantities (15 R404, Table 15.11). -/
def State.tallyEnd (s : State) (c : Cmd) (status : Nat) : State :=
  s.charge c.fn c.nsid fun x =>
    if c.wasAdm then
      { x with cmds := Tab.upd (fun _ => 0) x.cmds c.dc (· + 1),
               sect := if c.movesData then Tab.upd (fun _ => 0) x.sect c.dc (· + (c.delivered.length + c.committed)) else x.sect,
               busyNs := x.busyNs + c.busyNs, iter := x.iter + c.iters,
               fails := if status = Sts.unrecoveredInDeadline then satInc16 x.fails else x.fails,
               eSpin := x.eSpin + c.eSpin, eAsst := x.eAsst + c.eAsst, eChan := x.eChan + c.eChan, eDec := x.eDec + c.eDec }
    else
      { x with refDl := if status = Sts.notAdmittedDeadline then x.refDl + 1 else x.refDl,
               refLdg := if status = Sts.ledgerFull then satInc16 x.refLdg else x.refLdg,
               refPwr := if status = Sts.notAdmittedPower then satInc16 x.refPwr else x.refPwr }

/-- Take a command out of the ledger. -/
def State.dropCmd (s : State) (id : Nat) : State := { s with ledger := s.ledger.filter fun c => c.id != id }

/-- The staged sectors of a write whose completion has been posted: a FLUSH may cover them, or what has superseded them, from now on (03
R84). -/
def State.ackStaged (s : State) (id : Nat) : State :=
  let heir (h : Heir) : Heir := if h.cmd = id then { h with cmd := 0, acked := some s.now } else h
  { s with stage := { s.stage with wslots := s.stage.wslots.map fun w =>
      let w := { w with heirs := w.heirs.map heir }
      if w.cmd = id then { w with cmd := 0, acked := if w.inLand then w.acked else some s.now } else w } }

/-- Post the completion of ledger entry `c`, and end the entry; a command whose completion queue is gone posts nothing (02 R33, 03 R72, 04
R122). -/
def State.postCmd (s : State) (c : Cmd) (status result : Nat) : State :=
  let s := s.tallyEnd c status
  let s := if c.cqGone then s else s.postEntry c.fn c.cq (c.cpl s.now status result)
  (s.ackStaged c.id).dropCmd c.id

/-! ### Ending a command -/

/-- Runs of consecutive numbers in a rising list: first and length. -/
def runs : List Nat → List (Nat × Nat)
  | [] => []
  | x :: t =>
    match runs t with
    | (y, n) :: r => if x + 1 = y then (x, n + 1) :: r else (x, 1) :: (y, n) :: r
    | [] => [(x, 1)]

/-- LBAs of a read not delivered. -/
def Cmd.missing (c : Cmd) : List Nat := ((List.range c.len).map (c.slba + ·)).filter fun l => !c.delivered.contains l

/-- Background recovery of a Recovery List entry is queued as grazing, sector by sector from the first step of rung 4 (02 R50, 06
R182, 12 Table 12.1, order 5). -/
def State.queueRecovery (s : State) (e : RecEntry) : State :=
  s.each ((List.range e.count).map (e.slba + ·)) fun s l =>
    let (a, r, pos) := (s.ns e.nsid).locate l
    s.modGraze a fun g =>
      { g with pending := g.pending ++ [{ order := 5, pos := r * 65536 + pos, key := e.nsid * 2 ^ 48 + l, again := true, step := 1,
                                          count := 8, ref := e.id.toNat }] }

/-- Recovery List entries for the unresolved sectors of a read that asked for continuation: all of them, or none when they
do not all fit (02 R50, 03 R91). -/
def State.recover (s : State) (c : Cmd) : State × Option Nat :=
  let rs := runs c.missing
  let mine := (s.recs.filter fun r => r.fn == c.fn).length
  if !c.cont || c.op ≠ 1 || rs.isEmpty || s.recs.length + rs.length > 8192 || mine + rs.length > 256 then (s, none)
  else
    let es := (rs.zipIdx).map fun ((l, n), i) =>
      { id := s.recNext + BitVec.ofNat 16 i, fn := c.fn, nsid := c.nsid, tag := c.tag, slba := l, count := n, sq := c.sq,
        time := s.now, born := s.now : RecEntry }
    let s' := { s with recs := s.recs ++ es, recNext := s.recNext + BitVec.ofNat 16 rs.length }
    (s'.each es fun s e => s.queueRecovery e, some s.recNext.toNat)

/-- An ended command's routines: waiting ones go, a replay is abandoned at once, a running one ends at its next sector boundary or
waymark (04 R122, 07 R194). -/
def Fmt.stop (f : Fmt) (id : Nat) : Fmt :=
  { f with queue := f.queue.filter (·.cmd != id), waiting := f.waiting.filter fun q => q.req.cmd != id,
           running := f.running.bind fun q =>
             if q.req.cmd ≠ id then some q else if q.req.opc = 2 then none else some { q with endAt := true },
           abandon := if f.running.any (fun q => q.req.cmd == id && q.req.opc == 2) then f.abandon + 1 else f.abandon }

/-- Largest number of iterations any attempt of a command has run so far (01 R23). -/
def State.iterOf (s : State) (c : Cmd) : Nat := ((s.pool.attempts.filter (·.cmd == c.id)).map (·.iters)).foldl max c.iter

/-- Attempts of an ended command leave the pool, and the engines that ran them are free (06 R177). -/
def State.dropAttempts (s : State) (id : Nat) : State :=
  let gone := (s.pool.attempts.filter (·.cmd == id)).map (·.id)
  if gone.isEmpty then s
  else
    { s with pool := { s.pool with attempts := s.pool.attempts.filter (·.cmd != id) },
             engines := s.engines.map fun r => (r.1, if r.2.job.any gone.contains then { r.2 with job := none, yields := false } else r.2) }

/-- What an ended command leaves behind in plans, staging, the pool and the channel: its plan entries and rungs go, its
reservations are given back, and the sectors it did not commit are dropped (02 R45, 03 R83, 05 R139). -/
def State.release (s : State) (c : Cmd) (ok : Bool) : State :=
  let s := s.each c.parts fun s p => s.modSpin (bayOf p.act) fun x => { x with lastCmd := s.now }
  let s := s.each c.parts fun s p => s.unplan p.act c.id
  let s := s.each c.parts fun s p => s.modAct p.act fun x =>
    { x with med := { x.med with landing := x.med.landing.filter fun l => !(l.cmd == c.id && l.st == .reserved) },
             cfe := { x.cfe with retained := x.cfe.retained.filter (·.cmd != c.id), slots := x.cfe.slots.filter (·.cmd != c.id),
                                 replayQ := x.cfe.replayQ.filter (·.cmd != c.id) },
             fmt := x.fmt.stop c.id }
  { s.dropAttempts c.id with
    stage := { s.stage with
      wres := s.stage.wres.filter (·.cmd != c.id),
      wslots := if ok then s.stage.wslots else s.stage.wslots.filter (·.cmd != c.id),
      rslots := s.stage.rslots.map fun r => { r with pins := r.pins.filter (· != c.id) } },
    recs := s.recs.map fun r => { r with readers := r.readers.filter (· != c.id) } }

/-- Post a command whose final status is fixed, or hold it while its function's Bus Master Enable is clear or the function is in D3hot; a
silent one goes without posting. Nothing is posted from a power-loss declaration or the start of a device-level reset on (02 R57, 03
R85, 04 R121, 05 R141, 16 R419). -/
def State.postOrHold (s : State) (c : Cmd) (status result : Nat) : State :=
  let f := s.fn c.fn
  let h : Cmd := { c with phase := .heldCpl, status := some status, result := result, promised := 0, early := false }
  if s.boot.postStop then s.modCmd c.id fun _ => h
  else if c.silent then
    let s := s.tallyEnd c status
    (if c.cqGone then s else s.releaseSlot c.fn c.cq).dropCmd c.id
  else if f.bme && !f.d3 then s.postCmd c status result
  else (s.modCmd c.id fun _ => h).modFn c.fn fun x => { x with held := x.held ++ [c.id] }

/-- End one command with its first final status. A thermal abort is posted when device time moves on: a bay removal detected at the same
device time takes its place (01 R26, 13 R366). -/
def State.endCmd (s : State) (id status result : Nat) : State :=
  match s.cmd? id with
  | none => s
  | some c =>
    if c.phase = .heldCpl then s else
      let c := { c with iter := s.iterOf c }
      let s := s.release c (status = Sts.success || status = Sts.dataPoisoned)
      let (s, rec?) := if status = Sts.unrecoveredInDeadline then s.recover c else (s, none)
      let c := match rec? with | some _ => { c with contBit := true } | none => c
      let result := match rec? with | some n => n | none => result
      let s := if c.op = 1 then s.pruneStaged else s
      if status = Sts.thermalAbort && !s.boot.postStop then
        s.modCmd id fun _ => { c with phase := .heldCpl, status := some status, result := result, promised := 0, early := true }
      else s.postOrHold c status result

/-- Device time has moved on: thermal aborts of the time before are posted (01 R26, 13 R366). -/
def State.postEarly (s : State) : State :=
  s.each (s.ledger.filter (·.early)) fun s c => s.postOrHold c (c.status.getD 0) c.result

/-- A bay's removal takes the place of thermal aborts of the same device time on it (01 R26). -/
def State.removedFirst (s : State) (b : Nat) : State :=
  s.mapCmds fun c => if c.early && c.parts.any (fun p => bayOf p.act == b) then { c with status := some Sts.bayRemoved } else c

/-- Entries admitted on the same zone after `c`, with no final status yet. -/
def State.behind (s : State) (c : Cmd) : List Cmd :=
  s.ledger.filter fun d => c.id < d.id && d.wasAdm && d.phase == .admitted && d.status.isNone && d.nsid == c.nsid && d.slba / 65536 == c.slba / 65536

/-- Fix the final status of the commands of a list that have none yet; they end with it. -/
def State.fixStatus (s : State) (ids : List Nat) (status : Nat) : State :=
  s.mapCmds fun c => if ids.contains c.id ∧ c.phase ≠ .heldCpl ∧ c.status.isNone then { c with status := some status } else c

/-- FINISH and RESET actions of a list, in order of admission. -/
def zoneActs (cs : List Cmd) : List Cmd := cs.filter fun d => d.op == 4 && (d.act4 == 3 || d.act4 == 4)

/-- Admitted write pointer a FINISH or RESET gives its zone (05 R131). -/
def Cmd.actWp (c : Cmd) : Nat := if c.act4 = 3 then 65536 else 0

/-- What a FINISH or RESET would restore if it failed, once nothing stands between it and write pointer `w`: a FULL zone reopens below its end. -/
def State.restores (s : State) (id w : Nat) : State :=
  s.modCmd id fun d => { d with preWp := w, preAdm := if d.preAdm = .full ∧ w < 65536 then .implicitOpen else d.preAdm }

/-- A zoned write that failed: the admitted write pointer returns behind its last committed sector, a FULL zone reopens, and
every later write or append on the zone is to end with WRITE_POINTER_MISMATCH. A FINISH or RESET admitted after it holds the admitted state:
the pointer it gives stands, and the returned one is what its own failure restores (03 R82, 05 R131, R133). -/
def State.failZoneWrite (s : State) (c : Cmd) : State :=
  let later := s.behind c
  let w := c.slba % 65536 + c.committed
  let acts := zoneActs later
  let s := s.each (acts.zip (w :: acts.map Cmd.actWp)) fun s r => s.restores r.1.id r.2
  let wp := ((acts.getLast?).map Cmd.actWp).getD w
  let s := s.modZone (zoneKey c.nsid c.slba) fun z => { z with admWp := wp, adm := if z.adm = .full ∧ wp < 65536 then .implicitOpen else z.adm }
  s.fixStatus ((later.filter fun d => d.op == 2 || d.op == 3).map (·.id)) Sts.writePointerMismatch

/-- A FINISH or RESET that failed: the zone's admitted state returns to the committed one, or to what the writes and actions still under way
ahead of it give; an OPEN or CLOSE admitted after it keeps its condition; later writes, appends, FINISHes and RESETs on the zone are
to end (05 R131). -/
def State.failZoneAction (s : State) (c : Cmd) : State :=
  let k := zoneKey c.nsid c.slba
  let first := !(s.ledger.any fun d => d.id < c.id && d.wasAdm && d.phase == .admitted && d.nsid == c.nsid && d.slba / 65536 == c.slba / 65536
    && (d.op == 2 || d.op == 3 || d.op == 4))
  let wp := if first then (s.zone k).comWp else c.preWp
  let adm := if first then (s.zone k).com else c.preAdm
  let st : ZState :=
    if 65536 ≤ wp then .full
    else if c.openCond = 1 then .explicitOpen
    else if c.openCond = 2 then (if wp = 0 then .empty else .closed)
    else adm
  let later := s.behind c
  let s := s.modZone k fun z => { z with admWp := wp, adm := st }
  (s.fixStatus ((later.filter fun d => d.op == 2 || d.op == 3).map (·.id)) Sts.writePointerMismatch).fixStatus ((zoneActs later).map (·.id))
    Sts.zoneState

/-- What a command that ends short of its effect does to its zone (03 R82, 05 R131). -/
def State.undoZone (s : State) (c : Cmd) : State :=
  if !c.wasAdm || !(s.ns c.nsid).zoned then s
  else if (c.op = 2 ∨ c.op = 3) ∧ c.committed < c.len then s.failZoneWrite c
  else if c.op = 4 ∧ (c.act4 = 3 ∨ c.act4 = 4) then s.failZoneAction c
  else s

/-! ### The deadline watch (02 R48) -/

/-- Actuators with an unfinished part of a command. -/
def State.unfinishedActs (s : State) (c : Cmd) : List Nat :=
  if c.op = 8 then ((c.covered.map fun k => s.actOf (k / 2 ^ 48) (k % 2 ^ 48))).eraseDups
  else (c.parts.filter fun p => !p.done).map (·.act)

/-- Has the cut-off of an admitted command, 20 µs before its deadline, come while its work is unfinished (02 R48)? -/
def State.pastCutoff (s : State) (c : Cmd) : Bool :=
  c.phase == .admitted && c.status.isNone && c.deadline.any fun d => decide (d ≤ s.now + 20000)

/-- The cut-off of a command: each actuator with an unfinished part counts it and latches its event, or its port's event latches; its final
status is UNRECOVERED_IN_DEADLINE (02 R48). -/
def State.cutOffs (s : State) (c : Cmd) : State :=
  let s := if c.hostModel then s.raise (portEvt (portOf c.fn) 15)
    else s.each (s.unfinishedActs c) fun s a => (s.modAdm a fun x => { x with cutoff := x.cutoff + 1 }).raise (actEvt a 7)
  s.fixStatus [c.id] Sts.unrecoveredInDeadline

/-! ### Ending commands together -/

/-- Does a status end a command with its effect? -/
def endsWhole (status : Nat) : Bool := status == Sts.success

/-- Every command of a list that has not ended ends, with one status each, or by its cut-off where that came first; what they leave undone on
their zones is undone from the last to the first, and the commands this fails end with them. Completions are posted in ledger
arrival order (02 R48; 03 R76, R82, R83; 05 R131). -/
def State.endAll (s : State) (l : List (Nat × Nat × Nat)) : State :=
  let s := s.each l fun s r => match s.cmd? r.1 with
    | none => s
    | some c =>
      if c.phase = .heldCpl ∨ c.status.isSome then s
      else if s.pastCutoff c then s.cutOffs c
      else (s.fixStatus [c.id] r.2.1).modCmd c.id fun x => { x with result := r.2.2 }
  let mine := l.map (·.1)
  let s := s.each ((s.ledger.filter fun c => mine.contains c.id && c.phase != .heldCpl && !(endsWhole (c.status.getD 0))).reverse) State.undoZone
  s.each (s.ledger.filter fun c => c.phase != .heldCpl && c.status.isSome) fun s c => s.endCmd c.id (c.status.getD 0) c.result

/-! ### Writes whose data are in staging (01 R18; 03 R81, R82; 05 R131) -/

/-- Is it the turn of a STAGED write to commit: its data are in staging, no earlier STAGED write that it overlaps still fetches, and, in a zone, every write, append, FINISH and RESET admitted on the
zone before it has ended (03 R81, R82; 05 R131)? -/
def State.mayCommit (s : State) (c : Cmd) : Bool :=
  c.fetched && !c.waymark && c.phase == .admitted && c.status.isNone && !c.dur && c.hostModel && (c.op == 2 || c.op == 3)
    && !(s.ledger.any fun d => d.id < c.id && d.hostModel && d.phase == .admitted && d.status.isNone && (d.op == 2 || d.op == 3) && overlaps c d)
    && (!(s.ns c.nsid).zoned || !(s.ledger.any fun d => d.id < c.id && d.phase == .admitted && d.nsid == c.nsid && d.slba / 65536 == c.slba / 65536
      && (d.op == 2 || d.op == 3 || (d.op == 4 && (d.act4 == 3 || d.act4 == 4)))))

/-- Commit a STAGED write in staging and end it: SUCCESS, for an append with its sector offset, or DATA_POISONED (01 R18, 03 Table 3.7). -/
def State.commitStaged (s : State) (c : Cmd) : State :=
  if s.pastCutoff c then s.endAll [(c.id, Sts.unrecoveredInDeadline, 0)]
  else
    let s := s.modCmd c.id fun x => { x with waymark := true, committed := c.len - c.unresolved.length }
    let s := s.each (((List.range c.len).map (c.slba + ·)).filter fun l => !c.unresolved.contains l) fun s l => s.writeCommitted c.nsid l
    let s := s.pruneStaged
    if c.unresolved.isEmpty then s.endAll [(c.id, Sts.success, if c.op = 3 then c.slba % 65536 else 0)]
    else s.endAll [(c.id, Sts.dataPoisoned, c.unresolved.length)]

/-- Staged writes whose turn has come commit, in arrival order. -/
def State.drain (s : State) : State :=
  s.each ((s.ledger.filter fun c => c.fetched && !c.waymark && !c.dur && (c.op == 2 || c.op == 3)).map (·.id)) fun s i =>
    match s.cmd? i with
    | none => s
    | some c => if s.mayCommit c then s.commitStaged c else s

/-- End a command, with what its end does to its zone and to the writes that waited for it. -/
def State.finish (s : State) (id status result : Nat) : State := (s.endAll [(id, status, result)]).drain

/-- End every command of a list with one status. -/
def State.finishAll (s : State) (ids : List Nat) (status : Nat) : State := (s.endAll (ids.map fun i => (i, status, 0))).drain

/-- The cut-off of a command, if it has come. -/
def State.cutOff (s : State) (id : Nat) : State :=
  match s.cmd? id with
  | none => s
  | some c => if s.pastCutoff c then s.finish id Sts.unrecoveredInDeadline 0 else s

/-- A capacity loss: re-plan, then end every command that no longer passes condition 1 of R40 (02 R51). -/
def State.capacityLoss (s : State) (a : Nat) : State :=
  let s := s.replan a
  let late := ((s.act a).adm.queue.filter fun o => o.promised && decide (o.milestone < o.finish)).map (·.cmd)
  s.finishAll late Sts.unrecoveredInDeadline

/-- Admitted commands with an unfinished part on actuator `a`, in arrival order. -/
def State.admittedOn (s : State) (a : Nat) : List Nat :=
  (s.ledger.filter fun c => c.phase == .admitted && !c.hostModel && c.parts.any fun p => p.act == a && !p.done).map (·.id)

/-- An actuator goes out of service. What ran stands at the head of its plan again. With a time `back` by which the recovery that the spec
gives ends, the plan counts the actuator out to then and the commands that still pass condition 1 of R40 keep their places; with none, no
DC0 to DC6 command can finish and each ends at once. Bulk commands and a planned pause wait (01 R25; 02 R34, R51). -/
def State.serviceLost (s : State) (a : Nat) (back : Option Nat) : State :=
  let s := (s.putBack a).modAdm a fun x => { x with offline := true, outUntil := back.getD 0 }
  match back with
  | some _ => s.capacityLoss a
  | none =>
    let s := s.finishAll ((s.admittedOn a).filter fun i => (s.cmd? i).any (·.dc != 7)) Sts.unrecoveredInDeadline
    s.modAdm a fun x => { x with queue := x.queue.filter fun o => o.kind == .pause || (o.cmd != 0 && o.dc == 7) }

end Sys2Proof.Machine
end

