-- ==== Sys2Proof/Machine/Host.lean ====
section
/-! DEFINITION. Queues, doorbells, fetch and the checks at fetch (03). -/
namespace Sys2Proof.Machine

open Sys2Proof

/-! ### Doorbells (03 R64, R65) -/

/-- Entries from `h` up to `t` in a ring of `n`. -/
def ringDist (n h t : Nat) : Nat := (t + n - h) % n

/-- Why an SQ doorbell write is ignored, by cause of QH_ERRLOG; `none`: accepted (03 R65, Table 3.12). -/
def Sq.doorbellCause (x : Sq) (i : Nat) : Option Nat :=
  if x.size = 0 then some 4 else if x.size ≤ i then some 1
  else if ringDist x.size x.head i < ringDist x.size x.head x.tail then some 6 else none

/-- Why a CQ doorbell write is ignored (03 R65, Table 3.12). -/
def Cq.doorbellCause (x : Cq) (i : Nat) : Option Nat :=
  if x.size = 0 then some 4 else if x.size ≤ i then some 2
  else if ringDist x.size x.head x.tail < ringDist x.size x.head i then some 3 else none

/-- A write of index `i` to the doorbell of SQ `q` of function `f`. -/
def State.ringSq (s : State) (f q i : Nat) : State :=
  match (s.sq (64 * f + q)).doorbellCause i with
  | none => s.modSq (64 * f + q) fun x => { x with tail := i }
  | some c => s.logQueue f c false q

/-- A write of index `i` to the doorbell of CQ `q` of function `f`. -/
def State.ringCq (s : State) (f q i : Nat) : State :=
  match (s.cq (64 * f + q)).doorbellCause i with
  | none => s.modCq (64 * f + q) fun x => { x with head := i }
  | some c => s.logQueue f c true q

/-- SQ_DOORBELL: the low 4 bytes of an SQ doorbell take a new tail; a write of the upper half is ignored (03 R64, R65). -/
def execSqDoorbell (f : FnId) (q : Fin 64) (upper : Bool) (val : Word) (s : State) : Host.Outcome State Fault Refusal :=
  .next <| s.bar0 f.val true fun s => if upper || s.boot.trailhead then s else s.ringSq f.val q.val (val.toNat % 65536)

/-- CQ_DOORBELL: the low 4 bytes of a CQ doorbell take a new head; a write of the upper half is ignored (03 R64, R65). -/
def execCqDoorbell (f : FnId) (q : Fin 64) (upper : Bool) (val : Word) (s : State) : Host.Outcome State Fault Refusal :=
  .next <| s.bar0 f.val true fun s => if upper || s.boot.trailhead then s else s.ringCq f.val q.val (val.toNat % 65536)

/-! ### Fetch (03 R63, R66, R67) -/

/-- Completions a CQ still has room to reserve: it holds at most N − 1 the host has not released (03 R63). -/
def Cq.room (x : Cq) : Nat := x.size - 1 - (ringDist x.size x.head x.tail + x.reserved)

/-- Has SQ `k` an entry the Queue Hub may fetch now? -/
def State.fetchable (s : State) (k : Nat) : Bool :=
  let x := s.sq k
  let f := s.fn (k / 64)
  x.size != 0 && !x.stopped && !x.deleting && x.head != x.tail && decide (0 < (s.cq (k / 64 * 64 + x.cq)).room)
    && f.enabled && f.bme && !f.d3 && s.boot.running && !s.boot.postStop

/-- The SQ of port `p` served next: the present one while its turn of 8 entries lasts, else the next in number order with an
entry to fetch (03 R66). -/
def State.nextSq (s : State) (p : Nat) : Option Nat :=
  let ks := (s.sqs.map (·.1)).filter fun k => k / 4096 == p && s.fetchable k
  let x := s.port p
  if 0 < x.rrLeft ∧ x.rrNext ∈ ks then some x.rrNext
  else match ks.find? (x.rrNext < ·) with
    | some k => some k
    | none => ks.head?

/-- SUBMISSION_FETCH_ISSUE: with a slot of the bound CQ reserved, the read of the next SQ entry of port `p` is issued; with no
SQ to serve, nothing happens (03 R63, R66). -/
def execSubmissionFetchIssue (p : PortId) (s : State) : Host.Outcome State Fault Refusal :=
  .next <| match s.nextSq p.val with
  | none => s
  | some k =>
    let x := s.sq k
    let s := s.modPort p.val fun y => { y with rrNext := k, rrLeft := if 0 < y.rrLeft ∧ y.rrNext = k then y.rrLeft - 1 else 7 }
    let s := s.modSq k fun y => { y with head := (y.head + 1) % y.size, fetching := y.fetching + 1 }
    let s := s.modCq (k / 64 * 64 + x.cq) fun y => { y with reserved := y.reserved + 1 }
    s.emit (.hostRead (k / 64) (x.base + 64 * x.head) 64 (s.fn (k / 64)).relaxed)

/-- SQ_FETCH_ERROR: a fetch read that times out, or whose completion is poisoned or in error, stops its SQ, gives back its CQ slot
and is logged as a queue error and as a port's completion fault (03 R67, 04 R112). -/
def execSqFetchError (f : FnId) (q : Fin 64) (timeout : Bool) (s : State) : Host.Outcome State Fault Refusal :=
  let k := 64 * f.val + q.val
  .next <| if (s.sq k).fetching = 0 then s else
    let c := (s.sq k).cq
    let s := s.modSq k fun x => { x with stopped := true, fetching := x.fetching - 1 }
    let s := ((s.releaseSlot f.val c).logQueue f.val 5 false q.val).raiseFn f.val 2
    if timeout then
      ((s.logPort f.val 6).modPort (portOf f.val) fun p => { p with ctoCnt := p.ctoCnt + 1 }).portFault f.val 7
    else (s.logPort f.val 7).portFault f.val 8

/-! ### The submission entry (03 Table 3.2) -/

/-- The fields of a submission entry. -/
structure Entry where
  opc : Nat
  dur : Bool
  cont : Bool
  sgl : Bool
  win : Bool
  nsid : Nat
  tag : Word
  slba : Nat
  len : Nat
  reldl : Nat
  dc : Nat
  dptr : Nat
  dcnt : Nat
  arg0 : Nat
  arg1 : Nat
  /-- every reserved bit is 0 -/
  rsv : Bool
  deriving DecidableEq, Repr

/-- Take the fields out of the 64 bytes, byte 0 in bits 7:0. -/
def Entry.of (e : BitVec 512) : Entry :=
  let v := e.toNat
  { opc := bits v 0 8, dur := bits v 8 1 = 1, cont := bits v 9 1 = 1, sgl := bits v 10 1 = 1, win := bits v 11 1 = 1,
    nsid := bits v 16 16, tag := reg32 (bits v 32 32), slba := bits v 64 48, len := bits v 128 32,
    reldl := bits v 160 24, dc := bits v 184 3, dptr := bits v 192 64, dcnt := bits v 256 32,
    arg0 := bits v 288 32, arg1 := bits v 320 64,
    rsv := bits v 12 4 = 0 && bits v 112 16 = 0 && bits v 187 5 = 0 && bits v 384 128 = 0 }

/-- Opcodes of Table 3.5. -/
def knownOpc (o : Nat) : Bool := [1, 2, 3, 4, 5, 8, 9, 0x0A, 0x0B].contains o
/-- Opcodes with a data buffer (03 Table 3.2). -/
def hasBuffer (o : Nat) : Bool := [1, 2, 3, 5, 0x0A, 0x0B].contains o
/-- Opcodes that use LEN (03 Table 3.5). -/
def usesLen (o : Nat) : Bool := [1, 2, 3, 0x0B].contains o
/-- Opcodes that require a namespace (03 Table 3.5). -/
def needsNs (o : Nat) : Bool := [1, 2, 3, 4, 5, 0x0B].contains o

/-- Are the flags allowed for the opcode (03 Table 3.2)? -/
def Entry.flagsOk (e : Entry) : Bool :=
  (!e.dur || e.opc == 2 || e.opc == 3) && (!e.cont || e.opc == 1) && (!e.sgl || hasBuffer e.opc)
    && (!e.win || ((e.opc == 2 || e.opc == 3) && !e.sgl))

/-- Are the fields the opcode does not use 0 (03 Table 3.5)? -/
def Entry.unusedZero (e : Entry) : Bool :=
  (hasBuffer e.opc || e.dptr == 0) && (e.sgl || e.dcnt == 0) && (usesLen e.opc || e.len == 0)
    && (([1, 2, 3, 4, 5, 0x0B].contains e.opc) || e.slba == 0)
    && (match e.opc with
        | 4 => e.arg0 < 16 && e.arg1 == 0
        | 5 => e.arg1 == 0
        | 9 => e.arg1 < 64 && e.nsid == 0
        | 0x0A => decide (e.arg1 < 65536)
        | 0x0B => e.arg0 < 65536 && e.arg1 < 2
        | _ => e.arg0 == 0 && e.arg1 == 0)

/-- Class row of the applied table (02 R30); Table 2.1 where no row is held. -/
def classReset : Nat → ClassRow
  | 0 => { deadline := 20000#24, margin := 500#24 }
  | 1 => { deadline := 25000#24, margin := 1000#24 }
  | 2 => { deadline := 50000#24, margin := 2000#24 }
  | 3 => { deadline := 100000#24, margin := 2000#24 }
  | 4 => { deadline := 250000#24, margin := 5000#24 }
  | 5 => { deadline := 1000000#24, margin := 10000#24 }
  | 6 => { deadline := 5000000#24, margin := 20000#24 }
  | _ => { relEn := false }

/-- Class row `n` of a configuration. -/
def EpochCfg.cls (e : EpochCfg) (n : Nat) : ClassRow := e.classes.get classReset n

/-- Step 1 of Table 3.4. -/
def State.step1 (s : State) (e : Entry) : Bool :=
  let c := s.cfg.applied.cls e.dc
  knownOpc e.opc && e.rsv && e.flagsOk && e.unusedZero
    && (e.opc == 9 || (c.en && (e.reldl == 0 || (e.dc != 7 && c.relEn))))

/-- Step 2 of Table 3.4. -/
def Entry.step2 (e : Entry) : Bool := !usesLen e.opc || (0 < e.len && e.len ≤ 16384)

/-- Step 3 of Table 3.4: the namespace is given where one is required, attached, and of the right type. -/
def State.step3 (s : State) (f : Nat) (e : Entry) : Bool :=
  let n := s.ns e.nsid
  if e.nsid = 0 then !needsNs e.opc
  else n.present && n.attached.contains f && (n.zoned || !(e.opc == 3 || e.opc == 4 || e.opc == 5))

/-- Does a WIN = 1 range lie in the window in force and in the function's grant (03 R68, 04 R119)? -/
def State.winOk (s : State) (f : Nat) (e : Entry) : Bool :=
  let p := s.port (portOf f)
  let k := f % 64
  let g := p.grants.get (fun k => if k = 0 then { en := true, fin := 0x800#12 } else {}) k
  let last := e.dptr + e.len * 4096 - 1
  e.dptr % 4096 == 0 && p.wcur.en && decide (last ≤ p.wcur.limit) && (k == 0 || g.en)
    && decide (g.start.toNat * 2 ^ 24 ≤ e.dptr ∧ last < g.fin.toNat * 2 ^ 24)

/-- Outcome of the entry check of a CONT_READ: a failing status and RESULT, or none (03 R93). -/
def State.contCheck (s : State) (f : Nat) (e : Entry) : Option (Nat × Nat) :=
  match s.recs.find? fun r => r.id.toNat == e.arg0 && r.fn == f with
  | none => some (Sts.invalidField, 0x00FF)
  | some r =>
    match r.st with
    | .failed => some (Sts.unrecovered, 0x0002)
    | .pending => some (Sts.invalidField, 0)
    | .stale => some (Sts.invalidField, 3)
    | .recovered =>
      if r.nsid = e.nsid ∧ r.slba ≤ e.slba ∧ e.slba + e.len ≤ r.slba + r.count then none
      else some (Sts.invalidField, 0x00FE)

/-- Step 4 of Table 3.4: the buffer, the window range, the arguments, the zone start, and a CONT_READ's entry. -/
def State.step4 (s : State) (f : Nat) (e : Entry) : Option (Nat × Nat) :=
  let bad := some (Sts.invalidField, 0)
  if hasBuffer e.opc && e.win && !(s.winOk f e) then bad
  else if hasBuffer e.opc && !e.win && !e.sgl && e.dptr % 4 != 0 then bad
  else if e.sgl && (e.dptr % 16 != 0 || e.dcnt == 0 || 256 < e.dcnt) then bad
  else match e.opc with
    | 3 => if e.slba % 65536 = 0 then none else bad
    | 4 => if e.slba % 65536 = 0 ∧ 1 ≤ e.arg0 ∧ e.arg0 ≤ 4 then none else bad
    | 5 => if 1 ≤ e.arg0 ∧ e.arg0 ≤ 65535 then none else bad
    | 0x0A => if 1 ≤ e.arg0 ∧ e.arg0 ≤ 256 then none else bad
    | 0x0B => s.contCheck f e
    | _ => none

/-- Is every actuator of a namespace's set in a READY bay, with no format or sanitize running, no bay being prepared for
removal and its maps whole (05 R153, 10 R303, 11 Table 11.4)? -/
def State.nsReady (s : State) (n : Ns) : Bool :=
  !n.formatting && !n.sanitizing && n.actset.all fun a =>
    let b := (s.bay (bayOf a)).link
    b.media == 2 && !b.prep && !(s.act a).med.mapRebuild

/-- Bring the ready state of every namespace up to date: a change latches bit 5 or 6 of the view of every function it is
attached to (05 R153, 15 Table 15.9). -/
def State.refreshNs (s : State) : State :=
  s.each s.namespaces fun s (k, n) =>
    let r := s.nsReady n
    if r = n.notReady then
      (s.modNs k fun x => { x with notReady := !r }).raiseFns n.attached (if r then 6 else 5)
    else s

/-- Staged sectors a FLUSH of function `f` that arrived at `t` covers, on namespace `n` or, for 0, on every one: those of its function's STAGED
writes whose completions were posted by then, and those that have superseded one in staging (03 R84). -/
def State.covered (s : State) (f n t : Nat) : List WSlot :=
  let posted (x : Option Nat) : Bool := x.any (decide <| · ≤ t)
  s.stage.wslots.filter fun w => !w.inBand && (n == 0 || w.sec.nsid == n)
    && ((w.fn == f && !w.inLand && posted w.acked) || w.heirs.any fun h => h.fn == f && posted h.acked)

/-- Step 5 of Table 3.4. -/
def State.step5 (s : State) (f : Nat) (e : Entry) : Option Nat :=
  let n := s.ns e.nsid
  if e.nsid ≠ 0 && n.sanitizing then some Sts.abortedBySanitize
  else if e.nsid ≠ 0 && !(s.nsReady n) then some Sts.namespaceNotReady
  else if e.opc = 8 && (s.covered f e.nsid s.now).any fun w => s.offline w.act then some Sts.namespaceNotReady
  else none

/-- Step 6 of Table 3.4. -/
def State.step6 (s : State) (e : Entry) : Bool :=
  let n := s.ns e.nsid
  if usesLen e.opc then e.slba + e.len ≤ n.sectors
  else if e.opc = 4 ∨ e.opc = 5 then e.slba < n.sectors else true

/-- Step 7 of Table 3.4: the namespace's key is loaded and not being unloaded (03 R71). -/
def State.step7 (s : State) (e : Entry) : Bool :=
  e.nsid == 0 || (let k := s.key (s.ns e.nsid).keyslot; k.loaded && !k.unloading)

/-- Zones of actuator `a` counted open, and active (05 R132). -/
def State.zonesOn (s : State) (a : Nat) (p : ZState → Bool) : List (Nat × Zone) :=
  s.zones.filter fun (k, z) => p z.adm && (((s.ns (k / 2 ^ 24)).locate (k % 2 ^ 24 * 65536)).1 == a)

/-- IMPLICIT_OPEN or EXPLICIT_OPEN. -/
def ZState.isOpen (z : ZState) : Bool := z == .implicitOpen || z == .explicitOpen
/-- Open or CLOSED. -/
def ZState.isActive (z : ZState) : Bool := z.isOpen || z == .closed

/-- Would opening a zone in state `z` on actuator `a` break a limit of R132? -/
def State.openBlocked (s : State) (a : Nat) (z : ZState) : Bool :=
  let op := s.zonesOn a ZState.isOpen
  (!z.isOpen && op.length ≥ 32 && op.all fun r => r.2.adm == .explicitOpen)
    || (!z.isActive && (s.zonesOn a ZState.isActive).length ≥ 128)

/-- Step 8 of Table 3.4, for a zoned write, append or action: a failing status (03 R82, R89, 05 R131, R132). -/
def State.step8 (s : State) (opc slba len act4 nsid : Nat) : Option Nat :=
  let n := s.ns nsid
  if n.zoned && (opc == 2 || opc == 3 || opc == 4) then
    let z := s.zone (zoneKey nsid slba)
    let a := (n.locate slba).1
    if opc = 4 then
      match act4 with
      | 1 => if (z.adm == .empty || z.adm.isActive) && !(s.openBlocked a z.adm) then none else some Sts.zoneState
      | 2 => if z.adm.isActive then none else some Sts.zoneState
      | 3 => if z.adm == .empty || z.adm.isActive || z.adm == .full then none else some Sts.zoneState
      | _ => if z.adm == .readOnly || z.adm == .offline then some Sts.zoneState else none
    else if !(z.adm == .empty || z.adm.isActive) || s.openBlocked a z.adm then some Sts.zoneState
    else
      let at0 := if opc = 3 then z.admWp else slba % 65536
      if 65536 < at0 + len then some Sts.zoneBoundary
      else if opc = 2 ∧ at0 ≠ z.admWp then some Sts.writePointerMismatch else none
  else none

/-- Is an arrival on the same zone still waiting for its admission test, so that step 8 of a later one waits (03 R82)? -/
def State.zoneBusy (s : State) (nsid slba : Nat) : Bool :=
  s.ledger.any fun c => (c.phase == .arrived || c.phase == .held) && c.nsid == nsid && c.slba / 65536 == slba / 65536
    && (c.op == 2 || c.op == 3 || c.op == 4)

/-- Steps 1 to 7 of Table 3.4 in order: the first failing status and its RESULT (03 R70). -/
def State.checks7 (s : State) (f : Nat) (e : Entry) : Option (Nat × Nat) :=
  if !(s.step1 e) then some (Sts.invalidField, 0)
  else if !e.step2 then some (Sts.lengthOutOfRange, 0)
  else if !(s.step3 f e) then some (Sts.invalidField, 0)
  else match s.step4 f e with
    | some r => some r
    | none =>
      match s.step5 f e with
      | some x => some (x, 0)
      | none =>
        if !(s.step6 e) then some (Sts.lbaOutOfRange, 0)
        else if !(s.step7 e) then some (Sts.keyNotLoaded, 0)
        else none

/-- The checks of Table 3.4 in order: the first failing status and its RESULT (03 R70). -/
def State.checks (s : State) (f : Nat) (e : Entry) : Option (Nat × Nat) :=
  match s.checks7 f e with
  | some r => some r
  | none => (s.step8 e.opc e.slba e.len (e.arg0 % 16) e.nsid).map fun x => (x, 0)

/-- Does an entry write a zone or act on one, so that its step 8 takes its turn on the zone (03 R82)? -/
def State.onZone (s : State) (e : Entry) : Bool := (s.ns e.nsid).zoned && (e.opc == 2 || e.opc == 3 || e.opc == 4)

/-- Have the checks of entry `e` of function `f` to wait: it passes steps 1 to 7, and an earlier arrival on its zone, in the ledger or among
the entries `ws` that wait, is still to be admitted (03 R82)? -/
def State.checkWaits (s : State) (f : Nat) (e : Entry) (ws : List CheckWait) : Bool :=
  s.onZone e && (s.checks7 f e).isNone
    && (s.zoneBusy e.nsid e.slba || ws.any fun w =>
      let d := Entry.of w.entry
      s.onZone d && d.nsid == e.nsid && d.slba / 65536 == e.slba / 65536)

/-! ### The ledger (03 R72 to R74) -/

/-- Ledger entries in use. -/
def State.ledgerUsed (s : State) : Nat := (s.ledger.filter fun c => !c.noEntry).length
/-- Ledger entries of function `f`. -/
def State.ledgerOf (s : State) (f : Nat) : Nat := (s.ledger.filter fun c => c.fn == f && !c.noEntry).length

/-- May function `f` take a further ledger entry under the applied policy (03 R73)? -/
def State.ledgerRoom (s : State) (f : Nat) : Bool :=
  let pol := s.cfg.applied.ldg
  let mine := s.ledgerOf f
  let free := 131072 - s.ledgerUsed
  let reserve := (s.enabledFns.filter (· != f)).foldl (fun n g => n + (pol.floor.toNat - s.ledgerOf g)) 0
  decide (0 < free) && (pol.cap == 0 || decide (mine < pol.cap.toNat * 8)) && (decide (mine < pol.floor.toNat) || decide (reserve < free))

/-- Post the completion of a command that failed a check, or hold it (03 R70, 04 R121). -/
def State.failCheck (s : State) (f q cq sqhd : Nat) (tag : Word) (status result : Nat) : State :=
  let x := s.fn f
  if x.bme && !x.d3 then
    s.postEntry f cq { tag := tag, status := status, sq := q, adm := s.now, cpl := s.now, sqhd := sqhd, result := result }
  else
    let c : Cmd := { id := s.ldg.next, fn := f, sq := q, cq := cq, tag := tag, sqhd := sqhd, arrival := s.now, phase := .heldCpl,
                     status := some status, result := result, noEntry := true }
    ({ s with ledger := s.ledger ++ [c], ldg := { s.ldg with next := s.ldg.next + 1 } }).modFn f fun y =>
      { y with held := y.held ++ [c.id] }

/-- Write the ledger entry of a checked submission entry: its arrival. A CONT_READ that has passed its check holds its entry's data from now on
(02 R31, 03 R72, R93). -/
def State.enterLedger (s : State) (f q cq sqhd : Nat) (e : Entry) : State :=
  let c : Cmd :=
    { id := s.ldg.next, fn := f, sq := q, cq := cq, tag := e.tag, op := BitVec.ofNat 8 e.opc, act4 := if e.opc = 4 then e.arg0 else 0,
      nsid := e.nsid, slba := e.slba, len := e.len, dur := e.dur, cont := e.cont, sgl := e.sgl, win := e.win,
      winAddr := if e.win then (s.port (portOf f)).wcur.base + e.dptr else 0, dptr := e.dptr, dcnt := e.dcnt, arg0 := e.arg0,
      arg1 := e.arg1, dc := e.dc, reldl := e.reldl, sqhd := sqhd, arrival := s.now }
  let n := s.ledgerUsed + 1
  let s := { s with ledger := s.ledger ++ [c],
                    ldg := { s.ldg with next := s.ldg.next + 1, hwm := if s.ldg.hwm.toNat < n then BitVec.ofNat 18 n else s.ldg.hwm } }
  if e.opc = 0x0B then
    let mine (r : RecEntry) : Bool := r.id.toNat == e.arg0 && r.fn == f
    let xs := ((s.recs.filter mine).flatMap (·.data)).filter fun x => decide (e.slba ≤ x.lba ∧ x.lba < e.slba + e.len)
    (s.mapRec fun r => if mine r then { r with readers := r.readers ++ [c.id] } else r).each xs fun s x => s.pin c.id x
  else s

/-- The checks of a fetched entry have their turn: a pass writes the ledger entry, a failure is answered with its status (03 R70, R72, R73). -/
def State.runEntry (s : State) (w : CheckWait) : State :=
  let e := Entry.of w.entry
  match s.checks w.fn e with
  | some (st, r) => s.failCheck w.fn w.sq w.cq w.sqhd e.tag st r
  | none =>
    if s.ledgerRoom w.fn then s.enterLedger w.fn w.sq w.cq w.sqhd e
    else
      let s := { s with ldg := { s.ldg with full := s.ldg.full + 1 } }
      let s := s.charge w.fn e.nsid fun y => { y with refLdg := satInc16 y.refLdg }
      s.failCheck w.fn w.sq w.cq w.sqhd e.tag Sts.ledgerFull 0

/-- The turn of a fetched entry's checks: it is put behind the waiting ones while one of its own SQ waits, or its zone has an earlier arrival to
admit. Entries of one SQ are checked in the order of their fetch (DEDUCED: what a queue reset discards is a tail of the SQ, R85) (03
R82, R85). -/
def State.checkEntry (s : State) (w : CheckWait) (before : List CheckWait) : State :=
  if (before.any fun x => x.fn == w.fn && x.sq == w.sq) || s.checkWaits w.fn (Entry.of w.entry) before then
    { s with ldg := { s.ldg with checking := s.ldg.checking ++ [w] } }
  else s.runEntry w

/-- Entries that waited for their zone are checked, as far as its arrivals have been admitted, in the order of their fetch (03 R82). -/
def State.runWaiting (s : State) : State :=
  if s.boot.postStop then s
  else ({ s with ldg := { s.ldg with checking := [] } }).each s.ldg.checking fun s w => s.checkEntry w s.ldg.checking

/-- SUBMISSION_ENTRY_ARRIVAL: the checks of Table 3.4 run on a fetched entry, in their turn; a pass writes the ledger entry, a failure is answered
with its status. An entry that a stopped SQ had still to receive is discarded (03 R67, R70, R72, R73, R82). -/
def execSubmissionEntryArrival (f : FnId) (q : Fin 64) (entry : BitVec 512) (s : State) : Host.Outcome State Fault Refusal :=
  let k := 64 * f.val + q.val
  let x := s.sq k
  .next <| if x.size = 0 ∨ x.fetching = 0 ∨ s.boot.postStop then s else
    let sqhd := (x.head + x.size - x.fetching + 1) % x.size
    let s := s.setSq k { x with fetching := x.fetching - 1 }
    if x.stopped then s.releaseSlot f.val x.cq
    else s.checkEntry { fn := f.val, sq := q.val, cq := x.cq, sqhd := sqhd, entry := entry } s.ldg.checking

end Sys2Proof.Machine
end

