-- ==== Sys2Proof/Machine/Power.lean ====
section
/-! DEFINITION. The shelf's power: cap, projection, ceilings and spin-up tokens (09). -/
namespace Sys2Proof.Machine

open Sys2Proof

/-- Steady spindle power at a gait in mW (09 R262). -/
def SpinCalPower (c : SpinCal) : Nat → Nat
  | 0 => 0 | 1 => c.ambleMw | 2 => c.trotMw | _ => c.gallopMw

/-- The shelf cap in mW: the cap's share of TARGET (09 R261). -/
def State.capMw (s : State) : Nat := s.pwr.capMil * s.devCfg.pwr.target.toNat / 100

/-- Electronics and steady spindle power of bay `b` at a gait in mW; an absent or quarantined bay takes none (09 R263). -/
def State.bayMw (s : State) (b g : Nat) : Nat :=
  let x := s.bay b
  if !x.link.present || x.link.quar != 0 then 0 else x.spin.cal.elecMw + SpinCalPower x.spin.cal g

/-- What a spin-up draws above steady power at a gait (09 R262). -/
def State.tokenMw (s : State) (b g : Nat) : Nat := (s.bay b).spin.cal.spinupMw - SpinCalPower (s.bay b).spin.cal g

/-- Projected shelf power in mW with every bay at gait `g b` (09 R262). -/
def State.projectMw (s : State) (g : Nat → Nat) : Nat :=
  s.pwr.pkgMw + ((List.range 72).map fun b => s.bayMw b (g b) + if (s.bay b).spin.token then s.tokenMw b (g b) else 0).sum
    + s.devCfg.pwr.assistPct.toNat * s.capMw / 100

/-- Projected shelf power at the running gaits. -/
def State.powerMw (s : State) : Nat := s.projectMw fun b => (s.bay b).spin.gait.toNat

/-- Tokens of domain `d` held (09 R265). -/
def State.tokensHeld (s : State) (d : Nat) : Nat := ((List.range 18).filter fun i => (s.bay (18 * d + i)).spin.token).length

/-- May a token be issued to bay `b` for the power it takes (09 R265)? -/
def State.tokenPower (s : State) (b : Nat) : Bool :=
  decide (s.powerMw + s.tokenMw b (s.bay b).spin.gait.toNat ≤ s.capMw)

/-- May a token be issued to bay `b` now (09 R265)? -/
def State.tokenFree (s : State) (b : Nat) : Bool :=
  decide (s.tokensHeld (domOf b) < s.devCfg.pwr.tokens.toNat) && s.tokenPower b && !(s.dom (domOf b)).domfault

/-- Requests of domain `d` waiting for a token, in the order of R265: exits for admitted commands by earliest milestone,
gait raises, then other exits and bring-ups, in request order. -/
def State.tokenQueue (s : State) (d : Nat) : List Nat :=
  let ws := ((List.range 18).map (18 * d + ·)).filter fun b => (s.bay b).spin.tokwait
  let le (x y : Nat) : Bool :=
    let p := (s.bay x).spin
    let q := (s.bay y).spin
    if p.tokKind ≠ q.tokKind then p.tokKind < q.tokKind
    else if p.tokKind = 1 ∧ p.tokMile ≠ q.tokMile then p.tokMile < q.tokMile else p.tokAt ≤ q.tokAt
  sortBy le ws

/-- Projected token wait of a request of bay `b`, from the LOCKED times of the holders and the requests ahead; none when the
cap leaves no token (09 R265). -/
def State.tokenWait (s : State) (b : Nat) : Option Nat :=
  let d := domOf b
  if !(s.tokenPower b) then none else
    let ends := (((List.range 18).map (18 * d + ·)).filter fun x => (s.bay x).spin.token).map fun x => (s.bay x).spin.lockAt - s.now
    let ends := sortBy (· ≤ ·) ends
    let ahead := ((s.tokenQueue d).filter fun x => x != b && (s.bay x).spin.tokKind == 1).length
    let k := ends.length + ahead
    let lim := s.devCfg.pwr.tokens.toNat
    some (if k < lim then 0 else ends.getD (k - lim) (ends.getLastD 0))

/-- Issuable tokens of domain `d` one after another: TOKAVAIL (09 R265). -/
def State.tokAvail (s : State) (d : Nat) : Nat :=
  let free := s.devCfg.pwr.tokens.toNat - s.tokensHeld d
  let q := s.tokenQueue d
  let rest := ((List.range 18).map (18 * d + ·)).filter fun b => (s.bay b).link.present && (s.bay b).spin.gait == 0
  let rest := sortBy (fun x y => decide (s.tokenMw y 0 ≤ s.tokenMw x 0)) rest
  let reqs := if q.isEmpty then rest else q
  if q.isEmpty && rest.isEmpty then free
  else
    let step := fun (st : Nat × Nat × Bool) (b : Nat) =>
      let (n, p, go) := st
      let p' := p + s.tokenMw b (s.bay b).spin.gait.toNat
      if go && decide (n < free) && decide (p' ≤ s.capMw) then (n + 1, p', true) else (n, p, false)
    (reqs.foldl step (0, s.powerMw, true)).1

/-- Utilisation of a bay at a gait, in %; a bay with no figures has none (09 R263). -/
def State.utilAt (s : State) (b g : Nat) : Nat := (s.bay b).spin.utils.get (fun _ => 0) g

/-- A gait of bay `b` in a list of 72. -/
def ceilOf (c : List Nat) (b : Nat) : Nat := c.getD b 3

/-- Of some bays with a figure each, the one with the figure that comes first, the lowest index on a tie. -/
def pickBay (before : Nat → Nat → Bool) (xs : List (Nat × Nat)) : Option Nat :=
  (xs.foldl (fun (m : Option (Nat × Nat)) x => match m with
    | none => some x
    | some y => if before x.2 y.2 then some x else some y) none).map (·.1)

/-- The bay whose ceiling falls next (09 R263): lowest utilisation at the gait below, lowest index on a tie. -/
def State.nextLower (s : State) (c : List Nat) : Option Nat :=
  pickBay (fun x y => decide (x < y)) (((List.range 72).filter fun b => decide (0 < ceilOf c b)).map fun b => (b, s.utilAt b (ceilOf c b - 1)))

/-- The bay whose ceiling rises next (09 R263): highest utilisation at its ceiling, lowest index on a tie. -/
def State.nextRaise (s : State) (c : List Nat) : Option Nat :=
  pickBay (fun x y => decide (y < x)) (((List.range 72).filter fun b => decide (ceilOf c b < 3)).map fun b => (b, s.utilAt b (ceilOf c b)))

/-- Lower ceilings one step at a time while the projection exceeds the cap; 72 bays of 3 steps bound it (09 R263). -/
def State.lowerCeils (s : State) : Nat → List Nat → List Nat
  | 0, c => c
  | n + 1, c =>
    if s.capMw < s.projectMw (ceilOf c) then
      match s.nextLower c with
      | none => c
      | some b => s.lowerCeils n (c.set b (ceilOf c b - 1))
    else c

/-- Raise ceilings one step at a time while the raise leaves the projection at or below the cap less 2 % (09 R263). -/
def State.raiseCeils (s : State) : Nat → List Nat → List Nat
  | 0, c => c
  | n + 1, c =>
    match s.nextRaise c with
    | none => c
    | some b =>
      let c' := c.set b (ceilOf c b + 1)
      if s.capMw * 98 < 100 * s.projectMw (ceilOf c') then c else s.raiseCeils n c'

/-- Power ceilings of every bay (09 R263). -/
def State.powerCeils (s : State) : List Nat :=
  s.raiseCeils 216 (s.lowerCeils 216 ((List.range 72).map fun b => (s.bay b).spin.ceilPwr.toNat))

end Sys2Proof.Machine
end

