-- ==== Sys2Proof/Machine/Slack.lean ====
section
/-! DEFINITION. Work that uses slack: the destage and grazing quanta of an actuator (02 R52, 12 R336, 01 R18). -/
namespace Sys2Proof.Machine

open Sys2Proof

/-! ### Space of the landing band (05 R139) -/

/-- Landing segments in use: those with a reserved or live slot. -/
def Med.segsUsed (m : Med) : List Nat := ((m.landing.filter fun l => l.st != .void).map (·.seg)).eraseDups

/-- Free landing segments. -/
def Med.segsFree (m : Med) : Nat := 2048 - m.segsUsed.length

/-- Landing segments taken into use or freed since the band journal last named them enter it (05 R140). -/
def State.recordSegs (s : State) (a : Nat) : State :=
  let m := (s.act a).med
  let used := m.segsUsed
  let recs : List StRec := ((used.filter fun g => !m.jsegs.contains g).map fun g => { kind := 2, unit := g })
    ++ ((m.jsegs.filter fun g => !used.contains g).map fun g => { kind := 3, unit := g })
  if recs.isEmpty then s
  else (s.modMed a fun m => { m with jsegs := used }).modFmt a fun f => { f with jstate := f.jstate ++ recs }

/-- Free landing space falling below 25 % latches event 8a + 6, and landing-band destage has twice the grazing weight until it is above 50 %
(05 R139). -/
def State.landCheck (s : State) (a : Nat) : State :=
  let s := s.recordSegs a
  let m := (s.act a).med
  if m.segsFree * 4 < 2048 ∧ !m.landLow then (s.modMed a fun m => { m with landLow := true }).raise (actEvt a 6)
  else if 1024 < m.segsFree ∧ m.landLow then s.modMed a fun m => { m with landLow := false } else s

/-! ### Work that uses slack (02 R52, 12 R336, 01 R18) -/

/-- Is a command that arrived before write `id` and works on sector `lba` of namespace `n` unfinished? The media may not take that write's
data before it is done (03 R81). -/
def State.earlierWork (s : State) (id n lba : Nat) : Bool :=
  s.ledger.any fun c => decide (c.id < id) && c.phase != .heldCpl && (c.op == 1 || c.op == 2 || c.op == 3) && c.nsid == n
    && decide (c.slba ≤ lba ∧ lba < c.slba + c.len)

/-- Is a read of sector `lba` of namespace `n` unfinished that has still to take it from the media? Its copy may not move meanwhile. -/
def State.readPending (s : State) (n lba : Nat) : Bool :=
  s.ledger.any fun c => c.op == 1 && c.phase == .admitted && c.nsid == n && decide (c.slba ≤ lba ∧ lba < c.slba + c.len)

/-- May a staged sector be destaged now: committed to staging and the newest copy there, its namespace ready, no earlier command at work on the
sector, and, for a zone, next in zone order (03 R81, Table 3.9, 05 R140)? -/
def State.destageable (s : State) (a : Nat) (w : WSlot) : Bool :=
  let n := s.ns w.sec.nsid
  w.act == a && w.cmd == 0 && !w.flush && !w.inBand && n.present && !n.formatting && !n.sanitizing
    && !(s.earlierWork w.src w.sec.nsid w.sec.lba) && (s.stagedCopy w.sec.nsid w.sec.lba).any (·.order == w.order)
    && (!n.zoned || s.bandWp w.sec.nsid w.sec.lba == w.sec.lba % 65536)

/-- The run of staged sectors that follows sector `lba`, at most `k` of them. -/
def stagedRun (ws : List WSlot) (n : Nat) : Nat → Nat → List Nat
  | 0, _ => []
  | k + 1, lba => if ws.any fun w => w.sec.nsid == n && w.sec.lba == lba then lba :: stagedRun ws n k (lba + 1) else []

/-- Keys of a conventional write whose written-map bits are clear: its map intent names them (07 R199). -/
def State.clearBits (s : State) (keys : List Nat) : List Nat :=
  keys.filter fun k => !(s.ns (k / 2 ^ 48)).zoned && (s.media.find k).isNone

/-- Time of the map-intent record of a conventional write: a seek of at most half a stroke each way and the record's passages, when a
written-map bit is clear (07 R199). -/
def State.intentTime (s : State) (a : Nat) (keys : List Nat) : Nat :=
  if (s.clearBits keys).isEmpty then 0
  else
    let g := (s.bay (bayOf a)).spin.gait.toNat
    let t := (s.placeOf a reservedRegion 0).track
    2 * s.seekBound a g 0 t + 2 * revNs g + tailNs false

/-- The destage quantum of actuator `a` in turn: the oldest staged sector that may go, with the sectors that follow it. -/
def State.destageOp (s : State) (a : Nat) : Option PlanOp :=
  let ws := s.stage.wslots.filter fun w => w.act == a && w.cmd == 0 && !w.flush && !w.inBand
  match ws.find? (s.destageable a) with
  | none => none
  | some w =>
    let n := s.ns w.sec.nsid
    let (_, r, pos) := n.locate w.sec.lba
    let run := stagedRun ws w.sec.nsid (min 16 (65536 - pos)) w.sec.lba
    let run := if n.zoned then run else run.takeWhile fun l => l / 2 ^ n.unit == w.sec.lba / 2 ^ n.unit
    let p := s.placeOf a r pos
    if (s.act a).fmt.wsusp.getLsbD p.head || s.atiHolds a (r * 65536 + pos) run.length
        || s.inhibited a p.head 0 || (s.act a).fmt.waiting.isSome then none
    else some { kind := .destage, fn := 257, dc := 7, arrival := w.order, track := p.track, head := p.head, angle := p.angle,
                spt := p.spt, pos := r * 65536 + pos, count := run.length, read := false, slot := false,
                pre := s.intentTime a (run.map (secKey w.sec.nsid)), keys := run.map (secKey w.sec.nsid) }

/-- Order of a pending grazing operation against another: lowest order number, then oldest (12 R336). -/
def GrazeOp.before (g h : GrazeOp) : Bool := g.order ≤ h.order

/-- Is the sector of a key being read for a grazing operation of actuator `a`: samples or an attempt of it are held? -/
def State.reading (s : State) (a key : Nat) : Bool :=
  let c := (s.act a).cfe
  (c.slots ++ c.retained).any (fun e => e.cmd == 0 && e.key == key) || s.pool.attempts.any (fun x => x.cmd == 0 && x.act == a && x.key == key)
    || (s.act a).graze.pending.any fun g => g.again && g.key == key

/-- Keys of the committed sectors in `n` places of actuator `a` from a position on. -/
def State.keysAt (s : State) (a pos n : Nat) : List Nat :=
  let raw := decide (2 ^ 28 ≤ pos / 65536)
  let q := s.placeOf a (pos / 65536) (pos % 65536)
  (s.media.map (·.1)).filter fun k =>
    let (b, r, p) := (s.ns (k / 2 ^ 48)).locate (k % 2 ^ 48)
    let x := s.placeOf a r p
    b == a && if raw then x.head == q.head && x.track == q.track else decide (pos ≤ r * 65536 + p ∧ r * 65536 + p < pos + n)

/-- Place of a sector on its actuator as a plan position: the landing copy when that is what a read finds. -/
def State.whereIs (s : State) (key : Nat) : Nat :=
  let n := key / 2 ^ 48
  let l := key % 2 ^ 48
  match s.landedCopy n l with
  | some y => landRegion y.seg * 65536 + y.idx + 1
  | none => let (_, r, pos) := (s.ns n).locate l; r * 65536 + pos

/-- The landing-band destage quantum, which first reads its sectors back: sectors whose staging copy is gone, those of a zone in zone order, to
their final place (05 R140, R143, 12 Table 12.1, order 10). -/
def State.landDestage (s : State) (a : Nat) : Option PlanOp :=
  let l := (s.act a).med.landing
  let busy (x : LSlot) : Bool := s.reading a (secKey x.sec.nsid x.sec.lba)
  let cand (x : LSlot) : Bool := x.st == .live && !x.inBand && !(busy x) && (s.stagedCopy x.sec.nsid x.sec.lba).isNone
    && (!(s.ns x.sec.nsid).zoned || s.bandWp x.sec.nsid x.sec.lba == x.sec.lba % 65536) && !(s.readPending x.sec.nsid x.sec.lba)
    && !(let (_, r, pos) := (s.ns x.sec.nsid).locate x.sec.lba; s.atiHolds a (r * 65536 + pos) 16)
  match l.find? cand with
  | none => none
  | some x =>
    let (_, r, pos) := (s.ns x.sec.nsid).locate x.sec.lba
    let p := s.placeOf a r pos
    let run := ((List.range 16).map (x.sec.lba + ·)).takeWhile fun b =>
      b / 65536 == x.sec.lba / 65536 && l.any fun y => y.st == .live && y.rd == x.rd && (x.rd || y.seg == x.seg)
        && y.sec.nsid == x.sec.nsid && y.sec.lba == b
    if !x.rd then
      let q := s.placeOf a (landRegion x.seg) (x.idx + 1)
      some { kind := .grazing, fn := 256, dc := 7, track := q.track, head := q.head, angle := q.angle, spt := q.spt,
             pos := landRegion x.seg * 65536 + x.idx + 1, count := run.length, read := true, slot := false, order := 10,
             keys := run.map (secKey x.sec.nsid) }
    else
      some { kind := .grazing, fn := 256, dc := 7, track := p.track, head := p.head, angle := p.angle, spt := p.spt,
             pos := r * 65536 + pos, count := run.length, read := false, slot := false, order := 10,
             pre := s.intentTime a (run.map (secKey x.sec.nsid)), keys := run.map (secKey x.sec.nsid) }

/-- A live slot of the landing band as a place in the scrub pass: these follow the sectors at their final place, which go by key. -/
def landCursor (g i : Nat) : Nat := 2 ^ 70 + g * 255 + i

/-- Everything a scrub pass of actuator `a` reads: sectors committed at their final place, with no newer copy in staging or on the
landing band, and the live slots of the landing band (12 R340). -/
def State.scrubAll (s : State) (a : Nat) : List Nat :=
  ((s.media.map (·.1)).filter fun k =>
    s.actOf (k / 2 ^ 48) (k % 2 ^ 48) == a
      && (s.stagedCopy (k / 2 ^ 48) (k % 2 ^ 48)).isNone && (s.landedCopy (k / 2 ^ 48) (k % 2 ^ 48)).isNone)
  ++ sortBy Nat.ble (((s.act a).med.landing.filter fun l => l.st == .live && !l.inBand).map fun l => landCursor l.seg l.idx)

/-- What the scrub of actuator `a` still has to read in this pass (12 R340). -/
def State.scrubLeft (s : State) (a : Nat) : List Nat := (s.scrubAll a).filter ((s.act a).graze.scrubAt ≤ ·)

/-- Where the place of a scrub pass lies on the actuator: region and position. -/
def State.scrubPlace (s : State) (k : Nat) : Nat × Nat :=
  if 2 ^ 70 ≤ k then (landRegion ((k - 2 ^ 70) / 255), (k - 2 ^ 70) % 255 + 1)
  else let (_, r, pos) := (s.ns (k / 2 ^ 48)).locate (k % 2 ^ 48); (r, pos)

/-- Sector at a place of a scrub pass, by key. -/
def State.scrubKeyAt (s : State) (a k : Nat) : Nat :=
  if 2 ^ 70 ≤ k then
    match (s.act a).med.landing.find? fun l => l.st == .live && landCursor l.seg l.idx == k with
    | some l => secKey l.sec.nsid l.sec.lba
    | none => 0
  else k

/-- Places that follow one another from the first. -/
def runFrom : Nat → List Nat → List Nat
  | _, [] => []
  | k, j :: t => if j = k then j :: runFrom (k + 1) t else []

/-- The scrub quantum: the next sectors of the pass, at most one track of them (12 R340). -/
def State.scrubOp (s : State) (a : Nat) : Option PlanOp :=
  if s.now < (s.act a).graze.passStart then none else
    match s.scrubLeft a with
    | [] => none
    | k :: t =>
      let (r, pos) := s.scrubPlace k
      let p := s.placeOf a r pos
      let run := (runFrom k (k :: t)).takeWhile fun j => (s.scrubPlace j).1 == r && decide (j < k + p.spt)
      some { kind := .grazing, fn := 256, dc := 7, track := p.track, head := p.head, angle := p.angle, spt := p.spt,
             pos := r * 65536 + pos, count := run.length, read := true, slot := false, order := 11, keys := run.map (s.scrubKeyAt a) }

/-- Place of a scrub pass behind a quantum's last sector. -/
def scrubNext (r : PlanOp) : Nat :=
  let region := r.pos / 65536
  if 2 ^ 21 ≤ region ∧ region < 2 ^ 22 then landCursor (region - 2 ^ 21) (r.pos % 65536 - 1 + r.count) else r.keys.getLastD 0 + 1

/-- Place of sector `i` of the conventional island as a plan position (05 Table 5.2). -/
def islandPos (i : Nat) : Nat := if i < 2 ^ 19 then landRegion (i / 256) * 65536 + i % 256 else reservedRegion * 65536 + (i - 2 ^ 19)

/-- A squeeze check that no command's plan holds, as a quantum of the destage share; it waits for the calibration of a suspended head (07 R206, R207,
R213). -/
def State.squeezeOp (s : State) (a : Nat) : Option PlanOp :=
  let f := (s.act a).fmt
  match f.sqzReq with
  | none => none
  | some q =>
    if !f.sqzWait || f.wsusp.getLsbD q.head || f.queue.any (·.opc == 4) || (s.act a).adm.running.any (·.gkind == 4) then none
    else
      let p := s.placeOf a (q.pos / 65536) (q.pos % 65536)
      some { kind := .destage, fn := 257, dc := 7, track := p.track, head := q.head, angle := p.angle, spt := p.spt, pos := q.pos, count := q.count,
             read := true, slot := true, gkind := 4, keys := q.keys }

/-- The grazing quantum of actuator `a` in turn: the pending operation of the lowest order number, at most one revolution of it;
a write waits while writes are inhibited on the bay or suspended on the head (07 R213, 12 R336). -/
def State.grazeOp (s : State) (a : Nat) : Option PlanOp :=
  let x := s.act a
  let blocked (h : Nat) : Bool := s.inhibited a h 0 || x.fmt.wsusp.getLsbD h
  let quantum (g : GrazeOp) : PlanOp :=
    let at' := g.pos + if g.again then 0 else g.done
    let where' := if g.order = 13 ∧ g.step ≠ 0 then islandPos (256 * g.done) else at'
    let p := s.placeOf a (if g.kind = 0 then where' / 65536 else reservedRegion) (where' % 65536)
    let p := if g.kind = 0 then p else { p with head := g.head }
    let n := if g.again then 1 else min (g.count - g.done) (if 13 ≤ g.order then 1 else p.spt)
    { kind := .grazing, fn := 256, dc := 7, track := p.track, head := p.head, angle := p.angle, spt := p.spt,
      pos := at', count := n, read := g.isRead, slot := false, order := g.order, gkind := g.kind,
      ref := if g.order = 6 ∧ !g.again then (if g.verify then 1 + g.side else 0) else g.ref, again := g.again, step := g.step,
      k := if g.again then g.done + 1 else 1, kTot := if g.again then g.count else 1,
      keys := if g.key != 0 then [g.key] else if g.order = 3 ∨ g.order = 6 ∨ g.order = 7 then s.keysAt a at' n else [] }
  let may (g : GrazeOp) : Bool :=
    (g.isRead || if g.order = 1 then !s.inhibited a g.head 0 else x.fmt.waiting.isNone && !(blocked g.head))
      && (g.order != 13 || s.fmts.any fun o => o.id == g.ref && o.st == 1)
      && (g.isRead || g.order == 3 || g.order == 4 || g.order == 7 || g.kind != 0 || !(s.atiHolds a g.pos g.count))
      && (!x.med.mapRebuild || g.order == 15) && (g.order != 5 || s.recs.any fun r => r.id.toNat == g.ref && r.st == .pending)
  let ps := sortBy GrazeOp.before (x.graze.pending.filter may)
  let first (t : GrazeOp → Bool) : List PlanOp := ((ps.find? t).map quantum).toList
  let land := if x.med.mapRebuild then [] else ((s.landDestage a).filter fun o => o.read || (x.fmt.waiting.isNone && !(blocked o.head))).toList
  (first (fun g => g.order < 10 || g.order == 13 || g.order == 15) ++ first (·.order == 10) ++ land ++ first (·.order == 11)
    ++ (if x.med.mapRebuild then [] else (s.scrubOp a).toList)
    ++ first (·.order == 12) ++ first (·.order == 14)).head?

end Sys2Proof.Machine
end

