-- ==== Sys2Proof/Machine/Admit.lean ====
section
/-! DEFINITION. The admission test of a command on actuator plans and on the host-port model (02 R31 to R45). -/
namespace Sys2Proof.Machine

open Sys2Proof

/-! ### The host-port model (01 R29, 02 R45, 04 R98, R99) -/

/-- The link of function `f`: half 1 for VF32 to VF63 of a port with two links (04 R100). -/
def State.linkOf (s : State) (f : Nat) : Link :=
  let p := s.port (portOf f)
  if s.bif (portOf f) && decide (32 ≤ f % 64) then p.h1 else p.h0

/-- Payload rate at x16 in MB/s, by rate code (04 Tables 4.1, 4.9). -/
def rateAt16 : Nat → Nat
  | 5 => 63000 | 4 => 31500 | 3 => 15750 | 2 => 8000 | 1 => 4000 | _ => 0

/-- Payload rate of the link of function `f` as trained, in sixteenths of a MB/s (04 R98). -/
def State.linkRate (s : State) (f : Nat) : Nat :=
  let l := s.linkOf f
  rateAt16 l.rate.toNat * l.width.toNat

/-- Is the link of function `f` trained below x16 at 32 GT/s, or x8 at 32 GT/s for a half (04 R99)? -/
def State.linkLow (s : State) (f : Nat) : Bool :=
  decide (s.linkRate f < 16 * if s.bif (portOf f) then 31500 else 63000)

/-- Do two functions share a link? -/
def State.sameLink (s : State) (f g : Nat) : Bool :=
  portOf f == portOf g && (!s.bif (portOf f) || (decide (f % 64 < 32) == decide (g % 64 < 32)))

/-- Bytes promised to admitted commands on the link of function `f` and not yet across it (02 R45). -/
def State.promisedOn (s : State) (f : Nat) : Nat :=
  ((s.ledger.filter fun c => s.sameLink f c.fn).map (·.promised)).sum

/-- Finish on the host-port model; none on a link that is down (02 R45). -/
def State.hostFinish (s : State) (c : Cmd) (bytes : Nat) : Option Nat :=
  let r := s.linkRate c.fn
  if r = 0 then none else some (c.arrival + (s.promisedOn c.fn + bytes) * 16000 / r + 5000)

/-- Does a command pass the host-port model: its finish at or before its milestone; a bulk command always (02 R34, R45)? -/
def State.hostPasses (s : State) (c : Cmd) (bytes : Nat) : Bool :=
  c.dc == 7 || match s.hostFinish c bytes, c.milestone with
    | some f, some m => decide (f ≤ m) && decide (s.now < m)
    | _, _ => false

/-! ### Deadline, milestone, allowance (02 R31, R32, R56, Table 2.2) -/

/-- Is a scope of the actuators at thermal warning or above, so that the bulk allowance rises by 20 points (02 Table 2.5)? -/
def State.admitLess (s : State) (acts : List Nat) : Bool :=
  decide (1 ≤ s.thm.dieScope.level) || acts.any fun a => decide (1 ≤ (s.bayScope (bayOf a)).level)

/-- Fix the deadline, milestone and bulk allowance of a command on these actuators. -/
def State.timed (s : State) (c : Cmd) (acts : List Nat) : Cmd :=
  let (e, n) := s.epochFor acts
  let k := e.cls c.dc
  if c.dc = 7 then { c with epoch := n, deadline := none, milestone := none, allowance := 0 }
  else
    let dl := if c.reldl = 0 then k.deadline.toNat else c.reldl
    let mg := if c.reldl = 0 then k.margin.toNat * 1000 else min (k.margin.toNat * 1000) (c.reldl * 250)
    let d := c.arrival + dl * 1000
    let m := d - max mg 20000
    { c with epoch := n, deadline := some d, milestone := some m, pct := e.adm.floorPct.toNat,
             allowance := if c.dc = 0 then 0 else (m - c.arrival) * e.adm.floorPct.toNat / 100 }

/-- Bulk allowance of a command's part on actuator `a`: the fraction is raised by 20 points on the actuators of a scope at thermal warning (02
Tables 2.2, 2.5). It is fixed at the part's admission: that a later epoch or thermal action leaves it as it is, is the model's (DESIGN CHOICE). -/
def State.partAllowance (s : State) (c : Cmd) (a : Nat) : Nat :=
  if c.dc = 0 ∨ c.dc = 7 then 0
  else (c.milestone.getD 0 - c.arrival) * (c.pct + if s.admitLess [a] then 20 else 0) / 100

/-! ### One part on one actuator's plan -/

/-- Lowest gait a gait choice may take: MIN_GAIT under the ceiling (09 R260, R277). -/
def State.minGait (s : State) (ceil : Nat) : Nat := min s.devCfg.gait.minGait.toNat ceil

/-- Time of an exit of bay `b` to gait `g`, token wait apart, and whether it needs a spin-up token (09 Table 9.6, R276, R277). -/
def State.exitNs (s : State) (b g : Nat) : Nat × Bool :=
  let sp := (s.bay b).spin
  if sp.standbyRet then
    let r := sp.rpm.toNat
    if gaitRpm g ≤ r then ((r - gaitRpm g) * 1000000000 / 1200 + 1700000000, false)
    else ((gaitRpm g - r) * 1000000000 / 400 + 1500000000, true)
  else if sp.gait = 0 then (standbyExitNs g, true)
  else if sp.gait.toNat = g then (0, false)
  else (transNs sp.gait.toNat g, decide (sp.gait.toNat < g))

/-- Does a command on bay `b` need a power-state exit (03 R94, 09 R277)? -/
def State.needsExit (s : State) (b : Nat) : Bool := s.gaitNow b == 0 || (s.bay b).spin.pstate != 0

/-- Gaits an exit of bay `b` is tested to, lowest first (09 R277). -/
def exitGaits (lo hi : Nat) : List Nat := (List.range 4).filter fun g => decide (1 ≤ g ∧ lo ≤ g ∧ g ≤ hi)

/-- Start an exit of bay `b` to gait `g`: its pause stands before both plans, and a token is asked for where it needs one. A spindle
braking for a Standby entry stops braking at once; at or above the target's speed it decelerates instead (09 R265, R276, R277). -/
def State.startExit (s : State) (b g pre mile : Nat) (tok : Bool) (kind : Nat) : State :=
  let p := (s.bay b).spin
  let rest := p.gait == 0 || p.standbyRet
  let st : BitVec 4 := if p.state = 8 ∨ p.state = 9 ∨ (rest ∧ p.state = 5) then (if tok then 4 else 7) else if !rest ∧ !tok then 7 else p.state
  let s := s.modSpin b fun x =>
    if pre = 0 then { x with pstate := 0, pwant := 0 }
    else
      { x with goal := BitVec.ofNat 2 g, target := BitVec.ofNat 2 g, pstate := 0, pwant := 0, standbyRet := false, action := none, brakeTo := false,
               moving := true, raising := tok, spinUp := rest, state := st, lowerTo := none, stopAt := 0, inBand := 0,
               pauseEnd := s.now + pre, lockAt := s.now + pre - (if rest then 1500000000 else 0),
               tokwait := x.tokwait || (tok && !x.token), tokKind := if tok then kind else x.tokKind,
               tokMile := if tok then mile else x.tokMile, tokAt := if tok && !x.tokwait then s.now else x.tokAt }
  (s.replan (2 * b)).replan (2 * b + 1)

/-- Conditions that refuse a part before any position is tried: out of service, a requested plan-empty period, a gait ceiling
of Stand, and for a media write limp, thermal inhibit, a suspended head and a held track group (02 Table 2.5, R51; 05 R147; 12
R348, R351). -/
def State.blockedPart (s : State) (c : Cmd) (a : Nat) (n : PlanOp) (ceil : Nat) : Bool :=
  let x := s.act a
  s.offline a || (x.adm.planEmpty && c.dc != 0) || ceil == 0 ||
    (!n.read && (x.loop.limp || x.fmt.wsusp.getLsbD n.head || (s.head a n.head).final
      || (s.bayScope (bayOf a)).ainh || (s.headScope a n.head).ainh
      || s.atiHolds a n.pos n.count))

/-- Would the assist energy of a media write carry its domain past the assist budget of the window (09 R264)? -/
def State.overBudget (s : State) (a : Nat) (n : PlanOp) : Bool :=
  let pj := n.count * (revNs (s.gaitNow (bayOf a)) / n.spt) * (s.head a n.head).writeMw
  !n.read && decide (s.devCfg.pwr.assistPct.toNat * s.capMw * 1000000 < 4 * ((s.dom (domOf (bayOf a))).assistPj + pj))

/-- The plan of an actuator freed from the power cap: without the pause of a lowering that only the cap asks for; one that the thermal
ceiling asks for as well leads to that ceiling's gait (02 R43). -/
def State.freed (s : State) (a : Nat) : State :=
  let b := bayOf a
  let g := (s.bay b).spin.gait.toNat
  let t := s.thermalCeil b
  if g = 0 ∨ (s.bay b).spin.moving then s
  else
    let ease (o : PlanOp) : Option PlanOp :=
      if o.kind != .pause then some o
      else if g ≤ t then none
      else some { o with gait := max o.gait t, pre := o.pre - transNs g o.gait + transNs g (max o.gait t) }
    (s.modAdm a fun x => { x with queue := x.queue.filterMap ease }).replan a

/-- Test one part, `r` the urgent reserve of the epoch it is tested under: the state with its plan, if it passes, and whether decode slots refused
a position. `free` is the test with ceiling, tokens and budget freed from the power cap (02 R43, R56). -/
def State.tryPart (s : State) (c : Cmd) (r : Nat → Nat) (a : Nat) (n : PlanOp) (free : Bool) : Option State × Bool :=
  let b := bayOf a
  let s := if free then s.freed a else s
  let ceil := if free then s.thermalCeil b else s.ceil b
  let q := (s.act a).adm.queue
  if s.blockedPart c a n ceil || (!free && s.overBudget a n) then (none, false)
  else if s.needsExit b then
    (exitGaits (s.minGait ceil) ceil).foldl (fun acc g =>
      match acc with
      | (some t, l) => (some t, l)
      | (none, l) =>
        let (ns, tok) := s.exitNs b g
        match if !tok ∨ free then some 0 else s.tokenWait b with
        | none => (none, l)
        | some w =>
          let p : PlanOp := { kind := .pause, pre := ns + w, gait := g, slot := false }
          let base := if ns + w = 0 then q else p :: q
          let t := s.testOp a r c base n
          match t.1 with
          | some plan =>
            let s' := s.startExit b g (ns + w) (c.milestone.getD (2 ^ 64)) tok 1
            (some (s'.setPlan a (s'.project a (if ns + w = 0 then plan else plan.drop 1))), l || t.2)
          | none => (none, l || t.2)) (none, false)
  else
    let t := s.testOp a r c q n
    (t.1.map (s.setPlan a), t.2)

/-- What a test found. -/
inductive Verdict where
  /-- every part passes: the state with the plans -/
  | pass (s : State)
  /-- the first part to fail: its actuator, and whether the power cap alone refuses it (02 R43, R44) -/
  | fail (act : Nat) (power : Bool)

/-- Mark SLOT_LIMIT on an actuator (02 Table 2.14). -/
def State.slotLimited (s : State) (a : Nat) (l : Bool) : State :=
  if l then s.modAdm a fun x => { x with slotLimit := true } else s

/-- Test every part in actuator order; parts that passed hold their positions while the next is tested (02 R44). The second
result carries the SLOT_LIMIT marks, which a refusal keeps. -/
def State.tryParts (s : State) (c : Cmd) (u : Nat → Nat) : List (Nat × PlanOp) → State → Verdict × State
  | [], keep => (.pass s, keep)
  | (a, n) :: t, keep =>
    let r := s.tryPart c u a n false
    let keep := keep.slotLimited a r.2
    match r.1 with
    | some s' => (s'.slotLimited a r.2).tryParts c u t keep
    | none => (.fail a (s.tryPart c u a n true).1.isSome, keep)

/-! ### Refusing, holding, admitting -/

/-- Hold a command unadmitted in its ledger entry (02 R34, R54). -/
def State.holdCmd (s : State) (c : Cmd) : State := s.modCmd c.id fun x => { x with phase := .held }

/-- Refuse a command with a status; its actuator's counter counts it (02 R42, R43). A bulk command is held instead (02 R34). R42 leaves open
whose counter a write refused for want of staging slots goes to, and a command refused on a host-port model: the model counts the former
at its first actuator when it is LANDED, and the latter at none (DESIGN CHOICE). -/
def State.refuse (s : State) (c : Cmd) (act : Option Nat) (power : Bool) : State :=
  if c.dc = 7 then s.holdCmd c
  else
    let s := match act with
      | some a => s.modAdm a fun x =>
          if power then { x with refusePwr := x.refusePwr + 1 } else { x with refuseDl := x.refuseDl + 1 }
      | none => s
    let s := s.modCmd c.id fun x => { x with lastAct := act, deadline := c.deadline, milestone := c.milestone }
    s.finish c.id (if power then Sts.notAdmittedPower else Sts.notAdmittedDeadline) 0

/-- Is an activation pause or a herd restart holding arrivals of one of these actuators (02 Table 2.5, 16 R418)? -/
def State.arrivalsHeld (s : State) (acts : List Nat) : Bool :=
  acts.any fun a => let x := (s.act a).adm; (x.hold && decide (s.now < x.holdEnd)) || x.restartHold

/-- Put an admitted command into its ledger entry. -/
def State.admitCmd (s : State) (c : Cmd) : State :=
  let s := s.modCmd c.id fun _ => { c with phase := .admitted, wasAdm := true }
  s.each ((c.parts.map fun p => bayOf p.act).eraseDups) fun s b => s.modSpin b fun x => { x with lastCmd := s.now }

/-- Is the command in its ledger entry waiting for this admission test, or held and tested again? -/
def Cmd.waiting (c : Cmd) (op : Nat) : Bool := c.op == BitVec.ofNat 8 op && (c.phase == .arrived || c.phase == .held)

end Sys2Proof.Machine
end

