-- ==== Sys2Proof/Machine/Sched.lean ====
section
/-! DEFINITION. The dispatch decision of an actuator, slack users and gait raises (02 R46, R47, R52). -/
namespace Sys2Proof.Machine

open Sys2Proof

/-! ### Formatter opcodes (07 Table 7.1) -/

/-- Opcode of a write by the region it goes to. -/
def writeOpc (pos : Nat) : Nat :=
  let r := pos / 65536
  if 2 ^ 28 ≤ r then 0x10 else if 2 ^ 22 ≤ r then 0x13 else if 2 ^ 21 ≤ r then 0x12 else if 2 ^ 20 ≤ r then 0x11 else 0x10

/-- Opcode of a plan operation. -/
def PlanOp.opcode (o : PlanOp) : Nat :=
  if o.again then 3 else if o.gkind = 4 then 4 else if o.gkind = 3 then 0x20 else if o.gkind = 1 ∨ o.gkind = 2 then 0x21
  else if o.kind = .rung ∧ o.step ≠ 7 then 3 else if o.kind = .journal then 0x13
  else if o.read then 1 else writeOpc o.pos

/-! ### The choice (02 R47) -/

/-- Weight of a function, of grazing (256) or of destage (257) on an actuator; landing-band destage has twice the grazing weight
while its free space is low (02 R47, 05 R139). -/
def State.weightOf (s : State) (a : Nat) (o : PlanOp) : Nat :=
  let e := s.epochOf a
  if 256 ≤ o.fn then
    let w := e.adm.grazeWgt.toNat
    if o.order = 10 ∧ (s.act a).med.landLow then 2 * w else w
  else (e.wgts.get (fun _ => 0x10) o.fn).toNat

/-- The operation of a queue started first: a bulk operation gives one quantum of at most a revolution and leaves the rest
(02 R52). -/
def PlanOp.quantum (o : PlanOp) : PlanOp × Option PlanOp :=
  if o.dc = 7 ∧ o.spt < o.count then
    ({ o with count := o.spt, keys := o.keys.take o.spt },
     some { o with pos := o.pos + o.spt, count := o.count - o.spt, keys := o.keys.drop o.spt, track := o.track + 1 })
  else (o, none)

/-- The queue left when operation `o` starts. -/
def restOf (q : List PlanOp) (o : PlanOp) : List PlanOp :=
  if o.kind = .grazing ∨ o.kind = .destage then q
  else match q.span fun x => x != o with
    | (l, []) => l
    | (l, _ :: t) => l ++ (o.quantum.2.toList) ++ t

/-- Work of the device's own that may use slack now: none while the actuator waits at the pause of a lowering (01 R25), none once posting has
stopped (02 R57). -/
def State.slackOps (s : State) (a : Nat) : List PlanOp :=
  if s.boot.postStop || ((s.act a).adm.queue.head?.any (·.kind == .pause)) then []
  else (s.squeezeOp a).toList ++ (s.grazeOp a).toList ++ (if (s.act a).med.mapRebuild then [] else (s.destageOp a).toList)

/-- May the work of a plan operation's command start: its data are there for a write, no head's inhibit or suspension stops it, and no work it
must follow is unfinished, on this plan or on its way into write staging (01 R20, 03 R81, R82; 07 R211)? -/
def State.inTurn (s : State) (a : Nat) (o : PlanOp) : Bool :=
  match s.cmd? o.cmd with
  | none => true
  | some c =>
    (o.read || o.kind != .media || (c.fetched && !s.inhibited a o.head c.id && !(s.act a).fmt.wsusp.getLsbD o.head)) && !(s.awaitsStaging c)
      && !((s.act a).adm.queue.any fun x => x.cmd != o.cmd && (s.ahead c).contains x.cmd)

/-- Operations that may start now, each with the plan that starting it leaves: those before the first pause, none ahead of one it must
follow, whose start leaves a slack-safe plan; the earliest-milestone one always (02 R46). -/
def State.eligible (s : State) (a : Nat) : List (PlanOp × List PlanOp) :=
  let q := (s.act a).adm.queue
  let p := s.plan a
  let own := if (s.act a).med.mapRebuild then [] else (q.takeWhile (·.kind != .pause)).filter (s.inTurn a)
  let first := (own.filter (·.promised)).foldl (fun m o => match m with
    | none => some o
    | some x => if o.milestone < x.milestone then some o else some x) (none : Option PlanOp)
  (own ++ s.slackOps a).filterMap fun o =>
    let trial := s.project a (o.quantum.1 :: restOf q o)
    if (first == some o) || (slackSafe (s.urgent a) p (trial.filter (·.cmd != 0) |>.filter fun x => x.dc != 7)
        && (!o.slot || o.dc != 7 || s.slotsFree a trial)) then some (o, trial) else none

/-- Place of a function among those served: later means served more recently. -/
def servedAt (l : List Nat) (f : Nat) : Nat := (l.zipIdx.foldl (fun n (g, i) => if g = f then i + 1 else n) 0)

/-- The better of two eligible operations of functions of non-zero weight (02 R47). Of two operations of one function with the same wait,
milestone and arrival, which R47 does not part, the one that stands later in the plan is taken (DESIGN CHOICE). -/
def State.better (s : State) (a : Nat) (x y : PlanOp × List PlanOp) : Bool :=
  let d := (s.act a).adm
  let f := x.1.fn
  let g := y.1.fn
  let vf := d.vtime.get (fun _ => 0) f
  let vg := d.vtime.get (fun _ => 0) g
  let wait (z : PlanOp × List PlanOp) : Nat := ((z.2.head?).map (·.mediaStart)).getD 0
  let mile (z : PlanOp × List PlanOp) : Nat := if z.1.promised then z.1.milestone else 2 ^ 64
  if f ≠ g then
    if vf ≠ vg then vf < vg
    else if servedAt d.served f ≠ servedAt d.served g then servedAt d.served f < servedAt d.served g else f < g
  else if wait x ≠ wait y then wait x < wait y
  else if mile x ≠ mile y then mile x < mile y
  else x.1.arrival ≤ y.1.arrival

/-- The operation the actuator starts: by virtual time among functions of non-zero weight; else the next weight-0 function in
number order after the one last served (02 R47). -/
def State.choose (s : State) (a : Nat) : Option (PlanOp × List PlanOp) :=
  let es := s.eligible a
  let pick := fun (l : List (PlanOp × List PlanOp)) => l.foldl (fun m e => match m with
    | none => some e
    | some x => if s.better a e x then some e else some x) (none : Option (PlanOp × List PlanOp))
  let w := es.filter fun e => s.weightOf a e.1 != 0
  if w.isEmpty then
    let last := (s.act a).adm.lastZero
    let rank := fun (f : Nat) => if last < f then f else f + 258
    match es.foldl (fun m e => match m with
      | none => some (rank e.1.fn)
      | some r => some (min r (rank e.1.fn))) (none : Option Nat) with
    | none => none
    | some r => pick (es.filter fun e => rank e.1.fn == r)
  else pick w

/-! ### Starting work -/

/-- A span of time that ends now joins a log of the last second (09 R260). -/
def logSpan (now : Nat) (log : List (Nat × Nat)) (from' : Nat) : List (Nat × Nat) :=
  (log.filter fun r => decide (now < r.2 + 1000000000)) ++ [(from', now)]

/-- Read offset of a step of rung 4 in 1/10,240 of a track: steps 3 to 6 are +5 %, -5 %, +10 % and -10 % of the pitch (06 R182). -/
def readOffset (step : Nat) : Int := if step = 3 then 512 else if step = 4 then -512 else if step = 5 then 1024 else if step = 6 then -1024 else 0

/-- Give the loop its target: track and head, and the offset of its reader or writer from calibration with the read offset asked for (08 R227, R231).
-/
def State.aim (s : State) (a : Nat) (o : PlanOp) : State :=
  let from_ := (s.act a).adm.endTrack
  s.modLoop a fun l =>
    { l with tgtTrack := o.track, tgtHead := o.head, tgtWrite := !o.read, tgtOff := (if o.read then (s.head a o.head).rdOff else (s.head a o.head).wrOff) + (if o.order = 5 then readOffset o.step else 0), seekStart := s.now, seeking := true,
             seekBound := s.seekBound a o.gait from_ o.track, seekDist := trackDist from_ o.track }

/-- The formatter command of a plan operation. -/
def PlanOp.fmtCmd (o : PlanOp) : FmtCmd :=
  { opc := BitVec.ofNat 8 o.opcode, cmd := o.cmd, fn := o.fn, head := o.head, track := o.track, pos := o.pos, count := o.count,
    spt := o.spt, grazeOrder := o.order, gkind := o.gkind, k := o.k, kTot := o.kTot, step := o.step, ref := o.ref, keys := o.keys, mark := o.mark,
    prior := o.prior }

/-- An operation cut at a recording-zone boundary, and what is left of a command's, which goes on from the head of the plan (06 R155). -/
def PlanOp.atZone (zs : List RecZone) (o : PlanOp) : PlanOp × List PlanOp :=
  let n := zoneRoom zs o
  if n = 0 ∨ o.count ≤ n ∨ o.again then (o, [])
  else
    let r := o.pos % 65536 + n
    ({ o with count := n, keys := o.keys.take n, mediaEnd := o.mediaStart + (o.mediaEnd - o.mediaStart) * n / o.count },
     if o.cmd = 0 then []
     else [{ o with mark := none, prior := 0, pos := o.pos / 65536 * 65536 + r, count := o.count - n, keys := o.keys.drop n, track := o.track + (n + o.spt - 1) / o.spt,
                    angle := 0, pre := 0 }])

/-- The RATE entry of a transfer, issued between transfers, brings the read and write clocks of its recording zone and gait into force (06 R155, 10
R284). -/
def State.setRate (s : State) (a : Nat) (o : PlanOp) : State :=
  let v := rateOf (s.act a).med.zones o.track o.gait
  if v = 0 ∨ (s.act a).cwy.rate.toNat = v then s
  else (s.modAct a fun x => { x with cwy := { x.cwy with rate := BitVec.ofNat 16 v, wrate := BitVec.ofNat 16 v } }).emit
    (.rate a (BitVec.ofNat 16 v) (BitVec.ofNat 16 v))

/-- The heater code of an operation's head and power is in force from its head select on (07 R212). -/
def State.setHeater (s : State) (a : Nat) (o : PlanOp) : State :=
  let x := s.act a
  let code := s.heaterFor a o.head o.read
  if code = x.adm.heater ∧ o.head = x.adm.endHead then s
  else (s.modAdm a fun x => { x with heater := code }).emit (.heater a o.head code x.cwy.dlat)

/-- An operation runs on an actuator, the rest of the plan behind it: rate, heater and the loop's target are its own. A grazing quantum brings
CFG_GRZ_CFG into force (12 R359). -/
def State.beginOp (s : State) (a : Nat) (r : PlanOp) (rest : List PlanOp) : State :=
  let s := ((s.setRate a r).setHeater a r).modAdm a fun x => { x with running := some r, queue := rest, gaitPlan := BitVec.ofNat 2 r.gait }
  let s := if r.kind = .grazing then s.modCfg fun c => { c with scrubDNow := c.scrubD, margIterNow := c.margIter } else s
  s.aim a r

/-- Start an operation: it runs, and its formatter command is queued, behind that of its map intent when it has one (07 R199). -/
def State.startOp (s : State) (a : Nat) (o : PlanOp) (trial : List PlanOp) : State :=
  match trial with
  | [] => s
  | r :: rest =>
    let (r, more) := r.atZone (s.act a).med.zones
    let w := s.weightOf a o
    let s := (s.beginOp a r (more ++ rest)).modAdm a fun x =>
      { x with served := x.served.filter (· != o.fn) ++ [o.fn], lastZero := if w = 0 then o.fn else x.lastZero }
    let q : FmtCmd := { r.fmtCmd with stamp := s.stage.next }
    let clear := if q.opc = 0x10 then s.clearBits q.keys else []
    let intent : FmtCmd := { opc := 0x13, cmd := q.cmd, fn := q.fn, pos := reservedRegion * 65536, count := 1, keys := clear }
    let s := s.modFmt a fun x => { x with queue := x.queue ++ (if clear.isEmpty then [q] else [intent, q]) }
    s.modCmd o.cmd fun c => { c with dispatchAt := s.now }

/-- Is the actuator able to start media work: in service, its heads off the ramp, its spindle at a gait, nothing running, a formatter queue
slot free? -/
def State.mayStart (s : State) (a : Nat) : Bool :=
  let sp := (s.bay (bayOf a)).spin
  let m := (s.act a).loop.mode
  (s.act a).adm.running.isNone && !(s.offline a) && !sp.moving && sp.gait != 0 && decide (2 ≤ m.toNat ∧ m.toNat ≤ 4)
    && decide ((s.act a).fmt.queue.length < 3) && !(s.act a).fmt.hold
    && !((s.act a).adm.hold && decide (s.now < (s.act a).adm.holdEnd))

/-! ### Gait raises (02 R52, 09 R259, R260) -/

/-- Does a pause at the head of both plans leave them slack-safe? -/
def State.pauseFits (s : State) (b : Nat) (p : PlanOp) : Bool :=
  [2 * b, 2 * b + 1].all fun a =>
    let q := (s.act a).adm.queue
    let trial := s.project a (p :: q)
    (s.act a).adm.running.isNone && slackSafe (s.urgent a) (s.plan a) trial

/-- Both plans of a bay are projected anew. -/
def State.replanBay (s : State) (b : Nat) : State := (s.replan (2 * b)).replan (2 * b + 1)

/-- Start a raise to the target gait when it is a slack-safe change, a token is free and no power-state entry is in progress; with none
free, ask for one (09 R259, R260, R265). -/
def State.tryRaise (s : State) (b : Nat) : State :=
  let sp := (s.bay b).spin
  let p : PlanOp := { kind := .pause, pre := transNs sp.gait.toNat sp.target.toNat, gait := sp.target.toNat, slot := false }
  let due := sp.gait != 0 && sp.gait < sp.target && !sp.moving && sp.pstate == 0 && sp.state == 5 && decide (sp.target.toNat ≤ s.ceil b)
  if due && s.tokenFree b && s.pauseFits b p then
    (s.modSpin b fun x =>
      { x with moving := true, raising := true, spinUp := false, goal := x.target, token := true, tokwait := false, state := 4,
               pauseEnd := s.now + p.pre, lockAt := s.now + p.pre, inBand := 0, lowerTo := none }).replanBay b
  else if due && !(s.tokenFree b) && !sp.tokwait then s.modSpin b fun x => { x with tokwait := true, tokKind := 2, tokAt := s.now }
  else s

/-! ### Gait lowerings (01 R25, 09 R259, R263) -/

/-- Planned pause of a lowering: at 1,200 rpm/s, at the calibrated coast deceleration while the domain's chopper fails (09 R259, R269). -/
def State.lowerNs (s : State) (b g g' : Nat) : Nat :=
  if (s.dom (domOf b)).chop then (gaitRpm g - gaitRpm g') * 1000000000 / max 1 (s.bay b).spin.cal.coastDec + 200000000 else transNs g g'

/-- Where position `i` of a plan begins. -/
def State.startAt (s : State) (a i : Nat) : Nat :=
  match ((s.plan a).take i).getLast? with
  | some o => o.mediaEnd
  | none => (s.planStart a).t

/-- Both plans of a bay with the pause of a lowering at positions `i` and `j`, its start at the later of the two, and that start. -/
def State.lowerPlans (s : State) (b g i j : Nat) : (List PlanOp × List PlanOp) × Nat :=
  let x := s.startAt (2 * b) i
  let y := s.startAt (2 * b + 1) j
  let ns := s.lowerNs b (s.bay b).spin.gait.toNat g
  let at' (a k t : Nat) : List PlanOp :=
    s.project a (insertAt (s.act a).adm.queue k { kind := .pause, pre := max x y - t + ns, gait := g, slot := false })
  ((at' (2 * b) i x, at' (2 * b + 1) j y), max x y)

/-- The earliest pair of positions at which the pause of a lowering leaves every admitted command feasible; the pair behind both plans
always qualifies (01 R25). -/
def State.placeLower (s : State) (b g : Nat) : List PlanOp × List PlanOp :=
  let m := (s.act (2 * b)).adm.queue.length
  let n := (s.act (2 * b + 1)).adm.queue.length
  let all := (List.range (m + 1)).flatMap fun i => (List.range (n + 1)).map fun j => s.lowerPlans b g i j
  let ok := all.filter fun p => cond1 p.1.1 && cond1 p.1.2
  (ok.foldl (fun (m : (List PlanOp × List PlanOp) × Nat) p => if p.2 < m.2 then p else m) (s.lowerPlans b g m n)).1

/-- Take the pauses of a lowering out of both plans of a bay. -/
def State.dropPauses (s : State) (b : Nat) : State :=
  (s.each [2 * b, 2 * b + 1] fun s a => s.modAdm a fun x => { x with queue := x.queue.filter (·.kind != .pause) }).replanBay b

/-- The pauses of a planned lowering lead to the lower gait `g`, where they stand. -/
def State.longerPause (s : State) (b g : Nat) : State :=
  let re (o : PlanOp) : PlanOp := if o.kind == .pause then { o with gait := g, pre := o.pre + s.lowerNs b o.gait g } else o
  (s.each [2 * b, 2 * b + 1] fun s a => s.modAdm a fun x => { x with queue := x.queue.map re }).replanBay b

/-- Place the pause of a lowering to gait `g` in both plans (01 R25). -/
def State.lowerAnew (s : State) (b g : Nat) : State :=
  let q := s.placeLower b g
  ((s.setPlan (2 * b) q.1).setPlan (2 * b + 1) q.2).modSpin b fun x => { x with lowerTo := some (BitVec.ofNat 2 g) }

/-- Plan a lowering of bay `b` to gait `g`, or none when `g` is no lower than the running gait: a planned one that has not started is taken
out, or keeps its place where the longer pause leaves every admitted command feasible there, and is placed anew where it does not. A lowering to Stand
has no pause (01 R25, 09 R263). -/
def State.planLower (s : State) (b g : Nat) : State :=
  let p := (s.bay b).spin
  if p.gait = 0 ∨ p.moving then s
  else if p.gait.toNat ≤ g then (if p.lowerTo.isSome then (s.dropPauses b).modSpin b fun x => { x with lowerTo := none } else s)
  else if p.lowerTo = some (BitVec.ofNat 2 g) then s
  else if g = 0 then (if p.lowerTo.isSome then s.dropPauses b else s).modSpin b fun x => { x with lowerTo := some 0 }
  else if p.lowerTo.isSome ∧ p.lowerTo ≠ some 0 then
    let s' := s.longerPause b g
    if cond1 (s'.act (2 * b)).adm.queue && cond1 (s'.act (2 * b + 1)).adm.queue then
      s'.modSpin b fun x => { x with lowerTo := some (BitVec.ofNat 2 g) }
    else (s.dropPauses b).lowerAnew b g
  else s.lowerAnew b g

/-- Has the plan of actuator `a` reached the pause of a lowering? On an actuator out of service bulk work does not keep the pause waiting (01
R25). -/
def State.atPause (s : State) (a : Nat) : Bool :=
  let d := (s.act a).adm
  d.running.isNone && ((d.queue.find? fun o => o.kind == .pause || !(s.offline a) || o.promised).map (·.kind)) == some .pause

/-- Start a planned lowering once both plans have reached its pause (01 R25, 09 R259). -/
def State.tryLower (s : State) (b : Nat) : State :=
  let p := (s.bay b).spin
  match p.lowerTo with
  | none => s
  | some g =>
    if g != 0 && !p.moving && s.atPause (2 * b) && s.atPause (2 * b + 1) then
      let t := s.now + s.lowerNs b p.gait.toNat g.toNat
      let s := s.modSpin b fun x =>
        { x with moving := true, raising := false, spinUp := false, goal := g, state := 7, pauseEnd := t, lockAt := t, inBand := 0, lowerTo := none }
      s.dropPauses b
    else s

/-- A running quantum of grazing, destage or bulk work ends at its next sector boundary or waymark when an admitted command becomes
eligible ahead of it (02 R52, 07 Table 7.2). -/
def State.yieldQuantum (s : State) (a : Nat) : State :=
  match (s.act a).adm.running with
  | some r =>
    if (r.cmd = 0 ∨ r.dc = 7) ∧ (s.eligible a).any (fun e => e.1.promised) then
      s.modFmt a fun f => { f with running := f.running.map fun q => if q.req.cmd = r.cmd then { q with endAt := true } else q }
    else s
  | none => s

/-- Has function `f` work queued on actuator `a`, or running there (02 R47)? -/
def State.hasWork (s : State) (a f : Nat) : Bool :=
  let d := (s.act a).adm
  (d.running.toList ++ d.queue).any (fun o => o.kind != .pause && o.fn == f) || (s.slackOps a).any (·.fn == f)

/-- At a dispatch point a function that had nothing queued starts, its work now eligible, at the larger of its own virtual time and the smallest
of the active functions; grazing and destage likewise. A function of weight 0 is none of the active ones, and starts so when its weight
rises (02 R47). -/
def State.joinIn (s : State) (a : Nat) : State :=
  let d := (s.act a).adm
  let es := s.eligible a
  let weighs (f : Nat) : Bool := s.weightOf a { fn := f } != 0
  let act := d.joined.filter fun f => s.hasWork a f && weighs f
  let new := ((es.map (·.1.fn)).eraseDups).filter fun f => weighs f && !act.contains f
  let v (f : Nat) : Nat := d.vtime.get (fun _ => 0) f
  let low := (act.map v).foldl (fun m x => match m with
    | none => some x
    | some y => some (min x y)) (none : Option Nat)
  s.modAdm a fun x => { x with joined := act ++ new, vtime := new.foldl (fun t f => t.put f (max (v f) (low.getD 0))) x.vtime }

/-- A dispatch point of actuator `a`: a due gait raise, then the eligible operation chosen by R47. -/
def State.dispatch (s : State) (a : Nat) : State :=
  let s := (s.landCheck a).joinIn a
  let s := if (s.act a).adm.running.isNone then (s.tryLower (bayOf a)).tryRaise (bayOf a) else s
  if s.mayStart a then
    match s.choose a with
    | some (o, trial) => s.startOp a o trial
    | none => s
  else s.yieldQuantum a

/-- An arrival on idle actuators is a dispatch point (02 R46). -/
def State.dispatchAll (s : State) (as : List Nat) : State := s.each as State.dispatch

end Sys2Proof.Machine
end

