-- ==== Sys2Proof/Machine/Data.lean ====
section
/-! DEFINITION. Where sectors are held, and how their data move: staging, delivery, commits (05 R137 to R140). -/
namespace Sys2Proof.Machine

open Sys2Proof

/-! ### Sectors and host buffers (03 R68, R69) -/

/-- Pieces of the buffer that hold bytes `off` to `off + len − 1`: host address and length. -/
def bufPieces : List (Nat × Nat) → Nat → Nat → List (Nat × Nat)
  | [], _, _ => []
  | (a, n) :: t, off, len =>
    if len = 0 then [] else if n ≤ off then bufPieces t (off - n) len
    else
      let k := min (n - off) len
      (a + off, k) :: bufPieces t 0 (len - k)

/-- Bytes of the buffer the walk has met. -/
def Cmd.bufLen (c : Cmd) : Nat := (c.bufs.map (·.2)).sum

/-- Write data to a command's buffer from byte `off`. -/
def State.writeBuf (s : State) (c : Cmd) (off : Nat) (d : List Byte) : State :=
  ((bufPieces c.bufs off d.length).foldl (fun (st : State × List Byte) (a, k) =>
    (st.1.emit (.hostData c.fn a (s.fn c.fn).relaxed (st.2.take k)), st.2.drop k)) (s, d)).1

/-- Bytes of a command's buffer (03 Table 3.2). -/
def Cmd.bufSize (c : Cmd) : Nat := if c.op = 5 ∨ c.op = 0x0A then c.arg0 * 32 else c.len * 4096

/-- Ask host memory for bytes of a command: `list` a segment of its scatter list, else its data. While the function may issue no
request, the read waits for it (04 R121). -/
def State.askHost (s : State) (c : Cmd) (list : Bool) (addr len : Nat) : State :=
  let f := s.fn c.fn
  if len = 0 then s
  else if f.bme && !f.d3 then
    (s.emit (.hostRead c.fn addr len f.relaxed)).modFn c.fn fun x =>
      { x with rdOut := x.rdOut ++ [{ id := c.id, list := list, left := len, at_ := s.now }] }
  else s.modCmd c.id fun x => { x with asks := x.asks ++ [(list, addr, len)] }

/-- Does the command write host data to the device? -/
def Cmd.takesData (c : Cmd) : Bool := c.op = 2 || c.op = 3

/-- Begin the data movement of an admitted command: the buffer of a contiguous one is known, and a scatter list's first segment
is read; a write's data are read (01 R17, 03 R68, R69). -/
def State.openBuf (s : State) (id : Nat) : State :=
  match s.cmd? id with
  | none => s
  | some c =>
    if c.win then s
    else if c.sgl then (s.modCmd id fun c => { c with walkLeft := c.dcnt }).askHost c true c.dptr (16 * c.dcnt)
    else
      let s := s.modCmd id fun c => { c with bufs := [(c.dptr, c.bufSize)], walk := c.bufSize }
      if c.takesData then s.askHost c false c.dptr c.bufSize else s

/-! ### Reads -/

/-- Sectors of a command. -/
def Cmd.lbas (c : Cmd) : List Nat := (List.range c.len).map (c.slba + ·)

/-- An admitted read takes what needs no media: copies in staging and cache are pinned and ready, zeros are ready, poisoned
sectors will not be delivered. -/
def State.readyNow (s : State) (c : Cmd) : State :=
  c.lbas.foldl (fun s l =>
    if s.poisonedRead c.id c.nsid l then s.modCmd c.id fun x => { x with unresolved := x.unresolved ++ [l] }
    else match s.stagedFor c.id c.nsid l, s.cachedCopy c.nsid l with
      | some w, _ => (s.pin c.id w.sec).modCmd c.id fun x => { x with ready := x.ready ++ [l] }
      | none, some r => (s.pin c.id r.sec).modCmd c.id fun x => { x with ready := x.ready ++ [l] }
      | none, none =>
        if s.readsZero c.nsid l then (s.pin c.id (zeroSector c.nsid l)).modCmd c.id fun x => { x with ready := x.ready ++ [l] }
        else s) s

/-- A read whose sectors are all delivered or poisoned ends: SUCCESS, or DATA_POISONED with the count not delivered; a CONT_READ
with RELEASE removes its entry at its SUCCESS (03 R92, Table 3.7). -/
def State.readDone (s : State) (id : Nat) : State :=
  match s.cmd? id with
  | none => s
  | some c =>
    if c.delivered.length + c.unresolved.length < c.len then s
    else if c.unresolved.isEmpty then
      let s := if c.op = 0x0B ∧ c.arg1 = 1 then { s with recs := s.recs.filter fun r => r.id.toNat != c.arg0 || r.fn != c.fn } else s
      s.finish id Sts.success 0
    else s.finish id Sts.dataPoisoned c.unresolved.length

/-- One sector crosses to the host buffer; a silent command's of a function that may issue no request ends unsent (06 R174, 03 R16,
R86). -/
def State.deliver (s : State) (c : Cmd) (lba : Nat) (x : Sector) (sends : Bool) : State :=
  let s := if sends then s.writeBuf c ((lba - c.slba) * 4096) x.bytes else s
  let a := s.actOf c.nsid lba
  let s := s.mapR fun r =>
    if r.pins.contains c.id && r.sec.lba == lba && r.sec.nsid == c.nsid then { r with deliveredAt := max 1 s.now } else r
  let s := s.modCmd c.id fun y =>
    let del := y.delivered ++ [lba]
    let cnt (p : Part) : Nat := (del.filter fun l => s.actOf c.nsid l == p.act).length
    { y with waymark := true, delivered := del, ready := y.ready.filter (· != lba), promised := y.promised - 4096,
             lastAct := if y.hostModel then y.lastAct else some a,
             parts := y.parts.map fun p => if p.act == a && decide (p.count ≤ cnt p) then { p with done := true, fin := s.now } else p }
  s.readDone c.id

/-! ### Writes -/

/-- Take a staged sector out of staging. -/
def State.freeSlot (s : State) (order : Nat) : State :=
  { s with stage := { s.stage with wslots := s.stage.wslots.filter (·.order != order) } }

/-- Slots of area 10 that overlap a fenced range: they are retired (11 R332). -/
def State.retiredSlots (s : State) : Nat :=
  let lo := (s.area 10).base.toNat * 2 ^ 28
  let n := (s.area 10).size.toNat * 2 ^ 28 / 4224
  let hit (x : Nat) : List Nat := if x + 4096 ≤ lo then [] else (List.range ((x + 4095 - lo) / 4224 + 1 - (x - lo) / 4224)).map ((x - lo) / 4224 + ·)
  ((s.mem.fenced.flatMap hit).filter (· < n)).eraseDups.length

/-- Write-staging slots in all: area 10 in granules of 256 MiB, 4,224 bytes a slot, those retired apart (11 R311, R332). -/
def State.stageSlots (s : State) : Nat := (s.area 10).size.toNat * 268435456 / 4224 - s.retiredSlots

/-- Write-staging slots free to reserve. -/
def State.stageFree (s : State) : Nat :=
  s.stageSlots - s.stage.wslots.length - (s.stage.wres.map (·.count)).sum

/-- When free slots fall below 10 %, slots whose sectors also have a landing-band copy are freed, oldest first, until the count
asked for is free (11 R311). -/
def State.freeLanded (s : State) : State :=
  let low := s.stageSlots / 10
  if low ≤ s.stageFree then s else
    let drop := ((s.stage.wslots.filter fun w => w.inLand && w.cmd == 0).map (·.order)).take (low - s.stageFree)
    s.modStage fun x => { x with wslots := x.wslots.filter fun w => !drop.contains w.order }

/-- A Recovery List entry that a newly admitted write overlaps becomes STALE; its data go unless a CONT_READ admitted on it still
needs them (03 R92, R93). -/
def State.staleRecs (s : State) (n lba len : Nat) : State :=
  let hit (r : RecEntry) : Bool := r.nsid == n && decide (lba < r.slba + r.count ∧ r.slba < lba + len) && r.st != .stale
  (s.mapRec fun r =>
    if hit r then { r with st := .stale, time := s.now, data := if r.readers.isEmpty then [] else r.data } else r).raiseFns
    ((s.recs.filter hit).map (·.fn)) 7

/-- Invalidate the unpinned cached copies of a range (11 R311). -/
def State.dropCached (s : State) (n lba len : Nat) : State :=
  let hit (r : RSlot) : Bool := r.sec.nsid == n && decide (lba ≤ r.sec.lba ∧ r.sec.lba < lba + len)
  (s.modStage fun x => { x with rslots := x.rslots.filter fun r => !(hit r && r.pins.isEmpty) }).mapR fun r =>
    if hit r then { r with deliveredAt := 0 } else r

/-- The sectors of a write, from the bytes of its data. -/
def Cmd.sectors (c : Cmd) (keyslot : Nat) (kg : Word) (d : List Byte) : List Sector :=
  (List.range c.len).map fun i =>
    { nsid := c.nsid, lba := c.slba + i, gen := c.gen, keyslot := keyslot, keyGen := kg, data := (d.drop (4096 * i)).take 4096 }

/-- Encrypt a write's data into write staging, the reservation turning into slots (01 R17, R18, 02 R45). -/
def State.stageWrite (s : State) (c : Cmd) (d : List Byte) : State :=
  let n := s.ns c.nsid
  let xs := c.sectors n.keyslot (s.key n.keyslot).gen d
  let ws := (xs.zipIdx).map fun (x, i) =>
    { order := s.stage.next + i, sec := x, cmd := c.id, src := c.id, fn := c.fn, act := (n.locate x.lba).1 : WSlot }
  let s := s.modStage fun x => { x with wslots := x.wslots ++ ws, next := x.next + c.len, wres := x.wres.filter (·.cmd != c.id) }
  s.modCmd c.id fun x => { x with fetched := true }

/-- A sector of the write of ledger order `src` has become persistent: staged copies that arrived before it are superseded, and a FLUSH that
covers the sector no longer waits for it, unless newer data in staging have superseded it there (03 R81, R84; 05 R138). -/
def State.persisted (s : State) (x : Sector) (src : Nat) : State :=
  let same (w : WSlot) : Bool := w.sec.nsid == x.nsid && w.sec.lba == x.lba && s.slotCommitted w && !w.inBand
  let newer := s.stage.wslots.any fun w => same w && decide (src < w.src) && !w.inLand
  let s := s.modStage fun g => { g with wslots := g.wslots.filter fun w => !(same w && decide (w.src < src)) }
  if newer then s else s.mapCmds fun c => { c with covered := c.covered.filter (· != secKey x.nsid x.lba) }

/-- A sector of the write of ledger order `src` is persistent in its final place: the newest copy there, its written-map bit set; older copies are
superseded, and no table names it lost (05 R137, R138, 11 R325, 12 R344). -/
def State.commitFinal (s : State) (x : Sector) (src : Nat) : State :=
  let a := s.actOf x.nsid x.lba
  let fresh := !(s.ns x.nsid).zoned && (s.media.find (secKey x.nsid x.lba)).isNone
  let s := if fresh then s.modMed a fun m => { m with unsaved := m.unsaved ++ [secKey x.nsid x.lba] } else s
  let s := { s with media := s.media.put (secKey x.nsid x.lba) x }
  let void (l : LSlot) : LSlot := if l.st == .live && !l.inBand && l.sec.nsid == x.nsid && l.sec.lba == x.lba then { l with st := .void } else l
  let s := s.modMed a fun m => { m with landing := m.landing.map void }
  let s := s.modGraze a fun g => { g with unread := g.unread.filter fun u => !(u.nsid == x.nsid && u.lba == x.lba) }
  s.persisted x src

/-- A zone's committed state enters the band journal as it changes, so that the pointer scan of the next start finds the zone open; with the
buffer alone it could be lost (05 R140, 07 R200; DEDUCED). -/
def State.recordZone (s : State) (n lba : Nat) : State :=
  let z := s.zone (zoneKey n lba)
  let (a, r, _) := (s.ns n).locate lba
  s.modFmt a fun f => { f with jstate := f.jstate ++ [{ kind := 1, unit := r - 2 ^ 20, st := z.com, wp := z.comWp }] }

/-- Change a zone; a change of its committed state is journalled (05 R140). -/
def State.changeZone (s : State) (n lba : Nat) (g : Zone → Zone) : State :=
  let t := s.modZone (zoneKey n lba) g
  if (t.zone (zoneKey n lba)).com = (s.zone (zoneKey n lba)).com then t else t.recordZone n lba

/-- The zone's committed write pointer advances over a sector, and its committed state with it (05 R133). -/
def State.advanceCom (s : State) (n lba : Nat) : State :=
  if (s.ns n).zoned then
    s.changeZone n lba fun z =>
      let w := max z.comWp (lba % 65536 + 1)
      { z with comWp := w, com := if w = 65536 ∨ z.com = .full then .full else if z.adm = .full ∨ z.adm = .empty then .implicitOpen else z.adm }
  else s

/-- A record of the reserved media area is written twice, 1 GiB apart, with the next sequence number (05 R128). Where in the area a kind lies is
not stated. -/
def Med.putRec (m : Med) (kind : Nat) : Med :=
  { m with recs := Tab.upd (fun k => { seq := 0, pos0 := k, pos1 := k + 2 ^ 30 / 4096 }) m.recs kind fun r => { r with seq := r.seq + 1 } }

/-- Number of an HDA record among those of the reserved media area (05 R128). -/
def calKind (typ head : Nat) : Nat := 256 * typ + head

/-- Records of these kinds are written, and the tracks of both copies counted (05 R128, R146). -/
def State.putRecords (s : State) (a : Nat) (kinds : List Nat) : State :=
  (s.modMed a fun m => kinds.foldl Med.putRec m).worn a
    (kinds.flatMap fun k => s.atiGroups a reservedRegion k ++ s.atiGroups a reservedRegion (k + 2 ^ 30 / 4096))

/-- The band journal buffer of an actuator is written to the reserved media area: with it the committed write pointers of its zones and the
written-map bits set since (05 R137, R140; 07 R198). -/
def State.flushJournal (s : State) (a : Nat) : State :=
  let save (k : Nat) (z : Zone) : Zone :=
    let n := k / 2 ^ 24
    let l := k % 2 ^ 24 * 65536
    if s.actOf n l = a then
      { z with jwp := z.comWp, jgen := if z.comWp = 0 then 0 else ((s.newestMedia n (l + z.comWp - 1)).map (·.gen)).getD z.jgen }
    else z
  let s := { s with zones := s.zones.map fun (r : Nat × Zone) => (r.1, save r.1 r.2) }
  ((s.modMed a fun m => { m with unsaved := [] }).putRecords a [1, 2]).modFmt a fun f => { f with journal := f.journal ++ f.jbuf, jbuf := [], jlast := s.now }

/-! ### Landing band (05 R139) -/

/-- Allocate `k` slots along the log from slot number `p`: a segment is entered at its first slot only when it is free and its
track group and head are not held (05 R139, R147, 12 R351). `n` bounds the walk. -/
def allocSlots (used skip : Nat → Bool) : Nat → Nat → Nat → Option (List Nat × Nat)
  | _, 0, p => some ([], p)
  | 0, _ + 1, _ => none
  | n + 1, k + 1, p =>
    let p := p % (2048 * 255)
    let g := p / 255
    if skip g || (p % 255 == 0 && used g) then allocSlots used skip n (k + 1) ((g + 1) * 255)
    else (allocSlots used skip n k (p + 1)).map fun r => (p :: r.1, r.2)

/-- Landing slots for a command of `k` sectors on actuator `a`. -/
def State.landAlloc (s : State) (a k : Nat) : Option (List Nat × Nat) :=
  let m := (s.act a).med
  let used := m.segsUsed
  allocSlots (used.contains ·)
    (fun g => s.atiHolds a (landRegion g * 65536) 256 || (s.head a (s.placeOf a (landRegion g) 0).head).final)
    (k + 2048) k m.landNext

/-- Reserve landing slots (05 R139). A segment entered at its first slot starts anew: its record header names none. -/
def State.landReserve (s : State) (a id : Nat) (r : List Nat × Nat) : State :=
  let again (g : Nat) : Bool := r.1.contains (g * 255)
  (s.modMed a fun m =>
    { m with landing := m.landing.filter (fun l => !(l.st == .void && (r.1.contains (l.seg * 255 + l.idx) || again l.seg)))
                          ++ r.1.map (fun p => { seg := p / 255, idx := p % 255, cmd := id }), landNext := r.2,
             landHdr := m.landHdr.filter fun h => !(again (h.1 / 255)) }).landCheck a

/-- A sector has been written to a landing slot, and the segment's record header, written ahead of its waymark, names it (05 R139). -/
def Med.fillSlot (m : Med) (seg idx : Nat) (x : Sector) : Med :=
  { m with landing := m.landing.map fun l => if l.seg = seg ∧ l.idx = idx then { l with st := .live, cmd := 0, sec := x } else l,
           landHdr := m.landHdr.put (seg * 255 + idx) { nsid := x.nsid, lba := x.lba, gen := x.gen } }

end Sys2Proof.Machine
end

