-- ==== Sys2Proof/Machine/Format.lean ====
section
/-! DEFINITION. Bay media states, and what a format clears and completes (05 R149 to R153). -/
namespace Sys2Proof.Machine

open Sys2Proof

/-- A bay takes a media state; bay event 1 latches at each change, and the namespaces' readiness follows (05 R153). -/
def State.setMedia (s : State) (b v : Nat) : State :=
  if (s.bay b).link.media.toNat = v then s
  else ((s.modLink b fun x => { x with media := BitVec.ofNat 4 v }).raise (bayEvt b 1)).refreshNs

/-- Is an actuator format running on actuator `a`? -/
def State.formatting (s : State) (a : Nat) : Bool := s.fmts.any fun o => !o.nsFmt && o.act == a && o.st != 3

/-- The media state the identity records of a bay's actuators give it (05 Table 5.9). Where the two differ the table gives no precedence: a record
of another bay comes before one of another device, and that before none (DESIGN CHOICE). -/
def State.identityState (s : State) (b : Nat) : Nat :=
  let i := (s.act (2 * b)).med.identity
  let j := (s.act (2 * b + 1)).med.identity
  if s.formatting (2 * b) || s.formatting (2 * b + 1) then 7
  else if i = 1 ∧ j = 1 then 2
  else if i = 2 ∨ j = 2 then 3
  else if i = 3 ∨ j = 3 then 4
  else 5

/-- Discard a namespace's contents: its written map, its zones' states, its landing, staged and cached data; a FLUSH waits
for none of them (05 R149). -/
def State.clearNs (s : State) (n : Nat) : State :=
  let ofNs (x : Sector) : Bool := x.nsid == n
  let s := { s with media := s.media.filter fun r => r.1 / 2 ^ 48 != n, zones := s.zones.filter fun r => r.1 / 2 ^ 24 != n }
  let s := s.modStage fun x =>
    { x with wslots := x.wslots.filter fun w => !(ofNs w.sec), rslots := x.rslots.filter fun r => !(ofNs r.sec) }
  let s := s.mapCmds fun c => { c with covered := c.covered.filter fun k => k / 2 ^ 48 != n }
  s.each (s.ns n).actset fun s a => s.modMed a fun m =>
    { m with landing := m.landing.map (fun l => if ofNs l.sec && l.st == .live then { l with st := .void } else l),
             landHdr := m.landHdr.filter fun h => h.2.nsid != n, unsaved := m.unsaved.filter fun k => k / 2 ^ 48 != n }

/-- An actuator format is complete: the new layout and identity record are in force and the band journal is empty (05 R127, R149). -/
def State.actFormatted (s : State) (a pct : Nat) : State :=
  let s := (s.modMed a fun m =>
    { m with convPct := pct, places := [], landing := [], landNext := 0, landLow := false, landHdr := [], jsegs := [], unsaved := [],
             identity := 1 : Med }.layOut).putRecords a [0]
  s.modFmt a fun x => { x with jbuf := [], journal := [], jstate := [] }

/-- Units of a format operation that are done. -/
def FmtOp.done (o : FmtOp) : Nat := (o.doneAt.map (·.2)).sum

/-- After its last unit, and for an actuator the certification of its island, a format operation is DONE and what it held back becomes ready (05
R149, R151). -/
def State.fmtCheck (s : State) (id : Nat) : State :=
  match s.fmts.find? (·.id == id) with
  | none => s
  | some o =>
    if o.done < o.total ∨ (!o.nsFmt ∧ o.cert < 2) ∨ o.st = 3 then s
    else
      let s := s.mapFmt fun x => if x.id = id then { x with st := 3 } else x
      if o.nsFmt then (s.modNs o.nsid fun n => { n with formatting := false }).refreshNs
      else
        let s := s.actFormatted o.act o.convPct
        s.setMedia (bayOf o.act) (s.identityState (bayOf o.act))

/-- The actuators a format works on. -/
def State.formatActs (s : State) (o : FmtOp) : List Nat := if o.nsFmt then (s.ns o.nsid).actset else [o.act]

/-- What a format has left to do on actuator `a`, as grazing: its units, and behind an actuator format's the write and the read pass that certify
the island (05 R149, R151). -/
def State.formatOps (s : State) (o : FmtOp) (a : Nat) : List GrazeOp :=
  let left := o.total / max 1 (s.formatActs o).length - o.doneAt.get (fun _ => 0) a
  let units : GrazeOp := { order := 13, pos := reservedRegion * 65536, count := left, isRead := false, ref := o.id }
  let pass (k : Nat) : GrazeOp := { units with count := islandSectors / 256, isRead := k == 2, step := k }
  (if left = 0 then [] else [units]) ++ if o.nsFmt then [] else ([1, 2].filter (o.cert < ·)).map pass

/-- A unit of a format operation is done on actuator `a`: its progress is written to the reserved media area (05 R128, R151). -/
def State.fmtUnit (s : State) (a id : Nat) : State :=
  ((s.mapFmt fun o => if o.id = id then { o with doneAt := Tab.upd (fun _ => 0) o.doneAt a (· + 1) } else o).putRecords a [5]).fmtCheck id

/-- A pass of the certification of an actuator's island is done: 1 the write pass, 2 the read pass (05 R149). -/
def State.fmtCert (s : State) (a id k : Nat) : State :=
  ((s.mapFmt fun o => if o.id = id then { o with cert := max o.cert k } else o).putRecords a [5]).fmtCheck id

/-! ### What a sanitize does (16 R431, R432, Table 16.9) -/

/-- What namespace `n` keeps in staging, landing band, read cache, Recovery List, Poison List and the tables of unreadable sectors goes with its
written map and zone states. -/
def State.purgeNs (s : State) (n : Nat) : State :=
  let s := s.clearNs n
  let s := { s with recs := s.recs.filter (·.nsid != n) }
  let s := s.modMem fun m => { m with plist := m.plist.filter fun e => !(e.nsid == n && (e.kind == 1 || e.kind == 2)) }
  s.each (s.ns n).actset fun s a => s.modGraze a fun g => { g with unread := g.unread.filter (·.nsid != n) }

/-- A sanitize operation takes a state; event 0x7A2 latches at each change (16 R431). -/
def State.sanTo (s : State) (id st : Nat) : State :=
  if s.sans.any fun o => o.id == id && o.st != st then (s.mapSan fun o => if o.id = id then { o with st := st } else o).raise 0x7A2 else s

/-- Is a unit of a sanitize operation left on an actuator? -/
def unitsLeft (r : Nat × Nat × Nat) : Bool := decide (r.2.1 < r.2.2)

/-- The state of an operation that has passed CRYPTO: PAUSED while units of an absent bay wait, OVERWRITE while others do, else DONE, and its
namespaces are no longer held by it (16 Table 16.9). -/
def State.sanTick (s : State) (id : Nat) : State :=
  match s.sans.find? fun o => o.id == id && (o.st == 1 || o.st == 2 || o.st == 3) with
  | none => s
  | some o =>
    let left := o.units.filter unitsLeft
    if left.isEmpty then ((s.sanTo id 4).each o.nsids fun s n => s.modNs n fun x => { x with sanitizing := false }).refreshNs
    else s.sanTo id (if left.any fun r => !(s.bay (bayOf r.1)).link.present then 3 else 2)

/-- An overwrite unit of actuator `a` is done (16 Table 16.9). -/
def State.sanUnit (s : State) (a id : Nat) : State :=
  (s.mapSan fun o => if o.id = id then { o with units := Tab.upd (fun _ => (0, 0)) o.units a fun u => (u.1 + 1, u.2) } else o).sanTick id

/-- Queue the remaining overwrite units of an operation as grazing behind every other (16 Table 16.9). -/
def State.queueSan (s : State) (o : SanOp) : State :=
  s.each (o.units.filter unitsLeft) fun s r => s.modGraze r.1 fun x =>
    { x with pending := x.pending ++
        [{ order := 14, pos := reservedRegion * 65536, count := r.2.2 - r.2.1, isRead := false, ref := o.id }] }

/-- The key record of a slot takes a target GEN unless it has it, and the key is erased (16 Table 16.9, R432). -/
def State.eraseKey (s : State) (slot : Nat) (target : BitVec 32) : State :=
  (if (s.key slot).loaded then s.raise 0x7A1 else s).modKey slot fun k =>
    if k.gen < target then { k with gen := target, generated := false, loaded := false, unloading := false, blob := [] }
    else { k with loaded := false, unloading := false }

/-- CRYPTO of an operation, and what follows it: DONE, or with KIND 2 the overwrite of every extent and band in units of 1 GiB (16 R431, R432,
Table 16.9). -/
def State.runCrypto (s : State) (o : SanOp) : State :=
  let s := s.sanTo o.id 1
  let s := s.each o.targets fun s t => s.eraseKey t.1 t.2
  let s := s.each o.nsids State.purgeNs
  let unitsOf (a : Nat) : Nat := ((o.nsids.filter fun n => (s.ns n).actset.contains a).map fun n => ((s.ns n).perAct + 3) / 4).sum
  let us : Tab (Nat × Nat) := if o.kind = 2 then ((List.range 144).filter fun a => 0 < unitsOf a).map fun a => (a, (0, unitsOf a)) else []
  let s := s.mapSan fun x => if x.id = o.id then { x with cryptoDone := true, units := us } else x
  (s.queueSan { o with units := us }).sanTick o.id

/-- Bay `b` has rejoined: in any media state but READY its remaining overwrite units count as done (16 R432). -/
def State.sanRejoin (s : State) (b : Nat) : State :=
  let s := if (s.bay b).link.media = 2 then s
    else s.mapSan fun o => { o with units := o.units.map fun r => if bayOf r.1 = b then (r.1, (r.2.2, r.2.2)) else r }
  s.each (s.sans.map (·.id)) State.sanTick

end Sys2Proof.Machine
end

