-- ==== Sys2Proof/Machine/Commands.lean ====
section
/-! DEFINITION. The commands of the ledger: admission, dispatch, the deadline watch, zones, FLUSH, ABORT and the Recovery List
(02, 03, 05). -/
namespace Sys2Proof.Machine

open Sys2Proof

/-! ### Reads (02 R39 to R45) -/

/-- The media operation of a part; a read goes where its first sector's newest copy on the media lies (02 R44, 05 R138). -/
def State.partOp (s : State) (c : Cmd) (p : Part) (read : Bool) (pre : Nat) : Nat × PlanOp :=
  let ks := (c.lbas.filter fun l => s.actOf c.nsid l == p.act).map (secKey c.nsid)
  let pos := if read then s.whereIs (ks.headD 0) else p.pos
  let pl := s.placeOf p.act (pos / 65536) (pos % 65536)
  (p.act, { cmd := c.id, kind := .media, fn := c.fn, dc := c.dc, milestone := c.milestone.getD 0, arrival := c.arrival,
            allowance := s.partAllowance c p.act, track := pl.track, head := pl.head, angle := pl.angle, spt := pl.spt, pos := pos,
            count := p.count, read := read, slot := read, pre := pre, keys := ks })

/-- Test a command's operations on the plans, and on the host-port model of a degraded link (04 R99); `k` puts it in force. -/
def State.admitOn (s : State) (c : Cmd) (bytes : Nat) (ops : List (Nat × PlanOp)) (k : State → State) : State :=
  if s.linkLow c.fn && bytes != 0 && !(s.hostPasses c bytes) then s.refuse c none false
  else match s.tryParts c (s.epochFor (ops.map (·.1))).1.reserve ops s with
    | (.fail a pw, keep) => keep.refuse c (some a) pw
    | (.pass t, _) => (k t).dispatchAll (ops.map (·.1))

/-- A read or write as its admission test sees it: its deadline, milestone and allowance, and the write generation of its namespace (02
R31, R32, 05 R145). -/
def State.asIo (s : State) (c : Cmd) : Cmd :=
  { s.timed c (((s.ns c.nsid).parts c.slba c.len).map (·.act)) with gen := (s.ns c.nsid).nextGen }

/-- Is a read tested on the host-port model: no sector needs media access, and no earlier overlapping command is unfinished (02 R45)? -/
def State.offMedia (s : State) (c : Cmd) : Bool := (c.lbas.all (s.noMedia c.id c.nsid)) && (s.earlierOverlaps c).isEmpty

/-- Put an admitted read with these parts in force: what is held is made ready, unless an earlier overlapping command is unfinished, and
its buffer is opened (02 R45, 03 R81). -/
def State.startRead (s : State) (c : Cmd) (ps : List Part) : State :=
  let t := s.admitCmd { c with parts := ps, promised := c.len * 4096 }
  ((if (t.earlierOverlaps c).isEmpty then t.readyNow c else t).openBuf c.id).readDone c.id

/-- The admission test of a read of these parts (02 R41 to R45, 01 R20, 05 R137, R138). -/
def State.testRead (s : State) (c : Cmd) (ps : List Part) : State :=
  if !(c.waiting 1) then s
  else if s.arrivalsHeld (ps.map (·.act)) then s.holdCmd c
  else if s.offMedia c then
    if s.hostPasses c (c.len * 4096) then
      let t := s.admitCmd { c with hostModel := true, promised := c.len * 4096 }
      ((t.readyNow c).openBuf c.id).readDone c.id
    else s.refuse c none false
  else s.admitOn c (c.len * 4096) (ps.map fun p => s.partOp c p true 0) fun t => t.startRead c ps

/-- Admission of READ `id`: on the host-port model when no sector needs media access and no earlier overlapping command is
unfinished, else on the plans of its actuators (02 R41 to R45). -/
def State.admitRead (s : State) (id : Nat) : State :=
  match s.cmd? id with
  | none => s
  | some c => s.testRead (s.asIo c) ((s.ns c.nsid).parts c.slba c.len)

/-- READ: the admission test of a READ waiting in ledger entry `id` (02 R45). -/
def execRead (id : Nat) (s : State) : Host.Outcome State Fault Refusal := .next (s.admitRead id)

/-! ### Writes (01 R17, R18; 02 R45; 03 R82; 05 R131 to R133, R139) -/

/-- At the open-zone limit the IMPLICIT_OPEN zone with the oldest last admission moves to CLOSED (05 R132). -/
def State.implicitClose (s : State) (a : Nat) : State :=
  if (s.zonesOn a ZState.isOpen).length < 32 then s
  else
    let old := (s.zonesOn a (· == .implicitOpen)).foldl (fun m (r : Nat × Zone) => match m with
      | none => some r
      | some x => if r.2.lastAdm < x.2.lastAdm then some r else some x) (none : Option (Nat × Zone))
    match old with
    | none => s
    | some (k, _) => s.changeZone (k / 2 ^ 24) (k % 2 ^ 24 * 65536) fun z => { z with adm := .closed, com := if z.com = .implicitOpen then .closed else z.com }

/-- Admission of a zoned write or append: the zone opens if it is not open, and the admitted write pointer advances; at the
zone's end the zone is FULL (05 R132, R133; 03 R82). -/
def State.zoneAdmit (s : State) (c : Cmd) : State :=
  let k := zoneKey c.nsid c.slba
  let s := if (s.zone k).adm.isOpen then s else s.implicitClose (s.actOf c.nsid c.slba)
  s.modZone k fun z =>
    let w := c.slba % 65536 + c.len
    { z with admWp := w, lastAdm := s.now, adm := if w = 65536 then .full else if z.adm.isOpen then z.adm else .implicitOpen }

/-- Time of the map-intent record a conventional write may need: a seek of at most half a stroke each way and the record's
passages, when a written-map bit is clear (07 R199). -/
def State.intentNs (s : State) (c : Cmd) (a : Nat) : Nat :=
  s.intentTime a (c.lbas.map (secKey c.nsid))

/-- What admission of a write changes: its generation, its slots, what it supersedes and the zone (02 R45, 03 R82, R92, 05 R145,
11 R311). -/
def State.admitWriteCmd (s : State) (c : Cmd) : State :=
  let s := s.admitCmd c
  let s := s.modNs c.nsid fun n => { n with nextGen := n.nextGen + 1 }
  let s := s.modStage fun x => { x with wres := x.wres ++ [{ cmd := c.id, count := c.len }] }
  let s := (s.dropCached c.nsid c.slba c.len).staleRecs c.nsid c.slba c.len
  if (s.ns c.nsid).zoned then s.zoneAdmit c else s

/-- End of a write whose committing is done: SUCCESS, for an append with its sector offset, or DATA_POISONED (03 Table 3.7). -/
def State.writeDone (s : State) (c : Cmd) : State :=
  if c.unresolved.isEmpty then s.finish c.id Sts.success (if c.op = 3 then c.slba % 65536 else 0)
  else s.finish c.id Sts.dataPoisoned c.unresolved.length

/-- A write's data are complete: they are encrypted into write staging. A STAGED write is committed there in its turn, and completes; a
LANDED one may now run (01 R17, R18; 03 R82). -/
def State.writeFetched (s : State) (id : Nat) (d : List Byte) : State :=
  match s.cmd? id with
  | none => s
  | some c =>
    let s := s.stageWrite c d
    let bad (w : WSlot) : Bool := w.cmd == id && c.unresolved.contains w.sec.lba
    let s := s.modStage fun x => { x with wslots := x.wslots.filter (!bad ·) }
    if c.dur then s.dispatchAll (c.parts.map (·.act)) else s.drain

/-- A WIN = 1 write copies its data from the window region at once, or, with BAR2 writes received before it held at decode, when they have been
decoded (04 R110): sectors with a poisoned line are not committed, nor, in a
zone, those behind them (04 R118; 11 Table 11.4; 01 R19). -/
def State.copyWindow (s : State) (id : Nat) : State :=
  match s.cmd? id with
  | none => s
  | some c =>
    if !c.win || (s.port (portOf c.fn)).held.any (·.write) then s else
      let s := (s.settle c.winAddr (c.len * 4096)).missOn (8 + portOf c.fn) (c.len * 32)
      let d := ramBytes s.ram c.winAddr (c.len * 4096)
      let hit (l : Nat) : Bool := s.mem.poisoned.any fun x =>
        decide (c.winAddr + (l - c.slba) * 4096 ≤ x ∧ x < c.winAddr + (l - c.slba) * 4096 + 4096)
      let bad := c.lbas.filter hit
      let bad := if (s.ns c.nsid).zoned then (match bad with
        | [] => []
        | b :: _ => c.lbas.filter (b ≤ ·)) else bad
      (s.modCmd id fun x => { x with unresolved := bad }).writeFetched id d

/-- Does a sector of a conventional write lie on a head whose writes are finally suspended (12 R351)? -/
def State.onDeadHead (s : State) (c : Cmd) : Bool :=
  (s.ns c.nsid).parts c.slba c.len |>.any fun p =>
    (s.head p.act (s.placeOf p.act (p.pos / 65536) (p.pos % 65536)).head).final

/-- Admission of a STAGED write (02 R45). -/
def State.admitStaged (s : State) (c : Cmd) : State :=
  if s.hostPasses c (c.len * 4096) then
    ((s.admitWriteCmd { c with hostModel := true, promised := if c.win then 0 else c.len * 4096 }).openBuf c.id).copyWindow c.id
  else s.refuse c none false

/-- Admission of a LANDED write to a conventional namespace: one operation per actuator, with the intent record (05 Table 5.5). -/
def State.admitLandedConv (s : State) (c : Cmd) : State :=
  let ps := (s.ns c.nsid).parts c.slba c.len
  s.admitOn c (if c.win then 0 else c.len * 4096) (ps.map fun p => s.partOp c p false (s.intentNs c p.act)) fun t =>
    ((t.admitWriteCmd { c with parts := ps, promised := if c.win then 0 else c.len * 4096 }).openBuf c.id).copyWindow c.id

/-- Admission of a LANDED write to a zone: on the landing band, or straight to the band when no landing space can be reserved
and nothing earlier of the zone waits (05 R139). -/
def State.admitLandedZone (s : State) (c : Cmd) : State :=
  let a := s.actOf c.nsid c.slba
  let go (op : Nat × PlanOp) (k : State → State) : State :=
    let ps := [{ act := a, pos := op.2.pos, count := c.len : Part }]
    s.admitOn c (if c.win then 0 else c.len * 4096) [op] fun t =>
      ((k (t.admitWriteCmd { c with parts := ps, promised := if c.win then 0 else c.len * 4096 })).openBuf c.id).copyWindow c.id
  match s.landAlloc a c.len with
  | some r =>
    let p0 := r.1.headD 0
    let pos := landRegion (p0 / 255) * 65536 + p0 % 255 + 1
    let op := s.partOp c { act := a, pos := pos, count := c.len } false 0
    go (op.1, { op.2 with land := true }) fun t => t.landReserve a c.id r
  | none =>
    let z := s.zone (zoneKey c.nsid c.slba)
    let waits := s.stage.wslots.any fun w => !w.inBand && w.sec.nsid == c.nsid && w.sec.lba / 65536 == c.slba / 65536 && decide (w.sec.lba < c.slba)
    if c.slba % 65536 = z.comWp ∧ s.bandWp c.nsid c.slba = z.comWp ∧ !waits then
      match (s.ns c.nsid).parts c.slba c.len with
      | p :: _ => go (s.partOp c p false 0) id
      | [] => s
    else s.refuse c (some a) false

/-- A write as tested: a ZONE_APPEND at the admitted write pointer of its zone (03 R82). -/
def State.asWrite (s : State) (op : Nat) (c : Cmd) : Cmd :=
  s.asIo (if op = 3 then { c with slba := c.slba / 65536 * 65536 + (s.zone (zoneKey c.nsid c.slba)).admWp } else c)

/-- Reserve staging for a write and test it (02 R45, 05 R138). -/
def State.testStaging (s : State) (c : Cmd) : State :=
  if s.stageFree < c.len then s.refuse c (if c.dur then (((s.ns c.nsid).parts c.slba c.len).map (·.act)).head? else none) false
  else if !c.dur then s.admitStaged c
  else if (s.ns c.nsid).zoned then s.admitLandedZone c else s.admitLandedConv c

/-- The admission test of a write or append with opcode `op`. -/
def State.testWrite (s : State) (op : Nat) (c : Cmd) : State :=
  let as := ((s.ns c.nsid).parts c.slba c.len).map (·.act)
  if !(c.waiting op) then s
  else match s.step8 op (if op = 3 then c.slba / 65536 * 65536 else c.slba) c.len 0 c.nsid with
    | some st => s.finish c.id st 0
    | none =>
      if s.arrivalsHeld as then s.holdCmd c
      else if !(s.ns c.nsid).zoned ∧ s.onDeadHead c then
        if c.dc = 7 then (s.admitCmd c).finish c.id Sts.unrecovered 0 else s.refuse c as.head? false
      else s.freeLanded.testStaging c

/-- Admission of a WRITE (`op` 2) or ZONE_APPEND (`op` 3): step 8 of Table 3.4 in arrival order on its zone, then write-staging
slots, then the test of its durability point (02 R45, 03 R82). -/
def State.admitWrite (s : State) (id op : Nat) : State :=
  match s.cmd? id with
  | none => s
  | some c => s.testWrite op (s.asWrite op c)

/-- WRITE: the admission test of a WRITE waiting in ledger entry `id` (01 R18). -/
def execWrite (id : Nat) (s : State) : Host.Outcome State Fault Refusal := .next (s.admitWrite id 2).runWaiting

/-- ZONE_APPEND: the same for an append, whose LBA is the zone's admitted write pointer (03 R82). -/
def execZoneAppend (id : Nat) (s : State) : Host.Outcome State Fault Refusal := .next (s.admitWrite id 3).runWaiting

/-! ### Zone actions (05 R131, R132) -/

/-- Step 8 and the host-port model of 0 bytes for a ZONE_MGMT action `act`; `k` puts the action in force. Entries that waited for the zone are
checked behind it (03 R82). -/
def State.admitZone (s : State) (id act : Nat) (k : Cmd → State → State) : State :=
  match s.cmd? id with
  | none => s
  | some c =>
    let c := s.timed c [s.actOf c.nsid c.slba]
    if !(c.waiting 4) || c.act4 != act then s
    else (match s.step8 4 c.slba 0 act c.nsid with
      | some st => s.finish id st 0
      | none => if s.arrivalsHeld [s.actOf c.nsid c.slba] then s.holdCmd c else k c s).runWaiting

/-- Each FINISH or RESET still to commit on the zone of `c` keeps the action, an OPEN (1) or CLOSE (2) admitted after it (05 R131). -/
def State.noteOpenCond (s : State) (c : Cmd) (act : Nat) : State :=
  s.mapCmds fun d =>
    if d.op = 4 ∧ (d.act4 = 3 ∨ d.act4 = 4) ∧ d.phase = .admitted ∧ d.nsid = c.nsid ∧ d.slba / 65536 = c.slba / 65536 then { d with openCond := act } else d

/-- ZONE_OPEN: OPEN makes the zone EXPLICIT_OPEN at admission, closing the oldest IMPLICIT_OPEN one at the limit (05 R131,
R132). -/
def execZoneOpen (id : Nat) (s : State) : Host.Outcome State Fault Refusal :=
  .next <| s.admitZone id 1 fun c s =>
    if s.hostPasses c 0 then
      let k := zoneKey c.nsid c.slba
      let s := (s.admitCmd { c with hostModel := true }).noteOpenCond c 1
      let s := if (s.zone k).adm.isOpen then s else s.implicitClose (s.actOf c.nsid c.slba)
      let s := s.changeZone c.nsid c.slba fun z => { z with adm := .explicitOpen, com := if z.com = .full then z.com else .explicitOpen, lastAdm := s.now }
      s.finish id Sts.success 0
    else s.refuse c none false

/-- ZONE_CLOSE: CLOSE makes the zone CLOSED, or EMPTY when its admitted write pointer is at its start (05 R131). -/
def execZoneClose (id : Nat) (s : State) : Host.Outcome State Fault Refusal :=
  .next <| s.admitZone id 2 fun c s =>
    if s.hostPasses c 0 then
      let s := (s.admitCmd { c with hostModel := true }).noteOpenCond c 2
      let s := s.changeZone c.nsid c.slba fun z =>
        { z with adm := if z.admWp = 0 then .empty else .closed, lastAdm := s.now,
                 com := if z.com = .full then z.com else if z.comWp = 0 then .empty else .closed }
      s.finish id Sts.success 0
    else s.refuse c none false

/-- A FINISH or RESET is planned as one band-journal write; its effect on the admitted state comes at admission (05 R131). -/
def State.admitJournal (s : State) (c : Cmd) (st : ZState) (wp : Nat) : State :=
  let a := s.actOf c.nsid c.slba
  let p := s.placeOf a reservedRegion 0
  let op : PlanOp :=
    { cmd := c.id, kind := .journal, fn := c.fn, dc := c.dc, milestone := c.milestone.getD 0, arrival := c.arrival,
      allowance := s.partAllowance c a, track := p.track, head := p.head, angle := p.angle, spt := p.spt, pos := reservedRegion * 65536,
      count := 1, read := false, slot := false }
  s.admitOn c 0 [(a, op)] fun t =>
    let k := zoneKey c.nsid c.slba
    let t := t.admitCmd { c with parts := [{ act := a, pos := op.pos, count := 1 }], preWp := (t.zone k).admWp, preAdm := (t.zone k).adm, gen := (t.ns c.nsid).nextGen }
    t.modZone k fun z => { z with adm := st, admWp := wp, lastAdm := t.now }

/-- ZONE_FINISH: the zone is FULL in its admitted state; the action is a band-journal write (05 R131). -/
def execZoneFinish (id : Nat) (s : State) : Host.Outcome State Fault Refusal :=
  .next (s.admitZone id 3 fun c s => s.admitJournal c .full 65536)

/-- ZONE_RESET: the zone is EMPTY in its admitted state; the action is a band-journal write (05 R131). -/
def execZoneReset (id : Nat) (s : State) : Host.Outcome State Fault Refusal :=
  .next (s.admitZone id 4 fun c s => s.admitJournal c .empty 0)

/-! ### Commands that only report (03 R90, R93) -/

/-- State codes (05 Table 5.3). -/
def ZState.code : ZState → Nat
  | .empty => 1 | .implicitOpen => 2 | .explicitOpen => 3 | .closed => 4 | .readOnly => 0xD | .full => 0xE | .offline => 0xF

/-- The 32-byte descriptor of zone `z` of namespace `n` (03 R90). -/
def State.zoneDesc (s : State) (n z : Nat) : List Byte :=
  let x := s.zone (n * 2 ^ 24 + z)
  leBytes 8 (z * 65536) ++ leBytes 8 (z * 65536 + x.admWp) ++ leBytes 1 x.adm.code ++ leBytes 1 (s.actOf n (z * 65536))
    ++ List.replicate 14 0

/-- A report whose buffer is known is written and completes with the count of its 32-byte entries (03 Table 3.7). -/
def State.pushReport (s : State) (id : Nat) : State :=
  match s.cmd? id with
  | none => s
  | some c =>
    if (c.op = 5 ∨ c.op = 0x0A) ∧ c.phase = .admitted ∧ c.bufSize ≤ c.bufLen ∧ (s.fn c.fn).bme ∧ !(s.fn c.fn).d3 then
      let s := s.modCmd id fun x => { x with waymark := true, promised := 0 }
      (s.writeBuf c 0 c.fdata).finish id Sts.success (c.fdata.length / 32)
    else s

/-- Admission of a report on the host-port model, with its contents as of the admission. -/
def State.admitReport (s : State) (c : Cmd) (d : List Byte) : State :=
  if s.hostPasses c d.length then
    ((s.admitCmd { c with hostModel := true, promised := d.length, fdata := d }).openBuf c.id).pushReport c.id
  else s.refuse c none false

/-- ZONE_REPORT: one descriptor per zone from SLBA's zone, at most ARG0, as of the admission (03 R90). -/
def execZoneReport (id : Nat) (s : State) : Host.Outcome State Fault Refusal :=
  .next <| match s.cmd? id with
  | none => s
  | some c =>
    let n := s.ns c.nsid
    let z := c.slba / 65536
    let zs := (List.range (min c.arg0 (n.sectors / 65536 - z))).map (z + ·)
    let c := s.timed c [s.actOf c.nsid c.slba]
    if !(c.waiting 5) then s
    else if s.arrivalsHeld [s.actOf c.nsid c.slba] then s.holdCmd c
    else s.admitReport c (zs.flatMap (s.zoneDesc c.nsid))

/-- State codes of Recovery List entries (03 Table 3.10). -/
def RecState.code : RecState → Nat
  | .pending => 0 | .recovered => 1 | .failed => 2 | .stale => 3

/-- The 32 bytes of a Recovery List entry (03 Table 3.10). -/
def RecEntry.bytes (r : RecEntry) : List Byte :=
  leBytes 2 r.id.toNat ++ leBytes 2 r.nsid ++ leBytes 4 r.tag.toNat ++ leBytes 6 r.slba ++ leBytes 2 0 ++ leBytes 4 r.count
    ++ leBytes 1 r.st.code ++ leBytes 1 r.sq ++ leBytes 2 0 ++ leBytes 8 r.time

/-- RECOVERY_LIST: the function's entries in id order from ARG1, of one namespace when NSID is given, at most ARG0 (03 R93). -/
def execRecoveryList (id : Nat) (s : State) : Host.Outcome State Fault Refusal :=
  .next <| match s.cmd? id with
  | none => s
  | some c =>
    let rs := (sortBy (fun x y => decide (x.id.toNat ≤ y.id.toNat)) s.recs).filter fun r =>
      r.fn == c.fn && (c.nsid == 0 || r.nsid == c.nsid) && decide (c.arg1 ≤ r.id.toNat)
    let c := s.timed c []
    if !(c.waiting 0x0A) then s else s.admitReport c ((rs.take c.arg0).flatMap RecEntry.bytes)

/-- CONT_READ: the held data of a RECOVERED entry, pinned from its check until the command completes, are delivered (03 R93). -/
def execContRead (id : Nat) (s : State) : Host.Outcome State Fault Refusal :=
  .next <| match s.cmd? id with
  | none => s
  | some c =>
    let c := s.timed c []
    if !(c.waiting 0x0B) then s
    else if s.hostPasses c (c.len * 4096) then
      let held := (s.stage.rslots.filter fun r => r.pins.contains id).map (·.sec.lba)
      (s.admitCmd { c with hostModel := true, promised := c.len * 4096, ready := held }).openBuf id
    else s.refuse c none false

/-! ### FLUSH and ABORT (03 R83, R84) -/

/-- FLUSH: what it covers is fixed as its function's STAGED writes posted before its arrival, or what superseded them, those lost from staging since
then making it fail in the end; with nothing left to make persistent it completes on the host-port model, else it is admitted on the plans of the covered data (03 R84, 02 R44). -/
def execFlush (id : Nat) (s : State) : Host.Outcome State Fault Refusal :=
  .next <| match s.cmd? id with
  | none => s
  | some c =>
    let ws := s.covered c.fn c.nsid c.arrival
    let lost := ws.any (·.poisoned)
    let ws := ws.filter fun w => !w.poisoned
    let as := sortBy (fun x y => decide (x ≤ y)) ((ws.map (·.act)).eraseDups)
    let c := s.timed c as
    if !(c.waiting 8) then s
    else if s.arrivalsHeld as then s.holdCmd c
    else if ws.isEmpty then
      if s.hostPasses c 0 then
        (s.admitCmd { c with hostModel := true }).finish id (if lost then Sts.abortedByFlushFailure else Sts.success) 0
      else s.refuse c none false
    else
      let op (a : Nat) : Nat × PlanOp :=
        let mine := ws.filter (·.act == a)
        let w := mine.headD {}
        let (_, r, pos) := (s.ns w.sec.nsid).locate w.sec.lba
        let p := s.placeOf a r pos
        (a, { cmd := id, kind := .media, fn := c.fn, dc := c.dc, milestone := c.milestone.getD 0, arrival := c.arrival,
              allowance := s.partAllowance c a, track := p.track, head := p.head, angle := p.angle, spt := p.spt, pos := r * 65536 + pos,
              count := mine.length, read := false, slot := false, keys := mine.map fun w => secKey w.sec.nsid w.sec.lba })
      let ps := as.map fun a => { act := a, pos := (op a).2.pos, count := (op a).2.count : Part }
      s.admitOn c 0 (as.map op) fun t =>
        t.admitCmd { c with parts := ps, fetched := true, lost := lost, covered := ws.map fun w => secKey w.sec.nsid w.sec.lba }

/-- May an ABORT end this command: not past its waymark, and of a kind that is abortable (03 Table 3.5, R83)? -/
def Cmd.abortable (c : Cmd) : Bool :=
  !c.waymark && c.op != 8 && c.op != 9 && !(c.op == 4 && (c.act4 == 1 || c.act4 == 2))

/-- Commands an ABORT of function `f` names: of the SQ and TAG given, with no final status yet. -/
def State.targets (s : State) (f q : Nat) (tag : Word) : List Cmd :=
  s.ledger.filter fun c => c.fn == f && c.sq == q && c.tag == tag && c.phase != .heldCpl && !c.silent

/-- ABORT: every target not yet at its waymark ends with ABORTED_BY_HOST; the counts wait for the ABORT's completion (03 R83). -/
def execAbort (id : Nat) (s : State) : Host.Outcome State Fault Refusal :=
  .next <| match s.cmd? id with
  | none => s
  | some c =>
    if !(c.waiting 9) then s
    else
      let ts := (s.targets c.fn (c.arg1 % 64) (reg32 c.arg0)).filter (·.id != id)
      let go := ts.filter (·.abortable)
      let past := ts.filter (·.waymark)
      let s := s.modCmd id fun x => { x with phase := .admitted, counts := past.length % 65536 * 65536 + go.length, matched := go.length }
      (s.finishAll (go.map (·.id)) Sts.abortedByHost).runWaiting

/-- FLUSH_COMPLETE: a FLUSH with every covered sector persistent completes with SUCCESS, one with a covered sector lost and the
rest persistent with ABORTED_BY_FLUSH_FAILURE (03 R84). -/
def execFlushComplete (id : Nat) (s : State) : Host.Outcome State Fault Refusal :=
  .next <| match s.cmd? id with
  | none => s
  | some c =>
    if c.op = 8 ∧ c.phase = .admitted ∧ c.covered.isEmpty then
      s.finish id (if c.lost then Sts.abortedByFlushFailure else Sts.success) 0
    else s

/-- ABORT_COMPLETE: an ABORT completes with its counts once no target it aborted is still held (03 R83). -/
def execAbortComplete (id : Nat) (s : State) : Host.Outcome State Fault Refusal :=
  .next <| match s.cmd? id with
  | none => s
  | some c =>
    let held := s.ledger.any fun d => d.fn == c.fn && d.sq == c.arg1 % 64 && d.tag == reg32 c.arg0 && d.phase == .heldCpl
      && d.status == some Sts.abortedByHost && d.id < c.id
    if c.op = 9 ∧ c.phase = .admitted ∧ !held then s.finish id Sts.success c.counts else s

/-! ### Bulk commands tested again (02 R34) -/

/-- DC7_RETEST: a held command is tested again by the admission of its own kind (02 R34). -/
def State.retest (s : State) (id : Nat) : State :=
  let keep : Host.Outcome State Fault Refusal → State
    | .next t => t
    | _ => s
  match s.cmd? id with
  | none => s
  | some c =>
    if c.phase ≠ .held then s
    else match c.op.toNat with
      | 1 => s.admitRead id
      | 2 => s.admitWrite id 2
      | 3 => s.admitWrite id 3
      | 4 => match c.act4 with
        | 1 => keep (execZoneOpen id s)
        | 2 => keep (execZoneClose id s)
        | 3 => keep (execZoneFinish id s)
        | _ => keep (execZoneReset id s)
      | 5 => keep (execZoneReport id s)
      | 8 => keep (execFlush id s)
      | 0x0A => keep (execRecoveryList id s)
      | 0x0B => keep (execContRead id s)
      | _ => s

/-- DC7_RETEST: a held command is tested again (02 R34). -/
def execDc7Retest (id : Nat) (s : State) : Host.Outcome State Fault Refusal := .next (s.retest id).runWaiting

/-- Test every held command again, in arrival order: the condition that stopped them may have changed (02 R34, 16 R418). -/
def State.retestAll (s : State) : State :=
  (s.each ((s.ledger.filter (·.phase == .held)).map (·.id)) State.retest).runWaiting

/-! ### The end of a media operation (02 R46, R47) -/

/-- Energy of `n` sector passages at a sector time, in pJ (15 R408). -/
def State.chanPj (s : State) (n st : Nat) : Nat := n * (s.tally.chA * st + s.tally.chB * 37072) / 1000

/-- Spindle and electronics energy of a busy interval on bay `b`, in pJ: half of each, by two actuators (15 R408). -/
def State.spinPj (s : State) (b len : Nat) : Nat := ((s.bay b).spin.cal.elecMw + (s.bay b).spin.measMw) * len / 2

/-- The read copies of an ended media read stand in read staging, to be decoded; zeros and poisoned sectors need no decoding. A
sector marked unrecoverable in the zone map fails the command (05 R140). -/
def State.captured (s : State) (id : Nat) (keys : List Nat) : State :=
  match s.cmd? id with
  | none => s
  | some c =>
    let todo := (keys.map (· % 2 ^ 48)).filter fun l =>
      !(c.ready.contains l || c.delivered.contains l || c.unresolved.contains l || (s.pinned id c.nsid l).isSome)
    let s := s.each todo fun s l =>
      if s.poisonedRead id c.nsid l then s.modCmd id fun x => { x with unresolved := x.unresolved ++ [l] }
      else match s.stagedFor id c.nsid l with
        | some w => (s.pin id w.sec).modCmd id fun x => { x with ready := x.ready ++ [l] }
        | none =>
          if s.readsZero c.nsid l then (s.pin id (zeroSector c.nsid l)).modCmd id fun x => { x with ready := x.ready ++ [l] }
          else s.pin id ((s.onMedia c.nsid l).getD (zeroSector c.nsid l))
    if todo.any fun l => (s.pinned id c.nsid l).any (·.sec.bad) then
      s.finish id (if c.dc = 7 then Sts.unrecovered else Sts.unrecoveredInDeadline) 0
    else s.readDone id

/-- A band's data have been rewritten into a free band: the zone map is switched (05 R146, 12 R341). -/
def State.moveBand (s : State) (a band : Nat) : State :=
  let used := s.namespaces.flatMap fun r => if r.2.zoned then r.2.space.get (fun _ => []) a else []
  match (List.range (s.act a).med.bands).find? fun b => !used.contains b with
  | none => s
  | some free =>
    let move (n : Ns) : Ns :=
      if n.present && n.zoned then
        { n with space := Tab.upd (fun _ => []) n.space a fun l => l.map fun b => if b = band then free else b }
      else n
    { s with nss := s.nss.map fun r => (r.1, move r.2) }

/-- A refresh is done: the counters of what it rewrote return to 0, its hold ends and CFG_MED_ATI_REFRESH counts it; a band's data now lie
in another band, and both its edges are refreshed (05 R146, R147). -/
def State.refreshDone (s : State) (a g : Nat) : State :=
  let d := (g - 2 ^ 40) / 2
  let gs := if 2 ^ 40 ≤ g then [bandEdge d 0, bandEdge d 1] else [g]
  let s := if 2 ^ 40 ≤ g then s.moveBand a d else s
  s.modMed a fun m =>
    { m with ati := gs.foldl (fun t g => Tab.put t g 0) m.ati, atiHeld := m.atiHeld.filter (!gs.contains ·), atiRefresh := m.atiRefresh + 1 }

/-- What is left of a pending operation after a quantum of `n` sectors or passages: a refresh or a rewrite that read now writes, and
a rewrite that wrote, `side` telling with which precompensation table, is read back to verify it (12 R336, R342). -/
def GrazeOp.after (g : GrazeOp) (n side : Nat) : List GrazeOp :=
  let d := g.done + if g.again then 1 else n
  if d < g.count then [{ g with done := d }]
  else if g.again then []
  else if g.isRead && (g.order == 3 || g.order == 7) then [{ g with isRead := false, done := 0 }]
  else if g.isRead && g.order == 6 && !g.verify then [{ g with isRead := false, done := 0 }]
  else if !g.isRead && g.order == 6 then [{ g with isRead := true, verify := true, done := 0, side := side }]
  else []

/-- A group has been rewritten on a head that tries a precompensation table: the tables take turns, and after 64 verified groups the trial table is
adopted if the reads of its groups used fewer iterations in the mean (12 Table 12.4). -/
def State.trialTurn (s : State) (a h : Nat) : State :=
  let t := (s.head a h).trial
  if t.tables.isEmpty then s
  else if t.groups < 64 then s.modHead a h fun x => { x with trial := { t with turn := !t.turn, groups := t.groups + 1 } }
  else
    let s := s.modHead a h fun x => { x with trial := {} }
    if t.itOwn * t.nOld < t.itOld * t.nOwn then
      ((s.modHead a h fun x => { x with precomp := t.tables.foldl (fun u r => Tab.put u r.1 r.2) x.precomp }).modCfe a fun c =>
        { c with tapVer := c.tapVer + 1 }).putRecords a [calKind 2 h]
    else s

/-- A grazing quantum has ended: its operation advances, and what it finished is done (12 R336, R340, R342). -/
def State.grazeAdvance (s : State) (a : Nat) (r : PlanOp) : State :=
  if r.order = 11 ∧ !r.again ∧ r.ref = 0 then
    let s := s.modGraze a fun g => { g with scrubAt := scrubNext r, scrubSect := g.scrubSect + BitVec.ofNat 32 r.count }
    let left := (s.scrubLeft a).length
    let all := (s.scrubAll a).length
    if left = 0 then
      s.modGraze a fun g =>
        { g with scrubAt := 0, pct := 0, passes := if g.passes = 0xFFFF then g.passes else g.passes + 1, bandMarg := [], passEnd := s.now,
                 passStart := s.now + (within 7 120 28 s.cfg.scrubDNow.toNat) * 86400000000000 }
    else s.modGraze a fun g => { g with pct := BitVec.ofNat 8 ((all - left) * 100 / all) }
  else
    let own := (s.act a).graze.pending.filter (·.owns r)
    let t := (s.head a r.head).trial
    let side := if t.tables.isEmpty then 0 else if t.turn then 2 else 1
    let s := s.modGraze a fun g => { g with pending := g.pending.flatMap fun o => if o.owns r then o.after r.count side else [o] }
    let s := if r.order = 13 ∧ r.step ≠ 0 then (if own.any fun g => g.count ≤ g.done + r.count then s.fmtCert a r.ref r.step else s)
      else if r.order = 13 then s.fmtUnit a r.ref
      else if r.order = 14 then s.sanUnit a r.ref
      else if r.order = 2 then (if own.any fun g => g.count ≤ g.done + r.count then
          s.modLoop a fun l => { l with rroBad := l.rroBad.filter fun k => k / 40960 != r.head } else s)
      else if r.order = 15 then (s.modMed a fun m => { m with mapRebuild := false }).refreshNs else s
    s.each (own.filter fun g => !g.isRead && decide (g.count ≤ g.done + r.count)) fun s g =>
      let s := if g.order = 3 ∨ g.order = 6 ∨ g.order = 7 then s.trialTurn a r.head else s
      if g.order = 3 ∨ g.order = 7 then s.refreshDone a g.ref
      else if g.order = 6 then
        let s := s.modGraze a fun x => { x with rewrite := x.rewrite + BitVec.ofNat 32 g.count }
        if g.key = 0 then s.moveBand a (g.pos / 65536 - 2 ^ 20) else s
      else s

/-- Is the routine of operation `o` still to run: in the command queue, or a write or calibration routine not ended? A device's own
routine that was abandoned ends its quantum (07 R191, R197). -/
def Fmt.holds (f : Fmt) (o : PlanOp) : Bool :=
  let own (q : FmtCmd) : Bool := q.cmd == o.cmd && q.pos == o.pos && q.opc == BitVec.ofNat 8 o.opcode
  f.queue.any own || f.running.any (fun r => own r.req && decide (0x10 ≤ r.req.opc.toNat)) || f.waiting.any (fun r => own r.req && r.req.cmd != 0)

/-- Sectors an abandoned read quantum passed before it ended at a sector boundary (02 R52, 07 Table 7.2). -/
def Fmt.cutShort (f : Fmt) (o : PlanOp) : Option Nat :=
  f.running.bind fun r =>
    if r.endAt && o.read && o.cmd == r.req.cmd && o.pos == r.req.pos && decide (r.done < o.count) then some r.done else none

/-- The running media operation of actuator `a` ends: its function's virtual time and its command's figures advance, what it read
stands in read staging, and the actuator dispatches (02 R46, R47; 15 R404, R408). -/
def State.mediaEnd (s : State) (a : Nat) : State :=
  match (s.act a).adm.running with
  | none => s.dispatch a
  | some r =>
    if (s.act a).fmt.holds r then s else
    let cut := (s.act a).fmt.cutShort r
    let (r, rest) : PlanOp × List PlanOp := match cut with
      | some n => ({ r with count := n, keys := r.keys.take n },
          if r.kind = .media then [{ r with pos := r.pos + n, count := r.count - n, keys := r.keys.drop n }] else [])
      | none => (r, [])
    let s := if cut.isSome then s.modFmt a fun f => { f with abandon := f.abandon + 1 } else s
    let s := s.modAdm a fun x => { x with queue := rest ++ x.queue }
    let used := s.now - r.start
    let w := s.weightOf a r
    let rev := revNs (s.gaitNow (bayOf a))
    let es := s.spinPj (bayOf a) used
    let ec := if r.read then s.chanPj r.count (rev / r.spt) else 0
    let s := s.modAdm a fun x =>
      { x with running := none, idleSince := s.now, endTrack := r.track + r.count / r.spt, endHead := r.head,
               workLog := if r.cmd = 0 then x.workLog else logSpan s.now x.workLog (max x.followAt r.start),
               vtime := if w = 0 then x.vtime else Tab.upd (fun _ => 0) x.vtime r.fn (· + used * 256 / w) }
    let s := s.modFmt a fun x =>
      if x.running.any fun q => q.req.cmd == r.cmd && (q.req.opc == 1 || q.req.opc == 3) then { x with running := none } else x
    let s := s.modCfe a fun c => { c with band := false, bandFirst := false }
    let s := if r.cmd = 0 then
        s.modAcc devAcc fun x => { x with busyNs := x.busyNs + used, eChan := x.eChan + ec }
      else
        let s := s.modCmd r.cmd fun c =>
          { c with busyNs := c.busyNs + used, eSpin := c.eSpin + es, eChan := c.eChan + ec,
                   parts := c.parts.map fun p => if p.act = a ∧ r.kind = .media then { p with moved := p.moved + r.count } else p }
        if r.read && r.kind == .media then s.captured r.cmd r.keys else s
    (if r.kind = .grazing ∧ 0 < r.count then s.grazeAdvance a r else s).dispatch a

/-- MEDIA_OPERATION_END: the end of a media operation, a dispatch point (02 R46). -/
def execMediaOperationEnd (a : ActId) (s : State) : Host.Outcome State Fault Refusal := .next (s.mediaEnd a.val)

/-! ### The deadline watch (02 R48) -/

/-- DEADLINE_CUTOFF: the cut-off of ledger entry `id` (02 R48). -/
def execDeadlineCutoff (id : Nat) (s : State) : Host.Outcome State Fault Refusal := .next (s.cutOff id)

/-! ### Keys and the Recovery List -/

/-- KEY_UNLOAD_COMPLETE: with no admitted command of the namespace left, the key of the slot is gone (03 R71, 16 R430). -/
def execKeyUnloadComplete (k : Fin 4096) (s : State) : Host.Outcome State Fault Refusal :=
  let x := s.key k.val
  .next <| if x.unloading && !(s.ledger.any fun c => c.wasAdm && c.phase != .heldCpl && c.nsid != 0 && (s.ns c.nsid).keyslot == k.val)
    then (s.setKey k.val { x with loaded := false, unloading := false }).raise 0x7A1 else s

/-- RECOVERY_ENTRY_EXPIRY: an entry goes 600 s after it became RECOVERED, FAILED or STALE (03 R92). -/
def execRecoveryEntryExpiry (id : BitVec 16) (s : State) : Host.Outcome State Fault Refusal :=
  .next { s with recs := s.recs.filter fun r => !(r.id == id && r.st != .pending && decide (r.time + 600000000000 ≤ s.now)) }

/-- An entry of the Recovery List changes state. -/
def State.recTo (s : State) (id : BitVec 16) (st : RecState) : State :=
  match s.recs.find? (·.id == id) with
  | none => s
  | some r =>
    (s.mapRec fun x => if x.id = id then { x with st := st, time := s.now } else x).raiseFn r.fn 7

/-- BACKGROUND_RECOVERY_TIMEOUT: a PENDING entry fails 60 s after its creation (06 R182). -/
def execBackgroundRecoveryTimeout (id : BitVec 16) (s : State) : Host.Outcome State Fault Refusal :=
  .next <| match s.recs.find? (·.id == id) with
  | none => s
  | some r =>
    if r.st = .pending ∧ r.born + 60000000000 ≤ s.now then
      let s := s.each (s.ns r.nsid).actset fun s a => s.modGraze a fun g =>
        { g with pending := g.pending.filter fun o => !(o.order == 5 && o.ref == id.toNat) }
      s.recTo id .failed
    else s

end Sys2Proof.Machine
end

