-- ==== Sys2Proof/Machine/Mbx.lean ====
section
/-! DEFINITION. Mailbox requests and their responses (15 R387 to R393). -/
namespace Sys2Proof.Machine

open Sys2Proof

/-- The mailbox of a requester: that of its function, or 256 for the sideband. -/
def mbxOf : Requester → Nat
  | .fn f => f.val
  | .sideband => 256

/-- Is the requester the steward, or the sideband, which has the steward's visibility (15 R392)? -/
def State.seesAll (s : State) : Requester → Bool
  | .fn f => s.isSteward f.val
  | .sideband => true

/-- Is the requester the steward? -/
def State.fromSteward (s : State) : Requester → Bool
  | .fn f => s.isSteward f.val
  | .sideband => false

/-- The payload of a mailbox's request in progress, when it carries opcode `op` and waits for no operation to end; bytes beyond it
read 0 (15 R387). -/
def State.request (s : State) (k op : Nat) : Option (List Byte) :=
  let m := s.mbx k
  if m.busy && m.owed.isNone && m.rqOp == op then some m.rqData else none

/-- The device writes a response: buffer, MBX_RSP and RSP_LEN, then DONE and BUSY in a single step; bit 0 of the function's view or
event 0x7C9 latches (15 R387, R391). -/
def State.respondAs (s : State) (k status : Nat) (bs : List Byte) : State :=
  let s := s.modMbx k fun m =>
    { m with rspbuf := bs, rspSeq := m.rqSeq, rspOpcode := BitVec.ofNat 16 m.rqOp, rspValid := true, tstatus := BitVec.ofNat 4 status,
             done := true, busy := false, owed := none, rqData := [] }
  if k = 256 then s.raise 0x7C9 else s.raiseFn k 0

/-- A request was executed; its payload says the outcome. -/
def State.respond (s : State) (k : Nat) (bs : List Byte) : State := s.respondAs k 0 bs

/-- A response that is its REASON byte and `n` further bytes, 0. -/
def reasonOnly (r n : Nat) : List Byte := leBytes 1 r ++ List.replicate n 0

/-- Serve a request of opcode `op` whose ACTION, its byte 0, is `act`; nothing happens while there is none. -/
def State.serve (s : State) (r : Requester) (op : Nat) (act : Option Nat) (k : List Byte → State) : State :=
  match s.request (mbxOf r) op with
  | none => s
  | some p => if act.all (· == byteAt p 0) then k p else s

/-- The function number of a requester; 0xFFFF for the sideband (15 Table 15.5). -/
def fnNumber : Requester → Nat
  | .fn f => f.val
  | .sideband => 0xFFFF

end Sys2Proof.Machine
end

