-- ==== Sys2Proof/Machine/Media.lean ====
section
/-! DEFINITION. Adjacent-track interference counters and format (05 R146 to R151). -/
namespace Sys2Proof.Machine

open Sys2Proof

/-! ### ATI counters (05 R146 to R148) -/

/-- What the refresh of a counted group reads and rewrites, from a place on: a band edge's whole band, or the 16 tracks of a group and 4 on each
side (05 R146). -/
def State.refreshSpan (s : State) (a g : Nat) : Nat × Nat :=
  if 2 ^ 40 ≤ g then ((2 ^ 20 + (g - 2 ^ 40) / 2) * 65536, 65536)
  else
    let lo := 16 * (g % 2 ^ 24) - 4
    (trackRegion (g / 2 ^ 24) lo * 65536, (16 * (g % 2 ^ 24) + 20 - lo) * (s.placeOf a (trackRegion (g / 2 ^ 24) lo) 0).spt)

/-- Queue the refresh of a counted group as grazing, once (12 Table 12.1, orders 3 and 7). -/
def State.queueRefresh (s : State) (a g order : Nat) : State :=
  let (pos, n) := s.refreshSpan a g
  let op : GrazeOp := { order := order, head := (s.placeOf a (pos / 65536) 0).head, pos := pos, count := n, ref := g }
  s.modGraze a fun x =>
    { x with pending := (x.pending.filter fun o => !((o.order == 3 || o.order == 7) && o.ref == g)) ++ [op] }

/-- ATI_LIMIT_REACHED: a counter at the limit queues its group's refresh (05 R146). -/
def execAtiLimitReached (a : ActId) (g : Nat) (s : State) : Host.Outcome State Fault Refusal :=
  let x := s.act a.val
  .next <| if x.med.atiOf g < (s.bay (bayOf a.val)).link.atiLimit then s
    else if x.graze.pending.any fun o => (o.order == 3 || o.order == 7) && o.ref == g then s
    else s.queueRefresh a.val g 7

/-- Hold a counted group: its writes wait until its refresh, which now goes ahead of order 4 (05 R147, 12 Table 12.1). -/
def State.holdGroup (s : State) (a g : Nat) : State :=
  if (s.act a).med.atiHeld.contains g then s
  else (s.modMed a fun m => { m with atiHeld := m.atiHeld ++ [g] }).queueRefresh a g 3

/-- ATI_HOLD_LIMIT: a counter at twice the limit holds its group (05 R147). -/
def execAtiHoldLimit (a : ActId) (g : Nat) (s : State) : Host.Outcome State Fault Refusal :=
  .next <| if (s.act a.val).med.atiOf g < 2 * (s.bay (bayOf a.val)).link.atiLimit then s
    else s.holdGroup a.val g

/-- The ATI counters and the heads' assist figures of an actuator are written to the reserved media area (05 R148, 07 R214). -/
def State.checkpoint (s : State) (a : Nat) : State :=
  let keep (h : HeadSt) : HeadSt := { h with ckWrite := h.writeNs, ckIdle := h.idleNs, ckEnergy := h.energy }
  ((s.modMed a fun m => { m with atiCkpt := m.ati, atiCkptBase := m.atiBase, ckptAt := s.now }).putRecords a [3]).modAct a fun x => { x with heads := x.heads.map fun r => (r.1, keep r.2) }

/-- ATI_CHECKPOINT: every 60 s the counters are written to the reserved media area (05 R148). -/
def execAtiCheckpoint (a : ActId) (s : State) : Host.Outcome State Fault Refusal :=
  let m := (s.act a.val).med
  .next <| if s.now < m.ckptAt + 60000000000 ∨ s.boot.postStop then s
    else s.checkpoint a.val

/-! ### Format (05 R149 to R151) -/

/-- A format request is accepted: the operation enters the flash journal in WAITING, and its number is answered. -/
def State.enterFormat (s : State) (k : Nat) (o : FmtOp) : State :=
  let o := { o with id := s.opNext }
  let s := { s with fmts := s.fmts ++ [o], opNext := s.opNext + 1 }
  s.respond k (leBytes 4 o.id ++ leBytes 2 0)

/-- A format request is refused: OP_ID 0 and the REASON (05 Table 5.8). -/
def State.refuseFormat (s : State) (k reason : Nat) : State := s.respond k (leBytes 4 0 ++ leBytes 2 reason)

/-- Does a sanitize operation not yet done cover namespace `n`? -/
def State.sanRunning (s : State) (n : Nat) : Bool := s.sans.any fun o => o.st != 4 && o.nsids.contains n

/-- MEDIA_FORMAT, KIND 1: format of a namespace; its new arrivals fail from now on. A unit is 1 GiB of map: the spec does not say of what, and
the model takes 4 extents or bands of each actuator, the last unit perhaps of fewer (DESIGN CHOICE) (05 R149 to R151, Table 5.8). -/
def execMediaFormatNamespace (r : Requester) (s : State) : Host.Outcome State Fault Refusal :=
  .next <| s.serve r 0x0510 (some 1) fun p =>
    let k := mbxOf r
    let n := fieldAt p 2 2
    let ns := s.ns n
    if !s.fromSteward r || !reservedZero p [(0, 1), (2, 2)] || n == 0 || 4096 < n || !ns.present then s.refuseFormat k 3
    else if s.fmts.any fun o => o.nsFmt && o.nsid == n && o.st != 3 then s.refuseFormat k 1
    else if s.sanRunning n then s.refuseFormat k 4
    else
      let s := (s.modNs n fun x => { x with formatting := true }).refreshNs
      s.enterFormat k { nsFmt := true, nsid := n, total := ns.actset.length * ((ns.perAct + 3) / 4) }

/-- Has actuator `a` extents or bands of a namespace? -/
def State.carriesNs (s : State) (a : Nat) : Bool := s.namespaces.any fun r => r.2.actset.contains a

/-- MEDIA_FORMAT, KIND 2: format of an actuator without namespaces and without live landing data (05 R149, Table 5.8). -/
def execMediaFormatActuator (r : Requester) (s : State) : Host.Outcome State Fault Refusal :=
  .next <| s.serve r 0x0510 (some 2) fun p =>
    let k := mbxOf r
    let a := byteAt p 4
    let pct := byteAt p 1
    if !s.fromSteward r || !reservedZero p [(0, 1), (1, 1), (4, 1)] || 143 < a || pct == 0 || 10 < pct then s.refuseFormat k 3
    else if s.formatting a then s.refuseFormat k 1
    else if s.carriesNs a || (s.act a).med.landing.any (·.st == .live) then s.refuseFormat k 2
    else s.enterFormat k { nsFmt := false, act := a, convPct := pct, total := (s.bay (bayOf a)).link.recZones }

/-- Queue a format's remaining units as grazing of its actuators. -/
def State.queueFormat (s : State) (o : FmtOp) : State :=
  s.each (s.formatActs o) fun s a => s.modGraze a fun x => { x with pending := x.pending ++ s.formatOps o a }

/-- FORMAT_START: with no entry of the namespace left in the ledger, a waiting operation runs: a namespace's contents are
discarded, a joined bay of the actuator goes to FORMATTING. With a bay of its scope absent it is PAUSED (05 R149 to R151). -/
def execFormatStart (id : Nat) (s : State) : Host.Outcome State Fault Refusal :=
  .next <| match s.fmts.find? fun o => o.id == id && o.st == 0 with
  | none => s
  | some o =>
    if o.nsFmt && s.ledger.any fun c => c.nsid == o.nsid && c.phase != .heldCpl then s
    else
      let out := (s.formatActs o).any fun a => !(s.bay (bayOf a)).link.present
      let s := s.mapFmt fun x => if x.id = id then { x with st := if out then 2 else 1 } else x
      let joined := decide (2 ≤ (s.bay (bayOf o.act)).link.media.toNat ∧ (s.bay (bayOf o.act)).link.media.toNat ≤ 5)
      let s := if o.nsFmt then s.clearNs o.nsid else if joined then s.setMedia (bayOf o.act) 7 else s
      s.queueFormat o

/-- May a requester see a format operation: the steward and the sideband every one, another PF those on its attached namespaces
(05 R151)? -/
def State.seesFormat (s : State) (r : Requester) (o : FmtOp) : Bool :=
  s.seesAll r || (o.nsFmt && match r with
    | .fn f => (s.ns o.nsid).attached.contains f.val
    | .sideband => true)

/-- MEDIA_FORMAT_STATUS: state and progress of an operation (05 R151, Table 5.8). -/
def execMediaFormatStatus (r : Requester) (s : State) : Host.Outcome State Fault Refusal :=
  .next <| s.serve r 0x0511 none fun p =>
    match s.fmts.find? fun o => o.id == fieldAt p 0 4 && s.seesFormat r o with
    | some o =>
      if reservedZero p [(0, 4)] then s.respond (mbxOf r) (leBytes 1 o.st ++ leBytes 3 0 ++ leBytes 4 o.done ++ leBytes 4 o.total)
      else s.respond (mbxOf r) (leBytes 1 4 ++ leBytes 11 0)
    | none => s.respond (mbxOf r) (leBytes 1 4 ++ leBytes 11 0)

end Sys2Proof.Machine
end

