-- ==== Sys2Proof/Machine/Xing.lean ====
section
/-! DEFINITION. Crossings between clock islands: the peer-reset indication and re-arming (14 R380, R381). -/
namespace Sys2Proof.Machine

open Sys2Proof

/-- Clock islands of the die (14 Table 14.1). -/
def islands : Nat := 217

/-- Crossings of island `j` that lead to island `i`. -/
def crossingsTo (j i : Nat) : List Nat :=
  (List.range ((Config.crossings j).val + 1)).filter fun x => (Config.crossPeer j x).toNat == i

/-- The crossings of the other islands that lead to island `i`: island and crossing. -/
def crossingsOf (i : Nat) : List (Nat × Nat) :=
  ((List.range islands).filter (· != i)).flatMap fun j => (crossingsTo j i).map fun x => (j, x)

/-- DISCARD counts messages up to 255. -/
def addSat8 (v : BitVec 8) (n : Nat) : BitVec 8 := BitVec.ofNat 8 (min 255 (v.toNat + n))

/-- Island `i` enters reset alone: every live crossing that leads to it sees the indication, discards what is in flight, counts it
and refuses transfers. `flight` is the number of messages in flight by crossing, key 16 * island + crossing (14 R380). -/
def State.peerReset (s : State) (i : Nat) (flight : Tab Nat) : State :=
  let s := s.modIsl i fun x => { x with ready := false, reset := true, switching := false }
  let live := (crossingsOf i).filter fun r => (s.isl r.1).ready
  let s := s.each live fun s (j, x) =>
    (s.modXing (16 * j + x) fun c =>
      { c with peer := true, refusing := true, discard := addSat8 c.discard (flight.get (fun _ => 0) (16 * j + x)) }).modIsl j
        fun y => { y with peercnt := y.peercnt + 1 }
  if live.isEmpty then s else s.raise 0x7B4

/-- Are the islands of a crossing both in service (14 R375)? -/
def State.linked (s : State) (i j : Nat) : Bool :=
  (s.isl i).ready && (s.isl j).ready && !(s.isl i).switching && !(s.isl j).switching && !(s.isl i).recov && !(s.isl j).recov

/-- CLK_XING_STAT.INSVC of crossing `x` of island `i` (14 R375, R381, Table 14.6). -/
def State.inService (s : State) (i x : Nat) : Bool := s.linked i (Config.crossPeer i x).toNat && !(s.xing (16 * i + x)).refusing

/-- Island `i` signals ready: its crossings are re-armed on both sides (14 R381). -/
def State.rearm (s : State) (i : Nat) : State :=
  let s := s.modIsl i fun x => { x with ready := true, reset := false }
  let s := s.each (crossingsOf i) fun s (j, x) => s.modXing (16 * j + x) fun c => { c with refusing := false }
  s.each (List.range ((Config.crossings i).val + 1)) fun s x => s.modXing (16 * i + x) fun c => { c with refusing := false }

end Sys2Proof.Machine
end

