-- ==== Sys2Proof/Machine/Pcie.lean ====
section
/-! DEFINITION. Host ports: completions to the device's own reads, the transit window, refused requests, links, Bus Master Enable
and the resets of functions and ports (04). -/
namespace Sys2Proof.Machine

open Sys2Proof

/-! ### Completions to the device's own reads (03 R69, 04 R112) -/

/-- How far the walk of a scatter list has come. -/
structure Walk where
  /-- buffer ranges met -/
  bufs : List (Nat × Nat)
  /-- bytes met -/
  walk : Nat
  /-- DATA entries read -/
  data : Nat
  /-- CHAIN entries followed -/
  chain : Nat
  /-- ranges met in this segment -/
  new : List (Nat × Nat) := []
  /-- the next segment: address and entries -/
  next : Option (Nat × Nat) := none
  /-- an entry breaks Table 3.3 or a limit of R69 -/
  bad : Bool := false

/-- Walk the `left` entries of a segment until `size` bytes are met (03 R69, Table 3.3). -/
def walkSegment (size : Nat) : Nat → List Byte → Walk → Walk
  | 0, _, w => w
  | left + 1, bs, w =>
    if size ≤ w.walk then w else
      let addr := fieldAt bs 0 8
      let n := fieldAt bs 8 4
      let type := byteAt bs 15
      let clean := fieldAt bs 12 3 = 0
      if type = 0 then
        if !clean ∨ addr % 4 ≠ 0 ∨ n % 4 ≠ 0 ∨ 67108864 < n ∨ w.data = 16384 then { w with bad := true }
        else
          let k := min n (size - w.walk)
          let w := { w with data := w.data + 1, walk := w.walk + k }
          walkSegment size left (bs.drop 16) (if n = 0 then w else { w with bufs := w.bufs ++ [(addr, k)], new := w.new ++ [(addr, k)] })
      else if type = 1 then
        if !clean ∨ addr % 16 ≠ 0 ∨ n = 0 ∨ 256 < n ∨ left ≠ 0 ∨ w.chain = 16384 then { w with bad := true }
        else { w with chain := w.chain + 1, next := some (addr, n) }
      else { w with bad := true }

/-- A segment of a scatter list has arrived (03 R69). -/
def State.segmentIn (s : State) (c : Cmd) (bs : List Byte) : State :=
  let w := walkSegment c.bufSize c.walkLeft bs { bufs := c.bufs, walk := c.walk, data := c.walkData, chain := c.walkChain }
  if w.bad then s.finish c.id Sts.invalidField 0
  else if w.walk < c.bufSize ∧ w.next.isNone then s.finish c.id Sts.bufferTooSmall 0
  else
    let more := if w.walk < c.bufSize then w.next else none
    let c := { c with bufs := w.bufs, walk := w.walk, walkData := w.data, walkChain := w.chain, walkLeft := (more.map (·.2)).getD 0 }
    let s := s.modCmd c.id fun _ => c
    let s := if c.takesData then s.each w.new fun s r => s.askHost c false r.1 r.2 else s
    let s := match more with
      | some (a, n) => s.askHost c true a (16 * n)
      | none => s
    s.pushReport c.id

/-- Data of a write have arrived: with the last of them the fetch is complete (01 R17, 02 R45). -/
def State.dataIn (s : State) (c : Cmd) (bs : List Byte) : State :=
  let d := c.fdata ++ bs
  let c := { c with fdata := d, promised := c.promised - bs.length }
  let s := s.modCmd c.id fun _ => c
  if s.pastCutoff c then s.cutOff c.id
  else if c.bufSize ≤ d.length then (s.modCmd c.id fun x => { x with fdata := [] }).writeFetched c.id (d.take c.bufSize) else s

/-- A device read of entry `id` failed: the fetch ends with HOST_DATA_ERROR. Its other reads stay outstanding, and what still arrives for them is
discarded (04 R112). -/
def State.readFailed (s : State) (id : Nat) : State := s.finish id Sts.hostDataError 0

/-- `n` bytes of the oldest matching read request have come; with the last of them it is no longer outstanding. -/
def takeRead (id : Nat) (list : Bool) (n : Nat) : List RdReq → List RdReq
  | [] => []
  | r :: t =>
    if r.id = id ∧ r.list = list then (if r.left ≤ n then t else { r with left := r.left - n } :: t) else r :: takeRead id list n t

/-- The oldest read request outstanding for an entry. -/
def FnSt.read? (x : FnSt) (id : Nat) (list : Bool) : Option RdReq := x.rdOut.find? fun r => r.id == id && r.list == list

/-- Is the fetch of an entry over: the entry gone, or its status fixed? -/
def State.fetchOver (s : State) (id : Nat) : Bool := (s.cmd? id).all (·.phase == .heldCpl)

/-- A completion that matches no outstanding request (04 R112). -/
def State.unexpected (s : State) (f : Nat) : State := (((s.logPort f 8).aerLog f 16 true none).portFault f 8)

/-- HOST_DATA_COMPLETION: bytes of a device read of function `f` for ledger entry `id`, of its data or, whole, of a segment of its scatter list. What
matches no outstanding read is unexpected; what comes for a fetch that is over is discarded; a poisoned or failed completion ends the fetch (04
R112). -/
def State.hostCompletion (s : State) (f id : Nat) (list failed : Bool) (bs : List Byte) : State :=
  let s := s.touch f
  match (s.fn f).read? id list with
  | none => s.unexpected f
  | some r =>
    if !failed && (bs.isEmpty || decide (r.left < bs.length) || (list && bs.length != r.left)) then s.unexpected f
    else
      let s := s.modFn f fun x => { x with rdOut := takeRead id list (if failed then r.left else bs.length) x.rdOut }
      match s.cmd? id with
      | none => s
      | some c =>
        if c.phase = .heldCpl then s
        else if failed then ((s.logPort f 7).portFault f 8).readFailed id
        else if list then s.segmentIn c bs else s.dataIn c bs

/-- HOST_DATA_COMPLETION (04 R112). -/
def execHostDataCompletion (f : FnId) (id : Nat) (list failed : Bool) (data : List Byte) (s : State) : Host.Outcome State Fault Refusal :=
  .next (s.hostCompletion f.val id list failed data)

/-- Completion timeout of function `f` in ns: 32 ms with the default encoding (04 R112). -/
def State.ctoNs (s : State) (f : Nat) : Nat := if (s.fn f).cto = 0 then 32000000 else Config.ctoNs (s.fn f).cto

/-- HOST_COMPLETION_TIMEOUT: reads of an entry outstanding for the function's timeout are given up; nothing is logged for a fetch that is over (04
R112). -/
def execHostCompletionTimeout (f : FnId) (id : Nat) (s : State) : Host.Outcome State Fault Refusal :=
  let due (r : RdReq) : Bool := r.id == id && decide (r.at_ + s.ctoNs f.val ≤ s.now)
  .next <| if !(s.fn f.val).rdOut.any due then s
    else
      let t := s.modFn f.val fun x => { x with rdOut := x.rdOut.filter (!due ·) }
      if s.fetchOver id then t
      else
        let t := (t.logPort f.val 6).modPort (portOf f.val) fun p => { p with ctoCnt := p.ctoCnt + 1 }
        (t.portFault f.val 7).readFailed id

/-! ### Bus Master Enable (04 R121) -/

/-- Post a completion held under the BME exception: LATE_HOST_DISABLED, with the status it would have carried (02 R57, 03
Table 3.7). -/
def State.postHeld (s : State) (id : Nat) : State :=
  match s.cmd? id with
  | none => s
  | some c =>
    let st := c.status.getD 0
    let s := if c.noEntry then s else s.tallyEnd c st
    let s := if c.cqGone then s else if c.silent then s.releaseSlot c.fn c.cq
      else (s.postEntry c.fn c.cq (c.cpl s.now Sts.lateHostDisabled (at_ 16 (c.result % 2 ^ 16) + st))).raiseFn c.fn 12
    (s.ackStaged id).dropCmd id

/-- Issue the host reads an entry could not issue. -/
def State.issueAsks (s : State) (c : Cmd) : State :=
  (s.modCmd c.id fun x => { x with asks := [] }).each c.asks fun s r => s.askHost c r.1 r.2.1 r.2.2

/-- The function may issue requests again: held completions are posted in order, reads that waited are issued, and reports that
waited are written (04 R121). -/
def State.resume (s : State) (f : Nat) : State :=
  let x := s.fn f
  if !x.bme || x.d3 || s.boot.postStop then s else
    let s := s.modFn f fun y => { y with held := [] }
    let s := s.each x.held State.postHeld
    let mine := s.ledger.filter fun c => c.fn == f && c.phase == .admitted
    let s := s.each mine State.issueAsks
    s.each mine fun s c => s.pushReport c.id

/-- Has function `f` device reads outstanding: for entries, ended ones too, or of submission entries (04 R121)? -/
def State.readsOut (s : State) (f : Nat) : Bool :=
  !(s.fn f).rdOut.isEmpty || s.sqs.any fun r => r.1 / 64 == f && r.2.fetching != 0

/-- Bus Master Enable clears; with device reads outstanding event 5 of the port latches (04 R121). -/
def State.bmeOff (s : State) (f : Nat) : State :=
  if !(s.fn f).bme then s else
    let s := s.modFn f fun x => { x with bme := false }
    if s.readsOut f then s.portFault f 5 else s

/-- Bus Master Enable is set. -/
def State.bmeOn (s : State) (f : Nat) : State :=
  if (s.fn f).bme || !(s.fn f).enabled then s else (s.modFn f fun x => { x with bme := true }).resume f

/-- Does function `f` take configuration requests: it exists, and its port does not answer them with Configuration Request Retry Status (04
R123)? -/
def State.cfgOk (s : State) (f : Nat) : Bool := (s.fn f).enabled && !(s.port (portOf f)).crs

/-- BME_CLEAR (04 R121). -/
def execBmeClear (f : FnId) (s : State) : Host.Outcome State Fault Refusal := .next (if s.cfgOk f.val then s.bmeOff f.val else s)

/-- BME_SET (04 R121). -/
def execBmeSet (f : FnId) (s : State) : Host.Outcome State Fault Refusal := .next (if s.cfgOk f.val then s.bmeOn f.val else s)

/-- D3HOT_TRANSITION: in D3hot the device issues nothing for the function; on its return to D0 what waited resumes (04 R121). -/
def execD3hotTransition (f : FnId) (enter : Bool) (s : State) : Host.Outcome State Fault Refusal :=
  .next <| if !s.cfgOk f.val then s else
    let s := s.modFn f.val fun x => { x with d3 := enter }
    if enter then s else s.resume f.val

/-! ### Function resets (04 R122) -/

/-- What an entry removed without a completion leaves in the tally: the quantities attributed to it, in the minute of its end
(15 R404). -/
def State.tallyRemoved (s : State) (c : Cmd) : State :=
  if !c.wasAdm then s else
    s.charge c.fn c.nsid fun x =>
      { x with busyNs := x.busyNs + c.busyNs, iter := x.iter + c.iters,
               eSpin := x.eSpin + c.eSpin, eAsst := x.eAsst + c.eAsst, eChan := x.eChan + c.eChan, eDec := x.eDec + c.eDec }

/-- Remove an entry not yet at its waymark from the ledger and its plans, without completion and committing nothing (04 R122). -/
def State.removeCmd (s : State) (c : Cmd) : State := ((s.release c false).tallyRemoved c).dropCmd c.id

/-- Remove entries without completion: what they leave undone on their zones is undone from the last to the first, and the commands of other
functions that this fails end (03 R82, 04 R122, 05 R131). -/
def State.removeAll (s : State) (cs : List Cmd) : State :=
  let s := s.each cs State.removeCmd
  ((s.each cs.reverse State.undoZone).endAll []).drain

/-- What a function reset does to the function's entries and queues: held completions are discarded, entries short of their
waymark are removed, the rest run on without posting, every queue goes with the entries fetched from it (04 R122). -/
def State.resetQueues (s : State) (f : Nat) : State :=
  let mine := s.ledger.filter (·.fn == f)
  let s := s.each (mine.filter (·.phase == .heldCpl)) fun s c => (if c.noEntry then s else s.tallyEnd c (c.status.getD 0)).dropCmd c.id
  let s := { s with sqs := s.sqs.filter fun r => r.1 / 64 != f, cqs := s.cqs.filter fun r => r.1 / 64 != f,
                    ldg := { s.ldg with checking := s.ldg.checking.filter fun w => w.fn != f } }
  let s := s.mapCmds fun c => if c.fn = f then { c with silent := true, cqGone := true } else c
  (s.removeAll (mine.filter fun c => c.phase != .heldCpl && !c.waymark)).runWaiting

/-- The per-function registers and the configuration space of function `f` at their reset values: its event views, queue log,
mailbox, rings and, for a PF, the sticky AER registers apart (PRESUMED, PCIe's rule), its selectors; captured halves and a response still owed go (04 R122, R123; 15 R390, R401, R407). -/
def State.resetRegs (s : State) (f : Nat) : State :=
  let s := s.modFn f fun x =>
    { x with bme := false, mse := false, d3 := false, relaxed := true, qhValid := false, qhCause := 0, qhCq := false, qhQid := 0,
             qhCnt := 0, fnLatch := 0, talDrop := 0, held := [], bars := {}, errEn := 0, serr := false, mps := 0, cto := 0, ltrEn := false, acs := 0,
             numVfs := 0 }
  let s := s.setMbx f {}
  let s := { s with rings := s.rings.filter fun r => r.1 / 4 != f }
  let s := s.modGlb fun g => { g with captured := g.captured.filter fun r => r.1 / 2 ^ 24 != f }
  if !isPf f then s else
    let p := portOf f
    let s := s.modCfg fun c => { c with sels := c.sels.filter (·.1 != p) }
    { s with evt := { s.evt with latch := s.evt.latch.filter fun r => r.1 / 64 != p } }

/-- One function reset, without its event. Its Bus Master Enable goes with the registers: event 5 of R121 is for a clear by the host, and device
reads outstanding at a reset latch none (DESIGN CHOICE: R122 does not say) (04 R122). -/
def State.resetFn (s : State) (f : Nat) : State :=
  let s := s.modFn f fun x => { x with bme := false }
  (s.resetQueues f).resetRegs f

/-- VFs under the VF Enable of function `f`: of a PF, or of VF32 as function 0 of half 1 (04 R100). -/
def State.vfsUnder (s : State) (f : Nat) : List Nat :=
  let two := s.bif (portOf f)
  if f % 64 = 0 then (List.range (if two then 31 else 63)).map (f + 1 + ·)
  else if two && f % 64 == 32 then (List.range 31).map (f + 1 + ·)
  else []

/-- VF Enable clears: every VF under it is reset and gone (04 R122). -/
def State.vfsOff (s : State) (f : Nat) : State :=
  s.each ((s.vfsUnder f).filter fun v => (s.fn v).enabled) fun s v => (s.resetFn v).modFn v fun x => { x with enabled := false }

/-- Function Level Reset, without its event: the VFs under a function's VF Enable go with it (04 R122). -/
def State.flr (s : State) (f : Nat) : State := (s.vfsOff f).resetFn f

/-- FUNCTION_LEVEL_RESET (04 R122). -/
def execFunctionLevelReset (f : FnId) (s : State) : Host.Outcome State Fault Refusal :=
  .next <| if s.cfgOk f.val then (s.flr f.val).raise (portEvt (portOf f.val) 4) else s

/-- VF_ENABLE_CHANGE: the host sets VF Enable with NumVFs `n`, or clears it; P0.PF has no SR-IOV capability in Trailhead mode (04
R100, R106, R122). -/
def execVfEnableChange (f : FnId) (on : Bool) (n : Fin 64) (s : State) : Host.Outcome State Fault Refusal :=
  let vs := s.vfsUnder f.val
  .next <| if vs.isEmpty || !s.cfgOk f.val || (s.boot.trailhead && f.val == 0) then s
    else if !on then s.vfsOff f.val
    else if vs.any fun v => (s.fn v).enabled then s
    else (s.modFn f.val fun x => { x with numVfs := BitVec.ofNat 16 n.val }).each (vs.take n.val) fun s v =>
      (s.modFn v fun x => { x with enabled := true }).modAcc v fun x => { x with enabled := true, partial_ := true }

/-! ### Links and ports (04 R96 to R99, R123) -/

/-- Change half `h` of a port's links. -/
def State.modHalf (s : State) (p : Nat) (h : Bool) (g : Link → Link) : State :=
  s.modPort p fun x => if h then { x with h1 := g x.h1 } else { x with h0 := g x.h0 }
/-- Half `h` of a port's links. -/
def State.half (s : State) (p : Nat) (h : Bool) : Link := if h then (s.port p).h1 else (s.port p).h0

/-- May half `h` of port `p` train at this width and rate (04 R96)? -/
def State.trains (s : State) (p : Nat) (h : Bool) (w rate : Nat) : Bool :=
  let two := s.bif p
  (two || !h) && (p == 0 || !s.boot.trailhead) && (if two then [1, 2, 4, 8] else [1, 2, 4, 8, 16]).contains w && decide (1 ≤ rate ∧ rate ≤ 5)

/-- PCIE_LINK_UP: a link of the port trains (04 R96, Table 4.7). -/
def execPcieLinkUp (p : PortId) (half : Bool) (width : BitVec 5) (rate : BitVec 3) (s : State) : Host.Outcome State Fault Refusal :=
  .next <| if (s.port p.val).perst || (s.half p.val half).up || !s.trains p.val half width.toNat rate.toNat then s else
    let s := s.modHalf p.val half fun l => { l with up := true, width := width, rate := rate, lstate := 0, idleSince := s.now, txAt := s.now }
    (s.modPort p.val fun x => { x with training := false, crs := !(s.boot.running || s.boot.trailhead) }).raise (portEvt p.val 0)

/-- Functions of half `h` of port `p`. -/
def State.fnsOf (s : State) (p : Nat) (h : Bool) : List Nat :=
  ((List.range 64).map (64 * p + ·)).filter fun f => (s.fn f).enabled && s.onHalf1 f == h

/-- A link goes down: each function of it is reset as by FLR, its VFs are gone, and no read of its functions is outstanding any more (04 Table
4.7). -/
def State.linkDown (s : State) (p : Nat) (h : Bool) : State :=
  let other := if h then (s.port p).h0.up else (s.port p).h1.up
  let mine (f : Nat) : Bool := portOf f == p && s.onHalf1 f == h
  let s := s.mapFns fun f x => if mine f then { x with rdOut := [] } else x
  let s := s.modHalf p h fun _ => {}
  let s := s.modPort p fun x => if other || x.perst then x else { x with downAt := s.now }
  let head := if h then 64 * p + 32 else 64 * p
  let s := if (s.fn head).enabled then s.flr head else s
  s.each ((s.fnsOf p h).filter (· != head)) State.flr

/-- PCIE_LINK_DOWN: DL_Down, hot reset or disable of a link (04 Table 4.7). -/
def execPcieLinkDown (p : PortId) (half : Bool) (s : State) : Host.Outcome State Fault Refusal :=
  .next <| if (s.half p.val half).up then (s.linkDown p.val half).raise (portEvt p.val 1) else s

/-- PCIE_RETRAIN: a retrain, or a change of rate or width, without link down; the host-port model follows what the link is now
trained at (04 R99, Table 4.7). -/
def execPcieRetrain (p : PortId) (half : Bool) (width : BitVec 5) (rate : BitVec 3) (s : State) : Host.Outcome State Fault Refusal :=
  .next <| if !(s.half p.val half).up || !s.trains p.val half width.toNat rate.toNat then s else
    let s := s.modHalf p.val half fun l => { l with width := width, rate := rate, lstate := 0, idleSince := s.now, txAt := s.now }
    (s.modPort p.val fun x => { x with retrain := x.retrain + 1 }).raise (portEvt p.val 2)

/-- The HPT and TWN registers of a port reload: counters and logs to reset values, the window and its grants from the port's flash
record (04 R120, R124; 00 R12). -/
def PortSt.reload (x : PortSt) : PortSt :=
  { x with l1Idle := 64, errValid := false, errCause := 0, errFunc := 0, urCnt := 0, ctoCnt := 0, retrain := 0, wpend := x.flashTwn.getD {}, wcur := x.flashTwn.getD {}, pend := false, rej := false,
           wign := false, switchCnt := 0, dropCnt := 0, grants := x.flashGrants, held := [] }

/-- PERST_ASSERT: as link down on both halves; the port's HPT and TWN registers reload, and the host island's crossings see a
reset on one side. `flight` is what was in flight on them (04 Table 4.7, R120; 14 R380). -/
def execPerstAssert (p : PortId) (flight : Tab Nat) (s : State) : Host.Outcome State Fault Refusal :=
  .next <| if (s.port p.val).perst then s else
    let up0 := (s.port p.val).h0.up
    let up1 := (s.port p.val).h1.up
    let s := if up0 || up1 then s.modPort p.val fun x => { x with downAt := s.now } else s
    let s := s.modPort p.val fun x => { x with perst := true, training := false, crs := true }
    let s := s.linkDown p.val false
    let s := if s.bif p.val then s.linkDown p.val true else s
    let s := s.modPort p.val PortSt.reload
    let s := s.mapFns fun f x => if portOf f = p.val then { x with aer := {} } else x
    (s.peerReset (144 + p.val) flight).raise (portEvt p.val 3)

/-- BAR2 size code of a port as its flash record or its straps give it (04 R106). -/
def State.sizeOf (s : State) (p : Nat) : BitVec 3 := ((s.port p).flashSize).getD (s.glb.bar2sz.extractLsb' (3 * p) 3)

/-- PERST_DEASSERT: link training starts; TWN_SIZE loads (04 R106, Table 4.7; 18 R450). -/
def execPerstDeassert (p : PortId) (s : State) : Host.Outcome State Fault Refusal :=
  .next <| if !(s.port p.val).perst then s
    else s.modPort p.val fun x => { x with perst := false, training := true, crs := true, twnSize := s.sizeOf p.val }

/-- Does any ledger entry belong to a function of half `h` of port `p`? -/
def State.linkBusy (s : State) (p : Nat) (h : Bool) : Bool :=
  s.ledger.any fun c => !c.noEntry && portOf c.fn == p && s.onHalf1 c.fn == h

/-- L1_ENTRY: idle for L1_IDLE µs (at least 8) with no ledger entry, the link enters L1 where the host has enabled it, and with `sub` L1.1 or L1.2
where its ASPM substate settings allow one; whether the LTR values the device reports and CLKREQ_N of the port allow it is `sub`'s to say: the
spec does not state those values (04 R113). -/
def execL1Entry (p : PortId) (half sub : Bool) (s : State) : Host.Outcome State Fault Refusal :=
  let l := s.half p.val half
  .next <| if l.up && l.aspm.getLsbD 1 && !s.linkBusy p.val half && decide (l.idleSince + 1000 * max 8 (s.port p.val).l1Idle.toNat ≤ s.now) then
      s.modHalf p.val half fun l => { l with lstate := if sub && (l.l1ss.getLsbD 2 || l.l1ss.getLsbD 3) then 3 else 2 }
    else s

/-! ### Refused requests and the transit window (04 R111, R114 to R120) -/

/-- Bytes of BAR2 of a port; 0 while it has none (04 Table 4.17, R106). -/
def State.bar2Size (s : State) (p : Nat) : Nat :=
  let z := (s.port p).twnSize.toNat
  if 5 < z ∨ (s.boot.trailhead ∧ p = 0) then 0 else 2 ^ (30 + z)

/-- REFUSED_REQUEST: a request of Table 4.5. The flags say which rows the request itself meets; whether the function decodes
memory requests, and whether it may use DIAG, is the device's own state. The first cause in the order of R111 is taken. -/
def execRefusedRequest (f : FnId) (unsupported poisoned misaligned diag window posted : Bool) (hdr : BitVec 128) (s : State) :
    Host.Outcome State Fault Refusal :=
  let x := s.fn f.val
  let s := s.touch f.val
  let no (cause : Nat) : State := s.refuseReq f.val cause posted hdr.toNat
  .next <| if unsupported then no 4
    else if poisoned then no 5
    else if x.d3 || !x.mse then no 9
    else if misaligned then no 1
    else if diag && !(s.isSteward f.val && s.diagOpen) then no 2
    else if window && isPf f.val then no 3
    else s

/-- Decode one BAR2 request under the window in force: outside it, refused whole; inside, written or read at BASE + offset (04
R114, R117). -/
def State.decodeBar2 (s : State) (p : Nat) (t : HeldTlp) : State :=
  let w := (s.port p).wcur
  let n := if t.write then t.bytes.length else t.len
  if !(w.en && decide (t.off + n ≤ w.limit + 1)) || s.bar2Size p == 0 then s.refuseAny (64 * p) 3 t.write
  else
    let k := w.base + t.off
    let s := s.missOn (8 + p) (linesIn k n)
    if t.write then State.ramStore n s k t.bytes
    else
      let s := s.settle k n
      s.emit (.bar2Data p (ramBytes s.ram k n))

/-- A BAR2 request reaches the port: refused while the PF decodes no memory requests, held at decode while a switch is pending
(04 R111, R116). -/
def State.bar2 (s : State) (p : Nat) (t : HeldTlp) : State :=
  let x := s.fn (64 * p)
  let s := s.touch (64 * p)
  if x.d3 || !x.mse then s.refuseAny (64 * p) 9 t.write
  else if (s.port p).pend then s.modPort p fun y => { y with held := y.held ++ [t] }
  else s.decodeBar2 p t

/-- BAR2_WRITE (04 R114). -/
def execBar2Write (p : PortId) (off : BitVec 36) (data : List Byte) (s : State) : Host.Outcome State Fault Refusal :=
  .next (s.bar2 p.val { write := true, off := off.toNat, bytes := data })

/-- BAR2_READ (04 R114). -/
def execBar2Read (p : PortId) (off : BitVec 36) (len : Fin 4097) (s : State) : Host.Outcome State Fault Refusal :=
  .next (s.bar2 p.val { off := off.toNat, len := len.val })

/-- Does a window lie within the port's staging region and its BAR2 (04 R115)? -/
def State.windowFits (s : State) (p : Nat) (w : Twn) : Bool :=
  let a := s.area (12 + p)
  decide (a.base.toNat * 2 ^ 28 ≤ w.base ∧ w.base + w.limit + 1 ≤ (a.base.toNat + a.size.toNat) * 2 ^ 28 ∧ w.limit < s.bar2Size p)

/-- A write to TWN_COMMIT of port `p` (04 R115, R120, Table 4.15). -/
def State.commitWindow (s : State) (p : Nat) (val : Word) : State :=
  if s.glb.lck.getLsbD 2 then s
  else if (s.port p).pend then s.modPort p fun x => { x with wign := true }
  else if !val.getLsbD 0 then s
  else if s.windowFits p (s.port p).wpend then s.modPort p fun x => { x with pend := true }
  else (s.modPort p fun x => { x with rej := true }).raise (portEvt p 11)

/-- TWN_COMMIT: only the port's own PF has the register (04 R124). -/
def execTwnCommit (f : FnId) (val : Word) (s : State) : Host.Outcome State Fault Refusal :=
  .next <| s.bar0 f.val true fun s => if isPf f.val && !s.boot.trailhead then s.commitWindow (portOf f.val) val else s

/-- WINDOW_SWITCH: the pending window comes into force, and held requests are decoded under it (04 R116); commands whose copy waited for them copy
their data now (04 R110). A switch requested before LCK_CTRL.TWN was set still takes place (DESIGN CHOICE: R116 bounds it by 2 µs, R120 keeps the
window in force as it is). -/
def execWindowSwitch (p : PortId) (s : State) : Host.Outcome State Fault Refusal :=
  .next <| if !(s.port p.val).pend then s else
    let held := (s.port p.val).held
    let s := s.modPort p.val fun x => { x with wcur := x.wpend, switchCnt := x.switchCnt + 1, pend := false, held := [] }
    let s := (s.raise (portEvt p.val 9)).each held fun s t => s.decodeBar2 p.val t
    let waits (c : Cmd) : Bool := c.win && c.takesData && !c.fetched && c.phase == .admitted && portOf c.fn == p.val
    s.each ((s.ledger.filter waits).map (·.id)) fun s id => s.copyWindow id

/-! ### The steward (04 R101 to R103) -/

/-- May stewardship move to port `p`: its half-0 or only link up, its PF with Memory Space Enable set (04 R102)? -/
def State.stewardReady (s : State) (p : Nat) : Bool := (s.port p).h0.up && (s.fn (64 * p)).mse

/-- Stewardship moves: both ports' events latch, and bit 14 of both PFs' function views (04 R102, 15 Table 15.9). -/
def State.moveSteward (s : State) (p : Nat) : State :=
  let old := s.glb.steward.toNat
  let s := s.modGlb fun g => { g with steward := BitVec.ofNat 2 p }
  ((s.raise (portEvt old 14)).raise (portEvt p 14)).raiseFns [64 * old, 64 * p] 14

/-- The steward's write of GLB_STEWARD (04 R102, Table 4.2). -/
def State.writeSteward (s : State) (t : Nat) : State :=
  if s.glb.lck.getLsbD 0 || s.boot.trailhead || t == s.glb.steward.toNat || !s.stewardReady t then s else s.moveSteward t

/-- GLB_STEWARD_WRITE (04 R102, Table 4.2). -/
def execGlbStewardWrite (f : FnId) (val : Word) (s : State) : Host.Outcome State Fault Refusal :=
  .next <| s.stewardWrite f.val fun s => s.writeSteward (val.toNat % 4)

end Sys2Proof.Machine
end

