-- ==== Sys2Proof/Machine/Ladder.lean ====
section
/-! DEFINITION. The retry ladder: samples held, rungs, and what becomes of a sector that leaves it (06 R160, R179 to R183; 12 R341 to
R345). -/
namespace Sys2Proof.Machine

open Sys2Proof

/-! ### Samples (06 R159, R160) -/

/-- Do two entries hold samples of one sector for one reader? -/
def Retain.same (e f : Retain) : Bool := e.cmd == f.cmd && e.key == f.key

/-- The samples held of a sector: those its averaging rung accumulates, else those of its first read (06 R159, R160, R181). -/
def State.samples (s : State) (a cmd key : Nat) : Option Retain :=
  let c := (s.act a).cfe
  (c.retained.filter (·.averaged) ++ c.slots ++ c.retained).find? fun e => e.cmd == cmd && e.key == key

/-- Change the samples held of a sector. -/
def State.modSamples (s : State) (a cmd key : Nat) (g : Retain → Retain) : State :=
  let avg := (s.samples a cmd key).any (·.averaged)
  let h (e : Retain) : Retain := if e.cmd = cmd ∧ e.key = key ∧ e.averaged = avg then g e else e
  s.modCfe a fun c => { c with slots := c.slots.map h, retained := c.retained.map h }

/-- Drop the samples held of a sector. -/
def State.dropSamples (s : State) (a cmd key : Nat) : State :=
  let h (e : Retain) : Bool := !(e.cmd == cmd && (e.key == key || e.isRef))
  s.modCfe a fun c => { c with slots := c.slots.filter h, retained := c.retained.filter h }

/-- Copy samples to the retention area; with all 64 entries held they are dropped and RETAIN_FULL is set (06 R160). -/
def State.retain (s : State) (a : Nat) (e : Retain) : State :=
  s.modCfe a fun c => if c.retained.length < 64 then { c with retained := c.retained ++ [e] } else { c with retainFull := true }

/-- A sector's samples leave their slot for the retention area. -/
def State.retainSlot (s : State) (a cmd key : Nat) : State :=
  match (s.act a).cfe.slots.find? fun e => e.cmd == cmd && e.key == key with
  | none => s
  | some e => (s.modCfe a fun c => { c with slots := c.slots.filter fun x => !(x.same e) }).retain a e

/-- A passage of an averaging rung is added into the sector's accumulation entry of the retention area; the samples of the original read are no
part of it (06 R181). -/
def State.accumulate (s : State) (a : Nat) (e : Retain) : State :=
  let own (x : Retain) : Bool := x.same e && x.averaged
  match (s.act a).cfe.retained.find? own with
  | some x =>
    let y := if x.step = e.step ∧ 1 < e.k then
        { e with r0 := Config.average x.r0 e.r0 e.k, r1 := Config.average x.r1 e.r1 e.k, erased := x.erased ++ e.erased } else e
    s.modCfe a fun c => { c with retained := c.retained.map fun z => if own z then y else z }
  | none => s.retain a e

/-- A new sector takes a slot, the oldest one going to the retention area when all 8 are held (06 R159, R160). -/
def State.takeSlot (s : State) (a : Nat) (e : Retain) : State :=
  let s := s.modCfe a fun c => { c with slots := c.slots.filter fun x => !(x.same e) }
  let s := match (s.act a).cfe.slots with
    | o :: t => if 7 ≤ t.length then (s.modCfe a fun c => { c with slots := t }).retain a o else s
    | [] => s
  s.modCfe a fun c => { c with slots := c.slots ++ [e] }

/-! ### Formatter commands of the channel (07 R191) -/

/-- Give the formatter a command; with four waiting, it waits for a place (07 R191). -/
def State.askReplay (s : State) (a : Nat) (q : FmtCmd) : State :=
  if (s.act a).fmt.queue.length < 4 then s.modFmt a fun f => { f with queue := f.queue ++ [q] }
  else s.modCfe a fun c => { c with replayQ := c.replayQ ++ [q] }

/-- Commands waiting for a place in the command queue take the places left (07 R191). -/
def State.fillQueue (s : State) (a : Nat) : State :=
  let c := (s.act a).cfe
  let n := 4 - (s.act a).fmt.queue.length
  (s.modFmt a fun f => { f with queue := f.queue ++ c.replayQ.take n }).modCfe a fun c => { c with replayQ := c.replayQ.drop n }

/-- Replays of a sector asked for or running stop: it has converged, or it goes on to another rung (06 R179). -/
def State.stopReplays (s : State) (a cmd key : Nat) : State :=
  let own (q : FmtCmd) : Bool := q.opc == 2 && q.cmd == cmd && q.keys.contains key
  (s.modFmt a fun f => { f with queue := f.queue.filter (!own ·), running := f.running.filter fun r => !(own r.req) }).modCfe a
    fun c => { c with replayQ := c.replayQ.filter (!own ·) }

/-! ### What a sector read for grazing comes to (12 R341 to R345, 06 R182, 05 R140) -/

/-- Queue a rewrite of a sector in place (12 Table 12.1, order 6). -/
def State.queueRewrite (s : State) (a key : Nat) : State :=
  if (s.act a).graze.pending.any fun g => g.order == 6 && g.key == key then s
  else
    let pos := s.whereIs key
    let p := s.placeOf a (pos / 65536) (pos % 65536)
    s.modGraze a fun g =>
      { g with pending := g.pending ++ [{ order := 6, head := p.head, pos := pos, count := 1, isRead := false, key := key }] }

/-- Queue the rewrite of a band into a free one (12 R341). -/
def State.queueBand (s : State) (a region : Nat) : State :=
  if (s.act a).graze.pending.any fun g => g.order == 6 && g.key == 0 && g.pos == region * 65536 then s
  else
    let p := s.placeOf a region 0
    s.modGraze a fun g => { g with pending := g.pending ++ [{ order := 6, head := p.head, pos := region * 65536, count := 65536 }] }

/-- Mark a head for channel calibration, and queue it (06 R162, 12 R342, order 8). -/
def State.wantChanCal (s : State) (a h : Nat) : State :=
  let s := s.modHead a h fun x => { x with markChan := true }
  if (s.act a).graze.pending.any fun g => g.order == 8 && g.head == h then s
  else s.modGraze a fun g => { g with pending := g.pending ++ [{ order := 8, kind := 1, head := h, count := 1 }] }

/-- Enter a sector in the unreadable-sector table; full, it takes no more (12 R343). -/
def State.enterUnread (s : State) (a key : Nat) (lost : Bool) : State :=
  let n := key / 2 ^ 48
  let l := key % 2 ^ 48
  let gen := ((s.onMedia n l).map (·.gen)).getD 0
  s.modGraze a fun g =>
    if g.unread.any fun u => u.nsid == n && u.lba == l then
      { g with unread := g.unread.map fun u => if u.nsid = n ∧ u.lba = l then { u with lost := u.lost || lost, time := s.now } else u }
    else if 4096 ≤ g.unread.length then { g with unrFull := true }
    else { g with unread := g.unread ++ [{ index := g.unrNext, nsid := n, lost := lost, lba := l, gen := gen, time := s.now }],
                  unrNext := g.unrNext + 1 }

/-- A sector without a clean source: LOST, with its event, count and poison event (12 R343). -/
def State.loseSector (s : State) (a key : Nat) : State :=
  let s := (s.enterUnread a key true).raise (actEvt a 6)
  (s.modGraze a fun g => { g with unreadCnt := g.unreadCnt + 1 }).chargePoison (key / 2 ^ 48)

/-- MARG_ITER as it acts (12 Table 12.10). -/
def State.margIter (s : State) : Nat := within 12 47 24 s.cfg.margIterNow.toNat

/-- A marginal sector found by the scrub: in place, or with its band (12 R341). -/
def State.marginal (s : State) (a key rung : Nat) : State :=
  let s := s.modGraze a fun g => { g with marginal := g.marginal + 1 }
  let (_, r, _) := (s.ns (key / 2 ^ 48)).locate (key % 2 ^ 48)
  if (s.ns (key / 2 ^ 48)).zoned && (s.landedCopy (key / 2 ^ 48) (key % 2 ^ 48)).isNone then
    let n := (s.act a).graze.bandMarg.get (fun _ => 0) r + 1
    let s := s.modGraze a fun g => { g with bandMarg := g.bandMarg.put r n, marg8 := g.marg8 ++ [key] }
    if 8 ≤ n ∨ 3 ≤ rung then
      let s := s.modGraze a fun g => { g with marg8 := g.marg8.filter fun k => ((s.ns (k / 2 ^ 48)).locate (k % 2 ^ 48)).2.1 != r }
      s.queueBand a r
    else s
  else s.queueRewrite a key

/-- A sector of a Recovery List entry is resolved: its data are held, and with every sector of the run the entry is RECOVERED (03
R92, 06 R182). -/
def State.recSector (s : State) (ref key : Nat) : State :=
  match s.recs.find? fun r => r.id.toNat == ref && r.st == .pending with
  | none => s
  | some r =>
    let x := (s.onMedia (key / 2 ^ 48) (key % 2 ^ 48)).getD (zeroSector (key / 2 ^ 48) (key % 2 ^ 48))
    let s := s.mapRec fun e => if e.id = r.id then { e with done := e.done ++ [key % 2 ^ 48], data := e.data ++ [x] } else e
    if r.count ≤ r.done.length + 1 then s.recTo r.id .recovered else s

/-- A Recovery List entry's sector has no step left: the entry is FAILED and its work ends (06 R182). -/
def State.recFail (s : State) (ref : Nat) : State :=
  match s.recs.find? fun r => r.id.toNat == ref && r.st == .pending with
  | none => s
  | some r =>
    (s.each (s.ns r.nsid).actset fun s a => s.modGraze a fun g => { g with pending := g.pending.filter fun o => !(o.order == 5 && o.ref == ref) }).recTo r.id .failed

/-- A landing-band sector that no rung recovers is marked unrecoverable and committed as a placeholder (05 R140). -/
def State.placeholder (s : State) (a key : Nat) : State :=
  let n := key / 2 ^ 48
  let l := key % 2 ^ 48
  let x := (s.onMedia n l).getD (zeroSector n l)
  let s := { s with media := s.media.put key { x with bad := true, data := [] } }
  let void (y : LSlot) : LSlot := if y.st == .live && y.sec.nsid == n && y.sec.lba == l then { y with st := .void } else y
  let s := s.modMed a fun m => { m with landing := m.landing.map void }
  ((s.advanceCom n l).raise (actEvt a 6)).chargePoison n

/-- A verify read of a group has used `n` iterations: one written with the trial table, or with the table in force (12 Table 12.4). -/
def PrecompTrial.verified (t : PrecompTrial) (own : Bool) (n : Nat) : PrecompTrial :=
  if own then { t with itOwn := t.itOwn + n, nOwn := t.nOwn + 1 } else { t with itOld := t.itOld + n, nOld := t.nOld + 1 }

/-- A grazing read of a sector converged and passed its checks, on a rung and in `iters` iterations. -/
def State.grazeGood (s : State) (x : Attempt) : State :=
  let a := x.act
  let hard := decide (1 < x.rung) || x.replay || decide (s.margIter < x.iters)
  let known := (s.act a).graze.unread.any fun u => secKey u.nsid u.lba == x.key
  let s := if known then
      (s.modGraze a fun g => { g with unread := g.unread.filter fun u => secKey u.nsid u.lba != x.key }).queueRewrite a x.key
    else s
  if x.order = 11 then (if hard then s.marginal a x.key (if x.replay && x.rung == 1 then 2 else x.rung) else s)
  else if x.order = 5 then s.recSector x.ref x.key
  else if x.order = 6 ∧ 1 ≤ x.ref then
    let s := if x.ref = 1 then s else s.modHead a x.head fun h => { h with trial := h.trial.verified (x.ref == 3) x.iters }
    if hard then (s.enterUnread a x.key false).wantChanCal a x.head else s
  else if x.order = 10 then
    let back (y : LSlot) : LSlot := if y.st == .live && secKey y.sec.nsid y.sec.lba == x.key then { y with rd := true } else y
    s.modMed a fun m => { m with landing := m.landing.map back }
  else s

/-- A grazing read of a sector has left every rung unresolved. -/
def State.grazeLost (s : State) (a order ref key : Nat) : State :=
  if order = 5 then s.recFail ref
  else if order = 10 then s.placeholder a key
  else s.loseSector a key

/-! ### Rungs (02 R49, 06 R179 to R183) -/

/-- The re-read of a sector in passage `k` of `tot`, a media operation of its own that holds a decode slot (02 R38, R49; 06 R181). -/
def State.rungOp (s : State) (a : Nat) (c : Cmd) (key step k tot : Nat) : PlanOp :=
  let pos := s.whereIs key
  let p := s.placeOf a (pos / 65536) (pos % 65536)
  { cmd := c.id, kind := .rung, fn := c.fn, dc := c.dc, milestone := c.milestone.getD 0, arrival := c.arrival,
    allowance := s.partAllowance c a, track := p.track, head := p.head, angle := p.angle, spt := p.spt, pos := pos, count := 1, read := true,
    keys := [key], slot := true, again := true, step := step, k := k, kTot := tot }

/-- The passages of a re-read, in order. -/
def State.rungOps (s : State) (a : Nat) (c : Cmd) (key step n : Nat) : List PlanOp :=
  (List.range n).map fun i => s.rungOp a c key step (i + 1) n

/-- Does a plan with the rung inserted, its last passage `o`, pass R49: the command's own finish at or before its milestone, the change slack-safe
for every other command, for a DC0 command condition 1 of R40 alone (02 R49), and a decode slot free for each passage (02 R38, 06 R181)? -/
def State.rungFits (s : State) (a : Nat) (c : Cmd) (o : PlanOp) (trial : List PlanOp) : Bool :=
  (finishIn trial o).any (decide <| · ≤ o.milestone) && s.slotsFree a trial &&
    (if c.dc = 0 then cond1 trial
     else cond1 trial && slackSafe (s.urgent a) (s.plan a) (trial.filter fun q => q.cmd != c.id))

/-- Insert a list at index `i`. -/
def insertAllAt {α : Type} (l : List α) (i : Nat) (xs : List α) : List α := l.take i ++ xs ++ l.drop i

/-- The plan with a rung of the most passages up to `k` that passes R49, at the first position of R42 that does. -/
def State.fitRung (s : State) (a : Nat) (c : Cmd) (key : Nat) : Nat → Option (List PlanOp)
  | 0 => none
  | k + 1 =>
    let q := (s.act a).adm.queue
    let o := s.rungOp a c key 0 (k + 1) (k + 1)
    let try' (i : Nat) : Option (List PlanOp) :=
      let trial := s.project a (insertAllAt q i (s.rungOps a c key 0 (k + 1)))
      if s.rungFits a c o trial then some trial else none
    match (positions (s.firstPos a c) q.length (milestonePos q o.milestone)).findSome? try' with
    | some t => some t
    | none => s.fitRung a c key k

/-- Passages of a step of rung 4: 8 and 16 averaged, four read offsets of 8, and for a shingled sector a band-aware read (06
R182). -/
def stepPassages (step : Nat) : Nat := if step = 2 then 16 else if step = 7 then 1 else 8

/-- Last step of rung 4 for a sector. -/
def State.lastStep (s : State) (key : Nat) : Nat := if (s.ns (key / 2 ^ 48)).zoned then 7 else 6

/-- A bulk command's sector is re-read a passage a quantum (06 R183). -/
def State.bulkPassages (s : State) (a : Nat) (c : Cmd) (key step n : Nat) : State :=
  (s.setPlan a (s.project a ((s.act a).adm.queue ++ s.rungOps a c key step n))).dispatch a

/-- A grazing read's sector is re-read a passage a quantum (06 R183). -/
def State.grazePassages (s : State) (a : Nat) (e : Retain) (step n : Nat) : State :=
  s.modGraze a fun g =>
    { g with pending := g.pending ++
        [{ order := e.order, head := e.head, pos := s.whereIs e.key, count := n, key := e.key, again := true, step := step, ref := e.ref }] }

/-- A sector is unresolved for its reader: the command completes, or grazing takes the loss (02 R49, 06 R183, 12 R343). -/
def State.giveUp (s : State) (a : Nat) (e : Retain) : State :=
  let s := s.dropSamples a e.cmd e.key
  if e.cmd = 0 then s.grazeLost a e.order e.ref e.key
  else match s.cmd? e.cmd with
    | none => s
    | some c => s.finish c.id (if c.dc = 7 then Sts.unrecovered else Sts.unrecoveredInDeadline) 0

/-- The fresh read of the sector at the same angle of track t − 1 (06 R182, step 3). -/
def State.freshRef (s : State) (a : Nat) (o : PlanOp) : PlanOp :=
  let p := s.placeOf a (o.pos / 65536) (o.pos % 65536 - o.spt)
  { o with again := false, pos := o.pos - o.spt, track := p.track, head := p.head, angle := p.angle, keys := [o.keys.headD 0 - o.spt], k := 1, kTot := 1 }

/-- Begin a step of rung 4; the last one of a shingled sector reads track t − 1 afresh first (06 R182). -/
def State.startStep (s : State) (a : Nat) (e : Retain) (step : Nat) : State :=
  let o := s.rungOp a {} e.key step 1 1
  let fresh := step = 7 ∧ o.spt ≤ o.pos % 65536
  if e.cmd = 0 then
    let f := s.freshRef a o
    let ref : GrazeOp := { order := e.order, head := f.head, pos := f.pos, count := 1, key := f.keys.headD 0, step := step, ref := e.ref }
    (if fresh then s.modGraze a fun g => { g with pending := g.pending ++ [ref] } else s).grazePassages a e step (stepPassages step)
  else match s.cmd? e.cmd with
    | none => s
    | some c =>
      (if fresh then s.setPlan a (s.project a ((s.act a).adm.queue ++ [s.freshRef a (s.rungOp a c e.key step 1 1)])) else s).bulkPassages a c e.key step
        (stepPassages step)

/-- The rung that follows when the present one and its replays have failed (06 R179, R182, R183). -/
def State.nextRung (s : State) (a : Nat) (e : Retain) : State :=
  let s := s.stopReplays a e.cmd e.key
  if e.rung < 3 then
    let n (s : State) : State := s.modCfe a fun c => { c with rung3 := c.rung3 + 1 }
    if e.cmd = 0 then (n s).grazePassages a e 0 4
    else match s.cmd? e.cmd with
      | none => s
      | some c =>
        if c.dc = 7 then (n s).bulkPassages a c e.key 0 4
        else match s.fitRung a c e.key 4 with
          | some plan => ((n s).setPlan a plan).dispatch a
          | none => s.giveUp a e
  else if e.rung = 3 then
    let s := s.modCfe a fun c => { c with unrec := c.unrec + 1 }
    let goes := if e.cmd = 0 then e.order = 11 || e.order = 10 || e.order = 6 && 1 ≤ e.ref
      else (s.cmd? e.cmd).any fun c => c.dc = 7 && c.cont
    if goes then s.startStep a e 1 else s.giveUp a e
  else if e.step < s.lastStep e.key then s.startStep a e (e.step + 1)
  else s.giveUp a e

/-- Replays that may run: all three for a read without a deadline; on rung 2 all or none; on rung 3 as many as leave the command's
finish at or before its milestone (02 R49, 06 Table 6.6, R181). -/
def State.replaysFor (s : State) (e : Retain) : Nat :=
  match s.cmd? e.cmd with
  | none => 3
  | some c =>
    match c.milestone with
    | none => 3
    | some m =>
      if e.rung < 3 then (if s.now + 49200 + 2700 ≤ m then 3 else 0)
      else ((List.range 4).filter fun n => decide (0 < n ∧ s.now + 10000 * n + 19200 + 2700 ≤ m)).length

/-- The replays of a sector begin, or there are none and the next rung follows (06 R179, R180). -/
def State.startReplays (s : State) (a : Nat) (e : Retain) : State :=
  let n := s.replaysFor e
  if n = 0 ∨ (s.samples a e.cmd e.key).isNone then s.nextRung a { e with rung := if e.rung = 1 then 2 else e.rung }
  else
    let s := if e.rung = 1 then s.modCfe a fun c => { c with rung2 := c.rung2 + 1 } else s
    let s := s.modSamples a e.cmd e.key fun x => { x with rung := if x.rung = 1 then 2 else x.rung, replays := 0, replayMax := n }
    let fn := ((s.cmd? e.cmd).map (·.fn)).getD 256
    s.askReplay a { opc := 2, cmd := e.cmd, fn := fn, head := e.head, keys := [e.key], count := 1, grazeOrder := e.order, step := e.step, ref := e.ref }

/-- A sector's ladder stops: it has converged and passed (06 R179), or goes on to another rung. -/
def State.stopAttempts (s : State) (a cmd key : Nat) : State :=
  let own (y : Attempt) : Bool := y.cmd == cmd && y.key == key && y.act == a
  let ids := (s.pool.attempts.filter own).map (·.id)
  let s := { s with engines := s.engines.map fun (r : Nat × Engine) => (r.1, if r.2.job.any ids.contains then { r.2 with job := none, yields := false } else r.2) }
  (s.modPool fun p => { p with attempts := p.attempts.filter (!own ·) }).stopReplays a cmd key

/-- A sector has converged and failed a check: nothing of it is delivered, the attempt counts as failed, and the sector goes to the next rung (06
R174, R179). -/
def State.checkFailed (s : State) (a : Nat) (e : Retain) : State :=
  let s := (s.modPool fun p => { p with miscorr := p.miscorr + 1 }).modCfe a fun c => { c with chkfail := c.chkfail + 1 }
  if 0 < e.replayMax ∨ 2 ≤ e.rung ∧ !e.averaged then (s.stopAttempts a e.cmd e.key).nextRung a { e with rung := max 2 e.rung }
  else s.startReplays a e

/-- The entry an attempt stands for, when its samples are gone. -/
def Attempt.entry (x : Attempt) : Retain :=
  { cmd := x.cmd, key := x.key, head := x.head, rung := x.rung, order := x.order, ref := x.ref, step := x.step }

/-- A sector's attempt has ended without convergence or has failed its checks: its replays go on, begin, or the next rung follows
(06 R179, R180). -/
def State.afterFailure (s : State) (a : Nat) (x : Attempt) : State :=
  let e := (s.samples a x.cmd x.key).getD x.entry
  let others := s.pool.attempts.any fun y => y.cmd == x.cmd && y.key == x.key && y.act == a
  if x.replay then
    if e.replays < e.replayMax ∨ others then s else s.nextRung a e
  else s.startReplays a { e with rung := x.rung }

end Sys2Proof.Machine
end

