-- ==== Sys2Proof/Machine/Channel.lean ====
section
/-! DEFINITION. The read channel and the decoder pool: framing, decode attempts, delivery, retirement (06). -/
namespace Sys2Proof.Machine

open Sys2Proof

/-! ### Framing (06 R163, R164) -/

/-- What framing a sector found. -/
structure Framing where
  /-- a hit was accepted -/
  ok : Bool := false
  /-- from an early SM1 hit -/
  early : Bool := false
  /-- from SM2 alone -/
  sm2 : Bool := false
  /-- another framing exists (R180) -/
  alt : Bool := false
  /-- the codeword's first bit in the frame -/
  first : Int := 0
  /-- that of the alternative framing -/
  altFirst : Int := 0
  /-- early hits rejected -/
  rejected : Nat := 0
  deriving DecidableEq, Repr

/-- Hits of a mark in a window of `w` bits to each side under a threshold, in increasing e (R163). -/
def hitsIn (w : Int) (thr : Nat) (hs : List Hit) : List Hit :=
  sortBy (fun x y => decide (x.e ≤ y.e)) (hs.filter fun h => decide (h.dist ≤ thr ∧ -w ≤ h.e ∧ h.e ≤ w))

/-- Has SM2 a hit within 2 bits of the matching position of an early hit (rule 3)? -/
def matched (thr : Nat) (sm2 : List Hit) (h : Hit) : Bool :=
  sm2.any fun m => decide (m.dist ≤ thr ∧ h.e - 2 ≤ m.e ∧ m.e ≤ h.e + 2)

/-- Rules 1 to 3: the first accepted SM1 hit with the hits behind it, and the early hits rejected before it. -/
def scanSm1 (thr : Nat) (sm2 : List Hit) : List Hit → Nat → Option (Hit × List Hit) × Nat
  | [], n => (none, n)
  | h :: t, n => if decide (0 ≤ h.e) || matched thr sm2 h then (some (h, t), n) else scanSm1 thr sm2 t (n + 1)

/-- Rule 4: of several SM2 hits the one nearest e = 0, the earlier one on a tie. -/
def nearest : List Hit → Option Hit
  | [] => none
  | h :: t => match nearest t with
    | none => some h
    | some x => if x.e.natAbs < h.e.natAbs then some x else some h

/-- The SM2 hits in the order of rule 4: nearest e = 0 first, the earlier one on a tie. -/
def byNearest (hs : List Hit) : List Hit :=
  sortBy (fun x y => decide (x.e.natAbs < y.e.natAbs ∨ x.e.natAbs = y.e.natAbs ∧ x.e ≤ y.e)) hs

/-- The alternative framing of a sector framed from an early SM1 hit, `t` the hits behind it: the next SM1 hit with e ≥ 0, else the SM2 hit of rule 4;
of one framed from SM2 alone, the next SM2 hit (06 R180). -/
def altFraming (early : Bool) (t own : List Hit) : Option Int :=
  if early then match t.find? fun x => decide (0 ≤ x.e) with
    | some h => some (48 + h.e + 128)
    | none => (nearest own).map fun m => 144 + m.e + 32
  else ((byNearest own)[1]?).map fun m => 144 + m.e + 32

/-- Frame a sector in a window of `w` bits to each side under a threshold, by rules 1 to 4 of R164. -/
def frameIn (w : Int) (thr : Nat) (sm1 sm2 : List Hit) : Framing :=
  let (r, n) := scanSm1 thr sm2 (hitsIn w thr sm1) 0
  let own := hitsIn w thr sm2
  match r with
  | some (h, t) =>
    let alt := if h.e < 0 then altFraming true t own else none
    { ok := true, early := decide (h.e < 0), alt := alt.isSome, altFirst := alt.getD 0, first := 48 + h.e + 128, rejected := n }
  | none => match nearest own with
    | some m =>
      let alt := altFraming false [] own
      { ok := true, sm2 := true, alt := alt.isSome, altFirst := alt.getD 0, first := 144 + m.e + 32, rejected := n }
    | none => { rejected := n }

/-- Count one framing pass: early hits rejected, and what the sector was framed from. -/
def State.countFraming (s : State) (a : Nat) (f : Framing) : State :=
  s.modCfe a fun c =>
    { c with false_ := c.false_ + BitVec.ofNat 32 f.rejected, sm1 := if f.ok && !f.sm2 then c.sm1 + 1 else c.sm1,
             sm2only := if f.ok && f.sm2 then c.sm2only + 1 else c.sm2only }

/-- Place of a key in a list. -/
def indexOf? (k : Nat) : List Nat → Option Nat
  | [] => none
  | x :: t => if x = k then some 0 else (indexOf? k t).map (· + 1)

/-- Is sector number `i` of a read detected band-aware: its track the first of the run with the track before read last, or a later track of the run;
a re-read keeps what its sector's first read used (06 R167)? -/
def State.bandAware (s : State) (a : Nat) (q : FmtCmd) (key i : Nat) : Bool :=
  let c := (s.act a).cfe
  decide (2 ^ 20 ≤ q.pos / 65536 ∧ q.pos / 65536 < 2 ^ 21) &&
    if q.opc = 3 then (c.slots ++ c.retained).any fun e => e.cmd == q.cmd && e.key == key && !e.averaged && e.aware || e.isRef && e.key + q.spt == key
    else c.bandFirst || decide (q.spt ≤ q.pos % 65536 % q.spt + i)

/-- The form of the reference of a band-aware sector: 1 decoded, in read staging, converged and past its checks; 2 soft, its detector output in the
retention area; 0 none (06 R168). -/
def State.refForm (s : State) (a : Nat) (q : FmtCmd) (key : Nat) : Nat :=
  let good (r : RSlot) : Bool := secKey r.sec.nsid r.sec.lba + q.spt == key
    && (r.deliveredAt != 0 || r.pins.any fun id => (s.cmd? id).any (·.ready.contains r.sec.lba))
  if s.stage.rslots.any good then 1
  else if (s.act a).cfe.retained.any fun e => e.key + q.spt == key && e.framed then 2 else 0

/-- Device time the last pad sample of a sector arrives, its codeword beginning at bit `first`: the gate of a wedge that falls in it holds it up (05
R144; 06 R157, R158). -/
def State.padTime (s : State) (a : Nat) (first : Int) : Nat :=
  let c := (s.act a).cfe
  let fin := s.now + (37072 - first.toNat) * channelPs (s.act a).cwy.rate.toNat / 8000
  if s.now < c.gateFrom ∧ c.gateFrom < fin then fin + (c.gateTo - c.gateFrom) else fin

/-- The samples that reach the data path: none while the servo gate is open (06 R157). -/
def Cfe.routed (c : Cfe) (now : Nat) (rs : List (BitVec 6)) : List (BitVec 6) := if c.gateFrom ≤ now ∧ now < c.gateTo then [] else rs

/-- The samples of `ps` picoseconds are erased: of the sector under way, which CFG_CFE_ERASE counts once, or of the next sector (06 R156). -/
def State.eraseFor (s : State) (a ps : Nat) : State :=
  let n := ps * 8 / max 1 (channelPs (s.act a).cwy.rate.toNat)
  let open' (e : Retain) : Bool := !e.noticed && decide (s.now < e.padAt)
  s.modCfe a fun c =>
    if c.slots.any open' then
      let at' (e : Retain) : Nat := 37072 - (e.padAt - s.now) * 8000 / max 1 (channelPs (s.act a).cwy.rate.toNat)
      { c with slots := c.slots.map (fun e => if open' e then { e with erased := e.erased ++ [(at' e - n, n)] } else e),
               erase := if c.slots.any fun e => open' e && e.erased.isEmpty then c.erase + 1 else c.erase }
    else { c with eraseNext := c.eraseNext + n }

/-- An upstream frame that fails its check erases its samples (06 R156; 10 R291). -/
def State.eraseSamples (s : State) (a : Nat) : State := s.eraseFor a 75093

/-- SECTOR_FRAMING: the CFE frames a sector of the running read, which takes its slot with its preamble: the command stands for both, some 60 bits apart
(DESIGN CHOICE). A sector neither pass frames is retained and goes to rung 2; in an
averaging rung a failed passage adds nothing, and the last one leaves the average to its replays (06 R156, R159, R164, R168,
R181). -/
def State.frameSector (s : State) (a key : Nat) (q : FmtCmd) (sm1 sm2 : List Hit) (r0 r1 : List (BitVec 6)) : State :=
  let thr := min 8 s.cfg.smThresh.toNat
  let avg := q.opc == 3
  let rung := if avg then (if q.step = 0 then 3 else 4) else 1
  let isRef := q.step == 7 && !avg
  let aware := s.bandAware a q key ((indexOf? key q.keys).getD 0)
  let form := if aware then s.refForm a q key else 0
  let c := (s.act a).cfe
  let s := s.modCfe a fun c =>
    { c with erase := if c.eraseNext = 0 then c.erase else c.erase + 1, eraseNext := 0, band := aware, noref := if aware && form == 0 then c.noref + 1 else c.noref }
  let f := frameIn 12 thr sm1 sm2
  let s := s.countFraming a f
  let g := if f.ok then f else frameIn 24 (thr + 2) sm1 sm2
  let s := if f.ok then s else (s.modCfe a fun c => { c with retry := c.retry + 1 }).countFraming a g
  let e : Retain :=
    { cmd := q.cmd, key := key, head := q.head, rung := rung, order := q.grazeOrder, ref := q.ref, step := q.step, k := q.k,
      kTot := q.kTot, early := g.early, sm2 := g.sm2, alt := g.alt, framed := g.ok, first := if g.ok then g.first else 176, altFirst := g.altFirst,
      averaged := avg, padAt := s.padTime a g.first, r0 := c.routed s.now r0, r1 := c.routed s.now r1,
      erased := if c.eraseNext = 0 then [] else [(0, c.eraseNext)], aware := aware, form := form, isRef := isRef, noticed := isRef }
  if g.ok then (if avg then s.accumulate a e else if isRef then (s.takeSlot a e).retainSlot a e.cmd e.key else s.takeSlot a e)
  else if isRef then s.modCfe a fun c => { c with fail := c.fail + 1 }
  else
    let s := s.modCfe a fun c => { c with fail := c.fail + 1 }
    if avg && decide (q.k < q.kTot) then s
    else if avg then s.startReplays a { e with replayMax := 0 }
    else ((s.takeSlot a e).retainSlot a e.cmd e.key).startReplays a e

/-- SECTOR_FRAMING: the sector is one of the read or averaging routine running on the actuator (06 R164). -/
def execSectorFraming (a : ActId) (key : Nat) (sm1 sm2 : List Hit) (lost : Erasures) (s : State) : Host.Outcome State Fault Refusal :=
  .next <| match (s.act a.val).fmt.running with
  | some r =>
    if (r.req.opc == 1 || r.req.opc == 3) && r.req.keys.contains key then
      (s.modFmt a.val fun f => { f with running := some { r with done := r.done + 1 } }).frameSector a.val key r.req sm1 sm2 lost.r0 lost.r1
    else s
  | none => s

/-- TAP_CLAMP_LIMIT: a tap at its clamp for 256 sectors: every tap of the head returns to its start value, which is a new set in force; the head is
marked for channel calibration (06 R162, 01 R14). -/
def execTapClampLimit (a : ActId) (h : HeadId) (s : State) : Host.Outcome State Fault Refusal :=
  .next <| if (s.head a.val h.val).tapClamp < 256 then s
    else (((s.modHead a.val h.val fun x => { x with tapClamp := 0, taps := [] }).modCfe a.val fun c => { c with tapVer := c.tapVer + 1 }).raise (actEvt a.val 2)).wantChanCal
      a.val h.val

/-! ### Attempts (06 R171 to R178) -/

/-- Class of the work an attempt would run next (06 Table 6.4). The table names no class for rung-4 attempts that run as part of a DC7 command: they
are served as rung-3 decodes (DESIGN CHOICE). -/
def Attempt.cls (x : Attempt) : Nat :=
  if x.cmd = 0 then 4 else if x.replay then 2 else if x.iters < 10 then 1 else if x.rung = 1 then 3 else 2

/-- Lend limit of an attempt: its milestone less 2.7 µs; none for DC7 and grazing. -/
def Attempt.lend (x : Attempt) : Option Nat := x.milestone.map (· - 2700)

/-- Ceiling of an attempt that enters the pool at time `t` (06 R178). -/
def Attempt.ceilingAt (x : Attempt) (t : Nat) : Nat :=
  match x.lend with
  | none => 48
  | some l => if x.replay then min 48 ((l - t) / 400) else min 48 (10 + (l - t - 4000) / 400)

/-- Bin of CFG_DEC_HIST for the iterations an attempt used (06 Table 6.13). -/
def histBin (n : Nat) : Nat :=
  if n ≤ 6 then 0 else if n ≤ 10 then 1 else if n ≤ 16 then 2 else if n ≤ 24 then 3 else if n ≤ 32 then 4 else if n ≤ 40 then 5
  else if n ≤ 47 then 6 else 7

/-- Energy and iterations of decoder work go to the command, or to the device (15 R404, R408). -/
def State.chargeDec (s : State) (cmd iters rounds : Nat) : State :=
  let e := iters * s.tally.eIt + rounds * s.tally.eRd
  if cmd = 0 then s.modAcc devAcc fun x => { x with iter := x.iter + iters, eDec := x.eDec + e }
  else s.modCmd cmd fun c => { c with iters := c.iters + iters, rounds := c.rounds + rounds, eDec := c.eDec + e }

/-- Change an attempt. -/
def State.modAttempt (s : State) (id : Nat) (g : Attempt → Attempt) : State :=
  s.modPool fun p => { p with attempts := p.attempts.map fun x => if x.id = id then g x else x }

/-- Engine `e` stops working on its attempt. -/
def State.freeEngine (s : State) (e : Nat) : State := s.modEng e fun x => { x with job := none, yields := false }

/-- An attempt leaves the pool, counted by the iterations it used (06 R173, Table 6.13; 03 Table 3.6). -/
def State.leavePool (s : State) (x : Attempt) : State :=
  let s := match x.engine with
    | some e => s.freeEngine e
    | none => s
  let s := s.modPool fun p =>
    { p with attempts := p.attempts.filter (·.id != x.id), cw := p.cw + 1,
             hist := if x.iters = 0 then p.hist else Tab.upd (fun _ => 0) p.hist (histBin x.iters) (· + 1) }
  if x.cmd = 0 then s else s.modCmd x.cmd fun c => { c with iter := max c.iter x.iters }

/-- An attempt ends without convergence (06 R173, R179). -/
def State.endAttempt (s : State) (x : Attempt) : State := (s.leavePool x).afterFailure x.act x

/-- Order of waiting attempts: class, then milestone, those without one behind, then arrival (06 R176). -/
def Attempt.before (x y : Attempt) : Bool :=
  if x.cls ≠ y.cls then x.cls < y.cls
  else match x.milestone, y.milestone with
    | some m, some n => if m ≠ n then m < n else x.id ≤ y.id
    | some _, none => true
    | none, some _ => false
    | none, none => x.id ≤ y.id

/-- Is engine `e` in service and without work? -/
def State.idleEngine (s : State) (e : Nat) : Bool := (s.eng e).state == 0 && (s.eng e).job.isNone

/-- Has engine `e` gone 100 ms without its known-answer test (06 R184)? -/
def State.overdue (s : State) (e : Nat) : Bool := decide ((s.eng e).testAt + 100000000 ≤ s.now)

/-- The engine a waiting attempt takes; one overdue for its test is withheld while any other is idle (06 R177, R184). -/
def State.engineFor (s : State) (x : Attempt) : Option Nat :=
  let fit := (List.range 64).filter fun e => s.idleEngine e && x.isl.all (· == e / 4)
  match fit.find? fun e => !(s.overdue e) with
  | some e => some e
  | none => fit.find? fun e => !((List.range 64).any fun g => g != e && s.idleEngine g)

/-- The attempt an engine works on. -/
def State.jobOf (s : State) (e : Nat) : Option Attempt :=
  (s.eng e).job.bind fun j => s.pool.attempts.find? (·.id == j)

/-- Give an attempt an engine; a class 1 wait is measured (06 R177). -/
def State.assign (s : State) (e : Nat) (x : Attempt) : State :=
  let w := s.now - x.arrived
  let first := x.cls == 1 && !x.waited
  let s := s.modEng e fun g => { g with job := some x.id, yields := false, iterAt := max s.now x.arrived }
  let s := s.modAttempt x.id fun y => { y with engine := some e, isl := none, waited := true }
  let s := if first && decide (s.pool.waitmax.toNat < w) then s.modPool fun p => { p with waitmax := BitVec.ofNat 32 w } else s
  if first && decide (4000 < w) then s.raise 0x711 else s

/-- The engine an attempt pre-empts: the lowest class below its own, in it the latest milestone, and on the attempt's island when its
messages lie in a save slot there (06 R177). -/
def State.victim (s : State) (x : Attempt) (taken : List Nat) : Option Nat :=
  let es := (List.range 64).filterMap fun e => (s.jobOf e).map (e, ·)
  let es := es.filter fun r => decide (x.cls < r.2.cls) && !taken.contains r.1 && x.isl.all (· == r.1 / 4)
  (es.foldl (fun m r => match m with
    | none => some r
    | some b => if r.2.before b.2 then some b else some r) (none : Option (Nat × Attempt))).map (·.1)

/-- Serve one waiting attempt: end it past its lend limit, give it an engine, or mark one to yield at its next iteration boundary.
The second part lists engines already yielding to work ahead of it. -/
def serveAttempt (st : State × List Nat) (id : Nat) : State × List Nat :=
  let (s, taken) := st
  match s.pool.attempts.find? (·.id == id) with
  | none => st
  | some x =>
    if x.engine.isSome then st
    else if x.cls != 1 && x.lend.any (decide <| · < s.now + 400) then (s.endAttempt x, taken)
    else match s.engineFor x with
      | some e => (s.assign e x, taken)
      | none =>
        let marked := (List.range 64).find? fun e =>
          (s.eng e).yields && !taken.contains e && x.isl.all (· == e / 4) && (s.jobOf e).any fun y => decide (x.cls < y.cls)
        match marked with
        | some e => (s, e :: taken)
        | none => match s.victim x taken with
          | some e => (s.modEng e fun g => { g with yields := true }, e :: taken)
          | none => st

/-- The pool dispatches its waiting attempts, by class, then milestone (06 R177). -/
def State.dispatchPool (s : State) : State :=
  let ws := sortBy Attempt.before (s.pool.attempts.filter (·.engine.isNone))
  ((ws.map (·.id)).foldl serveAttempt (s, [])).1

/-- An attempt enters the pool at time `t`; a replay whose ceiling is 0 is not started (06 R178). -/
def State.enterPool (s : State) (x : Attempt) (t : Nat) : State :=
  let x := { x with id := s.pool.next, arrived := t, ceiling := x.ceilingAt t }
  let s := s.modPool fun p => { p with next := p.next + 1 }
  if x.replay && x.ceiling == 0 then s.afterFailure x.act x
  else (s.modPool fun p => { p with attempts := p.attempts ++ [x] }).dispatchPool

/-- Key of a head's channel sets: the recording zone of a place and the gait (06 R161). -/
def State.chanKey (s : State) (a pos : Nat) : Nat :=
  4 * recZoneOf (s.act a).med.zones (s.placeOf a (pos / 65536) (pos % 65536)).track + s.gaitNow (bayOf a)

/-- Taps in force of a head for a channel set (06 R162). -/
def HeadSt.tapsAt (x : HeadSt) (k : Nat) : TapSet := x.taps.get (fun k => (x.chan.get (fun _ => {}) k).start) k

/-- The LLRs of a codeword: of both readers jointly, or of the one that yields samples with its own set; from −31 to 31, and 0 for a bit that an erased
sample touches (06 R156, R161, R165, R166, R168). -/
def State.detect (s : State) (a : Nat) (e : Retain) (target : Nat) (first : Int) (round : Nat) : List (BitVec 6) :=
  let h := s.head a e.head
  let k := s.chanKey a (s.whereIs e.key)
  let set := h.chan.get (fun _ => {}) k
  let one := (s.act a).cfe.single.getLsbD e.head
  let taps := h.tapsAt k
  let lost (i : Nat) : Bool := e.erased.any fun r => decide (r.1 ≤ first.toNat + i ∧ first.toNat + i < r.1 + r.2)
  let soft (i : Nat) : Int :=
    if one && h.rd0Bad then (Config.llr [[], e.r1] { taps with eq1 := set.single1.taps } set.single1.target (e.form, first, round) i).toInt
    else if one then (Config.llr [e.r0, []] { taps with eq0 := set.single0.taps } set.single0.target (e.form, first, round) i).toInt
    else (Config.llr [e.r0, e.r1] taps (set.targets.getD target []) (e.form, first, round) i).toInt
  (List.range 36864).map fun i => if lost i then 0 else BitVec.ofInt 6 (max (-31) (min 31 (soft i)))

/-- The attempt of a sector's samples, with the LLRs of a target and a framing. -/
def State.attemptOf (s : State) (a : Nat) (e : Retain) (replay : Bool) (target : Nat) (first : Int) : Attempt :=
  { target := target, first := first, soft := s.detect a e target first 0, act := a, cmd := e.cmd, key := e.key, head := e.head, rung := e.rung, replay := replay, order := e.order, ref := e.ref, step := e.step,
    milestone := (s.cmd? e.cmd).bind (·.milestone) }

/-- DETECTION_NOTICE: 4.0 µs after its last pad sample, a codeword's LLRs will be complete in 0.40 µs; its first attempt, or that of its averaged samples, enters the
pool then (06 R158, R177, Table 6.1). -/
def execDetectionNotice (a : ActId) (cmd key : Nat) (s : State) : Host.Outcome State Fault Refusal :=
  .next <| match s.samples a.val cmd key with
  | none => s
  | some e =>
    if e.noticed || !e.framed || decide (e.k < e.kTot) || (cmd != 0 && (s.cmd? cmd).isNone) then s
    else if s.now < e.padAt + 4000 then s
    else (s.modSamples a.val cmd key fun x => { x with noticed := true }).enterPool (s.attemptOf a.val e false 0 e.first) (max s.now (e.padAt + 4000) + 400)

/-- A sector's ladder stops: it has converged and passed (06 R179). -/
def State.stopLadder (s : State) (x : Attempt) : State :=
  let own (y : Attempt) : Bool := y.cmd == x.cmd && y.key == x.key && y.act == x.act
  let s := s.each (s.pool.attempts.filter own) State.leavePool
  s.stopReplays x.act x.cmd x.key

/-- Each tap kept within its envelope (06 R162). -/
def clampTaps (lo hi v : List Int) : List Int := v.zipIdx.map fun (x, i) => max (lo.getD i x) (min (hi.getD i x) x)

/-- A tap set kept within its envelope. -/
def keepTaps (c : ChanSet) (v : TapSet) : TapSet :=
  { eq0 := clampTaps c.lo.eq0 c.hi.eq0 v.eq0, eq1 := clampTaps c.lo.eq1 c.hi.eq1 v.eq1,
    can0 := clampTaps c.lo.can0 c.hi.can0 v.can0, can1 := clampTaps c.lo.can1 c.hi.can1 v.can1 }

/-- Does a tap stand at an end of its envelope? -/
def atClamp (lo hi v : List Int) : Bool := v.zipIdx.any fun (x, i) => lo[i]? == some x || hi[i]? == some x

/-- Does one of the set? -/
def tapStuck (c : ChanSet) (v : TapSet) : Bool :=
  atClamp c.lo.eq0 c.hi.eq0 v.eq0 || atClamp c.lo.eq1 c.hi.eq1 v.eq1 || atClamp c.lo.can0 c.hi.can0 v.can0
    || atClamp c.lo.can1 c.hi.can1 v.can1

/-- The taps of a head take what least-mean-squares makes of a sector that passed, each within its envelope; the run of sectors with a tap at its clamp
goes on or ends (06 R162). The step of the adaptation is not stated: its result comes with the command. -/
def State.adapt (s : State) (x : Attempt) (v : TapSet) : State :=
  let k := s.chanKey x.act (s.whereIs x.key)
  s.modHead x.act x.head fun h =>
    let c := h.chan.get (fun _ => {}) k
    let t := keepTaps c v
    { h with taps := h.taps.put k t, tapClamp := if tapStuck c t then h.tapClamp + 1 else 0 }

/-- A decoded sector of a command stands in read staging, ready for delivery; an unreadable-sector entry of it goes, and it is queued
for rewrite (06 R174, 12 R344). -/
def State.readySector (s : State) (x : Attempt) : State :=
  match s.cmd? x.cmd with
  | none => s
  | some c =>
    let l := x.key % 2 ^ 48
    let known := (s.act x.act).graze.unread.any fun u => secKey u.nsid u.lba == x.key
    let s := if known then
        (s.modGraze x.act fun g => { g with unread := g.unread.filter fun u => secKey u.nsid u.lba != x.key }).queueRewrite x.act x.key
      else s
    if c.ready.contains l || c.delivered.contains l then s
    else
      let s := if (s.pinned c.id c.nsid l).isSome then s else s.pin c.id ((s.onMedia c.nsid l).getD (zeroSector c.nsid l))
      s.modCmd c.id fun y => { y with ready := y.ready ++ [l] }

/-- The copy R138 selects for a reader of a sector: in staging, for a command of the writes before it, else on the media (05 R138; 03 R81). -/
def State.selected (s : State) (cmd n l : Nat) : Option Sector :=
  match (if cmd = 0 then s.stagedCopy n l else s.stagedFor cmd n l) with
  | some w => some w.sec
  | none => s.onMedia n l

/-- A syndrome of zero ends the attempt as converged; its tag is checked at pool output. A stale sector is not delivered: the read takes the copy that
R138 selects. An internal read checks its CRC too, unless the namespace's key is not loaded (06 R171, R174, R175). -/
def State.converged (s : State) (x : Attempt) (o : DecOut) (taps : TapSet) : State :=
  let s := s.leavePool x
  let n := x.key / 2 ^ 48
  let l := x.key % 2 ^ 48
  let e := (s.samples x.act x.cmd x.key).getD x.entry
  let best := s.selected x.cmd n l
  let crcBad := x.cmd == 0 && (s.key (s.ns n).keyslot).loaded && (s.onMedia n l).any fun y => y.crc != o.crc
  if !(o.resv && tagMatches o.tag n l (s.ns n).keyslot) then s.checkFailed x.act { e with rung := x.rung }
  else if best.any fun y => tagGen o.tag < y.gen then
    let s := s.modCfe x.act fun c => { c with chkfail := c.chkfail + 1 }
    match best with
    | some y =>
      if x.cmd = 0 then (s.stopLadder x).dropSamples x.act x.cmd x.key
      else if (s.onMedia n l) == some y && (s.landedCopy n l).isNone then s.afterFailure x.act x
      else ((s.stopLadder x).pin x.cmd y).readySector x
    | none => s.afterFailure x.act x
  else if crcBad then s.checkFailed x.act { e with rung := x.rung }
  else
    let s := (s.stopLadder x).adapt x taps
    if x.cmd = 0 then (s.dropSamples x.act 0 x.key).grazeGood x else s.readySector x

/-- Detector rounds of an attempt at the end of an iteration: those due after 8, 20 and 32 iterations, one at a time on an island's
round detector, none after 44 and none without samples (06 R172). -/
def State.roundStart (s : State) (x : Attempt) (isl : Nat) : State :=
  let due := x.due + if x.iters = 8 ∨ x.iters = 20 ∨ x.iters = 32 then 1 else 0
  let due := if 44 < x.iters then 0 else due
  let busy := s.pool.attempts.any fun y => y.redAt.isSome && (y.isl == some isl || y.engine.any (· / 4 == isl))
  if 0 < due ∧ !busy ∧ (s.samples x.act x.cmd x.key).isSome then
    (s.modAttempt x.id fun y => { y with due := due - 1, redAt := some (x.iters + 4) }).chargeDec x.cmd 0 1
  else s.modAttempt x.id fun y => { y with due := due }

/-- A pre-empted attempt's messages go to a save slot of its island, or, with all four held, it ends (06 R177). -/
def State.preempt (s : State) (e : Nat) (x : Attempt) : State :=
  let s := (s.freeEngine e).modPool fun p => { p with preempt := p.preempt + 1 }
  if (s.pool.attempts.filter fun y => y.isl == some (e / 4)).length < 4 then
    s.modAttempt x.id fun y => { y with engine := none, isl := some (e / 4) }
  else s.endAttempt x

/-- ITERATION_BOUNDARY: an engine has run one iteration of its attempt. -/
def State.iterate (s : State) (e : Nat) (x : Attempt) (zero : Bool) (o : DecOut) (taps : TapSet) : State :=
  let lent := x.cls != 1
  let s := s.chargeDec x.cmd 1 0
  let s := if lent then s.modPool fun p => { p with lent := p.lent + 1 } else s
  let x := { x with iters := x.iters + 1 }
  let s := s.modAttempt x.id fun _ => x
  let s := s.modEng e fun g => { g with iterAt := s.now }
  if zero then s.converged x o taps
  else
    let s := if x.iters = 10 ∧ !x.replay then s.retainSlot x.act x.cmd x.key else s
    if x.ceiling ≤ x.iters ∨ 48 ≤ x.iters then s.endAttempt x
    else if x.cls != 1 && x.lend.any (decide <| · < s.now + 400) then s.endAttempt x
    else
      let s := s.roundStart x (e / 4)
      if (s.eng e).yields && x.cls != 1 then s.preempt e x else s

/-- The attempt of an engine restarts on another (06 R185). -/
def State.restartJob (s : State) (e : Nat) : State :=
  match s.jobOf e with
  | none => s
  | some x =>
    (s.freeEngine e).modAttempt x.id fun y =>
      { y with engine := none, isl := none, iters := 0, rounds := 0, due := 0, redAt := none, waited := false, arrived := s.now }

/-- An engine leaves the pool: its attempt restarts on another, its island's event latches, and the planning figure and slots are
recomputed (06 R185). -/
def State.retireEngine (s : State) (e st : Nat) : State :=
  let s := (s.restartJob e).modEng e fun g => { g with state := st }
  ((s.raise (0x700 + e / 4)).raise 0x710).dispatchPool

/-- An engine the steward retires leaves the pool at the end of the iteration it was running (06 R187). -/
def State.leaveIsland (s : State) (e : Nat) : State :=
  if (s.eng e).leaving then (s.modEng e fun g => { g with leaving := false }).retireEngine e 2 else s

/-- ITERATION_BOUNDARY: 0.40 µs after its iteration began, engine `e` ends it, tests the syndrome, and the pool dispatches (06 R171,
R173, R177). -/
def execIterationBoundary (e : Fin 64) (zero : Bool) (out : DecOut) (taps : TapSet) (s : State) : Host.Outcome State Fault Refusal :=
  .next <| match s.jobOf e.val with
  | none => s.dispatchPool
  | some x => if s.now < (s.eng e.val).iterAt + 400 then s else ((s.iterate e.val x zero out taps).leaveIsland e.val).dispatchPool

/-- ROUND_REDETECTION_DONE: the LLRs of the round under way enter 4 iterations after its start (06 R172). -/
def execRoundRedetectionDone (e : Fin 64) (s : State) : Host.Outcome State Fault Refusal :=
  .next <| match s.jobOf e.val with
  | some x => match x.redAt with
    | some n =>
      if n ≤ x.iters then
        s.modAttempt x.id fun y =>
          { y with redAt := none, rounds := y.rounds + 1,
                   soft := ((s.samples x.act x.cmd x.key).map fun e => s.detect x.act e x.target x.first (x.rounds + 1)).getD y.soft }
      else s
    | none => s
  | none => s

/-- Target and framing of replay `n` of a sector, from 0: the alternative framing with T0 where there is one, then T1, T2, T3; a sector no mark framed is
framed from the replay's own decisions, `sm1` and `sm2`, in the widened window, or where servo timing expects it (06 R164, R180). -/
def Retain.setting (e : Retain) (thr n : Nat) (sm1 sm2 : List Hit) : Nat × Int :=
  if e.alt && !e.averaged then (if n = 0 then (0, e.altFirst) else (n, e.first))
  else if e.framed then (n + 1, e.first)
  else
    let g := frameIn 24 (thr + 2) sm1 sm2
    (n + 1, if g.ok then g.first else 176)

/-- REPLAY_LLRS_READY: 10.0 µs after its request a replay's fresh LLRs are complete and its attempt enters the pool; the next replay follows without a
gap, and after the last the routine ends (06 R180, R181). -/
def execReplayLlrsReady (rep : Reframing) (s : State) : Host.Outcome State Fault Refusal :=
  let a := rep.act
  .next <| match (s.act a.val).fmt.running with
  | none => s
  | some r =>
    let key := r.req.keys.headD 0
    let fin (s : State) : State := (s.modFmt a.val fun f => { f with running := none }).fillQueue a.val
    if r.req.opc != 2 || decide (s.now < r.startAt + 10000) then s
    else match s.samples a.val r.req.cmd key with
      | none => fin s
      | some e =>
        let n := e.replays + 1
        let s := (s.modSamples a.val r.req.cmd key fun x => { x with replays := n }).chargeDec r.req.cmd 0 1
        let s := if e.replayMax ≤ n then fin s else s.modFmt a.val fun f => { f with running := some { r with startAt := r.startAt + 10000 } }
        let (t, first) := e.setting (min 8 s.cfg.smThresh.toNat) e.replays rep.sm1 rep.sm2
        s.enterPool (s.attemptOf a.val e true t first) (r.startAt + 10000)

/-! ### Delivery (06 R174) -/

/-- SECTOR_DELIVERY: a decoded sector of an admitted read is decrypted, its CRC checked, and it crosses to the host; one that fails
goes to the next rung. For a function that may issue no request it waits; a silent command's passes unsent (03 R85, R86; 04 R121). -/
def execSectorDelivery (id lba : Nat) (crc : BitVec 64) (s : State) : Host.Outcome State Fault Refusal :=
  .next <| match s.cmd? id with
  | none => s
  | some c =>
    let f := s.fn c.fn
    let sends := f.bme && !f.d3
    let a := s.actOf c.nsid lba
    let key := secKey c.nsid lba
    if !((c.op == 1 || c.op == 0x0B) && c.phase == .admitted && c.ready.contains lba) then s
    else if s.pastCutoff c then s.cutOff id
    else if !(sends && decide ((lba - c.slba + 1) * 4096 ≤ c.bufLen)) && !(c.silent && !sends) then s
    else match s.pinned id c.nsid lba with
    | none => s
    | some r => if crc = r.sec.crc then (s.dropSamples a id key).deliver c lba r.sec sends
    else
      let e := (s.samples a id key).getD { cmd := id, key := key, head := (s.placeOf a (s.whereIs key / 65536) (s.whereIs key % 65536)).head }
      (s.modCmd id fun x => { x with ready := x.ready.filter (· != lba) }).checkFailed a e

/-! ### Engines (06 R184 to R187) -/

/-- A self-check failure of an engine retires it (06 R184, R185). -/
def State.failEngine (s : State) (e : Nat) : State :=
  let s := s.modPool fun p => { p with chkFails := satInc8 p.chkFails, chkLast := BitVec.ofNat 6 e }
  (s.modEng e fun g => { g with fails := g.fails + 1 }).retireEngine e 1

/-- DECODER_SELF_TEST: a known-answer test of an idle engine, or a memory check; a failure retires the engine, and one that waits for
its test after its island's reset rejoins by passing (06 R184 to R186). -/
def execDecoderSelfTest (e : Fin 64) (memory pass : Bool) (s : State) : Host.Outcome State Fault Refusal :=
  let g := s.eng e.val
  .next <| if !(g.state == 0 || g.state == 4) || (s.isl (148 + e.val / 4)).reset || (!memory && g.job.isSome) then s
    else if !pass then s.failEngine e.val
    else if memory then s
    else
      let t := s.modEng e.val fun x => { x with state := 0, testAt := s.now }
      (if g.state = 4 then (t.raise (0x700 + e.val / 4)).raise 0x710 else t).dispatchPool

/-- Most decode slots the admitted plans hold at one moment (06 R187). -/
def State.slotsHeld (s : State) : Nat :=
  let all := s.slotSpans 144
  all.foldl (fun m (p, _) => max m ((all.filter fun (l, h) => l ≤ p && p < h).length)) 0

/-- The response of DECODER_CTRL (06 Table 6.7). -/
def State.decoderReply (s : State) (k reason e : Nat) : State :=
  let g := s.eng e
  s.respond k (leBytes 1 reason ++ leBytes 1 (if g.state = 4 then 0 else g.state) ++ leBytes 2 g.fails ++ leBytes 4 0)

/-- Is a DECODER_CTRL request well formed? -/
def decoderFields (p : List Byte) : Bool := reservedZero p [(0, 2)] && decide (byteAt p 1 < 64)

/-- DECODER_RETIRE: the engine finishes its present iteration and leaves the pool; refused when the slots held would exceed the figure for three engines fewer (06 R187). -/
def execDecoderRetire (r : Requester) (s : State) : Host.Outcome State Fault Refusal :=
  .next <| s.serve r 0x0610 (some 1) fun p =>
    let k := mbxOf r
    let e := byteAt p 1 % 64
    if !s.fromSteward r then s.decoderReply k 5 e
    else if !(decoderFields p) then s.decoderReply k 1 e
    else if decodeSlots (s.enginesIn - 2) < s.slotsHeld then s.decoderReply k 2 e
    else if (s.eng e).state = 0 ∧ (s.eng e).job.isSome then (s.modEng e fun g => { g with state := 2, leaving := true }).decoderReply k 0 e
    else if (s.eng e).state = 0 ∨ (s.eng e).state = 4 then (s.retireEngine e 2).decoderReply k 0 e
    else s.decoderReply k 0 e

/-- DECODER_RETEST: 16 known-answer tests start; the response waits for their outcome (06 R187, 15 R389). -/
def execDecoderRetest (r : Requester) (s : State) : Host.Outcome State Fault Refusal :=
  .next <| s.serve r 0x0610 (some 2) fun p =>
    let k := mbxOf r
    let e := byteAt p 1 % 64
    if !s.fromSteward r then s.decoderReply k 5 e
    else if !(decoderFields p) then s.decoderReply k 1 e
    else if 3 ≤ (s.eng e).fails then s.decoderReply k 3 e
    else
      let s := ((s.restartJob e).modEng e fun g => { g with state := 3 }).dispatchPool
      s.modMbx k fun m => { m with owed := some (.deRetest e) }

/-- A retest of an engine has ended: a pass returns it to the pool, a failure leaves it retired (06 R185, R187). -/
def State.endRetest (s : State) (k e : Nat) (pass : Bool) : State :=
  if pass then
    let s := ((s.modEng e fun g => { g with state := 0, testAt := s.now }).raise (0x700 + e / 4)).raise 0x710
    s.dispatchPool.decoderReply k 0 e
  else
    let s := s.modPool fun p => { p with chkFails := satInc8 p.chkFails, chkLast := BitVec.ofNat 6 e }
    (s.modEng e fun g => { g with state := 1, fails := g.fails + 1 }).decoderReply k 4 e

/-- DECODER_STATUS: an engine's state and failures (06 R187). -/
def execDecoderStatus (r : Requester) (s : State) : Host.Outcome State Fault Refusal :=
  .next <| s.serve r 0x0610 (some 3) fun p =>
    let k := mbxOf r
    let e := byteAt p 1 % 64
    if !s.seesAll r then s.decoderReply k 5 e
    else s.decoderReply k (if decoderFields p then 0 else 1) e

end Sys2Proof.Machine
end

