-- ==== Sys2Proof/Machine/Formatter.lean ====
section
/-! DEFINITION. The formatter, write path and energy assist (07). -/
namespace Sys2Proof.Machine

open Sys2Proof

/-! ### Starting a routine (07 R191, R193, R204, R213) -/

/-- Is the opcode one of Table 7.1? -/
def listedOpc (opc : Byte) : Bool := writes opc || opc == 1 || opc == 2 || opc == 3 || opc == 4 || opc == 0x21

/-- The dispatch entry of an opcode in the herd of actuator `a` (07 R191). -/
def State.dispatchEntry (s : State) (a : Nat) (opc : Byte) : DispEnt := (s.herd (herdOf a)).table.get (fun _ => {}) opc.toNat

/-- Is the dispatch entry of a listed opcode valid in the herd of actuator `a`? -/
def State.validOpc (s : State) (a : Nat) (opc : Byte) : Bool := listedOpc opc && !(s.dispatchEntry a opc).invalid

/-- May a write routine start: write-inhibit released, the spindle LOCKED or in a gait transition (09 R258), the head not suspended (a calibration of it apart), and no inhibit of assisted
writes on the bay or head, which writes admitted before it pass (07 R204, R211, R213; 13 R365)? -/
def State.writeMay (s : State) (a : Nat) (q : FmtCmd) : Bool :=
  let x := s.act a
  let sp := (s.bay (bayOf a)).spin
  !x.loop.winh && (sp.state == 5 || (sp.moving && !sp.spinUp)) && (q.opc == 0x13 || q.opc == 0x20 || !x.fmt.wsusp.getLsbD q.head) && !s.inhibited a q.head q.cmd
    && !(q.opc == 0x11 && x.fmt.sqzWait)

/-- The command at the front of the formatter's queue, when its routine may start: the formatter idle and not held, its island out of
reset (07 R191, R193). -/
def State.nextRoutine (s : State) (a : Nat) (opc : Byte) : Option FmtCmd :=
  let f := (s.act a).fmt
  match f.queue with
  | q :: _ =>
    if q.opc == opc && s.validOpc a opc && f.running.isNone && !f.hold && !(s.isl a).reset && (!(writes opc) || s.writeMay a q) then some q
    else none
  | [] => none

/-- Take the front command off the queue. -/
def State.popFmt (s : State) (a : Nat) : State := (s.modFmt a fun f => { f with queue := f.queue.drop 1 }).fillQueue a

/-- Start the routine of the front command at the address the dispatch table gives; one that goes on from a waymark counts as a resume (07 R191, R196). -/
def State.startRoutine (s : State) (a : Nat) (q : FmtCmd) : State :=
  (s.popFmt a).modFmt a fun f =>
    { f with running := some { req := q, startAt := s.now, mark := q.mark, addr := (s.dispatchEntry a q.opc).addr },
             resume := if q.mark.isSome then f.resume + 1 else f.resume }

/-! ### Reads (07 Table 7.1, 06 R167) -/

/-- READ_RUN: a media read starts; it is band-aware when the track before it in the band was the last the head read (06 R167). -/
def execReadRun (a : ActId) (s : State) : Host.Outcome State Fault Refusal :=
  .next <| match s.nextRoutine a.val 1 with
  | none => s
  | some q =>
    let c := (s.act a.val).cfe
    let g := s.gaitNow (bayOf a.val)
    let inBand := decide (2 ^ 20 ≤ q.pos / 65536 ∧ q.pos / 65536 < 2 ^ 21)
    let prev := q.pos % 65536 / q.spt != 0 && c.refTrack == some (q.track - 1) && c.refHead == q.head && c.refGait == g
    (s.startRoutine a.val q).modCfe a.val fun c =>
      { c with band := inBand && prev, bandFirst := inBand && prev, refTrack := some (q.track + (q.count - 1) / q.spt), refHead := q.head, refGait := g }

/-- READ_REPLAY: the replays of a sector start; each gives LLRs 10.0 µs after its request (06 R180). -/
def execReadReplay (a : ActId) (s : State) : Host.Outcome State Fault Refusal :=
  .next <| match s.nextRoutine a.val 2 with
  | none => s
  | some q => s.startRoutine a.val q

/-- READ_AVERAGE: passages of a sector are read and averaged (06 R181, R182). -/
def execReadAverage (a : ActId) (s : State) : Host.Outcome State Fault Refusal :=
  .next <| match s.nextRoutine a.val 3 with
  | none => s
  | some q => (s.startRoutine a.val q).modCfe a.val fun c =>
      { c with band := false, bandFirst := false, refTrack := some q.track, refHead := q.head, refGait := s.gaitNow (bayOf a.val) }

/-! ### Records of the band journal (07 R195, R198, R199) -/

/-- Queue the write of the band journal buffer, once (07 R198). -/
def State.askRecord (s : State) (a : Nat) : State :=
  if ((s.act a).fmt.queue ++ (s.act a).cfe.replayQ).any fun q => q.opc == 0x13 && q.grazeOrder == 4 then s
  else s.askReplay a { opc := 0x13, fn := 256, pos := reservedRegion * 65536, count := 1, grazeOrder := 4 }

/-- A zone FINISH commits: the zone is FULL (05 R131). -/
def State.commitFinish (s : State) (c : Cmd) : State := s.changeZone c.nsid c.slba fun z => { z with com := .full, comWp := 65536 }

/-- A zone RESET commits: the zone is EMPTY, its landing data void and its staged sectors discarded, what was written since apart (05
R131, R140). -/
def State.commitReset (s : State) (c : Cmd) : State :=
  let old (x : Sector) : Bool := x.nsid == c.nsid && x.lba / 65536 == c.slba / 65536 && x.gen.toNat != c.gen.toNat && decide (x.gen.toNat < c.gen.toNat)
  let s := s.changeZone c.nsid c.slba fun z => { z with com := if c.openCond = 1 then .explicitOpen else .empty, comWp := 0 }
  let s := { s with media := s.media.filter fun r => !(r.1 / 2 ^ 48 == c.nsid && r.1 % 2 ^ 48 / 65536 == c.slba / 65536 && old r.2) }
  let gone (w : WSlot) : Bool := w.cmd == 0 && old w.sec
  let s := s.mapCmds fun d =>
    { d with covered := d.covered.filter fun j => !(s.stage.wslots.any fun w => gone w && secKey w.sec.nsid w.sec.lba == j) }
  let s := s.modStage fun x => { x with wslots := x.wslots.filter fun w => !(gone w) }
  let void (l : LSlot) : LSlot := if l.st == .live && old l.sec then { l with st := .void } else l
  let named (h : HdrEnt) : Bool := h.nsid == c.nsid && h.lba / 65536 == c.slba / 65536 && decide (h.gen.toNat < c.gen.toNat)
  s.modMed (s.actOf c.nsid c.slba) fun m => { m with landing := m.landing.map void, landHdr := m.landHdr.filter fun h => !(named h.2) }

/-- The write of a zone action's record ends the command (05 R131). -/
def State.zoneRecord (s : State) (a : Nat) (c : Cmd) : State :=
  let s := if c.act4 = 3 then s.commitFinish c else s.commitReset c
  let s := s.flushJournal a
  let s := s.modCmd c.id fun x => { x with waymark := true, parts := x.parts.map fun p => { p with done := true, fin := s.now }, lastAct := some a }
  s.finish c.id Sts.success 0

/-- The records of a map intent: the sectors with clear bits, by region (07 R199). -/
def State.intentRecs (s : State) (a : Nat) (keys : List Nat) : State :=
  s.each keys fun s k =>
    let (_, r, pos) := (s.ns (k / 2 ^ 48)).locate (k % 2 ^ 48)
    let gen := match s.stagedCopy (k / 2 ^ 48) (k % 2 ^ 48), s.landedCopy (k / 2 ^ 48) (k % 2 ^ 48) with
      | some w, _ => w.sec.gen
      | none, some l => l.sec.gen
      | none, none => (s.ns (k / 2 ^ 48)).nextGen
    s.modFmt a fun f => { f with seq := f.seq + 1, journal := f.journal ++ [{ type := 4, seq := f.seq + 1, unit := r, first := pos, count := 1, gen := gen }] }

/-- WRITE_RECORD: a record is written twice to the reserved media area: a zone action's, a map intent's, the journal buffer, or
another of grazing's (05 R128, 07 R198, R199). -/
def execWriteRecord (a : ActId) (s : State) : Host.Outcome State Fault Refusal :=
  .next <| match s.nextRoutine a.val 0x13 with
  | none => s
  | some q =>
    let s := s.popFmt a.val
    let s := s.modCfe a.val fun c => { c with band := false, refTrack := none }
    if !q.keys.isEmpty then (s.intentRecs a.val q.keys).putRecords a.val [1]
    else match s.cmd? q.cmd with
      | some c => if c.op = 4 then s.zoneRecord a.val c else s
      | none => if q.grazeOrder = 4 then s.flushJournal a.val else s

/-- JOURNAL_WRITE_DUE: a journal buffer unwritten for 10 s is written as grazing (07 R198). -/
def execJournalWriteDue (a : ActId) (s : State) : Host.Outcome State Fault Refusal :=
  let x := s.act a.val
  .next <| if x.fmt.jbuf.isEmpty || decide (s.now < x.fmt.jlast + 10000000000) || x.graze.pending.any (·.order == 4) then s
    else s.modGraze a.val fun g =>
      { g with pending := g.pending ++ [{ order := 4, pos := reservedRegion * 65536, count := 1, isRead := false }] }

/-! ### Write routines and waymarks (07 R195, R196, R199, R201, R205) -/

/-- Start a write routine of an opcode: the gate opens, and the count of committed sectors starts at what the routine has committed (07 R196, R203). -/
def State.startWrite (s : State) (a : Nat) (opc : Byte) : State :=
  match s.nextRoutine a opc with
  | none => s
  | some q =>
    let s := (s.startRoutine a q).openGate a q
    (s.modCfe a fun c => { c with band := false, refTrack := none }).modFmt a fun f => { f with count := BitVec.ofNat 16 q.prior }

/-- WRITE_CONV: a run of a conventional extent starts (07 R199). -/
def execWriteConv (a : ActId) (s : State) : Host.Outcome State Fault Refusal := .next (s.startWrite a.val 0x10)

/-- WRITE_BAND: segments of a shingled band start, behind any squeeze check due (07 R205, R206). -/
def execWriteBand (a : ActId) (s : State) : Host.Outcome State Fault Refusal := .next (s.startWrite a.val 0x11)

/-- WRITE_LANDING: landing-band segments start, with their record header (05 R139). -/
def execWriteLanding (a : ActId) (s : State) : Host.Outcome State Fault Refusal := .next (s.startWrite a.val 0x12)

/-- Landing slots reserved by a command, in order. -/
def State.reservedSlots (s : State) (a id : Nat) : List LSlot :=
  (s.act a).med.landing.filter fun l => l.st == .reserved && l.cmd == id

/-- Where the sectors of a routine go: region and place of each, in order. -/
def State.destinations (s : State) (a : Nat) (q : FmtCmd) (keys : List Nat) : List (Nat × Nat) :=
  if q.opc = 0x12 then
    if q.grazeOrder = 6 then keys.map fun k => let p := s.whereIs k; (p / 65536, p % 65536)
    else (s.reservedSlots a q.cmd).map fun l => (landRegion l.seg, l.idx + 1)
  else keys.map fun k => let (_, r, pos) := (s.ns (k / 2 ^ 48)).locate (k % 2 ^ 48); (r, pos)

/-- Sectors of a list of places that follow the first of them on its track. -/
def runLength (spt : Nat) : List (Nat × Nat) → Nat
  | [] => 0
  | [_] => 1
  | (r, p) :: (r', p') :: t => if r = r' ∧ p' = p + 1 ∧ p' / spt = p / spt then 1 + runLength spt ((r', p') :: t) else 1

/-- The staged copy a routine writes: its own command's, or for a destage the newest committed one that stood there when it began and that
no later write has superseded since (03 R81, 05 R138, 12 R338). -/
def State.sourceOf (s : State) (q : FmtCmd) (key : Nat) : Option WSlot :=
  let mine (w : WSlot) : Bool := secKey w.sec.nsid w.sec.lba == key && decide (w.order < q.stamp) && !w.inBand
  if q.cmd != 0 then s.stage.wslots.find? fun w => mine w && (w.cmd == q.cmd || (w.cmd == 0 && w.src == q.cmd))
  else (s.stagedCopy (key / 2 ^ 48) (key % 2 ^ 48)).filter fun w => mine w && w.cmd == 0

/-- The sector a routine writes for a key: the copy it moves, for a destage from the landing band or a refresh that of the media; a poisoned one is a
placeholder, and none on a conventional extent, whose write gate stays closed for it (07 R201). -/
def State.wordFor (s : State) (q : FmtCmd) (key : Nat) : Option Sector :=
  let n := key / 2 ^ 48
  let l := key % 2 ^ 48
  if q.grazeOrder = 10 then (s.landedCopy n l).map (·.sec)
  else if q.grazeOrder = 3 ∨ q.grazeOrder = 6 ∨ q.grazeOrder = 7 then s.onMedia n l
  else (s.sourceOf q key).bind fun w =>
    if !w.poisoned then some w.sec else if q.opc = 0x10 then none else some { w.sec with bad := true, data := [] }

/-- Generation a sector's record carries (07 Table 7.3). -/
def State.genFor (s : State) (q : FmtCmd) (key : Nat) : Word :=
  match s.sourceOf q key with
  | some w => w.sec.gen
  | none => ((s.onMedia (key / 2 ^ 48) (key % 2 ^ 48)).map (·.gen)).getD 0

/-- The next commit group: at most 16 consecutive sectors of one track and one generation (07 R195, Table 7.3). -/
def State.group (s : State) (a : Nat) (q : FmtCmd) (done : Nat) : List Nat × (Nat × Nat) :=
  let left := q.keys.drop done
  let ds := s.destinations a q left
  let run := left.take (min 16 (runLength q.spt ds))
  (run.takeWhile fun k => s.genFor q k == s.genFor q (run.headD 0), ds.headD (0, 0))

/-- Shifts of write precompensation: each transition of a run of bits comes earlier by 0 to 16 sixty-fourths of a bit, by a table of 8 entries that the two
bits before and the transition's direction select (07 R202). Their order in the index is the model's (DESIGN CHOICE). -/
def shiftsOf (table : List Nat) : Bool → Bool → List Bool → List Nat
  | _, _, [] => []
  | b2, b1, b :: t => (if b = b1 then 0 else min 16 (table.getD (4 * bit b + 2 * bit b2 + bit b1) 0)) :: shiftsOf table b1 b t

/-- The frame of a sector leaves for the writer, precompensated, ahead of its time by the downstream latency; a rewrite uses the trial table in its
turn (05 R144; 07 R201, R202; 12 Table 12.4). -/
def State.sendFrame (s : State) (a : Nat) (q : FmtCmd) (key : Nat) (x : Sector) : State :=
  let h := s.head a q.head
  let k := s.calKey a q.track
  let t := h.precomp.get (fun _ => []) k
  let t := if (q.grazeOrder == 3 || q.grazeOrder == 6 || q.grazeOrder == 7) && h.trial.turn then h.trial.tables.get (fun _ => t) k else t
  s.emit (.written a q.head key x.frame (shiftsOf t false false x.frame) (s.act a).cwy.dlat)

/-- A sector of a host write has reached the media (03 Table 3.5). -/
def State.committedOf (s : State) (id n lba : Nat) : State :=
  match s.cmd? id with
  | none => s
  | some c =>
    let s := s.modCmd id fun x => { x with waymark := true, committed := x.committed + 1 }
    if c.takesData then s.writeCommitted n lba else s

/-- The sources kept of the sectors at one angle of the track before go (07 R205). -/
def State.releaseSource (s : State) (a key : Nat) : State :=
  let s := s.modStage fun x => { x with wslots := x.wslots.filter fun w => !(w.inBand && secKey w.sec.nsid w.sec.lba == key) }
  let free (l : LSlot) : LSlot :=
    if l.inBand && secKey l.sec.nsid l.sec.lba == key then { l with st := .void, inBand := false } else l
  s.modMed a fun m => { m with landing := m.landing.map free }

/-- A sector is committed in its band: its source is kept until the next track passes the same angle, and that of the track before
goes; a full zone keeps none (05 R133, R137; 07 R205). -/
def State.commitBand (s : State) (a spt : Nat) (x : Sector) (src : Nat) : State :=
  let n := x.nsid
  let keepW (w : WSlot) : WSlot := if w.cmd == 0 && w.sec == x then { w with inBand := true } else w
  let keepL (l : LSlot) : LSlot := if l.st == .live && l.sec == x then { l with inBand := true } else l
  let s := (s.mapW keepW).modMed a fun m => { m with landing := m.landing.map keepL }
  let s := (s.commitFinal x src).advanceCom n x.lba
  let s := if spt ≤ x.lba % 65536 then s.releaseSource a (secKey n x.lba - spt) else s
  if (s.zone (zoneKey n x.lba)).com = .full then
    s.each ((List.range (2 * spt)).filter (· ≤ x.lba % 65536)) fun s i => s.releaseSource a (secKey n x.lba - i)
  else s

/-- A sector is committed on the landing band, in the next slot its command reserved (05 R139). -/
def State.commitLanding (s : State) (a id : Nat) (w : WSlot) : State :=
  match s.reservedSlots a id with
  | [] => s
  | t :: _ =>
    let put (l : LSlot) : LSlot :=
      if l.st == .live && !l.inBand && l.sec.nsid == w.sec.nsid && l.sec.lba == w.sec.lba then { l with st := .void } else l
    let s := s.modMed a fun m => { m with landing := m.landing.map put }.fillSlot t.seg t.idx w.sec
    let s := s.mapW fun v => if v.order = w.order then { v with inLand := true } else v
    (s.persisted w.sec w.src).advanceCom w.sec.nsid w.sec.lba

/-- A poisoned information word met by a write routine: a conventional sector keeps its old content, in a band or on the landing band
a placeholder keeps the order; the range enters the Poison List (07 R201). -/
def State.writePoisoned (s : State) (a : Nat) (q : FmtCmd) (w : WSlot) : State :=
  let n := w.sec.nsid
  let l := w.sec.lba
  let bad : WSlot := { w with sec := { w.sec with bad := true, data := [] } }
  let s := if q.opc = 0x10 then s
    else if q.opc = 0x12 then s.commitLanding a q.cmd bad
    else (s.commitFinal bad.sec w.src).advanceCom n l
  let s := if s.poisonNamed n l then s else s.addPoison { kind := 1, area := 10, nsid := n, start := l, count := 1, left := 1 }
  let s := (s.raise (actEvt a 4)).freeSlot w.order
  if w.cmd = 0 then s else s.modCmd w.cmd fun c => { c with waymark := true, unresolved := c.unresolved ++ [l] }

/-- One sector of a commit group takes its place, and the generation of its record. -/
def State.commitKey (s : State) (a : Nat) (q : FmtCmd) (key : Nat) : State :=
  let n := key / 2 ^ 48
  let l := key % 2 ^ 48
  if q.grazeOrder = 3 ∨ q.grazeOrder = 6 ∨ q.grazeOrder = 7 then s
  else if q.grazeOrder = 10 then
    match s.landedCopy n l with
    | some y => if (s.ns n).zoned then s.commitBand a q.spt y.sec 0 else s.commitFinal y.sec 0
    | none => s
  else match s.sourceOf q key with
    | none => s
    | some w =>
      if w.poisoned then s.writePoisoned a q w
      else if q.opc = 0x12 then (s.commitLanding a q.cmd w).committedOf w.cmd n l
      else if (s.ns n).zoned then
        let own := w.cmd
        let s := s.mapW fun v => if v.order = w.order then { v with cmd := 0 } else v
        (s.commitBand a q.spt w.sec w.src).committedOf own n l
      else ((s.commitFinal w.sec w.src).freeSlot w.order).committedOf w.cmd n l

/-- The 32 bytes of a record of actuator `a`, its CRC-32C over the first 28 (07 Table 7.3). -/
def WayRec.bytes (a : Nat) (r : WayRec) : List Byte :=
  let b := leBytes 1 r.type.toNat ++ leBytes 1 a ++ leBytes 2 0 ++ leBytes 4 r.seq.toNat ++ leBytes 4 r.unit ++ leBytes 4 r.first ++ leBytes 2 r.count
    ++ leBytes 2 0 ++ leBytes 4 r.gen.toNat ++ leBytes 4 0
  b ++ leBytes 4 (crc32c b).toNat

/-- The band journal of an actuator as the reserved media area holds it: its waymark and intent records (07 Table 7.3). -/
def State.journalBytes (s : State) (a : Nat) : List Byte := (s.act a).fmt.journal.flatMap (WayRec.bytes a)

/-- TYPE of a waymark record by opcode (07 Table 7.3). -/
def wayType (opc : Byte) : BitVec 4 := if opc = 0x11 then 1 else if opc = 0x10 then 2 else 3

/-- UNIT of a waymark record: zone of the actuator, extent or landing segment. -/
def wayUnit (r : Nat) : Nat := if 2 ^ 21 ≤ r then r - 2 ^ 21 else if 2 ^ 20 ≤ r then r - 2 ^ 20 else r

/-- A write routine ends: gate closed, assist off (07 R208). -/
def State.endWrite (s : State) (a : Nat) : State := (s.closeGate a .off).modFmt a fun f => { f with running := none }

/-- A routine's command after its routine ended: the part is done, and with every sector committed or lost the write completes. -/
def State.afterWrite (s : State) (a id : Nat) : State :=
  match s.cmd? id with
  | none => s
  | some c =>
    let more := (s.act a).adm.queue.any fun o => o.cmd == id && o.kind == .media
    let c := if more then c
      else { c with parts := c.parts.map fun p => if p.act = a then { p with done := true, fin := s.now } else p, lastAct := some a }
    let s := s.modCmd id fun _ => c
    if c.takesData && c.dur && decide (c.len ≤ c.committed + c.unresolved.length) then s.writeDone c else s

/-- A routine `r` is abandoned at its waymark: the running operation is what was done. The rest of a command's stands at the head of the plan, and a
routine of the device's own waits to restart (07 R194, R197). -/
def State.splitRunning (s : State) (a : Nat) (r : Routine) : State :=
  let s := s.modFmt a fun f => { f with abandon := f.abandon + 1 }
  if r.req.cmd = 0 then s.cutQuantum a r
  else s.modAdm a fun x =>
    match x.running with
    | none => x
    | some o => { x with running := some { o with count := r.done, keys := o.keys.take r.done }, queue := s.leftOf a r o :: x.queue }

/-- Is every clear bit of a group named by a map intent in the journal (07 R199)? -/
def State.intentsWritten (s : State) (a : Nat) (q : FmtCmd) (keys : List Nat) : Bool :=
  q.opc != 0x10 || (s.clearBits keys).all fun k =>
    let (_, r, pos) := (s.ns (k / 2 ^ 48)).locate (k % 2 ^ 48)
    (s.act a).fmt.journal.any fun j => j.type == 4 && j.unit == r && decide (j.first ≤ pos ∧ pos < j.first + j.count)

/-- A group of a routine passes its waymark: it is committed, and its record is in the journal buffer (07 R195, R198). -/
def State.passWaymark (s : State) (a : Nat) (r : Routine) (keys : List Nat) (at' : Nat × Nat) : State :=
  let q := r.req
  let n := keys.length
  let s := if r.done == 0 || at'.2 % q.spt == 0 then s.worn a (s.atiGroups a at'.1 at'.2) else s
  let gen := s.genFor q (keys.headD 0)
  let s := s.each keys fun s k => match s.wordFor q k with
    | some x => s.sendFrame a q k x
    | none => s
  let s := s.each keys fun s k => s.commitKey a q k
  let s := s.modFmt a fun f =>
    { f with seq := f.seq + 1, count := f.count + BitVec.ofNat 16 n,
             jbuf := f.jbuf ++ [{ type := wayType q.opc, seq := f.seq + 1, unit := wayUnit at'.1, first := at'.2, count := n, gen := gen }],
             running := some { r with done := r.done + n, mark := some (f.seq + 1).toNat } }
  if 64 ≤ (s.act a).fmt.jbuf.length then s.askRecord a else s

/-- WAYMARK_PASSED: the next commit group of the running write routine is written, acknowledged and journalled; the routine ends after
its last group, or is abandoned at this waymark when it is to end. A routine whose command is gone ends without committing (04 R122, 07 R194, R195,
R196). -/
def execWaymarkPassed (a : ActId) (s : State) : Host.Outcome State Fault Refusal :=
  .next <| match (s.act a.val).fmt.running with
  | none => s
  | some r =>
    let q := r.req
    let s := s.cutOff q.cmd
    if !(q.opc == 0x10 || q.opc == 0x11 || q.opc == 0x12) then s
    else if q.cmd != 0 && (s.cmd? q.cmd).isNone then (s.endWrite a.val).modFmt a.val fun f => { f with abandon := f.abandon + 1 }
    else
      let (keys, at') := s.group a.val q r.done
      if !(s.intentsWritten a.val q keys) then s
      else
        let s := if keys.isEmpty then s else s.passWaymark a.val r keys at'
        let r := ((s.act a.val).fmt.running).getD r
        if q.keys.length ≤ r.done ∨ keys.isEmpty then (s.endWrite a.val).afterWrite a.val q.cmd
        else if r.endAt then (s.endWrite a.val).splitRunning a.val r
        else s

/-! ### Abandonment, restart, squeeze (07 R194 to R197, R206, R207) -/

/-- The reset of a channel island abandons whatever routine runs (07 Table 7.2). -/
def State.abandonAll (s : State) (a : Nat) : State :=
  match (s.act a).fmt.running with
  | none => s
  | some r =>
    if writes r.req.opc then s.abandonWrite a none false
    else s.modFmt a fun f => { f with running := none, waiting := if f.waiting.isNone then some r else f.waiting, abandon := f.abandon + 1 }

/-- The plan operation of a device's own routine that restarts as a new quantum: what is left of it, at the next passage of its first sector (07 R197). -/
def State.quantumOf (s : State) (a : Nat) (r : Routine) : PlanOp :=
  let q := r.req
  let p := s.placeOf a (q.pos / 65536) (q.pos % 65536)
  { kind := if q.fn = 257 then .destage else .grazing, fn := q.fn, dc := 7, arrival := s.now, track := q.track, head := q.head, angle := p.angle,
    spt := q.spt, pos := q.pos, count := q.count, read := !(writes q.opc), slot := false, keys := q.keys, order := q.grazeOrder, gkind := q.gkind,
    ref := q.ref, step := q.step, k := q.k, kTot := q.kTot, again := q.opc == 3, mark := q.mark, prior := q.prior }

/-- May a waiting routine restart: idle, not held, out of reset, and for a write all that starting one needs (07 R197, R204, R206)? -/
def State.mayRestart (s : State) (a : Nat) (r : Routine) : Bool :=
  let f := (s.act a).fmt
  f.running.isNone && !f.hold && !(s.isl a).reset && (!(writes r.req.opc) || s.writeMay a r.req)

/-- Run a waiting routine again, from its last waymark or its beginning; a resume is counted (07 R196). -/
def State.resumeRoutine (s : State) (a : Nat) (r : Routine) : State :=
  let s := s.modFmt a fun f =>
    { f with waiting := none, running := some { r with startAt := s.now }, resume := if r.mark.isSome then f.resume + 1 else f.resume }
  if writes r.req.opc then s.openGate a r.req else s

/-- ROUTINE_RESTART: at the next passage of its first sector a waiting routine restarts or resumes: a command's in its own plan
position, one of the device's own as a new quantum when that is slack-safe (02 R52, 07 R197). -/
def execRoutineRestart (a : ActId) (s : State) : Host.Outcome State Fault Refusal :=
  .next <| match (s.act a.val).fmt.waiting with
  | none => s
  | some r =>
    if !(s.mayRestart a.val r) then s
    else if r.req.cmd ≠ 0 then s.resumeRoutine a.val r
    else
      let o := s.quantumOf a.val r
      let x := (s.act a.val).adm
      if x.running.isSome then s
      else
        let trial := s.project a.val (o :: x.queue)
        match trial with
        | t :: _ =>
          if slackSafe (s.urgent a.val) (s.plan a.val) (trial.filter fun y => y.cmd != 0 && y.dc != 7) then
            (s.beginOp a.val t x.queue).resumeRoutine a.val r
          else s
        | [] => s

/-- Commit groups of `n` places from `p` on: at most 16 sectors of one track and one generation each (07 R195, Table 7.3). -/
def packGroups (gen : Nat → Word) (spt : Nat) : Nat → Nat → List (Nat × Nat)
  | 0, _ => []
  | n + 1, p => match packGroups gen spt n (p + 1) with
    | (q, c) :: t => if gen q = gen p ∧ q % spt ≠ 0 ∧ c < 16 then (p, c + 1) :: t else (p, 1) :: (q, c) :: t
    | [] => [(p, 1)]

/-- A squeeze recovery: the band's track before is rewritten from the first failing sector to its end and the track under way from the
same angle up to its committed sector, from the source copies kept; the rewritten groups pass new waymarks with the original generations (07 R205,
R207). -/
def State.squeezeRewrite (s : State) (a : Nat) (q : FmtCmd) (x : Nat) : State :=
  let r := q.pos / 65536
  let k := q.keys.headD 0 / 65536 * 65536
  let com := s.bandWp (k / 2 ^ 48) (k % 2 ^ 48)
  let start := (x / q.spt + 1) * q.spt
  let sec (p : Nat) : Option Sector := s.media.find (k + p)
  let gen (p : Nat) : Word := ((sec p).map (·.gen)).getD 0
  let recs := [(x, min start com), (x + q.spt, com)].flatMap fun (lo, hi) => packGroups gen q.spt (hi - lo) lo
  let pass (s : State) (g : Nat × Nat) : State :=
    let s := if g.1 = x ∨ g.1 = x + q.spt then s.worn a (s.atiGroups a r g.1) else s
    let s := s.each ((List.range g.2).map (g.1 + ·)) fun s p => match sec p with
      | some y => s.sendFrame a q (k + p) y
      | none => s
    s.modFmt a fun f =>
      { f with seq := f.seq + 1, jbuf := f.jbuf ++ [{ type := 1, seq := f.seq + 1, unit := wayUnit r, first := g.1, count := g.2, gen := gen g.1 }] }
  let s := s.each recs pass
  let s := (s.modFmt a fun f => { f with sqzRewrite := f.sqzRewrite + 1 }).raise (actEvt a 4)
  if 64 ≤ (s.act a).fmt.jbuf.length then s.askRecord a else s

/-- SQUEEZE_CHECK: the sectors of the track before that overlap the abandoned span are read within rung 1, once the head may write again; a failing one
rewrites the band from its sources, which the model does at once (07 R206, R207, R213). `failed` is the place in the band of the first failing sector. -/
def execSqueezeCheck (a : ActId) (failed : Option (Fin 65536)) (s : State) : Host.Outcome State Fault Refusal :=
  .next <| match s.nextRoutine a.val 4 with
  | none => s
  | some q =>
    if (s.act a.val).fmt.wsusp.getLsbD q.head then s
    else
      let band := (s.act a.val).fmt.sqzBand
      let s := (s.popFmt a.val).modFmt a.val fun f =>
        { f with sqzCheck := f.sqzCheck + 1, sqz := false, sqzWait := false, sqzReq := none, sqzBand := none }
      match failed.filter fun x => q.keys.any fun k => k % 65536 == x.val, band with
      | some x, some b => s.squeezeRewrite a.val b x.val
      | _, _ => s

/-- ROM_FAULT_ROUTINE: an invalid dispatch entry or an unlisted opcode ends at once, counted as an abandonment; its issuer's operation
has failed, and a command it served completes as one that no rung serves (07 R191). -/
def execRomFaultRoutine (a : ActId) (s : State) : Host.Outcome State Fault Refusal :=
  let f := (s.act a.val).fmt
  .next <| match f.queue with
  | [] => s
  | q :: _ =>
    if s.validOpc a.val q.opc || f.running.isSome || f.hold || (s.isl a.val).reset then s
    else
      let s := (s.popFmt a.val).modFmt a.val fun f => { f with abandon := f.abandon + 1 }
      let s := s.modAdm a.val fun x =>
        { x with running := x.running.filter fun o => !(o.cmd == q.cmd && o.pos == q.pos && BitVec.ofNat 8 o.opcode == q.opc) }
      match s.cmd? q.cmd with
      | none => s
      | some c => s.finish c.id (if c.dc = 7 then Sts.unrecovered else Sts.unrecoveredInDeadline) 0

/-! ### Energy assist (07 R208 to R215) -/

/-- One sixteenth rounded to the nearest code; which way a tie goes is not stated (07 R209). -/
def State.roundGain (s : State) (v : Int) : Int × State :=
  let q := v / 16
  let r := v % 16
  if r < 8 then (q, s) else if 8 < r then (q + 1, s) else (if s.free.getLsbD 0 then q + 1 else q, s.useFree)

/-- `v` kept between two bounds. -/
def clampInt (lo hi v : Int) : Int := if v < lo then lo else if hi < v then hi else v

/-- Is a feedback sample a fault of R210: frozen, lost or out of range, or out of reach? -/
def HeadSt.fbFault (h : HeadSt) (sample : Nat) : Bool :=
  (decide (16 ≤ h.eqRun) && decide (h.eqCode + 2 ≤ h.code ∨ h.code + 2 ≤ h.eqCode)) || decide (sample < h.fbLo ∨ h.fbHi < sample)
    || sample == 0 || sample == 1023 || decide (64 ≤ h.stuck)

/-- Queue the assist calibration of a head ahead of all other grazing (07 R211). -/
def State.queueAssistCal (s : State) (a h : Nat) : State :=
  if (s.act a).graze.pending.any fun g => g.order == 1 && g.head == h then s
  else s.modGraze a fun g => { g with pending := g.pending ++ [{ order := 1, kind := 3, head := h, count := 1, isRead := false }] }

/-- Set or clear a head's bit. -/
def headBit (w : BitVec 16) (h : Nat) (on : Bool) : BitVec 16 :=
  if on then w ||| BitVec.ofNat 16 (2 ^ h) else w &&& ~~~(BitVec.ofNat 16 (2 ^ h))

/-- A head cannot write: admitted writes that need it complete (02 R51, 07 R211). -/
def State.headLost (s : State) (a h : Nat) : State :=
  let x := (s.act a).adm
  let s := s.replan a
  s.finishAll (((x.running.toList ++ x.queue).filter fun o => o.promised && !o.read && o.kind == .media && o.head == h).map (·.cmd))
    Sts.unrecoveredInDeadline

/-- A head is suspended after a feedback fault: its code held, its calibration queued, and what needs it to write planned anew (07 R211). -/
def State.suspendHead (s : State) (a h : Nat) : State :=
  let s := s.modHead a h fun x => { x with code := x.lastGood, eqRun := 0, stuck := 0 }
  let s := s.modFmt a fun f =>
    { f with calPend := headBit f.calPend h true, wsusp := headBit f.wsusp h true, heldCode := headBit f.heldCode h true,
             fbFault := f.fbFault + 1 }
  ((s.raise (actEvt a 3)).queueAssistCal a h).headLost a h

/-- A feedback fault on a head: the routine ends at the sector boundary, the head is suspended, and a bulk write that runs there goes back to its plan (07
R211). -/
def State.feedbackFault (s : State) (a h : Nat) : State :=
  let s := (s.abandonWrite a none false).suspendHead a h
  if (s.act a).adm.running.any fun o => o.cmd != 0 && !o.read && o.head == h then s.putBack a else s

/-- The assist loop's update from one sample (07 R209, R210). -/
def State.assistLoop (s : State) (a h sample : Nat) : State :=
  let x := s.head a h
  let gain := within 1 32 8 s.cfg.asstGain.toNat
  let step : Int := within 1 32 4 s.cfg.asstStep.toNat
  let err : Int := (x.target : Int) - sample
  let (d, s) := s.roundGain (err * gain)
  let code := (clampInt x.codeMin x.codeMax ((x.code : Int) + clampInt (-step) step d)).toNat
  let same := decide (0 < x.eqRun) && x.lastSample == sample
  let pushing := (x.code == x.codeMin && decide (err < 0)) || (x.code == x.codeMax && decide (0 < err))
  let y := { x with eqRun := if same then x.eqRun + 1 else 1, eqCode := if same then x.eqCode else x.code, lastSample := sample,
                    stuck := if pushing then x.stuck + 1 else 0 }
  let s := s.modHead a h fun _ => y
  if y.fbFault sample then s.feedbackFault a h
  else
    let s := s.modHead a h fun z => { z with code := code, lastGood := code }
    if code = x.code ∨ !(s.act a).fmt.gate then s else s.sendAssist a h .write

/-- Write-level time and energy of one sector: to the head, the domain, and the command or the device (07 R213 to R215). -/
def State.assistUse (s : State) (a : Nat) (q : FmtCmd) (t energy : Nat) : State :=
  let s := s.modHead a q.head fun x => { x with writeNs := x.writeNs + t }
  let s := s.modFmt a fun f => { f with level := f.level + t, running := f.running.map fun r => { r with lvl := r.lvl + t, leads := 0 } }
  s.payAssist a q energy

/-- A head's write-level time reaches 90 % or 100 % of its wear budget (07 R215). -/
def State.wearCheck (s : State) (a h : Nat) : State :=
  let x := s.head a h
  let n := if x.wear = 0 then 0 else if x.wear ≤ x.writeNs then 2 else if x.wear * 9 ≤ x.writeNs * 10 then 1 else 0
  if x.wearStep < n then (s.modHead a h fun y => { y with wearStep := n }).raise (actEvt a 3) else s

/-- ASSIST_FEEDBACK: a sector is written at write level; its feedback sample sets the drive code of the next, and its energy is accounted, with the drive
current in µA and for an STO the oscillator resistance in mΩ that the front-end measures (07 R209 to R211, R214). The sample of a sector that a
write-inhibit cut short is still judged (07 R213). -/
def execAssistFeedback (a : ActId) (sample : BitVec 10) (meas : DriveMeas) (s : State) : Host.Outcome State Fault Refusal :=
  let f := (s.act a.val).fmt
  .next <| match f.running, f.stopped with
  | some r, _ =>
    if !(writes r.req.opc) || !f.gate then s
    else
      let h := r.req.head
      let s := s.modHead a.val h fun x => { x with rosc := meas.rosc }
      let t := s.frameNs a.val r.req.spt + r.leads * s.asstLead
      let e := (s.head a.val h).drivePj (s.bay (bayOf a.val)).link.sto meas.ua t
      ((s.assistUse a.val r.req t e).wearCheck a.val h).assistLoop a.val h sample.toNat
  | none, some r =>
    if r.winhCause.isNone ∨ f.stopAt + s.frameNs a.val r.req.spt < s.now then s else s.assistLoop a.val r.req.head sample.toNat
  | none, none => s

/-- DUTY_WINDOW_END: each 100 ms the write-level time of every power domain is reported to admission (07 R213). -/
def execDutyWindowEnd (s : State) : Host.Outcome State Fault Refusal :=
  .next <| if s.now < s.pwr.dutyAt + 100000000 then s
    else
      let s := s.each (List.range 4) fun s d =>
        let ns := ((List.range 36).map fun i => (s.act (36 * d + i)).fmt.level).sum
        s.modDom d fun x => { x with dutyNs := ns, assistPj := 0 }
      let s := s.each ((List.range 144).filter fun a => (s.act a).fmt.level != 0) fun s a => s.modFmt a fun f => { f with level := 0 }
      { s with pwr := { s.pwr with dutyAt := s.now } }

/-- May a requester see actuator `a`: the steward and the sideband every one, another PF those with namespaces attached to it (07
R215)? -/
def State.seesAct (s : State) (r : Requester) (a : Nat) : Bool :=
  s.seesAll r || match r with
    | .fn f => s.namespaces.any fun n => n.2.attached.contains f.val && n.2.actset.contains a
    | .sideband => true

/-- STATE of ASSIST_STATUS: 3 calibration failed, 2 running, 1 suspended, 0 normal (07 Table 7.6). -/
def State.assistState (s : State) (a h : Nat) : Nat :=
  let x := s.head a h
  if x.final then 3 else if (s.act a).adm.running.any fun o => o.gkind == 3 && o.head == h then 2 else if (s.act a).fmt.wsusp.getLsbD h then 1 else 0

/-- ASSIST_STATUS: a head's assist state, wear and energy (07 R215, Table 7.6). -/
def execAssistStatus (r : Requester) (s : State) : Host.Outcome State Fault Refusal :=
  .next <| s.serve r 0x0710 none fun p =>
    let k := mbxOf r
    let a := byteAt p 0
    let h := byteAt p 1
    let x := s.head a h
    if !(reservedZero p [(0, 2)]) || decide (143 < a) || decide (15 < h) || !x.present then s.respond k (reasonOnly 1 31)
    else if !(s.seesAct r a) then s.respond k (reasonOnly 2 31)
    else
      let wear := if x.wear = 0 then 0 else min 255 (x.writeNs * 100 / x.wear)
      s.respond k (leBytes 1 0 ++ leBytes 1 (bit (s.bay (bayOf a)).link.sto) ++ leBytes 1 (s.assistState a h) ++ leBytes 1 wear
        ++ leBytes 8 x.writeNs ++ leBytes 8 x.idleNs ++ leBytes 8 (x.energy / 1000000) ++ leBytes 2 x.code ++ leBytes 2 0)

end Sys2Proof.Machine
end

