-- ==== Sys2Proof/Machine/LoopOps.lean ====
section
/-! DEFINITION. What loops and engines do for each other: traces, write-inhibit, retracts, migration, limp, parking, loading and a bay's
failed bring-up (08, 10 R301, 16 R421). -/
namespace Sys2Proof.Machine

open Sys2Proof

/-- Actuator `a`'s loop. -/
def State.loop (s : State) (a : Nat) : Loop := (s.act a).loop

/-! ### Traces (08 R251) -/

/-- Does the trigger of a trace name this loop? -/
def Trc.names (t : Trc) (spin : Bool) (i : Nat) : Bool := t.ctrl.getLsbD 29 == spin && bits t.ctrl.toNat 16 8 == i

/-- A trace is triggered, once: it runs on for 16,384 less 16 times PRE runs of the trigger loop (08 R251). -/
def Trc.trigger (t : Trc) (time : Nat) : Trc :=
  if t.armed && t.left.isNone then
    { t with left := some (16384 - 16 * bits t.ctrl.toNat 0 10), trigAt := some t.runs, time := BitVec.ofNat 64 time }
  else t

/-- A trigger condition is met on a loop; the trigger record reached the engine at `time` (08 Table 8.18). -/
def State.trip (s : State) (spin : Bool) (i cond time : Nat) : State :=
  s.each (List.range 32) fun s n =>
    let t := s.trc n
    if t.armed && t.names spin i && bits t.ctrl.toNat 24 5 == cond then s.modTrc n fun t => t.trigger time else s

/-- A trigger condition on an actuator loop. -/
def State.tripAct (s : State) (a cond : Nat) : State := s.trip false a cond (s.loop a).recAt

/-- One channel of a trace takes a sample. -/
def Trc.take (t : Trc) (c : Nat) (v : Word) : Trc :=
  let p := t.pos.get (fun _ => 0) c
  { t with data := t.data.put (c * 16384 + p % 16384) v, pos := t.pos.put c (p + 1) }

/-- Channels of an engine's trace that sample a loop: channel, node, element. -/
def Trc.channels (t : Trc) (spin : Bool) (i : Nat) : List (Nat × Nat × Nat) :=
  (List.range 32).filterMap fun c =>
    let w := (t.src.get (fun _ => 0) c).toNat
    if bits w 31 1 = 1 ∧ bits w 30 1 = bit spin ∧ bits w 16 8 = i then some (c, bits w 8 8, bits w 0 8) else none

/-- A loop's run on engine `e` is sampled: `val` gives a node's value, the channel telling free values apart (08 R251, 09 R282). -/
def State.sampleTrc (s : State) (e : Nat) (spin : Bool) (i : Nat) (val : Nat → Nat → Nat → Word) : State :=
  let t := s.trc e
  if !t.armed then s
  else
    let s := s.setTrc e ((t.channels spin i).foldl (fun t (c, node, idx) => t.take c (val c node idx)) t)
    { s with fresh := s.fresh + 32 }

/-- The capture of a trace stops: DONE, and the trigger's place among the samples kept (08 R251, Table 8.19). -/
def Trc.stop (t : Trc) : Trc :=
  let at' := t.trigAt.getD 0
  { t with armed := false, done := true, left := none, trigIdx := BitVec.ofNat 14 (if t.runs ≤ 16384 then at' else at' - (t.runs - 16384)) }

/-- A trigger loop has run once more (08 R251). -/
def Trc.count (t : Trc) : Trc :=
  let t := { t with runs := t.runs + 1 }
  match t.left with
  | some n => if n ≤ 1 then t.stop else { t with left := some (n - 1) }
  | none => t

/-- Every trace that a loop triggers counts its run. -/
def State.countTrc (s : State) (spin : Bool) (i : Nat) : State :=
  s.each (List.range 32) fun s n => if (s.trc n).armed && (s.trc n).names spin i then s.modTrc n Trc.count else s

/-! ### Write-inhibit (08 R234, R235) -/

/-- The engine raises write-inhibit by a cause: 0 off-track, 1 missing or invalid, 2 overrun or limp, 3 retract. The raise is counted, the
one held through limp once; the write routine is abandoned (08 R234; 07 R194). -/
def State.raiseInhibit (s : State) (a cause : Nat) (toward : Bool) : State :=
  let l := s.loop a
  let held := l.limp && l.winh && cause != 3
  let s := s.modLoop a fun l => { l with winh := true, winhTime := s.now, winhOk := 0 }
  let s := if held then s else s.modFmt a fun f =>
    { f with inh0 := if cause = 0 then f.inh0 + 1 else f.inh0, inh1 := if cause = 1 then f.inh1 + 1 else f.inh1,
             inh2 := if cause = 2 then f.inh2 + 1 else f.inh2, inh3 := if cause = 3 then f.inh3 + 1 else f.inh3 }
  (s.tripAct a 2).abandonWrite a (some cause) toward

/-! ### Controlled retracts (08 R238) -/

/-- Device time by which a retracted actuator is back in FOLLOW, as far as the spec gives its recovery: after a lost or frozen position 100 ms to
the park, 1 s to the reload and 1.5 s for the load, but for the third within 10 minutes, which waits for the steward; for any other cause
none (DEDUCED from 08 R238, R239 and 09 Table 9.6) (02 R51). -/
def State.backBy (s : State) (a cause : Nat) : Option Nat :=
  let recent := (s.loop a).reloads.filter fun t => decide (s.now < t + 600000000000)
  if (cause = 1 ∨ cause = 2) ∧ recent.length < 2 then some (s.now + 2600000000) else none

/-- A controlled retract is asked of a loop: its actuator goes out of service, and the loop's next run begins it. A loop PARKED or in
RETRACT needs none (08 R238; 02 R51). -/
def State.retract (s : State) (a cause : Nat) : State :=
  let l := s.loop a
  if l.mode = 0 ∨ l.mode = 5 then s
  else
    let s := s.modLoop a fun l => { l with retractReq := some (l.retractReq.getD (BitVec.ofNat 3 cause)) }
    (s.serviceLost a (s.backBy a cause)).tripAct a 4

/-- A retract that precedes a spindle action which leaves admitted work untouched, a Standby entry or a lowering to Stand: the actuators
have none (09 R263, R275). -/
def State.retractIdle (s : State) (a : Nat) : State :=
  let l := s.loop a
  if l.mode = 0 ∨ l.mode = 5 then s
  else (s.modLoop a fun l => { l with retractReq := some (l.retractReq.getD 3) }).tripAct a 4

/-- The loop enters RETRACT: write-inhibit rises, any seek ends, and a pending migration is cancelled (08 R234, R238, R241). -/
def State.enterRetract (s : State) (a : Nat) (cause : BitVec 3) : State :=
  let s := s.raiseInhibit a 3 false
  (s.modLoop a fun l =>
    { l with mode := 5, pendCause := cause, retractReq := none, retractAt := s.now, seeking := false, settleOk := 0, streak := 0,
             migAgain := l.migAgain || l.migPend, migPend := false, needFollow := true }).tripAct a 5

/-! ### Engines and their loads (08 R222, R244) -/

/-- Actuator loops on engine `n`, those in limp apart. -/
def State.loopsOn (s : State) (n : Nat) : List Nat :=
  (List.range 144).filter fun a => let l := s.loop a; l.engine.toNat == n && !l.limp && !l.noEngine
/-- Limp loops on engine `n`. -/
def State.limpOn (s : State) (n : Nat) : List Nat :=
  (List.range 144).filter fun a => let l := s.loop a; l.engine.toNat == n && l.limp && !l.noEngine
/-- Spindle loops on engine `n`. -/
def State.spinsOn (s : State) (n : Nat) : List Nat :=
  (List.range 72).filter fun b => let k := (s.bay b).link; k.spnEngine.toNat == n && !k.spnNoEngine
/-- Actuator loops on their way to engine `n`. -/
def State.loopsTo (s : State) (n : Nat) : List Nat := (List.range 144).filter fun a => (s.loop a).migPend && (s.loop a).migTo == n
/-- Spindle loops on their way to engine `n`. -/
def State.spinsTo (s : State) (n : Nat) : List Nat := (List.range 72).filter fun b => (s.bay b).link.spnMigTo == some n

/-- Assigned weight of engine `n` in cycles (08 R222). -/
def State.leLoad (s : State) (n : Nat) : Nat := ((s.loopsOn n).map fun a => (s.loop a).weight).sum + 60 * (s.spinsOn n).length

/-- Has engine `n` a free slot of the kind and the free weight, loops on their way to it counted (08 R244)? -/
def State.leFits (s : State) (n w : Nat) (spin : Bool) : Bool :=
  let a := (s.loopsOn n).length + (s.loopsTo n).length
  let b := (s.spinsOn n).length + (s.spinsTo n).length
  (s.le n).state == 0 && (if spin then decide (b < 3) else decide (a < 6))
    && decide (s.leLoad n + ((s.loopsTo n).map fun a => (s.loop a).weight).sum + 60 * (s.spinsTo n).length + w ≤ 2700)

/-- Engines in the order R244 tries them for a loop on engine `own`. -/
def State.leOrder (s : State) (own : Nat) : List Nat :=
  let es := (List.range 32).filter (· != own)
  let far (n : Nat) : Bool := n / 4 != own / 4
  let spare (n : Nat) : Bool := (s.le n).spare
  (es.filter fun n => spare n && far n) ++ (es.filter fun n => spare n && !(far n)) ++ (es.filter fun n => !(spare n) && far n)
    ++ es.filter fun n => !(spare n) && !(far n)

/-- The target engine of a loop (08 R244). -/
def State.leTarget (s : State) (own w : Nat) (spin : Bool) : Option Nat := (s.leOrder own).find? fun n => s.leFits n w spin

/-! ### Limp (08 R246) -/

/-- Host of a limp slot for a loop of engine `own`: its own engine when in service, else the one in service with the fewest limp loops;
two slots each (08 R246). -/
def State.limpHost (s : State) (own : Nat) : Option Nat :=
  let free (n : Nat) : Bool := (s.le n).state == 0 && decide ((s.limpOn n).length < 2)
  if free own then some own
  else ((List.range 32).filter free).foldl (fun m n => match m with
    | none => some n
    | some x => if (s.limpOn n).length < (s.limpOn x).length then some n else some x) none

/-- Admitted LANDED writes and zone writes of an actuator: none can finish in limp (02 R51). -/
def State.limpWrites (s : State) (a : Nat) : List Nat :=
  (s.admittedOn a).filter fun i => (s.cmd? i).any fun c => c.dc != 7 && (c.op == 2 || c.op == 3) && (c.dur || (s.ns c.nsid).zoned)

/-- A loop that no engine has room for takes a limp slot; with none free it is retracted (08 R246; 02 R51). -/
def State.enterLimp (s : State) (a : Nat) : State :=
  match s.limpHost (s.loop a).engine.toNat with
  | some n =>
    let was := (s.loop a).limp
    let s := if was then s else s.raiseInhibit a 2 false
    let s := s.modLoop a fun l => { l with limp := true, engine := BitVec.ofNat 5 n, migPend := false }
    if was then s
    else
      let s := (s.modLoop a fun l => { l with limpK := 0, ovrWin := 0 }).raise (actEvt a 5)
      (s.finishAll (s.limpWrites a) Sts.unrecoveredInDeadline).capacityLoss a
  | none =>
    let s := s.modLoop a fun l => { l with limp := false, noEngine := true, migPend := false }
    let l := s.loop a
    if l.mode = 0 ∨ l.mode = 5 then s else ((s.serviceLost a none).tripAct a 4).enterRetract a 5

/-! ### Migration (08 R243 to R245) -/

/-- A migration of an actuator loop is decided; for overrun its event latches. During a retract it is left for the park (08 R241, R243,
R244). -/
def State.decideMig (s : State) (a : Nat) (beyond : Bool) : State :=
  let l := s.loop a
  if l.noEngine then s
  else if l.mode = 5 && (s.le l.engine.toNat).state == 0 then s.modLoop a fun l => { l with migAgain := true }
  else
    let s := (if beyond then s.raise (actEvt a 5) else s).tripAct a 7
    let s := s.modLoop a fun l => { l with migPend := false }
    if l.limp then s.enterLimp a
    else match s.leTarget l.engine.toNat l.weight false with
      | some n => s.modLoop a fun l => { l with migPend := true, migTo := n }
      | none => s.enterLimp a

/-- A spindle action waits for both parks; actuators not yet parked are retracted (01 R21, 08 R241). -/
def State.wantAction (s : State) (b : Nat) (x : SpinAct) : State :=
  let s := s.modSpin b fun p => { p with action := some x }
  let idle := x == .standby || x == .brake
  s.each [2 * b, 2 * b + 1] fun s a => if idle then s.retractIdle a else s.retract a 3

/-- A spindle loop moves to another engine; with none, both actuators retract and the spindle is stopped (08 R244, 09 R274). -/
def State.decideSpn (s : State) (b : Nat) : State :=
  let k := (s.bay b).link
  if k.spnNoEngine then s
  else
    let s := (s.modLink b fun k => { k with spnMigTo := none }).trip true b 7 s.now
    match s.leTarget k.spnEngine.toNat 60 true with
    | some n => s.modLink b fun k => { k with spnMigTo := some n }
    | none => (s.modLink b fun k => { k with spnNoEngine := true }).wantAction b .lost

/-- Spindle loops that no engine carries take a place that has come free (09 R274). -/
def State.placeSpindles (s : State) : State :=
  s.each ((List.range 72).filter fun b => (s.bay b).link.spnNoEngine) fun s b =>
    match (List.range 32).find? fun n => s.leFits n 60 true with
    | some n => s.modLink b fun k => { k with spnNoEngine := false, spnEngine := BitVec.ofNat 5 n }
    | none => s

/-- Every loop on an engine, and every loop on its way to it, is given a new target: actuators in index order, then bays (08 R243, R245). -/
def State.evacuate (s : State) (n : Nat) : State :=
  let as := (s.loopsOn n ++ s.limpOn n ++ s.loopsTo n).eraseDups
  let as := (List.range 144).filter as.contains
  let bs := (s.spinsOn n ++ s.spinsTo n).eraseDups
  let bs := (List.range 72).filter bs.contains
  (s.each as fun s a => s.decideMig a false).each bs fun s b => s.decideSpn b

/-- An engine is retired: its state, its event, and its loops migrate (08 R248). -/
def State.retireLe (s : State) (n st : Nat) : State :=
  ((s.modLe n fun e => { e with state := st }).raise (0x720 + n)).evacuate n

/-! ### Predicted wedges and overruns (08 R236, R242) -/

/-- The present wedge is predicted: the streak grows, its third latches event 8a + 1, its fifth asks for a retract with cause lost
position, in limp 5; while servo is being acquired there is no position to lose (08 R236, R246). -/
def State.predict (s : State) (a : Nat) : State :=
  let l := s.loop a
  if l.predCounted ∨ l.mode = 0 ∨ l.mode = 5 then s
  else
    let s := (s.modLoop a fun l => { l with predCounted := true, streak := if l.mode = 1 ∨ l.streak = 5 then l.streak else l.streak + 1 }).tripAct a 3
    let k := (s.loop a).streak
    let s := if k = 3 ∧ l.mode ≠ 1 then s.raise (actEvt a 1) else s
    if k = 5 ∧ l.mode ≠ 1 then
      let s := if l.limp then s else s.raise (actEvt a 1)
      s.retract a (if l.limp then 5 else 1)
    else s

/-- Bits set in a 64-bit window. -/
def onesIn (w : BitVec 64) : Nat := ((List.range 64).filter w.getLsbD).length

/-- A run of a loop is an overrun: the slot will hold, write-inhibit rises, the wedge is predicted, the next run catches up; the third in
the window decides a migration, or in limp a retract (08 R242, R243, R246). -/
def State.overrunOf (s : State) (a : Nat) : State :=
  let s := (s.modLoop a fun l =>
    { l with runDue := false, overrun := l.overrun + 1, ovrWin := l.ovrWin <<< 1 ||| 1, catchUp := l.catchUp + 1, record := none }).tripAct a 1
  let s := (s.raiseInhibit a 2 false).predict a
  let l := s.loop a
  if onesIn l.ovrWin < 3 then s
  else if l.limp then s.retract a 5
  else if l.migPend then s
  else s.decideMig a true

/-! ### Parking and loading (08 R238, R239; 12 R346) -/

/-- A wear figure that has just reached `n`: at 90 % and at 100 % of its budget a bay event latches (12 R346). -/
def State.wearAt (s : State) (b budget n : Nat) : State :=
  if budget ≠ 0 ∧ (n = budget ∨ (90 * budget ≤ 100 * n ∧ 100 * n < 90 * budget + 100)) then s.raise (bayEvt b 1) else s

/-- The time at the gait that ends now is accounted (12 R346). -/
def State.gaitHours (s : State) (b : Nat) : State :=
  let p := (s.bay b).spin
  let s := if p.gait = 0 then s else s.modLink b fun k => { k with hours := Tab.upd (fun _ => 0) k.hours p.gait.toNat (· + (s.now - p.gaitAt)) }
  s.modSpin b fun p => { p with gaitAt := s.now }

/-- LOAD is requested of a PARKED loop: a load cycle (08 Table 8.6, R239; 12 R346). -/
def State.requestLoad (s : State) (a : Nat) : State :=
  if (s.loop a).mode ≠ 0 then s
  else
    let s := s.modLoop a fun l =>
      { l with mode := 1, loadAt := s.now, loadN := 0, settleOk := 0, acquired := false, reloadAt := 0, needFollow := true, emrg := false,
               burstRun := 0, wedgeRun := 0, streak := 0, catchUp := 0 }
    let s := s.modGraze a fun g => { g with loads := g.loads + 1 }
    (s.wearAt (bayOf a) (s.bay (bayOf a)).link.budLoads (s.act a).graze.loads).tripAct a 5

/-- The pause of a transition or exit ends; one that ran longer than planned is a loss of capacity (09 R259). -/
def State.endPause (s : State) (b : Nat) : State :=
  let late := decide ((s.bay b).spin.pauseEnd < s.now)
  let s := (s.modSpin b fun p => { p with moving := false, raising := false }).replanBay b
  s.each [2 * b, 2 * b + 1] fun s a => if late then (s.capacityLoss a).dispatch a else s.dispatch a

/-- An exit ends with its loads: the spindle at speed, neither actuator still loading (09 Table 9.3, R277). -/
def State.loadsDone (s : State) (b : Nat) : State :=
  let p := (s.bay b).spin
  let settled (a : Nat) : Bool := let m := (s.loop a).mode; m == 0 || m == 4 || m == 5
  if p.moving && !p.spinUp && p.state == 5 && p.goal == p.gait && settled (2 * b) && settled (2 * b + 1) then s.endPause b else s

/-- The heads of a loop are parked: PARKED with the retract's cause; lost position, frozen position and downstream loss set a reload in
1 s, unless it is the third lost or frozen position within 10 minutes; a cancelled migration is decided afresh (08 R238, R239, R240). -/
def State.parked (s : State) (a : Nat) : State :=
  let l := s.loop a
  let c := l.pendCause
  let recent := l.reloads.filter fun t => decide (s.now < t + 600000000000)
  let recent := if c = 1 ∨ c = 2 then recent ++ [s.now] else recent
  let again := (c = 1 ∨ c = 2 ∨ c = 4) ∧ ¬ ((c = 1 ∨ c = 2) ∧ 3 ≤ recent.length)
  let s := s.modLoop a fun l =>
    { l with mode := 0, retract := l.retract + 1, retCause := c, emrg := false, runDue := false, reloads := recent,
             reloadAt := if again then s.now + 1000000000 else 0, migAgain := false }
  let s := (s.raise (actEvt a 0)).tripAct a 5
  (if l.migAgain then s.decideMig a false else s).loadsDone (bayOf a)

/-! ### A bay's spindle commands (09 R254, R268) -/

/-- A Causeway link in service. -/
def State.linkUp (s : State) (a : Nat) : Bool := (s.act a).cwy.state == 5
/-- Is either link of a bay in service (10 R296)? -/
def State.bayUp (s : State) (b : Nat) : Bool := s.linkUp (2 * b) || s.linkUp (2 * b + 1)

/-- SLEW of a spindle record in µs: CFG_SPN_CFG's override, else the calibration record's (09 R254, Table 9.11). -/
def State.slewOf (s : State) (b : Nat) : Nat :=
  let v := s.cfg.slewOvr.toNat
  if 4 ≤ v ∧ v ≤ 64 then v else (s.bay b).spin.cal.slew

/-- A spindle command record goes down, on the side-A link while that is UP, else on side B's; none when neither is (09 Table 9.1, 10
R296). -/
def State.sendSpin (s : State) (b mode tcomm step icmd : Nat) : State :=
  let p := (s.bay b).spin
  let r := BitVec.ofNat 64 (at_ 32 (tcomm % 2 ^ 32) + at_ 29 step + at_ 26 mode + at_ 20 (s.slewOf b - 1) + at_ 8 (min icmd p.cal.icmdMax % 4096)
    + p.seq.toNat)
  let s := s.modSpin b fun p => { p with record := r, seq := p.seq + 1 }
  if s.bayUp b then s.emit (.spinCmd b r) else s

/-- REGEN_V in 10 mV (09 Table 9.11). -/
def State.regenMv (s : State) : Nat := 10 * within 126 136 132 s.cfg.regenV.toNat

/-- A brake begins: regenerative with a locked observer, no chopper fault and a bus below REGEN_V, else with the windings shorted (09 R268).
-/
def State.startBrake (s : State) (b : Nat) (short : Bool) : State :=
  let p := (s.bay b).spin
  let d := s.dom (domOf b)
  let regen := !short && p.observer && p.state != 6 && !d.chop && decide (d.busv.toNat < s.regenMv)
  let s := s.modSpin b fun p =>
    { p with state := if regen then 8 else 9, brake := p.brake + 1, brakeTo := true, action := none, moving := true, raising := false, goal := if p.retrySpin then p.goal else 0,
             lowerTo := none, token := p.token && p.retrySpin, tokwait := false, relock := 0, inBand := 0, lastCross := s.now }
  (s.sendSpin b (if regen then 2 else 3) s.now 0 0).raise (bayEvt b 2)

/-- A spin-up token is asked for (09 R265). -/
def State.askToken (s : State) (b kind : Nat) : State :=
  if (s.bay b).spin.tokwait ∨ (s.bay b).spin.token then s
  else s.modSpin b fun p => { p with tokwait := true, tokKind := kind, tokAt := s.now }

/-! ### Bring-up attempts (10 R301, 16 R421) -/

/-- Both links of a bay go to OFF (10 R303, 16 R421). -/
def State.linksOff (s : State) (b : Nat) : State :=
  s.each [2 * b, 2 * b + 1] fun s a => s.modCwy a fun c =>
    { c with state := 7, dOk := false, u0Ok := false, u1Ok := false, single := false, rdr := false, spn := false, emrg := false, retryAt := 0 }

/-- The third failed attempt quarantines a bay: its spindle stops, its links go to OFF, and no further attempt is made (16 R421). -/
def State.quarantine (s : State) (b reason : Nat) : State :=
  let s := s.modLink b fun k => { k with quar := BitVec.ofNat 4 reason, quarSerial := k.serial, retryAt := none, step := 0 }
  let s := s.setMedia b 6
  let p := (s.bay b).spin
  if s.bayUp b && p.state != 0 then s.wantAction b .brake else s.linksOff b

/-- A bring-up attempt ends as failed: the third in a row quarantines the bay, another is retried after 1 s (10 R301, 16 R421). -/
def State.failBringUp (s : State) (b reason : Nat) : State :=
  let k := (s.bay b).link
  let s := s.modSpin b fun p => { p with fails := 0 }
  if k.noCount then s.modLink b fun k => { k with step := 0, retryAt := some (s.now + 1000000000) }
  else
    let s := s.modLink b fun k => { k with step := 0, failed := k.failed + 1 }
    if 3 ≤ k.failed + 1 then s.quarantine b reason
    else s.modLink b fun k => { k with retryAt := some (s.now + 1000000000) }

end Sys2Proof.Machine
end

