-- ==== Sys2Proof/Machine/Law.lean ====
section
/-! DEFINITION. The control law of an actuator loop: the state-space law, its integrators and notches, the bumpless transfer and the runout
tables (08 R222, R227 to R233). The engine's arithmetic is one fused multiply-add of single-precision floats, left uninterpreted. -/
namespace Sys2Proof.Machine

open Sys2Proof

/-! ### Floats -/

/-- A float with its sign changed. -/
def negF (v : Word) : Word := v ^^^ 0x80000000#32

/-- The place of a float in the order of floats. -/
def orderF (v : Word) : Int := if v.getLsbD 31 then -((v.toNat % 2 ^ 31 : Nat) : Int) else (v.toNat : Int)

/-- Is one float less than another? -/
def ltF (a b : Word) : Bool := decide (orderF a < orderF b)

/-- `c · x`, added to `z`. -/
def dotAdd (z : Word) (c x : List Word) : Word := (c.zip x).foldl (fun s p => Config.fma p.1 p.2 s) z

/-- The fraction bits and exponent of a positive number `n / 2^k` as a single-precision float, when it is exact. -/
def f32Mag (n k : Nat) : Nat :=
  let e := Nat.log2 n
  (127 + e - k) * 2 ^ 23 + if e ≤ 23 then n * 2 ^ (23 - e) - 2 ^ 23 else n / 2 ^ (e - 23) - 2 ^ 23

/-- `v / 10,240` as a float; where it takes more than 24 bits the rounding is not stated (08 R227). -/
def f32Track (v : Int) : Word :=
  let n := v.natAbs / 5
  if v = 0 then 0
  else if v.natAbs % 5 ≠ 0 ∨ (2 ^ 24 ≤ n ∧ n % 2 ^ (Nat.log2 n - 23) ≠ 0) then Config.f32Track v
  else reg32 (f32Mag n 11 + if v < 0 then 2 ^ 31 else 0)

/-! ### The law (08 R227, R228) -/

/-- x ← A x + B y. -/
def lawStep (l : Law) (y : Word) (x : List Word) : List Word := (l.a.zip l.b).map fun p => Config.fma p.2 y (dotAdd 0 p.1 x)

/-- `n` catch-up steps on the predicted position error. -/
def lawCatchUp (l : Law) (x : List Word) : Nat → List Word
  | 0 => x
  | n + 1 => lawCatchUp l (lawStep l (dotAdd 0 l.cp x) x) n

/-- An output: C x + D y + f. -/
def lawOut (c x : List Word) (d y f : Word) : Word := dotAdd (Config.fma d y f) c x

/-- A value brought into an integrator's limits. -/
def clampTo (g : Integ) (v : Word) : Word := if ltF v g.lo then g.lo else if ltF g.hi v then g.hi else v

/-- Would the step of a state from `old` to `new` move an output with coefficient `c` further in the direction it is saturated in? -/
def pushes (sat : Int) (c old new : Word) : Bool :=
  let up := (ltF 0 c && ltF old new) || (ltF c 0 && ltF new old)
  let down := (ltF 0 c && ltF new old) || (ltF c 0 && ltF old new)
  (decide (sat = 1) && up) || (decide (sat = -1) && down)

/-- One integrator after the update: it does not move further into a saturation that it feeds, nor past a limit; the flag says that one of
the two acted (08 R228). -/
def clampState (l : Law) (sat : Int × Int × Int) (old : List Word) (r : List Word × Bool) (g : Integ) : List Word × Bool :=
  let at' (v : List Word) : Word := v.getD g.idx 0
  let o := at' old
  let n := at' r.1
  let hold := pushes sat.1 (at' l.cv) o n || pushes sat.2.1 (at' l.cm1) o n || pushes sat.2.2 (at' l.cm2) o n
  let v := if hold then o else n
  (r.1.set g.idx (clampTo g v), r.2 || hold || clampTo g v != v)

/-- One notch section: its output and its new state (08 R227). -/
def notch (q : Biquad) (z : Word × Word) (u : Word) : Word × (Word × Word) :=
  let y := Config.fma q.b0 u z.1
  (y, (Config.fma q.b1 u (Config.fma (negF q.a1) y z.2), Config.fma q.b2 u (Config.fma (negF q.a2) y 0)))

/-- The notch sections in turn: the output, their states and their outputs (08 R227). -/
def notches : List Biquad → List (Word × Word) → Word → Word × List (Word × Word) × List Word
  | [], _, u => (u, [], [])
  | q :: qs, zs, u =>
    let (y, z) := notch q (zs.headD (0, 0)) u
    let (v, zs, ys) := notches qs zs.tail y
    (v, z :: zs, y :: ys)

/-! ### The bumpless transfer (08 R232) -/

/-- The state the new law begins with: M x_old, its integrators solved so that u_v and u_m1 are what the old law would give for `y`; a solved
value outside its limits is clamped, and the flag says so (08 R232). A pair of laws the set gives no matrix for keeps the state. -/
def lawTransfer (set : CoeffSet) (old new : Law) (pair : Nat) (y : Word) (x : List Word) : List Word × Bool :=
  let x' := match set.xfer.find pair with
    | some m => m.map fun r => dotAdd 0 r x
    | none => x
  let want := (Config.fma (negF new.dv) y (lawOut old.cv x old.dv y 0), Config.fma (negF new.dm1) y (lawOut old.cm1 x old.dm1 y 0))
  (new.ints.zipIdx).foldl (fun r (g, i) =>
    let v := Config.solve new x' want i
    (r.1.set g.idx (clampTo g v), r.2 || clampTo g v != v)) (x', false)

/-! ### Laws between two gaits (08 R233) -/

/-- `a + w (b - a)`. -/
def mixF (w a b : Word) : Word := Config.fma w (Config.fma 0x3F800000#32 b (negF a)) a
/-- Rows of coefficients between two laws. -/
def mixRow (w : Word) (a b : List Word) : List Word := (a.zip b).map fun p => mixF w p.1 p.2
/-- The law between two laws (08 R233). -/
def mixLaw (w : Word) (p q : Law) : Law :=
  { p with a := (p.a.zip q.a).map fun r => mixRow w r.1 r.2, b := mixRow w p.b q.b, cv := mixRow w p.cv q.cv, cm1 := mixRow w p.cm1 q.cm1,
           cm2 := mixRow w p.cm2 q.cm2, dv := mixF w p.dv q.dv, dm1 := mixF w p.dm1 q.dm1, dm2 := mixF w p.dm2 q.dm2, cp := mixRow w p.cp q.cp }

/-- The law of a mode in a set: in limp FOLLOW and SETTLE run limp FOLLOW, SEEK limp SEEK (08 R229, R246). -/
def Loop.lawIndex (l : Loop) : Nat :=
  if l.limp && (l.mode == 3 || l.mode == 4) then 6 else if l.limp && l.mode == 2 then 7 else l.mode.toNat

/-- Place of the law in force in its set: by the gait held, or that of the transition or exit under way while none is. -/
def State.lawKey (s : State) (a : Nat) : Nat :=
  let p := (s.bay (bayOf a)).spin
  16 * (if p.gait = 0 then p.goal.toNat else p.gait.toNat) + (s.loop a).lawIndex

/-- The law in force: during a gait transition a loop in FOLLOW runs between the FOLLOW laws of the two gaits, by the measured wedge period
(08 R233). -/
def State.lawNow (s : State) (a : Nat) : Law :=
  let l := s.loop a
  let p := (s.bay (bayOf a)).spin
  let law := l.set.laws.get (fun _ => {}) (s.lawKey a)
  if p.moving && l.mode == 4 && p.gait != 0 && p.goal != 0 && p.gait != p.goal then
    mixLaw (Config.mix l.period (revNs p.gait.toNat / 640) (revNs p.goal.toNat / 640)) law
      (l.set.laws.get (fun _ => {}) (16 * p.goal.toNat + l.lawIndex))
  else law

/-! ### Runout tables (08 R230) -/

/-- Tracks of a surface. -/
def tracksOf (zs : List RecZone) : Nat := zs.foldl (fun m z => max m (z.first + z.tracks)) 0

/-- Place of a wedge's runout entry: by the selected head and the runout band of the predicted track. -/
def State.rroKey (s : State) (a : Nat) (w : BitVec 10) : Nat :=
  let l := s.loop a
  (64 * l.tgtHead + min 63 (64 * l.predTrack / max 1 (tracksOf (s.act a).med.zones))) * 640 + w.toNat

/-- Is the entry of a wedge one whose check failed? -/
def State.rroLost (s : State) (a : Nat) (w : BitVec 10) : Bool := (s.loop a).rroBad.contains (s.rroKey a w)

/-- The runout entry of a wedge: zero where its check failed (08 R230). -/
def State.rroAt (s : State) (a : Nat) (w : BitVec 10) : RroEnt :=
  if s.rroLost a w then {} else (s.loop a).rro.get (fun _ => {}) (s.rroKey a w)

/-! ### Set changes (08 R222, R229) -/

/-- Is a set refused: a static count exceeds its statement, or the largest mode cost exceeds 480 (08 R222)? -/
def setRefused (c : CoeffSet) : Bool :=
  c.laws.any fun r => decide (r.2.stated < r.2.counted) || decide (480 < r.2.stated)

/-- Weight of a loop: the largest mode cost of its set (08 R222). -/
def setWeight (c : CoeffSet) : Nat := c.laws.foldl (fun m r => max m r.2.stated) 0

/-- The set and the runout tables that wait for the loop's wedge boundary come into force (08 R229; 12 Table 12.3). -/
def Loop.takeSet (l : Loop) : Loop :=
  let l := match l.setNext with
    | some c => { l with set := c, setVer := c.ver, weight := setWeight c, setNext := none }
    | none => l
  match l.rroNext with
  | some r => { l with rro := r.tabs, rroVer := r.ver, rroBad := [], rroNext := none }
  | none => l

/-- A coefficient set or runout tables are loaded for an actuator: a refused set leaves the previous version in force; they come into force at
the loop's next wedge boundary, of a PARKED loop at once (08 R222, R229). -/
def State.offerSet (s : State) (a : Nat) (set : Option CoeffSet) (rro : Option RroSet) : State :=
  s.modLoop a fun l =>
    let l := { l with setNext := (set.filter fun c => !setRefused c).orElse fun _ => l.setNext, rroNext := rro.orElse fun _ => l.rroNext }
    if l.mode = 0 then l.takeSet else l

/-! ### The run (08 R227) -/

/-- The command record of a run (08 Table 8.5). -/
def Loop.command (l : Loop) (vcm ma1 ma2 : BitVec 16) : BitVec 64 :=
  BitVec.ofNat 64 (at_ 61 (bit (l.mode == 1)) + at_ 60 (bit l.emrg) + at_ 59 (bit (l.mode == 5)) + at_ 48 l.runWedge.toNat + at_ 32 ma2.toNat
    + at_ 16 ma1.toNat + vcm.toNat)

/-- The position error a run's law takes: the valid record's, else the law's own prediction; in RETRACT it is formed from the voice-coil
velocity and the set's retract velocity (08 R227, R238). -/
def State.lawInput (s : State) (a : Nat) (ok : Bool) (yp : Word) : Word :=
  let l := s.loop a
  if l.mode = 5 then Config.retractErr (s.act a).cwy.vcmVel l.set.retVel else if ok then f32Track l.yRec else yp

/-- One run of the law: catch-up steps, the transfer where the law or its set's version is not that of the last run, the outputs, the state, its
integrators, the notches, and the command saturated to full scale. The flag says that a clamp or a saturation acted (08 R227, R228, R232).
-/
def State.runLaw (s : State) (a : Nat) (ok : Bool) : Loop × Bool :=
  let l := s.loop a
  let key := s.lawKey a
  let g := key / 16
  let new := s.lawNow a
  let old := if l.lawKey.isNone then new else l.law
  let x := lawCatchUp old l.st.x l.catchUp
  let yp := dotAdd 0 old.cp x
  let y := s.lawInput a ok yp
  let u := if l.mode = 2 then Config.trajectory (l.set.traj.get (fun _ => []) (32 * g + seekBin l.seekDist)) y else y
  let (x, solved) : List Word × Bool := match l.lawKey with
    | some k => if k = key ∧ l.lawVer = l.setVer then (x, false) else lawTransfer l.set old new (256 * k + key) u x
    | none => (x, false)
  let r := s.rroAt a l.runWedge
  let uv := lawOut new.cv x new.dv u (Config.runoutF r.fv)
  let um1 := lawOut new.cm1 x new.dm1 u (Config.runoutF r.fm)
  let um2 := lawOut new.cm2 x new.dm2 u (Config.runoutF r.fmh)
  let (x', held) := new.ints.foldl (clampState new l.sat x) (lawStep new u x, false)
  let (v, nv, ov) := notches (l.set.notchV.get (fun _ => []) g) l.st.nv uv
  let (m1, nm, _) := notches (l.set.notchM.get (fun _ => []) g) l.st.nm um1
  let (m2, nm, om) := notches (l.set.notchM.get (fun _ => []) g) nm um2
  let sat := (Config.overScale true v, Config.overScale false m1, Config.overScale false m2)
  let cmd := if l.mode = 0 then l.command 0 0 0 else l.command (Config.toDrive true v) (Config.toDrive false m1) (Config.toDrive false m2)
  let st : LawSt := { x := x', nv := nv, nm := nm, cmd := cmd, wedge := l.runWedge }
  ({ l with st := st, mirror := st, mirrorOk := true, cmdRec := cmd, newRec := true, catchUp := 0, yF := y, yP := yp, uv := uv, nout := ov ++ om,
            sat := sat, law := new, lawKey := some key, lawVer := l.setVer }, solved || held || sat != (0, 0, 0))

end Sys2Proof.Machine
end

