-- ==== Sys2Proof/Machine/Servo.lean ====
section
/-! DEFINITION. Actuator loops and Loop Engines (08). -/
namespace Sys2Proof.Machine

open Sys2Proof

/-! ### The position record (08 Table 8.1, R219) -/

/-- TIME aside, the fields of a position record. -/
structure PosRec where
  /-- BURST_A to BURST_D -/
  bursts : BitVec 48
  /-- PES, signed, in 1/2,048 track -/
  pes : Int
  /-- TRACK -/
  track : Nat
  /-- ERASED -/
  erased : Bool
  /-- BURST_OK -/
  burstOk : Bool
  /-- GRAY_OK -/
  grayOk : Bool
  /-- SAM -/
  sam : Bool
  /-- HEAD -/
  head : Nat
  /-- WEDGE -/
  wedge : Nat
  deriving DecidableEq, Repr

/-- The fields of a 128-bit position record (08 Table 8.1). -/
def PosRec.of (r : BitVec 128) : PosRec :=
  { bursts := r.extractLsb' 64 48, pes := sInt 16 (r.extractLsb' 44 16).toNat, track := (r.extractLsb' 20 24).toNat,
    erased := r.getLsbD 19, burstOk := r.getLsbD 18, grayOk := r.getLsbD 17, sam := r.getLsbD 16,
    head := (r.extractLsb' 10 4).toNat, wedge := (r.extractLsb' 0 10).toNat }

/-- Half width of the predicted window in tracks (08 Table 8.2). -/
def Loop.window (l : Loop) : Nat := if l.mode = 3 ∨ l.mode = 4 then 2 else 2 + l.vel / 4

/-- Class of a record: 0 valid, 1 invalid, 2 missing. Until a first valid record of a LOAD there is nothing predicted to differ from (08
Table 8.2). -/
def Loop.classify (l : Loop) (r : PosRec) : Nat :=
  if !r.sam || r.erased then 2
  else if !r.grayOk || !r.burstOk then 1
  else if l.acquired && (r.wedge != l.wedge.toNat || decide (l.window < trackDist l.predTrack r.track)) then 1
  else 0

/-- Write limits of CFG_SRV_WCFG in 1/2,048 track (08 Table 8.15). -/
def State.wrOff (s : State) : Nat := within 8 64 31 s.cfg.wrOff.toNat
/-- WR_ON: 4 to WR_OFF - 4, else 20. -/
def State.wrOn (s : State) : Nat := within 4 (s.wrOff - 4) 20 s.cfg.wrOn.toNat
/-- RD_LIM. -/
def State.rdLim (s : State) : Nat := within 8 96 38 s.cfg.rdLim.toNat

/-- Is a position error, in 1/10,240 of a track, within a limit in 1/256 track? -/
def inLimit (y : Int) (lim : Nat) : Bool := decide (y.natAbs ≤ 40 * lim)

/-- Is a limp loop's wedge `k` processed at a gait (08 R246)? -/
def limpWedge (g k : Nat) : Bool := if g = 3 then k % 3 != 2 else if g = 2 then k % 5 != 4 else true

/-- Is the loop's wedge to be processed? -/
def State.processed (s : State) (a : Nat) : Bool := !(s.loop a).limp || limpWedge (s.bay (bayOf a)).spin.gait.toNat (s.loop a).limpK

/-- The next wedge number. -/
def nextWedge (w : BitVec 10) : BitVec 10 := if w.toNat + 1 < 640 then w + 1 else 0

/-- The servo gate opens 16 bits before the next wedge's predicted field and closes 16 bits after its end; the prediction uses this wedge and the wedge
period (06 R157, 08 R218). -/
def State.predictGate (s : State) (a cls : Nat) : State :=
  let rev := revNs (s.gaitNow (bayOf a))
  let fin := s.now - (if cls = 2 then 700 else min 700 Config.recordNs) + rev / 640
  let edge := 16 * channelPs (s.act a).cwy.rate.toNat / 8000
  s.modCfe a fun c => { c with gateFrom := fin - Config.fieldNs - edge, gateTo := fin + edge }

/-- A wedge has passed with or without its record: a run is due, the numbers advance (08 R219, R220). -/
def State.wedgeSeen (s : State) (a cls : Nat) (w : BitVec 10) : State :=
  ((s.predictGate a cls).crossWedge a).modLoop a fun l =>
    { l with cls := cls, runDue := true, runWedge := w, wedge := nextWedge w, period := s.now - l.recAt, recAt := s.now, predCounted := false,
             loadN := if l.mode = 1 then l.loadN + 1 else l.loadN, limpK := if l.limp then l.limpK + 1 else l.limpK }

/-- An unprocessed wedge of a loop in limp (08 R246). -/
def State.skipWedge (s : State) (a : Nat) : State :=
  s.modLoop a fun l => { l with limpK := l.limpK + 1, wedge := nextWedge l.wedge, runWedge := l.wedge, record := none }

/-- Records with identical bursts, and with the same WEDGE, in a row (08 R237). -/
def State.watchFrozen (s : State) (a : Nat) (r : PosRec) : State :=
  s.modLoop a fun l =>
    if l.acquired then
      { l with burstRun := if l.bursts = some r.bursts then l.burstRun + 1 else 1, bursts := some r.bursts,
               wedgeRun := if 0 < l.wedgeRun ∧ l.lastWedge.toNat = r.wedge then l.wedgeRun + 1 else 1, lastWedge := BitVec.ofNat 10 r.wedge }
    else { l with burstRun := 1, bursts := some r.bursts, wedgeRun := 1, lastWedge := BitVec.ofNat 10 r.wedge }

/-- A frozen position asks for a retract at once (08 R237). -/
def State.frozen (s : State) (a : Nat) : State :=
  let l := s.loop a
  if l.acquired && (decide (8 ≤ l.burstRun) || decide (3 ≤ l.wedgeRun)) then (s.raise (actEvt a 1)).retract a 2 else s

/-- A missing or invalid record: counted, write-inhibit raised, the wedge predicted (08 Table 8.2, R234, R236). -/
def State.badRecord (s : State) (a cls : Nat) : State :=
  let s := s.modLoop a fun l =>
    { l with missing := if cls = 2 then l.missing + 1 else l.missing, invalid := if cls = 1 then l.invalid + 1 else l.invalid,
             settleOk := 0, winhOk := 0 }
  (s.raiseInhibit a 1 false).predict a

/-- A valid record: the position registers, and write-inhibit when a write is off-track. Its position error is the target with its offsets, less the
measured position, less the runout correction of the wedge (08 R219, R227, R230, R234). -/
def State.goodRecord (s : State) (a : Nat) (r : PosRec) : State :=
  let l := s.loop a
  let c := s.rroAt a (BitVec.ofNat 10 r.wedge)
  let y : Int := (((l.tgtTrack : Int) - r.track) * 2048 - r.pes) * 5 + l.tgtOff - if c.corr = 0 then 0 else Config.runoutCorr c.corr
  let s := s.modLoop a fun l =>
    { l with yRec := y, acquired := true, posPes := BitVec.ofNat 16 (ofInt 16 r.pes), posHead := BitVec.ofNat 4 r.head,
             posWedge := BitVec.ofNat 10 r.wedge, trackReg := BitVec.ofNat 24 r.track }
  if (s.act a).fmt.gate && !(inLimit y s.wrOff) then s.raiseInhibit a 0 (decide (0 < y))
  else s.modLoop a fun l => { l with goodAt := s.now - min 700 Config.recordNs }

/-- Is the loop following wedges: LOAD, SEEK, SETTLE or FOLLOW? -/
def Loop.tracking (l : Loop) : Bool := decide (1 ≤ l.mode.toNat ∧ l.mode.toNat ≤ 4)

/-- A position record reaches the engine (08 R219 to R221, R234, R236, R237). -/
def State.position (s : State) (a : Nat) (rec : BitVec 128) : State :=
  let r := PosRec.of rec
  let l := s.loop a
  if !(s.processed a) then s.skipWedge a
  else if !l.tracking then (s.wedgeSeen a 0 l.wedge).modLoop a fun l => { l with record := some rec }
  else
    let cls := l.classify r
    let s := (s.wedgeSeen a cls (if cls = 0 then BitVec.ofNat 10 r.wedge else l.wedge)).modLoop a fun l => { l with record := some rec }
    let s := (s.watchFrozen a r).frozen a
    if cls = 0 then s.goodRecord a r else s.badRecord a cls

/-- POSITION_RECORD: bits 127:64 and 63:0 of the record (08 R219). -/
def execPositionRecord (a : ActId) (hi lo : BitVec 64) (s : State) : Host.Outcome State Fault Refusal :=
  .next (s.position a.val (hi ++ lo))

/-- RECORD_MISSING_TIMEOUT: no record 0.70 µs after the wedge's predicted field end (08 Table 8.2). -/
def execRecordMissingTimeout (a : ActId) (s : State) : Host.Outcome State Fault Refusal :=
  let l := s.loop a.val
  .next <| if !(s.processed a.val) then s.skipWedge a.val
    else
      let s := (s.wedgeSeen a.val 2 l.wedge).modLoop a.val fun l => { l with record := none }
      if l.tracking then s.badRecord a.val 2 else s

/-! ### The run (08 R225 to R233) -/

/-- Value of a node of an actuator loop at a run's end, or at an overrun with the values held (08 Table 8.9, R251). -/
def State.actNode (s : State) (a : Nat) (o : LawOut) (beyond : Option Nat) (node idx : Nat) : Word :=
  let l := s.loop a
  let r := PosRec.of (l.record.getD 0)
  let e := s.rroAt a l.runWedge
  let cmd := if beyond.isSome then l.sent.toNat else l.cmdRec.toNat
  match node with
  | 0x01 => reg32 (ofInt 16 r.pes)
  | 0x02 => l.yF
  | 0x03 => l.yP
  | 0x04 => reg32 r.track
  | 0x05 => reg32 (at_ 30 (if beyond.isSome then 3 else l.cls) + l.runWedge.toNat)
  | 0x06 => if idx < 4 then reg32 (bits r.bursts.toNat (12 * idx) 12) else 0
  | 0x10 => if idx < 12 then l.st.x.getD idx 0 else 0
  | 0x20 => l.uv
  | 0x21 => reg32 (bits cmd 0 16)
  | 0x22 => reg32 (bits cmd 16 16)
  | 0x23 => reg32 (bits cmd 32 16)
  | 0x24 => if idx < 8 then l.nout.getD idx 0 else 0
  | 0x28 => if idx < 4 then ([e.fv, e.fm, e.fmh, e.corr].getD idx 0).zeroExtend 32 else 0
  | 0x30 => reg32 o.start
  | 0x31 => reg32 (beyond.getD o.cycles)
  | 0x32 => reg32 l.mode.toNat
  | _ => 0

/-- The completed seek's time goes to the Chamois core, by gait and distance bin (12 R347). -/
def State.seekDone (s : State) (a : Nat) : State :=
  let l := s.loop a
  let k := 32 * (s.bay (bayOf a)).spin.gait.toNat + seekBin l.seekDist
  let t := s.now - l.seekStart
  s.modGraze a fun g =>
    { g with measured := Tab.upd (fun _ => []) g.measured k fun m => (t :: m).take 4096,
             seeks := Tab.upd (fun _ => 0) g.seeks k (· + 1),
             late := if g.seek.get (fun _ => 0) k < t then Tab.upd (fun _ => 0) g.late k (· + 1) else g.late }

/-- FOLLOW is entered: the seek is complete, counted and reported; after a LOAD event 8a + 0 latches and the actuator returns to service (08
R231, R238, Table 8.22). -/
def State.enterFollow (s : State) (a : Nat) : State :=
  let l := s.loop a
  let late := l.seeking && decide (0 < l.seekBound) && decide (l.seekStart + l.seekBound < s.now)
  let s := if l.seeking && decide (0 < l.seekBound) then s.seekDone a else s
  let s := s.modAdm a fun x =>
    { x with followAt := s.now, seekLog := if l.seeking && decide (0 < l.seekBound) then logSpan s.now x.seekLog l.seekStart else x.seekLog }
  let s := s.modLoop a fun l =>
    { l with mode := 4, seeking := false, needFollow := false, seek := if l.seeking then l.seek + 1 else l.seek,
             seekLate := if late then l.seekLate + 1 else l.seekLate }
  let s := s.tripAct a 5
  if !l.needFollow then s
  else
    let s := (s.raise (actEvt a 0)).modAdm a fun x => { x with offline := false, outUntil := 0 }
    let k := (s.bay (bayOf a)).link
    let s := if k.step = 3 && (s.loop (2 * bayOf a)).mode == 4 && (s.loop (2 * bayOf a + 1)).mode == 4
      then s.modLink (bayOf a) fun k => { k with step := 4 } else s
    (s.loadsDone (bayOf a)).dispatch a

/-- A mode change. -/
def State.toMode (s : State) (a : Nat) (m : BitVec 3) : State :=
  (s.modLoop a fun l => { l with mode := m, settleOk := 0 }).tripAct a 5

/-- A LOAD that found no servo within 2 revolutions of wedges: RETRACT, load failure; in a bring-up the attempt fails (08 Table 8.6, R239).
-/
def State.loadFailed (s : State) (a : Nat) : State :=
  let s := s.retract a 6
  if (s.bay (bayOf a)).link.step = 3 then s.failBringUp (bayOf a) 4 else s

/-- The mode's progress after a run, on the wedge's class and position error (08 Table 8.6, R231). -/
def State.modeStep (s : State) (a : Nat) (ok inWindow : Bool) : State :=
  let l := s.loop a
  let lim := if l.tgtWrite then s.wrOn else s.rdLim
  let good := if l.mode = 3 then ok && inLimit l.yRec lim else ok
  let n := if good then l.settleOk + 1 else 0
  let s := s.modLoop a fun l => { l with settleOk := n }
  if l.mode = 1 then
    if 8 ≤ n then (s.toMode a 2).modLoop a fun l => { l with seeking := true, seekStart := s.now, seekBound := 0 }
    else if 1280 ≤ l.loadN then s.loadFailed a else s
  else if l.mode = 2 then (if inWindow then s.toMode a 3 else s)
  else if l.mode = 3 then (if (if l.tgtWrite then 8 else 4) ≤ n then s.enterFollow a else s)
  else if l.mode = 4 ∧ l.seeking ∧ !l.migPend ∧ l.setNext.isNone then (s.toMode a 2).emit (.headSelect a l.tgtHead)
  else s

/-- A local line has failed its check: is it the eighth time within 1 s (08 R225)? -/
def LoopEng.lineFails (e : LoopEng) (k now : Nat) : List Nat := (e.lines.get (fun _ => []) k).filter (fun t => decide (now < t + 1000000000)) ++ [now]

/-- May a run of the loop be made: due, and an engine that runs it? -/
def State.runnable (s : State) (a : Nat) : Bool :=
  let l := s.loop a
  let e := (s.le l.engine.toNat).state
  l.runDue && !l.noEngine && (e == 0 || e == 2)

/-- Queue the reload of a runout table as grazing (08 R230, 12 Table 12.1). -/
def State.queueRunout (s : State) (a h : Nat) : State :=
  if (s.act a).graze.pending.any fun g => g.order == 2 && g.head == h then s
  else s.modGraze a fun g => { g with pending := g.pending ++ [{ order := 2, head := h, pos := reservedRegion * 65536, count := 1, isRead := true }] }

/-- A run of an actuator loop to its end. At its wedge boundary a retract that is asked for begins, and else a set change takes place; the law runs, the
mode goes on and the runout entry of the next wedge is prefetched (08 R224, R227, R229, R230, R238). -/
def State.runLoop (s : State) (a : Nat) (o : LawOut) : State :=
  let s := match (s.loop a).retractReq with
    | some c => s.enterRetract a c
    | none => s.modLoop a Loop.takeSet
  let l := s.loop a
  let ok := l.cls == 0 && l.record.isSome
  let miss := s.rroLost a l.runWedge
  let (m, clamped) := s.runLaw a ok
  let s := s.modLoop a fun _ =>
    { m with runDue := false, ovrWin := l.ovrWin <<< 1, vel := o.vel, predTrack := o.predTrack, streak := if ok then 0 else l.streak,
             winhOk := if ok && inLimit l.yRec s.wrOn then l.winhOk + 1 else 0,
             clamp := if clamped then l.clamp + 1 else l.clamp, rroMiss := if miss then l.rroMiss + 1 else l.rroMiss }
  let s := if clamped then s.tripAct a 6 else s
  let s := if l.mode = 5 then s else s.modeStep a ok o.inWindow
  let s := if o.rroFail then
      ((s.modLoop a fun l => { l with rroBad := s.rroKey a (nextWedge l.runWedge) :: l.rroBad }).modHead a l.tgtHead fun x =>
        { x with markServo := true }).queueRunout a l.tgtHead
    else s
  let s := s.sampleTrc l.engine.toNat false a fun _ => s.actNode a o none
  s.countTrc false a

/-- An overrun's wedge is sampled with its held values (08 R251). -/
def State.overrunRun (s : State) (a : Nat) (o : LawOut) (budget : Nat) : State :=
  let e := (s.loop a).engine.toNat
  let s := s.overrunOf a
  (s.sampleTrc e false a fun _ => s.actNode a o (some budget)).countTrc false a

/-- A failing line is refetched; the eighth failure of one line within 1 s, or a failed refetch, is a hard fault: the run stops, an overrun,
and the engine is retired (08 R225, R248). -/
def State.lineFault (s : State) (a : Nat) (o : LawOut) (k : Nat) : State :=
  let n := (s.loop a).engine.toNat
  let ts := (s.le n).lineFails k s.now
  let s := s.modLe n fun e => { e with lines := e.lines.put k ts }
  if 8 ≤ ts.length ∨ !o.refetchOk then
    let s := s.overrunRun a o o.cycles
    if (s.le n).state = 0 then s.retireLe n 1 else s
  else s.runLoop a o

/-- Has a run ended beyond its budget, 3.70 µs after the predicted end of its wedge's field: it was not started in time, or is stopped (08 R221)?
`o.start` counts from the record's arrival, which a run begun within 3.0 µs of the end leaves no doubt about. -/
def lawBeyond (o : LawOut) : Bool :=
  let x := o.start + o.cycles
  decide (3000 < x ∧ 3700 - min 700 Config.recordNs < x)

/-- ACTUATOR_RUN: a run of an actuator loop; one that its budget does not hold is an overrun (08 R221, R227). -/
def execActuatorRun (a : ActId) (o : LawOut) (s : State) : Host.Outcome State Fault Refusal :=
  .next <| if !(s.runnable a.val) then s
    else if lawBeyond o then s.overrunRun a.val o (min o.cycles 3700)
    else match o.line with
      | some k => s.lineFault a.val o k
      | none => s.runLoop a.val o

/-- A spindle loop's overrun: the run stores nothing, and the third among 64 runs decides a migration (08 R221, R243). -/
def State.spinOverrun (s : State) (b : Nat) : State :=
  let s := s.modSpin b fun p => { p with report := none, tick := false }
  let w := (s.bay b).link.spnOvr <<< 1 ||| 1
  let s := (s.modLink b fun k => { k with spnOvr := w }).trip true b 1 s.now
  if 3 ≤ onesIn w ∧ (s.bay b).link.spnMigTo = none then s.decideSpn b else s

/-- RUN_OVERRUN: a run not started in its budget, or stopped at its end (08 R221, R242). `i` is an actuator, or a bay for a spindle loop. -/
def execRunOverrun (spin : Bool) (i : ActId) (budget : Nat) (s : State) : Host.Outcome State Fault Refusal :=
  .next <| if spin then
      if i.val < 72 ∧ ((s.bay i.val).spin.report.isSome ∨ (s.bay i.val).spin.tick) then s.spinOverrun i.val else s
    else if (s.loop i.val).runDue then s.overrunRun i.val {} budget else s

/-- The record a wedge's slot carries: the new one, or the last with HOLD; a limp result waits for the wedge after its own (08 R226, R246).
-/
def Loop.slotRec (l : Loop) : BitVec 64 × Bool :=
  let early := l.limp && (l.cmdRec.extractLsb' 48 10) == l.runWedge
  let new := l.newRec && !early
  let r := if new then l.cmdRec else l.sent ||| 0x0400000000000000#64
  (if l.emrg then r ||| 0x1000000000000000#64 else r, new)

/-- COMMAND_SLOT_DEPARTURE: 4.00 µs after the field end the command frame departs; on a lost link every frame carries EMRG and HOLD (08
R226; 10 R290, R295). -/
def execCommandSlotDeparture (a : ActId) (s : State) : Host.Outcome State Fault Refusal :=
  let l := s.loop a.val
  let c := (s.act a.val).cwy
  .next <| if c.state = 6 ∧ c.emrg then s.emit (.wedgeCmd a.val (l.sent ||| 0x1400000000000000#64))
    else if c.state ≠ 5 then s
    else
      let (r, new) := l.slotRec
      (s.modLoop a.val fun l => { l with sent := r, newRec := l.newRec && !new }).emit (.wedgeCmd a.val r)

/-! ### Migration, limp and write-inhibit release (08 R235, R245, R247) -/

/-- Is an engine out of service, so that it runs nothing? -/
def State.leDead (s : State) (n : Nat) : Bool := (s.le n).state == 1 || (s.le n).state == 3

/-- An actuator loop's migration is taken: the target has run it (08 R245). -/
def State.takeMig (s : State) (a : Nat) (mirrorOk : Bool) : State :=
  let l := s.loop a
  let src := l.engine.toNat
  let s := s.modLoop a fun l =>
    { l with engine := BitVec.ofNat 5 l.migTo, migPend := false, ovrWin := 0, migrate := l.migrate + 1, limp := false, mirrorOk := mirrorOk,
             st := if mirrorOk then l.mirror else l.st, cmdRec := if mirrorOk then l.mirror.cmd else l.cmdRec }
  let s := ((s.raise (actEvt a 5)).raise (0x720 + src)).placeSpindles
  if mirrorOk then s else s.retract a 1

/-- MIGRATION_TAKEN: at a wedge boundary the target has loaded set and mirror; no retract is running. A mirror that fails its check is lost
position (08 R224, R245). -/
def execMigrationTaken (spin : Bool) (i : ActId) (mirrorOk : Bool) (s : State) : Host.Outcome State Fault Refusal :=
  .next <| if spin then
      match (s.bay i.val).link.spnMigTo with
      | some n =>
        if (s.le n).state ≠ 0 then s
        else
          let src := (s.bay i.val).link.spnEngine.toNat
          let s := s.modLink i.val fun k => { k with spnMigTo := none, spnEngine := BitVec.ofNat 5 n, spnOvr := 0 }
          ((s.raise (0x720 + src)).placeSpindles)
      | none => s
    else
      let l := s.loop i.val
      if l.migPend && (s.le l.migTo).state == 0 && ((l.mode != 5 && l.retractReq.isNone) || s.leDead l.engine.toNat) then s.takeMig i.val mirrorOk
      else s

/-- The engine a limp loop moves to: its own when that has room, else the first of R244 (08 R247). -/
def State.limpTarget (s : State) (a : Nat) : Option Nat :=
  let l := s.loop a
  if s.leFits l.engine.toNat l.weight false then some l.engine.toNat else s.leTarget l.engine.toNat l.weight false

/-- LIMP_EXIT: an engine has gained room, and no media transfer runs on the actuator (08 R247). -/
def execLimpExit (a : ActId) (s : State) : Host.Outcome State Fault Refusal :=
  let l := s.loop a.val
  .next <| if !l.limp || (s.act a.val).fmt.running.isSome || l.mode == 5 then s
    else match s.limpTarget a.val with
      | none => s
      | some n =>
        let src := l.engine.toNat
        let s := s.modLoop a.val fun l =>
          { l with limp := false, engine := BitVec.ofNat 5 n, ovrWin := 0, migPend := false,
                   migrate := if n = src then l.migrate else l.migrate + 1 }
        let s := s.raise (actEvt a.val 5)
        let s := if n = src then s else s.raise (0x720 + src)
        (s.replan a.val).dispatch a.val

/-- WRITE_INHIBIT_RELEASE: outside limp and RETRACT, after 4 valid wedges within WR_ON and WINH_MIN µs since the last raise (08 R235). -/
def execWriteInhibitRelease (a : ActId) (s : State) : Host.Outcome State Fault Refusal :=
  let l := s.loop a.val
  .next <| if l.winh && !l.limp && l.mode != 5 && !l.needFollow && decide (4 ≤ l.winhOk) && decide (l.winhTime + 1000 * s.cfg.winhMin.toNat ≤ s.now)
    then s.modLoop a.val fun l => { l with winh := false } else s

/-! ### Park, EMRG, reload (08 R238, R239) -/

/-- PARK_REPORT: the combo reports the heads parked; where the spindle action that asked for it has been dropped, the heads load again (08
R238, R239; 09 R276). -/
def execParkReport (a : ActId) (s : State) : Host.Outcome State Fault Refusal :=
  let p := (s.bay (bayOf a.val)).spin
  .next <| if (s.loop a.val).mode = 5 ∧ s.linkUp a.val then
      let t := s.parked a.val
      if (s.loop a.val).pendCause = 3 ∧ p.action = none ∧ p.state = 5 ∧ p.pstate = 0 then t.requestLoad a.val else t
    else s

/-- RETRACT_EMRG_TIMEOUT: 100 ms after a retract began without a park report every command carries EMRG (08 R238). -/
def execRetractEmrgTimeout (a : ActId) (s : State) : Host.Outcome State Fault Refusal :=
  let l := s.loop a.val
  .next <| if l.mode = 5 ∧ l.retractAt + 100000000 ≤ s.now then s.modLoop a.val fun l => { l with emrg := true } else s

/-- RELOAD_REQUEST: the Chamois core requests LOAD 1 s after the park, the spindle turning at a gait (08 R239). -/
def execReloadRequest (a : ActId) (s : State) : Host.Outcome State Fault Refusal :=
  let l := s.loop a.val
  let p := (s.bay (bayOf a.val)).spin
  .next <| if l.mode = 0 ∧ 0 < l.reloadAt ∧ l.reloadAt ≤ s.now ∧ p.gait ≠ 0 ∧ p.action = none ∧ s.linkUp a.val then s.requestLoad a.val else s

/-! ### Engines (08 R222, R248, R249) -/

/-- LOOP_ENGINE_SELF_TEST: a known-answer test ends; a failure retires the engine, and one whose island has come out of reset rejoins (08
R248, R249). -/
def execLoopEngineSelfTest (n : Fin 32) (pass : Bool) (s : State) : Host.Outcome State Fault Refusal :=
  let e := s.le n.val
  let i := s.isl (164 + n.val / 4)
  let s' := if pass then s else s.modLe n.val fun e => { e with fails := e.fails + 1 }
  .next <| if e.state = 0 then (if pass then s else s'.retireLe n.val 1)
    else if e.state = 3 ∧ !i.reset then
      if pass then ((s.modLe n.val fun e => { e with state := 0 }).raise (0x720 + n.val)).placeSpindles
      else (s'.modLe n.val fun e => { e with state := 1 }).raise (0x720 + n.val)
    else s

/-- COEFF_SET_LOAD: a set, and with it runout tables, is loaded, or the set is refused when a count passes its statement or the largest cost 480
(08 R222, R229). `ver` is its version. -/
def execCoeffSetLoad (a : ActId) (ver : BitVec 16) (set : CoeffSet) (rro : Option RroSet) (s : State) : Host.Outcome State Fault Refusal :=
  .next <| if setRefused set then s else s.offerSet a.val (some { set with ver := ver }) rro

/-! ### LOOP_CTRL (08 R250, Table 8.7) -/

/-- A LOOP_CTRL response, with the figures of an engine. -/
def State.loopReply (s : State) (k reason n : Nat) : State :=
  let e := s.le n
  s.respond k (leBytes 1 reason ++ leBytes 1 e.state ++ leBytes 1 (s.loopsOn n).length ++ leBytes 1 (s.spinsOn n).length ++ leBytes 2 (s.leLoad n)
    ++ leBytes 2 e.fails.toNat)

/-- Fields of a LOOP_CTRL request: TARGET below its limit, DEST an engine or 0xFF for a migration, else 0, reserved bytes 0. -/
def loopFields (p : List Byte) (lim : Nat) (mig : Bool) : Bool :=
  reservedZero p [(0, 3)] && decide (byteAt p 1 < lim) && (if mig then decide (byteAt p 2 < 32 ∨ byteAt p 2 = 0xFF) else byteAt p 2 == 0)

/-- Destination a migration message names, or R244's choice. -/
def State.destOf (s : State) (p : List Byte) (own w : Nat) (spin : Bool) : Option Nat :=
  if byteAt p 2 = 0xFF then s.leTarget own w spin else if s.leFits (byteAt p 2) w spin then some (byteAt p 2) else none

/-- LOOP_MIGRATE_ACTUATOR (08 R243, R250). -/
def execLoopMigrateActuator (r : Requester) (s : State) : Host.Outcome State Fault Refusal :=
  .next <| s.serve r 0x0810 (some 1) fun p =>
    let k := mbxOf r
    let a := byteAt p 1
    let l := s.loop a
    if !s.fromSteward r then s.loopReply k 7 0
    else if !(loopFields p 144 true) then s.loopReply k 1 0
    else match s.destOf p l.engine.toNat l.weight false with
      | none => s.loopReply k 2 l.engine.toNat
      | some n =>
        let s := (s.modLoop a fun l => { l with migPend := true, migTo := n }).tripAct a 7
        s.modMbx k fun m => { m with owed := some (.migrate false a n) }

/-- LOOP_MIGRATE_SPINDLE (08 R243, R250). -/
def execLoopMigrateSpindle (r : Requester) (s : State) : Host.Outcome State Fault Refusal :=
  .next <| s.serve r 0x0810 (some 2) fun p =>
    let k := mbxOf r
    let b := byteAt p 1
    let e := (s.bay b).link.spnEngine.toNat
    if !s.fromSteward r then s.loopReply k 7 0
    else if !(loopFields p 72 true) then s.loopReply k 1 0
    else match s.destOf p e 60 true with
      | none => s.loopReply k 2 e
      | some n =>
        let s := (s.modLink b fun x => { x with spnMigTo := some n, spnNoEngine := false }).trip true b 7 s.now
        s.modMbx k fun m => { m with owed := some (.migrate true b n) }

/-- Would retiring an engine leave a loop in limp or without an engine (08 R250)? -/
def State.retireStrands (s : State) (n : Nat) : Bool :=
  let t := s.retireLe n 2
  !(s.limpOn n).isEmpty || (List.range 144).any (fun a => ((t.loop a).limp && !(s.loop a).limp) || ((t.loop a).noEngine && !(s.loop a).noEngine))
    || (List.range 72).any fun b => (t.bay b).link.spnNoEngine && !(s.bay b).link.spnNoEngine

/-- LOOP_RETIRE_ENGINE: the engine is retired and its loops move; the response waits for the last (08 R250). -/
def execLoopRetireEngine (r : Requester) (s : State) : Host.Outcome State Fault Refusal :=
  .next <| s.serve r 0x0810 (some 3) fun p =>
    let k := mbxOf r
    let n := byteAt p 1
    if !s.fromSteward r then s.loopReply k 7 0
    else if !(loopFields p 32 false) then s.loopReply k 1 0
    else if (s.le n).state ≠ 0 then s.loopReply k 0 n
    else if s.retireStrands n then s.loopReply k 3 n
    else (s.retireLe n 2).modMbx k fun m => { m with owed := some (.leRetire n) }

/-- LOOP_RETEST_ENGINE: 16 known-answer tests start; the response waits for their outcome (08 R248, R250). -/
def execLoopRetestEngine (r : Requester) (s : State) : Host.Outcome State Fault Refusal :=
  .next <| s.serve r 0x0810 (some 4) fun p =>
    let k := mbxOf r
    let n := byteAt p 1
    if !s.fromSteward r then s.loopReply k 7 0
    else if !(loopFields p 32 false) then s.loopReply k 1 0
    else if 3 ≤ (s.le n).fails.toNat then s.loopReply k 4 n
    else if (s.le n).state = 0 then s.loopReply k 0 n
    else s.modMbx k fun m => { m with owed := some (.leRetest n) }

/-- The retest of an engine has ended: a pass returns it, a failure leaves it retired (08 R248, R250). -/
def State.endLeRetest (s : State) (k n : Nat) (pass : Bool) : State :=
  if pass ∧ (s.le n).state ≠ 3 then (((s.modLe n fun e => { e with state := 0 }).raise (0x720 + n)).placeSpindles).loopReply k 0 n
  else ((s.modLe n fun e => { e with fails := if pass then e.fails else e.fails + 1 })).loopReply k 5 n

/-- LOOP_RELOAD_ACTUATOR (08 R239, R250). -/
def execLoopReloadActuator (r : Requester) (s : State) : Host.Outcome State Fault Refusal :=
  .next <| s.serve r 0x0810 (some 5) fun p =>
    let k := mbxOf r
    let a := byteAt p 1
    if !s.fromSteward r then s.loopReply k 7 0
    else if !(loopFields p 144 false) then s.loopReply k 1 0
    else if (s.loop a).mode ≠ 0 then s.loopReply k 6 (s.loop a).engine.toNat
    else (s.requestLoad a).loopReply k 0 (s.loop a).engine.toNat

/-- LOOP_ENGINE_STATUS (08 R250). -/
def execLoopEngineStatus (r : Requester) (s : State) : Host.Outcome State Fault Refusal :=
  .next <| s.serve r 0x0810 (some 6) fun p =>
    let k := mbxOf r
    if !s.seesAll r then s.loopReply k 7 0
    else if !(loopFields p 32 false) then s.loopReply k 1 0
    else s.loopReply k 0 (byteAt p 1)

/-! ### DIAG_TRC_CTRL (08 R251, Table 8.18) -/

/-- A write to DIAG_TRC_CTRL[n]: its fields are kept, ARM 0 to 1 starts a capture, ARM 0 ends one, FORCE triggers (08 R251). -/
def Trc.write (t : Trc) (val : Word) (now : Nat) : Trc :=
  let arm := val.getLsbD 31
  let t := { t with ctrl := val &&& 0x3FFF03FF#32 }
  let t := if arm && !t.armed then { t with armed := true, done := false, data := [], pos := [], runs := 0, trigAt := none, left := none } else t
  let t := if arm then t else { t with armed := false, left := none }
  if val.getLsbD 30 then t.trigger now else t

/-- A write to a DIAG register: only the steward's, while the DIAG window is open (04 Table 4.5). -/
def State.diagWrite (s : State) (f : Nat) (k : State → State) : State :=
  s.bar0 f true fun s => if s.isSteward f && s.diagOpen then k s else s.refuseAny f 2 true

/-- TRACE_ARM (08 R251). -/
def execTraceArm (f : FnId) (n : Fin 32) (val : Word) (s : State) : Host.Outcome State Fault Refusal :=
  .next (s.diagWrite f.val fun s => s.modTrc n.val fun t => t.write (val ||| 0x80000000#32) s.now)

/-- TRACE_FORCE (08 R251). -/
def execTraceForce (f : FnId) (n : Fin 32) (val : Word) (s : State) : Host.Outcome State Fault Refusal :=
  .next (s.diagWrite f.val fun s => s.modTrc n.val fun t => t.write (val ||| 0x40000000#32) s.now)

end Sys2Proof.Machine
end

