-- ==== Sys2Proof/Machine/SpinOps.lean ====
section
/-! DEFINITION. What spindles and power do for other units: projections and ceilings, spin-ups, observer loss, LOCKED, stops (09). -/
namespace Sys2Proof.Machine

open Sys2Proof

/-- Change the power cap and projection. -/
def State.modPwr (s : State) (g : Pwr → Pwr) : State := { s with pwr := g s.pwr }

/-! ### Ceilings and the projection (01 R25, 09 R262, R263) -/

/-- A bay's ceiling may have moved: a ceiling below the running gait plans a lowering, and one back at it takes the lowering out (01 R25). -/
def State.ceilingMoved (s : State) (b : Nat) : State :=
  let p := (s.bay b).spin
  let t := if p.lowerTo.isSome ∧ p.target < p.gait then p.target.toNat else p.gait.toNat
  s.planLower b (min (s.ceil b) t)

/-- Event 0x761 and the lowerings of the bays whose gait ceiling differs from the one of state `old` (09 Table 9.15). -/
def State.ceilingsFrom (s old : State) : State :=
  let bs := (List.range 72).filter fun b => s.ceil b != old.ceil b
  let s := if bs.isEmpty then s else s.raise 0x761
  s.each bs State.ceilingMoved

/-- Project shelf power and recompute the power ceilings (09 R262, R263). -/
def State.reproject (s : State) : State :=
  let c := s.powerCeils
  let t := s.modPwr fun p => { p with projW := BitVec.ofNat 16 (s.powerMw / 1000), capW := BitVec.ofNat 16 (s.capMw / 1000) }
  let t := t.each (List.range 72) fun t b => if (t.bay b).spin.ceilPwr.toNat = ceilOf c b then t
    else t.modSpin b fun p => { p with ceilPwr := BitVec.ofNat 2 (ceilOf c b) }
  t.ceilingsFrom s

/-! ### LOCKED (09 R258, R259) -/

/-- The lower of MIN_GAIT and a bay's ceiling (09 R277, 10 R301). -/
def State.startGait (s : State) (b : Nat) : Nat := s.minGait (s.ceil b)

/-- The power state an entry leads to is reached (09 R275). -/
def State.reachIdle (s : State) (b : Nat) : State :=
  let p := (s.bay b).spin
  if p.pstate = 3 ∧ p.pwant = 1 ∧ p.gait.toNat = s.startGait b ∧ !p.moving then
    (s.modSpin b fun p => { p with pstate := 1 }).raise (bayEvt b 2)
  else s

/-- Calibrations due at the gait a bay now runs are queued (12 R349). -/
def State.calAtGait (s : State) (b : Nat) : State :=
  let g := (s.bay b).spin.gait.toNat
  s.each [2 * b, 2 * b + 1] fun s a => s.modGraze a fun x =>
    { x with calWait := x.calWait.filter fun c => c.2.2 != g,
             pending := x.pending ++ ((x.calWait.filter fun c => c.2.2 == g).map fun c => { order := 9, kind := c.1, head := c.2.1, count := 1, isRead := c.1 != 3 }) }

/-- The spindle is LOCKED: a spin-up releases its token and LOADs are requested, a transition ends, and after a recovery work resumes (09
Table 9.3, R258, R259). -/
def State.locked (s : State) (b : Nat) : State :=
  let p := (s.bay b).spin
  let s := if p.moving then s.gaitHours b else s
  let s := s.modSpin b fun p => { p with state := 5, observer := true }
  let s :=
    if p.spinUp then
      let s := (s.modSpin b fun p => { p with gait := p.goal, spinUp := false, token := false, fails := 0 }).calAtGait b
      let up (a : Nat) : Bool := s.linkUp a && !s.bayEmerg b
      let s := s.each [2 * b, 2 * b + 1] fun s a => if up a then s.requestLoad a else s
      let s := if (s.bay b).link.step = 2 then s.modLink b fun k => { k with step := 3 } else s
      s.loadsDone b
    else if p.moving ∧ p.goal ≠ p.gait then
      let s := (s.modSpin b fun p => { p with gait := p.goal, token := false, gaitchg := p.gaitchg + 1 }).calAtGait b
      (s.raise (bayEvt b 2)).endPause b
    else if p.moving then s.loadsDone b
    else (s.dispatch (2 * b)).dispatch (2 * b + 1)
  (s.reachIdle b).reproject

/-- Running write routines of a bay's formatters end at their next waymarks (09 R258). -/
def State.endWrites (s : State) (b : Nat) : State :=
  let stop (q : Routine) : Routine := if writes q.req.opc then { q with endAt := true } else q
  s.each [2 * b, 2 * b + 1] fun s a => s.modFmt a fun f => { f with running := f.running.map stop }

/-! ### Spin-up (09 R257, Table 9.3) -/

/-- ALIGN begins: step 0 at the calibrated align current (09 Table 9.3). -/
def State.beginAlign (s : State) (b : Nat) : State :=
  let s := s.modSpin b fun p =>
    { p with state := 1, alignAt := s.now, openAt := 0, crossings := 0, missed := 0, interval := 0, closed := 0, integ := 0, observer := false, spinUp := true, moving := true,
             raising := true, retrySpin := false, windowHit := false, revSteps := 0, inBand := 0, stopAt := 0, brakeTo := false }
  let s := s.modLink b fun k => { k with starts := k.starts + 1 }
  let s := s.wearAt b (s.bay b).link.budStarts (s.bay b).link.starts
  (s.sendSpin b 5 s.now 0 (s.bay b).spin.cal.alignMa).raise (bayEvt b 2)

/-- The spin-up under a token: from rest by ALIGN; a spindle found turning is caught by a relock at 1,200 rpm or more, else braked first; one
that holds speed out of a cancelled Standby entry accelerates (09 Table 9.3, R270, R276). -/
def State.beginSpin (s : State) (b : Nat) : State :=
  let p := (s.bay b).spin
  let turning := decide (s.now < p.lastCross + 100000000) && decide (0 < p.rpm.toNat)
  if p.state = 4 ∨ p.state = 7 then
    s.modSpin b fun p => { p with state := 4, raising := true, spinUp := true, moving := true, alignAt := s.now }
  else if p.state = 0 ∨ !turning then s.beginAlign b
  else if 1200 ≤ p.rpm.toNat then
    s.modSpin b fun p => { p with state := 6, relocking := true, relock := 0, ticked := s.now, captures := [], spinUp := true, moving := true, raising := true,
                                  alignAt := s.now, linkBack := false }
  else (s.modSpin b fun p => { p with retrySpin := true }).startBrake b true

/-- A spin-up fails: it brakes to a stop and is tried again; the third in a row fails a bring-up attempt, or takes the bay's actuators out of
service (09 R257). -/
def State.spinFailed (s : State) (b : Nat) : State :=
  let n := (s.bay b).spin.fails + 1
  let s := s.modSpin b fun p => { p with spinfail := p.spinfail + 1, fails := n, token := false, retrySpin := decide (n < 3), spinUp := false }
  let s := (s.raise (bayEvt b 2)).startBrake b true
  if n < 3 then s
  else if (s.bay b).link.step = 2 then s.failBringUp b 3
  else
    let s := s.modSpin b fun p => { p with stoppedFor := true }
    (s.serviceLost (2 * b) none).serviceLost (2 * b + 1) none

/-! ### Observer loss (09 R266, R267) -/

/-- One electrical period at a speed in ns: 4 pole pairs (09 Table 9.4). -/
def elecNs (rpm : Nat) : Nat := 15000000000 / max 1 rpm

/-- The flying floor of a gait: 60 % of its speed (09 Table 9.4). -/
def flyFloor (g : Nat) : Nat := gaitRpm g * 6 / 10

/-- All phases float for one electrical period (09 R267). -/
def State.startFloat (s : State) (b : Nat) : State :=
  (s.modSpin b fun p => { p with state := 6, relocking := false, ticked := s.now, action := none }).sendSpin b 1 s.now 0 0

/-- Observer loss: writes stop, both actuators are re-planned without writing for the worst-case recovery time, and recovery begins, behind
a retract when the predicted speed is below the flying floor (09 R266, R267). -/
def State.observerLost (s : State) (b : Nat) : State :=
  let p := (s.bay b).spin
  let t := 3 * elecNs p.rpm.toNat + 1000000
  let s := s.modSpin b fun p => { p with state := 6, obsloss := p.obsloss + 1, relock := 0, observer := false, inBand := 0, missed := 0 }
  let s := (s.raise (bayEvt b 2)).endWrites b
  let s := s.each [2 * b, 2 * b + 1] fun s a => (s.modAdm a fun x => { x with writeBlock := s.now + t }).capacityLoss a
  let drop := max p.coastDec p.cal.coastDec * t / 1000000000
  if p.rpm.toNat < flyFloor p.gait.toNat + drop ∧ p.gait ≠ 0 then s.wantAction b .recover else s.startFloat b

/-! ### Stops (09 R270) -/

/-- What a stopped spindle's bay does next: a spin-up is retried, a Standby entry is done, a quarantined or prepared bay's links go off; an
actuator out of service only for the stop may be woken by an exit (09 R257, R270, R275; 10 R303; 16 R421). -/
def State.atRest (s : State) (b : Nat) : State :=
  let p := (s.bay b).spin
  let k := (s.bay b).link
  let s := (s.gaitHours b).modSpin b fun p =>
    { p with state := 0, gait := 0, rpm := 0, moving := p.retrySpin, goal := if p.retrySpin then p.goal else 0, brakeTo := false, stopAt := 0,
             standbyRet := false, observer := false, crossings := 0, inBand := 0, lowerTo := none }
  let s := if p.retrySpin then
      (if p.token then s.beginAlign b
       else (s.modSpin b fun p => { p with retrySpin := false, goal := if p.goal = 0 then BitVec.ofNat 2 (s.startGait b) else p.goal }).askToken b 3)
    else s
  let s := if p.pstate = 3 ∧ p.pwant = 2 then
      let s := (s.modSpin b fun p => { p with pstate := 2 }).raise (bayEvt b 2)
      if k.prep then ((s.modLink b fun k => { k with off := true, prep := true }).linksOff b).raise (bayEvt b 3) else s
    else s
  let s := if k.quar ≠ 0 then s.linksOff b else s
  let stays := p.stoppedFor || s.bayEmerg b || k.quar != 0 || p.retrySpin
  let s := if stays then s else s.each [2 * b, 2 * b + 1] fun s a =>
    if s.linkUp a then s.modAdm a fun x => { x with offline := false } else s
  s.reproject

end Sys2Proof.Machine
end

