-- ==== Sys2Proof/Machine/Spindle.lean ====
section
/-! DEFINITION. Spindles, gaits, power and power states (09). -/
namespace Sys2Proof.Machine

open Sys2Proof

/-- The spindle of bay `b`. -/
def State.spin (s : State) (b : Nat) : Spin := (s.bay b).spin

/-- A link of a domain at fault waits in DETECT, lane D in electrical idle (09 R271). -/
def State.linkDetect (s : State) (a : Nat) : State :=
  s.modCwy a fun c =>
    if c.state = 0 ∨ c.state = 7 then c
    else { c with state := 1, dOk := false, u0Ok := false, u1Ok := false, emrg := false, spn := false, single := false, rdr := false, retryAt := 0 }

/-- The spindle of a bay whose domain is at fault coasts, and the bay's links wait in DETECT (01 R21, 09 R271). -/
def State.faultCoast (s : State) (b : Nat) : State :=
  let s := (s.gaitHours b).modSpin b fun p => { p with state := 10, gait := 0, action := none, observer := false }
  ((s.sendSpin b 4 s.now 0 0).raise (bayEvt b 2)).each [2 * b, 2 * b + 1] State.linkDetect

/-! ### Actions that wait for both parks (01 R21) -/

/-- SPINDLE_ACTION_START: both actuators are parked, and the action that waited proceeds (01 R21; 08 R241; 09 R267, R268, R274). -/
def execSpindleActionStart (b : BayId) (s : State) : Host.Outcome State Fault Refusal :=
  let both := (s.loop (2 * b.val)).mode == 0 && (s.loop (2 * b.val + 1)).mode == 0
  .next <| match (s.spin b.val).action with
  | none => s
  | some x =>
    if !both then s
    else match x with
      | .recover => s.startFloat b.val
      | .lost => s.startBrake b.val true
      | .coast => s.faultCoast b.val
      | .brake => s.startBrake b.val false
      | .standby => s.startBrake b.val false
      | .thermal => s.startBrake b.val false

/-! ### Reports, ticks and runs (09 R254 to R258) -/

/-- A zero-crossing report (09 Table 9.2). -/
structure ZcRep where
  /-- TIME, device time bits 31:0 -/
  time : Nat
  /-- IPH in mA -/
  iph : Int
  /-- STEP -/
  step : Nat
  /-- VALID -/
  valid : Bool
  /-- SEQ -/
  seq : BitVec 8
  deriving DecidableEq, Repr

/-- The fields of a zero-crossing report. -/
def ZcRep.of (r : BitVec 64) : ZcRep :=
  { time := (r.extractLsb' 32 32).toNat, iph := sInt 12 (r.extractLsb' 16 12).toNat, step := (r.extractLsb' 13 3).toNat,
    valid := r.getLsbD 8, seq := r.extractLsb' 0 8 }

/-- The measured phase current enters its 10 ms window; at the window's end its mean times the bus voltage is the spindle's power (15 R408).
-/
def Spin.measure (p : Spin) (now busv : Nat) (iph : Int) : Spin :=
  if p.iphAt + 10000000 ≤ now ∧ 0 < p.iphN then
    { p with measMw := (p.iphSum * busv / (100 * p.iphN)).toNat, iphSum := iph, iphN := 1, iphAt := now }
  else { p with iphSum := p.iphSum + iph, iphN := p.iphN + 1 }

/-- How far after a device time a report's TIME lies, in ns: both are bits 31:0. -/
def after32 (t from' : Nat) : Int := sInt 32 ((t + 2 ^ 32 - from' % 2 ^ 32) % 2 ^ 32)

/-- Error of a crossing in ns: its TIME less the predicted time of its step (09 R256). -/
def Spin.crossErr (p : Spin) (r : ZcRep) : Int := after32 r.time (p.predAt + (r.step + 6 - p.predStep % 6) % 6 * p.interval)

/-- Is an error of a crossing beyond `deg` electrical degrees, 60 of which take the interval? -/
def Spin.beyond (p : Spin) (e : Int) (deg : Nat) : Bool := decide (p.interval * deg < e.natAbs * 60)

/-- The first copy of a zero-crossing report creates a run; a phase error over 30° declares observer loss, and in a relock attempt the crossing is
captured (09 R255, R256, R266, R267). -/
def State.zeroCross (s : State) (b : Nat) (rep : BitVec 64) : State :=
  let r := ZcRep.of rep
  let p := s.spin b
  let e := p.crossErr r
  if p.repSeq = some r.seq ∨ !s.bayUp b then s
  else
    let v := (s.dom (domOf b)).busv.toNat
    let s := s.modSpin b fun p => p.measure s.now v r.iph
    let s := s.modSpin b fun p =>
      { p with report := some rep, repSeq := some r.seq, lastCross := if r.valid then s.now else p.lastCross,
               windowHit := p.windowHit || (r.valid && !(p.beyond e 20)),
               captures := if r.valid && p.relocking then p.captures ++ [(r.time, r.step)] else p.captures,
               pherr := if p.observer && r.valid then BitVec.ofNat 8 (ofInt 8 (e * 60 / max 1 (p.interval : Int))) else p.pherr }
    if p.observer && r.valid && p.beyond e 30 && p.state != 6 then s.observerLost b else s

/-- ZERO_CROSSING_REPORT: a report reaches the engine (09 R255). -/
def execZeroCrossingReport (b : BayId) (time fields : BitVec 32) (s : State) : Host.Outcome State Fault Refusal :=
  .next (s.zeroCross b.val (time ++ fields))

/-- Time from the start of OPEN to commutation `n`: 400 rpm/s is 9,600 electrical degrees a second squared, and a step is 60 (09 Table 9.3). -/
def openNs (n : Nat) : Nat := Nat.sqrt (n * 10 ^ 18 / 80)

/-- COMMUTATION_TICK: in ALIGN and OPEN the side-A CFE sends a tick at each commanded TCOMM (09 R255). -/
def execCommutationTick (b : BayId) (s : State) : Host.Outcome State Fault Refusal :=
  let p := s.spin b.val
  .next <| if p.state = 1 ∨ (p.state = 2 ∧ p.openAt + openNs p.openN ≤ s.now) then s.modSpin b.val fun p => { p with tick := true } else s

/-- MODE of a spindle record by spindle state (09 Table 9.1, R268, R269). -/
def State.spinMode (s : State) (b : Nat) : Nat :=
  let p := s.spin b
  let d := s.dom (domOf b)
  if p.state = 1 then 5 else if p.state = 6 then 1 else if p.state = 7 then (if d.coast then 4 else if d.regenOff then 1 else 2)
  else if p.state = 8 then 2 else if p.state = 9 then 3 else if p.state = 10 ∨ p.state = 0 then 4 else 0

/-- A number as a float, when it is exact in 24 bits; else free. -/
def f32Int (free : Word) (v : Int) : Word :=
  if v = 0 then 0
  else if 2 ^ 24 ≤ v.natAbs ∧ v.natAbs % 2 ^ (Nat.log2 v.natAbs - 23) ≠ 0 then free
  else reg32 (f32Mag v.natAbs 0 + if v < 0 then 2 ^ 31 else 0)

/-- Value of a node of a spindle loop (09 Table 9.16). -/
def State.spinNode (s : State) (b : Nat) (r : ZcRep) (c node _idx : Nat) : Word :=
  let p := s.spin b
  let free := (Config.freeValue (s.fresh + c)).truncate 32
  match node with
  | 0x40 => reg32 r.time
  | 0x41 => reg32 p.interval
  | 0x42 => f32Int free (sInt 8 p.pherr.toNat)
  | 0x43 => f32Int free p.rpm.toNat
  | 0x44 => f32Int free (p.tgtMil / 1000 : Nat)
  | 0x45 => reg32 (bits p.record.toNat 8 12)
  | 0x46 => reg32 (bits p.record.toNat 32 32)
  | 0x47 => reg32 (at_ 4 p.state.toNat + bits p.record.toNat 26 3)
  | 0x48 => reg32 ((s.dom (domOf b)).busv.toNat * 10)
  | 0x49 => reg32 (ofInt 32 r.iph)
  | _ => 0

/-- Is `v`, a revolution's duration over `n` steps, within `m` ten-thousandths of a gait's speed? 24 steps make a revolution (09 R258). -/
def nearSpeed (rpm n v m : Nat) : Bool :=
  let x := 60000000000 * n
  let y := rpm * v * 24
  decide (((x : Int) - y).natAbs * 10000 ≤ y * m)

/-- A revolution of the spindle has ended: 8 in a row within 0.1 % of the speed make it LOCKED, one beyond 0.2 % unlocks it (09 R258). -/
def State.revolution (s : State) (b n t : Nat) : State :=
  let p := s.spin b
  let g := if p.moving then p.goal.toNat else p.gait.toNat
  let s := s.modLink b fun k => { k with revs := k.revs + 1 }
  let s := s.wearAt b (s.bay b).link.budRevs (s.bay b).link.revs
  if !(p.state == 4 || p.state == 5 || p.state == 7) || g = 0 then s
  else if nearSpeed (gaitRpm g) n t 10 then
    let s := s.modSpin b fun p => { p with inBand := p.inBand + 1 }
    if p.state ≠ 5 ∧ 8 ≤ p.inBand + 1 then s.locked b else s
  else
    let s := s.modSpin b fun p => { p with inBand := 0 }
    if p.state = 5 ∧ nearSpeed (gaitRpm g) n t 20 = false then (s.modSpin b fun p => { p with state := 4 }).endWrites b else s

/-- What a qualified crossing makes of the speed estimate, the next crossing's prediction and the phases: in direct mode by the last interval, in observer
mode by the motor model (09 R256, Table 9.3). -/
def Spin.crossing (p : Spin) (r : ZcRep) : Spin :=
  let iv := (r.time + 2 ^ 32 - p.crossAt % 2 ^ 32) % 2 ^ 32
  let iv := if p.crossings = 0 then p.interval else iv
  let (w, fix) : Nat × Int := if p.observer then Config.observe p.cal.motor p.interval (p.crossErr r) r.iph else (iv, 0)
  let rpm := if w = 0 then p.rpm else BitVec.ofNat 16 (2500000000 / w)
  let rising := p.state == 3 || p.state == 4
  let obs := if p.observer then !(decide (rpm.toNat < 1000) && !rising) else rising && decide (1200 ≤ rpm.toNat)
  let st := if p.state = 2 ∧ 8 ≤ p.crossings + 1 then 3 else if p.state = 3 ∧ obs then 4 else p.state
  { p with crossings := p.crossings + 1, crossAt := r.time, interval := w, rpm := rpm, observer := obs, state := st,
           predAt := ((r.time : Int) + fix + w).toNat % 2 ^ 32, predStep := (r.step + 1) % 6, closed := 0, windowHit := false,
           missed := if p.windowHit then 0 else p.missed }

/-- Ramp rate of the speed target in rpm/s: of a spin-up, or of a gait transition (09 R257, R259, R276). -/
def Spin.rampRate (p : Spin) : Nat := if p.spinUp then 400 else 1200

/-- Speed target of a run, in 1/1,000 rpm: the gait's speed, or on its way to the goal's at the ramp rate; without an observer the speed itself (09
R258). -/
def Spin.targetMil (p : Spin) (now : Nat) : Nat :=
  let goal := 1000 * gaitRpm p.goal.toNat
  let d := p.rampRate * (now - p.tgtAt) / 1000000
  if !p.moving then 1000 * gaitRpm p.gait.toNat
  else if !p.observer then 1000 * p.rpm.toNat
  else if p.tgtMil ≤ goal then min goal (p.tgtMil + d) else max goal (p.tgtMil - d)

/-- The speed loop of a run: target, integral, and the phase current in mA (09 R258). -/
def Spin.speedLoop (p : Spin) (now : Nat) : Spin × Nat :=
  let t := p.targetMil now
  let acc : Int := if t = p.tgtMil ∨ !p.moving then 0 else if p.tgtMil < t then p.rampRate else -p.rampRate
  let (ma, z) := Config.speedLaw p.cal.gains p.integ ((t : Int) - 1000 * p.rpm.toNat) acc
  ({ p with tgtMil := t, tgtAt := now, integ := z }, ma)

/-- TCOMM of the commutation after a crossing: (30° - advance) / ω later (09 R256). -/
def Spin.commAt (p : Spin) (time : Nat) (iph : Int) : Nat := time + p.interval * (300 - (Config.advance p.cal.adv p.rpm.toNat iph).val) / 600

/-- One run of a spindle loop for a zero-crossing report (09 R255, R256, R258). -/
def State.spinReport (s : State) (b : Nat) (rep : BitVec 64) : State :=
  let r := ZcRep.of rep
  let s := s.modSpin b fun p => { (if r.valid then p.crossing r else { p with crossings := 0 }) with report := none }
  let p := s.spin b
  let s := if !r.valid then s
    else if p.revSteps + 1 < 24 then s.modSpin b fun p => { p with revSteps := p.revSteps + 1, revAt := if p.revSteps = 0 then r.time else p.revAt }
    else
      let t := (r.time + 2 ^ 32 - p.revAt % 2 ^ 32) % 2 ^ 32
      (s.modSpin b fun p => { p with revSteps := 1, revAt := r.time }).revolution b p.revSteps t
  let (p, ma) := (s.spin b).speedLoop s.now
  let s := s.modSpin b fun _ => p
  let s := s.sendSpin b (s.spinMode b) (p.commAt r.time r.iph) ((r.step + 1) % 6) ma
  (s.sampleTrc (s.bay b).link.spnEngine.toNat true b (s.spinNode b r)).countTrc true b

/-- One run of a spindle loop for a tick of ALIGN or OPEN: in ALIGN step 0 is held, in OPEN the schedule's next commutation is placed (09 R255, R257).
-/
def State.spinTick (s : State) (b : Nat) : State :=
  let s := s.modSpin b fun p => { p with tick := false, openN := if p.state = 2 then p.openN + 1 else 0, tgtAt := s.now }
  let p := s.spin b
  let s := if p.state = 1 then s.sendSpin b 5 s.now 0 p.cal.alignMa
    else s.sendSpin b (s.spinMode b) (p.openAt + openNs p.openN) (p.openN % 6) Config.openMa
  (s.sampleTrc (s.bay b).link.spnEngine.toNat true b (s.spinNode b { time := 0, iph := 0, step := 0, valid := false, seq := 0 })).countTrc true b

/-- SPINDLE_RUN: a spindle loop's run for the report or the tick that waits, on the engine that carries it (09 R255, R258). -/
def execSpindleRun (b : BayId) (cause : SpinCause) (s : State) : Host.Outcome State Fault Refusal :=
  let k := (s.bay b.val).link
  .next <| if k.spnNoEngine || s.leDead k.spnEngine.toNat then s
    else
      let s := s.modLink b.val fun k => { k with spnOvr := k.spnOvr <<< 1 }
      match cause, (s.spin b.val).report with
      | .crossing, some rep => s.spinReport b.val rep
      | .crossing, none => s
      | .tick, _ => if (s.spin b.val).tick then s.spinTick b.val else s

/-! ### Timers of a spin-up and a recovery (09 R257, R266, R267) -/

/-- SPIN_UP_PHASE_TIMER: ALIGN passes to OPEN after 0.2 s; no crossing in 1.0 s of OPEN, 1,200 rpm not reached in 5.0 s, or the gait not in its
time plus 2.0 s, is a failed spin-up (09 R257, Table 9.3). -/
def execSpinUpPhaseTimer (b : BayId) (s : State) : Host.Outcome State Fault Refusal :=
  let p := s.spin b.val
  .next <| if !p.spinUp ∨ p.state = 0 ∨ p.state = 9 then s
    else if p.state = 1 then
      (if p.alignAt + 200000000 ≤ s.now then s.modSpin b.val fun p => { p with state := 2, openAt := s.now, openN := 0, tick := true } else s)
    else if p.state = 2 ∧ p.crossings = 0 ∧ p.openAt + 1000000000 ≤ s.now then s.spinFailed b.val
    else if (p.state = 2 ∨ p.state = 3) ∧ p.alignAt + 5000000000 ≤ s.now then s.spinFailed b.val
    else if p.alignAt + standbyExitNs p.goal.toNat + 2000000000 ≤ s.now then s.spinFailed b.val
    else s

/-- OBSERVER_WINDOW_CLOSE: the expected window of the next crossing, 20° each side of its prediction, closes; the second empty one in a row is
observer loss, and in direct mode ends the spin-up or stop as failed (09 R256, R266, R267). -/
def execObserverWindowClose (b : BayId) (s : State) : Host.Outcome State Fault Refusal :=
  let p := s.spin b.val
  let n := if p.windowHit then 0 else p.missed + 1
  let t := s.modSpin b.val fun p =>
    { p with windowHit := false, missed := n, closed := p.closed + 1, revSteps := if p.windowHit ∨ p.revSteps = 0 then p.revSteps else p.revSteps + 1 }
  .next <| if p.state = 6 ∨ p.interval = 0 ∨ after32 s.now (p.predAt + p.closed * p.interval) < (p.interval / 3 : Nat) then s
    else if n < 2 then t
    else if p.observer then t.observerLost b.val
    else if p.spinUp ∧ (p.state = 3 ∨ p.state = 4) then t.spinFailed b.val
    else t

/-- FLOAT_PERIOD_END: the float of one electrical period ends and a relock attempt starts (09 R267). -/
def execFloatPeriodEnd (b : BayId) (s : State) : Host.Outcome State Fault Refusal :=
  let p := s.spin b.val
  .next <| if p.state = 6 ∧ !p.relocking ∧ p.action = none ∧ p.ticked + elecNs p.rpm.toNat ≤ s.now then
      s.modSpin b.val fun p => { p with relocking := true, ticked := s.now, captures := [] }
    else s

/-- Do four consecutive crossings agree within 5° electrical with a constant speed: the first and the last fix the line, the two between lie by it (09
R267)? -/
def fits : List (Nat × Nat) → Bool
  | [(t0, _), (t1, _), (t2, _), (t3, _)] =>
    let d := after32 t3 t0
    let off (t : Nat) (i : Int) : Nat := (3 * after32 t t0 - i * d).natAbs
    decide (0 < d) && decide (60 * off t1 1 ≤ 5 * d.natAbs ∧ 60 * off t2 2 ≤ 5 * d.natAbs)
  | _ => false

/-- The first four consecutive crossings captured that agree (09 R267). -/
def relockFit : List (Nat × Nat) → Option (List (Nat × Nat))
  | [] => none
  | c :: cs => if fits ((c :: cs).take 4) then some ((c :: cs).take 4) else relockFit cs

/-- A relock attempt succeeded: the observer takes the fit of four crossings, drive resumes at the next commutation instant, and both actuators are
re-planned; after the loss of both links the spindle resumes only within the flying floor (09 R267, R273). -/
def State.relocked (s : State) (b : Nat) (cs : List (Nat × Nat)) : State :=
  let p := s.spin b
  let (t0, _) := cs.headD (0, 0)
  let (t3, k) := cs.getLastD (0, 0)
  let w := (after32 t3 t0).natAbs / 3
  let rpm := BitVec.ofNat 16 (2500000000 / max 1 w)
  let s := s.modSpin b fun p =>
    { p with observer := true, relocking := false, relock := 0, rpm := rpm, state := 4, inBand := 0, missed := 0, linkBack := false, interval := w, crossAt := t3,
             predAt := (t3 + w) % 2 ^ 32, predStep := (k + 1) % 6, closed := 0, captures := [], tgtMil := 1000 * rpm.toNat, tgtAt := s.now }
  if p.linkBack ∧ rpm.toNat < flyFloor p.gait.toNat then s.wantAction b .lost
  else
    let (q, ma) := (s.spin b).speedLoop s.now
    let s := (s.modSpin b fun _ => q).sendSpin b (s.spinMode b) (q.commAt t3 0) ((k + 1) % 6) ma
    ((s.raise (bayEvt b 2)).replan (2 * b)).replan (2 * b + 1)

/-- RELOCK_ATTEMPT_END: four crossings that agree resume drive; an attempt of one electrical period without them has failed, and after two the spindle
brakes with its windings shorted, behind a retract (09 R267, R273). Whether crossings agree is read from State: `u` and `v` carry nothing. -/
def execRelockAttemptEnd (b : BayId) (_u _v : Unit) (s : State) : Host.Outcome State Fault Refusal :=
  let p := s.spin b.val
  .next <| if p.state ≠ 6 ∨ !p.relocking then s
    else match relockFit p.captures with
    | some cs => s.relocked b.val cs
    | none =>
      if s.now < p.ticked + elecNs p.rpm.toNat then s
      else
        let s := s.modSpin b.val fun p => { p with relock := p.relock + 1, ticked := s.now, captures := [] }
        if p.relock.toNat + 1 < 2 then s
        else
          let s := s.modSpin b.val fun p => { p with relockfail := p.relockfail + 1, relocking := false, linkBack := false }
          if p.spinUp then s.spinFailed b.val else s.wantAction b.val .lost

/-! ### Bus and domains (09 R269, R271, R272) -/

/-- Bays of domain `d`. -/
def baysOf (d : Nat) : List Nat := (List.range 18).map (18 * d + ·)

/-- Since when a condition has held. -/
def since (on : Bool) (t : Option Nat) (now : Nat) : Option Nat := if on then some (t.getD now) else none

/-- Has a condition held for `ns`? -/
def heldFor (t : Option Nat) (now ns : Nat) : Bool := t.any fun x => decide (x + ns ≤ now)

/-- The pause of a lowering whose phases float, replanned for the drag alone (09 Table 9.7; 02 R51). -/
def State.slowLower (s : State) (b : Nat) : State :=
  let p := s.spin b
  let t := s.now + (p.rpm.toNat - gaitRpm p.goal.toNat) * 1000000000 / max 1 p.cal.coastDec + 200000000
  let s := s.modSpin b fun p => { p with pauseEnd := t, lockAt := t }
  (s.capacityLoss (2 * b)).capacityLoss (2 * b + 1)

/-- A running gait lowering, which decelerates by regeneration. -/
def Spin.lowering (p : Spin) : Bool := p.state == 7 && p.moving

/-- Regeneration stops in a domain: its brakes short their windings, its lowerings float (09 Table 9.7). -/
def State.regenStops (s : State) (d : Nat) : State :=
  let s := s.modDom d fun x => { x with regenOff := true }
  s.each (baysOf d) fun s b =>
    let p := s.spin b
    if p.state = 8 then (s.modSpin b fun p => { p with state := 9 }).sendSpin b 3 s.now 0 0
    else if p.lowering then (s.sendSpin b 1 s.now 0 0).slowLower b
    else s

/-- The bus is above 13.8 V: every brake and lowering of the domain opens its phases (09 Table 9.7). -/
def State.busCoasts (s : State) (d : Nat) : State :=
  let s := (s.modDom d fun x => { x with coast := true }).raise (0x740 + 8 * d + 2)
  s.each (baysOf d) fun s b =>
    let p := s.spin b
    if p.state = 8 ∨ p.state = 9 then (s.modSpin b fun p => { p with state := 10 }).sendSpin b 4 s.now 0 0
    else if p.lowering then s.sendSpin b 4 s.now 0 0
    else s

/-- The bus has been below REGEN_V for 1 ms after a coast: shorted brakes resume, lowerings float (09 Table 9.7). -/
def State.coastEnds (s : State) (d : Nat) : State :=
  let s := s.modDom d fun x => { x with coast := false }
  s.each (baysOf d) fun s b =>
    let p := s.spin b
    if p.state = 10 ∧ p.brakeTo then (s.modSpin b fun p => { p with state := 9 }).sendSpin b 3 s.now 0 0
    else if p.lowering then s.sendSpin b 1 s.now 0 0
    else s

/-- BUS_SAMPLE: every 10 µs the domain bus is evaluated, and brakes and lowerings react (09 R269, Table 9.7). -/
def execBusSample (d : Fin 4) (busv : BitVec 12) (chop : Bool) (s : State) : Host.Outcome State Fault Refusal :=
  let v := busv.toNat
  let x := s.dom d.val
  let rv := s.regenMv
  let trip := 10 * s.cfg.tripV
  let s := s.modDom d.val fun x =>
    { x with busv := busv, chop := chop, lowAt := since (decide (v < trip)) x.lowAt s.now, goodAt := since (decide (trip + 40 < v)) x.goodAt s.now,
             belowAt := since (decide (v < rv)) x.belowAt s.now, clearAt := since (decide (v + 30 < rv)) x.clearAt s.now }
  let s := if chop = x.chop then s else s.raise (0x740 + 8 * d.val)
  let s := if rv < v ∧ x.busv.toNat ≤ rv then s.raise (0x740 + 8 * d.val + 1) else s
  let s := if (chop ∨ rv < v) ∧ !x.regenOff then s.regenStops d.val else s
  let s := if 1380 < v ∧ !x.coast then s.busCoasts d.val else s
  let y := s.dom d.val
  let s := if y.coast && heldFor y.belowAt s.now 1000000 then s.coastEnds d.val else s
  let s := if y.regenOff && !chop && heldFor y.clearAt s.now 1000000 then
      let s := s.modDom d.val fun x => { x with regenOff := false }
      s.each (baysOf d.val) fun s b => if (s.spin b).lowering then s.sendSpin b 2 s.now 0 0 else s
    else s
  .next <| if v < trip then s.each (baysOf d.val) fun s b => if (s.bay b).link.step = 0 then s else s.modLink b fun k => { k with noCount := true }
    else s

/-- Domains whose bus has been below VTRIP for 10 µs (05 R141, 09 R271). -/
def State.lowDomains (s : State) : List Nat := (List.range 4).filter fun d => heldFor (s.dom d).lowAt s.now 10000

/-- A bay of a domain at fault: out of service and retracted; its spindle coasts, and its links go to DETECT, once both actuators are parked, for the
retract, the park reports and the coast command go over the links (DEDUCED from 01 R21). With nothing turning they go at once (09 R271). -/
def State.bayFault (s : State) (b : Nat) : State :=
  let as := [2 * b, 2 * b + 1]
  let s := s.each as fun s a =>
    let s := s.serviceLost a none
    let m := (s.loop a).mode
    if m = 0 ∨ m = 5 then s else (s.tripAct a 4).enterRetract a 3
  let stopped := decide ((s.spin b).state = 0)
  let s := s.modSpin b fun p =>
    { p with moving := false, raising := false, spinUp := false, goal := 0, token := false, tokwait := false, action := if stopped then none else some .coast,
             lowerTo := none, relocking := false, retrySpin := false, brakeTo := false, standbyRet := false, stopAt := 0 }
  let s := s.modLink b fun k => { k with step := 0, retryAt := none, rejoin := true, noCount := true }
  (if stopped || !s.bayUp b then s.each as State.linkDetect else s).dropPauses b

/-- DOMAIN_FAULT: one or two buses below VTRIP for 10 µs (09 R271). -/
def execDomainFault (d : Fin 4) (s : State) : Host.Outcome State Fault Refusal :=
  let low := s.lowDomains
  .next <| if !low.contains d.val || decide (2 < low.length) || (s.dom d.val).domfault then s
    else
      let s := (s.modDom d.val fun x => { x with domfault := true }).raise (0x740 + 8 * d.val + 3)
      (s.each ((baysOf d.val).filter fun b => (s.bay b).link.present) State.bayFault).reproject

/-- Training of a link begins at BASIC, counted (10 R297). -/
def State.startBasic (s : State) (a : Nat) : State :=
  s.modCwy a fun c =>
    { c with state := 2, train := c.train + 1, phaseAt := s.now, retryAt := 0, dOk := false, u0Ok := false, u1Ok := false, emrg := false,
             single := false, rdr := false, spn := false, bad0 := 0, bad1 := 0, badD := 0, win0 := [], win1 := [], winD := [] }

/-- A bring-up attempt begins: both links enter BASIC; not while the domain is at fault (10 R300, R301). -/
def State.bringUp (s : State) (b : Nat) : State :=
  let k := (s.bay b).link
  if !k.present || k.off then s
  else
    let s := s.modLink b fun k => { k with step := 1, retryAt := none }
    if (s.dom (domOf b)).domfault then (s.linkDetect (2 * b)).linkDetect (2 * b + 1) else (s.startBasic (2 * b)).startBasic (2 * b + 1)

/-- DOMAIN_RESTORE: the bus above VTRIP + 0.4 V for 100 ms; each bay runs the insertion sequence from link training (09 R272). -/
def execDomainRestore (d : Fin 4) (s : State) : Host.Outcome State Fault Refusal :=
  .next <| if !(s.dom d.val).domfault || !(heldFor (s.dom d.val).goodAt s.now 100000000) then s
    else
      let s := (s.modDom d.val fun x => { x with domfault := false }).raise (0x740 + 8 * d.val + 4)
      let bs := (baysOf d.val).filter fun b => (s.bay b).link.present && (s.bay b).link.quar == 0
      (s.each bs fun s b =>
        let s := if (s.spin b).action = some .coast then s.faultCoast b else s
        (s.modLink b fun k => { k with noCount := false }).bringUp b).reproject

/-! ### Stops (09 R270) -/

/-- SPINDLE_STOP_DETECTED: no crossing for 100 ms: a shorted brake holds its windings, a coasting spindle is stopped (09 R270). -/
def execSpindleStopDetected (b : BayId) (s : State) : Host.Outcome State Fault Refusal :=
  let p := s.spin b.val
  .next <| if !(p.state == 8 || p.state == 9 || p.state == 10) || decide (s.now < p.lastCross + 100000000) || p.stopAt != 0 || decide (1000 ≤ p.rpm.toNat) then s
    else if p.state = 10 then (s.raise (bayEvt b.val 2)).atRest b.val
    else ((s.modSpin b.val fun p => { p with stopAt := s.now, state := 9, rpm := 0 }).sendSpin b.val 3 s.now 0 0).raise (bayEvt b.val 2)

/-- SHORTED_HOLD_END: after 1 s of shorted windings all phases open: STOPPED (09 R270). -/
def execShortedHoldEnd (b : BayId) (s : State) : Host.Outcome State Fault Refusal :=
  let p := s.spin b.val
  .next <| if p.state = 9 ∧ p.stopAt ≠ 0 ∧ p.stopAt + 1000000000 ≤ s.now then (s.sendSpin b.val 4 s.now 0 0).atRest b.val else s

/-! ### Gaits (09 R259, R260) -/

/-- Utilisation in millionths at gait `g'` of an actuator that spent `x` thousandths of the last second seeking and `y` in rotational wait and
transfer at gait `g` (09 R260). At Stand no work is done, so one that has worked has more than any gait's: the ratio of R260 is without bound. -/
def utilOf (g g' x y : Nat) : Nat :=
  if x = 0 ∧ y = 0 then 0 else if g' = 0 then 1000000000 else (x * gaitRpm g' + y * gaitRpm g) * 1000 / gaitRpm g'

/-- A transition in progress whose target has risen: a raise continues, a lowering turns under a token (09 R259). -/
def State.retarget (s : State) (b g : Nat) : State :=
  let p := s.spin b
  let t := s.now + (gaitRpm g - p.rpm.toNat) * 1000000000 / 1200 + 200000000
  if !p.moving ∨ p.spinUp ∨ g ≤ p.goal.toNat ∨ p.goal = 0 ∨ s.ceil b < g then s
  else if p.raising then (s.modSpin b fun p => { p with goal := BitVec.ofNat 2 g, pauseEnd := t, lockAt := t }).replanBay b
  else if s.tokenFree b then
    (s.modSpin b fun p => { p with goal := BitVec.ofNat 2 g, pauseEnd := t, lockAt := t, raising := true, token := true, tokwait := false, state := 4,
                                   inBand := 0 }).replanBay b
  else s.askToken b 2

/-- Has bay `b` no admitted command on either actuator? -/
def State.noAdmitted (s : State) (b : Nat) : Bool :=
  !(s.ledger.any fun c => c.phase == .admitted && !c.hostModel && c.parts.any fun p => bayOf p.act == b && !p.done)

/-- A bay on whose exit a POWER_STATE request waits, its ceiling having been Stand, starts it (09 R263, R277). -/
def State.wake (s : State) (b : Nat) : State :=
  let p := s.spin b
  let g := s.startGait b
  if g = 0 ∨ p.moving ∧ p.goal ≠ 0 then s
  else
    let (ns, tok) := s.exitNs b g
    let w := p.pwant
    let s := s.startExit b g (ns + if tok then (s.tokenWait b).getD 0 else 0) 0 tok 3
    if w = 1 then (s.modSpin b fun p => { p with pstate := 3, pwant := 1 }).reachIdle b else s

/-- The target gait: the lowest from MIN_GAIT to the ceiling at which both actuators keep to UTIL_HI; Idle's is MIN_GAIT (09 R260, R275). -/
def State.targetGait (s : State) (b : Nat) (u : Nat → Nat) : Nat :=
  let c := s.ceil b
  let m := s.devCfg.gait.minGait.toNat
  let p := s.spin b
  if p.pwant = 1 ∧ p.pstate ≠ 0 then min m c
  else (((List.range 4).filter fun g => decide (m ≤ g ∧ g ≤ c)).find? fun g => decide (u g ≤ 10000 * s.devCfg.gait.utilHi.toNat)).getD c

/-- Thousandths of the last second that spans of time, and one still running, fill. -/
def shareOf (now : Nat) (log : List (Nat × Nat)) : Nat :=
  (log.map fun (x, y) => min y now - max x (now - 1000000000)).sum / 1000000

/-- Thousandths of the last second an actuator spent seeking, and in rotational wait and transfer of admitted commands (09 R260). -/
def State.shares (s : State) (a : Nat) : Nat × Nat :=
  let x := (s.act a).adm
  let l := s.loop a
  (min 1000 (shareOf s.now (x.seekLog ++ if l.seeking && decide (0 < l.seekBound) then [(l.seekStart, s.now)] else [])),
   min 1000 (shareOf s.now (x.workLog ++ if !l.seeking && x.running.any (fun r => r.cmd != 0) then [(x.followAt, s.now)] else [])))

/-- GAIT_TARGET_RECOMPUTE: the target gait, and the raise or the lowering that is due (09 R259, R260, R263). The shares of the last second are read
from State: `u` to `x` carry nothing. -/
def execGaitTargetRecompute (b : BayId) (_u _v _w _x : Unit) (s : State) : Host.Outcome State Fault Refusal :=
  let p := s.spin b.val
  let u (g : Nat) : Nat := max (utilOf p.gait.toNat g (s.shares (2 * b.val)).1 (s.shares (2 * b.val)).2)
    (utilOf p.gait.toNat g (s.shares (2 * b.val + 1)).1 (s.shares (2 * b.val + 1)).2)
  let t := s.targetGait b.val u
  let calm := decide (u t ≤ 10000 * s.devCfg.gait.utilLo.toNat) && decide (t < p.gait.toNat)
  let low := since calm p.lowSince s.now
  let s := s.modSpin b.val fun p =>
    { p with utils := (List.range 4).foldl (fun m g => m.put g (u g)) p.utils, target := BitVec.ofNat 2 t, lowSince := low }
  .next <| if p.pstate ≠ 0 ∧ p.pwant = 0 then s.wake b.val
    else if s.ceil b.val = 0 ∧ p.gait ≠ 0 then
      let s := s.planLower b.val 0
      if (s.spin b.val).lowerTo = some 0 ∧ s.noAdmitted b.val ∧ (s.spin b.val).action = none then s.wantAction b.val .brake else s
    else if p.gait.toNat < t then (if p.moving then s.retarget b.val t else (s.dispatch (2 * b.val)).dispatch (2 * b.val + 1))
    else if t < p.gait.toNat ∧ (heldFor low s.now (1000000000 * s.devCfg.gait.dwell.toNat) ∨ p.pwant = 1 ∧ p.pstate ≠ 0) then
      let s := s.planLower b.val t
      ((s.dispatch (2 * b.val)).dispatch (2 * b.val + 1)).reachIdle b.val
    else s.reachIdle b.val

/-! ### Cap and tokens (09 R261, R262, R265) -/

/-- POWER_PROJECTION: every 100 ms, with the package power measured over it (09 R262, R263). -/
def execPowerProjection (pkgMw : Nat) (s : State) : Host.Outcome State Fault Refusal :=
  .next ((s.modPwr fun p => { p with pkgMw := pkgMw }).reproject)

/-- The cap in thousandths of a percent for a duty in percent (09 R261). -/
def capOf (duty : Nat) : Nat := 30000 + (duty - 10) * 875

/-- PWRCAP_WINDOW: two windows that agree set the cap, two invalid ones the default of 60 % (09 R261). -/
def execPwrcapWindow (duty : Fin 101) (s : State) : Host.Outcome State Fault Refusal :=
  let d := duty.val
  let p := s.pwr
  .next <| if d < 10 ∨ 90 < d then
      let s := s.modPwr fun p => { p with duty := BitVec.ofNat 8 d, lastDuty := none, badWins := p.badWins + 1 }
      if p.badWins + 1 < 2 ∨ p.dflt then s
      else (s.modPwr fun p => { p with capMil := 60000, capPct := 60, dflt := true }).raise 0x760 |>.reproject
    else
      let s := s.modPwr fun p => { p with duty := BitVec.ofNat 8 d, lastDuty := some d, badWins := 0 }
      if p.lastDuty.any fun x => decide (x ≤ d + 1 ∧ d ≤ x + 1) then
        let s := s.modPwr fun p => { p with capMil := capOf d, capPct := BitVec.ofNat 8 (capOf d / 1000), dflt := false }
        (if p.dflt then s.raise 0x760 else s).reproject
      else s

/-- Give a token to bay `b`, and start what it was asked for (09 R259, R265). -/
def State.grantToken (s : State) (b : Nat) : State :=
  let p := s.spin b
  let s := s.modSpin b fun p => { p with token := true, tokwait := false }
  if p.moving ∧ !p.raising ∧ p.state = 7 then (s.modSpin b fun p => { p with token := false }).retarget b p.target.toNat
  else if p.moving ∧ !p.spinUp then s.modSpin b fun p => { p with state := 4, raising := true, inBand := 0 }
  else (s.modSpin b fun p => { p with goal := if p.goal = 0 then BitVec.ofNat 2 (s.startGait b) else p.goal }).beginSpin b

/-- May the request of bay `b` be served now: a raise by a slack-safe change, a spin-up under a ceiling above Stand? -/
def State.tokenServes (s : State) (b : Nat) : Bool :=
  let p := s.spin b
  s.tokenFree b && decide (0 < s.ceil b) && !(p.state == 8 || p.state == 9)

/-- SPIN_UP_TOKEN_GRANT: the first waiting request of a domain that a token can serve takes one (09 R265). -/
def execSpinUpTokenGrant (d : Fin 4) (s : State) : Host.Outcome State Fault Refusal :=
  .next <| match (s.tokenQueue d.val).find? s.tokenServes with
  | none => s
  | some b =>
    let p := s.spin b
    if p.tokKind = 2 ∧ !p.moving then
      let t := (s.modSpin b fun p => { p with tokwait := false }).tryRaise b
      if (t.spin b).token then t.reproject else s
    else (s.grantToken b).reproject

/-! ### Power states (09 R275 to R279) -/

/-- A bay is asked into Idle or Standby: PSTATE reads 3 until the entry is done (09 R275). -/
def State.enterPower (s : State) (b : Nat) (want : BitVec 2) : State :=
  let p := s.spin b
  if p.pstate = want ∨ (p.pstate = 3 ∧ p.pwant = want) then s
  else
    let s := s.modSpin b fun p => { p with pstate := 3, pwant := want }
    if want = 1 then
      if p.gait = 0 ∧ !p.moving then s.wake b
      else (s.planLower b (s.startGait b)).reachIdle b
    else s

/-- Has bay `b` held no admitted command for `t` seconds (09 R278)? -/
def State.quietFor (s : State) (b t : Nat) : Bool := s.noAdmitted b && decide (0 < t) && decide ((s.spin b).lastCmd + t * 1000000000 ≤ s.now)

/-- IDLE_TIMER_EXPIRY (09 R278). -/
def execIdleTimerExpiry (b : BayId) (s : State) : Host.Outcome State Fault Refusal :=
  .next <| if (s.spin b.val).pstate = 0 ∧ s.quietFor b.val s.devCfg.timer.idleT.toNat then s.enterPower b.val 1 else s

/-- STANDBY_TIMER_EXPIRY (09 R278). -/
def execStandbyTimerExpiry (b : BayId) (s : State) : Host.Outcome State Fault Refusal :=
  .next <| if ((s.spin b.val).pstate = 0 ∨ (s.spin b.val).pstate = 1) ∧ s.quietFor b.val s.devCfg.timer.stbyT.toNat then s.enterPower b.val 2 else s

/-- Does bay `b` hold nothing that keeps it out of Standby: no admitted command, no PENDING recovery, no staged or landing-band data (09 R275)?
-/
def State.standbyClear (s : State) (b : Nat) : Bool :=
  let mine (a : Nat) : Bool := bayOf a == b
  s.noAdmitted b
    && !(s.recs.any fun r => r.st == .pending && (List.range r.count).any fun i => mine (s.actOf r.nsid (r.slba + i)))
    && !(s.stage.wslots.any fun w => mine w.act && !w.inBand)
    && [2 * b, 2 * b + 1].all fun a => !((s.act a).med.landing.any fun l => l.st == .live && !l.inBand)

/-- STANDBY_ENTRY_READY: both actuators retract and the spindle brakes (09 R275). -/
def execStandbyEntryReady (b : BayId) (s : State) : Host.Outcome State Fault Refusal :=
  let p := s.spin b.val
  .next <| if p.pstate ≠ 3 ∨ p.pwant ≠ 2 ∨ !(s.standbyClear b.val) ∨ p.standbyRet ∨ (p.moving ∧ p.goal ≠ 0) then s
    else if p.state = 0 then s.atRest b.val
    else (s.modSpin b.val fun p => { p with standbyRet := true, lowerTo := none }).wantAction b.val .standby

/-- Bays a POWER_STATE request names: one, or every present one that is not quarantined. -/
def State.powerBays (s : State) (p : List Byte) : List Nat :=
  if byteAt p 0 = 0xFF then (List.range 72).filter fun b => (s.bay b).link.present && (s.bay b).link.quar == 0 else [byteAt p 0]

/-- Why a POWER_STATE request is refused, if it is (09 R279, Table 9.8). -/
def State.powerRefused (s : State) (r : Requester) (p : List Byte) (active : Bool) : Option Nat :=
  let b := byteAt p 0
  let k := (s.bay b).link
  if !(reservedZero p [(0, 2)]) || decide (72 ≤ b ∧ b ≠ 0xFF) then some 1
  else if s.seesAll r then (if b ≠ 0xFF ∧ (!k.present ∨ k.quar ≠ 0) then some 4 else none)
  else if !active || b == 0xFF then some 2
  else if !(s.fnHasBay (fnNumber r) b) then some 3
  else if !k.present ∨ k.quar ≠ 0 then some 4
  else none

/-- Serve a POWER_STATE request for one STATE: the response comes at acceptance (09 R279). -/
def State.powerState (s : State) (r : Requester) (st : Nat) (g : State → Nat → State) : State :=
  s.serve r 0x0910 none fun p =>
    if byteAt p 1 ≠ st then s
    else match s.powerRefused r p (st == 0) with
      | some reason => s.respond (mbxOf r) (reasonOnly reason 3)
      | none =>
        let bs := s.powerBays p
        (s.each bs g).respond (mbxOf r) (leBytes 2 0 ++ leBytes 2 bs.length)

/-- POWER_STATE_ACTIVE: an entry in progress is dropped, and a bay in Idle or Standby makes its exit (09 R277). -/
def execPowerStateActive (r : Requester) (s : State) : Host.Outcome State Fault Refusal :=
  .next <| s.powerState r 0 fun s b =>
    let p := s.spin b
    if p.pstate = 0 then s
    else if p.pstate = 3 ∧ p.gait ≠ 0 ∧ !p.standbyRet then s.modSpin b fun p => { p with pstate := 0, pwant := 0 }
    else (s.modSpin b fun p => { p with pwant := 0 }).wake b

/-- POWER_STATE_IDLE (09 R275). -/
def execPowerStateIdle (r : Requester) (s : State) : Host.Outcome State Fault Refusal := .next (s.powerState r 1 fun s b => s.enterPower b 1)

/-- POWER_STATE_STANDBY (09 R275). -/
def execPowerStateStandby (r : Requester) (s : State) : Host.Outcome State Fault Refusal := .next (s.powerState r 2 fun s b => s.enterPower b 2)

/-- EXIT_MS of POWER_STATUS: the exit to the ceiling gait, token wait included; what it reads with no exit or no token to come is not stated
(09 Table 9.8). -/
def State.exitMs (s : State) (b : Nat) : Nat × State :=
  let c := s.ceil b
  let (ns, tok) := s.exitNs b c
  match if c = 0 then none else if tok then s.tokenWait b else some 0 with
  | some w => ((ns + w) / 1000000, s)
  | none => (s.free.toNat % 2 ^ 32, s.useFree)

/-- POWER_STATUS: a bay's power state, gait, ceiling and exit time (09 R279, Table 9.8). -/
def execPowerStatus (r : Requester) (s : State) : Host.Outcome State Fault Refusal :=
  .next <| s.serve r 0x0911 none fun p =>
    let b := byteAt p 0
    let k := mbxOf r
    if !(reservedZero p [(0, 1)]) || decide (72 ≤ b) then s.respond k (reasonOnly 1 15)
    else if !s.seesAll r && !(s.fnHasBay (fnNumber r) b) then s.respond k (reasonOnly 3 15)
    else
      let x := s.spin b
      let c := s.ceil b
      let pw := x.ceilPwr.toNat
      let src := bit (pw == c && pw != 3) + 2 * bit (s.thermalCeil b == c && c != 3) + 4 * bit (decide (c < s.devCfg.gait.minGait.toNat))
      let (ms, s) := s.exitMs b
      s.respond k (leBytes 1 0 ++ leBytes 1 x.pstate.toNat ++ leBytes 1 x.gait.toNat ++ leBytes 1 c ++ leBytes 1 src ++ leBytes 1 x.state.toNat
        ++ leBytes 2 x.rpm.toNat ++ leBytes 4 ms ++ leBytes 2 (s.bayMw b x.gait.toNat / 100) ++ leBytes 2 0)

end Sys2Proof.Machine
end

