-- ==== Sys2Proof/Machine/Resets.lean ====
section
/-! DEFINITION. Firmware restarts, device-level resets, what a reset leaves, and how a start begins (16 R414 to R420, Table 16.5;
05 R141 to R143). -/
namespace Sys2Proof.Machine

open Sys2Proof

/-! ### Firmware restarts in service (16 R418) -/

/-- A device-level reset is asked for at a time: action 1 by the steward, 2 into Trailhead mode, 3 by the in-service watchdog, 4 after a
power-loss declaration (16 R419, R434; 05 R142). -/
def State.askReset (s : State) (at' action : Nat) : State := s.modBoot fun b => { b with resetReq := some (at', action) }

/-- A device-level reset with cause 0x04; three within 10 minutes count together as one failed start (16 R418). -/
def State.watchdogReset (s : State) : State :=
  let t := (s.boot.resets4.filter fun t => decide (s.now < t + 600000000000)) ++ [s.now]
  let s := if 3 ≤ t.length then
      s.modBoot fun b => { b with resets4 := [], attempt := BitVec.ofNat 2 (min 3 (b.attempt.toNat + 1)), mirror := BitVec.ofNat 2 (min 3 (b.attempt.toNat + 1)) }
    else s.modBoot fun b => { b with resets4 := t }
  (s.askReset s.now 3).modBoot fun b => { b with postStop := true }

/-- A herd's firmware restarts from its area 1 copy: arrivals on its 8 actuators are held until the restart ends (16 R418). -/
def State.restartHerd (s : State) (h : Nat) : State :=
  let s := s.modHerd h fun x => { x with running := false, restart := some s.now }
  let s := s.each ((List.range 8).map (8 * h + ·)) fun s a => s.modAdm a fun x => { x with restartHold := true }
  s.raise 0x786

/-- One Markhor core restarts; a second within 1 s resets the device (16 R418). -/
def State.restartCore (s : State) : State :=
  let t := (s.boot.dogAt.filter fun t => decide (s.now < t + 1000000000)) ++ [s.now]
  let s := (s.modBoot fun b => { b with dogAt := t }).raise 0x786
  if 2 ≤ t.length then s.watchdogReset else s

/-! ### The hold-up flush (05 R141) -/

/-- Staged sectors an actuator's hold-up flush writes: acknowledged ones, oldest STAGED completion first (05 R141). -/
def State.flushList (s : State) (a : Nat) : List WSlot :=
  let at' (w : WSlot) : Nat := w.acked.getD 0
  sortBy (fun x y => decide (at' x ≤ at' y)) (s.stage.wslots.filter fun w => w.act == a && w.acked.isSome && !w.poisoned && !w.inBand)

/-- Is an actuator loaded: a loop that can reach the landing band (05 R141)? -/
def State.loaded (s : State) (a : Nat) : Bool := let m := (s.loop a).mode.toNat; decide (2 ≤ m ∧ m ≤ 4)

/-- The hold-up directory of an actuator is written: every staged range (05 R141, Table 5.6). -/
def State.writeDir (s : State) (a : Nat) : State :=
  (s.modMed a fun m => { m with holdDir := (s.flushList a).map (fun w => w.sec), holdClosed := none }).putRecords a [4]

/-- `n` sectors of the directory have landed: their slots are live, the closing record names the last one, and the band journal, the ATI
counters and the assist figures are written; none: no closing record was written (05 R141, R143, Table 5.6; 07 R198, R214). -/
def State.landStaged (s : State) (a : Nat) (closed : Option Nat) : State :=
  match closed with
  | none => s
  | some n =>
  let ws := (s.flushList a).take n
  let land (s : State) (w : WSlot) : State :=
    match s.landAlloc a 1 with
    | none => s
    | some r =>
      let s := s.landReserve a 0 r
      let t := (r.1.headD 0)
      let s := s.modMed a fun m => m.fillSlot (t / 255) (t % 255) w.sec
      let p := s.placeOf a (landRegion (t / 255)) (t % 255 + 1)
      let s := if w.order = (ws.map (·.order)).headD 0 ∨ p.angle * p.spt < 1000000 then s.worn a [p.group] else s
      (s.mapW fun v => if v.order = w.order then { v with inLand := true } else v).advanceCom w.sec.nsid w.sec.lba
  let s := s.each ws land
  let k := (((s.flushList a).take n).takeWhile (·.inLand)).length
  let s := ((s.flushJournal a).checkpoint a).putRecords a [4]
  s.modMed a fun m => { m with holdClosed := some k, ckptFinal := true }

/-- Ranges of consecutive sectors of one namespace in a list: NSID, first LBA, length. -/
def ranges : List Sector → List (Nat × Nat × Nat)
  | [] => []
  | x :: t =>
    match ranges t with
    | (n, l, k) :: r => if n = x.nsid ∧ l = x.lba + 1 then (n, x.lba, k + 1) :: r else (x.nsid, x.lba, 1) :: (n, l, k) :: r
    | [] => [(x.nsid, x.lba, 1)]

/-- At the next start what the directory lists beyond the closing record is lost acknowledged STAGED data; what landed is replayed into
staging (05 R143). -/
def State.replayHold (s : State) (a : Nat) : State :=
  let m := (s.act a).med
  if m.holdDir.isEmpty then s
  else
    let n := m.holdClosed.getD 0
    let stageOne (s : State) (x : Sector) : State :=
      s.modStage fun g =>
        { g with wslots := g.wslots ++ [{ order := g.next, sec := x, act := a, acked := some s.now, inLand := true }], next := g.next + 1 }
    let s := s.each (m.holdDir.take n) stageOne
    let lost := ranges (sortBy (fun (x y : Sector) => decide (x.nsid < y.nsid ∨ (x.nsid = y.nsid ∧ x.lba ≤ y.lba))) (m.holdDir.drop n))
    let s := s.each lost fun s (k, l, c) => s.addPoison { kind := 2, nsid := k, start := l, count := c, left := c }
    let s := if lost.isEmpty then s else s.raise (bayEvt (bayOf a) 1)
    s.modMed a fun m => { m with holdDir := [], holdClosed := none }

/-! ### Replay of the band journal (05 R139, R140; 07 R200) -/

/-- What replay reads at a sector's place on rungs 1 and 2: a copy whose tag names the sector and that passes its checks, or none (07 R200). -/
def State.replayRead (s : State) (a key : Nat) : Option Sector :=
  let n := key / 2 ^ 48
  let l := key % 2 ^ 48
  let ks := (s.ns n).keyslot
  match (s.act a).med.found.find? (·.key == key) with
  | some f =>
    if f.ok && tagMatches f.tag n l ks then some { nsid := n, lba := l, gen := tagGen f.tag, keyslot := ks, keyGen := (s.key ks).gen, data := f.data } else none
  | none => (s.newestMedia n l).filter fun x => !x.bad

/-- The landing band's index from its record headers: a slot is live when its segment is allocated, the header names it, its own tag agrees, and
no newer copy of the sector is on the media (05 R138, R139). -/
def State.rebuildIndex (s : State) (a : Nat) : State :=
  let m := (s.act a).med
  let named (l : LSlot) : Bool := m.jsegs.contains l.seg && (s.ns l.sec.nsid).present
    && (m.landHdr.find (l.seg * 255 + l.idx)).any fun h => h.nsid == l.sec.nsid && h.lba == l.sec.lba && h.gen == l.sec.gen
  let inBand (l : LSlot) : Bool := (s.media.find (secKey l.sec.nsid l.sec.lba)).any fun x => decide (l.sec.gen ≤ x.gen)
  let newer (l : LSlot) : Bool := m.landing.any fun y => named y && y.sec.nsid == l.sec.nsid && y.sec.lba == l.sec.lba && decide (l.sec.gen < y.sec.gen)
  s.modMed a fun m => { m with landing := m.landing.map fun l => if named l && !inBand l && !newer l then { l with st := .live } else l }

/-- Map intents without a later record: a named sector whose tag carries the intent's generation and that passes its checks has its bit set; the
bits of the others keep what the media's written map gives them (07 R200). -/
def State.replayIntents (s : State) (a : Nat) : State :=
  let m := (s.act a).med
  let here (k : Nat) : Bool := !(s.ns (k / 2 ^ 48)).zoned && s.actOf (k / 2 ^ 48) (k % 2 ^ 48) == a
  let fresh := (m.found.map (·.key)).filter fun k => here k && (s.media.find k).isNone
  let named (k : Nat) (g : Word) : Bool :=
    let (_, r, pos) := (s.ns (k / 2 ^ 48)).locate (k % 2 ^ 48)
    (s.act a).fmt.journal.any fun j => j.type == 4 && j.unit == r && decide (j.first ≤ pos ∧ pos < j.first + j.count) && j.gen == g
  s.each (m.unsaved ++ fresh).eraseDups fun s k =>
    match s.replayRead a k with
    | some x => { s with media := if named k x.gen then s.media.put k x else s.media.del k }
    | none => { s with media := s.media.del k }

/-- Sectors accepted one after another from a place on, at most `n`. -/
def scanFrom (ok : Nat → Bool) : Nat → Nat → Nat
  | 0, w => w
  | n + 1, w => if ok w then scanFrom ok n (w + 1) else w

/-- The pointer scan of one zone: sectors are accepted from the journalled committed write pointer on, and both pointers set behind the last
(07 R200). -/
def State.scanZone (s : State) (a n lba : Nat) : State :=
  let z := s.zone (zoneKey n lba)
  let at' (w : Nat) : Option Sector := (s.replayRead a (secKey n (lba + w))).filter fun x => decide (z.jgen ≤ x.gen)
  let w := scanFrom (fun w => (at' w).isSome) (65536 - z.comWp) z.comWp
  let news := (List.range (w - z.comWp)).map (z.comWp + ·)
  let s := s.each news fun s i => match at' i with
    | some x => if (s.newestMedia n (lba + i)).isSome then s else { s with media := s.media.put (secKey n (lba + i)) x }
    | none => s
  s.changeZone n lba fun z =>
    let z := { z with comWp := w, admWp := w }
    if w = 65536 then { z with com := .full, adm := .full } else z

/-- At a start the band journal of an actuator is replayed: the landing band's index is rebuilt, then map intents and committed write pointers are
completed by reading the media (05 R139, R140; 07 R200). -/
def State.replayJournal (s : State) (a : Nat) : State :=
  if !(s.act a).med.replay then s
  else
    let s := (s.rebuildIndex a).replayIntents a
    let open' (z : Zone) : Bool := z.com == .implicitOpen || z.com == .explicitOpen || z.com == .closed
    let zs := s.zones.filter fun r => open' r.2 && s.actOf (r.1 / 2 ^ 24) (r.1 % 2 ^ 24 * 65536) == a
    let s := s.each (zs.map (·.1)) fun s k => s.scanZone a (k / 2 ^ 24) (k % 2 ^ 24 * 65536)
    (s.flushJournal a).modMed a fun m => { m with replay := false, found := [] }

/-- Zones of a namespace whose band lies on a head of an actuator: their keys. -/
def State.zonesOfHead (s : State) (a h : Nat) (r : Nat × Ns) : List Nat :=
  if !r.2.zoned || !(r.2.actset.contains a) then []
  else (List.range (r.2.sectors / 65536)).filterMap fun z =>
    let (b, region, _) := r.2.locate (z * 65536)
    if b = a ∧ (s.placeOf a region 0).head = h then some (zoneKey r.1 (z * 65536)) else none

/-- Every zone whose band lies on a head takes a state, admitted and committed; event 8a + 6 latches at a change (05 R133, 12 R351). -/
def State.zonesTo (s : State) (a h : Nat) (st : ZState) : State :=
  let zs := (s.namespaces.flatMap (s.zonesOfHead a h)).filter fun k => (s.zone k).com != st && (s.zone k).com != .offline
  let s := s.each zs fun s k => s.changeZone (k / 2 ^ 24) (k % 2 ^ 24 * 65536) fun z => { z with adm := st, com := st }
  if zs.isEmpty then s else s.raise (actEvt a 6)

/-! ### What a reset leaves (16 Table 16.5; R12; counters as each chapter's rule states) -/

/-- A count that COLD_RST_N alone clears. -/
def kept (cold : Bool) (v : Word) : Word := if cold then 0 else v

/-- An Admission Unit after a reset. -/
def Adm.wipe (cold : Bool) (x : Adm) : Adm :=
  { refuseDl := kept cold x.refuseDl, refusePwr := kept cold x.refusePwr, cutoff := kept cold x.cutoff }

/-- The media side after a reset: what lies on the media stays; the landing band's index, which lay in DRAM, names nothing until the band
journal is replayed (05 R138 to R140). -/
def Med.wipe (cold : Bool) (x : Med) : Med :=
  { x with landing := (x.landing.filter fun l => l.st != .reserved).map (fun l => { l with st := .void, cmd := 0, rd := false, inBand := false }),
           landLow := false, replay := true, atiRefresh := kept cold x.atiRefresh, mapRebuild := false, ckptAt := if cold then 0 else x.ckptAt }

/-- A channel front-end after a reset. -/
def Cfe.wipe (cold : Bool) (x : Cfe) : Cfe :=
  { sm1 := kept cold x.sm1, sm2only := kept cold x.sm2only, false_ := kept cold x.false_, retry := kept cold x.retry, fail := kept cold x.fail,
    erase := kept cold x.erase, noref := kept cold x.noref, chkfail := kept cold x.chkfail, rung2 := kept cold x.rung2,
    rung3 := kept cold x.rung3, unrec := kept cold x.unrec }

/-- Heads of an actuator whose writes stay suspended: their last calibration failed finally (12 R351). -/
def finalHeads (x : ActSt) : List Nat := (x.heads.filter fun r => r.2.final).map (·.1)

/-- Bits of the heads of a list. -/
def headMask (hs : List Nat) : BitVec 16 := BitVec.ofNat 16 ((hs.map fun h => 2 ^ h).sum)

/-- A formatter after a reset: the band journal lies on the media, and waymark numbers go on from its last record (07 Table 7.3); heads suspended finally stay so (12 R351). -/
def Fmt.wipe (cold : Bool) (hs : List Nat) (x : Fmt) : Fmt :=
  { journal := x.journal, jstate := x.jstate, seq := x.journal.foldl (fun m r => if m < r.seq then r.seq else m) 0, wsusp := headMask hs, calPend := headMask hs, inh0 := kept cold x.inh0, inh1 := kept cold x.inh1,
    inh2 := kept cold x.inh2, inh3 := kept cold x.inh3, abandon := kept cold x.abandon, resume := kept cold x.resume,
    sqzCheck := kept cold x.sqzCheck, sqzRewrite := kept cold x.sqzRewrite, linkErr := kept cold x.linkErr, fbFault := kept cold x.fbFault }

/-- A loop after a reset: the reference layout (08 R223). -/
def Loop.wipe (cold : Bool) (k : Nat) (x : Loop) : Loop :=
  { engine := (actReset k).loop.engine, overrun := kept cold x.overrun, missing := kept cold x.missing, invalid := kept cold x.invalid,
    retract := kept cold x.retract, migrate := kept cold x.migrate, seek := kept cold x.seek, seekLate := kept cold x.seekLate,
    clamp := kept cold x.clamp, rroMiss := kept cold x.rroMiss }

/-- A Causeway link after a reset. -/
def Cwy.wipe (cold : Bool) (x : Cwy) : Cwy :=
  { uerr := kept cold x.uerr, derr := kept cold x.derr, loss := kept cold x.loss, train := kept cold x.train, spare := kept cold x.spare }

/-- Grazing after a reset: the unreadable-sector table and the load cycles lie in the reserved media area; at a cold reset the heads
suspended finally are tried again (12 R343, R346, R351). -/
def Graze.wipe (cold : Bool) (hs : List Nat) (x : Graze) : Graze :=
  { pending := if cold then hs.map fun h => { order := 1, kind := 3, head := h, pos := 2 ^ 22 * 65536, count := 1, isRead := false } else [],
    unread := x.unread, unrNext := x.unrNext, unrFull := x.unrFull, loads := x.loads, factory := x.factory, seek := x.factory,
    scrubSect := kept cold x.scrubSect, marginal := kept cold x.marginal, rewrite := kept cold x.rewrite, unreadCnt := kept cold x.unreadCnt }

/-- A head after a reset. -/
def HeadSt.wipe (cold : Bool) (x : HeadSt) : HeadSt :=
  { x with eqRun := 0, eqCode := 0, lastSample := 0, stuck := 0, tapClamp := 0, calDue := 0, calFails := 0,
           chanAt := if cold then 0 else x.chanAt, servoAt := if cold then 0 else x.servoAt, asstAt := if cold then 0 else x.asstAt }

/-- Actuator `k` after a reset. -/
def ActSt.wipe (cold : Bool) (k : Nat) (x : ActSt) : ActSt :=
  { adm := x.adm.wipe cold, med := x.med.wipe cold, cfe := x.cfe.wipe cold, fmt := x.fmt.wipe cold (finalHeads x),
    heads := x.heads.map fun r => (r.1, r.2.wipe cold), loop := x.loop.wipe cold k, cwy := x.cwy.wipe cold,
    graze := x.graze.wipe cold (finalHeads x) }

/-- Bay `k` after a reset: its presence, its quarantine record and its wear figures stay (16 R421; 12 R346). -/
def BaySt.wipe (cold : Bool) (k : Nat) (now : Nat) (x : BaySt) : BaySt :=
  { spin := { obsloss := kept cold x.spin.obsloss, relockfail := kept cold x.spin.relockfail, brake := kept cold x.spin.brake,
              gaitchg := kept cold x.spin.gaitchg, spinfail := kept cold x.spin.spinfail, cal := x.spin.cal, coastDec := x.spin.coastDec },
    link := { present := x.link.present, media := if x.link.quar != 0 then 6 else if x.link.present then 1 else 0, insertAt := now,
              quar := x.link.quar, quarSerial := x.link.quarSerial, atiLimit := x.link.atiLimit, spnEngine := (bayReset k).link.spnEngine, starts := x.link.starts,
              revs := x.link.revs, hours := x.link.hours } }

/-- A port after a reset: its TWN registers load from its flash record; its PERST_N pin is what it is (04 R106, R120). -/
def PortSt.wipe (cold : Bool) (now : Nat) (x : PortSt) : PortSt :=
  { wpend := x.flashTwn.getD {}, wcur := x.flashTwn.getD {}, twnSize := x.twnSize, grants := x.flashGrants, flashTwn := x.flashTwn,
    flashSize := x.flashSize, flashGrants := x.flashGrants, perst := x.perst, training := !x.perst, downAt := now,
    urCnt := kept cold x.urCnt, ctoCnt := kept cold x.ctoCnt, retrain := kept cold x.retrain, switchCnt := kept cold x.switchCnt,
    dropCnt := kept cold x.dropCnt }

/-- A decoder pool after a reset. -/
def Pool.wipe (cold : Bool) (x : Pool) : Pool :=
  { next := x.next, cw := kept cold x.cw, lent := kept cold x.lent, preempt := kept cold x.preempt, miscorr := kept cold x.miscorr,
    waitmax := kept cold x.waitmax, chkFails := if cold then 0 else x.chkFails, chkLast := if cold then 0 else x.chkLast,
    hist := if cold then [] else x.hist }

/-- Staging memory after a reset. At a cold reset the layout of the flash record loads, the soft repairs are applied and the pool is free
again. Lines and their kind 0 entries go with the contents; entries that name sectors stay (11 R308, R310, R325, R332, R333). -/
def MemSt.wipe (cold : Bool) (x : MemSt) : MemSt :=
  let names := x.plist.filter fun e => e.kind != 0
  if cold then { pendLay := x.pendLay, plist := names, plistNext := x.plistNext, softMap := x.softMap, softRecs := x.softRecs }
  else
    { x with poisoned := [], plist := names, merge := [], fixedAt := [] }

/-- The line cache after a reset. -/
def CacheSt.wipe (cold : Bool) (x : CacheSt) : CacheSt :=
  if cold then {}
  else { wgon := x.wgon, wgfail := x.wgfail, hits := x.hits, misses := x.misses, evwait := x.evwait, vdecline := x.vdecline, crcfix := x.crcfix }

/-- Zones after a reset: the state and the committed write pointer the band journal gives, and the admitted ones as they (05 R131, R140; 07
R200). A zone that its commits filled since the journal was last written is open again until the pointer scan. -/
def Zone.wipe (x : Zone) : Zone :=
  let st := if x.com = .full ∧ x.jwp < 65536 then ZState.implicitOpen else x.com
  { x with com := st, adm := st, comWp := x.jwp, admWp := x.jwp, lastAdm := 0 }

/-- A namespace after a reset: its grants and those attachments that a grant carries (15 R396, R400). -/
def Ns.wipe (grants : List (Nat × Nat)) (n : Nat) (x : Ns) : Ns :=
  let ports := (grants.filter fun g => g.1 == n).map (·.2)
  { x with ports := ports, attached := (x.attached.filter fun f => ports.contains (portOf f)) ++ ((ports.map (64 * ·)).filter fun f => !(x.attached.contains f)),
           notReady := true }

/-- Configuration after a reset: every applied and staged copy from the flash record, everything else at its reset value (15 R400; R12). -/
def Cfg.wipe (x : Cfg) : Cfg :=
  { staged := x.flashCfg, applied := x.flashCfg, prev := x.flashCfg, epochReq := x.flashEpoch, prevEpoch := x.flashEpoch, flashCfg := x.flashCfg,
    flashEpoch := x.flashEpoch, flashGrants := x.flashGrants, flashThm := x.flashThm, thmLim := x.flashThm }

/-- VF32 of a port that trains two links is function 0 of its half 1, and exists without VF Enable (04 R100). -/
def State.halfHeads (s : State) : State :=
  s.each ([0, 1, 2, 3].filter s.glb.pbif.getLsbD) fun s p => s.modFn (64 * p + 32) fun x => { x with enabled := true }

/-- Everything but the always-on island is reset. The ledger is cleared without completions; DRAM contents are lost; keys are erased; what
lies in flash, in fuses and on the media stays, and so do device time, locks and the counters of the always-on island unless the reset is a
cold one (16 Table 16.5; 02 R57). -/
def State.wipe (s : State) (cold : Bool) : State :=
  let z : State := State.reset
  { z with
    pending := s.pending, now := s.now, fresh := s.fresh, out := s.out,
    cfg := s.cfg.wipe,
    ldg := if cold then {} else { full := s.ldg.full, hwm := s.ldg.hwm },
    fns := if cold then [] else s.fns.map fun r => (r.1, { fnReset r.1 with qhCnt := r.2.qhCnt }),
    glb := if cold then { pbif := s.glb.pbif, clkMode := s.glb.clkMode, stewardSel := s.glb.stewardSel, bar2sz := s.glb.bar2sz, smbAddr := s.glb.smbAddr,
                          coldRst := s.glb.coldRst }
           else { s.glb with captured := [], shelfFault := false },
    ports := s.ports.map fun r => (r.1, r.2.wipe cold s.now),
    nss := s.nss.map fun r => (r.1, r.2.wipe s.cfg.flashGrants r.1),
    zones := s.zones.map fun r => (r.1, r.2.wipe),
    media := s.media,
    acts := s.acts.map fun r => (r.1, r.2.wipe cold r.1),
    bays := s.bays.map fun r => (r.1, r.2.wipe cold r.1 s.now),
    doms := s.doms.map fun r => (r.1, { busv := r.2.busv, lowAt := r.2.lowAt, domfault := !cold && r.2.domfault }),
    les := if cold then [] else s.les.map fun r => (r.1, { spare := r.1 % 4 == 3, fails := r.2.fails }),
    engines := if cold then [] else s.engines.map fun r => (r.1, { fails := r.2.fails, state := if r.2.state = 1 ∨ r.2.state = 2 then r.2.state else 0 }),
    pool := s.pool.wipe cold,
    mem := s.mem.wipe cold,
    cache := s.cache.wipe cold,
    cal := if cold then { flash := s.cal.flash } else s.cal,
    thm := if cold then {} else { emrgcnt := s.thm.emrgcnt, brkcnt := s.thm.brkcnt },
    clk := if cold then {} else s.clk,
    isls := ((List.range 216).map fun i => (i, ({ reset := true, ovrcnt := kept cold (s.isl i).ovrcnt, peercnt := kept cold (s.isl i).peercnt } : Isl)))
      ++ (if cold then [] else [(216, s.isl 216)]),
    accs := [(devAcc, { restarted := true })],
    tally := { minute := if cold then 0 else s.tally.minute, chA := s.tally.chA, chB := s.tally.chB, eIt := s.tally.eIt, eRd := s.tally.eRd },
    boot := { s.boot with running := false, starting := false, postStop := false, lossAt := none, bayFlush := [], resetReq := none, act := none, fwState := 0,
                          fwComp := 0, fwHerd := 0, fwPause := 50, fwSlot := 0, dogAt := [], resets4 := if cold then [] else s.boot.resets4,
                          attempt := if cold then s.boot.mirror else s.boot.attempt, slot := 0, svnRun := 0, runVer := 0, runComps := [] },
    keys := s.keys.map fun r => (r.1, { r.2 with loaded := false, unloading := false }),
    sans := s.sans, fmts := s.fmts, opNext := s.opNext }

/-! ### How a start begins (16 R414, R417, R420) -/

/-- A BOOT_HISTORY entry is pushed: slot and code (16 R417, Table 16.14). -/
def Boot.push (b : Boot) (slot code : Nat) : Boot := { b with history := (BitVec.ofNat 8 (slot * 64 + code) :: b.history).take 8 }

/-- The entry of the run that has ended takes the cause that ended it (16 R417). -/
def Boot.endRun (b : Boot) (cause : Nat) : Boot :=
  match b.history with
  | e :: t => if e.toNat % 64 = 0 then { b with history := BitVec.ofNat 8 (e.toNat + cause) :: t } else b
  | [] => b

/-- Trailhead mode is entered: mask ROM runs, its entry is pushed, the sideband and P0 are served (16 R420). -/
def State.enterTrailhead (s : State) (cause : Nat) : State :=
  let s := s.each [0, 1, 2, 3] fun s p => s.modPort p fun x => { x with training := p == 0 && !x.perst, crs := false }
  let s := s.modGlb fun g => { g with shelfFault := g.shelfFault || cause == 0x0C }
  (s.modBoot fun b => { (b.push 3 cause) with trailhead := true, slot := 3, cause := BitVec.ofNat 6 cause, starting := false, running := true }).raise 0x781

/-- Slot a start takes by the attempt counter: 0 the preferred one, 1 the other, 2 Golden (16 Table 16.3). -/
def Boot.slotFor (b : Boot) : BitVec 2 :=
  if b.attempt = 0 then b.preferred else if b.attempt = 1 then (if b.preferred = 1 then 2 else 1) else 0

/-- A start begins with a cause; with the counter at 3 it is Trailhead mode (16 R414, R420). -/
def State.beginStart (s : State) (cause : Nat) : State :=
  if s.boot.attempt = 3 then s.enterTrailhead 0x0C
  else s.modBoot fun b =>
    { b with trailhead := false, slot := b.slotFor, cause := BitVec.ofNat 6 cause, starting := true, running := false, startAt := s.now }

/-- A start fails: the counter rises with its mirror, the entry with its cause is pushed, every other island is reset, and the next start
begins, in which event 0x781 latches (16 R415). -/
def State.failStart (s : State) (cause : Nat) : State :=
  let s := s.modBoot fun b =>
    { (b.push b.slot.toNat cause) with attempt := BitVec.ofNat 2 (min 3 (b.attempt.toNat + 1)), mirror := BitVec.ofNat 2 (min 3 (b.attempt.toNat + 1)),
                                       lastFail := BitVec.ofNat 6 cause }
  ((s.wipe false).halfHeads.beginStart cause).raise 0x781

end Sys2Proof.Machine
end

