-- ==== Sys2Proof/Machine/CalRec.lean ====
section
/-! DEFINITION. Calibration records: their header, the two flash slots of a device record, and the source an HDA record is taken from (12 R354
to R356). -/
namespace Sys2Proof.Machine

open Sys2Proof

/-- SEQ of a record. -/
def calSeq (r : List Byte) : Nat := fieldAt r 4 4
/-- The body of a record: LEN bytes after its header. -/
def calBody (r : List Byte) : List Byte := (r.drop 16).take (fieldAt r 8 4)

/-- A record with its header (12 Table 12.6). -/
def calRecord (typ scope act head seq : Nat) (body : List Byte) : List Byte :=
  let h := leBytes 1 typ ++ leBytes 1 scope ++ leBytes 1 act ++ leBytes 1 head ++ leBytes 4 seq ++ leBytes 4 body.length
  h ++ leBytes 4 (crc32c (h ++ body)).toNat ++ body

/-- Is a record good: its check word passes, and TYPE and SCOPE match the place it was read from (12 R354)? -/
def calGood (typ scope : Nat) (r : List Byte) : Bool :=
  decide (16 + fieldAt r 8 4 ≤ r.length) && decide (fieldAt r 12 4 = (crc32c (r.take 12 ++ calBody r)).toNat) && decide (byteAt r 0 = typ ∧ byteAt r 1 = scope)

/-- The newer good one of two slots or copies (12 R355). -/
def calNewer (typ scope : Nat) (p q : List Byte) : Option (List Byte) :=
  if calGood typ scope p then (if calGood typ scope q && decide (calSeq p < calSeq q) then some q else some p)
  else if calGood typ scope q then some q else none

/-! ### Device records (12 R355, R356) -/

/-- The two flash slots of a device record. -/
def State.devSlots (s : State) (typ : Nat) : List Byte × List Byte := s.cal.flash.get (fun _ => ([], [])) typ

/-- A new device record is written into the slot that holds the older generation, or no good record, and read back (12 R355). -/
def State.writeDev (s : State) (typ : Nat) (body : List Byte) : State :=
  let (p, q) := s.devSlots typ
  let seq := ((calNewer typ 0 p q).map fun r => calSeq r + 1).getD 1
  let r := calRecord typ 0 0 0 (seq % 2 ^ 32) body
  let first := !(calGood typ 0 p) || (calGood typ 0 q && decide (calSeq p < calSeq q))
  { s with cal := { s.cal with flash := s.cal.flash.put typ (if first then (r, q) else (p, r)) } }

/-- The body a device record gives at a start, where the slots in `bad`, numbered 2 × TYPE + slot, fail their check words: the newer good slot's
(12 R355). -/
def State.devBody (s : State) (bad : List Nat) (typ : Nat) : Option (List Byte) :=
  let (p, q) := s.devSlots typ
  let rd (k : Nat) (r : List Byte) : List Byte := if bad.contains (2 * typ + k) then [] else r
  (calNewer typ 0 (rd 0 p) (rd 1 q)).map calBody

/-- A device record in force that fails its check word falls back, to the other slot or to the value fixed at manufacture: counted, and event 0x7B0
(12 R356). -/
def State.devFall (s : State) (bad : List Nat) (typ : Nat) : State :=
  let (p, q) := s.devSlots typ
  let k := if calNewer typ 0 p q = some q ∧ ¬ (calNewer typ 0 p q = some p) then 1 else 0
  if (calNewer typ 0 p q).isSome && bad.contains (2 * typ + k) then
    { s with cal := { s.cal with fallback := s.cal.fallback + 1 } }.raise 0x7B0
  else s

/-- The body of the device trims: e_it, e_rd, ch_a and ch_b. -/
def Tally.trims (t : Tally) : List Byte := leBytes 4 t.eIt ++ leBytes 4 t.eRd ++ leBytes 4 t.chA ++ leBytes 4 t.chB

/-- The device trims of a record. -/
def Tally.withTrims (t : Tally) (b : List Byte) : Tally :=
  { t with eIt := fieldAt b 0 4, eRd := fieldAt b 4 4, chA := fieldAt b 8 4, chB := fieldAt b 12 4 }

/-- The device trims load from flash when COLD_RST_N ends: from the newer good slot, else the values fixed at manufacture (12 R355, R356). -/
def State.loadTrims (s : State) (bad : List Nat) : State :=
  let s := s.devFall bad 0x10
  match s.devBody bad 0x10 with
  | some b => { s with tally := s.tally.withTrims b }
  | none => s

/-! ### HDA records (12 R355, R356) -/

/-- Where an HDA record is taken from: 0 the newer of two good copies, 1 the only good copy, 2 the descriptor store, 3 the factory baseline, 4
nowhere (12 R356). -/
def hdaSource (r : HdaRec) : Nat :=
  let good (b : List Byte) : Bool := calGood r.typ r.scope b
  if good r.copy0 && good r.copy1 then 0 else if good r.copy0 || good r.copy1 then 1 else if good r.store then 2 else if good r.base then 3 else 4

/-- Kind of calibration that a record's fall to the baseline marks its head for: channel, servo or assist (12 R356). -/
def hdaKind (r : HdaRec) : Nat := if r.typ = 1 then 1 else if r.typ = 3 then 2 else if r.typ = 6 then 3 else 0

/-- Does a spindle or servo record resolve to nothing (12 R357)? -/
def hdaMissing (rs : List HdaRec) : Bool := rs.any fun r => (r.typ == 8 || r.typ == 3) && hdaSource r == 4

/-- Records that took another source than the one in force. -/
def hdaFalls (rs : List HdaRec) : Nat := (rs.filter fun r => decide (1 ≤ hdaSource r ∧ hdaSource r ≤ 3)).length

/-- Heads that use the baseline, with the kind of calibration it marks them for: of a record of the actuator, all of them (12 R356). -/
def hdaBaseline (rs : List HdaRec) : List (Nat × Nat × Nat) :=
  (rs.filter fun r => hdaSource r == 3 && hdaKind r != 0).flatMap fun r =>
    if r.scope = 3 then [(r.side % 2, r.head, hdaKind r)] else (List.range 16).map fun h => (r.side % 2, h, hdaKind r)

end Sys2Proof.Machine
end

