-- ==== Sys2Proof/Machine/Cache.lean ====
section
/-! DEFINITION. The line cache, its replacement and the victim store (11 R312 to R320). -/
namespace Sys2Proof.Machine

open Sys2Proof

/-- Change the line cache. -/
def State.modCache (s : State) (g : CacheSt → CacheSt) : State := { s with cache := g s.cache }

/-- Set index of a line: address bits [22:7] XOR bits [35:23] (11 R312). -/
def setOf (x : Nat) : Nat := Nat.xor (x / 128 % 65536) (x / 2 ^ 23 % 8192)

/-- Does an area hold privileged lines (11 Table 11.1)? -/
def privArea (n : Nat) : Bool := n < 8
/-- Does a miss in an area allocate (11 Table 11.1)? -/
def allocArea (n : Nat) : Bool := n < 8 || n == 16
/-- Has an area a clean source for its contents; of areas 0 and 1 the image copies alone, of area 7 the other copy (11 Table 11.1)? -/
def cleanArea (n : Nat) : Bool := n < 2 || n == 3 || n == 4 || n == 7 || n == 11 || n == 16

/-- May the ways of a group be allocated (11 R318 to R320)? -/
def CacheSt.groupOn (c : CacheSt) (g : Nat) : Bool := c.wgon.getLsbD g && !c.walking.getLsbD g && !c.wgdis.getLsbD g && !c.cdis && !c.wgfail.getLsbD g
/-- May a way be allocated? -/
def CacheSt.wayOn (c : CacheSt) (w : Nat) : Bool := c.groupOn (w / 2)

/-- The way the replacement tree leads to, a branch into disabled groups alone being taken the other way (11 R314). -/
def treeWay (t : BitVec 15) (ok : Nat → Bool) : Nat → Nat → Nat → Nat
  | 0, _, lo => lo
  | n + 1, node, lo =>
    let left := (List.range (2 ^ n)).any fun i => ok (lo + i)
    let right := (List.range (2 ^ n)).any fun i => ok (lo + 2 ^ n + i)
    if (t.getLsbD node && right) || !left then treeWay t ok n (2 * node + 2) (lo + 2 ^ n) else treeWay t ok n (2 * node + 1) lo

/-- A hit or fill points the tree away from the way used (11 R314). -/
def treeTouch (w : Nat) : Nat → Nat → BitVec 15 → BitVec 15
  | 0, _, t => t
  | n + 1, node, t =>
    let right := w / 2 ^ n % 2 == 1
    let t := if right then t &&& ~~~(BitVec.ofNat 15 (2 ^ node)) else t ||| BitVec.ofNat 15 (2 ^ node)
    treeTouch w n (if right then 2 * node + 2 else 2 * node + 1) t

/-- CLEAN_LIMIT: values outside 25 to 100 act as 75 (11 Table 11.11). -/
def CacheSt.limit (c : CacheSt) : Nat := within 25 100 75 c.cleanLimit.toNat

/-- Is a line of the victim store dirty: the store's write of it to DRAM has not ended (11 R316)? -/
def Line.dirtyAt (l : Line) (now : Nat) : Bool := l.dirty && decide (now < l.due)

/-- Room for one more line in the victim store: the oldest clean line is displaced from a full one (11 R316). -/
def displace (now : Nat) (l : List Line) : List Line :=
  if l.length < 32768 then l
  else match l.span (·.dirtyAt now) with
    | (d, _ :: t) => d ++ t
    | (d, []) => d.drop 1

/-- Dirty lines the victim store holds, at most 8,192; the offers beyond them wait on the offer path (11 R316). -/
def CacheSt.victimDirty (c : CacheSt) (now : Nat) : Nat := min 8192 (c.victim.filter (·.dirtyAt now)).length
/-- Lines the victim store holds, those still on the offer path apart (11 R316, R317). -/
def CacheSt.victimLines (c : CacheSt) (now : Nat) : Nat := c.victim.length - ((c.victim.filter (·.dirtyAt now)).length - 8192)

/-- A line enters the victim store: a dirty one is written to DRAM after those before it, at least one line per 8 ns (11 R316). -/
def CacheSt.store (c : CacheSt) (now : Nat) (x : Line) : CacheSt :=
  let last := (c.victim.map (·.due)).foldl max now
  let due := if x.dirty then last + Config.dramNs x.addr now % 9 else 0
  { c with victim := displace now (c.victim.filter fun l => l.addr != x.addr) ++ [{ x with due := due, way := 0 }] }

/-- A privileged line is offered to the victim store: a dirty one is accepted and written to DRAM, a clean one is accepted below CLEAN_LIMIT,
otherwise declined (11 R316). -/
def CacheSt.offer (c : CacheSt) (now : Nat) (x : Line) : CacheSt :=
  if !x.dirty && decide (c.limit * 32768 ≤ c.victimLines now * 100) then { c with vdecline := c.vdecline + 1 } else c.store now x

/-- A line leaves the cache: a privileged one is offered to the victim store, another dropped, after a write-back when dirty, which reaches
DRAM within 2 µs (11 R315, R316). -/
def CacheSt.evict (now : Nat) (c : CacheSt) (x : Line) : CacheSt :=
  if x.priv then c.offer now x
  else if !x.dirty then c
  else { c with wback := Tab.put (c.wback.filter fun r => decide (now < r.2)) x.addr (now + Config.dramNs x.addr now % 2001) }

/-- The valid lines of a set. -/
def CacheSt.setLines (c : CacheSt) (k : Nat) : List Line := c.lines.get (fun _ => []) k
/-- Put the valid lines of a set. -/
def CacheSt.putSet (c : CacheSt) (k : Nat) (l : List Line) : CacheSt :=
  { c with lines := if l.isEmpty then Tab.del c.lines k else c.lines.put k l }
/-- A way of a set is used. -/
def CacheSt.use (c : CacheSt) (k w : Nat) : CacheSt := { c with tree := Tab.upd (fun _ => 0) c.tree k (treeTouch w 4 0) }

/-- A line is filled into a set: the lowest invalid way of an enabled group, else where the tree leads (11 R314). -/
def CacheSt.fill (c : CacheSt) (now k : Nat) (x : Line) : CacheSt :=
  let ls := c.setLines k
  if !((List.range 16).any c.wayOn) then c
  else
    let w := ((List.range 16).find? fun w => c.wayOn w && !(ls.any fun l => l.way == w)).getD (treeWay (c.tree.get (fun _ => 0) k) c.wayOn 4 0 0)
    let c := match ls.find? fun l => l.way == w with
      | some old => c.evict now old
      | none => c
    (c.putSet k ((ls.filter fun l => l.way != w) ++ [{ x with way := w }])).use k w

/-- An access of channel `ch` to a line of area `n`: a hit is served by the cache, a write leaving the line dirty; a miss in an ALLOC area
allocates, a privileged one taking the victim store's copy with its state. A miss on a line whose write-back has not reached DRAM waits for
it. With the cache disabled the victim store serves privileged lines, allocating on each miss (11 R313, R315, R317, R320). -/
def CacheSt.access (c : CacheSt) (now ch n x : Nat) (write : Bool) : CacheSt :=
  let k := setOf x
  let count (hit : Bool) (c : CacheSt) : CacheSt :=
    if hit then { c with hits := Tab.upd (fun _ => 0) c.hits ch (· + 1) }
    else
      let c := if (c.wback.find x).any fun t => decide (now < t) then { c with evwait := c.evwait + 1 } else c
      { c with misses := Tab.upd (fun _ => 0) c.misses ch (· + 1) }
  let inVictim := c.victim.find? fun l => l.addr == x
  match (c.setLines k).find? fun l => l.addr == x with
  | some l => ((count true c).putSet k ((c.setLines k).map fun y => if y.addr = x then { y with dirty := y.dirty || write } else y)).use k l.way
  | none =>
    if c.cdisabled then
      if !(privArea n) then count false c
      else match inVictim with
        | some l => if write then (count true c).store now { l with dirty := true } else count true c
        | none => (count false c).store now { addr := x, priv := true, dirty := write }
    else
      let c := count false c
      if !(allocArea n) then c
      else
        let c := { c with victim := c.victim.filter fun l => l.addr != x }
        c.fill now k { addr := x, priv := privArea n, dirty := write || inVictim.any (·.dirtyAt now) }

/-- Is a copy of the line in the cache or the victim store dirty (11 R331)? -/
def CacheSt.dirtyCopy (c : CacheSt) (now x : Nat) : Bool :=
  ((c.setLines (setOf x)).any fun l => l.addr == x && l.dirty) || c.victim.any fun l => l.addr == x && l.dirtyAt now

/-! ### Way groups (11 R318 to R320, R332) -/

/-- Bit `g` of a way-group field. -/
def wayBit (g : Nat) : BitVec 8 := BitVec.ofNat 8 (2 ^ (g % 8))

/-- A disable walk of a powered group starts (11 R318). -/
def State.startWalk (s : State) (g : Nat) : State :=
  s.modCache fun c => if c.wgon.getLsbD g then { c with walking := c.walking ||| wayBit g } else c

/-- Lines of a group in the sets below `n` are evicted and invalid (11 R318). -/
def CacheSt.walk (c : CacheSt) (now g n : Nat) : CacheSt :=
  let mine (l : Line) : Bool := l.way / 2 == g
  let gone := (c.lines.filter fun r => r.1 < n).flatMap fun r => r.2.filter mine
  let c := gone.foldl (CacheSt.evict now) c
  { c with lines := (c.lines.map fun r => if r.1 < n then (r.1, r.2.filter fun l => !(mine l)) else r).filter fun r => !r.2.isEmpty }

/-- A group is wanted again: a walk of it stops, the sets walked so far, whose number is free, being invalid; a group powered down powers up
empty (11 R319). -/
def State.wantGroup (s : State) (g : Nat) : State :=
  let c := s.cache
  if c.wgfail.getLsbD g || c.cdis || c.wgdis.getLsbD g then s
  else if c.walking.getLsbD g then
    let n := s.free.toNat % 65537
    s.useFree.modCache fun c => { c.walk s.now g n with walking := c.walking &&& ~~~(wayBit g) }
  else if c.wgon.getLsbD g then s
  else (s.modCache fun c => { c with wgon := c.wgon ||| wayBit g }).raise (0x6A0 + g)

/-- WGDIS bit `g` set (11 R318). -/
def State.disableGroup (s : State) (g : Nat) : State :=
  (s.modCache fun c => { c with wgdis := c.wgdis ||| wayBit g }).startWalk g

/-- WGDIS bit `g` cleared (11 R319). -/
def State.enableGroup (s : State) (g : Nat) : State :=
  (s.modCache fun c => { c with wgdis := c.wgdis &&& ~~~(wayBit g) }).wantGroup g

/-- CDIS set: every group is walked; with no group powered the disable is complete (11 R320). -/
def State.disableCache (s : State) : State :=
  if s.cache.cdis then s
  else
    let s := (s.modCache fun c => { c with cdis := true }).each (List.range 8) State.startWalk
    if s.cache.walking = 0 then (s.modCache fun c => { c with cdisabled := true, disDone := true }).raise 0x6A8 else s

/-- CDIS cleared: the groups whose WGDIS bits are clear are re-enabled (11 R320). -/
def State.enableCache (s : State) : State :=
  if !s.cache.cdis then s
  else ((s.modCache fun c => { c with cdis := false, cdisabled := false }).each (List.range 8) State.wantGroup).raise 0x6A8

/-- The walk of a group ends: it holds no line and is powered down; with CDIS set the last one completes the disable (11 R318, R320). -/
def State.endWalk (s : State) (g : Nat) : State :=
  let asked := s.cache.cdis || s.cache.wgdis.getLsbD g
  let s := s.modCache fun c =>
    { c.walk s.now g 65536 with walking := c.walking &&& ~~~(wayBit g), wgon := c.wgon &&& ~~~(wayBit g), disDone := c.disDone || asked }
  let s := s.raise (0x6A0 + g)
  if s.cache.cdis && s.cache.walking == 0 then (s.modCache fun c => { c with cdisabled := true }).raise 0x6A8 else s

/-- A group is treated as down for a hard fault: it is cleaned under a walk and then powered down (11 R332, 14 Table 14.2). -/
def State.faultGroup (s : State) (g : Nat) : State :=
  (s.modCache fun c => { c with wgfail := c.wgfail ||| wayBit g }).startWalk g

end Sys2Proof.Machine
end

