-- ==== Sys2Proof/Machine/Causeway.lean ====
section
/-! DEFINITION. Causeway links, bays joining and leaving (10; 05 R126, R152, R153; 12 R357). -/
namespace Sys2Proof.Machine

open Sys2Proof

/-- The Causeway link of actuator `a`. -/
def State.cwy (s : State) (a : Nat) : Cwy := (s.act a).cwy

/-! ### Which link carries the spindle records, and losses (10 R294 to R296) -/

/-- SPN of a bay's links: side A's while that is UP, else side B's (10 R296). -/
def State.refreshSpn (s : State) (b : Nat) : State :=
  let up := s.linkUp (2 * b)
  (s.modCwy (2 * b) fun c => { c with spn := up }).modCwy (2 * b + 1) fun c => { c with spn := !up && c.state == 5 }

/-- The loop of a lost link stops its runs: RETRACT with cause 4; the combo retracts the heads itself (08 R240). -/
def State.loopLost (s : State) (a : Nat) : State :=
  if (s.loop a).mode = 0 then s.modLoop a fun l => { l with runDue := false }
  else
    let s := s.enterRetract a 4
    s.modLoop a fun l => { l with runDue := false, retCause := 4, record := none }

/-- An actuator's link is lost: counted, the loop acts, the actuator is re-planned as back after retraining (10 ms and at most 40 ms), reload and
load (1 s and 1.5 s; DEDUCED from 08 R240, 09 Table 9.6 and 10 R295, Table 10.5); while lane D works its command frames carry EMRG for 1 ms;
retraining comes 10 ms later (10 R295; 08 R240; 02 R51). -/
def State.linkLost (s : State) (a : Nat) (dWorks : Bool) : State :=
  let s := s.modCwy a fun c =>
    { c with state := 6, loss := c.loss + 1, lostAt := s.now, emrg := dWorks, dOk := dWorks, retryAt := s.now + 10000000, wasUp := true }
  let s := (s.raise (bayEvt (bayOf a) 3)).refreshSpn (bayOf a)
  (s.loopLost a).serviceLost a (some (s.now + 2550000000))

/-- ERR_LIMIT: values below 8 act as 8 (10 Table 10.10). -/
def State.errLimit (s : State) : Nat := max 8 s.cfg.errLimit.toNat

/-- Failed frames of the last 1 ms, with `n` new ones. -/
def recentFails (w : List Nat) (now n : Nat) : List Nat := w.filter (fun t => decide (now < t + 1000000)) ++ List.replicate n now

/-- The heads of an actuator in single-reader mode: one reader marked faulty, or a link that carries one reader; event 8a + 2 latches when a head enters
it (06 R166, R189; 10 R294). -/
def State.refreshSingle (s : State) (a : Nat) : State :=
  let on (h : Nat) : Bool := let x := s.head a h; x.present && (x.rd0Bad != x.rd1Bad || (s.cwy a).single)
  let v := BitVec.ofNat 16 (((List.range 16).map fun h => if on h then 2 ^ h else 0).sum)
  let s' := s.modCfe a fun c => { c with single := v }
  if v &&& ~~~(s.act a).cfe.single != 0 then s'.raise (actEvt a 2) else s'

/-- An upstream lane fails: a lane mode entry moves the front-end to the other within 2 µs, whose samples are erased, or the link is lost (10 R293 to
R295). -/
def State.laneFails (s : State) (a : Nat) (u1 lock : Bool) : State :=
  let c := s.cwy a
  if (if u1 then c.u0Ok else c.u1Ok) then
    let s := s.modCwy a fun c => { c with u0Ok := c.u0Ok && u1, u1Ok := c.u1Ok && !u1, single := true, spare := c.spare + 1 }
    let rdr := (s.head a (s.loop a).tgtHead).rd0Bad
    ((s.emit (.laneMode a true (!u1) rdr)).eraseFor a 2000000).raise (bayEvt (bayOf a) 3) |>.refreshSingle a
  else (s.modCwy a fun c => { c with u0Ok := c.u0Ok && (u1 || lock), u1Ok := c.u1Ok && (!u1 || lock) }).linkLost a true

/-! ### Upstream frames (10 R286 to R293) -/

/-- Is a frame's header malformed: a sample count over 288, or a reserved bit set (10 Table 10.1, R291)? -/
def frameMalformed (f : UpFrame) : Bool := decide (288 < (f.hdr.extractLsb' 47 9).toNat) || f.hdr.extractLsb' 0 29 != 0

/-- The CRC-32C of a frame's blocks 0 to 30 matches its check block; bytes are taken as they are transmitted, low byte of a block first (10 R286). -/
def frameCrcOk (f : UpFrame) : Bool :=
  f.check.extractLsb' 32 32 == crc32c ((f.hdr :: (f.blocks ++ f.tele)).flatMap fun w => leBytes 8 w.toNat)

/-- The zero-crossing report of a telemetry entry: its TIME is the frame's arrival less ULAT less DT (09 Table 9.2; 10 R288, Table 10.2). -/
def State.crossingOf (s : State) (a : Nat) (e : BitVec 64) : BitVec 64 :=
  let t := s.now - (s.cwy a).ulat.toNat / 10 - (e.extractLsb' 48 12).toNat
  BitVec.ofNat 64 (at_ 32 (t % 2 ^ 32) + at_ 16 (e.extractLsb' 36 12).toNat + at_ 13 (e.extractLsb' 33 3).toNat + at_ 11 (e.extractLsb' 31 2).toNat
    + at_ 10 (bit (e.getLsbD 30)) + at_ 9 (bit (e.getLsbD 29)) + at_ 8 (bit (e.getLsbD 28)) + (e.extractLsb' 20 8).toNat)

/-- One telemetry entry of a good frame. A zero-crossing is taken here, as ZERO_CROSSING_REPORT takes its rebuilt report; assist feedback and bay sensor
entries come as their own commands, and an echo reply belongs to training (10 Table 10.2). -/
def State.telemetry (s : State) (a : Nat) (e : BitVec 64) : State :=
  match (e.extractLsb' 60 4).toNat with
  | 1 => s.zeroCross (bayOf a) (s.crossingOf a e)
  | 3 => s.modCwy a fun c => { c with vcmVel := e.extractLsb' 32 16, parked := e.getLsbD 31, selfRet := e.getLsbD 30 }
  | 5 => s.modCwy a fun c => { c with deferred := (e.extractLsb' 0 32).toNat }
  | 7 => s.modCwy a fun c => { c with vsup := e.extractLsb' 36 12, faults := e.extractLsb' 28 8 }
  | _ => s

/-- Downstream frames newly reported failed: counted, a write routine whose gate is open abandoned, and lane D watched (10 R292, R293; 07 Table
7.2). -/
def State.downErrors (s : State) (a : Nat) (cnt : BitVec 8) : State :=
  let c := s.cwy a
  let n := match c.derrCnt with
    | some x => (cnt - x).toNat
    | none => 0
  let w := recentFails c.winD s.now n
  let s := s.modCwy a fun c =>
    { c with derrCnt := some cnt, derr := c.derr + BitVec.ofNat 32 n, badD := if n = 0 then 0 else c.badD + n, winD := w }
  let s := if 0 < n ∧ s.gateOpen a then (s.modFmt a fun f => { f with linkErr := f.linkErr + 1 }).abandonWrite a none false else s
  if 8 ≤ (s.cwy a).badD ∨ s.errLimit < w.length then s.linkLost a false else s

/-- A frame of a lane that fails: counted and its content lost; frame lock lost, 8 in a row or more than ERR_LIMIT in 1 ms fail the lane;
three in a row on every lane in use show no DERRCNT, and lane D has failed (10 R291, R293). -/
def State.badFrame (s : State) (a : Nat) (u1 lock : Bool) : State :=
  let s := s.eraseSamples a
  let c := s.cwy a
  let w := recentFails (if u1 then c.win1 else c.win0) s.now 1
  let n := (if u1 then c.bad1 else c.bad0) + 1
  let s := s.modCwy a fun c =>
    { c with uerr := c.uerr + 1, bad0 := if u1 then c.bad0 else n, bad1 := if u1 then n else c.bad1, win0 := if u1 then c.win0 else w,
             win1 := if u1 then w else c.win1, sidx0 := if u1 then c.sidx0 else none, sidx1 := if u1 then none else c.sidx1 }
  let c := s.cwy a
  if !lock || decide (8 ≤ n) || decide (s.errLimit < w.length) then s.laneFails a u1 lock
  else if (!c.u0Ok || decide (3 ≤ c.bad0)) && (!c.u1Ok || decide (3 ≤ c.bad1)) then s.linkLost a false
  else s

/-- UPSTREAM_FRAME: a frame of an upstream lane in use is checked; its telemetry is delivered or lost; after 4 in a row with block 0 out of place frame
lock is lost (10 R286 to R293). -/
def execUpstreamFrame (a : ActId) (u1 : Bool) (fr : UpFrame) (s : State) : Host.Outcome State Fault Refusal :=
  let c := s.cwy a.val
  let exp := if u1 then c.sidx1 else c.sidx0
  let sidx := fr.hdr.extractLsb' 29 16
  let next := some (sidx + (fr.hdr.extractLsb' 47 9).zeroExtend 16)
  let off := if fr.atPlace then 0 else (if u1 then c.off1 else c.off0) + 1
  .next <| if c.state ≠ 5 ∨ !(if u1 then c.u1Ok else c.u0Ok) then s
    else
      let s := s.modCwy a.val fun c => { c with off0 := if u1 then c.off0 else off, off1 := if u1 then off else c.off1 }
      if !fr.atPlace || !frameCrcOk fr || frameMalformed fr || exp.any (· != sidx) then s.badFrame a.val u1 (decide (off < 4))
      else
        let s := s.modCwy a.val fun c =>
          { c with lastOk := s.now, bad0 := if u1 then c.bad0 else 0, bad1 := if u1 then 0 else c.bad1, sidx0 := if u1 then c.sidx0 else next,
                   sidx1 := if u1 then next else c.sidx1 }
        (s.each (fr.tele.take 3) fun s e => s.telemetry a.val e).downErrors a.val (fr.check.extractLsb' 16 8)

/-- UPSTREAM_SILENCE_TIMEOUT: no frame passing its check for 2 µs (10 R295). -/
def execUpstreamSilenceTimeout (a : ActId) (s : State) : Host.Outcome State Fault Refusal :=
  let c := s.cwy a.val
  .next <| if c.state = 5 ∧ c.lastOk + 2000 ≤ s.now then (s.modCwy a.val fun c => { c with u0Ok := false, u1Ok := false }).linkLost a.val c.dOk else s

/-- EMRG_PERIOD_END: after 1 ms lane D goes to electrical idle (10 R295). -/
def execEmrgPeriodEnd (a : ActId) (s : State) : Host.Outcome State Fault Refusal :=
  let c := s.cwy a.val
  .next <| if c.state = 6 ∧ c.emrg ∧ c.lostAt + 1000000 ≤ s.now then s.modCwy a.val fun c => { c with emrg := false, dOk := false } else s

/-! ### Training (10 R297 to R299) -/

/-- CAUSEWAY_RETRAIN: a lost link retrains from BASIC 10 ms after its loss, and every 10 s after a failed retraining (10 R295, R299). -/
def execCausewayRetrain (a : ActId) (s : State) : Host.Outcome State Fault Refusal :=
  let c := s.cwy a.val
  let k := (s.bay (bayOf a.val)).link
  .next <| if c.state = 6 ∧ 0 < c.retryAt ∧ c.retryAt ≤ s.now ∧ k.present ∧ k.quar = 0 ∧ !(s.dom (domOf (bayOf a.val))).domfault then s.startBasic a.val
    else s

/-- Is a link still on its way to UP? -/
def State.training (s : State) (a : Nat) : Bool := let st := (s.cwy a).state; st == 2 || st == 3 || st == 4

/-- The other side's actuator of a bay. -/
def otherSide (a : Nat) : Nat := if a % 2 = 0 then a + 1 else a - 1

/-- The spin-up of a bring-up: the token is asked for; a spindle already at its gait passes at once to LOAD (10 R301). -/
def State.bringSpin (s : State) (b : Nat) : State :=
  let p := s.spin b
  let s := s.modLink b fun k => { k with step := 2 }
  if p.state = 5 ∧ !p.moving then
    let s := s.modLink b fun k => { k with step := 3 }
    s.each [2 * b, 2 * b + 1] fun s a => if s.linkUp a then s.requestLoad a else s
  else (s.modSpin b fun p => { p with goal := BitVec.ofNat 2 (s.startGait b), pstate := 0, pwant := 0 }).askToken b 3

/-- Both links of a bay have ended their training: with one UP a bring-up goes on to the spin-up; with none the attempt has failed (10 R299,
R301). -/
def State.trainingOver (s : State) (b : Nat) : State :=
  if s.training (2 * b) || s.training (2 * b + 1) then s
  else if s.bayUp b then (if (s.bay b).link.step = 1 then s.bringSpin b else s)
  else s.failBringUp b 2

/-- A link's training fails: it is tried again in 10 s; where side A fails BASIC at an insertion, side B reads the descriptor (10 R297, R299,
Table 10.6). -/
def State.trainFailed (s : State) (a : Nat) : State :=
  let c := s.cwy a
  let o := otherSide a
  let k := (s.bay (bayOf a)).link
  let s := s.modCwy a fun c => { c with state := 6, retryAt := s.now + 10000000000, dOk := false, u0Ok := false, u1Ok := false, emrg := false }
  let s := if c.wasUp then s.raise (bayEvt (bayOf a) 3) else s
  let s := if c.state = 2 ∧ !k.descRead ∧ (s.cwy o).state = 4 then s.modCwy o fun c => { c with state := 3, phaseAt := s.now } else s
  s.trainingOver (bayOf a)

/-- Does the descriptor keep the limits of Table 5.1 (05 R126)? -/
def descOk (d : Descriptor) : Bool :=
  d.crcOk && (d.version == 1 || d.version == 2) && decide (d.capacity ≤ 64000) && decide (1 ≤ d.headsA ∧ d.headsA ≤ 16)
    && decide (1 ≤ d.headsB ∧ d.headsB ≤ 16) && decide (d.recZones ≤ 64) && decide (5 ≤ d.sparePct ∧ d.sparePct ≤ 20)
    && decide (256 ≤ d.atiLimit ∧ d.atiLimit ≤ 65535)

/-- The fields of a good descriptor come into use (05 Table 5.1). -/
def State.useDesc (s : State) (b : Nat) (d : Descriptor) : State :=
  let s := s.modLink b fun k =>
    { k with descRead := true, descBytes := d.bytes, serial := d.serial, version := d.version, capacity := d.capacity, headsA := d.headsA,
             headsB := d.headsB, sto := d.sto, recZones := d.recZones, sparePct := d.sparePct, atiLimit := d.atiLimit }
  let side (s : State) (a n : Nat) : State :=
    let s := s.modMed a fun m => ({ m with heads := n, zones := d.zones, sparePct := d.sparePct } : Med).layOut
    s.each (List.range 16) fun s h => s.modHead a h fun x => { x with present := decide (h < n) }
  side (side s (2 * b) d.headsA) (2 * b + 1) d.headsB

/-- The DESCRIPTOR phase ends: a bad descriptor fails the attempt; a quarantined bay goes on only when it names another HDA (05 R126; 16 R421).
-/
def State.descEnd (s : State) (a : Nat) (d : Descriptor) (late : Bool) : State :=
  let b := bayOf a
  let k := (s.bay b).link
  if late || !(descOk d) then ((s.modCwy a fun c => { c with state := 1, retryAt := 0 }).modCwy (otherSide a) fun c => { c with state := 1, retryAt := 0 }).failBringUp b 1
  else if k.quar ≠ 0 ∧ k.quarSerial = d.serial then s.linksOff b
  else
    let s := if k.quar = 0 then s else (s.modLink b fun k => { k with quar := 0, quarSerial := [], failed := 0 }).setMedia b 1
    (s.useDesc b d).modCwy a fun c => { c with state := 4, phaseAt := s.now }

/-- Twice the half round trips of the echo rounds: RT - TT, in 0.1 ns. -/
def echoTrips (e : List (Nat × Nat)) : List Nat := e.map fun r => r.1 - r.2

/-- 16 echo rounds with a spread of at most 1.0 ns between their (RT - TT)/2 (10 R298, Table 10.6). -/
def echoOk (e : List (Nat × Nat)) : Bool :=
  let t := echoTrips e
  decide (e.length = 16) && decide (t.foldl max 0 ≤ t.foldl min (t.headD 0) + 20)

/-- DLAT or ULAT: the mean of (RT - TT)/2 over the rounds, adjusted by the fixed pipeline delays (10 R298). -/
def latency (down : Bool) (e : List (Nat × Nat)) : BitVec 16 := BitVec.ofInt 16 (((echoTrips e).sum / (2 * max 1 e.length) : Nat) + Config.pipeDelay down)

/-- A link reaches UP: its lanes and latencies; a lost link's loop learns the park state, and a spindle that both links had left is relocked
(08 R240, 09 R273, 10 R294, R298). -/
def State.linkReady (s : State) (a : Nat) (o : TrainOut) (k0 k1 : Bool) : State :=
  let b := bayOf a
  let first := !(s.bayUp b)
  let was := (s.cwy a).wasUp
  let one := !(k0 && k1)
  let s := s.modCwy a fun c =>
    { c with state := 5, dOk := true, u0Ok := k0, u1Ok := k1, single := one, spare := if one then c.spare + 1 else c.spare, rate := o.rate, dlat := latency true o.echo,
             ulat := latency false o.echo, off0 := 0, off1 := 0, bad0 := 0, bad1 := 0, badD := 0, win0 := [], win1 := [], winD := [], lastOk := s.now, derrCnt := none, sidx0 := none, sidx1 := none, wasUp := false, retryAt := 0, parked := o.parked }
  let s := if one then s.emit (.laneMode a true k1 (s.head a (s.loop a).tgtHead).rd0Bad) else s.emit (.laneMode a false false false)
  let s := (((s.emit (.rate a o.rate o.rate)).raise (bayEvt b 3)).refreshSpn b).refreshSingle a
  let l := s.loop a
  let s := if l.mode ≠ 5 then s
    else if o.parked then s.parked a
    else s.modLoop a fun l => { l with retractAt := s.now, emrg := false }
  let p := s.spin b
  let s := if first && was && p.state != 0 && p.state != 10 && (s.bay b).link.step == 0 then
      s.modSpin b fun p => { p with state := 6, relocking := true, relock := 0, ticked := s.now, linkBack := true, observer := false }
    else s
  s.trainingOver b

/-- TRAINING_PHASE_END: a phase of a link's training passes, fails, or reaches its time limit (10 R297, Table 10.6). -/
def execTrainingPhaseEnd (a : ActId) (o : TrainOut) (s : State) : Host.Outcome State Fault Refusal :=
  let c := s.cwy a.val
  let k := (s.bay (bayOf a.val)).link
  let x := otherSide a.val
  let late (ns : Nat) : Bool := decide (c.phaseAt + ns < s.now)
  .next <| if c.state = 2 then
      if late 20000000 || !o.dLock || !(o.u0Lock || o.u1Lock) then s.trainFailed a.val
      else
        let reads := !k.descRead && !k.rejoin && (a.val % 2 == 0 || !(s.training x || s.linkUp x))
        s.modCwy a.val fun c => { c with state := if reads then 3 else 4, phaseAt := s.now, tr0 := o.u0Lock, tr1 := o.u1Lock }
    else if c.state = 3 then s.descEnd a.val o.desc (late 10000000)
    else if c.state = 4 then
      let k0 := c.tr0 && o.u0Prbs
      let k1 := c.tr1 && o.u1Prbs
      if late 10000000 || !o.dPrbs || !(k0 || k1) || !echoOk o.echo then s.trainFailed a.val else s.linkReady a.val o k0 k1
    else s

/-! ### Insertion and removal (10 R300, R302; 05 R152) -/

/-- INSERTION_DECLARED: 100 ms of presence; the bay is JOINING and its bring-up begins (05 R153, 10 R300, R301, 16 R421). -/
def execInsertionDeclared (b : BayId) (s : State) : Host.Outcome State Fault Refusal :=
  .next <| if (s.bay b.val).link.present then s
    else
      let s := s.modLink b.val fun k =>
        { k with present := true, insertAt := s.now, failed := 0, rejoin := false, noCount := false, descRead := false, prep := false, off := false,
                 retryAt := none, step := 0 }
      let s := (s.raise (bayEvt b.val 0)).setMedia b.val 1
      if s.boot.running && !s.boot.trailhead then s.bringUp b.val else s

/-- Media-map bytes an actuator needs (11 R309). -/
def State.mapNeed (s : State) (a : Nat) : Nat := (s.act a).med.extents * 8192 + (s.act a).med.bands * 32 + 10 * 2 ^ 20

/-- Does area 5 hold the maps of every bay that has joined and of bay `b` (11 R310)? -/
def State.mapsFit (s : State) (b : Nat) : Bool :=
  let joined := (List.range 72).filter fun x => x == b || let m := (s.bay x).link.media; 2 ≤ m && m != 6
  decide ((joined.map fun x => s.mapNeed (2 * x) + s.mapNeed (2 * x + 1)).sum ≤ (s.area 5).size.toNat * 2 ^ 28)

/-- The media state of a bay that has passed its calibration check; while area 5 cannot hold its maps it stays in JOINING. A READY bay's
actuators take work, and operations that waited for it go on (05 R151, R153; 11 R310). -/
def State.settleMedia (s : State) (b : Nat) : State :=
  if !(s.mapsFit b) then (s.modLink b fun k => { k with step := 5 }).raise (bayEvt b 1)
  else
    let s := (s.modLink b fun k => { k with step := 0, failed := 0, noCount := false, rejoin := false }).setMedia b (s.identityState b)
    let mine (a : Nat) : Bool := bayOf a == b
    let s := s.mapFmt fun o => if o.st = 2 ∧ (s.formatActs o).any mine ∧ (s.formatActs o).all (fun a => (s.bay (bayOf a)).link.present) then { o with st := 1 } else o
    let s := if (s.bay b).link.media = 2 then s.each [2 * b, 2 * b + 1] fun s a => (s.replayJournal a).replayHold a else s
    let s := s.sanRejoin b
    (s.dispatch (2 * b)).dispatch (2 * b + 1)

/-- Bays waiting for area 5 are served in the order they joined (11 R310). -/
def State.settleWaiting (s : State) : State :=
  let ws := (List.range 72).filter fun b => (s.bay b).link.step == 5 && (s.bay b).link.present
  s.each (sortBy (fun x y => decide ((s.bay x).link.insertAt ≤ (s.bay y).link.insertAt)) ws) fun s b => if s.mapsFit b then s.settleMedia b else s

/-- What one actuator of a removed bay leaves: no link, no loop, no routine, no samples, no grazing of its own (05 R152, 10 R302). -/
def State.actGone (s : State) (a : Nat) : State :=
  let s := s.modCwy a fun c =>
    { c with state := 0, dOk := false, u0Ok := false, u1Ok := false, single := false, rdr := false, spn := false, emrg := false, retryAt := 0, wasUp := false }
  let s := s.modLoop a fun l =>
    { l with mode := 0, runDue := false, retractReq := none, seeking := false, reloadAt := 0, emrg := false, record := none, newRec := false, streak := 0 }
  let s := s.modFmt a fun f => { f with running := none, waiting := none, queue := [], gate := false, assist := .off, sqz := false, sqzWait := false, sqzReq := none, sqzBand := none, stopped := none }
  let s := s.modCfe a fun c => { c with retained := [], slots := [], replayQ := [], refTrack := none }
  let s := s.modPool fun p => { p with attempts := p.attempts.filter fun x => !(x.act == a && x.cmd == 0) }
  let s := s.modGraze a fun g => { g with pending := g.pending.filter fun o => 13 ≤ o.order }
  (s.modAdm a fun x => { x with running := none, queue := [], offline := false }).each (List.range 16) fun s h =>
    s.modHead a h fun x => { x with present := false }

/-- REMOVAL_DECLARED: 100 µs of absence; every command admitted on the bay completes with BAY_REMOVED, a thermal abort of the same device time
among them (01 R26, 05 R152, 10 R302, 16 R421). -/
def execRemovalDeclared (b : BayId) (s : State) : Host.Outcome State Fault Refusal :=
  .next <| if !(s.bay b.val).link.present then s
    else
      let as := [2 * b.val, 2 * b.val + 1]
      let s := (s.removedFirst b.val).finishAll ((as.flatMap s.admittedOn).eraseDups) Sts.bayRemoved
      let s := s.each as State.actGone
      let s := (s.gaitHours b.val).modSpin b.val fun p =>
        { p with state := 0, gait := 0, target := 0, goal := 0, moving := false, raising := false, spinUp := false, token := false, tokwait := false, rpm := 0,
                 observer := false, action := none, lowerTo := none, relocking := false, relock := 0, retrySpin := false, brakeTo := false,
                 standbyRet := false, stopAt := 0, fails := 0, stoppedFor := false, pstate := 2, pwant := 2, report := none, tick := false, inBand := 0 }
      let s := s.modLink b.val fun k =>
        { k with present := false, step := 0, retryAt := none, failed := 0, quar := 0, quarSerial := [], rejoin := false, noCount := false,
                 descRead := false, descBytes := [], serial := [], prep := false, off := false }
      let mine (a : Nat) : Bool := as.contains a
      let s := s.mapFmt fun o => if o.st = 1 ∧ (s.formatActs o).any mine then { o with st := 2 } else o
      let s := s.each (s.sans.map (·.id)) State.sanTick
      let fs := (s.namespaces.filter fun r => r.2.actset.any mine).flatMap (·.2.attached)
      let s := ((s.raise (bayEvt b.val 0)).setMedia b.val 0).raiseFns fs.eraseDups 9
      let old := s
      let out (k : Nat) : Bool := k / 32 != b.val
      let lost := (List.range 4).any fun k => (s.thm.bay.get (fun _ => {}) (4 * b.val + k)).subst
      let s := { s with thm := { s.thm with bay := s.thm.bay.filter fun r => r.1 / 4 != b.val, bayScope := s.thm.bayScope.del b.val,
                                            head := s.thm.head.filter fun r => out r.1, headScope := s.thm.headScope.filter fun r => out r.1 } }
      let s := if lost then s.raise 0x68A else s
      let o := old.bayScope b.val
      let s := if o.level ≠ 0 ∨ o.ainh ∨ o.ceil ≠ 3 then s.raise (0x5E0 + b.val) else s
      ((s.settleWaiting).ceilingsFrom old).reproject

/-- BRING_UP_RETRY: a failed attempt is retried after 1 s; links already UP are not trained again (10 R301). -/
def execBringUpRetry (b : BayId) (s : State) : Host.Outcome State Fault Refusal :=
  let k := (s.bay b.val).link
  .next <| if heldFor k.retryAt s.now 0 ∧ k.present ∧ k.quar = 0 then
      if s.bayUp b.val then ((s.modLink b.val fun k => { k with retryAt := none }).bringSpin b.val)
      else s.bringUp b.val
    else s

/-! ### The calibration check (12 R356, R357) -/

/-- Calibration of a head comes into force (07 R208, R209; 09 R264; 10 R294). -/
def HeadSt.calibrate (x : HeadSt) (c : HeadCal) : HeadSt :=
  { x with chan := c.chan, taps := [], code := c.start, lastGood := c.start, target := c.target, codeMin := c.codeMin, codeMax := c.codeMax, fbLo := c.fbLo, fbHi := c.fbHi, wear := c.wear,
           writeMw := c.writeMw, rd0Bad := c.rd0Bad, rd1Bad := c.rd1Bad, asst := c.asst, precomp := c.precomp, heatRd := c.heatRd, heatWr := c.heatWr,
           iv := c.iv, rdOff := c.rdOff, wrOff := c.wrOff }

/-- Does one of a record's copies pass its check word: the newer one of those that do is used (05 R128)? -/
def newestCopy (r : RecCopies) : Option Nat :=
  if r.ok0 ∧ r.ok1 then some (max r.seq0 r.seq1) else if r.ok0 then some r.seq0 else if r.ok1 then some r.seq1 else none

/-- A record both of whose copies fail is treated as absent, and bay event 1 latches (05 R128): without the band journal no zone is written and no
landing segment allocated, without the written map no conventional sector is, without a checkpoint the counters are 0, without its progress a
format starts again. -/
def State.absentRec (s : State) (a kind : Nat) : State :=
  let s := s.raise (bayEvt (bayOf a) 1)
  let mine (k : Nat) : Bool := s.actOf (k / 2 ^ 48) (k % 2 ^ 48) == a
  if kind = 0 then s.modMed a fun m => { m with identity := 0 }
  else if kind = 1 then
    let s := { s with zones := s.zones.filter fun r => s.actOf (r.1 / 2 ^ 24) (r.1 % 2 ^ 24 * 65536) != a }
    (s.modMed a fun m => { m with jsegs := [], landHdr := [] }).modFmt a fun f => { f with journal := [], jstate := [] }
  else if kind = 2 then { s with media := s.media.filter fun r => !(mine r.1 && !(s.ns (r.1 / 2 ^ 48)).zoned) }
  else if kind = 3 then s.modMed a fun m => { m with ati := [], atiBase := 0, atiCkpt := [], atiCkptBase := 0 }
  else if kind = 4 then s.modMed a fun m => { m with holdDir := [], holdClosed := none }
  else s.mapFmt fun o => { o with doneAt := o.doneAt.filter fun r => r.1 != a }

/-- The records of the reserved media area as one side's calibration check finds them (05 R128). -/
def State.checkRecs (s : State) (a side : Nat) (c : CalData) : State :=
  s.each ((List.range 6).filter fun k => (newestCopy (c.copies.get (fun _ => {}) (16 * side + k))).isNone) fun s k => s.absentRec a k

/-- One side's records come into force (12 R347, R356). The bands of a head whose readers are both marked faulty cannot be read: their zones are
OFFLINE (05 R133; DESIGN CHOICE: the spec names no test for it). -/
def State.calSide (s : State) (a side : Nat) (c : CalData) : State :=
  let seek := if side = 0 then c.seekA else c.seekB
  let s := s.modGraze a fun g => { g with factory := seek, seek := seek, seekVer := c.seekVer, gaitVer := c.gaitVer, measured := [], late := [], seeks := [] }
  let s := s.modCfe a fun x => { x with tapVer := c.tapVer, tgtVer := c.tgtVer }
  let s := s.modMed a fun m =>
    { m with identity := c.identity, places := c.places.foldl (fun t (k, (tr, h, an, spt)) =>
        if k / 2 ^ 24 = side then t.put (k % 2 ^ 24) { track := tr, head := h, angle := an, spt := spt } else t) m.places,
             found := c.found.filter fun f => s.actOf (f.key / 2 ^ 48) (f.key % 2 ^ 48) == a }
  let s := if c.identity = 1 then s else s.modMed a fun m => { m with landing := [] }
  let s := s.offerSet a (if side = 0 then c.setA else c.setB) (if side = 0 then c.rroA else c.rroB)
  let s := s.checkRecs a side c
  (fun (s : State) => s.refreshSingle a) <| s.each (List.range 16) fun s h => match c.heads.find (16 * side + h) with
    | some x => (fun s => if x.rd0Bad && x.rd1Bad && c.identity == 1 then s.zonesTo a h .offline else s) (s.modHead a h fun y => y.calibrate x)
    | none => s

/-- Mark a head for a kind of calibration (06 R162, 12 R350, R356). -/
def State.markHead (s : State) (a h kind : Nat) : State :=
  if kind = 1 then s.wantChanCal a h
  else if kind = 2 then s.modHead a h fun x => { x with markServo := true }
  else s.queueAssistCal a h

/-- A head that fails the channel or assist step: marked, its writes suspended (12 R357, 07 R211). -/
def State.checkFails (s : State) (a h kind : Nat) : State :=
  (s.modFmt a fun f => { f with calPend := headBit f.calPend h true, wsusp := headBit f.wsusp h true }).markHead a h kind

/-- Has one side passed: a head left that passes, and FOLLOW held (12 R357)? -/
def State.sidePasses (s : State) (b side : Nat) (c : CalData) : Bool :=
  let n := if side = 0 then (s.bay b).link.headsA else (s.bay b).link.headsB
  !(s.linkUp (2 * b + side)) || ((if side = 0 then c.followA else c.followB)
    && (List.range n).any fun h => !(c.chanBad.contains (16 * side + h)) && !(c.asstBad.contains (16 * side + h)))

/-- CALIBRATION_CHECK_END: the records come into force and the media state is determined, or the attempt fails (10 R301; 12 R356, R357; 05 R153).
-/
def execCalibrationCheckEnd (b : BayId) (c : CalData) (s : State) : Host.Outcome State Fault Refusal :=
  .next <| if (s.bay b.val).link.step ≠ 4 then s
    else
      let act (k : Nat) : Nat := 2 * b.val + k / 16 % 2
      let s := { s with cal := { s.cal with fallback := s.cal.fallback + BitVec.ofNat 32 (hdaFalls c.recs) } }
      let s := if hdaFalls c.recs = 0 then s else s.raise (bayEvt b.val 1)
      if hdaMissing c.recs || !(s.sidePasses b.val 0 c) || !(s.sidePasses b.val 1 c) then s.failBringUp b.val 5
      else
        let s := ((s.modSpin b.val fun p => { p with cal := c.spin, coastDec := c.spin.coastDec }).calSide (2 * b.val) 0 c).calSide (2 * b.val + 1) 1 c
        let s := s.modLink b.val fun k => { k with budLoads := c.budLoads, budRevs := c.budRevs, budStarts := c.budStarts }
        let s := s.each ((hdaBaseline c.recs).filter fun r => (s.head (2 * b.val + r.1) r.2.1).present) fun s (k, h, kind) => s.markHead (2 * b.val + k) h kind
        let s := s.each c.chanBad fun s k => s.checkFails (act k) (k % 16) 1
        let s := s.each c.asstBad fun s k => s.checkFails (act k) (k % 16) 3
        (s.settleMedia b.val).reproject

/-! ### LINK_CTRL (10 R303, R305, Table 10.12) -/

/-- LANES of a response: bits [27:21] of CFG_CWY_STAT. -/
def State.cwyLanes (s : State) (a : Nat) : Nat :=
  let c := s.cwy a
  let rdr := c.single && (s.head a (s.loop a).tgtHead).rd0Bad
  bit c.emrg + at_ 1 (bit c.spn) + at_ 2 (bit rdr) + at_ 3 (bit c.single) + at_ 4 (bit c.u1Ok) + at_ 5 (bit c.u0Ok) + at_ 6 (bit c.dOk)

/-- A LINK_CTRL response with the figures of a link, and data. -/
def State.linkReply (s : State) (k reason a : Nat) (data : List Byte) : State :=
  let c := s.cwy a
  s.respond k (leBytes 1 reason ++ leBytes 1 c.state.toNat ++ leBytes 1 (s.cwyLanes a) ++ leBytes 1 0 ++ leBytes 4 (c.ulat.toNat + at_ 16 c.dlat.toNat)
    ++ leBytes 4 c.uerr.toNat ++ leBytes 4 c.derr.toNat ++ data)

/-- Fields of a LINK_CTRL request. -/
def linkFields (p : List Byte) (lim : Nat) (off : Bool) : Bool :=
  reservedZero p [(0, 4)] && decide (byteAt p 1 < lim) && (off || fieldAt p 2 2 == 0)

/-- Is a bay absent or quarantined? -/
def State.bayOut (s : State) (b : Nat) : Bool := !(s.bay b).link.present || (s.bay b).link.quar != 0

/-- LINK_RETRAIN_ACTUATOR (10 R305). -/
def execLinkRetrainActuator (r : Requester) (s : State) : Host.Outcome State Fault Refusal :=
  .next <| s.serve r 0x0A10 (some 1) fun p =>
    let k := mbxOf r
    let a := byteAt p 1
    let b := bayOf a
    if !s.fromSteward r then s.linkReply k 2 a []
    else if !(linkFields p 144 false) then s.linkReply k 1 a []
    else if s.bayOut b || (s.bay b).link.off then s.linkReply k 5 a []
    else if (s.loop a).mode ≠ 0 then s.linkReply k 3 a []
    else if (s.spin b).state ≠ 0 ∧ !(s.linkUp (otherSide a)) then s.linkReply k 4 a []
    else ((s.startBasic a).refreshSpn b).linkReply k 0 a []

/-- LINK_PREPARE_REMOVAL: the bay's namespaces go not ready, its data are destaged and it enters Standby; then its links go to OFF (10 R303). -/
def execLinkPrepareRemoval (r : Requester) (s : State) : Host.Outcome State Fault Refusal :=
  .next <| s.serve r 0x0A10 (some 2) fun p =>
    let k := mbxOf r
    let b := byteAt p 1
    if !s.seesAll r then s.linkReply k 2 (2 * b) []
    else if !(linkFields p 72 false) then s.linkReply k 1 (2 * b) []
    else if s.bayOut b then s.linkReply k 5 (2 * b) []
    else
      let s := (s.modLink b fun x => { x with prep := true }).refreshNs
      let s := if (s.spin b).pstate = 2 ∧ (s.spin b).state = 0 ∧ !(s.bay b).link.off then
          ((s.modLink b fun x => { x with off := true }).linksOff b).raise (bayEvt b 3)
        else if (s.bay b).link.off then s else s.enterPower b 2
      s.linkReply k 0 (2 * b) []

/-- LINK_CANCEL_PREPARATION: an entry not yet done is dropped; a bay whose links are OFF rejoins by retraining, with no descriptor read and no
count toward quarantine (10 R303). -/
def execLinkCancelPreparation (r : Requester) (s : State) : Host.Outcome State Fault Refusal :=
  .next <| s.serve r 0x0A10 (some 3) fun p =>
    let k := mbxOf r
    let b := byteAt p 1
    let x := (s.bay b).link
    if !s.seesAll r then s.linkReply k 2 (2 * b) []
    else if !(linkFields p 72 false) then s.linkReply k 1 (2 * b) []
    else if !x.prep then s.linkReply k 6 (2 * b) []
    else
      let s := s.modLink b fun x => { x with prep := false, off := false, rejoin := x.rejoin || x.off, noCount := x.noCount || x.off }
      let s := if x.off then s.bringUp b
        else
          let q := s.spin b
          if q.pstate = 3 ∧ q.gait ≠ 0 ∧ !q.standbyRet then s.modSpin b fun p => { p with pstate := 0, pwant := 0 }
          else (s.modSpin b fun p => { p with pwant := 0 }).wake b
      s.refreshNs.linkReply k 0 (2 * b) []

/-- May a requester see a bay through LINK_CTRL (10 R305)? -/
def State.seesBay (s : State) (r : Requester) (b : Nat) : Bool := s.seesAll r || s.fnHasBay (fnNumber r) b

/-- LINK_STATUS (10 R305). -/
def execLinkStatus (r : Requester) (s : State) : Host.Outcome State Fault Refusal :=
  .next <| s.serve r 0x0A10 (some 4) fun p =>
    let k := mbxOf r
    let a := byteAt p 1
    if !(linkFields p 144 false) then s.linkReply k 1 a []
    else if !(s.seesBay r (bayOf a)) then s.linkReply k 7 a []
    else s.linkReply k 0 a []

/-- LINK_READ_DESCRIPTOR: descriptor bytes from OFFSET, at most 4,080 (10 R305). -/
def execLinkReadDescriptor (r : Requester) (s : State) : Host.Outcome State Fault Refusal :=
  .next <| s.serve r 0x0A10 (some 5) fun p =>
    let k := mbxOf r
    let b := byteAt p 1
    if !(linkFields p 72 true) then s.linkReply k 1 (2 * b) []
    else if !(s.seesBay r b) then s.linkReply k 7 (2 * b) []
    else s.linkReply k 0 (2 * b) (((s.bay b).link.descBytes.drop (fieldAt p 2 2)).take 4080)

end Sys2Proof.Machine
end

