-- ==== Sys2Proof/Machine/Grazing.lean ====
section
/-! DEFINITION. Calibration, its boundaries and the grazing messages (12; 07 R191, R211). -/
namespace Sys2Proof.Machine

open Sys2Proof

/-! ### Calibration passes of the formatter (07 Table 7.1; 12 Table 12.4, R350, R351) -/

/-- The fourth failure of a head's assist calibration: its zones are READ_ONLY, and admitted DC7 writes that need it end (12 R351; 05 R133). -/
def State.headFinal (s : State) (a h : Nat) : State :=
  let s := (s.modHead a h fun x => { x with final := true, calDue := 0 }).raise (actEvt a 3)
  let s := s.zonesTo a h .readOnly
  let x := (s.act a).adm
  let ids := ((x.running.toList ++ x.queue).filter fun o => o.cmd != 0 && o.dc == 7 && !o.read && o.kind == .media && o.head == h).map (·.cmd)
  s.finishAll ids.eraseDups Sts.unrecovered

/-- A head's assist calibration passes: its code and target come into force, and its suspension ends (07 R211; 12 R348, R351). -/
def State.assistPasses (s : State) (a h : Nat) (o : AsstCal) : State :=
  let s := s.modHead a h fun x =>
    { x with code := o.code.toNat, lastGood := o.code.toNat, target := o.target.toNat, calFails := 0, calDue := 0, final := false, asstAt := s.now,
             asstTemp := (s.thm.bay.get (fun _ => {}) (4 * bayOf a + 3)).temp, eqRun := 0, stuck := 0,
             asst := x.asst.map fun r => if r.1 % 4 = s.gaitNow (bayOf a) then (r.1, { r.2 with target := o.target.toNat }) else r }
  let s := s.modFmt a fun f =>
    { f with wsusp := headBit f.wsusp h false, calPend := headBit f.calPend h false, heldCode := headBit f.heldCode h false }
  (((s.modCfe a fun c => { c with tapVer := c.tapVer + 1 }).putRecords a [calKind 6 h]).replan a).dispatch a

/-- A head's assist calibration fails: suspended, it is tried again after 1 s, 10 s and 60 s; the fourth failure is final (12 R351). -/
def State.assistFails (s : State) (a h : Nat) : State :=
  let x := s.head a h
  let wait := if x.calFails = 0 then 1000000000 else if x.calFails = 1 then 10000000000 else 60000000000
  let s := s.modFmt a fun f => { f with wsusp := headBit f.wsusp h true, calPend := headBit f.calPend h true }
  if x.final then s
  else
    let s := s.modHead a h fun x => { x with calFails := x.calFails + 1, calDue := if 3 ≤ x.calFails then 0 else s.now + wait }
    if 3 ≤ x.calFails then (s.headFinal a h).headLost a h else s.headLost a h

/-- ASSIST_CAL: the calibration routine of the front command runs on the head's scratch tracks, and passes, fails or meets a feedback fault
(12 R349, R351; 07 R211). -/
def execAssistCal (a : ActId) (o : AsstCal) (s : State) : Host.Outcome State Fault Refusal :=
  .next <| match s.nextRoutine a.val 0x20 with
  | none => s
  | some q =>
    if o.fault then ((s.popFmt a.val).modFmt a.val fun f => { f with abandon := f.abandon + 1 }).suspendHead a.val q.head
    else
      let s := (s.popFmt a.val).modCfe a.val fun c => { c with band := false, refTrack := none }
      if o.passed then s.assistPasses a.val q.head o else s.assistFails a.val q.head

/-- A channel calibration of a head ends: new taps come into force at the head's next sector, gait-specific tables wait for a plan-empty
period, and a trial precompensation table is tried (12 Table 12.3, R348). -/
def State.channelDone (s : State) (a h : Nat) (o : ChanCal) : State :=
  let s := s.modHead a h fun x =>
    { x with markChan := false, chanAt := s.now, chanTemp := (s.thm.bay.get (fun _ => {}) (4 * bayOf a + 1)).temp, tapClamp := 0 }
  let s := if o.newTaps then (s.modCfe a fun c => { c with tapVer := c.tapVer + 1 }).modHead a h fun x =>
      { x with chan := o.chan.foldl (fun t r => Tab.upd (fun _ => {}) t r.1 fun c => { c with start := r.2.start, lo := r.2.lo, hi := r.2.hi }) x.chan,
               taps := [] } else s
  let s := if o.precomp.isEmpty then s else s.modHead a h fun x => { x with trial := { tables := o.precomp } }
  let s := s.putRecords a (if o.newTaps ∨ o.newTargets then [calKind 1 h] else [])
  if o.newTargets then (s.modHead a h fun x => { x with targNext := o.chan }).modGraze a fun g => { g with newGait := true, peWait := true } else s

/-- A servo calibration of a head ends: the runout tables learned wait for the loop's wedge boundary, and so does the set with the new gain scale where that
differs by more than 3 %; a change above 25 % is not applied, and the head stays marked (12 Table 12.4, R350). -/
def State.servoDone (s : State) (a h : Nat) (o : ChanCal) : State :=
  let s := s.modHead a h fun x => { x with markServo := decide (250 < o.gain), servoAt := s.now }
  let s := s.offerSet a (if 30 < o.gain ∧ o.gain ≤ 250 then o.set else none) o.rro
  let s := s.putRecords a ((if 30 < o.gain ∧ o.gain ≤ 250 ∧ o.set.isSome then [calKind 3 0] else []) ++ if o.rro.isSome then [calKind 4 h] else [])
  if 250 < o.gain then s.raise (actEvt a 1) else s

/-- CHANNEL_CAL: the channel or servo calibration of the front command runs (12 R349, R350). -/
def execChannelCal (a : ActId) (o : ChanCal) (s : State) : Host.Outcome State Fault Refusal :=
  .next <| match s.nextRoutine a.val 0x21 with
  | none => s
  | some q =>
    let s := (s.popFmt a.val).modCfe a.val fun c => { c with band := false, refTrack := none }
    if q.gkind = 2 then s.servoDone a.val q.head o else s.channelDone a.val q.head o

/-! ### The schedule (12 R341, R349, R351) -/

/-- MARGINAL_REREAD_DUE: one eighth of SCRUB_D after a pass, the marginal sectors of bands left in place are queued to be read again (12 R341). -/
def execMarginalRereadDue (a : ActId) (s : State) : Host.Outcome State Fault Refusal :=
  let g := (s.act a.val).graze
  .next <| if g.marg8.isEmpty || g.passEnd == 0 || decide (s.now < g.passEnd + (within 7 120 28 s.cfg.scrubDNow.toNat) * 10800000000000) then s
    else
      let op (k : Nat) : GrazeOp :=
        let (_, r, p) := (s.ns (k / 2 ^ 48)).locate (k % 2 ^ 48)
        { order := 11, pos := r * 65536 + p, count := 1, key := k, ref := 1 }
      s.modGraze a.val fun g => { g with pending := g.pending ++ g.marg8.map op, marg8 := [] }

/-- Has a bay sensor's reading changed by more than `n` °C from a reading? -/
def State.moved (s : State) (b kind : Nat) (was : Int) (n : Nat) : Bool :=
  let x := s.thm.bay.get (fun _ => {}) (4 * b + kind)
  x.seen && decide (16 * n < (x.temp - was).natAbs)

/-- Is a calibration of a head due (12 Table 12.4)? -/
def State.calDue (s : State) (a h kind : Nat) : Bool :=
  let x := s.head a h
  let day : Nat := 86400000000000
  if kind = 1 then x.markChan || decide (x.chanAt + 7 * day ≤ s.now) || s.moved (bayOf a) 1 x.chanTemp 5
  else if kind = 2 then x.markServo || decide (x.servoAt + day ≤ s.now)
  else if kind = 3 then (s.act a).fmt.calPend.getLsbD h || decide (x.asstAt + day ≤ s.now) || s.moved (bayOf a) 3 x.asstTemp 10
  else false

/-- A calibration of a head is queued as grazing, once; of a marked head's channel in its own order (12 Table 12.1, R349). -/
def State.queueCal (s : State) (a h kind : Nat) : State :=
  if kind = 1 ∧ (s.head a h).markChan then s.wantChanCal a h
  else if (s.act a).graze.pending.any fun g => g.kind == kind && g.head == h then s
  else s.modGraze a fun g => { g with pending := g.pending ++ [{ order := 9, kind := kind, head := h, count := 1, isRead := kind != 3 }] }

/-- CALIBRATION_DUE: queued as grazing; for a gait the bay is not running, at the first LOCKED at it (12 R349). -/
def execCalibrationDue (a : ActId) (h : HeadId) (kind gait : Fin 4) (s : State) : Host.Outcome State Fault Refusal :=
  let run := (s.bay (bayOf a.val)).spin.gait.toNat
  .next <| if !(s.head a.val h.val).present || !(s.calDue a.val h.val kind.val) then s
    else if gait.val = 0 ∨ gait.val = run then s.queueCal a.val h.val kind.val
    else s.modGraze a.val fun g =>
      if g.calWait.contains (kind.val, h.val, gait.val) then g else { g with calWait := g.calWait ++ [(kind.val, h.val, gait.val)] }

/-- ASSIST_CAL_RETRY: a failed assist calibration is queued again when its wait is over (12 R351). -/
def execAssistCalRetry (a : ActId) (h : HeadId) (s : State) : Host.Outcome State Fault Refusal :=
  let x := s.head a.val h.val
  .next <| if x.calDue = 0 ∨ s.now < x.calDue then s
    else (s.modHead a.val h.val fun x => { x with calDue := 0 }).queueAssistCal a.val h.val

/-! ### Seek bounds and the plan-empty period (12 R347, R348) -/

/-- The measured bound of a bin: the longest of its last 4,096 seeks and 10 %, never below its factory bound (12 R347). -/
def Graze.bound (g : Graze) (k : Nat) : Nat :=
  max (g.factory.get (fun _ => 0) k) ((g.measured.get (fun _ => []) k).foldl max 0 * 11 / 10)

/-- The bound a bin takes at the boundary: a longer one at once, a shorter one once in 24 hours and by at most 5 % (12 R347). -/
def Graze.adopt (g : Graze) (now k : Nat) : Nat :=
  let old := g.seek.get (fun _ => 0) k
  let new := g.bound k
  if old < new then new
  else if new < old ∧ (g.lowered.get (fun _ => 0) k = 0 ∨ g.lowered.get (fun _ => 0) k + 86400000000000 ≤ now) then max new (old - old * 5 / 100)
  else old

/-- Bins whose bound changes at the boundary. -/
def Graze.changes (g : Graze) (now : Nat) : List Nat := (g.measured.map (·.1)).filter fun k => g.adopt now k != g.seek.get (fun _ => 0) k

/-- Does a correction wait for a plan-empty period (CFG_GRZ_STAT.PE_WAIT; 12 R348)? -/
def Graze.waits (g : Graze) (now : Nat) : Bool := g.peWait || g.newGait || !(g.changes now).isEmpty

/-- The measured bounds of the seek model come into force (12 R347, R348). -/
def Graze.newBounds (g : Graze) (now : Nat) : Graze :=
  let ks := g.changes now
  let seek := ks.foldl (fun t k => Tab.put t k (g.adopt now k)) g.seek
  let low := (ks.filter fun k => g.adopt now k < g.seek.get (fun _ => 0) k).foldl (fun t k => Tab.put t k now) g.lowered
  { g with seek := seek, lowered := low, late := g.late.filter fun r => !(ks.contains r.1), seeks := g.seeks.filter fun r => !(ks.contains r.1),
           seekVer := if ks.isEmpty then g.seekVer else g.seekVer + 1 }

/-- The target and single-reader sets that wait come into force (12 R348). -/
def HeadSt.takeTargets (x : HeadSt) : HeadSt :=
  { x with chan := x.targNext.foldl (fun t r =>
             Tab.upd (fun _ => {}) t r.1 fun c => { c with targets := r.2.targets, single0 := r.2.single0, single1 := r.2.single1 }) x.chan,
           targNext := [] }

/-- PLAN_EMPTY_PERIOD: with no admitted command and no media operation for a revolution, gait-specific corrections come into force, and a
gait transition due is planned with them (12 R348). -/
def execPlanEmptyPeriod (a : ActId) (s : State) : Host.Outcome State Fault Refusal :=
  let x := s.act a.val
  let g := (s.bay (bayOf a.val)).spin.gait.toNat
  .next <| if x.adm.running.isSome || !(s.admittedOn a.val).isEmpty || (g != 0 && decide (s.now < x.adm.idleSince + revNs g)) then s
    else
      let tables := x.graze.newGait
      let s := s.modGraze a.val fun z =>
        let z := z.newBounds s.now
        { z with newGait := false, peWait := false, gaitVer := if tables then z.gaitVer + 1 else z.gaitVer }
      let s := if tables then (s.modCfe a.val fun c => { c with tgtVer := c.tgtVer + 1 }).modAct a.val fun x =>
          { x with heads := x.heads.map fun r => (r.1, r.2.takeTargets) } else s
      let s := if (x.graze.changes s.now).isEmpty then s else s.putRecords a.val [calKind 5 0]
      ((s.modAdm a.val fun d => { d with planEmpty := false }).replan a.val).dispatch a.val

/-! ### CALREF (12 R353) -/

/-- CALREF_CHECK: the converters' reading of CALREF against the bandgap, in 10 µV, each second (12 R353). -/
def execCalrefCheck (uv10 : BitVec 18) (s : State) : Host.Outcome State Fault Refusal :=
  let off := decide (2500 < ((uv10.toNat : Int) - 125000).natAbs)
  let c := s.cal
  let dis := if off then c.disagree + 1 else 0
  let agr := if off then 0 else c.agree + 1
  let s := { s with cal := { c with uv10 := uv10, disagree := dis, agree := if c.refFault then agr else 0 } }
  .next <| if !c.refFault ∧ 3 ≤ dis then
      let s := { s with cal := { s.cal with refFault := true, agree := 0 }, tally := { s.tally with enUntraced := true } }
      s.raise 0x7B1
    else if c.refFault ∧ 10 ≤ agr then
      let s := { s with cal := { s.cal with refFault := false, agree := 0, disagree := 0 } }
      s.raise 0x7B1
    else s

/-! ### GRAZE_CTRL (12 R358, Table 12.7) -/

/-- Bytes of an unreadable-sector entry (12 Table 12.7). -/
def Unreadable.bytes (u : Unreadable) : List Byte :=
  leBytes 2 u.nsid ++ leBytes 1 (if u.lost then 2 else 1) ++ leBytes 1 0 ++ leBytes 4 u.index ++ leBytes 8 u.lba ++ leBytes 4 u.gen.toNat ++ leBytes 4 0
    ++ leBytes 8 u.time

/-- A GRAZE_CTRL response without data. -/
def State.grazeSays (s : State) (r : Requester) (reason : Nat) : State := s.respond (mbxOf r) (reasonOnly reason 3)

/-- GRAZE_READ_UNREADABLE: entries from INDEX on, at most 127; to a PF not the steward those of its namespaces (12 R358). -/
def execGrazeReadUnreadable (r : Requester) (s : State) : Host.Outcome State Fault Refusal :=
  .next <| s.serve r 0x0C10 (some 1) fun p =>
    let a := byteAt p 1
    if !reservedZero p [(0, 8)] ∨ 144 ≤ a ∨ byteAt p 2 ≠ 0 ∨ byteAt p 3 ≠ 0 then s.grazeSays r 1
    else if !(s.seesAct r a) then s.grazeSays r 3
    else
      let mine (u : Unreadable) : Bool := s.seesAll r || (s.ns u.nsid).attached.contains (fnNumber r)
      let es := ((s.act a).graze.unread.filter fun u => mine u && decide (fieldAt p 4 4 ≤ u.index)).take 127
      s.respond (mbxOf r) (leBytes 1 0 ++ leBytes 1 es.length ++ leBytes 2 0 ++ es.flatMap Unreadable.bytes)

/-- GRAZE_CLEAR_ENTRY (12 R344). -/
def execGrazeClearEntry (r : Requester) (s : State) : Host.Outcome State Fault Refusal :=
  .next <| s.serve r 0x0C10 (some 2) fun p =>
    let a := byteAt p 1
    if byteAt p 3 ≠ 0 then s
    else if !s.fromSteward r then s.grazeSays r 2
    else if !reservedZero p [(0, 8)] ∨ 144 ≤ a ∨ byteAt p 2 ≠ 0 then s.grazeSays r 1
    else if !((s.act a).graze.unread.any fun u => u.index == fieldAt p 4 4) then s.grazeSays r 4
    else (s.modGraze a fun g => { g with unread := g.unread.filter fun u => u.index != fieldAt p 4 4, unrFull := false }).grazeSays r 0

/-- A recalibration of a head asked for by GRAZE_CTRL action 2 with a KIND: what queues it runs when the head is there (12 R358). -/
def State.recal (s : State) (r : Requester) (kind : Nat) (g : State → Nat → Nat → State) : State :=
  s.serve r 0x0C10 (some 2) fun p =>
    let a := byteAt p 1
    let h := byteAt p 2
    if byteAt p 3 ≠ kind then s
    else if !s.fromSteward r then s.grazeSays r 2
    else if !reservedZero p [(0, 8)] ∨ 144 ≤ a ∨ 16 ≤ h then s.grazeSays r 1
    else if !(s.head a h).present then s.grazeSays r 5
    else (g s a h).grazeSays r 0

/-- GRAZE_RECAL_CHANNEL (12 R358). -/
def execGrazeRecalChannel (r : Requester) (s : State) : Host.Outcome State Fault Refusal := .next (s.recal r 1 State.wantChanCal)

/-- GRAZE_RECAL_SERVO (12 R358). -/
def execGrazeRecalServo (r : Requester) (s : State) : Host.Outcome State Fault Refusal :=
  .next <| s.recal r 2 fun s a h => (s.modHead a h fun x => { x with markServo := true }).queueCal a h 2

/-- GRAZE_RECAL_ASSIST: a head suspended finally too is tried again (12 R351, R358). -/
def execGrazeRecalAssist (r : Requester) (s : State) : Host.Outcome State Fault Refusal := .next (s.recal r 3 State.queueAssistCal)

/-- Whole hours of a bay's spindle at a gait, the running one's time included (12 R346). -/
def State.hoursAt (s : State) (b g : Nat) : Nat :=
  let p := (s.bay b).spin
  ((s.bay b).link.hours.get (fun _ => 0) g + if p.gait.toNat = g then s.now - p.gaitAt else 0) / 3600000000000

/-- GRAZE_WEAR_STATUS (12 R346, Table 12.7). -/
def execGrazeWearStatus (r : Requester) (s : State) : Host.Outcome State Fault Refusal :=
  .next <| s.serve r 0x0C10 (some 3) fun p =>
    let a := byteAt p 1
    let b := bayOf a
    if !reservedZero p [(0, 8)] ∨ 144 ≤ a ∨ byteAt p 2 ≠ 0 ∨ byteAt p 3 ≠ 0 then s.grazeSays r 1
    else if !(s.seesAct r a) then s.grazeSays r 3
    else
      let k := (s.bay b).link
      s.respond (mbxOf r) (reasonOnly 0 3 ++ leBytes 4 (s.act a).graze.loads ++ leBytes 4 k.starts ++ leBytes 8 k.revs ++ leBytes 4 (s.hoursAt b 1)
        ++ leBytes 4 (s.hoursAt b 2) ++ leBytes 4 (s.hoursAt b 3) ++ leBytes 1 (s.act a).graze.pct.toNat ++ leBytes 3 0)

/-- GRAZE_PLAN_EMPTY_REQUEST: until the period has passed, the actuator refuses new DC1 to DC6 work and holds DC7 arrivals (12 R348). -/
def execGrazePlanEmptyRequest (r : Requester) (s : State) : Host.Outcome State Fault Refusal :=
  .next <| s.serve r 0x0C10 (some 4) fun p =>
    let a := byteAt p 1
    if !s.fromSteward r then s.grazeSays r 2
    else if !reservedZero p [(0, 8)] ∨ 144 ≤ a ∨ byteAt p 2 ≠ 0 ∨ byteAt p 3 ≠ 0 then s.grazeSays r 1
    else (s.modAdm a fun x => { x with planEmpty := true }).grazeSays r 0

end Sys2Proof.Machine
end

