-- ==== Sys2Proof/Machine/Thermal.lean ====
section
/-! DEFINITION. Thermal sensing and management: readings, levels, the action ladder, emergencies, THERMTRIP_N, substitution (13). -/
namespace Sys2Proof.Machine

open Sys2Proof

/-! ### Sensors (13 Table 13.1, R361, R362) -/

/-- Sensor `k` of a kind of sensors: 0 on-die, 1 bay, 2 head readback. -/
def Thm.sens (t : Thm) (c k : Nat) : Sens :=
  if c = 0 then t.die.get (fun _ => {}) k else if c = 1 then t.bay.get (fun _ => {}) k else t.head.get (fun _ => {}) k

/-- Put a sensor in its table. -/
def Thm.setSens (t : Thm) (c k : Nat) (x : Sens) : Thm :=
  if c = 0 then { t with die := Tab.put t.die k x } else if c = 1 then { t with bay := Tab.put t.bay k x } else { t with head := Tab.put t.head k x }

/-- Sensors that have readings, with their kinds and numbers. -/
def Thm.seen (t : Thm) : List (Nat × Nat) :=
  (t.die.map fun r => (0, r.1)) ++ (t.bay.map fun r => (1, r.1)) ++ (t.head.map fun r => (2, r.1))

/-- Change the thermal state. -/
def State.modThm (s : State) (g : Thm → Thm) : State := { s with thm := g s.thm }

/-- Class of a sensor, the row of THM_LIM it follows (13 Table 13.1). -/
def sensClass (c k : Nat) : Nat := if c = 0 then 0 else if c = 1 then 1 + k % 4 else 5

/-- Default EMRG, ACT and WARN of a class in °C (13 Table 13.9). -/
def thmDefault : Nat → ThmLim
  | 0 => { emrg := 105, act := 100, warn := 95 } | 1 => { emrg := 65, act := 60, warn := 55 } | 2 => { emrg := 95, act := 90, warn := 85 }
  | 3 => { emrg := 120, act := 110, warn := 100 } | 4 => { emrg := 80, act := 75, warn := 70 } | _ => { emrg := 190, act := 175, warn := 160 }

/-- Limits of a class as they act: EMRG above the default acts as the default; unless WARN < ACT < EMRG all three do (13 Table 13.9). -/
def State.thmLimits (s : State) (k : Nat) : ThmLim :=
  let d := thmDefault k
  let l := s.cfg.thmLim.get thmDefault k
  let l := if d.emrg < l.emrg then { l with emrg := d.emrg } else l
  if l.warn < l.act ∧ l.act < l.emrg then l else d

/-- A limit in 1/16 °C. -/
def sixteenths (w : Byte) : Int := 16 * w.toNat

/-- Neighbours of a sensor (13 Table 13.1). -/
def sensNeighbours (c k : Nat) : List Nat :=
  if c = 0 then
    (if 12 ≤ k then [k - 12] else []) ++ (if k + 12 < 96 then [k + 12] else []) ++ (if k % 12 ≠ 0 then [k - 1] else []) ++ (if k % 12 ≠ 11 then [k + 1] else [])
  else if c = 1 then (if 4 ≤ k then [k - 4] else []) ++ (if k + 4 < 288 then [k + 4] else [])
  else ((List.range 16).map (16 * (k / 16) + ·)).filter (· != k)

/-- Neighbours of a sensor that are available: present, not broken, not substituted; a head read within the last 10 s (13 R362). -/
def Thm.available (t : Thm) (now c k : Nat) : List Sens :=
  ((sensNeighbours c k).map (t.sens c)).filter fun x => x.seen && !x.broken && !x.subst && (c != 2 || decide (now ≤ x.seenAt + 10000000000))

/-- The reading a time `w` ago. -/
def Sens.ago (x : Sens) (now w : Nat) : Option Int := if now < w then none else (x.hist.find? fun r => r.1 ≤ now - w).map (·.2)

/-- Has the reading risen by at least `d` sixteenths over the last `w` ns (13 R361)? -/
def Sens.rises (x : Sens) (now w : Nat) (d : Int) : Bool := (x.ago now w).any fun v => decide (d ≤ x.temp - v)

/-- Readings of the last second. -/
def Sens.second (x : Sens) (now : Nat) : List Int := (x.hist.filter fun r => now ≤ r.1 + 1000000000).map (·.2)

/-- Has the reading stayed exactly the same for 1 s (13 R362)? -/
def Sens.stuck (x : Sens) (now : Nat) : Bool := (x.ago now 1000000000).any (· == x.temp) && (x.second now).all (· == x.temp)

/-- Has the reading changed by at least 0.5 °C in the last second (13 R362)? -/
def Sens.moved (x : Sens) (now : Nat) : Bool := (x.second now).any fun v => decide (8 ≤ (v - x.temp).natAbs)

/-- Does a test of R362 find the sensor broken? -/
def Sens.fails (x : Sens) (nb : List Sens) (now : Nat) : Bool :=
  x.fault || (x.stuck now && nb.any fun y => y.moved now)
    || (!nb.isEmpty && nb.all fun y => decide (240 < (x.temp - y.temp).natAbs))

/-- Does a sample lie below −20 °C or at an extreme code of its field, of 12 bits for a bay sensor (13 R362, 10 Table 10.2)? -/
def badSample (cls : Nat) (v : Int) : Bool :=
  let top : Int := if cls = 1 then 2047 else 32767
  decide (v < -320 ∨ top ≤ v)

/-- The samples of one evaluation are entered, and the reading is the mean of those of the last 100 ms, cut to 1/16 °C; a substituted sensor's own samples do
not count (13 R361, R370). -/
def Thm.enter (t : Thm) (now : Nat) (r : TempReading) : Thm :=
  let x := t.sens r.cls r.key
  let vs := r.samples.map fun w => sInt 16 w.toNat
  let win := (x.win.filter fun e => now < e.1 + 100000000) ++ if vs.isEmpty then [] else [(now, vs.foldl (· + ·) 0, vs.length)]
  let n := (win.map (·.2.2)).sum
  let low := !vs.isEmpty && vs.all (badSample r.cls)
  if x.subst then t
  else if n = 0 then t.setSens r.cls r.key { x with win := win, fault := r.fault || low }
  else t.setSens r.cls r.key
    { x with seen := true, seenAt := if vs.isEmpty then x.seenAt else now, win := win, temp := (win.map (·.2.1)).foldl (· + ·) 0 / n, fault := r.fault || low }

/-- The last 2 s of readings. -/
def Sens.log (x : Sens) (now : Nat) : Sens := { x with hist := (now, x.temp) :: x.hist.filter fun r => now ≤ r.1 + 2010000000 }

/-- The tests of R362 on a sensor of the evaluation: broken at once, unbroken after 10 s of readings that pass. -/
def Thm.test (t : Thm) (now c k : Nat) : Sens :=
  let x := t.sens c k
  if x.subst then x
  else if x.fails (t.available now c k) now then { x with broken := true, okSince := none }
  else { x with okSince := some (x.okSince.getD now), broken := x.broken && !(heldFor (some (x.okSince.getD now)) now 10000000000) }

/-- The highest reading of a list of sensors. -/
def hottest (l : List Sens) : Option Int :=
  l.foldl (fun m x => some (match m with | some v => max v x.temp | none => x.temp)) none

/-- A substituted sensor reads its hottest available neighbour plus 5 °C; with none it is treated as broken again (13 R370). -/
def Thm.substitute (t : Thm) (now k : Nat) : Sens :=
  let x := t.sens 1 k
  match hottest (t.available now 1 k) with
  | some v => { x with temp := v + 80, broken := false }
  | none => { x with broken := true, okSince := none }

/-! ### Levels (13 R363, Table 13.2) -/

/-- One level after an evaluation: on with its condition, off once it has been clear for 10 s. -/
def Lev.eval (l : Lev) (now : Nat) (cond clear : Bool) : Lev :=
  let t := since clear l.clear now
  { on := cond || (l.on && !heldFor t now 10000000000), clear := t }

/-- The three levels of a sensor after an evaluation. -/
def Sens.levels (x : Sens) (now : Nat) (l : ThmLim) : Sens :=
  let r1 := x.rises now 2000000000 48
  let r2 := x.rises now 500000000 32
  let r3 := x.rises now 250000000 32
  let hot (w : Byte) : Bool := !x.broken && decide (sixteenths w ≤ x.temp)
  let low (w : Byte) : Bool := !x.broken && decide (x.temp < sixteenths w - 48)
  { x with warn := x.warn.eval now (hot l.warn || (!x.broken && r1)) (low l.warn && !r1),
           act := x.act.eval now (hot l.act || (!x.broken && r2)) (low l.act && !r2),
           emrg := x.emrg.eval now (hot l.emrg || (!x.broken && r3)) (low l.emrg && !r3) }

/-- Level of a sensor; a broken one is at emergency (13 R362, R363). -/
def Sens.level (x : Sens) : Nat :=
  if !x.seen then 0 else if x.broken || x.emrg.on then 3 else if x.act.on then 2 else if x.warn.on then 1 else 0

/-- Does a sensor meet R368: unbroken, below the ACT limit minus 3 °C, no rate condition holding? -/
def Sens.cool (x : Sens) (now : Nat) (l : ThmLim) : Bool :=
  !x.broken && decide (x.temp < sixteenths l.act - 48) && !(x.rises now 2000000000 48) && !(x.rises now 500000000 32) && !(x.rises now 250000000 32)

/-- A scope after an evaluation: its level, and whether it is in emergency, which it leaves after 60 s of R368 (13 R363, R368). -/
def Scope.eval (x : Scope) (now raw : Nat) (cool : Bool) : Scope :=
  let t := since cool x.coolSince now
  let em := decide (raw = 3) || (x.emerg && !heldFor t now 60000000000)
  let lvl := if em then 3 else raw
  { x with level := lvl, emerg := em, coolSince := t, normSince := since (lvl == 0) x.normSince now }

/-! ### What a transition does (13 Table 13.3, R364 to R368) -/

/-- Admitted commands with a part on either actuator of a bay (13 R366). -/
def State.admittedBay (s : State) (b : Nat) : List Nat :=
  (s.ledger.filter fun c => c.phase == .admitted && !c.hostModel && c.parts.any fun p => bayOf p.act == b).map (·.id)

/-- A bay's hold-up flush ends; with the last one the device resets (05 R142). -/
def State.endBayFlush (s : State) (b : Nat) : State :=
  if !s.boot.bayFlush.contains b then s
  else
    let s := s.modBoot fun x => { x with bayFlush := x.bayFlush.filter (· != b) }
    if s.boot.bayFlush.isEmpty then s.askReset s.now 4 else s

/-- An emergency on a bay: its commands end, both actuators retract, the spindle brakes (13 R366). -/
def State.bayEmergency (s : State) (b : Nat) : State :=
  let s := s.finishAll (s.admittedBay b) Sts.thermalAbort
  if (s.bay b).spin.state = 0 then s else s.wantAction b .thermal

/-- Running grazing write routines of an actuator, on the head given if one is, end at their next waymarks (07 R213, 13 R367). -/
def State.stopGrazing (s : State) (a : Nat) (h : Option Nat) : State :=
  let stop (q : Routine) : Routine := if q.req.cmd = 0 ∧ writes q.req.opc ∧ h.all (· == q.req.head) then { q with endAt := true } else q
  s.modFmt a fun f => { f with running := f.running.map stop }

/-- Ceiling on entry to action: one step below the running gait, down to Amble (13 R365). -/
def State.actionCeil (s : State) (b : Nat) : Nat :=
  let p := (s.bay b).spin
  max 1 ((if p.gait ≠ 0 then p.gait.toNat else p.goal.toNat) - 1)

/-- Two thermal states differ for a bay in what its event names: level, ceiling, inhibit (13 Table 13.11). -/
def State.bayEvent (s old : State) (b : Nat) : State :=
  let x := s.bayScope b
  let y := old.bayScope b
  if x.level = y.level ∧ x.ainh = y.ainh ∧ s.thermalCeil b = old.thermalCeil b then s else s.raise (0x5E0 + b)

/-- A bay's scope takes its new level (13 R364 to R366, R368). -/
def State.bayStep (s : State) (b : Nat) (x : Scope) (kind3 : Bool) : State :=
  let o := s.bayScope b
  let c := s.actionCeil b
  let x := if o.level < 2 ∧ 2 ≤ x.level then { x with ceil := BitVec.ofNat 2 (min x.ceil.toNat c), stepAt := s.now, exiting := false } else x
  let x := if 2 ≤ x.level ∧ kind3 ∧ !x.ainh then { x with ainh := true, ainhAt := s.now } else x
  let x := if x.level < 2 ∧ 2 ≤ o.level then { x with ainh := false, ceil := if o.emerg then 1 else x.ceil, exiting := o.emerg || x.ceil != 3 } else x
  let x := if x.emerg ∧ !o.emerg then { x with ceil := 0, exiting := false } else x
  let t := s.modThm fun t => { t with bayScope := Tab.put t.bayScope b x, emrgcnt := if x.emerg && !o.emerg then t.emrgcnt + 1 else t.emrgcnt }
  let t := if x.ainh ∧ !o.ainh then (t.stopGrazing (2 * b) none).stopGrazing (2 * b + 1) none else t
  if x.emerg ∧ !o.emerg then (t.bayEmergency b).endBayFlush b else t

/-- The die scope takes its new level (13 R364 to R366, R368; 18 R453). -/
def State.dieStep (s : State) (x : Scope) : State :=
  let o := s.thm.dieScope
  let bs := List.range 72
  let ceils (t : State) (g : Nat → Nat) : State :=
    t.modThm fun m => { m with dieCeil := bs.foldl (fun l b => Tab.put l b (BitVec.ofNat 2 (g b))) m.dieCeil }
  let old (b : Nat) : Nat := (s.thm.dieCeil.get (fun _ => 3) b).toNat
  let x := if o.level < 2 ∧ 2 ≤ x.level then { x with stepAt := s.now, exiting := false } else x
  let x := if x.level < 2 ∧ 2 ≤ o.level then { x with exiting := true } else x
  let t := s.modThm fun m => { m with dieScope := x, emrgcnt := if x.emerg && !o.emerg then m.emrgcnt + 1 else m.emrgcnt }
  let t := if o.level < 2 ∧ 2 ≤ x.level then ceils t fun b => min (old b) (s.actionCeil b) else t
  let t := if x.level < 2 ∧ o.emerg then ceils t fun _ => 1 else t
  let t := if x.emerg ∧ !o.emerg then (ceils t fun _ => 0).each bs State.bayEmergency else t
  let t := t.modGlb fun g => { g with shelfFault := x.emerg || (t.boot.trailhead && t.boot.cause == 0x0C) }
  if x.level = o.level then t else t.raise 0x688

/-- Does an admitted command still need a write on head `h` of actuator `a` (13 R367)? -/
def State.needsHead (s : State) (a h : Nat) : List Nat :=
  let f := (s.act a).fmt
  let q := (f.running.toList.map (·.req)) ++ (f.waiting.toList.map (·.req)) ++ f.queue
  let ids := (((s.act a).adm.queue ++ (s.act a).adm.running.toList).filter fun o => !o.read && o.kind == .media && o.head == h).map (·.cmd)
    ++ (q.filter fun q => writes q.opc && q.head == h).map (·.cmd)
  (s.admittedOn a).filter ids.contains

/-- A head's scope takes its new level (13 R367). -/
def State.headStep (s : State) (a h : Nat) (x : Scope) : State :=
  let o := s.headScope a h
  let x := { x with ainh := decide (2 ≤ x.level), ainhAt := if o.ainh then o.ainhAt else s.now }
  let t := s.modThm fun m =>
    { m with headScope := Tab.put m.headScope (16 * a + h) x, emrgcnt := if x.emerg && !o.emerg then m.emrgcnt + 1 else m.emrgcnt }
  let t := if x.ainh ∧ !o.ainh then t.stopGrazing a (some h) else t
  let t := if x.emerg ∧ !o.emerg then
      let t := t.finishAll (t.needsHead a h) Sts.thermalAbort
      t.modFmt a fun f => if f.running.any fun q => q.req.head == h then { f with assist := .off } else f
    else t
  if max x.level 1 = max o.level 1 then t else t.raise 0x68B

/-! ### The evaluation (13 R361 to R368) -/

/-- Readings, tests, substitutions and levels of every sensor. -/
def State.evalSensors (s : State) (rs : List TempReading) : Thm :=
  let now := s.now
  let ok (r : TempReading) : Bool :=
    if r.cls = 0 then r.key < 96 else if r.cls = 1 then r.key < 288 && (s.bay (r.key / 4)).link.present
    else r.cls == 2 && r.key < 2304 && (s.bay (r.key / 32)).link.present
  let t := (rs.filter ok).foldl (fun t r => t.enter now r) s.thm
  let own := t.seen.filter fun k => !(t.sens k.1 k.2).subst
  let t := own.foldl (fun t k => t.setSens k.1 k.2 ((t.sens k.1 k.2).log now)) t
  let u := own.foldl (fun u k => u.setSens k.1 k.2 (t.test now k.1 k.2)) t
  let sub := t.seen.filter fun k => (t.sens k.1 k.2).subst
  let v := sub.foldl (fun v k => v.setSens k.1 k.2 ((u.substitute now k.2).log now)) u
  let v := v.seen.foldl (fun v k => v.setSens k.1 k.2 ((v.sens k.1 k.2).levels now (s.thmLimits (sensClass k.1 k.2)))) v
  let fresh := v.seen.filter fun k => (v.sens k.1 k.2).broken && !(s.thm.sens k.1 k.2).broken
  { v with brkcnt := v.brkcnt + BitVec.ofNat 32 fresh.length }

/-- A scope's new value from its sensors. -/
def State.evalScope (s : State) (x : Scope) (c : Nat) (ks : List Nat) : Scope :=
  let l := (ks.map fun k => (k, s.thm.sens c k)).filter fun r => r.2.seen
  x.eval s.now (l.foldl (fun m r => max m r.2.level) 0) (l.all fun r => r.2.cool s.now (s.thmLimits (sensClass c r.1)))

/-- THERMAL_EVALUATION: every 10 ms readings are updated, and each sensor and scope level is evaluated; entries to action and emergency take
their actions (13 R361 to R368). -/
def execThermalEvaluation (rs : List TempReading) (s : State) : Host.Outcome State Fault Refusal :=
  let t := s.modThm fun _ => s.evalSensors rs
  let t := (List.range 96).foldl (fun t n =>
    let x := t.thm.sens 0 n
    let o := s.thm.sens 0 n
    if x.level = o.level ∧ x.broken = o.broken then t else t.raise (0x628 + n)) t
  let t := t.dieStep (t.evalScope t.thm.dieScope 0 (List.range 96))
  let bs := (List.range 72).filter fun b => (t.bay b).link.present
  let t := t.each bs fun t b =>
    let ks := (List.range 4).map (4 * b + ·)
    t.bayStep b (t.evalScope (t.bayScope b) 1 ks) (decide (2 ≤ (t.thm.sens 1 (4 * b + 3)).level))
  let t := t.each (t.thm.head.map (·.1)) fun t k => t.headStep (k / 16) (k % 16) (t.evalScope (t.headScope (k / 16) (k % 16)) 2 [k])
  let t := t.each (List.range 72) fun t b => t.bayEvent s b
  .next (t.ceilingsFrom s)

/-- CEILING_STEP_TIMER: a scope's ceiling falls for every 2 s at action down to Amble, after which a bay's assisted writes are inhibited, or rises
for every 30 s at normal up to Gallop; the die's with none given (13 R365, R368). -/
def execCeilingStepTimer (b : Option BayId) (s : State) : Host.Outcome State Fault Refusal :=
  let down (x : Scope) : Bool := x.level == 2 && decide (x.stepAt + 2000000000 ≤ s.now)
  let up (x : Scope) : Bool := x.level == 0 && heldFor x.normSince s.now 30000000000
  match b with
  | none =>
    let x := s.thm.dieScope
    let step (g : Nat → Nat) (x : Scope) : State :=
      let l := (List.range 72).foldl (fun l b => Tab.put l b (BitVec.ofNat 2 (g (s.thm.dieCeil.get (fun _ => 3) b).toNat))) s.thm.dieCeil
      let t := s.modThm fun m => { m with dieCeil := l, dieScope := x }
      let t := if (List.range 72).all (fun b => l.get (fun _ => 3) b == s.thm.dieCeil.get (fun _ => 3) b) then t else t.raise 0x688
      (t.each (List.range 72) fun t b => t.bayEvent s b).ceilingsFrom s
    .next <|
      if down x then step (fun c => if 1 < c then c - 1 else c) { x with stepAt := s.now }
      else if up x then
        step (fun c => min 3 (c + 1)) { x with normSince := some s.now,
                                               exiting := x.exiting && (List.range 72).any fun b => decide ((s.thm.dieCeil.get (fun _ => 3) b).toNat + 1 < 3) }
      else s
  | some b =>
    let x := s.bayScope b.val
    let put (x : Scope) : State := s.modThm fun m => { m with bayScope := Tab.put m.bayScope b.val x }
    .next <|
      if down x then
        if 1 < x.ceil.toNat then ((put { x with ceil := x.ceil - 1, stepAt := s.now }).bayEvent s b.val).ceilingsFrom s
        else if !x.ainh then
          let t := put { x with ainh := true, ainhAt := s.now }
          ((t.stopGrazing (2 * b.val) none).stopGrazing (2 * b.val + 1) none).bayEvent s b.val
        else s
      else if up x ∧ x.ceil ≠ 3 then
        ((put { x with ceil := x.ceil + 1, normSince := some s.now, exiting := x.ceil + 1 != 3 }).bayEvent s b.val).ceilingsFrom s
      else s

/-- THERMTRIP: the comparator of on-die sensor `n` trips; THERMTRIP_N latches and a die emergency is declared; a broken sensor never asserts it
(13 R369). -/
def execThermtrip (n : Fin 96) (s : State) : Host.Outcome State Fault Refusal :=
  .next <| if (s.thm.sens 0 n.val).broken ∨ s.glb.coldRst then s
    else
      let t := (s.modGlb fun g => { g with thermTrip := true }).raise 0x689
      let t := t.dieStep { t.thm.dieScope with level := 3, emerg := true, coolSince := none, normSince := none }
      (t.each (List.range 72) fun t b => t.bayEvent s b).ceilingsFrom s

/-! ### THERMAL_CTRL (13 R370, Table 13.4) -/

/-- A reading as a register or response shows it; a broken sensor's is 0x8000 (13 R371). -/
def Sens.code (x : Sens) : Nat := if x.broken then 0x8000 else ofInt 16 x.temp

/-- Bits of the four kinds of a bay. -/
def State.kinds (s : State) (b : Nat) (p : Sens → Bool) : Nat := ((List.range 4).map fun k => at_ k (bit (p (s.thm.sens 1 (4 * b + k))))).sum

/-- The response of THERMAL_CTRL done. -/
def State.thermalReply (s : State) (k b : Nat) : State :=
  s.respond k (leBytes 1 0 ++ leBytes 1 (s.bayScope b).level ++ leBytes 1 (s.thermalCeil b) ++ leBytes 1 (s.kinds b (·.broken) + at_ 4 (s.kinds b (·.subst)))
    ++ (List.range 4).flatMap fun i => leBytes 2 (s.thm.sens 1 (4 * b + i)).code)

/-- Serve a THERMAL_CTRL action: the first REASON in the order 1, 2, 5, 6, 3, 4 answers, else the action is done (13 R370). -/
def State.thermalCtrl (s : State) (r : Requester) (act : Nat) (own : Nat → Nat → Nat) (k : State → Nat → Nat → State) : State :=
  s.serve r 0x0D10 (some act) fun p =>
    let b := byteAt p 1
    let n := byteAt p 2
    let x := if !reservedZero p [(0, 3)] || !decide (b < 72) || !decide (n < if act = 1 then 1 else 4) then 1
      else if act ≠ 1 ∧ !s.seesAll r then 2
      else if !s.seesBay r b then 5
      else if !(s.bay b).link.present then 6
      else own b n
    if x ≠ 0 then s.respond (mbxOf r) (reasonOnly x 11) else (k s b n).thermalReply (mbxOf r) b

/-- THERMAL_BAY_STATUS (13 R370). -/
def execThermalBayStatus (r : Requester) (s : State) : Host.Outcome State Fault Refusal :=
  .next (s.thermalCtrl r 1 (fun _ _ => 0) fun s _ _ => s)

/-- THERMAL_SUBSTITUTE: a broken bay sensor reads its hottest available neighbour plus 5 °C from now on (13 R370). -/
def execThermalSubstitute (r : Requester) (s : State) : Host.Outcome State Fault Refusal :=
  let own (b n : Nat) : Nat :=
    if !(s.thm.sens 1 (4 * b + n)).broken then 3 else if (s.thm.available s.now 1 (4 * b + n)).isEmpty then 4 else 0
  .next <| s.thermalCtrl r 2 own fun s b n =>
    (s.modThm fun t =>
      let x : Sens := { t.substitute s.now (4 * b + n) with subst := true, hist := [] }
      t.setSens 1 (4 * b + n) x).raise 0x68A

/-- THERMAL_END_SUBSTITUTION: the sensor is broken again until 10 s of its own readings pass every test (13 R362, R370). -/
def execThermalEndSubstitution (r : Requester) (s : State) : Host.Outcome State Fault Refusal :=
  let own (b n : Nat) : Nat := if (s.thm.sens 1 (4 * b + n)).subst then 0 else 3
  .next <| s.thermalCtrl r 3 own fun s b n =>
    (s.modThm fun t =>
      let o := t.sens 1 (4 * b + n)
      let x : Sens := { o with subst := false, broken := true, okSince := none, hist := [] }
      { t.setSens 1 (4 * b + n) x with brkcnt := if o.broken then t.brkcnt else t.brkcnt + 1 }).raise 0x68A

end Sys2Proof.Machine
end

