-- ==== Sys2Proof/Machine/Clock.lean ====
section
/-! DEFINITION. Clock islands, resets of one island, clock switches, TIMEREF and PPS_IN (14). -/
namespace Sys2Proof.Machine

open Sys2Proof

/-! ### Islands (14 Table 14.1, R373) -/

/-- Period in ps of an island that is no channel island (14 Table 14.1). -/
def islandPs (i : Nat) : Nat :=
  if i < 148 then 1000 else if i < 164 then 800 else if i < 172 then 1000 else if i < 184 then 667 else if i < 192 then 625
  else if i < 196 then 833 else if i = 196 then 500 else if i < 215 then 833 else if i = 215 then 5000 else 40000

/-- The period island `i` runs at (14 R373). -/
def State.islPeriod (s : State) (i : Nat) : Nat := if i < 144 then channelPs (s.act i).cwy.rate.toNat else islandPs i

/-- Does a lane of actuator `a` deliver a clock (10 R285)? -/
def State.laneClock (s : State) (a : Nat) : Bool := (s.act a).cwy.u0Ok || (s.act a).cwy.u1Ok

/-! ### One side reset (14 R380 to R382, Table 14.2) -/

/-- The attempts held in the save slots of decoder island `i` end (06 R173, R186). -/
def State.dropSaved (s : State) (i : Nat) : State :=
  (s.pool.attempts.filter fun x => x.isl == some i && x.engine.isNone).foldl State.endAttempt s

/-- The samples in an actuator's sample store are lost: a sector still to be announced to the pool gets no rung 2 (06 R160, 14 Table 14.2). -/
def State.loseSlots (s : State) (a : Nat) : State :=
  let lost := (s.act a).cfe.slots.filter fun e => !e.noticed && decide (e.kTot ≤ e.k)
  (s.modCfe a fun c => { c with slots := [] }).each lost fun s e =>
    (s.stopReplays a e.cmd e.key).nextRung a { e with rung := if e.rung = 1 then 2 else e.rung }

/-- What a reset of island `i` alone does to the unit in it, and through it elsewhere (14 Table 14.2). -/
def State.islandEffect (s : State) (i : Nat) : State :=
  if i < 144 then (s.abandonAll i).loseSlots i
  else if i < 148 then
    let p := i - 144
    let up := (s.port p).h0.up || (s.port p).h1.up
    let s := s.linkDown p false
    let s := if s.bif p then s.linkDown p true else s
    if up then s.raise (portEvt p 1) else s
  else if i < 164 then
    let d := i - 148
    let s := s.each ((List.range 4).map (4 * d + ·)) fun s e =>
      (s.restartJob e).modEng e fun g => { g with state := if g.state = 0 then 4 else g.state }
    ((s.dropSaved d).raise 0x710).dispatchPool
  else if i < 172 then
    s.each ((List.range 4).map (4 * (i - 164) + ·)) fun s n =>
      if (s.le n).state = 0 ∨ (s.le n).state = 3 then ((s.modLe n fun e => { e with state := 3 }).raise (0x720 + n)).evacuate n else s
  else if 184 ≤ i ∧ i < 192 then
    let g := i - 184
    if s.cache.wgfail.getLsbD g then s else (s.modCache fun c => { c with wgrst := c.wgrst ||| wayBit g }).faultGroup g
  else if 197 ≤ i ∧ i < 215 then s.restartHerd (i - 197)
  else s

/-- Island `i` is reset alone: its unit, and the live sides of its crossings (14 R380). -/
def State.resetIsland (s : State) (i : Nat) (flight : Tab Nat) : State :=
  if (s.isl i).reset then s else (s.peerReset i flight).islandEffect i

/-- The steward's write of CLK_ISL_RST: the DIAG window open, and a channel, decoder or loop island (14 R382, R385; 16 R426). -/
def State.askIslandReset (s : State) (i : Nat) (flight : Tab Nat) : State :=
  if s.diagOpen && (decide (i < 144) || decide (148 ≤ i ∧ i < 172)) then s.resetIsland i flight else s

/-- ISLAND_RESET: the steward writes CLK_ISL_RST; `flight` is what is in flight on each crossing (14 R380, R382). -/
def execIslandReset (f : FnId) (isl : BitVec 8) (flight : Tab Nat) (s : State) : Host.Outcome State Fault Refusal :=
  .next <| s.stewardWrite f.val fun s => s.askIslandReset isl.toNat flight

/-- ISLAND_HARD_FAULT_RESET: an island resets on its own after a hard fault in its own logic (14 R380). -/
def execIslandHardFaultReset (isl : Fin 217) (flight : Tab Nat) (s : State) : Host.Outcome State Fault Refusal :=
  .next (s.resetIsland isl.val flight)

/-- CROSSING_REARM: the reset side signals ready and its crossings are re-armed; a channel island runs in holdover until its lanes deliver a
clock, and a way group is no longer down for the reset (14 R381, Tables 14.2, 14.3). -/
def execCrossingRearm (isl : Fin 217) (s : State) : Host.Outcome State Fault Refusal :=
  let i := isl.val
  .next <| if !(s.isl i).reset || (decide (144 ≤ i ∧ i < 148) && (s.port (i - 144)).perst) then s
    else
      let s := (s.modIsl i fun x => { x with holdover := decide (i < 144), recov := false, period := BitVec.ofNat 16 (s.islPeriod i) }).rearm i
      if 184 ≤ i ∧ i < 192 ∧ s.cache.wgrst.getLsbD (i - 184) then
        (s.modCache fun c => { c with wgfail := c.wgfail &&& ~~~(wayBit (i - 184)), wgrst := c.wgrst &&& ~~~(wayBit (i - 184)) }).wantGroup (i - 184)
      else s

/-- Does a transfer run on an actuator, so that its channel clock stays as it is (06 R155, 14 R374)? -/
def State.transfers (s : State) (a : Nat) : Bool := (s.act a).fmt.running.isSome

/-- CLOCK_SWITCH: a channel island changes its clock glitch-free between transfers, for a new RATE and to enter and leave holdover; its crossings
are in recovery until 16 cycles of the new clock have passed (06 R155; 10 R284, R285; 14 R374, R375). -/
def execClockSwitch (a : ActId) (st : SwitchStep) (s : State) : Host.Outcome State Fault Refusal :=
  let x := s.isl a.val
  .next <| match st with
    | .starts =>
      if x.ready && !x.switching && (!s.transfers a.val || !s.laneClock a.val) then
        s.modIsl a.val fun x => { x with switching := true, recov := true }
      else s
    | .ends =>
      if x.switching then
        s.modIsl a.val fun x => { x with switching := false, holdover := !s.laneClock a.val, period := BitVec.ofNat 16 (s.islPeriod a.val) }
      else s
    | .settled =>
      if x.recov && !x.switching then s.modIsl a.val fun x => { x with recov := false } else s

/-! ### TIMEREF and PPS_IN (14 R383, R384) -/

/-- Change the TIMEREF and PPS state. -/
def State.modClk (s : State) (g : Clk → Clk) : State := { s with clk := g s.clk }

/-- TIMEREF_LOST: no edge for 200 ns, or 200 ppm off over 1 ms; PLLs hold on the on-die oscillator (14 R373, R383). -/
def execTimerefLost (s : State) : Host.Outcome State Fault Refusal :=
  .next <| if s.clk.trefHold then s
    else { (s.modClk fun c => { c with trefHold := true }).raise 0x7B2 with tally := { s.tally with untraced := true } }

/-- TIMEREF_RESTORED: TIMEREF has been good for 10 ms (14 R383). -/
def execTimerefRestored (s : State) : Host.Outcome State Fault Refusal :=
  .next <| if s.clk.trefHold then (s.modClk fun c => { c with trefHold := false }).raise 0x7B2 else s

/-- Nanoseconds of a second. -/
def secondNs : Nat := 1000000000

/-- Phase error of device time at an edge: its distance from the nearest whole second, positive when device time is ahead (14 R384). -/
def phaseError (now : Nat) : Int :=
  let r := now % secondNs
  if 2 * r ≤ secondNs then (r : Int) else (r : Int) - secondNs

/-- The edge that holds PPS_IN locked disciplines device time: one forward step with an empty ledger and an error above 1 ms, else a slew
(14 R384). -/
def State.discipline (s : State) : State :=
  let e := phaseError s.now
  let s := s.modClk fun c => { c with ppsErr := BitVec.ofInt 32 e }
  if s.ledger.isEmpty ∧ 1000000 < e.natAbs then
    let t := (s.now / secondNs + 1) * secondNs
    let s := s.modClk fun c =>
      { c with steps := if c.steps = 0xFFFF then c.steps else c.steps + 1, slewLeft := 0, slewing := false, slewAcc := 0, lastEdge := some t, lastQual := t }
    { s.postEarly with now := t, tally := { s.tally with stepped := true } }.raise 0x7B3
  else s.modClk fun c => { c with slewLeft := e, slewing := e != 0, slewAcc := 0 }

/-- PPS_EDGE: an edge of PPS_IN; the marking one qualifies when it comes 1 s ± 100 µs after the one before, and three in a row lock (14 R384). -/
def execPpsEdge (falling : Bool) (s : State) : Host.Outcome State Fault Refusal :=
  let c := s.clk
  .next <| if !c.ppsEn ∨ falling ≠ c.ppsFall then s
    else
      let d := s.now - c.lastEdge.getD 0
      let q := c.lastEdge.isSome && decide (999900000 ≤ d ∧ d ≤ 1000100000)
      let run := if q then c.edgeRun + 1 else 1
      let lock := q && decide (c.pps = 2 ∨ 3 ≤ run)
      let t := s.modClk fun c =>
        { c with lastEdge := some s.now, edgeRun := run, lastQual := if q then s.now else c.lastQual, pps := if lock then 2 else if c.pps = 2 then 2 else 1 }
      let t := if lock ∧ c.pps ≠ 2 then t.raise 0x7B3 else t
      if lock then t.discipline else t

/-- PPS_LOST: 2 s without a qualified edge (14 R384). -/
def execPpsLost (s : State) : Host.Outcome State Fault Refusal :=
  .next <| if s.clk.pps = 2 ∧ s.clk.lastQual + 2 * secondNs ≤ s.now then
      (s.modClk fun c => { c with pps := 3, edgeRun := 0, lastEdge := none, slewLeft := 0, slewing := false, slewAcc := 0 }).raise 0x7B3
    else s

end Sys2Proof.Machine
end

