-- ==== Sys2Proof/Machine/Memory.lean ====
section
/-! DEFINITION. Scrubbing and repair of memory, the line cache's controls, layouts and the Poison List messages (11 R308 to R332). -/
namespace Sys2Proof.Machine

open Sys2Proof

/-! ### Poisoned lines (11 R322 to R324, Table 11.4) -/

/-- Has a line a clean source, by its area and what it holds (11 R322)? -/
def hasSource (n : Nat) : LineUse → Bool
  | .markhor _ => false
  | .chamois _ => false
  | .plist both _ => !both
  | _ => cleanArea n

/-- A staging slot's line is poisoned: acknowledged STAGED data take a kind 1 entry, and a FLUSH that covers them no
longer waits for them but fails in the end (03 R84); of a write not yet completed the sector is not committed
(11 R324). -/
def State.poisonSlot (s : State) (order : Nat) : State :=
  match s.stage.wslots.find? (·.order == order) with
  | none => s
  | some w =>
    let s := s.mapW fun v => if v.order = order then { v with poisoned := true } else v
    if w.acked.isSome then
      let key := secKey w.sec.nsid w.sec.lba
      let s := s.mapCmds fun c => if c.covered.contains key then { c with covered := c.covered.filter (· != key), lost := true } else c
      if s.poisonNamed w.sec.nsid w.sec.lba then s
      else s.addPoison { kind := 1, area := 10, nsid := w.sec.nsid, start := w.sec.lba, count := 1, left := 1 }
    else match s.cmd? w.cmd with
      | some c => if c.dur then s else (s.modCmd c.id fun c => { c with unresolved := c.unresolved ++ [w.sec.lba] }).freeSlot order
      | none => s

/-- What follows when a line that holds this is poisoned (11 Table 11.4). -/
def State.poisonOutcome (s : State) : LineUse → State
  | .markhor shared => if shared then s.watchdogReset else s.restartCore
  | .chamois h => s.restartHerd h.val
  | .ledger id =>
    match s.cmd? id with
    | some c => if c.status.isNone then s.finish id Sts.dataPoisoned (c.len % 65536) else s
    | none => s
  | .ati a g => (s.modMed a.val fun m => { m with ati := m.ati.put g (2 * (s.bay (bayOf a.val)).link.atiLimit) }).holdGroup a.val g
  | .map a =>
    let s := s.modMed a.val fun m => { m with mapRebuild := true }
    let s := s.finishAll ((s.admittedOn a.val).filter fun i => (s.cmd? i).any (·.dc != 7)) Sts.unrecoveredInDeadline
    let s := s.modGraze a.val fun g => { g with pending := g.pending ++ [{ order := 15, pos := reservedRegion * 65536, count := 1 }] }
    (s.refreshNs.raise (actEvt a.val 6)).dispatch a.val
  | .tally accs => s.each accs fun s k => s.modAcc k fun x => { enabled := x.enabled, partial_ := x.partial_, restarted := true, poison := 1 }
  | .plist _ ids => s.modMem fun m => { m with plist := m.plist.filter fun e => !(ids.contains e.id) }
  | .samples a cmd key =>
    s.modCfe a.val fun c => { c with retained := c.retained.filter fun e => !(e.cmd == cmd && e.key == key) }
  | .recovery id => s.recTo id .failed
  | .staged order => s.poisonSlot order
  | .free => s
  | .image => s
  | .table => s
  | .cached _ _ => s
  | .window => s

/-- What follows when a line is repaired from its clean source: a read-staging slot is invalidated, a sector awaiting delivery failing its
checks (11 R322). -/
def State.repairOutcome (s : State) : LineUse → State
  | .cached n l =>
    s.modStage fun g =>
      { g with rslots := (g.rslots.filter fun r => !(r.sec.nsid == n && r.sec.lba == l && r.pins.isEmpty)).map fun r =>
          if r.sec.nsid = n ∧ r.sec.lba = l then { r with poisoned := true } else r }
  | _ => s

/-! ### Hard faults (11 R332, R333) -/

/-- Has the line of a key been repaired or rewritten within the last second? -/
def State.justFixed (s : State) (key : Nat) : Bool := (s.mem.fixedAt.find key).any fun t => decide (s.now ≤ t + 1000000000)

/-- A line is repaired or rewritten now. -/
def State.fixedNow (s : State) (key : Nat) : State :=
  s.modMem fun m => { m with fixedAt := Tab.put (m.fixedAt.filter fun r => decide (s.now ≤ r.2 + 1000000000)) key s.now }

/-- A hard-faulting DRAM line moves to the remap pool; with the pool exhausted its 4 KiB range is fenced (11 R332). -/
def State.remapLine (s : State) (x : Nat) : State :=
  let s := s.modMem fun m => { m with hardflt := m.hardflt + 1, softRecs := m.softRecs ++ [x] }
  let used := s.mem.remap.length
  if used < 381300 then
    let s := (s.modMem fun m => { m with remap := m.remap ++ [x] }).raise 0x6AB
    if used * 4 ≤ 381300 * 3 ∧ 381300 * 3 < (used + 1) * 4 then s.raise 0x6AA else s
  else
    (s.modMem fun m => { m with remapFull := true, fenced := if m.fenced.contains (x / 4096 * 4096) then m.fenced else m.fenced ++ [x / 4096 * 4096] }).raise 0x6AA

/-- A hard fault in an SRAM array: a record in the soft repair map, which holds 256 (11 R333). -/
def State.softRepair (s : State) (x : SoftRec) : State :=
  if 256 ≤ s.mem.softMap.length then s else (s.modMem fun m => { m with softMap := m.softMap ++ [x] }).raise 0x6AE

/-- Key of a line in the table of repairs: DRAM lines by address, then cache lines, victim lines and other SRAM. -/
def scrubKey (r : ScrubRead) : Nat :=
  if r.level = 0 then lineOf r.addr
  else if r.level = 1 then 2 ^ 40 + 16 * r.set + r.way
  else if r.level = 2 then 2 ^ 41 + lineOf r.addr / 128
  else 2 ^ 42 + 2 ^ 20 * r.unit + r.num

/-- A line of staging space without a clean source is poisoned at every level that holds it, with what follows (11 R323). -/
def State.poisonAt (s : State) (x : Nat) (use : LineUse) : State := (s.poisonLine ((s.areaOf x).getD 0) x).poisonOutcome use

/-- One DRAM line read by the scrubber (11 R331, R332): the request passes channel 17, a merge entry of the line is written out first. -/
def State.scrubDram (s : State) (r : ScrubRead) : State :=
  let x := lineOf r.addr
  let n := (s.areaOf x).getD 0
  let s := (s.settle x 128).modCache fun c => c.access s.now 17 n x false
  let hard := r.fails && (s.justFixed x || !r.readsBack)
  let s := if !r.fails || s.mem.poisoned.contains x then s
    else
      let s := if s.cache.dirtyCopy s.now x then s.modMem fun m => { m with crcfix := m.crcfix + 1 }
        else if hasSource n r.use then (s.modMem fun m => { m with crcfix := m.crcfix + 1 }).repairOutcome r.use
        else s.poisonAt x r.use
      s.fixedNow x
  let s := if hard then s.remapLine x else s
  let s := s.modMem fun m => { m with scrubDone := m.scrubDone + 1 }
  if s.mem.scrubDone < 390070272 + s.mem.remap.length then s
  else (s.modMem fun m => { m with scrubDone := 0, scrubpass := m.scrubpass + 1 }).raise 0x6AD

/-- A line of the cache or of the victim store read by the scrubber: a clean one is refetched, a dirty one is poisoned (11 R322, R323, R331). -/
def State.scrubHeld (s : State) (r : ScrubRead) (l : Line) : State :=
  let hard := s.justFixed (scrubKey r) || !r.readsBack
  let s := if s.mem.poisoned.contains l.addr then s
    else if l.dirty && (r.level == 1 || l.dirtyAt s.now) then s.poisonAt l.addr r.use
    else s.modCache fun c => { c with crcfix := c.crcfix + 1 }
  let s := s.fixedNow (scrubKey r)
  if !hard then s
  else (if r.level = 1 then s.faultGroup (r.way / 2) else s).softRepair r.place

/-- Other on-die SRAM: a hard fault retires the unit that owns it (11 R332; 06 R185, 08 R248). -/
def State.scrubSram (s : State) (r : ScrubRead) : State :=
  let hard := s.justFixed (scrubKey r) || !r.readsBack
  let s := s.fixedNow (scrubKey r)
  if !hard then s
  else
    let s := s.softRepair r.place
    if r.unit = 1 ∧ r.num < 64 ∧ (s.eng r.num).state = 0 then s.failEngine r.num
    else if r.unit = 2 ∧ r.num < 32 ∧ (s.le r.num).state = 0 then s.retireLe r.num 1
    else s

/-- SCRUB_LINE_READ (11 R331). -/
def execScrubLineRead (r : ScrubRead) (s : State) : Host.Outcome State Fault Refusal :=
  .next <| if r.level = 0 then s.scrubDram r
    else if !r.fails then s
    else if r.level = 1 then
      match (s.cache.setLines r.set).find? fun l => l.way == r.way with
      | some l => s.scrubHeld r l
      | none => s
    else if r.level = 2 then
      match s.cache.victim.find? fun l => l.addr == lineOf r.addr with
      | some l => s.scrubHeld r l
      | none => s
    else s.scrubSram r

/-- MERGE_ENTRY_AGE: the oldest merge entry, 8 µs after its first write; `ok` is whether the line read for it passes its check (11 R328, R330). -/
def execMergeEntryAge (ok : Bool) (s : State) : Host.Outcome State Fault Refusal :=
  .next <| match s.mem.merge with
    | [] => s
    | e :: _ =>
      if s.now < e.at_ + 8000 then s
      else if !ok && (s.areaOf e.line).any cleanArea && decide (e.bytes.length < 128) then
        (s.modMem fun m => { m with crcfix := m.crcfix + 1 }).writeOut e true
      else s.writeOut e ok

/-! ### Way groups and cache disable, by the steward's writes of CFG_LC_CTRL (11 R318 to R320, R334) -/

/-- WAY_GROUP_DISABLE (11 R318). -/
def execWayGroupDisable (f : FnId) (g : Fin 8) (s : State) : Host.Outcome State Fault Refusal :=
  .next <| s.stewardWrite f.val fun s => s.disableGroup g.val

/-- WAY_GROUP_ENABLE (11 R319). -/
def execWayGroupEnable (f : FnId) (g : Fin 8) (s : State) : Host.Outcome State Fault Refusal :=
  .next <| s.stewardWrite f.val fun s => s.enableGroup g.val

/-- CACHE_DISABLE (11 R320). -/
def execCacheDisable (f : FnId) (s : State) : Host.Outcome State Fault Refusal :=
  .next <| s.stewardWrite f.val fun s => s.disableCache

/-- CACHE_ENABLE (11 R320). -/
def execCacheEnable (f : FnId) (s : State) : Host.Outcome State Fault Refusal :=
  .next <| s.stewardWrite f.val fun s => s.enableCache

/-- WAY_GROUP_WALK_END (11 R318). -/
def execWayGroupWalkEnd (g : Fin 8) (s : State) : Host.Outcome State Fault Refusal :=
  .next <| if s.cache.walking.getLsbD g.val then s.endWalk g.val else s

/-! ### MEM_LAYOUT (11 R309, R310, Table 11.2) -/

/-- Bytes 8 to 71 of a layout. -/
def layoutBytes (g : Nat → Area) : List Byte := (List.range 32).flatMap fun n => [(g n).base, (g n).size]

/-- A MEM_LAYOUT response. -/
def State.layoutReply (s : State) (k reason : Nat) (g : Nat → Area) : State :=
  s.respond k (leBytes 1 reason ++ List.replicate 7 0 ++ layoutBytes g)

/-- A MEM_LAYOUT refusal, or an answer that reads no layout. -/
def State.layoutSays (s : State) (k reason : Nat) : State := s.layoutReply k reason fun _ => {}

/-- Granules of the media-map need of the formats recorded (11 R309). -/
def State.mapGranules (s : State) : Nat :=
  let need := (((List.range 144).filter fun a => 0 < (s.act a).med.extents + (s.act a).med.bands).map s.mapNeed).sum
  (need + 2 ^ 28 - 1) / 2 ^ 28

/-- Is a layout valid (11 R309)? -/
def State.layoutOk (s : State) (g : Nat → Area) : Bool :=
  let lo (n : Nat) : Nat := (g n).base.toNat
  let sz (n : Nat) : Nat := (g n).size.toNat
  let apart (m n : Nat) : Bool := sz m == 0 || sz n == 0 || decide (lo m + sz m ≤ lo n) || decide (lo n + sz n ≤ lo m)
  (List.range 32).all (fun n => sz n == 0 || decide (lo n + sz n ≤ 186))
    && (List.range 32).all (fun n => (List.range n).all fun m => apart m n)
    && [0, 1, 2, 3, 4, 6, 7, 16].all (fun n => decide ((areaReset n).size.toNat ≤ sz n))
    && decide (2 ≤ sz 8) && decide (4 ≤ sz 10) && decide (4 ≤ sz 11) && [12, 13, 14, 15].all (fun n => decide (sz n ≤ 64))
    && decide (s.mapGranules ≤ sz 5)

/-- The layout a request carries. -/
def layoutIn (p : List Byte) : Tab Area :=
  (List.range 32).map fun n => (n, { base := BitVec.ofNat 8 (byteAt p (8 + 2 * n)), size := BitVec.ofNat 8 (byteAt p (9 + 2 * n)) })

/-- Fields of a MEM_LAYOUT request: reserved bytes and, but for ACTION 3, the layout are 0 (11 Table 11.2). -/
def layoutFields (p : List Byte) (write : Bool) : Bool :=
  if write then
    reservedZero p [(0, 1), (8, 64)] && (List.range 32).all fun n => decide (byteAt p (8 + 2 * n) ≤ 185) && decide (byteAt p (9 + 2 * n) ≤ 186)
  else reservedZero p [(0, 1)]

/-- LAYOUT_READ_IN_FORCE (11 R310). -/
def execLayoutReadInForce (r : Requester) (s : State) : Host.Outcome State Fault Refusal :=
  .next <| s.serve r 0x0B10 (some 1) fun p => if layoutFields p false then s.layoutReply (mbxOf r) 0 s.area else s.layoutSays (mbxOf r) 1

/-- LAYOUT_READ_PENDING (11 R310). -/
def execLayoutReadPending (r : Requester) (s : State) : Host.Outcome State Fault Refusal :=
  .next <| s.serve r 0x0B10 (some 2) fun p =>
    if !(layoutFields p false) then s.layoutSays (mbxOf r) 1
    else match s.mem.pendLay with
      | some t => s.layoutReply (mbxOf r) 0 (t.get fun _ => {})
      | none => s.layoutSays (mbxOf r) 5

/-- LAYOUT_WRITE_PENDING: after R309's checks the layout is held as the pending record (11 R310). -/
def execLayoutWritePending (r : Requester) (s : State) : Host.Outcome State Fault Refusal :=
  .next <| s.serve r 0x0B10 (some 3) fun p =>
    let t := layoutIn p
    let g : Nat → Area := t.get fun _ => {}
    if !s.fromSteward r then s.layoutSays (mbxOf r) 4
    else if !(layoutFields p true) then s.layoutSays (mbxOf r) 1
    else if !(s.layoutOk g) then s.layoutSays (mbxOf r) 2
    else if s.glb.lck.getLsbD 2 && ([12, 13, 14, 15].any fun n => g n != s.area n) then s.layoutSays (mbxOf r) 3
    else (s.modMem fun m => { m with pendLay := some t }).layoutSays (mbxOf r) 0

/-- LAYOUT_DISCARD_PENDING (11 R310). -/
def execLayoutDiscardPending (r : Requester) (s : State) : Host.Outcome State Fault Refusal :=
  .next <| s.serve r 0x0B10 (some 4) fun p =>
    if !s.fromSteward r then s.layoutSays (mbxOf r) 4
    else if !(layoutFields p false) then s.layoutSays (mbxOf r) 1
    else if s.mem.pendLay.isNone then s.layoutSays (mbxOf r) 5
    else (s.modMem fun m => { m with pendLay := none }).layoutSays (mbxOf r) 0

/-! ### POISON_CTRL (11 R325 to R327, Tables 11.5, 11.6) -/

/-- A Poison List entry as its 32 bytes (11 Table 11.5). -/
def PoisonEnt.bytes (e : PoisonEnt) : List Byte :=
  leBytes 1 (e.kind + at_ 7 (bit e.coarse)) ++ leBytes 1 e.area ++ leBytes 2 e.nsid ++ leBytes 4 e.id.toNat ++ leBytes 8 e.start ++ leBytes 4 e.count
    ++ leBytes 4 e.left ++ leBytes 8 e.time

/-- Entries a requester receives (11 R327). -/
def State.poisonSeen (s : State) (r : Requester) (e : PoisonEnt) : Bool :=
  s.seesAll r || (e.kind != 0 && (s.ns e.nsid).attached.contains (fnNumber r))

/-- POISON_READ (11 R327). -/
def execPoisonRead (r : Requester) (s : State) : Host.Outcome State Fault Refusal :=
  .next <| s.serve r 0x0B11 (some 1) fun p =>
    if !(reservedZero p [(0, 1), (4, 4)]) then s.respond (mbxOf r) (reasonOnly 1 15)
    else
      let es := (s.mem.plist.filter fun e => s.poisonSeen r e && decide (fieldAt p 4 4 ≤ e.id.toNat)).take 127
      s.respond (mbxOf r) (leBytes 1 0 ++ leBytes 1 es.length ++ List.replicate 14 0 ++ es.flatMap PoisonEnt.bytes)

/-- An entry of kind 1 or 2 is cleared: what it named reads as its newest remaining copy (11 R325). -/
def State.clearPoison (s : State) (e : PoisonEnt) : State :=
  let s := s.modMem fun m => { m with plist := m.plist.filter fun x => x.id != e.id }
  let named (w : WSlot) : Bool := w.poisoned && w.sec.nsid == e.nsid && decide (e.start ≤ w.sec.lba ∧ w.sec.lba < e.start + e.count)
  s.each ((s.stage.wslots.filter named).map (·.order)) State.freeSlot

/-- POISON_CLEAR (11 R327). -/
def execPoisonClear (r : Requester) (s : State) : Host.Outcome State Fault Refusal :=
  .next <| s.serve r 0x0B11 (some 2) fun p =>
    let no (reason : Nat) : State := s.respond (mbxOf r) (reasonOnly reason 15)
    if !s.fromSteward r then no 2
    else if !(reservedZero p [(0, 1), (4, 4)]) then no 1
    else match s.mem.plist.find? fun e => e.id.toNat == fieldAt p 4 4 with
      | none => no 3
      | some e => if e.kind = 0 then no 4 else (s.clearPoison e).respond (mbxOf r) (reasonOnly 0 15)

end Sys2Proof.Machine
end

