-- ==== Sys2Proof/Machine/Mailbox.lean ====
section
/-! DEFINITION. The mailbox protocol, the sideband, IDENTIFY and the queue messages (15 R387 to R394). -/
namespace Sys2Proof.Machine

open Sys2Proof

/-! ### Transport (15 R387, R388, Table 15.2) -/

/-- Opcodes of every message of the device. -/
def mbxOpcodes : List Nat :=
  [0x0510, 0x0511, 0x0610, 0x0710, 0x0810, 0x0910, 0x0911, 0x0A10, 0x0B10, 0x0B11, 0x0C10, 0x0D10, 0x0E10, 0x0E20, 0x0E30, 0x0E40, 0x0E41, 0x0E50,
   0x0F01, 0x0F10, 0x0F11, 0x0F12, 0x0F20, 0x0F21, 0x0F22, 0x0F23, 0x0F24, 0x0F30, 0x0F31, 0x0F40, 0x0F50]

/-- Is an action open to the sideband: the status and read actions, POWER_STATE, and LINK_CTRL actions 2 and 3 (15 R392)? -/
def sideMay (op act : Nat) : Bool :=
  (op == 0x0710 || op == 0x0910 || op == 0x0911 || op == 0x0511 || op == 0x0E41)
    || (op == 0x0610 && act == 3) || (op == 0x0A10 && decide (2 ≤ act ∧ act ≤ 5)) || (op == 0x0B10 && (act == 1 || act == 2))
    || (op == 0x0B11 && act == 1) || (op == 0x0C10 && (act == 1 || act == 3)) || (op == 0x0810 && act == 6) || (op == 0x0D10 && act == 1)
    || (op == 0x0E10 && act == 4) || (op == 0x0E30 && act == 4) || (op == 0x0E20 && act == 1)

/-- May the requester of mailbox `k` send the message (15 R392, Table 15.4)? -/
def State.mayRequest (s : State) (k op act : Nat) : Bool :=
  let side := k == 256
  let pf := !side && isPf k
  if op = 0x0F01 ∨ op = 0x0F24 ∨ op = 0x0F31 then true
  else if op = 0x0F10 ∨ op = 0x0F11 ∨ op = 0x0F12 ∨ op = 0x0F40 then !side
  else if op = 0x0F20 ∨ op = 0x0F21 ∨ op = 0x0F22 ∨ op = 0x0F30 then !side && s.isSteward k
  else if op = 0x0F23 then pf
  else if op = 0x0F50 then side
  else if side then sideMay op act
  else pf

/-- Messages served in Trailhead mode (16 R420). -/
def trailheadServes (op act : Nat) : Bool :=
  op == 0x0F01 || op == 0x0F31 || op == 0x0B10 || op == 0x0911 || op == 0x0511 || op == 0x0E41 || op == 0x0E50 || op == 0x0E10
    || (op == 0x0E20 && act == 1)

/-- IMG_VER and SVN of a slot as a FW_CTRL response shows them (16 Table 16.10). -/
def State.slotOf (s : State) (n : Nat) : Slot := s.boot.slots.get (fun _ => {}) n

/-- The response of FW_CTRL (16 Table 16.10). -/
def State.fwReply (s : State) (k reason slot : Nat) : State :=
  let x := s.slotOf slot
  s.respond k (leBytes 1 reason ++ leBytes 1 s.boot.fwState.toNat ++ leBytes 1 s.boot.fwComp.toNat ++ leBytes 1 0 ++ leBytes 4 s.boot.runVer.toNat
    ++ leBytes 4 (if x.verified then x.ver.toNat else 0) ++ leBytes 4 (if x.verified then x.svn.toNat else 0))

/-- The response to a request whose action none of its message's actions is: its table refuses it as a field invalid, or first as not the
steward's (15 R387, R393). `none` when an action of the message serves it. -/
def State.refusedAction (s : State) (k op : Nat) (p : List Byte) : Option State :=
  let a := byteAt p 0
  let stew := k != 256 && s.isSteward k
  let answers (n : Nat) : State := s.respond k (reasonOnly 1 n)
  if op = 0x0510 then (if a = 1 ∨ a = 2 then none else some (s.refuseFormat k 3))
  else if op = 0x0610 then (if 1 ≤ a ∧ a ≤ 3 then none else some (answers 7))
  else if op = 0x0810 then (if 1 ≤ a ∧ a ≤ 6 then none else some (s.respond k (reasonOnly (if stew then 1 else 7) 7)))
  else if op = 0x0910 then (if byteAt p 1 ≤ 2 then none else some (answers 3))
  else if op = 0x0A10 then (if 1 ≤ a ∧ a ≤ 5 then none else some (s.linkReply k 1 0 []))
  else if op = 0x0B10 then (if 1 ≤ a ∧ a ≤ 4 then none else some (s.layoutSays k 1))
  else if op = 0x0B11 then (if a = 1 ∨ a = 2 then none else some (answers 15))
  else if op = 0x0C10 then
    (if 1 ≤ a ∧ a ≤ 4 ∧ (a ≠ 2 ∨ byteAt p 3 ≤ 3) then none else some (s.respond k (reasonOnly (if a = 2 ∧ !stew then 2 else 1) 3)))
  else if op = 0x0D10 then (if 1 ≤ a ∧ a ≤ 3 then none else some (answers 11))
  else if op = 0x0E10 then (if 1 ≤ a ∧ a ≤ 8 then none else some (s.fwReply k (if stew then 1 else 2) 3))
  else if op = 0x0E20 then (if a = 1 ∨ a = 2 then none else some (answers 19))
  else if op = 0x0E30 then (if 1 ≤ a ∧ a ≤ 4 then none else some (answers 95))
  else if op = 0x0E40 then (if byteAt p 1 = 1 ∨ byteAt p 1 = 2 then none else some (s.respond k (reasonOnly (if stew then 1 else 2) 7)))
  else if op = 0x0E50 then (if a = 1 ∨ a = 2 then none else some (s.respond k (reasonOnly (if stew then 1 else 2) 0)))
  else if op = 0x0F22 then (if byteAt p 4 ≤ 1 then none else some (answers 0))
  else if op = 0x0F23 then (if byteAt p 6 ≤ 1 then none else some (answers 0))
  else if op = 0x0F40 then (if 1 ≤ a ∧ a ≤ 3 then none else some (answers 15))
  else none

/-- A write to MBX_GO of mailbox `k`: ignored while a request is in progress; else the request is taken, and refused at once where the
transport refuses it (15 R387, R388, R392). -/
def State.goMbx (s : State) (k : Nat) (seq : BitVec 16) : State :=
  let m := s.mbx k
  if m.busy then s.modMbx k fun m => { m with goign := true }
  else
    let op := m.opcode.toNat
    let p := (List.range (min m.len.toNat 4096)).map fun i => m.reqbuf.get (fun _ => 0) i
    let t := s.modMbx k fun m => { m with busy := true, done := false, rqOp := op, rqSeq := seq, rqData := p }
    if m.rspValid && m.rspSeq == seq && m.rspOpcode == m.opcode then
      let t := t.modMbx k fun m => { m with busy := false, done := true, tstatus := 4, rqData := [] }
      if k = 256 then t.raise 0x7C9 else t.raiseFn k 0
    else if !mbxOpcodes.contains op then t.respondAs k 1 []
    else if 4096 < m.len.toNat then t.respondAs k 2 []
    else if s.boot.trailhead && !trailheadServes op (byteAt p 0) then t.respondAs k 5 []
    else if !s.mayRequest k op (byteAt p 0) then t.respondAs k 3 []
    else (t.refusedAction k op p).getD t

/-- Bytes written to MBX_REQBUF of mailbox `k` from an offset; ignored while a request is in progress (15 R387). -/
def State.writeReqbuf (s : State) (k off : Nat) (data : List Byte) : State :=
  if (s.mbx k).busy then s
  else s.modMbx k fun m =>
    { m with reqbuf := data.zipIdx.foldl (fun t (b, i) => if off + i < 4096 then Tab.put t (off + i) b else t) m.reqbuf }

/-- A write to MBX_REQ of mailbox `k` (15 R387, Table 15.14). -/
def State.writeMbxReq (s : State) (k : Nat) (op len : BitVec 16) : State :=
  if (s.mbx k).busy then s else s.modMbx k fun m => { m with opcode := op, len := len }

/-- MBX_STAT (15 Table 15.14). -/
def Mbx.stat (m : Mbx) : Nat :=
  m.rspbuf.length % 8192 + at_ 25 m.tstatus.toNat + at_ 29 (bit m.goign) + at_ 30 (bit m.done) + at_ 31 (bit m.busy)

/-- MBX_RSP (15 Table 15.14). -/
def Mbx.rsp (m : Mbx) : Nat := m.rspOpcode.toNat + at_ 16 m.rspSeq.toNat

/-! ### Deferred responses (15 R389) -/

/-- Does a command fetched from an SQ still wait for its status (15 R394)? -/
def State.sqPending (s : State) (key : Nat) : Bool :=
  s.ledger.any fun c => 64 * c.fn + c.sq == key && c.phase != .heldCpl && !c.silent

/-- An SQ whose last status is fixed is gone, and its deletion is answered (15 R394). -/
def State.sqGone (s : State) (k key : Nat) : State := { s with sqs := s.sqs.filter fun r => r.1 != key }.respond k (reasonOnly 0 0)

/-- MAILBOX_DEFERRED_RESPONSE: the operation a response waits for has ended; `pass` is the outcome of a retest's known-answer tests (06 R187, 08
R250, 15 R389, R394). -/
def execMailboxDeferredResponse (r : Requester) (pass : Bool) (s : State) : Host.Outcome State Fault Refusal :=
  let k := mbxOf r
  .next <| match (s.mbx k).owed with
    | none => s
    | some (.sqDelete key) => if s.sqPending key then s else s.sqGone k key
    | some (.migrate false a n) =>
      if (s.loop a).migPend then s else s.loopReply k (if (s.loop a).engine.toNat = n then 0 else 2) (s.loop a).engine.toNat
    | some (.migrate true b n) =>
      let l := (s.bay b).link
      if l.spnMigTo.isSome then s else s.loopReply k (if l.spnEngine.toNat = n then 0 else 2) l.spnEngine.toNat
    | some (.leRetire n) => if (s.loopsOn n).isEmpty && (s.spinsOn n).isEmpty then s.loopReply k 0 n else s
    | some (.leRetest n) => s.endLeRetest k n pass
    | some (.deRetest e) => s.endRetest k e pass

/-! ### Sideband (15 R391, Table 15.3) -/

/-- A transaction of the SMBus port: NACK while COLD_RST_N is asserted; one with a wrong PEC is discarded (15 R391). -/
def State.smbus (s : State) (pec : Bool) (g : State → State) : State :=
  if s.glb.coldRst then s else if !pec then s.raise 0x7CA else g s

/-- SMBUS_REQUEST_WRITE: 1 to 240 bytes into the request buffer (15 Table 15.3). -/
def execSmbusRequestWrite (off : BitVec 16) (data : List Byte) (pec : Bool) (s : State) : Host.Outcome State Fault Refusal :=
  .next <| s.smbus pec fun s => if data.isEmpty ∨ 240 < data.length then s else s.writeReqbuf 256 off.toNat data

/-- SMBUS_REQUEST_START: as a write of MBX_REQ, then of MBX_GO (15 Table 15.3). -/
def execSmbusRequestStart (op len seq : BitVec 16) (pec : Bool) (s : State) : Host.Outcome State Fault Refusal :=
  .next <| s.smbus pec fun s => (s.writeMbxReq 256 op len).goMbx 256 seq

/-- SMBUS_STATUS_READ: MBX_STAT, then MBX_RSP (15 Table 15.3). -/
def execSmbusStatusRead (s : State) : Host.Outcome State Fault Refusal :=
  .next <| s.smbus true fun s => s.emit (.smbus (leBytes 4 (s.mbx 256).stat ++ leBytes 4 (s.mbx 256).rsp))

/-- SMBUS_READ_OFFSET: response read offset 0 to 4,095 (15 Table 15.3). -/
def execSmbusReadOffset (off : BitVec 16) (pec : Bool) (s : State) : Host.Outcome State Fault Refusal :=
  .next <| s.smbus pec fun s => if off.toNat < 4096 then s.modMbx 256 fun m => { m with rdOff := off.truncate 12 } else s

/-- SMBUS_RESPONSE_READ: up to 240 response bytes from the read offset, which advances by them (15 Table 15.3). -/
def execSmbusResponseRead (s : State) : Host.Outcome State Fault Refusal :=
  .next <| s.smbus true fun s =>
    let m := s.mbx 256
    let bs := (m.rspbuf.drop m.rdOff.toNat).take 240
    (s.emit (.smbus bs)).modMbx 256 fun m => { m with rdOff := m.rdOff + BitVec.ofNat 12 bs.length }

/-! ### IDENTIFY (15 Table 15.5) -/

/-- "EWM-7214", zero-padded to 16 bytes. -/
def partNumber : List Byte := [0x45, 0x57, 0x4D, 0x2D, 0x37, 0x32, 0x31, 0x34] ++ List.replicate 8 0

/-- IDENTIFY (15 Table 15.5). -/
def execIdentify (r : Requester) (s : State) : Host.Outcome State Fault Refusal :=
  .next <| s.serve r 0x0F01 none fun p =>
    let ver (t : Nat) : Nat := (s.boot.runComps.get (fun _ => 0) t).toNat
    if !reservedZero p [] then s.respond (mbxOf r) (reasonOnly 1 39)
    else s.respond (mbxOf r) (leBytes 1 0 ++ leBytes 1 (bit s.boot.trailhead) ++ leBytes 2 (fnNumber r) ++ leBytes 1 (bit (s.fromSteward r))
      ++ leBytes 1 Config.silRev.toNat ++ leBytes 2 (4096 - s.sqs.length) ++ partNumber ++ leBytes 8 Config.serialNumber.toNat ++ leBytes 4 (ver 1)
      ++ leBytes 4 (ver 2))

/-! ### Queues (03 R61, R62, R85; 15 Table 15.5, R394) -/

/-- The function a queue message is about: the requester. -/
def reqFn : Requester → Nat
  | .fn f => f.val
  | .sideband => 256

/-- REASON of a QUEUE_CREATE request; 0 when the queue can be created (03 R61, 15 Table 15.5). -/
def State.queueRefused (s : State) (f : Nat) (p : List Byte) : Nat :=
  let cq := byteAt p 0 = 1
  let q := byteAt p 1
  let n := fieldAt p 4 4
  if !reservedZero p [(0, 3), (4, 12)] ∨ 1 < byteAt p 0 ∨ 63 < q ∨ (if cq then byteAt p 2 ≠ 0 else 63 < byteAt p 2) ∨ n < 2 ∨ 65536 < n
      ∨ fieldAt p 8 8 % 4096 ≠ 0 then 1
  else if (if cq then (s.cqs.find (64 * f + q)).isSome else (s.sqs.find (64 * f + q)).isSome) then 2
  else if 4096 ≤ (if cq then s.cqs.length else s.sqs.length) then 3
  else if !cq ∧ (s.cqs.find (64 * f + byteAt p 2)).isNone then 4
  else 0

/-- QUEUE_CREATE (03 R61, R62, R77). -/
def execQueueCreate (r : Requester) (s : State) : Host.Outcome State Fault Refusal :=
  .next <| s.serve r 0x0F10 none fun p =>
    let f := reqFn r
    let key := 64 * f + byteAt p 1
    let reason := s.queueRefused f p
    if reason ≠ 0 then s.respond (mbxOf r) (reasonOnly reason 15)
    else if byteAt p 0 = 1 then
      (s.setCq key { base := fieldAt p 8 8, size := fieldAt p 4 4, timeBase := s.now }).respond (mbxOf r) (reasonOnly 0 7 ++ leBytes 8 s.now)
    else (s.setSq key { base := fieldAt p 8 8, size := fieldAt p 4 4, cq := byteAt p 2 }).respond (mbxOf r) (reasonOnly 0 15)

/-- Entries of an SQ read from host memory whose checks have not ended are discarded as unfetched: those still on their way, and those that wait
for their zone (03 R85). -/
def State.unfetch (s : State) (key : Nat) : State :=
  let x := s.sq key
  let own (w : CheckWait) : Bool := 64 * w.fn + w.sq == key
  let n := x.fetching + (s.ldg.checking.filter own).length
  let h := (x.head + x.size - n) % x.size
  let s := s.modCq (key / 64 * 64 + x.cq) fun y => { y with reserved := y.reserved - n }
  let s := { s with ldg := { s.ldg with checking := s.ldg.checking.filter (!own ·) } }
  s.modSq key fun y => { y with head := h, tail := h, fetching := 0 }

/-- QUEUE_DELETE: an SQ's fetch stops at once and the response waits for its last status; a CQ with a bound SQ stays (03 R62, 15 R394). -/
def execQueueDelete (r : Requester) (s : State) : Host.Outcome State Fault Refusal :=
  .next <| s.serve r 0x0F11 none fun p =>
    let f := reqFn r
    let k := mbxOf r
    let q := byteAt p 1
    let key := 64 * f + q
    if !reservedZero p [(0, 2)] ∨ 1 < byteAt p 0 ∨ 63 < q then s.respond k (reasonOnly 1 0)
    else if byteAt p 0 = 1 then
      if (s.cqs.find key).isNone then s.respond k (reasonOnly 2 0)
      else if s.sqs.any fun r => r.1 / 64 == f && r.2.cq == q then s.respond k (reasonOnly 5 0)
      else
        let s := s.mapCmds fun c => if c.fn = f ∧ c.cq = q then { c with cqGone := true } else c
        { s with cqs := s.cqs.filter fun r => r.1 != key }.respond k (reasonOnly 0 0)
    else if (s.sqs.find key).isNone then s.respond k (reasonOnly 2 0)
    else
      let s := (s.unfetch key).modSq key fun x => { x with deleting := true }
      if s.sqPending key then s.modMbx k fun m => { m with owed := some (.sqDelete key) } else s.sqGone k key

/-- May the requester reset the queues of function `f`: itself, the PF of its port, the steward (03 R85, 15 Table 15.4)? -/
def State.mayResetQueues (s : State) (r : Nat) (f : Nat) : Bool :=
  decide (f < 256) && (s.fn f).enabled && (r == f || s.isSteward r || (isPf r && portOf r == portOf f))

/-- QUEUE_RESET: unfetched entries are discarded, fetched commands not yet at their waymark end with ABORTED_BY_RESET, later ones run on without
posting; the response gives the heads at which fetching resumes (03 R85). A FLUSH, which has no waymark and which Table 3.5 calls never abortable,
ends with ABORTED_BY_RESET like any command not at its waymark (DESIGN CHOICE: R85 does not say which holds). -/
def execQueueReset (r : Requester) (s : State) : Host.Outcome State Fault Refusal :=
  .next <| s.serve r 0x0F12 none fun p =>
    let me := reqFn r
    let f := if fieldAt p 2 2 = 0xFFFF then me else fieldAt p 2 2
    let k := mbxOf r
    if !reservedZero p [(2, 2)] ∨ !s.mayResetQueues me f then s.respond k (reasonOnly 1 143)
    else
      let keys := (s.sqs.filter fun r => r.1 / 64 == f).map (·.1)
      let s := s.each keys State.unfetch
      let ids := (s.ledger.filter fun c => c.fn == f && c.phase != .heldCpl && !c.waymark && !c.silent).map (·.id)
      let s := (s.finishAll ids Sts.abortedByReset).runWaiting
      let s := s.mapCmds fun c => if c.fn = f ∧ c.phase ≠ .heldCpl ∧ c.waymark then { c with silent := true } else c
      s.respond k (reasonOnly 0 15 ++ (List.range 64).flatMap fun j => leBytes 2 (s.sq (64 * f + j)).head)

end Sys2Proof.Machine
end

