-- ==== Sys2Proof/Machine/Mgmt.lean ====
section
/-! DEFINITION. Namespace, configuration, tally-ring and stewardship messages, epochs and tally minutes (15). -/
namespace Sys2Proof.Machine

open Sys2Proof

/-! ### Namespaces (05 R134 to R137; 15 R395, R396, Table 15.6) -/

/-- Extents or bands of actuator `a` that namespaces of a type hold. -/
def State.spaceUsed (s : State) (a : Nat) (zoned : Bool) : List Nat :=
  (s.namespaces.filter fun r => r.2.zoned == zoned).flatMap fun r => r.2.space.get (fun _ => []) a

/-- The free extents or bands of actuator `a`, lowest first. -/
def State.spaceFree (s : State) (a : Nat) (zoned : Bool) : List Nat :=
  let m := (s.act a).med
  let used := s.spaceUsed a zoned
  (List.range (if zoned then m.bands else m.extents)).filter fun x => !used.contains x

/-- Actuators a 144-bit map at byte `i` of a payload names. -/
def actMap (p : List Byte) (i : Nat) : List Nat := (List.range 144).filter fun a => (p.getD (i + a / 8) 0).getLsbD (a % 8)

/-- The 18 bytes of a 144-bit map of actuators. -/
def actBytes (as : List Nat) : List Byte :=
  (List.range 18).map fun i => BitVec.ofNat 8 (((List.range 8).map fun j => at_ j (bit (as.contains (8 * i + j)))).sum)

/-- Change a key slot's record: its GEN rises by 1 and it has no key (16 R430). -/
def State.raiseGen (s : State) (slot nsid : Nat) : State :=
  s.modKey slot fun k => { k with nsid := nsid, gen := k.gen + 1, generated := false, loaded := false, unloading := false, blob := [] }

/-- REASON of an NS_CREATE request, in the order 1, 2, 5, 4, 3; 0 when it can be created (15 R395). -/
def State.nsRefused (s : State) (p : List Byte) : Nat :=
  let z := byteAt p 0 == 1
  let n := fieldAt p 2 2
  let u := byteAt p 4
  let set := actMap p 16
  let e := fieldAt p 8 4
  if !reservedZero p [(0, 1), (2, 3), (6, 6), (16, 18)] ∨ 1 < byteAt p 0 ∨ n = 0 ∨ 4096 < n ∨ (if z then u ≠ 0 else u < 4 ∨ 14 < u) ∨ 4095 < fieldAt p 6 2
      ∨ e = 0 ∨ set.isEmpty then 1
  else if (s.ns n).present then 2
  else if s.namespaces.any fun r => r.2.keyslot == fieldAt p 6 2 then 5
  else if set.any fun a => (s.bay (bayOf a)).link.media != 2 then 4
  else if set.any fun a => decide ((s.spaceFree a z).length < e) then 3
  else 0

/-- NS_CREATE: a namespace that reads as zeros and is attached to no function; its key slot's GEN rises (15 R395, 16 R430). -/
def execNsCreate (r : Requester) (s : State) : Host.Outcome State Fault Refusal :=
  .next <| s.serve r 0x0F20 none fun p =>
    let reason := s.nsRefused p
    if reason ≠ 0 then s.respond (mbxOf r) (reasonOnly reason 15)
    else
      let z := byteAt p 0 == 1
      let n := fieldAt p 2 2
      let set := actMap p 16
      let e := fieldAt p 8 4
      let secs := set.length * e * 65536
      let s := s.setNs n
        { present := true, zoned := z, unit := byteAt p 4, keyslot := fieldAt p 6 2, perAct := e, sectors := secs, actset := set,
          space := set.map fun a => (a, (s.spaceFree a z).take e) }
      let s := (s.raiseGen (fieldAt p 6 2) n).modAcc (nsAcc n) fun x => { x with enabled := true, partial_ := true }
      s.refreshNs.respond (mbxOf r) (reasonOnly 0 7 ++ leBytes 8 secs)

/-- Everything a namespace leaves behind goes: its data, Recovery List and Poison List entries, and its key (15 R395, 16 R430). -/
def State.dropNs (s : State) (n : Nat) : State :=
  let slot := (s.ns n).keyslot
  let s := s.purgeNs n
  let s := s.mapFmt fun o => if o.nsFmt ∧ o.nsid = n then { o with st := 3 } else o
  let s := s.mapSan fun o => { o with nsids := o.nsids.filter (· != n) }
  { s.raiseGen slot n with nss := s.nss.del n }

/-- NS_DELETE: refused while granted in the applied configuration or while ledger entries remain (15 R395). -/
def execNsDelete (r : Requester) (s : State) : Host.Outcome State Fault Refusal :=
  .next <| s.serve r 0x0F21 none fun p =>
    let n := fieldAt p 2 2
    let k := mbxOf r
    if !reservedZero p [(2, 2)] ∨ !(s.ns n).present then s.respond k (reasonOnly 1 0)
    else if !(s.ns n).ports.isEmpty then s.respond k (reasonOnly 2 0)
    else if s.ledger.any fun c => c.nsid == n && !c.noEntry then s.respond k (reasonOnly 3 0)
    else (s.dropNs n).respond k (reasonOnly 0 0)

/-- Serve NS_GRANT with its GRANT byte `g`: a grant or revocation is staged, in place of an earlier one of the same namespace and port (15
R396). -/
def State.stageGrant (s : State) (r : Requester) (g : Bool) : State :=
  s.serve r 0x0F22 none fun p =>
    let n := fieldAt p 2 2
    let t := byteAt p 1
    let k := mbxOf r
    if byteAt p 4 ≠ bit g then s
    else if !reservedZero p [(1, 4)] ∨ 3 < t ∨ !(s.ns n).present then s.respond k (reasonOnly 1 0)
    else if s.glb.lck.getLsbD 1 then s.respond k (reasonOnly 2 0)
    else
      (s.modCfg fun c =>
        { c with stagedGrants := (c.stagedGrants.filter fun x => !(x.nsid == n && x.port == t)) ++ [{ nsid := n, port := t, grant := g }] }).respond k (reasonOnly 0 0)

/-- NS_GRANT (15 R396). -/
def execNsGrant (r : Requester) (s : State) : Host.Outcome State Fault Refusal := .next (s.stageGrant r true)

/-- NS_REVOKE: NS_GRANT with GRANT 0 (15 R396). -/
def execNsRevoke (r : Requester) (s : State) : Host.Outcome State Fault Refusal := .next (s.stageGrant r false)

/-- A function gains or loses a namespace; bit 10 of its view latches (15 R396, Table 15.9). -/
def State.attach (s : State) (n f : Nat) (on : Bool) : State :=
  if (s.ns n).attached.contains f = on then s
  else (s.modNs n fun x => { x with attached := if on then x.attached ++ [f] else x.attached.filter (· != f) }).raiseFn f 10

/-- Serve NS_ATTACH with its ATTACH byte `g` (15 R396). -/
def State.serveAttach (s : State) (r : Requester) (g : Bool) : State :=
  s.serve r 0x0F23 none fun p =>
    let n := fieldAt p 2 2
    let f := fieldAt p 4 2
    let k := mbxOf r
    let me := reqFn r
    if byteAt p 6 ≠ bit g then s
    else if !reservedZero p [(2, 5)] ∨ 255 < f ∨ !(s.ns n).present then s.respond k (reasonOnly 1 0)
    else if s.glb.lck.getLsbD 1 then s.respond k (reasonOnly 2 0)
    else if !(s.ns n).ports.contains (portOf f) then s.respond k (reasonOnly 3 0)
    else if !s.isSteward me ∧ portOf me ≠ portOf f then s.respond k (reasonOnly 4 0)
    else (s.attach n f g).respond k (reasonOnly 0 0)

/-- NS_ATTACH (15 R396). -/
def execNsAttach (r : Requester) (s : State) : Host.Outcome State Fault Refusal := .next (s.serveAttach r true)

/-- NS_DETACH: NS_ATTACH with ATTACH 0 (15 R396). -/
def execNsDetach (r : Requester) (s : State) : Host.Outcome State Fault Refusal := .next (s.serveAttach r false)

/-- Does the requester see a namespace: the steward and the sideband every one, a PF those granted to its port, a function those attached to
it? -/
def State.seesNs (s : State) (r : Requester) (n : Ns) : Bool :=
  s.seesAll r || n.attached.contains (reqFn r) || (isPf (reqFn r) && n.ports.contains (portOf (reqFn r)))

/-- STATE of NS_INFO: 3 sanitize, 2 formatting, 1 not ready: bay, 4 key not loaded, else 0 ready (15 Table 15.6). -/
def State.nsState (s : State) (n : Ns) : Nat :=
  if n.sanitizing then 3 else if n.formatting then 2 else if !s.nsReady n then 1 else if !(s.key n.keyslot).loaded || (s.key n.keyslot).unloading then 4 else 0

/-- NS_INFO (15 Table 15.6). -/
def execNsInfo (r : Requester) (s : State) : Host.Outcome State Fault Refusal :=
  .next <| s.serve r 0x0F24 none fun p =>
    let n := s.ns (fieldAt p 2 2)
    let k := mbxOf r
    if !reservedZero p [(2, 2)] ∨ fieldAt p 2 2 = 0 ∨ 4096 < fieldAt p 2 2 then s.respond k (reasonOnly 1 33)
    else if !n.present || !s.seesNs r n then s.respond k (reasonOnly 2 33)
    else
      s.respond k (leBytes 1 0 ++ leBytes 1 (bit n.zoned) ++ leBytes 1 (s.nsState n)
        ++ leBytes 1 (((List.range 4).map fun q => at_ q (bit (n.ports.contains q))).sum) ++ leBytes 2 n.keyslot ++ leBytes 2 0 ++ leBytes 8 n.sectors
        ++ actBytes n.actset)

/-! ### Configuration epochs (15 R398 to R400, Table 15.7) -/

/-- BAR0 offsets of the staged registers whose values lie outside their ranges, in offset order (02 Tables 2.8, 2.9, 2.11; 03 Table 3.15; 09 Table
9.13; 15 R398). -/
def EpochCfg.bad (e : EpochCfg) : List Nat :=
  let cls := (List.range 7).flatMap fun n =>
    let c := e.cls n
    (if c.deadline.toNat < 100 then [0x8100 + 16 * n] else []) ++ (if c.deadline.toNat / 2 < c.margin.toNat then [0x8104 + 16 * n] else [])
  let p := e.pwr
  let g := e.gait
  cls ++ (if 25 < e.adm.floorPct.toNat ∨ 32 < e.adm.urgRes.toNat then [0x8200] else [])
    ++ (if 131072 < e.ldg.floor.toNat * 256 then [0x8710] else [])
    ++ (if p.target.toNat < 200 ∨ 4000 < p.target.toNat ∨ 30 < p.assistPct.toNat ∨ p.tokens.toNat < 1 ∨ 6 < p.tokens.toNat then [0x8E60] else [])
    ++ (if g.utilHi.toNat < 40 ∨ 95 < g.utilHi.toNat ∨ g.utilLo.toNat < 10 ∨ g.utilHi.toNat < g.utilLo.toNat + 10 ∨ g.dwell = 0 ∨ g.minGait = 0 then [0x8E68]
        else [])

/-- Put one staged grant or revocation in force (15 R396). -/
def State.putGrant (s : State) (g : StagedGrant) : State :=
  if !(s.ns g.nsid).present then s
  else if g.grant then
    let s := s.modNs g.nsid fun n => { n with ports := if n.ports.contains g.port then n.ports else n.ports ++ [g.port] }
    s.attach g.nsid (64 * g.port) true
  else
    let s := s.modNs g.nsid fun n => { n with ports := n.ports.filter (· != g.port) }
    s.each ((s.ns g.nsid).attached.filter fun f => portOf f == g.port) fun s f => s.attach g.nsid f false

/-- The last actuator has applied the epoch: the power, gait and timer policies take effect, and the flash record is to be written (15 R398
step 4). -/
def State.epochApplied (s : State) : State :=
  let grants := s.namespaces.flatMap fun r => r.2.ports.map fun p => (r.1, p)
  let s := s.modCfg fun c => { c with flashPend := true, pendCfg := c.applied, pendEpoch := c.epochReq, pendGrants := grants }
  ((s.raise 0x7B9).raiseFns s.enabledFns 13).reproject

/-- Does an actuator reach its safe point at once: PARKED, out of service or in an absent bay (15 R398)? -/
def State.safeNow (s : State) (a : Nat) : Bool := (s.loop a).mode == 0 || s.offline a

/-- An actuator applies an epoch: a function whose weight was 0 and is no longer starts as one that had nothing queued, and CFG_ADM_EPOCH shows the
epoch (02 R47, Table 2.15; 15 R398). -/
def State.reweigh (s : State) (a : Nat) (was now : EpochCfg) : State :=
  let w (e : EpochCfg) (f : Nat) : Nat := if 256 ≤ f then e.adm.grazeWgt.toNat else (e.wgts.get (fun _ => 0x10) f).toNat
  s.modAdm a fun x => { x with epoch := none, joined := x.joined.filter fun f => !(w was f == 0 && w now f != 0) }

/-- CFG_COMMIT: every staged value is checked; an accepted commit begins epoch E (15 R398, R399). -/
def execCfgCommit (r : Requester) (s : State) : Host.Outcome State Fault Refusal :=
  .next <| s.serve r 0x0F30 none fun p =>
    let k := mbxOf r
    let answers (reason epoch off : Nat) (s : State) : State := s.respond k (reasonOnly reason 3 ++ leBytes 4 epoch ++ leBytes 4 off)
    if !reservedZero p [] then answers 1 0 0 s
    else if !s.cfg.left.isEmpty then answers 1 0 0 s
    else
      let gone := s.cfg.stagedGrants.any fun g => g.grant && !(s.ns g.nsid).present
      match s.cfg.staged.bad with
      | off :: _ => answers 2 0 off s
      | [] =>
        if gone then answers 2 0 0xFFFFFFFF s
        else
          let left := (List.range 144).filter fun a => !s.safeNow a
          let here := (List.range 144).filter s.safeNow
          let gs := s.cfg.stagedGrants
          let s := s.modCfg fun c =>
            { c with prev := c.applied, prevEpoch := c.epochReq, applied := c.staged, epochReq := c.epochReq + 1, left := left, stagedGrants := [] }
          let s := (s.raise 0x7B8).each gs State.putGrant
          let s := s.each left fun s a => s.modAdm a fun x => { x with epoch := some s.cfg.prevEpoch }
          let s := s.each here fun s a => s.reweigh a s.cfg.prev s.cfg.applied
          let s := if left.isEmpty then s.epochApplied else s
          answers 0 s.cfg.epochReq.toNat 0 s

/-- EPOCH_SAFE_POINT: wedge 0 passes under the selected head of an actuator, which applies the epoch (15 R398). -/
def execEpochSafePoint (a : ActId) (s : State) : Host.Outcome State Fault Refusal :=
  .next <| if !s.cfg.left.contains a.val then s
    else
      let s := (s.modCfg fun c => { c with left := c.left.filter (· != a.val) }).reweigh a.val s.cfg.prev s.cfg.applied
      if s.cfg.left.isEmpty then s.epochApplied else s

/-- A port's flash record is written: its TWN_SIZE and window come into force at the port's next PERST_N or at COLD_RST_N (04 R106, R120). -/
def State.writePortRec (s : State) (r : PortRec) : State :=
  s.modPort r.port.val fun x =>
    { x with flashSize := some r.size,
             flashTwn := some { base := r.base.toNat / 2 ^ 20 * 2 ^ 20, limit := r.limit.toNat / 2 ^ 20 * 2 ^ 20 + 0xFFFFF, en := r.en },
             flashGrants := r.grants.map fun (k, en, lo, hi) => (k % 64, { en := en, start := lo, fin := hi }) }

/-- FLASH_RECORD_WRITTEN: the configuration record has been written and read back; a copy that fails is written again (15 R398). With a port's record it is a
port's record, which the steward writes through the mailbox: no opcode is stated for that request, so that it comes with the write's end (04
R106; DESIGN CHOICE). -/
def execFlashRecordWritten (wr : FlashWrite) (s : State) : Host.Outcome State Fault Refusal :=
  .next <| match wr.port with
  | some r => if wr.pass then s.writePortRec r else s
  | none =>
    if s.cfg.flashPend ∧ wr.pass then
      s.modCfg fun c => { c with flashCfg := c.pendCfg, flashEpoch := c.pendEpoch, flashGrants := c.pendGrants, flashPend := false }
    else s

/-- CFG_STATUS (15 Table 15.7). -/
def execCfgStatus (r : Requester) (s : State) : Host.Outcome State Fault Refusal :=
  .next <| s.serve r 0x0F31 none fun p =>
    let c := s.cfg
    if !reservedZero p [] then s.respond (mbxOf r) (reasonOnly 1 25)
    else s.respond (mbxOf r) (leBytes 1 0 ++ leBytes 1 (bit (!c.left.isEmpty) + at_ 1 (bit c.flashPend)) ++ leBytes 1 c.left.length ++ leBytes 1 0
      ++ leBytes 4 c.epochReq.toNat ++ actBytes ((List.range 144).filter fun a => !c.left.contains a))

/-! ### Tally rings and minutes (15 R404 to R408) -/

/-- Serve a TALLY_RING action (15 Table 15.7). -/
def State.tallyRing (s : State) (r : Requester) (act : Nat) (g : State → Nat → List Byte → Nat × State) : State :=
  s.serve r 0x0F40 (some act) fun p =>
    let f := reqFn r
    let kind := byteAt p 1
    let key := 4 * f + kind
    let badNew := decide (fieldAt p 4 4 < 16) || decide (65536 < fieldAt p 4 4) || fieldAt p 8 8 % 4096 != 0
    let (reason, s) := if !reservedZero p [(0, 2), (4, 12)] ∨ 2 < kind ∨ (act = 1 ∧ badNew) then (1, s)
      else if kind ≠ 0 ∧ !isPf f then (4, s)
      else g s key p
    let next := if reason = 0 ∧ (s.ring key).present then (s.ring key).seq + 1 else 0
    s.respond (mbxOf r) (reasonOnly reason 7 ++ leBytes 8 next)

/-- TALLY_RING_CREATE (15 Table 15.7). -/
def execTallyRingCreate (r : Requester) (s : State) : Host.Outcome State Fault Refusal :=
  .next <| s.tallyRing r 1 fun s key p =>
    if (s.ring key).present then (2, s)
    else (0, s.setRing key { present := true, base := fieldAt p 8 8, entries := fieldAt p 4 4, overrun := (s.ring key).overrun })

/-- TALLY_RING_DELETE (15 Table 15.7). -/
def execTallyRingDelete (r : Requester) (s : State) : Host.Outcome State Fault Refusal :=
  .next <| s.tallyRing r 2 fun s key _ =>
    if (s.ring key).present then (0, s.setRing key { overrun := (s.ring key).overrun }) else (3, s)

/-- TALLY_RING_STATUS (15 Table 15.7). -/
def execTallyRingStatus (r : Requester) (s : State) : Host.Outcome State Fault Refusal :=
  .next <| s.tallyRing r 3 fun s key _ => (if (s.ring key).present then 0 else 3, s)

/-- Bytes 8 to 123 of a tally record (15 Table 15.11). -/
def State.tallyBody (s : State) (subject kind : Nat) (x : Acc) : List Byte :=
  let t := s.tally
  let dev := kind = 2
  let flags := bit (t.untraced || s.clk.trefHold) + at_ 1 (bit (t.enUntraced || s.cal.refFault)) + at_ 2 (bit (x.partial_ || t.stepped)) + at_ 3 (bit x.restarted)
  let n (v : Nat) : Nat := if dev then 0 else v
  leBytes 8 (t.minute * 60000000000) ++ leBytes 2 subject ++ leBytes 1 kind ++ leBytes 1 flags
    ++ (List.range 8).flatMap (fun c => leBytes 4 (n (x.cmds.get (fun _ => 0) c))) ++ (List.range 8).flatMap (fun c => leBytes 4 (n (x.sect.get (fun _ => 0) c)))
    ++ leBytes 4 (n x.refDl) ++ leBytes 2 (n x.refLdg) ++ leBytes 2 (n x.refPwr) ++ leBytes 6 (x.busyNs / 1000) ++ leBytes 6 x.iter
    ++ leBytes 2 x.fails ++ leBytes 2 x.poison ++ leBytes 4 (x.eSpin / 1000000000) ++ leBytes 4 (x.eAsst / 1000000000)
    ++ leBytes 4 (x.eChan / 1000000000) ++ leBytes 4 (x.eDec / 1000000000)

/-- A record is due on a ring: written at TAIL without waiting for the host, or dropped while its function may not write; its SEQ is consumed
either way (15 R406). -/
def State.tallyWrite (s : State) (key : Nat) (body : List Byte) : State :=
  let f := key / 4
  let x := s.ring key
  if !x.present then s
  else
    let seq := x.seq + 1
    if !(s.fn f).bme || (s.fn f).d3 then
      (s.setRing key { x with seq := seq }).modFn f fun y => { y with talDrop := y.talDrop + 1 }
    else
      let bs := leBytes 8 seq ++ body
      let rec128 := bs ++ leBytes 4 (crc32c bs).toNat
      let next := (x.tail.toNat + 1) % x.entries
      let beyond := next == x.head.toNat
      let s := s.emit (.tallyRec f (x.base + 128 * x.tail.toNat) rec128)
      let s := s.setRing key { x with seq := seq, tail := BitVec.ofNat 16 next, overrun := if beyond then x.overrun + 1 else x.overrun }
      let s := s.raiseFn f 3
      if beyond then (s.raiseFn f 4).raise (0x7C4 + portOf f) else s

/-- An accumulator at a minute's start: energy remainders below 1 mJ carry over (15 R408). -/
def Acc.nextMinute (x : Acc) (on : Bool) : Acc :=
  { eSpin := x.eSpin % 1000000000, eAsst := x.eAsst % 1000000000, eChan := x.eChan % 1000000000, eDec := x.eDec % 1000000000, enabled := on }

/-- A trim scaled by the ratio of measured to modelled energy, clamped to 0.8 to 1.25; unchanged with nothing modelled (15 R408). -/
def scaleTrim (v meas model : Nat) : Nat :=
  if model = 0 then v else if 5 * meas < 4 * model then v * 4 / 5 else if 5 * model < 4 * meas then v * 5 / 4 else v * meas / model

/-- TALLY_MINUTE_END: the records of the minute go to their rings and the accumulators start again; `spinPj` is the measured spindle and electronics
energy of all bays, whose part in no busy interval is the device's, `decPj` the measured decoder energy, and `chTrim` new trims of the channel terms
(12 R348; 15 R404 to R409). -/
def execTallyMinuteEnd (spinPj decPj : Nat) (chTrim : Option (Nat × Nat)) (s : State) : Host.Outcome State Fault Refusal :=
  .next <| if s.now < (s.tally.minute + 1) * 60000000000 then s
    else
      let fs := (List.range 256).filter fun f => (s.fn f).enabled || (s.acc f).enabled
      let ns := (List.range 4097).filter fun n => n != 0 && ((s.ns n).present || (s.acc (nsAcc n)).enabled)
      let funcSpin := ((List.range 256).map fun f => (s.acc f).eSpin).sum
      let model := ((List.range 257).map fun f => (s.acc f).eDec).sum
      let s := s.modAcc devAcc fun x => { x with eSpin := x.eSpin % 1000000000 + (spinPj - (funcSpin - s.tally.carry)) }
      let old := s
      let s := s.each fs fun s f =>
        let b := old.tallyBody f 0 (old.acc f)
        (s.tallyWrite (4 * f) b).tallyWrite (4 * (64 * portOf f) + 1) b
      let st := s.stewardPort
      let s := s.each ns fun s n =>
        let b := old.tallyBody n 1 (old.acc (nsAcc n))
        s.each ((List.range 4).filter fun p => p == st || (s.ns n).ports.contains p) fun s p => s.tallyWrite (4 * (64 * p) + 2) b
      let s := s.tallyWrite (4 * (64 * st) + 2) (old.tallyBody 0xFFFF 2 (old.acc devAcc))
      let accs := old.accs.filterMap fun r =>
        let on := if r.1 < 256 then (old.fn r.1).enabled else if r.1 = devAcc then true else (old.ns (r.1 - 512)).present
        if on || r.1 < 512 then some (r.1, r.2.nextMinute on) else none
      let carry := ((List.range 256).map fun f => (old.acc f).eSpin % 1000000000).sum
      let good := !s.cal.refFault
      let t := s.tally
      let t := if good then
          { t with eIt := scaleTrim t.eIt decPj model, eRd := scaleTrim t.eRd decPj model, chA := (chTrim.map (·.1)).getD t.chA, chB := (chTrim.map (·.2)).getD t.chB }
        else t
      let t := { t with minute := t.minute + 1, untraced := s.clk.trefHold, enUntraced := s.cal.refFault, stepped := false, carry := carry }
      let cal := if good then { s.cal with trimVer := s.cal.trimVer + 1 } else s.cal
      let s := { s with accs := accs, tally := t, cal := cal }.raise 0x7C8
      if good then s.writeDev 0x10 t.trims else s

/-! ### STEWARD_MOVE (04 R103; 15 R397) -/

/-- STEWARD_MOVE: the sideband moves stewardship when the steward's port has been held in PERST_N or had no link up for more than 1 s (04 R102,
R103; 15 R397). -/
def execStewardMove (r : Requester) (s : State) : Host.Outcome State Fault Refusal :=
  .next <| s.serve r 0x0F50 none fun p =>
    let k := mbxOf r
    let t := byteAt p 0
    let x := s.port s.stewardPort
    if !reservedZero p [(0, 1)] ∨ 3 < t then s.respond k (reasonOnly 1 0)
    else if s.glb.lck.getLsbD 0 then s.respond k (reasonOnly 3 0)
    else if x.h0.up || x.h1.up || !decide (x.downAt + 1000000000 < s.now) then s.respond k (reasonOnly 2 0)
    else if !s.stewardReady t then s.respond k (reasonOnly 4 0)
    else (s.moveSteward t).respond k (reasonOnly 0 0)

end Sys2Proof.Machine
end

