-- ==== Sys2Proof/Machine/Sha.lean ====
section
/-! DEFINITION. SHA-384 and the digest of a herd's image (07 R192). The spec names the function and not its text: it is FIPS 180-4's (PRESUMED). -/
namespace Sys2Proof.Machine

open Sys2Proof

/-! ### SHA-384 -/

/-- The first 40 round constants. -/
def shaK0 : List (BitVec 64) :=
  [0x428a2f98d728ae22#64, 0x7137449123ef65cd#64, 0xb5c0fbcfec4d3b2f#64, 0xe9b5dba58189dbbc#64,
   0x3956c25bf348b538#64, 0x59f111f1b605d019#64, 0x923f82a4af194f9b#64, 0xab1c5ed5da6d8118#64,
   0xd807aa98a3030242#64, 0x12835b0145706fbe#64, 0x243185be4ee4b28c#64, 0x550c7dc3d5ffb4e2#64,
   0x72be5d74f27b896f#64, 0x80deb1fe3b1696b1#64, 0x9bdc06a725c71235#64, 0xc19bf174cf692694#64,
   0xe49b69c19ef14ad2#64, 0xefbe4786384f25e3#64, 0x0fc19dc68b8cd5b5#64, 0x240ca1cc77ac9c65#64,
   0x2de92c6f592b0275#64, 0x4a7484aa6ea6e483#64, 0x5cb0a9dcbd41fbd4#64, 0x76f988da831153b5#64,
   0x983e5152ee66dfab#64, 0xa831c66d2db43210#64, 0xb00327c898fb213f#64, 0xbf597fc7beef0ee4#64,
   0xc6e00bf33da88fc2#64, 0xd5a79147930aa725#64, 0x06ca6351e003826f#64, 0x142929670a0e6e70#64,
   0x27b70a8546d22ffc#64, 0x2e1b21385c26c926#64, 0x4d2c6dfc5ac42aed#64, 0x53380d139d95b3df#64,
   0x650a73548baf63de#64, 0x766a0abb3c77b2a8#64, 0x81c2c92e47edaee6#64, 0x92722c851482353b#64]

/-- The other 40 round constants. -/
def shaK1 : List (BitVec 64) :=
  [0xa2bfe8a14cf10364#64, 0xa81a664bbc423001#64, 0xc24b8b70d0f89791#64, 0xc76c51a30654be30#64,
   0xd192e819d6ef5218#64, 0xd69906245565a910#64, 0xf40e35855771202a#64, 0x106aa07032bbd1b8#64,
   0x19a4c116b8d2d0c8#64, 0x1e376c085141ab53#64, 0x2748774cdf8eeb99#64, 0x34b0bcb5e19b48a8#64,
   0x391c0cb3c5c95a63#64, 0x4ed8aa4ae3418acb#64, 0x5b9cca4f7763e373#64, 0x682e6ff3d6b2b8a3#64,
   0x748f82ee5defb2fc#64, 0x78a5636f43172f60#64, 0x84c87814a1f0ab72#64, 0x8cc702081a6439ec#64,
   0x90befffa23631e28#64, 0xa4506cebde82bde9#64, 0xbef9a3f7b2c67915#64, 0xc67178f2e372532b#64,
   0xca273eceea26619c#64, 0xd186b8c721c0c207#64, 0xeada7dd6cde0eb1e#64, 0xf57d4f7fee6ed178#64,
   0x06f067aa72176fba#64, 0x0a637dc5a2c898a6#64, 0x113f9804bef90dae#64, 0x1b710b35131c471b#64,
   0x28db77f523047d84#64, 0x32caab7b40c72493#64, 0x3c9ebe0a15c9bebc#64, 0x431d67c49c100d4c#64,
   0x4cc5d4becb3e42b6#64, 0x597f299cfc657e2a#64, 0x5fcb6fab3ad6faec#64, 0x6c44198c4a475817#64]

/-- The initial hash value of SHA-384. -/
def shaH : List (BitVec 64) :=
  [0xcbbb9d5dc1059ed8#64, 0x629a292a367cd507#64, 0x9159015a3070dd17#64, 0x152fecd8f70e5939#64,
   0x67332667ffc00b31#64, 0x8eb44a8768581511#64, 0xdb0c2e0d64f98fa7#64, 0x47b5481dbefa4fa4#64]

/-- The first function of a round's schedule. -/
def shaSmall0 (x : BitVec 64) : BitVec 64 := x.rotateRight 1 ^^^ x.rotateRight 8 ^^^ (x >>> 7)
/-- The second function of a round's schedule. -/
def shaSmall1 (x : BitVec 64) : BitVec 64 := x.rotateRight 19 ^^^ x.rotateRight 61 ^^^ (x >>> 6)
/-- The first sum of a round. -/
def shaBig0 (x : BitVec 64) : BitVec 64 := x.rotateRight 28 ^^^ x.rotateRight 34 ^^^ x.rotateRight 39
/-- The second sum of a round. -/
def shaBig1 (x : BitVec 64) : BitVec 64 := x.rotateRight 14 ^^^ x.rotateRight 18 ^^^ x.rotateRight 41

/-- The working variables of a block. -/
structure ShaVars where
  /-- first -/
  a : BitVec 64
  /-- second -/
  b : BitVec 64
  /-- third -/
  c : BitVec 64
  /-- fourth -/
  d : BitVec 64
  /-- fifth -/
  e : BitVec 64
  /-- sixth -/
  f : BitVec 64
  /-- seventh -/
  g : BitVec 64
  /-- eighth -/
  h : BitVec 64
  deriving DecidableEq, Repr

/-- One round with its constant and schedule word. -/
def shaRound (v : ShaVars) (k w : BitVec 64) : ShaVars :=
  let t := v.h + shaBig1 v.e + ((v.e &&& v.f) ^^^ (~~~v.e &&& v.g)) + k + w
  let u := shaBig0 v.a + ((v.a &&& v.b) ^^^ (v.a &&& v.c) ^^^ (v.b &&& v.c))
  { a := t + u, b := v.a, c := v.b, d := v.c, e := v.d + t, f := v.e, g := v.f, h := v.g }

/-- The rounds of a block, from the 16 schedule words in hand: each round makes the word 16 rounds on. -/
def shaRounds : List (BitVec 64) → ShaVars → List (BitVec 64) → ShaVars
  | [], v, _ => v
  | k :: ks, v, w =>
    let next := shaSmall1 (w.getD 14 0) + w.getD 9 0 + shaSmall0 (w.getD 1 0) + w.getD 0 0
    shaRounds ks (shaRound v k (w.getD 0 0)) (w.drop 1 ++ [next])

/-- One block of 16 words into the hash value. -/
def shaBlock (h : List (BitVec 64)) (w : List (BitVec 64)) : List (BitVec 64) :=
  let x (i : Nat) : BitVec 64 := h.getD i 0
  let v := shaRounds (shaK0 ++ shaK1) { a := x 0, b := x 1, c := x 2, d := x 3, e := x 4, f := x 5, g := x 6, h := x 7 } w
  [x 0 + v.a, x 1 + v.b, x 2 + v.c, x 3 + v.d, x 4 + v.e, x 5 + v.f, x 6 + v.g, x 7 + v.h]

/-- A run of bytes as 64-bit words, most significant byte first. -/
def shaWord (p : List Byte) (i : Nat) : BitVec 64 :=
  BitVec.ofNat 64 (((p.drop (8 * i)).take 8).foldl (fun n b => 256 * n + b.toNat) 0)

/-- The blocks of a padded message. -/
def shaBlocks : Nat → List Byte → List (BitVec 64) → List (BitVec 64)
  | 0, _, h => h
  | n + 1, p, h => shaBlocks n (p.drop 128) (shaBlock h ((List.range 16).map (shaWord (p.take 128))))

/-- A message with its padding: a one bit, zeros, and its length in bits in 16 bytes. -/
def shaPad (p : List Byte) : List Byte :=
  let n := p.length
  p ++ [0x80] ++ List.replicate ((239 - n % 128) % 128) 0 ++ (leBytes 16 (8 * n)).reverse

/-- SHA-384 of a run of bytes: 48 bytes. -/
def sha384 (p : List Byte) : List Byte :=
  let m := shaPad p
  ((shaBlocks (m.length / 128) m shaH).take 6).flatMap fun w => (leBytes 8 w.toNat).reverse

/-! ### The digest of a herd's image (07 R192) -/

/-- A dispatch entry as the digest takes it: the address in bits 14:0 and the invalid mark in bit 15 of two bytes, lowest first (PRESUMED: the spec gives
the order of the entries and words, not their bytes). -/
def dispBytes (e : DispEnt) : List Byte := leBytes 2 (e.addr.toNat + if e.invalid then 2 ^ 15 else 0)

/-- What the digest covers: the 256 dispatch entries, then the 1,024 detour words, lowest byte first (07 R192). -/
def Herd.image (h : Herd) : List Byte :=
  (List.range 256).flatMap (fun i => dispBytes (h.table.get (fun _ => {}) i))
    ++ (List.range 1024).flatMap (fun i => leBytes 16 (h.store.get (fun _ => 0) i).toNat)

/-- Word `i` of MC_DIGEST: digest bytes 4i to 4i + 3, the lowest first (07 Table 7.15). -/
def Herd.digestWord (h : Herd) (i : Nat) : Nat := fieldAt (sha384 h.image) (4 * i) 4

end Sys2Proof.Machine
end

