-- ==== Sys2Proof/Machine/Image.lean ====
section
/-! DEFINITION. Firmware images: the header of a flash slot, its components and the check of an image (16 R412, R413, Table 16.2). -/
namespace Sys2Proof.Machine

open Sys2Proof

/-- Bytes of a slot from offset `off` on: `base`, what the flash holds beside the bytes written through FW_CTRL, an erased byte reading 0xFF (16
Table 16.2). -/
def Slot.overlay (x : Slot) (off : Nat) (base : List Byte) : List Byte :=
  let base := if x.erased then base.map fun _ => 0xFF else base
  x.bytes.foldl (fun l r => if off ≤ r.1 ∧ r.1 < off + base.length then l.set (r.1 - off) r.2 else l) base

/-- A run of bytes padded with zeros, or cut, to `n`. -/
def padTo (n : Nat) (l : List Byte) : List Byte := l.take n ++ List.replicate (n - l.length) 0

/-- The header of a slot: its first 4 KiB (16 Table 16.2). -/
def Slot.header (x : Slot) (f : FlashImage) : List Byte := x.overlay 0 (padTo 4096 f.head)

/-- TYPE of component `i` of a header; the fields of a component follow one another in 64 bytes (16 Table 16.2). -/
def compType (h : List Byte) (i : Nat) : Nat := byteAt h (64 + 64 * i)
/-- OFFSET of component `i`. -/
def compOffset (h : List Byte) (i : Nat) : Nat := fieldAt h (68 + 64 * i) 4
/-- LENGTH of component `i`. -/
def compLength (h : List Byte) (i : Nat) : Nat := fieldAt h (72 + 64 * i) 4
/-- VER of component `i`. -/
def compVer (h : List Byte) (i : Nat) : Nat := fieldAt h (76 + 64 * i) 4
/-- DIGEST of component `i`. -/
def compDigest (h : List Byte) (i : Nat) : List Byte := (h.drop (80 + 64 * i)).take 48

/-- Are the bytes from `a` up to `b` all 0? -/
def zeroBytes (h : List Byte) (a b : Nat) : Bool := ((h.drop a).take (b - a)).all (· == 0)

/-- The bytes of component `i` of a slot. -/
def Slot.component (x : Slot) (f : FlashImage) (h : List Byte) (i : Nat) : List Byte :=
  x.overlay (compOffset h i) (padTo (compLength h i) (f.comps.getD i []))

/-- The format of a header: FORMAT 1, reserved bytes 0, 1 to 4 components, each 4 KiB aligned and within the slot, of TYPEs 1 to 4 without a repeat,
and the entries beyond them 0 (16 R412, Table 16.2). -/
def headerOk (h : List Byte) : Bool :=
  let n := byteAt h 13
  fieldAt h 0 4 == 1 && decide (byteAt h 12 ≤ 3) && decide (1 ≤ n ∧ n ≤ 4) && zeroBytes h 14 64 && zeroBytes h 512 4096
    && (List.range 4).all (fun i =>
      if i < n then zeroBytes h (65 + 64 * i) (68 + 64 * i) && decide (1 ≤ compType h i ∧ compType h i ≤ 4) && compOffset h i % 4096 == 0
        && decide (compOffset h i + compLength h i ≤ 2 ^ 24)
      else zeroBytes h (64 + 64 * i) (128 + 64 * i))
    && decide (((List.range n).map (compType h)).Nodup)

/-- A dispatch entry of the microcode component (PRESUMED form: `dispBytes`). -/
def dispOf (b : List Byte) (i : Nat) : DispEnt :=
  { addr := BitVec.ofNat 15 (fieldAt b (2 * i) 2 % 2 ^ 15), invalid := decide (2 ^ 15 ≤ fieldAt b (2 * i) 2) }

/-- Detour word `i` of the microcode component, behind its 256 dispatch entries (16 R412). -/
def detourOf (b : List Byte) (i : Nat) : BitVec 128 := BitVec.ofNat 128 (fieldAt b (512 + 16 * i) 16)

/-- Words of the detour store an image uses: up to its last word that is not 0 (DESIGN CHOICE: 07 Table 7.14 does not say how the image gives the
number). -/
def detourWords (b : List Byte) : Nat := (List.range 1024).foldl (fun n i => if detourOf b i = 0 then n else i + 1) 0

/-- The hash fused for key slot `k`; an absent row is the one fused at manufacture (16 R413). -/
def State.keyHash (s : State) (k : Nat) : List Byte := s.boot.keyHash.get Config.keyHash k

/-- Is an image valid but for SVN and the enabling of its key slot: its header's form, the hash of PUBKEY, SIG, and every component's digest
(16 R412)? -/
def State.imageOk (s : State) (x : Slot) (f : FlashImage) : Bool :=
  let h := x.header f
  headerOk h && sha384 ((h.drop 416).take 96) == s.keyHash (byteAt h 12) && f.sigOk
    && (List.range (byteAt h 13)).all fun i => sha384 (x.component f h i) == compDigest h i

/-- What a check of the image in flash slot `n` finds (16 R412). -/
def State.readImage (s : State) (n : Nat) (f : FlashImage) : SlotCheck :=
  let x := s.boot.slots.get (fun _ => {}) n
  let h := x.header f
  let is := List.range (min 4 (byteAt h 13))
  let mc := ((is.find? fun i => compType h i == 3).map (x.component f h)).getD []
  { unreadable := f.unreadable, ok := s.imageOk x f, keyslot := BitVec.ofNat 2 (byteAt h 12), ver := BitVec.ofNat 32 (fieldAt h 4 4),
    svn := BitVec.ofNat 32 (fieldAt h 8 4), comps := is.foldl (fun t i => Tab.put t (compType h i) (BitVec.ofNat 32 (compVer h i))) [],
    detour := BitVec.ofNat 11 (detourWords mc), refused := f.refused,
    table := if mc.isEmpty then [] else (List.range 256).map fun i => (i, dispOf mc i),
    store := if mc.isEmpty then [] else ((List.range 1024).filter fun i => detourOf mc i != 0).map fun i => (i, detourOf mc i) }

end Sys2Proof.Machine
end

