-- ==== Sys2Proof/Machine/Boot.lean ====
section
/-! DEFINITION. Cold resets, starts, their completion and failures, watchdogs and device-level resets (16 R412 to R420, R434; 18 R446,
R449). -/
namespace Sys2Proof.Machine

open Sys2Proof

/-! ### Images (16 R412, R413, R415) -/

/-- Does BOOT_FWKEY let key slot `k` sign the image of flash slot `n`? The Golden slot takes key slot 0 alone (16 R412). -/
def State.keySlotOk (s : State) (n : Nat) (k : BitVec 2) : Bool := if n = 0 then k == 0 else s.boot.fwkey.getLsbD k.toNat

/-- Cause with which the image of flash slot `n` fails a start, if it does (16 R412, R415, Table 16.14). -/
def State.imageCause (s : State) (n : Nat) (x : SlotCheck) : Option Nat :=
  if x.unreadable then some 9
  else if !x.ok || !(s.keySlotOk n x.keyslot) then some 5
  else if x.svn.toNat < s.boot.svnMin.toNat then some 8
  else none

/-- REASON of a check of the image of slot `n` (16 Table 16.10). -/
def State.imageReason (s : State) (n : Nat) (x : SlotCheck) : Nat :=
  if x.unreadable || !x.ok then 4
  else if !(s.keySlotOk n x.keyslot) then 6
  else if x.svn.toNat < s.boot.svnMin.toNat then 5
  else 0

/-- A slot after a check of its image (16 R412, Table 16.14). -/
def Slot.checked (x : Slot) (img : SlotCheck) (reason : Nat) : Slot :=
  { x with verified := reason == 0, ver := img.ver, svn := img.svn, comps := img.comps, detour := img.detour, table := img.table, store := img.store,
           refused := img.refused,
           keyslot := img.keyslot, chk := BitVec.ofNat 4 reason }

/-- Change flash slot `n`. -/
def State.modSlot (s : State) (n : Nat) (g : Slot → Slot) : State := s.modBoot fun b => { b with slots := Tab.upd (fun _ => {}) b.slots n g }

/-! ### COLD_RST_N (18 R446, R449; 16 R414, R417, R420) -/

/-- COLD_RST_ASSERT: an assertion of `ns`; under 1 µs it is ignored, of 10 µs or more it is a cold reset that lasts until it ends, with
SHELF_FAULT_N released; what lies between is undefined (18 R449; 02 Table 2.6). -/
def execColdRstAssert (ns : Nat) (s : State) : Host.Outcome State Fault Refusal :=
  if ns < 1000 ∨ s.glb.coldRst then .next s
  else if ns < 10000 then .fault .coldResetPulseUndefined
  else .next <| (s.wipe true).modGlb fun g => { g with coldRst := true, thermTrip := s.glb.thermTrip, shelfFault := false }

/-- The layout a cold start loads: a pending record becomes the layout record; the newer good slot of that is in force when it is valid, else the default
layout (11 R308, R310; 12 R355). -/
def State.loadLayout (s : State) (bad : List Nat) : State :=
  let s := match s.mem.pendLay with
    | some t => s.writeDev 0x11 (layoutBytes (t.get fun _ => {}))
    | none => s
  let s := s.devFall bad 0x11
  let t := (s.devBody bad 0x11).map fun b => layoutIn (List.replicate 8 0 ++ b)
  let ok := t.any fun t => s.layoutOk (t.get fun _ => {})
  s.modMem fun m =>
    if ok then { m with areas := t.getD [], pendLay := none, layDef := false }
    else { m with areas := [], pendLay := none, layDef := true }

/-- Macros whose recorded faults the spares the factory fuse map leaves, of 2 rows and 2 columns, cannot cover (11 R333). -/
def uncovered (l : List SoftRec) : List Nat :=
  let n (x : Nat) (c : Bool) : Nat := (((l.filter fun r => r.macro_ == x && r.col == c).map (·.num)).eraseDups).length
  let spent (x : Nat) : Bool := decide (2 - Config.fusedSpares x false % 3 < n x false) || decide (2 - Config.fusedSpares x true % 3 < n x true)
  ((l.map (·.macro_)).eraseDups).filter spent

/-- Soft repair records are applied, those whose check words fail (`lost`, by place in the map) being ignored; macros that no spare can cover
leave their way group down (11 R333). -/
def State.softApply (s : State) (lost : List Nat) : State :=
  let bad := uncovered ((s.mem.softMap.zipIdx.filter fun r => !(lost.contains r.2)).map (·.1))
  let s := if s.mem.softMap.isEmpty && s.mem.softRecs.isEmpty then s else s.raise 0x6AE
  let s := s.modMem fun m => { m with softRecs := [] }
  s.each (bad.filter (· < 256)) fun s x => s.modCache fun c =>
    { c with wgfail := c.wgfail ||| wayBit (x / 32), wgon := c.wgon &&& ~~~(wayBit (x / 32)) }

/-- COLD_RST_DEASSERT: the straps are sampled, device time starts at 0, flash records load, the ended run's entry takes its cause, and a start
begins, or Trailhead mode by its strap (16 R414, R417, R420; 14 R378; 18 R446, R452; 11 R308, R333). `bad`: slots of device records that fail their
check words, 2 × TYPE + slot; `lost`: places of the soft repair map whose records fail theirs. -/
def execColdRstDeassert (st : Straps) (bad : List Nat) (lost : List Nat) (s : State) : Host.Outcome State Fault Refusal :=
  .next <| if !s.glb.coldRst then s
    else
      let s := { s with now := 0 }.wipe true
      let s := s.modGlb fun g =>
        { g with pbif := st.pbif, clkMode := st.clkMode, stewardSel := st.stewardSel, bar2sz := st.bar2sz, smbAddr := st.smbAddr,
                 steward := if st.trailhead then 0 else st.stewardSel, coldRst := false }
      let s := s.halfHeads
      let s := s.each [0, 1, 2, 3] fun s p => s.modPort p fun x => { x with twnSize := s.sizeOf p, training := !x.perst, crs := true }
      let s := ((s.loadLayout bad).loadTrims bad).softApply lost
      let s := s.modIsl 216 fun x => { x with ready := true, period := BitVec.ofNat 16 (islandPs 216) }
      let cause := if s.boot.lossMark then 2 else 1
      let s := s.modBoot fun b => { (b.endRun cause) with lossMark := false }
      if st.trailhead then s.enterTrailhead 0x0A else s.beginStart cause

/-! ### Start complete (16 R416) -/

/-- What an actuator's checkpoint restores: the ATI counters, with ATI_LIMIT / 4 more after a stop without a final checkpoint, and the heads' assist
figures (05 R148; 07 R214). -/
def ActSt.restore (limit : Nat) (x : ActSt) : ActSt :=
  let m := x.med
  let more := if m.ckptFinal then 0 else limit / 4
  { x with med := { m with ati := m.atiCkpt.map fun r => (r.1, r.2 + more), atiBase := m.atiCkptBase + more, ckptFinal := false },
           heads := x.heads.map fun r => (r.1, { r.2 with writeNs := r.2.ckWrite, idleNs := r.2.ckIdle, energy := r.2.ckEnergy }) }

/-- A Loop Engine that fails its start test: a spare chosen under R244 takes its place, loop by loop where none has room for all (08 R223, R244).
-/
def State.replaceLe (s : State) (n : Nat) : State :=
  let s := (s.modLe n fun e => { e with state := 1 }).raise (0x720 + n)
  let s := s.each (s.loopsOn n) fun s a => match s.leTarget n (s.loop a).weight false with
    | some m => s.modLoop a fun l => { l with engine := BitVec.ofNat 5 m }
    | none => s.enterLimp a
  s.each (s.spinsOn n) fun s b => match s.leTarget n 60 true with
    | some m => s.modLink b fun k => { k with spnEngine := BitVec.ofNat 5 m }
    | none => s.modLink b fun k => { k with spnNoEngine := true }

/-- A format under way goes on from its last unit (05 R151, 16 R416). -/
def State.resumeFormat (s : State) (o : FmtOp) : State :=
  let as := s.formatActs o
  let out := as.any fun a => !(s.bay (bayOf a)).link.present
  let s := s.mapFmt fun x => if x.id = o.id then { x with st := if out then 2 else 1 } else x
  s.each as fun s a =>
    s.modGraze a fun x => { x with pending := x.pending ++ s.formatOps o a }

/-- A sanitize under way goes on: at CRYPTO unless the journal says it is done, else from each actuator's last unit (16 R432). -/
def State.resumeSan (s : State) (o : SanOp) : State := if o.cryptoDone then (s.queueSan o).sanTick o.id else s.runCrypto o

/-- Every island but a host port held in PERST_N is ready; channel islands run in holdover until their lanes deliver a clock (14 R373, R380; 16
R416). -/
def State.islandsUp (s : State) : State :=
  { s with isls := (List.range 217).map fun i =>
      let held := decide (144 ≤ i ∧ i < 148) && (s.port (i - 144)).perst
      (i, { s.isl i with ready := !held, reset := held, holdover := decide (i < 144), period := BitVec.ofNat 16 (s.islPeriod i) }) }

/-- Every herd runs, with the microcode of the image (07 R192; 16 R412, R416). -/
def State.herdsUp (s : State) (img : SlotCheck) : State :=
  let up (x : Herd) : Herd :=
    { x with running := true, restart := none, mcState := 0, imgVer := (img.comps.get (fun _ => 0) 3).setWidth 16, detour := img.detour,
             table := img.table, store := img.store }
  s.each (List.range 18) fun s h => s.modHerd h up

/-- Start complete (16 R416, R417; 05 R142, R143, R148, R151; 08 R223; 06 R185). -/
def State.completeStart (s : State) (img : SlotCheck) (failedDe failedLe : List Nat) : State :=
  let n := s.boot.slot.toNat
  let s := s.modSlot n fun x => x.checked img 0
  let s := s.modBoot fun b =>
    { (b.push n 0) with attempt := 0, mirror := 0, starting := false, running := true, svnRun := img.svn, runVer := img.ver, runComps := img.comps }
  let s := (s.raise 0x780).islandsUp.herdsUp img
  let s := s.each [0, 1, 2, 3] fun s p => s.modPort p fun x => if x.perst then x else { x with crs := false }
  let s := s.each (failedDe.filter (· < 64)) State.failEngine
  let s : State := s.each (failedLe.filter (· < 32)) State.replaceLe
  let s : State := { s with acts := s.acts.map fun r => (r.1, r.2.restore (s.bay (bayOf r.1)).link.atiLimit) }
  let low (d : Nat) : Bool := s.boot.cause == 2 && decide ((s.dom d).busv.toNat < 10 * s.cfg.tripV)
  let s := s.each ((List.range 4).filter low) fun s d => (s.modDom d fun x => { x with domfault := true }).raise (0x740 + 8 * d + 3)
  let s := s.each s.sans State.resumeSan
  let s := s.each (s.fmts.filter fun o => o.st == 1 || o.st == 2) State.resumeFormat
  (s.each ((List.range 72).filter fun b => (s.bay b).link.present) State.bringUp).refreshNs

/-- START_COMPLETE: within 30 s, with an image that passes every check; `failedDe` and `failedLe` are the engines that failed their start tests (16
R415, R416). -/
def execStartComplete (img : FlashImage) (failedDe failedLe : List Nat) (s : State) : Host.Outcome State Fault Refusal :=
  let img := s.readImage s.boot.slot.toNat img
  .next <| if s.boot.starting && !s.glb.coldRst && decide (s.now ≤ s.boot.startAt + 30000000000) && (s.imageCause s.boot.slot.toNat img).isNone then
      s.completeStart img failedDe failedLe
    else s

/-- START_TIMEOUT: start complete not reached within 30 s of the start (16 R415). -/
def execStartTimeout (s : State) : Host.Outcome State Fault Refusal :=
  .next <| if s.boot.starting && !s.glb.coldRst && decide (s.boot.startAt + 30000000000 ≤ s.now) then s.failStart 6 else s

/-- START_IMAGE_INVALID: the chosen slot's image is invalid or cannot be read (16 R412, R415). -/
def execStartImageInvalid (img : FlashImage) (s : State) : Host.Outcome State Fault Refusal :=
  .next <| if !s.boot.starting || s.glb.coldRst then s
    else match s.imageCause s.boot.slot.toNat (s.readImage s.boot.slot.toNat img) with
      | some c => s.failStart c
      | none => s

/-! ### Watchdogs (16 R415, R418) -/

/-- MARKHOR_WATCHDOG: before start complete the start fails; in service the core restarts alone, and a second one within 1 s resets the device
(16 R415, R418). -/
def execMarkhorWatchdog (s : State) : Host.Outcome State Fault Refusal :=
  .next <| if s.glb.coldRst || s.boot.trailhead then s
    else if s.boot.starting then s.failStart 7
    else if s.boot.running then s.restartCore else s

/-- CHAMOIS_WATCHDOG (16 R418). -/
def execChamoisWatchdog (h : Fin 18) (s : State) : Host.Outcome State Fault Refusal :=
  .next <| if s.boot.running && !s.boot.trailhead && (s.herd h.val).running then s.restartHerd h.val else s

/-- HERD_FIRMWARE_RESTART_END: the herd runs again, and the arrivals held on its 8 actuators are tested, their deadlines counted from arrival (16
R418). -/
def execHerdFirmwareRestartEnd (h : Fin 18) (s : State) : Host.Outcome State Fault Refusal :=
  .next <| if (s.herd h.val).restart.isNone then s
    else
      let s := s.modHerd h.val fun x => { x with running := true, restart := none }
      (s.each ((List.range 8).map (8 * h.val + ·)) fun s a => s.modAdm a fun x => { x with restartHold := false }).retestAll

/-! ### Device-level resets (16 R419, R434, Table 16.10) -/

/-- Serve DEVICE_RESET with its ACTION: accepted, the response is posted and the reset follows 10 ms later; in Trailhead mode action 1 clears the
counter (16 R420, R434). -/
def State.serveReset (s : State) (r : Requester) (action : Nat) : State :=
  s.serve r 0x0E50 (some action) fun p =>
    let k := mbxOf r
    if !s.fromSteward r then s.respond k (reasonOnly 2 0)
    else if !reservedZero p [(0, 1)] then s.respond k (reasonOnly 1 0)
    else
      let s := (s.respond k (reasonOnly 0 0)).askReset (s.now + 10000000) action
      if s.boot.trailhead && action == 1 then s.modBoot fun b => { b with attempt := 0, mirror := 0 } else s

/-- DEVICE_RESET, ACTION 1 (16 R434). -/
def execDeviceReset (r : Requester) (s : State) : Host.Outcome State Fault Refusal := .next (s.serveReset r 1)

/-- TRAILHEAD_RESET: DEVICE_RESET, ACTION 2 (16 R420, R434). -/
def execTrailheadReset (r : Requester) (s : State) : Host.Outcome State Fault Refusal := .next (s.serveReset r 2)

/-- Code of the cause that ended the run, by what asked for the reset: 3 the steward, 4 the in-service watchdog, 2 a power loss (16 Table 16.14; 05
R142). -/
def resetCause (action : Nat) : Nat := if action = 3 then 4 else if action = 4 then 2 else 3

/-- DEVICE_LEVEL_RESET: one asked for falls due: staged data land on each loaded actuator, `landed` of them with a closing record, which a
power-loss flush has done already; every island but the always-on one is reset, and a start or Trailhead mode begins (16 R419, R420; 05 R142).
-/
def execDeviceLevelReset (landed : Tab (Option Nat)) (s : State) : Host.Outcome State Fault Refusal :=
  .next <| match s.boot.resetReq with
    | none => s
    | some (at', action) =>
      if s.now < at' ∨ s.glb.coldRst then s
      else
        let land (s : State) (a : Nat) : State := (s.writeDir a).landStaged a (landed.get (fun _ => none) a)
        let s := if action = 4 then s else s.each ((List.range 144).filter s.loaded) land
        let cause := resetCause action
        let s := (s.wipe false).halfHeads.modBoot fun b => { (b.endRun cause) with lossMark := b.lossMark && action != 4 }
        if action = 2 then s.enterTrailhead 0x0B else s.beginStart cause

end Sys2Proof.Machine
end

