-- ==== Sys2Proof/Machine/Firmware.lean ====
section
/-! DEFINITION. Firmware slots and live activation (16 R411 to R413, R422 to R424, R434; 07 R192, R193; 02 R55). -/
namespace Sys2Proof.Machine

open Sys2Proof

/-! ### FW_CTRL (16 R434, Table 16.10) -/

/-- Is a slot operation or an activation under way (16 R424)? -/
def State.fwBusy (s : State) : Bool := s.boot.act.isSome || s.boot.fwState == 1 || s.boot.fwState == 2 || s.boot.fwState == 3

/-- Serve FW_CTRL action `act`: the steward's alone but for action 4, some not in Trailhead mode, then the fields, then what the action does and
its REASON (16 R420, R434). -/
def State.serveFw (s : State) (r : Requester) (act : Nat) (ok : List Byte → Bool) (go : State → List Byte → State × Nat) : State :=
  s.serve r 0x0E10 (some act) fun p =>
    let k := mbxOf r
    let n := if byteAt p 1 ≤ 2 then byteAt p 1 else 3
    if act ≠ 4 && !s.fromSteward r then s.fwReply k 2 n
    else if s.boot.trailhead && (act == 3 || act == 5 || act == 8) then s.fwReply k 9 n
    else if !ok p then s.fwReply k 1 n
    else
      let t := go s p
      t.1.fwReply k t.2 n

/-- Fields of an action that names a slot. -/
def slotFields (p : List Byte) : Bool := reservedZero p [(0, 2)] && decide (byteAt p 1 ≤ 2)

/-- Fields of an action without operands. -/
def noFields (p : List Byte) : Bool := reservedZero p [(0, 1)]

/-- Is a slot the Golden one or the one that holds the running image? -/
def State.slotFixed (s : State) (n : Nat) : Bool := n == 0 || s.boot.slot.toNat == n

/-- Fields of FW_CTRL action 1. -/
def writeFields (p : List Byte) : Bool :=
  let off := fieldAt p 8 4
  let len := fieldAt p 12 4
  reservedZero p [(0, 2), (8, 8), (16, len)] && decide (byteAt p 1 ≤ 2) && off % 16 == 0 && len % 16 == 0 && decide (16 ≤ len ∧ len ≤ 4080)
    && decide (off + len ≤ 2 ^ 24)

/-- FW_WRITE: bytes written into a slot, which is no longer verified (16 R434). -/
def execFwWrite (r : Requester) (s : State) : Host.Outcome State Fault Refusal :=
  .next <| s.serveFw r 1 writeFields fun s p =>
    let n := byteAt p 1
    if s.slotFixed n then (s, 3)
    else if s.fwBusy then (s, 7)
    else
      let bs := (p.drop 16).take (fieldAt p 12 4) ++ List.replicate (16 + fieldAt p 12 4 - p.length) 0
      (s.modSlot n fun x =>
        { x with verified := false, chk := 8, bytes := bs.zipIdx.foldl (fun t (b, i) => Tab.put t (fieldAt p 8 4 + i) b) x.bytes }, 0)

/-- FW_VERIFY: a slot's check starts (16 R412, R434). -/
def execFwVerify (r : Requester) (s : State) : Host.Outcome State Fault Refusal :=
  .next <| s.serveFw r 2 slotFields fun s p =>
    let n := byteAt p 1
    if n = 0 then (s, 3)
    else if s.fwBusy then (s, 7)
    else (s.modBoot fun b => { b with fwState := 3, fwSlot := n }, 0)

/-- FW_ERASE: a slot's erase starts; it is no longer verified (16 R434). -/
def execFwErase (r : Requester) (s : State) : Host.Outcome State Fault Refusal :=
  .next <| s.serveFw r 7 slotFields fun s p =>
    let n := byteAt p 1
    if s.slotFixed n then (s, 3)
    else if s.fwBusy then (s, 7)
    else ((s.modSlot n fun x => { x with verified := false, chk := 8 }).modBoot fun b => { b with fwState := 1, fwSlot := n }, 0)

/-- FW_STATUS (16 R434). -/
def execFwStatus (r : Requester) (s : State) : Host.Outcome State Fault Refusal := .next (s.serveFw r 4 noFields fun s _ => (s, 0))

/-- FW_RAISE_SVN: the minimum SVN rises to that of the running image, within its 64 fuse bits (16 R413, R434). -/
def execFwRaiseSvn (r : Requester) (s : State) : Host.Outcome State Fault Refusal :=
  .next <| s.serveFw r 5 noFields fun s _ =>
    ((s.modBoot fun b => { b with svnMin := BitVec.ofNat 7 (max b.svnMin.toNat (min 64 b.svnRun.toNat)) }).raise 0x787, 0)

/-- REASON with which the image of a slot cannot be used: what its check found, or now a raised minimum SVN or a disabled key slot (16 R412,
R413, Table 16.10). -/
def State.slotBar (s : State) (n : Nat) : Nat :=
  let x := s.slotOf n
  if !x.verified then x.chk.toNat
  else if !(s.keySlotOk n x.keyslot) then 6
  else if x.svn.toNat < s.boot.svnMin.toNat then 5
  else 0

/-- The preferred slot takes a value; event 0x787 latches where it changes (16 Table 16.17). -/
def State.prefer (s : State) (n : Nat) : State :=
  let t := s.modBoot fun b => { b with preferred := BitVec.ofNat 2 n }
  if BitVec.ofNat 2 n = s.boot.preferred then t else t.raise 0x787

/-- FW_SET_PREFERRED: a verified slot becomes the preferred one (16 R434). -/
def execFwSetPreferred (r : Requester) (s : State) : Host.Outcome State Fault Refusal :=
  .next <| s.serveFw r 6 slotFields fun s p =>
    let n := byteAt p 1
    if n = 0 then (s, 3)
    else if s.fwBusy then (s, 7)
    else if s.slotBar n ≠ 0 then (s, s.slotBar n)
    else (s.prefer n, 0)

/-- SLOT_ERASE_END (16 R434). -/
def execSlotEraseEnd (s : State) : Host.Outcome State Fault Refusal :=
  .next <| if s.boot.fwState ≠ 1 then s
    else ((s.modSlot s.boot.fwSlot fun _ => { erased := true }).modBoot fun b => { b with fwState := 0, fwSlot := 0 }).raise 0x782

/-- SLOT_VERIFY_END: the outcome of the check; in Trailhead mode a pass clears the attempt counter (16 R412, R420, R434). -/
def execSlotVerifyEnd (img : FlashImage) (s : State) : Host.Outcome State Fault Refusal :=
  .next <| if s.boot.fwState ≠ 3 then s
    else
      let n := s.boot.fwSlot
      let img := s.readImage n img
      let reason := s.imageReason n img
      let s := (s.modSlot n fun x => x.checked img reason).modBoot fun b => { b with fwState := 0, fwSlot := 0 }
      let s := s.raise 0x782
      if s.boot.trailhead && reason == 0 then s.modBoot fun b => { b with attempt := 0, mirror := 0 } else s

/-! ### Live activation (16 R422, R423, Table 16.7) -/

/-- Units of an activation: 0 to 6 Markhor cores 1 to 7, 7 core 0 in its handover hold, 8 + h herd h, 26 the loops, 27 its end. Which ones it
has (16 Table 16.7). -/
def Act16.has (x : Act16) (u : Nat) : Bool :=
  if u ≤ 7 then x.todo.contains 1 else if u < 26 then x.todo.contains 2 || x.todo.contains 3 else if u = 26 then x.todo.contains 4 else true

/-- The actuators a unit's hold lies on (16 Table 16.7). -/
def holdActs (u : Nat) : List Nat :=
  if u = 7 then List.range 144 else if 8 ≤ u ∧ u < 26 then (List.range 8).map (8 * (u - 8) + ·) else []

/-- Does a unit still to come hold actuator `a`? -/
def Act16.holdsLater (x : Act16) (u a : Nat) : Bool :=
  if x.rolling then x.switched.any fun v => (holdActs v).contains a
  else (List.range 28).any fun v => decide (u < v) && x.has v && (holdActs v).contains a

/-- The announced pause of an activation in ns. -/
def State.pauseNs (s : State) : Nat := s.boot.fwPause.toNat * 1000000

/-- Put the announced pause into the plan of every actuator that a hold to come will hold, and take it out of the others (02 R55). -/
def State.placeHolds (s : State) (x : Act16) (u : Nat) : State :=
  s.each (List.range 144) fun s a => s.modAdm a fun d => { d with holdNs := if x.holdsLater u a then s.pauseNs else 0 }

/-- A hold ends: arrivals held are tested with their deadlines counted from arrival, and formatters resume (02 Table 2.5; 07 R193). -/
def State.endHold (s : State) (as : List Nat) : State :=
  let s := s.each as fun s a => (s.modAdm a fun d => { d with hold := false }).modFmt a fun f => { f with hold := false }
  let s := s.each ((as.map herdOf).eraseDups) fun s h => s.modHerd h fun x => { x with mcState := 0 }
  (s.each as State.replan).retestAll.dispatchAll as

/-- An activation is over: no pause stands in any plan (16 R422, R423). -/
def State.actOver (s : State) (st comp : Nat) : State :=
  let s := s.each (List.range 144) fun s a => s.modAdm a fun d => { d with holdNs := 0 }
  s.modBoot fun b => { b with act := none, fwState := BitVec.ofNat 4 st, fwComp := BitVec.ofNat 4 comp }

/-- The activation is done: its slot is the preferred one and holds the running image (16 R422 step 5). -/
def State.actDone (s : State) (x : Act16) : State :=
  let c := s.slotOf x.slot
  let s := ((s.actOver 7 0).prefer x.slot).modBoot fun b =>
    { b with slot := BitVec.ofNat 2 x.slot, runVer := c.ver, svnRun := c.svn,
             runComps := x.todo.foldl (fun t k => Tab.put t k (c.comps.get (fun _ => 0) k)) b.runComps }
  (s.raiseFns s.enabledFns 11).raise 0x784

/-- The rollback goes on with the newest unit still to return, or is over, and with it the announced pause (16 R423; 15 Table 15.9, bit 11). -/
def State.rollNext (s : State) (x : Act16) : State :=
  match x.switched.dropWhile (· == 26) with
  | [] => ((s.actOver 8 x.fail).raiseFns s.enabledFns 11).raise 0x785
  | u :: t =>
    let x := { x with rolling := true, hold := false, unit := u, switched := u :: t, switchAt := s.now }
    (s.modBoot fun b => { b with act := some x, fwState := 6, fwComp := BitVec.ofNat 4 x.fail }).placeHolds x u

/-- An activation fails with a component TYPE, or 0 for a cancel: what has switched returns in reverse order (16 R423). -/
def State.actFails (s : State) (x : Act16) (type : Nat) : State :=
  let s := if x.hold then s.endHold (holdActs x.unit) else s
  s.rollNext { x with rolling := true, hold := false, fail := type }

/-- The activation goes on at the first unit it has from `u` on. Loops switch at their next wedge boundary, unless an engine refuses a program (08
R222; 16 R422 steps 4 and 5). -/
def State.goUnit (s : State) (x : Act16) (u : Nat) : State :=
  let v := ((List.range 28).find? fun v => decide (u ≤ v) && x.has v).getD 27
  if v = 27 then s.actDone x
  else if v = 26 then (if (s.slotOf x.slot).refused then s.actFails { x with hold := false } 4 else s.actDone x)
  else
    let x := { x with unit := v, core := if v < 7 then v + 1 else 0, hold := false, switchAt := s.now }
    (s.modBoot fun b =>
      { b with act := some x, fwState := if v < 7 then b.fwState else 4, fwHerd := if 8 ≤ v then BitVec.ofNat 5 (v - 8) else b.fwHerd }).placeHolds x (v - 1)

/-- The present unit has switched, or returned: on to the next. -/
def State.unitDone (s : State) (x : Act16) : State :=
  let s := if x.hold then s.endHold (holdActs x.unit) else s
  let x := { x with hold := false }
  if x.rolling then s.rollNext { x with switched := x.switched.drop 1 }
  else s.goUnit { x with switched := x.unit :: x.switched } (x.unit + 1)

/-- The slot an activation takes: the verified one of A and B that does not run; of two, the preferred one (16 R422). -/
def State.actSlot (s : State) : Nat :=
  let c := [1, 2].filter fun n => s.boot.slot.toNat != n
  match c.filter fun n => (s.slotOf n).verified with
  | [] => c.headD 1
  | [n] => n
  | _ => s.boot.preferred.toNat

/-- FW_ACTIVATE: the pause is announced and enters the plans, and the first unit follows (16 R422, R424; 02 R55). -/
def execFwActivate (r : Requester) (s : State) : Host.Outcome State Fault Refusal :=
  let ok (p : List Byte) : Bool := reservedZero p [(0, 1), (2, 2)] && (fieldAt p 2 2 == 0 || decide (20 ≤ fieldAt p 2 2 ∧ fieldAt p 2 2 ≤ 200))
  .next <| s.serveFw r 3 ok fun s p =>
    let n := s.actSlot
    if s.fwBusy || !s.cfg.left.isEmpty then (s, 7)
    else if s.slotBar n ≠ 0 then (s, s.slotBar n)
    else
      let c := s.slotOf n
      let new := c.comps.filter fun t => decide (1 ≤ t.1 ∧ t.1 ≤ 4) && s.boot.runComps.find t.1 != some t.2
      let pause := if fieldAt p 2 2 = 0 then 50 else fieldAt p 2 2
      let s := s.modBoot fun b => { b with fwPause := BitVec.ofNat 8 pause, fwState := 4, fwComp := 0 }
      let s := (s.raiseFns s.enabledFns 11).raise 0x783
      (s.goUnit { slot := n, todo := new.map (·.1) } 0, 0)

/-- FW_CANCEL_ACTIVATION: an activation that is not already rolling back fails with COMP 0 (16 R423). -/
def execFwCancelActivation (r : Requester) (s : State) : Host.Outcome State Fault Refusal :=
  .next <| s.serveFw r 8 noFields fun s _ =>
    match s.boot.act with
    | some x => (if x.rolling then s else s.actFails x 0, 0)
    | none => (s, 0)

/-- Does the announced pause at the front of the plan of actuator `a` leave it slack-safe (02 R55)? -/
def State.holdFits (s : State) (a : Nat) : Bool :=
  let h : PlanOp := { kind := .hold, pre := s.pauseNs, slot := false }
  slackSafe (s.urgent a) (s.plan a) (s.project a (h :: (s.act a).adm.queue))

/-- The component TYPE a unit switches. -/
def Act16.comp (x : Act16) (u : Nat) : Nat := if u ≤ 7 then 1 else if x.todo.contains 2 then 2 else 3

/-- ACTIVATION_HOLD_START: the pause fits every plan the unit affects; arrivals wait from now on, and a herd's formatters start no new routine when
its microcode changes (02 R55, Table 2.5; 07 R193; 16 R422). -/
def execActivationHoldStart (s : State) : Host.Outcome State Fault Refusal :=
  .next <| match s.boot.act with
  | none => s
  | some x =>
    let as := holdActs x.unit
    if x.hold || as.isEmpty || !(as.all s.holdFits) then s
    else
      let mc := 8 ≤ x.unit && x.todo.contains 3
      let s := s.each as fun s a =>
        let s := s.modAdm a fun d => { d with hold := true, holdEnd := s.now + s.pauseNs, holdNs := 0 }
        if mc then s.modFmt a fun f => { f with hold := true } else s
      let s := if mc then s.modHerd (x.unit - 8) fun h => { h with mcState := 1 } else s
      let s := s.each as State.replan
      let comp := BitVec.ofNat 4 (if x.rolling then x.fail else x.comp x.unit)
      let y : Act16 := { x with hold := true, holdAt := s.now, switchAt := s.now }
      (s.modBoot fun b => { b with act := some y, fwState := if x.rolling then 6 else 5, fwComp := comp }).raise 0x783

/-- MARKHOR_CORE_SWITCH: the core in turn is idle and switches; core 0, in the handover hold, ends it (16 R422 step 2, Table 16.7). -/
def execMarkhorCoreSwitch (s : State) : Host.Outcome State Fault Refusal :=
  .next <| match s.boot.act with
  | none => s
  | some x =>
    if 7 < x.unit ∨ (x.unit = 7 ∧ !x.hold) then s
    else
      let s := if x.rolling then s else s.modBoot fun b => { b with fwState := 5, fwComp := 1 }
      s.unitDone x

/-- CORE_SWITCH_TIMEOUT: a Markhor or Chamois core does not run within 1 s of its switch (16 R423). -/
def execCoreSwitchTimeout (s : State) : Host.Outcome State Fault Refusal :=
  .next <| match s.boot.act with
  | none => s
  | some x =>
    let core := decide (x.unit < 7) || (x.hold && (x.unit == 7 || x.todo.contains 2))
    if x.rolling || !core || decide (s.now < x.switchAt + 1000000000) then s
    else s.actFails x (x.comp x.unit)

/-- The copy of the new image takes the place of a herd's dispatch table and detour store; the old one is kept (07 R192; 16 Table 16.7). -/
def Herd.load (h : Herd) (x : Slot) : Herd :=
  { h with imgVer := (x.comps.get (fun _ => 0) 3).setWidth 16, detour := x.detour, table := x.table, store := x.store,
           prevVer := h.imgVer, prevDetour := h.detour, prevTable := h.table, prevStore := h.store }

/-- The previous copy of a herd's dispatch table and detour store comes back (07 R192; 16 R423). -/
def Herd.back (h : Herd) : Herd :=
  { h with imgVer := h.prevVer, detour := h.prevDetour, table := h.prevTable, store := h.prevStore }

/-- FORMATTER_IDLE: every formatter of the held herd is idle; the image is written and its digest checked, and the herd's Chamois image switches
inside the same hold (07 R192, R193; 16 R422 step 3, R423). -/
def execFormatterIdle (h : Fin 18) (digestOk : Bool) (s : State) : Host.Outcome State Fault Refusal :=
  .next <| match s.boot.act with
  | none => s
  | some x =>
    if !x.hold || x.unit != 8 + h.val || (holdActs x.unit).any (fun a => (s.act a).fmt.running.isSome) then s
    else
      let mc := x.todo.contains 3
      if x.rolling then (if mc then s.modHerd h.val Herd.back else s).unitDone x
      else if mc && !digestOk then (s.raise 0x785).actFails x 3
      else (if mc then s.modHerd h.val fun y => y.load (s.slotOf x.slot) else s).unitDone x

end Sys2Proof.Machine
end

