-- ==== Sys2Proof/Machine/Loss.lean ====
section
/-! DEFINITION. Power loss and the hold-up flush (05 R141, R142; 18 R451). -/
namespace Sys2Proof.Machine

open Sys2Proof

/-- A running read ends at its next sector boundary, a running write routine at its waymark (05 Table 5.6). -/
def State.endRoutine (s : State) (a : Nat) : State := s.modFmt a fun f => { f with running := f.running.map fun q => { q with endAt := true } }

/-- The hold-up flush of an actuator begins: its directory is written and the sectors it names are marked (05 R141, Table 5.6). -/
def State.beginFlush (s : State) (a : Nat) : State :=
  let os := (s.flushList a).map (·.order)
  (s.writeDir a).mapW fun w => if os.contains w.order then { w with flush := true } else w

/-- POWER_LOSS_DECLARED: three or more buses below VTRIP for 10 µs. Fetching, posting, grazing and destage stop; each loaded actuator begins
its flush; with nothing to flush, or TMAX 0, the device-level reset is due (05 R141, R142; 02 R57; 18 R451). -/
def execPowerLossDeclared (s : State) : Host.Outcome State Fault Refusal :=
  .next <| if s.lowDomains.length < 3 || s.boot.lossAt.isSome || s.glb.coldRst then s
    else
      let s := (s.modBoot fun b => { b with postStop := true, lossAt := some s.now, lossMark := true }).raise 0x762
      let s := s.each (List.range 144) State.endRoutine
      let as := (List.range 144).filter s.loaded
      if s.cfg.tmax = 0 then s.askReset (s.now + 10000000) 4
      else if as.isEmpty then s.askReset s.now 4
      else (s.each as State.beginFlush).modBoot fun b => { b with bayFlush := (as.map bayOf).eraseDups }

/-- Has the flush of bay `b` ended: at TMAX after the declaration, with its bus below VSTOP, or with everything landed (05 R141)? -/
def State.flushOver (s : State) (b : Nat) (landedA landedB : Option Nat) : Bool :=
  let late := s.boot.lossAt.any fun t => decide (t + s.cfg.tmax.toNat * 1000000 ≤ s.now)
  let all (a : Nat) (l : Option Nat) : Bool := !s.loaded a || l.any fun n => decide ((s.flushList a).length ≤ n)
  late || decide ((s.dom (domOf b)).busv.toNat < 10 * s.cfg.stopV) || (all (2 * b) landedA && all (2 * b + 1) landedB)

/-- HOLDUP_FLUSH_END: what each loaded actuator of the bay has landed, with its closing record, or none without one; then it retracts. After the
last bay the device-level reset is due (05 R141, R142, Table 5.6; 07 R198). -/
def execHoldupFlushEnd (b : BayId) (landedA landedB : Option Nat) (s : State) : Host.Outcome State Fault Refusal :=
  .next <| if !s.boot.bayFlush.contains b.val || !(s.flushOver b.val landedA landedB) then s
    else
      let side (s : State) (a : Nat) (l : Option Nat) : State :=
        if s.loaded a then (s.landStaged a l).retract a 3 else s
      (side (side s (2 * b.val) landedA) (2 * b.val + 1) landedB).endBayFlush b.val

end Sys2Proof.Machine
end

