-- ==== Sys2Proof/Machine/CfgSpace.lean ====
section
/-! DEFINITION. The configuration space of a function: identity, base address registers, capabilities and their controls (04 R100 to R108,
R113). The places of the bits are PCIe's (PRESUMED). -/
namespace Sys2Proof.Machine

open Sys2Proof

/-- The link whose Link Control function `f` has: a PF's, or half 1's where it is that half's function 0 (04 R100, R113). -/
def State.ownLink (s : State) (f : Nat) : Option Bool :=
  if isPf f then some false else if s.bif (portOf f) && f % 64 == 32 then some true else none

/-- Has function `f` an SR-IOV capability: a PF, or VF32 as function 0 of half 1, but not P0.PF in Trailhead mode (04 R100, R106)? -/
def State.hasSriov (s : State) (f : Nat) : Bool := (s.ownLink f).isSome && !(s.boot.trailhead && f == 0)

/-- TotalVFs of a function's SR-IOV capability (04 R100). -/
def State.totalVfs (s : State) (f : Nat) : Nat := if !s.hasSriov f then 0 else if s.bif (portOf f) then 31 else 63

/-- The capabilities of function `f` by PCIe identifier: PCI Express, Power Management, then the extended ones (04 Table 4.4). -/
def State.caps (s : State) (f : Nat) : List Nat :=
  let own := (s.ownLink f).isSome
  [0x10, 0x01, 0x0001, 0x000E, 0x000D] ++ (if s.hasSriov f then [0x0010] else [])
    ++ (if own then [0x0003, 0x001E, 0x0018, 0x0019, 0x0026, 0x002A, 0x0027, 0x0025] else []) ++ (if isPf f then [0x000B] else [])

/-- What a base address register reads: its address above the size, and its type bits 64-bit and prefetchable (04 Table 4.3). -/
def barWord (v : BitVec 64) (size kind : Nat) (high : Bool) : Word :=
  if size = 0 then 0 else if high then v.extractLsb' 32 32 else BitVec.ofNat 32 (v.toNat % 2 ^ 32 / size * size + kind)

/-- Bytes of BAR0 of function `f`: 4 MiB of a PF, 64 KiB of VF32 as function 0 of half 1; a VF's own BARs read 0 (04 Table 4.3). -/
def State.bar0Size (s : State) (f : Nat) : Nat := if isPf f then 2 ^ 22 else if (s.ownLink f).isSome then 2 ^ 16 else 0

/-- Address bits of a base address register. -/
def barMask (v : BitVec 64) (size : Nat) : BitVec 64 := if size = 0 then 0 else BitVec.ofNat 64 (v.toNat / size * size)

/-- One half of a base address register written. -/
def barPut (old : BitVec 64) (high : Bool) (w : Word) (size : Nat) : BitVec 64 :=
  barMask (if high then w ++ old.extractLsb' 0 32 else old.extractLsb' 32 32 ++ w) size

/-- Base address register `i` of function `f` (04 R105, Table 4.3). -/
def State.barReg (s : State) (f i : Nat) : Word :=
  let b := (s.fn f).bars
  if i < 2 then barWord b.bar0 (s.bar0Size f) 4 (i == 1)
  else if i < 4 ∧ isPf f then barWord b.bar2 (s.bar2Size (portOf f)) 12 (i == 3) else 0

/-- Device ID of function `f` (04 R104). -/
def State.deviceId (s : State) (f : Nat) : Nat := if (s.ownLink f).isSome then 0x7214 else 0x7215

/-- What a register of configuration space reads (04 R100, R102, R104, R105, R107, R108, R113). -/
def State.cfgWord (s : State) (f : Nat) (sp : RegSpace) (i : Nat) : Word :=
  let x := s.fn f
  let link : Option Link := (s.ownLink f).map (s.half (portOf f) ·)
  match sp with
  | .bar0 => 0
  | .command => reg32 (at_ 1 (bit x.mse) + at_ 2 (bit x.bme) + at_ 8 (bit x.serr))
  | .deviceControl => reg32 (x.errEn.toNat + at_ 4 (bit x.relaxed) + at_ 5 x.mps.toNat)
  | .deviceControl2 => reg32 (x.cto.toNat + at_ 10 (bit x.ltrEn))
  | .linkControl => reg32 ((link.map (·.aspm.toNat)).getD 0)
  | .l1ssControl => (link.map (·.l1ss)).getD 0
  | .barReg => s.barReg f i
  | .vfBarReg => if s.hasSriov f ∧ i < 2 then barWord x.bars.vfBar (2 ^ 16) 4 (i == 1) else 0
  | .aerUncStatus => x.aer.unc
  | .aerUncMask => x.aer.uncMask
  | .aerUncSeverity => x.aer.sev
  | .aerCorStatus => x.aer.cor
  | .aerCorMask => x.aer.corMask
  | .aerHeader => if i < 4 then x.aer.hdr.extractLsb' (32 * i) 32 else 0
  | .acsControl => reg32 x.acs.toNat
  | .sriov =>
    if !s.hasSriov f then 0
    else if i = 0 then reg32 (s.totalVfs f) else if i = 1 then reg32 (1 + at_ 16 1) else if i = 2 then reg32 x.numVfs.toNat
    else if i = 3 then 0x7215 else 0
  | .ident =>
    if i = 0 then reg32 (Config.vendorId.toNat + at_ 16 (s.deviceId f)) else if i = 1 then reg32 (at_ 8 0x018000)
    else if i = 2 ∨ i = 3 then (if (s.ownLink f).isSome then Config.serialNumber.extractLsb' (32 * (i - 2)) 32 else 0)
    else if i = 4 then (if isPf f then reg32 (0x7214 + at_ 16 Config.silRev.toNat) else 0)
    else if i = 5 then reg32 (2 + at_ 5 1 + at_ 15 1 + at_ 28 1)
    else if i = 6 then reg32 (3 + at_ 11 (bit (s.ownLink f).isSome) + at_ 16 1 + at_ 17 1)
    else if i = 7 then reg32 (at_ 3 1 + (if x.d3 then 3 else 0)) else 0
  | .capability => reg32 ((s.caps f).getD i 0)

/-- A write of the Command register: Memory Space Enable, Bus Master Enable, SERR# Enable (04 R102, R107, R121). -/
def State.writeCommand (s : State) (f : Nat) (v : BitVec 64) : State :=
  let s := s.modFn f fun x => { x with mse := v.getLsbD 1, serr := v.getLsbD 8 }
  if v.getLsbD 2 then s.bmeOn f else s.bmeOff f

/-- A write of a register of configuration space; one that is not there, or read-only, ignores it (04 R100 to R108, R113). -/
def State.writeCfg (s : State) (f : Nat) (sp : RegSpace) (i : Nat) (v : BitVec 64) : State :=
  let w : Word := v.setWidth 32
  let aer (g : Aer → Aer) : State := s.modFn f fun x => { x with aer := g x.aer }
  let onLink (g : Link → Link) : State := match s.ownLink f with
    | some h => s.modHalf (portOf f) h g
    | none => s
  match sp with
  | .command => s.writeCommand f v
  | .deviceControl => s.modFn f fun x => { x with errEn := v.extractLsb' 0 4, relaxed := v.getLsbD 4, mps := v.extractLsb' 5 3 }
  | .deviceControl2 => s.modFn f fun x => { x with cto := v.extractLsb' 0 4, ltrEn := v.getLsbD 10 }
  | .linkControl => onLink fun l => { l with aspm := v.extractLsb' 0 2 }
  | .l1ssControl => onLink fun l => { l with l1ss := w }
  | .barReg =>
    if i < 2 then s.modFn f fun x => { x with bars := { x.bars with bar0 := barPut x.bars.bar0 (i == 1) w (s.bar0Size f) } }
    else if i < 4 ∧ isPf f then s.modFn f fun x => { x with bars := { x.bars with bar2 := barPut x.bars.bar2 (i == 3) w (s.bar2Size (portOf f)) } }
    else s
  | .vfBarReg =>
    if s.hasSriov f ∧ i < 2 then s.modFn f fun x => { x with bars := { x.bars with vfBar := barPut x.bars.vfBar (i == 1) w (2 ^ 16) } } else s
  | .aerUncStatus => aer fun a => { a with unc := a.unc &&& ~~~w }
  | .aerUncMask => aer fun a => { a with uncMask := w }
  | .aerUncSeverity => aer fun a => { a with sev := w }
  | .aerCorStatus => aer fun a => { a with cor := a.cor &&& ~~~w }
  | .aerCorMask => aer fun a => { a with corMask := w }
  | .acsControl => s.modFn f fun x => { x with acs := v.extractLsb' 0 16 }
  | .sriov => if s.hasSriov f ∧ i = 2 then s.modFn f fun x => { x with numVfs := v.extractLsb' 0 16 } else s
  | .bar0 => s
  | .aerHeader => s
  | .ident => s
  | .capability => s

end Sys2Proof.Machine
end

