-- ==== Sys2Proof/Machine/Security.lean ====
section
/-! DEFINITION. Bay quarantine messages, namespace keys and sanitize (16 R421, R428 to R434). -/
namespace Sys2Proof.Machine

open Sys2Proof

/-! ### QUARANTINE_CTRL (16 R421, R434, Table 16.10) -/

/-- The response of QUARANTINE_CTRL. -/
def State.quarReply (s : State) (k reason b : Nat) : State :=
  let l := (s.bay b).link
  s.respond k (leBytes 1 reason ++ leBytes 1 l.quar.toNat ++ leBytes 1 l.failed ++ leBytes 1 0 ++ (l.quarSerial ++ List.replicate 16 0).take 16)

/-- May the requester see a bay (15 Table 15.8)? -/
def State.showsBay (s : State) (r : Requester) (b : Nat) : Bool := s.seesAll r || (isPf (fnNumber r) && s.portHasBay (portOf (fnNumber r)) b)

/-- QUARANTINE_STATUS (16 R434). -/
def execQuarantineStatus (r : Requester) (s : State) : Host.Outcome State Fault Refusal :=
  .next <| s.serve r 0x0E20 (some 1) fun p =>
    let k := mbxOf r
    let b := byteAt p 1
    if !reservedZero p [(0, 2)] ∨ 71 < b then s.respond k (reasonOnly 1 19)
    else if !s.showsBay r b then s.respond k (reasonOnly 4 19)
    else s.quarReply k 0 b

/-- QUARANTINE_RELEASE: the record is cleared, and a bring-up starts with the count at 0 (16 R421). -/
def execQuarantineRelease (r : Requester) (s : State) : Host.Outcome State Fault Refusal :=
  .next <| s.serve r 0x0E20 (some 2) fun p =>
    let k := mbxOf r
    let b := byteAt p 1
    if !s.fromSteward r then s.respond k (reasonOnly 2 19)
    else if !reservedZero p [(0, 2)] ∨ 71 < b then s.respond k (reasonOnly 1 19)
    else if (s.bay b).link.quar = 0 then s.quarReply k 3 b
    else
      let s := s.modLink b fun l => { l with quar := 0, quarSerial := [], failed := 0 }
      let s := (s.setMedia b (if (s.bay b).link.present then 1 else 0)).bringUp b
      s.quarReply k 0 b

/-! ### Namespace keys (16 R428 to R430, Table 16.11) -/

/-- Is the key of a slot in use by a command admitted on its namespace (03 R71)? -/
def State.keyHeld (s : State) (k : Nat) : Bool :=
  s.ledger.any fun c => c.wasAdm && c.phase != .heldCpl && c.nsid != 0 && (s.ns c.nsid).keyslot == k

/-- Is the key of a slot loaded: an unload is done once no admitted command of the namespace remains (03 R71, 16 R430)? -/
def State.keyLoaded (s : State) (k : Nat) : Bool :=
  let x := s.key k
  x.loaded && !(x.unloading && !s.keyHeld k)

/-- KEY_STAT.LOADED (16 Table 16.16). -/
def State.keysLoaded (s : State) : Nat := (s.keys.filter fun r => s.keyLoaded r.1).length

/-- STATE of a key slot (16 Table 16.11). -/
def State.keyState (s : State) (k : Nat) : Nat :=
  let x := s.key k
  if s.keyLoaded k then (if x.unloading then 3 else 2) else if x.generated then 1 else 0

/-- The response of KEY_CTRL for key slot `x`. -/
def State.keyReply (s : State) (k reason x : Nat) (blob : List Byte) : State :=
  s.respond k (leBytes 1 reason ++ leBytes 1 (s.keyState x) ++ leBytes 2 0 ++ leBytes 4 (s.key x).gen.toNat ++ (blob ++ List.replicate 88 0).take 88)

/-- Bytes 0 to 15 of the blob of a key slot (16 Table 16.8). -/
def State.blobHead (s : State) (n k : Nat) : List Byte :=
  leBytes 2 n ++ leBytes 2 k ++ leBytes 4 (s.key k).gen.toNat ++ leBytes 8 Config.serialNumber.toNat

/-- REASON of a KEY_CTRL request before its action: its fields, then who may send it: the steward, and a PF whose port holds a grant for the
namespace (16 R430, Table 16.11). The status action is open to the sideband too (15 R392). -/
def State.keyRefused (s : State) (r : Requester) (p : List Byte) (used : List (Nat × Nat)) (status : Bool) : Nat :=
  let n := fieldAt p 2 2
  if !reservedZero p used ∨ n = 0 ∨ 4096 < n ∨ !(s.ns n).present then 1
  else if s.fromSteward r || (status && r == .sideband) || (isPf (fnNumber r) && (s.ns n).ports.contains (portOf (fnNumber r))) then 0
  else 2

/-- Nine free values give the 72 WRAPPED bytes of a new blob: what the generator draws is not stated (16 R429). -/
def State.wrapped (s : State) : List Byte × State :=
  ((List.range 9).flatMap fun i => leBytes 8 (Config.freeValue (s.fresh + i)).toNat, { s with fresh := s.fresh + 9 })

/-- KEY_GENERATE: a key is created, loaded and returned as a blob, once for each GEN (16 R429, R430). -/
def execKeyGenerate (r : Requester) (s : State) : Host.Outcome State Fault Refusal :=
  .next <| s.serve r 0x0E30 (some 1) fun p =>
    let n := fieldAt p 2 2
    let k := (s.ns n).keyslot
    let bad := s.keyRefused r p [(0, 1), (2, 2)] false
    let answers (reason : Nat) : State := s.keyReply (mbxOf r) reason k []
    if bad ≠ 0 then answers bad
    else if s.glb.jtagDbg then answers 5
    else if s.sanRunning n then answers 6
    else if (s.key k).generated then answers 3
    else
      let w := s.wrapped
      let s := w.2.modKey k fun x => { x with nsid := n, generated := true, loaded := true, unloading := false, blob := w.1 }
      (s.raise 0x7A1).keyReply (mbxOf r) 0 k (s.blobHead n k ++ w.1)

/-- KEY_LOAD: a key is loaded from a blob that names the record and unwraps; event 0x7A1 latches whether or not it is (16 R429, R430). -/
def execKeyLoad (r : Requester) (s : State) : Host.Outcome State Fault Refusal :=
  .next <| s.serve r 0x0E30 (some 2) fun p =>
    let n := fieldAt p 2 2
    let k := (s.ns n).keyslot
    let s := s.raise 0x7A1
    let bad := s.keyRefused r p [(0, 1), (2, 2), (8, 88)] false
    let answers (reason : Nat) : State := s.keyReply (mbxOf r) reason k []
    if bad ≠ 0 then answers bad
    else if s.glb.jtagDbg then answers 5
    else if s.sanRunning n then answers 6
    else if s.keyLoaded k then answers 7
    else
      let b := ((p.drop 8).take 88 ++ List.replicate 88 0).take 88
      if !(s.key k).generated || b != s.blobHead n k ++ (s.key k).blob then answers 4
      else (s.modKey k fun x => { x with loaded := true, unloading := false }).keyReply (mbxOf r) 0 k []

/-- KEY_UNLOAD: answered at acceptance; new arrivals on the namespace fail from now on (16 R430; 03 R71). -/
def execKeyUnload (r : Requester) (s : State) : Host.Outcome State Fault Refusal :=
  .next <| s.serve r 0x0E30 (some 3) fun p =>
    let n := fieldAt p 2 2
    let k := (s.ns n).keyslot
    let bad := s.keyRefused r p [(0, 1), (2, 2)] false
    if bad ≠ 0 then s.keyReply (mbxOf r) bad k []
    else if !s.keyLoaded k || (s.key k).unloading then s.keyReply (mbxOf r) 7 k []
    else (s.modKey k fun x => { x with unloading := true }).keyReply (mbxOf r) 0 k []

/-- KEY_STATUS (16 Table 16.11). -/
def execKeyStatus (r : Requester) (s : State) : Host.Outcome State Fault Refusal :=
  .next <| s.serve r 0x0E30 (some 4) fun p =>
    s.keyReply (mbxOf r) (s.keyRefused r p [(0, 1), (2, 2)] true) (s.ns (fieldAt p 2 2)).keyslot []

/-! ### Sanitize (16 R431 to R434, Tables 16.9, 16.11) -/

/-- The response of SANITIZE. -/
def State.sanReply (s : State) (k reason id : Nat) : State := s.respond k (reasonOnly reason 3 ++ leBytes 4 id)

/-- SAN_POLICY forbids a kind (16 R433). -/
def sanForbids (mode : BitVec 2) (kind : Nat) : Bool := if mode = 0 then false else if mode = 1 then kind == 1 else true

/-- A sanitize is accepted: journaled with its targets; commands of its scope not yet at their waymark end, formats in the scope are done, and keys
are unloaded (16 R431; 03 R88). -/
def State.enterSanitize (s : State) (kind : Nat) (ns : List Nat) : State :=
  let slotsOf : List Nat := ns.map fun n => (s.ns n).keyslot
  let op : SanOp := { id := s.opNext, kind := kind, nsids := ns, targets := slotsOf.map fun k => (k, (s.key k).gen + 1) }
  let go := s.ledger.filter fun c => ns.contains c.nsid && !c.waymark && c.phase != .heldCpl && !c.silent
  let s := { s with sans := s.sans ++ [op], opNext := s.opNext + 1 }
  let s := s.each ns fun s n => s.modNs n fun x => { x with sanitizing := true, formatting := false }
  let s := s.finishAll (go.map (·.id)) Sts.abortedBySanitize
  let beyond := s.fmts.filter fun o => o.nsFmt && ns.contains o.nsid && o.st != 3
  let s := s.each beyond fun s o =>
    (s.each (s.formatActs o) fun s a => s.modGraze a fun g => { g with pending := g.pending.filter fun x => !(x.order == 13 && x.ref == o.id) }).mapFmt
      fun x => if x.id = o.id then { x with st := 3 } else x
  let s := s.each slotsOf fun s k => s.modKey k fun x => { x with unloading := x.loaded }
  (s.raise 0x7A2).refreshNs

/-- Serve SANITIZE of a KIND (16 R431, R433, Table 16.11). -/
def State.serveSanitize (s : State) (r : Requester) (kind : Nat) : State :=
  s.serve r 0x0E40 none fun p =>
    let k := mbxOf r
    let n := fieldAt p 2 2
    let every := byteAt p 0 == 1
    let ns := if every then s.namespaces.map (·.1) else [n]
    if byteAt p 1 ≠ kind then s
    else if !s.fromSteward r then s.sanReply k 2 0
    else if !reservedZero p [(0, 4)] || 1 < byteAt p 0 || (if every then n != 0 else !(s.ns n).present) then s.sanReply k 1 0
    else if sanForbids s.boot.sanPolicy kind then s.sanReply k 3 0
    else if ns.any s.sanRunning then s.sanReply k 4 0
    else (s.enterSanitize kind ns).sanReply k 0 s.opNext

/-- SANITIZE, KIND 1 (16 R431). -/
def execSanitizeCryptoErase (r : Requester) (s : State) : Host.Outcome State Fault Refusal := .next (s.serveSanitize r 1)

/-- SANITIZE, KIND 2 (16 R431). -/
def execSanitizeOverwrite (r : Requester) (s : State) : Host.Outcome State Fault Refusal := .next (s.serveSanitize r 2)

/-- SANITIZE_WAIT_END: no ledger entry of the scope remains: CRYPTO runs (16 Table 16.9). -/
def execSanitizeWaitEnd (id : Nat) (s : State) : Host.Outcome State Fault Refusal :=
  .next <| match s.sans.find? fun o => o.id == id && o.st == 0 with
  | none => s
  | some o => if s.ledger.any fun c => o.nsids.contains c.nsid && !c.noEntry then s else s.runCrypto o

/-- May the requester see a sanitize operation (16 R434)? -/
def State.seesSan (s : State) (r : Requester) (o : SanOp) : Bool :=
  s.seesAll r || (isPf (fnNumber r) && o.nsids.any fun n => (s.ns n).ports.contains (portOf (fnNumber r)))

/-- SANITIZE_STATUS (16 Table 16.11). -/
def execSanitizeStatus (r : Requester) (s : State) : Host.Outcome State Fault Refusal :=
  .next <| s.serve r 0x0E41 none fun p =>
    let k := mbxOf r
    match s.sans.find? fun o => o.id == fieldAt p 0 4 && reservedZero p [(0, 4)] with
    | none => s.respond k (reasonOnly 1 11)
    | some o =>
      if !s.seesSan r o then s.respond k (reasonOnly 2 11)
      else s.respond k (leBytes 1 0 ++ leBytes 1 o.st ++ leBytes 1 o.kind ++ leBytes 1 0 ++ leBytes 4 ((o.units.map fun u => u.2.1).sum)
        ++ leBytes 4 ((o.units.map fun u => u.2.2).sum))

end Sys2Proof.Machine
end

