-- ==== Sys2Proof/Machine/Views.lean ====
section
/-! DEFINITION. What a read of each register of PF BAR0 and VF BAR0 returns (17, and the register tables of chapters 2 to 16). -/
namespace Sys2Proof.Machine

open Sys2Proof

/-- Registers that lie 4 bytes apart from offset `lo`, in order (17 R437). -/
def regs (off lo : Nat) (l : List Nat) : Option Nat := if lo ≤ off then l[(off - lo) / 4]? else none

/-- `n` registers 4 bytes apart from offset `lo`, by number (17 R437). -/
def run (off lo n : Nat) (g : Nat → Nat) : Option Nat := if lo ≤ off ∧ off < lo + 4 * n then some (g ((off - lo) / 4)) else none

/-- `n` fields of `w` bits in one register, the first lowest. -/
def pack (w n : Nat) (g : Nat → Nat) : Nat := ((List.range n).map fun i => at_ (w * i) (g i % 2 ^ w)).sum

/-- The view selectors of the PF of port `p` (17 R440). -/
def State.sel (s : State) (p : Nat) : PfSel := s.cfg.sels.get (fun _ => {}) p

/-- The state that the views of the actuator, bay and engine subsystems show: in Trailhead mode their reset values (17 R441). -/
def State.shown (s : State) : State := if s.boot.trailhead then State.reset else s

/-- What a view of `n` units shows of unit `k`: 0 past the last one. -/
def viewOf (n k : Nat) (v : Option Nat) : Option Nat := if k < n then v else v.map fun _ => 0

/-! ### GLB, LCK, epochs, the deadline contract and the ledger (Tables 17.2 to 17.5) -/

/-- CFG_EPOCH_STAT (15 Table 15.17). -/
def State.epochStat (s : State) : Nat := s.cfg.left.length + at_ 30 (bit s.cfg.flashPend) + at_ 31 (bit (!s.cfg.left.isEmpty))

/-- Class registers of an epoch: DEADLINE, MARGIN and CTRL of each class, a reserved word after them (02 Tables 2.8 to 2.10). -/
def EpochCfg.classWord (e : EpochCfg) (i : Nat) : Nat :=
  let c := e.cls (i / 4)
  match i % 4 with
  | 0 => c.deadline.toNat
  | 1 => c.margin.toNat
  | 2 => bit c.en + at_ 1 (bit c.relEn)
  | _ => 0

/-- CFG_ADMS_POLICY and CFG_ADMA_POLICY (02 Table 2.11). -/
def AdmPolicy.word (x : AdmPolicy) : Nat := x.urgRes.toNat + at_ 16 x.floorPct.toNat + at_ 24 x.grazeWgt.toNat

/-- CFG_WGTS[n] and CFG_WGTA[n] (02 Table 2.12). -/
def EpochCfg.weightWord (e : EpochCfg) (n : Nat) : Nat := pack 8 4 fun i => (e.wgts.get (fun _ => 0x10) (4 * n + i)).toNat

/-- CFG_LDGS_POLICY and CFG_LDGA_POLICY (03 Table 3.15). -/
def LdgPolicy.word (x : LdgPolicy) : Nat := x.floor.toNat + at_ 16 x.cap.toNat

/-- Is admission of new commands on an actuator held for an activation pause now (02 Table 2.14, R55)? -/
def State.holdNow (s : State) (a : Nat) : Bool := (s.act a).adm.hold && decide (s.now < (s.act a).adm.holdEnd)

/-- CFG_ADM_STAT of an actuator (02 Table 2.14). -/
def State.admStat (s : State) (a : Nat) : Nat :=
  let x := s.act a
  let ids := ((x.adm.queue.map (·.cmd)).filter (· != 0)).eraseDups
  at_ 8 (bit x.adm.slotLimit) + at_ 9 (bit (s.boot.running && s.offline a)) + at_ 10 (bit x.loop.limp) + at_ 11 (bit (s.holdNow a))
    + at_ 16 (s.ceil (bayOf a)) + at_ 18 x.adm.gaitPlan.toNat + at_ 20 (min 4095 ids.length)

/-- CFG_ADM_HEADROOM of an actuator in µs: the smallest of its DC1 to DC6 work, 0 when negative (02 Table 2.7). -/
def State.headroom (s : State) (a : Nat) : Nat :=
  let l := ((s.plan a).filter PlanOp.bounded).map fun o => (o.milestone - o.finish) / 1000
  match l with
  | [] => 0xFFFFFFFF
  | x :: t => t.foldl min x

/-- CFG_ADM_* of the view (02 Table 2.7). -/
def State.admView (s : State) (a off : Nat) : Option Nat :=
  let x := (s.act a).adm
  regs off 0x8604 [s.admStat a, s.headroom a, x.refuseDl.toNat, x.refusePwr.toNat, x.cutoff.toNat, (x.epoch.getD s.cfg.epochReq).toNat]

/-- GLB, LCK and CFG 0x8000 to 0x87FF (17 Tables 17.2 to 17.5). -/
def State.readHead (s : State) (p off : Nat) : Option Nat :=
  let c := s.cfg
  let a := (s.sel p).adm.toNat
  regs off 0x10 [s.stewardPort]
    <|> regs off 0x4000 [s.glb.lck.toNat, bit s.glb.diagEn + at_ 1 (bit s.glb.jtagDbg)]
    <|> regs off 0x8000 [c.epochReq.toNat, s.epochStat]
    <|> run off 0x8010 5 (fun n => pack 1 32 fun i => bit (decide (32 * n + i < 144) && !c.left.contains (32 * n + i)))
    <|> run off 0x8100 32 c.staged.classWord
    <|> run off 0x8180 32 c.applied.classWord
    <|> regs off 0x8200 [c.staged.adm.word, c.applied.adm.word]
    <|> run off 0x8400 64 c.staged.weightWord
    <|> run off 0x8500 64 c.applied.weightWord
    <|> regs off 0x8600 [a]
    <|> viewOf 144 a (s.shown.admView a off)
    <|> regs off 0x8700 [(s.ledger.filter (!·.noEntry)).length, s.ldg.hwm.toNat, s.ldg.full.toNat]
    <|> regs off 0x8710 [c.staged.ldg.word, c.applied.ldg.word]

/-! ### Media, read channel, decoder pool, formatter (Tables 17.6 to 17.8) -/

/-- CFG_MED_ACTSTAT, CFG_MED_LBFREE and CFG_MED_ATI_REFRESH (05 Tables 5.12 to 5.14): the first two show 0 on a bay that is ABSENT. -/
def State.medView (s : State) (a off : Nat) : Option Nat :=
  let m := (s.act a).med
  let here := (s.bay (bayOf a)).link.media != 0
  let v (n : Nat) : Nat := if here then n else 0
  regs off 0x8804
    [v (min 0xFFFF m.atiHeld.length + at_ 18 (s.zonesOn a ZState.isOpen).length + at_ 24 (s.zonesOn a ZState.isActive).length), v m.segsFree,
     m.atiRefresh.toNat]

/-- CFG_FMT_STAT (05 Table 5.17). -/
def State.fmtStat (s : State) : Nat :=
  match s.fmts.find? (·.st != 3) with
  | some o => (if o.nsFmt then 1 else 2) + at_ 8 o.st + at_ 16 (o.id % 65536)
  | none => 0

/-- CFG_CFE_STAT (06 Table 6.10). -/
def Cfe.stat (c : Cfe) : Nat :=
  at_ 3 c.slots.length + at_ 7 c.retained.length + at_ 14 (bit c.retainFull) + at_ 15 (bit c.band) + at_ 16 c.single.toNat

/-- CFG_CFE_* of the view (06 Table 6.8). -/
def State.cfeView (s : State) (a off : Nat) : Option Nat :=
  let c := (s.act a).cfe
  regs off 0x8904 [c.stat, c.tgtVer.toNat + at_ 16 c.tapVer.toNat]
    <|> regs off 0x8910 [c.sm1.toNat, c.sm2only.toNat, c.false_.toNat, c.retry.toNat, c.fail.toNat, c.erase.toNat, c.noref.toNat, c.chkfail.toNat,
          c.rung2.toNat, c.rung3.toNat, c.unrec.toNat]

/-- CFG_DEC_STAT (06 Table 6.14). -/
def State.decStat (s : State) : Nat :=
  let n := s.enginesIn
  n + at_ 8 (n - 1) + at_ 16 (decodeSlots n) + at_ 24 (bit ((List.range 64).any fun e => (s.eng e).state == 3))

/-- Is decoder engine `e` retired (06 Table 6.15, R187)? -/
def State.decRetired (s : State) (e : Nat) : Bool := decide (1 ≤ (s.eng e).state ∧ (s.eng e).state ≤ 3)

/-- The decoder pool's registers (06 Table 6.8). -/
def State.decView (s : State) (off : Nat) : Option Nat :=
  let x := s.pool
  regs off 0x8A00 [s.decStat]
    <|> run off 0x8A08 2 (fun n => pack 1 32 fun i => bit (s.decRetired (32 * n + i)))
    <|> regs off 0x8A10 [x.cw.toNat, x.lent.toNat, x.preempt.toNat, x.miscorr.toNat, x.waitmax.toNat, at_ 8 x.chkLast.toNat + at_ 16 x.chkFails.toNat]
    <|> run off 0x8A40 8 (fun n => (x.hist.get (fun _ => 0) n).toNat)

/-- CFG_WRT_STAT (07 Table 7.9). -/
def State.wrtStat (s : State) (a : Nat) : Nat :=
  let f := (s.act a).fmt
  f.wsusp.toNat + at_ 21 (bit (s.bay (bayOf a)).link.sto) + at_ 22 (bit f.sqz) + at_ 23 (bit f.hold)
    + at_ 24 ((f.running.map fun r => r.req.opc.toNat).getD 0)

/-- CFG_WRT_* and CFG_ASST_* of the view (07 Table 7.7). -/
def State.wrtView (s : State) (a off : Nat) : Option Nat :=
  let f := (s.act a).fmt
  regs off 0x8B04 [s.wrtStat a, f.count.toNat + at_ 16 (f.seq.toNat % 65536)]
    <|> regs off 0x8B10 [f.inh0.toNat, f.inh1.toNat, f.inh2.toNat, f.inh3.toNat]
    <|> regs off 0x8B20 [f.abandon.toNat, f.resume.toNat, f.sqzCheck.toNat, f.sqzRewrite.toNat, f.linkErr.toNat]
    <|> regs off 0x8B40 [f.heldCode.toNat + at_ 16 f.calPend.toNat]
    <|> regs off 0x8B48 [f.fbFault.toNat]

/-- CFG 0x8800 to 0x8BFF (17 Tables 17.6 to 17.8). -/
def State.readMedia (s : State) (p off : Nat) : Option Nat :=
  let c := s.cfg
  let t := s.shown
  let x := s.sel p
  regs off 0x8800 [c.medSel.toNat]
    <|> viewOf 144 c.medSel.toNat (t.medView c.medSel.toNat off)
    <|> regs off 0x8810 [c.vstop.toNat + at_ 8 c.vtrip.toNat + at_ 20 c.tmax.toNat]
    <|> run off 0x8820 9 (fun n => pack 4 8 fun i => (t.bay (8 * n + i)).link.media.toNat)
    <|> regs off 0x8848 [s.fmtStat]
    <|> regs off 0x8900 [x.cfe.toNat]
    <|> viewOf 144 x.cfe.toNat (t.cfeView x.cfe.toNat off)
    <|> regs off 0x890C [c.smThresh.toNat]
    <|> t.decView off
    <|> regs off 0x8B00 [x.wrt.toNat]
    <|> viewOf 144 x.wrt.toNat (t.wrtView x.wrt.toNat off)
    <|> regs off 0x8B44 [at_ 8 c.asstGain.toNat + at_ 16 c.asstStep.toNat + at_ 24 c.asstLead.toNat]

/-! ### Servo, spindle, power and Causeway (Tables 17.9 to 17.11) -/

/-- CFG_SRV_STAT (08 Table 8.12). -/
def State.srvStat (s : State) (a : Nat) : Nat :=
  let l := s.loop a
  at_ 8 (min 3 (onesIn l.ovrWin)) + at_ 10 l.streak.toNat + at_ 13 l.retCause.toNat + at_ 16 (s.bay (bayOf a)).link.spnEngine.toNat
    + at_ 21 l.engine.toNat + at_ 26 (bit l.migPend) + at_ 27 (bit l.winh) + at_ 28 (bit l.limp) + at_ 29 l.mode.toNat

/-- CFG_SRV_* of the view (08 Table 8.10). -/
def State.srvView (s : State) (a off : Nat) : Option Nat :=
  let l := s.loop a
  regs off 0x8C04
    [s.srvStat a, l.posWedge.toNat + at_ 10 l.posHead.toNat + at_ 16 l.posPes.toNat, l.trackReg.toNat, l.rroVer.toNat + at_ 16 l.setVer.toNat,
     l.overrun.toNat, l.missing.toNat, l.invalid.toNat, l.retract.toNat, l.migrate.toNat, l.seek.toNat, l.seekLate.toNat, l.clamp.toNat, l.rroMiss.toNat]

/-- CFG_LE_STAT of a Loop Engine (08 Table 8.16). -/
def State.leStat (s : State) (n : Nat) : Nat :=
  s.leLoad n % 4096 + at_ 22 (s.limpOn n).length + at_ 24 (s.spinsOn n).length + at_ 26 (s.loopsOn n).length + at_ 29 (bit (s.le n).spare)
    + at_ 30 ((s.le n).state % 4)

/-- Is a Loop Engine retired, by a self-test, a hard fault or the steward (08 Tables 8.16, 8.17)? -/
def State.leRetired (s : State) (n : Nat) : Bool := (s.le n).state == 1 || (s.le n).state == 2

/-- CFG_SPN_STAT (09 Table 9.10). -/
def State.spnStat (s : State) (b : Nat) : Nat :=
  let x := (s.bay b).spin
  at_ 16 x.relock.toNat + at_ 18 (bit x.tokwait) + at_ 19 (bit x.token) + at_ 20 x.pstate.toNat + at_ 22 x.target.toNat + at_ 24 (s.ceil b)
    + at_ 26 x.gait.toNat + at_ 28 x.state.toNat

/-- CFG_SPN_* of the view (09 Table 9.9). -/
def State.spnView (s : State) (b off : Nat) : Option Nat :=
  let x := (s.bay b).spin
  regs off 0x8E04
    [s.spnStat b, at_ 8 x.pherr.toNat + at_ 16 x.rpm.toNat, x.obsloss.toNat, x.relockfail.toNat, x.brake.toNat, x.gaitchg.toNat, x.spinfail.toNat]

/-- CFG_PWR_DOM (09 Table 9.12). -/
def State.domWord (s : State) (d : Nat) : Nat :=
  let x := s.dom d
  at_ 10 (bit x.domfault) + at_ 11 (bit x.coast) + at_ 12 (bit x.regenOff) + at_ 13 (bit x.chop) + at_ 14 (s.tokAvail d % 8) + at_ 17 (s.tokensHeld d % 8)
    + at_ 20 x.busv.toNat

/-- CFG_PWRS_POLICY and CFG_PWRA_POLICY (09 Table 9.13). -/
def PwrPolicy.word (x : PwrPolicy) : Nat := x.tokens.toNat + at_ 8 x.assistPct.toNat + at_ 16 x.target.toNat
/-- CFG_PWRS_GAIT and CFG_PWRA_GAIT (09 Table 9.13). -/
def GaitPolicy.word (x : GaitPolicy) : Nat := x.minGait.toNat + at_ 8 x.dwell.toNat + at_ 16 x.utilLo.toNat + at_ 24 x.utilHi.toNat
/-- CFG_PWRS_TIMER and CFG_PWRA_TIMER (09 Table 9.13). -/
def TimerPolicy.word (x : TimerPolicy) : Nat := x.idleT.toNat + at_ 16 x.stbyT.toNat

/-- CFG_CWY_* of the view (10 Table 10.8). -/
def State.cwyView (s : State) (a off : Nat) : Option Nat :=
  let x := (s.act a).cwy
  regs off 0x8F04
    [x.rate.toNat + at_ 21 (bit x.emrg) + at_ 22 (bit x.spn) + at_ 23 (bit x.rdr) + at_ 24 (bit x.single) + at_ 25 (bit x.u1Ok) + at_ 26 (bit x.u0Ok)
       + at_ 27 (bit x.dOk) + at_ 28 x.state.toNat,
     x.ulat.toNat + at_ 16 x.dlat.toNat, x.uerr.toNat, x.derr.toNat, x.loss.toNat, x.train.toNat, x.spare.toNat]

/-- CFG 0x8C00 to 0x8FFF (17 Tables 17.9 to 17.11). -/
def State.readDrive (s : State) (p off : Nat) : Option Nat :=
  let c := s.cfg
  let t := s.shown
  let x := s.sel p
  regs off 0x8C00 [x.srv.toNat]
    <|> viewOf 144 x.srv.toNat (t.srvView x.srv.toNat off)
    <|> regs off 0x8C40 [c.winhMin.toNat + at_ 8 c.rdLim.toNat + at_ 16 c.wrOn.toNat + at_ 24 c.wrOff.toNat]
    <|> run off 0x8D00 32 t.leStat
    <|> regs off 0x8D80 [pack 1 32 fun i => bit (t.leRetired i)]
    <|> regs off 0x8E00 [x.spn.toNat]
    <|> viewOf 72 x.spn.toNat (t.spnView x.spn.toNat off)
    <|> regs off 0x8E20 [at_ 16 c.slewOvr.toNat + at_ 24 c.regenV.toNat]
    <|> run off 0x8E40 4 s.domWord
    <|> regs off 0x8E50 [at_ 15 (bit s.pwr.dflt) + at_ 16 s.pwr.capPct.toNat + at_ 24 s.pwr.duty.toNat, s.pwr.capW.toNat + at_ 16 s.pwr.projW.toNat]
    <|> regs off 0x8E60 [c.staged.pwr.word, c.applied.pwr.word, c.staged.gait.word, c.applied.gait.word, c.staged.timer.word, c.applied.timer.word]
    <|> regs off 0x8F00 [x.cwy.toNat]
    <|> viewOf 144 x.cwy.toNat (t.cwyView x.cwy.toNat off)
    <|> regs off 0x8F20 [c.errLimit.toNat]
    <|> run off 0x8F40 3 (fun n => pack 1 32 fun i => bit (decide (32 * n + i < 72) && (s.bay (32 * n + i)).link.present))

/-! ### Memory, cache, grazing and calibration (Tables 17.12, 17.13) -/

/-- CFG_MEM_STAT (11 Table 11.9). -/
def MemSt.stat (m : MemSt) : Nat := at_ 11 (bit m.remapFull) + at_ 12 (bit m.layDef) + at_ 13 m.remap.length

/-- CFG_MEM_AREA_BASE and CFG_MEM_AREA_SIZE, two words an area (11 Table 11.10). -/
def State.areaWord (s : State) (i : Nat) : Nat :=
  let n := i / 2
  let x := s.area n
  if i % 2 = 0 then x.base.toNat else x.size.toNat + at_ 29 (bit (cleanArea n)) + at_ 30 (bit (allocArea n)) + at_ 31 (bit (privArea n))

/-- CFG_LC_STAT (11 Table 11.11). -/
def CacheSt.stat (c : CacheSt) : Nat :=
  at_ 13 (bit (c.walking != 0)) + at_ 14 (bit c.cdisabled) + at_ 15 (bit c.disDone) + at_ 16 c.wgfail.toNat + at_ 24 c.wgon.toNat

/-- CFG_GRZ_STAT.PENDING of an actuator: the landing-band destage and the scrub pass are pending while they have work (12 Tables 12.1, 12.9). -/
def State.grazePending (s : State) (a : Nat) : Nat :=
  pack 1 12 fun i =>
    bit (((s.act a).graze.pending.any fun o => o.order == i + 1) || (i == 9 && (s.landDestage a).isSome) || (i == 10 && (s.scrubOp a).isSome))

/-- CFG_GRZ_* and CFG_CAL_ADMVER of the view (12 Table 12.8). -/
def State.grzView (s : State) (a off : Nat) : Option Nat :=
  let g := (s.act a).graze
  regs off 0x9404
    [g.unread.length % 8192 + at_ 18 (bit (g.waits s.now)) + at_ 19 (bit g.unrFull) + at_ 20 (s.grazePending a), g.passes.toNat + at_ 24 g.pct.toNat,
     g.scrubSect.toNat, g.marginal.toNat, g.rewrite.toNat, g.unreadCnt.toNat, g.gaitVer.toNat + at_ 16 g.seekVer.toNat]

/-- CFG 0x9000 to 0x94FF (17 Tables 17.12, 17.13). -/
def State.readMemory (s : State) (p off : Nat) : Option Nat :=
  let c := s.cfg
  let m := s.mem
  let l := s.cache
  let x := s.sel p
  let ch := x.chan.toNat
  regs off 0x9000
      [m.stat, at_ 16 c.sramMin.toNat + at_ 24 c.dramH.toNat, m.crcfix.toNat, m.poisoncnt.toNat, m.mergepsn.toNat, m.hardflt.toNat,
       m.plist.length + at_ 31 (bit m.plCoarse), m.scrubpass.toNat]
    <|> run off 0x9080 64 s.areaWord
    <|> regs off 0x9200
          [l.cleanLimit.toNat + at_ 23 (bit l.cdis) + at_ 24 l.wgdis.toNat, l.stat, l.victimDirty s.now + at_ 16 (l.victimLines s.now), ch]
    <|> viewOf 24 ch (regs off 0x9210 [(l.hits.get (fun _ => 0) ch).toNat, (l.misses.get (fun _ => 0) ch).toNat])
    <|> regs off 0x9218 [l.evwait.toNat, l.vdecline.toNat, l.crcfix.toNat]
    <|> regs off 0x9400 [x.grz.toNat]
    <|> viewOf 144 x.grz.toNat (s.shown.grzView x.grz.toNat off)
    <|> regs off 0x9420 [at_ 16 c.margIter.toNat + at_ 24 c.scrubD.toNat]
    <|> regs off 0x9480 [s.cal.trimVer.toNat + at_ 31 (bit s.cal.refFault), s.cal.uv10.toNat, s.cal.fallback.toNat]

/-! ### Events and function views (Table 17.14) -/

/-- Sources whose conditions are present, by number: levels, faults and held states that the event tables name (15 R401). -/
def State.liveNow (s : State) (src : Nat) : Bool :=
  if src < 0x480 then src % 8 == 5 && (s.loop (src / 8)).limp
  else if src < 0x5E0 then false
  else if src < 0x628 then
    let b := src - 0x5E0
    (s.bayScope b).level != 0 || (s.bayScope b).ainh || s.thermalCeil b != 3
  else if src < 0x688 then (s.thm.sens 0 (src - 0x628)).level != 0
  else if src = 0x688 then s.thm.dieScope.level != 0 || (List.range 72).any fun b => s.thm.dieCeil.get (fun _ => 3) b != 3
  else if src = 0x689 then s.glb.thermTrip
  else if src = 0x68A then s.thm.bay.any (·.2.subst)
  else if src = 0x68B then s.thm.headScope.any fun r => decide (2 ≤ r.2.level)
  else if src < 0x6A0 then false
  else if src < 0x6A8 then !s.cache.wgon.getLsbD (src - 0x6A0)
  else if src = 0x6A8 then s.cache.cdisabled
  else if src = 0x6AA then decide (381300 * 3 < s.mem.remap.length * 4)
  else if src < 0x700 then false
  else if src < 0x710 then (List.range 4).any fun i => s.decRetired (4 * (src - 0x700) + i)
  else if src < 0x720 then false
  else if src < 0x740 then (s.le (src - 0x720)).state != 0
  else if src < 0x760 then
    let d := s.dom ((src - 0x740) / 8)
    match src % 8 with
    | 0 => d.chop
    | 1 => d.regenOff
    | 2 => d.coast
    | 3 => d.domfault
    | _ => false
  else if src = 0x760 then s.pwr.dflt
  else if src = 0x762 then s.boot.lossAt.isSome
  else if src = 0x783 then (List.range 144).any s.holdNow
  else if src = 0x7B1 then s.cal.refFault
  else if src = 0x7B2 then s.clk.trefHold
  else src == 0x7B3 && s.clk.pps == 3

/-- Bits of group `n` that the PF of port `p` may see (15 R402). -/
def State.seenMask (s : State) (p n : Nat) : Nat := pack 1 32 fun i => bit (s.sees p (32 * n + i))

/-- EVT_LATCH[n] as the PF of port `p` reads it (15 R401, R402). -/
def State.latchView (s : State) (p n : Nat) : Nat := Nat.land (s.evt.latch.get (fun _ => 0) (64 * p + n)).toNat (s.seenMask p n)

/-- EVT_LIVE[n] as the PF of port `p` reads it (15 R401, R402). -/
def State.liveView (s : State) (p n : Nat) : Nat := pack 1 32 fun i => bit (s.sees p (32 * n + i) && s.liveNow (32 * n + i))

/-- EVT_FN_LIVE of function `f`: bit 5 while an attached namespace is not ready, bit 9 while an actuator of one is in thermal emergency or its bay
is empty (15 Tables 15.9, 15.15). -/
def State.fnLiveWord (s : State) (f : Nat) : Nat :=
  let mine := s.namespaces.filter fun r => r.2.attached.contains f
  at_ 5 (bit (mine.any fun r => !s.nsReady r.2))
    + at_ 9 (bit (mine.any fun r => r.2.actset.any fun a => s.bayEmerg (bayOf a) || !(s.bay (bayOf a)).link.present))

/-! ### What a function reads of itself: mailbox, events, tally, queue errors (17 R440) -/

/-- A word of the request buffer at byte `i`. -/
def Mbx.reqWord (m : Mbx) (i : Nat) : Nat := pack 8 4 fun j => (m.reqbuf.get (fun _ => 0) (i + j)).toNat

/-- QH_ERRLOG (03 Table 3.12). -/
def FnSt.qhWord (x : FnSt) : Nat := at_ 8 x.qhQid.toNat + at_ 14 (bit x.qhCq) + at_ 24 x.qhCause.toNat + at_ 31 (bit x.qhValid)

/-- MBX buffers and registers, from BAR0 offsets `buf`, `buf + 0x1000` and `reg` on (15 Table 15.1). -/
def State.readMbx (s : State) (f buf reg off : Nat) : Option Nat :=
  let m := s.mbx f
  run off buf 1024 (fun i => m.reqWord (4 * i))
    <|> run off (buf + 0x1000) 1024 (fun i => fieldAt m.rspbuf (4 * i) 4)
    <|> regs off reg [m.opcode.toNat + at_ 16 m.len.toNat, 0, m.stat, m.rsp]

/-- TAL registers of `n` kinds from BAR0 offset `o` on (15 Table 15.16). -/
def State.readTal (s : State) (f o n off : Nat) : Option Nat :=
  let r (k : Nat) : Ring := s.ring (4 * f + k)
  run off o n (fun k => (r k).head.toNat)
    <|> run off (o + 0x10) n (fun k => (r k).tail.toNat)
    <|> run off (o + 0x20) n (fun k => (r k).overrun.toNat)
    <|> regs off (o + 0x30) [(s.fn f).talDrop.toNat]

/-- Doorbells of function `f` from BAR0 offset `o` on: the last values accepted, and 0 above them (03 R64). -/
def State.readDb (s : State) (f o off : Nat) : Option Nat :=
  run off o 256 fun i =>
    let k := 64 * f + i / 4
    match i % 4 with
    | 0 => (s.sq k).tail
    | 2 => (s.cq k).head
    | _ => 0

/-- MBX, EVT and TAL blocks of a PF (17 Table 17.14). -/
def State.readEvents (s : State) (p off : Nat) : Option Nat :=
  let f := 64 * p
  s.readMbx f 0x10000 0x12000 off
    <|> run off 0x20000 2 (fun n => pack 1 32 fun i => bit (s.latchView p (32 * n + i) != 0))
    <|> run off 0x20100 64 (s.latchView p)
    <|> run off 0x20200 64 (s.liveView p)
    <|> regs off 0x20300 [(s.fn f).fnLatch.toNat, s.fnLiveWord f]
    <|> s.readTal f 0x30000 3 off

/-! ### HPT, TWN, THM, CLK and BOOT blocks (Tables 17.15 to 17.17) -/

/-- HPT_LINK (04 Table 4.9). -/
def State.linkWord (s : State) (p : Nat) : Nat :=
  let x := s.port p
  at_ 13 x.h0.rate.toNat + at_ 16 x.h0.width.toNat + at_ 21 x.h1.rate.toNat + at_ 24 x.h1.width.toNat + at_ 29 (bit x.h0.up) + at_ 30 (bit x.h1.up)
    + at_ 31 (bit (s.bif p))

/-- Power state of half `h` of a port as HPT_PM shows it: L0s after 256 ns idle, up to 16 GT/s, with ASPM on and no ledger entry of the link's
functions (04 R113). -/
def State.pmState (s : State) (p : Nat) (h : Bool) : Nat :=
  let l := s.half p h
  if l.lstate ≠ 0 then l.lstate.toNat
  else if l.up && l.aspm.getLsbD 0 && decide (l.rate.toNat ≤ 4 ∧ l.txAt + 256 ≤ s.now) && !s.linkBusy p h then 1 else 0

/-- Low and high words of a window's base, then of its limit (04 Tables 4.13, 4.14). -/
def Twn.words (w : Twn) : List Nat :=
  [w.base % 2 ^ 32, w.base / 2 ^ 32, w.limit % 2 ^ 32, w.limit / 2 ^ 32 % 8 + at_ 31 (bit w.en)]

/-- TWN_GRANT[k] (04 Table 4.18). -/
def Grant.word (g : Grant) : Nat := g.start.toNat + at_ 16 g.fin.toNat + at_ 31 (bit g.en)

/-- TWN_GRANT[k] of a port. -/
def PortSt.grant (x : PortSt) (k : Nat) : Grant := x.grants.get (fun k => if k = 0 then { en := true, fin := 0x800#12 } else {}) k

/-- HPT and TWN of a port, with the Queue Hub error registers: in Trailhead mode the TWN block reads 0 (17 Table 17.15, R441). -/
def State.readPort (s : State) (p off : Nat) : Option Nat :=
  let x := s.port p
  let f := s.fn (64 * p)
  let twn : Option Nat :=
    regs off 0x50000 (x.wpend.words ++ x.wcur.words ++
        [0, bit x.pend + at_ 1 (bit (s.glb.lck.getLsbD 2)) + at_ 2 (bit x.wign) + at_ 3 (bit x.rej), x.switchCnt.toNat, x.dropCnt.toNat, x.twnSize.toNat])
      <|> run off 0x50100 64 (fun k => (x.grant k).word)
  regs off 0x40000 [s.linkWord p, 0, s.pmState p false + at_ 2 (s.pmState p true) + at_ 16 x.l1Idle.toNat]
    <|> regs off 0x40010 [at_ 16 x.errFunc.toNat + at_ 24 x.errCause.toNat + at_ 31 (bit x.errValid), x.urCnt.toNat, x.ctoCnt.toNat, x.retrain.toNat]
    <|> regs off 0x40800 [f.qhWord, f.qhCnt.toNat]
    <|> (if s.boot.trailhead then none else twn)

/-- A sensor's reading as a field: 0x8000 marks a broken one (13 R371). -/
def Sens.field (x : Sens) : Nat := if x.broken then 0x8000 else ofInt 16 x.temp

/-- THM_STAT (13 Table 13.7). -/
def State.thmStat (s : State) : Nat :=
  let hot := ((s.thm.die.map (·.2)).filter fun x => x.seen && !x.broken)
  let low := (((List.range 72).filter fun b => (s.bay b).link.present).map fun b => (s.thm.dieCeil.get (fun _ => 3) b).toNat).foldl min 3
  ofInt 16 ((hottest hot).getD 0) + at_ 26 (bit (s.thm.bay.any (·.2.subst))) + at_ 27 low + at_ 29 s.thm.dieScope.level + at_ 31 (bit s.glb.thermTrip)

/-- THM_BAY of a bay (13 Table 13.7). -/
def State.thmBay (s : State) (b : Nat) : Nat :=
  let x := s.bayScope b
  let k (i : Nat) : Sens := s.thm.sens 1 (4 * b + i)
  at_ 14 (pack 1 4 fun i => bit (k i).subst) + at_ 18 (pack 1 4 fun i => bit (k i).broken)
    + at_ 22 (pack 1 4 fun i => bit ((k i).seen && (k i).level == x.level))
    + at_ 26 (bit (x.exiting || s.thm.dieScope.exiting)) + at_ 27 (bit x.ainh) + at_ 28 (s.thermalCeil b) + at_ 30 x.level

/-- THM_BAY, THM_BAYTEMP_LO, THM_BAYTEMP_HI and THM_HEADINH of the view (13 R371). -/
def State.thmView (s : State) (b off : Nat) : Option Nat :=
  let k (i : Nat) : Nat := (s.thm.sens 1 (4 * b + i)).field
  regs off 0x60008
    [s.thmBay b, k 0 + at_ 16 (k 1), k 2 + at_ 16 (k 3),
     (pack 1 16 fun h => bit (s.headScope (2 * b) h).ainh) + at_ 16 (pack 1 16 fun h => bit (s.headScope (2 * b + 1) h).ainh)]

/-- THM block (17 Table 17.16). -/
def State.readThm (s : State) (p off : Nat) : Option Nat :=
  let b := (s.sel p).thm.toNat
  regs off 0x60000 [s.thmStat, b]
    <|> viewOf 72 b (s.shown.thmView b off)
    <|> regs off 0x60018 [s.thm.emrgcnt.toNat, s.thm.brkcnt.toNat]
    <|> run off 0x60100 48 (fun n => (s.thm.sens 0 (2 * n)).field + at_ 16 (s.thm.sens 0 (2 * n + 1)).field)
    <|> run off 0x60200 6 (fun k => let l := s.cfg.thmLim.get thmDefault k; l.warn.toNat + at_ 8 l.act.toNat + at_ 16 l.emrg.toNat)
    <|> run off 0x60300 3 (fun n => pack 1 32 fun i => bit (s.thm.sens 0 (32 * n + i)).broken)
    <|> run off 0x60310 9 (fun n => pack 1 32 fun i => bit (s.thm.sens 1 (32 * n + i)).broken)

/-- Crossings of an island (14 Table 14.6). -/
def xcount (i : Nat) : Nat := (Config.crossings i).val + 1

/-- CLK_ISL_STAT (14 Table 14.6): 16 crossings show as 0 in the four bits of XCOUNT. -/
def State.islWord (s : State) (i : Nat) : Nat :=
  let x := s.isl i
  x.period.toNat + at_ 24 (xcount i % 16) + at_ 28 (bit x.switching) + at_ 29 (bit x.holdover) + at_ 30 (bit x.reset) + at_ 31 (bit x.ready)

/-- CLK_XING_STAT of crossing `x` of island `i` (14 Table 14.6). -/
def State.xingWord (s : State) (i x : Nat) : Nat :=
  let c := s.xing (16 * i + x)
  c.lost.toNat + at_ 8 c.discard.toNat + at_ 16 (Config.crossPeer i x).toNat + at_ 25 (bit (Config.crossKind i x)) + at_ 26 (bit (Config.crossDir i x))
    + at_ 27 (bit (s.inService i x)) + at_ 28 (bit c.refusing) + at_ 29 (bit c.noagree) + at_ 30 (bit c.peer) + at_ 31 (bit c.ovr)

/-- CLK block (17 Table 17.16). -/
def State.readClk (s : State) (p off : Nat) : Option Nat :=
  let c := s.clk
  let i := (s.sel p).isl.toNat
  let x := (s.sel p).xing.toNat
  regs off 0x70000
      [s.now % 2 ^ 32, s.now / 2 ^ 32 % 2 ^ 32, c.steps.toNat + at_ 28 (bit c.slewing) + at_ 29 c.pps.toNat + at_ 31 (bit c.trefHold), c.ppsErr.toNat,
       c.slewPpm.toNat + at_ 30 (bit c.ppsFall) + at_ 31 (bit c.ppsEn)]
    <|> regs off 0x70020 [i + at_ 8 x]
    <|> viewOf 217 i (regs off 0x70024 [s.islWord i])
    <|> viewOf 217 i (viewOf (xcount i) x (regs off 0x70028 [s.xingWord i x]))
    <|> viewOf 217 i (regs off 0x7002C [(s.isl i).ovrcnt.toNat, (s.isl i).peercnt.toNat])

/-- SAN_STAT (16 Table 16.16). -/
def State.sanStat (s : State) : Nat :=
  match s.sans.find? (·.st != 4) with
  | some o =>
    let n := (o.units.map (·.2.2)).sum
    (if n = 0 then 0 else (o.units.map (·.2.1)).sum * 100 / n) + at_ 8 o.st + at_ 16 (o.id % 65536)
  | none => 0

/-- STATE of MC_VERSION: 2 loading once every formatter of a held herd is idle, until the image is in force (07 R193, Table 7.14). -/
def State.mcState (s : State) (h : Nat) : Nat :=
  let v := (s.herd h).mcState.toNat
  if v = 1 ∧ (List.range 8).all (fun i => (s.act (8 * h + i)).fmt.running.isNone) then 2 else v

/-- BOOT block (17 Table 17.17). -/
def State.readBoot (s : State) (off : Nat) : Option Nat :=
  let b := s.boot
  regs off 0x80000
      [b.cause.toNat + at_ 8 b.lastFail.toNat + at_ 28 b.slot.toNat + at_ 31 (bit b.trailhead), b.attempt.toNat, fieldAt b.history 0 4, fieldAt b.history 4 4,
       b.slot.toNat + at_ 4 b.preferred.toNat + at_ 8 (pack 1 3 fun n => bit (s.slotOf n).verified), b.svnMin.toNat + at_ 8 (min 255 b.svnRun.toNat),
       b.fwkey.toNat]
    <|> run off 0x80030 9 (fun n => pack 4 8 fun i => (s.bay (8 * n + i)).link.quar.toNat)
    <|> regs off 0x80060 [at_ 8 b.fwPause.toNat + at_ 16 b.fwHerd.toNat + at_ 24 b.fwComp.toNat + at_ 28 b.fwState.toNat]
    <|> run off 0x80100 18 (fun h => let x := s.herd h; x.detour.toNat + at_ 12 (s.mcState h) + at_ 16 x.imgVer.toNat)
    <|> run off 0x80200 (16 * 18) (fun i => if i % 16 < 12 then (s.herd (i / 16)).digestWord (i % 16) else 0)
    <|> regs off 0x80700 [b.sanPolicy.toNat, s.sanStat, s.keysLoaded]

/-! ### DIAG (Table 17.18) -/

/-- DIAG_TRC_CTRL, DIAG_TRC_STAT, DIAG_TRC_TIME and DIAG_TRC_SRC of engine `n`, by word number in its 0x100 bytes (08 Tables 8.18 to 8.20). -/
def Trc.word (t : Trc) (i : Nat) : Nat :=
  if i = 0 then t.ctrl.toNat + at_ 31 (bit t.armed)
  else if i = 1 then t.trigIdx.toNat + at_ 30 (bit t.armed) + at_ 31 (bit t.done)
  else if i = 2 then t.time.toNat % 2 ^ 32
  else if i = 3 then t.time.toNat / 2 ^ 32
  else if 32 ≤ i then (t.src.get (fun _ => 0) (i - 32)).toNat
  else 0

/-- DIAG_TRC_DATA[i] of a channel: sample `i` from the oldest on; 0 while the capture runs (08 R251). -/
def Trc.sample (t : Trc) (c i : Nat) : Nat :=
  let n := t.pos.get (fun _ => 0) c
  let j := if n ≤ 16384 then i else (n + i) % 16384
  if t.armed then 0 else (t.data.get (fun _ => 0xFFFFFFFF) (c * 16384 + j)).toNat

/-- DIAG block (17 Table 17.18). -/
def State.readDiag (s : State) (off : Nat) : Option Nat :=
  let sel := s.trcSel.toNat
  run off 0x201000 418 ldpcCode
    <|> run off 0x204000 2048 (fun i => (s.trc (i / 64)).word (i % 64))
    <|> regs off 0x206000 [sel]
    <|> run off 0x210000 16384 ((s.trc (bits sel 8 5)).sample (bits sel 0 5))

/-! ### The whole map (R437, R442, R443) -/

/-- What PF `p` reads at an offset of its BAR0; a reserved offset reads 0 (17 R443). -/
def State.readPf (s : State) (p off : Nat) : Nat :=
  let v : Option Nat :=
    if off < 0x8800 then s.readHead p off
    else if off < 0x8C00 then s.readMedia p off
    else if off < 0x9000 then s.readDrive p off
    else if off < 0x10000 then s.readMemory p off
    else if off < 0x40000 then s.readEvents p off
    else if off < 0x60000 then s.readPort p off
    else if off < 0x70000 then s.readThm p off
    else if off < 0x80000 then s.readClk p off
    else if off < 0x90000 then s.readBoot off
    else if off < 0x200000 then (if s.boot.trailhead then none else s.readDb (64 * p) 0x100000 off)
    else s.readDiag off
  v.getD 0

/-- VF_IDENT (17 Table 17.20). -/
def vfIdent (f : Nat) : Nat := f + at_ 8 (portOf f) + at_ 16 Config.silRev.toNat

/-- What function `f`, with the VF layout, reads at an offset of its BAR0 (17 R442, Table 17.19). -/
def State.readVf (s : State) (f off : Nat) : Nat :=
  let x := s.fn f
  (regs off 0 [vfIdent f]
    <|> regs off 0x800 [x.qhWord, x.qhCnt.toNat]
    <|> s.readMbx f 0x1000 0xC00 off
    <|> regs off 0x3000 [x.fnLatch.toNat, s.fnLiveWord f]
    <|> s.readTal f 0x4000 1 off
    <|> s.readDb f 0x8000 off).getD 0

/-- What function `f` reads at an aligned offset of its BAR0. -/
def State.regRead (s : State) (f off : Nat) : Word := BitVec.ofNat 32 (if isPf f then s.readPf (portOf f) off else s.readVf f off)

end Sys2Proof.Machine
end

