-- ==== Sys2Proof/Machine/Regs.lean ====
section
/-! DEFINITION. Accesses to registers: reads with their side effects, writes by access code, authority and locks (00 R11; 04 R101 to R105; 16
R425 to R427; 17 R437 to R443). -/
namespace Sys2Proof.Machine

open Sys2Proof

/-! ### Reads (17 R438, R439) -/

/-- Low halves of the 64-bit registers of a PF (17 Tables 17.7, 17.14 to 17.18). -/
def lowHalf (off : Nat) : Bool :=
  off == 0x8A08 || off == 0x20000 || (decide (0x50000 ≤ off ∧ off < 0x50020) && off % 8 == 0) || off == 0x70000 || off == 0x80008
    || (decide (0x204000 ≤ off ∧ off < 0x206000) && off % 0x100 == 8)

/-- Key of a captured half: function and offset of the high half. -/
def halfKey (f off : Nat) : Nat := f * 2 ^ 24 + off

/-- Clear the RC fields a read has returned (00 R11, 17 Tables 17.4, 17.7). -/
def State.afterRead (s : State) (f off : Nat) : State :=
  let x := s.sel (portOf f)
  if !isPf f || s.boot.trailhead then s
  else if off = 0x8604 ∧ x.adm.toNat < 144 then s.modAdm x.adm.toNat fun a => { a with slotLimit := false }
  else if off = 0x8904 ∧ x.cfe.toNat < 144 then s.modCfe x.cfe.toNat fun c => { c with retainFull := false }
  else if off = 0x8A20 then s.modPool fun q => { q with waitmax := 0 }
  else s

/-- One 4-byte read: a low half captures its high half, and the next read of the high half returns what was captured (17 R438). -/
def State.read4 (s : State) (f off : Nat) : Word × State :=
  if isPf f && lowHalf off then
    (s.regRead f off, s.modGlb fun g => { g with captured := Tab.put g.captured (halfKey f (off + 4)) (s.regRead f (off + 4)) })
  else if isPf f && decide (4 ≤ off) && lowHalf (off - 4) then
    match Tab.find s.glb.captured (halfKey f off) with
    | some v => (v, s.modGlb fun g => { g with captured := Tab.del g.captured (halfKey f off) })
    | none => (s.regRead f off, s)
  else (s.regRead f off, s.afterRead f off)

/-- One read of 4 or 8 bytes that the function decodes, and its data: 8 bytes are two 4-byte accesses, the lower first (17 R438, R439). -/
def State.readReg (s : State) (f off : Nat) (wide : Bool) : State :=
  let (lo, s) := s.read4 f off
  if !wide then s.emit (.regData f off (lo.zeroExtend 64))
  else
    let (hi, s) := s.read4 f (off + 4)
    s.emit (.regData f off (hi ++ lo))

/-- Is the access naturally aligned (04 R105)? -/
def aligned (off : Nat) (wide : Bool) : Bool := if wide then off % 8 == 0 else off % 4 == 0

/-- Is an offset in the DIAG range of a PF (17 Table 17.1)? -/
def inDiag (f off : Nat) : Bool := isPf f && decide (0x200000 ≤ off)

/-- An access to BAR0 at an offset: a misaligned one is refused, and a DIAG access from any but the steward or with the window closed; an offset past
the 64 KiB of a VF is not the function's (04 R105, Table 4.5; 16 R426; 17 R442). -/
def State.access (s : State) (f off : Nat) (wide posted : Bool) (k : State → State) : State :=
  if !isPf f && decide (0x10000 ≤ off) then s
  else s.bar0 f posted fun s =>
    if !aligned off wide then s.refuseAny f 1 posted
    else if inDiag f off && !(s.isSteward f && s.diagOpen) then s.refuseAny f 2 posted
    else k s

/-- A read of BAR0. -/
def State.readBar0 (s : State) (f off : Nat) (wide : Bool) : State := s.access f off wide false fun s => s.readReg f off wide

/-- REGISTER_LOW_HALF_READ: a read of 4 or 8 bytes, of a low half or of any other register, or of a register of configuration space (17 R438, R439; 04
R100 to R107). -/
def execRegisterLowHalfRead (f : FnId) (reg : RegAddr) (wide : Bool) (s : State) : Host.Outcome State Fault Refusal :=
  let off := reg.off.toNat
  .next <| match reg.sp with
    | .bar0 => s.readBar0 f.val off wide
    | sp => if s.cfgOk f.val then s.emit (.regData f.val off ((s.cfgWord f.val sp off).zeroExtend 64)) else s

/-- CFG_ADM_STAT_READ (02 Table 2.14). -/
def execCfgAdmStatRead (f : FnId) (s : State) : Host.Outcome State Fault Refusal := .next (s.readBar0 f.val 0x8604 false)

/-- CFG_CFE_STAT_READ (06 Table 6.10). -/
def execCfgCfeStatRead (f : FnId) (s : State) : Host.Outcome State Fault Refusal := .next (s.readBar0 f.val 0x8904 false)

/-- CFG_DEC_WAITMAX_READ (06 Table 6.16). -/
def execCfgDecWaitmaxRead (f : FnId) (s : State) : Host.Outcome State Fault Refusal := .next (s.readBar0 f.val 0x8A20 false)

/-! ### Locks, DBG_CTRL, BOOT_FWKEY and JTAG (16 R413, R425 to R427) -/

/-- Event 0x7A3 where the DIAG window or JTAG debug has opened or closed (16 R427). -/
def State.noteDebug (s old : State) : State := if s.diagOpen = old.diagOpen ∧ s.glb.jtagDbg = old.glb.jtagDbg then s else s.raise 0x7A3

/-- The steward's write of LCK_CTRL: bits are set and never cleared; JTAG forces JTAG_DBG to 0, and an instruction that needs it acts as
BYPASS (16 R425, R427). -/
def State.writeLck (s : State) (v : Word) : State :=
  let n := s.glb.lck ||| v.setWidth 7
  if n = s.glb.lck then s
  else
    ((s.modGlb fun g =>
      { g with lck := n, jtagDbg := g.jtagDbg && !n.getLsbD 5,
               jtagIr := if (g.jtagDbg && !n.getLsbD 5) || g.jtagIr.toNat < 3 then g.jtagIr else 0 }).raise 0x7A0).noteDebug s

/-- The steward's write of DBG_CTRL: JTAG_DBG is set only while no key is loaded and LCK_CTRL.JTAG is clear (16 R426, R427). -/
def State.writeDbg (s : State) (v : Word) : State :=
  let dbg := v.getLsbD 1 && !s.glb.lck.getLsbD 5 && (s.glb.jtagDbg || s.keysLoaded == 0)
  (s.modGlb fun g => { g with diagEn := if g.lck.getLsbD 4 then g.diagEn else v.getLsbD 0, jtagDbg := dbg,
                              jtagIr := if dbg || g.jtagIr.toNat < 3 then g.jtagIr else 0 }).noteDebug s

/-- The steward's write of BOOT_FWKEY: at once and in the boot record; ignored with no bit set or when locked (16 R413). -/
def State.writeFwkey (s : State) (v : Word) : State :=
  let n : BitVec 4 := v.setWidth 4
  if n = 0 ∨ s.glb.lck.getLsbD 3 then s
  else
    let t := s.modBoot fun b => { b with fwkey := n }
    if n = s.boot.fwkey then t else t.raise 0x787

/-- LCK_CTRL_WRITE (16 R425). -/
def execLckCtrlWrite (f : FnId) (val : Word) (s : State) : Host.Outcome State Fault Refusal :=
  .next <| s.stewardWrite f.val fun s => s.writeLck val

/-- DBG_CTRL_WRITE (16 R426, R427). -/
def execDbgCtrlWrite (f : FnId) (val : Word) (s : State) : Host.Outcome State Fault Refusal :=
  .next <| s.stewardWrite f.val fun s => s.writeDbg val

/-- BOOT_FWKEY_WRITE (16 R413). -/
def execBootFwkeyWrite (f : FnId) (val : Word) (s : State) : Host.Outcome State Fault Refusal :=
  .next <| s.stewardWrite f.val fun s => s.writeFwkey val

/-- Number of a JTAG instruction: 0 BYPASS, 1 IDCODE, 2 SAMPLE/PRELOAD, 3 EXTEST, 4 internal debug. -/
def jtagCode : JtagOp → BitVec 8
  | .bypass => 0 | .idcode => 1 | .sample => 2 | .extest => 3 | .debug => 4

/-- JTAG_INSTRUCTION: IDCODE, BYPASS and SAMPLE/PRELOAD always; every other one only while JTAG_DBG is 1, else BYPASS (16 R427). -/
def execJtagInstruction (i : JtagOp) (s : State) : Host.Outcome State Fault Refusal :=
  .next <| s.modGlb fun g => { g with jtagIr := if (jtagCode i).toNat < 3 || g.jtagDbg then jtagCode i else 0 }

/-! ### Events (15 R401) -/

/-- A W1C write of EVT_LATCH[n] by the PF of port `p`: its own view only. -/
def State.clearLatch (s : State) (p n : Nat) (v : Word) : State :=
  { s with evt := { s.evt with latch := Tab.upd (fun _ => 0) s.evt.latch (64 * p + n) (· &&& ~~~v) } }

/-- A W1C write of EVT_FN_LATCH by function `f`. -/
def State.clearFnLatch (s : State) (f : Nat) (v : Word) : State := s.modFn f fun x => { x with fnLatch := x.fnLatch &&& ~~~(v.setWidth 16) }

/-- EVT_LATCH_CLEAR (15 R401). -/
def execEvtLatchClear (f : FnId) (n : Fin 64) (val : Word) (s : State) : Host.Outcome State Fault Refusal :=
  .next <| s.bar0 f.val true fun s => if isPf f.val then s.clearLatch (portOf f.val) n.val val else s

/-- EVT_FN_LATCH_CLEAR (15 R401). -/
def execEvtFnLatchClear (f : FnId) (val : Word) (s : State) : Host.Outcome State Fault Refusal :=
  .next <| s.bar0 f.val true fun s => s.clearFnLatch f.val val

/-! ### Writes by register (17 R437, R439, R440) -/

/-- Bits `lo` up of a written word. -/
def fld (v : Word) (lo w : Nat) : BitVec w := v.extractLsb' lo w

/-- Change a view selector of the PF of port `p` (17 R440). -/
def State.modSel (s : State) (p : Nat) (g : PfSel → PfSel) : State := s.modCfg fun c => { c with sels := Tab.upd (fun _ => {}) c.sels p g }

/-- Change the staged configuration. -/
def State.modStaged (s : State) (g : EpochCfg → EpochCfg) : State := s.modCfg fun c => { c with staged := g c.staged }

/-- Write word `i` of the staged class registers (02 Tables 2.8 to 2.10). -/
def ClassRow.write (c : ClassRow) (i : Nat) (v : Word) : ClassRow :=
  match i with
  | 0 => { c with deadline := fld v 0 24 }
  | 1 => { c with margin := fld v 0 24 }
  | 2 => { c with en := v.getLsbD 0, relEn := v.getLsbD 1 }
  | _ => c

/-- Write staged configuration registers (02 R59; 03 R74; 09 R280). -/
def State.writeStaged (s : State) (off : Nat) (v : Word) : State :=
  if off < 0x8180 then
    let i := (off - 0x8100) / 4
    s.modStaged fun e => { e with classes := Tab.upd classReset e.classes (i / 4) fun c => c.write (i % 4) v }
  else if off = 0x8200 then s.modStaged fun e => { e with adm := { urgRes := fld v 0 6, floorPct := fld v 16 5, grazeWgt := fld v 24 8 } }
  else if off < 0x8500 then
    let n := (off - 0x8400) / 4
    s.modStaged fun e => { e with wgts := (List.range 4).foldl (fun t i => Tab.put t (4 * n + i) (fld v (8 * i) 8)) e.wgts }
  else if off = 0x8710 then s.modStaged fun e => { e with ldg := { floor := fld v 0 10, cap := fld v 16 16 } }
  else if off = 0x8E60 then s.modStaged fun e => { e with pwr := { tokens := fld v 0 3, assistPct := fld v 8 8, target := fld v 16 16 } }
  else if off = 0x8E68 then
    s.modStaged fun e => { e with gait := { minGait := fld v 0 2, dwell := fld v 8 8, utilLo := fld v 16 8, utilHi := fld v 24 8 } }
  else s.modStaged fun e => { e with timer := { idleT := fld v 0 16, stbyT := fld v 16 16 } }

/-- Offsets of the staged copies (17 R440). -/
def isStaged (off : Nat) : Bool :=
  decide (0x8100 ≤ off ∧ off < 0x8180 ∧ off % 16 ≠ 12) || off == 0x8200 || decide (0x8400 ≤ off ∧ off < 0x8500) || off == 0x8710 || off == 0x8E60
    || off == 0x8E68 || off == 0x8E70

/-- The steward's write of CFG_LC_CTRL: each changed WGDIS bit and CDIS has its effect (11 R318 to R320, Table 11.11). -/
def State.writeLcCtrl (s : State) (v : Word) : State :=
  let s := s.modCache fun c => { c with cleanLimit := fld v 0 8 }
  let s := if v.getLsbD 23 then s.disableCache else s
  let s := s.each ((List.range 8).filter fun g => v.getLsbD (24 + g) != s.cache.wgdis.getLsbD g) fun s g =>
    if v.getLsbD (24 + g) then s.disableGroup g else s.enableGroup g
  if v.getLsbD 23 then s else s.enableCache

/-- A write of CLK_CTRL: PPS_EN set starts to qualify edges, cleared ends the discipline (14 Table 14.5, R384). -/
def State.writeClk (s : State) (v : Word) : State :=
  let en := v.getLsbD 31
  s.modClk fun c =>
    let c := { c with ppsEn := en, ppsFall := v.getLsbD 30, slewPpm := fld v 0 8 }
    if en = s.clk.ppsEn then c
    else if en then { c with pps := 1, edgeRun := 0, lastEdge := none }
    else { c with pps := 0, edgeRun := 0, lastEdge := none, slewLeft := 0, slewing := false, slewAcc := 0 }

/-- The steward-only registers that are no staged copy, by offset (17 R440): none where an offset is no such register. -/
def State.writeOwn (s : State) (off : Nat) (v : Word) (flight : Tab Nat) : Option State :=
  if off < 0x8000 then
    if off = 0x10 then some (s.writeSteward (v.toNat % 4))
    else if off = 0x4000 then some (s.writeLck v)
    else if off = 0x4004 then some (s.writeDbg v)
    else none
  else if off = 0x8800 then some (s.modCfg fun c => { c with medSel := fld v 0 8 })
  else if off = 0x8810 then some (s.modCfg fun c => { c with vstop := fld v 0 8, vtrip := fld v 8 8, tmax := fld v 20 12 })
  else if off = 0x890C then some (s.modCfg fun c => { c with smThresh := fld v 0 4 })
  else if off = 0x8B44 then some (s.modCfg fun c => { c with asstGain := fld v 8 8, asstStep := fld v 16 8, asstLead := fld v 24 8 })
  else if off = 0x8C40 then some (s.modCfg fun c => { c with winhMin := fld v 0 8, rdLim := fld v 8 8, wrOn := fld v 16 8, wrOff := fld v 24 8 })
  else if off = 0x8E20 then some (s.modCfg fun c => { c with slewOvr := fld v 16 8, regenV := fld v 24 8 })
  else if off = 0x8F20 then some (s.modCfg fun c => { c with errLimit := fld v 0 8 })
  else if off = 0x9004 then some (s.modCfg fun c => { c with sramMin := fld v 16 8, dramH := fld v 24 8 })
  else if off = 0x9200 then some (s.writeLcCtrl v)
  else if off = 0x9420 then some (s.modCfg fun c => { c with margIter := fld v 16 8, scrubD := fld v 24 8 })
  else if 0x60200 ≤ off ∧ off < 0x60218 then
    some (s.modCfg fun c =>
      { c with thmLim := Tab.put c.thmLim ((off - 0x60200) / 4) { warn := fld v 0 8, act := fld v 8 8, emrg := fld v 16 8 } })
  else if off = 0x70010 then some (s.writeClk v)
  else if off = 0x70034 then some (s.askIslandReset (v.toNat % 256) flight)
  else if off = 0x80018 then some (s.writeFwkey v)
  else if off = 0x80700 then some (if s.glb.lck.getLsbD 6 then s else s.modBoot fun b => { b with sanPolicy := fld v 0 2 })
  else none

/-- The view selectors, one copy a PF (17 R440): none where an offset is no selector. -/
def PfSel.write (x : PfSel) (off : Nat) (v : Word) : Option PfSel :=
  if off = 0x8600 then some { x with adm := fld v 0 8 }
  else if off = 0x8900 then some { x with cfe := fld v 0 8 }
  else if off = 0x8B00 then some { x with wrt := fld v 0 8 }
  else if off = 0x8C00 then some { x with srv := fld v 0 8 }
  else if off = 0x8E00 then some { x with spn := fld v 0 7 }
  else if off = 0x8F00 then some { x with cwy := fld v 0 8 }
  else if off = 0x920C then some { x with chan := fld v 0 5 }
  else if off = 0x9400 then some { x with grz := fld v 0 8 }
  else if off = 0x60004 then some { x with thm := fld v 0 7 }
  else if off = 0x70020 then some { x with isl := fld v 0 8, xing := fld v 8 4 }
  else none

/-- Write a word of the pending window: 0 and 1 the base, 2 and 3 the limit and enable (04 Tables 4.13, 4.14). -/
def Twn.write (w : Twn) (i : Nat) (v : Word) : Twn :=
  match i with
  | 0 => { w with base := w.base / 2 ^ 32 * 2 ^ 32 + (fld v 20 12).toNat * 2 ^ 20 }
  | 1 => { w with base := (fld v 0 4).toNat * 2 ^ 32 + w.base % 2 ^ 32 }
  | 2 => { w with limit := w.limit / 2 ^ 32 * 2 ^ 32 + (fld v 20 12).toNat * 2 ^ 20 + 0xFFFFF }
  | _ => { w with limit := (fld v 0 3).toNat * 2 ^ 32 + w.limit % 2 ^ 32, en := v.getLsbD 31 }

/-- HPT and TWN of the PF's own port (04 R115, R120, R124, Tables 4.10 to 4.18). -/
def State.writePort (s : State) (p off : Nat) (v : Word) : State :=
  let x := s.port p
  let lock := s.glb.lck.getLsbD 2
  if off = 0x40008 then s.modPort p fun x => { x with l1Idle := fld v 16 16 }
  else if off = 0x40010 then (if v.getLsbD 31 then s.modPort p fun x => { x with errValid := false } else s)
  else if off < 0x50000 ∨ s.boot.trailhead then s
  else if off < 0x50010 then
    if lock then s
    else if x.pend then s.modPort p fun x => { x with wign := true }
    else s.modPort p fun x => { x with wpend := x.wpend.write ((off - 0x50000) / 4) v }
  else if off = 0x50020 then s.commitWindow p v
  else if off = 0x50024 then s.modPort p fun x => { x with wign := x.wign && !v.getLsbD 2, rej := x.rej && !v.getLsbD 3 }
  else if 0x50100 ≤ off ∧ off < 0x50200 ∧ !lock then
    s.modPort p fun x => { x with grants := Tab.put x.grants ((off - 0x50100) / 4) { en := v.getLsbD 31, fin := fld v 16 12, start := fld v 0 12 } }
  else s

/-- A W1C write of CLK_XING_STAT of the crossing that the PF of port `p` selects (14 R385, Table 14.6). -/
def State.clearXing (s : State) (p : Nat) (v : Word) : State :=
  let i := (s.sel p).isl.toNat
  let x := (s.sel p).xing.toNat
  if 217 ≤ i ∨ xcount i ≤ x then s
  else s.modXing (16 * i + x) fun c =>
    { c with ovr := c.ovr && !v.getLsbD 31, peer := c.peer && !v.getLsbD 30, noagree := c.noagree && !v.getLsbD 29 }

/-- DIAG registers (08 R251, Tables 8.18 to 8.21). -/
def State.writeDiag (s : State) (off : Nat) (v : Word) : State :=
  if 0x204000 ≤ off ∧ off < 0x206000 then
    let n := (off - 0x204000) / 0x100
    let i := off % 0x100 / 4
    if i = 0 then s.modTrc n fun t => t.write v s.now
    else if 32 ≤ i then s.modTrc n fun t => { t with src := Tab.put t.src (i - 32) (v &&& 0xC0FFFFFF#32) }
    else s
  else if off = 0x206000 then { s with trcSel := v &&& 0x00001F1F#32 }
  else s

/-- A write of TAL_HEAD[k] of function `f`: an index at or above ENTRIES is ignored (15 Table 15.16). -/
def State.writeTalHead (s : State) (f k : Nat) (v : Word) : State :=
  if (s.ring (4 * f + k)).present && decide (v.toNat % 65536 < (s.ring (4 * f + k)).entries) then
    s.modRing (4 * f + k) fun r => { r with head := fld v 0 16 }
  else s

/-- The doorbells, by offset from the first: the upper half of each is ignored (03 R64). -/
def State.writeDb (s : State) (f o : Nat) (v : Word) : State :=
  if s.boot.trailhead then s
  else if o % 16 = 0 then s.ringSq f (o / 16) (v.toNat % 65536)
  else if o % 16 = 8 then s.ringCq f (o / 16) (v.toNat % 65536)
  else s

/-- Registers every function has a copy of, by their offsets in a PF (17 R440, R442). -/
def State.writeFn (s : State) (f off : Nat) (v : Word) : State :=
  if off < 0x10000 then s
  else if off < 0x11000 then s.writeReqbuf f (off - 0x10000) (leBytes 4 v.toNat)
  else if off = 0x12000 then s.writeMbxReq f (fld v 0 16) (fld v 16 16)
  else if off = 0x12004 then s.goMbx f (fld v 0 16)
  else if off = 0x12008 then s.modMbx f fun m => { m with goign := m.goign && !v.getLsbD 29 }
  else if off = 0x20300 then s.clearFnLatch f v
  else if 0x30000 ≤ off ∧ off < 0x3000C then s.writeTalHead f ((off - 0x30000) / 4) v
  else if off = 0x40800 then (if v.getLsbD 31 then s.modFn f fun x => { x with qhValid := false } else s)
  else if 0x100000 ≤ off ∧ off < 0x100400 then s.writeDb f (off - 0x100000) v
  else s

/-- Where a VF's register lies in a PF's map (17 Tables 17.14, 17.15, 17.18, 17.19); 0, which is reserved, for the rest. -/
def vfMap (off : Nat) : Nat :=
  if off = 0x800 then 0x40800
  else if 0xC00 ≤ off ∧ off < 0xC10 then off - 0xC00 + 0x12000
  else if 0x1000 ≤ off ∧ off < 0x3000 then off - 0x1000 + 0x10000
  else if off = 0x3000 then 0x20300
  else if off = 0x4000 then 0x30000
  else if 0x8000 ≤ off ∧ off < 0x8400 then off - 0x8000 + 0x100000
  else 0

/-- One 4-byte write of a PF: steward-only registers, its selectors, its port's registers and its own (17 R440). -/
def State.writePf (s : State) (f off : Nat) (v : Word) (flight : Tab Nat) : State :=
  let p := portOf f
  if isStaged off then (if s.isSteward f then s.writeStaged off v else s.ignoreWrite f)
  else match s.writeOwn off v flight with
    | some t => if s.isSteward f then t else s.ignoreWrite f
    | none =>
      match (s.sel p).write off v with
      | some x => s.modSel p fun _ => x
      | none =>
        if off = 0x9204 then (if v.getLsbD 15 then s.modCache fun c => { c with disDone := false } else s)
        else if 0x20100 ≤ off ∧ off < 0x20200 then s.clearLatch p ((off - 0x20100) / 4) v
        else if off = 0x70028 then s.clearXing p v
        else if 0x40000 ≤ off ∧ off < 0x60000 ∧ off ≠ 0x40800 then s.writePort p off v
        else if 0x200000 ≤ off then s.writeDiag off v
        else s.writeFn f off v

/-- One 4-byte write to BAR0. -/
def State.write4 (s : State) (f off : Nat) (v : Word) (flight : Tab Nat) : State :=
  if isPf f then s.writePf f off v flight else s.writeFn f (vfMap off) v

/-- One write of 4 or 8 bytes that the function decodes: 8 bytes are two 4-byte writes, the lower first (17 R438, R439; 03 R64). -/
def State.writeReg (s : State) (f off : Nat) (wide : Bool) (data : BitVec 64) (flight : Tab Nat) : State :=
  let s := s.write4 f off (data.setWidth 32) flight
  if wide then s.write4 f (off + 4) (data.extractLsb' 32 32) flight else s

/-- REGISTER_WRITE: a write of 4 or 8 bytes to any register of BAR0, or of a control register of configuration space; `flight` is what is in flight
on each crossing, for CLK_ISL_RST (00 R11; 04 R101 to R105, R108, R113, R121; 17 R439, R440). -/
def execRegisterWrite (f : FnId) (sp : RegSpace) (off : BitVec 22) (wide : Bool) (data : BitVec 64) (flight : Tab Nat) (s : State) :
    Host.Outcome State Fault Refusal :=
  .next <| match sp with
    | .bar0 => s.access f.val off.toNat wide true fun s => s.writeReg f.val off.toNat wide data flight
    | _ => if s.cfgOk f.val then s.writeCfg f.val sp off.toNat data else s

end Sys2Proof.Machine
end

