-- ==== Sys2Proof/Machine/Dispatch.lean ====
section
/-! DEFINITION. One arm per command: a direct call of its meaning. -/
namespace Sys2Proof.Machine

open Sys2Proof

def exec (i : Instr) (s : State) : Host.Outcome State Fault Refusal :=
  match i with
  | .sqDoorbell f q upper val => Sys2Proof.Machine.execSqDoorbell f q upper val s
  | .cqDoorbell f q upper val => Sys2Proof.Machine.execCqDoorbell f q upper val s
  | .submissionFetchIssue p => Sys2Proof.Machine.execSubmissionFetchIssue p s
  | .submissionEntryArrival f q entry => Sys2Proof.Machine.execSubmissionEntryArrival f q entry s
  | .sqFetchError f q timeout => Sys2Proof.Machine.execSqFetchError f q timeout s
  | .read id => Sys2Proof.Machine.execRead id s
  | .write id => Sys2Proof.Machine.execWrite id s
  | .zoneAppend id => Sys2Proof.Machine.execZoneAppend id s
  | .zoneOpen id => Sys2Proof.Machine.execZoneOpen id s
  | .zoneClose id => Sys2Proof.Machine.execZoneClose id s
  | .zoneFinish id => Sys2Proof.Machine.execZoneFinish id s
  | .zoneReset id => Sys2Proof.Machine.execZoneReset id s
  | .zoneReport id => Sys2Proof.Machine.execZoneReport id s
  | .flush id => Sys2Proof.Machine.execFlush id s
  | .abort id => Sys2Proof.Machine.execAbort id s
  | .recoveryList id => Sys2Proof.Machine.execRecoveryList id s
  | .contRead id => Sys2Proof.Machine.execContRead id s
  | .dc7Retest id => Sys2Proof.Machine.execDc7Retest id s
  | .mediaOperationEnd a => Sys2Proof.Machine.execMediaOperationEnd a s
  | .deadlineCutoff id => Sys2Proof.Machine.execDeadlineCutoff id s
  | .flushComplete id => Sys2Proof.Machine.execFlushComplete id s
  | .abortComplete id => Sys2Proof.Machine.execAbortComplete id s
  | .keyUnloadComplete k => Sys2Proof.Machine.execKeyUnloadComplete k s
  | .recoveryEntryExpiry id => Sys2Proof.Machine.execRecoveryEntryExpiry id s
  | .backgroundRecoveryTimeout id => Sys2Proof.Machine.execBackgroundRecoveryTimeout id s
  | .hostDataCompletion f id list failed data => Sys2Proof.Machine.execHostDataCompletion f id list failed data s
  | .hostCompletionTimeout f id => Sys2Proof.Machine.execHostCompletionTimeout f id s
  | .sectorDelivery id lba crc => Sys2Proof.Machine.execSectorDelivery id lba crc s
  | .bmeClear f => Sys2Proof.Machine.execBmeClear f s
  | .bmeSet f => Sys2Proof.Machine.execBmeSet f s
  | .functionLevelReset f => Sys2Proof.Machine.execFunctionLevelReset f s
  | .pcieLinkUp p half width rate => Sys2Proof.Machine.execPcieLinkUp p half width rate s
  | .pcieLinkDown p half => Sys2Proof.Machine.execPcieLinkDown p half s
  | .pcieRetrain p half width rate => Sys2Proof.Machine.execPcieRetrain p half width rate s
  | .perstAssert p flight => Sys2Proof.Machine.execPerstAssert p flight s
  | .perstDeassert p => Sys2Proof.Machine.execPerstDeassert p s
  | .refusedRequest f unsupported poisoned misaligned diag window posted hdr => Sys2Proof.Machine.execRefusedRequest f unsupported poisoned misaligned diag window posted hdr s
  | .bar2Write p off data => Sys2Proof.Machine.execBar2Write p off data s
  | .bar2Read p off len => Sys2Proof.Machine.execBar2Read p off len s
  | .twnCommit f val => Sys2Proof.Machine.execTwnCommit f val s
  | .windowSwitch p => Sys2Proof.Machine.execWindowSwitch p s
  | .l1Entry p half sub => Sys2Proof.Machine.execL1Entry p half sub s
  | .glbStewardWrite f val => Sys2Proof.Machine.execGlbStewardWrite f val s
  | .registerWrite f sp off wide data flight => Sys2Proof.Machine.execRegisterWrite f sp off wide data flight s
  | .registerLowHalfRead f reg wide => Sys2Proof.Machine.execRegisterLowHalfRead f reg wide s
  | .cfgAdmStatRead f => Sys2Proof.Machine.execCfgAdmStatRead f s
  | .cfgCfeStatRead f => Sys2Proof.Machine.execCfgCfeStatRead f s
  | .cfgDecWaitmaxRead f => Sys2Proof.Machine.execCfgDecWaitmaxRead f s
  | .evtLatchClear f n val => Sys2Proof.Machine.execEvtLatchClear f n val s
  | .evtFnLatchClear f val => Sys2Proof.Machine.execEvtFnLatchClear f val s
  | .powerLossDeclared => Sys2Proof.Machine.execPowerLossDeclared s
  | .holdupFlushEnd b landedA landedB => Sys2Proof.Machine.execHoldupFlushEnd b landedA landedB s
  | .atiLimitReached a g => Sys2Proof.Machine.execAtiLimitReached a g s
  | .atiHoldLimit a g => Sys2Proof.Machine.execAtiHoldLimit a g s
  | .atiCheckpoint a => Sys2Proof.Machine.execAtiCheckpoint a s
  | .formatStart id => Sys2Proof.Machine.execFormatStart id s
  | .mediaFormatNamespace r => Sys2Proof.Machine.execMediaFormatNamespace r s
  | .mediaFormatActuator r => Sys2Proof.Machine.execMediaFormatActuator r s
  | .mediaFormatStatus r => Sys2Proof.Machine.execMediaFormatStatus r s
  | .sectorFraming a key sm1 sm2 lost => Sys2Proof.Machine.execSectorFraming a key sm1 sm2 lost s
  | .tapClampLimit a h => Sys2Proof.Machine.execTapClampLimit a h s
  | .detectionNotice a cmd key => Sys2Proof.Machine.execDetectionNotice a cmd key s
  | .iterationBoundary e zero out taps => Sys2Proof.Machine.execIterationBoundary e zero out taps s
  | .roundRedetectionDone e => Sys2Proof.Machine.execRoundRedetectionDone e s
  | .replayLlrsReady rep => Sys2Proof.Machine.execReplayLlrsReady rep s
  | .decoderSelfTest e memory pass => Sys2Proof.Machine.execDecoderSelfTest e memory pass s
  | .decoderRetire r => Sys2Proof.Machine.execDecoderRetire r s
  | .decoderRetest r => Sys2Proof.Machine.execDecoderRetest r s
  | .decoderStatus r => Sys2Proof.Machine.execDecoderStatus r s
  | .readRun a => Sys2Proof.Machine.execReadRun a s
  | .readReplay a => Sys2Proof.Machine.execReadReplay a s
  | .readAverage a => Sys2Proof.Machine.execReadAverage a s
  | .squeezeCheck a failed => Sys2Proof.Machine.execSqueezeCheck a failed s
  | .writeConv a => Sys2Proof.Machine.execWriteConv a s
  | .writeBand a => Sys2Proof.Machine.execWriteBand a s
  | .writeLanding a => Sys2Proof.Machine.execWriteLanding a s
  | .writeRecord a => Sys2Proof.Machine.execWriteRecord a s
  | .assistCal a o => Sys2Proof.Machine.execAssistCal a o s
  | .channelCal a o => Sys2Proof.Machine.execChannelCal a o s
  | .romFaultRoutine a => Sys2Proof.Machine.execRomFaultRoutine a s
  | .waymarkPassed a => Sys2Proof.Machine.execWaymarkPassed a s
  | .journalWriteDue a => Sys2Proof.Machine.execJournalWriteDue a s
  | .routineRestart a => Sys2Proof.Machine.execRoutineRestart a s
  | .assistFeedback a sample meas => Sys2Proof.Machine.execAssistFeedback a sample meas s
  | .dutyWindowEnd => Sys2Proof.Machine.execDutyWindowEnd s
  | .assistStatus r => Sys2Proof.Machine.execAssistStatus r s
  | .formatterIdle h digestOk => Sys2Proof.Machine.execFormatterIdle h digestOk s
  | .positionRecord a hi lo => Sys2Proof.Machine.execPositionRecord a hi lo s
  | .recordMissingTimeout a => Sys2Proof.Machine.execRecordMissingTimeout a s
  | .actuatorRun a o => Sys2Proof.Machine.execActuatorRun a o s
  | .runOverrun spin k budget => Sys2Proof.Machine.execRunOverrun spin k budget s
  | .commandSlotDeparture a => Sys2Proof.Machine.execCommandSlotDeparture a s
  | .migrationTaken spin k mirrorOk => Sys2Proof.Machine.execMigrationTaken spin k mirrorOk s
  | .limpExit a => Sys2Proof.Machine.execLimpExit a s
  | .writeInhibitRelease a => Sys2Proof.Machine.execWriteInhibitRelease a s
  | .parkReport a => Sys2Proof.Machine.execParkReport a s
  | .retractEmrgTimeout a => Sys2Proof.Machine.execRetractEmrgTimeout a s
  | .reloadRequest a => Sys2Proof.Machine.execReloadRequest a s
  | .loopEngineSelfTest n pass => Sys2Proof.Machine.execLoopEngineSelfTest n pass s
  | .coeffSetLoad a ver set rro => Sys2Proof.Machine.execCoeffSetLoad a ver set rro s
  | .spindleActionStart b => Sys2Proof.Machine.execSpindleActionStart b s
  | .loopMigrateActuator r => Sys2Proof.Machine.execLoopMigrateActuator r s
  | .loopMigrateSpindle r => Sys2Proof.Machine.execLoopMigrateSpindle r s
  | .loopRetireEngine r => Sys2Proof.Machine.execLoopRetireEngine r s
  | .loopRetestEngine r => Sys2Proof.Machine.execLoopRetestEngine r s
  | .loopReloadActuator r => Sys2Proof.Machine.execLoopReloadActuator r s
  | .loopEngineStatus r => Sys2Proof.Machine.execLoopEngineStatus r s
  | .traceArm f n val => Sys2Proof.Machine.execTraceArm f n val s
  | .traceForce f n val => Sys2Proof.Machine.execTraceForce f n val s
  | .zeroCrossingReport b time fields => Sys2Proof.Machine.execZeroCrossingReport b time fields s
  | .commutationTick b => Sys2Proof.Machine.execCommutationTick b s
  | .spindleRun b cause => Sys2Proof.Machine.execSpindleRun b cause s
  | .spinUpPhaseTimer b => Sys2Proof.Machine.execSpinUpPhaseTimer b s
  | .observerWindowClose b => Sys2Proof.Machine.execObserverWindowClose b s
  | .floatPeriodEnd b => Sys2Proof.Machine.execFloatPeriodEnd b s
  | .relockAttemptEnd b u v => Sys2Proof.Machine.execRelockAttemptEnd b u v s
  | .busSample d busv chop => Sys2Proof.Machine.execBusSample d busv chop s
  | .spindleStopDetected b => Sys2Proof.Machine.execSpindleStopDetected b s
  | .shortedHoldEnd b => Sys2Proof.Machine.execShortedHoldEnd b s
  | .domainFault d => Sys2Proof.Machine.execDomainFault d s
  | .domainRestore d => Sys2Proof.Machine.execDomainRestore d s
  | .gaitTargetRecompute b u v w x => Sys2Proof.Machine.execGaitTargetRecompute b u v w x s
  | .powerProjection pkgMw => Sys2Proof.Machine.execPowerProjection pkgMw s
  | .pwrcapWindow duty => Sys2Proof.Machine.execPwrcapWindow duty s
  | .spinUpTokenGrant d => Sys2Proof.Machine.execSpinUpTokenGrant d s
  | .idleTimerExpiry b => Sys2Proof.Machine.execIdleTimerExpiry b s
  | .standbyTimerExpiry b => Sys2Proof.Machine.execStandbyTimerExpiry b s
  | .standbyEntryReady b => Sys2Proof.Machine.execStandbyEntryReady b s
  | .powerStateActive r => Sys2Proof.Machine.execPowerStateActive r s
  | .powerStateIdle r => Sys2Proof.Machine.execPowerStateIdle r s
  | .powerStateStandby r => Sys2Proof.Machine.execPowerStateStandby r s
  | .powerStatus r => Sys2Proof.Machine.execPowerStatus r s
  | .upstreamFrame a u1 fr => Sys2Proof.Machine.execUpstreamFrame a u1 fr s
  | .upstreamSilenceTimeout a => Sys2Proof.Machine.execUpstreamSilenceTimeout a s
  | .emrgPeriodEnd a => Sys2Proof.Machine.execEmrgPeriodEnd a s
  | .causewayRetrain a => Sys2Proof.Machine.execCausewayRetrain a s
  | .trainingPhaseEnd a o => Sys2Proof.Machine.execTrainingPhaseEnd a o s
  | .insertionDeclared b => Sys2Proof.Machine.execInsertionDeclared b s
  | .removalDeclared b => Sys2Proof.Machine.execRemovalDeclared b s
  | .bringUpRetry b => Sys2Proof.Machine.execBringUpRetry b s
  | .calibrationCheckEnd b c => Sys2Proof.Machine.execCalibrationCheckEnd b c s
  | .linkRetrainActuator r => Sys2Proof.Machine.execLinkRetrainActuator r s
  | .linkPrepareRemoval r => Sys2Proof.Machine.execLinkPrepareRemoval r s
  | .linkCancelPreparation r => Sys2Proof.Machine.execLinkCancelPreparation r s
  | .linkStatus r => Sys2Proof.Machine.execLinkStatus r s
  | .linkReadDescriptor r => Sys2Proof.Machine.execLinkReadDescriptor r s
  | .scrubLineRead r => Sys2Proof.Machine.execScrubLineRead r s
  | .mergeEntryAge ok => Sys2Proof.Machine.execMergeEntryAge ok s
  | .wayGroupDisable f g => Sys2Proof.Machine.execWayGroupDisable f g s
  | .wayGroupEnable f g => Sys2Proof.Machine.execWayGroupEnable f g s
  | .cacheDisable f => Sys2Proof.Machine.execCacheDisable f s
  | .cacheEnable f => Sys2Proof.Machine.execCacheEnable f s
  | .wayGroupWalkEnd g => Sys2Proof.Machine.execWayGroupWalkEnd g s
  | .layoutReadInForce r => Sys2Proof.Machine.execLayoutReadInForce r s
  | .layoutReadPending r => Sys2Proof.Machine.execLayoutReadPending r s
  | .layoutWritePending r => Sys2Proof.Machine.execLayoutWritePending r s
  | .layoutDiscardPending r => Sys2Proof.Machine.execLayoutDiscardPending r s
  | .poisonRead r => Sys2Proof.Machine.execPoisonRead r s
  | .poisonClear r => Sys2Proof.Machine.execPoisonClear r s
  | .calibrationDue a h kind gait => Sys2Proof.Machine.execCalibrationDue a h kind gait s
  | .planEmptyPeriod a => Sys2Proof.Machine.execPlanEmptyPeriod a s
  | .assistCalRetry a h => Sys2Proof.Machine.execAssistCalRetry a h s
  | .calrefCheck uv10 => Sys2Proof.Machine.execCalrefCheck uv10 s
  | .grazeReadUnreadable r => Sys2Proof.Machine.execGrazeReadUnreadable r s
  | .grazeClearEntry r => Sys2Proof.Machine.execGrazeClearEntry r s
  | .grazeRecalChannel r => Sys2Proof.Machine.execGrazeRecalChannel r s
  | .grazeRecalServo r => Sys2Proof.Machine.execGrazeRecalServo r s
  | .grazeRecalAssist r => Sys2Proof.Machine.execGrazeRecalAssist r s
  | .grazeWearStatus r => Sys2Proof.Machine.execGrazeWearStatus r s
  | .grazePlanEmptyRequest r => Sys2Proof.Machine.execGrazePlanEmptyRequest r s
  | .thermalEvaluation rs => Sys2Proof.Machine.execThermalEvaluation rs s
  | .ceilingStepTimer b => Sys2Proof.Machine.execCeilingStepTimer b s
  | .thermtrip n => Sys2Proof.Machine.execThermtrip n s
  | .thermalBayStatus r => Sys2Proof.Machine.execThermalBayStatus r s
  | .thermalSubstitute r => Sys2Proof.Machine.execThermalSubstitute r s
  | .thermalEndSubstitution r => Sys2Proof.Machine.execThermalEndSubstitution r s
  | .islandReset f isl flight => Sys2Proof.Machine.execIslandReset f isl flight s
  | .crossingRearm isl => Sys2Proof.Machine.execCrossingRearm isl s
  | .clockSwitch a st => Sys2Proof.Machine.execClockSwitch a st s
  | .timerefLost => Sys2Proof.Machine.execTimerefLost s
  | .timerefRestored => Sys2Proof.Machine.execTimerefRestored s
  | .ppsEdge falling => Sys2Proof.Machine.execPpsEdge falling s
  | .ppsLost => Sys2Proof.Machine.execPpsLost s
  | .mailboxDeferredResponse r pass => Sys2Proof.Machine.execMailboxDeferredResponse r pass s
  | .smbusRequestWrite off data pec => Sys2Proof.Machine.execSmbusRequestWrite off data pec s
  | .smbusStatusRead => Sys2Proof.Machine.execSmbusStatusRead s
  | .smbusReadOffset off pec => Sys2Proof.Machine.execSmbusReadOffset off pec s
  | .smbusResponseRead => Sys2Proof.Machine.execSmbusResponseRead s
  | .identify r => Sys2Proof.Machine.execIdentify r s
  | .queueCreate r => Sys2Proof.Machine.execQueueCreate r s
  | .queueDelete r => Sys2Proof.Machine.execQueueDelete r s
  | .queueReset r => Sys2Proof.Machine.execQueueReset r s
  | .nsCreate r => Sys2Proof.Machine.execNsCreate r s
  | .nsDelete r => Sys2Proof.Machine.execNsDelete r s
  | .nsGrant r => Sys2Proof.Machine.execNsGrant r s
  | .nsRevoke r => Sys2Proof.Machine.execNsRevoke r s
  | .nsAttach r => Sys2Proof.Machine.execNsAttach r s
  | .nsDetach r => Sys2Proof.Machine.execNsDetach r s
  | .nsInfo r => Sys2Proof.Machine.execNsInfo r s
  | .cfgCommit r => Sys2Proof.Machine.execCfgCommit r s
  | .cfgStatus r => Sys2Proof.Machine.execCfgStatus r s
  | .epochSafePoint a => Sys2Proof.Machine.execEpochSafePoint a s
  | .flashRecordWritten wr => Sys2Proof.Machine.execFlashRecordWritten wr s
  | .tallyRingCreate r => Sys2Proof.Machine.execTallyRingCreate r s
  | .tallyRingDelete r => Sys2Proof.Machine.execTallyRingDelete r s
  | .tallyRingStatus r => Sys2Proof.Machine.execTallyRingStatus r s
  | .stewardMove r => Sys2Proof.Machine.execStewardMove r s
  | .tallyMinuteEnd spinPj decPj chTrim => Sys2Proof.Machine.execTallyMinuteEnd spinPj decPj chTrim s
  | .coldRstAssert ns => Sys2Proof.Machine.execColdRstAssert ns s
  | .coldRstDeassert st bad lost => Sys2Proof.Machine.execColdRstDeassert st bad lost s
  | .startComplete img failedDe failedLe => Sys2Proof.Machine.execStartComplete img failedDe failedLe s
  | .startTimeout => Sys2Proof.Machine.execStartTimeout s
  | .markhorWatchdog => Sys2Proof.Machine.execMarkhorWatchdog s
  | .chamoisWatchdog h => Sys2Proof.Machine.execChamoisWatchdog h s
  | .deviceLevelReset landed => Sys2Proof.Machine.execDeviceLevelReset landed s
  | .deviceReset r => Sys2Proof.Machine.execDeviceReset r s
  | .trailheadReset r => Sys2Proof.Machine.execTrailheadReset r s
  | .fwWrite r => Sys2Proof.Machine.execFwWrite r s
  | .fwVerify r => Sys2Proof.Machine.execFwVerify r s
  | .fwActivate r => Sys2Proof.Machine.execFwActivate r s
  | .fwStatus r => Sys2Proof.Machine.execFwStatus r s
  | .fwRaiseSvn r => Sys2Proof.Machine.execFwRaiseSvn r s
  | .fwSetPreferred r => Sys2Proof.Machine.execFwSetPreferred r s
  | .fwErase r => Sys2Proof.Machine.execFwErase r s
  | .fwCancelActivation r => Sys2Proof.Machine.execFwCancelActivation r s
  | .activationHoldStart => Sys2Proof.Machine.execActivationHoldStart s
  | .quarantineStatus r => Sys2Proof.Machine.execQuarantineStatus r s
  | .quarantineRelease r => Sys2Proof.Machine.execQuarantineRelease r s
  | .keyGenerate r => Sys2Proof.Machine.execKeyGenerate r s
  | .keyLoad r => Sys2Proof.Machine.execKeyLoad r s
  | .keyUnload r => Sys2Proof.Machine.execKeyUnload r s
  | .keyStatus r => Sys2Proof.Machine.execKeyStatus r s
  | .sanitizeCryptoErase r => Sys2Proof.Machine.execSanitizeCryptoErase r s
  | .sanitizeOverwrite r => Sys2Proof.Machine.execSanitizeOverwrite r s
  | .sanitizeWaitEnd id => Sys2Proof.Machine.execSanitizeWaitEnd id s
  | .sanitizeStatus r => Sys2Proof.Machine.execSanitizeStatus r s
  | .lckCtrlWrite f val => Sys2Proof.Machine.execLckCtrlWrite f val s
  | .dbgCtrlWrite f val => Sys2Proof.Machine.execDbgCtrlWrite f val s
  | .bootFwkeyWrite f val => Sys2Proof.Machine.execBootFwkeyWrite f val s
  | .markhorCoreSwitch => Sys2Proof.Machine.execMarkhorCoreSwitch s
  | .coreSwitchTimeout => Sys2Proof.Machine.execCoreSwitchTimeout s
  | .herdFirmwareRestartEnd h => Sys2Proof.Machine.execHerdFirmwareRestartEnd h s
  | .slotEraseEnd => Sys2Proof.Machine.execSlotEraseEnd s
  | .slotVerifyEnd img => Sys2Proof.Machine.execSlotVerifyEnd img s
  | .startImageInvalid img => Sys2Proof.Machine.execStartImageInvalid img s
  | .d3hotTransition f enter => Sys2Proof.Machine.execD3hotTransition f enter s
  | .vfEnableChange f on n => Sys2Proof.Machine.execVfEnableChange f on n s
  | .jtagInstruction op => Sys2Proof.Machine.execJtagInstruction op s
  | .smbusRequestStart op len seq pec => Sys2Proof.Machine.execSmbusRequestStart op len seq pec s
  | .islandHardFaultReset isl flight => Sys2Proof.Machine.execIslandHardFaultReset isl flight s
  | .marginalRereadDue a => Sys2Proof.Machine.execMarginalRereadDue a s

end Sys2Proof.Machine
end

