-- ==== Sys2Proof/Machine/Step.lean ====
section
/-! DEFINITION. One step of the block: the command at the front of its queue, or one tick of device time. -/
namespace Sys2Proof.Machine

open Sys2Proof

/-- One step: take the command at the front of the queue and give it its effect with the rest of the queue; with no command
waiting, device time advances by its 40 ns resolution, the thermal aborts of the time that passes being posted first (01 R26, 14 R378). -/
def step (s : State) : Host.Outcome State Fault Refusal :=
  match s.pending with
  | [] => .next s.postEarly.tick
  | c :: rest => exec c { s with pending := rest }

/-- The state with the command a word spells at the front of its queue; unchanged where the word spells none. -/
def State.withFetchWord (s : State) (nbits w : Nat) : State :=
  match decodeTableWord nbits w with
  | some c => { s with pending := c :: s.pending }
  | none => s

end Sys2Proof.Machine
end

