-- ==== Sys2Proof/WellFormed.lean ====
section
/-! DEFINITION. What a command's operands must satisfy beyond their types: the shapes the spec's own requests, frames and records
have. A command that fails a check spells nothing the block can be sent; `exec` stays total on it. -/
namespace Sys2Proof

/-- Row numbers strictly rising: a table in its one written form. -/
def rising {α : Type} : List (Nat × α) → Bool
  | [] => true
  | _ :: [] => true
  | (j, _) :: (k, v) :: t => decide (j < k) && rising ((k, v) :: t)

/-- At most the 32 bits of a mark differ, at an offset that the framing retry's window or a matching position reaches: `lo` positions early
at most, and 24 late (06 R163, R164). -/
def Hit.wf (lo : Int) (h : Hit) : Bool := decide (h.dist ≤ 32 ∧ -lo ≤ h.e ∧ h.e ≤ 24)

/-- A sensor of its class: 96 on the die, 4 per bay, one per head (13 R361). -/
def TempReading.wf (x : TempReading) : Bool :=
  match x.cls with
  | 0 => decide (x.key < 96)
  | 1 => decide (x.key < 288)
  | 2 => decide (x.key < 2304)
  | _ => false

/-- A line of the level read: a DRAM or victim line by its address, a cache line by its set and way, an engine by its number
(11 R307, R312, R331). -/
def ScrubRead.wf (r : ScrubRead) : Bool :=
  match r.level with
  | 0 | 2 => decide (r.addr % 128 = 0 ∧ r.addr < 2 ^ 36)
  | 1 => decide (r.set < 65536 ∧ r.way < 16)
  | 3 => decide (r.unit ≤ 2 ∧ (r.unit = 1 → r.num < 64) ∧ (r.unit = 2 → r.num < 32))
  | _ => false

/-- A law of order at most 12 with at most 2 integrators among its states (08 R227, R228). -/
def Law.wf (l : Law) : Bool := decide (l.a.length ≤ 12 ∧ l.b.length = l.a.length ∧ l.ints.length ≤ 2) && l.ints.all fun g => decide (g.idx < l.a.length)

/-- A set's laws, its tables in their written form, and at most 8 notch sections a gait (08 R227, R229). -/
def CoeffSet.wf (c : CoeffSet) : Bool :=
  rising c.laws && rising c.xfer && rising c.notchV && rising c.notchM && rising c.traj && c.laws.all (fun r => r.2.wf)
    && (List.range 4).all fun g => decide (((c.notchV.lookup g).getD []).length + ((c.notchM.lookup g).getD []).length ≤ 8)

/-- Runout tables in their written form: 16 heads of 64 bands of 640 wedges (08 R230). -/
def RroSet.wf (r : RroSet) : Bool := rising r.tabs && r.tabs.all fun e => decide (e.1 < 16 * 64 * 640)

/-- The tables of calibration records, in their written form, and a media identity outcome of R356 (12 R356, R357). -/
def CalData.wf (c : CalData) : Bool :=
  rising c.seekA && rising c.seekB && rising c.heads && rising c.places && decide (c.identity ≤ 3)
    && c.setA.all CoeffSet.wf && c.setB.all CoeffSet.wf && c.rroA.all RroSet.wf && c.rroB.all RroSet.wf

/-- A descriptor names at most 16 heads a side and 64 recording zones (05 Table 5.1). -/
def Descriptor.wf (d : Descriptor) : Bool := decide (d.headsA ≤ 16 ∧ d.headsB ≤ 16 ∧ d.recZones ≤ 64)

/-- Is the command well formed? -/
def Instr.wf : Instr → Bool
  | .hostDataCompletion _ _ _ failed data => !failed || data.isEmpty
  | .perstAssert _ flight => rising flight
  | .bar2Write _ _ data => decide (1 ≤ data.length ∧ data.length ≤ 4096)
  | .bar2Read _ _ len => decide (1 ≤ len.val)
  | .registerWrite _ sp off wide data flight => 
      (if sp = .bar0 then decide (off.toNat % (if wide then 8 else 4) = 0) else !wide) &&
      (wide || data.extractLsb' 32 32 == 0) && rising flight
  | .registerLowHalfRead _ reg wide => if reg.sp = .bar0 then decide (reg.off.toNat % (if wide then 8 else 4) = 0) else !wide
  | .sectorFraming _ _ sm1 sm2 _ => sm1.all (Hit.wf 24) && sm2.all (Hit.wf 26)
  | .replayLlrsReady rep => rep.sm1.all (Hit.wf 24) && rep.sm2.all (Hit.wf 26)
  | .channelCal _ o => o.set.all CoeffSet.wf && o.rro.all RroSet.wf
  | .runOverrun spin k _ => !spin || decide (k.val < 72)
  | .migrationTaken spin k _ => !spin || decide (k.val < 72)
  | .coeffSetLoad _ _ set rro => set.wf && rro.all RroSet.wf
  | .upstreamFrame _ _ fr => fr.tele.length == 3 && fr.blocks.length == 27
  | .trainingPhaseEnd _ o => o.desc.wf
  | .calibrationCheckEnd _ c => c.wf
  | .scrubLineRead r => r.wf
  | .thermalEvaluation rs => rs.all TempReading.wf
  | .islandReset _ isl flight => decide (isl.toNat < 217) && rising flight
  | .smbusRequestWrite _ data _ => decide (1 ≤ data.length ∧ data.length ≤ 240)
  | .startComplete img failedDe failedLe => decide (img.head.length ≤ 4096) && failedDe.all (fun n => decide (n < 64)) && failedLe.all (fun n => decide (n < 32))
  | .deviceLevelReset landed => rising landed && landed.all fun r => decide (r.1 < 144)
  | .slotVerifyEnd img => decide (img.head.length ≤ 4096)
  | .startImageInvalid img => decide (img.head.length ≤ 4096)
  | .islandHardFaultReset _ flight => rising flight
  | .sqDoorbell .. | .cqDoorbell .. | .submissionFetchIssue .. | .submissionEntryArrival .. | .sqFetchError ..
  | .read .. | .write .. | .zoneAppend .. | .zoneOpen .. | .zoneClose .. | .zoneFinish .. | .zoneReset ..
  | .zoneReport .. | .flush .. | .abort .. | .recoveryList .. | .contRead .. | .dc7Retest .. | .mediaOperationEnd ..
  | .deadlineCutoff .. | .flushComplete .. | .abortComplete .. | .keyUnloadComplete .. | .recoveryEntryExpiry ..
  | .backgroundRecoveryTimeout .. | .hostCompletionTimeout .. | .sectorDelivery .. | .bmeClear .. | .bmeSet ..
  | .functionLevelReset .. | .pcieLinkUp .. | .pcieLinkDown .. | .pcieRetrain .. | .perstDeassert ..
  | .refusedRequest .. | .twnCommit .. | .windowSwitch .. | .l1Entry .. | .glbStewardWrite .. | .cfgAdmStatRead ..
  | .cfgCfeStatRead .. | .cfgDecWaitmaxRead .. | .evtLatchClear .. | .evtFnLatchClear .. | .powerLossDeclared
  | .holdupFlushEnd .. | .atiLimitReached .. | .atiHoldLimit .. | .atiCheckpoint .. | .formatStart ..
  | .mediaFormatNamespace .. | .mediaFormatActuator .. | .mediaFormatStatus .. | .tapClampLimit ..
  | .detectionNotice .. | .iterationBoundary .. | .roundRedetectionDone .. | .decoderSelfTest .. | .decoderRetire ..
  | .decoderRetest .. | .decoderStatus .. | .readRun .. | .readReplay .. | .readAverage .. | .squeezeCheck ..
  | .writeConv .. | .writeBand .. | .writeLanding .. | .writeRecord .. | .assistCal .. | .romFaultRoutine ..
  | .waymarkPassed .. | .journalWriteDue .. | .routineRestart .. | .assistFeedback .. | .dutyWindowEnd
  | .assistStatus .. | .formatterIdle .. | .positionRecord .. | .recordMissingTimeout .. | .actuatorRun ..
  | .commandSlotDeparture .. | .limpExit .. | .writeInhibitRelease .. | .parkReport .. | .retractEmrgTimeout ..
  | .reloadRequest .. | .loopEngineSelfTest .. | .spindleActionStart .. | .loopMigrateActuator ..
  | .loopMigrateSpindle .. | .loopRetireEngine .. | .loopRetestEngine .. | .loopReloadActuator ..
  | .loopEngineStatus .. | .traceArm .. | .traceForce .. | .zeroCrossingReport .. | .commutationTick ..
  | .spindleRun .. | .spinUpPhaseTimer .. | .observerWindowClose .. | .floatPeriodEnd .. | .relockAttemptEnd ..
  | .busSample .. | .spindleStopDetected .. | .shortedHoldEnd .. | .domainFault .. | .domainRestore ..
  | .gaitTargetRecompute .. | .powerProjection .. | .pwrcapWindow .. | .spinUpTokenGrant .. | .idleTimerExpiry ..
  | .standbyTimerExpiry .. | .standbyEntryReady .. | .powerStateActive .. | .powerStateIdle .. | .powerStateStandby ..
  | .powerStatus .. | .upstreamSilenceTimeout .. | .emrgPeriodEnd .. | .causewayRetrain .. | .insertionDeclared ..
  | .removalDeclared .. | .bringUpRetry .. | .linkRetrainActuator .. | .linkPrepareRemoval ..
  | .linkCancelPreparation .. | .linkStatus .. | .linkReadDescriptor .. | .mergeEntryAge .. | .wayGroupDisable ..
  | .wayGroupEnable .. | .cacheDisable .. | .cacheEnable .. | .wayGroupWalkEnd .. | .layoutReadInForce ..
  | .layoutReadPending .. | .layoutWritePending .. | .layoutDiscardPending .. | .poisonRead .. | .poisonClear ..
  | .calibrationDue .. | .planEmptyPeriod .. | .assistCalRetry .. | .calrefCheck .. | .grazeReadUnreadable ..
  | .grazeClearEntry .. | .grazeRecalChannel .. | .grazeRecalServo .. | .grazeRecalAssist .. | .grazeWearStatus ..
  | .grazePlanEmptyRequest .. | .ceilingStepTimer .. | .thermtrip .. | .thermalBayStatus .. | .thermalSubstitute ..
  | .thermalEndSubstitution .. | .crossingRearm .. | .clockSwitch .. | .timerefLost | .timerefRestored | .ppsEdge ..
  | .ppsLost | .mailboxDeferredResponse .. | .smbusStatusRead | .smbusReadOffset .. | .smbusResponseRead | .identify ..
  | .queueCreate .. | .queueDelete .. | .queueReset .. | .nsCreate .. | .nsDelete .. | .nsGrant .. | .nsRevoke ..
  | .nsAttach .. | .nsDetach .. | .nsInfo .. | .cfgCommit .. | .cfgStatus .. | .epochSafePoint ..
  | .flashRecordWritten .. | .tallyRingCreate .. | .tallyRingDelete .. | .tallyRingStatus .. | .stewardMove ..
  | .tallyMinuteEnd .. | .coldRstAssert .. | .coldRstDeassert .. | .startTimeout | .markhorWatchdog
  | .chamoisWatchdog .. | .deviceReset .. | .trailheadReset .. | .fwWrite .. | .fwVerify .. | .fwActivate ..
  | .fwStatus .. | .fwRaiseSvn .. | .fwSetPreferred .. | .fwErase .. | .fwCancelActivation .. | .activationHoldStart
  | .quarantineStatus .. | .quarantineRelease .. | .keyGenerate .. | .keyLoad .. | .keyUnload .. | .keyStatus ..
  | .sanitizeCryptoErase .. | .sanitizeOverwrite .. | .sanitizeWaitEnd .. | .sanitizeStatus .. | .lckCtrlWrite ..
  | .dbgCtrlWrite .. | .bootFwkeyWrite .. | .markhorCoreSwitch | .coreSwitchTimeout | .herdFirmwareRestartEnd ..
  | .slotEraseEnd | .d3hotTransition .. | .vfEnableChange .. | .jtagInstruction .. | .smbusRequestStart ..
  | .marginalRereadDue .. => true

end Sys2Proof
end

