-- ==== Sys2Proof/Safety.lean ====
section
/-! DEFINITION. What the statements mean by a sound state: the invariants that every step keeps. -/
namespace Sys2Proof.Machine

open Sys2Proof

/-- The canonical form of the staging DRAM's bytes: addresses strictly rising, and no byte listed that equals what an unlisted
address reads as (11 R307). -/
def Memory.wf : List Host.Cell → Bool
  | [] => true
  | (_, v) :: [] => v != 0
  | (a, v) :: (b, w) :: t => v != 0 && decide (a < b) && Memory.wf ((b, w) :: t)

/-- A function whose BAR0 answers: it exists, is in D0 and decodes memory requests (04 Table 4.5). -/
def State.mmio (s : State) (f : Nat) : Bool := (s.fn f).enabled && !(s.fn f).d3 && (s.fn f).mse

/-- The steward's own register write reaches the block (04 R101, 17 R440). -/
def State.stewardMmio (s : State) (f : Nat) : Bool := s.mmio f && isPf f && s.isSteward f

/-- What LCK_CTRL and DBG_CTRL hold: the lock bits, DIAG_EN and JTAG_DBG (16 R425 to R427). -/
def Glb.locks (g : Glb) : BitVec 7 × Bool × Bool := (g.lck, g.diagEn, g.jtagDbg)

/-- The commands that may write bytes of the staging DRAM: stores and the write-out of merged bytes before a read, the scrub
of a line, the window's held requests, the admission of a host write, and every reset of the device (11 R307, R323, R328, R331; 04 R114). -/
def mayStoreStaging : Instr → Bool
  | .bar2Write .. | .bar2Read .. | .windowSwitch .. | .write .. | .zoneAppend .. | .dc7Retest .. | .scrubLineRead .. | .mergeEntryAge ..
  | .coldRstAssert .. | .coldRstDeassert .. | .startImageInvalid .. | .deviceLevelReset .. | .startTimeout | .markhorWatchdog
  | .herdFirmwareRestartEnd .. | .fwActivate .. | .fwCancelActivation .. | .markhorCoreSwitch | .coreSwitchTimeout | .formatterIdle .. => true
  | _ => false

/-- A merge entry as R328 has it: one aligned line, its bytes by offset, and never all 128 of them. -/
def MergeEnt.wf (e : MergeEnt) : Bool :=
  decide (e.line % 128 = 0) && rising e.bytes && e.bytes.all (fun r => decide (r.1 < 128)) && decide (e.bytes.length < 128)

/-- The merge buffer holds at most 32 entries of distinct lines (11 R328). -/
def State.mergeWf (s : State) : Bool :=
  decide (s.mem.merge.length ≤ 32) && s.mem.merge.all MergeEnt.wf && decide ((s.mem.merge.map (·.line)).Nodup)

/-- The byte of the staging DRAM at an address as a read gives it: the merge buffer's where it holds one, which is written out before
the read, else the DRAM's (11 R328). -/
def State.stagedByte (s : State) (a : Nat) : Byte :=
  match s.mem.merge.find? fun e => e.line == lineOf a with
  | some e => match Tab.find e.bytes (a - lineOf a) with
    | some b => b
    | none => ramRead s.ram a
  | none => ramRead s.ram a

end Sys2Proof.Machine
end

