-- ==== Sys2Proof/Certificates/Slice0/Obligations.lean ====
section
/-! DEFINITION. The statements for the provers: what each command does when it takes its effect, what the shared state keeps, and
what no step changes. -/

open Sys2Proof Sys2Proof.Machine

/-- A 4-byte write to the low half of a doorbell that meets no case of R65 makes the INDEX the new tail of the SQ, or the new
head of the CQ: the write itself wakes the link, and nothing else of the block changes. A write to the upper half changes
no queue and is not logged. A next state with its effect is stated here of sqDoorbell, cqDoorbell. (R64, R65) -/
def Obligations.AcceptedDoorbellsMoveTheQueueIndices : Prop :=
    (∀ (f : FnId) (q : Fin 64) (val : Word) (s : State),
      s.mmio f.val = true →
      s.boot.trailhead = false →
      (s.sq (64 * f.val + q.val)).doorbellCause (val.toNat % 65536) = none →
      exec (.sqDoorbell f q false val) s =
        .next ((s.touch f.val).modSq (64 * f.val + q.val) fun x => { x with tail := val.toNat % 65536 })) ∧
    (∀ (f : FnId) (q : Fin 64) (val : Word) (s : State),
      s.mmio f.val = true →
      s.boot.trailhead = false →
      (s.cq (64 * f.val + q.val)).doorbellCause (val.toNat % 65536) = none →
      exec (.cqDoorbell f q false val) s =
        .next ((s.touch f.val).modCq (64 * f.val + q.val) fun x => { x with head := val.toNat % 65536 })) ∧
    (∀ (f : FnId) (q : Fin 64) (val : Word) (s : State),
      s.mmio f.val = true →
      exec (.sqDoorbell f q true val) s = .next (s.touch f.val) ∧ exec (.cqDoorbell f q true val) s = .next (s.touch f.val))

/-- A doorbell write whose INDEX is at or above the queue's size, whose queue is not created, whose CQ head would pass the last
completion posted, or whose SQ tail would leave fewer entries pending than the last accepted tail, changes no queue:
QH_ERRLOG of the function takes the cause and the queue, and QH_ERRCNT increments. A next state with its effect is stated
here of sqDoorbell, cqDoorbell. (R65) -/
def Obligations.IgnoredDoorbellsChangeNoQueue : Prop :=
    (∀ (f : FnId) (q : Fin 64) (val : Word) (s : State),
      s.mmio f.val = true →
      s.boot.trailhead = false →
      (let x := s.sq (64 * f.val + q.val)
       x.size = 0 ∨ x.size ≤ val.toNat % 65536 ∨
         (val.toNat % 65536 + x.size - x.head) % x.size < (x.tail + x.size - x.head) % x.size) →
      ∃ t, exec (.sqDoorbell f q false val) s = .next t ∧ t = { s with ports := t.ports, fns := t.fns, evt := t.evt } ∧
        (∀ g, g ≠ f.val → t.fn g = s.fn g) ∧
        (t.fn f.val).qhValid = true ∧ (t.fn f.val).qhCq = false ∧ (t.fn f.val).qhQid = BitVec.ofNat 6 q.val ∧
        (t.fn f.val).qhCnt = (s.fn f.val).qhCnt + 1) ∧
    (∀ (f : FnId) (q : Fin 64) (val : Word) (s : State),
      s.mmio f.val = true →
      s.boot.trailhead = false →
      (let x := s.cq (64 * f.val + q.val)
       x.size = 0 ∨ x.size ≤ val.toNat % 65536 ∨
         (x.tail + x.size - x.head) % x.size < (val.toNat % 65536 + x.size - x.head) % x.size) →
      ∃ t, exec (.cqDoorbell f q false val) s = .next t ∧ t = { s with ports := t.ports, fns := t.fns, evt := t.evt } ∧
        (∀ g, g ≠ f.val → t.fn g = s.fn g) ∧
        (t.fn f.val).qhValid = true ∧ (t.fn f.val).qhCq = true ∧ (t.fn f.val).qhQid = BitVec.ofNat 6 q.val ∧
        (t.fn f.val).qhCnt = (s.fn f.val).qhCnt + 1)

/-- When an SQ of the port may be fetched, SUBMISSION_FETCH_ISSUE reads the 64-byte entry at its head from host memory,
advances the head by one entry, and reserves one slot of the bound CQ; nothing else of any queue changes. A fetch read that
returns an error completion stops its SQ, gives the slot back, and logs cause 0x5 with the queue and the completion fault
of the port. A next state with its effect is stated here of submissionFetchIssue, sqFetchError. (R63, R66, R67) -/
def Obligations.FetchReadsTheNextEntryOnceASlotIsReserved : Prop :=
    (∀ (p : PortId) (k : Nat) (s : State),
      s.nextSq p.val = some k →
      ∃ t, exec (.submissionFetchIssue p) s = .next t ∧
        t = { s with ports := t.ports, sqs := t.sqs, cqs := t.cqs, out := t.out } ∧
        t.out = .hostRead (k / 64) ((s.sq k).base + 64 * (s.sq k).head) 64 (s.fn (k / 64)).relaxed :: s.out ∧
        t.sq k = { s.sq k with head := ((s.sq k).head + 1) % (s.sq k).size, fetching := (s.sq k).fetching + 1 } ∧
        (∀ j, j ≠ k → t.sq j = s.sq j) ∧
        t.cq (k / 64 * 64 + (s.sq k).cq) =
          { s.cq (k / 64 * 64 + (s.sq k).cq) with reserved := (s.cq (k / 64 * 64 + (s.sq k).cq)).reserved + 1 } ∧
        (∀ j, j ≠ k / 64 * 64 + (s.sq k).cq → t.cq j = s.cq j)) ∧
    (∀ (f : FnId) (q : Fin 64) (s : State),
      (s.sq (64 * f.val + q.val)).fetching ≠ 0 →
      exec (.sqFetchError f q false) s =
        .next ((((((s.modSq (64 * f.val + q.val) fun x => { x with stopped := true, fetching := x.fetching - 1 }).releaseSlot f.val
          (s.sq (64 * f.val + q.val)).cq).logQueue f.val 5 false q.val).raiseFn f.val 2).logPort f.val 7).portFault f.val 8))

/-- An arriving entry of an SQ that is not stopped, with no entry before it that its checks must wait for, passes Table 3.4 and
finds room: it is appended to the ledger with the fields of the submission entry and its arrival at the present device time
(a CONT_READ also pins the held data it names). One that fails a check with a status takes no ledger entry while its
function may post: a completion entry with that status, ADM_TIME of the failed check and ACT = 0xFF is posted. With no room
it ends with LEDGER_FULL and the counters. An entry whose zone has an earlier arrival to admit, or with an earlier entry of
its SQ waiting, waits behind them (that order is DEDUCED, see the log). An entry a stopped SQ had still to receive is
discarded and its completion slot given back. A next state with its effect is stated here of submissionEntryArrival. (R31,
R70, R72, R73) -/
def Obligations.AnEntryThatPassesTheChecksEntersTheLedger : Prop :=
    (∀ (f : FnId) (q : Fin 64) (e : BitVec 512) (s : State),
      (s.sq (64 * f.val + q.val)).size ≠ 0 →
      (s.sq (64 * f.val + q.val)).fetching ≠ 0 →
      (s.sq (64 * f.val + q.val)).stopped = false →
      s.boot.postStop = false →
      (let u := s.modSq (64 * f.val + q.val) fun x => { x with fetching := x.fetching - 1 }
       (s.ldg.checking.any fun w => w.fn == f.val && w.sq == q.val) = false ∧ u.checkWaits f.val (Entry.of e) s.ldg.checking = false ∧
         u.checks f.val (Entry.of e) = none ∧ u.ledgerRoom f.val = true) →
      ∃ t, exec (.submissionEntryArrival f q e) s = .next t ∧
        t = { s with sqs := t.sqs, ledger := t.ledger, ldg := t.ldg, recs := t.recs, stage := t.stage } ∧
        ((Entry.of e).opc ≠ 0x0B → t.recs = s.recs ∧ t.stage = s.stage) ∧ t.ldg.next = s.ldg.next + 1 ∧ t.ldg.checking = s.ldg.checking ∧
        ∃ c, t.ledger = s.ledger ++ [c] ∧ c.id = s.ldg.next ∧ c.fn = f.val ∧ c.sq = q.val ∧ c.cq = (s.sq (64 * f.val + q.val)).cq ∧
          c.tag = (Entry.of e).tag ∧ c.op = BitVec.ofNat 8 (Entry.of e).opc ∧ c.nsid = (Entry.of e).nsid ∧
          c.slba = (Entry.of e).slba ∧ c.len = (Entry.of e).len ∧ c.dc = (Entry.of e).dc ∧ c.reldl = (Entry.of e).reldl ∧
          c.arrival = s.now ∧ c.phase = .arrived) ∧
    (∀ (f : FnId) (q : Fin 64) (e : BitVec 512) (st r : Nat) (s : State),
      (s.sq (64 * f.val + q.val)).size ≠ 0 →
      (s.sq (64 * f.val + q.val)).fetching ≠ 0 →
      (s.sq (64 * f.val + q.val)).stopped = false →
      s.boot.postStop = false →
      (s.fn f.val).bme = true →
      (s.fn f.val).d3 = false →
      (let u := s.modSq (64 * f.val + q.val) fun x => { x with fetching := x.fetching - 1 }
       (s.ldg.checking.any fun w => w.fn == f.val && w.sq == q.val) = false ∧ u.checkWaits f.val (Entry.of e) s.ldg.checking = false ∧
         u.checks f.val (Entry.of e) = some (st, r)) →
      exec (.submissionEntryArrival f q e) s =
        .next ((s.modSq (64 * f.val + q.val) fun x => { x with fetching := x.fetching - 1 }).postEntry f.val
          (s.sq (64 * f.val + q.val)).cq
          { tag := (Entry.of e).tag, status := st, sq := q.val, adm := s.now, cpl := s.now, act := 0xFF, result := r,
            sqhd := ((s.sq (64 * f.val + q.val)).head + (s.sq (64 * f.val + q.val)).size - (s.sq (64 * f.val + q.val)).fetching + 1)
              % (s.sq (64 * f.val + q.val)).size })) ∧
    (∀ (f : FnId) (q : Fin 64) (e : BitVec 512) (s : State),
      (s.sq (64 * f.val + q.val)).size ≠ 0 →
      (s.sq (64 * f.val + q.val)).fetching ≠ 0 →
      s.boot.postStop = false →
      (let x := s.sq (64 * f.val + q.val)
       let u := s.modSq (64 * f.val + q.val) fun x => { x with fetching := x.fetching - 1 }
       (x.stopped = true → exec (.submissionEntryArrival f q e) s = .next (u.releaseSlot f.val x.cq)) ∧
       (x.stopped = false → (s.ldg.checking.any fun w => w.fn == f.val && w.sq == q.val) = true ∨ u.checkWaits f.val (Entry.of e) s.ldg.checking = true →
         exec (.submissionEntryArrival f q e) s =
           .next (let w : CheckWait :=
                    { fn := f.val, sq := q.val, cq := x.cq, sqhd := (x.head + x.size - x.fetching + 1) % x.size, entry := e }
             { u with ldg := { s.ldg with checking := s.ldg.checking ++ [w] } })) ∧
       (x.stopped = false → (s.ldg.checking.any fun w => w.fn == f.val && w.sq == q.val) = false → u.checkWaits f.val (Entry.of e) s.ldg.checking = false →
         u.checks f.val (Entry.of e) = none → u.ledgerRoom f.val = false →
         exec (.submissionEntryArrival f q e) s =
           .next ((({ u with ldg := { s.ldg with full := s.ldg.full + 1 } }).charge f.val (Entry.of e).nsid fun y =>
             { y with refLdg := satInc16 y.refLdg }).failCheck f.val q.val x.cq ((x.head + x.size - x.fetching + 1) % x.size) (Entry.of e).tag
               Sts.ledgerFull 0))))

/-- A READ whose sectors all need no media access, with no earlier overlapping command, is admitted on the host-port model when
that passes: the entry becomes admitted with its bytes promised on the port, what is held is made ready and its buffer is
opened. A READ that needs the media and whose parts all pass is admitted on the plans of its actuators, which then reach a
dispatch point. A next state with its effect is stated here of read. (R41, R44, R45) -/
def Obligations.AReadIsAdmittedOnItsPlansOrOnTheHostPort : Prop :=
    (∀ (id : Nat) (c d : Cmd) (s : State),
      s.cmd? id = some c →
      d = s.asIo c →
      d.waiting 1 = true →
      s.arrivalsHeld (((s.ns c.nsid).parts c.slba c.len).map (·.act)) = false →
      s.offMedia d = true →
      s.hostPasses d (d.len * 4096) = true →
      exec (.read id) s =
        .next ((((s.admitCmd { d with hostModel := true, promised := d.len * 4096 }).readyNow d).openBuf d.id).readDone d.id)) ∧
    (∀ (id : Nat) (c d : Cmd) (ps : List Part) (t u : State) (s : State),
      s.cmd? id = some c →
      ps = (s.ns c.nsid).parts c.slba c.len →
      d = s.asIo c →
      d.waiting 1 = true →
      s.arrivalsHeld (ps.map (·.act)) = false →
      (s.linkLow d.fn && d.len != 0 && !(s.hostPasses d (d.len * 4096))) = false →
      s.offMedia d = false →
      (s.tryParts d (s.epochFor (ps.map (·.act))).1.reserve (ps.map fun p => s.partOp d p true 0) s = (.pass t, u)) →
      exec (.read id) s = .next ((t.startRead d ps).dispatchAll ((ps.map fun p => s.partOp d p true 0).map (·.1))))

/-- A STAGED WRITE whose zone, staging and host-port tests all pass is admitted: its staging is reserved, its data fetch
begins, and a window range is copied. A ZONE_APPEND does the same at the admitted write pointer of its zone. A LANDED WRITE
to a conventional namespace whose parts pass on the plans is admitted there. A next state with its effect is stated here of
write, zoneAppend. (R18, R45, R82) -/
def Obligations.AStagedWriteReservesStagingAndIsAdmitted : Prop :=
    (∀ (id : Nat) (c d : Cmd) (u : State) (s : State),
      s.cmd? id = some c →
      d = s.asWrite 2 c →
      u = s.freeLanded →
      d.waiting 2 = true →
      s.step8 2 d.slba d.len 0 d.nsid = none →
      s.arrivalsHeld (((s.ns d.nsid).parts d.slba d.len).map (·.act)) = false →
      ((s.ns d.nsid).zoned || !s.onDeadHead d) = true →
      d.len ≤ u.stageFree →
      d.dur = false →
      u.hostPasses d (d.len * 4096) = true →
      exec (.write id) s =
        .next (((u.admitWriteCmd { d with hostModel := true, promised := if d.win then 0 else d.len * 4096 }).openBuf d.id).copyWindow d.id).runWaiting) ∧
    (∀ (id : Nat) (c d : Cmd) (u : State) (s : State),
      s.cmd? id = some c →
      d = s.asWrite 3 c →
      u = s.freeLanded →
      d.waiting 3 = true →
      s.step8 3 (d.slba / 65536 * 65536) d.len 0 d.nsid = none →
      s.arrivalsHeld (((s.ns d.nsid).parts d.slba d.len).map (·.act)) = false →
      ((s.ns d.nsid).zoned || !s.onDeadHead d) = true →
      d.len ≤ u.stageFree →
      d.dur = false →
      u.hostPasses d (d.len * 4096) = true →
      exec (.zoneAppend id) s =
        .next (((u.admitWriteCmd { d with hostModel := true, promised := if d.win then 0 else d.len * 4096 }).openBuf d.id).copyWindow d.id).runWaiting) ∧
    (∀ (id : Nat) (c d : Cmd) (ps : List Part) (u t v : State) (s : State),
      s.cmd? id = some c →
      d = s.asWrite 2 c →
      u = s.freeLanded →
      ps = (u.ns d.nsid).parts d.slba d.len →
      d.waiting 2 = true →
      (s.ns d.nsid).zoned = false →
      (u.ns d.nsid).zoned = false →
      s.onDeadHead d = false →
      s.arrivalsHeld (((s.ns d.nsid).parts d.slba d.len).map (·.act)) = false →
      s.step8 2 d.slba d.len 0 d.nsid = none →
      d.len ≤ u.stageFree →
      d.dur = true →
      (u.linkLow d.fn && (if d.win then 0 else d.len * 4096) != 0 && !(u.hostPasses d (if d.win then 0 else d.len * 4096))) = false →
      (u.tryParts d (u.epochFor (ps.map (·.act))).1.reserve (ps.map fun p => u.partOp d p false (u.intentNs d p.act)) u = (.pass t, v)) →
      exec (.write id) s =
        .next ((((t.admitWriteCmd { d with parts := ps, promised := if d.win then 0 else d.len * 4096 }).openBuf d.id).copyWindow d.id).dispatchAll
          ((ps.map fun p => u.partOp d p false (u.intentNs d p.act)).map (·.1))).runWaiting)

/-- A ZONE_MGMT OPEN that step 8 allows makes its zone EXPLICIT_OPEN at admission, closing an implicitly open zone where the
limit needs it; CLOSE makes it CLOSED, or EMPTY when nothing was admitted to it: both complete at once with SUCCESS. FINISH
and RESET whose journal write passes on the plan of the zone's actuator are admitted there and make the admitted state FULL
or EMPTY, the write pointer at the end or the start. A next state with its effect is stated here of zoneOpen, zoneClose,
zoneFinish, zoneReset. (R131, R132) -/
def Obligations.ZoneActionsChangeTheAdmittedState : Prop :=
    (∀ (id : Nat) (c d : Cmd) (s : State),
      s.cmd? id = some c →
      d = s.timed c [s.actOf c.nsid c.slba] →
      d.waiting 4 = true →
      d.act4 = 1 →
      s.step8 4 d.slba 0 1 d.nsid = none →
      s.arrivalsHeld [s.actOf d.nsid d.slba] = false →
      s.hostPasses d 0 = true →
      (let u := (s.admitCmd { d with hostModel := true }).noteOpenCond d 1
       let v := if (u.zone (zoneKey d.nsid d.slba)).adm.isOpen then u else u.implicitClose (u.actOf d.nsid d.slba)
       exec (.zoneOpen id) s =
         .next ((v.changeZone d.nsid d.slba fun z =>
           { z with adm := .explicitOpen, com := if z.com = .full then z.com else .explicitOpen, lastAdm := v.now }).finish id Sts.success 0).runWaiting)) ∧
    (∀ (id : Nat) (c d : Cmd) (s : State),
      s.cmd? id = some c →
      d = s.timed c [s.actOf c.nsid c.slba] →
      d.waiting 4 = true →
      d.act4 = 2 →
      s.step8 4 d.slba 0 2 d.nsid = none →
      s.arrivalsHeld [s.actOf d.nsid d.slba] = false →
      s.hostPasses d 0 = true →
      (let u := (s.admitCmd { d with hostModel := true }).noteOpenCond d 2
       exec (.zoneClose id) s =
         .next ((u.changeZone d.nsid d.slba fun z =>
           { z with
             adm := if z.admWp = 0 then .empty else .closed, lastAdm := u.now,
             com := if z.com = .full then z.com else if z.comWp = 0 then .empty else .closed }).finish id Sts.success 0).runWaiting)) ∧
    (∀ (id : Nat) (c d : Cmd) (s : State),
      s.cmd? id = some c →
      d = s.timed c [s.actOf c.nsid c.slba] →
      d.waiting 4 = true →
      d.act4 = 3 →
      s.step8 4 d.slba 0 3 d.nsid = none →
      s.arrivalsHeld [s.actOf d.nsid d.slba] = false →
      exec (.zoneFinish id) s = .next (s.admitJournal d .full 65536).runWaiting) ∧
    (∀ (id : Nat) (c d : Cmd) (s : State),
      s.cmd? id = some c →
      d = s.timed c [s.actOf c.nsid c.slba] →
      d.waiting 4 = true →
      d.act4 = 4 →
      s.step8 4 d.slba 0 4 d.nsid = none →
      s.arrivalsHeld [s.actOf d.nsid d.slba] = false →
      exec (.zoneReset id) s = .next (s.admitJournal d .empty 0).runWaiting) ∧
    (∀ (c : Cmd) (st : ZState) (wp : Nat) (t v : State) (op : PlanOp) (s : State),
      op = (let p := s.placeOf (s.actOf c.nsid c.slba) reservedRegion 0
         { cmd := c.id, kind := .journal, fn := c.fn, dc := c.dc, milestone := c.milestone.getD 0, arrival := c.arrival,
           allowance := s.partAllowance c (s.actOf c.nsid c.slba), track := p.track, head := p.head, angle := p.angle, spt := p.spt, pos := reservedRegion * 65536,
           count := 1, read := false, slot := false : PlanOp }) →
      s.tryParts c (s.epochFor [s.actOf c.nsid c.slba]).1.reserve [(s.actOf c.nsid c.slba, op)] s = (.pass t, v) →
      (let u := t.admitCmd
         { c with
           parts := [{ act := s.actOf c.nsid c.slba, pos := op.pos, count := 1 }],
           preWp := (t.zone (zoneKey c.nsid c.slba)).admWp, preAdm := (t.zone (zoneKey c.nsid c.slba)).adm, gen := (t.ns c.nsid).nextGen }
       s.admitJournal c st wp =
         (u.modZone (zoneKey c.nsid c.slba) fun z => { z with adm := st, admWp := wp, lastAdm := u.now }).dispatchAll
           [s.actOf c.nsid c.slba]))

/-- A ZONE_REPORT is admitted with the descriptors of at most ARG0 zones from the zone of SLBA on; a RECOVERY_LIST with the
entries of its function, in id order from ARG1, at most ARG0 of them; a CONT_READ of a recovered entry takes the held
sectors pinned for it and opens its buffer; the pins on the sectors of its range, and its place among the readers of the
entry, are made when it has passed its checks and enters the ledger. A next state with its effect is stated here of
zoneReport, recoveryList, contRead. (R90, R92, R93) -/
def Obligations.ReportsAreAdmittedWithTheirDescriptors : Prop :=
    (∀ (id : Nat) (c d : Cmd) (s : State),
      s.cmd? id = some c →
      d = s.timed c [s.actOf c.nsid c.slba] →
      d.waiting 5 = true →
      s.arrivalsHeld [s.actOf d.nsid d.slba] = false →
      exec (.zoneReport id) s =
        .next (s.admitReport d (((List.range (min c.arg0 ((s.ns c.nsid).sectors / 65536 - c.slba / 65536))).map
          (c.slba / 65536 + ·)).flatMap (s.zoneDesc d.nsid)))) ∧
    (∀ (id : Nat) (c d : Cmd) (s : State),
      s.cmd? id = some c →
      d = s.timed c [] →
      d.waiting 0x0A = true →
      exec (.recoveryList id) s =
        .next (s.admitReport d (((((sortBy (fun x y => decide (x.id.toNat ≤ y.id.toNat)) s.recs).filter fun r =>
          r.fn == c.fn && (c.nsid == 0 || r.nsid == c.nsid) && decide (c.arg1 ≤ r.id.toNat)).take d.arg0).flatMap RecEntry.bytes)))) ∧
    (∀ (id : Nat) (c d : Cmd) (s : State),
      s.cmd? id = some c →
      d = s.timed c [] →
      d.waiting 0x0B = true →
      s.hostPasses d (d.len * 4096) = true →
      exec (.contRead id) s =
        .next ((s.admitCmd
          { d with
            hostModel := true, promised := d.len * 4096,
            ready := (s.stage.rslots.filter fun r => r.pins.contains id).map (·.sec.lba) }).openBuf id)) ∧
    (∀ (f q cq sqhd : Nat) (e : Entry) (s : State),
      e.opc = 0x0B →
      ∃ u : State, u = { s with ledger := u.ledger, ldg := u.ldg } ∧
        s.enterLedger f q cq sqhd e =
          (u.mapRec fun (r : RecEntry) => if r.id.toNat == e.arg0 && r.fn == f then { r with readers := r.readers ++ [s.ldg.next] } else r).each
            (((s.recs.filter fun r => r.id.toNat == e.arg0 && r.fn == f).flatMap (·.data)).filter fun x =>
              decide (e.slba ≤ x.lba ∧ x.lba < e.slba + e.len)) fun v x => v.pin s.ldg.next x)

/-- A FLUSH with no staged sector left to make persistent completes when its host-port test passes, with SUCCESS, or with
ABORTED_BY_FLUSH_FAILURE when a sector it covers was lost from staging. An admitted FLUSH completes when no covered sector
is left, with SUCCESS, or with ABORTED_BY_FLUSH_FAILURE when one was lost. An ABORT ends with ABORTED_BY_HOST every command
of its function, its ARG1 SQ and its ARG0 tag that has not reached its waymark, takes the two counts of Table 3.7, and
completes with SUCCESS when no aborted completion is still held. A next state with its effect is stated here of flush,
flushComplete, abort, abortComplete. (R83, R84) -/
def Obligations.FlushAndAbortEndAsTheRulesSay : Prop :=
    (∀ (id : Nat) (c d : Cmd) (ws : List WSlot) (s : State),
      s.cmd? id = some c →
      d = s.timed c [] →
      ws = s.covered c.fn c.nsid c.arrival →
      ((ws.filter fun w => !w.poisoned) = []) →
      d.waiting 8 = true →
      s.hostPasses d 0 = true →
      exec (.flush id) s =
         .next ((s.admitCmd { d with hostModel := true }).finish id
           (if ws.any (·.poisoned) then Sts.abortedByFlushFailure else Sts.success) 0)) ∧
    (∀ (id : Nat) (c : Cmd) (s : State),
      s.cmd? id = some c →
      c.op = 8 →
      c.phase = .admitted →
      c.covered = [] →
      exec (.flushComplete id) s = .next (s.finish id (if c.lost then Sts.abortedByFlushFailure else Sts.success) 0)) ∧
    (∀ (id : Nat) (c : Cmd) (ts : List Cmd) (s : State),
      s.cmd? id = some c →
      c.waiting 9 = true →
      ts = (s.targets c.fn (c.arg1 % 64) (reg32 c.arg0)).filter (·.id != id) →
      exec (.abort id) s =
        .next ((s.modCmd id fun x =>
            { x with
              phase := .admitted, matched := (ts.filter (·.abortable)).length,
              counts := (ts.filter (·.waymark)).length % 65536 * 65536 + (ts.filter (·.abortable)).length }).finishAll
          ((ts.filter (·.abortable)).map (·.id)) Sts.abortedByHost).runWaiting) ∧
    (∀ (id : Nat) (c : Cmd) (s : State),
      s.cmd? id = some c →
      c.op = 9 →
      c.phase = .admitted →
      ((s.ledger.any fun d => d.fn == c.fn && d.sq == c.arg1 % 64 && d.tag == reg32 c.arg0 && d.phase == .heldCpl
        && d.status == some Sts.abortedByHost && d.id < c.id) = false) →
      exec (.abortComplete id) s = .next (s.finish id Sts.success c.counts))

/-- At 20 µs before its deadline an admitted command ends with UNRECOVERED_IN_DEADLINE; the cut-off itself (cutOffs) latches
event 8a + 7 and counts CFG_ADM_CUTOFF for each actuator with an unfinished part, or event 0x5A0 + 16p + 15 on the
host-port model. A held DC7 command is tested again as its own command is. The end of a running band-journal operation
frees its actuator, charges its command with the busy time, and makes a dispatch point. A key unload completes when no
admitted command of the namespaces remains. A Recovery List entry goes 600 s after its last change of state, and fails 60 s
after its creation. A next state with its effect is stated here of deadlineCutoff, read, write, zoneAppend, zoneReport,
flush, recoveryList, contRead, zoneOpen, zoneClose, zoneFinish, zoneReset, dc7Retest, mediaOperationEnd, keyUnloadComplete,
recoveryEntryExpiry, backgroundRecoveryTimeout. (R34, R46, R48, R71, R92, R182) -/
def Obligations.TimeEndsCommandsAndRecoveryEntries : Prop :=
    (∀ (id : Nat) (c : Cmd) (d : Nat) (s : State),
      s.cmd? id = some c →
      c.deadline = some d →
      c.phase = .admitted →
      c.status = none →
      d ≤ s.now + 20000 →
      exec (.deadlineCutoff id) s = .next (s.finish id Sts.unrecoveredInDeadline 0)) ∧
    (∀ (c : Cmd) (s : State),
      s.cutOffs c =
        (if c.hostModel then s.raise (portEvt (portOf c.fn) 15)
         else s.each (s.unfinishedActs c) fun s a =>
           (s.modAdm a fun x => { x with cutoff := x.cutoff + 1 }).raise (actEvt a 7)).fixStatus [c.id] Sts.unrecoveredInDeadline) ∧
    (∀ (id : Nat) (c : Cmd) (s : State),
      s.cmd? id = some c →
      c.phase = .held →
      c.op ≠ 4 ∨ (1 ≤ c.act4 ∧ c.act4 ≤ 4) →
      c.op = 1 ∨ c.op = 2 ∨ c.op = 3 ∨ c.op = 4 ∨ c.op = 5 ∨ c.op = 8 ∨ c.op = 0x0A ∨ c.op = 0x0B →
      (let own : Instr :=
           if c.op = 1 then .read id else if c.op = 2 then .write id else if c.op = 3 then .zoneAppend id else if c.op = 5 then .zoneReport id
           else if c.op = 8 then .flush id else if c.op = 0x0A then .recoveryList id else if c.op = 0x0B then .contRead id
           else if c.act4 = 1 then .zoneOpen id else if c.act4 = 2 then .zoneClose id else if c.act4 = 3 then .zoneFinish id else .zoneReset id
       ∃ u, exec own s = .next u ∧ exec (.dc7Retest id) s = .next (if c.op = 2 ∨ c.op = 3 then u else u.runWaiting))) ∧
    (∀ (a : ActId) (r : PlanOp) (s : State),
      (s.act a.val).adm.running = some r →
      (s.act a.val).fmt.holds r = false →
      (s.act a.val).fmt.cutShort r = none →
      r.kind = .journal →
      r.cmd ≠ 0 →
      r.read = false →
      (let used := s.now - r.start
       let w := s.modAdm a.val fun x => { x with queue := [] ++ x.queue }
       let u := w.modAdm a.val fun x =>
         { x with
           running := none, idleSince := s.now, endTrack := r.track + r.count / r.spt, endHead := r.head,
           workLog := logSpan s.now x.workLog (max x.followAt r.start),
           vtime := if w.weightOf a.val r = 0 then x.vtime
             else Tab.upd (fun _ => 0) x.vtime r.fn (· + used * 256 / w.weightOf a.val r) }
       let v := (u.modFmt a.val fun x =>
         if x.running.any fun q => q.req.cmd == r.cmd && (q.req.opc == 1 || q.req.opc == 3) then { x with running := none } else x).modCfe
           a.val fun x => { x with band := false, bandFirst := false }
       exec (.mediaOperationEnd a) s =
         .next ((v.modCmd r.cmd fun c =>
           { c with
             busyNs := c.busyNs + used, eSpin := c.eSpin + w.spinPj (bayOf a.val) used, eChan := c.eChan + 0,
             parts := c.parts.map fun p => if p.act = a.val ∧ r.kind = .media then { p with moved := p.moved + r.count } else p }).dispatch
           a.val))) ∧
    (∀ (k : Fin 4096) (s : State),
      (s.key k.val).unloading = true →
      ((s.ledger.any fun c => c.wasAdm && c.phase != .heldCpl && c.nsid != 0 && (s.ns c.nsid).keyslot == k.val) = false) →
      exec (.keyUnloadComplete k) s = .next ((s.setKey k.val { s.key k.val with loaded := false, unloading := false }).raise 0x7A1)) ∧
    (∀ (id : BitVec 16) (r : RecEntry) (s : State),
      r ∈ s.recs →
      r.id = id →
      r.st ≠ .pending →
      r.time + 600000000000 ≤ s.now →
      ∃ t, exec (.recoveryEntryExpiry id) s = .next t ∧ t = { s with recs := t.recs } ∧ r ∉ t.recs ∧
        ∀ q ∈ s.recs, q.id ≠ id → q ∈ t.recs) ∧
    (∀ (id : BitVec 16) (r : RecEntry) (s : State),
      (s.recs.find? (·.id == id)) = some r →
      r.st = .pending →
      r.born + 60000000000 ≤ s.now →
      exec (.backgroundRecoveryTimeout id) s =
        .next ((s.each (s.ns r.nsid).actset fun s a => s.modGraze a fun g =>
          { g with pending := g.pending.filter fun o => !(o.order == 5 && o.ref == id.toNat) }).recTo id .failed))

/-- While a port answers configuration requests: clearing Bus Master Enable clears it and latches event 0x5A0 + 16p + 5 when
device reads are outstanding; setting it resumes deliveries and posts held completions; entering D3hot stops the function,
and its return to D0 resumes it. A next state with its effect is stated here of bmeClear, bmeSet, d3hotTransition. (R121,
R57) -/
def Obligations.BusMasterEnableStopsAndResumesAFunction : Prop :=
    (∀ (f : FnId) (s : State),
      s.cfgOk f.val = true →
      (s.fn f.val).bme = true →
      (let t := s.modFn f.val fun x => { x with bme := false }
       exec (.bmeClear f) s = .next (if t.readsOut f.val then t.portFault f.val 5 else t))) ∧
    (∀ (f : FnId) (s : State),
      s.cfgOk f.val = true →
      (s.fn f.val).bme = false →
      exec (.bmeSet f) s = .next ((s.modFn f.val fun x => { x with bme := true }).resume f.val)) ∧
    (∀ (f : FnId) (s : State),
      s.cfgOk f.val = true →
      exec (.d3hotTransition f true) s = .next (s.modFn f.val fun x => { x with d3 := true }) ∧
        exec (.d3hotTransition f false) s = .next ((s.modFn f.val fun x => { x with d3 := false }).resume f.val)) ∧
    (∀ (id : Nat) (c : Cmd) (st : Nat) (s : State),
      s.cmd? id = some c →
      c.status = some st →
      c.silent = false →
      c.noEntry = false →
      c.cqGone = false →
      s.postHeld id =
        (((((s.tallyEnd c st).postEntry c.fn c.cq (c.cpl (s.tallyEnd c st).now Sts.lateHostDisabled
          (at_ 16 (c.result % 2 ^ 16) + st))).raiseFn c.fn 12).ackStaged id).dropCmd id))

/-- A function-level reset resets the function and the VFs it carries and latches event 0x5A0 + 16p + 4. A link that may train
comes up with its width and rate and event 0; one that is up goes down with event 1, or retrains with event 2 and a count.
PERST_N acts as link down on both halves, reloads the port registers, resets the host island and latches event 3; its end
starts training. After L1_IDLE µs of an idle link with no ledger entry, L1 is entered. VF Enable makes the first NumVFs
functions exist, or resets them and takes them away. A next state with its effect is stated here of functionLevelReset,
pcieLinkUp, pcieLinkDown, pcieRetrain, perstAssert, perstDeassert, l1Entry, vfEnableChange. (R113, R122, R123, R96) -/
def Obligations.LinksAndFunctionsAreResetAlone : Prop :=
    (∀ (f : FnId) (s : State),
      s.cfgOk f.val = true →
      exec (.functionLevelReset f) s = .next ((s.flr f.val).raise (portEvt (portOf f.val) 4))) ∧
    (∀ (p : PortId) (half : Bool) (w : BitVec 5) (r : BitVec 3) (s : State),
      (s.port p.val).perst = false →
      (s.half p.val half).up = false →
      s.trains p.val half w.toNat r.toNat = true →
      exec (.pcieLinkUp p half w r) s =
        .next (((s.modHalf p.val half fun l => { l with up := true, width := w, rate := r, lstate := 0, idleSince := s.now, txAt := s.now }).modPort p.val
          fun x => { x with training := false, crs := !(s.boot.running || s.boot.trailhead) }).raise (portEvt p.val 0))) ∧
    (∀ (p : PortId) (half : Bool) (s : State),
      (s.half p.val half).up = true →
      exec (.pcieLinkDown p half) s = .next ((s.linkDown p.val half).raise (portEvt p.val 1))) ∧
    (∀ (p : PortId) (half : Bool) (w : BitVec 5) (r : BitVec 3) (s : State),
      (s.half p.val half).up = true →
      s.trains p.val half w.toNat r.toNat = true →
      exec (.pcieRetrain p half w r) s =
        .next (((s.modHalf p.val half fun l => { l with width := w, rate := r, lstate := 0, idleSince := s.now, txAt := s.now }).modPort p.val
          fun x => { x with retrain := x.retrain + 1 }).raise (portEvt p.val 2))) ∧
    (∀ (p : PortId) (fl : Tab Nat) (s : State),
      (s.port p.val).perst = false →
      (s.port p.val).h0.up = true →
      s.bif p.val = false →
      (let u := (s.modPort p.val fun x => { x with downAt := s.now }).modPort p.val fun x =>
         { x with perst := true, training := false, crs := true }
       exec (.perstAssert p fl) s =
         .next (((((u.linkDown p.val false).modPort p.val PortSt.reload).mapFns fun f x => if portOf f = p.val then { x with aer := {} } else x).peerReset
           (144 + p.val) fl).raise (portEvt p.val 3)))) ∧
    (∀ (p : PortId) (s : State),
      (s.port p.val).perst = true →
      exec (.perstDeassert p) s =
        .next (s.modPort p.val fun x => { x with perst := false, training := true, crs := true, twnSize := s.sizeOf p.val })) ∧
    (∀ (p : PortId) (half sub : Bool) (s : State),
      (s.half p.val half).up = true →
      (s.half p.val half).aspm.getLsbD 1 = true →
      s.linkBusy p.val half = false →
      (s.half p.val half).idleSince + 1000 * max 8 (s.port p.val).l1Idle.toNat ≤ s.now →
      exec (.l1Entry p half sub) s = .next (s.modHalf p.val half fun l => { l with lstate := if sub && (l.l1ss.getLsbD 2 || l.l1ss.getLsbD 3) then 3 else 2 })) ∧
    (∀ (f : FnId) (n : Fin 64) (s : State),
      s.cfgOk f.val = true →
      s.vfsUnder f.val ≠ [] →
      (s.boot.trailhead && f.val == 0) = false →
      (((s.vfsUnder f.val).any fun v => (s.fn v).enabled) = false) →
      exec (.vfEnableChange f true n) s =
        (.next <| (s.modFn f.val fun x => { x with numVfs := BitVec.ofNat 16 n.val }).each ((s.vfsUnder f.val).take n.val) fun s v =>
          (s.modFn v fun x => { x with enabled := true }).modAcc v fun x => { x with enabled := true, partial_ := true })) ∧
    (∀ (f : FnId) (n : Fin 64) (s : State),
      s.cfgOk f.val = true →
      s.vfsUnder f.val ≠ [] →
      (s.boot.trailhead && f.val == 0) = false →
      exec (.vfEnableChange f false n) s = .next (s.vfsOff f.val))

/-- A request of a kind the device never serves is refused with cause 4 whatever else it meets; else a poisoned one with cause
5; else one to a function that decodes no memory requests with cause 9; else a misaligned one with cause 1; else a DIAG
access that may not be made with cause 2; else one of a PF outside the window with cause 3; one that meets none of these is
not refused. A refusal with its cause is logged in HPT_ERRLOG and counted in HPT_URCNT, is recorded in the AER of its
function as Poisoned TLP Received for cause 5 and as Unsupported Request for the others, with the header, latches event 6,
8 (cause 5) or 10 (cause 3), and answers Unsupported Request where the request is not posted; nothing else changes but
TWN_DROP_COUNT, which counts a posted cause 3. A next state with its effect is stated here of refusedRequest. (R111) -/
def Obligations.RefusedRequestsTakeTheFirstCauseInOrder : Prop :=
    (∀ (f : FnId) (u p m d w post : Bool) (hdr : BitVec 128) (s : State),
      exec (.refusedRequest f u p m d w post hdr) s =
        .next (let no (cause : Nat) : State := (s.touch f.val).refuseReq f.val cause post hdr.toNat
          if u then no 4 else if p then no 5 else if (s.fn f.val).d3 || !(s.fn f.val).mse then no 9 else if m then no 1
          else if d && !(s.isSteward f.val && s.diagOpen) then no 2 else if w && isPf f.val then no 3 else s.touch f.val)) ∧
    (∀ (s : State) (f cause hdr : Nat),
      cause = 4 ∨ cause = 9 ∨ cause = 1 ∨ cause = 2 →
      s.refuseReq f cause true hdr = (((s.logPort f cause).modPort (portOf f) fun p => { p with urCnt := p.urCnt + 1, dropCnt := p.dropCnt }).aerLog f 20 false (some hdr)).portFault f 6 ∧
       s.refuseReq f cause false hdr =
        ((((s.logPort f cause).modPort (portOf f) fun p => { p with urCnt := p.urCnt + 1, dropCnt := p.dropCnt }).aerLog f 20 true (some hdr)).emit (.unsupported f)).portFault f 6) ∧
    (∀ (s : State) (f hdr : Nat),
      s.refuseReq f 5 true hdr = (((s.logPort f 5).modPort (portOf f) fun p => { p with urCnt := p.urCnt + 1, dropCnt := p.dropCnt }).aerLog f 12 false (some hdr)).portFault f 8 ∧
       s.refuseReq f 5 false hdr =
        ((((s.logPort f 5).modPort (portOf f) fun p => { p with urCnt := p.urCnt + 1, dropCnt := p.dropCnt }).aerLog f 12 false (some hdr)).emit (.unsupported f)).portFault f 8 ∧
       s.refuseReq f 3 true hdr =
        (((s.logPort f 3).modPort (portOf f) fun p => { p with urCnt := p.urCnt + 1, dropCnt := p.dropCnt + 1 }).aerLog f 20 false (some hdr)).raise (portEvt (portOf f) 10) ∧
       s.refuseReq f 3 false hdr =
        ((((s.logPort f 3).modPort (portOf f) fun p => { p with urCnt := p.urCnt + 1, dropCnt := p.dropCnt }).aerLog f 20 true (some hdr)).emit (.unsupported f)).raise (portEvt (portOf f) 10)) ∧
    (∀ (s : State) (f b hdr : Nat) (adv : Bool),
      ((s.aerLog f b adv (some hdr)).fn f).aer.unc = (s.fn f).aer.unc ||| bit32 b ∧
       ((s.aerLog f b adv (some hdr)).fn f).aer.hdr = BitVec.ofNat 128 hdr) ∧
    (∀ (s : State) (f cause : Nat),
      s.logPort f cause = s.modPort (portOf f) fun p =>
        { p with errValid := true, errCause := BitVec.ofNat 4 cause, errFunc := BitVec.ofNat 6 (f % 64) })

/-- A BAR2 write inside the window in force is taken line by line at BASE + offset; a read first writes out the merge entries
of its range and returns the bytes there. While a switch is pending, requests are held. A commit of a window that fits sets
PEND; one that does not sets REJ and latches event 11; a write to TWN_COMMIT while PEND is set only sets WIGN. The switch
copies the pending window, counts, clears PEND, latches event 9, and then decodes the held requests in order and lets the
window copies that waited for them go. A next state with its effect is stated here of bar2Write, bar2Read, twnCommit,
windowSwitch, glbStewardWrite. (R114, R115, R116, R117) -/
def Obligations.TheTransitWindowMapsStoresAndSwitches : Prop :=
    (∀ (p : PortId) (off : BitVec 36) (data : List Byte) (s : State),
      (s.fn (64 * p.val)).mse = true →
      (s.fn (64 * p.val)).d3 = false →
      (s.port p.val).pend = false →
      (s.port p.val).wcur.en = true →
      off.toNat + data.length ≤ (s.port p.val).wcur.limit + 1 →
      s.bar2Size p.val ≠ 0 →
      exec (.bar2Write p off data) s =
        .next (State.ramStore data.length ((s.touch (64 * p.val)).missOn (8 + p.val)
          (linesIn ((s.port p.val).wcur.base + off.toNat) data.length)) ((s.port p.val).wcur.base + off.toNat) data)) ∧
    (∀ (p : PortId) (off : BitVec 36) (len : Fin 4097) (s : State),
      (s.fn (64 * p.val)).mse = true →
      (s.fn (64 * p.val)).d3 = false →
      (s.port p.val).pend = false →
      (s.port p.val).wcur.en = true →
      off.toNat + len.val ≤ (s.port p.val).wcur.limit + 1 →
      s.bar2Size p.val ≠ 0 →
      (let k := (s.port p.val).wcur.base + off.toNat
       let t := ((s.touch (64 * p.val)).missOn (8 + p.val) (linesIn k len.val)).settle k len.val
       exec (.bar2Read p off len) s = .next (t.emit (.bar2Data p.val (ramBytes t.ram k len.val))))) ∧
    (∀ (f : FnId) (val : Word) (s : State),
      s.mmio f.val = true →
      isPf f.val = true →
      s.boot.trailhead = false →
      s.glb.lck.getLsbD 2 = false →
      (let t := s.touch f.val
       let p := portOf f.val
       exec (.twnCommit f val) s =
         .next (if (t.port p).pend then t.modPort p fun x => { x with wign := true }
           else if val.getLsbD 0 = false then t
           else if t.windowFits p (t.port p).wpend then t.modPort p fun x => { x with pend := true }
           else (t.modPort p fun x => { x with rej := true }).raise (portEvt p 11)))) ∧
    (∀ (p : PortId) (s : State),
      (s.port p.val).pend = true →
      exec (.windowSwitch p) s =
        .next (let v := (s.modPort p.val fun x =>
              { x with wcur := x.wpend, switchCnt := x.switchCnt + 1, pend := false, held := [] }).raise (portEvt p.val 9)
          let u := v.each (s.port p.val).held fun s t => s.decodeBar2 p.val t
          State.each u ((u.ledger.filter fun c =>
            c.win && c.takesData && !c.fetched && c.phase == .admitted && portOf c.fn == p.val).map (·.id)) fun s id => s.copyWindow id)) ∧
    (∀ (f : FnId) (val : Word) (s : State),
      s.stewardMmio f.val = true →
      s.boot.trailhead = false →
      s.glb.lck.getLsbD 0 = false →
      val.toNat % 4 ≠ s.glb.steward.toNat →
      (s.touch f.val).stewardReady (val.toNat % 4) = true →
      exec (.glbStewardWrite f val) s = .next ((s.touch f.val).moveSteward (val.toNat % 4)))

/-- A completion that matches an outstanding read of a live command fills the list segment or the staged data it is for. An
error completion logs cause 7, latches event 0x5A0 + 16p + 8 and ends the command with HOST_DATA_ERROR; a time-out logs
cause 6, counts CTO_CNT, latches event 7 and does the same. One for a read of a command that has ended is discarded; one
that matches nothing logs cause 8 as an Unexpected Completion. A decoded sector whose CRC is right is delivered; one whose
CRC fails before any replay counts MISCORR and CHKFAIL and goes to rung 2. A next state with its effect is stated here of
hostDataCompletion, hostCompletionTimeout, sectorDelivery. (R112, R174, R126, R185) -/
def Obligations.ADataCompletionIsMatchedOrLogged : Prop :=
    (∀ (f : FnId) (id : Nat) (list : Bool) (data : List Byte) (r : RdReq) (c : Cmd) (u : State) (s : State),
      (s.fn f.val).read? id list = some r →
      data ≠ [] →
      data.length ≤ r.left →
      list = true → data.length = r.left →
      (u = (s.touch f.val).modFn f.val fun x => { x with rdOut := takeRead id list data.length x.rdOut }) →
      u.cmd? id = some c →
      c.phase ≠ .heldCpl →
      exec (.hostDataCompletion f id list false data) s = .next (if list then u.segmentIn c data else u.dataIn c data)) ∧
    (∀ (f : FnId) (id : Nat) (list : Bool) (data : List Byte) (r : RdReq) (c : Cmd) (u : State) (s : State),
      (s.fn f.val).read? id list = some r →
      (u = (s.touch f.val).modFn f.val fun x => { x with rdOut := takeRead id list r.left x.rdOut }) →
      u.cmd? id = some c →
      c.phase ≠ .heldCpl →
      exec (.hostDataCompletion f id list true data) s = .next (((u.logPort f.val 7).portFault f.val 8).readFailed id)) ∧
    (∀ (f : FnId) (id : Nat) (list : Bool) (data : List Byte) (r : RdReq) (u : State) (s : State),
      (s.fn f.val).read? id list = some r →
      s.cmd? id = none →
      (u = (s.touch f.val).modFn f.val fun x => { x with rdOut := takeRead id list r.left x.rdOut }) →
      exec (.hostDataCompletion f id list true data) s = .next u) ∧
    (∀ (f : FnId) (id : Nat) (list failed : Bool) (data : List Byte) (s : State),
      (s.fn f.val).read? id list = none →
      exec (.hostDataCompletion f id list failed data) s =
        .next ((((s.touch f.val).logPort f.val 8).aerLog f.val 16 true none).portFault f.val 8)) ∧
    (∀ (f : FnId) (id : Nat) (c : Cmd) (s : State),
      (((s.fn f.val).rdOut.any fun r => r.id == id && decide (r.at_ + s.ctoNs f.val ≤ s.now)) = true) →
      s.cmd? id = some c →
      c.phase ≠ .heldCpl →
      (let t := s.modFn f.val fun x => { x with rdOut := x.rdOut.filter fun r => !(r.id == id && decide (r.at_ + s.ctoNs f.val ≤ s.now)) }
       exec (.hostCompletionTimeout f id) s =
         .next ((((t.logPort f.val 6).modPort (portOf f.val) fun p => { p with ctoCnt := p.ctoCnt + 1 }).portFault f.val 7).readFailed id))) ∧
    (∀ (id lba : Nat) (c : Cmd) (r : RSlot) (s : State),
      s.cmd? id = some c →
      c.op = 1 ∨ c.op = 0x0B →
      c.phase = .admitted →
      c.ready.contains lba = true →
      s.pastCutoff c = false →
      (s.fn c.fn).bme = true →
      (s.fn c.fn).d3 = false →
      (lba - c.slba + 1) * 4096 ≤ c.bufLen →
      s.pinned id c.nsid lba = some r →
      exec (.sectorDelivery id lba r.sec.crc) s =
        .next ((s.dropSamples (s.actOf c.nsid lba) id (secKey c.nsid lba)).deliver c lba r.sec true)) ∧
    (∀ (id lba : Nat) (crc : BitVec 64) (c : Cmd) (r : RSlot) (e : Retain) (s : State),
      s.cmd? id = some c →
      c.op = 1 ∨ c.op = 0x0B →
      c.phase = .admitted →
      c.ready.contains lba = true →
      s.pastCutoff c = false →
      (s.fn c.fn).bme = true →
      (s.fn c.fn).d3 = false →
      (lba - c.slba + 1) * 4096 ≤ c.bufLen →
      s.pinned id c.nsid lba = some r →
      s.samples (s.actOf c.nsid lba) id (secKey c.nsid lba) = some e →
      crc ≠ r.sec.crc →
      e.replayMax = 0 →
      e.rung < 2 →
      exec (.sectorDelivery id lba crc) s =
        .next ((((s.modCmd id fun x => { x with ready := x.ready.filter (· != lba) }).modPool fun p =>
          { p with miscorr := p.miscorr + 1 }).modCfe (s.actOf c.nsid lba) fun x => { x with chkfail := x.chkfail + 1 }).startReplays
            (s.actOf c.nsid lba) e))

/-- A counter at ATI_LIMIT queues one refresh of its group as grazing of order 7; at twice the limit the group is held and its
refresh becomes order 3. 60 s after the last checkpoint the counters and the figures of each head are copied to the
checkpoint, which is written as a record. A next state with its effect is stated here of atiLimitReached, atiHoldLimit,
atiCheckpoint. (R146, R147, R148) -/
def Obligations.AdjacentTrackCountersRefreshAndHold : Prop :=
    (∀ (a : ActId) (g : Nat) (s : State),
      (s.bay (bayOf a.val)).link.atiLimit ≤ (s.act a.val).med.atiOf g →
      (((s.act a.val).graze.pending.any fun o => (o.order == 3 || o.order == 7) && o.ref == g) = false) →
      exec (.atiLimitReached a g) s = .next (s.queueRefresh a.val g 7)) ∧
    (∀ (a : ActId) (g : Nat) (s : State),
      2 * (s.bay (bayOf a.val)).link.atiLimit ≤ (s.act a.val).med.atiOf g →
      (s.act a.val).med.atiHeld.contains g = false →
      exec (.atiHoldLimit a g) s =
        .next ((s.modMed a.val fun m => { m with atiHeld := m.atiHeld ++ [g] }).queueRefresh a.val g 3)) ∧
    (∀ (s : State) (a g order : Nat),
      order = 3 ∨ order = 7 →
      (let w := s.refreshSpan a g
       let op : GrazeOp := { order := order, head := (s.placeOf a (w.1 / 65536) 0).head, pos := w.1, count := w.2, ref := g }
       s.queueRefresh a g order =
         s.modGraze a fun x =>
           { x with pending := (x.pending.filter fun o => !((o.order == 3 || o.order == 7) && o.ref == g)) ++ [op] })) ∧
    (∀ (a : ActId) (s : State),
      (s.act a.val).med.ckptAt + 60000000000 ≤ s.now →
      s.boot.postStop = false →
      exec (.atiCheckpoint a) s =
        .next (((s.modMed a.val fun m => { m with atiCkpt := m.ati, atiCkptBase := m.atiBase, ckptAt := s.now }).putRecords a.val [3]).modAct a.val fun x =>
          { x with heads := x.heads.map fun r => (r.1, { r.2 with ckWrite := r.2.writeNs, ckIdle := r.2.idleNs, ckEnergy := r.2.energy }) }))

/-- A MEDIA_FORMAT of the steward with valid fields and no bar enters an operation with the next operation number and answers
it with REASON 0; a namespace takes its FORMATTING state. A waiting format starts once every command of its namespace has
completed. MEDIA_FORMAT_STATUS answers STATE, DONE and TOTAL of an operation the requester may see, and STATE 4 for any
other number. A next state with its effect is stated here of mediaFormatNamespace, mediaFormatActuator, formatStart,
mediaFormatStatus. (R149, R150, R151) -/
def Obligations.FormatsEnterWaitAndReport : Prop :=
    (∀ (r : Requester) (p : List Byte) (n : Nat) (s : State),
      s.request (mbxOf r) 0x0510 = some p →
      byteAt p 0 = 1 →
      s.fromSteward r = true →
      reservedZero p [(0, 1), (2, 2)] = true →
      n = fieldAt p 2 2 →
      0 < n →
      n ≤ 4096 →
      (s.ns n).present = true →
      ((s.fmts.any fun o => o.nsFmt && o.nsid == n && o.st != 3) = false) →
      s.sanRunning n = false →
      exec (.mediaFormatNamespace r) s =
        .next (((s.modNs n fun x => { x with formatting := true }).refreshNs).enterFormat (mbxOf r)
          { nsFmt := true, nsid := n, total := (s.ns n).actset.length * (((s.ns n).perAct + 3) / 4) })) ∧
    (∀ (r : Requester) (p : List Byte) (s : State),
      s.request (mbxOf r) 0x0510 = some p →
      byteAt p 0 = 2 →
      s.fromSteward r = true →
      reservedZero p [(0, 1), (1, 1), (4, 1)] = true →
      byteAt p 4 < 144 →
      0 < byteAt p 1 →
      byteAt p 1 ≤ 10 →
      s.formatting (byteAt p 4) = false →
      s.carriesNs (byteAt p 4) = false →
      ((s.act (byteAt p 4)).med.landing.any (·.st == .live)) = false →
      exec (.mediaFormatActuator r) s =
        .next (s.enterFormat (mbxOf r)
          { nsFmt := false, act := byteAt p 4, convPct := byteAt p 1, total := (s.bay (bayOf (byteAt p 4))).link.recZones })) ∧
    (∀ (s : State) (k : Nat) (o : FmtOp),
      s.enterFormat k o =
        { s with fmts := s.fmts ++ [{ o with id := s.opNext }], opNext := s.opNext + 1 }.respond k (leBytes 4 s.opNext ++ leBytes 2 0)) ∧
    (∀ (id : Nat) (o : FmtOp) (s : State),
      ((s.fmts.find? fun o => o.id == id && o.st == 0) = some o) →
      o.nsFmt = true →
      ((s.ledger.any fun c => c.nsid == o.nsid && c.phase != .heldCpl) = false) →
      exec (.formatStart id) s =
        .next (((s.mapFmt fun x => if x.id = id then
          { x with st := if (s.formatActs o).any fun a => !(s.bay (bayOf a)).link.present then 2 else 1 } else x).clearNs o.nsid).queueFormat o)) ∧
    (∀ (id : Nat) (o : FmtOp) (s : State),
      ((s.fmts.find? fun o => o.id == id && o.st == 0) = some o) →
      o.nsFmt = false →
      exec (.formatStart id) s =
        .next ((let t := s.mapFmt fun x => if x.id = id then
            { x with st := if (s.formatActs o).any fun a => !(s.bay (bayOf a)).link.present then 2 else 1 } else x
          if 2 ≤ (t.bay (bayOf o.act)).link.media.toNat ∧ (t.bay (bayOf o.act)).link.media.toNat ≤ 5 then t.setMedia (bayOf o.act) 7
          else t).queueFormat o)) ∧
    (∀ (r : Requester) (p : List Byte) (o : FmtOp) (s : State),
      s.request (mbxOf r) 0x0511 = some p →
      ((s.fmts.find? fun o => o.id == fieldAt p 0 4 && s.seesFormat r o) = some o) →
      reservedZero p [(0, 4)] = true →
      exec (.mediaFormatStatus r) s =
        .next (s.respond (mbxOf r) (leBytes 1 o.st ++ leBytes 3 0 ++ leBytes 4 o.done ++ leBytes 4 o.total))) ∧
    (∀ (r : Requester) (p : List Byte) (s : State),
      s.request (mbxOf r) 0x0511 = some p →
      ((s.fmts.find? fun o => o.id == fieldAt p 0 4 && s.seesFormat r o) = none) →
      exec (.mediaFormatStatus r) s = .next (s.respond (mbxOf r) (leBytes 1 4 ++ leBytes 11 0)))

/-- In a window of w bits either side with threshold thr, let an SM1 hit of the window be accepted when its e is not negative
or SM2 has a hit within 2 bits of e. The sector is framed from SM1 at the accepted hit before which no hit is accepted,
with its first codeword bit at the hit position + 128. With no accepted hit it is framed from the SM2 hit of the window
nearest e = 0, the earlier of two as near, with its first codeword bit at the hit position + 32. With neither it is not
framed. (R163, R164) -/
def Obligations.FramingTakesTheFirstAcceptedHit : Prop :=
    (∀ (w : Int) (thr : Nat) (sm1 sm2 : List Hit) (h : Hit),
      h ∈ sm1 →
      h.dist ≤ thr →
      -w ≤ h.e →
      h.e ≤ w →
      (0 ≤ h.e ∨ ∃ m ∈ sm2, m.dist ≤ thr ∧ -2 ≤ m.e - h.e ∧ m.e - h.e ≤ 2) →
      (∀ k ∈ sm1, k.dist ≤ thr → -w ≤ k.e → k.e < h.e → k.e < 0 ∧ ∀ m ∈ sm2, m.dist ≤ thr → m.e - k.e < -2 ∨ 2 < m.e - k.e) →
      (frameIn w thr sm1 sm2).ok = true ∧ (frameIn w thr sm1 sm2).sm2 = false ∧ (frameIn w thr sm1 sm2).first = 48 + h.e + 128) ∧
    (∀ (w : Int) (thr : Nat) (sm1 sm2 : List Hit) (m : Hit),
      m ∈ sm2 →
      m.dist ≤ thr →
      -w ≤ m.e →
      m.e ≤ w →
      (∀ k ∈ sm2, k.dist ≤ thr → -w ≤ k.e → k.e ≤ w → m.e.natAbs < k.e.natAbs ∨ m.e.natAbs = k.e.natAbs ∧ m.e ≤ k.e) →
      (∀ k ∈ sm1, k.dist ≤ thr → -w ≤ k.e → k.e ≤ w → k.e < 0 ∧ ∀ m ∈ sm2, m.dist ≤ thr → m.e - k.e < -2 ∨ 2 < m.e - k.e) →
      (frameIn w thr sm1 sm2).ok = true ∧ (frameIn w thr sm1 sm2).sm2 = true ∧ (frameIn w thr sm1 sm2).first = 144 + m.e + 32) ∧
    (∀ (w : Int) (thr : Nat) (sm1 sm2 : List Hit),
      (∀ m ∈ sm2, m.dist ≤ thr → m.e < -w ∨ w < m.e) →
      (∀ k ∈ sm1, k.dist ≤ thr → -w ≤ k.e → k.e ≤ w → k.e < 0 ∧ ∀ m ∈ sm2, m.dist ≤ thr → m.e - k.e < -2 ∨ 2 < m.e - k.e) →
      (frameIn w thr sm1 sm2).ok = false)

/-- A sector of the running read routine is framed and counts as done. Taps at their clamp for 256 sectors return to their
start, count a tap version, latch event 8a + 2 and mark the head. A detection notice, at least 4.0 µs after the sector's
last pad, makes a framed sector's attempt enter the pool 0.40 µs later. At an iteration boundary, at least 0.40 µs after
the last, the engine's attempt runs its iteration and the pool dispatches. Re-detection LLRs enter once their boundary is
reached. A replay is finished 10.0 µs after it began: it counts, and its attempt enters the pool; the routine ends with the
last replay. A next state with its effect is stated here of sectorFraming, tapClampLimit, detectionNotice,
iterationBoundary, roundRedetectionDone, replayLlrsReady. (R162, R164, R172, R173, R177, R180) -/
def Obligations.DetectedSectorsEnterTheDecoderPool : Prop :=
    (∀ (a : ActId) (key : Nat) (sm1 sm2 : List Hit) (r0 r1 : List (BitVec 6)) (r : Routine) (s : State),
      (s.act a.val).fmt.running = some r →
      r.req.opc = 1 ∨ r.req.opc = 3 →
      r.req.keys.contains key = true →
      exec (.sectorFraming a key sm1 sm2 { r0 := r0, r1 := r1 }) s =
        .next ((s.modFmt a.val fun f => { f with running := some { r with done := r.done + 1 } }).frameSector a.val key r.req sm1 sm2 r0 r1)) ∧
    (∀ (a : ActId) (h : HeadId) (s : State),
      256 ≤ (s.head a.val h.val).tapClamp →
      exec (.tapClampLimit a h) s =
        .next ((((s.modHead a.val h.val fun x => { x with tapClamp := 0, taps := [] }).modCfe a.val fun c =>
          { c with tapVer := c.tapVer + 1 }).raise (actEvt a.val 2)).wantChanCal a.val h.val)) ∧
    (∀ (a : ActId) (cmd key : Nat) (e : Retain) (c : Cmd) (s : State),
      s.samples a.val cmd key = some e →
      e.noticed = false →
      e.framed = true →
      e.kTot ≤ e.k →
      s.cmd? cmd = some c →
      e.padAt + 4000 ≤ s.now →
      exec (.detectionNotice a cmd key) s =
        .next (((s.modSamples a.val cmd key fun x => { x with noticed := true }).enterPool
          (s.attemptOf a.val e false 0 e.first) (s.now + 400)))) ∧
    (∀ (e : Fin 64) (zero : Bool) (out : DecOut) (taps : TapSet) (x : Attempt) (s : State),
      s.jobOf e.val = some x →
      (s.eng e.val).iterAt + 400 ≤ s.now →
      exec (.iterationBoundary e zero out taps) s = .next (((s.iterate e.val x zero out taps).leaveIsland e.val).dispatchPool)) ∧
    (∀ (e : Nat) (x : Attempt) (out : DecOut) (taps : TapSet) (s : State),
      x.cls = 1 →
      s.iterate e x true out taps =
        (((s.chargeDec x.cmd 1 0).modAttempt x.id fun _ => { x with iters := x.iters + 1 }).modEng e fun g =>
          { g with iterAt := (s.chargeDec x.cmd 1 0).now }).converged { x with iters := x.iters + 1 } out taps) ∧
    (∀ (e : Fin 64) (x : Attempt) (n : Nat) (s : State),
      s.jobOf e.val = some x →
      x.redAt = some n →
      n ≤ x.iters →
      exec (.roundRedetectionDone e) s =
        .next (s.modAttempt x.id fun y =>
          { y with
            redAt := none, rounds := y.rounds + 1,
            soft := ((s.samples x.act x.cmd x.key).map fun e => s.detect x.act e x.target x.first (x.rounds + 1)).getD y.soft })) ∧
    (∀ (a : ActId) (sm1 sm2 : List Hit) (r : Routine) (e : Retain) (s : State),
      (s.act a.val).fmt.running = some r →
      r.req.opc = 2 →
      r.startAt + 10000 ≤ s.now →
      s.samples a.val r.req.cmd (r.req.keys.headD 0) = some e →
      (let t := (s.modSamples a.val r.req.cmd (r.req.keys.headD 0) fun x => { x with replays := e.replays + 1 }).chargeDec r.req.cmd 0 1
       let u := if e.replayMax ≤ e.replays + 1 then (t.modFmt a.val fun f => { f with running := none }).fillQueue a.val
         else t.modFmt a.val fun f => { f with running := some { r with startAt := r.startAt + 10000 } }
       let k := e.setting (min 8 u.cfg.smThresh.toNat) e.replays sm1 sm2
       exec (.replayLlrsReady { act := a, sm1 := sm1, sm2 := sm2 }) s = .next (u.enterPool (u.attemptOf a.val e true k.1 k.2) (r.startAt + 10000))))

/-- A failing self-test counts the engine's failure and CFG_DEC_SELFCHK and retires it; retiring restarts its attempt, latches
events 0x700 + i and 0x710 and dispatches. A pass returns a withheld engine, and an engine reset with its island latches
its events. DECODER_CTRL of the steward retires an engine when the slots held leave the margin, at once when it is idle and
at the end of its iteration when it is not, and answers a retest later; any function's other request is refused with REASON
5. A next state with its effect is stated here of decoderSelfTest, decoderRetire, decoderRetest, decoderStatus. (R184,
R185, R187) -/
def Obligations.EnginesAreTestedRetiredAndReturned : Prop :=
    (∀ (e : Fin 64) (memory : Bool) (s : State),
      (s.eng e.val).state = 0 ∨ (s.eng e.val).state = 4 →
      (s.isl (148 + e.val / 4)).reset = false →
      memory = true ∨ (s.eng e.val).job = none →
      exec (.decoderSelfTest e memory false) s =
        .next (((s.modPool fun p => { p with chkFails := satInc8 p.chkFails, chkLast := BitVec.ofNat 6 e.val }).modEng e.val fun g =>
          { g with fails := g.fails + 1 }).retireEngine e.val 1)) ∧
    (∀ (e st : Nat) (s : State),
      s.retireEngine e st =
        (((((s.restartJob e).modEng e fun g => { g with state := st }).raise (0x700 + e / 4)).raise 0x710).dispatchPool)) ∧
    (∀ (e : Fin 64) (s : State),
      (s.eng e.val).state = 0 →
      (s.isl (148 + e.val / 4)).reset = false →
      (s.eng e.val).job = none →
      exec (.decoderSelfTest e false true) s = .next ((s.modEng e.val fun x => { x with state := 0, testAt := s.now }).dispatchPool)) ∧
    (∀ (r : Requester) (p : List Byte) (s : State),
      s.request (mbxOf r) 0x0610 = some p →
      byteAt p 0 = 1 →
      s.fromSteward r = true →
      decoderFields p = true →
      s.slotsHeld ≤ decodeSlots (s.enginesIn - 2) →
      (s.eng (byteAt p 1 % 64)).state = 0 →
      (s.eng (byteAt p 1 % 64)).job = none →
      exec (.decoderRetire r) s =
        .next ((s.retireEngine (byteAt p 1 % 64) 2).decoderReply (mbxOf r) 0 (byteAt p 1 % 64))) ∧
    (∀ (r : Requester) (p : List Byte) (s : State),
      s.request (mbxOf r) 0x0610 = some p →
      byteAt p 0 = 1 →
      s.fromSteward r = true →
      decoderFields p = true →
      s.slotsHeld ≤ decodeSlots (s.enginesIn - 2) →
      (s.eng (byteAt p 1 % 64)).state = 0 →
      (s.eng (byteAt p 1 % 64)).job ≠ none →
      exec (.decoderRetire r) s =
        .next ((s.modEng (byteAt p 1 % 64) fun g => { g with state := 2, leaving := true }).decoderReply (mbxOf r) 0 (byteAt p 1 % 64))) ∧
    (∀ (r : Requester) (p : List Byte) (s : State),
      s.request (mbxOf r) 0x0610 = some p →
      byteAt p 0 = 2 →
      s.fromSteward r = true →
      decoderFields p = true →
      (s.eng (byteAt p 1 % 64)).fails < 3 →
      exec (.decoderRetest r) s =
        .next ((((s.restartJob (byteAt p 1 % 64)).modEng (byteAt p 1 % 64) fun g => { g with state := 3 }).dispatchPool).modMbx (mbxOf r)
          fun m => { m with owed := some (.deRetest (byteAt p 1 % 64)) })) ∧
    (∀ (r : Requester) (p : List Byte) (s : State),
      s.request (mbxOf r) 0x0610 = some p →
      byteAt p 0 = 3 →
      s.seesAll r = true →
      decoderFields p = true →
      exec (.decoderStatus r) s = .next (s.decoderReply (mbxOf r) 0 (byteAt p 1 % 64))) ∧
    (∀ (f : FnId) (p : List Byte) (s : State),
      s.isSteward f.val = false →
      s.request f.val 0x0610 = some p →
      (byteAt p 0 = 1 → exec (.decoderRetire (.fn f)) s = .next (s.decoderReply f.val 5 (byteAt p 1 % 64))) ∧
       (byteAt p 0 = 2 → exec (.decoderRetest (.fn f)) s = .next (s.decoderReply f.val 5 (byteAt p 1 % 64))) ∧
       (byteAt p 0 = 3 → exec (.decoderStatus (.fn f)) s = .next (s.decoderReply f.val 5 (byteAt p 1 % 64))))

/-- The front command of the formatter queue, when its opcode is valid and the sequencer is free, not held and not in reset,
starts its routine: a read and an averaged read remember their reference track, a replay only starts, a write opens the
write gate on its head and takes up the waymark count of the sectors it resumes after. A command with an invalid entry or
an unlisted opcode counts CFG_WRT_ABANDON and ends its host command with UNRECOVERED_IN_DEADLINE. A next state with its
effect is stated here of readRun, readReplay, readAverage, writeConv, writeBand, writeLanding, romFaultRoutine. (R180,
R191, R195, R199, R205, R139) -/
def Obligations.RoutinesStartFromTheDispatchQueue : Prop :=
    (∀ (a : ActId) (q : FmtCmd) (s : State),
      s.nextRoutine a.val 1 = some q →
      (let c := (s.act a.val).cfe
       let g := s.gaitNow (bayOf a.val)
       let inBand := decide (2 ^ 20 ≤ q.pos / 65536 ∧ q.pos / 65536 < 2 ^ 21)
       let prev := q.pos % 65536 / q.spt != 0 && c.refTrack == some (q.track - 1) && c.refHead == q.head && c.refGait == g
       exec (.readRun a) s =
         .next ((s.startRoutine a.val q).modCfe a.val fun c =>
           { c with band := inBand && prev, bandFirst := inBand && prev, refTrack := some (q.track + (q.count - 1) / q.spt), refHead := q.head, refGait := g }))) ∧
    (∀ (a : ActId) (q : FmtCmd) (s : State),
      s.nextRoutine a.val 2 = some q →
      exec (.readReplay a) s = .next (s.startRoutine a.val q)) ∧
    (∀ (a : ActId) (q : FmtCmd) (s : State),
      s.nextRoutine a.val 3 = some q →
      exec (.readAverage a) s =
        .next ((s.startRoutine a.val q).modCfe a.val fun c =>
          { c with band := false, bandFirst := false, refTrack := some q.track, refHead := q.head, refGait := s.gaitNow (bayOf a.val) })) ∧
    (∀ (s : State) (a : Nat) (q : FmtCmd),
      s.startRoutine a q =
        (s.popFmt a).modFmt a fun f =>
          { f with
            running := some { req := q, startAt := s.now, mark := q.mark, addr := (s.dispatchEntry a q.opc).addr },
            resume := if q.mark.isSome then f.resume + 1 else f.resume }) ∧
    (∀ (a : ActId) (q : FmtCmd) (s : State),
      s.nextRoutine a.val 0x10 = some q →
      exec (.writeConv a) s =
        .next ((((s.startRoutine a.val q).openGate a.val q).modCfe a.val fun c =>
          { c with band := false, refTrack := none }).modFmt a.val fun f => { f with count := BitVec.ofNat 16 q.prior })) ∧
    (∀ (a : ActId) (q : FmtCmd) (s : State),
      s.nextRoutine a.val 0x11 = some q →
      exec (.writeBand a) s =
        .next ((((s.startRoutine a.val q).openGate a.val q).modCfe a.val fun c =>
          { c with band := false, refTrack := none }).modFmt a.val fun f => { f with count := BitVec.ofNat 16 q.prior })) ∧
    (∀ (a : ActId) (q : FmtCmd) (s : State),
      s.nextRoutine a.val 0x12 = some q →
      exec (.writeLanding a) s =
        .next ((((s.startRoutine a.val q).openGate a.val q).modCfe a.val fun c =>
          { c with band := false, refTrack := none }).modFmt a.val fun f => { f with count := BitVec.ofNat 16 q.prior })) ∧
    (∀ (a : ActId) (q : FmtCmd) (t : List FmtCmd) (c : Cmd) (s : State),
      (s.act a.val).fmt.queue = q :: t →
      s.validOpc a.val q.opc = false →
      (s.act a.val).fmt.running = none →
      (s.act a.val).fmt.hold = false →
      (s.isl a.val).reset = false →
      s.cmd? q.cmd = some c →
      c.dc ≠ 7 →
      (let u := ((s.popFmt a.val).modFmt a.val fun f => { f with abandon := f.abandon + 1 }).modAdm a.val fun x =>
         { x with running := x.running.filter fun o => !(o.cmd == q.cmd && o.pos == q.pos && BitVec.ofNat 8 o.opcode == q.opc) }
       exec (.romFaultRoutine a) s = .next (u.finish c.id Sts.unrecoveredInDeadline 0)))

/-- When the next commit group's write, acknowledgement and journal records are there, its waymark passes; with the last group
the routine ends and its command is updated. A record routine writes intent records, a zone record or the journal. A
journal buffer unwritten for 10 s is queued as grazing. A waiting host routine resumes when its sequencer may. A squeeze
check counts and clears the request, and keeps the sources of a failed track. Each feedback sample charges the sector and
steps the drive code. A next state with its effect is stated here of waymarkPassed, writeRecord, journalWriteDue,
routineRestart, squeezeCheck, assistFeedback. (R195, R197, R198, R206, R209) -/
def Obligations.WritesPassWaymarksAndRestart : Prop :=
    (∀ (a : ActId) (r : Routine) (u v : State) (s : State),
      (s.act a.val).fmt.running = some r →
      r.req.opc = 0x10 ∨ r.req.opc = 0x11 ∨ r.req.opc = 0x12 →
      u = s.cutOff r.req.cmd →
      r.req.cmd = 0 ∨ u.cmd? r.req.cmd ≠ none →
      u.intentsWritten a.val r.req (u.group a.val r.req r.done).1 = true →
      (u.group a.val r.req r.done).1 ≠ [] →
      v = u.passWaymark a.val r (u.group a.val r.req r.done).1 (u.group a.val r.req r.done).2 →
      r.req.keys.length ≤ ((v.act a.val).fmt.running.getD r).done →
      exec (.waymarkPassed a) s = .next ((v.endWrite a.val).afterWrite a.val r.req.cmd)) ∧
    (∀ (a : ActId) (r : Routine) (s : State),
      (s.act a.val).fmt.running = some r →
      r.req.opc = 0x10 ∨ r.req.opc = 0x11 ∨ r.req.opc = 0x12 →
      r.req.cmd ≠ 0 →
      s.cmd? r.req.cmd = none →
      exec (.waymarkPassed a) s = .next ((s.endWrite a.val).modFmt a.val fun f => { f with abandon := f.abandon + 1 })) ∧
    (∀ (a : ActId) (q : FmtCmd) (s : State),
      s.nextRoutine a.val 0x13 = some q →
      q.keys ≠ [] →
      exec (.writeRecord a) s =
        .next ((((s.popFmt a.val).modCfe a.val fun c => { c with band := false, refTrack := none }).intentRecs a.val q.keys).putRecords
          a.val [1])) ∧
    (∀ (a : ActId) (q : FmtCmd) (u : State) (s : State),
      s.nextRoutine a.val 0x13 = some q →
      q.keys = [] →
      (u = (s.popFmt a.val).modCfe a.val fun c => { c with band := false, refTrack := none }) →
      (∀ c, u.cmd? q.cmd = some c → c.op = 4 → exec (.writeRecord a) s = .next (u.zoneRecord a.val c)) ∧
       (u.cmd? q.cmd = none → q.grazeOrder = 4 → exec (.writeRecord a) s = .next (u.flushJournal a.val))) ∧
    (∀ (a : ActId) (s : State),
      (s.act a.val).fmt.jbuf ≠ [] →
      (s.act a.val).fmt.jlast + 10000000000 ≤ s.now →
      ((s.act a.val).graze.pending.any (·.order == 4)) = false →
      exec (.journalWriteDue a) s =
        .next (s.modGraze a.val fun g =>
          { g with pending := g.pending ++ [{ order := 4, pos := reservedRegion * 65536, count := 1, isRead := false }] })) ∧
    (∀ (a : ActId) (r : Routine) (s : State),
      (s.act a.val).fmt.waiting = some r →
      s.mayRestart a.val r = true →
      r.req.cmd ≠ 0 →
      exec (.routineRestart a) s = .next (s.resumeRoutine a.val r)) ∧
    (∀ (a : ActId) (q : FmtCmd) (s : State),
      s.nextRoutine a.val 4 = some q →
      (s.act a.val).fmt.wsusp.getLsbD q.head = false →
      (let t := (s.popFmt a.val).modFmt a.val fun f =>
         { f with sqzCheck := f.sqzCheck + 1, sqz := false, sqzWait := false, sqzReq := none, sqzBand := none }
       exec (.squeezeCheck a none) s = .next t ∧
         ∀ (x : Fin 65536) (b : FmtCmd), (s.act a.val).fmt.sqzBand = some b → (q.keys.any fun k => k % 65536 == x.val) = true →
           exec (.squeezeCheck a (some x)) s = .next (t.squeezeRewrite a.val b x.val))) ∧
    (∀ (a : ActId) (sample : BitVec 10) (ua rosc : Nat) (r : Routine) (u : State) (s : State),
      (s.act a.val).fmt.running = some r →
      writes r.req.opc = true →
      (s.act a.val).fmt.gate = true →
      (u = s.modHead a.val r.req.head fun x => { x with rosc := rosc }) →
      (let t := u.frameNs a.val r.req.spt + r.leads * u.asstLead
       exec (.assistFeedback a sample { ua := ua, rosc := rosc }) s =
         .next (((u.assistUse a.val r.req t ((u.head a.val r.req.head).drivePj (u.bay (bayOf a.val)).link.sto ua t)).wearCheck a.val
           r.req.head).assistLoop a.val r.req.head sample.toNat)))

/-- Every 100 ms the write-level time of each domain's 36 actuators is summed into its duty and the sums start again.
ASSIST_STATUS answers the state, wear and energies of a head that exists and the requester may see. A calibration routine
passes or fails its head; one that finds a feedback fault suspends it. A next state with its effect is stated here of
dutyWindowEnd, assistStatus, assistCal, channelCal. (R213, R215, R349) -/
def Obligations.AssistUseIsMeasuredAndReported : Prop :=
    (∀ (s : State),
      s.pwr.dutyAt + 100000000 ≤ s.now →
      (let t := s.each (List.range 4) fun s d => s.modDom d fun x =>
         { x with dutyNs := ((List.range 36).map fun i => (s.act (36 * d + i)).fmt.level).sum, assistPj := 0 }
       let u := t.each ((List.range 144).filter fun a => (t.act a).fmt.level != 0) fun s a => s.modFmt a fun f => { f with level := 0 }
       exec .dutyWindowEnd s = .next { u with pwr := { u.pwr with dutyAt := u.now } })) ∧
    (∀ (r : Requester) (p : List Byte) (s : State),
      s.request (mbxOf r) 0x0710 = some p →
      reservedZero p [(0, 2)] = true →
      byteAt p 0 < 144 →
      byteAt p 1 < 16 →
      (s.head (byteAt p 0) (byteAt p 1)).present = true →
      s.seesAct r (byteAt p 0) = true →
      (let x := s.head (byteAt p 0) (byteAt p 1)
       exec (.assistStatus r) s =
         .next (s.respond (mbxOf r) (leBytes 1 0 ++ leBytes 1 (bit (s.bay (bayOf (byteAt p 0))).link.sto)
           ++ leBytes 1 (s.assistState (byteAt p 0) (byteAt p 1))
           ++ leBytes 1 (if x.wear = 0 then 0 else min 255 (x.writeNs * 100 / x.wear)) ++ leBytes 8 x.writeNs ++ leBytes 8 x.idleNs
           ++ leBytes 8 (x.energy / 1000000) ++ leBytes 2 x.code ++ leBytes 2 0)))) ∧
    (∀ (a : ActId) (o : AsstCal) (q : FmtCmd) (s : State),
      s.nextRoutine a.val 0x20 = some q →
      (let t := (s.popFmt a.val).modCfe a.val fun c => { c with band := false, refTrack := none }
       exec (.assistCal a o) s =
         .next (if o.fault then ((s.popFmt a.val).modFmt a.val fun f => { f with abandon := f.abandon + 1 }).suspendHead a.val q.head
           else if o.passed then t.assistPasses a.val q.head o else t.assistFails a.val q.head))) ∧
    (∀ (a : ActId) (o : ChanCal) (q : FmtCmd) (s : State),
      s.nextRoutine a.val 0x21 = some q →
      (let t := (s.popFmt a.val).modCfe a.val fun c => { c with band := false, refTrack := none }
       exec (.channelCal a o) s = .next (if q.gkind = 2 then t.servoDone a.val q.head o else t.channelDone a.val q.head o)))

/-- A record at a tracking loop is classified 0, 1 or 2, seen, watched for a frozen stream, and taken as good or bad; at a
wedge a limp loop leaves out, only the wedge advances; a loop that does not track only holds it. A wedge with no record is
missing, class 2. A due run of a serviceable engine runs the law, or the line fault of a line that failed; an overrun is
handled with its budget. At the command slot the new record departs, or the last one with HOLD, with EMRG while it is in
force. Write-inhibit releases after 4 valid wedges inside WR_ON and WINH_MIN. A next state with its effect is stated here
of positionRecord, recordMissingTimeout, actuatorRun, runOverrun, commandSlotDeparture, writeInhibitRelease. (R219, R225,
R226, R227, R235, R242) -/
def Obligations.WedgeRecordsAreClassifiedAndRun : Prop :=
    (∀ (a : ActId) (hi lo : BitVec 64) (s : State),
      s.processed a.val = true →
      (s.loop a.val).tracking = true →
      (let r := PosRec.of (hi ++ lo)
       let cls := (s.loop a.val).classify r
       let t := (s.wedgeSeen a.val cls (if cls = 0 then BitVec.ofNat 10 r.wedge else (s.loop a.val).wedge)).modLoop a.val fun l =>
         { l with record := some (hi ++ lo) }
       let u := (t.watchFrozen a.val r).frozen a.val
       exec (.positionRecord a hi lo) s = .next (if cls = 0 then u.goodRecord a.val r else u.badRecord a.val cls))) ∧
    (∀ (a : ActId) (hi lo : BitVec 64) (s : State),
      s.processed a.val = false →
      (let t := s.modLoop a.val fun l => { l with limpK := l.limpK + 1, wedge := nextWedge l.wedge, runWedge := l.wedge, record := none }
       exec (.positionRecord a hi lo) s = .next t ∧ exec (.recordMissingTimeout a) s = .next t)) ∧
    (∀ (a : ActId) (s : State),
      s.processed a.val = true →
      (s.loop a.val).tracking = true →
      exec (.recordMissingTimeout a) s =
        .next (((s.wedgeSeen a.val 2 (s.loop a.val).wedge).modLoop a.val fun l => { l with record := none }).badRecord a.val 2)) ∧
    (∀ (a : ActId) (o : LawOut) (s : State),
      (s.loop a.val).runDue = true →
      (s.loop a.val).noEngine = false →
      (s.le (s.loop a.val).engine.toNat).state = 0 ∨ (s.le (s.loop a.val).engine.toNat).state = 2 →
      lawBeyond o = false →
      o.line = none →
      exec (.actuatorRun a o) s = .next (s.runLoop a.val o)) ∧
    (∀ (a : ActId) (o : LawOut) (k : Nat) (s : State),
      (s.loop a.val).runDue = true →
      (s.loop a.val).noEngine = false →
      (s.le (s.loop a.val).engine.toNat).state = 0 ∨ (s.le (s.loop a.val).engine.toNat).state = 2 →
      lawBeyond o = false →
      o.line = some k →
      exec (.actuatorRun a o) s = .next (s.lineFault a.val o k)) ∧
    (∀ (a : ActId) (o : LawOut) (s : State),
      (s.loop a.val).runDue = true →
      (s.loop a.val).noEngine = false →
      (s.le (s.loop a.val).engine.toNat).state = 0 ∨ (s.le (s.loop a.val).engine.toNat).state = 2 →
      lawBeyond o = true →
      exec (.actuatorRun a o) s = .next (s.overrunRun a.val o (min o.cycles 3700))) ∧
    (∀ (k : ActId) (budget : Nat) (s : State),
      ((s.loop k.val).runDue = true → exec (.runOverrun false k budget) s = .next (s.overrunRun k.val {} budget)) ∧
       (k.val < 72 → (s.bay k.val).spin.report.isSome = true ∨ (s.bay k.val).spin.tick = true →
         exec (.runOverrun true k budget) s = .next (s.spinOverrun k.val))) ∧
    (∀ (a : ActId) (s : State),
      (s.act a.val).cwy.state = 5 →
      exec (.commandSlotDeparture a) s =
        .next ((s.modLoop a.val fun l => { l with sent := (s.loop a.val).slotRec.1, newRec := l.newRec && !(s.loop a.val).slotRec.2 }).emit
          (.wedgeCmd a.val (s.loop a.val).slotRec.1))) ∧
    (∀ (l : Loop),
      l.limp = false →
      l.slotRec.2 = l.newRec ∧ (l.emrg = false → l.slotRec.1 = if l.newRec then l.cmdRec else l.sent ||| 0x0400000000000000#64) ∧
       (l.emrg = true → l.slotRec.1 = (if l.newRec then l.cmdRec else l.sent ||| 0x0400000000000000#64) ||| 0x1000000000000000#64)) ∧
    (∀ (a : ActId) (s : State),
      (s.loop a.val).winh = true →
      (s.loop a.val).limp = false →
      (s.loop a.val).mode ≠ 5 →
      (s.loop a.val).needFollow = false →
      4 ≤ (s.loop a.val).winhOk →
      (s.loop a.val).winhTime + 1000 * s.cfg.winhMin.toNat ≤ s.now →
      exec (.writeInhibitRelease a) s = .next (s.modLoop a.val fun l => { l with winh := false }))

/-- A pending migration is taken at a loaded target: the engine changes, the count rises, events 8a + 5 and 0x720 + n latch,
and a mirror that failed its check retracts. A limp loop that an engine has room for returns to the normal law with event
8a + 5. A park report ends the retract. 100 ms after a retract began EMRG is set. A parked loop whose reload falls due
requests a load. A coefficient set whose laws cost no more than stated, and no more than 480 cycles, is held for its loop's
next safe point, which a parked loop is at; runout tables that come with it wait with it. A next state with its effect is
stated here of migrationTaken, limpExit, parkReport, retractEmrgTimeout, reloadRequest, coeffSetLoad. (R238, R239, R241,
R245, R247, R236) -/
def Obligations.LoopsMoveParkAndReload : Prop :=
    (∀ (a : ActId) (mirrorOk : Bool) (s : State),
      (s.loop a.val).migPend = true →
      (s.le (s.loop a.val).migTo).state = 0 →
      (s.loop a.val).mode ≠ 5 →
      (s.loop a.val).retractReq = none →
      exec (.migrationTaken false a mirrorOk) s = .next (s.takeMig a.val mirrorOk)) ∧
    (∀ (a : Nat) (s : State),
      (let l := s.loop a
       let t := s.modLoop a fun l =>
         { l with
           engine := BitVec.ofNat 5 l.migTo, migPend := false, ovrWin := 0, migrate := l.migrate + 1, limp := false, mirrorOk := true,
           st := l.mirror, cmdRec := l.mirror.cmd }
       s.takeMig a true = ((t.raise (actEvt a 5)).raise (0x720 + l.engine.toNat)).placeSpindles)) ∧
    (∀ (b : ActId) (m : Bool) (n : Nat) (s : State),
      (s.bay b.val).link.spnMigTo = some n →
      (s.le n).state = 0 →
      exec (.migrationTaken true b m) s =
        .next (((s.modLink b.val fun k => { k with spnMigTo := none, spnEngine := BitVec.ofNat 5 n, spnOvr := 0 }).raise
          (0x720 + (s.bay b.val).link.spnEngine.toNat)).placeSpindles)) ∧
    (∀ (a : ActId) (s : State),
      (s.loop a.val).limp = true →
      (s.act a.val).fmt.running = none →
      (s.loop a.val).mode ≠ 5 →
      s.limpTarget a.val = some (s.loop a.val).engine.toNat →
      exec (.limpExit a) s =
        .next (((((s.modLoop a.val fun l =>
          { l with limp := false, engine := BitVec.ofNat 5 (s.loop a.val).engine.toNat, ovrWin := 0, migPend := false }).raise (actEvt a.val 5)).replan
            a.val).dispatch a.val))) ∧
    (∀ (a : ActId) (s : State),
      (s.loop a.val).mode = 5 →
      s.linkUp a.val = true →
      (s.loop a.val).pendCause ≠ 3 →
      exec (.parkReport a) s = .next (s.parked a.val)) ∧
    (∀ (a : ActId) (s : State),
      (s.loop a.val).mode = 5 →
      (s.loop a.val).retractAt + 100000000 ≤ s.now →
      exec (.retractEmrgTimeout a) s = .next (s.modLoop a.val fun l => { l with emrg := true })) ∧
    (∀ (a : ActId) (s : State),
      (s.loop a.val).mode = 0 →
      0 < (s.loop a.val).reloadAt →
      (s.loop a.val).reloadAt ≤ s.now →
      (s.bay (bayOf a.val)).spin.gait ≠ 0 →
      (s.bay (bayOf a.val)).spin.action = none →
      s.linkUp a.val = true →
      exec (.reloadRequest a) s = .next (s.requestLoad a.val)) ∧
    (∀ (a : ActId) (ver : BitVec 16) (set : CoeffSet) (rro : Option RroSet) (s : State),
      (∀ r ∈ set.laws, r.2.counted ≤ r.2.stated ∧ r.2.stated ≤ 480) →
      exec (.coeffSetLoad a ver set rro) s =
        .next (s.modLoop a.val fun l =>
          let m := { l with setNext := some { set with ver := ver }, rroNext := rro.orElse fun _ => l.rroNext }
          if m.mode = 0 then m.takeSet else m))

/-- A self-test failure of an engine in service counts and retires it; a pass of a reset engine returns it and places waiting
spindles. LOOP_CTRL of the steward migrates a loop to an engine with room, retires an engine that strands no loop, retests
one that has failed fewer than three times, requests a load of a parked loop, and reports an engine. The trace arm and
force commands of the steward write DIAG_TRC_CTRL while the DIAG window is open. A next state with its effect is stated
here of loopEngineSelfTest, loopMigrateActuator, loopMigrateSpindle, loopRetireEngine, loopRetestEngine,
loopReloadActuator, loopEngineStatus, traceArm, traceForce. (R243, R249, R250, R429) -/
def Obligations.LoopEnginesAreManaged : Prop :=
    (∀ (n : Fin 32) (s : State),
      (s.le n.val).state = 0 →
      exec (.loopEngineSelfTest n true) s = .next s ∧
       exec (.loopEngineSelfTest n false) s = .next ((s.modLe n.val fun e => { e with fails := e.fails + 1 }).retireLe n.val 1)) ∧
    (∀ (n : Fin 32) (s : State),
      (s.le n.val).state = 3 →
      (s.isl (164 + n.val / 4)).reset = false →
      exec (.loopEngineSelfTest n true) s = .next (((s.modLe n.val fun e => { e with state := 0 }).raise (0x720 + n.val)).placeSpindles)) ∧
    (∀ (r : Requester) (p : List Byte) (n : Nat) (s : State),
      s.request (mbxOf r) 0x0810 = some p →
      byteAt p 0 = 1 →
      s.fromSteward r = true →
      loopFields p 144 true = true →
      s.destOf p (s.loop (byteAt p 1)).engine.toNat (s.loop (byteAt p 1)).weight false = some n →
      exec (.loopMigrateActuator r) s =
        .next (((s.modLoop (byteAt p 1) fun l => { l with migPend := true, migTo := n }).tripAct (byteAt p 1) 7).modMbx (mbxOf r)
          fun m => { m with owed := some (.migrate false (byteAt p 1) n) })) ∧
    (∀ (r : Requester) (p : List Byte) (n : Nat) (s : State),
      s.request (mbxOf r) 0x0810 = some p →
      byteAt p 0 = 2 →
      s.fromSteward r = true →
      loopFields p 72 true = true →
      s.destOf p (s.bay (byteAt p 1)).link.spnEngine.toNat 60 true = some n →
      exec (.loopMigrateSpindle r) s =
        .next (((s.modLink (byteAt p 1) fun x => { x with spnMigTo := some n, spnNoEngine := false }).trip true (byteAt p 1) 7 s.now).modMbx (mbxOf r)
          fun m => { m with owed := some (.migrate true (byteAt p 1) n) })) ∧
    (∀ (r : Requester) (p : List Byte) (s : State),
      s.request (mbxOf r) 0x0810 = some p →
      byteAt p 0 = 3 →
      s.fromSteward r = true →
      loopFields p 32 false = true →
      (s.le (byteAt p 1)).state = 0 →
      s.retireStrands (byteAt p 1) = false →
      exec (.loopRetireEngine r) s = .next ((s.retireLe (byteAt p 1) 2).modMbx (mbxOf r) fun m => { m with owed := some (.leRetire (byteAt p 1)) })) ∧
    (∀ (r : Requester) (p : List Byte) (s : State),
      s.request (mbxOf r) 0x0810 = some p →
      byteAt p 0 = 4 →
      s.fromSteward r = true →
      loopFields p 32 false = true →
      (s.le (byteAt p 1)).fails.toNat < 3 →
      (s.le (byteAt p 1)).state ≠ 0 →
      exec (.loopRetestEngine r) s = .next (s.modMbx (mbxOf r) fun m => { m with owed := some (.leRetest (byteAt p 1)) })) ∧
    (∀ (r : Requester) (p : List Byte) (s : State),
      s.request (mbxOf r) 0x0810 = some p →
      byteAt p 0 = 5 →
      s.fromSteward r = true →
      loopFields p 144 false = true →
      (s.loop (byteAt p 1)).mode = 0 →
      exec (.loopReloadActuator r) s = .next ((s.requestLoad (byteAt p 1)).loopReply (mbxOf r) 0 (s.loop (byteAt p 1)).engine.toNat)) ∧
    (∀ (r : Requester) (p : List Byte) (s : State),
      s.request (mbxOf r) 0x0810 = some p →
      byteAt p 0 = 6 →
      s.seesAll r = true →
      loopFields p 32 false = true →
      exec (.loopEngineStatus r) s = .next (s.loopReply (mbxOf r) 0 (byteAt p 1))) ∧
    (∀ (f : FnId) (n : Fin 32) (val : Word) (s : State),
      s.stewardMmio f.val = true →
      s.diagOpen = true →
      (let t := s.touch f.val
       exec (.traceArm f n val) s = .next (t.modTrc n.val fun x => x.write (val ||| 0x80000000#32) t.now) ∧
       exec (.traceForce f n val) s = .next (t.modTrc n.val fun x => x.write (val ||| 0x40000000#32) t.now)))

/-- A spindle action starts once both actuators are parked: recovery floats, a lost motor shorts, a coast after a domain fault
opens the windings, and every stop brakes. A report with a new sequence number is measured and held; a large phase error of
a locked observer loses it. A tick is due only while aligning or in open loop. Alignment ends after 200 ms. A second
observer window with no crossing loses a locked observer. A float of one electrical period starts relocking; a relock
restores the observer. A braking spindle below 1,000 rpm is shorted for 1 s and then at rest. A next state with its effect
is stated here of spindleActionStart, zeroCrossingReport, commutationTick, spindleRun, spinUpPhaseTimer,
observerWindowClose, floatPeriodEnd, relockAttemptEnd, spindleStopDetected, shortedHoldEnd. (R255, R257, R260, R262, R264,
R266, R268) -/
def Obligations.SpindlesAlignSpinFloatAndStop : Prop :=
    (∀ (b : BayId) (s : State),
      (s.loop (2 * b.val)).mode = 0 →
      (s.loop (2 * b.val + 1)).mode = 0 →
      ((s.spin b.val).action = some .recover → exec (.spindleActionStart b) s = .next (s.startFloat b.val)) ∧
       ((s.spin b.val).action = some .lost → exec (.spindleActionStart b) s = .next (s.startBrake b.val true)) ∧
       ((s.spin b.val).action = some .brake → exec (.spindleActionStart b) s = .next (s.startBrake b.val false)) ∧
       ((s.spin b.val).action = some .standby → exec (.spindleActionStart b) s = .next (s.startBrake b.val false)) ∧
       ((s.spin b.val).action = some .thermal → exec (.spindleActionStart b) s = .next (s.startBrake b.val false)) ∧
       ((s.spin b.val).action = some .coast → exec (.spindleActionStart b) s = .next (s.faultCoast b.val))) ∧
    (∀ (b : BayId) (time fields : BitVec 32) (s : State),
      (s.spin b.val).repSeq ≠ some (ZcRep.of (time ++ fields)).seq →
      s.bayUp b.val = true →
      (s.spin b.val).observer = false →
      exec (.zeroCrossingReport b time fields) s =
        .next ((s.modSpin b.val fun p => p.measure s.now (s.dom (domOf b.val)).busv.toNat (ZcRep.of (time ++ fields)).iph).modSpin b.val fun p =>
          { p with
            report := some (time ++ fields), repSeq := some (ZcRep.of (time ++ fields)).seq, lastCross := if (ZcRep.of (time ++ fields)).valid then s.now else p.lastCross,
            windowHit := p.windowHit || ((ZcRep.of (time ++ fields)).valid && !(p.beyond ((s.spin b.val).crossErr (ZcRep.of (time ++ fields))) 20)),
            captures := if (ZcRep.of (time ++ fields)).valid && p.relocking then p.captures ++ [((ZcRep.of (time ++ fields)).time, (ZcRep.of (time ++ fields)).step)] else p.captures,
            pherr := if p.observer && (ZcRep.of (time ++ fields)).valid then
                BitVec.ofNat 8 (ofInt 8 ((s.spin b.val).crossErr (ZcRep.of (time ++ fields)) * 60 / max 1 (p.interval : Int))) else p.pherr })) ∧
    (∀ (b : BayId) (s : State),
      (s.spin b.val).state = 1 ∨ (s.spin b.val).state = 2 ∧ (s.spin b.val).openAt + openNs (s.spin b.val).openN ≤ s.now →
      exec (.commutationTick b) s = .next (s.modSpin b.val fun p => { p with tick := true })) ∧
    (∀ (b : BayId) (rep : BitVec 64) (s : State),
      (s.bay b.val).link.spnNoEngine = false →
      s.leDead (s.bay b.val).link.spnEngine.toNat = false →
      (let t := s.modLink b.val fun k => { k with spnOvr := k.spnOvr <<< 1 }
       ((t.spin b.val).report = some rep → exec (.spindleRun b .crossing) s = .next (t.spinReport b.val rep)) ∧
       ((t.spin b.val).tick = true → exec (.spindleRun b .tick) s = .next (t.spinTick b.val)))) ∧
    (∀ (b : BayId) (s : State),
      (s.spin b.val).spinUp = true →
      (s.spin b.val).state = 1 →
      (s.spin b.val).alignAt + 200000000 ≤ s.now →
      exec (.spinUpPhaseTimer b) s = .next (s.modSpin b.val fun p => { p with state := 2, openAt := s.now, openN := 0, tick := true })) ∧
    (∀ (b : BayId) (s : State),
      (s.spin b.val).state ≠ 6 →
      (s.spin b.val).observer = true →
      (s.spin b.val).interval ≠ 0 →
      ((s.spin b.val).interval / 3 : Nat) ≤ after32 s.now ((s.spin b.val).predAt + (s.spin b.val).closed * (s.spin b.val).interval) →
      (let n := if (s.spin b.val).windowHit then 0 else (s.spin b.val).missed + 1
       let t := s.modSpin b.val fun p =>
         { p with windowHit := false, missed := n, closed := p.closed + 1, revSteps := if p.windowHit ∨ p.revSteps = 0 then p.revSteps else p.revSteps + 1 }
       exec (.observerWindowClose b) s = .next (if n < 2 then t else t.observerLost b.val))) ∧
    (∀ (b : BayId) (s : State),
      (s.spin b.val).state = 6 →
      (s.spin b.val).relocking = false →
      (s.spin b.val).action = none →
      (s.spin b.val).ticked + elecNs (s.spin b.val).rpm.toNat ≤ s.now →
      exec (.floatPeriodEnd b) s = .next (s.modSpin b.val fun p => { p with relocking := true, ticked := s.now, captures := [] })) ∧
    (∀ (b : BayId) (cs : List (Nat × Nat)) (s : State),
      (s.spin b.val).state = 6 →
      (s.spin b.val).relocking = true →
      relockFit (s.spin b.val).captures = some cs →
      exec (.relockAttemptEnd b () ()) s = .next (s.relocked b.val cs)) ∧
    (∀ (b : BayId) (s : State),
      (s.spin b.val).state = 8 ∨ (s.spin b.val).state = 9 →
      (s.spin b.val).lastCross + 100000000 ≤ s.now →
      (s.spin b.val).stopAt = 0 →
      (s.spin b.val).rpm.toNat < 1000 →
      exec (.spindleStopDetected b) s =
        .next (((s.modSpin b.val fun p => { p with stopAt := s.now, state := 9, rpm := 0 }).sendSpin b.val 3 s.now 0 0).raise (bayEvt b.val 2))) ∧
    (∀ (b : BayId) (s : State),
      (s.spin b.val).state = 9 →
      (s.spin b.val).stopAt ≠ 0 →
      (s.spin b.val).stopAt + 1000000000 ≤ s.now →
      exec (.shortedHoldEnd b) s = .next ((s.sendSpin b.val 4 s.now 0 0).atRest b.val))

/-- A bus sample in the normal range with nothing in force only records the voltage, the chopper state and how long each
threshold has held. One or two low domains for 10 µs fault: event 0x740 + 8d + 3, every present bay of the domain faulted,
and the power projected again; a domain good for 100 ms is restored with event + 4. A cap duty of 10 to 90 that repeats to
1 % sets the cap; a second duty outside sets the default cap of 60 W per cent and event 0x760. The first bay of the token
queue that may be served gets the token. A next state with its effect is stated here of busSample, domainFault,
domainRestore, pwrcapWindow, powerProjection, spinUpTokenGrant. (R269, R270, R271, R276, R277) -/
def Obligations.BusVoltageAndPowerCapAct : Prop :=
    (∀ (d : Fin 4) (v : BitVec 12) (s : State),
      (s.dom d.val).chop = false →
      v.toNat ≤ s.regenMv →
      v.toNat ≤ 1380 →
      10 * s.cfg.tripV ≤ v.toNat →
      (s.dom d.val).regenOff = false →
      (s.dom d.val).coast = false →
      exec (.busSample d v false) s =
        .next (s.modDom d.val fun x =>
          { x with busv := v, chop := false, lowAt := none, goodAt := since (decide (10 * s.cfg.tripV + 40 < v.toNat)) x.goodAt s.now,
                   belowAt := since (decide (v.toNat < s.regenMv)) x.belowAt s.now,
                   clearAt := since (decide (v.toNat + 30 < s.regenMv)) x.clearAt s.now })) ∧
    (∀ (d : Fin 4) (s : State),
      s.lowDomains.contains d.val = true →
      s.lowDomains.length ≤ 2 →
      (s.dom d.val).domfault = false →
      exec (.domainFault d) s =
        .next ((((s.modDom d.val fun x => { x with domfault := true }).raise (0x740 + 8 * d.val + 3)).each
          ((baysOf d.val).filter fun b => (((s.modDom d.val fun x => { x with domfault := true }).raise (0x740 + 8 * d.val + 3)).bay b).link.present)
          State.bayFault).reproject)) ∧
    (∀ (d : Fin 4) (s : State),
      (s.dom d.val).domfault = true →
      heldFor (s.dom d.val).goodAt s.now 100000000 = true →
      (let t := (s.modDom d.val fun x => { x with domfault := false }).raise (0x740 + 8 * d.val + 4)
       exec (.domainRestore d) s =
         .next ((t.each ((baysOf d.val).filter fun b => (t.bay b).link.present && (t.bay b).link.quar == 0) fun s b =>
           (let u := if (s.spin b).action = some .coast then s.faultCoast b else s
            (u.modLink b fun k => { k with noCount := false }).bringUp b)).reproject))) ∧
    (∀ (duty : Fin 101) (s : State),
      duty.val < 10 ∨ 90 < duty.val →
      1 ≤ s.pwr.badWins →
      s.pwr.dflt = false →
      exec (.pwrcapWindow duty) s =
        .next ((((s.modPwr fun p => { p with duty := BitVec.ofNat 8 duty.val, lastDuty := none, badWins := p.badWins + 1 }).modPwr fun p =>
          { p with capMil := 60000, capPct := 60, dflt := true }).raise 0x760).reproject)) ∧
    (∀ (duty : Fin 101) (x : Nat) (s : State),
      10 ≤ duty.val →
      duty.val ≤ 90 →
      s.pwr.lastDuty = some x →
      x ≤ duty.val + 1 →
      duty.val ≤ x + 1 →
      s.pwr.dflt = false →
      exec (.pwrcapWindow duty) s =
        .next (((s.modPwr fun p => { p with duty := BitVec.ofNat 8 duty.val, lastDuty := some duty.val, badWins := 0 }).modPwr fun p =>
          { p with capMil := 30000 + (duty.val - 10) * 875, capPct := BitVec.ofNat 8 ((30000 + (duty.val - 10) * 875) / 1000), dflt := false }).reproject)) ∧
    (∀ (mw : Nat) (s : State),
      exec (.powerProjection mw) s = .next ((s.modPwr fun p => { p with pkgMw := mw }).reproject)) ∧
    (∀ (d : Fin 4) (b : Nat) (s : State),
      (s.tokenQueue d.val).find? s.tokenServes = some b →
      (s.spin b).tokKind ≠ 2 ∨ (s.spin b).moving = true →
      exec (.spinUpTokenGrant d) s = .next ((s.grantToken b).reproject))

/-- A recomputation stores the use of each gait and the target it gives; a higher target makes both actuators dispatch, which
starts the raise. A bay with no command admitted for IDLE_T seconds, when it is not 0, enters Idle, and for STBY_T seconds
Standby. A Standby entry that is clear and parked starts the standby stop. POWER_STATE requests of the steward act on every
bay they name and answer the count. POWER_STATUS answers the state of a bay the requester may see. A next state with its
effect is stated here of gaitTargetRecompute, idleTimerExpiry, standbyTimerExpiry, standbyEntryReady, powerStateIdle,
powerStateStandby, powerStateActive, powerStatus. (R272, R273, R278, R279, R280) -/
def Obligations.GaitAndPowerStatesFollowUse : Prop :=
    (∀ (b : BayId) (u : Nat → Nat) (s : State),
      (s.spin b.val).pstate = 0 →
      s.ceil b.val ≠ 0 →
      (s.spin b.val).moving = false →
      (u = fun g => max (utilOf (s.spin b.val).gait.toNat g (s.shares (2 * b.val)).1 (s.shares (2 * b.val)).2)
        (utilOf (s.spin b.val).gait.toNat g (s.shares (2 * b.val + 1)).1 (s.shares (2 * b.val + 1)).2)) →
      (s.spin b.val).gait.toNat < s.targetGait b.val u →
      exec (.gaitTargetRecompute b () () () ()) s =
        .next (((s.modSpin b.val fun p =>
          { p with utils := (List.range 4).foldl (fun m g => m.put g (u g)) p.utils, target := BitVec.ofNat 2 (s.targetGait b.val u),
                   lowSince := none }).dispatch (2 * b.val)).dispatch (2 * b.val + 1))) ∧
    (∀ (b : BayId) (s : State),
      (s.spin b.val).pstate = 0 →
      s.noAdmitted b.val = true →
      0 < s.devCfg.timer.idleT.toNat →
      (s.spin b.val).lastCmd + s.devCfg.timer.idleT.toNat * 1000000000 ≤ s.now →
      exec (.idleTimerExpiry b) s = .next (s.enterPower b.val 1)) ∧
    (∀ (b : BayId) (s : State),
      (s.spin b.val).pstate = 0 ∨ (s.spin b.val).pstate = 1 →
      s.noAdmitted b.val = true →
      0 < s.devCfg.timer.stbyT.toNat →
      (s.spin b.val).lastCmd + s.devCfg.timer.stbyT.toNat * 1000000000 ≤ s.now →
      exec (.standbyTimerExpiry b) s = .next (s.enterPower b.val 2)) ∧
    (∀ (b : BayId) (s : State),
      s.devCfg.timer.idleT = 0 ∨ s.noAdmitted b.val = false →
      exec (.idleTimerExpiry b) s = .next s) ∧
    (∀ (b : Nat) (s : State),
      (s.spin b).pstate ≠ 2 →
      ¬((s.spin b).pstate = 3 ∧ (s.spin b).pwant = 2) →
      s.enterPower b 2 = s.modSpin b fun p => { p with pstate := 3, pwant := 2 }) ∧
    (∀ (b : BayId) (s : State),
      (s.spin b.val).pstate = 3 →
      (s.spin b.val).pwant = 2 →
      s.standbyClear b.val = true →
      (s.spin b.val).standbyRet = false →
      (s.spin b.val).moving = false ∨ (s.spin b.val).goal = 0 →
      (s.spin b.val).state ≠ 0 →
      exec (.standbyEntryReady b) s =
        .next ((s.modSpin b.val fun p => { p with standbyRet := true, lowerTo := none }).wantAction b.val .standby)) ∧
    (∀ (r : Requester) (p : List Byte) (s : State),
      s.request (mbxOf r) 0x0910 = some p →
      s.powerRefused r p (byteAt p 1 == 0) = none →
      (byteAt p 1 = 1 → exec (.powerStateIdle r) s =
         .next ((s.each (s.powerBays p) fun s b => s.enterPower b 1).respond (mbxOf r) (leBytes 2 0 ++ leBytes 2 (s.powerBays p).length))) ∧
       (byteAt p 1 = 2 → exec (.powerStateStandby r) s =
         .next ((s.each (s.powerBays p) fun s b => s.enterPower b 2).respond (mbxOf r) (leBytes 2 0 ++ leBytes 2 (s.powerBays p).length))) ∧
       (byteAt p 1 = 0 → exec (.powerStateActive r) s =
         .next ((s.each (s.powerBays p) fun s b =>
           if (s.spin b).pstate = 0 then s
           else if (s.spin b).pstate = 3 ∧ (s.spin b).gait ≠ 0 ∧ !(s.spin b).standbyRet then s.modSpin b fun p => { p with pstate := 0, pwant := 0 }
           else (s.modSpin b fun p => { p with pwant := 0 }).wake b).respond (mbxOf r) (leBytes 2 0 ++ leBytes 2 (s.powerBays p).length)))) ∧
    (∀ (r : Requester) (p : List Byte) (s : State),
      s.request (mbxOf r) 0x0911 = some p →
      reservedZero p [(0, 1)] = true →
      byteAt p 0 < 72 →
      s.seesAll r = true →
      (let b := byteAt p 0
       let x := s.spin b
       let c := s.ceil b
       let src := bit (x.ceilPwr.toNat == c && x.ceilPwr.toNat != 3) + 2 * bit (s.thermalCeil b == c && c != 3)
         + 4 * bit (decide (c < s.devCfg.gait.minGait.toNat))
       exec (.powerStatus r) s =
         .next ((s.exitMs b).2.respond (mbxOf r) (leBytes 1 0 ++ leBytes 1 x.pstate.toNat ++ leBytes 1 x.gait.toNat ++ leBytes 1 c ++ leBytes 1 src
           ++ leBytes 1 x.state.toNat ++ leBytes 2 x.rpm.toNat ++ leBytes 4 (s.exitMs b).1 ++ leBytes 2 ((s.exitMs b).2.bayMw b x.gait.toNat / 100)
           ++ leBytes 2 0))))

/-- A good upstream frame of an ACTIVE link clears the lane's failed run, takes the next stream index and its first three
telemetry entries, and accounts the downstream errors; a failed frame is counted on its lane, as one out of lock from the
fourth header in a row that is not in its place. 2 µs of silence loses the link. EMRG commands end 1 ms after the loss. A
lost link of a present bay retrains when its retry falls due. BASIC that locks in 20 ms goes on to the descriptor or to
TRAIN, and fails otherwise; a TRAIN that passes makes the link ready. A next state with its effect is stated here of
upstreamFrame, upstreamSilenceTimeout, emrgPeriodEnd, causewayRetrain, trainingPhaseEnd. (R290, R291, R293, R296, R298,
R299) -/
def Obligations.LinksTrainFailAndRetrain : Prop :=
    (∀ (a : ActId) (u1 : Bool) (fr : UpFrame) (s : State),
      (s.cwy a.val).state = 5 →
      (if u1 = true then (s.cwy a.val).u1Ok else (s.cwy a.val).u0Ok) = true →
      (let c := s.cwy a.val
       let sidx := fr.hdr.extractLsb' 29 16
       let next := some (sidx + (fr.hdr.extractLsb' 47 9).zeroExtend 16)
       let off := if fr.atPlace then 0 else (if u1 then c.off1 else c.off0) + 1
       let bad := !fr.atPlace || !frameCrcOk fr || frameMalformed fr || (if u1 then c.sidx1 else c.sidx0).any (· != sidx)
       let v := s.modCwy a.val fun c => { c with off0 := if u1 then c.off0 else off, off1 := if u1 then off else c.off1 }
       let t := v.modCwy a.val fun c =>
         { c with lastOk := s.now, bad0 := if u1 then c.bad0 else 0, bad1 := if u1 then 0 else c.bad1, sidx0 := if u1 then c.sidx0 else next,
                  sidx1 := if u1 then next else c.sidx1 }
       exec (.upstreamFrame a u1 fr) s =
         .next (if bad then v.badFrame a.val u1 (decide (off < 4))
           else (t.each (fr.tele.take 3) fun s e => s.telemetry a.val e).downErrors a.val (fr.check.extractLsb' 16 8)))) ∧
    (∀ (a : ActId) (s : State),
      (s.cwy a.val).state = 5 →
      (s.cwy a.val).lastOk + 2000 ≤ s.now →
      exec (.upstreamSilenceTimeout a) s =
        .next ((s.modCwy a.val fun c => { c with u0Ok := false, u1Ok := false }).linkLost a.val (s.cwy a.val).dOk)) ∧
    (∀ (a : ActId) (s : State),
      (s.cwy a.val).state = 6 →
      (s.cwy a.val).emrg = true →
      (s.cwy a.val).lostAt + 1000000 ≤ s.now →
      exec (.emrgPeriodEnd a) s = .next (s.modCwy a.val fun c => { c with emrg := false, dOk := false })) ∧
    (∀ (a : ActId) (s : State),
      (s.cwy a.val).state = 6 →
      0 < (s.cwy a.val).retryAt →
      (s.cwy a.val).retryAt ≤ s.now →
      (s.bay (bayOf a.val)).link.present = true →
      (s.bay (bayOf a.val)).link.quar = 0 →
      (s.dom (domOf (bayOf a.val))).domfault = false →
      exec (.causewayRetrain a) s = .next (s.startBasic a.val)) ∧
    (∀ (a : ActId) (o : TrainOut) (s : State),
      (s.cwy a.val).state = 2 →
      s.now ≤ (s.cwy a.val).phaseAt + 20000000 →
      o.dLock = true →
      o.u0Lock = true ∨ o.u1Lock = true →
      (let k := (s.bay (bayOf a.val)).link
       let reads := !k.descRead && !k.rejoin && (a.val % 2 == 0 || !(s.training (otherSide a.val) || s.linkUp (otherSide a.val)))
       exec (.trainingPhaseEnd a o) s =
         .next (s.modCwy a.val fun c => { c with state := if reads then 3 else 4, phaseAt := s.now, tr0 := o.u0Lock, tr1 := o.u1Lock }))) ∧
    (∀ (a : ActId) (o : TrainOut) (s : State),
      (s.cwy a.val).state = 2 →
      (s.cwy a.val).phaseAt + 20000000 < s.now ∨ o.dLock = false ∨ o.u0Lock = false ∧ o.u1Lock = false →
      exec (.trainingPhaseEnd a o) s = .next (s.trainFailed a.val)) ∧
    (∀ (a : ActId) (o : TrainOut) (s : State),
      (s.cwy a.val).state = 3 →
      exec (.trainingPhaseEnd a o) s = .next (s.descEnd a.val o.desc (decide ((s.cwy a.val).phaseAt + 10000000 < s.now)))) ∧
    (∀ (a : ActId) (o : TrainOut) (s : State),
      (s.cwy a.val).state = 4 →
      s.now ≤ (s.cwy a.val).phaseAt + 10000000 →
      o.dPrbs = true →
      echoOk o.echo = true →
      ((s.cwy a.val).tr0 = true ∧ o.u0Prbs = true) ∨ ((s.cwy a.val).tr1 = true ∧ o.u1Prbs = true) →
      exec (.trainingPhaseEnd a o) s = .next (s.linkReady a.val o ((s.cwy a.val).tr0 && o.u0Prbs) ((s.cwy a.val).tr1 && o.u1Prbs)))

/-- An insertion of an absent bay declares it present with event 0x480 + 4b and, in a running device, begins its bring-up; the
removal of a present bay leaves it absent. A due retry of a present bay outside quarantine begins it again. A calibration
check with no record or a failed side fails the bring-up. LINK_CTRL retrains a parked actuator for the steward, prepares
and cancels a removal, and answers status and descriptor bytes to a requester that sees the bay. A next state with its
effect is stated here of insertionDeclared, removalDeclared, bringUpRetry, calibrationCheckEnd, linkRetrainActuator,
linkPrepareRemoval, linkCancelPreparation, linkStatus, linkReadDescriptor. (R300, R302, R305, R349, R421) -/
def Obligations.BaysComeGoAndAreControlled : Prop :=
    (∀ (b : BayId) (s : State),
      (s.bay b.val).link.present = false →
      (let t := ((s.modLink b.val fun k =>
         { k with present := true, insertAt := s.now, failed := 0, rejoin := false, noCount := false, descRead := false, prep := false, off := false,
                  retryAt := none, step := 0 }).raise (bayEvt b.val 0)).setMedia b.val 1
       exec (.insertionDeclared b) s = .next (if t.boot.running && !t.boot.trailhead then t.bringUp b.val else t))) ∧
    (∀ (b : BayId) (s : State),
      (s.bay b.val).link.present = true →
      ∃ t, exec (.removalDeclared b) s = .next t ∧ (t.bay b.val).link.present = false ∧ (t.bay b.val).link.quar = 0 ∧
        (t.bay b.val).link.descBytes = []) ∧
    (∀ (b : BayId) (s : State),
      heldFor (s.bay b.val).link.retryAt s.now 0 = true →
      (s.bay b.val).link.present = true →
      (s.bay b.val).link.quar = 0 →
      exec (.bringUpRetry b) s =
        .next (if s.bayUp b.val then (s.modLink b.val fun k => { k with retryAt := none }).bringSpin b.val else s.bringUp b.val)) ∧
    (∀ (b : BayId) (c : CalData) (s : State),
      (s.bay b.val).link.step = 4 →
      hdaFalls c.recs = 0 →
      hdaMissing c.recs = true →
      exec (.calibrationCheckEnd b c) s =
        .next (({ s with cal := { s.cal with fallback := s.cal.fallback + 0 } }).failBringUp b.val 5)) ∧
    (∀ (b : BayId) (c : CalData) (s : State),
      (s.bay b.val).link.step = 4 →
      hdaFalls c.recs = 0 →
      hdaMissing c.recs = false →
      s.sidePasses b.val 0 c = true →
      s.sidePasses b.val 1 c = true →
      hdaBaseline c.recs = [] →
      c.chanBad = [] →
      c.asstBad = [] →
      exec (.calibrationCheckEnd b c) s =
        .next ((((((({ s with cal := { s.cal with fallback := s.cal.fallback + 0 } }).modSpin b.val fun p =>
          { p with cal := c.spin, coastDec := c.spin.coastDec }).calSide (2 * b.val) 0 c).calSide (2 * b.val + 1) 1 c).modLink b.val fun k =>
            { k with budLoads := c.budLoads, budRevs := c.budRevs, budStarts := c.budStarts }).settleMedia b.val).reproject)) ∧
    (∀ (r : Requester) (p : List Byte) (s : State),
      s.request (mbxOf r) 0x0A10 = some p →
      byteAt p 0 = 1 →
      s.fromSteward r = true →
      linkFields p 144 false = true →
      s.bayOut (bayOf (byteAt p 1)) = false →
      (s.bay (bayOf (byteAt p 1))).link.off = false →
      (s.loop (byteAt p 1)).mode = 0 →
      (s.spin (bayOf (byteAt p 1))).state = 0 ∨ s.linkUp (otherSide (byteAt p 1)) = true →
      exec (.linkRetrainActuator r) s = .next (((s.startBasic (byteAt p 1)).refreshSpn (bayOf (byteAt p 1))).linkReply (mbxOf r) 0 (byteAt p 1) [])) ∧
    (∀ (r : Requester) (p : List Byte) (s : State),
      s.request (mbxOf r) 0x0A10 = some p →
      byteAt p 0 = 2 →
      s.seesAll r = true →
      linkFields p 72 false = true →
      s.bayOut (byteAt p 1) = false →
      (let b := byteAt p 1
       let t := (s.modLink b fun x => { x with prep := true }).refreshNs
       let u := if (t.spin b).pstate = 2 ∧ (t.spin b).state = 0 ∧ !(t.bay b).link.off then
           ((t.modLink b fun x => { x with off := true }).linksOff b).raise (bayEvt b 3)
         else if (t.bay b).link.off then t else t.enterPower b 2
       exec (.linkPrepareRemoval r) s = .next (u.linkReply (mbxOf r) 0 (2 * b) []))) ∧
    (∀ (r : Requester) (p : List Byte) (s : State),
      s.request (mbxOf r) 0x0A10 = some p →
      byteAt p 0 = 3 →
      s.seesAll r = true →
      linkFields p 72 false = true →
      (s.bay (byteAt p 1)).link.prep = true →
      (s.bay (byteAt p 1)).link.off = true →
      exec (.linkCancelPreparation r) s =
        .next ((((s.modLink (byteAt p 1) fun x => { x with prep := false, off := false, rejoin := true, noCount := true }).bringUp
          (byteAt p 1)).refreshNs).linkReply (mbxOf r) 0 (2 * byteAt p 1) [])) ∧
    (∀ (r : Requester) (p : List Byte) (s : State),
      s.request (mbxOf r) 0x0A10 = some p →
      (byteAt p 0 = 4 → linkFields p 144 false = true → s.seesBay r (bayOf (byteAt p 1)) = true →
         exec (.linkStatus r) s = .next (s.linkReply (mbxOf r) 0 (byteAt p 1) [])) ∧
       (byteAt p 0 = 5 → linkFields p 72 true = true → s.seesBay r (byteAt p 1) = true →
         exec (.linkReadDescriptor r) s =
           .next (s.linkReply (mbxOf r) 0 (2 * byteAt p 1) (((s.bay (byteAt p 1)).link.descBytes.drop (fieldAt p 2 2)).take 4080))))

/-- A scrub read of a DRAM line that fails nothing only reads it, and the last of a pass counts it with event 0x6AD. A merge
entry is written out 8 µs after its first write. The steward's WGDIS bit starts the walk of a powered group, its CDIS bit
walks all of them; the end of a walk clears the group's walking and WGON bits, sets DIS_DONE and latches 0x6A0 + g, and the
last of a disabled cache sets CDISABLED. Clearing CDIS returns every group that WGDIS allows. A next state with its effect
is stated here of scrubLineRead, mergeEntryAge, wayGroupDisable, wayGroupEnable, cacheDisable, cacheEnable,
wayGroupWalkEnd. (R318, R319, R320, R328, R331) -/
def Obligations.LinesAreScrubbedAndGroupsWalked : Prop :=
    (∀ (r : ScrubRead) (s : State),
      r.level = 0 →
      r.fails = false →
      s.mem.scrubDone + 1 < 390070272 + s.mem.remap.length →
      s.mem.merge = [] →
      exec (.scrubLineRead r) s =
        .next ((s.modCache fun c => c.access s.now 17 ((s.areaOf (lineOf r.addr)).getD 0) (lineOf r.addr) false).modMem fun m =>
          { m with scrubDone := m.scrubDone + 1 })) ∧
    (∀ (ok : Bool) (e : MergeEnt) (t : List MergeEnt) (s : State),
      s.mem.merge = e :: t →
      e.at_ + 8000 ≤ s.now →
      ok = true ∨ e.bytes.length = 128 →
      exec (.mergeEntryAge ok) s = .next (s.writeOut e ok)) ∧
    (∀ (f : FnId) (g : Fin 8) (s : State),
      s.stewardMmio f.val = true →
      (let t := s.touch f.val
       exec (.wayGroupDisable f g) s = .next ((t.modCache fun c => { c with wgdis := c.wgdis ||| wayBit g.val }).startWalk g.val) ∧
       exec (.wayGroupEnable f g) s = .next ((t.modCache fun c => { c with wgdis := c.wgdis &&& ~~~(wayBit g.val) }).wantGroup g.val))) ∧
    (∀ (f : FnId) (s : State),
      s.stewardMmio f.val = true →
      s.cache.cdis = false →
      s.cache.wgon = 0xFF →
      s.cache.walking = 0 →
      ∃ t, exec (.cacheDisable f) s = .next t ∧ t.cache.cdis = true ∧ t.cache.walking = 0xFF ∧ t.cache.cdisabled = s.cache.cdisabled) ∧
    (∀ (f : FnId) (s : State),
      s.stewardMmio f.val = true →
      s.cache.cdis = true →
      exec (.cacheEnable f) s =
        .next (((((s.touch f.val).modCache fun c => { c with cdis := false, cdisabled := false }).each (List.range 8) State.wantGroup).raise 0x6A8))) ∧
    (∀ (g : Fin 8) (s : State),
      s.cache.walking.getLsbD g.val = true →
      s.cache.cdis = false →
      s.cache.wgdis.getLsbD g.val = true →
      exec (.wayGroupWalkEnd g) s =
        .next ((s.modCache fun c =>
          { c.walk s.now g.val 65536 with walking := c.walking &&& ~~~(wayBit g.val), wgon := c.wgon &&& ~~~(wayBit g.val), disDone := true }).raise
            (0x6A0 + g.val)))

/-- MEM_LAYOUT answers the layout in force or the pending record, and REASON 5 when none is pending. The steward writes a
pending layout that meets R309, REASON 2 answers one that does not, and REASON 3 one that moves a window area under the
lock; it discards the pending record. POISON_CTRL answers the entries from the id asked that the requester may see, up to
127, and the steward clears an entry of kind 1 or 2; kind 0 answers REASON 4 and an unknown id REASON 3. A next state with
its effect is stated here of layoutReadInForce, layoutReadPending, layoutWritePending, layoutDiscardPending, poisonRead,
poisonClear. (R309, R310, R327) -/
def Obligations.TheLayoutAndThePoisonListAreManaged : Prop :=
    (∀ (r : Requester) (p : List Byte) (s : State),
      s.request (mbxOf r) 0x0B10 = some p →
      byteAt p 0 = 1 →
      layoutFields p false = true →
      exec (.layoutReadInForce r) s = .next (s.respond (mbxOf r) (leBytes 1 0 ++ List.replicate 7 0 ++ layoutBytes s.area))) ∧
    (∀ (r : Requester) (p : List Byte) (s : State),
      s.request (mbxOf r) 0x0B10 = some p →
      byteAt p 0 = 2 →
      layoutFields p false = true →
      exec (.layoutReadPending r) s =
        .next (s.layoutReply (mbxOf r) (if s.mem.pendLay = none then 5 else 0) ((s.mem.pendLay.getD []).get fun _ => {}))) ∧
    (∀ (r : Requester) (p : List Byte) (s : State),
      s.request (mbxOf r) 0x0B10 = some p →
      byteAt p 0 = 3 →
      s.fromSteward r = true →
      layoutFields p true = true →
      (let g : Nat → Area := (layoutIn p).get fun _ => {}
       exec (.layoutWritePending r) s =
         .next (if s.layoutOk g = false then s.layoutSays (mbxOf r) 2
           else if s.glb.lck.getLsbD 2 = true ∧ (g 12 ≠ s.area 12 ∨ g 13 ≠ s.area 13 ∨ g 14 ≠ s.area 14 ∨ g 15 ≠ s.area 15)
             then s.layoutSays (mbxOf r) 3
           else (s.modMem fun m => { m with pendLay := some (layoutIn p) }).layoutSays (mbxOf r) 0))) ∧
    (∀ (r : Requester) (p : List Byte) (s : State),
      s.request (mbxOf r) 0x0B10 = some p →
      byteAt p 0 = 4 →
      s.fromSteward r = true →
      layoutFields p false = true →
      s.mem.pendLay ≠ none →
      exec (.layoutDiscardPending r) s = .next ((s.modMem fun m => { m with pendLay := none }).layoutSays (mbxOf r) 0)) ∧
    (∀ (r : Requester) (p : List Byte) (s : State),
      s.request (mbxOf r) 0x0B11 = some p →
      byteAt p 0 = 1 →
      reservedZero p [(0, 1), (4, 4)] = true →
      (let es := (s.mem.plist.filter fun e => s.poisonSeen r e && decide (fieldAt p 4 4 ≤ e.id.toNat)).take 127
       exec (.poisonRead r) s =
         .next (s.respond (mbxOf r) (leBytes 1 0 ++ leBytes 1 es.length ++ List.replicate 14 0 ++ es.flatMap PoisonEnt.bytes)))) ∧
    (∀ (r : Requester) (p : List Byte) (e : PoisonEnt) (s : State),
      s.request (mbxOf r) 0x0B11 = some p →
      byteAt p 0 = 2 →
      s.fromSteward r = true →
      reservedZero p [(0, 1), (4, 4)] = true →
      ((s.mem.plist.find? fun e => e.id.toNat == fieldAt p 4 4) = some e) →
      exec (.poisonClear r) s =
        .next (if e.kind = 0 then s.respond (mbxOf r) (reasonOnly 4 15) else (s.clearPoison e).respond (mbxOf r) (reasonOnly 0 15)))

/-- A calibration that is due in the running gait is queued as grazing, and one for another gait waits for it. A due retry
queues an assist calibration. Marginal sectors are queued to be read again one eighth of SCRUB_D after the pass. A
plan-empty period takes the pending bounds and gait tables. GRAZE_CTRL answers the unreadable-sector entries and wear
figures of an actuator the requester sees; the steward clears an entry, queues a calibration of a present head, and asks
for a plan-empty period. A next state with its effect is stated here of calibrationDue, assistCalRetry, marginalRereadDue,
planEmptyPeriod, grazeReadUnreadable, grazeClearEntry, grazeRecalChannel, grazeRecalServo, grazeRecalAssist,
grazeWearStatus, grazePlanEmptyRequest. (R341, R344, R346, R348, R349, R351, R358) -/
def Obligations.GrazingIsScheduledAndControlled : Prop :=
    (∀ (a : ActId) (h : HeadId) (kind gait : Fin 4) (s : State),
      (s.head a.val h.val).present = true →
      s.calDue a.val h.val kind.val = true →
      (let run := (s.bay (bayOf a.val)).spin.gait.toNat
       (gait.val = 0 ∨ gait.val = run → exec (.calibrationDue a h kind gait) s = .next (s.queueCal a.val h.val kind.val)) ∧
       (gait.val ≠ 0 → gait.val ≠ run → (s.act a.val).graze.calWait.contains (kind.val, h.val, gait.val) = false →
         exec (.calibrationDue a h kind gait) s =
           .next (s.modGraze a.val fun g => { g with calWait := g.calWait ++ [(kind.val, h.val, gait.val)] })))) ∧
    (∀ (a : ActId) (h : HeadId) (s : State),
      (s.head a.val h.val).calDue ≠ 0 →
      (s.head a.val h.val).calDue ≤ s.now →
      exec (.assistCalRetry a h) s = .next ((s.modHead a.val h.val fun x => { x with calDue := 0 }).queueAssistCal a.val h.val)) ∧
    (∀ (a : ActId) (s : State),
      (s.act a.val).graze.marg8 ≠ [] →
      (s.act a.val).graze.passEnd ≠ 0 →
      (s.act a.val).graze.passEnd + within 7 120 28 s.cfg.scrubDNow.toNat * 10800000000000 ≤ s.now →
      exec (.marginalRereadDue a) s =
        .next (s.modGraze a.val fun g =>
          { g with marg8 := [],
                   pending := g.pending ++ (s.act a.val).graze.marg8.map fun k =>
                     let (_, r, p) := (s.ns (k / 2 ^ 48)).locate (k % 2 ^ 48)
                     { order := 11, pos := r * 65536 + p, count := 1, key := k, ref := 1 } })) ∧
    (∀ (a : ActId) (s : State),
      (s.act a.val).adm.running = none →
      s.admittedOn a.val = [] →
      (s.bay (bayOf a.val)).spin.gait = 0 →
      (s.act a.val).graze.newGait = false →
      (let u := s.modGraze a.val fun z =>
           { z.newBounds s.now with newGait := false, peWait := false, gaitVer := (z.newBounds s.now).gaitVer }
       let v := if (s.act a.val).graze.changes s.now = [] then u else u.putRecords a.val [calKind 5 0]
       exec (.planEmptyPeriod a) s =
         .next (((v.modAdm a.val fun d => { d with planEmpty := false }).replan a.val).dispatch a.val))) ∧
    (∀ (r : Requester) (p : List Byte) (s : State),
      s.request (mbxOf r) 0x0C10 = some p →
      byteAt p 0 = 1 →
      reservedZero p [(0, 8)] = true →
      byteAt p 1 < 144 →
      byteAt p 2 = 0 →
      byteAt p 3 = 0 →
      s.seesAll r = true →
      (let es := ((s.act (byteAt p 1)).graze.unread.filter fun u => decide (fieldAt p 4 4 ≤ u.index)).take 127
       exec (.grazeReadUnreadable r) s =
         .next (s.respond (mbxOf r) (leBytes 1 0 ++ leBytes 1 es.length ++ leBytes 2 0 ++ es.flatMap Unreadable.bytes)))) ∧
    (∀ (r : Requester) (p : List Byte) (s : State),
      s.request (mbxOf r) 0x0C10 = some p →
      byteAt p 0 = 2 →
      reservedZero p [(0, 8)] = true →
      byteAt p 1 < 144 →
      byteAt p 2 = 0 →
      byteAt p 3 = 0 →
      s.fromSteward r = true →
      (((s.act (byteAt p 1)).graze.unread.any fun u => u.index == fieldAt p 4 4) = true) →
      exec (.grazeClearEntry r) s =
        .next ((s.modGraze (byteAt p 1) fun g =>
          { g with unread := g.unread.filter fun u => u.index != fieldAt p 4 4, unrFull := false }).grazeSays r 0)) ∧
    (∀ (r : Requester) (p : List Byte) (s : State),
      s.request (mbxOf r) 0x0C10 = some p →
      byteAt p 0 = 2 →
      reservedZero p [(0, 8)] = true →
      byteAt p 1 < 144 →
      byteAt p 2 < 16 →
      (s.head (byteAt p 1) (byteAt p 2)).present = true →
      s.fromSteward r = true →
      (let a := byteAt p 1
       let h := byteAt p 2
       (byteAt p 3 = 1 → exec (.grazeRecalChannel r) s = .next ((s.wantChanCal a h).grazeSays r 0)) ∧
       (byteAt p 3 = 2 → exec (.grazeRecalServo r) s = .next (((s.modHead a h fun x => { x with markServo := true }).queueCal a h 2).grazeSays r 0)) ∧
       (byteAt p 3 = 3 → exec (.grazeRecalAssist r) s = .next ((s.queueAssistCal a h).grazeSays r 0)))) ∧
    (∀ (r : Requester) (p : List Byte) (s : State),
      s.request (mbxOf r) 0x0C10 = some p →
      byteAt p 0 = 3 →
      reservedZero p [(0, 8)] = true →
      byteAt p 1 < 144 →
      byteAt p 2 = 0 →
      byteAt p 3 = 0 →
      s.seesAct r (byteAt p 1) = true →
      (let a := byteAt p 1
       let k := (s.bay (bayOf a)).link
       exec (.grazeWearStatus r) s =
         .next (s.respond (mbxOf r) (reasonOnly 0 3 ++ leBytes 4 (s.act a).graze.loads ++ leBytes 4 k.starts ++ leBytes 8 k.revs
           ++ leBytes 4 (s.hoursAt (bayOf a) 1) ++ leBytes 4 (s.hoursAt (bayOf a) 2) ++ leBytes 4 (s.hoursAt (bayOf a) 3)
           ++ leBytes 1 (s.act a).graze.pct.toNat ++ leBytes 3 0)))) ∧
    (∀ (r : Requester) (p : List Byte) (s : State),
      s.request (mbxOf r) 0x0C10 = some p →
      byteAt p 0 = 4 →
      reservedZero p [(0, 8)] = true →
      byteAt p 1 < 144 →
      byteAt p 2 = 0 →
      byteAt p 3 = 0 →
      s.fromSteward r = true →
      exec (.grazePlanEmptyRequest r) s = .next ((s.modAdm (byteAt p 1) fun x => { x with planEmpty := true }).grazeSays r 0))

/-- A CALREF measurement within 2 % of the bandgap of a good reference starts the disagreement count again; the third bad one
in a row sets REF_FAULT with event 0x7B1 and marks energies untraced; ten good ones of a faulty reference clear it with the
event. An evaluation updates the sensors, then the die scope, the scope of each present bay and of each head, and then the
ceilings. A bay ceiling falls one gait every 2 s at action. THERMTRIP latches with event 0x689 and makes the die scope an
emergency. THERMAL_CTRL reports a present bay, and substitutes or restores a broken sensor of it with event 0x68A. A next
state with its effect is stated here of calrefCheck, thermalEvaluation, ceilingStepTimer, thermtrip, thermalBayStatus,
thermalSubstitute, thermalEndSubstitution. (R353, R363, R365, R369, R370) -/
def Obligations.CalrefAndTemperaturesAreWatched : Prop :=
    (∀ (uv10 : BitVec 18) (s : State),
      122500 ≤ uv10.toNat →
      uv10.toNat ≤ 127500 →
      s.cal.refFault = false →
      exec (.calrefCheck uv10) s = .next { s with cal := { s.cal with uv10 := uv10, disagree := 0, agree := 0 } }) ∧
    (∀ (uv10 : BitVec 18) (s : State),
      uv10.toNat < 122500 ∨ 127500 < uv10.toNat →
      s.cal.refFault = false →
      s.cal.disagree = 2 →
      exec (.calrefCheck uv10) s =
        .next (({ s with
          cal := { s.cal with uv10 := uv10, disagree := 3, agree := 0, refFault := true }
          tally := { s.tally with enUntraced := true } }).raise 0x7B1)) ∧
    (∀ (uv10 : BitVec 18) (s : State),
      122500 ≤ uv10.toNat →
      uv10.toNat ≤ 127500 →
      s.cal.refFault = true →
      s.cal.agree = 9 →
      exec (.calrefCheck uv10) s =
        .next (({ s with cal := { s.cal with uv10 := uv10, refFault := false, agree := 0, disagree := 0 } }).raise 0x7B1)) ∧
    (∀ (rs : List TempReading) (s : State),
      (let t := s.modThm fun _ => s.evalSensors rs
       let u := (List.range 96).foldl (fun t n =>
         if (t.thm.sens 0 n).level = (s.thm.sens 0 n).level ∧ (t.thm.sens 0 n).broken = (s.thm.sens 0 n).broken then t else t.raise (0x628 + n)) t
       let v := u.dieStep (u.evalScope u.thm.dieScope 0 (List.range 96))
       let w := v.each ((List.range 72).filter fun b => (v.bay b).link.present) fun t b =>
         t.bayStep b (t.evalScope (t.bayScope b) 1 ((List.range 4).map (4 * b + ·))) (decide (2 ≤ (t.thm.sens 1 (4 * b + 3)).level))
       let x := w.each (w.thm.head.map (·.1)) fun t k => t.headStep (k / 16) (k % 16) (t.evalScope (t.headScope (k / 16) (k % 16)) 2 [k])
       exec (.thermalEvaluation rs) s = .next ((x.each (List.range 72) fun t b => t.bayEvent s b).ceilingsFrom s))) ∧
    (∀ (b : BayId) (s : State),
      (s.bayScope b.val).level = 2 →
      (s.bayScope b.val).stepAt + 2000000000 ≤ s.now →
      1 < (s.bayScope b.val).ceil.toNat →
      exec (.ceilingStepTimer (some b)) s =
        .next (((s.modThm fun m =>
          { m with bayScope := Tab.put m.bayScope b.val { s.bayScope b.val with ceil := (s.bayScope b.val).ceil - 1, stepAt := s.now } }).bayEvent s
            b.val).ceilingsFrom s)) ∧
    (∀ (n : Fin 96) (s : State),
      (s.thm.sens 0 n.val).broken = false →
      s.glb.coldRst = false →
      (let t := (s.modGlb fun g => { g with thermTrip := true }).raise 0x689
       let u := t.dieStep { t.thm.dieScope with level := 3, emerg := true, coolSince := none, normSince := none }
       exec (.thermtrip n) s = .next ((u.each (List.range 72) fun t b => t.bayEvent s b).ceilingsFrom s))) ∧
    (∀ (r : Requester) (p : List Byte) (s : State),
      s.request (mbxOf r) 0x0D10 = some p →
      reservedZero p [(0, 3)] = true →
      byteAt p 1 < 72 →
      byteAt p 2 < 4 →
      s.seesAll r = true →
      (s.bay (byteAt p 1)).link.present = true →
      (let b := byteAt p 1
       let k := 4 * b + byteAt p 2
       (byteAt p 0 = 1 → byteAt p 2 = 0 → exec (.thermalBayStatus r) s = .next (s.thermalReply (mbxOf r) b)) ∧
       (byteAt p 0 = 2 → (s.thm.sens 1 k).broken = true → s.thm.available s.now 1 k ≠ [] → exec (.thermalSubstitute r) s =
         .next (((s.modThm fun t => t.setSens 1 k { t.substitute s.now k with subst := true, hist := [] }).raise 0x68A).thermalReply (mbxOf r) b)) ∧
       (byteAt p 0 = 3 → (s.thm.sens 1 k).subst = true → exec (.thermalEndSubstitution r) s =
         .next (((s.modThm fun t =>
           { t.setSens 1 k { t.sens 1 k with subst := false, broken := true, okSince := none, hist := [] } with
             brkcnt := if (t.sens 1 k).broken then t.brkcnt else t.brkcnt + 1 }).raise 0x68A).thermalReply (mbxOf r) b))))

/-- While the DIAG window is open, the steward resets a channel, decoder or loop island, and any other number changes nothing;
a hard fault resets any island. A re-arm returns an island that is in reset, with its crossings in service. A channel
island starts a switch outside a transfer and ends it at its lane clock. TIMEREF lost holds the PLLs with event 0x7B2 and
marks times untraced; its return latches the event. A qualified PPS edge of a locked input disciplines device time; 2 s
without one loses it with event 0x7B3. A next state with its effect is stated here of islandReset, islandHardFaultReset,
crossingRearm, clockSwitch, timerefLost, timerefRestored, ppsEdge, ppsLost. (R374, R380, R381, R382, R383, R384) -/
def Obligations.ClocksAndCrossingsRecover : Prop :=
    (∀ (f : FnId) (isl : BitVec 8) (flight : Tab Nat) (s : State),
      s.stewardMmio f.val = true →
      s.diagOpen = true →
      isl.toNat < 144 ∨ 148 ≤ isl.toNat ∧ isl.toNat < 172 →
      (s.isl isl.toNat).reset = false →
      exec (.islandReset f isl flight) s =
        .next (((s.touch f.val).peerReset isl.toNat flight).islandEffect isl.toNat)) ∧
    (∀ (f : FnId) (isl : BitVec 8) (flight : Tab Nat) (s : State),
      s.stewardMmio f.val = true →
      s.diagOpen = false ∨ 144 ≤ isl.toNat ∧ isl.toNat < 148 ∨ 172 ≤ isl.toNat →
      exec (.islandReset f isl flight) s = .next (s.touch f.val)) ∧
    (∀ (isl : Fin 217) (flight : Tab Nat) (s : State),
      (s.isl isl.val).reset = false →
      exec (.islandHardFaultReset isl flight) s = .next ((s.peerReset isl.val flight).islandEffect isl.val)) ∧
    (∀ (isl : Fin 217) (s : State),
      (s.isl isl.val).reset = true →
      isl.val < 144 ∨ 148 ≤ isl.val ∧ isl.val < 184 ∨ 192 ≤ isl.val →
      exec (.crossingRearm isl) s =
        .next ((s.modIsl isl.val fun x =>
          { x with holdover := decide (isl.val < 144), recov := false, period := BitVec.ofNat 16 (s.islPeriod isl.val) }).rearm isl.val)) ∧
    (∀ (a : ActId) (s : State),
      (s.isl a.val).ready = true →
      (s.isl a.val).switching = false →
      s.transfers a.val = false →
      exec (.clockSwitch a .starts) s = .next (s.modIsl a.val fun x => { x with switching := true, recov := true })) ∧
    (∀ (a : ActId) (s : State),
      ((s.isl a.val).switching = true → exec (.clockSwitch a .ends) s =
         .next (s.modIsl a.val fun x =>
           { x with switching := false, holdover := !s.laneClock a.val, period := BitVec.ofNat 16 (s.islPeriod a.val) })) ∧
       ((s.isl a.val).recov = true → (s.isl a.val).switching = false → exec (.clockSwitch a .settled) s =
         .next (s.modIsl a.val fun x => { x with recov := false }))) ∧
    (∀ (s : State),
      (s.clk.trefHold = false → exec .timerefLost s =
         .next { (s.modClk fun c => { c with trefHold := true }).raise 0x7B2 with tally := { s.tally with untraced := true } }) ∧
       (s.clk.trefHold = true → exec .timerefRestored s = .next ((s.modClk fun c => { c with trefHold := false }).raise 0x7B2))) ∧
    (∀ (falling : Bool) (t : Nat) (s : State),
      s.clk.ppsEn = true →
      s.clk.ppsFall = falling →
      s.clk.lastEdge = some t →
      t + 999900000 ≤ s.now →
      s.now ≤ t + 1000100000 →
      s.clk.pps = 2 →
      exec (.ppsEdge falling) s =
        .next ((s.modClk fun c =>
          { c with lastEdge := some s.now, edgeRun := s.clk.edgeRun + 1, lastQual := s.now, pps := 2 }).discipline)) ∧
    (∀ (s : State),
      s.clk.pps = 2 →
      s.clk.lastQual + 2000000000 ≤ s.now →
      exec .ppsLost s =
        .next ((s.modClk fun c => { c with pps := 3, edgeRun := 0, lastEdge := none, slewLeft := 0, slewing := false, slewAcc := 0 }).raise 0x7B3))

/-- A response fills the response buffer, copies SEQ and OPCODE, sets DONE, clears BUSY and what it owed, and latches function
event 0, or 0x7C9 for the sideband. SMBus writes and starts act on the sideband mailbox when their PEC is right, and latch
0x7CA with no other effect when it is not; its reads answer the status and at most 240 bytes from the offset, which
advances. A deferred response is written when its operation has ended. IDENTIFY answers the identity and the requester's
function. A next state with its effect is stated here of smbusRequestWrite, smbusRequestStart, smbusReadOffset,
smbusStatusRead, smbusResponseRead, mailboxDeferredResponse, identify. (R387, R388, R391, R393, R389) -/
def Obligations.TheMailboxServesOneRequestAtATime : Prop :=
    (∀ (s : State) (k st : Nat) (bs : List Byte),
      (let t := s.modMbx k fun m =>
         { m with rspbuf := bs, rspSeq := m.rqSeq, rspOpcode := BitVec.ofNat 16 m.rqOp, rspValid := true, tstatus := BitVec.ofNat 4 st, done := true,
                  busy := false, owed := none, rqData := [] }
       s.respondAs k st bs = if k = 256 then t.raise 0x7C9 else t.raiseFn k 0)) ∧
    (∀ (s : State),
      s.glb.coldRst = false →
      (∀ off data, exec (.smbusRequestWrite off data false) s = .next (s.raise 0x7CA)) ∧
       (∀ op len seq, exec (.smbusRequestStart op len seq false) s = .next (s.raise 0x7CA)) ∧
       (∀ off, exec (.smbusReadOffset off false) s = .next (s.raise 0x7CA))) ∧
    (∀ (off : BitVec 16) (data : List Byte) (s : State),
      s.glb.coldRst = false →
      data ≠ [] →
      data.length ≤ 240 →
      (s.mbx 256).busy = false →
      exec (.smbusRequestWrite off data true) s =
        .next (s.modMbx 256 fun m =>
          { m with reqbuf := data.zipIdx.foldl (fun t (b, i) => if off.toNat + i < 4096 then Tab.put t (off.toNat + i) b else t) m.reqbuf })) ∧
    (∀ (op len seq : BitVec 16) (s : State),
      s.glb.coldRst = false →
      (s.mbx 256).busy = false →
      exec (.smbusRequestStart op len seq true) s =
        .next ((s.modMbx 256 fun m => { m with opcode := op, len := len }).goMbx 256 seq)) ∧
    (∀ (s : State),
      s.glb.coldRst = false →
      exec .smbusStatusRead s = .next (s.emit (.smbus (leBytes 4 (s.mbx 256).stat ++ leBytes 4 (s.mbx 256).rsp))) ∧
       (∀ off : BitVec 16, exec (.smbusReadOffset off true) s =
         .next (if off.toNat < 4096 then s.modMbx 256 fun m => { m with rdOff := off.truncate 12 } else s)) ∧
       exec .smbusResponseRead s =
         .next ((s.emit (.smbus (((s.mbx 256).rspbuf.drop (s.mbx 256).rdOff.toNat).take 240))).modMbx 256 fun m =>
           { m with rdOff := m.rdOff + BitVec.ofNat 12 (((s.mbx 256).rspbuf.drop (s.mbx 256).rdOff.toNat).take 240).length })) ∧
    (∀ (r : Requester) (key : Nat) (pass : Bool) (s : State),
      (s.mbx (mbxOf r)).owed = some (.sqDelete key) →
      s.sqPending key = false →
      exec (.mailboxDeferredResponse r pass) s =
        .next ({ s with sqs := s.sqs.filter fun x => x.1 != key }.respond (mbxOf r) (reasonOnly 0 0))) ∧
    (∀ (r : Requester) (e : Nat) (pass : Bool) (s : State),
      (s.mbx (mbxOf r)).owed = some (.deRetest e) →
      exec (.mailboxDeferredResponse r pass) s = .next (s.endRetest (mbxOf r) e pass)) ∧
    (∀ (r : Requester) (s : State),
      s.request (mbxOf r) 0x0F01 = some [] →
      (let ver (t : Nat) : Nat := (s.boot.runComps.get (fun _ => 0) t).toNat
       exec (.identify r) s =
         .next (s.respond (mbxOf r) (leBytes 1 0 ++ leBytes 1 (bit s.boot.trailhead) ++ leBytes 2 (fnNumber r) ++ leBytes 1 (bit (s.fromSteward r))
           ++ leBytes 1 Config.silRev.toNat ++ leBytes 2 (4096 - s.sqs.length) ++ partNumber ++ leBytes 8 Config.serialNumber.toNat
           ++ leBytes 4 (ver 1) ++ leBytes 4 (ver 2)))))

/-- A queue that breaks a limit, exists, is one too many or names no CQ is refused with its REASON and nothing is created. A CQ
is created with its base, size and time base, which the response returns; an SQ with its base, size and CQ. A CQ with an SQ
bound to it is not deleted; another is. Deleting an SQ stops its fetch and answers once no command of it is pending. A
reset stops fetch on every SQ of the function, ends every command not at its waymark with ABORTED_BY_RESET, silences the
others, and answers the head of every SQ. A next state with its effect is stated here of queueCreate, queueDelete,
queueReset. (R61, R62, R85, R394, R77) -/
def Obligations.QueuesAreCreatedDeletedAndReset : Prop :=
    (∀ (r : Requester) (p : List Byte) (s : State),
      s.request (mbxOf r) 0x0F10 = some p →
      s.queueRefused (reqFn r) p ≠ 0 →
      exec (.queueCreate r) s = .next (s.respond (mbxOf r) (reasonOnly (s.queueRefused (reqFn r) p) 15))) ∧
    (∀ (r : Requester) (p : List Byte) (s : State),
      s.request (mbxOf r) 0x0F10 = some p →
      s.queueRefused (reqFn r) p = 0 →
      (byteAt p 0 = 1 → exec (.queueCreate r) s =
         .next ((s.setCq (64 * reqFn r + byteAt p 1) { base := fieldAt p 8 8, size := fieldAt p 4 4, timeBase := s.now }).respond (mbxOf r)
           (reasonOnly 0 7 ++ leBytes 8 s.now))) ∧
       (byteAt p 0 ≠ 1 → exec (.queueCreate r) s =
         .next ((s.setSq (64 * reqFn r + byteAt p 1) { base := fieldAt p 8 8, size := fieldAt p 4 4, cq := byteAt p 2 }).respond (mbxOf r)
           (reasonOnly 0 15)))) ∧
    (∀ (r : Requester) (p : List Byte) (x : Cq) (s : State),
      s.request (mbxOf r) 0x0F11 = some p →
      reservedZero p [(0, 2)] = true →
      byteAt p 0 = 1 →
      byteAt p 1 ≤ 63 →
      s.cqs.find (64 * reqFn r + byteAt p 1) = some x →
      exec (.queueDelete r) s =
        .next (if (s.sqs.any fun y => y.1 / 64 == reqFn r && y.2.cq == byteAt p 1) = true then s.respond (mbxOf r) (reasonOnly 5 0)
          else
            let t := s.mapCmds fun c => if c.fn = reqFn r ∧ c.cq = byteAt p 1 then { c with cqGone := true } else c
            { t with cqs := t.cqs.filter fun y => y.1 != 64 * reqFn r + byteAt p 1 }.respond (mbxOf r) (reasonOnly 0 0))) ∧
    (∀ (r : Requester) (p : List Byte) (x : Sq) (s : State),
      s.request (mbxOf r) 0x0F11 = some p →
      reservedZero p [(0, 2)] = true →
      byteAt p 0 = 0 →
      byteAt p 1 ≤ 63 →
      s.sqs.find (64 * reqFn r + byteAt p 1) = some x →
      (let key := 64 * reqFn r + byteAt p 1
       let t := (s.unfetch key).modSq key fun x => { x with deleting := true }
       exec (.queueDelete r) s =
         .next (if t.sqPending key = true then t.modMbx (mbxOf r) fun m => { m with owed := some (.sqDelete key) } else t.sqGone (mbxOf r) key))) ∧
    (∀ (r : Requester) (p : List Byte) (f : Nat) (s : State),
      s.request (mbxOf r) 0x0F12 = some p →
      reservedZero p [(2, 2)] = true →
      f = (if fieldAt p 2 2 = 0xFFFF then reqFn r else fieldAt p 2 2) →
      s.mayResetQueues (reqFn r) f = true →
      (let t := s.each ((s.sqs.filter fun r => r.1 / 64 == f).map (·.1)) State.unfetch
       let u := (t.finishAll ((t.ledger.filter fun c => c.fn == f && c.phase != .heldCpl && !c.waymark && !c.silent).map (·.id)) Sts.abortedByReset).runWaiting
       let v := u.mapCmds fun c => if c.fn = f ∧ c.phase ≠ .heldCpl ∧ c.waymark then { c with silent := true } else c
       exec (.queueReset r) s =
         .next (v.respond (mbxOf r) (reasonOnly 0 15 ++ (List.range 64).flatMap fun j => leBytes 2 (v.sq (64 * f + j)).head))))

/-- A namespace that may be made takes its fields, the first free extents or bands of each actuator of its set and a new key
generation, and answers its sectors. One with no grant and no command is deleted. Grants and revocations are staged in the
order asked, the last for a namespace and port standing. An attachment to a granted port by the steward or a function of
the port acts at once. While LCK_CTRL.NS is set a grant and an attachment answer REASON 2. NS_INFO answers a namespace the
requester sees. A next state with its effect is stated here of nsCreate, nsDelete, nsGrant, nsRevoke, nsAttach, nsDetach,
nsInfo. (R395, R396, R393, R425) -/
def Obligations.NamespacesAreCreatedGrantedAndAttached : Prop :=
    (∀ (r : Requester) (p : List Byte) (s : State),
      s.request (mbxOf r) 0x0F20 = some p →
      s.nsRefused p = 0 →
      (let z := byteAt p 0 == 1
       let n := fieldAt p 2 2
       let set := actMap p 16
       let e := fieldAt p 8 4
       let t := ((s.setNs n
         { present := true, zoned := z, unit := byteAt p 4, keyslot := fieldAt p 6 2, perAct := e, sectors := set.length * e * 65536, actset := set,
           space := set.map fun a => (a, (s.spaceFree a z).take e) }).raiseGen (fieldAt p 6 2) n).modAcc (nsAcc n) fun x =>
             { x with enabled := true, partial_ := true }
       exec (.nsCreate r) s = .next (t.refreshNs.respond (mbxOf r) (reasonOnly 0 7 ++ leBytes 8 (set.length * e * 65536))))) ∧
    (∀ (r : Requester) (p : List Byte) (s : State),
      s.request (mbxOf r) 0x0F21 = some p →
      reservedZero p [(2, 2)] = true →
      (s.ns (fieldAt p 2 2)).present = true →
      (s.ns (fieldAt p 2 2)).ports = [] →
      ((s.ledger.any fun c => c.nsid == fieldAt p 2 2 && !c.noEntry) = false) →
      exec (.nsDelete r) s = .next ((s.dropNs (fieldAt p 2 2)).respond (mbxOf r) (reasonOnly 0 0))) ∧
    (∀ (r : Requester) (p : List Byte) (g : Bool) (s : State),
      s.request (mbxOf r) 0x0F22 = some p →
      byteAt p 4 = bit g →
      reservedZero p [(1, 4)] = true →
      byteAt p 1 ≤ 3 →
      (s.ns (fieldAt p 2 2)).present = true →
      (let t := if s.glb.lck.getLsbD 1 = true then s.respond (mbxOf r) (reasonOnly 2 0)
          else (s.modCfg fun c =>
            { c with stagedGrants := (c.stagedGrants.filter fun x => !(x.nsid == fieldAt p 2 2 && x.port == byteAt p 1))
                ++ [{ nsid := fieldAt p 2 2, port := byteAt p 1, grant := g }] }).respond (mbxOf r) (reasonOnly 0 0)
       (g = true → exec (.nsGrant r) s = .next t) ∧ (g = false → exec (.nsRevoke r) s = .next t))) ∧
    (∀ (r : Requester) (p : List Byte) (g : Bool) (s : State),
      s.request (mbxOf r) 0x0F23 = some p →
      byteAt p 6 = bit g →
      reservedZero p [(2, 5)] = true →
      fieldAt p 4 2 ≤ 255 →
      (s.ns (fieldAt p 2 2)).present = true →
      (s.ns (fieldAt p 2 2)).ports.contains (portOf (fieldAt p 4 2)) = true →
      s.isSteward (reqFn r) = true ∨ portOf (reqFn r) = portOf (fieldAt p 4 2) →
      (let t := if s.glb.lck.getLsbD 1 = true then s.respond (mbxOf r) (reasonOnly 2 0)
          else (s.attach (fieldAt p 2 2) (fieldAt p 4 2) g).respond (mbxOf r) (reasonOnly 0 0)
       (g = true → exec (.nsAttach r) s = .next t) ∧ (g = false → exec (.nsDetach r) s = .next t))) ∧
    (∀ (r : Requester) (p : List Byte) (s : State),
      s.request (mbxOf r) 0x0F24 = some p →
      reservedZero p [(2, 2)] = true →
      0 < fieldAt p 2 2 →
      fieldAt p 2 2 ≤ 4096 →
      (s.ns (fieldAt p 2 2)).present = true →
      s.seesNs r (s.ns (fieldAt p 2 2)) = true →
      (let n := s.ns (fieldAt p 2 2)
       exec (.nsInfo r) s =
         .next (s.respond (mbxOf r) (leBytes 1 0 ++ leBytes 1 (bit n.zoned) ++ leBytes 1 (s.nsState n)
           ++ leBytes 1 (((List.range 4).map fun q => at_ q (bit (n.ports.contains q))).sum) ++ leBytes 2 n.keyslot ++ leBytes 2 0
           ++ leBytes 8 n.sectors ++ actBytes n.actset))))

/-- A commit while an epoch applies is refused with REASON 1; one with a bad staged value answers REASON 2 and its offset. Else
the staged copies become the applied ones under the next epoch, the staged grants act, and every actuator not at a safe
point is left to apply. The last actuator to apply ends the epoch. CFG_STATUS answers that state. A good flash record
clears FLASH_PEND. Tally rings are made, deleted and reported, and at each minute the records are written with event 0x7C8.
The steward moves over the sideband after a second with its port down. A next state with its effect is stated here of
cfgCommit, epochSafePoint, cfgStatus, flashRecordWritten, tallyRingCreate, tallyRingDelete, tallyRingStatus, stewardMove,
tallyMinuteEnd. (R398, R399, R397, R405) -/
def Obligations.EpochsCommitApplyAndAreRecorded : Prop :=
    (∀ (r : Requester) (s : State),
      s.request (mbxOf r) 0x0F30 = some [] →
      (s.cfg.left ≠ [] → exec (.cfgCommit r) s = .next (s.respond (mbxOf r) (reasonOnly 1 3 ++ leBytes 4 0 ++ leBytes 4 0))) ∧
       (∀ off t, s.cfg.left = [] → s.cfg.staged.bad = off :: t →
         exec (.cfgCommit r) s = .next (s.respond (mbxOf r) (reasonOnly 2 3 ++ leBytes 4 0 ++ leBytes 4 off)))) ∧
    (∀ (r : Requester) (s : State),
      s.request (mbxOf r) 0x0F30 = some [] →
      s.cfg.left = [] →
      s.cfg.staged.bad = [] →
      ((s.cfg.stagedGrants.any fun g => g.grant && !(s.ns g.nsid).present) = false) →
      (((List.range 144).filter fun a => !s.safeNow a) ≠ []) →
      (let t := s.modCfg fun c =>
         { c with prev := c.applied, prevEpoch := c.epochReq, applied := c.staged, epochReq := c.epochReq + 1,
                  left := (List.range 144).filter fun a => !s.safeNow a, stagedGrants := [] }
       let v := (t.raise 0x7B8).each s.cfg.stagedGrants State.putGrant
       let y := v.each ((List.range 144).filter fun a => !s.safeNow a) fun w a => w.modAdm a fun x => { x with epoch := some w.cfg.prevEpoch }
       let u := y.each ((List.range 144).filter s.safeNow) fun w a => w.reweigh a w.cfg.prev w.cfg.applied
       exec (.cfgCommit r) s = .next (u.respond (mbxOf r) (reasonOnly 0 3 ++ leBytes 4 u.cfg.epochReq.toNat ++ leBytes 4 0)))) ∧
    (∀ (a : ActId) (s : State),
      s.cfg.left.contains a.val = true →
      (let t := (s.modCfg fun c => { c with left := c.left.filter (· != a.val) }).reweigh a.val s.cfg.prev s.cfg.applied
       exec (.epochSafePoint a) s = .next (if t.cfg.left = [] then t.epochApplied else t))) ∧
    (∀ (r : Requester) (s : State),
      s.request (mbxOf r) 0x0F31 = some [] →
      exec (.cfgStatus r) s =
        .next (s.respond (mbxOf r) (leBytes 1 0 ++ leBytes 1 (bit (!s.cfg.left.isEmpty) + at_ 1 (bit s.cfg.flashPend)) ++ leBytes 1 s.cfg.left.length
          ++ leBytes 1 0 ++ leBytes 4 s.cfg.epochReq.toNat ++ actBytes ((List.range 144).filter fun a => !s.cfg.left.contains a)))) ∧
    (∀ (s : State),
      s.cfg.flashPend = true →
      exec (.flashRecordWritten { port := none, pass := true }) s =
        .next (s.modCfg fun c => { c with flashCfg := c.pendCfg, flashEpoch := c.pendEpoch, flashGrants := c.pendGrants, flashPend := false }) ∧
       exec (.flashRecordWritten { port := none, pass := false }) s = .next s) ∧
    (∀ (x : PortRec) (s : State),
      exec (.flashRecordWritten { port := some x, pass := true }) s = .next (s.writePortRec x) ∧ exec (.flashRecordWritten { port := some x, pass := false }) s = .next s) ∧
    (∀ (r : Requester) (p : List Byte) (key : Nat) (s : State),
      s.request (mbxOf r) 0x0F40 = some p →
      reservedZero p [(0, 2), (4, 12)] = true →
      byteAt p 1 ≤ 2 →
      byteAt p 1 = 0 ∨ isPf (reqFn r) = true →
      key = 4 * reqFn r + byteAt p 1 →
      (byteAt p 0 = 1 → 16 ≤ fieldAt p 4 4 → fieldAt p 4 4 ≤ 65536 → fieldAt p 8 8 % 4096 = 0 → (s.ring key).present = false →
         exec (.tallyRingCreate r) s =
           .next ((s.setRing key { present := true, base := fieldAt p 8 8, entries := fieldAt p 4 4, overrun := (s.ring key).overrun }).respond
             (mbxOf r) (reasonOnly 0 7 ++ leBytes 8 1))) ∧
       (byteAt p 0 = 2 → (s.ring key).present = true →
         exec (.tallyRingDelete r) s =
           .next ((s.setRing key { overrun := (s.ring key).overrun }).respond (mbxOf r) (reasonOnly 0 7 ++ leBytes 8 0))) ∧
       (byteAt p 0 = 3 → (s.ring key).present = true →
         exec (.tallyRingStatus r) s = .next (s.respond (mbxOf r) (reasonOnly 0 7 ++ leBytes 8 ((s.ring key).seq + 1))))) ∧
    (∀ (r : Requester) (p : List Byte) (s : State),
      s.request (mbxOf r) 0x0F50 = some p →
      reservedZero p [(0, 1)] = true →
      byteAt p 0 ≤ 3 →
      s.glb.lck.getLsbD 0 = false →
      (s.port s.stewardPort).h0.up = false →
      (s.port s.stewardPort).h1.up = false →
      (s.port s.stewardPort).downAt + 1000000000 < s.now →
      s.stewardReady (byteAt p 0) = true →
      exec (.stewardMove r) s = .next ((s.moveSteward (byteAt p 0)).respond (mbxOf r) (reasonOnly 0 0))) ∧
    (∀ (spin dec : Nat) (tr : Option (Nat × Nat)) (s : State),
      (s.tally.minute + 1) * 60000000000 ≤ s.now →
      ∃ t, exec (.tallyMinuteEnd spin dec tr) s = .next t ∧ t.tally.minute = s.tally.minute + 1 ∧ t.tally.stepped = false ∧
        t.tally.untraced = s.clk.trefHold ∧ t.ledger = s.ledger ∧ t.acts = s.acts ∧ t.now = s.now)

/-- An assertion of COLD_RST_N under 1 µs is ignored; one of 10 µs or more holds the device in reset, with everything but the
kept state wiped and SHELF_FAULT_N released. Its end sets device time to 0 and begins a start with cause 1, or 2 after a
power loss. A valid image in time completes the start; 30 s without it fails it with cause 6, an invalid image with its own
cause, and an unserviced Markhor watchdog with cause 7. After a start the watchdogs restart a core or a herd with event
0x786, and a herd's restart ends by testing what it held. A next state with its effect is stated here of coldRstAssert,
coldRstDeassert, startComplete, startTimeout, startImageInvalid, markhorWatchdog, chamoisWatchdog, herdFirmwareRestartEnd.
(R414, R415, R416, R418, R449, R453) -/
def Obligations.ColdResetsAndStartsRunAsStated : Prop :=
    (∀ (ns : Nat) (s : State),
      ns < 1000 ∨ s.glb.coldRst = true →
      exec (.coldRstAssert ns) s = .next s) ∧
    (∀ (ns : Nat) (s : State),
      10000 ≤ ns →
      s.glb.coldRst = false →
      exec (.coldRstAssert ns) s =
        .next ((s.wipe true).modGlb fun g => { g with coldRst := true, thermTrip := s.glb.thermTrip, shelfFault := false })) ∧
    (∀ (st : Straps) (bad lost : List Nat) (s : State),
      s.glb.coldRst = true →
      ∃ t, exec (.coldRstDeassert st bad lost) s = .next t ∧ t.now = 0 ∧ t.glb.coldRst = false ∧ t.boot.lossMark = false ∧
        t.ledger = [] ∧ t.ram = [] ∧ t.glb.lck = 0) ∧
    (∀ (img : FlashImage) (c : SlotCheck) (de le : List Nat) (s : State),
      s.boot.starting = true →
      s.glb.coldRst = false →
      s.now ≤ s.boot.startAt + 30000000000 →
      c = s.readImage s.boot.slot.toNat img →
      s.imageCause s.boot.slot.toNat c = none →
      exec (.startComplete img de le) s = .next (s.completeStart c de le)) ∧
    (∀ (s : State),
      s.boot.starting = true →
      s.glb.coldRst = false →
      (s.boot.startAt + 30000000000 ≤ s.now → exec .startTimeout s = .next (s.failStart 6)) ∧
       (∀ img c, s.imageCause s.boot.slot.toNat (s.readImage s.boot.slot.toNat img) = some c → exec (.startImageInvalid img) s = .next (s.failStart c)) ∧
       (s.boot.trailhead = false → exec .markhorWatchdog s = .next (s.failStart 7))) ∧
    (∀ (s : State) (cause : Nat),
      (let n : BitVec 2 := BitVec.ofNat 2 (min 3 (s.boot.attempt.toNat + 1))
       let m : BitVec 2 := BitVec.ofNat 2 (min 3 (s.boot.attempt.toNat + 1))
       let t := s.modBoot fun b => { (b.push b.slot.toNat cause) with attempt := n, mirror := m, lastFail := BitVec.ofNat 6 cause }
       s.failStart cause = ((t.wipe false).halfHeads.beginStart cause).raise 0x781)) ∧
    (∀ (s : State),
      s.glb.coldRst = false →
      s.boot.trailhead = false →
      s.boot.starting = false →
      s.boot.running = true →
      exec .markhorWatchdog s = .next s.restartCore) ∧
    (∀ (h : Fin 18) (s : State),
      s.boot.running = true →
      s.boot.trailhead = false →
      (s.herd h.val).running = true →
      exec (.chamoisWatchdog h) s =
        .next ((((s.modHerd h.val fun x => { x with running := false, restart := some s.now }).each ((List.range 8).map (8 * h.val + ·)) fun s a =>
          s.modAdm a fun x => { x with restartHold := true }).raise 0x786))) ∧
    (∀ (h : Fin 18) (t : Nat) (s : State),
      (s.herd h.val).restart = some t →
      exec (.herdFirmwareRestartEnd h) s =
        .next (((s.modHerd h.val fun x => { x with running := true, restart := none }).each ((List.range 8).map (8 * h.val + ·)) fun s a =>
          s.modAdm a fun x => { x with restartHold := false }).retestAll))

/-- Every command answers a next state, but an assertion of COLD_RST_N of 1,000 ns or more and less than 10,000 ns out of a
cold reset: it stops with the fault of that name. (R449) -/
def Obligations.OneColdResetPulseIsUndefined : Prop :=
    (∀ (c : Instr) (s : State),
      (∀ ns, c = .coldRstAssert ns → ns < 1000 ∨ 10000 ≤ ns ∨ s.glb.coldRst = true) →
      ∃ t, exec c s = .next t) ∧
    (∀ (ns : Nat) (s : State),
      1000 ≤ ns →
      ns < 10000 →
      s.glb.coldRst = false →
      exec (.coldRstAssert ns) s = .fault .coldResetPulseUndefined)

/-- The steward's DEVICE_RESET is answered and falls due 10 ms later, with action 2 into Trailhead mode. A due reset lands what
its law lets land on every loaded actuator, except after a power loss, wipes the device, and begins a start or Trailhead
mode. Three domains low for 10 µs declare the loss: fetch and posting stop, event 0x762 latches, every routine ends, and
the loaded actuators flush. With a TMAX of 0 the reset is asked after 10 ms and nothing is flushed. A bay's flush ends when
all has landed, at TMAX or below VSTOP: what its loaded actuators landed is recorded and they retract, and the last bay
asks the reset. A quarantine is released by the steward with a new bring-up. A next state with its effect is stated here of
deviceReset, trailheadReset, deviceLevelReset, powerLossDeclared, holdupFlushEnd, quarantineStatus, quarantineRelease.
(R141, R142, R419, R420, R421, R434) -/
def Obligations.DeviceResetsAndPowerLoss : Prop :=
    (∀ (r : Requester) (p : List Byte) (s : State),
      s.request (mbxOf r) 0x0E50 = some p →
      s.fromSteward r = true →
      reservedZero p [(0, 1)] = true →
      s.boot.trailhead = false →
      (byteAt p 0 = 1 → exec (.deviceReset r) s = .next ((s.respond (mbxOf r) (reasonOnly 0 0)).askReset (s.now + 10000000) 1)) ∧
       (byteAt p 0 = 2 → exec (.trailheadReset r) s = .next ((s.respond (mbxOf r) (reasonOnly 0 0)).askReset (s.now + 10000000) 2))) ∧
    (∀ (landed : Tab (Option Nat)) (due action : Nat) (s : State),
      s.boot.resetReq = some (due, action) →
      due ≤ s.now →
      s.glb.coldRst = false →
      action ≠ 4 →
      (let t := s.each ((List.range 144).filter s.loaded) fun s a => (s.writeDir a).landStaged a (landed.get (fun _ => none) a)
       let u := (t.wipe false).halfHeads.modBoot fun b => { (b.endRun (resetCause action)) with lossMark := b.lossMark }
       exec (.deviceLevelReset landed) s = .next (if action = 2 then u.enterTrailhead 0x0B else u.beginStart (resetCause action)))) ∧
    (∀ (s : State),
      3 ≤ s.lowDomains.length →
      s.boot.lossAt = none →
      s.glb.coldRst = false →
      (let t := ((s.modBoot fun b => { b with postStop := true, lossAt := some s.now, lossMark := true }).raise 0x762).each (List.range 144)
         State.endRoutine
       let as := (List.range 144).filter t.loaded
       t.cfg.tmax = s.cfg.tmax ∧ t.now = s.now ∧
       exec .powerLossDeclared s =
         .next (if t.cfg.tmax = 0 then t.askReset (t.now + 10000000) 4 else if as = [] then t.askReset t.now 4
           else (t.each as State.beginFlush).modBoot fun b => { b with bayFlush := (as.map bayOf).eraseDups }))) ∧
    (∀ (b : BayId) (la lb : Option Nat) (s : State),
      s.boot.bayFlush.contains b.val = true →
      s.flushOver b.val la lb = true →
      (let t := if s.loaded (2 * b.val) then (s.landStaged (2 * b.val) la).retract (2 * b.val) 3 else s
       let u := if t.loaded (2 * b.val + 1) then (t.landStaged (2 * b.val + 1) lb).retract (2 * b.val + 1) 3 else t
       exec (.holdupFlushEnd b la lb) s = .next (u.endBayFlush b.val))) ∧
    (∀ (b : Nat) (s : State),
      s.boot.bayFlush.contains b = true →
      (let t := s.modBoot fun x => { x with bayFlush := x.bayFlush.filter (· != b) }
       s.endBayFlush b = if t.boot.bayFlush = [] then t.askReset t.now 4 else t)) ∧
    (∀ (r : Requester) (p : List Byte) (s : State),
      s.request (mbxOf r) 0x0E20 = some p →
      reservedZero p [(0, 2)] = true →
      byteAt p 1 ≤ 71 →
      s.fromSteward r = true →
      (byteAt p 0 = 1 → exec (.quarantineStatus r) s = .next (s.quarReply (mbxOf r) 0 (byteAt p 1))) ∧
       (byteAt p 0 = 2 → (s.bay (byteAt p 1)).link.quar = 0 → exec (.quarantineRelease r) s = .next (s.quarReply (mbxOf r) 3 (byteAt p 1))) ∧
       (byteAt p 0 = 2 → (s.bay (byteAt p 1)).link.quar ≠ 0 →
         exec (.quarantineRelease r) s =
           .next (let t := s.modLink (byteAt p 1) fun l => { l with quar := 0, quarSerial := [], failed := 0 }
             ((t.setMedia (byteAt p 1) (if (t.bay (byteAt p 1)).link.present then 1 else 0)).bringUp (byteAt p 1)).quarReply (mbxOf r) 0 (byteAt p 1))))

/-- The steward writes bytes into a slot that is neither Golden nor running, which clears its verified mark; starts a verify or
an erase when nothing else is busy; and prefers a verified slot, with event 0x787 when that is a change. The minimum SVN
rises to the running image's. FW_STATUS answers any requester. An erase ends with an empty slot and event 0x782; a verify
with its outcome and the event, and in Trailhead mode a pass clears the attempt counter. A next state with its effect is
stated here of fwWrite, fwVerify, fwErase, fwStatus, fwRaiseSvn, fwSetPreferred, slotEraseEnd, slotVerifyEnd. (R411, R412,
R413, R434) -/
def Obligations.SlotsAreWrittenVerifiedAndChosen : Prop :=
    (∀ (r : Requester) (p : List Byte) (s : State),
      s.request (mbxOf r) 0x0E10 = some p →
      byteAt p 0 = 1 →
      s.fromSteward r = true →
      s.boot.trailhead = false →
      writeFields p = true →
      s.slotFixed (byteAt p 1) = false →
      s.fwBusy = false →
      (let bs := (p.drop 16).take (fieldAt p 12 4) ++ List.replicate (16 + fieldAt p 12 4 - p.length) 0
       exec (.fwWrite r) s =
         .next ((s.modSlot (byteAt p 1) fun x =>
           { x with verified := false, chk := 8, bytes := bs.zipIdx.foldl (fun t (b, i) => Tab.put t (fieldAt p 8 4 + i) b) x.bytes }).fwReply
             (mbxOf r) 0 (if byteAt p 1 ≤ 2 then byteAt p 1 else 3)))) ∧
    (∀ (r : Requester) (p : List Byte) (s : State),
      s.request (mbxOf r) 0x0E10 = some p →
      byteAt p 0 = 2 →
      s.fromSteward r = true →
      slotFields p = true →
      byteAt p 1 ≠ 0 →
      s.fwBusy = false →
      exec (.fwVerify r) s = .next ((s.modBoot fun b => { b with fwState := 3, fwSlot := byteAt p 1 }).fwReply (mbxOf r) 0 (if byteAt p 1 ≤ 2 then byteAt p 1 else 3))) ∧
    (∀ (r : Requester) (p : List Byte) (s : State),
      s.request (mbxOf r) 0x0E10 = some p →
      byteAt p 0 = 7 →
      s.fromSteward r = true →
      slotFields p = true →
      s.slotFixed (byteAt p 1) = false →
      s.fwBusy = false →
      exec (.fwErase r) s =
        .next (((s.modSlot (byteAt p 1) fun x => { x with verified := false, chk := 8 }).modBoot fun b =>
          { b with fwState := 1, fwSlot := byteAt p 1 }).fwReply (mbxOf r) 0 (if byteAt p 1 ≤ 2 then byteAt p 1 else 3))) ∧
    (∀ (r : Requester) (p : List Byte) (s : State),
      s.request (mbxOf r) 0x0E10 = some p →
      byteAt p 0 = 4 →
      noFields p = true →
      exec (.fwStatus r) s = .next (s.fwReply (mbxOf r) 0 (if byteAt p 1 ≤ 2 then byteAt p 1 else 3))) ∧
    (∀ (r : Requester) (p : List Byte) (s : State),
      s.request (mbxOf r) 0x0E10 = some p →
      byteAt p 0 = 5 →
      s.fromSteward r = true →
      s.boot.trailhead = false →
      noFields p = true →
      exec (.fwRaiseSvn r) s =
        .next (((s.modBoot fun b => { b with svnMin := BitVec.ofNat 7 (max b.svnMin.toNat (min 64 b.svnRun.toNat)) }).raise 0x787).fwReply
          (mbxOf r) 0 (if byteAt p 1 ≤ 2 then byteAt p 1 else 3))) ∧
    (∀ (r : Requester) (p : List Byte) (s : State),
      s.request (mbxOf r) 0x0E10 = some p →
      byteAt p 0 = 6 →
      s.fromSteward r = true →
      slotFields p = true →
      byteAt p 1 ≠ 0 →
      s.fwBusy = false →
      s.slotBar (byteAt p 1) = 0 →
      exec (.fwSetPreferred r) s =
        .next ((let t := s.modBoot fun b => { b with preferred := BitVec.ofNat 2 (byteAt p 1) }
          if BitVec.ofNat 2 (byteAt p 1) = s.boot.preferred then t else t.raise 0x787).fwReply (mbxOf r) 0 (if byteAt p 1 ≤ 2 then byteAt p 1 else 3))) ∧
    (∀ (s : State),
      s.boot.fwState = 1 →
      exec .slotEraseEnd s =
        .next (((s.modSlot s.boot.fwSlot fun _ => { erased := true }).modBoot fun b => { b with fwState := 0, fwSlot := 0 }).raise 0x782)) ∧
    (∀ (img : FlashImage) (s : State),
      s.boot.fwState = 3 →
      s.boot.trailhead = false →
      exec (.slotVerifyEnd img) s =
        .next (let c := s.readImage s.boot.fwSlot img
          ((s.modSlot s.boot.fwSlot fun x => x.checked c (s.imageReason s.boot.fwSlot c)).modBoot fun b =>
            { b with fwState := 0, fwSlot := 0 }).raise 0x782))

/-- An activation of a slot that may run sets its pause, announces it to every function with events 11 and 0x783, and goes to
its first unit. A hold starts once every actuator of its unit has room for the pause. A core's switch ends its unit and
goes on; a core that is not running within 1 s fails the activation, and a cancel rolls it back. A herd whose formatters
are idle is loaded with the new image when its digest is right, and fails with event 0x785 when it is not. A next state
with its effect is stated here of fwActivate, fwCancelActivation, activationHoldStart, markhorCoreSwitch,
coreSwitchTimeout, formatterIdle. (R55, R193, R422, R423) -/
def Obligations.ActivationsHoldSwitchAndRollBack : Prop :=
    (∀ (r : Requester) (p : List Byte) (s : State),
      s.request (mbxOf r) 0x0E10 = some p →
      byteAt p 0 = 3 →
      s.fromSteward r = true →
      s.boot.trailhead = false →
      reservedZero p [(0, 1), (2, 2)] = true →
      fieldAt p 2 2 = 0 ∨ 20 ≤ fieldAt p 2 2 ∧ fieldAt p 2 2 ≤ 200 →
      s.fwBusy = false →
      s.cfg.left = [] →
      s.slotBar s.actSlot = 0 →
      (let c := s.slotOf s.actSlot
       let new := c.comps.filter fun t => decide (1 ≤ t.1 ∧ t.1 ≤ 4) && s.boot.runComps.find t.1 != some t.2
       let t := s.modBoot fun b =>
         { b with fwPause := BitVec.ofNat 8 (if fieldAt p 2 2 = 0 then 50 else fieldAt p 2 2), fwState := 4, fwComp := 0 }
       exec (.fwActivate r) s =
         .next (((((t.raiseFns t.enabledFns 11).raise 0x783).goUnit { slot := s.actSlot, todo := new.map (·.1) } 0)).fwReply (mbxOf r) 0 (if byteAt p 1 ≤ 2 then byteAt p 1 else 3)))) ∧
    (∀ (r : Requester) (p : List Byte) (x : Act16) (s : State),
      s.request (mbxOf r) 0x0E10 = some p →
      byteAt p 0 = 8 →
      s.fromSteward r = true →
      s.boot.trailhead = false →
      noFields p = true →
      s.boot.act = some x →
      x.rolling = false →
      exec (.fwCancelActivation r) s = .next ((s.actFails x 0).fwReply (mbxOf r) 0 (if byteAt p 1 ≤ 2 then byteAt p 1 else 3))) ∧
    (∀ (x : Act16) (s : State),
      s.boot.act = some x →
      x.hold = false →
      x.unit = 7 →
      x.rolling = false →
      ((List.range 144).all s.holdFits) = true →
      (let t := ((List.range 144).foldl (fun s a => s.modAdm a fun d => { d with hold := true, holdEnd := s.now + s.pauseNs, holdNs := 0 }) s).each
         (List.range 144) State.replan
       exec .activationHoldStart s =
         .next ((t.modBoot fun b =>
           { b with act := some { x with hold := true, holdAt := t.now, switchAt := t.now }, fwState := 5, fwComp := BitVec.ofNat 4 (x.comp 7) }).raise
             0x783))) ∧
    (∀ (x : Act16) (s : State),
      s.boot.act = some x →
      x.unit < 7 ∨ x.unit = 7 ∧ x.hold = true →
      x.rolling = false →
      exec .markhorCoreSwitch s = .next ((s.modBoot fun b => { b with fwState := 5, fwComp := 1 }).unitDone x)) ∧
    (∀ (x : Act16) (s : State),
      s.boot.act = some x →
      x.rolling = false →
      x.unit < 7 ∨ x.hold = true ∧ x.unit = 7 →
      x.switchAt + 1000000000 ≤ s.now →
      exec .coreSwitchTimeout s = .next (s.actFails x (x.comp x.unit))) ∧
    (∀ (h : Fin 18) (ok : Bool) (x : Act16) (s : State),
      s.boot.act = some x →
      x.hold = true →
      x.unit = 8 + h.val →
      (((holdActs x.unit).any fun a => (s.act a).fmt.running.isSome) = false) →
      x.rolling = false →
      x.todo.contains 3 = true →
      exec (.formatterIdle h ok) s =
        .next (if ok then (s.modHerd h.val fun y => y.load (s.slotOf x.slot)).unitDone x else (s.raise 0x785).actFails x 3))

/-- A key that is not yet generated is generated, loaded and returned as a blob of nine opaque words after its header, with
event 0x7A1; the words are free values of the model, one fresh counter value each. While JTAG debug is open a generate and
a load answer REASON 5, while a sanitize covers the namespace REASON 6. A load of the matching blob loads the key; another
blob answers REASON 4. An unload of a loaded key starts, and a key that is not loaded answers REASON 7. A status answers
the state and generation to any requester that may ask. A next state with its effect is stated here of keyGenerate,
keyLoad, keyUnload, keyStatus. (R71, R427, R430) -/
def Obligations.KeysAreGeneratedLoadedAndUnloaded : Prop :=
    (∀ (r : Requester) (p : List Byte) (k : Nat) (s : State),
      s.request (mbxOf r) 0x0E30 = some p →
      byteAt p 0 = 1 →
      k = (s.ns (fieldAt p 2 2)).keyslot →
      s.keyRefused r p [(0, 1), (2, 2)] false = 0 →
      s.glb.jtagDbg = false →
      s.sanRunning (fieldAt p 2 2) = false →
      (s.key k).generated = false →
      (let w := (List.range 9).flatMap fun i => leBytes 8 (Config.freeValue (s.fresh + i)).toNat
       let t := ({ s with fresh := s.fresh + 9 }).modKey k fun x =>
         { x with nsid := fieldAt p 2 2, generated := true, loaded := true, unloading := false, blob := w }
       exec (.keyGenerate r) s = .next ((t.raise 0x7A1).keyReply (mbxOf r) 0 k (t.blobHead (fieldAt p 2 2) k ++ w)))) ∧
    (∀ (r : Requester) (p : List Byte) (k : Nat) (s : State),
      s.request (mbxOf r) 0x0E30 = some p →
      byteAt p 0 = 1 ∨ byteAt p 0 = 2 →
      k = (s.ns (fieldAt p 2 2)).keyslot →
      s.keyRefused r p (if byteAt p 0 = 1 then [(0, 1), (2, 2)] else [(0, 1), (2, 2), (8, 88)]) false = 0 →
      s.glb.jtagDbg = true →
      exec (if byteAt p 0 = 1 then .keyGenerate r else .keyLoad r) s =
        .next ((if byteAt p 0 = 1 then s else s.raise 0x7A1).keyReply (mbxOf r) 5 k [])) ∧
    (∀ (r : Requester) (p : List Byte) (k : Nat) (s : State),
      s.request (mbxOf r) 0x0E30 = some p →
      byteAt p 0 = 2 →
      k = (s.ns (fieldAt p 2 2)).keyslot →
      s.keyRefused r p [(0, 1), (2, 2), (8, 88)] false = 0 →
      s.glb.jtagDbg = false →
      s.sanRunning (fieldAt p 2 2) = false →
      s.keyLoaded k = false →
      p.length = 96 →
      exec (.keyLoad r) s =
        .next (if (s.key k).generated = true ∧ p.drop 8 = s.blobHead (fieldAt p 2 2) k ++ (s.key k).blob
          then ((s.raise 0x7A1).modKey k fun x => { x with loaded := true, unloading := false }).keyReply (mbxOf r) 0 k []
          else (s.raise 0x7A1).keyReply (mbxOf r) 4 k [])) ∧
    (∀ (r : Requester) (p : List Byte) (k : Nat) (s : State),
      s.request (mbxOf r) 0x0E30 = some p →
      byteAt p 0 = 3 →
      k = (s.ns (fieldAt p 2 2)).keyslot →
      s.keyRefused r p [(0, 1), (2, 2)] false = 0 →
      exec (.keyUnload r) s =
        .next (if s.keyLoaded k = true ∧ (s.key k).unloading = false
          then (s.modKey k fun x => { x with unloading := true }).keyReply (mbxOf r) 0 k [] else s.keyReply (mbxOf r) 7 k [])) ∧
    (∀ (r : Requester) (p : List Byte) (k : Nat) (s : State),
      s.request (mbxOf r) 0x0E30 = some p →
      byteAt p 0 = 4 →
      k = (s.ns (fieldAt p 2 2)).keyslot →
      exec (.keyStatus r) s = .next (s.keyReply (mbxOf r) (s.keyRefused r p [(0, 1), (2, 2)] true) k []))

/-- A SANITIZE of the steward with valid fields, not forbidden by its policy and not over a namespace under a sanitize, enters
an operation with the next operation number: the namespaces are under sanitize, commands of the scope not at their waymark
end with ABORTED_BY_SANITIZE, its formats are done, its keys unload, and event 0x7A2 latches. Once no ledger entry of the
scope remains the crypto erase runs. SANITIZE_STATUS answers the state, kind and progress to a requester that sees the
operation. A next state with its effect is stated here of sanitizeCryptoErase, sanitizeOverwrite, sanitizeWaitEnd,
sanitizeStatus. (R431, R434) -/
def Obligations.SanitizesEraseKeysAndReport : Prop :=
    (∀ (r : Requester) (p : List Byte) (n : Nat) (s : State),
      s.request (mbxOf r) 0x0E40 = some p →
      n = fieldAt p 2 2 →
      s.fromSteward r = true →
      reservedZero p [(0, 4)] = true →
      byteAt p 0 = 0 →
      (s.ns n).present = true →
      s.boot.sanPolicy = 0 →
      s.sanRunning n = false →
      (byteAt p 1 = 1 → exec (.sanitizeCryptoErase r) s = .next ((s.enterSanitize 1 [n]).sanReply (mbxOf r) 0 s.opNext)) ∧
       (byteAt p 1 = 2 → exec (.sanitizeOverwrite r) s = .next ((s.enterSanitize 2 [n]).sanReply (mbxOf r) 0 s.opNext))) ∧
    (∀ (s : State) (kind n : Nat),
      (s.ns n).present = true →
      (s.enterSanitize kind [n]).opNext = s.opNext + 1 ∧
        { id := s.opNext, kind := kind, nsids := [n], targets := [((s.ns n).keyslot, (s.key (s.ns n).keyslot).gen + 1)] } ∈ (s.enterSanitize kind [n]).sans) ∧
    (∀ (id : Nat) (o : SanOp) (s : State),
      ((s.sans.find? fun o => o.id == id && o.st == 0) = some o) →
      ((s.ledger.any fun c => o.nsids.contains c.nsid && !c.noEntry) = false) →
      exec (.sanitizeWaitEnd id) s = .next (s.runCrypto o)) ∧
    (∀ (r : Requester) (p : List Byte) (o : SanOp) (s : State),
      s.request (mbxOf r) 0x0E41 = some p →
      ((s.sans.find? fun o => o.id == fieldAt p 0 4 && reservedZero p [(0, 4)]) = some o) →
      exec (.sanitizeStatus r) s =
        .next (if s.seesSan r o = true
          then s.respond (mbxOf r) (leBytes 1 0 ++ leBytes 1 o.st ++ leBytes 1 o.kind ++ leBytes 1 0 ++ leBytes 4 ((o.units.map fun u => u.2.1).sum)
            ++ leBytes 4 ((o.units.map fun u => u.2.2).sum))
          else s.respond (mbxOf r) (reasonOnly 2 11)))

/-- With MODE 0 the policy refuses neither kind; with MODE 1 it refuses KIND 1 and not KIND 2; with MODE 2 it refuses both. A
sanitize that is refused so answers REASON 3 and enters nothing. While LCK_CTRL.SANPOL is set no command but a cold reset
changes MODE. A next state with its effect is stated here of sanitizeCryptoErase, sanitizeOverwrite. (R433) -/
def Obligations.SanitizePolicyIsHeldByItsMode : Prop :=
    (∀ (r : Requester) (p : List Byte) (n : Nat) (s : State),
      s.request (mbxOf r) 0x0E40 = some p →
      n = fieldAt p 2 2 →
      s.fromSteward r = true →
      reservedZero p [(0, 4)] = true →
      byteAt p 0 = 0 →
      (s.ns n).present = true →
      s.sanRunning n = false →
      (let no := s.sanReply (mbxOf r) 3 0
       (s.boot.sanPolicy = 0 → (byteAt p 1 = 1 → exec (.sanitizeCryptoErase r) s = .next ((s.enterSanitize 1 [n]).sanReply (mbxOf r) 0 s.opNext)) ∧
         (byteAt p 1 = 2 → exec (.sanitizeOverwrite r) s = .next ((s.enterSanitize 2 [n]).sanReply (mbxOf r) 0 s.opNext))) ∧
       (s.boot.sanPolicy = 1 → (byteAt p 1 = 1 → exec (.sanitizeCryptoErase r) s = .next no) ∧
         (byteAt p 1 = 2 → exec (.sanitizeOverwrite r) s = .next ((s.enterSanitize 2 [n]).sanReply (mbxOf r) 0 s.opNext))) ∧
       (s.boot.sanPolicy = 2 → (byteAt p 1 = 1 → exec (.sanitizeCryptoErase r) s = .next no) ∧
         (byteAt p 1 = 2 → exec (.sanitizeOverwrite r) s = .next no)))) ∧
    (∀ (c : Instr) (s t : State),
      exec c s = .next t →
      ((∀ ns, c ≠ .coldRstAssert ns) ∧ ∀ st l u, c ≠ .coldRstDeassert st l u) →
      s.glb.lck.getLsbD 6 = true →
      t.boot.sanPolicy = s.boot.sanPolicy)

/-- No command but a cold reset clears a bit of LCK_CTRL. A command other than a cold reset that changes LCK_CTRL or DBG_CTRL
is a write of LCK_CTRL, of DBG_CTRL or of a register by the function that holds stewardship. A write of LCK_CTRL by any
other function changes neither. The steward's write ORs its value into LCK_CTRL, so that a 0 leaves a bit unchanged, and
when that sets a bit event 0x7A0 latches; with the JTAG bit it also closes JTAG debug. A next state with its effect is
stated here of lckCtrlWrite, dbgCtrlWrite. (R425) -/
def Obligations.LockBitsStaySetUntilAColdReset : Prop :=
    (∀ (c : Instr) (s t : State),
      exec c s = .next t →
      ((∀ ns, c ≠ .coldRstAssert ns) ∧ ∀ st l u, c ≠ .coldRstDeassert st l u) →
      t.glb.lck &&& s.glb.lck = s.glb.lck ∧
        (t.glb.lck ≠ s.glb.lck ∨ t.glb.diagEn ≠ s.glb.diagEn ∨ t.glb.jtagDbg ≠ s.glb.jtagDbg →
          ∃ f : FnId, s.isSteward f.val = true ∧
            ((∃ v, c = .lckCtrlWrite f v) ∨ (∃ v, c = .dbgCtrlWrite f v) ∨ ∃ off w d fl, c = .registerWrite f .bar0 off w d fl))) ∧
    (∀ (f : FnId) (v : Word) (s : State),
      s.isSteward f.val = false →
      ∃ t, (exec (.lckCtrlWrite f v) s = .next t ∧ t.glb = s.glb) ∧ ∃ u, exec (.dbgCtrlWrite f v) s = .next u ∧ u.glb = s.glb) ∧
    (∀ (f : FnId) (v : Word) (s : State),
      s.stewardMmio f.val = true →
      ∃ t, exec (.lckCtrlWrite f v) s = .next t ∧ t.glb.lck = s.glb.lck ||| v.setWidth 7 ∧
        (s.glb.lck ||| v.setWidth 7 ≠ s.glb.lck →
          t = ((((s.touch f.val).modGlb fun g =>
            { g with lck := s.glb.lck ||| v.setWidth 7, jtagDbg := g.jtagDbg && !(s.glb.lck ||| v.setWidth 7).getLsbD 5,
                     jtagIr := if (g.jtagDbg && !(s.glb.lck ||| v.setWidth 7).getLsbD 5) || g.jtagIr.toNat < 3 then g.jtagIr else 0 }).raise 0x7A0).noteDebug
              (s.touch f.val))))

/-- The steward's write of DBG_CTRL sets DIAG_EN unless LCK_CTRL.DIAG is set, and JTAG_DBG only while no key is loaded and
LCK_CTRL.JTAG is 0. A write of BOOT_FWKEY with a bit set, unlocked, enables those key slots, with event 0x787 when they
change; one with no bit set does nothing. A JTAG instruction other than BYPASS, IDCODE and SAMPLE acts as BYPASS while
JTAG_DBG is 0. A next state with its effect is stated here of dbgCtrlWrite, bootFwkeyWrite, jtagInstruction. (R413, R426,
R427) -/
def Obligations.TheSecurityRegistersActAsStated : Prop :=
    (∀ (f : FnId) (v : Word) (s : State),
      s.stewardMmio f.val = true →
      ∃ t, exec (.dbgCtrlWrite f v) s = .next t ∧ t.glb.lck = s.glb.lck ∧
        t.glb.diagEn = (if s.glb.lck.getLsbD 4 then s.glb.diagEn else v.getLsbD 0) ∧
        (t.glb.jtagDbg = true → v.getLsbD 1 = true ∧ s.glb.lck.getLsbD 5 = false) ∧
        (v.getLsbD 1 = true → s.glb.lck.getLsbD 5 = false → s.keysLoaded = 0 → t.glb.jtagDbg = true)) ∧
    (∀ (f : FnId) (v : Word) (s : State),
      s.stewardMmio f.val = true →
      (v.setWidth 4 = (0 : BitVec 4) ∨ s.glb.lck.getLsbD 3 = true → exec (.bootFwkeyWrite f v) s = .next (s.touch f.val)) ∧
       (v.setWidth 4 ≠ (0 : BitVec 4) → s.glb.lck.getLsbD 3 = false → v.setWidth 4 ≠ s.boot.fwkey →
         exec (.bootFwkeyWrite f v) s = .next (((s.touch f.val).modBoot fun b => { b with fwkey := v.setWidth 4 }).raise 0x787))) ∧
    (∀ (op : JtagOp) (s : State),
      exec (.jtagInstruction op) s =
        .next (s.modGlb fun g =>
          { g with jtagIr := match op with
                     | .bypass => 0
                     | .idcode => 1
                     | .sample => 2
                     | .extest => if g.jtagDbg then 3 else 0
                     | .debug => if g.jtagDbg then 4 else 0 }))

/-- An aligned access of a function whose BAR0 answers, inside its BAR0 and outside DIAG or by the steward with the window
open, reads or writes: 4 bytes one register, 8 bytes two, the lower first. A read of CFG_ADM_STAT, CFG_CFE_STAT or
CFG_DEC_WAITMAX by a PF outside Trailhead mode returns the value and then clears its clear-on-read field. A selector write
changes the writing port's selector. A staged copy written by a PF that is not the steward is ignored and logged. The
control registers of configuration space act on Memory Space Enable and Bus Master Enable, on the error enables, Relaxed
Ordering and Max_Payload_Size, and on the ASPM field of the link whose function 0 the function is. A read of a
configuration register answers its word. The places of the bits in configuration space are the model's reading of the PCIe
registers, PRESUMED (log entries on configuration space). A next state with its effect is stated here of registerWrite,
registerLowHalfRead, cfgAdmStatRead, cfgCfeStatRead, cfgDecWaitmaxRead. (R105, R438, R439, R440, R11, R121, R100) -/
def Obligations.RegistersAreReadAndWritten : Prop :=
    (∀ (f : FnId) (off : BitVec 22) (wide : Bool) (data : BitVec 64) (fl : Tab Nat) (s : State),
      s.mmio f.val = true →
      isPf f.val = true ∨ off.toNat < 0x10000 →
      aligned off.toNat wide = true →
      inDiag f.val off.toNat = false ∨ (s.isSteward f.val && s.diagOpen) = true →
      exec (.registerWrite f .bar0 off wide data fl) s =
          .next (let t := (s.touch f.val).write4 f.val off.toNat (data.setWidth 32) fl
            if wide then t.write4 f.val (off.toNat + 4) (data.extractLsb' 32 32) fl else t) ∧
       exec (.registerLowHalfRead f { sp := .bar0, off := off } wide) s =
          .next (let r := (s.touch f.val).read4 f.val off.toNat
            if wide then ((r.2.read4 f.val (off.toNat + 4)).2.emit (.regData f.val off.toNat ((r.2.read4 f.val (off.toNat + 4)).1 ++ r.1)))
            else r.2.emit (.regData f.val off.toNat (r.1.zeroExtend 64)))) ∧
    (∀ (f : FnId) (s : State),
      s.mmio f.val = true →
      isPf f.val = true →
      s.boot.trailhead = false →
      (s.sel (portOf f.val)).adm.toNat < 144 →
      (s.sel (portOf f.val)).cfe.toNat < 144 →
      (let t := s.touch f.val
       exec (.cfgAdmStatRead f) s = .next ((t.modAdm (s.sel (portOf f.val)).adm.toNat fun a => { a with slotLimit := false }).emit
          (.regData f.val 0x8604 ((t.regRead f.val 0x8604).zeroExtend 64))) ∧
       exec (.cfgCfeStatRead f) s = .next ((t.modCfe (s.sel (portOf f.val)).cfe.toNat fun c => { c with retainFull := false }).emit
          (.regData f.val 0x8904 ((t.regRead f.val 0x8904).zeroExtend 64))) ∧
       exec (.cfgDecWaitmaxRead f) s = .next ((t.modPool fun q => { q with waitmax := 0 }).emit
          (.regData f.val 0x8A20 ((t.regRead f.val 0x8A20).zeroExtend 64))))) ∧
    (∀ (f : FnId) (v : BitVec 32) (s : State),
      s.mmio f.val = true →
      isPf f.val = true →
      (∃ t, exec (.registerWrite f .bar0 0x8600 false (v.zeroExtend 64) []) s = .next t ∧
          (t.sel (portOf f.val)).adm = v.setWidth 8 ∧ ∀ p, p ≠ portOf f.val → t.sel p = s.sel p) ∧
       (s.isSteward f.val = false →
          exec (.registerWrite f .bar0 0x8200 false (v.zeroExtend 64) []) s = .next ((s.touch f.val).ignoreWrite f.val))) ∧
    (∀ (f : FnId) (data : BitVec 64) (fl : Tab Nat) (s : State),
      s.cfgOk f.val = true →
      exec (.registerWrite f .command 0 false data fl) s =
          .next (let t := s.modFn f.val fun x => { x with mse := data.getLsbD 1, serr := data.getLsbD 8 }
            if data.getLsbD 2 then t.bmeOn f.val else t.bmeOff f.val) ∧
       exec (.registerWrite f .deviceControl 0 false data fl) s = .next (s.modFn f.val fun x =>
          { x with errEn := data.extractLsb' 0 4, relaxed := data.getLsbD 4, mps := data.extractLsb' 5 3 }) ∧
       exec (.registerWrite f .linkControl 0 false data fl) s =
          .next (match s.ownLink f.val with
            | some h => s.modHalf (portOf f.val) h fun l => { l with aspm := data.extractLsb' 0 2 }
            | none => s) ∧
       ∀ sp off wide, sp ≠ .bar0 →
         exec (.registerLowHalfRead f { sp := sp, off := off } wide) s = .next (s.emit (.regData f.val off.toNat ((s.cfgWord f.val sp off.toNat).zeroExtend 64)))) ∧
    (∀ (f : FnId) (off : BitVec 22) (wide : Bool) (s : State),
      s.mmio f.val = true →
      isPf f.val = true →
      aligned off.toNat wide = false →
      exec (.registerLowHalfRead f { sp := .bar0, off := off } wide) s = .next ((s.touch f.val).refuseAny f.val 1 false))

/-- Raising a source sets its bit of EVT_LATCH in the view of each port that may see it and changes no other bit of any view.
EVT_LATCH_CLEAR of a PF clears in its own latch n exactly the bits written as 1 and leaves every other latch of every view
as it was; of a VF, which has no such register, it changes nothing. EVT_FN_LATCH_CLEAR clears in the writer's own latch the
bits written as 1. A next state with its effect is stated here of evtLatchClear, evtFnLatchClear. (R401, R402) -/
def Obligations.EventsLatchInEntitledViewsUntilTheOwnerClears : Prop :=
    (∀ (src p n b : Nat) (s : State),
      p < 4 →
      src < 2048 →
      n < 64 →
      b < 32 →
      (Tab.get (fun _ => 0) (s.raise src).evt.latch (64 * p + n)).getLsbD b =
        ((Tab.get (fun _ => 0) s.evt.latch (64 * p + n)).getLsbD b || (s.sees p src && decide (src / 32 = n ∧ src % 32 = b)))) ∧
    (∀ (f : FnId) (n : Fin 64) (v : Word) (s : State),
      s.mmio f.val = true →
      ∃ t, exec (.evtLatchClear f n v) s = .next t ∧
        (isPf f.val = false → t = s.touch f.val) ∧
        (isPf f.val = true → (t = { s.touch f.val with evt := t.evt }) ∧ (t.evt = { s.evt with latch := t.evt.latch }) ∧
          ∀ k, Tab.get (fun _ => 0) t.evt.latch k =
            if k = 64 * portOf f.val + n.val then Tab.get (fun _ => 0) s.evt.latch k &&& ~~~v else Tab.get (fun _ => 0) s.evt.latch k)) ∧
    (∀ (f : FnId) (v : Word) (s : State),
      s.mmio f.val = true →
      exec (.evtFnLatchClear f v) s = .next ((s.touch f.val).modFn f.val fun x => { x with fnLatch := x.fnLatch &&& ~~~(v.setWidth 16) }))

/-- For every command c and state s, a step of s with c at the front of its queue is exec of c on s with the queue's rest. The
queue of waiting commands is the model's own field (log entry on the queue). (01_device_architecture.md) -/
def Obligations.AStepRunsTheFrontCommand : Prop :=
    ∀ (c : Instr) (rest : List Instr) (s : State),
      step { s with pending := c :: rest } = exec c { s with pending := rest }

/-- Whatever a command does, the commands that wait behind it are the same afterwards. (01_device_architecture.md) -/
def Obligations.NoCommandTouchesTheQueue : Prop :=
    ∀ (c : Instr) (s t : State),
      exec c s = .next t →
      t.pending = s.pending

/-- With no command waiting, a step answers the next state of one tick, the thermal aborts of the time that passes being posted
first: without a slew in progress device time grows by its 40 ns resolution, with a slew in progress by 39, 40 or 41 ns,
and with no such abort no other field changes but, with a slew, the slew's own. Every command but the end of a cold reset
and an edge of PPS_IN leaves device time as it was. That an empty queue ticks is the model's design choice (log entry on
the tick). (R378, R384, R449) -/
def Obligations.DeviceTimeMovesByTicksDisciplineAndReset : Prop :=
    (∀ (s : State),
      s.pending = [] →
      s.clk.slewLeft = 0 →
      (∀ c ∈ s.ledger, c.early = false) →
      step s = .next { s with now := s.now + 40 }) ∧
    (∀ (s : State),
      s.pending = [] →
      ∃ (d : Nat) (c : Clk) (u : State), u = s.postEarly ∧ step s = .next { u with now := s.now + d, clk := c } ∧ 39 ≤ d ∧ d ≤ 41 ∧ ((∀ c ∈ s.ledger, c.early = false) → u = s)) ∧
    (∀ (c : Instr) (s t : State),
      exec c s = .next t →
      ((∀ st l u, c ≠ .coldRstDeassert st l u) ∧ ∀ ok, c ≠ .ppsEdge ok) →
      t.now = s.now)

/-- BOOT_SVN.MIN is held in one-time fuses: whatever a command does, a cold reset included, MIN afterwards is at least MIN
before, and no command but FW_CTRL action 5 changes it. (R413) -/
def Obligations.TheFusedMinimumVersionNeverFalls : Prop :=
    ∀ (c : Instr) (s t : State),
      exec c s = .next t →
      s.boot.svnMin ≤ t.boot.svnMin ∧ ((∀ r, c ≠ .fwRaiseSvn r) → t.boot.svnMin = s.boot.svnMin)

/-- For every command but those that store to the staging DRAM or empty it (BAR2 requests and the window switch that serves
held ones, the admission of a host write, the scrub of a line, the write-out of a merge entry, and the resets), every byte
of the staging DRAM reads afterwards as it read before. (R114, R307, R328) -/
def Obligations.StagingBytesChangeOnlyByStoresAndResets : Prop :=
    ∀ (c : Instr) (s t : State),
      mayStoreStaging c = false →
      exec c s = .next t →
      ∀ a, ramRead t.ram a = ramRead s.ram a

/-- If the bytes of the staging DRAM are listed at strictly rising addresses with none that equals what an unlisted byte reads
as, and the merge buffer holds at most 32 entries of distinct aligned lines, each with bytes at rising offsets below 128
and not all 128 of them, then the same holds after any step that answers a next state. (R307, R328, R329) -/
def Obligations.AStepKeepsTheStagingDramInOneForm : Prop :=
    ∀ (s t : State),
      Memory.wf s.ram = true →
      s.mergeWf = true →
      step s = .next t →
      Memory.wf t.ram = true ∧ t.mergeWf = true

/-- At reset the staging DRAM lists no byte and the merge buffer holds no entry, so that both are in their canonical form.
(R307, R328) -/
def Obligations.ResetStagingIsCanonical : Prop :=
    Memory.wf State.reset.ram = true ∧ State.reset.mergeWf = true ∧ State.reset.pending = []

/-- With the staging DRAM and merge buffer in their canonical form, the window open and no switch pending: a BAR2 write of the
offset's range inside the window leaves each byte of that range, as a read would give it, equal to the byte written, and
every other byte as it was; a BAR2 read inside the window puts out the bytes of its range and changes none, whether they
stand in the DRAM or in the merge buffer. A next state with its effect is stated here of bar2Write, bar2Read. (R114, R328,
R329) -/
def Obligations.TheWindowReadsBackWhatWasStored : Prop :=
    (∀ (p : PortId) (off : BitVec 36) (data : List Byte) (s : State),
      Memory.wf s.ram = true →
      s.mergeWf = true →
      s.mmio (64 * p.val) = true →
      (s.port p.val).pend = false →
      (s.port p.val).wcur.en = true →
      off.toNat + data.length ≤ (s.port p.val).wcur.limit + 1 →
      s.bar2Size p.val ≠ 0 →
      ∃ t, exec (.bar2Write p off data) s = .next t ∧
        ∀ a, t.stagedByte a =
          if (s.port p.val).wcur.base + off.toNat ≤ a ∧ a < (s.port p.val).wcur.base + off.toNat + data.length
          then data.getD (a - ((s.port p.val).wcur.base + off.toNat)) 0 else s.stagedByte a) ∧
    (∀ (p : PortId) (off : BitVec 36) (len : Fin 4097) (s : State),
      Memory.wf s.ram = true →
      s.mergeWf = true →
      s.mmio (64 * p.val) = true →
      (s.port p.val).pend = false →
      (s.port p.val).wcur.en = true →
      off.toNat + len.val ≤ (s.port p.val).wcur.limit + 1 →
      s.bar2Size p.val ≠ 0 →
      ∃ t, exec (.bar2Read p off len) s = .next t ∧ (∀ a, t.stagedByte a = s.stagedByte a) ∧
        t.out = .bar2Data p.val ((List.range len.val).map fun i => s.stagedByte ((s.port p.val).wcur.base + off.toNat + i)) :: s.out)
end

