-- ==== Sys2Proof/Laws/State.lean ====
section
/-! SUPPORT. One lemma per field of State per update of a table row: what the update leaves alone. -/
namespace Sys2Proof.Machine

@[simp] theorem State.setPort_pending (s : State) (k : Nat) (v : PortSt) : (s.setPort k v).pending = s.pending := (rfl)
@[simp] theorem State.setPort_now (s : State) (k : Nat) (v : PortSt) : (s.setPort k v).now = s.now := (rfl)
@[simp] theorem State.setPort_fresh (s : State) (k : Nat) (v : PortSt) : (s.setPort k v).fresh = s.fresh := (rfl)
@[simp] theorem State.setPort_out (s : State) (k : Nat) (v : PortSt) : (s.setPort k v).out = s.out := (rfl)
@[simp] theorem State.setPort_cfg (s : State) (k : Nat) (v : PortSt) : (s.setPort k v).cfg = s.cfg := (rfl)
@[simp] theorem State.setPort_glb (s : State) (k : Nat) (v : PortSt) : (s.setPort k v).glb = s.glb := (rfl)
@[simp] theorem State.setPort_fns (s : State) (k : Nat) (v : PortSt) : (s.setPort k v).fns = s.fns := (rfl)
@[simp] theorem State.setPort_sqs (s : State) (k : Nat) (v : PortSt) : (s.setPort k v).sqs = s.sqs := (rfl)
@[simp] theorem State.setPort_cqs (s : State) (k : Nat) (v : PortSt) : (s.setPort k v).cqs = s.cqs := (rfl)
@[simp] theorem State.setPort_ledger (s : State) (k : Nat) (v : PortSt) : (s.setPort k v).ledger = s.ledger := (rfl)
@[simp] theorem State.setPort_ldg (s : State) (k : Nat) (v : PortSt) : (s.setPort k v).ldg = s.ldg := (rfl)
@[simp] theorem State.setPort_recs (s : State) (k : Nat) (v : PortSt) : (s.setPort k v).recs = s.recs := (rfl)
@[simp] theorem State.setPort_recNext (s : State) (k : Nat) (v : PortSt) : (s.setPort k v).recNext = s.recNext := (rfl)
@[simp] theorem State.setPort_nss (s : State) (k : Nat) (v : PortSt) : (s.setPort k v).nss = s.nss := (rfl)
@[simp] theorem State.setPort_zones (s : State) (k : Nat) (v : PortSt) : (s.setPort k v).zones = s.zones := (rfl)
@[simp] theorem State.setPort_stage (s : State) (k : Nat) (v : PortSt) : (s.setPort k v).stage = s.stage := (rfl)
@[simp] theorem State.setPort_media (s : State) (k : Nat) (v : PortSt) : (s.setPort k v).media = s.media := (rfl)
@[simp] theorem State.setPort_acts (s : State) (k : Nat) (v : PortSt) : (s.setPort k v).acts = s.acts := (rfl)
@[simp] theorem State.setPort_bays (s : State) (k : Nat) (v : PortSt) : (s.setPort k v).bays = s.bays := (rfl)
@[simp] theorem State.setPort_doms (s : State) (k : Nat) (v : PortSt) : (s.setPort k v).doms = s.doms := (rfl)
@[simp] theorem State.setPort_pwr (s : State) (k : Nat) (v : PortSt) : (s.setPort k v).pwr = s.pwr := (rfl)
@[simp] theorem State.setPort_les (s : State) (k : Nat) (v : PortSt) : (s.setPort k v).les = s.les := (rfl)
@[simp] theorem State.setPort_trcs (s : State) (k : Nat) (v : PortSt) : (s.setPort k v).trcs = s.trcs := (rfl)
@[simp] theorem State.setPort_trcSel (s : State) (k : Nat) (v : PortSt) : (s.setPort k v).trcSel = s.trcSel := (rfl)
@[simp] theorem State.setPort_engines (s : State) (k : Nat) (v : PortSt) : (s.setPort k v).engines = s.engines := (rfl)
@[simp] theorem State.setPort_pool (s : State) (k : Nat) (v : PortSt) : (s.setPort k v).pool = s.pool := (rfl)
@[simp] theorem State.setPort_herds (s : State) (k : Nat) (v : PortSt) : (s.setPort k v).herds = s.herds := (rfl)
@[simp] theorem State.setPort_mem (s : State) (k : Nat) (v : PortSt) : (s.setPort k v).mem = s.mem := (rfl)
@[simp] theorem State.setPort_ram (s : State) (k : Nat) (v : PortSt) : (s.setPort k v).ram = s.ram := (rfl)
@[simp] theorem State.setPort_cache (s : State) (k : Nat) (v : PortSt) : (s.setPort k v).cache = s.cache := (rfl)
@[simp] theorem State.setPort_cal (s : State) (k : Nat) (v : PortSt) : (s.setPort k v).cal = s.cal := (rfl)
@[simp] theorem State.setPort_thm (s : State) (k : Nat) (v : PortSt) : (s.setPort k v).thm = s.thm := (rfl)
@[simp] theorem State.setPort_clk (s : State) (k : Nat) (v : PortSt) : (s.setPort k v).clk = s.clk := (rfl)
@[simp] theorem State.setPort_isls (s : State) (k : Nat) (v : PortSt) : (s.setPort k v).isls = s.isls := (rfl)
@[simp] theorem State.setPort_xings (s : State) (k : Nat) (v : PortSt) : (s.setPort k v).xings = s.xings := (rfl)
@[simp] theorem State.setPort_mbxs (s : State) (k : Nat) (v : PortSt) : (s.setPort k v).mbxs = s.mbxs := (rfl)
@[simp] theorem State.setPort_evt (s : State) (k : Nat) (v : PortSt) : (s.setPort k v).evt = s.evt := (rfl)
@[simp] theorem State.setPort_rings (s : State) (k : Nat) (v : PortSt) : (s.setPort k v).rings = s.rings := (rfl)
@[simp] theorem State.setPort_accs (s : State) (k : Nat) (v : PortSt) : (s.setPort k v).accs = s.accs := (rfl)
@[simp] theorem State.setPort_tally (s : State) (k : Nat) (v : PortSt) : (s.setPort k v).tally = s.tally := (rfl)
@[simp] theorem State.setPort_boot (s : State) (k : Nat) (v : PortSt) : (s.setPort k v).boot = s.boot := (rfl)
@[simp] theorem State.setPort_keys (s : State) (k : Nat) (v : PortSt) : (s.setPort k v).keys = s.keys := (rfl)
@[simp] theorem State.setPort_sans (s : State) (k : Nat) (v : PortSt) : (s.setPort k v).sans = s.sans := (rfl)
@[simp] theorem State.setPort_fmts (s : State) (k : Nat) (v : PortSt) : (s.setPort k v).fmts = s.fmts := (rfl)
@[simp] theorem State.setPort_opNext (s : State) (k : Nat) (v : PortSt) : (s.setPort k v).opNext = s.opNext := (rfl)
@[simp] theorem State.modPort_pending (s : State) (k : Nat) (g : PortSt → PortSt) : (s.modPort k g).pending = s.pending := (rfl)
@[simp] theorem State.modPort_now (s : State) (k : Nat) (g : PortSt → PortSt) : (s.modPort k g).now = s.now := (rfl)
@[simp] theorem State.modPort_fresh (s : State) (k : Nat) (g : PortSt → PortSt) : (s.modPort k g).fresh = s.fresh := (rfl)
@[simp] theorem State.modPort_out (s : State) (k : Nat) (g : PortSt → PortSt) : (s.modPort k g).out = s.out := (rfl)
@[simp] theorem State.modPort_cfg (s : State) (k : Nat) (g : PortSt → PortSt) : (s.modPort k g).cfg = s.cfg := (rfl)
@[simp] theorem State.modPort_glb (s : State) (k : Nat) (g : PortSt → PortSt) : (s.modPort k g).glb = s.glb := (rfl)
@[simp] theorem State.modPort_fns (s : State) (k : Nat) (g : PortSt → PortSt) : (s.modPort k g).fns = s.fns := (rfl)
@[simp] theorem State.modPort_sqs (s : State) (k : Nat) (g : PortSt → PortSt) : (s.modPort k g).sqs = s.sqs := (rfl)
@[simp] theorem State.modPort_cqs (s : State) (k : Nat) (g : PortSt → PortSt) : (s.modPort k g).cqs = s.cqs := (rfl)
@[simp] theorem State.modPort_ledger (s : State) (k : Nat) (g : PortSt → PortSt) : (s.modPort k g).ledger = s.ledger := (rfl)
@[simp] theorem State.modPort_ldg (s : State) (k : Nat) (g : PortSt → PortSt) : (s.modPort k g).ldg = s.ldg := (rfl)
@[simp] theorem State.modPort_recs (s : State) (k : Nat) (g : PortSt → PortSt) : (s.modPort k g).recs = s.recs := (rfl)
@[simp] theorem State.modPort_recNext (s : State) (k : Nat) (g : PortSt → PortSt) : (s.modPort k g).recNext = s.recNext := (rfl)
@[simp] theorem State.modPort_nss (s : State) (k : Nat) (g : PortSt → PortSt) : (s.modPort k g).nss = s.nss := (rfl)
@[simp] theorem State.modPort_zones (s : State) (k : Nat) (g : PortSt → PortSt) : (s.modPort k g).zones = s.zones := (rfl)
@[simp] theorem State.modPort_stage (s : State) (k : Nat) (g : PortSt → PortSt) : (s.modPort k g).stage = s.stage := (rfl)
@[simp] theorem State.modPort_media (s : State) (k : Nat) (g : PortSt → PortSt) : (s.modPort k g).media = s.media := (rfl)
@[simp] theorem State.modPort_acts (s : State) (k : Nat) (g : PortSt → PortSt) : (s.modPort k g).acts = s.acts := (rfl)
@[simp] theorem State.modPort_bays (s : State) (k : Nat) (g : PortSt → PortSt) : (s.modPort k g).bays = s.bays := (rfl)
@[simp] theorem State.modPort_doms (s : State) (k : Nat) (g : PortSt → PortSt) : (s.modPort k g).doms = s.doms := (rfl)
@[simp] theorem State.modPort_pwr (s : State) (k : Nat) (g : PortSt → PortSt) : (s.modPort k g).pwr = s.pwr := (rfl)
@[simp] theorem State.modPort_les (s : State) (k : Nat) (g : PortSt → PortSt) : (s.modPort k g).les = s.les := (rfl)
@[simp] theorem State.modPort_trcs (s : State) (k : Nat) (g : PortSt → PortSt) : (s.modPort k g).trcs = s.trcs := (rfl)
@[simp] theorem State.modPort_trcSel (s : State) (k : Nat) (g : PortSt → PortSt) : (s.modPort k g).trcSel = s.trcSel := (rfl)
@[simp] theorem State.modPort_engines (s : State) (k : Nat) (g : PortSt → PortSt) : (s.modPort k g).engines = s.engines := (rfl)
@[simp] theorem State.modPort_pool (s : State) (k : Nat) (g : PortSt → PortSt) : (s.modPort k g).pool = s.pool := (rfl)
@[simp] theorem State.modPort_herds (s : State) (k : Nat) (g : PortSt → PortSt) : (s.modPort k g).herds = s.herds := (rfl)
@[simp] theorem State.modPort_mem (s : State) (k : Nat) (g : PortSt → PortSt) : (s.modPort k g).mem = s.mem := (rfl)
@[simp] theorem State.modPort_ram (s : State) (k : Nat) (g : PortSt → PortSt) : (s.modPort k g).ram = s.ram := (rfl)
@[simp] theorem State.modPort_cache (s : State) (k : Nat) (g : PortSt → PortSt) : (s.modPort k g).cache = s.cache := (rfl)
@[simp] theorem State.modPort_cal (s : State) (k : Nat) (g : PortSt → PortSt) : (s.modPort k g).cal = s.cal := (rfl)
@[simp] theorem State.modPort_thm (s : State) (k : Nat) (g : PortSt → PortSt) : (s.modPort k g).thm = s.thm := (rfl)
@[simp] theorem State.modPort_clk (s : State) (k : Nat) (g : PortSt → PortSt) : (s.modPort k g).clk = s.clk := (rfl)
@[simp] theorem State.modPort_isls (s : State) (k : Nat) (g : PortSt → PortSt) : (s.modPort k g).isls = s.isls := (rfl)
@[simp] theorem State.modPort_xings (s : State) (k : Nat) (g : PortSt → PortSt) : (s.modPort k g).xings = s.xings := (rfl)
@[simp] theorem State.modPort_mbxs (s : State) (k : Nat) (g : PortSt → PortSt) : (s.modPort k g).mbxs = s.mbxs := (rfl)
@[simp] theorem State.modPort_evt (s : State) (k : Nat) (g : PortSt → PortSt) : (s.modPort k g).evt = s.evt := (rfl)
@[simp] theorem State.modPort_rings (s : State) (k : Nat) (g : PortSt → PortSt) : (s.modPort k g).rings = s.rings := (rfl)
@[simp] theorem State.modPort_accs (s : State) (k : Nat) (g : PortSt → PortSt) : (s.modPort k g).accs = s.accs := (rfl)
@[simp] theorem State.modPort_tally (s : State) (k : Nat) (g : PortSt → PortSt) : (s.modPort k g).tally = s.tally := (rfl)
@[simp] theorem State.modPort_boot (s : State) (k : Nat) (g : PortSt → PortSt) : (s.modPort k g).boot = s.boot := (rfl)
@[simp] theorem State.modPort_keys (s : State) (k : Nat) (g : PortSt → PortSt) : (s.modPort k g).keys = s.keys := (rfl)
@[simp] theorem State.modPort_sans (s : State) (k : Nat) (g : PortSt → PortSt) : (s.modPort k g).sans = s.sans := (rfl)
@[simp] theorem State.modPort_fmts (s : State) (k : Nat) (g : PortSt → PortSt) : (s.modPort k g).fmts = s.fmts := (rfl)
@[simp] theorem State.modPort_opNext (s : State) (k : Nat) (g : PortSt → PortSt) : (s.modPort k g).opNext = s.opNext := (rfl)
@[simp] theorem State.setFn_pending (s : State) (k : Nat) (v : FnSt) : (s.setFn k v).pending = s.pending := (rfl)
@[simp] theorem State.setFn_now (s : State) (k : Nat) (v : FnSt) : (s.setFn k v).now = s.now := (rfl)
@[simp] theorem State.setFn_fresh (s : State) (k : Nat) (v : FnSt) : (s.setFn k v).fresh = s.fresh := (rfl)
@[simp] theorem State.setFn_out (s : State) (k : Nat) (v : FnSt) : (s.setFn k v).out = s.out := (rfl)
@[simp] theorem State.setFn_cfg (s : State) (k : Nat) (v : FnSt) : (s.setFn k v).cfg = s.cfg := (rfl)
@[simp] theorem State.setFn_glb (s : State) (k : Nat) (v : FnSt) : (s.setFn k v).glb = s.glb := (rfl)
@[simp] theorem State.setFn_ports (s : State) (k : Nat) (v : FnSt) : (s.setFn k v).ports = s.ports := (rfl)
@[simp] theorem State.setFn_sqs (s : State) (k : Nat) (v : FnSt) : (s.setFn k v).sqs = s.sqs := (rfl)
@[simp] theorem State.setFn_cqs (s : State) (k : Nat) (v : FnSt) : (s.setFn k v).cqs = s.cqs := (rfl)
@[simp] theorem State.setFn_ledger (s : State) (k : Nat) (v : FnSt) : (s.setFn k v).ledger = s.ledger := (rfl)
@[simp] theorem State.setFn_ldg (s : State) (k : Nat) (v : FnSt) : (s.setFn k v).ldg = s.ldg := (rfl)
@[simp] theorem State.setFn_recs (s : State) (k : Nat) (v : FnSt) : (s.setFn k v).recs = s.recs := (rfl)
@[simp] theorem State.setFn_recNext (s : State) (k : Nat) (v : FnSt) : (s.setFn k v).recNext = s.recNext := (rfl)
@[simp] theorem State.setFn_nss (s : State) (k : Nat) (v : FnSt) : (s.setFn k v).nss = s.nss := (rfl)
@[simp] theorem State.setFn_zones (s : State) (k : Nat) (v : FnSt) : (s.setFn k v).zones = s.zones := (rfl)
@[simp] theorem State.setFn_stage (s : State) (k : Nat) (v : FnSt) : (s.setFn k v).stage = s.stage := (rfl)
@[simp] theorem State.setFn_media (s : State) (k : Nat) (v : FnSt) : (s.setFn k v).media = s.media := (rfl)
@[simp] theorem State.setFn_acts (s : State) (k : Nat) (v : FnSt) : (s.setFn k v).acts = s.acts := (rfl)
@[simp] theorem State.setFn_bays (s : State) (k : Nat) (v : FnSt) : (s.setFn k v).bays = s.bays := (rfl)
@[simp] theorem State.setFn_doms (s : State) (k : Nat) (v : FnSt) : (s.setFn k v).doms = s.doms := (rfl)
@[simp] theorem State.setFn_pwr (s : State) (k : Nat) (v : FnSt) : (s.setFn k v).pwr = s.pwr := (rfl)
@[simp] theorem State.setFn_les (s : State) (k : Nat) (v : FnSt) : (s.setFn k v).les = s.les := (rfl)
@[simp] theorem State.setFn_trcs (s : State) (k : Nat) (v : FnSt) : (s.setFn k v).trcs = s.trcs := (rfl)
@[simp] theorem State.setFn_trcSel (s : State) (k : Nat) (v : FnSt) : (s.setFn k v).trcSel = s.trcSel := (rfl)
@[simp] theorem State.setFn_engines (s : State) (k : Nat) (v : FnSt) : (s.setFn k v).engines = s.engines := (rfl)
@[simp] theorem State.setFn_pool (s : State) (k : Nat) (v : FnSt) : (s.setFn k v).pool = s.pool := (rfl)
@[simp] theorem State.setFn_herds (s : State) (k : Nat) (v : FnSt) : (s.setFn k v).herds = s.herds := (rfl)
@[simp] theorem State.setFn_mem (s : State) (k : Nat) (v : FnSt) : (s.setFn k v).mem = s.mem := (rfl)
@[simp] theorem State.setFn_ram (s : State) (k : Nat) (v : FnSt) : (s.setFn k v).ram = s.ram := (rfl)
@[simp] theorem State.setFn_cache (s : State) (k : Nat) (v : FnSt) : (s.setFn k v).cache = s.cache := (rfl)
@[simp] theorem State.setFn_cal (s : State) (k : Nat) (v : FnSt) : (s.setFn k v).cal = s.cal := (rfl)
@[simp] theorem State.setFn_thm (s : State) (k : Nat) (v : FnSt) : (s.setFn k v).thm = s.thm := (rfl)
@[simp] theorem State.setFn_clk (s : State) (k : Nat) (v : FnSt) : (s.setFn k v).clk = s.clk := (rfl)
@[simp] theorem State.setFn_isls (s : State) (k : Nat) (v : FnSt) : (s.setFn k v).isls = s.isls := (rfl)
@[simp] theorem State.setFn_xings (s : State) (k : Nat) (v : FnSt) : (s.setFn k v).xings = s.xings := (rfl)
@[simp] theorem State.setFn_mbxs (s : State) (k : Nat) (v : FnSt) : (s.setFn k v).mbxs = s.mbxs := (rfl)
@[simp] theorem State.setFn_evt (s : State) (k : Nat) (v : FnSt) : (s.setFn k v).evt = s.evt := (rfl)
@[simp] theorem State.setFn_rings (s : State) (k : Nat) (v : FnSt) : (s.setFn k v).rings = s.rings := (rfl)
@[simp] theorem State.setFn_accs (s : State) (k : Nat) (v : FnSt) : (s.setFn k v).accs = s.accs := (rfl)
@[simp] theorem State.setFn_tally (s : State) (k : Nat) (v : FnSt) : (s.setFn k v).tally = s.tally := (rfl)
@[simp] theorem State.setFn_boot (s : State) (k : Nat) (v : FnSt) : (s.setFn k v).boot = s.boot := (rfl)
@[simp] theorem State.setFn_keys (s : State) (k : Nat) (v : FnSt) : (s.setFn k v).keys = s.keys := (rfl)
@[simp] theorem State.setFn_sans (s : State) (k : Nat) (v : FnSt) : (s.setFn k v).sans = s.sans := (rfl)
@[simp] theorem State.setFn_fmts (s : State) (k : Nat) (v : FnSt) : (s.setFn k v).fmts = s.fmts := (rfl)
@[simp] theorem State.setFn_opNext (s : State) (k : Nat) (v : FnSt) : (s.setFn k v).opNext = s.opNext := (rfl)
@[simp] theorem State.modFn_pending (s : State) (k : Nat) (g : FnSt → FnSt) : (s.modFn k g).pending = s.pending := (rfl)
@[simp] theorem State.modFn_now (s : State) (k : Nat) (g : FnSt → FnSt) : (s.modFn k g).now = s.now := (rfl)
@[simp] theorem State.modFn_fresh (s : State) (k : Nat) (g : FnSt → FnSt) : (s.modFn k g).fresh = s.fresh := (rfl)
@[simp] theorem State.modFn_out (s : State) (k : Nat) (g : FnSt → FnSt) : (s.modFn k g).out = s.out := (rfl)
@[simp] theorem State.modFn_cfg (s : State) (k : Nat) (g : FnSt → FnSt) : (s.modFn k g).cfg = s.cfg := (rfl)
@[simp] theorem State.modFn_glb (s : State) (k : Nat) (g : FnSt → FnSt) : (s.modFn k g).glb = s.glb := (rfl)
@[simp] theorem State.modFn_ports (s : State) (k : Nat) (g : FnSt → FnSt) : (s.modFn k g).ports = s.ports := (rfl)
@[simp] theorem State.modFn_sqs (s : State) (k : Nat) (g : FnSt → FnSt) : (s.modFn k g).sqs = s.sqs := (rfl)
@[simp] theorem State.modFn_cqs (s : State) (k : Nat) (g : FnSt → FnSt) : (s.modFn k g).cqs = s.cqs := (rfl)
@[simp] theorem State.modFn_ledger (s : State) (k : Nat) (g : FnSt → FnSt) : (s.modFn k g).ledger = s.ledger := (rfl)
@[simp] theorem State.modFn_ldg (s : State) (k : Nat) (g : FnSt → FnSt) : (s.modFn k g).ldg = s.ldg := (rfl)
@[simp] theorem State.modFn_recs (s : State) (k : Nat) (g : FnSt → FnSt) : (s.modFn k g).recs = s.recs := (rfl)
@[simp] theorem State.modFn_recNext (s : State) (k : Nat) (g : FnSt → FnSt) : (s.modFn k g).recNext = s.recNext := (rfl)
@[simp] theorem State.modFn_nss (s : State) (k : Nat) (g : FnSt → FnSt) : (s.modFn k g).nss = s.nss := (rfl)
@[simp] theorem State.modFn_zones (s : State) (k : Nat) (g : FnSt → FnSt) : (s.modFn k g).zones = s.zones := (rfl)
@[simp] theorem State.modFn_stage (s : State) (k : Nat) (g : FnSt → FnSt) : (s.modFn k g).stage = s.stage := (rfl)
@[simp] theorem State.modFn_media (s : State) (k : Nat) (g : FnSt → FnSt) : (s.modFn k g).media = s.media := (rfl)
@[simp] theorem State.modFn_acts (s : State) (k : Nat) (g : FnSt → FnSt) : (s.modFn k g).acts = s.acts := (rfl)
@[simp] theorem State.modFn_bays (s : State) (k : Nat) (g : FnSt → FnSt) : (s.modFn k g).bays = s.bays := (rfl)
@[simp] theorem State.modFn_doms (s : State) (k : Nat) (g : FnSt → FnSt) : (s.modFn k g).doms = s.doms := (rfl)
@[simp] theorem State.modFn_pwr (s : State) (k : Nat) (g : FnSt → FnSt) : (s.modFn k g).pwr = s.pwr := (rfl)
@[simp] theorem State.modFn_les (s : State) (k : Nat) (g : FnSt → FnSt) : (s.modFn k g).les = s.les := (rfl)
@[simp] theorem State.modFn_trcs (s : State) (k : Nat) (g : FnSt → FnSt) : (s.modFn k g).trcs = s.trcs := (rfl)
@[simp] theorem State.modFn_trcSel (s : State) (k : Nat) (g : FnSt → FnSt) : (s.modFn k g).trcSel = s.trcSel := (rfl)
@[simp] theorem State.modFn_engines (s : State) (k : Nat) (g : FnSt → FnSt) : (s.modFn k g).engines = s.engines := (rfl)
@[simp] theorem State.modFn_pool (s : State) (k : Nat) (g : FnSt → FnSt) : (s.modFn k g).pool = s.pool := (rfl)
@[simp] theorem State.modFn_herds (s : State) (k : Nat) (g : FnSt → FnSt) : (s.modFn k g).herds = s.herds := (rfl)
@[simp] theorem State.modFn_mem (s : State) (k : Nat) (g : FnSt → FnSt) : (s.modFn k g).mem = s.mem := (rfl)
@[simp] theorem State.modFn_ram (s : State) (k : Nat) (g : FnSt → FnSt) : (s.modFn k g).ram = s.ram := (rfl)
@[simp] theorem State.modFn_cache (s : State) (k : Nat) (g : FnSt → FnSt) : (s.modFn k g).cache = s.cache := (rfl)
@[simp] theorem State.modFn_cal (s : State) (k : Nat) (g : FnSt → FnSt) : (s.modFn k g).cal = s.cal := (rfl)
@[simp] theorem State.modFn_thm (s : State) (k : Nat) (g : FnSt → FnSt) : (s.modFn k g).thm = s.thm := (rfl)
@[simp] theorem State.modFn_clk (s : State) (k : Nat) (g : FnSt → FnSt) : (s.modFn k g).clk = s.clk := (rfl)
@[simp] theorem State.modFn_isls (s : State) (k : Nat) (g : FnSt → FnSt) : (s.modFn k g).isls = s.isls := (rfl)
@[simp] theorem State.modFn_xings (s : State) (k : Nat) (g : FnSt → FnSt) : (s.modFn k g).xings = s.xings := (rfl)
@[simp] theorem State.modFn_mbxs (s : State) (k : Nat) (g : FnSt → FnSt) : (s.modFn k g).mbxs = s.mbxs := (rfl)
@[simp] theorem State.modFn_evt (s : State) (k : Nat) (g : FnSt → FnSt) : (s.modFn k g).evt = s.evt := (rfl)
@[simp] theorem State.modFn_rings (s : State) (k : Nat) (g : FnSt → FnSt) : (s.modFn k g).rings = s.rings := (rfl)
@[simp] theorem State.modFn_accs (s : State) (k : Nat) (g : FnSt → FnSt) : (s.modFn k g).accs = s.accs := (rfl)
@[simp] theorem State.modFn_tally (s : State) (k : Nat) (g : FnSt → FnSt) : (s.modFn k g).tally = s.tally := (rfl)
@[simp] theorem State.modFn_boot (s : State) (k : Nat) (g : FnSt → FnSt) : (s.modFn k g).boot = s.boot := (rfl)
@[simp] theorem State.modFn_keys (s : State) (k : Nat) (g : FnSt → FnSt) : (s.modFn k g).keys = s.keys := (rfl)
@[simp] theorem State.modFn_sans (s : State) (k : Nat) (g : FnSt → FnSt) : (s.modFn k g).sans = s.sans := (rfl)
@[simp] theorem State.modFn_fmts (s : State) (k : Nat) (g : FnSt → FnSt) : (s.modFn k g).fmts = s.fmts := (rfl)
@[simp] theorem State.modFn_opNext (s : State) (k : Nat) (g : FnSt → FnSt) : (s.modFn k g).opNext = s.opNext := (rfl)
@[simp] theorem State.setSq_pending (s : State) (k : Nat) (v : Sq) : (s.setSq k v).pending = s.pending := (rfl)
@[simp] theorem State.setSq_now (s : State) (k : Nat) (v : Sq) : (s.setSq k v).now = s.now := (rfl)
@[simp] theorem State.setSq_fresh (s : State) (k : Nat) (v : Sq) : (s.setSq k v).fresh = s.fresh := (rfl)
@[simp] theorem State.setSq_out (s : State) (k : Nat) (v : Sq) : (s.setSq k v).out = s.out := (rfl)
@[simp] theorem State.setSq_cfg (s : State) (k : Nat) (v : Sq) : (s.setSq k v).cfg = s.cfg := (rfl)
@[simp] theorem State.setSq_glb (s : State) (k : Nat) (v : Sq) : (s.setSq k v).glb = s.glb := (rfl)
@[simp] theorem State.setSq_ports (s : State) (k : Nat) (v : Sq) : (s.setSq k v).ports = s.ports := (rfl)
@[simp] theorem State.setSq_fns (s : State) (k : Nat) (v : Sq) : (s.setSq k v).fns = s.fns := (rfl)
@[simp] theorem State.setSq_cqs (s : State) (k : Nat) (v : Sq) : (s.setSq k v).cqs = s.cqs := (rfl)
@[simp] theorem State.setSq_ledger (s : State) (k : Nat) (v : Sq) : (s.setSq k v).ledger = s.ledger := (rfl)
@[simp] theorem State.setSq_ldg (s : State) (k : Nat) (v : Sq) : (s.setSq k v).ldg = s.ldg := (rfl)
@[simp] theorem State.setSq_recs (s : State) (k : Nat) (v : Sq) : (s.setSq k v).recs = s.recs := (rfl)
@[simp] theorem State.setSq_recNext (s : State) (k : Nat) (v : Sq) : (s.setSq k v).recNext = s.recNext := (rfl)
@[simp] theorem State.setSq_nss (s : State) (k : Nat) (v : Sq) : (s.setSq k v).nss = s.nss := (rfl)
@[simp] theorem State.setSq_zones (s : State) (k : Nat) (v : Sq) : (s.setSq k v).zones = s.zones := (rfl)
@[simp] theorem State.setSq_stage (s : State) (k : Nat) (v : Sq) : (s.setSq k v).stage = s.stage := (rfl)
@[simp] theorem State.setSq_media (s : State) (k : Nat) (v : Sq) : (s.setSq k v).media = s.media := (rfl)
@[simp] theorem State.setSq_acts (s : State) (k : Nat) (v : Sq) : (s.setSq k v).acts = s.acts := (rfl)
@[simp] theorem State.setSq_bays (s : State) (k : Nat) (v : Sq) : (s.setSq k v).bays = s.bays := (rfl)
@[simp] theorem State.setSq_doms (s : State) (k : Nat) (v : Sq) : (s.setSq k v).doms = s.doms := (rfl)
@[simp] theorem State.setSq_pwr (s : State) (k : Nat) (v : Sq) : (s.setSq k v).pwr = s.pwr := (rfl)
@[simp] theorem State.setSq_les (s : State) (k : Nat) (v : Sq) : (s.setSq k v).les = s.les := (rfl)
@[simp] theorem State.setSq_trcs (s : State) (k : Nat) (v : Sq) : (s.setSq k v).trcs = s.trcs := (rfl)
@[simp] theorem State.setSq_trcSel (s : State) (k : Nat) (v : Sq) : (s.setSq k v).trcSel = s.trcSel := (rfl)
@[simp] theorem State.setSq_engines (s : State) (k : Nat) (v : Sq) : (s.setSq k v).engines = s.engines := (rfl)
@[simp] theorem State.setSq_pool (s : State) (k : Nat) (v : Sq) : (s.setSq k v).pool = s.pool := (rfl)
@[simp] theorem State.setSq_herds (s : State) (k : Nat) (v : Sq) : (s.setSq k v).herds = s.herds := (rfl)
@[simp] theorem State.setSq_mem (s : State) (k : Nat) (v : Sq) : (s.setSq k v).mem = s.mem := (rfl)
@[simp] theorem State.setSq_ram (s : State) (k : Nat) (v : Sq) : (s.setSq k v).ram = s.ram := (rfl)
@[simp] theorem State.setSq_cache (s : State) (k : Nat) (v : Sq) : (s.setSq k v).cache = s.cache := (rfl)
@[simp] theorem State.setSq_cal (s : State) (k : Nat) (v : Sq) : (s.setSq k v).cal = s.cal := (rfl)
@[simp] theorem State.setSq_thm (s : State) (k : Nat) (v : Sq) : (s.setSq k v).thm = s.thm := (rfl)
@[simp] theorem State.setSq_clk (s : State) (k : Nat) (v : Sq) : (s.setSq k v).clk = s.clk := (rfl)
@[simp] theorem State.setSq_isls (s : State) (k : Nat) (v : Sq) : (s.setSq k v).isls = s.isls := (rfl)
@[simp] theorem State.setSq_xings (s : State) (k : Nat) (v : Sq) : (s.setSq k v).xings = s.xings := (rfl)
@[simp] theorem State.setSq_mbxs (s : State) (k : Nat) (v : Sq) : (s.setSq k v).mbxs = s.mbxs := (rfl)
@[simp] theorem State.setSq_evt (s : State) (k : Nat) (v : Sq) : (s.setSq k v).evt = s.evt := (rfl)
@[simp] theorem State.setSq_rings (s : State) (k : Nat) (v : Sq) : (s.setSq k v).rings = s.rings := (rfl)
@[simp] theorem State.setSq_accs (s : State) (k : Nat) (v : Sq) : (s.setSq k v).accs = s.accs := (rfl)
@[simp] theorem State.setSq_tally (s : State) (k : Nat) (v : Sq) : (s.setSq k v).tally = s.tally := (rfl)
@[simp] theorem State.setSq_boot (s : State) (k : Nat) (v : Sq) : (s.setSq k v).boot = s.boot := (rfl)
@[simp] theorem State.setSq_keys (s : State) (k : Nat) (v : Sq) : (s.setSq k v).keys = s.keys := (rfl)
@[simp] theorem State.setSq_sans (s : State) (k : Nat) (v : Sq) : (s.setSq k v).sans = s.sans := (rfl)
@[simp] theorem State.setSq_fmts (s : State) (k : Nat) (v : Sq) : (s.setSq k v).fmts = s.fmts := (rfl)
@[simp] theorem State.setSq_opNext (s : State) (k : Nat) (v : Sq) : (s.setSq k v).opNext = s.opNext := (rfl)
@[simp] theorem State.modSq_pending (s : State) (k : Nat) (g : Sq → Sq) : (s.modSq k g).pending = s.pending := (rfl)
@[simp] theorem State.modSq_now (s : State) (k : Nat) (g : Sq → Sq) : (s.modSq k g).now = s.now := (rfl)
@[simp] theorem State.modSq_fresh (s : State) (k : Nat) (g : Sq → Sq) : (s.modSq k g).fresh = s.fresh := (rfl)
@[simp] theorem State.modSq_out (s : State) (k : Nat) (g : Sq → Sq) : (s.modSq k g).out = s.out := (rfl)
@[simp] theorem State.modSq_cfg (s : State) (k : Nat) (g : Sq → Sq) : (s.modSq k g).cfg = s.cfg := (rfl)
@[simp] theorem State.modSq_glb (s : State) (k : Nat) (g : Sq → Sq) : (s.modSq k g).glb = s.glb := (rfl)
@[simp] theorem State.modSq_ports (s : State) (k : Nat) (g : Sq → Sq) : (s.modSq k g).ports = s.ports := (rfl)
@[simp] theorem State.modSq_fns (s : State) (k : Nat) (g : Sq → Sq) : (s.modSq k g).fns = s.fns := (rfl)
@[simp] theorem State.modSq_cqs (s : State) (k : Nat) (g : Sq → Sq) : (s.modSq k g).cqs = s.cqs := (rfl)
@[simp] theorem State.modSq_ledger (s : State) (k : Nat) (g : Sq → Sq) : (s.modSq k g).ledger = s.ledger := (rfl)
@[simp] theorem State.modSq_ldg (s : State) (k : Nat) (g : Sq → Sq) : (s.modSq k g).ldg = s.ldg := (rfl)
@[simp] theorem State.modSq_recs (s : State) (k : Nat) (g : Sq → Sq) : (s.modSq k g).recs = s.recs := (rfl)
@[simp] theorem State.modSq_recNext (s : State) (k : Nat) (g : Sq → Sq) : (s.modSq k g).recNext = s.recNext := (rfl)
@[simp] theorem State.modSq_nss (s : State) (k : Nat) (g : Sq → Sq) : (s.modSq k g).nss = s.nss := (rfl)
@[simp] theorem State.modSq_zones (s : State) (k : Nat) (g : Sq → Sq) : (s.modSq k g).zones = s.zones := (rfl)
@[simp] theorem State.modSq_stage (s : State) (k : Nat) (g : Sq → Sq) : (s.modSq k g).stage = s.stage := (rfl)
@[simp] theorem State.modSq_media (s : State) (k : Nat) (g : Sq → Sq) : (s.modSq k g).media = s.media := (rfl)
@[simp] theorem State.modSq_acts (s : State) (k : Nat) (g : Sq → Sq) : (s.modSq k g).acts = s.acts := (rfl)
@[simp] theorem State.modSq_bays (s : State) (k : Nat) (g : Sq → Sq) : (s.modSq k g).bays = s.bays := (rfl)
@[simp] theorem State.modSq_doms (s : State) (k : Nat) (g : Sq → Sq) : (s.modSq k g).doms = s.doms := (rfl)
@[simp] theorem State.modSq_pwr (s : State) (k : Nat) (g : Sq → Sq) : (s.modSq k g).pwr = s.pwr := (rfl)
@[simp] theorem State.modSq_les (s : State) (k : Nat) (g : Sq → Sq) : (s.modSq k g).les = s.les := (rfl)
@[simp] theorem State.modSq_trcs (s : State) (k : Nat) (g : Sq → Sq) : (s.modSq k g).trcs = s.trcs := (rfl)
@[simp] theorem State.modSq_trcSel (s : State) (k : Nat) (g : Sq → Sq) : (s.modSq k g).trcSel = s.trcSel := (rfl)
@[simp] theorem State.modSq_engines (s : State) (k : Nat) (g : Sq → Sq) : (s.modSq k g).engines = s.engines := (rfl)
@[simp] theorem State.modSq_pool (s : State) (k : Nat) (g : Sq → Sq) : (s.modSq k g).pool = s.pool := (rfl)
@[simp] theorem State.modSq_herds (s : State) (k : Nat) (g : Sq → Sq) : (s.modSq k g).herds = s.herds := (rfl)
@[simp] theorem State.modSq_mem (s : State) (k : Nat) (g : Sq → Sq) : (s.modSq k g).mem = s.mem := (rfl)
@[simp] theorem State.modSq_ram (s : State) (k : Nat) (g : Sq → Sq) : (s.modSq k g).ram = s.ram := (rfl)
@[simp] theorem State.modSq_cache (s : State) (k : Nat) (g : Sq → Sq) : (s.modSq k g).cache = s.cache := (rfl)
@[simp] theorem State.modSq_cal (s : State) (k : Nat) (g : Sq → Sq) : (s.modSq k g).cal = s.cal := (rfl)
@[simp] theorem State.modSq_thm (s : State) (k : Nat) (g : Sq → Sq) : (s.modSq k g).thm = s.thm := (rfl)
@[simp] theorem State.modSq_clk (s : State) (k : Nat) (g : Sq → Sq) : (s.modSq k g).clk = s.clk := (rfl)
@[simp] theorem State.modSq_isls (s : State) (k : Nat) (g : Sq → Sq) : (s.modSq k g).isls = s.isls := (rfl)
@[simp] theorem State.modSq_xings (s : State) (k : Nat) (g : Sq → Sq) : (s.modSq k g).xings = s.xings := (rfl)
@[simp] theorem State.modSq_mbxs (s : State) (k : Nat) (g : Sq → Sq) : (s.modSq k g).mbxs = s.mbxs := (rfl)
@[simp] theorem State.modSq_evt (s : State) (k : Nat) (g : Sq → Sq) : (s.modSq k g).evt = s.evt := (rfl)
@[simp] theorem State.modSq_rings (s : State) (k : Nat) (g : Sq → Sq) : (s.modSq k g).rings = s.rings := (rfl)
@[simp] theorem State.modSq_accs (s : State) (k : Nat) (g : Sq → Sq) : (s.modSq k g).accs = s.accs := (rfl)
@[simp] theorem State.modSq_tally (s : State) (k : Nat) (g : Sq → Sq) : (s.modSq k g).tally = s.tally := (rfl)
@[simp] theorem State.modSq_boot (s : State) (k : Nat) (g : Sq → Sq) : (s.modSq k g).boot = s.boot := (rfl)
@[simp] theorem State.modSq_keys (s : State) (k : Nat) (g : Sq → Sq) : (s.modSq k g).keys = s.keys := (rfl)
@[simp] theorem State.modSq_sans (s : State) (k : Nat) (g : Sq → Sq) : (s.modSq k g).sans = s.sans := (rfl)
@[simp] theorem State.modSq_fmts (s : State) (k : Nat) (g : Sq → Sq) : (s.modSq k g).fmts = s.fmts := (rfl)
@[simp] theorem State.modSq_opNext (s : State) (k : Nat) (g : Sq → Sq) : (s.modSq k g).opNext = s.opNext := (rfl)
@[simp] theorem State.setCq_pending (s : State) (k : Nat) (v : Cq) : (s.setCq k v).pending = s.pending := (rfl)
@[simp] theorem State.setCq_now (s : State) (k : Nat) (v : Cq) : (s.setCq k v).now = s.now := (rfl)
@[simp] theorem State.setCq_fresh (s : State) (k : Nat) (v : Cq) : (s.setCq k v).fresh = s.fresh := (rfl)
@[simp] theorem State.setCq_out (s : State) (k : Nat) (v : Cq) : (s.setCq k v).out = s.out := (rfl)
@[simp] theorem State.setCq_cfg (s : State) (k : Nat) (v : Cq) : (s.setCq k v).cfg = s.cfg := (rfl)
@[simp] theorem State.setCq_glb (s : State) (k : Nat) (v : Cq) : (s.setCq k v).glb = s.glb := (rfl)
@[simp] theorem State.setCq_ports (s : State) (k : Nat) (v : Cq) : (s.setCq k v).ports = s.ports := (rfl)
@[simp] theorem State.setCq_fns (s : State) (k : Nat) (v : Cq) : (s.setCq k v).fns = s.fns := (rfl)
@[simp] theorem State.setCq_sqs (s : State) (k : Nat) (v : Cq) : (s.setCq k v).sqs = s.sqs := (rfl)
@[simp] theorem State.setCq_ledger (s : State) (k : Nat) (v : Cq) : (s.setCq k v).ledger = s.ledger := (rfl)
@[simp] theorem State.setCq_ldg (s : State) (k : Nat) (v : Cq) : (s.setCq k v).ldg = s.ldg := (rfl)
@[simp] theorem State.setCq_recs (s : State) (k : Nat) (v : Cq) : (s.setCq k v).recs = s.recs := (rfl)
@[simp] theorem State.setCq_recNext (s : State) (k : Nat) (v : Cq) : (s.setCq k v).recNext = s.recNext := (rfl)
@[simp] theorem State.setCq_nss (s : State) (k : Nat) (v : Cq) : (s.setCq k v).nss = s.nss := (rfl)
@[simp] theorem State.setCq_zones (s : State) (k : Nat) (v : Cq) : (s.setCq k v).zones = s.zones := (rfl)
@[simp] theorem State.setCq_stage (s : State) (k : Nat) (v : Cq) : (s.setCq k v).stage = s.stage := (rfl)
@[simp] theorem State.setCq_media (s : State) (k : Nat) (v : Cq) : (s.setCq k v).media = s.media := (rfl)
@[simp] theorem State.setCq_acts (s : State) (k : Nat) (v : Cq) : (s.setCq k v).acts = s.acts := (rfl)
@[simp] theorem State.setCq_bays (s : State) (k : Nat) (v : Cq) : (s.setCq k v).bays = s.bays := (rfl)
@[simp] theorem State.setCq_doms (s : State) (k : Nat) (v : Cq) : (s.setCq k v).doms = s.doms := (rfl)
@[simp] theorem State.setCq_pwr (s : State) (k : Nat) (v : Cq) : (s.setCq k v).pwr = s.pwr := (rfl)
@[simp] theorem State.setCq_les (s : State) (k : Nat) (v : Cq) : (s.setCq k v).les = s.les := (rfl)
@[simp] theorem State.setCq_trcs (s : State) (k : Nat) (v : Cq) : (s.setCq k v).trcs = s.trcs := (rfl)
@[simp] theorem State.setCq_trcSel (s : State) (k : Nat) (v : Cq) : (s.setCq k v).trcSel = s.trcSel := (rfl)
@[simp] theorem State.setCq_engines (s : State) (k : Nat) (v : Cq) : (s.setCq k v).engines = s.engines := (rfl)
@[simp] theorem State.setCq_pool (s : State) (k : Nat) (v : Cq) : (s.setCq k v).pool = s.pool := (rfl)
@[simp] theorem State.setCq_herds (s : State) (k : Nat) (v : Cq) : (s.setCq k v).herds = s.herds := (rfl)
@[simp] theorem State.setCq_mem (s : State) (k : Nat) (v : Cq) : (s.setCq k v).mem = s.mem := (rfl)
@[simp] theorem State.setCq_ram (s : State) (k : Nat) (v : Cq) : (s.setCq k v).ram = s.ram := (rfl)
@[simp] theorem State.setCq_cache (s : State) (k : Nat) (v : Cq) : (s.setCq k v).cache = s.cache := (rfl)
@[simp] theorem State.setCq_cal (s : State) (k : Nat) (v : Cq) : (s.setCq k v).cal = s.cal := (rfl)
@[simp] theorem State.setCq_thm (s : State) (k : Nat) (v : Cq) : (s.setCq k v).thm = s.thm := (rfl)
@[simp] theorem State.setCq_clk (s : State) (k : Nat) (v : Cq) : (s.setCq k v).clk = s.clk := (rfl)
@[simp] theorem State.setCq_isls (s : State) (k : Nat) (v : Cq) : (s.setCq k v).isls = s.isls := (rfl)
@[simp] theorem State.setCq_xings (s : State) (k : Nat) (v : Cq) : (s.setCq k v).xings = s.xings := (rfl)
@[simp] theorem State.setCq_mbxs (s : State) (k : Nat) (v : Cq) : (s.setCq k v).mbxs = s.mbxs := (rfl)
@[simp] theorem State.setCq_evt (s : State) (k : Nat) (v : Cq) : (s.setCq k v).evt = s.evt := (rfl)
@[simp] theorem State.setCq_rings (s : State) (k : Nat) (v : Cq) : (s.setCq k v).rings = s.rings := (rfl)
@[simp] theorem State.setCq_accs (s : State) (k : Nat) (v : Cq) : (s.setCq k v).accs = s.accs := (rfl)
@[simp] theorem State.setCq_tally (s : State) (k : Nat) (v : Cq) : (s.setCq k v).tally = s.tally := (rfl)
@[simp] theorem State.setCq_boot (s : State) (k : Nat) (v : Cq) : (s.setCq k v).boot = s.boot := (rfl)
@[simp] theorem State.setCq_keys (s : State) (k : Nat) (v : Cq) : (s.setCq k v).keys = s.keys := (rfl)
@[simp] theorem State.setCq_sans (s : State) (k : Nat) (v : Cq) : (s.setCq k v).sans = s.sans := (rfl)
@[simp] theorem State.setCq_fmts (s : State) (k : Nat) (v : Cq) : (s.setCq k v).fmts = s.fmts := (rfl)
@[simp] theorem State.setCq_opNext (s : State) (k : Nat) (v : Cq) : (s.setCq k v).opNext = s.opNext := (rfl)
@[simp] theorem State.modCq_pending (s : State) (k : Nat) (g : Cq → Cq) : (s.modCq k g).pending = s.pending := (rfl)
@[simp] theorem State.modCq_now (s : State) (k : Nat) (g : Cq → Cq) : (s.modCq k g).now = s.now := (rfl)
@[simp] theorem State.modCq_fresh (s : State) (k : Nat) (g : Cq → Cq) : (s.modCq k g).fresh = s.fresh := (rfl)
@[simp] theorem State.modCq_out (s : State) (k : Nat) (g : Cq → Cq) : (s.modCq k g).out = s.out := (rfl)
@[simp] theorem State.modCq_cfg (s : State) (k : Nat) (g : Cq → Cq) : (s.modCq k g).cfg = s.cfg := (rfl)
@[simp] theorem State.modCq_glb (s : State) (k : Nat) (g : Cq → Cq) : (s.modCq k g).glb = s.glb := (rfl)
@[simp] theorem State.modCq_ports (s : State) (k : Nat) (g : Cq → Cq) : (s.modCq k g).ports = s.ports := (rfl)
@[simp] theorem State.modCq_fns (s : State) (k : Nat) (g : Cq → Cq) : (s.modCq k g).fns = s.fns := (rfl)
@[simp] theorem State.modCq_sqs (s : State) (k : Nat) (g : Cq → Cq) : (s.modCq k g).sqs = s.sqs := (rfl)
@[simp] theorem State.modCq_ledger (s : State) (k : Nat) (g : Cq → Cq) : (s.modCq k g).ledger = s.ledger := (rfl)
@[simp] theorem State.modCq_ldg (s : State) (k : Nat) (g : Cq → Cq) : (s.modCq k g).ldg = s.ldg := (rfl)
@[simp] theorem State.modCq_recs (s : State) (k : Nat) (g : Cq → Cq) : (s.modCq k g).recs = s.recs := (rfl)
@[simp] theorem State.modCq_recNext (s : State) (k : Nat) (g : Cq → Cq) : (s.modCq k g).recNext = s.recNext := (rfl)
@[simp] theorem State.modCq_nss (s : State) (k : Nat) (g : Cq → Cq) : (s.modCq k g).nss = s.nss := (rfl)
@[simp] theorem State.modCq_zones (s : State) (k : Nat) (g : Cq → Cq) : (s.modCq k g).zones = s.zones := (rfl)
@[simp] theorem State.modCq_stage (s : State) (k : Nat) (g : Cq → Cq) : (s.modCq k g).stage = s.stage := (rfl)
@[simp] theorem State.modCq_media (s : State) (k : Nat) (g : Cq → Cq) : (s.modCq k g).media = s.media := (rfl)
@[simp] theorem State.modCq_acts (s : State) (k : Nat) (g : Cq → Cq) : (s.modCq k g).acts = s.acts := (rfl)
@[simp] theorem State.modCq_bays (s : State) (k : Nat) (g : Cq → Cq) : (s.modCq k g).bays = s.bays := (rfl)
@[simp] theorem State.modCq_doms (s : State) (k : Nat) (g : Cq → Cq) : (s.modCq k g).doms = s.doms := (rfl)
@[simp] theorem State.modCq_pwr (s : State) (k : Nat) (g : Cq → Cq) : (s.modCq k g).pwr = s.pwr := (rfl)
@[simp] theorem State.modCq_les (s : State) (k : Nat) (g : Cq → Cq) : (s.modCq k g).les = s.les := (rfl)
@[simp] theorem State.modCq_trcs (s : State) (k : Nat) (g : Cq → Cq) : (s.modCq k g).trcs = s.trcs := (rfl)
@[simp] theorem State.modCq_trcSel (s : State) (k : Nat) (g : Cq → Cq) : (s.modCq k g).trcSel = s.trcSel := (rfl)
@[simp] theorem State.modCq_engines (s : State) (k : Nat) (g : Cq → Cq) : (s.modCq k g).engines = s.engines := (rfl)
@[simp] theorem State.modCq_pool (s : State) (k : Nat) (g : Cq → Cq) : (s.modCq k g).pool = s.pool := (rfl)
@[simp] theorem State.modCq_herds (s : State) (k : Nat) (g : Cq → Cq) : (s.modCq k g).herds = s.herds := (rfl)
@[simp] theorem State.modCq_mem (s : State) (k : Nat) (g : Cq → Cq) : (s.modCq k g).mem = s.mem := (rfl)
@[simp] theorem State.modCq_ram (s : State) (k : Nat) (g : Cq → Cq) : (s.modCq k g).ram = s.ram := (rfl)
@[simp] theorem State.modCq_cache (s : State) (k : Nat) (g : Cq → Cq) : (s.modCq k g).cache = s.cache := (rfl)
@[simp] theorem State.modCq_cal (s : State) (k : Nat) (g : Cq → Cq) : (s.modCq k g).cal = s.cal := (rfl)
@[simp] theorem State.modCq_thm (s : State) (k : Nat) (g : Cq → Cq) : (s.modCq k g).thm = s.thm := (rfl)
@[simp] theorem State.modCq_clk (s : State) (k : Nat) (g : Cq → Cq) : (s.modCq k g).clk = s.clk := (rfl)
@[simp] theorem State.modCq_isls (s : State) (k : Nat) (g : Cq → Cq) : (s.modCq k g).isls = s.isls := (rfl)
@[simp] theorem State.modCq_xings (s : State) (k : Nat) (g : Cq → Cq) : (s.modCq k g).xings = s.xings := (rfl)
@[simp] theorem State.modCq_mbxs (s : State) (k : Nat) (g : Cq → Cq) : (s.modCq k g).mbxs = s.mbxs := (rfl)
@[simp] theorem State.modCq_evt (s : State) (k : Nat) (g : Cq → Cq) : (s.modCq k g).evt = s.evt := (rfl)
@[simp] theorem State.modCq_rings (s : State) (k : Nat) (g : Cq → Cq) : (s.modCq k g).rings = s.rings := (rfl)
@[simp] theorem State.modCq_accs (s : State) (k : Nat) (g : Cq → Cq) : (s.modCq k g).accs = s.accs := (rfl)
@[simp] theorem State.modCq_tally (s : State) (k : Nat) (g : Cq → Cq) : (s.modCq k g).tally = s.tally := (rfl)
@[simp] theorem State.modCq_boot (s : State) (k : Nat) (g : Cq → Cq) : (s.modCq k g).boot = s.boot := (rfl)
@[simp] theorem State.modCq_keys (s : State) (k : Nat) (g : Cq → Cq) : (s.modCq k g).keys = s.keys := (rfl)
@[simp] theorem State.modCq_sans (s : State) (k : Nat) (g : Cq → Cq) : (s.modCq k g).sans = s.sans := (rfl)
@[simp] theorem State.modCq_fmts (s : State) (k : Nat) (g : Cq → Cq) : (s.modCq k g).fmts = s.fmts := (rfl)
@[simp] theorem State.modCq_opNext (s : State) (k : Nat) (g : Cq → Cq) : (s.modCq k g).opNext = s.opNext := (rfl)
@[simp] theorem State.setNs_pending (s : State) (k : Nat) (v : Ns) : (s.setNs k v).pending = s.pending := (rfl)
@[simp] theorem State.setNs_now (s : State) (k : Nat) (v : Ns) : (s.setNs k v).now = s.now := (rfl)
@[simp] theorem State.setNs_fresh (s : State) (k : Nat) (v : Ns) : (s.setNs k v).fresh = s.fresh := (rfl)
@[simp] theorem State.setNs_out (s : State) (k : Nat) (v : Ns) : (s.setNs k v).out = s.out := (rfl)
@[simp] theorem State.setNs_cfg (s : State) (k : Nat) (v : Ns) : (s.setNs k v).cfg = s.cfg := (rfl)
@[simp] theorem State.setNs_glb (s : State) (k : Nat) (v : Ns) : (s.setNs k v).glb = s.glb := (rfl)
@[simp] theorem State.setNs_ports (s : State) (k : Nat) (v : Ns) : (s.setNs k v).ports = s.ports := (rfl)
@[simp] theorem State.setNs_fns (s : State) (k : Nat) (v : Ns) : (s.setNs k v).fns = s.fns := (rfl)
@[simp] theorem State.setNs_sqs (s : State) (k : Nat) (v : Ns) : (s.setNs k v).sqs = s.sqs := (rfl)
@[simp] theorem State.setNs_cqs (s : State) (k : Nat) (v : Ns) : (s.setNs k v).cqs = s.cqs := (rfl)
@[simp] theorem State.setNs_ledger (s : State) (k : Nat) (v : Ns) : (s.setNs k v).ledger = s.ledger := (rfl)
@[simp] theorem State.setNs_ldg (s : State) (k : Nat) (v : Ns) : (s.setNs k v).ldg = s.ldg := (rfl)
@[simp] theorem State.setNs_recs (s : State) (k : Nat) (v : Ns) : (s.setNs k v).recs = s.recs := (rfl)
@[simp] theorem State.setNs_recNext (s : State) (k : Nat) (v : Ns) : (s.setNs k v).recNext = s.recNext := (rfl)
@[simp] theorem State.setNs_zones (s : State) (k : Nat) (v : Ns) : (s.setNs k v).zones = s.zones := (rfl)
@[simp] theorem State.setNs_stage (s : State) (k : Nat) (v : Ns) : (s.setNs k v).stage = s.stage := (rfl)
@[simp] theorem State.setNs_media (s : State) (k : Nat) (v : Ns) : (s.setNs k v).media = s.media := (rfl)
@[simp] theorem State.setNs_acts (s : State) (k : Nat) (v : Ns) : (s.setNs k v).acts = s.acts := (rfl)
@[simp] theorem State.setNs_bays (s : State) (k : Nat) (v : Ns) : (s.setNs k v).bays = s.bays := (rfl)
@[simp] theorem State.setNs_doms (s : State) (k : Nat) (v : Ns) : (s.setNs k v).doms = s.doms := (rfl)
@[simp] theorem State.setNs_pwr (s : State) (k : Nat) (v : Ns) : (s.setNs k v).pwr = s.pwr := (rfl)
@[simp] theorem State.setNs_les (s : State) (k : Nat) (v : Ns) : (s.setNs k v).les = s.les := (rfl)
@[simp] theorem State.setNs_trcs (s : State) (k : Nat) (v : Ns) : (s.setNs k v).trcs = s.trcs := (rfl)
@[simp] theorem State.setNs_trcSel (s : State) (k : Nat) (v : Ns) : (s.setNs k v).trcSel = s.trcSel := (rfl)
@[simp] theorem State.setNs_engines (s : State) (k : Nat) (v : Ns) : (s.setNs k v).engines = s.engines := (rfl)
@[simp] theorem State.setNs_pool (s : State) (k : Nat) (v : Ns) : (s.setNs k v).pool = s.pool := (rfl)
@[simp] theorem State.setNs_herds (s : State) (k : Nat) (v : Ns) : (s.setNs k v).herds = s.herds := (rfl)
@[simp] theorem State.setNs_mem (s : State) (k : Nat) (v : Ns) : (s.setNs k v).mem = s.mem := (rfl)
@[simp] theorem State.setNs_ram (s : State) (k : Nat) (v : Ns) : (s.setNs k v).ram = s.ram := (rfl)
@[simp] theorem State.setNs_cache (s : State) (k : Nat) (v : Ns) : (s.setNs k v).cache = s.cache := (rfl)
@[simp] theorem State.setNs_cal (s : State) (k : Nat) (v : Ns) : (s.setNs k v).cal = s.cal := (rfl)
@[simp] theorem State.setNs_thm (s : State) (k : Nat) (v : Ns) : (s.setNs k v).thm = s.thm := (rfl)
@[simp] theorem State.setNs_clk (s : State) (k : Nat) (v : Ns) : (s.setNs k v).clk = s.clk := (rfl)
@[simp] theorem State.setNs_isls (s : State) (k : Nat) (v : Ns) : (s.setNs k v).isls = s.isls := (rfl)
@[simp] theorem State.setNs_xings (s : State) (k : Nat) (v : Ns) : (s.setNs k v).xings = s.xings := (rfl)
@[simp] theorem State.setNs_mbxs (s : State) (k : Nat) (v : Ns) : (s.setNs k v).mbxs = s.mbxs := (rfl)
@[simp] theorem State.setNs_evt (s : State) (k : Nat) (v : Ns) : (s.setNs k v).evt = s.evt := (rfl)
@[simp] theorem State.setNs_rings (s : State) (k : Nat) (v : Ns) : (s.setNs k v).rings = s.rings := (rfl)
@[simp] theorem State.setNs_accs (s : State) (k : Nat) (v : Ns) : (s.setNs k v).accs = s.accs := (rfl)
@[simp] theorem State.setNs_tally (s : State) (k : Nat) (v : Ns) : (s.setNs k v).tally = s.tally := (rfl)
@[simp] theorem State.setNs_boot (s : State) (k : Nat) (v : Ns) : (s.setNs k v).boot = s.boot := (rfl)
@[simp] theorem State.setNs_keys (s : State) (k : Nat) (v : Ns) : (s.setNs k v).keys = s.keys := (rfl)
@[simp] theorem State.setNs_sans (s : State) (k : Nat) (v : Ns) : (s.setNs k v).sans = s.sans := (rfl)
@[simp] theorem State.setNs_fmts (s : State) (k : Nat) (v : Ns) : (s.setNs k v).fmts = s.fmts := (rfl)
@[simp] theorem State.setNs_opNext (s : State) (k : Nat) (v : Ns) : (s.setNs k v).opNext = s.opNext := (rfl)
@[simp] theorem State.modNs_pending (s : State) (k : Nat) (g : Ns → Ns) : (s.modNs k g).pending = s.pending := (rfl)
@[simp] theorem State.modNs_now (s : State) (k : Nat) (g : Ns → Ns) : (s.modNs k g).now = s.now := (rfl)
@[simp] theorem State.modNs_fresh (s : State) (k : Nat) (g : Ns → Ns) : (s.modNs k g).fresh = s.fresh := (rfl)
@[simp] theorem State.modNs_out (s : State) (k : Nat) (g : Ns → Ns) : (s.modNs k g).out = s.out := (rfl)
@[simp] theorem State.modNs_cfg (s : State) (k : Nat) (g : Ns → Ns) : (s.modNs k g).cfg = s.cfg := (rfl)
@[simp] theorem State.modNs_glb (s : State) (k : Nat) (g : Ns → Ns) : (s.modNs k g).glb = s.glb := (rfl)
@[simp] theorem State.modNs_ports (s : State) (k : Nat) (g : Ns → Ns) : (s.modNs k g).ports = s.ports := (rfl)
@[simp] theorem State.modNs_fns (s : State) (k : Nat) (g : Ns → Ns) : (s.modNs k g).fns = s.fns := (rfl)
@[simp] theorem State.modNs_sqs (s : State) (k : Nat) (g : Ns → Ns) : (s.modNs k g).sqs = s.sqs := (rfl)
@[simp] theorem State.modNs_cqs (s : State) (k : Nat) (g : Ns → Ns) : (s.modNs k g).cqs = s.cqs := (rfl)
@[simp] theorem State.modNs_ledger (s : State) (k : Nat) (g : Ns → Ns) : (s.modNs k g).ledger = s.ledger := (rfl)
@[simp] theorem State.modNs_ldg (s : State) (k : Nat) (g : Ns → Ns) : (s.modNs k g).ldg = s.ldg := (rfl)
@[simp] theorem State.modNs_recs (s : State) (k : Nat) (g : Ns → Ns) : (s.modNs k g).recs = s.recs := (rfl)
@[simp] theorem State.modNs_recNext (s : State) (k : Nat) (g : Ns → Ns) : (s.modNs k g).recNext = s.recNext := (rfl)
@[simp] theorem State.modNs_zones (s : State) (k : Nat) (g : Ns → Ns) : (s.modNs k g).zones = s.zones := (rfl)
@[simp] theorem State.modNs_stage (s : State) (k : Nat) (g : Ns → Ns) : (s.modNs k g).stage = s.stage := (rfl)
@[simp] theorem State.modNs_media (s : State) (k : Nat) (g : Ns → Ns) : (s.modNs k g).media = s.media := (rfl)
@[simp] theorem State.modNs_acts (s : State) (k : Nat) (g : Ns → Ns) : (s.modNs k g).acts = s.acts := (rfl)
@[simp] theorem State.modNs_bays (s : State) (k : Nat) (g : Ns → Ns) : (s.modNs k g).bays = s.bays := (rfl)
@[simp] theorem State.modNs_doms (s : State) (k : Nat) (g : Ns → Ns) : (s.modNs k g).doms = s.doms := (rfl)
@[simp] theorem State.modNs_pwr (s : State) (k : Nat) (g : Ns → Ns) : (s.modNs k g).pwr = s.pwr := (rfl)
@[simp] theorem State.modNs_les (s : State) (k : Nat) (g : Ns → Ns) : (s.modNs k g).les = s.les := (rfl)
@[simp] theorem State.modNs_trcs (s : State) (k : Nat) (g : Ns → Ns) : (s.modNs k g).trcs = s.trcs := (rfl)
@[simp] theorem State.modNs_trcSel (s : State) (k : Nat) (g : Ns → Ns) : (s.modNs k g).trcSel = s.trcSel := (rfl)
@[simp] theorem State.modNs_engines (s : State) (k : Nat) (g : Ns → Ns) : (s.modNs k g).engines = s.engines := (rfl)
@[simp] theorem State.modNs_pool (s : State) (k : Nat) (g : Ns → Ns) : (s.modNs k g).pool = s.pool := (rfl)
@[simp] theorem State.modNs_herds (s : State) (k : Nat) (g : Ns → Ns) : (s.modNs k g).herds = s.herds := (rfl)
@[simp] theorem State.modNs_mem (s : State) (k : Nat) (g : Ns → Ns) : (s.modNs k g).mem = s.mem := (rfl)
@[simp] theorem State.modNs_ram (s : State) (k : Nat) (g : Ns → Ns) : (s.modNs k g).ram = s.ram := (rfl)
@[simp] theorem State.modNs_cache (s : State) (k : Nat) (g : Ns → Ns) : (s.modNs k g).cache = s.cache := (rfl)
@[simp] theorem State.modNs_cal (s : State) (k : Nat) (g : Ns → Ns) : (s.modNs k g).cal = s.cal := (rfl)
@[simp] theorem State.modNs_thm (s : State) (k : Nat) (g : Ns → Ns) : (s.modNs k g).thm = s.thm := (rfl)
@[simp] theorem State.modNs_clk (s : State) (k : Nat) (g : Ns → Ns) : (s.modNs k g).clk = s.clk := (rfl)
@[simp] theorem State.modNs_isls (s : State) (k : Nat) (g : Ns → Ns) : (s.modNs k g).isls = s.isls := (rfl)
@[simp] theorem State.modNs_xings (s : State) (k : Nat) (g : Ns → Ns) : (s.modNs k g).xings = s.xings := (rfl)
@[simp] theorem State.modNs_mbxs (s : State) (k : Nat) (g : Ns → Ns) : (s.modNs k g).mbxs = s.mbxs := (rfl)
@[simp] theorem State.modNs_evt (s : State) (k : Nat) (g : Ns → Ns) : (s.modNs k g).evt = s.evt := (rfl)
@[simp] theorem State.modNs_rings (s : State) (k : Nat) (g : Ns → Ns) : (s.modNs k g).rings = s.rings := (rfl)
@[simp] theorem State.modNs_accs (s : State) (k : Nat) (g : Ns → Ns) : (s.modNs k g).accs = s.accs := (rfl)
@[simp] theorem State.modNs_tally (s : State) (k : Nat) (g : Ns → Ns) : (s.modNs k g).tally = s.tally := (rfl)
@[simp] theorem State.modNs_boot (s : State) (k : Nat) (g : Ns → Ns) : (s.modNs k g).boot = s.boot := (rfl)
@[simp] theorem State.modNs_keys (s : State) (k : Nat) (g : Ns → Ns) : (s.modNs k g).keys = s.keys := (rfl)
@[simp] theorem State.modNs_sans (s : State) (k : Nat) (g : Ns → Ns) : (s.modNs k g).sans = s.sans := (rfl)
@[simp] theorem State.modNs_fmts (s : State) (k : Nat) (g : Ns → Ns) : (s.modNs k g).fmts = s.fmts := (rfl)
@[simp] theorem State.modNs_opNext (s : State) (k : Nat) (g : Ns → Ns) : (s.modNs k g).opNext = s.opNext := (rfl)
@[simp] theorem State.setZone_pending (s : State) (k : Nat) (v : Zone) : (s.setZone k v).pending = s.pending := (rfl)
@[simp] theorem State.setZone_now (s : State) (k : Nat) (v : Zone) : (s.setZone k v).now = s.now := (rfl)
@[simp] theorem State.setZone_fresh (s : State) (k : Nat) (v : Zone) : (s.setZone k v).fresh = s.fresh := (rfl)
@[simp] theorem State.setZone_out (s : State) (k : Nat) (v : Zone) : (s.setZone k v).out = s.out := (rfl)
@[simp] theorem State.setZone_cfg (s : State) (k : Nat) (v : Zone) : (s.setZone k v).cfg = s.cfg := (rfl)
@[simp] theorem State.setZone_glb (s : State) (k : Nat) (v : Zone) : (s.setZone k v).glb = s.glb := (rfl)
@[simp] theorem State.setZone_ports (s : State) (k : Nat) (v : Zone) : (s.setZone k v).ports = s.ports := (rfl)
@[simp] theorem State.setZone_fns (s : State) (k : Nat) (v : Zone) : (s.setZone k v).fns = s.fns := (rfl)
@[simp] theorem State.setZone_sqs (s : State) (k : Nat) (v : Zone) : (s.setZone k v).sqs = s.sqs := (rfl)
@[simp] theorem State.setZone_cqs (s : State) (k : Nat) (v : Zone) : (s.setZone k v).cqs = s.cqs := (rfl)
@[simp] theorem State.setZone_ledger (s : State) (k : Nat) (v : Zone) : (s.setZone k v).ledger = s.ledger := (rfl)
@[simp] theorem State.setZone_ldg (s : State) (k : Nat) (v : Zone) : (s.setZone k v).ldg = s.ldg := (rfl)
@[simp] theorem State.setZone_recs (s : State) (k : Nat) (v : Zone) : (s.setZone k v).recs = s.recs := (rfl)
@[simp] theorem State.setZone_recNext (s : State) (k : Nat) (v : Zone) : (s.setZone k v).recNext = s.recNext := (rfl)
@[simp] theorem State.setZone_nss (s : State) (k : Nat) (v : Zone) : (s.setZone k v).nss = s.nss := (rfl)
@[simp] theorem State.setZone_stage (s : State) (k : Nat) (v : Zone) : (s.setZone k v).stage = s.stage := (rfl)
@[simp] theorem State.setZone_media (s : State) (k : Nat) (v : Zone) : (s.setZone k v).media = s.media := (rfl)
@[simp] theorem State.setZone_acts (s : State) (k : Nat) (v : Zone) : (s.setZone k v).acts = s.acts := (rfl)
@[simp] theorem State.setZone_bays (s : State) (k : Nat) (v : Zone) : (s.setZone k v).bays = s.bays := (rfl)
@[simp] theorem State.setZone_doms (s : State) (k : Nat) (v : Zone) : (s.setZone k v).doms = s.doms := (rfl)
@[simp] theorem State.setZone_pwr (s : State) (k : Nat) (v : Zone) : (s.setZone k v).pwr = s.pwr := (rfl)
@[simp] theorem State.setZone_les (s : State) (k : Nat) (v : Zone) : (s.setZone k v).les = s.les := (rfl)
@[simp] theorem State.setZone_trcs (s : State) (k : Nat) (v : Zone) : (s.setZone k v).trcs = s.trcs := (rfl)
@[simp] theorem State.setZone_trcSel (s : State) (k : Nat) (v : Zone) : (s.setZone k v).trcSel = s.trcSel := (rfl)
@[simp] theorem State.setZone_engines (s : State) (k : Nat) (v : Zone) : (s.setZone k v).engines = s.engines := (rfl)
@[simp] theorem State.setZone_pool (s : State) (k : Nat) (v : Zone) : (s.setZone k v).pool = s.pool := (rfl)
@[simp] theorem State.setZone_herds (s : State) (k : Nat) (v : Zone) : (s.setZone k v).herds = s.herds := (rfl)
@[simp] theorem State.setZone_mem (s : State) (k : Nat) (v : Zone) : (s.setZone k v).mem = s.mem := (rfl)
@[simp] theorem State.setZone_ram (s : State) (k : Nat) (v : Zone) : (s.setZone k v).ram = s.ram := (rfl)
@[simp] theorem State.setZone_cache (s : State) (k : Nat) (v : Zone) : (s.setZone k v).cache = s.cache := (rfl)
@[simp] theorem State.setZone_cal (s : State) (k : Nat) (v : Zone) : (s.setZone k v).cal = s.cal := (rfl)
@[simp] theorem State.setZone_thm (s : State) (k : Nat) (v : Zone) : (s.setZone k v).thm = s.thm := (rfl)
@[simp] theorem State.setZone_clk (s : State) (k : Nat) (v : Zone) : (s.setZone k v).clk = s.clk := (rfl)
@[simp] theorem State.setZone_isls (s : State) (k : Nat) (v : Zone) : (s.setZone k v).isls = s.isls := (rfl)
@[simp] theorem State.setZone_xings (s : State) (k : Nat) (v : Zone) : (s.setZone k v).xings = s.xings := (rfl)
@[simp] theorem State.setZone_mbxs (s : State) (k : Nat) (v : Zone) : (s.setZone k v).mbxs = s.mbxs := (rfl)
@[simp] theorem State.setZone_evt (s : State) (k : Nat) (v : Zone) : (s.setZone k v).evt = s.evt := (rfl)
@[simp] theorem State.setZone_rings (s : State) (k : Nat) (v : Zone) : (s.setZone k v).rings = s.rings := (rfl)
@[simp] theorem State.setZone_accs (s : State) (k : Nat) (v : Zone) : (s.setZone k v).accs = s.accs := (rfl)
@[simp] theorem State.setZone_tally (s : State) (k : Nat) (v : Zone) : (s.setZone k v).tally = s.tally := (rfl)
@[simp] theorem State.setZone_boot (s : State) (k : Nat) (v : Zone) : (s.setZone k v).boot = s.boot := (rfl)
@[simp] theorem State.setZone_keys (s : State) (k : Nat) (v : Zone) : (s.setZone k v).keys = s.keys := (rfl)
@[simp] theorem State.setZone_sans (s : State) (k : Nat) (v : Zone) : (s.setZone k v).sans = s.sans := (rfl)
@[simp] theorem State.setZone_fmts (s : State) (k : Nat) (v : Zone) : (s.setZone k v).fmts = s.fmts := (rfl)
@[simp] theorem State.setZone_opNext (s : State) (k : Nat) (v : Zone) : (s.setZone k v).opNext = s.opNext := (rfl)
@[simp] theorem State.modZone_pending (s : State) (k : Nat) (g : Zone → Zone) : (s.modZone k g).pending = s.pending := (rfl)
@[simp] theorem State.modZone_now (s : State) (k : Nat) (g : Zone → Zone) : (s.modZone k g).now = s.now := (rfl)
@[simp] theorem State.modZone_fresh (s : State) (k : Nat) (g : Zone → Zone) : (s.modZone k g).fresh = s.fresh := (rfl)
@[simp] theorem State.modZone_out (s : State) (k : Nat) (g : Zone → Zone) : (s.modZone k g).out = s.out := (rfl)
@[simp] theorem State.modZone_cfg (s : State) (k : Nat) (g : Zone → Zone) : (s.modZone k g).cfg = s.cfg := (rfl)
@[simp] theorem State.modZone_glb (s : State) (k : Nat) (g : Zone → Zone) : (s.modZone k g).glb = s.glb := (rfl)
@[simp] theorem State.modZone_ports (s : State) (k : Nat) (g : Zone → Zone) : (s.modZone k g).ports = s.ports := (rfl)
@[simp] theorem State.modZone_fns (s : State) (k : Nat) (g : Zone → Zone) : (s.modZone k g).fns = s.fns := (rfl)
@[simp] theorem State.modZone_sqs (s : State) (k : Nat) (g : Zone → Zone) : (s.modZone k g).sqs = s.sqs := (rfl)
@[simp] theorem State.modZone_cqs (s : State) (k : Nat) (g : Zone → Zone) : (s.modZone k g).cqs = s.cqs := (rfl)
@[simp] theorem State.modZone_ledger (s : State) (k : Nat) (g : Zone → Zone) : (s.modZone k g).ledger = s.ledger := (rfl)
@[simp] theorem State.modZone_ldg (s : State) (k : Nat) (g : Zone → Zone) : (s.modZone k g).ldg = s.ldg := (rfl)
@[simp] theorem State.modZone_recs (s : State) (k : Nat) (g : Zone → Zone) : (s.modZone k g).recs = s.recs := (rfl)
@[simp] theorem State.modZone_recNext (s : State) (k : Nat) (g : Zone → Zone) : (s.modZone k g).recNext = s.recNext := (rfl)
@[simp] theorem State.modZone_nss (s : State) (k : Nat) (g : Zone → Zone) : (s.modZone k g).nss = s.nss := (rfl)
@[simp] theorem State.modZone_stage (s : State) (k : Nat) (g : Zone → Zone) : (s.modZone k g).stage = s.stage := (rfl)
@[simp] theorem State.modZone_media (s : State) (k : Nat) (g : Zone → Zone) : (s.modZone k g).media = s.media := (rfl)
@[simp] theorem State.modZone_acts (s : State) (k : Nat) (g : Zone → Zone) : (s.modZone k g).acts = s.acts := (rfl)
@[simp] theorem State.modZone_bays (s : State) (k : Nat) (g : Zone → Zone) : (s.modZone k g).bays = s.bays := (rfl)
@[simp] theorem State.modZone_doms (s : State) (k : Nat) (g : Zone → Zone) : (s.modZone k g).doms = s.doms := (rfl)
@[simp] theorem State.modZone_pwr (s : State) (k : Nat) (g : Zone → Zone) : (s.modZone k g).pwr = s.pwr := (rfl)
@[simp] theorem State.modZone_les (s : State) (k : Nat) (g : Zone → Zone) : (s.modZone k g).les = s.les := (rfl)
@[simp] theorem State.modZone_trcs (s : State) (k : Nat) (g : Zone → Zone) : (s.modZone k g).trcs = s.trcs := (rfl)
@[simp] theorem State.modZone_trcSel (s : State) (k : Nat) (g : Zone → Zone) : (s.modZone k g).trcSel = s.trcSel := (rfl)
@[simp] theorem State.modZone_engines (s : State) (k : Nat) (g : Zone → Zone) : (s.modZone k g).engines = s.engines := (rfl)
@[simp] theorem State.modZone_pool (s : State) (k : Nat) (g : Zone → Zone) : (s.modZone k g).pool = s.pool := (rfl)
@[simp] theorem State.modZone_herds (s : State) (k : Nat) (g : Zone → Zone) : (s.modZone k g).herds = s.herds := (rfl)
@[simp] theorem State.modZone_mem (s : State) (k : Nat) (g : Zone → Zone) : (s.modZone k g).mem = s.mem := (rfl)
@[simp] theorem State.modZone_ram (s : State) (k : Nat) (g : Zone → Zone) : (s.modZone k g).ram = s.ram := (rfl)
@[simp] theorem State.modZone_cache (s : State) (k : Nat) (g : Zone → Zone) : (s.modZone k g).cache = s.cache := (rfl)
@[simp] theorem State.modZone_cal (s : State) (k : Nat) (g : Zone → Zone) : (s.modZone k g).cal = s.cal := (rfl)
@[simp] theorem State.modZone_thm (s : State) (k : Nat) (g : Zone → Zone) : (s.modZone k g).thm = s.thm := (rfl)
@[simp] theorem State.modZone_clk (s : State) (k : Nat) (g : Zone → Zone) : (s.modZone k g).clk = s.clk := (rfl)
@[simp] theorem State.modZone_isls (s : State) (k : Nat) (g : Zone → Zone) : (s.modZone k g).isls = s.isls := (rfl)
@[simp] theorem State.modZone_xings (s : State) (k : Nat) (g : Zone → Zone) : (s.modZone k g).xings = s.xings := (rfl)
@[simp] theorem State.modZone_mbxs (s : State) (k : Nat) (g : Zone → Zone) : (s.modZone k g).mbxs = s.mbxs := (rfl)
@[simp] theorem State.modZone_evt (s : State) (k : Nat) (g : Zone → Zone) : (s.modZone k g).evt = s.evt := (rfl)
@[simp] theorem State.modZone_rings (s : State) (k : Nat) (g : Zone → Zone) : (s.modZone k g).rings = s.rings := (rfl)
@[simp] theorem State.modZone_accs (s : State) (k : Nat) (g : Zone → Zone) : (s.modZone k g).accs = s.accs := (rfl)
@[simp] theorem State.modZone_tally (s : State) (k : Nat) (g : Zone → Zone) : (s.modZone k g).tally = s.tally := (rfl)
@[simp] theorem State.modZone_boot (s : State) (k : Nat) (g : Zone → Zone) : (s.modZone k g).boot = s.boot := (rfl)
@[simp] theorem State.modZone_keys (s : State) (k : Nat) (g : Zone → Zone) : (s.modZone k g).keys = s.keys := (rfl)
@[simp] theorem State.modZone_sans (s : State) (k : Nat) (g : Zone → Zone) : (s.modZone k g).sans = s.sans := (rfl)
@[simp] theorem State.modZone_fmts (s : State) (k : Nat) (g : Zone → Zone) : (s.modZone k g).fmts = s.fmts := (rfl)
@[simp] theorem State.modZone_opNext (s : State) (k : Nat) (g : Zone → Zone) : (s.modZone k g).opNext = s.opNext := (rfl)
@[simp] theorem State.setAct_pending (s : State) (k : Nat) (v : ActSt) : (s.setAct k v).pending = s.pending := (rfl)
@[simp] theorem State.setAct_now (s : State) (k : Nat) (v : ActSt) : (s.setAct k v).now = s.now := (rfl)
@[simp] theorem State.setAct_fresh (s : State) (k : Nat) (v : ActSt) : (s.setAct k v).fresh = s.fresh := (rfl)
@[simp] theorem State.setAct_out (s : State) (k : Nat) (v : ActSt) : (s.setAct k v).out = s.out := (rfl)
@[simp] theorem State.setAct_cfg (s : State) (k : Nat) (v : ActSt) : (s.setAct k v).cfg = s.cfg := (rfl)
@[simp] theorem State.setAct_glb (s : State) (k : Nat) (v : ActSt) : (s.setAct k v).glb = s.glb := (rfl)
@[simp] theorem State.setAct_ports (s : State) (k : Nat) (v : ActSt) : (s.setAct k v).ports = s.ports := (rfl)
@[simp] theorem State.setAct_fns (s : State) (k : Nat) (v : ActSt) : (s.setAct k v).fns = s.fns := (rfl)
@[simp] theorem State.setAct_sqs (s : State) (k : Nat) (v : ActSt) : (s.setAct k v).sqs = s.sqs := (rfl)
@[simp] theorem State.setAct_cqs (s : State) (k : Nat) (v : ActSt) : (s.setAct k v).cqs = s.cqs := (rfl)
@[simp] theorem State.setAct_ledger (s : State) (k : Nat) (v : ActSt) : (s.setAct k v).ledger = s.ledger := (rfl)
@[simp] theorem State.setAct_ldg (s : State) (k : Nat) (v : ActSt) : (s.setAct k v).ldg = s.ldg := (rfl)
@[simp] theorem State.setAct_recs (s : State) (k : Nat) (v : ActSt) : (s.setAct k v).recs = s.recs := (rfl)
@[simp] theorem State.setAct_recNext (s : State) (k : Nat) (v : ActSt) : (s.setAct k v).recNext = s.recNext := (rfl)
@[simp] theorem State.setAct_nss (s : State) (k : Nat) (v : ActSt) : (s.setAct k v).nss = s.nss := (rfl)
@[simp] theorem State.setAct_zones (s : State) (k : Nat) (v : ActSt) : (s.setAct k v).zones = s.zones := (rfl)
@[simp] theorem State.setAct_stage (s : State) (k : Nat) (v : ActSt) : (s.setAct k v).stage = s.stage := (rfl)
@[simp] theorem State.setAct_media (s : State) (k : Nat) (v : ActSt) : (s.setAct k v).media = s.media := (rfl)
@[simp] theorem State.setAct_bays (s : State) (k : Nat) (v : ActSt) : (s.setAct k v).bays = s.bays := (rfl)
@[simp] theorem State.setAct_doms (s : State) (k : Nat) (v : ActSt) : (s.setAct k v).doms = s.doms := (rfl)
@[simp] theorem State.setAct_pwr (s : State) (k : Nat) (v : ActSt) : (s.setAct k v).pwr = s.pwr := (rfl)
@[simp] theorem State.setAct_les (s : State) (k : Nat) (v : ActSt) : (s.setAct k v).les = s.les := (rfl)
@[simp] theorem State.setAct_trcs (s : State) (k : Nat) (v : ActSt) : (s.setAct k v).trcs = s.trcs := (rfl)
@[simp] theorem State.setAct_trcSel (s : State) (k : Nat) (v : ActSt) : (s.setAct k v).trcSel = s.trcSel := (rfl)
@[simp] theorem State.setAct_engines (s : State) (k : Nat) (v : ActSt) : (s.setAct k v).engines = s.engines := (rfl)
@[simp] theorem State.setAct_pool (s : State) (k : Nat) (v : ActSt) : (s.setAct k v).pool = s.pool := (rfl)
@[simp] theorem State.setAct_herds (s : State) (k : Nat) (v : ActSt) : (s.setAct k v).herds = s.herds := (rfl)
@[simp] theorem State.setAct_mem (s : State) (k : Nat) (v : ActSt) : (s.setAct k v).mem = s.mem := (rfl)
@[simp] theorem State.setAct_ram (s : State) (k : Nat) (v : ActSt) : (s.setAct k v).ram = s.ram := (rfl)
@[simp] theorem State.setAct_cache (s : State) (k : Nat) (v : ActSt) : (s.setAct k v).cache = s.cache := (rfl)
@[simp] theorem State.setAct_cal (s : State) (k : Nat) (v : ActSt) : (s.setAct k v).cal = s.cal := (rfl)
@[simp] theorem State.setAct_thm (s : State) (k : Nat) (v : ActSt) : (s.setAct k v).thm = s.thm := (rfl)
@[simp] theorem State.setAct_clk (s : State) (k : Nat) (v : ActSt) : (s.setAct k v).clk = s.clk := (rfl)
@[simp] theorem State.setAct_isls (s : State) (k : Nat) (v : ActSt) : (s.setAct k v).isls = s.isls := (rfl)
@[simp] theorem State.setAct_xings (s : State) (k : Nat) (v : ActSt) : (s.setAct k v).xings = s.xings := (rfl)
@[simp] theorem State.setAct_mbxs (s : State) (k : Nat) (v : ActSt) : (s.setAct k v).mbxs = s.mbxs := (rfl)
@[simp] theorem State.setAct_evt (s : State) (k : Nat) (v : ActSt) : (s.setAct k v).evt = s.evt := (rfl)
@[simp] theorem State.setAct_rings (s : State) (k : Nat) (v : ActSt) : (s.setAct k v).rings = s.rings := (rfl)
@[simp] theorem State.setAct_accs (s : State) (k : Nat) (v : ActSt) : (s.setAct k v).accs = s.accs := (rfl)
@[simp] theorem State.setAct_tally (s : State) (k : Nat) (v : ActSt) : (s.setAct k v).tally = s.tally := (rfl)
@[simp] theorem State.setAct_boot (s : State) (k : Nat) (v : ActSt) : (s.setAct k v).boot = s.boot := (rfl)
@[simp] theorem State.setAct_keys (s : State) (k : Nat) (v : ActSt) : (s.setAct k v).keys = s.keys := (rfl)
@[simp] theorem State.setAct_sans (s : State) (k : Nat) (v : ActSt) : (s.setAct k v).sans = s.sans := (rfl)
@[simp] theorem State.setAct_fmts (s : State) (k : Nat) (v : ActSt) : (s.setAct k v).fmts = s.fmts := (rfl)
@[simp] theorem State.setAct_opNext (s : State) (k : Nat) (v : ActSt) : (s.setAct k v).opNext = s.opNext := (rfl)
@[simp] theorem State.modAct_pending (s : State) (k : Nat) (g : ActSt → ActSt) : (s.modAct k g).pending = s.pending := (rfl)
@[simp] theorem State.modAct_now (s : State) (k : Nat) (g : ActSt → ActSt) : (s.modAct k g).now = s.now := (rfl)
@[simp] theorem State.modAct_fresh (s : State) (k : Nat) (g : ActSt → ActSt) : (s.modAct k g).fresh = s.fresh := (rfl)
@[simp] theorem State.modAct_out (s : State) (k : Nat) (g : ActSt → ActSt) : (s.modAct k g).out = s.out := (rfl)
@[simp] theorem State.modAct_cfg (s : State) (k : Nat) (g : ActSt → ActSt) : (s.modAct k g).cfg = s.cfg := (rfl)
@[simp] theorem State.modAct_glb (s : State) (k : Nat) (g : ActSt → ActSt) : (s.modAct k g).glb = s.glb := (rfl)
@[simp] theorem State.modAct_ports (s : State) (k : Nat) (g : ActSt → ActSt) : (s.modAct k g).ports = s.ports := (rfl)
@[simp] theorem State.modAct_fns (s : State) (k : Nat) (g : ActSt → ActSt) : (s.modAct k g).fns = s.fns := (rfl)
@[simp] theorem State.modAct_sqs (s : State) (k : Nat) (g : ActSt → ActSt) : (s.modAct k g).sqs = s.sqs := (rfl)
@[simp] theorem State.modAct_cqs (s : State) (k : Nat) (g : ActSt → ActSt) : (s.modAct k g).cqs = s.cqs := (rfl)
@[simp] theorem State.modAct_ledger (s : State) (k : Nat) (g : ActSt → ActSt) : (s.modAct k g).ledger = s.ledger := (rfl)
@[simp] theorem State.modAct_ldg (s : State) (k : Nat) (g : ActSt → ActSt) : (s.modAct k g).ldg = s.ldg := (rfl)
@[simp] theorem State.modAct_recs (s : State) (k : Nat) (g : ActSt → ActSt) : (s.modAct k g).recs = s.recs := (rfl)
@[simp] theorem State.modAct_recNext (s : State) (k : Nat) (g : ActSt → ActSt) : (s.modAct k g).recNext = s.recNext := (rfl)
@[simp] theorem State.modAct_nss (s : State) (k : Nat) (g : ActSt → ActSt) : (s.modAct k g).nss = s.nss := (rfl)
@[simp] theorem State.modAct_zones (s : State) (k : Nat) (g : ActSt → ActSt) : (s.modAct k g).zones = s.zones := (rfl)
@[simp] theorem State.modAct_stage (s : State) (k : Nat) (g : ActSt → ActSt) : (s.modAct k g).stage = s.stage := (rfl)
@[simp] theorem State.modAct_media (s : State) (k : Nat) (g : ActSt → ActSt) : (s.modAct k g).media = s.media := (rfl)
@[simp] theorem State.modAct_bays (s : State) (k : Nat) (g : ActSt → ActSt) : (s.modAct k g).bays = s.bays := (rfl)
@[simp] theorem State.modAct_doms (s : State) (k : Nat) (g : ActSt → ActSt) : (s.modAct k g).doms = s.doms := (rfl)
@[simp] theorem State.modAct_pwr (s : State) (k : Nat) (g : ActSt → ActSt) : (s.modAct k g).pwr = s.pwr := (rfl)
@[simp] theorem State.modAct_les (s : State) (k : Nat) (g : ActSt → ActSt) : (s.modAct k g).les = s.les := (rfl)
@[simp] theorem State.modAct_trcs (s : State) (k : Nat) (g : ActSt → ActSt) : (s.modAct k g).trcs = s.trcs := (rfl)
@[simp] theorem State.modAct_trcSel (s : State) (k : Nat) (g : ActSt → ActSt) : (s.modAct k g).trcSel = s.trcSel := (rfl)
@[simp] theorem State.modAct_engines (s : State) (k : Nat) (g : ActSt → ActSt) : (s.modAct k g).engines = s.engines := (rfl)
@[simp] theorem State.modAct_pool (s : State) (k : Nat) (g : ActSt → ActSt) : (s.modAct k g).pool = s.pool := (rfl)
@[simp] theorem State.modAct_herds (s : State) (k : Nat) (g : ActSt → ActSt) : (s.modAct k g).herds = s.herds := (rfl)
@[simp] theorem State.modAct_mem (s : State) (k : Nat) (g : ActSt → ActSt) : (s.modAct k g).mem = s.mem := (rfl)
@[simp] theorem State.modAct_ram (s : State) (k : Nat) (g : ActSt → ActSt) : (s.modAct k g).ram = s.ram := (rfl)
@[simp] theorem State.modAct_cache (s : State) (k : Nat) (g : ActSt → ActSt) : (s.modAct k g).cache = s.cache := (rfl)
@[simp] theorem State.modAct_cal (s : State) (k : Nat) (g : ActSt → ActSt) : (s.modAct k g).cal = s.cal := (rfl)
@[simp] theorem State.modAct_thm (s : State) (k : Nat) (g : ActSt → ActSt) : (s.modAct k g).thm = s.thm := (rfl)
@[simp] theorem State.modAct_clk (s : State) (k : Nat) (g : ActSt → ActSt) : (s.modAct k g).clk = s.clk := (rfl)
@[simp] theorem State.modAct_isls (s : State) (k : Nat) (g : ActSt → ActSt) : (s.modAct k g).isls = s.isls := (rfl)
@[simp] theorem State.modAct_xings (s : State) (k : Nat) (g : ActSt → ActSt) : (s.modAct k g).xings = s.xings := (rfl)
@[simp] theorem State.modAct_mbxs (s : State) (k : Nat) (g : ActSt → ActSt) : (s.modAct k g).mbxs = s.mbxs := (rfl)
@[simp] theorem State.modAct_evt (s : State) (k : Nat) (g : ActSt → ActSt) : (s.modAct k g).evt = s.evt := (rfl)
@[simp] theorem State.modAct_rings (s : State) (k : Nat) (g : ActSt → ActSt) : (s.modAct k g).rings = s.rings := (rfl)
@[simp] theorem State.modAct_accs (s : State) (k : Nat) (g : ActSt → ActSt) : (s.modAct k g).accs = s.accs := (rfl)
@[simp] theorem State.modAct_tally (s : State) (k : Nat) (g : ActSt → ActSt) : (s.modAct k g).tally = s.tally := (rfl)
@[simp] theorem State.modAct_boot (s : State) (k : Nat) (g : ActSt → ActSt) : (s.modAct k g).boot = s.boot := (rfl)
@[simp] theorem State.modAct_keys (s : State) (k : Nat) (g : ActSt → ActSt) : (s.modAct k g).keys = s.keys := (rfl)
@[simp] theorem State.modAct_sans (s : State) (k : Nat) (g : ActSt → ActSt) : (s.modAct k g).sans = s.sans := (rfl)
@[simp] theorem State.modAct_fmts (s : State) (k : Nat) (g : ActSt → ActSt) : (s.modAct k g).fmts = s.fmts := (rfl)
@[simp] theorem State.modAct_opNext (s : State) (k : Nat) (g : ActSt → ActSt) : (s.modAct k g).opNext = s.opNext := (rfl)
@[simp] theorem State.setBay_pending (s : State) (k : Nat) (v : BaySt) : (s.setBay k v).pending = s.pending := (rfl)
@[simp] theorem State.setBay_now (s : State) (k : Nat) (v : BaySt) : (s.setBay k v).now = s.now := (rfl)
@[simp] theorem State.setBay_fresh (s : State) (k : Nat) (v : BaySt) : (s.setBay k v).fresh = s.fresh := (rfl)
@[simp] theorem State.setBay_out (s : State) (k : Nat) (v : BaySt) : (s.setBay k v).out = s.out := (rfl)
@[simp] theorem State.setBay_cfg (s : State) (k : Nat) (v : BaySt) : (s.setBay k v).cfg = s.cfg := (rfl)
@[simp] theorem State.setBay_glb (s : State) (k : Nat) (v : BaySt) : (s.setBay k v).glb = s.glb := (rfl)
@[simp] theorem State.setBay_ports (s : State) (k : Nat) (v : BaySt) : (s.setBay k v).ports = s.ports := (rfl)
@[simp] theorem State.setBay_fns (s : State) (k : Nat) (v : BaySt) : (s.setBay k v).fns = s.fns := (rfl)
@[simp] theorem State.setBay_sqs (s : State) (k : Nat) (v : BaySt) : (s.setBay k v).sqs = s.sqs := (rfl)
@[simp] theorem State.setBay_cqs (s : State) (k : Nat) (v : BaySt) : (s.setBay k v).cqs = s.cqs := (rfl)
@[simp] theorem State.setBay_ledger (s : State) (k : Nat) (v : BaySt) : (s.setBay k v).ledger = s.ledger := (rfl)
@[simp] theorem State.setBay_ldg (s : State) (k : Nat) (v : BaySt) : (s.setBay k v).ldg = s.ldg := (rfl)
@[simp] theorem State.setBay_recs (s : State) (k : Nat) (v : BaySt) : (s.setBay k v).recs = s.recs := (rfl)
@[simp] theorem State.setBay_recNext (s : State) (k : Nat) (v : BaySt) : (s.setBay k v).recNext = s.recNext := (rfl)
@[simp] theorem State.setBay_nss (s : State) (k : Nat) (v : BaySt) : (s.setBay k v).nss = s.nss := (rfl)
@[simp] theorem State.setBay_zones (s : State) (k : Nat) (v : BaySt) : (s.setBay k v).zones = s.zones := (rfl)
@[simp] theorem State.setBay_stage (s : State) (k : Nat) (v : BaySt) : (s.setBay k v).stage = s.stage := (rfl)
@[simp] theorem State.setBay_media (s : State) (k : Nat) (v : BaySt) : (s.setBay k v).media = s.media := (rfl)
@[simp] theorem State.setBay_acts (s : State) (k : Nat) (v : BaySt) : (s.setBay k v).acts = s.acts := (rfl)
@[simp] theorem State.setBay_doms (s : State) (k : Nat) (v : BaySt) : (s.setBay k v).doms = s.doms := (rfl)
@[simp] theorem State.setBay_pwr (s : State) (k : Nat) (v : BaySt) : (s.setBay k v).pwr = s.pwr := (rfl)
@[simp] theorem State.setBay_les (s : State) (k : Nat) (v : BaySt) : (s.setBay k v).les = s.les := (rfl)
@[simp] theorem State.setBay_trcs (s : State) (k : Nat) (v : BaySt) : (s.setBay k v).trcs = s.trcs := (rfl)
@[simp] theorem State.setBay_trcSel (s : State) (k : Nat) (v : BaySt) : (s.setBay k v).trcSel = s.trcSel := (rfl)
@[simp] theorem State.setBay_engines (s : State) (k : Nat) (v : BaySt) : (s.setBay k v).engines = s.engines := (rfl)
@[simp] theorem State.setBay_pool (s : State) (k : Nat) (v : BaySt) : (s.setBay k v).pool = s.pool := (rfl)
@[simp] theorem State.setBay_herds (s : State) (k : Nat) (v : BaySt) : (s.setBay k v).herds = s.herds := (rfl)
@[simp] theorem State.setBay_mem (s : State) (k : Nat) (v : BaySt) : (s.setBay k v).mem = s.mem := (rfl)
@[simp] theorem State.setBay_ram (s : State) (k : Nat) (v : BaySt) : (s.setBay k v).ram = s.ram := (rfl)
@[simp] theorem State.setBay_cache (s : State) (k : Nat) (v : BaySt) : (s.setBay k v).cache = s.cache := (rfl)
@[simp] theorem State.setBay_cal (s : State) (k : Nat) (v : BaySt) : (s.setBay k v).cal = s.cal := (rfl)
@[simp] theorem State.setBay_thm (s : State) (k : Nat) (v : BaySt) : (s.setBay k v).thm = s.thm := (rfl)
@[simp] theorem State.setBay_clk (s : State) (k : Nat) (v : BaySt) : (s.setBay k v).clk = s.clk := (rfl)
@[simp] theorem State.setBay_isls (s : State) (k : Nat) (v : BaySt) : (s.setBay k v).isls = s.isls := (rfl)
@[simp] theorem State.setBay_xings (s : State) (k : Nat) (v : BaySt) : (s.setBay k v).xings = s.xings := (rfl)
@[simp] theorem State.setBay_mbxs (s : State) (k : Nat) (v : BaySt) : (s.setBay k v).mbxs = s.mbxs := (rfl)
@[simp] theorem State.setBay_evt (s : State) (k : Nat) (v : BaySt) : (s.setBay k v).evt = s.evt := (rfl)
@[simp] theorem State.setBay_rings (s : State) (k : Nat) (v : BaySt) : (s.setBay k v).rings = s.rings := (rfl)
@[simp] theorem State.setBay_accs (s : State) (k : Nat) (v : BaySt) : (s.setBay k v).accs = s.accs := (rfl)
@[simp] theorem State.setBay_tally (s : State) (k : Nat) (v : BaySt) : (s.setBay k v).tally = s.tally := (rfl)
@[simp] theorem State.setBay_boot (s : State) (k : Nat) (v : BaySt) : (s.setBay k v).boot = s.boot := (rfl)
@[simp] theorem State.setBay_keys (s : State) (k : Nat) (v : BaySt) : (s.setBay k v).keys = s.keys := (rfl)
@[simp] theorem State.setBay_sans (s : State) (k : Nat) (v : BaySt) : (s.setBay k v).sans = s.sans := (rfl)
@[simp] theorem State.setBay_fmts (s : State) (k : Nat) (v : BaySt) : (s.setBay k v).fmts = s.fmts := (rfl)
@[simp] theorem State.setBay_opNext (s : State) (k : Nat) (v : BaySt) : (s.setBay k v).opNext = s.opNext := (rfl)
@[simp] theorem State.modBay_pending (s : State) (k : Nat) (g : BaySt → BaySt) : (s.modBay k g).pending = s.pending := (rfl)
@[simp] theorem State.modBay_now (s : State) (k : Nat) (g : BaySt → BaySt) : (s.modBay k g).now = s.now := (rfl)
@[simp] theorem State.modBay_fresh (s : State) (k : Nat) (g : BaySt → BaySt) : (s.modBay k g).fresh = s.fresh := (rfl)
@[simp] theorem State.modBay_out (s : State) (k : Nat) (g : BaySt → BaySt) : (s.modBay k g).out = s.out := (rfl)
@[simp] theorem State.modBay_cfg (s : State) (k : Nat) (g : BaySt → BaySt) : (s.modBay k g).cfg = s.cfg := (rfl)
@[simp] theorem State.modBay_glb (s : State) (k : Nat) (g : BaySt → BaySt) : (s.modBay k g).glb = s.glb := (rfl)
@[simp] theorem State.modBay_ports (s : State) (k : Nat) (g : BaySt → BaySt) : (s.modBay k g).ports = s.ports := (rfl)
@[simp] theorem State.modBay_fns (s : State) (k : Nat) (g : BaySt → BaySt) : (s.modBay k g).fns = s.fns := (rfl)
@[simp] theorem State.modBay_sqs (s : State) (k : Nat) (g : BaySt → BaySt) : (s.modBay k g).sqs = s.sqs := (rfl)
@[simp] theorem State.modBay_cqs (s : State) (k : Nat) (g : BaySt → BaySt) : (s.modBay k g).cqs = s.cqs := (rfl)
@[simp] theorem State.modBay_ledger (s : State) (k : Nat) (g : BaySt → BaySt) : (s.modBay k g).ledger = s.ledger := (rfl)
@[simp] theorem State.modBay_ldg (s : State) (k : Nat) (g : BaySt → BaySt) : (s.modBay k g).ldg = s.ldg := (rfl)
@[simp] theorem State.modBay_recs (s : State) (k : Nat) (g : BaySt → BaySt) : (s.modBay k g).recs = s.recs := (rfl)
@[simp] theorem State.modBay_recNext (s : State) (k : Nat) (g : BaySt → BaySt) : (s.modBay k g).recNext = s.recNext := (rfl)
@[simp] theorem State.modBay_nss (s : State) (k : Nat) (g : BaySt → BaySt) : (s.modBay k g).nss = s.nss := (rfl)
@[simp] theorem State.modBay_zones (s : State) (k : Nat) (g : BaySt → BaySt) : (s.modBay k g).zones = s.zones := (rfl)
@[simp] theorem State.modBay_stage (s : State) (k : Nat) (g : BaySt → BaySt) : (s.modBay k g).stage = s.stage := (rfl)
@[simp] theorem State.modBay_media (s : State) (k : Nat) (g : BaySt → BaySt) : (s.modBay k g).media = s.media := (rfl)
@[simp] theorem State.modBay_acts (s : State) (k : Nat) (g : BaySt → BaySt) : (s.modBay k g).acts = s.acts := (rfl)
@[simp] theorem State.modBay_doms (s : State) (k : Nat) (g : BaySt → BaySt) : (s.modBay k g).doms = s.doms := (rfl)
@[simp] theorem State.modBay_pwr (s : State) (k : Nat) (g : BaySt → BaySt) : (s.modBay k g).pwr = s.pwr := (rfl)
@[simp] theorem State.modBay_les (s : State) (k : Nat) (g : BaySt → BaySt) : (s.modBay k g).les = s.les := (rfl)
@[simp] theorem State.modBay_trcs (s : State) (k : Nat) (g : BaySt → BaySt) : (s.modBay k g).trcs = s.trcs := (rfl)
@[simp] theorem State.modBay_trcSel (s : State) (k : Nat) (g : BaySt → BaySt) : (s.modBay k g).trcSel = s.trcSel := (rfl)
@[simp] theorem State.modBay_engines (s : State) (k : Nat) (g : BaySt → BaySt) : (s.modBay k g).engines = s.engines := (rfl)
@[simp] theorem State.modBay_pool (s : State) (k : Nat) (g : BaySt → BaySt) : (s.modBay k g).pool = s.pool := (rfl)
@[simp] theorem State.modBay_herds (s : State) (k : Nat) (g : BaySt → BaySt) : (s.modBay k g).herds = s.herds := (rfl)
@[simp] theorem State.modBay_mem (s : State) (k : Nat) (g : BaySt → BaySt) : (s.modBay k g).mem = s.mem := (rfl)
@[simp] theorem State.modBay_ram (s : State) (k : Nat) (g : BaySt → BaySt) : (s.modBay k g).ram = s.ram := (rfl)
@[simp] theorem State.modBay_cache (s : State) (k : Nat) (g : BaySt → BaySt) : (s.modBay k g).cache = s.cache := (rfl)
@[simp] theorem State.modBay_cal (s : State) (k : Nat) (g : BaySt → BaySt) : (s.modBay k g).cal = s.cal := (rfl)
@[simp] theorem State.modBay_thm (s : State) (k : Nat) (g : BaySt → BaySt) : (s.modBay k g).thm = s.thm := (rfl)
@[simp] theorem State.modBay_clk (s : State) (k : Nat) (g : BaySt → BaySt) : (s.modBay k g).clk = s.clk := (rfl)
@[simp] theorem State.modBay_isls (s : State) (k : Nat) (g : BaySt → BaySt) : (s.modBay k g).isls = s.isls := (rfl)
@[simp] theorem State.modBay_xings (s : State) (k : Nat) (g : BaySt → BaySt) : (s.modBay k g).xings = s.xings := (rfl)
@[simp] theorem State.modBay_mbxs (s : State) (k : Nat) (g : BaySt → BaySt) : (s.modBay k g).mbxs = s.mbxs := (rfl)
@[simp] theorem State.modBay_evt (s : State) (k : Nat) (g : BaySt → BaySt) : (s.modBay k g).evt = s.evt := (rfl)
@[simp] theorem State.modBay_rings (s : State) (k : Nat) (g : BaySt → BaySt) : (s.modBay k g).rings = s.rings := (rfl)
@[simp] theorem State.modBay_accs (s : State) (k : Nat) (g : BaySt → BaySt) : (s.modBay k g).accs = s.accs := (rfl)
@[simp] theorem State.modBay_tally (s : State) (k : Nat) (g : BaySt → BaySt) : (s.modBay k g).tally = s.tally := (rfl)
@[simp] theorem State.modBay_boot (s : State) (k : Nat) (g : BaySt → BaySt) : (s.modBay k g).boot = s.boot := (rfl)
@[simp] theorem State.modBay_keys (s : State) (k : Nat) (g : BaySt → BaySt) : (s.modBay k g).keys = s.keys := (rfl)
@[simp] theorem State.modBay_sans (s : State) (k : Nat) (g : BaySt → BaySt) : (s.modBay k g).sans = s.sans := (rfl)
@[simp] theorem State.modBay_fmts (s : State) (k : Nat) (g : BaySt → BaySt) : (s.modBay k g).fmts = s.fmts := (rfl)
@[simp] theorem State.modBay_opNext (s : State) (k : Nat) (g : BaySt → BaySt) : (s.modBay k g).opNext = s.opNext := (rfl)
@[simp] theorem State.setDom_pending (s : State) (k : Nat) (v : Dom) : (s.setDom k v).pending = s.pending := (rfl)
@[simp] theorem State.setDom_now (s : State) (k : Nat) (v : Dom) : (s.setDom k v).now = s.now := (rfl)
@[simp] theorem State.setDom_fresh (s : State) (k : Nat) (v : Dom) : (s.setDom k v).fresh = s.fresh := (rfl)
@[simp] theorem State.setDom_out (s : State) (k : Nat) (v : Dom) : (s.setDom k v).out = s.out := (rfl)
@[simp] theorem State.setDom_cfg (s : State) (k : Nat) (v : Dom) : (s.setDom k v).cfg = s.cfg := (rfl)
@[simp] theorem State.setDom_glb (s : State) (k : Nat) (v : Dom) : (s.setDom k v).glb = s.glb := (rfl)
@[simp] theorem State.setDom_ports (s : State) (k : Nat) (v : Dom) : (s.setDom k v).ports = s.ports := (rfl)
@[simp] theorem State.setDom_fns (s : State) (k : Nat) (v : Dom) : (s.setDom k v).fns = s.fns := (rfl)
@[simp] theorem State.setDom_sqs (s : State) (k : Nat) (v : Dom) : (s.setDom k v).sqs = s.sqs := (rfl)
@[simp] theorem State.setDom_cqs (s : State) (k : Nat) (v : Dom) : (s.setDom k v).cqs = s.cqs := (rfl)
@[simp] theorem State.setDom_ledger (s : State) (k : Nat) (v : Dom) : (s.setDom k v).ledger = s.ledger := (rfl)
@[simp] theorem State.setDom_ldg (s : State) (k : Nat) (v : Dom) : (s.setDom k v).ldg = s.ldg := (rfl)
@[simp] theorem State.setDom_recs (s : State) (k : Nat) (v : Dom) : (s.setDom k v).recs = s.recs := (rfl)
@[simp] theorem State.setDom_recNext (s : State) (k : Nat) (v : Dom) : (s.setDom k v).recNext = s.recNext := (rfl)
@[simp] theorem State.setDom_nss (s : State) (k : Nat) (v : Dom) : (s.setDom k v).nss = s.nss := (rfl)
@[simp] theorem State.setDom_zones (s : State) (k : Nat) (v : Dom) : (s.setDom k v).zones = s.zones := (rfl)
@[simp] theorem State.setDom_stage (s : State) (k : Nat) (v : Dom) : (s.setDom k v).stage = s.stage := (rfl)
@[simp] theorem State.setDom_media (s : State) (k : Nat) (v : Dom) : (s.setDom k v).media = s.media := (rfl)
@[simp] theorem State.setDom_acts (s : State) (k : Nat) (v : Dom) : (s.setDom k v).acts = s.acts := (rfl)
@[simp] theorem State.setDom_bays (s : State) (k : Nat) (v : Dom) : (s.setDom k v).bays = s.bays := (rfl)
@[simp] theorem State.setDom_pwr (s : State) (k : Nat) (v : Dom) : (s.setDom k v).pwr = s.pwr := (rfl)
@[simp] theorem State.setDom_les (s : State) (k : Nat) (v : Dom) : (s.setDom k v).les = s.les := (rfl)
@[simp] theorem State.setDom_trcs (s : State) (k : Nat) (v : Dom) : (s.setDom k v).trcs = s.trcs := (rfl)
@[simp] theorem State.setDom_trcSel (s : State) (k : Nat) (v : Dom) : (s.setDom k v).trcSel = s.trcSel := (rfl)
@[simp] theorem State.setDom_engines (s : State) (k : Nat) (v : Dom) : (s.setDom k v).engines = s.engines := (rfl)
@[simp] theorem State.setDom_pool (s : State) (k : Nat) (v : Dom) : (s.setDom k v).pool = s.pool := (rfl)
@[simp] theorem State.setDom_herds (s : State) (k : Nat) (v : Dom) : (s.setDom k v).herds = s.herds := (rfl)
@[simp] theorem State.setDom_mem (s : State) (k : Nat) (v : Dom) : (s.setDom k v).mem = s.mem := (rfl)
@[simp] theorem State.setDom_ram (s : State) (k : Nat) (v : Dom) : (s.setDom k v).ram = s.ram := (rfl)
@[simp] theorem State.setDom_cache (s : State) (k : Nat) (v : Dom) : (s.setDom k v).cache = s.cache := (rfl)
@[simp] theorem State.setDom_cal (s : State) (k : Nat) (v : Dom) : (s.setDom k v).cal = s.cal := (rfl)
@[simp] theorem State.setDom_thm (s : State) (k : Nat) (v : Dom) : (s.setDom k v).thm = s.thm := (rfl)
@[simp] theorem State.setDom_clk (s : State) (k : Nat) (v : Dom) : (s.setDom k v).clk = s.clk := (rfl)
@[simp] theorem State.setDom_isls (s : State) (k : Nat) (v : Dom) : (s.setDom k v).isls = s.isls := (rfl)
@[simp] theorem State.setDom_xings (s : State) (k : Nat) (v : Dom) : (s.setDom k v).xings = s.xings := (rfl)
@[simp] theorem State.setDom_mbxs (s : State) (k : Nat) (v : Dom) : (s.setDom k v).mbxs = s.mbxs := (rfl)
@[simp] theorem State.setDom_evt (s : State) (k : Nat) (v : Dom) : (s.setDom k v).evt = s.evt := (rfl)
@[simp] theorem State.setDom_rings (s : State) (k : Nat) (v : Dom) : (s.setDom k v).rings = s.rings := (rfl)
@[simp] theorem State.setDom_accs (s : State) (k : Nat) (v : Dom) : (s.setDom k v).accs = s.accs := (rfl)
@[simp] theorem State.setDom_tally (s : State) (k : Nat) (v : Dom) : (s.setDom k v).tally = s.tally := (rfl)
@[simp] theorem State.setDom_boot (s : State) (k : Nat) (v : Dom) : (s.setDom k v).boot = s.boot := (rfl)
@[simp] theorem State.setDom_keys (s : State) (k : Nat) (v : Dom) : (s.setDom k v).keys = s.keys := (rfl)
@[simp] theorem State.setDom_sans (s : State) (k : Nat) (v : Dom) : (s.setDom k v).sans = s.sans := (rfl)
@[simp] theorem State.setDom_fmts (s : State) (k : Nat) (v : Dom) : (s.setDom k v).fmts = s.fmts := (rfl)
@[simp] theorem State.setDom_opNext (s : State) (k : Nat) (v : Dom) : (s.setDom k v).opNext = s.opNext := (rfl)
@[simp] theorem State.modDom_pending (s : State) (k : Nat) (g : Dom → Dom) : (s.modDom k g).pending = s.pending := (rfl)
@[simp] theorem State.modDom_now (s : State) (k : Nat) (g : Dom → Dom) : (s.modDom k g).now = s.now := (rfl)
@[simp] theorem State.modDom_fresh (s : State) (k : Nat) (g : Dom → Dom) : (s.modDom k g).fresh = s.fresh := (rfl)
@[simp] theorem State.modDom_out (s : State) (k : Nat) (g : Dom → Dom) : (s.modDom k g).out = s.out := (rfl)
@[simp] theorem State.modDom_cfg (s : State) (k : Nat) (g : Dom → Dom) : (s.modDom k g).cfg = s.cfg := (rfl)
@[simp] theorem State.modDom_glb (s : State) (k : Nat) (g : Dom → Dom) : (s.modDom k g).glb = s.glb := (rfl)
@[simp] theorem State.modDom_ports (s : State) (k : Nat) (g : Dom → Dom) : (s.modDom k g).ports = s.ports := (rfl)
@[simp] theorem State.modDom_fns (s : State) (k : Nat) (g : Dom → Dom) : (s.modDom k g).fns = s.fns := (rfl)
@[simp] theorem State.modDom_sqs (s : State) (k : Nat) (g : Dom → Dom) : (s.modDom k g).sqs = s.sqs := (rfl)
@[simp] theorem State.modDom_cqs (s : State) (k : Nat) (g : Dom → Dom) : (s.modDom k g).cqs = s.cqs := (rfl)
@[simp] theorem State.modDom_ledger (s : State) (k : Nat) (g : Dom → Dom) : (s.modDom k g).ledger = s.ledger := (rfl)
@[simp] theorem State.modDom_ldg (s : State) (k : Nat) (g : Dom → Dom) : (s.modDom k g).ldg = s.ldg := (rfl)
@[simp] theorem State.modDom_recs (s : State) (k : Nat) (g : Dom → Dom) : (s.modDom k g).recs = s.recs := (rfl)
@[simp] theorem State.modDom_recNext (s : State) (k : Nat) (g : Dom → Dom) : (s.modDom k g).recNext = s.recNext := (rfl)
@[simp] theorem State.modDom_nss (s : State) (k : Nat) (g : Dom → Dom) : (s.modDom k g).nss = s.nss := (rfl)
@[simp] theorem State.modDom_zones (s : State) (k : Nat) (g : Dom → Dom) : (s.modDom k g).zones = s.zones := (rfl)
@[simp] theorem State.modDom_stage (s : State) (k : Nat) (g : Dom → Dom) : (s.modDom k g).stage = s.stage := (rfl)
@[simp] theorem State.modDom_media (s : State) (k : Nat) (g : Dom → Dom) : (s.modDom k g).media = s.media := (rfl)
@[simp] theorem State.modDom_acts (s : State) (k : Nat) (g : Dom → Dom) : (s.modDom k g).acts = s.acts := (rfl)
@[simp] theorem State.modDom_bays (s : State) (k : Nat) (g : Dom → Dom) : (s.modDom k g).bays = s.bays := (rfl)
@[simp] theorem State.modDom_pwr (s : State) (k : Nat) (g : Dom → Dom) : (s.modDom k g).pwr = s.pwr := (rfl)
@[simp] theorem State.modDom_les (s : State) (k : Nat) (g : Dom → Dom) : (s.modDom k g).les = s.les := (rfl)
@[simp] theorem State.modDom_trcs (s : State) (k : Nat) (g : Dom → Dom) : (s.modDom k g).trcs = s.trcs := (rfl)
@[simp] theorem State.modDom_trcSel (s : State) (k : Nat) (g : Dom → Dom) : (s.modDom k g).trcSel = s.trcSel := (rfl)
@[simp] theorem State.modDom_engines (s : State) (k : Nat) (g : Dom → Dom) : (s.modDom k g).engines = s.engines := (rfl)
@[simp] theorem State.modDom_pool (s : State) (k : Nat) (g : Dom → Dom) : (s.modDom k g).pool = s.pool := (rfl)
@[simp] theorem State.modDom_herds (s : State) (k : Nat) (g : Dom → Dom) : (s.modDom k g).herds = s.herds := (rfl)
@[simp] theorem State.modDom_mem (s : State) (k : Nat) (g : Dom → Dom) : (s.modDom k g).mem = s.mem := (rfl)
@[simp] theorem State.modDom_ram (s : State) (k : Nat) (g : Dom → Dom) : (s.modDom k g).ram = s.ram := (rfl)
@[simp] theorem State.modDom_cache (s : State) (k : Nat) (g : Dom → Dom) : (s.modDom k g).cache = s.cache := (rfl)
@[simp] theorem State.modDom_cal (s : State) (k : Nat) (g : Dom → Dom) : (s.modDom k g).cal = s.cal := (rfl)
@[simp] theorem State.modDom_thm (s : State) (k : Nat) (g : Dom → Dom) : (s.modDom k g).thm = s.thm := (rfl)
@[simp] theorem State.modDom_clk (s : State) (k : Nat) (g : Dom → Dom) : (s.modDom k g).clk = s.clk := (rfl)
@[simp] theorem State.modDom_isls (s : State) (k : Nat) (g : Dom → Dom) : (s.modDom k g).isls = s.isls := (rfl)
@[simp] theorem State.modDom_xings (s : State) (k : Nat) (g : Dom → Dom) : (s.modDom k g).xings = s.xings := (rfl)
@[simp] theorem State.modDom_mbxs (s : State) (k : Nat) (g : Dom → Dom) : (s.modDom k g).mbxs = s.mbxs := (rfl)
@[simp] theorem State.modDom_evt (s : State) (k : Nat) (g : Dom → Dom) : (s.modDom k g).evt = s.evt := (rfl)
@[simp] theorem State.modDom_rings (s : State) (k : Nat) (g : Dom → Dom) : (s.modDom k g).rings = s.rings := (rfl)
@[simp] theorem State.modDom_accs (s : State) (k : Nat) (g : Dom → Dom) : (s.modDom k g).accs = s.accs := (rfl)
@[simp] theorem State.modDom_tally (s : State) (k : Nat) (g : Dom → Dom) : (s.modDom k g).tally = s.tally := (rfl)
@[simp] theorem State.modDom_boot (s : State) (k : Nat) (g : Dom → Dom) : (s.modDom k g).boot = s.boot := (rfl)
@[simp] theorem State.modDom_keys (s : State) (k : Nat) (g : Dom → Dom) : (s.modDom k g).keys = s.keys := (rfl)
@[simp] theorem State.modDom_sans (s : State) (k : Nat) (g : Dom → Dom) : (s.modDom k g).sans = s.sans := (rfl)
@[simp] theorem State.modDom_fmts (s : State) (k : Nat) (g : Dom → Dom) : (s.modDom k g).fmts = s.fmts := (rfl)
@[simp] theorem State.modDom_opNext (s : State) (k : Nat) (g : Dom → Dom) : (s.modDom k g).opNext = s.opNext := (rfl)
@[simp] theorem State.setLe_pending (s : State) (k : Nat) (v : LoopEng) : (s.setLe k v).pending = s.pending := (rfl)
@[simp] theorem State.setLe_now (s : State) (k : Nat) (v : LoopEng) : (s.setLe k v).now = s.now := (rfl)
@[simp] theorem State.setLe_fresh (s : State) (k : Nat) (v : LoopEng) : (s.setLe k v).fresh = s.fresh := (rfl)
@[simp] theorem State.setLe_out (s : State) (k : Nat) (v : LoopEng) : (s.setLe k v).out = s.out := (rfl)
@[simp] theorem State.setLe_cfg (s : State) (k : Nat) (v : LoopEng) : (s.setLe k v).cfg = s.cfg := (rfl)
@[simp] theorem State.setLe_glb (s : State) (k : Nat) (v : LoopEng) : (s.setLe k v).glb = s.glb := (rfl)
@[simp] theorem State.setLe_ports (s : State) (k : Nat) (v : LoopEng) : (s.setLe k v).ports = s.ports := (rfl)
@[simp] theorem State.setLe_fns (s : State) (k : Nat) (v : LoopEng) : (s.setLe k v).fns = s.fns := (rfl)
@[simp] theorem State.setLe_sqs (s : State) (k : Nat) (v : LoopEng) : (s.setLe k v).sqs = s.sqs := (rfl)
@[simp] theorem State.setLe_cqs (s : State) (k : Nat) (v : LoopEng) : (s.setLe k v).cqs = s.cqs := (rfl)
@[simp] theorem State.setLe_ledger (s : State) (k : Nat) (v : LoopEng) : (s.setLe k v).ledger = s.ledger := (rfl)
@[simp] theorem State.setLe_ldg (s : State) (k : Nat) (v : LoopEng) : (s.setLe k v).ldg = s.ldg := (rfl)
@[simp] theorem State.setLe_recs (s : State) (k : Nat) (v : LoopEng) : (s.setLe k v).recs = s.recs := (rfl)
@[simp] theorem State.setLe_recNext (s : State) (k : Nat) (v : LoopEng) : (s.setLe k v).recNext = s.recNext := (rfl)
@[simp] theorem State.setLe_nss (s : State) (k : Nat) (v : LoopEng) : (s.setLe k v).nss = s.nss := (rfl)
@[simp] theorem State.setLe_zones (s : State) (k : Nat) (v : LoopEng) : (s.setLe k v).zones = s.zones := (rfl)
@[simp] theorem State.setLe_stage (s : State) (k : Nat) (v : LoopEng) : (s.setLe k v).stage = s.stage := (rfl)
@[simp] theorem State.setLe_media (s : State) (k : Nat) (v : LoopEng) : (s.setLe k v).media = s.media := (rfl)
@[simp] theorem State.setLe_acts (s : State) (k : Nat) (v : LoopEng) : (s.setLe k v).acts = s.acts := (rfl)
@[simp] theorem State.setLe_bays (s : State) (k : Nat) (v : LoopEng) : (s.setLe k v).bays = s.bays := (rfl)
@[simp] theorem State.setLe_doms (s : State) (k : Nat) (v : LoopEng) : (s.setLe k v).doms = s.doms := (rfl)
@[simp] theorem State.setLe_pwr (s : State) (k : Nat) (v : LoopEng) : (s.setLe k v).pwr = s.pwr := (rfl)
@[simp] theorem State.setLe_trcs (s : State) (k : Nat) (v : LoopEng) : (s.setLe k v).trcs = s.trcs := (rfl)
@[simp] theorem State.setLe_trcSel (s : State) (k : Nat) (v : LoopEng) : (s.setLe k v).trcSel = s.trcSel := (rfl)
@[simp] theorem State.setLe_engines (s : State) (k : Nat) (v : LoopEng) : (s.setLe k v).engines = s.engines := (rfl)
@[simp] theorem State.setLe_pool (s : State) (k : Nat) (v : LoopEng) : (s.setLe k v).pool = s.pool := (rfl)
@[simp] theorem State.setLe_herds (s : State) (k : Nat) (v : LoopEng) : (s.setLe k v).herds = s.herds := (rfl)
@[simp] theorem State.setLe_mem (s : State) (k : Nat) (v : LoopEng) : (s.setLe k v).mem = s.mem := (rfl)
@[simp] theorem State.setLe_ram (s : State) (k : Nat) (v : LoopEng) : (s.setLe k v).ram = s.ram := (rfl)
@[simp] theorem State.setLe_cache (s : State) (k : Nat) (v : LoopEng) : (s.setLe k v).cache = s.cache := (rfl)
@[simp] theorem State.setLe_cal (s : State) (k : Nat) (v : LoopEng) : (s.setLe k v).cal = s.cal := (rfl)
@[simp] theorem State.setLe_thm (s : State) (k : Nat) (v : LoopEng) : (s.setLe k v).thm = s.thm := (rfl)
@[simp] theorem State.setLe_clk (s : State) (k : Nat) (v : LoopEng) : (s.setLe k v).clk = s.clk := (rfl)
@[simp] theorem State.setLe_isls (s : State) (k : Nat) (v : LoopEng) : (s.setLe k v).isls = s.isls := (rfl)
@[simp] theorem State.setLe_xings (s : State) (k : Nat) (v : LoopEng) : (s.setLe k v).xings = s.xings := (rfl)
@[simp] theorem State.setLe_mbxs (s : State) (k : Nat) (v : LoopEng) : (s.setLe k v).mbxs = s.mbxs := (rfl)
@[simp] theorem State.setLe_evt (s : State) (k : Nat) (v : LoopEng) : (s.setLe k v).evt = s.evt := (rfl)
@[simp] theorem State.setLe_rings (s : State) (k : Nat) (v : LoopEng) : (s.setLe k v).rings = s.rings := (rfl)
@[simp] theorem State.setLe_accs (s : State) (k : Nat) (v : LoopEng) : (s.setLe k v).accs = s.accs := (rfl)
@[simp] theorem State.setLe_tally (s : State) (k : Nat) (v : LoopEng) : (s.setLe k v).tally = s.tally := (rfl)
@[simp] theorem State.setLe_boot (s : State) (k : Nat) (v : LoopEng) : (s.setLe k v).boot = s.boot := (rfl)
@[simp] theorem State.setLe_keys (s : State) (k : Nat) (v : LoopEng) : (s.setLe k v).keys = s.keys := (rfl)
@[simp] theorem State.setLe_sans (s : State) (k : Nat) (v : LoopEng) : (s.setLe k v).sans = s.sans := (rfl)
@[simp] theorem State.setLe_fmts (s : State) (k : Nat) (v : LoopEng) : (s.setLe k v).fmts = s.fmts := (rfl)
@[simp] theorem State.setLe_opNext (s : State) (k : Nat) (v : LoopEng) : (s.setLe k v).opNext = s.opNext := (rfl)
@[simp] theorem State.modLe_pending (s : State) (k : Nat) (g : LoopEng → LoopEng) : (s.modLe k g).pending = s.pending := (rfl)
@[simp] theorem State.modLe_now (s : State) (k : Nat) (g : LoopEng → LoopEng) : (s.modLe k g).now = s.now := (rfl)
@[simp] theorem State.modLe_fresh (s : State) (k : Nat) (g : LoopEng → LoopEng) : (s.modLe k g).fresh = s.fresh := (rfl)
@[simp] theorem State.modLe_out (s : State) (k : Nat) (g : LoopEng → LoopEng) : (s.modLe k g).out = s.out := (rfl)
@[simp] theorem State.modLe_cfg (s : State) (k : Nat) (g : LoopEng → LoopEng) : (s.modLe k g).cfg = s.cfg := (rfl)
@[simp] theorem State.modLe_glb (s : State) (k : Nat) (g : LoopEng → LoopEng) : (s.modLe k g).glb = s.glb := (rfl)
@[simp] theorem State.modLe_ports (s : State) (k : Nat) (g : LoopEng → LoopEng) : (s.modLe k g).ports = s.ports := (rfl)
@[simp] theorem State.modLe_fns (s : State) (k : Nat) (g : LoopEng → LoopEng) : (s.modLe k g).fns = s.fns := (rfl)
@[simp] theorem State.modLe_sqs (s : State) (k : Nat) (g : LoopEng → LoopEng) : (s.modLe k g).sqs = s.sqs := (rfl)
@[simp] theorem State.modLe_cqs (s : State) (k : Nat) (g : LoopEng → LoopEng) : (s.modLe k g).cqs = s.cqs := (rfl)
@[simp] theorem State.modLe_ledger (s : State) (k : Nat) (g : LoopEng → LoopEng) : (s.modLe k g).ledger = s.ledger := (rfl)
@[simp] theorem State.modLe_ldg (s : State) (k : Nat) (g : LoopEng → LoopEng) : (s.modLe k g).ldg = s.ldg := (rfl)
@[simp] theorem State.modLe_recs (s : State) (k : Nat) (g : LoopEng → LoopEng) : (s.modLe k g).recs = s.recs := (rfl)
@[simp] theorem State.modLe_recNext (s : State) (k : Nat) (g : LoopEng → LoopEng) : (s.modLe k g).recNext = s.recNext := (rfl)
@[simp] theorem State.modLe_nss (s : State) (k : Nat) (g : LoopEng → LoopEng) : (s.modLe k g).nss = s.nss := (rfl)
@[simp] theorem State.modLe_zones (s : State) (k : Nat) (g : LoopEng → LoopEng) : (s.modLe k g).zones = s.zones := (rfl)
@[simp] theorem State.modLe_stage (s : State) (k : Nat) (g : LoopEng → LoopEng) : (s.modLe k g).stage = s.stage := (rfl)
@[simp] theorem State.modLe_media (s : State) (k : Nat) (g : LoopEng → LoopEng) : (s.modLe k g).media = s.media := (rfl)
@[simp] theorem State.modLe_acts (s : State) (k : Nat) (g : LoopEng → LoopEng) : (s.modLe k g).acts = s.acts := (rfl)
@[simp] theorem State.modLe_bays (s : State) (k : Nat) (g : LoopEng → LoopEng) : (s.modLe k g).bays = s.bays := (rfl)
@[simp] theorem State.modLe_doms (s : State) (k : Nat) (g : LoopEng → LoopEng) : (s.modLe k g).doms = s.doms := (rfl)
@[simp] theorem State.modLe_pwr (s : State) (k : Nat) (g : LoopEng → LoopEng) : (s.modLe k g).pwr = s.pwr := (rfl)
@[simp] theorem State.modLe_trcs (s : State) (k : Nat) (g : LoopEng → LoopEng) : (s.modLe k g).trcs = s.trcs := (rfl)
@[simp] theorem State.modLe_trcSel (s : State) (k : Nat) (g : LoopEng → LoopEng) : (s.modLe k g).trcSel = s.trcSel := (rfl)
@[simp] theorem State.modLe_engines (s : State) (k : Nat) (g : LoopEng → LoopEng) : (s.modLe k g).engines = s.engines := (rfl)
@[simp] theorem State.modLe_pool (s : State) (k : Nat) (g : LoopEng → LoopEng) : (s.modLe k g).pool = s.pool := (rfl)
@[simp] theorem State.modLe_herds (s : State) (k : Nat) (g : LoopEng → LoopEng) : (s.modLe k g).herds = s.herds := (rfl)
@[simp] theorem State.modLe_mem (s : State) (k : Nat) (g : LoopEng → LoopEng) : (s.modLe k g).mem = s.mem := (rfl)
@[simp] theorem State.modLe_ram (s : State) (k : Nat) (g : LoopEng → LoopEng) : (s.modLe k g).ram = s.ram := (rfl)
@[simp] theorem State.modLe_cache (s : State) (k : Nat) (g : LoopEng → LoopEng) : (s.modLe k g).cache = s.cache := (rfl)
@[simp] theorem State.modLe_cal (s : State) (k : Nat) (g : LoopEng → LoopEng) : (s.modLe k g).cal = s.cal := (rfl)
@[simp] theorem State.modLe_thm (s : State) (k : Nat) (g : LoopEng → LoopEng) : (s.modLe k g).thm = s.thm := (rfl)
@[simp] theorem State.modLe_clk (s : State) (k : Nat) (g : LoopEng → LoopEng) : (s.modLe k g).clk = s.clk := (rfl)
@[simp] theorem State.modLe_isls (s : State) (k : Nat) (g : LoopEng → LoopEng) : (s.modLe k g).isls = s.isls := (rfl)
@[simp] theorem State.modLe_xings (s : State) (k : Nat) (g : LoopEng → LoopEng) : (s.modLe k g).xings = s.xings := (rfl)
@[simp] theorem State.modLe_mbxs (s : State) (k : Nat) (g : LoopEng → LoopEng) : (s.modLe k g).mbxs = s.mbxs := (rfl)
@[simp] theorem State.modLe_evt (s : State) (k : Nat) (g : LoopEng → LoopEng) : (s.modLe k g).evt = s.evt := (rfl)
@[simp] theorem State.modLe_rings (s : State) (k : Nat) (g : LoopEng → LoopEng) : (s.modLe k g).rings = s.rings := (rfl)
@[simp] theorem State.modLe_accs (s : State) (k : Nat) (g : LoopEng → LoopEng) : (s.modLe k g).accs = s.accs := (rfl)
@[simp] theorem State.modLe_tally (s : State) (k : Nat) (g : LoopEng → LoopEng) : (s.modLe k g).tally = s.tally := (rfl)
@[simp] theorem State.modLe_boot (s : State) (k : Nat) (g : LoopEng → LoopEng) : (s.modLe k g).boot = s.boot := (rfl)
@[simp] theorem State.modLe_keys (s : State) (k : Nat) (g : LoopEng → LoopEng) : (s.modLe k g).keys = s.keys := (rfl)
@[simp] theorem State.modLe_sans (s : State) (k : Nat) (g : LoopEng → LoopEng) : (s.modLe k g).sans = s.sans := (rfl)
@[simp] theorem State.modLe_fmts (s : State) (k : Nat) (g : LoopEng → LoopEng) : (s.modLe k g).fmts = s.fmts := (rfl)
@[simp] theorem State.modLe_opNext (s : State) (k : Nat) (g : LoopEng → LoopEng) : (s.modLe k g).opNext = s.opNext := (rfl)
@[simp] theorem State.setTrc_pending (s : State) (k : Nat) (v : Trc) : (s.setTrc k v).pending = s.pending := (rfl)
@[simp] theorem State.setTrc_now (s : State) (k : Nat) (v : Trc) : (s.setTrc k v).now = s.now := (rfl)
@[simp] theorem State.setTrc_fresh (s : State) (k : Nat) (v : Trc) : (s.setTrc k v).fresh = s.fresh := (rfl)
@[simp] theorem State.setTrc_out (s : State) (k : Nat) (v : Trc) : (s.setTrc k v).out = s.out := (rfl)
@[simp] theorem State.setTrc_cfg (s : State) (k : Nat) (v : Trc) : (s.setTrc k v).cfg = s.cfg := (rfl)
@[simp] theorem State.setTrc_glb (s : State) (k : Nat) (v : Trc) : (s.setTrc k v).glb = s.glb := (rfl)
@[simp] theorem State.setTrc_ports (s : State) (k : Nat) (v : Trc) : (s.setTrc k v).ports = s.ports := (rfl)
@[simp] theorem State.setTrc_fns (s : State) (k : Nat) (v : Trc) : (s.setTrc k v).fns = s.fns := (rfl)
@[simp] theorem State.setTrc_sqs (s : State) (k : Nat) (v : Trc) : (s.setTrc k v).sqs = s.sqs := (rfl)
@[simp] theorem State.setTrc_cqs (s : State) (k : Nat) (v : Trc) : (s.setTrc k v).cqs = s.cqs := (rfl)
@[simp] theorem State.setTrc_ledger (s : State) (k : Nat) (v : Trc) : (s.setTrc k v).ledger = s.ledger := (rfl)
@[simp] theorem State.setTrc_ldg (s : State) (k : Nat) (v : Trc) : (s.setTrc k v).ldg = s.ldg := (rfl)
@[simp] theorem State.setTrc_recs (s : State) (k : Nat) (v : Trc) : (s.setTrc k v).recs = s.recs := (rfl)
@[simp] theorem State.setTrc_recNext (s : State) (k : Nat) (v : Trc) : (s.setTrc k v).recNext = s.recNext := (rfl)
@[simp] theorem State.setTrc_nss (s : State) (k : Nat) (v : Trc) : (s.setTrc k v).nss = s.nss := (rfl)
@[simp] theorem State.setTrc_zones (s : State) (k : Nat) (v : Trc) : (s.setTrc k v).zones = s.zones := (rfl)
@[simp] theorem State.setTrc_stage (s : State) (k : Nat) (v : Trc) : (s.setTrc k v).stage = s.stage := (rfl)
@[simp] theorem State.setTrc_media (s : State) (k : Nat) (v : Trc) : (s.setTrc k v).media = s.media := (rfl)
@[simp] theorem State.setTrc_acts (s : State) (k : Nat) (v : Trc) : (s.setTrc k v).acts = s.acts := (rfl)
@[simp] theorem State.setTrc_bays (s : State) (k : Nat) (v : Trc) : (s.setTrc k v).bays = s.bays := (rfl)
@[simp] theorem State.setTrc_doms (s : State) (k : Nat) (v : Trc) : (s.setTrc k v).doms = s.doms := (rfl)
@[simp] theorem State.setTrc_pwr (s : State) (k : Nat) (v : Trc) : (s.setTrc k v).pwr = s.pwr := (rfl)
@[simp] theorem State.setTrc_les (s : State) (k : Nat) (v : Trc) : (s.setTrc k v).les = s.les := (rfl)
@[simp] theorem State.setTrc_trcSel (s : State) (k : Nat) (v : Trc) : (s.setTrc k v).trcSel = s.trcSel := (rfl)
@[simp] theorem State.setTrc_engines (s : State) (k : Nat) (v : Trc) : (s.setTrc k v).engines = s.engines := (rfl)
@[simp] theorem State.setTrc_pool (s : State) (k : Nat) (v : Trc) : (s.setTrc k v).pool = s.pool := (rfl)
@[simp] theorem State.setTrc_herds (s : State) (k : Nat) (v : Trc) : (s.setTrc k v).herds = s.herds := (rfl)
@[simp] theorem State.setTrc_mem (s : State) (k : Nat) (v : Trc) : (s.setTrc k v).mem = s.mem := (rfl)
@[simp] theorem State.setTrc_ram (s : State) (k : Nat) (v : Trc) : (s.setTrc k v).ram = s.ram := (rfl)
@[simp] theorem State.setTrc_cache (s : State) (k : Nat) (v : Trc) : (s.setTrc k v).cache = s.cache := (rfl)
@[simp] theorem State.setTrc_cal (s : State) (k : Nat) (v : Trc) : (s.setTrc k v).cal = s.cal := (rfl)
@[simp] theorem State.setTrc_thm (s : State) (k : Nat) (v : Trc) : (s.setTrc k v).thm = s.thm := (rfl)
@[simp] theorem State.setTrc_clk (s : State) (k : Nat) (v : Trc) : (s.setTrc k v).clk = s.clk := (rfl)
@[simp] theorem State.setTrc_isls (s : State) (k : Nat) (v : Trc) : (s.setTrc k v).isls = s.isls := (rfl)
@[simp] theorem State.setTrc_xings (s : State) (k : Nat) (v : Trc) : (s.setTrc k v).xings = s.xings := (rfl)
@[simp] theorem State.setTrc_mbxs (s : State) (k : Nat) (v : Trc) : (s.setTrc k v).mbxs = s.mbxs := (rfl)
@[simp] theorem State.setTrc_evt (s : State) (k : Nat) (v : Trc) : (s.setTrc k v).evt = s.evt := (rfl)
@[simp] theorem State.setTrc_rings (s : State) (k : Nat) (v : Trc) : (s.setTrc k v).rings = s.rings := (rfl)
@[simp] theorem State.setTrc_accs (s : State) (k : Nat) (v : Trc) : (s.setTrc k v).accs = s.accs := (rfl)
@[simp] theorem State.setTrc_tally (s : State) (k : Nat) (v : Trc) : (s.setTrc k v).tally = s.tally := (rfl)
@[simp] theorem State.setTrc_boot (s : State) (k : Nat) (v : Trc) : (s.setTrc k v).boot = s.boot := (rfl)
@[simp] theorem State.setTrc_keys (s : State) (k : Nat) (v : Trc) : (s.setTrc k v).keys = s.keys := (rfl)
@[simp] theorem State.setTrc_sans (s : State) (k : Nat) (v : Trc) : (s.setTrc k v).sans = s.sans := (rfl)
@[simp] theorem State.setTrc_fmts (s : State) (k : Nat) (v : Trc) : (s.setTrc k v).fmts = s.fmts := (rfl)
@[simp] theorem State.setTrc_opNext (s : State) (k : Nat) (v : Trc) : (s.setTrc k v).opNext = s.opNext := (rfl)
@[simp] theorem State.modTrc_pending (s : State) (k : Nat) (g : Trc → Trc) : (s.modTrc k g).pending = s.pending := (rfl)
@[simp] theorem State.modTrc_now (s : State) (k : Nat) (g : Trc → Trc) : (s.modTrc k g).now = s.now := (rfl)
@[simp] theorem State.modTrc_fresh (s : State) (k : Nat) (g : Trc → Trc) : (s.modTrc k g).fresh = s.fresh := (rfl)
@[simp] theorem State.modTrc_out (s : State) (k : Nat) (g : Trc → Trc) : (s.modTrc k g).out = s.out := (rfl)
@[simp] theorem State.modTrc_cfg (s : State) (k : Nat) (g : Trc → Trc) : (s.modTrc k g).cfg = s.cfg := (rfl)
@[simp] theorem State.modTrc_glb (s : State) (k : Nat) (g : Trc → Trc) : (s.modTrc k g).glb = s.glb := (rfl)
@[simp] theorem State.modTrc_ports (s : State) (k : Nat) (g : Trc → Trc) : (s.modTrc k g).ports = s.ports := (rfl)
@[simp] theorem State.modTrc_fns (s : State) (k : Nat) (g : Trc → Trc) : (s.modTrc k g).fns = s.fns := (rfl)
@[simp] theorem State.modTrc_sqs (s : State) (k : Nat) (g : Trc → Trc) : (s.modTrc k g).sqs = s.sqs := (rfl)
@[simp] theorem State.modTrc_cqs (s : State) (k : Nat) (g : Trc → Trc) : (s.modTrc k g).cqs = s.cqs := (rfl)
@[simp] theorem State.modTrc_ledger (s : State) (k : Nat) (g : Trc → Trc) : (s.modTrc k g).ledger = s.ledger := (rfl)
@[simp] theorem State.modTrc_ldg (s : State) (k : Nat) (g : Trc → Trc) : (s.modTrc k g).ldg = s.ldg := (rfl)
@[simp] theorem State.modTrc_recs (s : State) (k : Nat) (g : Trc → Trc) : (s.modTrc k g).recs = s.recs := (rfl)
@[simp] theorem State.modTrc_recNext (s : State) (k : Nat) (g : Trc → Trc) : (s.modTrc k g).recNext = s.recNext := (rfl)
@[simp] theorem State.modTrc_nss (s : State) (k : Nat) (g : Trc → Trc) : (s.modTrc k g).nss = s.nss := (rfl)
@[simp] theorem State.modTrc_zones (s : State) (k : Nat) (g : Trc → Trc) : (s.modTrc k g).zones = s.zones := (rfl)
@[simp] theorem State.modTrc_stage (s : State) (k : Nat) (g : Trc → Trc) : (s.modTrc k g).stage = s.stage := (rfl)
@[simp] theorem State.modTrc_media (s : State) (k : Nat) (g : Trc → Trc) : (s.modTrc k g).media = s.media := (rfl)
@[simp] theorem State.modTrc_acts (s : State) (k : Nat) (g : Trc → Trc) : (s.modTrc k g).acts = s.acts := (rfl)
@[simp] theorem State.modTrc_bays (s : State) (k : Nat) (g : Trc → Trc) : (s.modTrc k g).bays = s.bays := (rfl)
@[simp] theorem State.modTrc_doms (s : State) (k : Nat) (g : Trc → Trc) : (s.modTrc k g).doms = s.doms := (rfl)
@[simp] theorem State.modTrc_pwr (s : State) (k : Nat) (g : Trc → Trc) : (s.modTrc k g).pwr = s.pwr := (rfl)
@[simp] theorem State.modTrc_les (s : State) (k : Nat) (g : Trc → Trc) : (s.modTrc k g).les = s.les := (rfl)
@[simp] theorem State.modTrc_trcSel (s : State) (k : Nat) (g : Trc → Trc) : (s.modTrc k g).trcSel = s.trcSel := (rfl)
@[simp] theorem State.modTrc_engines (s : State) (k : Nat) (g : Trc → Trc) : (s.modTrc k g).engines = s.engines := (rfl)
@[simp] theorem State.modTrc_pool (s : State) (k : Nat) (g : Trc → Trc) : (s.modTrc k g).pool = s.pool := (rfl)
@[simp] theorem State.modTrc_herds (s : State) (k : Nat) (g : Trc → Trc) : (s.modTrc k g).herds = s.herds := (rfl)
@[simp] theorem State.modTrc_mem (s : State) (k : Nat) (g : Trc → Trc) : (s.modTrc k g).mem = s.mem := (rfl)
@[simp] theorem State.modTrc_ram (s : State) (k : Nat) (g : Trc → Trc) : (s.modTrc k g).ram = s.ram := (rfl)
@[simp] theorem State.modTrc_cache (s : State) (k : Nat) (g : Trc → Trc) : (s.modTrc k g).cache = s.cache := (rfl)
@[simp] theorem State.modTrc_cal (s : State) (k : Nat) (g : Trc → Trc) : (s.modTrc k g).cal = s.cal := (rfl)
@[simp] theorem State.modTrc_thm (s : State) (k : Nat) (g : Trc → Trc) : (s.modTrc k g).thm = s.thm := (rfl)
@[simp] theorem State.modTrc_clk (s : State) (k : Nat) (g : Trc → Trc) : (s.modTrc k g).clk = s.clk := (rfl)
@[simp] theorem State.modTrc_isls (s : State) (k : Nat) (g : Trc → Trc) : (s.modTrc k g).isls = s.isls := (rfl)
@[simp] theorem State.modTrc_xings (s : State) (k : Nat) (g : Trc → Trc) : (s.modTrc k g).xings = s.xings := (rfl)
@[simp] theorem State.modTrc_mbxs (s : State) (k : Nat) (g : Trc → Trc) : (s.modTrc k g).mbxs = s.mbxs := (rfl)
@[simp] theorem State.modTrc_evt (s : State) (k : Nat) (g : Trc → Trc) : (s.modTrc k g).evt = s.evt := (rfl)
@[simp] theorem State.modTrc_rings (s : State) (k : Nat) (g : Trc → Trc) : (s.modTrc k g).rings = s.rings := (rfl)
@[simp] theorem State.modTrc_accs (s : State) (k : Nat) (g : Trc → Trc) : (s.modTrc k g).accs = s.accs := (rfl)
@[simp] theorem State.modTrc_tally (s : State) (k : Nat) (g : Trc → Trc) : (s.modTrc k g).tally = s.tally := (rfl)
@[simp] theorem State.modTrc_boot (s : State) (k : Nat) (g : Trc → Trc) : (s.modTrc k g).boot = s.boot := (rfl)
@[simp] theorem State.modTrc_keys (s : State) (k : Nat) (g : Trc → Trc) : (s.modTrc k g).keys = s.keys := (rfl)
@[simp] theorem State.modTrc_sans (s : State) (k : Nat) (g : Trc → Trc) : (s.modTrc k g).sans = s.sans := (rfl)
@[simp] theorem State.modTrc_fmts (s : State) (k : Nat) (g : Trc → Trc) : (s.modTrc k g).fmts = s.fmts := (rfl)
@[simp] theorem State.modTrc_opNext (s : State) (k : Nat) (g : Trc → Trc) : (s.modTrc k g).opNext = s.opNext := (rfl)
@[simp] theorem State.setEng_pending (s : State) (k : Nat) (v : Engine) : (s.setEng k v).pending = s.pending := (rfl)
@[simp] theorem State.setEng_now (s : State) (k : Nat) (v : Engine) : (s.setEng k v).now = s.now := (rfl)
@[simp] theorem State.setEng_fresh (s : State) (k : Nat) (v : Engine) : (s.setEng k v).fresh = s.fresh := (rfl)
@[simp] theorem State.setEng_out (s : State) (k : Nat) (v : Engine) : (s.setEng k v).out = s.out := (rfl)
@[simp] theorem State.setEng_cfg (s : State) (k : Nat) (v : Engine) : (s.setEng k v).cfg = s.cfg := (rfl)
@[simp] theorem State.setEng_glb (s : State) (k : Nat) (v : Engine) : (s.setEng k v).glb = s.glb := (rfl)
@[simp] theorem State.setEng_ports (s : State) (k : Nat) (v : Engine) : (s.setEng k v).ports = s.ports := (rfl)
@[simp] theorem State.setEng_fns (s : State) (k : Nat) (v : Engine) : (s.setEng k v).fns = s.fns := (rfl)
@[simp] theorem State.setEng_sqs (s : State) (k : Nat) (v : Engine) : (s.setEng k v).sqs = s.sqs := (rfl)
@[simp] theorem State.setEng_cqs (s : State) (k : Nat) (v : Engine) : (s.setEng k v).cqs = s.cqs := (rfl)
@[simp] theorem State.setEng_ledger (s : State) (k : Nat) (v : Engine) : (s.setEng k v).ledger = s.ledger := (rfl)
@[simp] theorem State.setEng_ldg (s : State) (k : Nat) (v : Engine) : (s.setEng k v).ldg = s.ldg := (rfl)
@[simp] theorem State.setEng_recs (s : State) (k : Nat) (v : Engine) : (s.setEng k v).recs = s.recs := (rfl)
@[simp] theorem State.setEng_recNext (s : State) (k : Nat) (v : Engine) : (s.setEng k v).recNext = s.recNext := (rfl)
@[simp] theorem State.setEng_nss (s : State) (k : Nat) (v : Engine) : (s.setEng k v).nss = s.nss := (rfl)
@[simp] theorem State.setEng_zones (s : State) (k : Nat) (v : Engine) : (s.setEng k v).zones = s.zones := (rfl)
@[simp] theorem State.setEng_stage (s : State) (k : Nat) (v : Engine) : (s.setEng k v).stage = s.stage := (rfl)
@[simp] theorem State.setEng_media (s : State) (k : Nat) (v : Engine) : (s.setEng k v).media = s.media := (rfl)
@[simp] theorem State.setEng_acts (s : State) (k : Nat) (v : Engine) : (s.setEng k v).acts = s.acts := (rfl)
@[simp] theorem State.setEng_bays (s : State) (k : Nat) (v : Engine) : (s.setEng k v).bays = s.bays := (rfl)
@[simp] theorem State.setEng_doms (s : State) (k : Nat) (v : Engine) : (s.setEng k v).doms = s.doms := (rfl)
@[simp] theorem State.setEng_pwr (s : State) (k : Nat) (v : Engine) : (s.setEng k v).pwr = s.pwr := (rfl)
@[simp] theorem State.setEng_les (s : State) (k : Nat) (v : Engine) : (s.setEng k v).les = s.les := (rfl)
@[simp] theorem State.setEng_trcs (s : State) (k : Nat) (v : Engine) : (s.setEng k v).trcs = s.trcs := (rfl)
@[simp] theorem State.setEng_trcSel (s : State) (k : Nat) (v : Engine) : (s.setEng k v).trcSel = s.trcSel := (rfl)
@[simp] theorem State.setEng_pool (s : State) (k : Nat) (v : Engine) : (s.setEng k v).pool = s.pool := (rfl)
@[simp] theorem State.setEng_herds (s : State) (k : Nat) (v : Engine) : (s.setEng k v).herds = s.herds := (rfl)
@[simp] theorem State.setEng_mem (s : State) (k : Nat) (v : Engine) : (s.setEng k v).mem = s.mem := (rfl)
@[simp] theorem State.setEng_ram (s : State) (k : Nat) (v : Engine) : (s.setEng k v).ram = s.ram := (rfl)
@[simp] theorem State.setEng_cache (s : State) (k : Nat) (v : Engine) : (s.setEng k v).cache = s.cache := (rfl)
@[simp] theorem State.setEng_cal (s : State) (k : Nat) (v : Engine) : (s.setEng k v).cal = s.cal := (rfl)
@[simp] theorem State.setEng_thm (s : State) (k : Nat) (v : Engine) : (s.setEng k v).thm = s.thm := (rfl)
@[simp] theorem State.setEng_clk (s : State) (k : Nat) (v : Engine) : (s.setEng k v).clk = s.clk := (rfl)
@[simp] theorem State.setEng_isls (s : State) (k : Nat) (v : Engine) : (s.setEng k v).isls = s.isls := (rfl)
@[simp] theorem State.setEng_xings (s : State) (k : Nat) (v : Engine) : (s.setEng k v).xings = s.xings := (rfl)
@[simp] theorem State.setEng_mbxs (s : State) (k : Nat) (v : Engine) : (s.setEng k v).mbxs = s.mbxs := (rfl)
@[simp] theorem State.setEng_evt (s : State) (k : Nat) (v : Engine) : (s.setEng k v).evt = s.evt := (rfl)
@[simp] theorem State.setEng_rings (s : State) (k : Nat) (v : Engine) : (s.setEng k v).rings = s.rings := (rfl)
@[simp] theorem State.setEng_accs (s : State) (k : Nat) (v : Engine) : (s.setEng k v).accs = s.accs := (rfl)
@[simp] theorem State.setEng_tally (s : State) (k : Nat) (v : Engine) : (s.setEng k v).tally = s.tally := (rfl)
@[simp] theorem State.setEng_boot (s : State) (k : Nat) (v : Engine) : (s.setEng k v).boot = s.boot := (rfl)
@[simp] theorem State.setEng_keys (s : State) (k : Nat) (v : Engine) : (s.setEng k v).keys = s.keys := (rfl)
@[simp] theorem State.setEng_sans (s : State) (k : Nat) (v : Engine) : (s.setEng k v).sans = s.sans := (rfl)
@[simp] theorem State.setEng_fmts (s : State) (k : Nat) (v : Engine) : (s.setEng k v).fmts = s.fmts := (rfl)
@[simp] theorem State.setEng_opNext (s : State) (k : Nat) (v : Engine) : (s.setEng k v).opNext = s.opNext := (rfl)
@[simp] theorem State.modEng_pending (s : State) (k : Nat) (g : Engine → Engine) : (s.modEng k g).pending = s.pending := (rfl)
@[simp] theorem State.modEng_now (s : State) (k : Nat) (g : Engine → Engine) : (s.modEng k g).now = s.now := (rfl)
@[simp] theorem State.modEng_fresh (s : State) (k : Nat) (g : Engine → Engine) : (s.modEng k g).fresh = s.fresh := (rfl)
@[simp] theorem State.modEng_out (s : State) (k : Nat) (g : Engine → Engine) : (s.modEng k g).out = s.out := (rfl)
@[simp] theorem State.modEng_cfg (s : State) (k : Nat) (g : Engine → Engine) : (s.modEng k g).cfg = s.cfg := (rfl)
@[simp] theorem State.modEng_glb (s : State) (k : Nat) (g : Engine → Engine) : (s.modEng k g).glb = s.glb := (rfl)
@[simp] theorem State.modEng_ports (s : State) (k : Nat) (g : Engine → Engine) : (s.modEng k g).ports = s.ports := (rfl)
@[simp] theorem State.modEng_fns (s : State) (k : Nat) (g : Engine → Engine) : (s.modEng k g).fns = s.fns := (rfl)
@[simp] theorem State.modEng_sqs (s : State) (k : Nat) (g : Engine → Engine) : (s.modEng k g).sqs = s.sqs := (rfl)
@[simp] theorem State.modEng_cqs (s : State) (k : Nat) (g : Engine → Engine) : (s.modEng k g).cqs = s.cqs := (rfl)
@[simp] theorem State.modEng_ledger (s : State) (k : Nat) (g : Engine → Engine) : (s.modEng k g).ledger = s.ledger := (rfl)
@[simp] theorem State.modEng_ldg (s : State) (k : Nat) (g : Engine → Engine) : (s.modEng k g).ldg = s.ldg := (rfl)
@[simp] theorem State.modEng_recs (s : State) (k : Nat) (g : Engine → Engine) : (s.modEng k g).recs = s.recs := (rfl)
@[simp] theorem State.modEng_recNext (s : State) (k : Nat) (g : Engine → Engine) : (s.modEng k g).recNext = s.recNext := (rfl)
@[simp] theorem State.modEng_nss (s : State) (k : Nat) (g : Engine → Engine) : (s.modEng k g).nss = s.nss := (rfl)
@[simp] theorem State.modEng_zones (s : State) (k : Nat) (g : Engine → Engine) : (s.modEng k g).zones = s.zones := (rfl)
@[simp] theorem State.modEng_stage (s : State) (k : Nat) (g : Engine → Engine) : (s.modEng k g).stage = s.stage := (rfl)
@[simp] theorem State.modEng_media (s : State) (k : Nat) (g : Engine → Engine) : (s.modEng k g).media = s.media := (rfl)
@[simp] theorem State.modEng_acts (s : State) (k : Nat) (g : Engine → Engine) : (s.modEng k g).acts = s.acts := (rfl)
@[simp] theorem State.modEng_bays (s : State) (k : Nat) (g : Engine → Engine) : (s.modEng k g).bays = s.bays := (rfl)
@[simp] theorem State.modEng_doms (s : State) (k : Nat) (g : Engine → Engine) : (s.modEng k g).doms = s.doms := (rfl)
@[simp] theorem State.modEng_pwr (s : State) (k : Nat) (g : Engine → Engine) : (s.modEng k g).pwr = s.pwr := (rfl)
@[simp] theorem State.modEng_les (s : State) (k : Nat) (g : Engine → Engine) : (s.modEng k g).les = s.les := (rfl)
@[simp] theorem State.modEng_trcs (s : State) (k : Nat) (g : Engine → Engine) : (s.modEng k g).trcs = s.trcs := (rfl)
@[simp] theorem State.modEng_trcSel (s : State) (k : Nat) (g : Engine → Engine) : (s.modEng k g).trcSel = s.trcSel := (rfl)
@[simp] theorem State.modEng_pool (s : State) (k : Nat) (g : Engine → Engine) : (s.modEng k g).pool = s.pool := (rfl)
@[simp] theorem State.modEng_herds (s : State) (k : Nat) (g : Engine → Engine) : (s.modEng k g).herds = s.herds := (rfl)
@[simp] theorem State.modEng_mem (s : State) (k : Nat) (g : Engine → Engine) : (s.modEng k g).mem = s.mem := (rfl)
@[simp] theorem State.modEng_ram (s : State) (k : Nat) (g : Engine → Engine) : (s.modEng k g).ram = s.ram := (rfl)
@[simp] theorem State.modEng_cache (s : State) (k : Nat) (g : Engine → Engine) : (s.modEng k g).cache = s.cache := (rfl)
@[simp] theorem State.modEng_cal (s : State) (k : Nat) (g : Engine → Engine) : (s.modEng k g).cal = s.cal := (rfl)
@[simp] theorem State.modEng_thm (s : State) (k : Nat) (g : Engine → Engine) : (s.modEng k g).thm = s.thm := (rfl)
@[simp] theorem State.modEng_clk (s : State) (k : Nat) (g : Engine → Engine) : (s.modEng k g).clk = s.clk := (rfl)
@[simp] theorem State.modEng_isls (s : State) (k : Nat) (g : Engine → Engine) : (s.modEng k g).isls = s.isls := (rfl)
@[simp] theorem State.modEng_xings (s : State) (k : Nat) (g : Engine → Engine) : (s.modEng k g).xings = s.xings := (rfl)
@[simp] theorem State.modEng_mbxs (s : State) (k : Nat) (g : Engine → Engine) : (s.modEng k g).mbxs = s.mbxs := (rfl)
@[simp] theorem State.modEng_evt (s : State) (k : Nat) (g : Engine → Engine) : (s.modEng k g).evt = s.evt := (rfl)
@[simp] theorem State.modEng_rings (s : State) (k : Nat) (g : Engine → Engine) : (s.modEng k g).rings = s.rings := (rfl)
@[simp] theorem State.modEng_accs (s : State) (k : Nat) (g : Engine → Engine) : (s.modEng k g).accs = s.accs := (rfl)
@[simp] theorem State.modEng_tally (s : State) (k : Nat) (g : Engine → Engine) : (s.modEng k g).tally = s.tally := (rfl)
@[simp] theorem State.modEng_boot (s : State) (k : Nat) (g : Engine → Engine) : (s.modEng k g).boot = s.boot := (rfl)
@[simp] theorem State.modEng_keys (s : State) (k : Nat) (g : Engine → Engine) : (s.modEng k g).keys = s.keys := (rfl)
@[simp] theorem State.modEng_sans (s : State) (k : Nat) (g : Engine → Engine) : (s.modEng k g).sans = s.sans := (rfl)
@[simp] theorem State.modEng_fmts (s : State) (k : Nat) (g : Engine → Engine) : (s.modEng k g).fmts = s.fmts := (rfl)
@[simp] theorem State.modEng_opNext (s : State) (k : Nat) (g : Engine → Engine) : (s.modEng k g).opNext = s.opNext := (rfl)
@[simp] theorem State.setHerd_pending (s : State) (k : Nat) (v : Herd) : (s.setHerd k v).pending = s.pending := (rfl)
@[simp] theorem State.setHerd_now (s : State) (k : Nat) (v : Herd) : (s.setHerd k v).now = s.now := (rfl)
@[simp] theorem State.setHerd_fresh (s : State) (k : Nat) (v : Herd) : (s.setHerd k v).fresh = s.fresh := (rfl)
@[simp] theorem State.setHerd_out (s : State) (k : Nat) (v : Herd) : (s.setHerd k v).out = s.out := (rfl)
@[simp] theorem State.setHerd_cfg (s : State) (k : Nat) (v : Herd) : (s.setHerd k v).cfg = s.cfg := (rfl)
@[simp] theorem State.setHerd_glb (s : State) (k : Nat) (v : Herd) : (s.setHerd k v).glb = s.glb := (rfl)
@[simp] theorem State.setHerd_ports (s : State) (k : Nat) (v : Herd) : (s.setHerd k v).ports = s.ports := (rfl)
@[simp] theorem State.setHerd_fns (s : State) (k : Nat) (v : Herd) : (s.setHerd k v).fns = s.fns := (rfl)
@[simp] theorem State.setHerd_sqs (s : State) (k : Nat) (v : Herd) : (s.setHerd k v).sqs = s.sqs := (rfl)
@[simp] theorem State.setHerd_cqs (s : State) (k : Nat) (v : Herd) : (s.setHerd k v).cqs = s.cqs := (rfl)
@[simp] theorem State.setHerd_ledger (s : State) (k : Nat) (v : Herd) : (s.setHerd k v).ledger = s.ledger := (rfl)
@[simp] theorem State.setHerd_ldg (s : State) (k : Nat) (v : Herd) : (s.setHerd k v).ldg = s.ldg := (rfl)
@[simp] theorem State.setHerd_recs (s : State) (k : Nat) (v : Herd) : (s.setHerd k v).recs = s.recs := (rfl)
@[simp] theorem State.setHerd_recNext (s : State) (k : Nat) (v : Herd) : (s.setHerd k v).recNext = s.recNext := (rfl)
@[simp] theorem State.setHerd_nss (s : State) (k : Nat) (v : Herd) : (s.setHerd k v).nss = s.nss := (rfl)
@[simp] theorem State.setHerd_zones (s : State) (k : Nat) (v : Herd) : (s.setHerd k v).zones = s.zones := (rfl)
@[simp] theorem State.setHerd_stage (s : State) (k : Nat) (v : Herd) : (s.setHerd k v).stage = s.stage := (rfl)
@[simp] theorem State.setHerd_media (s : State) (k : Nat) (v : Herd) : (s.setHerd k v).media = s.media := (rfl)
@[simp] theorem State.setHerd_acts (s : State) (k : Nat) (v : Herd) : (s.setHerd k v).acts = s.acts := (rfl)
@[simp] theorem State.setHerd_bays (s : State) (k : Nat) (v : Herd) : (s.setHerd k v).bays = s.bays := (rfl)
@[simp] theorem State.setHerd_doms (s : State) (k : Nat) (v : Herd) : (s.setHerd k v).doms = s.doms := (rfl)
@[simp] theorem State.setHerd_pwr (s : State) (k : Nat) (v : Herd) : (s.setHerd k v).pwr = s.pwr := (rfl)
@[simp] theorem State.setHerd_les (s : State) (k : Nat) (v : Herd) : (s.setHerd k v).les = s.les := (rfl)
@[simp] theorem State.setHerd_trcs (s : State) (k : Nat) (v : Herd) : (s.setHerd k v).trcs = s.trcs := (rfl)
@[simp] theorem State.setHerd_trcSel (s : State) (k : Nat) (v : Herd) : (s.setHerd k v).trcSel = s.trcSel := (rfl)
@[simp] theorem State.setHerd_engines (s : State) (k : Nat) (v : Herd) : (s.setHerd k v).engines = s.engines := (rfl)
@[simp] theorem State.setHerd_pool (s : State) (k : Nat) (v : Herd) : (s.setHerd k v).pool = s.pool := (rfl)
@[simp] theorem State.setHerd_mem (s : State) (k : Nat) (v : Herd) : (s.setHerd k v).mem = s.mem := (rfl)
@[simp] theorem State.setHerd_ram (s : State) (k : Nat) (v : Herd) : (s.setHerd k v).ram = s.ram := (rfl)
@[simp] theorem State.setHerd_cache (s : State) (k : Nat) (v : Herd) : (s.setHerd k v).cache = s.cache := (rfl)
@[simp] theorem State.setHerd_cal (s : State) (k : Nat) (v : Herd) : (s.setHerd k v).cal = s.cal := (rfl)
@[simp] theorem State.setHerd_thm (s : State) (k : Nat) (v : Herd) : (s.setHerd k v).thm = s.thm := (rfl)
@[simp] theorem State.setHerd_clk (s : State) (k : Nat) (v : Herd) : (s.setHerd k v).clk = s.clk := (rfl)
@[simp] theorem State.setHerd_isls (s : State) (k : Nat) (v : Herd) : (s.setHerd k v).isls = s.isls := (rfl)
@[simp] theorem State.setHerd_xings (s : State) (k : Nat) (v : Herd) : (s.setHerd k v).xings = s.xings := (rfl)
@[simp] theorem State.setHerd_mbxs (s : State) (k : Nat) (v : Herd) : (s.setHerd k v).mbxs = s.mbxs := (rfl)
@[simp] theorem State.setHerd_evt (s : State) (k : Nat) (v : Herd) : (s.setHerd k v).evt = s.evt := (rfl)
@[simp] theorem State.setHerd_rings (s : State) (k : Nat) (v : Herd) : (s.setHerd k v).rings = s.rings := (rfl)
@[simp] theorem State.setHerd_accs (s : State) (k : Nat) (v : Herd) : (s.setHerd k v).accs = s.accs := (rfl)
@[simp] theorem State.setHerd_tally (s : State) (k : Nat) (v : Herd) : (s.setHerd k v).tally = s.tally := (rfl)
@[simp] theorem State.setHerd_boot (s : State) (k : Nat) (v : Herd) : (s.setHerd k v).boot = s.boot := (rfl)
@[simp] theorem State.setHerd_keys (s : State) (k : Nat) (v : Herd) : (s.setHerd k v).keys = s.keys := (rfl)
@[simp] theorem State.setHerd_sans (s : State) (k : Nat) (v : Herd) : (s.setHerd k v).sans = s.sans := (rfl)
@[simp] theorem State.setHerd_fmts (s : State) (k : Nat) (v : Herd) : (s.setHerd k v).fmts = s.fmts := (rfl)
@[simp] theorem State.setHerd_opNext (s : State) (k : Nat) (v : Herd) : (s.setHerd k v).opNext = s.opNext := (rfl)
@[simp] theorem State.modHerd_pending (s : State) (k : Nat) (g : Herd → Herd) : (s.modHerd k g).pending = s.pending := (rfl)
@[simp] theorem State.modHerd_now (s : State) (k : Nat) (g : Herd → Herd) : (s.modHerd k g).now = s.now := (rfl)
@[simp] theorem State.modHerd_fresh (s : State) (k : Nat) (g : Herd → Herd) : (s.modHerd k g).fresh = s.fresh := (rfl)
@[simp] theorem State.modHerd_out (s : State) (k : Nat) (g : Herd → Herd) : (s.modHerd k g).out = s.out := (rfl)
@[simp] theorem State.modHerd_cfg (s : State) (k : Nat) (g : Herd → Herd) : (s.modHerd k g).cfg = s.cfg := (rfl)
@[simp] theorem State.modHerd_glb (s : State) (k : Nat) (g : Herd → Herd) : (s.modHerd k g).glb = s.glb := (rfl)
@[simp] theorem State.modHerd_ports (s : State) (k : Nat) (g : Herd → Herd) : (s.modHerd k g).ports = s.ports := (rfl)
@[simp] theorem State.modHerd_fns (s : State) (k : Nat) (g : Herd → Herd) : (s.modHerd k g).fns = s.fns := (rfl)
@[simp] theorem State.modHerd_sqs (s : State) (k : Nat) (g : Herd → Herd) : (s.modHerd k g).sqs = s.sqs := (rfl)
@[simp] theorem State.modHerd_cqs (s : State) (k : Nat) (g : Herd → Herd) : (s.modHerd k g).cqs = s.cqs := (rfl)
@[simp] theorem State.modHerd_ledger (s : State) (k : Nat) (g : Herd → Herd) : (s.modHerd k g).ledger = s.ledger := (rfl)
@[simp] theorem State.modHerd_ldg (s : State) (k : Nat) (g : Herd → Herd) : (s.modHerd k g).ldg = s.ldg := (rfl)
@[simp] theorem State.modHerd_recs (s : State) (k : Nat) (g : Herd → Herd) : (s.modHerd k g).recs = s.recs := (rfl)
@[simp] theorem State.modHerd_recNext (s : State) (k : Nat) (g : Herd → Herd) : (s.modHerd k g).recNext = s.recNext := (rfl)
@[simp] theorem State.modHerd_nss (s : State) (k : Nat) (g : Herd → Herd) : (s.modHerd k g).nss = s.nss := (rfl)
@[simp] theorem State.modHerd_zones (s : State) (k : Nat) (g : Herd → Herd) : (s.modHerd k g).zones = s.zones := (rfl)
@[simp] theorem State.modHerd_stage (s : State) (k : Nat) (g : Herd → Herd) : (s.modHerd k g).stage = s.stage := (rfl)
@[simp] theorem State.modHerd_media (s : State) (k : Nat) (g : Herd → Herd) : (s.modHerd k g).media = s.media := (rfl)
@[simp] theorem State.modHerd_acts (s : State) (k : Nat) (g : Herd → Herd) : (s.modHerd k g).acts = s.acts := (rfl)
@[simp] theorem State.modHerd_bays (s : State) (k : Nat) (g : Herd → Herd) : (s.modHerd k g).bays = s.bays := (rfl)
@[simp] theorem State.modHerd_doms (s : State) (k : Nat) (g : Herd → Herd) : (s.modHerd k g).doms = s.doms := (rfl)
@[simp] theorem State.modHerd_pwr (s : State) (k : Nat) (g : Herd → Herd) : (s.modHerd k g).pwr = s.pwr := (rfl)
@[simp] theorem State.modHerd_les (s : State) (k : Nat) (g : Herd → Herd) : (s.modHerd k g).les = s.les := (rfl)
@[simp] theorem State.modHerd_trcs (s : State) (k : Nat) (g : Herd → Herd) : (s.modHerd k g).trcs = s.trcs := (rfl)
@[simp] theorem State.modHerd_trcSel (s : State) (k : Nat) (g : Herd → Herd) : (s.modHerd k g).trcSel = s.trcSel := (rfl)
@[simp] theorem State.modHerd_engines (s : State) (k : Nat) (g : Herd → Herd) : (s.modHerd k g).engines = s.engines := (rfl)
@[simp] theorem State.modHerd_pool (s : State) (k : Nat) (g : Herd → Herd) : (s.modHerd k g).pool = s.pool := (rfl)
@[simp] theorem State.modHerd_mem (s : State) (k : Nat) (g : Herd → Herd) : (s.modHerd k g).mem = s.mem := (rfl)
@[simp] theorem State.modHerd_ram (s : State) (k : Nat) (g : Herd → Herd) : (s.modHerd k g).ram = s.ram := (rfl)
@[simp] theorem State.modHerd_cache (s : State) (k : Nat) (g : Herd → Herd) : (s.modHerd k g).cache = s.cache := (rfl)
@[simp] theorem State.modHerd_cal (s : State) (k : Nat) (g : Herd → Herd) : (s.modHerd k g).cal = s.cal := (rfl)
@[simp] theorem State.modHerd_thm (s : State) (k : Nat) (g : Herd → Herd) : (s.modHerd k g).thm = s.thm := (rfl)
@[simp] theorem State.modHerd_clk (s : State) (k : Nat) (g : Herd → Herd) : (s.modHerd k g).clk = s.clk := (rfl)
@[simp] theorem State.modHerd_isls (s : State) (k : Nat) (g : Herd → Herd) : (s.modHerd k g).isls = s.isls := (rfl)
@[simp] theorem State.modHerd_xings (s : State) (k : Nat) (g : Herd → Herd) : (s.modHerd k g).xings = s.xings := (rfl)
@[simp] theorem State.modHerd_mbxs (s : State) (k : Nat) (g : Herd → Herd) : (s.modHerd k g).mbxs = s.mbxs := (rfl)
@[simp] theorem State.modHerd_evt (s : State) (k : Nat) (g : Herd → Herd) : (s.modHerd k g).evt = s.evt := (rfl)
@[simp] theorem State.modHerd_rings (s : State) (k : Nat) (g : Herd → Herd) : (s.modHerd k g).rings = s.rings := (rfl)
@[simp] theorem State.modHerd_accs (s : State) (k : Nat) (g : Herd → Herd) : (s.modHerd k g).accs = s.accs := (rfl)
@[simp] theorem State.modHerd_tally (s : State) (k : Nat) (g : Herd → Herd) : (s.modHerd k g).tally = s.tally := (rfl)
@[simp] theorem State.modHerd_boot (s : State) (k : Nat) (g : Herd → Herd) : (s.modHerd k g).boot = s.boot := (rfl)
@[simp] theorem State.modHerd_keys (s : State) (k : Nat) (g : Herd → Herd) : (s.modHerd k g).keys = s.keys := (rfl)
@[simp] theorem State.modHerd_sans (s : State) (k : Nat) (g : Herd → Herd) : (s.modHerd k g).sans = s.sans := (rfl)
@[simp] theorem State.modHerd_fmts (s : State) (k : Nat) (g : Herd → Herd) : (s.modHerd k g).fmts = s.fmts := (rfl)
@[simp] theorem State.modHerd_opNext (s : State) (k : Nat) (g : Herd → Herd) : (s.modHerd k g).opNext = s.opNext := (rfl)
@[simp] theorem State.setIsl_pending (s : State) (k : Nat) (v : Isl) : (s.setIsl k v).pending = s.pending := (rfl)
@[simp] theorem State.setIsl_now (s : State) (k : Nat) (v : Isl) : (s.setIsl k v).now = s.now := (rfl)
@[simp] theorem State.setIsl_fresh (s : State) (k : Nat) (v : Isl) : (s.setIsl k v).fresh = s.fresh := (rfl)
@[simp] theorem State.setIsl_out (s : State) (k : Nat) (v : Isl) : (s.setIsl k v).out = s.out := (rfl)
@[simp] theorem State.setIsl_cfg (s : State) (k : Nat) (v : Isl) : (s.setIsl k v).cfg = s.cfg := (rfl)
@[simp] theorem State.setIsl_glb (s : State) (k : Nat) (v : Isl) : (s.setIsl k v).glb = s.glb := (rfl)
@[simp] theorem State.setIsl_ports (s : State) (k : Nat) (v : Isl) : (s.setIsl k v).ports = s.ports := (rfl)
@[simp] theorem State.setIsl_fns (s : State) (k : Nat) (v : Isl) : (s.setIsl k v).fns = s.fns := (rfl)
@[simp] theorem State.setIsl_sqs (s : State) (k : Nat) (v : Isl) : (s.setIsl k v).sqs = s.sqs := (rfl)
@[simp] theorem State.setIsl_cqs (s : State) (k : Nat) (v : Isl) : (s.setIsl k v).cqs = s.cqs := (rfl)
@[simp] theorem State.setIsl_ledger (s : State) (k : Nat) (v : Isl) : (s.setIsl k v).ledger = s.ledger := (rfl)
@[simp] theorem State.setIsl_ldg (s : State) (k : Nat) (v : Isl) : (s.setIsl k v).ldg = s.ldg := (rfl)
@[simp] theorem State.setIsl_recs (s : State) (k : Nat) (v : Isl) : (s.setIsl k v).recs = s.recs := (rfl)
@[simp] theorem State.setIsl_recNext (s : State) (k : Nat) (v : Isl) : (s.setIsl k v).recNext = s.recNext := (rfl)
@[simp] theorem State.setIsl_nss (s : State) (k : Nat) (v : Isl) : (s.setIsl k v).nss = s.nss := (rfl)
@[simp] theorem State.setIsl_zones (s : State) (k : Nat) (v : Isl) : (s.setIsl k v).zones = s.zones := (rfl)
@[simp] theorem State.setIsl_stage (s : State) (k : Nat) (v : Isl) : (s.setIsl k v).stage = s.stage := (rfl)
@[simp] theorem State.setIsl_media (s : State) (k : Nat) (v : Isl) : (s.setIsl k v).media = s.media := (rfl)
@[simp] theorem State.setIsl_acts (s : State) (k : Nat) (v : Isl) : (s.setIsl k v).acts = s.acts := (rfl)
@[simp] theorem State.setIsl_bays (s : State) (k : Nat) (v : Isl) : (s.setIsl k v).bays = s.bays := (rfl)
@[simp] theorem State.setIsl_doms (s : State) (k : Nat) (v : Isl) : (s.setIsl k v).doms = s.doms := (rfl)
@[simp] theorem State.setIsl_pwr (s : State) (k : Nat) (v : Isl) : (s.setIsl k v).pwr = s.pwr := (rfl)
@[simp] theorem State.setIsl_les (s : State) (k : Nat) (v : Isl) : (s.setIsl k v).les = s.les := (rfl)
@[simp] theorem State.setIsl_trcs (s : State) (k : Nat) (v : Isl) : (s.setIsl k v).trcs = s.trcs := (rfl)
@[simp] theorem State.setIsl_trcSel (s : State) (k : Nat) (v : Isl) : (s.setIsl k v).trcSel = s.trcSel := (rfl)
@[simp] theorem State.setIsl_engines (s : State) (k : Nat) (v : Isl) : (s.setIsl k v).engines = s.engines := (rfl)
@[simp] theorem State.setIsl_pool (s : State) (k : Nat) (v : Isl) : (s.setIsl k v).pool = s.pool := (rfl)
@[simp] theorem State.setIsl_herds (s : State) (k : Nat) (v : Isl) : (s.setIsl k v).herds = s.herds := (rfl)
@[simp] theorem State.setIsl_mem (s : State) (k : Nat) (v : Isl) : (s.setIsl k v).mem = s.mem := (rfl)
@[simp] theorem State.setIsl_ram (s : State) (k : Nat) (v : Isl) : (s.setIsl k v).ram = s.ram := (rfl)
@[simp] theorem State.setIsl_cache (s : State) (k : Nat) (v : Isl) : (s.setIsl k v).cache = s.cache := (rfl)
@[simp] theorem State.setIsl_cal (s : State) (k : Nat) (v : Isl) : (s.setIsl k v).cal = s.cal := (rfl)
@[simp] theorem State.setIsl_thm (s : State) (k : Nat) (v : Isl) : (s.setIsl k v).thm = s.thm := (rfl)
@[simp] theorem State.setIsl_clk (s : State) (k : Nat) (v : Isl) : (s.setIsl k v).clk = s.clk := (rfl)
@[simp] theorem State.setIsl_xings (s : State) (k : Nat) (v : Isl) : (s.setIsl k v).xings = s.xings := (rfl)
@[simp] theorem State.setIsl_mbxs (s : State) (k : Nat) (v : Isl) : (s.setIsl k v).mbxs = s.mbxs := (rfl)
@[simp] theorem State.setIsl_evt (s : State) (k : Nat) (v : Isl) : (s.setIsl k v).evt = s.evt := (rfl)
@[simp] theorem State.setIsl_rings (s : State) (k : Nat) (v : Isl) : (s.setIsl k v).rings = s.rings := (rfl)
@[simp] theorem State.setIsl_accs (s : State) (k : Nat) (v : Isl) : (s.setIsl k v).accs = s.accs := (rfl)
@[simp] theorem State.setIsl_tally (s : State) (k : Nat) (v : Isl) : (s.setIsl k v).tally = s.tally := (rfl)
@[simp] theorem State.setIsl_boot (s : State) (k : Nat) (v : Isl) : (s.setIsl k v).boot = s.boot := (rfl)
@[simp] theorem State.setIsl_keys (s : State) (k : Nat) (v : Isl) : (s.setIsl k v).keys = s.keys := (rfl)
@[simp] theorem State.setIsl_sans (s : State) (k : Nat) (v : Isl) : (s.setIsl k v).sans = s.sans := (rfl)
@[simp] theorem State.setIsl_fmts (s : State) (k : Nat) (v : Isl) : (s.setIsl k v).fmts = s.fmts := (rfl)
@[simp] theorem State.setIsl_opNext (s : State) (k : Nat) (v : Isl) : (s.setIsl k v).opNext = s.opNext := (rfl)
@[simp] theorem State.modIsl_pending (s : State) (k : Nat) (g : Isl → Isl) : (s.modIsl k g).pending = s.pending := (rfl)
@[simp] theorem State.modIsl_now (s : State) (k : Nat) (g : Isl → Isl) : (s.modIsl k g).now = s.now := (rfl)
@[simp] theorem State.modIsl_fresh (s : State) (k : Nat) (g : Isl → Isl) : (s.modIsl k g).fresh = s.fresh := (rfl)
@[simp] theorem State.modIsl_out (s : State) (k : Nat) (g : Isl → Isl) : (s.modIsl k g).out = s.out := (rfl)
@[simp] theorem State.modIsl_cfg (s : State) (k : Nat) (g : Isl → Isl) : (s.modIsl k g).cfg = s.cfg := (rfl)
@[simp] theorem State.modIsl_glb (s : State) (k : Nat) (g : Isl → Isl) : (s.modIsl k g).glb = s.glb := (rfl)
@[simp] theorem State.modIsl_ports (s : State) (k : Nat) (g : Isl → Isl) : (s.modIsl k g).ports = s.ports := (rfl)
@[simp] theorem State.modIsl_fns (s : State) (k : Nat) (g : Isl → Isl) : (s.modIsl k g).fns = s.fns := (rfl)
@[simp] theorem State.modIsl_sqs (s : State) (k : Nat) (g : Isl → Isl) : (s.modIsl k g).sqs = s.sqs := (rfl)
@[simp] theorem State.modIsl_cqs (s : State) (k : Nat) (g : Isl → Isl) : (s.modIsl k g).cqs = s.cqs := (rfl)
@[simp] theorem State.modIsl_ledger (s : State) (k : Nat) (g : Isl → Isl) : (s.modIsl k g).ledger = s.ledger := (rfl)
@[simp] theorem State.modIsl_ldg (s : State) (k : Nat) (g : Isl → Isl) : (s.modIsl k g).ldg = s.ldg := (rfl)
@[simp] theorem State.modIsl_recs (s : State) (k : Nat) (g : Isl → Isl) : (s.modIsl k g).recs = s.recs := (rfl)
@[simp] theorem State.modIsl_recNext (s : State) (k : Nat) (g : Isl → Isl) : (s.modIsl k g).recNext = s.recNext := (rfl)
@[simp] theorem State.modIsl_nss (s : State) (k : Nat) (g : Isl → Isl) : (s.modIsl k g).nss = s.nss := (rfl)
@[simp] theorem State.modIsl_zones (s : State) (k : Nat) (g : Isl → Isl) : (s.modIsl k g).zones = s.zones := (rfl)
@[simp] theorem State.modIsl_stage (s : State) (k : Nat) (g : Isl → Isl) : (s.modIsl k g).stage = s.stage := (rfl)
@[simp] theorem State.modIsl_media (s : State) (k : Nat) (g : Isl → Isl) : (s.modIsl k g).media = s.media := (rfl)
@[simp] theorem State.modIsl_acts (s : State) (k : Nat) (g : Isl → Isl) : (s.modIsl k g).acts = s.acts := (rfl)
@[simp] theorem State.modIsl_bays (s : State) (k : Nat) (g : Isl → Isl) : (s.modIsl k g).bays = s.bays := (rfl)
@[simp] theorem State.modIsl_doms (s : State) (k : Nat) (g : Isl → Isl) : (s.modIsl k g).doms = s.doms := (rfl)
@[simp] theorem State.modIsl_pwr (s : State) (k : Nat) (g : Isl → Isl) : (s.modIsl k g).pwr = s.pwr := (rfl)
@[simp] theorem State.modIsl_les (s : State) (k : Nat) (g : Isl → Isl) : (s.modIsl k g).les = s.les := (rfl)
@[simp] theorem State.modIsl_trcs (s : State) (k : Nat) (g : Isl → Isl) : (s.modIsl k g).trcs = s.trcs := (rfl)
@[simp] theorem State.modIsl_trcSel (s : State) (k : Nat) (g : Isl → Isl) : (s.modIsl k g).trcSel = s.trcSel := (rfl)
@[simp] theorem State.modIsl_engines (s : State) (k : Nat) (g : Isl → Isl) : (s.modIsl k g).engines = s.engines := (rfl)
@[simp] theorem State.modIsl_pool (s : State) (k : Nat) (g : Isl → Isl) : (s.modIsl k g).pool = s.pool := (rfl)
@[simp] theorem State.modIsl_herds (s : State) (k : Nat) (g : Isl → Isl) : (s.modIsl k g).herds = s.herds := (rfl)
@[simp] theorem State.modIsl_mem (s : State) (k : Nat) (g : Isl → Isl) : (s.modIsl k g).mem = s.mem := (rfl)
@[simp] theorem State.modIsl_ram (s : State) (k : Nat) (g : Isl → Isl) : (s.modIsl k g).ram = s.ram := (rfl)
@[simp] theorem State.modIsl_cache (s : State) (k : Nat) (g : Isl → Isl) : (s.modIsl k g).cache = s.cache := (rfl)
@[simp] theorem State.modIsl_cal (s : State) (k : Nat) (g : Isl → Isl) : (s.modIsl k g).cal = s.cal := (rfl)
@[simp] theorem State.modIsl_thm (s : State) (k : Nat) (g : Isl → Isl) : (s.modIsl k g).thm = s.thm := (rfl)
@[simp] theorem State.modIsl_clk (s : State) (k : Nat) (g : Isl → Isl) : (s.modIsl k g).clk = s.clk := (rfl)
@[simp] theorem State.modIsl_xings (s : State) (k : Nat) (g : Isl → Isl) : (s.modIsl k g).xings = s.xings := (rfl)
@[simp] theorem State.modIsl_mbxs (s : State) (k : Nat) (g : Isl → Isl) : (s.modIsl k g).mbxs = s.mbxs := (rfl)
@[simp] theorem State.modIsl_evt (s : State) (k : Nat) (g : Isl → Isl) : (s.modIsl k g).evt = s.evt := (rfl)
@[simp] theorem State.modIsl_rings (s : State) (k : Nat) (g : Isl → Isl) : (s.modIsl k g).rings = s.rings := (rfl)
@[simp] theorem State.modIsl_accs (s : State) (k : Nat) (g : Isl → Isl) : (s.modIsl k g).accs = s.accs := (rfl)
@[simp] theorem State.modIsl_tally (s : State) (k : Nat) (g : Isl → Isl) : (s.modIsl k g).tally = s.tally := (rfl)
@[simp] theorem State.modIsl_boot (s : State) (k : Nat) (g : Isl → Isl) : (s.modIsl k g).boot = s.boot := (rfl)
@[simp] theorem State.modIsl_keys (s : State) (k : Nat) (g : Isl → Isl) : (s.modIsl k g).keys = s.keys := (rfl)
@[simp] theorem State.modIsl_sans (s : State) (k : Nat) (g : Isl → Isl) : (s.modIsl k g).sans = s.sans := (rfl)
@[simp] theorem State.modIsl_fmts (s : State) (k : Nat) (g : Isl → Isl) : (s.modIsl k g).fmts = s.fmts := (rfl)
@[simp] theorem State.modIsl_opNext (s : State) (k : Nat) (g : Isl → Isl) : (s.modIsl k g).opNext = s.opNext := (rfl)
@[simp] theorem State.setXing_pending (s : State) (k : Nat) (v : Xing) : (s.setXing k v).pending = s.pending := (rfl)
@[simp] theorem State.setXing_now (s : State) (k : Nat) (v : Xing) : (s.setXing k v).now = s.now := (rfl)
@[simp] theorem State.setXing_fresh (s : State) (k : Nat) (v : Xing) : (s.setXing k v).fresh = s.fresh := (rfl)
@[simp] theorem State.setXing_out (s : State) (k : Nat) (v : Xing) : (s.setXing k v).out = s.out := (rfl)
@[simp] theorem State.setXing_cfg (s : State) (k : Nat) (v : Xing) : (s.setXing k v).cfg = s.cfg := (rfl)
@[simp] theorem State.setXing_glb (s : State) (k : Nat) (v : Xing) : (s.setXing k v).glb = s.glb := (rfl)
@[simp] theorem State.setXing_ports (s : State) (k : Nat) (v : Xing) : (s.setXing k v).ports = s.ports := (rfl)
@[simp] theorem State.setXing_fns (s : State) (k : Nat) (v : Xing) : (s.setXing k v).fns = s.fns := (rfl)
@[simp] theorem State.setXing_sqs (s : State) (k : Nat) (v : Xing) : (s.setXing k v).sqs = s.sqs := (rfl)
@[simp] theorem State.setXing_cqs (s : State) (k : Nat) (v : Xing) : (s.setXing k v).cqs = s.cqs := (rfl)
@[simp] theorem State.setXing_ledger (s : State) (k : Nat) (v : Xing) : (s.setXing k v).ledger = s.ledger := (rfl)
@[simp] theorem State.setXing_ldg (s : State) (k : Nat) (v : Xing) : (s.setXing k v).ldg = s.ldg := (rfl)
@[simp] theorem State.setXing_recs (s : State) (k : Nat) (v : Xing) : (s.setXing k v).recs = s.recs := (rfl)
@[simp] theorem State.setXing_recNext (s : State) (k : Nat) (v : Xing) : (s.setXing k v).recNext = s.recNext := (rfl)
@[simp] theorem State.setXing_nss (s : State) (k : Nat) (v : Xing) : (s.setXing k v).nss = s.nss := (rfl)
@[simp] theorem State.setXing_zones (s : State) (k : Nat) (v : Xing) : (s.setXing k v).zones = s.zones := (rfl)
@[simp] theorem State.setXing_stage (s : State) (k : Nat) (v : Xing) : (s.setXing k v).stage = s.stage := (rfl)
@[simp] theorem State.setXing_media (s : State) (k : Nat) (v : Xing) : (s.setXing k v).media = s.media := (rfl)
@[simp] theorem State.setXing_acts (s : State) (k : Nat) (v : Xing) : (s.setXing k v).acts = s.acts := (rfl)
@[simp] theorem State.setXing_bays (s : State) (k : Nat) (v : Xing) : (s.setXing k v).bays = s.bays := (rfl)
@[simp] theorem State.setXing_doms (s : State) (k : Nat) (v : Xing) : (s.setXing k v).doms = s.doms := (rfl)
@[simp] theorem State.setXing_pwr (s : State) (k : Nat) (v : Xing) : (s.setXing k v).pwr = s.pwr := (rfl)
@[simp] theorem State.setXing_les (s : State) (k : Nat) (v : Xing) : (s.setXing k v).les = s.les := (rfl)
@[simp] theorem State.setXing_trcs (s : State) (k : Nat) (v : Xing) : (s.setXing k v).trcs = s.trcs := (rfl)
@[simp] theorem State.setXing_trcSel (s : State) (k : Nat) (v : Xing) : (s.setXing k v).trcSel = s.trcSel := (rfl)
@[simp] theorem State.setXing_engines (s : State) (k : Nat) (v : Xing) : (s.setXing k v).engines = s.engines := (rfl)
@[simp] theorem State.setXing_pool (s : State) (k : Nat) (v : Xing) : (s.setXing k v).pool = s.pool := (rfl)
@[simp] theorem State.setXing_herds (s : State) (k : Nat) (v : Xing) : (s.setXing k v).herds = s.herds := (rfl)
@[simp] theorem State.setXing_mem (s : State) (k : Nat) (v : Xing) : (s.setXing k v).mem = s.mem := (rfl)
@[simp] theorem State.setXing_ram (s : State) (k : Nat) (v : Xing) : (s.setXing k v).ram = s.ram := (rfl)
@[simp] theorem State.setXing_cache (s : State) (k : Nat) (v : Xing) : (s.setXing k v).cache = s.cache := (rfl)
@[simp] theorem State.setXing_cal (s : State) (k : Nat) (v : Xing) : (s.setXing k v).cal = s.cal := (rfl)
@[simp] theorem State.setXing_thm (s : State) (k : Nat) (v : Xing) : (s.setXing k v).thm = s.thm := (rfl)
@[simp] theorem State.setXing_clk (s : State) (k : Nat) (v : Xing) : (s.setXing k v).clk = s.clk := (rfl)
@[simp] theorem State.setXing_isls (s : State) (k : Nat) (v : Xing) : (s.setXing k v).isls = s.isls := (rfl)
@[simp] theorem State.setXing_mbxs (s : State) (k : Nat) (v : Xing) : (s.setXing k v).mbxs = s.mbxs := (rfl)
@[simp] theorem State.setXing_evt (s : State) (k : Nat) (v : Xing) : (s.setXing k v).evt = s.evt := (rfl)
@[simp] theorem State.setXing_rings (s : State) (k : Nat) (v : Xing) : (s.setXing k v).rings = s.rings := (rfl)
@[simp] theorem State.setXing_accs (s : State) (k : Nat) (v : Xing) : (s.setXing k v).accs = s.accs := (rfl)
@[simp] theorem State.setXing_tally (s : State) (k : Nat) (v : Xing) : (s.setXing k v).tally = s.tally := (rfl)
@[simp] theorem State.setXing_boot (s : State) (k : Nat) (v : Xing) : (s.setXing k v).boot = s.boot := (rfl)
@[simp] theorem State.setXing_keys (s : State) (k : Nat) (v : Xing) : (s.setXing k v).keys = s.keys := (rfl)
@[simp] theorem State.setXing_sans (s : State) (k : Nat) (v : Xing) : (s.setXing k v).sans = s.sans := (rfl)
@[simp] theorem State.setXing_fmts (s : State) (k : Nat) (v : Xing) : (s.setXing k v).fmts = s.fmts := (rfl)
@[simp] theorem State.setXing_opNext (s : State) (k : Nat) (v : Xing) : (s.setXing k v).opNext = s.opNext := (rfl)
@[simp] theorem State.modXing_pending (s : State) (k : Nat) (g : Xing → Xing) : (s.modXing k g).pending = s.pending := (rfl)
@[simp] theorem State.modXing_now (s : State) (k : Nat) (g : Xing → Xing) : (s.modXing k g).now = s.now := (rfl)
@[simp] theorem State.modXing_fresh (s : State) (k : Nat) (g : Xing → Xing) : (s.modXing k g).fresh = s.fresh := (rfl)
@[simp] theorem State.modXing_out (s : State) (k : Nat) (g : Xing → Xing) : (s.modXing k g).out = s.out := (rfl)
@[simp] theorem State.modXing_cfg (s : State) (k : Nat) (g : Xing → Xing) : (s.modXing k g).cfg = s.cfg := (rfl)
@[simp] theorem State.modXing_glb (s : State) (k : Nat) (g : Xing → Xing) : (s.modXing k g).glb = s.glb := (rfl)
@[simp] theorem State.modXing_ports (s : State) (k : Nat) (g : Xing → Xing) : (s.modXing k g).ports = s.ports := (rfl)
@[simp] theorem State.modXing_fns (s : State) (k : Nat) (g : Xing → Xing) : (s.modXing k g).fns = s.fns := (rfl)
@[simp] theorem State.modXing_sqs (s : State) (k : Nat) (g : Xing → Xing) : (s.modXing k g).sqs = s.sqs := (rfl)
@[simp] theorem State.modXing_cqs (s : State) (k : Nat) (g : Xing → Xing) : (s.modXing k g).cqs = s.cqs := (rfl)
@[simp] theorem State.modXing_ledger (s : State) (k : Nat) (g : Xing → Xing) : (s.modXing k g).ledger = s.ledger := (rfl)
@[simp] theorem State.modXing_ldg (s : State) (k : Nat) (g : Xing → Xing) : (s.modXing k g).ldg = s.ldg := (rfl)
@[simp] theorem State.modXing_recs (s : State) (k : Nat) (g : Xing → Xing) : (s.modXing k g).recs = s.recs := (rfl)
@[simp] theorem State.modXing_recNext (s : State) (k : Nat) (g : Xing → Xing) : (s.modXing k g).recNext = s.recNext := (rfl)
@[simp] theorem State.modXing_nss (s : State) (k : Nat) (g : Xing → Xing) : (s.modXing k g).nss = s.nss := (rfl)
@[simp] theorem State.modXing_zones (s : State) (k : Nat) (g : Xing → Xing) : (s.modXing k g).zones = s.zones := (rfl)
@[simp] theorem State.modXing_stage (s : State) (k : Nat) (g : Xing → Xing) : (s.modXing k g).stage = s.stage := (rfl)
@[simp] theorem State.modXing_media (s : State) (k : Nat) (g : Xing → Xing) : (s.modXing k g).media = s.media := (rfl)
@[simp] theorem State.modXing_acts (s : State) (k : Nat) (g : Xing → Xing) : (s.modXing k g).acts = s.acts := (rfl)
@[simp] theorem State.modXing_bays (s : State) (k : Nat) (g : Xing → Xing) : (s.modXing k g).bays = s.bays := (rfl)
@[simp] theorem State.modXing_doms (s : State) (k : Nat) (g : Xing → Xing) : (s.modXing k g).doms = s.doms := (rfl)
@[simp] theorem State.modXing_pwr (s : State) (k : Nat) (g : Xing → Xing) : (s.modXing k g).pwr = s.pwr := (rfl)
@[simp] theorem State.modXing_les (s : State) (k : Nat) (g : Xing → Xing) : (s.modXing k g).les = s.les := (rfl)
@[simp] theorem State.modXing_trcs (s : State) (k : Nat) (g : Xing → Xing) : (s.modXing k g).trcs = s.trcs := (rfl)
@[simp] theorem State.modXing_trcSel (s : State) (k : Nat) (g : Xing → Xing) : (s.modXing k g).trcSel = s.trcSel := (rfl)
@[simp] theorem State.modXing_engines (s : State) (k : Nat) (g : Xing → Xing) : (s.modXing k g).engines = s.engines := (rfl)
@[simp] theorem State.modXing_pool (s : State) (k : Nat) (g : Xing → Xing) : (s.modXing k g).pool = s.pool := (rfl)
@[simp] theorem State.modXing_herds (s : State) (k : Nat) (g : Xing → Xing) : (s.modXing k g).herds = s.herds := (rfl)
@[simp] theorem State.modXing_mem (s : State) (k : Nat) (g : Xing → Xing) : (s.modXing k g).mem = s.mem := (rfl)
@[simp] theorem State.modXing_ram (s : State) (k : Nat) (g : Xing → Xing) : (s.modXing k g).ram = s.ram := (rfl)
@[simp] theorem State.modXing_cache (s : State) (k : Nat) (g : Xing → Xing) : (s.modXing k g).cache = s.cache := (rfl)
@[simp] theorem State.modXing_cal (s : State) (k : Nat) (g : Xing → Xing) : (s.modXing k g).cal = s.cal := (rfl)
@[simp] theorem State.modXing_thm (s : State) (k : Nat) (g : Xing → Xing) : (s.modXing k g).thm = s.thm := (rfl)
@[simp] theorem State.modXing_clk (s : State) (k : Nat) (g : Xing → Xing) : (s.modXing k g).clk = s.clk := (rfl)
@[simp] theorem State.modXing_isls (s : State) (k : Nat) (g : Xing → Xing) : (s.modXing k g).isls = s.isls := (rfl)
@[simp] theorem State.modXing_mbxs (s : State) (k : Nat) (g : Xing → Xing) : (s.modXing k g).mbxs = s.mbxs := (rfl)
@[simp] theorem State.modXing_evt (s : State) (k : Nat) (g : Xing → Xing) : (s.modXing k g).evt = s.evt := (rfl)
@[simp] theorem State.modXing_rings (s : State) (k : Nat) (g : Xing → Xing) : (s.modXing k g).rings = s.rings := (rfl)
@[simp] theorem State.modXing_accs (s : State) (k : Nat) (g : Xing → Xing) : (s.modXing k g).accs = s.accs := (rfl)
@[simp] theorem State.modXing_tally (s : State) (k : Nat) (g : Xing → Xing) : (s.modXing k g).tally = s.tally := (rfl)
@[simp] theorem State.modXing_boot (s : State) (k : Nat) (g : Xing → Xing) : (s.modXing k g).boot = s.boot := (rfl)
@[simp] theorem State.modXing_keys (s : State) (k : Nat) (g : Xing → Xing) : (s.modXing k g).keys = s.keys := (rfl)
@[simp] theorem State.modXing_sans (s : State) (k : Nat) (g : Xing → Xing) : (s.modXing k g).sans = s.sans := (rfl)
@[simp] theorem State.modXing_fmts (s : State) (k : Nat) (g : Xing → Xing) : (s.modXing k g).fmts = s.fmts := (rfl)
@[simp] theorem State.modXing_opNext (s : State) (k : Nat) (g : Xing → Xing) : (s.modXing k g).opNext = s.opNext := (rfl)
@[simp] theorem State.setMbx_pending (s : State) (k : Nat) (v : Mbx) : (s.setMbx k v).pending = s.pending := (rfl)
@[simp] theorem State.setMbx_now (s : State) (k : Nat) (v : Mbx) : (s.setMbx k v).now = s.now := (rfl)
@[simp] theorem State.setMbx_fresh (s : State) (k : Nat) (v : Mbx) : (s.setMbx k v).fresh = s.fresh := (rfl)
@[simp] theorem State.setMbx_out (s : State) (k : Nat) (v : Mbx) : (s.setMbx k v).out = s.out := (rfl)
@[simp] theorem State.setMbx_cfg (s : State) (k : Nat) (v : Mbx) : (s.setMbx k v).cfg = s.cfg := (rfl)
@[simp] theorem State.setMbx_glb (s : State) (k : Nat) (v : Mbx) : (s.setMbx k v).glb = s.glb := (rfl)
@[simp] theorem State.setMbx_ports (s : State) (k : Nat) (v : Mbx) : (s.setMbx k v).ports = s.ports := (rfl)
@[simp] theorem State.setMbx_fns (s : State) (k : Nat) (v : Mbx) : (s.setMbx k v).fns = s.fns := (rfl)
@[simp] theorem State.setMbx_sqs (s : State) (k : Nat) (v : Mbx) : (s.setMbx k v).sqs = s.sqs := (rfl)
@[simp] theorem State.setMbx_cqs (s : State) (k : Nat) (v : Mbx) : (s.setMbx k v).cqs = s.cqs := (rfl)
@[simp] theorem State.setMbx_ledger (s : State) (k : Nat) (v : Mbx) : (s.setMbx k v).ledger = s.ledger := (rfl)
@[simp] theorem State.setMbx_ldg (s : State) (k : Nat) (v : Mbx) : (s.setMbx k v).ldg = s.ldg := (rfl)
@[simp] theorem State.setMbx_recs (s : State) (k : Nat) (v : Mbx) : (s.setMbx k v).recs = s.recs := (rfl)
@[simp] theorem State.setMbx_recNext (s : State) (k : Nat) (v : Mbx) : (s.setMbx k v).recNext = s.recNext := (rfl)
@[simp] theorem State.setMbx_nss (s : State) (k : Nat) (v : Mbx) : (s.setMbx k v).nss = s.nss := (rfl)
@[simp] theorem State.setMbx_zones (s : State) (k : Nat) (v : Mbx) : (s.setMbx k v).zones = s.zones := (rfl)
@[simp] theorem State.setMbx_stage (s : State) (k : Nat) (v : Mbx) : (s.setMbx k v).stage = s.stage := (rfl)
@[simp] theorem State.setMbx_media (s : State) (k : Nat) (v : Mbx) : (s.setMbx k v).media = s.media := (rfl)
@[simp] theorem State.setMbx_acts (s : State) (k : Nat) (v : Mbx) : (s.setMbx k v).acts = s.acts := (rfl)
@[simp] theorem State.setMbx_bays (s : State) (k : Nat) (v : Mbx) : (s.setMbx k v).bays = s.bays := (rfl)
@[simp] theorem State.setMbx_doms (s : State) (k : Nat) (v : Mbx) : (s.setMbx k v).doms = s.doms := (rfl)
@[simp] theorem State.setMbx_pwr (s : State) (k : Nat) (v : Mbx) : (s.setMbx k v).pwr = s.pwr := (rfl)
@[simp] theorem State.setMbx_les (s : State) (k : Nat) (v : Mbx) : (s.setMbx k v).les = s.les := (rfl)
@[simp] theorem State.setMbx_trcs (s : State) (k : Nat) (v : Mbx) : (s.setMbx k v).trcs = s.trcs := (rfl)
@[simp] theorem State.setMbx_trcSel (s : State) (k : Nat) (v : Mbx) : (s.setMbx k v).trcSel = s.trcSel := (rfl)
@[simp] theorem State.setMbx_engines (s : State) (k : Nat) (v : Mbx) : (s.setMbx k v).engines = s.engines := (rfl)
@[simp] theorem State.setMbx_pool (s : State) (k : Nat) (v : Mbx) : (s.setMbx k v).pool = s.pool := (rfl)
@[simp] theorem State.setMbx_herds (s : State) (k : Nat) (v : Mbx) : (s.setMbx k v).herds = s.herds := (rfl)
@[simp] theorem State.setMbx_mem (s : State) (k : Nat) (v : Mbx) : (s.setMbx k v).mem = s.mem := (rfl)
@[simp] theorem State.setMbx_ram (s : State) (k : Nat) (v : Mbx) : (s.setMbx k v).ram = s.ram := (rfl)
@[simp] theorem State.setMbx_cache (s : State) (k : Nat) (v : Mbx) : (s.setMbx k v).cache = s.cache := (rfl)
@[simp] theorem State.setMbx_cal (s : State) (k : Nat) (v : Mbx) : (s.setMbx k v).cal = s.cal := (rfl)
@[simp] theorem State.setMbx_thm (s : State) (k : Nat) (v : Mbx) : (s.setMbx k v).thm = s.thm := (rfl)
@[simp] theorem State.setMbx_clk (s : State) (k : Nat) (v : Mbx) : (s.setMbx k v).clk = s.clk := (rfl)
@[simp] theorem State.setMbx_isls (s : State) (k : Nat) (v : Mbx) : (s.setMbx k v).isls = s.isls := (rfl)
@[simp] theorem State.setMbx_xings (s : State) (k : Nat) (v : Mbx) : (s.setMbx k v).xings = s.xings := (rfl)
@[simp] theorem State.setMbx_evt (s : State) (k : Nat) (v : Mbx) : (s.setMbx k v).evt = s.evt := (rfl)
@[simp] theorem State.setMbx_rings (s : State) (k : Nat) (v : Mbx) : (s.setMbx k v).rings = s.rings := (rfl)
@[simp] theorem State.setMbx_accs (s : State) (k : Nat) (v : Mbx) : (s.setMbx k v).accs = s.accs := (rfl)
@[simp] theorem State.setMbx_tally (s : State) (k : Nat) (v : Mbx) : (s.setMbx k v).tally = s.tally := (rfl)
@[simp] theorem State.setMbx_boot (s : State) (k : Nat) (v : Mbx) : (s.setMbx k v).boot = s.boot := (rfl)
@[simp] theorem State.setMbx_keys (s : State) (k : Nat) (v : Mbx) : (s.setMbx k v).keys = s.keys := (rfl)
@[simp] theorem State.setMbx_sans (s : State) (k : Nat) (v : Mbx) : (s.setMbx k v).sans = s.sans := (rfl)
@[simp] theorem State.setMbx_fmts (s : State) (k : Nat) (v : Mbx) : (s.setMbx k v).fmts = s.fmts := (rfl)
@[simp] theorem State.setMbx_opNext (s : State) (k : Nat) (v : Mbx) : (s.setMbx k v).opNext = s.opNext := (rfl)
@[simp] theorem State.modMbx_pending (s : State) (k : Nat) (g : Mbx → Mbx) : (s.modMbx k g).pending = s.pending := (rfl)
@[simp] theorem State.modMbx_now (s : State) (k : Nat) (g : Mbx → Mbx) : (s.modMbx k g).now = s.now := (rfl)
@[simp] theorem State.modMbx_fresh (s : State) (k : Nat) (g : Mbx → Mbx) : (s.modMbx k g).fresh = s.fresh := (rfl)
@[simp] theorem State.modMbx_out (s : State) (k : Nat) (g : Mbx → Mbx) : (s.modMbx k g).out = s.out := (rfl)
@[simp] theorem State.modMbx_cfg (s : State) (k : Nat) (g : Mbx → Mbx) : (s.modMbx k g).cfg = s.cfg := (rfl)
@[simp] theorem State.modMbx_glb (s : State) (k : Nat) (g : Mbx → Mbx) : (s.modMbx k g).glb = s.glb := (rfl)
@[simp] theorem State.modMbx_ports (s : State) (k : Nat) (g : Mbx → Mbx) : (s.modMbx k g).ports = s.ports := (rfl)
@[simp] theorem State.modMbx_fns (s : State) (k : Nat) (g : Mbx → Mbx) : (s.modMbx k g).fns = s.fns := (rfl)
@[simp] theorem State.modMbx_sqs (s : State) (k : Nat) (g : Mbx → Mbx) : (s.modMbx k g).sqs = s.sqs := (rfl)
@[simp] theorem State.modMbx_cqs (s : State) (k : Nat) (g : Mbx → Mbx) : (s.modMbx k g).cqs = s.cqs := (rfl)
@[simp] theorem State.modMbx_ledger (s : State) (k : Nat) (g : Mbx → Mbx) : (s.modMbx k g).ledger = s.ledger := (rfl)
@[simp] theorem State.modMbx_ldg (s : State) (k : Nat) (g : Mbx → Mbx) : (s.modMbx k g).ldg = s.ldg := (rfl)
@[simp] theorem State.modMbx_recs (s : State) (k : Nat) (g : Mbx → Mbx) : (s.modMbx k g).recs = s.recs := (rfl)
@[simp] theorem State.modMbx_recNext (s : State) (k : Nat) (g : Mbx → Mbx) : (s.modMbx k g).recNext = s.recNext := (rfl)
@[simp] theorem State.modMbx_nss (s : State) (k : Nat) (g : Mbx → Mbx) : (s.modMbx k g).nss = s.nss := (rfl)
@[simp] theorem State.modMbx_zones (s : State) (k : Nat) (g : Mbx → Mbx) : (s.modMbx k g).zones = s.zones := (rfl)
@[simp] theorem State.modMbx_stage (s : State) (k : Nat) (g : Mbx → Mbx) : (s.modMbx k g).stage = s.stage := (rfl)
@[simp] theorem State.modMbx_media (s : State) (k : Nat) (g : Mbx → Mbx) : (s.modMbx k g).media = s.media := (rfl)
@[simp] theorem State.modMbx_acts (s : State) (k : Nat) (g : Mbx → Mbx) : (s.modMbx k g).acts = s.acts := (rfl)
@[simp] theorem State.modMbx_bays (s : State) (k : Nat) (g : Mbx → Mbx) : (s.modMbx k g).bays = s.bays := (rfl)
@[simp] theorem State.modMbx_doms (s : State) (k : Nat) (g : Mbx → Mbx) : (s.modMbx k g).doms = s.doms := (rfl)
@[simp] theorem State.modMbx_pwr (s : State) (k : Nat) (g : Mbx → Mbx) : (s.modMbx k g).pwr = s.pwr := (rfl)
@[simp] theorem State.modMbx_les (s : State) (k : Nat) (g : Mbx → Mbx) : (s.modMbx k g).les = s.les := (rfl)
@[simp] theorem State.modMbx_trcs (s : State) (k : Nat) (g : Mbx → Mbx) : (s.modMbx k g).trcs = s.trcs := (rfl)
@[simp] theorem State.modMbx_trcSel (s : State) (k : Nat) (g : Mbx → Mbx) : (s.modMbx k g).trcSel = s.trcSel := (rfl)
@[simp] theorem State.modMbx_engines (s : State) (k : Nat) (g : Mbx → Mbx) : (s.modMbx k g).engines = s.engines := (rfl)
@[simp] theorem State.modMbx_pool (s : State) (k : Nat) (g : Mbx → Mbx) : (s.modMbx k g).pool = s.pool := (rfl)
@[simp] theorem State.modMbx_herds (s : State) (k : Nat) (g : Mbx → Mbx) : (s.modMbx k g).herds = s.herds := (rfl)
@[simp] theorem State.modMbx_mem (s : State) (k : Nat) (g : Mbx → Mbx) : (s.modMbx k g).mem = s.mem := (rfl)
@[simp] theorem State.modMbx_ram (s : State) (k : Nat) (g : Mbx → Mbx) : (s.modMbx k g).ram = s.ram := (rfl)
@[simp] theorem State.modMbx_cache (s : State) (k : Nat) (g : Mbx → Mbx) : (s.modMbx k g).cache = s.cache := (rfl)
@[simp] theorem State.modMbx_cal (s : State) (k : Nat) (g : Mbx → Mbx) : (s.modMbx k g).cal = s.cal := (rfl)
@[simp] theorem State.modMbx_thm (s : State) (k : Nat) (g : Mbx → Mbx) : (s.modMbx k g).thm = s.thm := (rfl)
@[simp] theorem State.modMbx_clk (s : State) (k : Nat) (g : Mbx → Mbx) : (s.modMbx k g).clk = s.clk := (rfl)
@[simp] theorem State.modMbx_isls (s : State) (k : Nat) (g : Mbx → Mbx) : (s.modMbx k g).isls = s.isls := (rfl)
@[simp] theorem State.modMbx_xings (s : State) (k : Nat) (g : Mbx → Mbx) : (s.modMbx k g).xings = s.xings := (rfl)
@[simp] theorem State.modMbx_evt (s : State) (k : Nat) (g : Mbx → Mbx) : (s.modMbx k g).evt = s.evt := (rfl)
@[simp] theorem State.modMbx_rings (s : State) (k : Nat) (g : Mbx → Mbx) : (s.modMbx k g).rings = s.rings := (rfl)
@[simp] theorem State.modMbx_accs (s : State) (k : Nat) (g : Mbx → Mbx) : (s.modMbx k g).accs = s.accs := (rfl)
@[simp] theorem State.modMbx_tally (s : State) (k : Nat) (g : Mbx → Mbx) : (s.modMbx k g).tally = s.tally := (rfl)
@[simp] theorem State.modMbx_boot (s : State) (k : Nat) (g : Mbx → Mbx) : (s.modMbx k g).boot = s.boot := (rfl)
@[simp] theorem State.modMbx_keys (s : State) (k : Nat) (g : Mbx → Mbx) : (s.modMbx k g).keys = s.keys := (rfl)
@[simp] theorem State.modMbx_sans (s : State) (k : Nat) (g : Mbx → Mbx) : (s.modMbx k g).sans = s.sans := (rfl)
@[simp] theorem State.modMbx_fmts (s : State) (k : Nat) (g : Mbx → Mbx) : (s.modMbx k g).fmts = s.fmts := (rfl)
@[simp] theorem State.modMbx_opNext (s : State) (k : Nat) (g : Mbx → Mbx) : (s.modMbx k g).opNext = s.opNext := (rfl)
@[simp] theorem State.setRing_pending (s : State) (k : Nat) (v : Ring) : (s.setRing k v).pending = s.pending := (rfl)
@[simp] theorem State.setRing_now (s : State) (k : Nat) (v : Ring) : (s.setRing k v).now = s.now := (rfl)
@[simp] theorem State.setRing_fresh (s : State) (k : Nat) (v : Ring) : (s.setRing k v).fresh = s.fresh := (rfl)
@[simp] theorem State.setRing_out (s : State) (k : Nat) (v : Ring) : (s.setRing k v).out = s.out := (rfl)
@[simp] theorem State.setRing_cfg (s : State) (k : Nat) (v : Ring) : (s.setRing k v).cfg = s.cfg := (rfl)
@[simp] theorem State.setRing_glb (s : State) (k : Nat) (v : Ring) : (s.setRing k v).glb = s.glb := (rfl)
@[simp] theorem State.setRing_ports (s : State) (k : Nat) (v : Ring) : (s.setRing k v).ports = s.ports := (rfl)
@[simp] theorem State.setRing_fns (s : State) (k : Nat) (v : Ring) : (s.setRing k v).fns = s.fns := (rfl)
@[simp] theorem State.setRing_sqs (s : State) (k : Nat) (v : Ring) : (s.setRing k v).sqs = s.sqs := (rfl)
@[simp] theorem State.setRing_cqs (s : State) (k : Nat) (v : Ring) : (s.setRing k v).cqs = s.cqs := (rfl)
@[simp] theorem State.setRing_ledger (s : State) (k : Nat) (v : Ring) : (s.setRing k v).ledger = s.ledger := (rfl)
@[simp] theorem State.setRing_ldg (s : State) (k : Nat) (v : Ring) : (s.setRing k v).ldg = s.ldg := (rfl)
@[simp] theorem State.setRing_recs (s : State) (k : Nat) (v : Ring) : (s.setRing k v).recs = s.recs := (rfl)
@[simp] theorem State.setRing_recNext (s : State) (k : Nat) (v : Ring) : (s.setRing k v).recNext = s.recNext := (rfl)
@[simp] theorem State.setRing_nss (s : State) (k : Nat) (v : Ring) : (s.setRing k v).nss = s.nss := (rfl)
@[simp] theorem State.setRing_zones (s : State) (k : Nat) (v : Ring) : (s.setRing k v).zones = s.zones := (rfl)
@[simp] theorem State.setRing_stage (s : State) (k : Nat) (v : Ring) : (s.setRing k v).stage = s.stage := (rfl)
@[simp] theorem State.setRing_media (s : State) (k : Nat) (v : Ring) : (s.setRing k v).media = s.media := (rfl)
@[simp] theorem State.setRing_acts (s : State) (k : Nat) (v : Ring) : (s.setRing k v).acts = s.acts := (rfl)
@[simp] theorem State.setRing_bays (s : State) (k : Nat) (v : Ring) : (s.setRing k v).bays = s.bays := (rfl)
@[simp] theorem State.setRing_doms (s : State) (k : Nat) (v : Ring) : (s.setRing k v).doms = s.doms := (rfl)
@[simp] theorem State.setRing_pwr (s : State) (k : Nat) (v : Ring) : (s.setRing k v).pwr = s.pwr := (rfl)
@[simp] theorem State.setRing_les (s : State) (k : Nat) (v : Ring) : (s.setRing k v).les = s.les := (rfl)
@[simp] theorem State.setRing_trcs (s : State) (k : Nat) (v : Ring) : (s.setRing k v).trcs = s.trcs := (rfl)
@[simp] theorem State.setRing_trcSel (s : State) (k : Nat) (v : Ring) : (s.setRing k v).trcSel = s.trcSel := (rfl)
@[simp] theorem State.setRing_engines (s : State) (k : Nat) (v : Ring) : (s.setRing k v).engines = s.engines := (rfl)
@[simp] theorem State.setRing_pool (s : State) (k : Nat) (v : Ring) : (s.setRing k v).pool = s.pool := (rfl)
@[simp] theorem State.setRing_herds (s : State) (k : Nat) (v : Ring) : (s.setRing k v).herds = s.herds := (rfl)
@[simp] theorem State.setRing_mem (s : State) (k : Nat) (v : Ring) : (s.setRing k v).mem = s.mem := (rfl)
@[simp] theorem State.setRing_ram (s : State) (k : Nat) (v : Ring) : (s.setRing k v).ram = s.ram := (rfl)
@[simp] theorem State.setRing_cache (s : State) (k : Nat) (v : Ring) : (s.setRing k v).cache = s.cache := (rfl)
@[simp] theorem State.setRing_cal (s : State) (k : Nat) (v : Ring) : (s.setRing k v).cal = s.cal := (rfl)
@[simp] theorem State.setRing_thm (s : State) (k : Nat) (v : Ring) : (s.setRing k v).thm = s.thm := (rfl)
@[simp] theorem State.setRing_clk (s : State) (k : Nat) (v : Ring) : (s.setRing k v).clk = s.clk := (rfl)
@[simp] theorem State.setRing_isls (s : State) (k : Nat) (v : Ring) : (s.setRing k v).isls = s.isls := (rfl)
@[simp] theorem State.setRing_xings (s : State) (k : Nat) (v : Ring) : (s.setRing k v).xings = s.xings := (rfl)
@[simp] theorem State.setRing_mbxs (s : State) (k : Nat) (v : Ring) : (s.setRing k v).mbxs = s.mbxs := (rfl)
@[simp] theorem State.setRing_evt (s : State) (k : Nat) (v : Ring) : (s.setRing k v).evt = s.evt := (rfl)
@[simp] theorem State.setRing_accs (s : State) (k : Nat) (v : Ring) : (s.setRing k v).accs = s.accs := (rfl)
@[simp] theorem State.setRing_tally (s : State) (k : Nat) (v : Ring) : (s.setRing k v).tally = s.tally := (rfl)
@[simp] theorem State.setRing_boot (s : State) (k : Nat) (v : Ring) : (s.setRing k v).boot = s.boot := (rfl)
@[simp] theorem State.setRing_keys (s : State) (k : Nat) (v : Ring) : (s.setRing k v).keys = s.keys := (rfl)
@[simp] theorem State.setRing_sans (s : State) (k : Nat) (v : Ring) : (s.setRing k v).sans = s.sans := (rfl)
@[simp] theorem State.setRing_fmts (s : State) (k : Nat) (v : Ring) : (s.setRing k v).fmts = s.fmts := (rfl)
@[simp] theorem State.setRing_opNext (s : State) (k : Nat) (v : Ring) : (s.setRing k v).opNext = s.opNext := (rfl)
@[simp] theorem State.modRing_pending (s : State) (k : Nat) (g : Ring → Ring) : (s.modRing k g).pending = s.pending := (rfl)
@[simp] theorem State.modRing_now (s : State) (k : Nat) (g : Ring → Ring) : (s.modRing k g).now = s.now := (rfl)
@[simp] theorem State.modRing_fresh (s : State) (k : Nat) (g : Ring → Ring) : (s.modRing k g).fresh = s.fresh := (rfl)
@[simp] theorem State.modRing_out (s : State) (k : Nat) (g : Ring → Ring) : (s.modRing k g).out = s.out := (rfl)
@[simp] theorem State.modRing_cfg (s : State) (k : Nat) (g : Ring → Ring) : (s.modRing k g).cfg = s.cfg := (rfl)
@[simp] theorem State.modRing_glb (s : State) (k : Nat) (g : Ring → Ring) : (s.modRing k g).glb = s.glb := (rfl)
@[simp] theorem State.modRing_ports (s : State) (k : Nat) (g : Ring → Ring) : (s.modRing k g).ports = s.ports := (rfl)
@[simp] theorem State.modRing_fns (s : State) (k : Nat) (g : Ring → Ring) : (s.modRing k g).fns = s.fns := (rfl)
@[simp] theorem State.modRing_sqs (s : State) (k : Nat) (g : Ring → Ring) : (s.modRing k g).sqs = s.sqs := (rfl)
@[simp] theorem State.modRing_cqs (s : State) (k : Nat) (g : Ring → Ring) : (s.modRing k g).cqs = s.cqs := (rfl)
@[simp] theorem State.modRing_ledger (s : State) (k : Nat) (g : Ring → Ring) : (s.modRing k g).ledger = s.ledger := (rfl)
@[simp] theorem State.modRing_ldg (s : State) (k : Nat) (g : Ring → Ring) : (s.modRing k g).ldg = s.ldg := (rfl)
@[simp] theorem State.modRing_recs (s : State) (k : Nat) (g : Ring → Ring) : (s.modRing k g).recs = s.recs := (rfl)
@[simp] theorem State.modRing_recNext (s : State) (k : Nat) (g : Ring → Ring) : (s.modRing k g).recNext = s.recNext := (rfl)
@[simp] theorem State.modRing_nss (s : State) (k : Nat) (g : Ring → Ring) : (s.modRing k g).nss = s.nss := (rfl)
@[simp] theorem State.modRing_zones (s : State) (k : Nat) (g : Ring → Ring) : (s.modRing k g).zones = s.zones := (rfl)
@[simp] theorem State.modRing_stage (s : State) (k : Nat) (g : Ring → Ring) : (s.modRing k g).stage = s.stage := (rfl)
@[simp] theorem State.modRing_media (s : State) (k : Nat) (g : Ring → Ring) : (s.modRing k g).media = s.media := (rfl)
@[simp] theorem State.modRing_acts (s : State) (k : Nat) (g : Ring → Ring) : (s.modRing k g).acts = s.acts := (rfl)
@[simp] theorem State.modRing_bays (s : State) (k : Nat) (g : Ring → Ring) : (s.modRing k g).bays = s.bays := (rfl)
@[simp] theorem State.modRing_doms (s : State) (k : Nat) (g : Ring → Ring) : (s.modRing k g).doms = s.doms := (rfl)
@[simp] theorem State.modRing_pwr (s : State) (k : Nat) (g : Ring → Ring) : (s.modRing k g).pwr = s.pwr := (rfl)
@[simp] theorem State.modRing_les (s : State) (k : Nat) (g : Ring → Ring) : (s.modRing k g).les = s.les := (rfl)
@[simp] theorem State.modRing_trcs (s : State) (k : Nat) (g : Ring → Ring) : (s.modRing k g).trcs = s.trcs := (rfl)
@[simp] theorem State.modRing_trcSel (s : State) (k : Nat) (g : Ring → Ring) : (s.modRing k g).trcSel = s.trcSel := (rfl)
@[simp] theorem State.modRing_engines (s : State) (k : Nat) (g : Ring → Ring) : (s.modRing k g).engines = s.engines := (rfl)
@[simp] theorem State.modRing_pool (s : State) (k : Nat) (g : Ring → Ring) : (s.modRing k g).pool = s.pool := (rfl)
@[simp] theorem State.modRing_herds (s : State) (k : Nat) (g : Ring → Ring) : (s.modRing k g).herds = s.herds := (rfl)
@[simp] theorem State.modRing_mem (s : State) (k : Nat) (g : Ring → Ring) : (s.modRing k g).mem = s.mem := (rfl)
@[simp] theorem State.modRing_ram (s : State) (k : Nat) (g : Ring → Ring) : (s.modRing k g).ram = s.ram := (rfl)
@[simp] theorem State.modRing_cache (s : State) (k : Nat) (g : Ring → Ring) : (s.modRing k g).cache = s.cache := (rfl)
@[simp] theorem State.modRing_cal (s : State) (k : Nat) (g : Ring → Ring) : (s.modRing k g).cal = s.cal := (rfl)
@[simp] theorem State.modRing_thm (s : State) (k : Nat) (g : Ring → Ring) : (s.modRing k g).thm = s.thm := (rfl)
@[simp] theorem State.modRing_clk (s : State) (k : Nat) (g : Ring → Ring) : (s.modRing k g).clk = s.clk := (rfl)
@[simp] theorem State.modRing_isls (s : State) (k : Nat) (g : Ring → Ring) : (s.modRing k g).isls = s.isls := (rfl)
@[simp] theorem State.modRing_xings (s : State) (k : Nat) (g : Ring → Ring) : (s.modRing k g).xings = s.xings := (rfl)
@[simp] theorem State.modRing_mbxs (s : State) (k : Nat) (g : Ring → Ring) : (s.modRing k g).mbxs = s.mbxs := (rfl)
@[simp] theorem State.modRing_evt (s : State) (k : Nat) (g : Ring → Ring) : (s.modRing k g).evt = s.evt := (rfl)
@[simp] theorem State.modRing_accs (s : State) (k : Nat) (g : Ring → Ring) : (s.modRing k g).accs = s.accs := (rfl)
@[simp] theorem State.modRing_tally (s : State) (k : Nat) (g : Ring → Ring) : (s.modRing k g).tally = s.tally := (rfl)
@[simp] theorem State.modRing_boot (s : State) (k : Nat) (g : Ring → Ring) : (s.modRing k g).boot = s.boot := (rfl)
@[simp] theorem State.modRing_keys (s : State) (k : Nat) (g : Ring → Ring) : (s.modRing k g).keys = s.keys := (rfl)
@[simp] theorem State.modRing_sans (s : State) (k : Nat) (g : Ring → Ring) : (s.modRing k g).sans = s.sans := (rfl)
@[simp] theorem State.modRing_fmts (s : State) (k : Nat) (g : Ring → Ring) : (s.modRing k g).fmts = s.fmts := (rfl)
@[simp] theorem State.modRing_opNext (s : State) (k : Nat) (g : Ring → Ring) : (s.modRing k g).opNext = s.opNext := (rfl)
@[simp] theorem State.setAcc_pending (s : State) (k : Nat) (v : Acc) : (s.setAcc k v).pending = s.pending := (rfl)
@[simp] theorem State.setAcc_now (s : State) (k : Nat) (v : Acc) : (s.setAcc k v).now = s.now := (rfl)
@[simp] theorem State.setAcc_fresh (s : State) (k : Nat) (v : Acc) : (s.setAcc k v).fresh = s.fresh := (rfl)
@[simp] theorem State.setAcc_out (s : State) (k : Nat) (v : Acc) : (s.setAcc k v).out = s.out := (rfl)
@[simp] theorem State.setAcc_cfg (s : State) (k : Nat) (v : Acc) : (s.setAcc k v).cfg = s.cfg := (rfl)
@[simp] theorem State.setAcc_glb (s : State) (k : Nat) (v : Acc) : (s.setAcc k v).glb = s.glb := (rfl)
@[simp] theorem State.setAcc_ports (s : State) (k : Nat) (v : Acc) : (s.setAcc k v).ports = s.ports := (rfl)
@[simp] theorem State.setAcc_fns (s : State) (k : Nat) (v : Acc) : (s.setAcc k v).fns = s.fns := (rfl)
@[simp] theorem State.setAcc_sqs (s : State) (k : Nat) (v : Acc) : (s.setAcc k v).sqs = s.sqs := (rfl)
@[simp] theorem State.setAcc_cqs (s : State) (k : Nat) (v : Acc) : (s.setAcc k v).cqs = s.cqs := (rfl)
@[simp] theorem State.setAcc_ledger (s : State) (k : Nat) (v : Acc) : (s.setAcc k v).ledger = s.ledger := (rfl)
@[simp] theorem State.setAcc_ldg (s : State) (k : Nat) (v : Acc) : (s.setAcc k v).ldg = s.ldg := (rfl)
@[simp] theorem State.setAcc_recs (s : State) (k : Nat) (v : Acc) : (s.setAcc k v).recs = s.recs := (rfl)
@[simp] theorem State.setAcc_recNext (s : State) (k : Nat) (v : Acc) : (s.setAcc k v).recNext = s.recNext := (rfl)
@[simp] theorem State.setAcc_nss (s : State) (k : Nat) (v : Acc) : (s.setAcc k v).nss = s.nss := (rfl)
@[simp] theorem State.setAcc_zones (s : State) (k : Nat) (v : Acc) : (s.setAcc k v).zones = s.zones := (rfl)
@[simp] theorem State.setAcc_stage (s : State) (k : Nat) (v : Acc) : (s.setAcc k v).stage = s.stage := (rfl)
@[simp] theorem State.setAcc_media (s : State) (k : Nat) (v : Acc) : (s.setAcc k v).media = s.media := (rfl)
@[simp] theorem State.setAcc_acts (s : State) (k : Nat) (v : Acc) : (s.setAcc k v).acts = s.acts := (rfl)
@[simp] theorem State.setAcc_bays (s : State) (k : Nat) (v : Acc) : (s.setAcc k v).bays = s.bays := (rfl)
@[simp] theorem State.setAcc_doms (s : State) (k : Nat) (v : Acc) : (s.setAcc k v).doms = s.doms := (rfl)
@[simp] theorem State.setAcc_pwr (s : State) (k : Nat) (v : Acc) : (s.setAcc k v).pwr = s.pwr := (rfl)
@[simp] theorem State.setAcc_les (s : State) (k : Nat) (v : Acc) : (s.setAcc k v).les = s.les := (rfl)
@[simp] theorem State.setAcc_trcs (s : State) (k : Nat) (v : Acc) : (s.setAcc k v).trcs = s.trcs := (rfl)
@[simp] theorem State.setAcc_trcSel (s : State) (k : Nat) (v : Acc) : (s.setAcc k v).trcSel = s.trcSel := (rfl)
@[simp] theorem State.setAcc_engines (s : State) (k : Nat) (v : Acc) : (s.setAcc k v).engines = s.engines := (rfl)
@[simp] theorem State.setAcc_pool (s : State) (k : Nat) (v : Acc) : (s.setAcc k v).pool = s.pool := (rfl)
@[simp] theorem State.setAcc_herds (s : State) (k : Nat) (v : Acc) : (s.setAcc k v).herds = s.herds := (rfl)
@[simp] theorem State.setAcc_mem (s : State) (k : Nat) (v : Acc) : (s.setAcc k v).mem = s.mem := (rfl)
@[simp] theorem State.setAcc_ram (s : State) (k : Nat) (v : Acc) : (s.setAcc k v).ram = s.ram := (rfl)
@[simp] theorem State.setAcc_cache (s : State) (k : Nat) (v : Acc) : (s.setAcc k v).cache = s.cache := (rfl)
@[simp] theorem State.setAcc_cal (s : State) (k : Nat) (v : Acc) : (s.setAcc k v).cal = s.cal := (rfl)
@[simp] theorem State.setAcc_thm (s : State) (k : Nat) (v : Acc) : (s.setAcc k v).thm = s.thm := (rfl)
@[simp] theorem State.setAcc_clk (s : State) (k : Nat) (v : Acc) : (s.setAcc k v).clk = s.clk := (rfl)
@[simp] theorem State.setAcc_isls (s : State) (k : Nat) (v : Acc) : (s.setAcc k v).isls = s.isls := (rfl)
@[simp] theorem State.setAcc_xings (s : State) (k : Nat) (v : Acc) : (s.setAcc k v).xings = s.xings := (rfl)
@[simp] theorem State.setAcc_mbxs (s : State) (k : Nat) (v : Acc) : (s.setAcc k v).mbxs = s.mbxs := (rfl)
@[simp] theorem State.setAcc_evt (s : State) (k : Nat) (v : Acc) : (s.setAcc k v).evt = s.evt := (rfl)
@[simp] theorem State.setAcc_rings (s : State) (k : Nat) (v : Acc) : (s.setAcc k v).rings = s.rings := (rfl)
@[simp] theorem State.setAcc_tally (s : State) (k : Nat) (v : Acc) : (s.setAcc k v).tally = s.tally := (rfl)
@[simp] theorem State.setAcc_boot (s : State) (k : Nat) (v : Acc) : (s.setAcc k v).boot = s.boot := (rfl)
@[simp] theorem State.setAcc_keys (s : State) (k : Nat) (v : Acc) : (s.setAcc k v).keys = s.keys := (rfl)
@[simp] theorem State.setAcc_sans (s : State) (k : Nat) (v : Acc) : (s.setAcc k v).sans = s.sans := (rfl)
@[simp] theorem State.setAcc_fmts (s : State) (k : Nat) (v : Acc) : (s.setAcc k v).fmts = s.fmts := (rfl)
@[simp] theorem State.setAcc_opNext (s : State) (k : Nat) (v : Acc) : (s.setAcc k v).opNext = s.opNext := (rfl)
@[simp] theorem State.modAcc_pending (s : State) (k : Nat) (g : Acc → Acc) : (s.modAcc k g).pending = s.pending := (rfl)
@[simp] theorem State.modAcc_now (s : State) (k : Nat) (g : Acc → Acc) : (s.modAcc k g).now = s.now := (rfl)
@[simp] theorem State.modAcc_fresh (s : State) (k : Nat) (g : Acc → Acc) : (s.modAcc k g).fresh = s.fresh := (rfl)
@[simp] theorem State.modAcc_out (s : State) (k : Nat) (g : Acc → Acc) : (s.modAcc k g).out = s.out := (rfl)
@[simp] theorem State.modAcc_cfg (s : State) (k : Nat) (g : Acc → Acc) : (s.modAcc k g).cfg = s.cfg := (rfl)
@[simp] theorem State.modAcc_glb (s : State) (k : Nat) (g : Acc → Acc) : (s.modAcc k g).glb = s.glb := (rfl)
@[simp] theorem State.modAcc_ports (s : State) (k : Nat) (g : Acc → Acc) : (s.modAcc k g).ports = s.ports := (rfl)
@[simp] theorem State.modAcc_fns (s : State) (k : Nat) (g : Acc → Acc) : (s.modAcc k g).fns = s.fns := (rfl)
@[simp] theorem State.modAcc_sqs (s : State) (k : Nat) (g : Acc → Acc) : (s.modAcc k g).sqs = s.sqs := (rfl)
@[simp] theorem State.modAcc_cqs (s : State) (k : Nat) (g : Acc → Acc) : (s.modAcc k g).cqs = s.cqs := (rfl)
@[simp] theorem State.modAcc_ledger (s : State) (k : Nat) (g : Acc → Acc) : (s.modAcc k g).ledger = s.ledger := (rfl)
@[simp] theorem State.modAcc_ldg (s : State) (k : Nat) (g : Acc → Acc) : (s.modAcc k g).ldg = s.ldg := (rfl)
@[simp] theorem State.modAcc_recs (s : State) (k : Nat) (g : Acc → Acc) : (s.modAcc k g).recs = s.recs := (rfl)
@[simp] theorem State.modAcc_recNext (s : State) (k : Nat) (g : Acc → Acc) : (s.modAcc k g).recNext = s.recNext := (rfl)
@[simp] theorem State.modAcc_nss (s : State) (k : Nat) (g : Acc → Acc) : (s.modAcc k g).nss = s.nss := (rfl)
@[simp] theorem State.modAcc_zones (s : State) (k : Nat) (g : Acc → Acc) : (s.modAcc k g).zones = s.zones := (rfl)
@[simp] theorem State.modAcc_stage (s : State) (k : Nat) (g : Acc → Acc) : (s.modAcc k g).stage = s.stage := (rfl)
@[simp] theorem State.modAcc_media (s : State) (k : Nat) (g : Acc → Acc) : (s.modAcc k g).media = s.media := (rfl)
@[simp] theorem State.modAcc_acts (s : State) (k : Nat) (g : Acc → Acc) : (s.modAcc k g).acts = s.acts := (rfl)
@[simp] theorem State.modAcc_bays (s : State) (k : Nat) (g : Acc → Acc) : (s.modAcc k g).bays = s.bays := (rfl)
@[simp] theorem State.modAcc_doms (s : State) (k : Nat) (g : Acc → Acc) : (s.modAcc k g).doms = s.doms := (rfl)
@[simp] theorem State.modAcc_pwr (s : State) (k : Nat) (g : Acc → Acc) : (s.modAcc k g).pwr = s.pwr := (rfl)
@[simp] theorem State.modAcc_les (s : State) (k : Nat) (g : Acc → Acc) : (s.modAcc k g).les = s.les := (rfl)
@[simp] theorem State.modAcc_trcs (s : State) (k : Nat) (g : Acc → Acc) : (s.modAcc k g).trcs = s.trcs := (rfl)
@[simp] theorem State.modAcc_trcSel (s : State) (k : Nat) (g : Acc → Acc) : (s.modAcc k g).trcSel = s.trcSel := (rfl)
@[simp] theorem State.modAcc_engines (s : State) (k : Nat) (g : Acc → Acc) : (s.modAcc k g).engines = s.engines := (rfl)
@[simp] theorem State.modAcc_pool (s : State) (k : Nat) (g : Acc → Acc) : (s.modAcc k g).pool = s.pool := (rfl)
@[simp] theorem State.modAcc_herds (s : State) (k : Nat) (g : Acc → Acc) : (s.modAcc k g).herds = s.herds := (rfl)
@[simp] theorem State.modAcc_mem (s : State) (k : Nat) (g : Acc → Acc) : (s.modAcc k g).mem = s.mem := (rfl)
@[simp] theorem State.modAcc_ram (s : State) (k : Nat) (g : Acc → Acc) : (s.modAcc k g).ram = s.ram := (rfl)
@[simp] theorem State.modAcc_cache (s : State) (k : Nat) (g : Acc → Acc) : (s.modAcc k g).cache = s.cache := (rfl)
@[simp] theorem State.modAcc_cal (s : State) (k : Nat) (g : Acc → Acc) : (s.modAcc k g).cal = s.cal := (rfl)
@[simp] theorem State.modAcc_thm (s : State) (k : Nat) (g : Acc → Acc) : (s.modAcc k g).thm = s.thm := (rfl)
@[simp] theorem State.modAcc_clk (s : State) (k : Nat) (g : Acc → Acc) : (s.modAcc k g).clk = s.clk := (rfl)
@[simp] theorem State.modAcc_isls (s : State) (k : Nat) (g : Acc → Acc) : (s.modAcc k g).isls = s.isls := (rfl)
@[simp] theorem State.modAcc_xings (s : State) (k : Nat) (g : Acc → Acc) : (s.modAcc k g).xings = s.xings := (rfl)
@[simp] theorem State.modAcc_mbxs (s : State) (k : Nat) (g : Acc → Acc) : (s.modAcc k g).mbxs = s.mbxs := (rfl)
@[simp] theorem State.modAcc_evt (s : State) (k : Nat) (g : Acc → Acc) : (s.modAcc k g).evt = s.evt := (rfl)
@[simp] theorem State.modAcc_rings (s : State) (k : Nat) (g : Acc → Acc) : (s.modAcc k g).rings = s.rings := (rfl)
@[simp] theorem State.modAcc_tally (s : State) (k : Nat) (g : Acc → Acc) : (s.modAcc k g).tally = s.tally := (rfl)
@[simp] theorem State.modAcc_boot (s : State) (k : Nat) (g : Acc → Acc) : (s.modAcc k g).boot = s.boot := (rfl)
@[simp] theorem State.modAcc_keys (s : State) (k : Nat) (g : Acc → Acc) : (s.modAcc k g).keys = s.keys := (rfl)
@[simp] theorem State.modAcc_sans (s : State) (k : Nat) (g : Acc → Acc) : (s.modAcc k g).sans = s.sans := (rfl)
@[simp] theorem State.modAcc_fmts (s : State) (k : Nat) (g : Acc → Acc) : (s.modAcc k g).fmts = s.fmts := (rfl)
@[simp] theorem State.modAcc_opNext (s : State) (k : Nat) (g : Acc → Acc) : (s.modAcc k g).opNext = s.opNext := (rfl)
@[simp] theorem State.setKey_pending (s : State) (k : Nat) (v : KeySlot) : (s.setKey k v).pending = s.pending := (rfl)
@[simp] theorem State.setKey_now (s : State) (k : Nat) (v : KeySlot) : (s.setKey k v).now = s.now := (rfl)
@[simp] theorem State.setKey_fresh (s : State) (k : Nat) (v : KeySlot) : (s.setKey k v).fresh = s.fresh := (rfl)
@[simp] theorem State.setKey_out (s : State) (k : Nat) (v : KeySlot) : (s.setKey k v).out = s.out := (rfl)
@[simp] theorem State.setKey_cfg (s : State) (k : Nat) (v : KeySlot) : (s.setKey k v).cfg = s.cfg := (rfl)
@[simp] theorem State.setKey_glb (s : State) (k : Nat) (v : KeySlot) : (s.setKey k v).glb = s.glb := (rfl)
@[simp] theorem State.setKey_ports (s : State) (k : Nat) (v : KeySlot) : (s.setKey k v).ports = s.ports := (rfl)
@[simp] theorem State.setKey_fns (s : State) (k : Nat) (v : KeySlot) : (s.setKey k v).fns = s.fns := (rfl)
@[simp] theorem State.setKey_sqs (s : State) (k : Nat) (v : KeySlot) : (s.setKey k v).sqs = s.sqs := (rfl)
@[simp] theorem State.setKey_cqs (s : State) (k : Nat) (v : KeySlot) : (s.setKey k v).cqs = s.cqs := (rfl)
@[simp] theorem State.setKey_ledger (s : State) (k : Nat) (v : KeySlot) : (s.setKey k v).ledger = s.ledger := (rfl)
@[simp] theorem State.setKey_ldg (s : State) (k : Nat) (v : KeySlot) : (s.setKey k v).ldg = s.ldg := (rfl)
@[simp] theorem State.setKey_recs (s : State) (k : Nat) (v : KeySlot) : (s.setKey k v).recs = s.recs := (rfl)
@[simp] theorem State.setKey_recNext (s : State) (k : Nat) (v : KeySlot) : (s.setKey k v).recNext = s.recNext := (rfl)
@[simp] theorem State.setKey_nss (s : State) (k : Nat) (v : KeySlot) : (s.setKey k v).nss = s.nss := (rfl)
@[simp] theorem State.setKey_zones (s : State) (k : Nat) (v : KeySlot) : (s.setKey k v).zones = s.zones := (rfl)
@[simp] theorem State.setKey_stage (s : State) (k : Nat) (v : KeySlot) : (s.setKey k v).stage = s.stage := (rfl)
@[simp] theorem State.setKey_media (s : State) (k : Nat) (v : KeySlot) : (s.setKey k v).media = s.media := (rfl)
@[simp] theorem State.setKey_acts (s : State) (k : Nat) (v : KeySlot) : (s.setKey k v).acts = s.acts := (rfl)
@[simp] theorem State.setKey_bays (s : State) (k : Nat) (v : KeySlot) : (s.setKey k v).bays = s.bays := (rfl)
@[simp] theorem State.setKey_doms (s : State) (k : Nat) (v : KeySlot) : (s.setKey k v).doms = s.doms := (rfl)
@[simp] theorem State.setKey_pwr (s : State) (k : Nat) (v : KeySlot) : (s.setKey k v).pwr = s.pwr := (rfl)
@[simp] theorem State.setKey_les (s : State) (k : Nat) (v : KeySlot) : (s.setKey k v).les = s.les := (rfl)
@[simp] theorem State.setKey_trcs (s : State) (k : Nat) (v : KeySlot) : (s.setKey k v).trcs = s.trcs := (rfl)
@[simp] theorem State.setKey_trcSel (s : State) (k : Nat) (v : KeySlot) : (s.setKey k v).trcSel = s.trcSel := (rfl)
@[simp] theorem State.setKey_engines (s : State) (k : Nat) (v : KeySlot) : (s.setKey k v).engines = s.engines := (rfl)
@[simp] theorem State.setKey_pool (s : State) (k : Nat) (v : KeySlot) : (s.setKey k v).pool = s.pool := (rfl)
@[simp] theorem State.setKey_herds (s : State) (k : Nat) (v : KeySlot) : (s.setKey k v).herds = s.herds := (rfl)
@[simp] theorem State.setKey_mem (s : State) (k : Nat) (v : KeySlot) : (s.setKey k v).mem = s.mem := (rfl)
@[simp] theorem State.setKey_ram (s : State) (k : Nat) (v : KeySlot) : (s.setKey k v).ram = s.ram := (rfl)
@[simp] theorem State.setKey_cache (s : State) (k : Nat) (v : KeySlot) : (s.setKey k v).cache = s.cache := (rfl)
@[simp] theorem State.setKey_cal (s : State) (k : Nat) (v : KeySlot) : (s.setKey k v).cal = s.cal := (rfl)
@[simp] theorem State.setKey_thm (s : State) (k : Nat) (v : KeySlot) : (s.setKey k v).thm = s.thm := (rfl)
@[simp] theorem State.setKey_clk (s : State) (k : Nat) (v : KeySlot) : (s.setKey k v).clk = s.clk := (rfl)
@[simp] theorem State.setKey_isls (s : State) (k : Nat) (v : KeySlot) : (s.setKey k v).isls = s.isls := (rfl)
@[simp] theorem State.setKey_xings (s : State) (k : Nat) (v : KeySlot) : (s.setKey k v).xings = s.xings := (rfl)
@[simp] theorem State.setKey_mbxs (s : State) (k : Nat) (v : KeySlot) : (s.setKey k v).mbxs = s.mbxs := (rfl)
@[simp] theorem State.setKey_evt (s : State) (k : Nat) (v : KeySlot) : (s.setKey k v).evt = s.evt := (rfl)
@[simp] theorem State.setKey_rings (s : State) (k : Nat) (v : KeySlot) : (s.setKey k v).rings = s.rings := (rfl)
@[simp] theorem State.setKey_accs (s : State) (k : Nat) (v : KeySlot) : (s.setKey k v).accs = s.accs := (rfl)
@[simp] theorem State.setKey_tally (s : State) (k : Nat) (v : KeySlot) : (s.setKey k v).tally = s.tally := (rfl)
@[simp] theorem State.setKey_boot (s : State) (k : Nat) (v : KeySlot) : (s.setKey k v).boot = s.boot := (rfl)
@[simp] theorem State.setKey_sans (s : State) (k : Nat) (v : KeySlot) : (s.setKey k v).sans = s.sans := (rfl)
@[simp] theorem State.setKey_fmts (s : State) (k : Nat) (v : KeySlot) : (s.setKey k v).fmts = s.fmts := (rfl)
@[simp] theorem State.setKey_opNext (s : State) (k : Nat) (v : KeySlot) : (s.setKey k v).opNext = s.opNext := (rfl)
@[simp] theorem State.modKey_pending (s : State) (k : Nat) (g : KeySlot → KeySlot) : (s.modKey k g).pending = s.pending := (rfl)
@[simp] theorem State.modKey_now (s : State) (k : Nat) (g : KeySlot → KeySlot) : (s.modKey k g).now = s.now := (rfl)
@[simp] theorem State.modKey_fresh (s : State) (k : Nat) (g : KeySlot → KeySlot) : (s.modKey k g).fresh = s.fresh := (rfl)
@[simp] theorem State.modKey_out (s : State) (k : Nat) (g : KeySlot → KeySlot) : (s.modKey k g).out = s.out := (rfl)
@[simp] theorem State.modKey_cfg (s : State) (k : Nat) (g : KeySlot → KeySlot) : (s.modKey k g).cfg = s.cfg := (rfl)
@[simp] theorem State.modKey_glb (s : State) (k : Nat) (g : KeySlot → KeySlot) : (s.modKey k g).glb = s.glb := (rfl)
@[simp] theorem State.modKey_ports (s : State) (k : Nat) (g : KeySlot → KeySlot) : (s.modKey k g).ports = s.ports := (rfl)
@[simp] theorem State.modKey_fns (s : State) (k : Nat) (g : KeySlot → KeySlot) : (s.modKey k g).fns = s.fns := (rfl)
@[simp] theorem State.modKey_sqs (s : State) (k : Nat) (g : KeySlot → KeySlot) : (s.modKey k g).sqs = s.sqs := (rfl)
@[simp] theorem State.modKey_cqs (s : State) (k : Nat) (g : KeySlot → KeySlot) : (s.modKey k g).cqs = s.cqs := (rfl)
@[simp] theorem State.modKey_ledger (s : State) (k : Nat) (g : KeySlot → KeySlot) : (s.modKey k g).ledger = s.ledger := (rfl)
@[simp] theorem State.modKey_ldg (s : State) (k : Nat) (g : KeySlot → KeySlot) : (s.modKey k g).ldg = s.ldg := (rfl)
@[simp] theorem State.modKey_recs (s : State) (k : Nat) (g : KeySlot → KeySlot) : (s.modKey k g).recs = s.recs := (rfl)
@[simp] theorem State.modKey_recNext (s : State) (k : Nat) (g : KeySlot → KeySlot) : (s.modKey k g).recNext = s.recNext := (rfl)
@[simp] theorem State.modKey_nss (s : State) (k : Nat) (g : KeySlot → KeySlot) : (s.modKey k g).nss = s.nss := (rfl)
@[simp] theorem State.modKey_zones (s : State) (k : Nat) (g : KeySlot → KeySlot) : (s.modKey k g).zones = s.zones := (rfl)
@[simp] theorem State.modKey_stage (s : State) (k : Nat) (g : KeySlot → KeySlot) : (s.modKey k g).stage = s.stage := (rfl)
@[simp] theorem State.modKey_media (s : State) (k : Nat) (g : KeySlot → KeySlot) : (s.modKey k g).media = s.media := (rfl)
@[simp] theorem State.modKey_acts (s : State) (k : Nat) (g : KeySlot → KeySlot) : (s.modKey k g).acts = s.acts := (rfl)
@[simp] theorem State.modKey_bays (s : State) (k : Nat) (g : KeySlot → KeySlot) : (s.modKey k g).bays = s.bays := (rfl)
@[simp] theorem State.modKey_doms (s : State) (k : Nat) (g : KeySlot → KeySlot) : (s.modKey k g).doms = s.doms := (rfl)
@[simp] theorem State.modKey_pwr (s : State) (k : Nat) (g : KeySlot → KeySlot) : (s.modKey k g).pwr = s.pwr := (rfl)
@[simp] theorem State.modKey_les (s : State) (k : Nat) (g : KeySlot → KeySlot) : (s.modKey k g).les = s.les := (rfl)
@[simp] theorem State.modKey_trcs (s : State) (k : Nat) (g : KeySlot → KeySlot) : (s.modKey k g).trcs = s.trcs := (rfl)
@[simp] theorem State.modKey_trcSel (s : State) (k : Nat) (g : KeySlot → KeySlot) : (s.modKey k g).trcSel = s.trcSel := (rfl)
@[simp] theorem State.modKey_engines (s : State) (k : Nat) (g : KeySlot → KeySlot) : (s.modKey k g).engines = s.engines := (rfl)
@[simp] theorem State.modKey_pool (s : State) (k : Nat) (g : KeySlot → KeySlot) : (s.modKey k g).pool = s.pool := (rfl)
@[simp] theorem State.modKey_herds (s : State) (k : Nat) (g : KeySlot → KeySlot) : (s.modKey k g).herds = s.herds := (rfl)
@[simp] theorem State.modKey_mem (s : State) (k : Nat) (g : KeySlot → KeySlot) : (s.modKey k g).mem = s.mem := (rfl)
@[simp] theorem State.modKey_ram (s : State) (k : Nat) (g : KeySlot → KeySlot) : (s.modKey k g).ram = s.ram := (rfl)
@[simp] theorem State.modKey_cache (s : State) (k : Nat) (g : KeySlot → KeySlot) : (s.modKey k g).cache = s.cache := (rfl)
@[simp] theorem State.modKey_cal (s : State) (k : Nat) (g : KeySlot → KeySlot) : (s.modKey k g).cal = s.cal := (rfl)
@[simp] theorem State.modKey_thm (s : State) (k : Nat) (g : KeySlot → KeySlot) : (s.modKey k g).thm = s.thm := (rfl)
@[simp] theorem State.modKey_clk (s : State) (k : Nat) (g : KeySlot → KeySlot) : (s.modKey k g).clk = s.clk := (rfl)
@[simp] theorem State.modKey_isls (s : State) (k : Nat) (g : KeySlot → KeySlot) : (s.modKey k g).isls = s.isls := (rfl)
@[simp] theorem State.modKey_xings (s : State) (k : Nat) (g : KeySlot → KeySlot) : (s.modKey k g).xings = s.xings := (rfl)
@[simp] theorem State.modKey_mbxs (s : State) (k : Nat) (g : KeySlot → KeySlot) : (s.modKey k g).mbxs = s.mbxs := (rfl)
@[simp] theorem State.modKey_evt (s : State) (k : Nat) (g : KeySlot → KeySlot) : (s.modKey k g).evt = s.evt := (rfl)
@[simp] theorem State.modKey_rings (s : State) (k : Nat) (g : KeySlot → KeySlot) : (s.modKey k g).rings = s.rings := (rfl)
@[simp] theorem State.modKey_accs (s : State) (k : Nat) (g : KeySlot → KeySlot) : (s.modKey k g).accs = s.accs := (rfl)
@[simp] theorem State.modKey_tally (s : State) (k : Nat) (g : KeySlot → KeySlot) : (s.modKey k g).tally = s.tally := (rfl)
@[simp] theorem State.modKey_boot (s : State) (k : Nat) (g : KeySlot → KeySlot) : (s.modKey k g).boot = s.boot := (rfl)
@[simp] theorem State.modKey_sans (s : State) (k : Nat) (g : KeySlot → KeySlot) : (s.modKey k g).sans = s.sans := (rfl)
@[simp] theorem State.modKey_fmts (s : State) (k : Nat) (g : KeySlot → KeySlot) : (s.modKey k g).fmts = s.fmts := (rfl)
@[simp] theorem State.modKey_opNext (s : State) (k : Nat) (g : KeySlot → KeySlot) : (s.modKey k g).opNext = s.opNext := (rfl)
@[simp] theorem State.setPort_fn (s : State) (k : Nat) (v : PortSt) (j : Nat) : (s.setPort k v).fn j = s.fn j := (rfl)
@[simp] theorem State.setPort_sq (s : State) (k : Nat) (v : PortSt) (j : Nat) : (s.setPort k v).sq j = s.sq j := (rfl)
@[simp] theorem State.setPort_cq (s : State) (k : Nat) (v : PortSt) (j : Nat) : (s.setPort k v).cq j = s.cq j := (rfl)
@[simp] theorem State.setPort_ns (s : State) (k : Nat) (v : PortSt) (j : Nat) : (s.setPort k v).ns j = s.ns j := (rfl)
@[simp] theorem State.setPort_zone (s : State) (k : Nat) (v : PortSt) (j : Nat) : (s.setPort k v).zone j = s.zone j := (rfl)
@[simp] theorem State.setPort_act (s : State) (k : Nat) (v : PortSt) (j : Nat) : (s.setPort k v).act j = s.act j := (rfl)
@[simp] theorem State.setPort_bay (s : State) (k : Nat) (v : PortSt) (j : Nat) : (s.setPort k v).bay j = s.bay j := (rfl)
@[simp] theorem State.setPort_dom (s : State) (k : Nat) (v : PortSt) (j : Nat) : (s.setPort k v).dom j = s.dom j := (rfl)
@[simp] theorem State.setPort_le (s : State) (k : Nat) (v : PortSt) (j : Nat) : (s.setPort k v).le j = s.le j := (rfl)
@[simp] theorem State.setPort_trc (s : State) (k : Nat) (v : PortSt) (j : Nat) : (s.setPort k v).trc j = s.trc j := (rfl)
@[simp] theorem State.setPort_eng (s : State) (k : Nat) (v : PortSt) (j : Nat) : (s.setPort k v).eng j = s.eng j := (rfl)
@[simp] theorem State.setPort_herd (s : State) (k : Nat) (v : PortSt) (j : Nat) : (s.setPort k v).herd j = s.herd j := (rfl)
@[simp] theorem State.setPort_isl (s : State) (k : Nat) (v : PortSt) (j : Nat) : (s.setPort k v).isl j = s.isl j := (rfl)
@[simp] theorem State.setPort_xing (s : State) (k : Nat) (v : PortSt) (j : Nat) : (s.setPort k v).xing j = s.xing j := (rfl)
@[simp] theorem State.setPort_mbx (s : State) (k : Nat) (v : PortSt) (j : Nat) : (s.setPort k v).mbx j = s.mbx j := (rfl)
@[simp] theorem State.setPort_ring (s : State) (k : Nat) (v : PortSt) (j : Nat) : (s.setPort k v).ring j = s.ring j := (rfl)
@[simp] theorem State.setPort_acc (s : State) (k : Nat) (v : PortSt) (j : Nat) : (s.setPort k v).acc j = s.acc j := (rfl)
@[simp] theorem State.setPort_key (s : State) (k : Nat) (v : PortSt) (j : Nat) : (s.setPort k v).key j = s.key j := (rfl)
@[simp] theorem State.modPort_fn (s : State) (k : Nat) (g : PortSt → PortSt) (j : Nat) : (s.modPort k g).fn j = s.fn j := (rfl)
@[simp] theorem State.modPort_sq (s : State) (k : Nat) (g : PortSt → PortSt) (j : Nat) : (s.modPort k g).sq j = s.sq j := (rfl)
@[simp] theorem State.modPort_cq (s : State) (k : Nat) (g : PortSt → PortSt) (j : Nat) : (s.modPort k g).cq j = s.cq j := (rfl)
@[simp] theorem State.modPort_ns (s : State) (k : Nat) (g : PortSt → PortSt) (j : Nat) : (s.modPort k g).ns j = s.ns j := (rfl)
@[simp] theorem State.modPort_zone (s : State) (k : Nat) (g : PortSt → PortSt) (j : Nat) : (s.modPort k g).zone j = s.zone j := (rfl)
@[simp] theorem State.modPort_act (s : State) (k : Nat) (g : PortSt → PortSt) (j : Nat) : (s.modPort k g).act j = s.act j := (rfl)
@[simp] theorem State.modPort_bay (s : State) (k : Nat) (g : PortSt → PortSt) (j : Nat) : (s.modPort k g).bay j = s.bay j := (rfl)
@[simp] theorem State.modPort_dom (s : State) (k : Nat) (g : PortSt → PortSt) (j : Nat) : (s.modPort k g).dom j = s.dom j := (rfl)
@[simp] theorem State.modPort_le (s : State) (k : Nat) (g : PortSt → PortSt) (j : Nat) : (s.modPort k g).le j = s.le j := (rfl)
@[simp] theorem State.modPort_trc (s : State) (k : Nat) (g : PortSt → PortSt) (j : Nat) : (s.modPort k g).trc j = s.trc j := (rfl)
@[simp] theorem State.modPort_eng (s : State) (k : Nat) (g : PortSt → PortSt) (j : Nat) : (s.modPort k g).eng j = s.eng j := (rfl)
@[simp] theorem State.modPort_herd (s : State) (k : Nat) (g : PortSt → PortSt) (j : Nat) : (s.modPort k g).herd j = s.herd j := (rfl)
@[simp] theorem State.modPort_isl (s : State) (k : Nat) (g : PortSt → PortSt) (j : Nat) : (s.modPort k g).isl j = s.isl j := (rfl)
@[simp] theorem State.modPort_xing (s : State) (k : Nat) (g : PortSt → PortSt) (j : Nat) : (s.modPort k g).xing j = s.xing j := (rfl)
@[simp] theorem State.modPort_mbx (s : State) (k : Nat) (g : PortSt → PortSt) (j : Nat) : (s.modPort k g).mbx j = s.mbx j := (rfl)
@[simp] theorem State.modPort_ring (s : State) (k : Nat) (g : PortSt → PortSt) (j : Nat) : (s.modPort k g).ring j = s.ring j := (rfl)
@[simp] theorem State.modPort_acc (s : State) (k : Nat) (g : PortSt → PortSt) (j : Nat) : (s.modPort k g).acc j = s.acc j := (rfl)
@[simp] theorem State.modPort_key (s : State) (k : Nat) (g : PortSt → PortSt) (j : Nat) : (s.modPort k g).key j = s.key j := (rfl)
@[simp] theorem State.setFn_port (s : State) (k : Nat) (v : FnSt) (j : Nat) : (s.setFn k v).port j = s.port j := (rfl)
@[simp] theorem State.setFn_sq (s : State) (k : Nat) (v : FnSt) (j : Nat) : (s.setFn k v).sq j = s.sq j := (rfl)
@[simp] theorem State.setFn_cq (s : State) (k : Nat) (v : FnSt) (j : Nat) : (s.setFn k v).cq j = s.cq j := (rfl)
@[simp] theorem State.setFn_ns (s : State) (k : Nat) (v : FnSt) (j : Nat) : (s.setFn k v).ns j = s.ns j := (rfl)
@[simp] theorem State.setFn_zone (s : State) (k : Nat) (v : FnSt) (j : Nat) : (s.setFn k v).zone j = s.zone j := (rfl)
@[simp] theorem State.setFn_act (s : State) (k : Nat) (v : FnSt) (j : Nat) : (s.setFn k v).act j = s.act j := (rfl)
@[simp] theorem State.setFn_bay (s : State) (k : Nat) (v : FnSt) (j : Nat) : (s.setFn k v).bay j = s.bay j := (rfl)
@[simp] theorem State.setFn_dom (s : State) (k : Nat) (v : FnSt) (j : Nat) : (s.setFn k v).dom j = s.dom j := (rfl)
@[simp] theorem State.setFn_le (s : State) (k : Nat) (v : FnSt) (j : Nat) : (s.setFn k v).le j = s.le j := (rfl)
@[simp] theorem State.setFn_trc (s : State) (k : Nat) (v : FnSt) (j : Nat) : (s.setFn k v).trc j = s.trc j := (rfl)
@[simp] theorem State.setFn_eng (s : State) (k : Nat) (v : FnSt) (j : Nat) : (s.setFn k v).eng j = s.eng j := (rfl)
@[simp] theorem State.setFn_herd (s : State) (k : Nat) (v : FnSt) (j : Nat) : (s.setFn k v).herd j = s.herd j := (rfl)
@[simp] theorem State.setFn_isl (s : State) (k : Nat) (v : FnSt) (j : Nat) : (s.setFn k v).isl j = s.isl j := (rfl)
@[simp] theorem State.setFn_xing (s : State) (k : Nat) (v : FnSt) (j : Nat) : (s.setFn k v).xing j = s.xing j := (rfl)
@[simp] theorem State.setFn_mbx (s : State) (k : Nat) (v : FnSt) (j : Nat) : (s.setFn k v).mbx j = s.mbx j := (rfl)
@[simp] theorem State.setFn_ring (s : State) (k : Nat) (v : FnSt) (j : Nat) : (s.setFn k v).ring j = s.ring j := (rfl)
@[simp] theorem State.setFn_acc (s : State) (k : Nat) (v : FnSt) (j : Nat) : (s.setFn k v).acc j = s.acc j := (rfl)
@[simp] theorem State.setFn_key (s : State) (k : Nat) (v : FnSt) (j : Nat) : (s.setFn k v).key j = s.key j := (rfl)
@[simp] theorem State.modFn_port (s : State) (k : Nat) (g : FnSt → FnSt) (j : Nat) : (s.modFn k g).port j = s.port j := (rfl)
@[simp] theorem State.modFn_sq (s : State) (k : Nat) (g : FnSt → FnSt) (j : Nat) : (s.modFn k g).sq j = s.sq j := (rfl)
@[simp] theorem State.modFn_cq (s : State) (k : Nat) (g : FnSt → FnSt) (j : Nat) : (s.modFn k g).cq j = s.cq j := (rfl)
@[simp] theorem State.modFn_ns (s : State) (k : Nat) (g : FnSt → FnSt) (j : Nat) : (s.modFn k g).ns j = s.ns j := (rfl)
@[simp] theorem State.modFn_zone (s : State) (k : Nat) (g : FnSt → FnSt) (j : Nat) : (s.modFn k g).zone j = s.zone j := (rfl)
@[simp] theorem State.modFn_act (s : State) (k : Nat) (g : FnSt → FnSt) (j : Nat) : (s.modFn k g).act j = s.act j := (rfl)
@[simp] theorem State.modFn_bay (s : State) (k : Nat) (g : FnSt → FnSt) (j : Nat) : (s.modFn k g).bay j = s.bay j := (rfl)
@[simp] theorem State.modFn_dom (s : State) (k : Nat) (g : FnSt → FnSt) (j : Nat) : (s.modFn k g).dom j = s.dom j := (rfl)
@[simp] theorem State.modFn_le (s : State) (k : Nat) (g : FnSt → FnSt) (j : Nat) : (s.modFn k g).le j = s.le j := (rfl)
@[simp] theorem State.modFn_trc (s : State) (k : Nat) (g : FnSt → FnSt) (j : Nat) : (s.modFn k g).trc j = s.trc j := (rfl)
@[simp] theorem State.modFn_eng (s : State) (k : Nat) (g : FnSt → FnSt) (j : Nat) : (s.modFn k g).eng j = s.eng j := (rfl)
@[simp] theorem State.modFn_herd (s : State) (k : Nat) (g : FnSt → FnSt) (j : Nat) : (s.modFn k g).herd j = s.herd j := (rfl)
@[simp] theorem State.modFn_isl (s : State) (k : Nat) (g : FnSt → FnSt) (j : Nat) : (s.modFn k g).isl j = s.isl j := (rfl)
@[simp] theorem State.modFn_xing (s : State) (k : Nat) (g : FnSt → FnSt) (j : Nat) : (s.modFn k g).xing j = s.xing j := (rfl)
@[simp] theorem State.modFn_mbx (s : State) (k : Nat) (g : FnSt → FnSt) (j : Nat) : (s.modFn k g).mbx j = s.mbx j := (rfl)
@[simp] theorem State.modFn_ring (s : State) (k : Nat) (g : FnSt → FnSt) (j : Nat) : (s.modFn k g).ring j = s.ring j := (rfl)
@[simp] theorem State.modFn_acc (s : State) (k : Nat) (g : FnSt → FnSt) (j : Nat) : (s.modFn k g).acc j = s.acc j := (rfl)
@[simp] theorem State.modFn_key (s : State) (k : Nat) (g : FnSt → FnSt) (j : Nat) : (s.modFn k g).key j = s.key j := (rfl)
@[simp] theorem State.setSq_port (s : State) (k : Nat) (v : Sq) (j : Nat) : (s.setSq k v).port j = s.port j := (rfl)
@[simp] theorem State.setSq_fn (s : State) (k : Nat) (v : Sq) (j : Nat) : (s.setSq k v).fn j = s.fn j := (rfl)
@[simp] theorem State.setSq_cq (s : State) (k : Nat) (v : Sq) (j : Nat) : (s.setSq k v).cq j = s.cq j := (rfl)
@[simp] theorem State.setSq_ns (s : State) (k : Nat) (v : Sq) (j : Nat) : (s.setSq k v).ns j = s.ns j := (rfl)
@[simp] theorem State.setSq_zone (s : State) (k : Nat) (v : Sq) (j : Nat) : (s.setSq k v).zone j = s.zone j := (rfl)
@[simp] theorem State.setSq_act (s : State) (k : Nat) (v : Sq) (j : Nat) : (s.setSq k v).act j = s.act j := (rfl)
@[simp] theorem State.setSq_bay (s : State) (k : Nat) (v : Sq) (j : Nat) : (s.setSq k v).bay j = s.bay j := (rfl)
@[simp] theorem State.setSq_dom (s : State) (k : Nat) (v : Sq) (j : Nat) : (s.setSq k v).dom j = s.dom j := (rfl)
@[simp] theorem State.setSq_le (s : State) (k : Nat) (v : Sq) (j : Nat) : (s.setSq k v).le j = s.le j := (rfl)
@[simp] theorem State.setSq_trc (s : State) (k : Nat) (v : Sq) (j : Nat) : (s.setSq k v).trc j = s.trc j := (rfl)
@[simp] theorem State.setSq_eng (s : State) (k : Nat) (v : Sq) (j : Nat) : (s.setSq k v).eng j = s.eng j := (rfl)
@[simp] theorem State.setSq_herd (s : State) (k : Nat) (v : Sq) (j : Nat) : (s.setSq k v).herd j = s.herd j := (rfl)
@[simp] theorem State.setSq_isl (s : State) (k : Nat) (v : Sq) (j : Nat) : (s.setSq k v).isl j = s.isl j := (rfl)
@[simp] theorem State.setSq_xing (s : State) (k : Nat) (v : Sq) (j : Nat) : (s.setSq k v).xing j = s.xing j := (rfl)
@[simp] theorem State.setSq_mbx (s : State) (k : Nat) (v : Sq) (j : Nat) : (s.setSq k v).mbx j = s.mbx j := (rfl)
@[simp] theorem State.setSq_ring (s : State) (k : Nat) (v : Sq) (j : Nat) : (s.setSq k v).ring j = s.ring j := (rfl)
@[simp] theorem State.setSq_acc (s : State) (k : Nat) (v : Sq) (j : Nat) : (s.setSq k v).acc j = s.acc j := (rfl)
@[simp] theorem State.setSq_key (s : State) (k : Nat) (v : Sq) (j : Nat) : (s.setSq k v).key j = s.key j := (rfl)
@[simp] theorem State.modSq_port (s : State) (k : Nat) (g : Sq → Sq) (j : Nat) : (s.modSq k g).port j = s.port j := (rfl)
@[simp] theorem State.modSq_fn (s : State) (k : Nat) (g : Sq → Sq) (j : Nat) : (s.modSq k g).fn j = s.fn j := (rfl)
@[simp] theorem State.modSq_cq (s : State) (k : Nat) (g : Sq → Sq) (j : Nat) : (s.modSq k g).cq j = s.cq j := (rfl)
@[simp] theorem State.modSq_ns (s : State) (k : Nat) (g : Sq → Sq) (j : Nat) : (s.modSq k g).ns j = s.ns j := (rfl)
@[simp] theorem State.modSq_zone (s : State) (k : Nat) (g : Sq → Sq) (j : Nat) : (s.modSq k g).zone j = s.zone j := (rfl)
@[simp] theorem State.modSq_act (s : State) (k : Nat) (g : Sq → Sq) (j : Nat) : (s.modSq k g).act j = s.act j := (rfl)
@[simp] theorem State.modSq_bay (s : State) (k : Nat) (g : Sq → Sq) (j : Nat) : (s.modSq k g).bay j = s.bay j := (rfl)
@[simp] theorem State.modSq_dom (s : State) (k : Nat) (g : Sq → Sq) (j : Nat) : (s.modSq k g).dom j = s.dom j := (rfl)
@[simp] theorem State.modSq_le (s : State) (k : Nat) (g : Sq → Sq) (j : Nat) : (s.modSq k g).le j = s.le j := (rfl)
@[simp] theorem State.modSq_trc (s : State) (k : Nat) (g : Sq → Sq) (j : Nat) : (s.modSq k g).trc j = s.trc j := (rfl)
@[simp] theorem State.modSq_eng (s : State) (k : Nat) (g : Sq → Sq) (j : Nat) : (s.modSq k g).eng j = s.eng j := (rfl)
@[simp] theorem State.modSq_herd (s : State) (k : Nat) (g : Sq → Sq) (j : Nat) : (s.modSq k g).herd j = s.herd j := (rfl)
@[simp] theorem State.modSq_isl (s : State) (k : Nat) (g : Sq → Sq) (j : Nat) : (s.modSq k g).isl j = s.isl j := (rfl)
@[simp] theorem State.modSq_xing (s : State) (k : Nat) (g : Sq → Sq) (j : Nat) : (s.modSq k g).xing j = s.xing j := (rfl)
@[simp] theorem State.modSq_mbx (s : State) (k : Nat) (g : Sq → Sq) (j : Nat) : (s.modSq k g).mbx j = s.mbx j := (rfl)
@[simp] theorem State.modSq_ring (s : State) (k : Nat) (g : Sq → Sq) (j : Nat) : (s.modSq k g).ring j = s.ring j := (rfl)
@[simp] theorem State.modSq_acc (s : State) (k : Nat) (g : Sq → Sq) (j : Nat) : (s.modSq k g).acc j = s.acc j := (rfl)
@[simp] theorem State.modSq_key (s : State) (k : Nat) (g : Sq → Sq) (j : Nat) : (s.modSq k g).key j = s.key j := (rfl)
@[simp] theorem State.setCq_port (s : State) (k : Nat) (v : Cq) (j : Nat) : (s.setCq k v).port j = s.port j := (rfl)
@[simp] theorem State.setCq_fn (s : State) (k : Nat) (v : Cq) (j : Nat) : (s.setCq k v).fn j = s.fn j := (rfl)
@[simp] theorem State.setCq_sq (s : State) (k : Nat) (v : Cq) (j : Nat) : (s.setCq k v).sq j = s.sq j := (rfl)
@[simp] theorem State.setCq_ns (s : State) (k : Nat) (v : Cq) (j : Nat) : (s.setCq k v).ns j = s.ns j := (rfl)
@[simp] theorem State.setCq_zone (s : State) (k : Nat) (v : Cq) (j : Nat) : (s.setCq k v).zone j = s.zone j := (rfl)
@[simp] theorem State.setCq_act (s : State) (k : Nat) (v : Cq) (j : Nat) : (s.setCq k v).act j = s.act j := (rfl)
@[simp] theorem State.setCq_bay (s : State) (k : Nat) (v : Cq) (j : Nat) : (s.setCq k v).bay j = s.bay j := (rfl)
@[simp] theorem State.setCq_dom (s : State) (k : Nat) (v : Cq) (j : Nat) : (s.setCq k v).dom j = s.dom j := (rfl)
@[simp] theorem State.setCq_le (s : State) (k : Nat) (v : Cq) (j : Nat) : (s.setCq k v).le j = s.le j := (rfl)
@[simp] theorem State.setCq_trc (s : State) (k : Nat) (v : Cq) (j : Nat) : (s.setCq k v).trc j = s.trc j := (rfl)
@[simp] theorem State.setCq_eng (s : State) (k : Nat) (v : Cq) (j : Nat) : (s.setCq k v).eng j = s.eng j := (rfl)
@[simp] theorem State.setCq_herd (s : State) (k : Nat) (v : Cq) (j : Nat) : (s.setCq k v).herd j = s.herd j := (rfl)
@[simp] theorem State.setCq_isl (s : State) (k : Nat) (v : Cq) (j : Nat) : (s.setCq k v).isl j = s.isl j := (rfl)
@[simp] theorem State.setCq_xing (s : State) (k : Nat) (v : Cq) (j : Nat) : (s.setCq k v).xing j = s.xing j := (rfl)
@[simp] theorem State.setCq_mbx (s : State) (k : Nat) (v : Cq) (j : Nat) : (s.setCq k v).mbx j = s.mbx j := (rfl)
@[simp] theorem State.setCq_ring (s : State) (k : Nat) (v : Cq) (j : Nat) : (s.setCq k v).ring j = s.ring j := (rfl)
@[simp] theorem State.setCq_acc (s : State) (k : Nat) (v : Cq) (j : Nat) : (s.setCq k v).acc j = s.acc j := (rfl)
@[simp] theorem State.setCq_key (s : State) (k : Nat) (v : Cq) (j : Nat) : (s.setCq k v).key j = s.key j := (rfl)
@[simp] theorem State.modCq_port (s : State) (k : Nat) (g : Cq → Cq) (j : Nat) : (s.modCq k g).port j = s.port j := (rfl)
@[simp] theorem State.modCq_fn (s : State) (k : Nat) (g : Cq → Cq) (j : Nat) : (s.modCq k g).fn j = s.fn j := (rfl)
@[simp] theorem State.modCq_sq (s : State) (k : Nat) (g : Cq → Cq) (j : Nat) : (s.modCq k g).sq j = s.sq j := (rfl)
@[simp] theorem State.modCq_ns (s : State) (k : Nat) (g : Cq → Cq) (j : Nat) : (s.modCq k g).ns j = s.ns j := (rfl)
@[simp] theorem State.modCq_zone (s : State) (k : Nat) (g : Cq → Cq) (j : Nat) : (s.modCq k g).zone j = s.zone j := (rfl)
@[simp] theorem State.modCq_act (s : State) (k : Nat) (g : Cq → Cq) (j : Nat) : (s.modCq k g).act j = s.act j := (rfl)
@[simp] theorem State.modCq_bay (s : State) (k : Nat) (g : Cq → Cq) (j : Nat) : (s.modCq k g).bay j = s.bay j := (rfl)
@[simp] theorem State.modCq_dom (s : State) (k : Nat) (g : Cq → Cq) (j : Nat) : (s.modCq k g).dom j = s.dom j := (rfl)
@[simp] theorem State.modCq_le (s : State) (k : Nat) (g : Cq → Cq) (j : Nat) : (s.modCq k g).le j = s.le j := (rfl)
@[simp] theorem State.modCq_trc (s : State) (k : Nat) (g : Cq → Cq) (j : Nat) : (s.modCq k g).trc j = s.trc j := (rfl)
@[simp] theorem State.modCq_eng (s : State) (k : Nat) (g : Cq → Cq) (j : Nat) : (s.modCq k g).eng j = s.eng j := (rfl)
@[simp] theorem State.modCq_herd (s : State) (k : Nat) (g : Cq → Cq) (j : Nat) : (s.modCq k g).herd j = s.herd j := (rfl)
@[simp] theorem State.modCq_isl (s : State) (k : Nat) (g : Cq → Cq) (j : Nat) : (s.modCq k g).isl j = s.isl j := (rfl)
@[simp] theorem State.modCq_xing (s : State) (k : Nat) (g : Cq → Cq) (j : Nat) : (s.modCq k g).xing j = s.xing j := (rfl)
@[simp] theorem State.modCq_mbx (s : State) (k : Nat) (g : Cq → Cq) (j : Nat) : (s.modCq k g).mbx j = s.mbx j := (rfl)
@[simp] theorem State.modCq_ring (s : State) (k : Nat) (g : Cq → Cq) (j : Nat) : (s.modCq k g).ring j = s.ring j := (rfl)
@[simp] theorem State.modCq_acc (s : State) (k : Nat) (g : Cq → Cq) (j : Nat) : (s.modCq k g).acc j = s.acc j := (rfl)
@[simp] theorem State.modCq_key (s : State) (k : Nat) (g : Cq → Cq) (j : Nat) : (s.modCq k g).key j = s.key j := (rfl)
@[simp] theorem State.setNs_port (s : State) (k : Nat) (v : Ns) (j : Nat) : (s.setNs k v).port j = s.port j := (rfl)
@[simp] theorem State.setNs_fn (s : State) (k : Nat) (v : Ns) (j : Nat) : (s.setNs k v).fn j = s.fn j := (rfl)
@[simp] theorem State.setNs_sq (s : State) (k : Nat) (v : Ns) (j : Nat) : (s.setNs k v).sq j = s.sq j := (rfl)
@[simp] theorem State.setNs_cq (s : State) (k : Nat) (v : Ns) (j : Nat) : (s.setNs k v).cq j = s.cq j := (rfl)
@[simp] theorem State.setNs_zone (s : State) (k : Nat) (v : Ns) (j : Nat) : (s.setNs k v).zone j = s.zone j := (rfl)
@[simp] theorem State.setNs_act (s : State) (k : Nat) (v : Ns) (j : Nat) : (s.setNs k v).act j = s.act j := (rfl)
@[simp] theorem State.setNs_bay (s : State) (k : Nat) (v : Ns) (j : Nat) : (s.setNs k v).bay j = s.bay j := (rfl)
@[simp] theorem State.setNs_dom (s : State) (k : Nat) (v : Ns) (j : Nat) : (s.setNs k v).dom j = s.dom j := (rfl)
@[simp] theorem State.setNs_le (s : State) (k : Nat) (v : Ns) (j : Nat) : (s.setNs k v).le j = s.le j := (rfl)
@[simp] theorem State.setNs_trc (s : State) (k : Nat) (v : Ns) (j : Nat) : (s.setNs k v).trc j = s.trc j := (rfl)
@[simp] theorem State.setNs_eng (s : State) (k : Nat) (v : Ns) (j : Nat) : (s.setNs k v).eng j = s.eng j := (rfl)
@[simp] theorem State.setNs_herd (s : State) (k : Nat) (v : Ns) (j : Nat) : (s.setNs k v).herd j = s.herd j := (rfl)
@[simp] theorem State.setNs_isl (s : State) (k : Nat) (v : Ns) (j : Nat) : (s.setNs k v).isl j = s.isl j := (rfl)
@[simp] theorem State.setNs_xing (s : State) (k : Nat) (v : Ns) (j : Nat) : (s.setNs k v).xing j = s.xing j := (rfl)
@[simp] theorem State.setNs_mbx (s : State) (k : Nat) (v : Ns) (j : Nat) : (s.setNs k v).mbx j = s.mbx j := (rfl)
@[simp] theorem State.setNs_ring (s : State) (k : Nat) (v : Ns) (j : Nat) : (s.setNs k v).ring j = s.ring j := (rfl)
@[simp] theorem State.setNs_acc (s : State) (k : Nat) (v : Ns) (j : Nat) : (s.setNs k v).acc j = s.acc j := (rfl)
@[simp] theorem State.setNs_key (s : State) (k : Nat) (v : Ns) (j : Nat) : (s.setNs k v).key j = s.key j := (rfl)
@[simp] theorem State.modNs_port (s : State) (k : Nat) (g : Ns → Ns) (j : Nat) : (s.modNs k g).port j = s.port j := (rfl)
@[simp] theorem State.modNs_fn (s : State) (k : Nat) (g : Ns → Ns) (j : Nat) : (s.modNs k g).fn j = s.fn j := (rfl)
@[simp] theorem State.modNs_sq (s : State) (k : Nat) (g : Ns → Ns) (j : Nat) : (s.modNs k g).sq j = s.sq j := (rfl)
@[simp] theorem State.modNs_cq (s : State) (k : Nat) (g : Ns → Ns) (j : Nat) : (s.modNs k g).cq j = s.cq j := (rfl)
@[simp] theorem State.modNs_zone (s : State) (k : Nat) (g : Ns → Ns) (j : Nat) : (s.modNs k g).zone j = s.zone j := (rfl)
@[simp] theorem State.modNs_act (s : State) (k : Nat) (g : Ns → Ns) (j : Nat) : (s.modNs k g).act j = s.act j := (rfl)
@[simp] theorem State.modNs_bay (s : State) (k : Nat) (g : Ns → Ns) (j : Nat) : (s.modNs k g).bay j = s.bay j := (rfl)
@[simp] theorem State.modNs_dom (s : State) (k : Nat) (g : Ns → Ns) (j : Nat) : (s.modNs k g).dom j = s.dom j := (rfl)
@[simp] theorem State.modNs_le (s : State) (k : Nat) (g : Ns → Ns) (j : Nat) : (s.modNs k g).le j = s.le j := (rfl)
@[simp] theorem State.modNs_trc (s : State) (k : Nat) (g : Ns → Ns) (j : Nat) : (s.modNs k g).trc j = s.trc j := (rfl)
@[simp] theorem State.modNs_eng (s : State) (k : Nat) (g : Ns → Ns) (j : Nat) : (s.modNs k g).eng j = s.eng j := (rfl)
@[simp] theorem State.modNs_herd (s : State) (k : Nat) (g : Ns → Ns) (j : Nat) : (s.modNs k g).herd j = s.herd j := (rfl)
@[simp] theorem State.modNs_isl (s : State) (k : Nat) (g : Ns → Ns) (j : Nat) : (s.modNs k g).isl j = s.isl j := (rfl)
@[simp] theorem State.modNs_xing (s : State) (k : Nat) (g : Ns → Ns) (j : Nat) : (s.modNs k g).xing j = s.xing j := (rfl)
@[simp] theorem State.modNs_mbx (s : State) (k : Nat) (g : Ns → Ns) (j : Nat) : (s.modNs k g).mbx j = s.mbx j := (rfl)
@[simp] theorem State.modNs_ring (s : State) (k : Nat) (g : Ns → Ns) (j : Nat) : (s.modNs k g).ring j = s.ring j := (rfl)
@[simp] theorem State.modNs_acc (s : State) (k : Nat) (g : Ns → Ns) (j : Nat) : (s.modNs k g).acc j = s.acc j := (rfl)
@[simp] theorem State.modNs_key (s : State) (k : Nat) (g : Ns → Ns) (j : Nat) : (s.modNs k g).key j = s.key j := (rfl)
@[simp] theorem State.setZone_port (s : State) (k : Nat) (v : Zone) (j : Nat) : (s.setZone k v).port j = s.port j := (rfl)
@[simp] theorem State.setZone_fn (s : State) (k : Nat) (v : Zone) (j : Nat) : (s.setZone k v).fn j = s.fn j := (rfl)
@[simp] theorem State.setZone_sq (s : State) (k : Nat) (v : Zone) (j : Nat) : (s.setZone k v).sq j = s.sq j := (rfl)
@[simp] theorem State.setZone_cq (s : State) (k : Nat) (v : Zone) (j : Nat) : (s.setZone k v).cq j = s.cq j := (rfl)
@[simp] theorem State.setZone_ns (s : State) (k : Nat) (v : Zone) (j : Nat) : (s.setZone k v).ns j = s.ns j := (rfl)
@[simp] theorem State.setZone_act (s : State) (k : Nat) (v : Zone) (j : Nat) : (s.setZone k v).act j = s.act j := (rfl)
@[simp] theorem State.setZone_bay (s : State) (k : Nat) (v : Zone) (j : Nat) : (s.setZone k v).bay j = s.bay j := (rfl)
@[simp] theorem State.setZone_dom (s : State) (k : Nat) (v : Zone) (j : Nat) : (s.setZone k v).dom j = s.dom j := (rfl)
@[simp] theorem State.setZone_le (s : State) (k : Nat) (v : Zone) (j : Nat) : (s.setZone k v).le j = s.le j := (rfl)
@[simp] theorem State.setZone_trc (s : State) (k : Nat) (v : Zone) (j : Nat) : (s.setZone k v).trc j = s.trc j := (rfl)
@[simp] theorem State.setZone_eng (s : State) (k : Nat) (v : Zone) (j : Nat) : (s.setZone k v).eng j = s.eng j := (rfl)
@[simp] theorem State.setZone_herd (s : State) (k : Nat) (v : Zone) (j : Nat) : (s.setZone k v).herd j = s.herd j := (rfl)
@[simp] theorem State.setZone_isl (s : State) (k : Nat) (v : Zone) (j : Nat) : (s.setZone k v).isl j = s.isl j := (rfl)
@[simp] theorem State.setZone_xing (s : State) (k : Nat) (v : Zone) (j : Nat) : (s.setZone k v).xing j = s.xing j := (rfl)
@[simp] theorem State.setZone_mbx (s : State) (k : Nat) (v : Zone) (j : Nat) : (s.setZone k v).mbx j = s.mbx j := (rfl)
@[simp] theorem State.setZone_ring (s : State) (k : Nat) (v : Zone) (j : Nat) : (s.setZone k v).ring j = s.ring j := (rfl)
@[simp] theorem State.setZone_acc (s : State) (k : Nat) (v : Zone) (j : Nat) : (s.setZone k v).acc j = s.acc j := (rfl)
@[simp] theorem State.setZone_key (s : State) (k : Nat) (v : Zone) (j : Nat) : (s.setZone k v).key j = s.key j := (rfl)
@[simp] theorem State.modZone_port (s : State) (k : Nat) (g : Zone → Zone) (j : Nat) : (s.modZone k g).port j = s.port j := (rfl)
@[simp] theorem State.modZone_fn (s : State) (k : Nat) (g : Zone → Zone) (j : Nat) : (s.modZone k g).fn j = s.fn j := (rfl)
@[simp] theorem State.modZone_sq (s : State) (k : Nat) (g : Zone → Zone) (j : Nat) : (s.modZone k g).sq j = s.sq j := (rfl)
@[simp] theorem State.modZone_cq (s : State) (k : Nat) (g : Zone → Zone) (j : Nat) : (s.modZone k g).cq j = s.cq j := (rfl)
@[simp] theorem State.modZone_ns (s : State) (k : Nat) (g : Zone → Zone) (j : Nat) : (s.modZone k g).ns j = s.ns j := (rfl)
@[simp] theorem State.modZone_act (s : State) (k : Nat) (g : Zone → Zone) (j : Nat) : (s.modZone k g).act j = s.act j := (rfl)
@[simp] theorem State.modZone_bay (s : State) (k : Nat) (g : Zone → Zone) (j : Nat) : (s.modZone k g).bay j = s.bay j := (rfl)
@[simp] theorem State.modZone_dom (s : State) (k : Nat) (g : Zone → Zone) (j : Nat) : (s.modZone k g).dom j = s.dom j := (rfl)
@[simp] theorem State.modZone_le (s : State) (k : Nat) (g : Zone → Zone) (j : Nat) : (s.modZone k g).le j = s.le j := (rfl)
@[simp] theorem State.modZone_trc (s : State) (k : Nat) (g : Zone → Zone) (j : Nat) : (s.modZone k g).trc j = s.trc j := (rfl)
@[simp] theorem State.modZone_eng (s : State) (k : Nat) (g : Zone → Zone) (j : Nat) : (s.modZone k g).eng j = s.eng j := (rfl)
@[simp] theorem State.modZone_herd (s : State) (k : Nat) (g : Zone → Zone) (j : Nat) : (s.modZone k g).herd j = s.herd j := (rfl)
@[simp] theorem State.modZone_isl (s : State) (k : Nat) (g : Zone → Zone) (j : Nat) : (s.modZone k g).isl j = s.isl j := (rfl)
@[simp] theorem State.modZone_xing (s : State) (k : Nat) (g : Zone → Zone) (j : Nat) : (s.modZone k g).xing j = s.xing j := (rfl)
@[simp] theorem State.modZone_mbx (s : State) (k : Nat) (g : Zone → Zone) (j : Nat) : (s.modZone k g).mbx j = s.mbx j := (rfl)
@[simp] theorem State.modZone_ring (s : State) (k : Nat) (g : Zone → Zone) (j : Nat) : (s.modZone k g).ring j = s.ring j := (rfl)
@[simp] theorem State.modZone_acc (s : State) (k : Nat) (g : Zone → Zone) (j : Nat) : (s.modZone k g).acc j = s.acc j := (rfl)
@[simp] theorem State.modZone_key (s : State) (k : Nat) (g : Zone → Zone) (j : Nat) : (s.modZone k g).key j = s.key j := (rfl)
@[simp] theorem State.setAct_port (s : State) (k : Nat) (v : ActSt) (j : Nat) : (s.setAct k v).port j = s.port j := (rfl)
@[simp] theorem State.setAct_fn (s : State) (k : Nat) (v : ActSt) (j : Nat) : (s.setAct k v).fn j = s.fn j := (rfl)
@[simp] theorem State.setAct_sq (s : State) (k : Nat) (v : ActSt) (j : Nat) : (s.setAct k v).sq j = s.sq j := (rfl)
@[simp] theorem State.setAct_cq (s : State) (k : Nat) (v : ActSt) (j : Nat) : (s.setAct k v).cq j = s.cq j := (rfl)
@[simp] theorem State.setAct_ns (s : State) (k : Nat) (v : ActSt) (j : Nat) : (s.setAct k v).ns j = s.ns j := (rfl)
@[simp] theorem State.setAct_zone (s : State) (k : Nat) (v : ActSt) (j : Nat) : (s.setAct k v).zone j = s.zone j := (rfl)
@[simp] theorem State.setAct_bay (s : State) (k : Nat) (v : ActSt) (j : Nat) : (s.setAct k v).bay j = s.bay j := (rfl)
@[simp] theorem State.setAct_dom (s : State) (k : Nat) (v : ActSt) (j : Nat) : (s.setAct k v).dom j = s.dom j := (rfl)
@[simp] theorem State.setAct_le (s : State) (k : Nat) (v : ActSt) (j : Nat) : (s.setAct k v).le j = s.le j := (rfl)
@[simp] theorem State.setAct_trc (s : State) (k : Nat) (v : ActSt) (j : Nat) : (s.setAct k v).trc j = s.trc j := (rfl)
@[simp] theorem State.setAct_eng (s : State) (k : Nat) (v : ActSt) (j : Nat) : (s.setAct k v).eng j = s.eng j := (rfl)
@[simp] theorem State.setAct_herd (s : State) (k : Nat) (v : ActSt) (j : Nat) : (s.setAct k v).herd j = s.herd j := (rfl)
@[simp] theorem State.setAct_isl (s : State) (k : Nat) (v : ActSt) (j : Nat) : (s.setAct k v).isl j = s.isl j := (rfl)
@[simp] theorem State.setAct_xing (s : State) (k : Nat) (v : ActSt) (j : Nat) : (s.setAct k v).xing j = s.xing j := (rfl)
@[simp] theorem State.setAct_mbx (s : State) (k : Nat) (v : ActSt) (j : Nat) : (s.setAct k v).mbx j = s.mbx j := (rfl)
@[simp] theorem State.setAct_ring (s : State) (k : Nat) (v : ActSt) (j : Nat) : (s.setAct k v).ring j = s.ring j := (rfl)
@[simp] theorem State.setAct_acc (s : State) (k : Nat) (v : ActSt) (j : Nat) : (s.setAct k v).acc j = s.acc j := (rfl)
@[simp] theorem State.setAct_key (s : State) (k : Nat) (v : ActSt) (j : Nat) : (s.setAct k v).key j = s.key j := (rfl)
@[simp] theorem State.modAct_port (s : State) (k : Nat) (g : ActSt → ActSt) (j : Nat) : (s.modAct k g).port j = s.port j := (rfl)
@[simp] theorem State.modAct_fn (s : State) (k : Nat) (g : ActSt → ActSt) (j : Nat) : (s.modAct k g).fn j = s.fn j := (rfl)
@[simp] theorem State.modAct_sq (s : State) (k : Nat) (g : ActSt → ActSt) (j : Nat) : (s.modAct k g).sq j = s.sq j := (rfl)
@[simp] theorem State.modAct_cq (s : State) (k : Nat) (g : ActSt → ActSt) (j : Nat) : (s.modAct k g).cq j = s.cq j := (rfl)
@[simp] theorem State.modAct_ns (s : State) (k : Nat) (g : ActSt → ActSt) (j : Nat) : (s.modAct k g).ns j = s.ns j := (rfl)
@[simp] theorem State.modAct_zone (s : State) (k : Nat) (g : ActSt → ActSt) (j : Nat) : (s.modAct k g).zone j = s.zone j := (rfl)
@[simp] theorem State.modAct_bay (s : State) (k : Nat) (g : ActSt → ActSt) (j : Nat) : (s.modAct k g).bay j = s.bay j := (rfl)
@[simp] theorem State.modAct_dom (s : State) (k : Nat) (g : ActSt → ActSt) (j : Nat) : (s.modAct k g).dom j = s.dom j := (rfl)
@[simp] theorem State.modAct_le (s : State) (k : Nat) (g : ActSt → ActSt) (j : Nat) : (s.modAct k g).le j = s.le j := (rfl)
@[simp] theorem State.modAct_trc (s : State) (k : Nat) (g : ActSt → ActSt) (j : Nat) : (s.modAct k g).trc j = s.trc j := (rfl)
@[simp] theorem State.modAct_eng (s : State) (k : Nat) (g : ActSt → ActSt) (j : Nat) : (s.modAct k g).eng j = s.eng j := (rfl)
@[simp] theorem State.modAct_herd (s : State) (k : Nat) (g : ActSt → ActSt) (j : Nat) : (s.modAct k g).herd j = s.herd j := (rfl)
@[simp] theorem State.modAct_isl (s : State) (k : Nat) (g : ActSt → ActSt) (j : Nat) : (s.modAct k g).isl j = s.isl j := (rfl)
@[simp] theorem State.modAct_xing (s : State) (k : Nat) (g : ActSt → ActSt) (j : Nat) : (s.modAct k g).xing j = s.xing j := (rfl)
@[simp] theorem State.modAct_mbx (s : State) (k : Nat) (g : ActSt → ActSt) (j : Nat) : (s.modAct k g).mbx j = s.mbx j := (rfl)
@[simp] theorem State.modAct_ring (s : State) (k : Nat) (g : ActSt → ActSt) (j : Nat) : (s.modAct k g).ring j = s.ring j := (rfl)
@[simp] theorem State.modAct_acc (s : State) (k : Nat) (g : ActSt → ActSt) (j : Nat) : (s.modAct k g).acc j = s.acc j := (rfl)
@[simp] theorem State.modAct_key (s : State) (k : Nat) (g : ActSt → ActSt) (j : Nat) : (s.modAct k g).key j = s.key j := (rfl)
@[simp] theorem State.setBay_port (s : State) (k : Nat) (v : BaySt) (j : Nat) : (s.setBay k v).port j = s.port j := (rfl)
@[simp] theorem State.setBay_fn (s : State) (k : Nat) (v : BaySt) (j : Nat) : (s.setBay k v).fn j = s.fn j := (rfl)
@[simp] theorem State.setBay_sq (s : State) (k : Nat) (v : BaySt) (j : Nat) : (s.setBay k v).sq j = s.sq j := (rfl)
@[simp] theorem State.setBay_cq (s : State) (k : Nat) (v : BaySt) (j : Nat) : (s.setBay k v).cq j = s.cq j := (rfl)
@[simp] theorem State.setBay_ns (s : State) (k : Nat) (v : BaySt) (j : Nat) : (s.setBay k v).ns j = s.ns j := (rfl)
@[simp] theorem State.setBay_zone (s : State) (k : Nat) (v : BaySt) (j : Nat) : (s.setBay k v).zone j = s.zone j := (rfl)
@[simp] theorem State.setBay_act (s : State) (k : Nat) (v : BaySt) (j : Nat) : (s.setBay k v).act j = s.act j := (rfl)
@[simp] theorem State.setBay_dom (s : State) (k : Nat) (v : BaySt) (j : Nat) : (s.setBay k v).dom j = s.dom j := (rfl)
@[simp] theorem State.setBay_le (s : State) (k : Nat) (v : BaySt) (j : Nat) : (s.setBay k v).le j = s.le j := (rfl)
@[simp] theorem State.setBay_trc (s : State) (k : Nat) (v : BaySt) (j : Nat) : (s.setBay k v).trc j = s.trc j := (rfl)
@[simp] theorem State.setBay_eng (s : State) (k : Nat) (v : BaySt) (j : Nat) : (s.setBay k v).eng j = s.eng j := (rfl)
@[simp] theorem State.setBay_herd (s : State) (k : Nat) (v : BaySt) (j : Nat) : (s.setBay k v).herd j = s.herd j := (rfl)
@[simp] theorem State.setBay_isl (s : State) (k : Nat) (v : BaySt) (j : Nat) : (s.setBay k v).isl j = s.isl j := (rfl)
@[simp] theorem State.setBay_xing (s : State) (k : Nat) (v : BaySt) (j : Nat) : (s.setBay k v).xing j = s.xing j := (rfl)
@[simp] theorem State.setBay_mbx (s : State) (k : Nat) (v : BaySt) (j : Nat) : (s.setBay k v).mbx j = s.mbx j := (rfl)
@[simp] theorem State.setBay_ring (s : State) (k : Nat) (v : BaySt) (j : Nat) : (s.setBay k v).ring j = s.ring j := (rfl)
@[simp] theorem State.setBay_acc (s : State) (k : Nat) (v : BaySt) (j : Nat) : (s.setBay k v).acc j = s.acc j := (rfl)
@[simp] theorem State.setBay_key (s : State) (k : Nat) (v : BaySt) (j : Nat) : (s.setBay k v).key j = s.key j := (rfl)
@[simp] theorem State.modBay_port (s : State) (k : Nat) (g : BaySt → BaySt) (j : Nat) : (s.modBay k g).port j = s.port j := (rfl)
@[simp] theorem State.modBay_fn (s : State) (k : Nat) (g : BaySt → BaySt) (j : Nat) : (s.modBay k g).fn j = s.fn j := (rfl)
@[simp] theorem State.modBay_sq (s : State) (k : Nat) (g : BaySt → BaySt) (j : Nat) : (s.modBay k g).sq j = s.sq j := (rfl)
@[simp] theorem State.modBay_cq (s : State) (k : Nat) (g : BaySt → BaySt) (j : Nat) : (s.modBay k g).cq j = s.cq j := (rfl)
@[simp] theorem State.modBay_ns (s : State) (k : Nat) (g : BaySt → BaySt) (j : Nat) : (s.modBay k g).ns j = s.ns j := (rfl)
@[simp] theorem State.modBay_zone (s : State) (k : Nat) (g : BaySt → BaySt) (j : Nat) : (s.modBay k g).zone j = s.zone j := (rfl)
@[simp] theorem State.modBay_act (s : State) (k : Nat) (g : BaySt → BaySt) (j : Nat) : (s.modBay k g).act j = s.act j := (rfl)
@[simp] theorem State.modBay_dom (s : State) (k : Nat) (g : BaySt → BaySt) (j : Nat) : (s.modBay k g).dom j = s.dom j := (rfl)
@[simp] theorem State.modBay_le (s : State) (k : Nat) (g : BaySt → BaySt) (j : Nat) : (s.modBay k g).le j = s.le j := (rfl)
@[simp] theorem State.modBay_trc (s : State) (k : Nat) (g : BaySt → BaySt) (j : Nat) : (s.modBay k g).trc j = s.trc j := (rfl)
@[simp] theorem State.modBay_eng (s : State) (k : Nat) (g : BaySt → BaySt) (j : Nat) : (s.modBay k g).eng j = s.eng j := (rfl)
@[simp] theorem State.modBay_herd (s : State) (k : Nat) (g : BaySt → BaySt) (j : Nat) : (s.modBay k g).herd j = s.herd j := (rfl)
@[simp] theorem State.modBay_isl (s : State) (k : Nat) (g : BaySt → BaySt) (j : Nat) : (s.modBay k g).isl j = s.isl j := (rfl)
@[simp] theorem State.modBay_xing (s : State) (k : Nat) (g : BaySt → BaySt) (j : Nat) : (s.modBay k g).xing j = s.xing j := (rfl)
@[simp] theorem State.modBay_mbx (s : State) (k : Nat) (g : BaySt → BaySt) (j : Nat) : (s.modBay k g).mbx j = s.mbx j := (rfl)
@[simp] theorem State.modBay_ring (s : State) (k : Nat) (g : BaySt → BaySt) (j : Nat) : (s.modBay k g).ring j = s.ring j := (rfl)
@[simp] theorem State.modBay_acc (s : State) (k : Nat) (g : BaySt → BaySt) (j : Nat) : (s.modBay k g).acc j = s.acc j := (rfl)
@[simp] theorem State.modBay_key (s : State) (k : Nat) (g : BaySt → BaySt) (j : Nat) : (s.modBay k g).key j = s.key j := (rfl)
@[simp] theorem State.setDom_port (s : State) (k : Nat) (v : Dom) (j : Nat) : (s.setDom k v).port j = s.port j := (rfl)
@[simp] theorem State.setDom_fn (s : State) (k : Nat) (v : Dom) (j : Nat) : (s.setDom k v).fn j = s.fn j := (rfl)
@[simp] theorem State.setDom_sq (s : State) (k : Nat) (v : Dom) (j : Nat) : (s.setDom k v).sq j = s.sq j := (rfl)
@[simp] theorem State.setDom_cq (s : State) (k : Nat) (v : Dom) (j : Nat) : (s.setDom k v).cq j = s.cq j := (rfl)
@[simp] theorem State.setDom_ns (s : State) (k : Nat) (v : Dom) (j : Nat) : (s.setDom k v).ns j = s.ns j := (rfl)
@[simp] theorem State.setDom_zone (s : State) (k : Nat) (v : Dom) (j : Nat) : (s.setDom k v).zone j = s.zone j := (rfl)
@[simp] theorem State.setDom_act (s : State) (k : Nat) (v : Dom) (j : Nat) : (s.setDom k v).act j = s.act j := (rfl)
@[simp] theorem State.setDom_bay (s : State) (k : Nat) (v : Dom) (j : Nat) : (s.setDom k v).bay j = s.bay j := (rfl)
@[simp] theorem State.setDom_le (s : State) (k : Nat) (v : Dom) (j : Nat) : (s.setDom k v).le j = s.le j := (rfl)
@[simp] theorem State.setDom_trc (s : State) (k : Nat) (v : Dom) (j : Nat) : (s.setDom k v).trc j = s.trc j := (rfl)
@[simp] theorem State.setDom_eng (s : State) (k : Nat) (v : Dom) (j : Nat) : (s.setDom k v).eng j = s.eng j := (rfl)
@[simp] theorem State.setDom_herd (s : State) (k : Nat) (v : Dom) (j : Nat) : (s.setDom k v).herd j = s.herd j := (rfl)
@[simp] theorem State.setDom_isl (s : State) (k : Nat) (v : Dom) (j : Nat) : (s.setDom k v).isl j = s.isl j := (rfl)
@[simp] theorem State.setDom_xing (s : State) (k : Nat) (v : Dom) (j : Nat) : (s.setDom k v).xing j = s.xing j := (rfl)
@[simp] theorem State.setDom_mbx (s : State) (k : Nat) (v : Dom) (j : Nat) : (s.setDom k v).mbx j = s.mbx j := (rfl)
@[simp] theorem State.setDom_ring (s : State) (k : Nat) (v : Dom) (j : Nat) : (s.setDom k v).ring j = s.ring j := (rfl)
@[simp] theorem State.setDom_acc (s : State) (k : Nat) (v : Dom) (j : Nat) : (s.setDom k v).acc j = s.acc j := (rfl)
@[simp] theorem State.setDom_key (s : State) (k : Nat) (v : Dom) (j : Nat) : (s.setDom k v).key j = s.key j := (rfl)
@[simp] theorem State.modDom_port (s : State) (k : Nat) (g : Dom → Dom) (j : Nat) : (s.modDom k g).port j = s.port j := (rfl)
@[simp] theorem State.modDom_fn (s : State) (k : Nat) (g : Dom → Dom) (j : Nat) : (s.modDom k g).fn j = s.fn j := (rfl)
@[simp] theorem State.modDom_sq (s : State) (k : Nat) (g : Dom → Dom) (j : Nat) : (s.modDom k g).sq j = s.sq j := (rfl)
@[simp] theorem State.modDom_cq (s : State) (k : Nat) (g : Dom → Dom) (j : Nat) : (s.modDom k g).cq j = s.cq j := (rfl)
@[simp] theorem State.modDom_ns (s : State) (k : Nat) (g : Dom → Dom) (j : Nat) : (s.modDom k g).ns j = s.ns j := (rfl)
@[simp] theorem State.modDom_zone (s : State) (k : Nat) (g : Dom → Dom) (j : Nat) : (s.modDom k g).zone j = s.zone j := (rfl)
@[simp] theorem State.modDom_act (s : State) (k : Nat) (g : Dom → Dom) (j : Nat) : (s.modDom k g).act j = s.act j := (rfl)
@[simp] theorem State.modDom_bay (s : State) (k : Nat) (g : Dom → Dom) (j : Nat) : (s.modDom k g).bay j = s.bay j := (rfl)
@[simp] theorem State.modDom_le (s : State) (k : Nat) (g : Dom → Dom) (j : Nat) : (s.modDom k g).le j = s.le j := (rfl)
@[simp] theorem State.modDom_trc (s : State) (k : Nat) (g : Dom → Dom) (j : Nat) : (s.modDom k g).trc j = s.trc j := (rfl)
@[simp] theorem State.modDom_eng (s : State) (k : Nat) (g : Dom → Dom) (j : Nat) : (s.modDom k g).eng j = s.eng j := (rfl)
@[simp] theorem State.modDom_herd (s : State) (k : Nat) (g : Dom → Dom) (j : Nat) : (s.modDom k g).herd j = s.herd j := (rfl)
@[simp] theorem State.modDom_isl (s : State) (k : Nat) (g : Dom → Dom) (j : Nat) : (s.modDom k g).isl j = s.isl j := (rfl)
@[simp] theorem State.modDom_xing (s : State) (k : Nat) (g : Dom → Dom) (j : Nat) : (s.modDom k g).xing j = s.xing j := (rfl)
@[simp] theorem State.modDom_mbx (s : State) (k : Nat) (g : Dom → Dom) (j : Nat) : (s.modDom k g).mbx j = s.mbx j := (rfl)
@[simp] theorem State.modDom_ring (s : State) (k : Nat) (g : Dom → Dom) (j : Nat) : (s.modDom k g).ring j = s.ring j := (rfl)
@[simp] theorem State.modDom_acc (s : State) (k : Nat) (g : Dom → Dom) (j : Nat) : (s.modDom k g).acc j = s.acc j := (rfl)
@[simp] theorem State.modDom_key (s : State) (k : Nat) (g : Dom → Dom) (j : Nat) : (s.modDom k g).key j = s.key j := (rfl)
@[simp] theorem State.setLe_port (s : State) (k : Nat) (v : LoopEng) (j : Nat) : (s.setLe k v).port j = s.port j := (rfl)
@[simp] theorem State.setLe_fn (s : State) (k : Nat) (v : LoopEng) (j : Nat) : (s.setLe k v).fn j = s.fn j := (rfl)
@[simp] theorem State.setLe_sq (s : State) (k : Nat) (v : LoopEng) (j : Nat) : (s.setLe k v).sq j = s.sq j := (rfl)
@[simp] theorem State.setLe_cq (s : State) (k : Nat) (v : LoopEng) (j : Nat) : (s.setLe k v).cq j = s.cq j := (rfl)
@[simp] theorem State.setLe_ns (s : State) (k : Nat) (v : LoopEng) (j : Nat) : (s.setLe k v).ns j = s.ns j := (rfl)
@[simp] theorem State.setLe_zone (s : State) (k : Nat) (v : LoopEng) (j : Nat) : (s.setLe k v).zone j = s.zone j := (rfl)
@[simp] theorem State.setLe_act (s : State) (k : Nat) (v : LoopEng) (j : Nat) : (s.setLe k v).act j = s.act j := (rfl)
@[simp] theorem State.setLe_bay (s : State) (k : Nat) (v : LoopEng) (j : Nat) : (s.setLe k v).bay j = s.bay j := (rfl)
@[simp] theorem State.setLe_dom (s : State) (k : Nat) (v : LoopEng) (j : Nat) : (s.setLe k v).dom j = s.dom j := (rfl)
@[simp] theorem State.setLe_trc (s : State) (k : Nat) (v : LoopEng) (j : Nat) : (s.setLe k v).trc j = s.trc j := (rfl)
@[simp] theorem State.setLe_eng (s : State) (k : Nat) (v : LoopEng) (j : Nat) : (s.setLe k v).eng j = s.eng j := (rfl)
@[simp] theorem State.setLe_herd (s : State) (k : Nat) (v : LoopEng) (j : Nat) : (s.setLe k v).herd j = s.herd j := (rfl)
@[simp] theorem State.setLe_isl (s : State) (k : Nat) (v : LoopEng) (j : Nat) : (s.setLe k v).isl j = s.isl j := (rfl)
@[simp] theorem State.setLe_xing (s : State) (k : Nat) (v : LoopEng) (j : Nat) : (s.setLe k v).xing j = s.xing j := (rfl)
@[simp] theorem State.setLe_mbx (s : State) (k : Nat) (v : LoopEng) (j : Nat) : (s.setLe k v).mbx j = s.mbx j := (rfl)
@[simp] theorem State.setLe_ring (s : State) (k : Nat) (v : LoopEng) (j : Nat) : (s.setLe k v).ring j = s.ring j := (rfl)
@[simp] theorem State.setLe_acc (s : State) (k : Nat) (v : LoopEng) (j : Nat) : (s.setLe k v).acc j = s.acc j := (rfl)
@[simp] theorem State.setLe_key (s : State) (k : Nat) (v : LoopEng) (j : Nat) : (s.setLe k v).key j = s.key j := (rfl)
@[simp] theorem State.modLe_port (s : State) (k : Nat) (g : LoopEng → LoopEng) (j : Nat) : (s.modLe k g).port j = s.port j := (rfl)
@[simp] theorem State.modLe_fn (s : State) (k : Nat) (g : LoopEng → LoopEng) (j : Nat) : (s.modLe k g).fn j = s.fn j := (rfl)
@[simp] theorem State.modLe_sq (s : State) (k : Nat) (g : LoopEng → LoopEng) (j : Nat) : (s.modLe k g).sq j = s.sq j := (rfl)
@[simp] theorem State.modLe_cq (s : State) (k : Nat) (g : LoopEng → LoopEng) (j : Nat) : (s.modLe k g).cq j = s.cq j := (rfl)
@[simp] theorem State.modLe_ns (s : State) (k : Nat) (g : LoopEng → LoopEng) (j : Nat) : (s.modLe k g).ns j = s.ns j := (rfl)
@[simp] theorem State.modLe_zone (s : State) (k : Nat) (g : LoopEng → LoopEng) (j : Nat) : (s.modLe k g).zone j = s.zone j := (rfl)
@[simp] theorem State.modLe_act (s : State) (k : Nat) (g : LoopEng → LoopEng) (j : Nat) : (s.modLe k g).act j = s.act j := (rfl)
@[simp] theorem State.modLe_bay (s : State) (k : Nat) (g : LoopEng → LoopEng) (j : Nat) : (s.modLe k g).bay j = s.bay j := (rfl)
@[simp] theorem State.modLe_dom (s : State) (k : Nat) (g : LoopEng → LoopEng) (j : Nat) : (s.modLe k g).dom j = s.dom j := (rfl)
@[simp] theorem State.modLe_trc (s : State) (k : Nat) (g : LoopEng → LoopEng) (j : Nat) : (s.modLe k g).trc j = s.trc j := (rfl)
@[simp] theorem State.modLe_eng (s : State) (k : Nat) (g : LoopEng → LoopEng) (j : Nat) : (s.modLe k g).eng j = s.eng j := (rfl)
@[simp] theorem State.modLe_herd (s : State) (k : Nat) (g : LoopEng → LoopEng) (j : Nat) : (s.modLe k g).herd j = s.herd j := (rfl)
@[simp] theorem State.modLe_isl (s : State) (k : Nat) (g : LoopEng → LoopEng) (j : Nat) : (s.modLe k g).isl j = s.isl j := (rfl)
@[simp] theorem State.modLe_xing (s : State) (k : Nat) (g : LoopEng → LoopEng) (j : Nat) : (s.modLe k g).xing j = s.xing j := (rfl)
@[simp] theorem State.modLe_mbx (s : State) (k : Nat) (g : LoopEng → LoopEng) (j : Nat) : (s.modLe k g).mbx j = s.mbx j := (rfl)
@[simp] theorem State.modLe_ring (s : State) (k : Nat) (g : LoopEng → LoopEng) (j : Nat) : (s.modLe k g).ring j = s.ring j := (rfl)
@[simp] theorem State.modLe_acc (s : State) (k : Nat) (g : LoopEng → LoopEng) (j : Nat) : (s.modLe k g).acc j = s.acc j := (rfl)
@[simp] theorem State.modLe_key (s : State) (k : Nat) (g : LoopEng → LoopEng) (j : Nat) : (s.modLe k g).key j = s.key j := (rfl)
@[simp] theorem State.setTrc_port (s : State) (k : Nat) (v : Trc) (j : Nat) : (s.setTrc k v).port j = s.port j := (rfl)
@[simp] theorem State.setTrc_fn (s : State) (k : Nat) (v : Trc) (j : Nat) : (s.setTrc k v).fn j = s.fn j := (rfl)
@[simp] theorem State.setTrc_sq (s : State) (k : Nat) (v : Trc) (j : Nat) : (s.setTrc k v).sq j = s.sq j := (rfl)
@[simp] theorem State.setTrc_cq (s : State) (k : Nat) (v : Trc) (j : Nat) : (s.setTrc k v).cq j = s.cq j := (rfl)
@[simp] theorem State.setTrc_ns (s : State) (k : Nat) (v : Trc) (j : Nat) : (s.setTrc k v).ns j = s.ns j := (rfl)
@[simp] theorem State.setTrc_zone (s : State) (k : Nat) (v : Trc) (j : Nat) : (s.setTrc k v).zone j = s.zone j := (rfl)
@[simp] theorem State.setTrc_act (s : State) (k : Nat) (v : Trc) (j : Nat) : (s.setTrc k v).act j = s.act j := (rfl)
@[simp] theorem State.setTrc_bay (s : State) (k : Nat) (v : Trc) (j : Nat) : (s.setTrc k v).bay j = s.bay j := (rfl)
@[simp] theorem State.setTrc_dom (s : State) (k : Nat) (v : Trc) (j : Nat) : (s.setTrc k v).dom j = s.dom j := (rfl)
@[simp] theorem State.setTrc_le (s : State) (k : Nat) (v : Trc) (j : Nat) : (s.setTrc k v).le j = s.le j := (rfl)
@[simp] theorem State.setTrc_eng (s : State) (k : Nat) (v : Trc) (j : Nat) : (s.setTrc k v).eng j = s.eng j := (rfl)
@[simp] theorem State.setTrc_herd (s : State) (k : Nat) (v : Trc) (j : Nat) : (s.setTrc k v).herd j = s.herd j := (rfl)
@[simp] theorem State.setTrc_isl (s : State) (k : Nat) (v : Trc) (j : Nat) : (s.setTrc k v).isl j = s.isl j := (rfl)
@[simp] theorem State.setTrc_xing (s : State) (k : Nat) (v : Trc) (j : Nat) : (s.setTrc k v).xing j = s.xing j := (rfl)
@[simp] theorem State.setTrc_mbx (s : State) (k : Nat) (v : Trc) (j : Nat) : (s.setTrc k v).mbx j = s.mbx j := (rfl)
@[simp] theorem State.setTrc_ring (s : State) (k : Nat) (v : Trc) (j : Nat) : (s.setTrc k v).ring j = s.ring j := (rfl)
@[simp] theorem State.setTrc_acc (s : State) (k : Nat) (v : Trc) (j : Nat) : (s.setTrc k v).acc j = s.acc j := (rfl)
@[simp] theorem State.setTrc_key (s : State) (k : Nat) (v : Trc) (j : Nat) : (s.setTrc k v).key j = s.key j := (rfl)
@[simp] theorem State.modTrc_port (s : State) (k : Nat) (g : Trc → Trc) (j : Nat) : (s.modTrc k g).port j = s.port j := (rfl)
@[simp] theorem State.modTrc_fn (s : State) (k : Nat) (g : Trc → Trc) (j : Nat) : (s.modTrc k g).fn j = s.fn j := (rfl)
@[simp] theorem State.modTrc_sq (s : State) (k : Nat) (g : Trc → Trc) (j : Nat) : (s.modTrc k g).sq j = s.sq j := (rfl)
@[simp] theorem State.modTrc_cq (s : State) (k : Nat) (g : Trc → Trc) (j : Nat) : (s.modTrc k g).cq j = s.cq j := (rfl)
@[simp] theorem State.modTrc_ns (s : State) (k : Nat) (g : Trc → Trc) (j : Nat) : (s.modTrc k g).ns j = s.ns j := (rfl)
@[simp] theorem State.modTrc_zone (s : State) (k : Nat) (g : Trc → Trc) (j : Nat) : (s.modTrc k g).zone j = s.zone j := (rfl)
@[simp] theorem State.modTrc_act (s : State) (k : Nat) (g : Trc → Trc) (j : Nat) : (s.modTrc k g).act j = s.act j := (rfl)
@[simp] theorem State.modTrc_bay (s : State) (k : Nat) (g : Trc → Trc) (j : Nat) : (s.modTrc k g).bay j = s.bay j := (rfl)
@[simp] theorem State.modTrc_dom (s : State) (k : Nat) (g : Trc → Trc) (j : Nat) : (s.modTrc k g).dom j = s.dom j := (rfl)
@[simp] theorem State.modTrc_le (s : State) (k : Nat) (g : Trc → Trc) (j : Nat) : (s.modTrc k g).le j = s.le j := (rfl)
@[simp] theorem State.modTrc_eng (s : State) (k : Nat) (g : Trc → Trc) (j : Nat) : (s.modTrc k g).eng j = s.eng j := (rfl)
@[simp] theorem State.modTrc_herd (s : State) (k : Nat) (g : Trc → Trc) (j : Nat) : (s.modTrc k g).herd j = s.herd j := (rfl)
@[simp] theorem State.modTrc_isl (s : State) (k : Nat) (g : Trc → Trc) (j : Nat) : (s.modTrc k g).isl j = s.isl j := (rfl)
@[simp] theorem State.modTrc_xing (s : State) (k : Nat) (g : Trc → Trc) (j : Nat) : (s.modTrc k g).xing j = s.xing j := (rfl)
@[simp] theorem State.modTrc_mbx (s : State) (k : Nat) (g : Trc → Trc) (j : Nat) : (s.modTrc k g).mbx j = s.mbx j := (rfl)
@[simp] theorem State.modTrc_ring (s : State) (k : Nat) (g : Trc → Trc) (j : Nat) : (s.modTrc k g).ring j = s.ring j := (rfl)
@[simp] theorem State.modTrc_acc (s : State) (k : Nat) (g : Trc → Trc) (j : Nat) : (s.modTrc k g).acc j = s.acc j := (rfl)
@[simp] theorem State.modTrc_key (s : State) (k : Nat) (g : Trc → Trc) (j : Nat) : (s.modTrc k g).key j = s.key j := (rfl)
@[simp] theorem State.setEng_port (s : State) (k : Nat) (v : Engine) (j : Nat) : (s.setEng k v).port j = s.port j := (rfl)
@[simp] theorem State.setEng_fn (s : State) (k : Nat) (v : Engine) (j : Nat) : (s.setEng k v).fn j = s.fn j := (rfl)
@[simp] theorem State.setEng_sq (s : State) (k : Nat) (v : Engine) (j : Nat) : (s.setEng k v).sq j = s.sq j := (rfl)
@[simp] theorem State.setEng_cq (s : State) (k : Nat) (v : Engine) (j : Nat) : (s.setEng k v).cq j = s.cq j := (rfl)
@[simp] theorem State.setEng_ns (s : State) (k : Nat) (v : Engine) (j : Nat) : (s.setEng k v).ns j = s.ns j := (rfl)
@[simp] theorem State.setEng_zone (s : State) (k : Nat) (v : Engine) (j : Nat) : (s.setEng k v).zone j = s.zone j := (rfl)
@[simp] theorem State.setEng_act (s : State) (k : Nat) (v : Engine) (j : Nat) : (s.setEng k v).act j = s.act j := (rfl)
@[simp] theorem State.setEng_bay (s : State) (k : Nat) (v : Engine) (j : Nat) : (s.setEng k v).bay j = s.bay j := (rfl)
@[simp] theorem State.setEng_dom (s : State) (k : Nat) (v : Engine) (j : Nat) : (s.setEng k v).dom j = s.dom j := (rfl)
@[simp] theorem State.setEng_le (s : State) (k : Nat) (v : Engine) (j : Nat) : (s.setEng k v).le j = s.le j := (rfl)
@[simp] theorem State.setEng_trc (s : State) (k : Nat) (v : Engine) (j : Nat) : (s.setEng k v).trc j = s.trc j := (rfl)
@[simp] theorem State.setEng_herd (s : State) (k : Nat) (v : Engine) (j : Nat) : (s.setEng k v).herd j = s.herd j := (rfl)
@[simp] theorem State.setEng_isl (s : State) (k : Nat) (v : Engine) (j : Nat) : (s.setEng k v).isl j = s.isl j := (rfl)
@[simp] theorem State.setEng_xing (s : State) (k : Nat) (v : Engine) (j : Nat) : (s.setEng k v).xing j = s.xing j := (rfl)
@[simp] theorem State.setEng_mbx (s : State) (k : Nat) (v : Engine) (j : Nat) : (s.setEng k v).mbx j = s.mbx j := (rfl)
@[simp] theorem State.setEng_ring (s : State) (k : Nat) (v : Engine) (j : Nat) : (s.setEng k v).ring j = s.ring j := (rfl)
@[simp] theorem State.setEng_acc (s : State) (k : Nat) (v : Engine) (j : Nat) : (s.setEng k v).acc j = s.acc j := (rfl)
@[simp] theorem State.setEng_key (s : State) (k : Nat) (v : Engine) (j : Nat) : (s.setEng k v).key j = s.key j := (rfl)
@[simp] theorem State.modEng_port (s : State) (k : Nat) (g : Engine → Engine) (j : Nat) : (s.modEng k g).port j = s.port j := (rfl)
@[simp] theorem State.modEng_fn (s : State) (k : Nat) (g : Engine → Engine) (j : Nat) : (s.modEng k g).fn j = s.fn j := (rfl)
@[simp] theorem State.modEng_sq (s : State) (k : Nat) (g : Engine → Engine) (j : Nat) : (s.modEng k g).sq j = s.sq j := (rfl)
@[simp] theorem State.modEng_cq (s : State) (k : Nat) (g : Engine → Engine) (j : Nat) : (s.modEng k g).cq j = s.cq j := (rfl)
@[simp] theorem State.modEng_ns (s : State) (k : Nat) (g : Engine → Engine) (j : Nat) : (s.modEng k g).ns j = s.ns j := (rfl)
@[simp] theorem State.modEng_zone (s : State) (k : Nat) (g : Engine → Engine) (j : Nat) : (s.modEng k g).zone j = s.zone j := (rfl)
@[simp] theorem State.modEng_act (s : State) (k : Nat) (g : Engine → Engine) (j : Nat) : (s.modEng k g).act j = s.act j := (rfl)
@[simp] theorem State.modEng_bay (s : State) (k : Nat) (g : Engine → Engine) (j : Nat) : (s.modEng k g).bay j = s.bay j := (rfl)
@[simp] theorem State.modEng_dom (s : State) (k : Nat) (g : Engine → Engine) (j : Nat) : (s.modEng k g).dom j = s.dom j := (rfl)
@[simp] theorem State.modEng_le (s : State) (k : Nat) (g : Engine → Engine) (j : Nat) : (s.modEng k g).le j = s.le j := (rfl)
@[simp] theorem State.modEng_trc (s : State) (k : Nat) (g : Engine → Engine) (j : Nat) : (s.modEng k g).trc j = s.trc j := (rfl)
@[simp] theorem State.modEng_herd (s : State) (k : Nat) (g : Engine → Engine) (j : Nat) : (s.modEng k g).herd j = s.herd j := (rfl)
@[simp] theorem State.modEng_isl (s : State) (k : Nat) (g : Engine → Engine) (j : Nat) : (s.modEng k g).isl j = s.isl j := (rfl)
@[simp] theorem State.modEng_xing (s : State) (k : Nat) (g : Engine → Engine) (j : Nat) : (s.modEng k g).xing j = s.xing j := (rfl)
@[simp] theorem State.modEng_mbx (s : State) (k : Nat) (g : Engine → Engine) (j : Nat) : (s.modEng k g).mbx j = s.mbx j := (rfl)
@[simp] theorem State.modEng_ring (s : State) (k : Nat) (g : Engine → Engine) (j : Nat) : (s.modEng k g).ring j = s.ring j := (rfl)
@[simp] theorem State.modEng_acc (s : State) (k : Nat) (g : Engine → Engine) (j : Nat) : (s.modEng k g).acc j = s.acc j := (rfl)
@[simp] theorem State.modEng_key (s : State) (k : Nat) (g : Engine → Engine) (j : Nat) : (s.modEng k g).key j = s.key j := (rfl)
@[simp] theorem State.setHerd_port (s : State) (k : Nat) (v : Herd) (j : Nat) : (s.setHerd k v).port j = s.port j := (rfl)
@[simp] theorem State.setHerd_fn (s : State) (k : Nat) (v : Herd) (j : Nat) : (s.setHerd k v).fn j = s.fn j := (rfl)
@[simp] theorem State.setHerd_sq (s : State) (k : Nat) (v : Herd) (j : Nat) : (s.setHerd k v).sq j = s.sq j := (rfl)
@[simp] theorem State.setHerd_cq (s : State) (k : Nat) (v : Herd) (j : Nat) : (s.setHerd k v).cq j = s.cq j := (rfl)
@[simp] theorem State.setHerd_ns (s : State) (k : Nat) (v : Herd) (j : Nat) : (s.setHerd k v).ns j = s.ns j := (rfl)
@[simp] theorem State.setHerd_zone (s : State) (k : Nat) (v : Herd) (j : Nat) : (s.setHerd k v).zone j = s.zone j := (rfl)
@[simp] theorem State.setHerd_act (s : State) (k : Nat) (v : Herd) (j : Nat) : (s.setHerd k v).act j = s.act j := (rfl)
@[simp] theorem State.setHerd_bay (s : State) (k : Nat) (v : Herd) (j : Nat) : (s.setHerd k v).bay j = s.bay j := (rfl)
@[simp] theorem State.setHerd_dom (s : State) (k : Nat) (v : Herd) (j : Nat) : (s.setHerd k v).dom j = s.dom j := (rfl)
@[simp] theorem State.setHerd_le (s : State) (k : Nat) (v : Herd) (j : Nat) : (s.setHerd k v).le j = s.le j := (rfl)
@[simp] theorem State.setHerd_trc (s : State) (k : Nat) (v : Herd) (j : Nat) : (s.setHerd k v).trc j = s.trc j := (rfl)
@[simp] theorem State.setHerd_eng (s : State) (k : Nat) (v : Herd) (j : Nat) : (s.setHerd k v).eng j = s.eng j := (rfl)
@[simp] theorem State.setHerd_isl (s : State) (k : Nat) (v : Herd) (j : Nat) : (s.setHerd k v).isl j = s.isl j := (rfl)
@[simp] theorem State.setHerd_xing (s : State) (k : Nat) (v : Herd) (j : Nat) : (s.setHerd k v).xing j = s.xing j := (rfl)
@[simp] theorem State.setHerd_mbx (s : State) (k : Nat) (v : Herd) (j : Nat) : (s.setHerd k v).mbx j = s.mbx j := (rfl)
@[simp] theorem State.setHerd_ring (s : State) (k : Nat) (v : Herd) (j : Nat) : (s.setHerd k v).ring j = s.ring j := (rfl)
@[simp] theorem State.setHerd_acc (s : State) (k : Nat) (v : Herd) (j : Nat) : (s.setHerd k v).acc j = s.acc j := (rfl)
@[simp] theorem State.setHerd_key (s : State) (k : Nat) (v : Herd) (j : Nat) : (s.setHerd k v).key j = s.key j := (rfl)
@[simp] theorem State.modHerd_port (s : State) (k : Nat) (g : Herd → Herd) (j : Nat) : (s.modHerd k g).port j = s.port j := (rfl)
@[simp] theorem State.modHerd_fn (s : State) (k : Nat) (g : Herd → Herd) (j : Nat) : (s.modHerd k g).fn j = s.fn j := (rfl)
@[simp] theorem State.modHerd_sq (s : State) (k : Nat) (g : Herd → Herd) (j : Nat) : (s.modHerd k g).sq j = s.sq j := (rfl)
@[simp] theorem State.modHerd_cq (s : State) (k : Nat) (g : Herd → Herd) (j : Nat) : (s.modHerd k g).cq j = s.cq j := (rfl)
@[simp] theorem State.modHerd_ns (s : State) (k : Nat) (g : Herd → Herd) (j : Nat) : (s.modHerd k g).ns j = s.ns j := (rfl)
@[simp] theorem State.modHerd_zone (s : State) (k : Nat) (g : Herd → Herd) (j : Nat) : (s.modHerd k g).zone j = s.zone j := (rfl)
@[simp] theorem State.modHerd_act (s : State) (k : Nat) (g : Herd → Herd) (j : Nat) : (s.modHerd k g).act j = s.act j := (rfl)
@[simp] theorem State.modHerd_bay (s : State) (k : Nat) (g : Herd → Herd) (j : Nat) : (s.modHerd k g).bay j = s.bay j := (rfl)
@[simp] theorem State.modHerd_dom (s : State) (k : Nat) (g : Herd → Herd) (j : Nat) : (s.modHerd k g).dom j = s.dom j := (rfl)
@[simp] theorem State.modHerd_le (s : State) (k : Nat) (g : Herd → Herd) (j : Nat) : (s.modHerd k g).le j = s.le j := (rfl)
@[simp] theorem State.modHerd_trc (s : State) (k : Nat) (g : Herd → Herd) (j : Nat) : (s.modHerd k g).trc j = s.trc j := (rfl)
@[simp] theorem State.modHerd_eng (s : State) (k : Nat) (g : Herd → Herd) (j : Nat) : (s.modHerd k g).eng j = s.eng j := (rfl)
@[simp] theorem State.modHerd_isl (s : State) (k : Nat) (g : Herd → Herd) (j : Nat) : (s.modHerd k g).isl j = s.isl j := (rfl)
@[simp] theorem State.modHerd_xing (s : State) (k : Nat) (g : Herd → Herd) (j : Nat) : (s.modHerd k g).xing j = s.xing j := (rfl)
@[simp] theorem State.modHerd_mbx (s : State) (k : Nat) (g : Herd → Herd) (j : Nat) : (s.modHerd k g).mbx j = s.mbx j := (rfl)
@[simp] theorem State.modHerd_ring (s : State) (k : Nat) (g : Herd → Herd) (j : Nat) : (s.modHerd k g).ring j = s.ring j := (rfl)
@[simp] theorem State.modHerd_acc (s : State) (k : Nat) (g : Herd → Herd) (j : Nat) : (s.modHerd k g).acc j = s.acc j := (rfl)
@[simp] theorem State.modHerd_key (s : State) (k : Nat) (g : Herd → Herd) (j : Nat) : (s.modHerd k g).key j = s.key j := (rfl)
@[simp] theorem State.setIsl_port (s : State) (k : Nat) (v : Isl) (j : Nat) : (s.setIsl k v).port j = s.port j := (rfl)
@[simp] theorem State.setIsl_fn (s : State) (k : Nat) (v : Isl) (j : Nat) : (s.setIsl k v).fn j = s.fn j := (rfl)
@[simp] theorem State.setIsl_sq (s : State) (k : Nat) (v : Isl) (j : Nat) : (s.setIsl k v).sq j = s.sq j := (rfl)
@[simp] theorem State.setIsl_cq (s : State) (k : Nat) (v : Isl) (j : Nat) : (s.setIsl k v).cq j = s.cq j := (rfl)
@[simp] theorem State.setIsl_ns (s : State) (k : Nat) (v : Isl) (j : Nat) : (s.setIsl k v).ns j = s.ns j := (rfl)
@[simp] theorem State.setIsl_zone (s : State) (k : Nat) (v : Isl) (j : Nat) : (s.setIsl k v).zone j = s.zone j := (rfl)
@[simp] theorem State.setIsl_act (s : State) (k : Nat) (v : Isl) (j : Nat) : (s.setIsl k v).act j = s.act j := (rfl)
@[simp] theorem State.setIsl_bay (s : State) (k : Nat) (v : Isl) (j : Nat) : (s.setIsl k v).bay j = s.bay j := (rfl)
@[simp] theorem State.setIsl_dom (s : State) (k : Nat) (v : Isl) (j : Nat) : (s.setIsl k v).dom j = s.dom j := (rfl)
@[simp] theorem State.setIsl_le (s : State) (k : Nat) (v : Isl) (j : Nat) : (s.setIsl k v).le j = s.le j := (rfl)
@[simp] theorem State.setIsl_trc (s : State) (k : Nat) (v : Isl) (j : Nat) : (s.setIsl k v).trc j = s.trc j := (rfl)
@[simp] theorem State.setIsl_eng (s : State) (k : Nat) (v : Isl) (j : Nat) : (s.setIsl k v).eng j = s.eng j := (rfl)
@[simp] theorem State.setIsl_herd (s : State) (k : Nat) (v : Isl) (j : Nat) : (s.setIsl k v).herd j = s.herd j := (rfl)
@[simp] theorem State.setIsl_xing (s : State) (k : Nat) (v : Isl) (j : Nat) : (s.setIsl k v).xing j = s.xing j := (rfl)
@[simp] theorem State.setIsl_mbx (s : State) (k : Nat) (v : Isl) (j : Nat) : (s.setIsl k v).mbx j = s.mbx j := (rfl)
@[simp] theorem State.setIsl_ring (s : State) (k : Nat) (v : Isl) (j : Nat) : (s.setIsl k v).ring j = s.ring j := (rfl)
@[simp] theorem State.setIsl_acc (s : State) (k : Nat) (v : Isl) (j : Nat) : (s.setIsl k v).acc j = s.acc j := (rfl)
@[simp] theorem State.setIsl_key (s : State) (k : Nat) (v : Isl) (j : Nat) : (s.setIsl k v).key j = s.key j := (rfl)
@[simp] theorem State.modIsl_port (s : State) (k : Nat) (g : Isl → Isl) (j : Nat) : (s.modIsl k g).port j = s.port j := (rfl)
@[simp] theorem State.modIsl_fn (s : State) (k : Nat) (g : Isl → Isl) (j : Nat) : (s.modIsl k g).fn j = s.fn j := (rfl)
@[simp] theorem State.modIsl_sq (s : State) (k : Nat) (g : Isl → Isl) (j : Nat) : (s.modIsl k g).sq j = s.sq j := (rfl)
@[simp] theorem State.modIsl_cq (s : State) (k : Nat) (g : Isl → Isl) (j : Nat) : (s.modIsl k g).cq j = s.cq j := (rfl)
@[simp] theorem State.modIsl_ns (s : State) (k : Nat) (g : Isl → Isl) (j : Nat) : (s.modIsl k g).ns j = s.ns j := (rfl)
@[simp] theorem State.modIsl_zone (s : State) (k : Nat) (g : Isl → Isl) (j : Nat) : (s.modIsl k g).zone j = s.zone j := (rfl)
@[simp] theorem State.modIsl_act (s : State) (k : Nat) (g : Isl → Isl) (j : Nat) : (s.modIsl k g).act j = s.act j := (rfl)
@[simp] theorem State.modIsl_bay (s : State) (k : Nat) (g : Isl → Isl) (j : Nat) : (s.modIsl k g).bay j = s.bay j := (rfl)
@[simp] theorem State.modIsl_dom (s : State) (k : Nat) (g : Isl → Isl) (j : Nat) : (s.modIsl k g).dom j = s.dom j := (rfl)
@[simp] theorem State.modIsl_le (s : State) (k : Nat) (g : Isl → Isl) (j : Nat) : (s.modIsl k g).le j = s.le j := (rfl)
@[simp] theorem State.modIsl_trc (s : State) (k : Nat) (g : Isl → Isl) (j : Nat) : (s.modIsl k g).trc j = s.trc j := (rfl)
@[simp] theorem State.modIsl_eng (s : State) (k : Nat) (g : Isl → Isl) (j : Nat) : (s.modIsl k g).eng j = s.eng j := (rfl)
@[simp] theorem State.modIsl_herd (s : State) (k : Nat) (g : Isl → Isl) (j : Nat) : (s.modIsl k g).herd j = s.herd j := (rfl)
@[simp] theorem State.modIsl_xing (s : State) (k : Nat) (g : Isl → Isl) (j : Nat) : (s.modIsl k g).xing j = s.xing j := (rfl)
@[simp] theorem State.modIsl_mbx (s : State) (k : Nat) (g : Isl → Isl) (j : Nat) : (s.modIsl k g).mbx j = s.mbx j := (rfl)
@[simp] theorem State.modIsl_ring (s : State) (k : Nat) (g : Isl → Isl) (j : Nat) : (s.modIsl k g).ring j = s.ring j := (rfl)
@[simp] theorem State.modIsl_acc (s : State) (k : Nat) (g : Isl → Isl) (j : Nat) : (s.modIsl k g).acc j = s.acc j := (rfl)
@[simp] theorem State.modIsl_key (s : State) (k : Nat) (g : Isl → Isl) (j : Nat) : (s.modIsl k g).key j = s.key j := (rfl)
@[simp] theorem State.setXing_port (s : State) (k : Nat) (v : Xing) (j : Nat) : (s.setXing k v).port j = s.port j := (rfl)
@[simp] theorem State.setXing_fn (s : State) (k : Nat) (v : Xing) (j : Nat) : (s.setXing k v).fn j = s.fn j := (rfl)
@[simp] theorem State.setXing_sq (s : State) (k : Nat) (v : Xing) (j : Nat) : (s.setXing k v).sq j = s.sq j := (rfl)
@[simp] theorem State.setXing_cq (s : State) (k : Nat) (v : Xing) (j : Nat) : (s.setXing k v).cq j = s.cq j := (rfl)
@[simp] theorem State.setXing_ns (s : State) (k : Nat) (v : Xing) (j : Nat) : (s.setXing k v).ns j = s.ns j := (rfl)
@[simp] theorem State.setXing_zone (s : State) (k : Nat) (v : Xing) (j : Nat) : (s.setXing k v).zone j = s.zone j := (rfl)
@[simp] theorem State.setXing_act (s : State) (k : Nat) (v : Xing) (j : Nat) : (s.setXing k v).act j = s.act j := (rfl)
@[simp] theorem State.setXing_bay (s : State) (k : Nat) (v : Xing) (j : Nat) : (s.setXing k v).bay j = s.bay j := (rfl)
@[simp] theorem State.setXing_dom (s : State) (k : Nat) (v : Xing) (j : Nat) : (s.setXing k v).dom j = s.dom j := (rfl)
@[simp] theorem State.setXing_le (s : State) (k : Nat) (v : Xing) (j : Nat) : (s.setXing k v).le j = s.le j := (rfl)
@[simp] theorem State.setXing_trc (s : State) (k : Nat) (v : Xing) (j : Nat) : (s.setXing k v).trc j = s.trc j := (rfl)
@[simp] theorem State.setXing_eng (s : State) (k : Nat) (v : Xing) (j : Nat) : (s.setXing k v).eng j = s.eng j := (rfl)
@[simp] theorem State.setXing_herd (s : State) (k : Nat) (v : Xing) (j : Nat) : (s.setXing k v).herd j = s.herd j := (rfl)
@[simp] theorem State.setXing_isl (s : State) (k : Nat) (v : Xing) (j : Nat) : (s.setXing k v).isl j = s.isl j := (rfl)
@[simp] theorem State.setXing_mbx (s : State) (k : Nat) (v : Xing) (j : Nat) : (s.setXing k v).mbx j = s.mbx j := (rfl)
@[simp] theorem State.setXing_ring (s : State) (k : Nat) (v : Xing) (j : Nat) : (s.setXing k v).ring j = s.ring j := (rfl)
@[simp] theorem State.setXing_acc (s : State) (k : Nat) (v : Xing) (j : Nat) : (s.setXing k v).acc j = s.acc j := (rfl)
@[simp] theorem State.setXing_key (s : State) (k : Nat) (v : Xing) (j : Nat) : (s.setXing k v).key j = s.key j := (rfl)
@[simp] theorem State.modXing_port (s : State) (k : Nat) (g : Xing → Xing) (j : Nat) : (s.modXing k g).port j = s.port j := (rfl)
@[simp] theorem State.modXing_fn (s : State) (k : Nat) (g : Xing → Xing) (j : Nat) : (s.modXing k g).fn j = s.fn j := (rfl)
@[simp] theorem State.modXing_sq (s : State) (k : Nat) (g : Xing → Xing) (j : Nat) : (s.modXing k g).sq j = s.sq j := (rfl)
@[simp] theorem State.modXing_cq (s : State) (k : Nat) (g : Xing → Xing) (j : Nat) : (s.modXing k g).cq j = s.cq j := (rfl)
@[simp] theorem State.modXing_ns (s : State) (k : Nat) (g : Xing → Xing) (j : Nat) : (s.modXing k g).ns j = s.ns j := (rfl)
@[simp] theorem State.modXing_zone (s : State) (k : Nat) (g : Xing → Xing) (j : Nat) : (s.modXing k g).zone j = s.zone j := (rfl)
@[simp] theorem State.modXing_act (s : State) (k : Nat) (g : Xing → Xing) (j : Nat) : (s.modXing k g).act j = s.act j := (rfl)
@[simp] theorem State.modXing_bay (s : State) (k : Nat) (g : Xing → Xing) (j : Nat) : (s.modXing k g).bay j = s.bay j := (rfl)
@[simp] theorem State.modXing_dom (s : State) (k : Nat) (g : Xing → Xing) (j : Nat) : (s.modXing k g).dom j = s.dom j := (rfl)
@[simp] theorem State.modXing_le (s : State) (k : Nat) (g : Xing → Xing) (j : Nat) : (s.modXing k g).le j = s.le j := (rfl)
@[simp] theorem State.modXing_trc (s : State) (k : Nat) (g : Xing → Xing) (j : Nat) : (s.modXing k g).trc j = s.trc j := (rfl)
@[simp] theorem State.modXing_eng (s : State) (k : Nat) (g : Xing → Xing) (j : Nat) : (s.modXing k g).eng j = s.eng j := (rfl)
@[simp] theorem State.modXing_herd (s : State) (k : Nat) (g : Xing → Xing) (j : Nat) : (s.modXing k g).herd j = s.herd j := (rfl)
@[simp] theorem State.modXing_isl (s : State) (k : Nat) (g : Xing → Xing) (j : Nat) : (s.modXing k g).isl j = s.isl j := (rfl)
@[simp] theorem State.modXing_mbx (s : State) (k : Nat) (g : Xing → Xing) (j : Nat) : (s.modXing k g).mbx j = s.mbx j := (rfl)
@[simp] theorem State.modXing_ring (s : State) (k : Nat) (g : Xing → Xing) (j : Nat) : (s.modXing k g).ring j = s.ring j := (rfl)
@[simp] theorem State.modXing_acc (s : State) (k : Nat) (g : Xing → Xing) (j : Nat) : (s.modXing k g).acc j = s.acc j := (rfl)
@[simp] theorem State.modXing_key (s : State) (k : Nat) (g : Xing → Xing) (j : Nat) : (s.modXing k g).key j = s.key j := (rfl)
@[simp] theorem State.setMbx_port (s : State) (k : Nat) (v : Mbx) (j : Nat) : (s.setMbx k v).port j = s.port j := (rfl)
@[simp] theorem State.setMbx_fn (s : State) (k : Nat) (v : Mbx) (j : Nat) : (s.setMbx k v).fn j = s.fn j := (rfl)
@[simp] theorem State.setMbx_sq (s : State) (k : Nat) (v : Mbx) (j : Nat) : (s.setMbx k v).sq j = s.sq j := (rfl)
@[simp] theorem State.setMbx_cq (s : State) (k : Nat) (v : Mbx) (j : Nat) : (s.setMbx k v).cq j = s.cq j := (rfl)
@[simp] theorem State.setMbx_ns (s : State) (k : Nat) (v : Mbx) (j : Nat) : (s.setMbx k v).ns j = s.ns j := (rfl)
@[simp] theorem State.setMbx_zone (s : State) (k : Nat) (v : Mbx) (j : Nat) : (s.setMbx k v).zone j = s.zone j := (rfl)
@[simp] theorem State.setMbx_act (s : State) (k : Nat) (v : Mbx) (j : Nat) : (s.setMbx k v).act j = s.act j := (rfl)
@[simp] theorem State.setMbx_bay (s : State) (k : Nat) (v : Mbx) (j : Nat) : (s.setMbx k v).bay j = s.bay j := (rfl)
@[simp] theorem State.setMbx_dom (s : State) (k : Nat) (v : Mbx) (j : Nat) : (s.setMbx k v).dom j = s.dom j := (rfl)
@[simp] theorem State.setMbx_le (s : State) (k : Nat) (v : Mbx) (j : Nat) : (s.setMbx k v).le j = s.le j := (rfl)
@[simp] theorem State.setMbx_trc (s : State) (k : Nat) (v : Mbx) (j : Nat) : (s.setMbx k v).trc j = s.trc j := (rfl)
@[simp] theorem State.setMbx_eng (s : State) (k : Nat) (v : Mbx) (j : Nat) : (s.setMbx k v).eng j = s.eng j := (rfl)
@[simp] theorem State.setMbx_herd (s : State) (k : Nat) (v : Mbx) (j : Nat) : (s.setMbx k v).herd j = s.herd j := (rfl)
@[simp] theorem State.setMbx_isl (s : State) (k : Nat) (v : Mbx) (j : Nat) : (s.setMbx k v).isl j = s.isl j := (rfl)
@[simp] theorem State.setMbx_xing (s : State) (k : Nat) (v : Mbx) (j : Nat) : (s.setMbx k v).xing j = s.xing j := (rfl)
@[simp] theorem State.setMbx_ring (s : State) (k : Nat) (v : Mbx) (j : Nat) : (s.setMbx k v).ring j = s.ring j := (rfl)
@[simp] theorem State.setMbx_acc (s : State) (k : Nat) (v : Mbx) (j : Nat) : (s.setMbx k v).acc j = s.acc j := (rfl)
@[simp] theorem State.setMbx_key (s : State) (k : Nat) (v : Mbx) (j : Nat) : (s.setMbx k v).key j = s.key j := (rfl)
@[simp] theorem State.modMbx_port (s : State) (k : Nat) (g : Mbx → Mbx) (j : Nat) : (s.modMbx k g).port j = s.port j := (rfl)
@[simp] theorem State.modMbx_fn (s : State) (k : Nat) (g : Mbx → Mbx) (j : Nat) : (s.modMbx k g).fn j = s.fn j := (rfl)
@[simp] theorem State.modMbx_sq (s : State) (k : Nat) (g : Mbx → Mbx) (j : Nat) : (s.modMbx k g).sq j = s.sq j := (rfl)
@[simp] theorem State.modMbx_cq (s : State) (k : Nat) (g : Mbx → Mbx) (j : Nat) : (s.modMbx k g).cq j = s.cq j := (rfl)
@[simp] theorem State.modMbx_ns (s : State) (k : Nat) (g : Mbx → Mbx) (j : Nat) : (s.modMbx k g).ns j = s.ns j := (rfl)
@[simp] theorem State.modMbx_zone (s : State) (k : Nat) (g : Mbx → Mbx) (j : Nat) : (s.modMbx k g).zone j = s.zone j := (rfl)
@[simp] theorem State.modMbx_act (s : State) (k : Nat) (g : Mbx → Mbx) (j : Nat) : (s.modMbx k g).act j = s.act j := (rfl)
@[simp] theorem State.modMbx_bay (s : State) (k : Nat) (g : Mbx → Mbx) (j : Nat) : (s.modMbx k g).bay j = s.bay j := (rfl)
@[simp] theorem State.modMbx_dom (s : State) (k : Nat) (g : Mbx → Mbx) (j : Nat) : (s.modMbx k g).dom j = s.dom j := (rfl)
@[simp] theorem State.modMbx_le (s : State) (k : Nat) (g : Mbx → Mbx) (j : Nat) : (s.modMbx k g).le j = s.le j := (rfl)
@[simp] theorem State.modMbx_trc (s : State) (k : Nat) (g : Mbx → Mbx) (j : Nat) : (s.modMbx k g).trc j = s.trc j := (rfl)
@[simp] theorem State.modMbx_eng (s : State) (k : Nat) (g : Mbx → Mbx) (j : Nat) : (s.modMbx k g).eng j = s.eng j := (rfl)
@[simp] theorem State.modMbx_herd (s : State) (k : Nat) (g : Mbx → Mbx) (j : Nat) : (s.modMbx k g).herd j = s.herd j := (rfl)
@[simp] theorem State.modMbx_isl (s : State) (k : Nat) (g : Mbx → Mbx) (j : Nat) : (s.modMbx k g).isl j = s.isl j := (rfl)
@[simp] theorem State.modMbx_xing (s : State) (k : Nat) (g : Mbx → Mbx) (j : Nat) : (s.modMbx k g).xing j = s.xing j := (rfl)
@[simp] theorem State.modMbx_ring (s : State) (k : Nat) (g : Mbx → Mbx) (j : Nat) : (s.modMbx k g).ring j = s.ring j := (rfl)
@[simp] theorem State.modMbx_acc (s : State) (k : Nat) (g : Mbx → Mbx) (j : Nat) : (s.modMbx k g).acc j = s.acc j := (rfl)
@[simp] theorem State.modMbx_key (s : State) (k : Nat) (g : Mbx → Mbx) (j : Nat) : (s.modMbx k g).key j = s.key j := (rfl)
@[simp] theorem State.setRing_port (s : State) (k : Nat) (v : Ring) (j : Nat) : (s.setRing k v).port j = s.port j := (rfl)
@[simp] theorem State.setRing_fn (s : State) (k : Nat) (v : Ring) (j : Nat) : (s.setRing k v).fn j = s.fn j := (rfl)
@[simp] theorem State.setRing_sq (s : State) (k : Nat) (v : Ring) (j : Nat) : (s.setRing k v).sq j = s.sq j := (rfl)
@[simp] theorem State.setRing_cq (s : State) (k : Nat) (v : Ring) (j : Nat) : (s.setRing k v).cq j = s.cq j := (rfl)
@[simp] theorem State.setRing_ns (s : State) (k : Nat) (v : Ring) (j : Nat) : (s.setRing k v).ns j = s.ns j := (rfl)
@[simp] theorem State.setRing_zone (s : State) (k : Nat) (v : Ring) (j : Nat) : (s.setRing k v).zone j = s.zone j := (rfl)
@[simp] theorem State.setRing_act (s : State) (k : Nat) (v : Ring) (j : Nat) : (s.setRing k v).act j = s.act j := (rfl)
@[simp] theorem State.setRing_bay (s : State) (k : Nat) (v : Ring) (j : Nat) : (s.setRing k v).bay j = s.bay j := (rfl)
@[simp] theorem State.setRing_dom (s : State) (k : Nat) (v : Ring) (j : Nat) : (s.setRing k v).dom j = s.dom j := (rfl)
@[simp] theorem State.setRing_le (s : State) (k : Nat) (v : Ring) (j : Nat) : (s.setRing k v).le j = s.le j := (rfl)
@[simp] theorem State.setRing_trc (s : State) (k : Nat) (v : Ring) (j : Nat) : (s.setRing k v).trc j = s.trc j := (rfl)
@[simp] theorem State.setRing_eng (s : State) (k : Nat) (v : Ring) (j : Nat) : (s.setRing k v).eng j = s.eng j := (rfl)
@[simp] theorem State.setRing_herd (s : State) (k : Nat) (v : Ring) (j : Nat) : (s.setRing k v).herd j = s.herd j := (rfl)
@[simp] theorem State.setRing_isl (s : State) (k : Nat) (v : Ring) (j : Nat) : (s.setRing k v).isl j = s.isl j := (rfl)
@[simp] theorem State.setRing_xing (s : State) (k : Nat) (v : Ring) (j : Nat) : (s.setRing k v).xing j = s.xing j := (rfl)
@[simp] theorem State.setRing_mbx (s : State) (k : Nat) (v : Ring) (j : Nat) : (s.setRing k v).mbx j = s.mbx j := (rfl)
@[simp] theorem State.setRing_acc (s : State) (k : Nat) (v : Ring) (j : Nat) : (s.setRing k v).acc j = s.acc j := (rfl)
@[simp] theorem State.setRing_key (s : State) (k : Nat) (v : Ring) (j : Nat) : (s.setRing k v).key j = s.key j := (rfl)
@[simp] theorem State.modRing_port (s : State) (k : Nat) (g : Ring → Ring) (j : Nat) : (s.modRing k g).port j = s.port j := (rfl)
@[simp] theorem State.modRing_fn (s : State) (k : Nat) (g : Ring → Ring) (j : Nat) : (s.modRing k g).fn j = s.fn j := (rfl)
@[simp] theorem State.modRing_sq (s : State) (k : Nat) (g : Ring → Ring) (j : Nat) : (s.modRing k g).sq j = s.sq j := (rfl)
@[simp] theorem State.modRing_cq (s : State) (k : Nat) (g : Ring → Ring) (j : Nat) : (s.modRing k g).cq j = s.cq j := (rfl)
@[simp] theorem State.modRing_ns (s : State) (k : Nat) (g : Ring → Ring) (j : Nat) : (s.modRing k g).ns j = s.ns j := (rfl)
@[simp] theorem State.modRing_zone (s : State) (k : Nat) (g : Ring → Ring) (j : Nat) : (s.modRing k g).zone j = s.zone j := (rfl)
@[simp] theorem State.modRing_act (s : State) (k : Nat) (g : Ring → Ring) (j : Nat) : (s.modRing k g).act j = s.act j := (rfl)
@[simp] theorem State.modRing_bay (s : State) (k : Nat) (g : Ring → Ring) (j : Nat) : (s.modRing k g).bay j = s.bay j := (rfl)
@[simp] theorem State.modRing_dom (s : State) (k : Nat) (g : Ring → Ring) (j : Nat) : (s.modRing k g).dom j = s.dom j := (rfl)
@[simp] theorem State.modRing_le (s : State) (k : Nat) (g : Ring → Ring) (j : Nat) : (s.modRing k g).le j = s.le j := (rfl)
@[simp] theorem State.modRing_trc (s : State) (k : Nat) (g : Ring → Ring) (j : Nat) : (s.modRing k g).trc j = s.trc j := (rfl)
@[simp] theorem State.modRing_eng (s : State) (k : Nat) (g : Ring → Ring) (j : Nat) : (s.modRing k g).eng j = s.eng j := (rfl)
@[simp] theorem State.modRing_herd (s : State) (k : Nat) (g : Ring → Ring) (j : Nat) : (s.modRing k g).herd j = s.herd j := (rfl)
@[simp] theorem State.modRing_isl (s : State) (k : Nat) (g : Ring → Ring) (j : Nat) : (s.modRing k g).isl j = s.isl j := (rfl)
@[simp] theorem State.modRing_xing (s : State) (k : Nat) (g : Ring → Ring) (j : Nat) : (s.modRing k g).xing j = s.xing j := (rfl)
@[simp] theorem State.modRing_mbx (s : State) (k : Nat) (g : Ring → Ring) (j : Nat) : (s.modRing k g).mbx j = s.mbx j := (rfl)
@[simp] theorem State.modRing_acc (s : State) (k : Nat) (g : Ring → Ring) (j : Nat) : (s.modRing k g).acc j = s.acc j := (rfl)
@[simp] theorem State.modRing_key (s : State) (k : Nat) (g : Ring → Ring) (j : Nat) : (s.modRing k g).key j = s.key j := (rfl)
@[simp] theorem State.setAcc_port (s : State) (k : Nat) (v : Acc) (j : Nat) : (s.setAcc k v).port j = s.port j := (rfl)
@[simp] theorem State.setAcc_fn (s : State) (k : Nat) (v : Acc) (j : Nat) : (s.setAcc k v).fn j = s.fn j := (rfl)
@[simp] theorem State.setAcc_sq (s : State) (k : Nat) (v : Acc) (j : Nat) : (s.setAcc k v).sq j = s.sq j := (rfl)
@[simp] theorem State.setAcc_cq (s : State) (k : Nat) (v : Acc) (j : Nat) : (s.setAcc k v).cq j = s.cq j := (rfl)
@[simp] theorem State.setAcc_ns (s : State) (k : Nat) (v : Acc) (j : Nat) : (s.setAcc k v).ns j = s.ns j := (rfl)
@[simp] theorem State.setAcc_zone (s : State) (k : Nat) (v : Acc) (j : Nat) : (s.setAcc k v).zone j = s.zone j := (rfl)
@[simp] theorem State.setAcc_act (s : State) (k : Nat) (v : Acc) (j : Nat) : (s.setAcc k v).act j = s.act j := (rfl)
@[simp] theorem State.setAcc_bay (s : State) (k : Nat) (v : Acc) (j : Nat) : (s.setAcc k v).bay j = s.bay j := (rfl)
@[simp] theorem State.setAcc_dom (s : State) (k : Nat) (v : Acc) (j : Nat) : (s.setAcc k v).dom j = s.dom j := (rfl)
@[simp] theorem State.setAcc_le (s : State) (k : Nat) (v : Acc) (j : Nat) : (s.setAcc k v).le j = s.le j := (rfl)
@[simp] theorem State.setAcc_trc (s : State) (k : Nat) (v : Acc) (j : Nat) : (s.setAcc k v).trc j = s.trc j := (rfl)
@[simp] theorem State.setAcc_eng (s : State) (k : Nat) (v : Acc) (j : Nat) : (s.setAcc k v).eng j = s.eng j := (rfl)
@[simp] theorem State.setAcc_herd (s : State) (k : Nat) (v : Acc) (j : Nat) : (s.setAcc k v).herd j = s.herd j := (rfl)
@[simp] theorem State.setAcc_isl (s : State) (k : Nat) (v : Acc) (j : Nat) : (s.setAcc k v).isl j = s.isl j := (rfl)
@[simp] theorem State.setAcc_xing (s : State) (k : Nat) (v : Acc) (j : Nat) : (s.setAcc k v).xing j = s.xing j := (rfl)
@[simp] theorem State.setAcc_mbx (s : State) (k : Nat) (v : Acc) (j : Nat) : (s.setAcc k v).mbx j = s.mbx j := (rfl)
@[simp] theorem State.setAcc_ring (s : State) (k : Nat) (v : Acc) (j : Nat) : (s.setAcc k v).ring j = s.ring j := (rfl)
@[simp] theorem State.setAcc_key (s : State) (k : Nat) (v : Acc) (j : Nat) : (s.setAcc k v).key j = s.key j := (rfl)
@[simp] theorem State.modAcc_port (s : State) (k : Nat) (g : Acc → Acc) (j : Nat) : (s.modAcc k g).port j = s.port j := (rfl)
@[simp] theorem State.modAcc_fn (s : State) (k : Nat) (g : Acc → Acc) (j : Nat) : (s.modAcc k g).fn j = s.fn j := (rfl)
@[simp] theorem State.modAcc_sq (s : State) (k : Nat) (g : Acc → Acc) (j : Nat) : (s.modAcc k g).sq j = s.sq j := (rfl)
@[simp] theorem State.modAcc_cq (s : State) (k : Nat) (g : Acc → Acc) (j : Nat) : (s.modAcc k g).cq j = s.cq j := (rfl)
@[simp] theorem State.modAcc_ns (s : State) (k : Nat) (g : Acc → Acc) (j : Nat) : (s.modAcc k g).ns j = s.ns j := (rfl)
@[simp] theorem State.modAcc_zone (s : State) (k : Nat) (g : Acc → Acc) (j : Nat) : (s.modAcc k g).zone j = s.zone j := (rfl)
@[simp] theorem State.modAcc_act (s : State) (k : Nat) (g : Acc → Acc) (j : Nat) : (s.modAcc k g).act j = s.act j := (rfl)
@[simp] theorem State.modAcc_bay (s : State) (k : Nat) (g : Acc → Acc) (j : Nat) : (s.modAcc k g).bay j = s.bay j := (rfl)
@[simp] theorem State.modAcc_dom (s : State) (k : Nat) (g : Acc → Acc) (j : Nat) : (s.modAcc k g).dom j = s.dom j := (rfl)
@[simp] theorem State.modAcc_le (s : State) (k : Nat) (g : Acc → Acc) (j : Nat) : (s.modAcc k g).le j = s.le j := (rfl)
@[simp] theorem State.modAcc_trc (s : State) (k : Nat) (g : Acc → Acc) (j : Nat) : (s.modAcc k g).trc j = s.trc j := (rfl)
@[simp] theorem State.modAcc_eng (s : State) (k : Nat) (g : Acc → Acc) (j : Nat) : (s.modAcc k g).eng j = s.eng j := (rfl)
@[simp] theorem State.modAcc_herd (s : State) (k : Nat) (g : Acc → Acc) (j : Nat) : (s.modAcc k g).herd j = s.herd j := (rfl)
@[simp] theorem State.modAcc_isl (s : State) (k : Nat) (g : Acc → Acc) (j : Nat) : (s.modAcc k g).isl j = s.isl j := (rfl)
@[simp] theorem State.modAcc_xing (s : State) (k : Nat) (g : Acc → Acc) (j : Nat) : (s.modAcc k g).xing j = s.xing j := (rfl)
@[simp] theorem State.modAcc_mbx (s : State) (k : Nat) (g : Acc → Acc) (j : Nat) : (s.modAcc k g).mbx j = s.mbx j := (rfl)
@[simp] theorem State.modAcc_ring (s : State) (k : Nat) (g : Acc → Acc) (j : Nat) : (s.modAcc k g).ring j = s.ring j := (rfl)
@[simp] theorem State.modAcc_key (s : State) (k : Nat) (g : Acc → Acc) (j : Nat) : (s.modAcc k g).key j = s.key j := (rfl)
@[simp] theorem State.setKey_port (s : State) (k : Nat) (v : KeySlot) (j : Nat) : (s.setKey k v).port j = s.port j := (rfl)
@[simp] theorem State.setKey_fn (s : State) (k : Nat) (v : KeySlot) (j : Nat) : (s.setKey k v).fn j = s.fn j := (rfl)
@[simp] theorem State.setKey_sq (s : State) (k : Nat) (v : KeySlot) (j : Nat) : (s.setKey k v).sq j = s.sq j := (rfl)
@[simp] theorem State.setKey_cq (s : State) (k : Nat) (v : KeySlot) (j : Nat) : (s.setKey k v).cq j = s.cq j := (rfl)
@[simp] theorem State.setKey_ns (s : State) (k : Nat) (v : KeySlot) (j : Nat) : (s.setKey k v).ns j = s.ns j := (rfl)
@[simp] theorem State.setKey_zone (s : State) (k : Nat) (v : KeySlot) (j : Nat) : (s.setKey k v).zone j = s.zone j := (rfl)
@[simp] theorem State.setKey_act (s : State) (k : Nat) (v : KeySlot) (j : Nat) : (s.setKey k v).act j = s.act j := (rfl)
@[simp] theorem State.setKey_bay (s : State) (k : Nat) (v : KeySlot) (j : Nat) : (s.setKey k v).bay j = s.bay j := (rfl)
@[simp] theorem State.setKey_dom (s : State) (k : Nat) (v : KeySlot) (j : Nat) : (s.setKey k v).dom j = s.dom j := (rfl)
@[simp] theorem State.setKey_le (s : State) (k : Nat) (v : KeySlot) (j : Nat) : (s.setKey k v).le j = s.le j := (rfl)
@[simp] theorem State.setKey_trc (s : State) (k : Nat) (v : KeySlot) (j : Nat) : (s.setKey k v).trc j = s.trc j := (rfl)
@[simp] theorem State.setKey_eng (s : State) (k : Nat) (v : KeySlot) (j : Nat) : (s.setKey k v).eng j = s.eng j := (rfl)
@[simp] theorem State.setKey_herd (s : State) (k : Nat) (v : KeySlot) (j : Nat) : (s.setKey k v).herd j = s.herd j := (rfl)
@[simp] theorem State.setKey_isl (s : State) (k : Nat) (v : KeySlot) (j : Nat) : (s.setKey k v).isl j = s.isl j := (rfl)
@[simp] theorem State.setKey_xing (s : State) (k : Nat) (v : KeySlot) (j : Nat) : (s.setKey k v).xing j = s.xing j := (rfl)
@[simp] theorem State.setKey_mbx (s : State) (k : Nat) (v : KeySlot) (j : Nat) : (s.setKey k v).mbx j = s.mbx j := (rfl)
@[simp] theorem State.setKey_ring (s : State) (k : Nat) (v : KeySlot) (j : Nat) : (s.setKey k v).ring j = s.ring j := (rfl)
@[simp] theorem State.setKey_acc (s : State) (k : Nat) (v : KeySlot) (j : Nat) : (s.setKey k v).acc j = s.acc j := (rfl)
@[simp] theorem State.modKey_port (s : State) (k : Nat) (g : KeySlot → KeySlot) (j : Nat) : (s.modKey k g).port j = s.port j := (rfl)
@[simp] theorem State.modKey_fn (s : State) (k : Nat) (g : KeySlot → KeySlot) (j : Nat) : (s.modKey k g).fn j = s.fn j := (rfl)
@[simp] theorem State.modKey_sq (s : State) (k : Nat) (g : KeySlot → KeySlot) (j : Nat) : (s.modKey k g).sq j = s.sq j := (rfl)
@[simp] theorem State.modKey_cq (s : State) (k : Nat) (g : KeySlot → KeySlot) (j : Nat) : (s.modKey k g).cq j = s.cq j := (rfl)
@[simp] theorem State.modKey_ns (s : State) (k : Nat) (g : KeySlot → KeySlot) (j : Nat) : (s.modKey k g).ns j = s.ns j := (rfl)
@[simp] theorem State.modKey_zone (s : State) (k : Nat) (g : KeySlot → KeySlot) (j : Nat) : (s.modKey k g).zone j = s.zone j := (rfl)
@[simp] theorem State.modKey_act (s : State) (k : Nat) (g : KeySlot → KeySlot) (j : Nat) : (s.modKey k g).act j = s.act j := (rfl)
@[simp] theorem State.modKey_bay (s : State) (k : Nat) (g : KeySlot → KeySlot) (j : Nat) : (s.modKey k g).bay j = s.bay j := (rfl)
@[simp] theorem State.modKey_dom (s : State) (k : Nat) (g : KeySlot → KeySlot) (j : Nat) : (s.modKey k g).dom j = s.dom j := (rfl)
@[simp] theorem State.modKey_le (s : State) (k : Nat) (g : KeySlot → KeySlot) (j : Nat) : (s.modKey k g).le j = s.le j := (rfl)
@[simp] theorem State.modKey_trc (s : State) (k : Nat) (g : KeySlot → KeySlot) (j : Nat) : (s.modKey k g).trc j = s.trc j := (rfl)
@[simp] theorem State.modKey_eng (s : State) (k : Nat) (g : KeySlot → KeySlot) (j : Nat) : (s.modKey k g).eng j = s.eng j := (rfl)
@[simp] theorem State.modKey_herd (s : State) (k : Nat) (g : KeySlot → KeySlot) (j : Nat) : (s.modKey k g).herd j = s.herd j := (rfl)
@[simp] theorem State.modKey_isl (s : State) (k : Nat) (g : KeySlot → KeySlot) (j : Nat) : (s.modKey k g).isl j = s.isl j := (rfl)
@[simp] theorem State.modKey_xing (s : State) (k : Nat) (g : KeySlot → KeySlot) (j : Nat) : (s.modKey k g).xing j = s.xing j := (rfl)
@[simp] theorem State.modKey_mbx (s : State) (k : Nat) (g : KeySlot → KeySlot) (j : Nat) : (s.modKey k g).mbx j = s.mbx j := (rfl)
@[simp] theorem State.modKey_ring (s : State) (k : Nat) (g : KeySlot → KeySlot) (j : Nat) : (s.modKey k g).ring j = s.ring j := (rfl)
@[simp] theorem State.modKey_acc (s : State) (k : Nat) (g : KeySlot → KeySlot) (j : Nat) : (s.modKey k g).acc j = s.acc j := (rfl)

end Sys2Proof.Machine
end

