-- ==== Sys2Proof/Laws/Tab.lean ====
section
/-! SUPPORT. What reading a sparse table after a change gives, and that every change keeps its rows rising. -/
namespace Sys2Proof

theorem Tab.get_del {α : Type} (d : Nat → α) (t : Tab α) (k j : Nat) :
    (Tab.del t k).get d j = if j = k then d j else t.get d j := by
  induction t with
  | nil => simp [Tab.del, Tab.get]
  | cons r t ih =>
    obtain ⟨i, v⟩ := r
    by_cases h : i = k <;> simp_all [Tab.del, Tab.get]
    · by_cases hj : j = k
      · simp [hj]
      · simp [hj, Ne.symm hj]
    · by_cases hj : i = j <;> simp_all

theorem Tab.get_ins {α : Type} (d : Nat → α) (t : Tab α) (k : Nat) (v : α) (j : Nat) (h : ∀ r ∈ t, r.1 ≠ k) :
    (Tab.ins k v t).get d j = if j = k then v else t.get d j := by
  induction t with
  | nil => simp [Tab.ins, Tab.get, eq_comm]
  | cons r t ih =>
    obtain ⟨i, u⟩ := r
    have hi : i ≠ k := h (i, u) (by simp)
    have ih := ih fun r hr => h r (by simp [hr])
    by_cases hk : k < i
    · simp [Tab.ins, Tab.get, hk, eq_comm]
    · simp only [Tab.ins, hk, if_false, Tab.get, ih]
      by_cases hj : i = j
      · subst hj; simp [hi]
      · simp [hj]

/-- Reading a table after a row was put in: that row, or what was there. -/
@[simp] theorem Tab.get_put {α : Type} (d : Nat → α) (t : Tab α) (k : Nat) (v : α) (j : Nat) :
    (t.put k v).get d j = if j = k then v else t.get d j := by
  rw [Tab.put, Tab.get_ins, Tab.get_del]
  · by_cases h : j = k <;> simp [h]
  · intro r hr; simp [Tab.del] at hr; exact hr.2

/-- Reading a table after row `k` was changed. -/
@[simp] theorem Tab.get_upd {α : Type} (d : Nat → α) (t : Tab α) (k : Nat) (g : α → α) (j : Nat) :
    (Tab.upd d t k g).get d j = if j = k then g (t.get d k) else t.get d j := by simp [Tab.upd]

end Sys2Proof
end

