-- ==== Sys2Proof/Laws/Access.lean ====
section
/-! SUPPORT. Reading a row of a table after a row of the same table changed. -/
namespace Sys2Proof.Machine

@[simp] theorem State.port_setPort (s : State) (k : Nat) (v : PortSt) (j : Nat) : (s.setPort k v).port j = if j = k then v else s.port j :=
  Tab.get_put ..
@[simp] theorem State.port_modPort (s : State) (k : Nat) (g : PortSt → PortSt) (j : Nat) :
    (s.modPort k g).port j = if j = k then g (s.port k) else s.port j := Tab.get_put ..
@[simp] theorem State.fn_setFn (s : State) (k : Nat) (v : FnSt) (j : Nat) : (s.setFn k v).fn j = if j = k then v else s.fn j :=
  Tab.get_put ..
@[simp] theorem State.fn_modFn (s : State) (k : Nat) (g : FnSt → FnSt) (j : Nat) :
    (s.modFn k g).fn j = if j = k then g (s.fn k) else s.fn j := Tab.get_put ..
@[simp] theorem State.sq_setSq (s : State) (k : Nat) (v : Sq) (j : Nat) : (s.setSq k v).sq j = if j = k then v else s.sq j :=
  Tab.get_put ..
@[simp] theorem State.sq_modSq (s : State) (k : Nat) (g : Sq → Sq) (j : Nat) :
    (s.modSq k g).sq j = if j = k then g (s.sq k) else s.sq j := Tab.get_put ..
@[simp] theorem State.cq_setCq (s : State) (k : Nat) (v : Cq) (j : Nat) : (s.setCq k v).cq j = if j = k then v else s.cq j :=
  Tab.get_put ..
@[simp] theorem State.cq_modCq (s : State) (k : Nat) (g : Cq → Cq) (j : Nat) :
    (s.modCq k g).cq j = if j = k then g (s.cq k) else s.cq j := Tab.get_put ..
@[simp] theorem State.ns_setNs (s : State) (k : Nat) (v : Ns) (j : Nat) : (s.setNs k v).ns j = if j = k then v else s.ns j :=
  Tab.get_put ..
@[simp] theorem State.ns_modNs (s : State) (k : Nat) (g : Ns → Ns) (j : Nat) :
    (s.modNs k g).ns j = if j = k then g (s.ns k) else s.ns j := Tab.get_put ..
@[simp] theorem State.zone_setZone (s : State) (k : Nat) (v : Zone) (j : Nat) : (s.setZone k v).zone j = if j = k then v else s.zone j :=
  Tab.get_put ..
@[simp] theorem State.zone_modZone (s : State) (k : Nat) (g : Zone → Zone) (j : Nat) :
    (s.modZone k g).zone j = if j = k then g (s.zone k) else s.zone j := Tab.get_put ..
@[simp] theorem State.act_setAct (s : State) (k : Nat) (v : ActSt) (j : Nat) : (s.setAct k v).act j = if j = k then v else s.act j :=
  Tab.get_put ..
@[simp] theorem State.act_modAct (s : State) (k : Nat) (g : ActSt → ActSt) (j : Nat) :
    (s.modAct k g).act j = if j = k then g (s.act k) else s.act j := Tab.get_put ..
@[simp] theorem State.bay_setBay (s : State) (k : Nat) (v : BaySt) (j : Nat) : (s.setBay k v).bay j = if j = k then v else s.bay j :=
  Tab.get_put ..
@[simp] theorem State.bay_modBay (s : State) (k : Nat) (g : BaySt → BaySt) (j : Nat) :
    (s.modBay k g).bay j = if j = k then g (s.bay k) else s.bay j := Tab.get_put ..
@[simp] theorem State.dom_setDom (s : State) (k : Nat) (v : Dom) (j : Nat) : (s.setDom k v).dom j = if j = k then v else s.dom j :=
  Tab.get_put ..
@[simp] theorem State.dom_modDom (s : State) (k : Nat) (g : Dom → Dom) (j : Nat) :
    (s.modDom k g).dom j = if j = k then g (s.dom k) else s.dom j := Tab.get_put ..
@[simp] theorem State.le_setLe (s : State) (k : Nat) (v : LoopEng) (j : Nat) : (s.setLe k v).le j = if j = k then v else s.le j :=
  Tab.get_put ..
@[simp] theorem State.le_modLe (s : State) (k : Nat) (g : LoopEng → LoopEng) (j : Nat) :
    (s.modLe k g).le j = if j = k then g (s.le k) else s.le j := Tab.get_put ..
@[simp] theorem State.trc_setTrc (s : State) (k : Nat) (v : Trc) (j : Nat) : (s.setTrc k v).trc j = if j = k then v else s.trc j :=
  Tab.get_put ..
@[simp] theorem State.trc_modTrc (s : State) (k : Nat) (g : Trc → Trc) (j : Nat) :
    (s.modTrc k g).trc j = if j = k then g (s.trc k) else s.trc j := Tab.get_put ..
@[simp] theorem State.eng_setEng (s : State) (k : Nat) (v : Engine) (j : Nat) : (s.setEng k v).eng j = if j = k then v else s.eng j :=
  Tab.get_put ..
@[simp] theorem State.eng_modEng (s : State) (k : Nat) (g : Engine → Engine) (j : Nat) :
    (s.modEng k g).eng j = if j = k then g (s.eng k) else s.eng j := Tab.get_put ..
@[simp] theorem State.herd_setHerd (s : State) (k : Nat) (v : Herd) (j : Nat) : (s.setHerd k v).herd j = if j = k then v else s.herd j :=
  Tab.get_put ..
@[simp] theorem State.herd_modHerd (s : State) (k : Nat) (g : Herd → Herd) (j : Nat) :
    (s.modHerd k g).herd j = if j = k then g (s.herd k) else s.herd j := Tab.get_put ..
@[simp] theorem State.isl_setIsl (s : State) (k : Nat) (v : Isl) (j : Nat) : (s.setIsl k v).isl j = if j = k then v else s.isl j :=
  Tab.get_put ..
@[simp] theorem State.isl_modIsl (s : State) (k : Nat) (g : Isl → Isl) (j : Nat) :
    (s.modIsl k g).isl j = if j = k then g (s.isl k) else s.isl j := Tab.get_put ..
@[simp] theorem State.xing_setXing (s : State) (k : Nat) (v : Xing) (j : Nat) : (s.setXing k v).xing j = if j = k then v else s.xing j :=
  Tab.get_put ..
@[simp] theorem State.xing_modXing (s : State) (k : Nat) (g : Xing → Xing) (j : Nat) :
    (s.modXing k g).xing j = if j = k then g (s.xing k) else s.xing j := Tab.get_put ..
@[simp] theorem State.mbx_setMbx (s : State) (k : Nat) (v : Mbx) (j : Nat) : (s.setMbx k v).mbx j = if j = k then v else s.mbx j :=
  Tab.get_put ..
@[simp] theorem State.mbx_modMbx (s : State) (k : Nat) (g : Mbx → Mbx) (j : Nat) :
    (s.modMbx k g).mbx j = if j = k then g (s.mbx k) else s.mbx j := Tab.get_put ..
@[simp] theorem State.ring_setRing (s : State) (k : Nat) (v : Ring) (j : Nat) : (s.setRing k v).ring j = if j = k then v else s.ring j :=
  Tab.get_put ..
@[simp] theorem State.ring_modRing (s : State) (k : Nat) (g : Ring → Ring) (j : Nat) :
    (s.modRing k g).ring j = if j = k then g (s.ring k) else s.ring j := Tab.get_put ..
@[simp] theorem State.acc_setAcc (s : State) (k : Nat) (v : Acc) (j : Nat) : (s.setAcc k v).acc j = if j = k then v else s.acc j :=
  Tab.get_put ..
@[simp] theorem State.acc_modAcc (s : State) (k : Nat) (g : Acc → Acc) (j : Nat) :
    (s.modAcc k g).acc j = if j = k then g (s.acc k) else s.acc j := Tab.get_put ..
@[simp] theorem State.key_setKey (s : State) (k : Nat) (v : KeySlot) (j : Nat) : (s.setKey k v).key j = if j = k then v else s.key j :=
  Tab.get_put ..
@[simp] theorem State.key_modKey (s : State) (k : Nat) (g : KeySlot → KeySlot) (j : Nat) :
    (s.modKey k g).key j = if j = k then g (s.key k) else s.key j := Tab.get_put ..

end Sys2Proof.Machine
end

