-- ==== Sys2Proof/Laws/Ops.lean ====
section
/-! SUPPORT. What each shared operation leaves alone, and what it does to the row it names. -/
namespace Sys2Proof.Machine

open Sys2Proof

@[simp] theorem State.touch_pending (s : State) (f : Nat) : (s.touch f).pending = s.pending := (rfl)
@[simp] theorem State.touch_now (s : State) (f : Nat) : (s.touch f).now = s.now := (rfl)
@[simp] theorem State.touch_fresh (s : State) (f : Nat) : (s.touch f).fresh = s.fresh := (rfl)
@[simp] theorem State.touch_out (s : State) (f : Nat) : (s.touch f).out = s.out := (rfl)
@[simp] theorem State.touch_cfg (s : State) (f : Nat) : (s.touch f).cfg = s.cfg := (rfl)
@[simp] theorem State.touch_glb (s : State) (f : Nat) : (s.touch f).glb = s.glb := (rfl)
@[simp] theorem State.touch_fns (s : State) (f : Nat) : (s.touch f).fns = s.fns := (rfl)
@[simp] theorem State.touch_fn (s : State) (f : Nat) (j : Nat) : (s.touch f).fn j = s.fn j := (rfl)
@[simp] theorem State.touch_sqs (s : State) (f : Nat) : (s.touch f).sqs = s.sqs := (rfl)
@[simp] theorem State.touch_sq (s : State) (f : Nat) (j : Nat) : (s.touch f).sq j = s.sq j := (rfl)
@[simp] theorem State.touch_cqs (s : State) (f : Nat) : (s.touch f).cqs = s.cqs := (rfl)
@[simp] theorem State.touch_cq (s : State) (f : Nat) (j : Nat) : (s.touch f).cq j = s.cq j := (rfl)
@[simp] theorem State.touch_ledger (s : State) (f : Nat) : (s.touch f).ledger = s.ledger := (rfl)
@[simp] theorem State.touch_ldg (s : State) (f : Nat) : (s.touch f).ldg = s.ldg := (rfl)
@[simp] theorem State.touch_recs (s : State) (f : Nat) : (s.touch f).recs = s.recs := (rfl)
@[simp] theorem State.touch_recNext (s : State) (f : Nat) : (s.touch f).recNext = s.recNext := (rfl)
@[simp] theorem State.touch_nss (s : State) (f : Nat) : (s.touch f).nss = s.nss := (rfl)
@[simp] theorem State.touch_ns (s : State) (f : Nat) (j : Nat) : (s.touch f).ns j = s.ns j := (rfl)
@[simp] theorem State.touch_zones (s : State) (f : Nat) : (s.touch f).zones = s.zones := (rfl)
@[simp] theorem State.touch_zone (s : State) (f : Nat) (j : Nat) : (s.touch f).zone j = s.zone j := (rfl)
@[simp] theorem State.touch_stage (s : State) (f : Nat) : (s.touch f).stage = s.stage := (rfl)
@[simp] theorem State.touch_media (s : State) (f : Nat) : (s.touch f).media = s.media := (rfl)
@[simp] theorem State.touch_acts (s : State) (f : Nat) : (s.touch f).acts = s.acts := (rfl)
@[simp] theorem State.touch_act (s : State) (f : Nat) (j : Nat) : (s.touch f).act j = s.act j := (rfl)
@[simp] theorem State.touch_bays (s : State) (f : Nat) : (s.touch f).bays = s.bays := (rfl)
@[simp] theorem State.touch_bay (s : State) (f : Nat) (j : Nat) : (s.touch f).bay j = s.bay j := (rfl)
@[simp] theorem State.touch_doms (s : State) (f : Nat) : (s.touch f).doms = s.doms := (rfl)
@[simp] theorem State.touch_dom (s : State) (f : Nat) (j : Nat) : (s.touch f).dom j = s.dom j := (rfl)
@[simp] theorem State.touch_pwr (s : State) (f : Nat) : (s.touch f).pwr = s.pwr := (rfl)
@[simp] theorem State.touch_les (s : State) (f : Nat) : (s.touch f).les = s.les := (rfl)
@[simp] theorem State.touch_le (s : State) (f : Nat) (j : Nat) : (s.touch f).le j = s.le j := (rfl)
@[simp] theorem State.touch_trcs (s : State) (f : Nat) : (s.touch f).trcs = s.trcs := (rfl)
@[simp] theorem State.touch_trc (s : State) (f : Nat) (j : Nat) : (s.touch f).trc j = s.trc j := (rfl)
@[simp] theorem State.touch_trcSel (s : State) (f : Nat) : (s.touch f).trcSel = s.trcSel := (rfl)
@[simp] theorem State.touch_engines (s : State) (f : Nat) : (s.touch f).engines = s.engines := (rfl)
@[simp] theorem State.touch_eng (s : State) (f : Nat) (j : Nat) : (s.touch f).eng j = s.eng j := (rfl)
@[simp] theorem State.touch_pool (s : State) (f : Nat) : (s.touch f).pool = s.pool := (rfl)
@[simp] theorem State.touch_herds (s : State) (f : Nat) : (s.touch f).herds = s.herds := (rfl)
@[simp] theorem State.touch_herd (s : State) (f : Nat) (j : Nat) : (s.touch f).herd j = s.herd j := (rfl)
@[simp] theorem State.touch_mem (s : State) (f : Nat) : (s.touch f).mem = s.mem := (rfl)
@[simp] theorem State.touch_ram (s : State) (f : Nat) : (s.touch f).ram = s.ram := (rfl)
@[simp] theorem State.touch_cache (s : State) (f : Nat) : (s.touch f).cache = s.cache := (rfl)
@[simp] theorem State.touch_cal (s : State) (f : Nat) : (s.touch f).cal = s.cal := (rfl)
@[simp] theorem State.touch_thm (s : State) (f : Nat) : (s.touch f).thm = s.thm := (rfl)
@[simp] theorem State.touch_clk (s : State) (f : Nat) : (s.touch f).clk = s.clk := (rfl)
@[simp] theorem State.touch_isls (s : State) (f : Nat) : (s.touch f).isls = s.isls := (rfl)
@[simp] theorem State.touch_isl (s : State) (f : Nat) (j : Nat) : (s.touch f).isl j = s.isl j := (rfl)
@[simp] theorem State.touch_xings (s : State) (f : Nat) : (s.touch f).xings = s.xings := (rfl)
@[simp] theorem State.touch_xing (s : State) (f : Nat) (j : Nat) : (s.touch f).xing j = s.xing j := (rfl)
@[simp] theorem State.touch_mbxs (s : State) (f : Nat) : (s.touch f).mbxs = s.mbxs := (rfl)
@[simp] theorem State.touch_mbx (s : State) (f : Nat) (j : Nat) : (s.touch f).mbx j = s.mbx j := (rfl)
@[simp] theorem State.touch_evt (s : State) (f : Nat) : (s.touch f).evt = s.evt := (rfl)
@[simp] theorem State.touch_rings (s : State) (f : Nat) : (s.touch f).rings = s.rings := (rfl)
@[simp] theorem State.touch_ring (s : State) (f : Nat) (j : Nat) : (s.touch f).ring j = s.ring j := (rfl)
@[simp] theorem State.touch_accs (s : State) (f : Nat) : (s.touch f).accs = s.accs := (rfl)
@[simp] theorem State.touch_acc (s : State) (f : Nat) (j : Nat) : (s.touch f).acc j = s.acc j := (rfl)
@[simp] theorem State.touch_tally (s : State) (f : Nat) : (s.touch f).tally = s.tally := (rfl)
@[simp] theorem State.touch_boot (s : State) (f : Nat) : (s.touch f).boot = s.boot := (rfl)
@[simp] theorem State.touch_keys (s : State) (f : Nat) : (s.touch f).keys = s.keys := (rfl)
@[simp] theorem State.touch_key (s : State) (f : Nat) (j : Nat) : (s.touch f).key j = s.key j := (rfl)
@[simp] theorem State.touch_sans (s : State) (f : Nat) : (s.touch f).sans = s.sans := (rfl)
@[simp] theorem State.touch_fmts (s : State) (f : Nat) : (s.touch f).fmts = s.fmts := (rfl)
@[simp] theorem State.touch_opNext (s : State) (f : Nat) : (s.touch f).opNext = s.opNext := (rfl)
@[simp] theorem State.raise_pending (s : State) (e : Nat) : (s.raise e).pending = s.pending := (rfl)
@[simp] theorem State.raise_now (s : State) (e : Nat) : (s.raise e).now = s.now := (rfl)
@[simp] theorem State.raise_fresh (s : State) (e : Nat) : (s.raise e).fresh = s.fresh := (rfl)
@[simp] theorem State.raise_out (s : State) (e : Nat) : (s.raise e).out = s.out := (rfl)
@[simp] theorem State.raise_cfg (s : State) (e : Nat) : (s.raise e).cfg = s.cfg := (rfl)
@[simp] theorem State.raise_glb (s : State) (e : Nat) : (s.raise e).glb = s.glb := (rfl)
@[simp] theorem State.raise_ports (s : State) (e : Nat) : (s.raise e).ports = s.ports := (rfl)
@[simp] theorem State.raise_port (s : State) (e : Nat) (j : Nat) : (s.raise e).port j = s.port j := (rfl)
@[simp] theorem State.raise_fns (s : State) (e : Nat) : (s.raise e).fns = s.fns := (rfl)
@[simp] theorem State.raise_fn (s : State) (e : Nat) (j : Nat) : (s.raise e).fn j = s.fn j := (rfl)
@[simp] theorem State.raise_sqs (s : State) (e : Nat) : (s.raise e).sqs = s.sqs := (rfl)
@[simp] theorem State.raise_sq (s : State) (e : Nat) (j : Nat) : (s.raise e).sq j = s.sq j := (rfl)
@[simp] theorem State.raise_cqs (s : State) (e : Nat) : (s.raise e).cqs = s.cqs := (rfl)
@[simp] theorem State.raise_cq (s : State) (e : Nat) (j : Nat) : (s.raise e).cq j = s.cq j := (rfl)
@[simp] theorem State.raise_ledger (s : State) (e : Nat) : (s.raise e).ledger = s.ledger := (rfl)
@[simp] theorem State.raise_ldg (s : State) (e : Nat) : (s.raise e).ldg = s.ldg := (rfl)
@[simp] theorem State.raise_recs (s : State) (e : Nat) : (s.raise e).recs = s.recs := (rfl)
@[simp] theorem State.raise_recNext (s : State) (e : Nat) : (s.raise e).recNext = s.recNext := (rfl)
@[simp] theorem State.raise_nss (s : State) (e : Nat) : (s.raise e).nss = s.nss := (rfl)
@[simp] theorem State.raise_ns (s : State) (e : Nat) (j : Nat) : (s.raise e).ns j = s.ns j := (rfl)
@[simp] theorem State.raise_zones (s : State) (e : Nat) : (s.raise e).zones = s.zones := (rfl)
@[simp] theorem State.raise_zone (s : State) (e : Nat) (j : Nat) : (s.raise e).zone j = s.zone j := (rfl)
@[simp] theorem State.raise_stage (s : State) (e : Nat) : (s.raise e).stage = s.stage := (rfl)
@[simp] theorem State.raise_media (s : State) (e : Nat) : (s.raise e).media = s.media := (rfl)
@[simp] theorem State.raise_acts (s : State) (e : Nat) : (s.raise e).acts = s.acts := (rfl)
@[simp] theorem State.raise_act (s : State) (e : Nat) (j : Nat) : (s.raise e).act j = s.act j := (rfl)
@[simp] theorem State.raise_bays (s : State) (e : Nat) : (s.raise e).bays = s.bays := (rfl)
@[simp] theorem State.raise_bay (s : State) (e : Nat) (j : Nat) : (s.raise e).bay j = s.bay j := (rfl)
@[simp] theorem State.raise_doms (s : State) (e : Nat) : (s.raise e).doms = s.doms := (rfl)
@[simp] theorem State.raise_dom (s : State) (e : Nat) (j : Nat) : (s.raise e).dom j = s.dom j := (rfl)
@[simp] theorem State.raise_pwr (s : State) (e : Nat) : (s.raise e).pwr = s.pwr := (rfl)
@[simp] theorem State.raise_les (s : State) (e : Nat) : (s.raise e).les = s.les := (rfl)
@[simp] theorem State.raise_le (s : State) (e : Nat) (j : Nat) : (s.raise e).le j = s.le j := (rfl)
@[simp] theorem State.raise_trcs (s : State) (e : Nat) : (s.raise e).trcs = s.trcs := (rfl)
@[simp] theorem State.raise_trc (s : State) (e : Nat) (j : Nat) : (s.raise e).trc j = s.trc j := (rfl)
@[simp] theorem State.raise_trcSel (s : State) (e : Nat) : (s.raise e).trcSel = s.trcSel := (rfl)
@[simp] theorem State.raise_engines (s : State) (e : Nat) : (s.raise e).engines = s.engines := (rfl)
@[simp] theorem State.raise_eng (s : State) (e : Nat) (j : Nat) : (s.raise e).eng j = s.eng j := (rfl)
@[simp] theorem State.raise_pool (s : State) (e : Nat) : (s.raise e).pool = s.pool := (rfl)
@[simp] theorem State.raise_herds (s : State) (e : Nat) : (s.raise e).herds = s.herds := (rfl)
@[simp] theorem State.raise_herd (s : State) (e : Nat) (j : Nat) : (s.raise e).herd j = s.herd j := (rfl)
@[simp] theorem State.raise_mem (s : State) (e : Nat) : (s.raise e).mem = s.mem := (rfl)
@[simp] theorem State.raise_ram (s : State) (e : Nat) : (s.raise e).ram = s.ram := (rfl)
@[simp] theorem State.raise_cache (s : State) (e : Nat) : (s.raise e).cache = s.cache := (rfl)
@[simp] theorem State.raise_cal (s : State) (e : Nat) : (s.raise e).cal = s.cal := (rfl)
@[simp] theorem State.raise_thm (s : State) (e : Nat) : (s.raise e).thm = s.thm := (rfl)
@[simp] theorem State.raise_clk (s : State) (e : Nat) : (s.raise e).clk = s.clk := (rfl)
@[simp] theorem State.raise_isls (s : State) (e : Nat) : (s.raise e).isls = s.isls := (rfl)
@[simp] theorem State.raise_isl (s : State) (e : Nat) (j : Nat) : (s.raise e).isl j = s.isl j := (rfl)
@[simp] theorem State.raise_xings (s : State) (e : Nat) : (s.raise e).xings = s.xings := (rfl)
@[simp] theorem State.raise_xing (s : State) (e : Nat) (j : Nat) : (s.raise e).xing j = s.xing j := (rfl)
@[simp] theorem State.raise_mbxs (s : State) (e : Nat) : (s.raise e).mbxs = s.mbxs := (rfl)
@[simp] theorem State.raise_mbx (s : State) (e : Nat) (j : Nat) : (s.raise e).mbx j = s.mbx j := (rfl)
@[simp] theorem State.raise_rings (s : State) (e : Nat) : (s.raise e).rings = s.rings := (rfl)
@[simp] theorem State.raise_ring (s : State) (e : Nat) (j : Nat) : (s.raise e).ring j = s.ring j := (rfl)
@[simp] theorem State.raise_accs (s : State) (e : Nat) : (s.raise e).accs = s.accs := (rfl)
@[simp] theorem State.raise_acc (s : State) (e : Nat) (j : Nat) : (s.raise e).acc j = s.acc j := (rfl)
@[simp] theorem State.raise_tally (s : State) (e : Nat) : (s.raise e).tally = s.tally := (rfl)
@[simp] theorem State.raise_boot (s : State) (e : Nat) : (s.raise e).boot = s.boot := (rfl)
@[simp] theorem State.raise_keys (s : State) (e : Nat) : (s.raise e).keys = s.keys := (rfl)
@[simp] theorem State.raise_key (s : State) (e : Nat) (j : Nat) : (s.raise e).key j = s.key j := (rfl)
@[simp] theorem State.raise_sans (s : State) (e : Nat) : (s.raise e).sans = s.sans := (rfl)
@[simp] theorem State.raise_fmts (s : State) (e : Nat) : (s.raise e).fmts = s.fmts := (rfl)
@[simp] theorem State.raise_opNext (s : State) (e : Nat) : (s.raise e).opNext = s.opNext := (rfl)
@[simp] theorem State.raiseFn_pending (s : State) (f b : Nat) : (s.raiseFn f b).pending = s.pending := by unfold State.raiseFn; dsimp only; split <;> rfl
@[simp] theorem State.raiseFn_now (s : State) (f b : Nat) : (s.raiseFn f b).now = s.now := by unfold State.raiseFn; dsimp only; split <;> rfl
@[simp] theorem State.raiseFn_fresh (s : State) (f b : Nat) : (s.raiseFn f b).fresh = s.fresh := by unfold State.raiseFn; dsimp only; split <;> rfl
@[simp] theorem State.raiseFn_out (s : State) (f b : Nat) : (s.raiseFn f b).out = s.out := by unfold State.raiseFn; dsimp only; split <;> rfl
@[simp] theorem State.raiseFn_cfg (s : State) (f b : Nat) : (s.raiseFn f b).cfg = s.cfg := by unfold State.raiseFn; dsimp only; split <;> rfl
@[simp] theorem State.raiseFn_glb (s : State) (f b : Nat) : (s.raiseFn f b).glb = s.glb := by unfold State.raiseFn; dsimp only; split <;> rfl
@[simp] theorem State.raiseFn_ports (s : State) (f b : Nat) : (s.raiseFn f b).ports = s.ports := by unfold State.raiseFn; dsimp only; split <;> rfl
@[simp] theorem State.raiseFn_port (s : State) (f b : Nat) (j : Nat) : (s.raiseFn f b).port j = s.port j := by unfold State.raiseFn; dsimp only; split <;> rfl
@[simp] theorem State.raiseFn_sqs (s : State) (f b : Nat) : (s.raiseFn f b).sqs = s.sqs := by unfold State.raiseFn; dsimp only; split <;> rfl
@[simp] theorem State.raiseFn_sq (s : State) (f b : Nat) (j : Nat) : (s.raiseFn f b).sq j = s.sq j := by unfold State.raiseFn; dsimp only; split <;> rfl
@[simp] theorem State.raiseFn_cqs (s : State) (f b : Nat) : (s.raiseFn f b).cqs = s.cqs := by unfold State.raiseFn; dsimp only; split <;> rfl
@[simp] theorem State.raiseFn_cq (s : State) (f b : Nat) (j : Nat) : (s.raiseFn f b).cq j = s.cq j := by unfold State.raiseFn; dsimp only; split <;> rfl
@[simp] theorem State.raiseFn_ledger (s : State) (f b : Nat) : (s.raiseFn f b).ledger = s.ledger := by unfold State.raiseFn; dsimp only; split <;> rfl
@[simp] theorem State.raiseFn_ldg (s : State) (f b : Nat) : (s.raiseFn f b).ldg = s.ldg := by unfold State.raiseFn; dsimp only; split <;> rfl
@[simp] theorem State.raiseFn_recs (s : State) (f b : Nat) : (s.raiseFn f b).recs = s.recs := by unfold State.raiseFn; dsimp only; split <;> rfl
@[simp] theorem State.raiseFn_recNext (s : State) (f b : Nat) : (s.raiseFn f b).recNext = s.recNext := by unfold State.raiseFn; dsimp only; split <;> rfl
@[simp] theorem State.raiseFn_nss (s : State) (f b : Nat) : (s.raiseFn f b).nss = s.nss := by unfold State.raiseFn; dsimp only; split <;> rfl
@[simp] theorem State.raiseFn_ns (s : State) (f b : Nat) (j : Nat) : (s.raiseFn f b).ns j = s.ns j := by unfold State.raiseFn; dsimp only; split <;> rfl
@[simp] theorem State.raiseFn_zones (s : State) (f b : Nat) : (s.raiseFn f b).zones = s.zones := by unfold State.raiseFn; dsimp only; split <;> rfl
@[simp] theorem State.raiseFn_zone (s : State) (f b : Nat) (j : Nat) : (s.raiseFn f b).zone j = s.zone j := by unfold State.raiseFn; dsimp only; split <;> rfl
@[simp] theorem State.raiseFn_stage (s : State) (f b : Nat) : (s.raiseFn f b).stage = s.stage := by unfold State.raiseFn; dsimp only; split <;> rfl
@[simp] theorem State.raiseFn_media (s : State) (f b : Nat) : (s.raiseFn f b).media = s.media := by unfold State.raiseFn; dsimp only; split <;> rfl
@[simp] theorem State.raiseFn_acts (s : State) (f b : Nat) : (s.raiseFn f b).acts = s.acts := by unfold State.raiseFn; dsimp only; split <;> rfl
@[simp] theorem State.raiseFn_act (s : State) (f b : Nat) (j : Nat) : (s.raiseFn f b).act j = s.act j := by unfold State.raiseFn; dsimp only; split <;> rfl
@[simp] theorem State.raiseFn_bays (s : State) (f b : Nat) : (s.raiseFn f b).bays = s.bays := by unfold State.raiseFn; dsimp only; split <;> rfl
@[simp] theorem State.raiseFn_bay (s : State) (f b : Nat) (j : Nat) : (s.raiseFn f b).bay j = s.bay j := by unfold State.raiseFn; dsimp only; split <;> rfl
@[simp] theorem State.raiseFn_doms (s : State) (f b : Nat) : (s.raiseFn f b).doms = s.doms := by unfold State.raiseFn; dsimp only; split <;> rfl
@[simp] theorem State.raiseFn_dom (s : State) (f b : Nat) (j : Nat) : (s.raiseFn f b).dom j = s.dom j := by unfold State.raiseFn; dsimp only; split <;> rfl
@[simp] theorem State.raiseFn_pwr (s : State) (f b : Nat) : (s.raiseFn f b).pwr = s.pwr := by unfold State.raiseFn; dsimp only; split <;> rfl
@[simp] theorem State.raiseFn_les (s : State) (f b : Nat) : (s.raiseFn f b).les = s.les := by unfold State.raiseFn; dsimp only; split <;> rfl
@[simp] theorem State.raiseFn_le (s : State) (f b : Nat) (j : Nat) : (s.raiseFn f b).le j = s.le j := by unfold State.raiseFn; dsimp only; split <;> rfl
@[simp] theorem State.raiseFn_trcs (s : State) (f b : Nat) : (s.raiseFn f b).trcs = s.trcs := by unfold State.raiseFn; dsimp only; split <;> rfl
@[simp] theorem State.raiseFn_trc (s : State) (f b : Nat) (j : Nat) : (s.raiseFn f b).trc j = s.trc j := by unfold State.raiseFn; dsimp only; split <;> rfl
@[simp] theorem State.raiseFn_trcSel (s : State) (f b : Nat) : (s.raiseFn f b).trcSel = s.trcSel := by unfold State.raiseFn; dsimp only; split <;> rfl
@[simp] theorem State.raiseFn_engines (s : State) (f b : Nat) : (s.raiseFn f b).engines = s.engines := by unfold State.raiseFn; dsimp only; split <;> rfl
@[simp] theorem State.raiseFn_eng (s : State) (f b : Nat) (j : Nat) : (s.raiseFn f b).eng j = s.eng j := by unfold State.raiseFn; dsimp only; split <;> rfl
@[simp] theorem State.raiseFn_pool (s : State) (f b : Nat) : (s.raiseFn f b).pool = s.pool := by unfold State.raiseFn; dsimp only; split <;> rfl
@[simp] theorem State.raiseFn_herds (s : State) (f b : Nat) : (s.raiseFn f b).herds = s.herds := by unfold State.raiseFn; dsimp only; split <;> rfl
@[simp] theorem State.raiseFn_herd (s : State) (f b : Nat) (j : Nat) : (s.raiseFn f b).herd j = s.herd j := by unfold State.raiseFn; dsimp only; split <;> rfl
@[simp] theorem State.raiseFn_mem (s : State) (f b : Nat) : (s.raiseFn f b).mem = s.mem := by unfold State.raiseFn; dsimp only; split <;> rfl
@[simp] theorem State.raiseFn_ram (s : State) (f b : Nat) : (s.raiseFn f b).ram = s.ram := by unfold State.raiseFn; dsimp only; split <;> rfl
@[simp] theorem State.raiseFn_cache (s : State) (f b : Nat) : (s.raiseFn f b).cache = s.cache := by unfold State.raiseFn; dsimp only; split <;> rfl
@[simp] theorem State.raiseFn_cal (s : State) (f b : Nat) : (s.raiseFn f b).cal = s.cal := by unfold State.raiseFn; dsimp only; split <;> rfl
@[simp] theorem State.raiseFn_thm (s : State) (f b : Nat) : (s.raiseFn f b).thm = s.thm := by unfold State.raiseFn; dsimp only; split <;> rfl
@[simp] theorem State.raiseFn_clk (s : State) (f b : Nat) : (s.raiseFn f b).clk = s.clk := by unfold State.raiseFn; dsimp only; split <;> rfl
@[simp] theorem State.raiseFn_isls (s : State) (f b : Nat) : (s.raiseFn f b).isls = s.isls := by unfold State.raiseFn; dsimp only; split <;> rfl
@[simp] theorem State.raiseFn_isl (s : State) (f b : Nat) (j : Nat) : (s.raiseFn f b).isl j = s.isl j := by unfold State.raiseFn; dsimp only; split <;> rfl
@[simp] theorem State.raiseFn_xings (s : State) (f b : Nat) : (s.raiseFn f b).xings = s.xings := by unfold State.raiseFn; dsimp only; split <;> rfl
@[simp] theorem State.raiseFn_xing (s : State) (f b : Nat) (j : Nat) : (s.raiseFn f b).xing j = s.xing j := by unfold State.raiseFn; dsimp only; split <;> rfl
@[simp] theorem State.raiseFn_mbxs (s : State) (f b : Nat) : (s.raiseFn f b).mbxs = s.mbxs := by unfold State.raiseFn; dsimp only; split <;> rfl
@[simp] theorem State.raiseFn_mbx (s : State) (f b : Nat) (j : Nat) : (s.raiseFn f b).mbx j = s.mbx j := by unfold State.raiseFn; dsimp only; split <;> rfl
@[simp] theorem State.raiseFn_rings (s : State) (f b : Nat) : (s.raiseFn f b).rings = s.rings := by unfold State.raiseFn; dsimp only; split <;> rfl
@[simp] theorem State.raiseFn_ring (s : State) (f b : Nat) (j : Nat) : (s.raiseFn f b).ring j = s.ring j := by unfold State.raiseFn; dsimp only; split <;> rfl
@[simp] theorem State.raiseFn_accs (s : State) (f b : Nat) : (s.raiseFn f b).accs = s.accs := by unfold State.raiseFn; dsimp only; split <;> rfl
@[simp] theorem State.raiseFn_acc (s : State) (f b : Nat) (j : Nat) : (s.raiseFn f b).acc j = s.acc j := by unfold State.raiseFn; dsimp only; split <;> rfl
@[simp] theorem State.raiseFn_tally (s : State) (f b : Nat) : (s.raiseFn f b).tally = s.tally := by unfold State.raiseFn; dsimp only; split <;> rfl
@[simp] theorem State.raiseFn_boot (s : State) (f b : Nat) : (s.raiseFn f b).boot = s.boot := by unfold State.raiseFn; dsimp only; split <;> rfl
@[simp] theorem State.raiseFn_keys (s : State) (f b : Nat) : (s.raiseFn f b).keys = s.keys := by unfold State.raiseFn; dsimp only; split <;> rfl
@[simp] theorem State.raiseFn_key (s : State) (f b : Nat) (j : Nat) : (s.raiseFn f b).key j = s.key j := by unfold State.raiseFn; dsimp only; split <;> rfl
@[simp] theorem State.raiseFn_sans (s : State) (f b : Nat) : (s.raiseFn f b).sans = s.sans := by unfold State.raiseFn; dsimp only; split <;> rfl
@[simp] theorem State.raiseFn_fmts (s : State) (f b : Nat) : (s.raiseFn f b).fmts = s.fmts := by unfold State.raiseFn; dsimp only; split <;> rfl
@[simp] theorem State.raiseFn_opNext (s : State) (f b : Nat) : (s.raiseFn f b).opNext = s.opNext := by unfold State.raiseFn; dsimp only; split <;> rfl
@[simp] theorem State.portFault_pending (s : State) (f i : Nat) : (s.portFault f i).pending = s.pending := by unfold State.portFault; simp
@[simp] theorem State.portFault_now (s : State) (f i : Nat) : (s.portFault f i).now = s.now := by unfold State.portFault; simp
@[simp] theorem State.portFault_fresh (s : State) (f i : Nat) : (s.portFault f i).fresh = s.fresh := by unfold State.portFault; simp
@[simp] theorem State.portFault_out (s : State) (f i : Nat) : (s.portFault f i).out = s.out := by unfold State.portFault; simp
@[simp] theorem State.portFault_cfg (s : State) (f i : Nat) : (s.portFault f i).cfg = s.cfg := by unfold State.portFault; simp
@[simp] theorem State.portFault_glb (s : State) (f i : Nat) : (s.portFault f i).glb = s.glb := by unfold State.portFault; simp
@[simp] theorem State.portFault_ports (s : State) (f i : Nat) : (s.portFault f i).ports = s.ports := by unfold State.portFault; simp
@[simp] theorem State.portFault_port (s : State) (f i : Nat) (j : Nat) : (s.portFault f i).port j = s.port j := by unfold State.portFault; simp
@[simp] theorem State.portFault_sqs (s : State) (f i : Nat) : (s.portFault f i).sqs = s.sqs := by unfold State.portFault; simp
@[simp] theorem State.portFault_sq (s : State) (f i : Nat) (j : Nat) : (s.portFault f i).sq j = s.sq j := by unfold State.portFault; simp
@[simp] theorem State.portFault_cqs (s : State) (f i : Nat) : (s.portFault f i).cqs = s.cqs := by unfold State.portFault; simp
@[simp] theorem State.portFault_cq (s : State) (f i : Nat) (j : Nat) : (s.portFault f i).cq j = s.cq j := by unfold State.portFault; simp
@[simp] theorem State.portFault_ledger (s : State) (f i : Nat) : (s.portFault f i).ledger = s.ledger := by unfold State.portFault; simp
@[simp] theorem State.portFault_ldg (s : State) (f i : Nat) : (s.portFault f i).ldg = s.ldg := by unfold State.portFault; simp
@[simp] theorem State.portFault_recs (s : State) (f i : Nat) : (s.portFault f i).recs = s.recs := by unfold State.portFault; simp
@[simp] theorem State.portFault_recNext (s : State) (f i : Nat) : (s.portFault f i).recNext = s.recNext := by unfold State.portFault; simp
@[simp] theorem State.portFault_nss (s : State) (f i : Nat) : (s.portFault f i).nss = s.nss := by unfold State.portFault; simp
@[simp] theorem State.portFault_ns (s : State) (f i : Nat) (j : Nat) : (s.portFault f i).ns j = s.ns j := by unfold State.portFault; simp
@[simp] theorem State.portFault_zones (s : State) (f i : Nat) : (s.portFault f i).zones = s.zones := by unfold State.portFault; simp
@[simp] theorem State.portFault_zone (s : State) (f i : Nat) (j : Nat) : (s.portFault f i).zone j = s.zone j := by unfold State.portFault; simp
@[simp] theorem State.portFault_stage (s : State) (f i : Nat) : (s.portFault f i).stage = s.stage := by unfold State.portFault; simp
@[simp] theorem State.portFault_media (s : State) (f i : Nat) : (s.portFault f i).media = s.media := by unfold State.portFault; simp
@[simp] theorem State.portFault_acts (s : State) (f i : Nat) : (s.portFault f i).acts = s.acts := by unfold State.portFault; simp
@[simp] theorem State.portFault_act (s : State) (f i : Nat) (j : Nat) : (s.portFault f i).act j = s.act j := by unfold State.portFault; simp
@[simp] theorem State.portFault_bays (s : State) (f i : Nat) : (s.portFault f i).bays = s.bays := by unfold State.portFault; simp
@[simp] theorem State.portFault_bay (s : State) (f i : Nat) (j : Nat) : (s.portFault f i).bay j = s.bay j := by unfold State.portFault; simp
@[simp] theorem State.portFault_doms (s : State) (f i : Nat) : (s.portFault f i).doms = s.doms := by unfold State.portFault; simp
@[simp] theorem State.portFault_dom (s : State) (f i : Nat) (j : Nat) : (s.portFault f i).dom j = s.dom j := by unfold State.portFault; simp
@[simp] theorem State.portFault_pwr (s : State) (f i : Nat) : (s.portFault f i).pwr = s.pwr := by unfold State.portFault; simp
@[simp] theorem State.portFault_les (s : State) (f i : Nat) : (s.portFault f i).les = s.les := by unfold State.portFault; simp
@[simp] theorem State.portFault_le (s : State) (f i : Nat) (j : Nat) : (s.portFault f i).le j = s.le j := by unfold State.portFault; simp
@[simp] theorem State.portFault_trcs (s : State) (f i : Nat) : (s.portFault f i).trcs = s.trcs := by unfold State.portFault; simp
@[simp] theorem State.portFault_trc (s : State) (f i : Nat) (j : Nat) : (s.portFault f i).trc j = s.trc j := by unfold State.portFault; simp
@[simp] theorem State.portFault_trcSel (s : State) (f i : Nat) : (s.portFault f i).trcSel = s.trcSel := by unfold State.portFault; simp
@[simp] theorem State.portFault_engines (s : State) (f i : Nat) : (s.portFault f i).engines = s.engines := by unfold State.portFault; simp
@[simp] theorem State.portFault_eng (s : State) (f i : Nat) (j : Nat) : (s.portFault f i).eng j = s.eng j := by unfold State.portFault; simp
@[simp] theorem State.portFault_pool (s : State) (f i : Nat) : (s.portFault f i).pool = s.pool := by unfold State.portFault; simp
@[simp] theorem State.portFault_herds (s : State) (f i : Nat) : (s.portFault f i).herds = s.herds := by unfold State.portFault; simp
@[simp] theorem State.portFault_herd (s : State) (f i : Nat) (j : Nat) : (s.portFault f i).herd j = s.herd j := by unfold State.portFault; simp
@[simp] theorem State.portFault_mem (s : State) (f i : Nat) : (s.portFault f i).mem = s.mem := by unfold State.portFault; simp
@[simp] theorem State.portFault_ram (s : State) (f i : Nat) : (s.portFault f i).ram = s.ram := by unfold State.portFault; simp
@[simp] theorem State.portFault_cache (s : State) (f i : Nat) : (s.portFault f i).cache = s.cache := by unfold State.portFault; simp
@[simp] theorem State.portFault_cal (s : State) (f i : Nat) : (s.portFault f i).cal = s.cal := by unfold State.portFault; simp
@[simp] theorem State.portFault_thm (s : State) (f i : Nat) : (s.portFault f i).thm = s.thm := by unfold State.portFault; simp
@[simp] theorem State.portFault_clk (s : State) (f i : Nat) : (s.portFault f i).clk = s.clk := by unfold State.portFault; simp
@[simp] theorem State.portFault_isls (s : State) (f i : Nat) : (s.portFault f i).isls = s.isls := by unfold State.portFault; simp
@[simp] theorem State.portFault_isl (s : State) (f i : Nat) (j : Nat) : (s.portFault f i).isl j = s.isl j := by unfold State.portFault; simp
@[simp] theorem State.portFault_xings (s : State) (f i : Nat) : (s.portFault f i).xings = s.xings := by unfold State.portFault; simp
@[simp] theorem State.portFault_xing (s : State) (f i : Nat) (j : Nat) : (s.portFault f i).xing j = s.xing j := by unfold State.portFault; simp
@[simp] theorem State.portFault_mbxs (s : State) (f i : Nat) : (s.portFault f i).mbxs = s.mbxs := by unfold State.portFault; simp
@[simp] theorem State.portFault_mbx (s : State) (f i : Nat) (j : Nat) : (s.portFault f i).mbx j = s.mbx j := by unfold State.portFault; simp
@[simp] theorem State.portFault_rings (s : State) (f i : Nat) : (s.portFault f i).rings = s.rings := by unfold State.portFault; simp
@[simp] theorem State.portFault_ring (s : State) (f i : Nat) (j : Nat) : (s.portFault f i).ring j = s.ring j := by unfold State.portFault; simp
@[simp] theorem State.portFault_accs (s : State) (f i : Nat) : (s.portFault f i).accs = s.accs := by unfold State.portFault; simp
@[simp] theorem State.portFault_acc (s : State) (f i : Nat) (j : Nat) : (s.portFault f i).acc j = s.acc j := by unfold State.portFault; simp
@[simp] theorem State.portFault_tally (s : State) (f i : Nat) : (s.portFault f i).tally = s.tally := by unfold State.portFault; simp
@[simp] theorem State.portFault_boot (s : State) (f i : Nat) : (s.portFault f i).boot = s.boot := by unfold State.portFault; simp
@[simp] theorem State.portFault_keys (s : State) (f i : Nat) : (s.portFault f i).keys = s.keys := by unfold State.portFault; simp
@[simp] theorem State.portFault_key (s : State) (f i : Nat) (j : Nat) : (s.portFault f i).key j = s.key j := by unfold State.portFault; simp
@[simp] theorem State.portFault_sans (s : State) (f i : Nat) : (s.portFault f i).sans = s.sans := by unfold State.portFault; simp
@[simp] theorem State.portFault_fmts (s : State) (f i : Nat) : (s.portFault f i).fmts = s.fmts := by unfold State.portFault; simp
@[simp] theorem State.portFault_opNext (s : State) (f i : Nat) : (s.portFault f i).opNext = s.opNext := by unfold State.portFault; simp
@[simp] theorem State.logPort_pending (s : State) (f c : Nat) : (s.logPort f c).pending = s.pending := (rfl)
@[simp] theorem State.logPort_now (s : State) (f c : Nat) : (s.logPort f c).now = s.now := (rfl)
@[simp] theorem State.logPort_fresh (s : State) (f c : Nat) : (s.logPort f c).fresh = s.fresh := (rfl)
@[simp] theorem State.logPort_out (s : State) (f c : Nat) : (s.logPort f c).out = s.out := (rfl)
@[simp] theorem State.logPort_cfg (s : State) (f c : Nat) : (s.logPort f c).cfg = s.cfg := (rfl)
@[simp] theorem State.logPort_glb (s : State) (f c : Nat) : (s.logPort f c).glb = s.glb := (rfl)
@[simp] theorem State.logPort_fns (s : State) (f c : Nat) : (s.logPort f c).fns = s.fns := (rfl)
@[simp] theorem State.logPort_fn (s : State) (f c : Nat) (j : Nat) : (s.logPort f c).fn j = s.fn j := (rfl)
@[simp] theorem State.logPort_sqs (s : State) (f c : Nat) : (s.logPort f c).sqs = s.sqs := (rfl)
@[simp] theorem State.logPort_sq (s : State) (f c : Nat) (j : Nat) : (s.logPort f c).sq j = s.sq j := (rfl)
@[simp] theorem State.logPort_cqs (s : State) (f c : Nat) : (s.logPort f c).cqs = s.cqs := (rfl)
@[simp] theorem State.logPort_cq (s : State) (f c : Nat) (j : Nat) : (s.logPort f c).cq j = s.cq j := (rfl)
@[simp] theorem State.logPort_ledger (s : State) (f c : Nat) : (s.logPort f c).ledger = s.ledger := (rfl)
@[simp] theorem State.logPort_ldg (s : State) (f c : Nat) : (s.logPort f c).ldg = s.ldg := (rfl)
@[simp] theorem State.logPort_recs (s : State) (f c : Nat) : (s.logPort f c).recs = s.recs := (rfl)
@[simp] theorem State.logPort_recNext (s : State) (f c : Nat) : (s.logPort f c).recNext = s.recNext := (rfl)
@[simp] theorem State.logPort_nss (s : State) (f c : Nat) : (s.logPort f c).nss = s.nss := (rfl)
@[simp] theorem State.logPort_ns (s : State) (f c : Nat) (j : Nat) : (s.logPort f c).ns j = s.ns j := (rfl)
@[simp] theorem State.logPort_zones (s : State) (f c : Nat) : (s.logPort f c).zones = s.zones := (rfl)
@[simp] theorem State.logPort_zone (s : State) (f c : Nat) (j : Nat) : (s.logPort f c).zone j = s.zone j := (rfl)
@[simp] theorem State.logPort_stage (s : State) (f c : Nat) : (s.logPort f c).stage = s.stage := (rfl)
@[simp] theorem State.logPort_media (s : State) (f c : Nat) : (s.logPort f c).media = s.media := (rfl)
@[simp] theorem State.logPort_acts (s : State) (f c : Nat) : (s.logPort f c).acts = s.acts := (rfl)
@[simp] theorem State.logPort_act (s : State) (f c : Nat) (j : Nat) : (s.logPort f c).act j = s.act j := (rfl)
@[simp] theorem State.logPort_bays (s : State) (f c : Nat) : (s.logPort f c).bays = s.bays := (rfl)
@[simp] theorem State.logPort_bay (s : State) (f c : Nat) (j : Nat) : (s.logPort f c).bay j = s.bay j := (rfl)
@[simp] theorem State.logPort_doms (s : State) (f c : Nat) : (s.logPort f c).doms = s.doms := (rfl)
@[simp] theorem State.logPort_dom (s : State) (f c : Nat) (j : Nat) : (s.logPort f c).dom j = s.dom j := (rfl)
@[simp] theorem State.logPort_pwr (s : State) (f c : Nat) : (s.logPort f c).pwr = s.pwr := (rfl)
@[simp] theorem State.logPort_les (s : State) (f c : Nat) : (s.logPort f c).les = s.les := (rfl)
@[simp] theorem State.logPort_le (s : State) (f c : Nat) (j : Nat) : (s.logPort f c).le j = s.le j := (rfl)
@[simp] theorem State.logPort_trcs (s : State) (f c : Nat) : (s.logPort f c).trcs = s.trcs := (rfl)
@[simp] theorem State.logPort_trc (s : State) (f c : Nat) (j : Nat) : (s.logPort f c).trc j = s.trc j := (rfl)
@[simp] theorem State.logPort_trcSel (s : State) (f c : Nat) : (s.logPort f c).trcSel = s.trcSel := (rfl)
@[simp] theorem State.logPort_engines (s : State) (f c : Nat) : (s.logPort f c).engines = s.engines := (rfl)
@[simp] theorem State.logPort_eng (s : State) (f c : Nat) (j : Nat) : (s.logPort f c).eng j = s.eng j := (rfl)
@[simp] theorem State.logPort_pool (s : State) (f c : Nat) : (s.logPort f c).pool = s.pool := (rfl)
@[simp] theorem State.logPort_herds (s : State) (f c : Nat) : (s.logPort f c).herds = s.herds := (rfl)
@[simp] theorem State.logPort_herd (s : State) (f c : Nat) (j : Nat) : (s.logPort f c).herd j = s.herd j := (rfl)
@[simp] theorem State.logPort_mem (s : State) (f c : Nat) : (s.logPort f c).mem = s.mem := (rfl)
@[simp] theorem State.logPort_ram (s : State) (f c : Nat) : (s.logPort f c).ram = s.ram := (rfl)
@[simp] theorem State.logPort_cache (s : State) (f c : Nat) : (s.logPort f c).cache = s.cache := (rfl)
@[simp] theorem State.logPort_cal (s : State) (f c : Nat) : (s.logPort f c).cal = s.cal := (rfl)
@[simp] theorem State.logPort_thm (s : State) (f c : Nat) : (s.logPort f c).thm = s.thm := (rfl)
@[simp] theorem State.logPort_clk (s : State) (f c : Nat) : (s.logPort f c).clk = s.clk := (rfl)
@[simp] theorem State.logPort_isls (s : State) (f c : Nat) : (s.logPort f c).isls = s.isls := (rfl)
@[simp] theorem State.logPort_isl (s : State) (f c : Nat) (j : Nat) : (s.logPort f c).isl j = s.isl j := (rfl)
@[simp] theorem State.logPort_xings (s : State) (f c : Nat) : (s.logPort f c).xings = s.xings := (rfl)
@[simp] theorem State.logPort_xing (s : State) (f c : Nat) (j : Nat) : (s.logPort f c).xing j = s.xing j := (rfl)
@[simp] theorem State.logPort_mbxs (s : State) (f c : Nat) : (s.logPort f c).mbxs = s.mbxs := (rfl)
@[simp] theorem State.logPort_mbx (s : State) (f c : Nat) (j : Nat) : (s.logPort f c).mbx j = s.mbx j := (rfl)
@[simp] theorem State.logPort_evt (s : State) (f c : Nat) : (s.logPort f c).evt = s.evt := (rfl)
@[simp] theorem State.logPort_rings (s : State) (f c : Nat) : (s.logPort f c).rings = s.rings := (rfl)
@[simp] theorem State.logPort_ring (s : State) (f c : Nat) (j : Nat) : (s.logPort f c).ring j = s.ring j := (rfl)
@[simp] theorem State.logPort_accs (s : State) (f c : Nat) : (s.logPort f c).accs = s.accs := (rfl)
@[simp] theorem State.logPort_acc (s : State) (f c : Nat) (j : Nat) : (s.logPort f c).acc j = s.acc j := (rfl)
@[simp] theorem State.logPort_tally (s : State) (f c : Nat) : (s.logPort f c).tally = s.tally := (rfl)
@[simp] theorem State.logPort_boot (s : State) (f c : Nat) : (s.logPort f c).boot = s.boot := (rfl)
@[simp] theorem State.logPort_keys (s : State) (f c : Nat) : (s.logPort f c).keys = s.keys := (rfl)
@[simp] theorem State.logPort_key (s : State) (f c : Nat) (j : Nat) : (s.logPort f c).key j = s.key j := (rfl)
@[simp] theorem State.logPort_sans (s : State) (f c : Nat) : (s.logPort f c).sans = s.sans := (rfl)
@[simp] theorem State.logPort_fmts (s : State) (f c : Nat) : (s.logPort f c).fmts = s.fmts := (rfl)
@[simp] theorem State.logPort_opNext (s : State) (f c : Nat) : (s.logPort f c).opNext = s.opNext := (rfl)
@[simp] theorem State.logQueue_pending (s : State) (f c : Nat) (b : Bool) (q : Nat) : (s.logQueue f c b q).pending = s.pending := by unfold State.logQueue; simp
@[simp] theorem State.logQueue_now (s : State) (f c : Nat) (b : Bool) (q : Nat) : (s.logQueue f c b q).now = s.now := by unfold State.logQueue; simp
@[simp] theorem State.logQueue_fresh (s : State) (f c : Nat) (b : Bool) (q : Nat) : (s.logQueue f c b q).fresh = s.fresh := by unfold State.logQueue; simp
@[simp] theorem State.logQueue_out (s : State) (f c : Nat) (b : Bool) (q : Nat) : (s.logQueue f c b q).out = s.out := by unfold State.logQueue; simp
@[simp] theorem State.logQueue_cfg (s : State) (f c : Nat) (b : Bool) (q : Nat) : (s.logQueue f c b q).cfg = s.cfg := by unfold State.logQueue; simp
@[simp] theorem State.logQueue_glb (s : State) (f c : Nat) (b : Bool) (q : Nat) : (s.logQueue f c b q).glb = s.glb := by unfold State.logQueue; simp
@[simp] theorem State.logQueue_ports (s : State) (f c : Nat) (b : Bool) (q : Nat) : (s.logQueue f c b q).ports = s.ports := by unfold State.logQueue; simp
@[simp] theorem State.logQueue_port (s : State) (f c : Nat) (b : Bool) (q : Nat) (j : Nat) : (s.logQueue f c b q).port j = s.port j := by unfold State.logQueue; simp
@[simp] theorem State.logQueue_sqs (s : State) (f c : Nat) (b : Bool) (q : Nat) : (s.logQueue f c b q).sqs = s.sqs := by unfold State.logQueue; simp
@[simp] theorem State.logQueue_sq (s : State) (f c : Nat) (b : Bool) (q : Nat) (j : Nat) : (s.logQueue f c b q).sq j = s.sq j := by unfold State.logQueue; simp
@[simp] theorem State.logQueue_cqs (s : State) (f c : Nat) (b : Bool) (q : Nat) : (s.logQueue f c b q).cqs = s.cqs := by unfold State.logQueue; simp
@[simp] theorem State.logQueue_cq (s : State) (f c : Nat) (b : Bool) (q : Nat) (j : Nat) : (s.logQueue f c b q).cq j = s.cq j := by unfold State.logQueue; simp
@[simp] theorem State.logQueue_ledger (s : State) (f c : Nat) (b : Bool) (q : Nat) : (s.logQueue f c b q).ledger = s.ledger := by unfold State.logQueue; simp
@[simp] theorem State.logQueue_ldg (s : State) (f c : Nat) (b : Bool) (q : Nat) : (s.logQueue f c b q).ldg = s.ldg := by unfold State.logQueue; simp
@[simp] theorem State.logQueue_recs (s : State) (f c : Nat) (b : Bool) (q : Nat) : (s.logQueue f c b q).recs = s.recs := by unfold State.logQueue; simp
@[simp] theorem State.logQueue_recNext (s : State) (f c : Nat) (b : Bool) (q : Nat) : (s.logQueue f c b q).recNext = s.recNext := by unfold State.logQueue; simp
@[simp] theorem State.logQueue_nss (s : State) (f c : Nat) (b : Bool) (q : Nat) : (s.logQueue f c b q).nss = s.nss := by unfold State.logQueue; simp
@[simp] theorem State.logQueue_ns (s : State) (f c : Nat) (b : Bool) (q : Nat) (j : Nat) : (s.logQueue f c b q).ns j = s.ns j := by unfold State.logQueue; simp
@[simp] theorem State.logQueue_zones (s : State) (f c : Nat) (b : Bool) (q : Nat) : (s.logQueue f c b q).zones = s.zones := by unfold State.logQueue; simp
@[simp] theorem State.logQueue_zone (s : State) (f c : Nat) (b : Bool) (q : Nat) (j : Nat) : (s.logQueue f c b q).zone j = s.zone j := by unfold State.logQueue; simp
@[simp] theorem State.logQueue_stage (s : State) (f c : Nat) (b : Bool) (q : Nat) : (s.logQueue f c b q).stage = s.stage := by unfold State.logQueue; simp
@[simp] theorem State.logQueue_media (s : State) (f c : Nat) (b : Bool) (q : Nat) : (s.logQueue f c b q).media = s.media := by unfold State.logQueue; simp
@[simp] theorem State.logQueue_acts (s : State) (f c : Nat) (b : Bool) (q : Nat) : (s.logQueue f c b q).acts = s.acts := by unfold State.logQueue; simp
@[simp] theorem State.logQueue_act (s : State) (f c : Nat) (b : Bool) (q : Nat) (j : Nat) : (s.logQueue f c b q).act j = s.act j := by unfold State.logQueue; simp
@[simp] theorem State.logQueue_bays (s : State) (f c : Nat) (b : Bool) (q : Nat) : (s.logQueue f c b q).bays = s.bays := by unfold State.logQueue; simp
@[simp] theorem State.logQueue_bay (s : State) (f c : Nat) (b : Bool) (q : Nat) (j : Nat) : (s.logQueue f c b q).bay j = s.bay j := by unfold State.logQueue; simp
@[simp] theorem State.logQueue_doms (s : State) (f c : Nat) (b : Bool) (q : Nat) : (s.logQueue f c b q).doms = s.doms := by unfold State.logQueue; simp
@[simp] theorem State.logQueue_dom (s : State) (f c : Nat) (b : Bool) (q : Nat) (j : Nat) : (s.logQueue f c b q).dom j = s.dom j := by unfold State.logQueue; simp
@[simp] theorem State.logQueue_pwr (s : State) (f c : Nat) (b : Bool) (q : Nat) : (s.logQueue f c b q).pwr = s.pwr := by unfold State.logQueue; simp
@[simp] theorem State.logQueue_les (s : State) (f c : Nat) (b : Bool) (q : Nat) : (s.logQueue f c b q).les = s.les := by unfold State.logQueue; simp
@[simp] theorem State.logQueue_le (s : State) (f c : Nat) (b : Bool) (q : Nat) (j : Nat) : (s.logQueue f c b q).le j = s.le j := by unfold State.logQueue; simp
@[simp] theorem State.logQueue_trcs (s : State) (f c : Nat) (b : Bool) (q : Nat) : (s.logQueue f c b q).trcs = s.trcs := by unfold State.logQueue; simp
@[simp] theorem State.logQueue_trc (s : State) (f c : Nat) (b : Bool) (q : Nat) (j : Nat) : (s.logQueue f c b q).trc j = s.trc j := by unfold State.logQueue; simp
@[simp] theorem State.logQueue_trcSel (s : State) (f c : Nat) (b : Bool) (q : Nat) : (s.logQueue f c b q).trcSel = s.trcSel := by unfold State.logQueue; simp
@[simp] theorem State.logQueue_engines (s : State) (f c : Nat) (b : Bool) (q : Nat) : (s.logQueue f c b q).engines = s.engines := by unfold State.logQueue; simp
@[simp] theorem State.logQueue_eng (s : State) (f c : Nat) (b : Bool) (q : Nat) (j : Nat) : (s.logQueue f c b q).eng j = s.eng j := by unfold State.logQueue; simp
@[simp] theorem State.logQueue_pool (s : State) (f c : Nat) (b : Bool) (q : Nat) : (s.logQueue f c b q).pool = s.pool := by unfold State.logQueue; simp
@[simp] theorem State.logQueue_herds (s : State) (f c : Nat) (b : Bool) (q : Nat) : (s.logQueue f c b q).herds = s.herds := by unfold State.logQueue; simp
@[simp] theorem State.logQueue_herd (s : State) (f c : Nat) (b : Bool) (q : Nat) (j : Nat) : (s.logQueue f c b q).herd j = s.herd j := by unfold State.logQueue; simp
@[simp] theorem State.logQueue_mem (s : State) (f c : Nat) (b : Bool) (q : Nat) : (s.logQueue f c b q).mem = s.mem := by unfold State.logQueue; simp
@[simp] theorem State.logQueue_ram (s : State) (f c : Nat) (b : Bool) (q : Nat) : (s.logQueue f c b q).ram = s.ram := by unfold State.logQueue; simp
@[simp] theorem State.logQueue_cache (s : State) (f c : Nat) (b : Bool) (q : Nat) : (s.logQueue f c b q).cache = s.cache := by unfold State.logQueue; simp
@[simp] theorem State.logQueue_cal (s : State) (f c : Nat) (b : Bool) (q : Nat) : (s.logQueue f c b q).cal = s.cal := by unfold State.logQueue; simp
@[simp] theorem State.logQueue_thm (s : State) (f c : Nat) (b : Bool) (q : Nat) : (s.logQueue f c b q).thm = s.thm := by unfold State.logQueue; simp
@[simp] theorem State.logQueue_clk (s : State) (f c : Nat) (b : Bool) (q : Nat) : (s.logQueue f c b q).clk = s.clk := by unfold State.logQueue; simp
@[simp] theorem State.logQueue_isls (s : State) (f c : Nat) (b : Bool) (q : Nat) : (s.logQueue f c b q).isls = s.isls := by unfold State.logQueue; simp
@[simp] theorem State.logQueue_isl (s : State) (f c : Nat) (b : Bool) (q : Nat) (j : Nat) : (s.logQueue f c b q).isl j = s.isl j := by unfold State.logQueue; simp
@[simp] theorem State.logQueue_xings (s : State) (f c : Nat) (b : Bool) (q : Nat) : (s.logQueue f c b q).xings = s.xings := by unfold State.logQueue; simp
@[simp] theorem State.logQueue_xing (s : State) (f c : Nat) (b : Bool) (q : Nat) (j : Nat) : (s.logQueue f c b q).xing j = s.xing j := by unfold State.logQueue; simp
@[simp] theorem State.logQueue_mbxs (s : State) (f c : Nat) (b : Bool) (q : Nat) : (s.logQueue f c b q).mbxs = s.mbxs := by unfold State.logQueue; simp
@[simp] theorem State.logQueue_mbx (s : State) (f c : Nat) (b : Bool) (q : Nat) (j : Nat) : (s.logQueue f c b q).mbx j = s.mbx j := by unfold State.logQueue; simp
@[simp] theorem State.logQueue_rings (s : State) (f c : Nat) (b : Bool) (q : Nat) : (s.logQueue f c b q).rings = s.rings := by unfold State.logQueue; simp
@[simp] theorem State.logQueue_ring (s : State) (f c : Nat) (b : Bool) (q : Nat) (j : Nat) : (s.logQueue f c b q).ring j = s.ring j := by unfold State.logQueue; simp
@[simp] theorem State.logQueue_accs (s : State) (f c : Nat) (b : Bool) (q : Nat) : (s.logQueue f c b q).accs = s.accs := by unfold State.logQueue; simp
@[simp] theorem State.logQueue_acc (s : State) (f c : Nat) (b : Bool) (q : Nat) (j : Nat) : (s.logQueue f c b q).acc j = s.acc j := by unfold State.logQueue; simp
@[simp] theorem State.logQueue_tally (s : State) (f c : Nat) (b : Bool) (q : Nat) : (s.logQueue f c b q).tally = s.tally := by unfold State.logQueue; simp
@[simp] theorem State.logQueue_boot (s : State) (f c : Nat) (b : Bool) (q : Nat) : (s.logQueue f c b q).boot = s.boot := by unfold State.logQueue; simp
@[simp] theorem State.logQueue_keys (s : State) (f c : Nat) (b : Bool) (q : Nat) : (s.logQueue f c b q).keys = s.keys := by unfold State.logQueue; simp
@[simp] theorem State.logQueue_key (s : State) (f c : Nat) (b : Bool) (q : Nat) (j : Nat) : (s.logQueue f c b q).key j = s.key j := by unfold State.logQueue; simp
@[simp] theorem State.logQueue_sans (s : State) (f c : Nat) (b : Bool) (q : Nat) : (s.logQueue f c b q).sans = s.sans := by unfold State.logQueue; simp
@[simp] theorem State.logQueue_fmts (s : State) (f c : Nat) (b : Bool) (q : Nat) : (s.logQueue f c b q).fmts = s.fmts := by unfold State.logQueue; simp
@[simp] theorem State.logQueue_opNext (s : State) (f c : Nat) (b : Bool) (q : Nat) : (s.logQueue f c b q).opNext = s.opNext := by unfold State.logQueue; simp
@[simp] theorem State.emit_pending (s : State) (m : OutMsg) : (s.emit m).pending = s.pending := by unfold State.emit; dsimp only; split <;> rfl
@[simp] theorem State.emit_now (s : State) (m : OutMsg) : (s.emit m).now = s.now := by unfold State.emit; dsimp only; split <;> rfl
@[simp] theorem State.emit_fresh (s : State) (m : OutMsg) : (s.emit m).fresh = s.fresh := by unfold State.emit; dsimp only; split <;> rfl
@[simp] theorem State.emit_cfg (s : State) (m : OutMsg) : (s.emit m).cfg = s.cfg := by unfold State.emit; dsimp only; split <;> rfl
@[simp] theorem State.emit_glb (s : State) (m : OutMsg) : (s.emit m).glb = s.glb := by unfold State.emit; dsimp only; split <;> rfl
@[simp] theorem State.emit_fns (s : State) (m : OutMsg) : (s.emit m).fns = s.fns := by unfold State.emit; dsimp only; split <;> rfl
@[simp] theorem State.emit_fn (s : State) (m : OutMsg) (j : Nat) : (s.emit m).fn j = s.fn j := by unfold State.emit; dsimp only; split <;> rfl
@[simp] theorem State.emit_sqs (s : State) (m : OutMsg) : (s.emit m).sqs = s.sqs := by unfold State.emit; dsimp only; split <;> rfl
@[simp] theorem State.emit_sq (s : State) (m : OutMsg) (j : Nat) : (s.emit m).sq j = s.sq j := by unfold State.emit; dsimp only; split <;> rfl
@[simp] theorem State.emit_cqs (s : State) (m : OutMsg) : (s.emit m).cqs = s.cqs := by unfold State.emit; dsimp only; split <;> rfl
@[simp] theorem State.emit_cq (s : State) (m : OutMsg) (j : Nat) : (s.emit m).cq j = s.cq j := by unfold State.emit; dsimp only; split <;> rfl
@[simp] theorem State.emit_ledger (s : State) (m : OutMsg) : (s.emit m).ledger = s.ledger := by unfold State.emit; dsimp only; split <;> rfl
@[simp] theorem State.emit_ldg (s : State) (m : OutMsg) : (s.emit m).ldg = s.ldg := by unfold State.emit; dsimp only; split <;> rfl
@[simp] theorem State.emit_recs (s : State) (m : OutMsg) : (s.emit m).recs = s.recs := by unfold State.emit; dsimp only; split <;> rfl
@[simp] theorem State.emit_recNext (s : State) (m : OutMsg) : (s.emit m).recNext = s.recNext := by unfold State.emit; dsimp only; split <;> rfl
@[simp] theorem State.emit_nss (s : State) (m : OutMsg) : (s.emit m).nss = s.nss := by unfold State.emit; dsimp only; split <;> rfl
@[simp] theorem State.emit_ns (s : State) (m : OutMsg) (j : Nat) : (s.emit m).ns j = s.ns j := by unfold State.emit; dsimp only; split <;> rfl
@[simp] theorem State.emit_zones (s : State) (m : OutMsg) : (s.emit m).zones = s.zones := by unfold State.emit; dsimp only; split <;> rfl
@[simp] theorem State.emit_zone (s : State) (m : OutMsg) (j : Nat) : (s.emit m).zone j = s.zone j := by unfold State.emit; dsimp only; split <;> rfl
@[simp] theorem State.emit_stage (s : State) (m : OutMsg) : (s.emit m).stage = s.stage := by unfold State.emit; dsimp only; split <;> rfl
@[simp] theorem State.emit_media (s : State) (m : OutMsg) : (s.emit m).media = s.media := by unfold State.emit; dsimp only; split <;> rfl
@[simp] theorem State.emit_acts (s : State) (m : OutMsg) : (s.emit m).acts = s.acts := by unfold State.emit; dsimp only; split <;> rfl
@[simp] theorem State.emit_act (s : State) (m : OutMsg) (j : Nat) : (s.emit m).act j = s.act j := by unfold State.emit; dsimp only; split <;> rfl
@[simp] theorem State.emit_bays (s : State) (m : OutMsg) : (s.emit m).bays = s.bays := by unfold State.emit; dsimp only; split <;> rfl
@[simp] theorem State.emit_bay (s : State) (m : OutMsg) (j : Nat) : (s.emit m).bay j = s.bay j := by unfold State.emit; dsimp only; split <;> rfl
@[simp] theorem State.emit_doms (s : State) (m : OutMsg) : (s.emit m).doms = s.doms := by unfold State.emit; dsimp only; split <;> rfl
@[simp] theorem State.emit_dom (s : State) (m : OutMsg) (j : Nat) : (s.emit m).dom j = s.dom j := by unfold State.emit; dsimp only; split <;> rfl
@[simp] theorem State.emit_pwr (s : State) (m : OutMsg) : (s.emit m).pwr = s.pwr := by unfold State.emit; dsimp only; split <;> rfl
@[simp] theorem State.emit_les (s : State) (m : OutMsg) : (s.emit m).les = s.les := by unfold State.emit; dsimp only; split <;> rfl
@[simp] theorem State.emit_le (s : State) (m : OutMsg) (j : Nat) : (s.emit m).le j = s.le j := by unfold State.emit; dsimp only; split <;> rfl
@[simp] theorem State.emit_trcs (s : State) (m : OutMsg) : (s.emit m).trcs = s.trcs := by unfold State.emit; dsimp only; split <;> rfl
@[simp] theorem State.emit_trc (s : State) (m : OutMsg) (j : Nat) : (s.emit m).trc j = s.trc j := by unfold State.emit; dsimp only; split <;> rfl
@[simp] theorem State.emit_trcSel (s : State) (m : OutMsg) : (s.emit m).trcSel = s.trcSel := by unfold State.emit; dsimp only; split <;> rfl
@[simp] theorem State.emit_engines (s : State) (m : OutMsg) : (s.emit m).engines = s.engines := by unfold State.emit; dsimp only; split <;> rfl
@[simp] theorem State.emit_eng (s : State) (m : OutMsg) (j : Nat) : (s.emit m).eng j = s.eng j := by unfold State.emit; dsimp only; split <;> rfl
@[simp] theorem State.emit_pool (s : State) (m : OutMsg) : (s.emit m).pool = s.pool := by unfold State.emit; dsimp only; split <;> rfl
@[simp] theorem State.emit_herds (s : State) (m : OutMsg) : (s.emit m).herds = s.herds := by unfold State.emit; dsimp only; split <;> rfl
@[simp] theorem State.emit_herd (s : State) (m : OutMsg) (j : Nat) : (s.emit m).herd j = s.herd j := by unfold State.emit; dsimp only; split <;> rfl
@[simp] theorem State.emit_mem (s : State) (m : OutMsg) : (s.emit m).mem = s.mem := by unfold State.emit; dsimp only; split <;> rfl
@[simp] theorem State.emit_ram (s : State) (m : OutMsg) : (s.emit m).ram = s.ram := by unfold State.emit; dsimp only; split <;> rfl
@[simp] theorem State.emit_cache (s : State) (m : OutMsg) : (s.emit m).cache = s.cache := by unfold State.emit; dsimp only; split <;> rfl
@[simp] theorem State.emit_cal (s : State) (m : OutMsg) : (s.emit m).cal = s.cal := by unfold State.emit; dsimp only; split <;> rfl
@[simp] theorem State.emit_thm (s : State) (m : OutMsg) : (s.emit m).thm = s.thm := by unfold State.emit; dsimp only; split <;> rfl
@[simp] theorem State.emit_clk (s : State) (m : OutMsg) : (s.emit m).clk = s.clk := by unfold State.emit; dsimp only; split <;> rfl
@[simp] theorem State.emit_isls (s : State) (m : OutMsg) : (s.emit m).isls = s.isls := by unfold State.emit; dsimp only; split <;> rfl
@[simp] theorem State.emit_isl (s : State) (m : OutMsg) (j : Nat) : (s.emit m).isl j = s.isl j := by unfold State.emit; dsimp only; split <;> rfl
@[simp] theorem State.emit_xings (s : State) (m : OutMsg) : (s.emit m).xings = s.xings := by unfold State.emit; dsimp only; split <;> rfl
@[simp] theorem State.emit_xing (s : State) (m : OutMsg) (j : Nat) : (s.emit m).xing j = s.xing j := by unfold State.emit; dsimp only; split <;> rfl
@[simp] theorem State.emit_mbxs (s : State) (m : OutMsg) : (s.emit m).mbxs = s.mbxs := by unfold State.emit; dsimp only; split <;> rfl
@[simp] theorem State.emit_mbx (s : State) (m : OutMsg) (j : Nat) : (s.emit m).mbx j = s.mbx j := by unfold State.emit; dsimp only; split <;> rfl
@[simp] theorem State.emit_evt (s : State) (m : OutMsg) : (s.emit m).evt = s.evt := by unfold State.emit; dsimp only; split <;> rfl
@[simp] theorem State.emit_rings (s : State) (m : OutMsg) : (s.emit m).rings = s.rings := by unfold State.emit; dsimp only; split <;> rfl
@[simp] theorem State.emit_ring (s : State) (m : OutMsg) (j : Nat) : (s.emit m).ring j = s.ring j := by unfold State.emit; dsimp only; split <;> rfl
@[simp] theorem State.emit_accs (s : State) (m : OutMsg) : (s.emit m).accs = s.accs := by unfold State.emit; dsimp only; split <;> rfl
@[simp] theorem State.emit_acc (s : State) (m : OutMsg) (j : Nat) : (s.emit m).acc j = s.acc j := by unfold State.emit; dsimp only; split <;> rfl
@[simp] theorem State.emit_tally (s : State) (m : OutMsg) : (s.emit m).tally = s.tally := by unfold State.emit; dsimp only; split <;> rfl
@[simp] theorem State.emit_boot (s : State) (m : OutMsg) : (s.emit m).boot = s.boot := by unfold State.emit; dsimp only; split <;> rfl
@[simp] theorem State.emit_keys (s : State) (m : OutMsg) : (s.emit m).keys = s.keys := by unfold State.emit; dsimp only; split <;> rfl
@[simp] theorem State.emit_key (s : State) (m : OutMsg) (j : Nat) : (s.emit m).key j = s.key j := by unfold State.emit; dsimp only; split <;> rfl
@[simp] theorem State.emit_sans (s : State) (m : OutMsg) : (s.emit m).sans = s.sans := by unfold State.emit; dsimp only; split <;> rfl
@[simp] theorem State.emit_fmts (s : State) (m : OutMsg) : (s.emit m).fmts = s.fmts := by unfold State.emit; dsimp only; split <;> rfl
@[simp] theorem State.emit_opNext (s : State) (m : OutMsg) : (s.emit m).opNext = s.opNext := by unfold State.emit; dsimp only; split <;> rfl
@[simp] theorem State.useFree_pending (s : State) : (s.useFree ).pending = s.pending := (rfl)
@[simp] theorem State.useFree_now (s : State) : (s.useFree ).now = s.now := (rfl)
@[simp] theorem State.useFree_out (s : State) : (s.useFree ).out = s.out := (rfl)
@[simp] theorem State.useFree_cfg (s : State) : (s.useFree ).cfg = s.cfg := (rfl)
@[simp] theorem State.useFree_glb (s : State) : (s.useFree ).glb = s.glb := (rfl)
@[simp] theorem State.useFree_ports (s : State) : (s.useFree ).ports = s.ports := (rfl)
@[simp] theorem State.useFree_port (s : State) (j : Nat) : (s.useFree ).port j = s.port j := (rfl)
@[simp] theorem State.useFree_fns (s : State) : (s.useFree ).fns = s.fns := (rfl)
@[simp] theorem State.useFree_fn (s : State) (j : Nat) : (s.useFree ).fn j = s.fn j := (rfl)
@[simp] theorem State.useFree_sqs (s : State) : (s.useFree ).sqs = s.sqs := (rfl)
@[simp] theorem State.useFree_sq (s : State) (j : Nat) : (s.useFree ).sq j = s.sq j := (rfl)
@[simp] theorem State.useFree_cqs (s : State) : (s.useFree ).cqs = s.cqs := (rfl)
@[simp] theorem State.useFree_cq (s : State) (j : Nat) : (s.useFree ).cq j = s.cq j := (rfl)
@[simp] theorem State.useFree_ledger (s : State) : (s.useFree ).ledger = s.ledger := (rfl)
@[simp] theorem State.useFree_ldg (s : State) : (s.useFree ).ldg = s.ldg := (rfl)
@[simp] theorem State.useFree_recs (s : State) : (s.useFree ).recs = s.recs := (rfl)
@[simp] theorem State.useFree_recNext (s : State) : (s.useFree ).recNext = s.recNext := (rfl)
@[simp] theorem State.useFree_nss (s : State) : (s.useFree ).nss = s.nss := (rfl)
@[simp] theorem State.useFree_ns (s : State) (j : Nat) : (s.useFree ).ns j = s.ns j := (rfl)
@[simp] theorem State.useFree_zones (s : State) : (s.useFree ).zones = s.zones := (rfl)
@[simp] theorem State.useFree_zone (s : State) (j : Nat) : (s.useFree ).zone j = s.zone j := (rfl)
@[simp] theorem State.useFree_stage (s : State) : (s.useFree ).stage = s.stage := (rfl)
@[simp] theorem State.useFree_media (s : State) : (s.useFree ).media = s.media := (rfl)
@[simp] theorem State.useFree_acts (s : State) : (s.useFree ).acts = s.acts := (rfl)
@[simp] theorem State.useFree_act (s : State) (j : Nat) : (s.useFree ).act j = s.act j := (rfl)
@[simp] theorem State.useFree_bays (s : State) : (s.useFree ).bays = s.bays := (rfl)
@[simp] theorem State.useFree_bay (s : State) (j : Nat) : (s.useFree ).bay j = s.bay j := (rfl)
@[simp] theorem State.useFree_doms (s : State) : (s.useFree ).doms = s.doms := (rfl)
@[simp] theorem State.useFree_dom (s : State) (j : Nat) : (s.useFree ).dom j = s.dom j := (rfl)
@[simp] theorem State.useFree_pwr (s : State) : (s.useFree ).pwr = s.pwr := (rfl)
@[simp] theorem State.useFree_les (s : State) : (s.useFree ).les = s.les := (rfl)
@[simp] theorem State.useFree_le (s : State) (j : Nat) : (s.useFree ).le j = s.le j := (rfl)
@[simp] theorem State.useFree_trcs (s : State) : (s.useFree ).trcs = s.trcs := (rfl)
@[simp] theorem State.useFree_trc (s : State) (j : Nat) : (s.useFree ).trc j = s.trc j := (rfl)
@[simp] theorem State.useFree_trcSel (s : State) : (s.useFree ).trcSel = s.trcSel := (rfl)
@[simp] theorem State.useFree_engines (s : State) : (s.useFree ).engines = s.engines := (rfl)
@[simp] theorem State.useFree_eng (s : State) (j : Nat) : (s.useFree ).eng j = s.eng j := (rfl)
@[simp] theorem State.useFree_pool (s : State) : (s.useFree ).pool = s.pool := (rfl)
@[simp] theorem State.useFree_herds (s : State) : (s.useFree ).herds = s.herds := (rfl)
@[simp] theorem State.useFree_herd (s : State) (j : Nat) : (s.useFree ).herd j = s.herd j := (rfl)
@[simp] theorem State.useFree_mem (s : State) : (s.useFree ).mem = s.mem := (rfl)
@[simp] theorem State.useFree_ram (s : State) : (s.useFree ).ram = s.ram := (rfl)
@[simp] theorem State.useFree_cache (s : State) : (s.useFree ).cache = s.cache := (rfl)
@[simp] theorem State.useFree_cal (s : State) : (s.useFree ).cal = s.cal := (rfl)
@[simp] theorem State.useFree_thm (s : State) : (s.useFree ).thm = s.thm := (rfl)
@[simp] theorem State.useFree_clk (s : State) : (s.useFree ).clk = s.clk := (rfl)
@[simp] theorem State.useFree_isls (s : State) : (s.useFree ).isls = s.isls := (rfl)
@[simp] theorem State.useFree_isl (s : State) (j : Nat) : (s.useFree ).isl j = s.isl j := (rfl)
@[simp] theorem State.useFree_xings (s : State) : (s.useFree ).xings = s.xings := (rfl)
@[simp] theorem State.useFree_xing (s : State) (j : Nat) : (s.useFree ).xing j = s.xing j := (rfl)
@[simp] theorem State.useFree_mbxs (s : State) : (s.useFree ).mbxs = s.mbxs := (rfl)
@[simp] theorem State.useFree_mbx (s : State) (j : Nat) : (s.useFree ).mbx j = s.mbx j := (rfl)
@[simp] theorem State.useFree_evt (s : State) : (s.useFree ).evt = s.evt := (rfl)
@[simp] theorem State.useFree_rings (s : State) : (s.useFree ).rings = s.rings := (rfl)
@[simp] theorem State.useFree_ring (s : State) (j : Nat) : (s.useFree ).ring j = s.ring j := (rfl)
@[simp] theorem State.useFree_accs (s : State) : (s.useFree ).accs = s.accs := (rfl)
@[simp] theorem State.useFree_acc (s : State) (j : Nat) : (s.useFree ).acc j = s.acc j := (rfl)
@[simp] theorem State.useFree_tally (s : State) : (s.useFree ).tally = s.tally := (rfl)
@[simp] theorem State.useFree_boot (s : State) : (s.useFree ).boot = s.boot := (rfl)
@[simp] theorem State.useFree_keys (s : State) : (s.useFree ).keys = s.keys := (rfl)
@[simp] theorem State.useFree_key (s : State) (j : Nat) : (s.useFree ).key j = s.key j := (rfl)
@[simp] theorem State.useFree_sans (s : State) : (s.useFree ).sans = s.sans := (rfl)
@[simp] theorem State.useFree_fmts (s : State) : (s.useFree ).fmts = s.fmts := (rfl)
@[simp] theorem State.useFree_opNext (s : State) : (s.useFree ).opNext = s.opNext := (rfl)
@[simp] theorem State.modAdm_pending (s : State) (a : Nat) (g : Adm → Adm) : (s.modAdm a g).pending = s.pending := (rfl)
@[simp] theorem State.modAdm_now (s : State) (a : Nat) (g : Adm → Adm) : (s.modAdm a g).now = s.now := (rfl)
@[simp] theorem State.modAdm_fresh (s : State) (a : Nat) (g : Adm → Adm) : (s.modAdm a g).fresh = s.fresh := (rfl)
@[simp] theorem State.modAdm_out (s : State) (a : Nat) (g : Adm → Adm) : (s.modAdm a g).out = s.out := (rfl)
@[simp] theorem State.modAdm_cfg (s : State) (a : Nat) (g : Adm → Adm) : (s.modAdm a g).cfg = s.cfg := (rfl)
@[simp] theorem State.modAdm_glb (s : State) (a : Nat) (g : Adm → Adm) : (s.modAdm a g).glb = s.glb := (rfl)
@[simp] theorem State.modAdm_ports (s : State) (a : Nat) (g : Adm → Adm) : (s.modAdm a g).ports = s.ports := (rfl)
@[simp] theorem State.modAdm_port (s : State) (a : Nat) (g : Adm → Adm) (j : Nat) : (s.modAdm a g).port j = s.port j := (rfl)
@[simp] theorem State.modAdm_fns (s : State) (a : Nat) (g : Adm → Adm) : (s.modAdm a g).fns = s.fns := (rfl)
@[simp] theorem State.modAdm_fn (s : State) (a : Nat) (g : Adm → Adm) (j : Nat) : (s.modAdm a g).fn j = s.fn j := (rfl)
@[simp] theorem State.modAdm_sqs (s : State) (a : Nat) (g : Adm → Adm) : (s.modAdm a g).sqs = s.sqs := (rfl)
@[simp] theorem State.modAdm_sq (s : State) (a : Nat) (g : Adm → Adm) (j : Nat) : (s.modAdm a g).sq j = s.sq j := (rfl)
@[simp] theorem State.modAdm_cqs (s : State) (a : Nat) (g : Adm → Adm) : (s.modAdm a g).cqs = s.cqs := (rfl)
@[simp] theorem State.modAdm_cq (s : State) (a : Nat) (g : Adm → Adm) (j : Nat) : (s.modAdm a g).cq j = s.cq j := (rfl)
@[simp] theorem State.modAdm_ledger (s : State) (a : Nat) (g : Adm → Adm) : (s.modAdm a g).ledger = s.ledger := (rfl)
@[simp] theorem State.modAdm_ldg (s : State) (a : Nat) (g : Adm → Adm) : (s.modAdm a g).ldg = s.ldg := (rfl)
@[simp] theorem State.modAdm_recs (s : State) (a : Nat) (g : Adm → Adm) : (s.modAdm a g).recs = s.recs := (rfl)
@[simp] theorem State.modAdm_recNext (s : State) (a : Nat) (g : Adm → Adm) : (s.modAdm a g).recNext = s.recNext := (rfl)
@[simp] theorem State.modAdm_nss (s : State) (a : Nat) (g : Adm → Adm) : (s.modAdm a g).nss = s.nss := (rfl)
@[simp] theorem State.modAdm_ns (s : State) (a : Nat) (g : Adm → Adm) (j : Nat) : (s.modAdm a g).ns j = s.ns j := (rfl)
@[simp] theorem State.modAdm_zones (s : State) (a : Nat) (g : Adm → Adm) : (s.modAdm a g).zones = s.zones := (rfl)
@[simp] theorem State.modAdm_zone (s : State) (a : Nat) (g : Adm → Adm) (j : Nat) : (s.modAdm a g).zone j = s.zone j := (rfl)
@[simp] theorem State.modAdm_stage (s : State) (a : Nat) (g : Adm → Adm) : (s.modAdm a g).stage = s.stage := (rfl)
@[simp] theorem State.modAdm_media (s : State) (a : Nat) (g : Adm → Adm) : (s.modAdm a g).media = s.media := (rfl)
@[simp] theorem State.modAdm_bays (s : State) (a : Nat) (g : Adm → Adm) : (s.modAdm a g).bays = s.bays := (rfl)
@[simp] theorem State.modAdm_bay (s : State) (a : Nat) (g : Adm → Adm) (j : Nat) : (s.modAdm a g).bay j = s.bay j := (rfl)
@[simp] theorem State.modAdm_doms (s : State) (a : Nat) (g : Adm → Adm) : (s.modAdm a g).doms = s.doms := (rfl)
@[simp] theorem State.modAdm_dom (s : State) (a : Nat) (g : Adm → Adm) (j : Nat) : (s.modAdm a g).dom j = s.dom j := (rfl)
@[simp] theorem State.modAdm_pwr (s : State) (a : Nat) (g : Adm → Adm) : (s.modAdm a g).pwr = s.pwr := (rfl)
@[simp] theorem State.modAdm_les (s : State) (a : Nat) (g : Adm → Adm) : (s.modAdm a g).les = s.les := (rfl)
@[simp] theorem State.modAdm_le (s : State) (a : Nat) (g : Adm → Adm) (j : Nat) : (s.modAdm a g).le j = s.le j := (rfl)
@[simp] theorem State.modAdm_trcs (s : State) (a : Nat) (g : Adm → Adm) : (s.modAdm a g).trcs = s.trcs := (rfl)
@[simp] theorem State.modAdm_trc (s : State) (a : Nat) (g : Adm → Adm) (j : Nat) : (s.modAdm a g).trc j = s.trc j := (rfl)
@[simp] theorem State.modAdm_trcSel (s : State) (a : Nat) (g : Adm → Adm) : (s.modAdm a g).trcSel = s.trcSel := (rfl)
@[simp] theorem State.modAdm_engines (s : State) (a : Nat) (g : Adm → Adm) : (s.modAdm a g).engines = s.engines := (rfl)
@[simp] theorem State.modAdm_eng (s : State) (a : Nat) (g : Adm → Adm) (j : Nat) : (s.modAdm a g).eng j = s.eng j := (rfl)
@[simp] theorem State.modAdm_pool (s : State) (a : Nat) (g : Adm → Adm) : (s.modAdm a g).pool = s.pool := (rfl)
@[simp] theorem State.modAdm_herds (s : State) (a : Nat) (g : Adm → Adm) : (s.modAdm a g).herds = s.herds := (rfl)
@[simp] theorem State.modAdm_herd (s : State) (a : Nat) (g : Adm → Adm) (j : Nat) : (s.modAdm a g).herd j = s.herd j := (rfl)
@[simp] theorem State.modAdm_mem (s : State) (a : Nat) (g : Adm → Adm) : (s.modAdm a g).mem = s.mem := (rfl)
@[simp] theorem State.modAdm_ram (s : State) (a : Nat) (g : Adm → Adm) : (s.modAdm a g).ram = s.ram := (rfl)
@[simp] theorem State.modAdm_cache (s : State) (a : Nat) (g : Adm → Adm) : (s.modAdm a g).cache = s.cache := (rfl)
@[simp] theorem State.modAdm_cal (s : State) (a : Nat) (g : Adm → Adm) : (s.modAdm a g).cal = s.cal := (rfl)
@[simp] theorem State.modAdm_thm (s : State) (a : Nat) (g : Adm → Adm) : (s.modAdm a g).thm = s.thm := (rfl)
@[simp] theorem State.modAdm_clk (s : State) (a : Nat) (g : Adm → Adm) : (s.modAdm a g).clk = s.clk := (rfl)
@[simp] theorem State.modAdm_isls (s : State) (a : Nat) (g : Adm → Adm) : (s.modAdm a g).isls = s.isls := (rfl)
@[simp] theorem State.modAdm_isl (s : State) (a : Nat) (g : Adm → Adm) (j : Nat) : (s.modAdm a g).isl j = s.isl j := (rfl)
@[simp] theorem State.modAdm_xings (s : State) (a : Nat) (g : Adm → Adm) : (s.modAdm a g).xings = s.xings := (rfl)
@[simp] theorem State.modAdm_xing (s : State) (a : Nat) (g : Adm → Adm) (j : Nat) : (s.modAdm a g).xing j = s.xing j := (rfl)
@[simp] theorem State.modAdm_mbxs (s : State) (a : Nat) (g : Adm → Adm) : (s.modAdm a g).mbxs = s.mbxs := (rfl)
@[simp] theorem State.modAdm_mbx (s : State) (a : Nat) (g : Adm → Adm) (j : Nat) : (s.modAdm a g).mbx j = s.mbx j := (rfl)
@[simp] theorem State.modAdm_evt (s : State) (a : Nat) (g : Adm → Adm) : (s.modAdm a g).evt = s.evt := (rfl)
@[simp] theorem State.modAdm_rings (s : State) (a : Nat) (g : Adm → Adm) : (s.modAdm a g).rings = s.rings := (rfl)
@[simp] theorem State.modAdm_ring (s : State) (a : Nat) (g : Adm → Adm) (j : Nat) : (s.modAdm a g).ring j = s.ring j := (rfl)
@[simp] theorem State.modAdm_accs (s : State) (a : Nat) (g : Adm → Adm) : (s.modAdm a g).accs = s.accs := (rfl)
@[simp] theorem State.modAdm_acc (s : State) (a : Nat) (g : Adm → Adm) (j : Nat) : (s.modAdm a g).acc j = s.acc j := (rfl)
@[simp] theorem State.modAdm_tally (s : State) (a : Nat) (g : Adm → Adm) : (s.modAdm a g).tally = s.tally := (rfl)
@[simp] theorem State.modAdm_boot (s : State) (a : Nat) (g : Adm → Adm) : (s.modAdm a g).boot = s.boot := (rfl)
@[simp] theorem State.modAdm_keys (s : State) (a : Nat) (g : Adm → Adm) : (s.modAdm a g).keys = s.keys := (rfl)
@[simp] theorem State.modAdm_key (s : State) (a : Nat) (g : Adm → Adm) (j : Nat) : (s.modAdm a g).key j = s.key j := (rfl)
@[simp] theorem State.modAdm_sans (s : State) (a : Nat) (g : Adm → Adm) : (s.modAdm a g).sans = s.sans := (rfl)
@[simp] theorem State.modAdm_fmts (s : State) (a : Nat) (g : Adm → Adm) : (s.modAdm a g).fmts = s.fmts := (rfl)
@[simp] theorem State.modAdm_opNext (s : State) (a : Nat) (g : Adm → Adm) : (s.modAdm a g).opNext = s.opNext := (rfl)
@[simp] theorem State.modMed_pending (s : State) (a : Nat) (g : Med → Med) : (s.modMed a g).pending = s.pending := (rfl)
@[simp] theorem State.modMed_now (s : State) (a : Nat) (g : Med → Med) : (s.modMed a g).now = s.now := (rfl)
@[simp] theorem State.modMed_fresh (s : State) (a : Nat) (g : Med → Med) : (s.modMed a g).fresh = s.fresh := (rfl)
@[simp] theorem State.modMed_out (s : State) (a : Nat) (g : Med → Med) : (s.modMed a g).out = s.out := (rfl)
@[simp] theorem State.modMed_cfg (s : State) (a : Nat) (g : Med → Med) : (s.modMed a g).cfg = s.cfg := (rfl)
@[simp] theorem State.modMed_glb (s : State) (a : Nat) (g : Med → Med) : (s.modMed a g).glb = s.glb := (rfl)
@[simp] theorem State.modMed_ports (s : State) (a : Nat) (g : Med → Med) : (s.modMed a g).ports = s.ports := (rfl)
@[simp] theorem State.modMed_port (s : State) (a : Nat) (g : Med → Med) (j : Nat) : (s.modMed a g).port j = s.port j := (rfl)
@[simp] theorem State.modMed_fns (s : State) (a : Nat) (g : Med → Med) : (s.modMed a g).fns = s.fns := (rfl)
@[simp] theorem State.modMed_fn (s : State) (a : Nat) (g : Med → Med) (j : Nat) : (s.modMed a g).fn j = s.fn j := (rfl)
@[simp] theorem State.modMed_sqs (s : State) (a : Nat) (g : Med → Med) : (s.modMed a g).sqs = s.sqs := (rfl)
@[simp] theorem State.modMed_sq (s : State) (a : Nat) (g : Med → Med) (j : Nat) : (s.modMed a g).sq j = s.sq j := (rfl)
@[simp] theorem State.modMed_cqs (s : State) (a : Nat) (g : Med → Med) : (s.modMed a g).cqs = s.cqs := (rfl)
@[simp] theorem State.modMed_cq (s : State) (a : Nat) (g : Med → Med) (j : Nat) : (s.modMed a g).cq j = s.cq j := (rfl)
@[simp] theorem State.modMed_ledger (s : State) (a : Nat) (g : Med → Med) : (s.modMed a g).ledger = s.ledger := (rfl)
@[simp] theorem State.modMed_ldg (s : State) (a : Nat) (g : Med → Med) : (s.modMed a g).ldg = s.ldg := (rfl)
@[simp] theorem State.modMed_recs (s : State) (a : Nat) (g : Med → Med) : (s.modMed a g).recs = s.recs := (rfl)
@[simp] theorem State.modMed_recNext (s : State) (a : Nat) (g : Med → Med) : (s.modMed a g).recNext = s.recNext := (rfl)
@[simp] theorem State.modMed_nss (s : State) (a : Nat) (g : Med → Med) : (s.modMed a g).nss = s.nss := (rfl)
@[simp] theorem State.modMed_ns (s : State) (a : Nat) (g : Med → Med) (j : Nat) : (s.modMed a g).ns j = s.ns j := (rfl)
@[simp] theorem State.modMed_zones (s : State) (a : Nat) (g : Med → Med) : (s.modMed a g).zones = s.zones := (rfl)
@[simp] theorem State.modMed_zone (s : State) (a : Nat) (g : Med → Med) (j : Nat) : (s.modMed a g).zone j = s.zone j := (rfl)
@[simp] theorem State.modMed_stage (s : State) (a : Nat) (g : Med → Med) : (s.modMed a g).stage = s.stage := (rfl)
@[simp] theorem State.modMed_media (s : State) (a : Nat) (g : Med → Med) : (s.modMed a g).media = s.media := (rfl)
@[simp] theorem State.modMed_bays (s : State) (a : Nat) (g : Med → Med) : (s.modMed a g).bays = s.bays := (rfl)
@[simp] theorem State.modMed_bay (s : State) (a : Nat) (g : Med → Med) (j : Nat) : (s.modMed a g).bay j = s.bay j := (rfl)
@[simp] theorem State.modMed_doms (s : State) (a : Nat) (g : Med → Med) : (s.modMed a g).doms = s.doms := (rfl)
@[simp] theorem State.modMed_dom (s : State) (a : Nat) (g : Med → Med) (j : Nat) : (s.modMed a g).dom j = s.dom j := (rfl)
@[simp] theorem State.modMed_pwr (s : State) (a : Nat) (g : Med → Med) : (s.modMed a g).pwr = s.pwr := (rfl)
@[simp] theorem State.modMed_les (s : State) (a : Nat) (g : Med → Med) : (s.modMed a g).les = s.les := (rfl)
@[simp] theorem State.modMed_le (s : State) (a : Nat) (g : Med → Med) (j : Nat) : (s.modMed a g).le j = s.le j := (rfl)
@[simp] theorem State.modMed_trcs (s : State) (a : Nat) (g : Med → Med) : (s.modMed a g).trcs = s.trcs := (rfl)
@[simp] theorem State.modMed_trc (s : State) (a : Nat) (g : Med → Med) (j : Nat) : (s.modMed a g).trc j = s.trc j := (rfl)
@[simp] theorem State.modMed_trcSel (s : State) (a : Nat) (g : Med → Med) : (s.modMed a g).trcSel = s.trcSel := (rfl)
@[simp] theorem State.modMed_engines (s : State) (a : Nat) (g : Med → Med) : (s.modMed a g).engines = s.engines := (rfl)
@[simp] theorem State.modMed_eng (s : State) (a : Nat) (g : Med → Med) (j : Nat) : (s.modMed a g).eng j = s.eng j := (rfl)
@[simp] theorem State.modMed_pool (s : State) (a : Nat) (g : Med → Med) : (s.modMed a g).pool = s.pool := (rfl)
@[simp] theorem State.modMed_herds (s : State) (a : Nat) (g : Med → Med) : (s.modMed a g).herds = s.herds := (rfl)
@[simp] theorem State.modMed_herd (s : State) (a : Nat) (g : Med → Med) (j : Nat) : (s.modMed a g).herd j = s.herd j := (rfl)
@[simp] theorem State.modMed_mem (s : State) (a : Nat) (g : Med → Med) : (s.modMed a g).mem = s.mem := (rfl)
@[simp] theorem State.modMed_ram (s : State) (a : Nat) (g : Med → Med) : (s.modMed a g).ram = s.ram := (rfl)
@[simp] theorem State.modMed_cache (s : State) (a : Nat) (g : Med → Med) : (s.modMed a g).cache = s.cache := (rfl)
@[simp] theorem State.modMed_cal (s : State) (a : Nat) (g : Med → Med) : (s.modMed a g).cal = s.cal := (rfl)
@[simp] theorem State.modMed_thm (s : State) (a : Nat) (g : Med → Med) : (s.modMed a g).thm = s.thm := (rfl)
@[simp] theorem State.modMed_clk (s : State) (a : Nat) (g : Med → Med) : (s.modMed a g).clk = s.clk := (rfl)
@[simp] theorem State.modMed_isls (s : State) (a : Nat) (g : Med → Med) : (s.modMed a g).isls = s.isls := (rfl)
@[simp] theorem State.modMed_isl (s : State) (a : Nat) (g : Med → Med) (j : Nat) : (s.modMed a g).isl j = s.isl j := (rfl)
@[simp] theorem State.modMed_xings (s : State) (a : Nat) (g : Med → Med) : (s.modMed a g).xings = s.xings := (rfl)
@[simp] theorem State.modMed_xing (s : State) (a : Nat) (g : Med → Med) (j : Nat) : (s.modMed a g).xing j = s.xing j := (rfl)
@[simp] theorem State.modMed_mbxs (s : State) (a : Nat) (g : Med → Med) : (s.modMed a g).mbxs = s.mbxs := (rfl)
@[simp] theorem State.modMed_mbx (s : State) (a : Nat) (g : Med → Med) (j : Nat) : (s.modMed a g).mbx j = s.mbx j := (rfl)
@[simp] theorem State.modMed_evt (s : State) (a : Nat) (g : Med → Med) : (s.modMed a g).evt = s.evt := (rfl)
@[simp] theorem State.modMed_rings (s : State) (a : Nat) (g : Med → Med) : (s.modMed a g).rings = s.rings := (rfl)
@[simp] theorem State.modMed_ring (s : State) (a : Nat) (g : Med → Med) (j : Nat) : (s.modMed a g).ring j = s.ring j := (rfl)
@[simp] theorem State.modMed_accs (s : State) (a : Nat) (g : Med → Med) : (s.modMed a g).accs = s.accs := (rfl)
@[simp] theorem State.modMed_acc (s : State) (a : Nat) (g : Med → Med) (j : Nat) : (s.modMed a g).acc j = s.acc j := (rfl)
@[simp] theorem State.modMed_tally (s : State) (a : Nat) (g : Med → Med) : (s.modMed a g).tally = s.tally := (rfl)
@[simp] theorem State.modMed_boot (s : State) (a : Nat) (g : Med → Med) : (s.modMed a g).boot = s.boot := (rfl)
@[simp] theorem State.modMed_keys (s : State) (a : Nat) (g : Med → Med) : (s.modMed a g).keys = s.keys := (rfl)
@[simp] theorem State.modMed_key (s : State) (a : Nat) (g : Med → Med) (j : Nat) : (s.modMed a g).key j = s.key j := (rfl)
@[simp] theorem State.modMed_sans (s : State) (a : Nat) (g : Med → Med) : (s.modMed a g).sans = s.sans := (rfl)
@[simp] theorem State.modMed_fmts (s : State) (a : Nat) (g : Med → Med) : (s.modMed a g).fmts = s.fmts := (rfl)
@[simp] theorem State.modMed_opNext (s : State) (a : Nat) (g : Med → Med) : (s.modMed a g).opNext = s.opNext := (rfl)
@[simp] theorem State.modCfe_pending (s : State) (a : Nat) (g : Cfe → Cfe) : (s.modCfe a g).pending = s.pending := (rfl)
@[simp] theorem State.modCfe_now (s : State) (a : Nat) (g : Cfe → Cfe) : (s.modCfe a g).now = s.now := (rfl)
@[simp] theorem State.modCfe_fresh (s : State) (a : Nat) (g : Cfe → Cfe) : (s.modCfe a g).fresh = s.fresh := (rfl)
@[simp] theorem State.modCfe_out (s : State) (a : Nat) (g : Cfe → Cfe) : (s.modCfe a g).out = s.out := (rfl)
@[simp] theorem State.modCfe_cfg (s : State) (a : Nat) (g : Cfe → Cfe) : (s.modCfe a g).cfg = s.cfg := (rfl)
@[simp] theorem State.modCfe_glb (s : State) (a : Nat) (g : Cfe → Cfe) : (s.modCfe a g).glb = s.glb := (rfl)
@[simp] theorem State.modCfe_ports (s : State) (a : Nat) (g : Cfe → Cfe) : (s.modCfe a g).ports = s.ports := (rfl)
@[simp] theorem State.modCfe_port (s : State) (a : Nat) (g : Cfe → Cfe) (j : Nat) : (s.modCfe a g).port j = s.port j := (rfl)
@[simp] theorem State.modCfe_fns (s : State) (a : Nat) (g : Cfe → Cfe) : (s.modCfe a g).fns = s.fns := (rfl)
@[simp] theorem State.modCfe_fn (s : State) (a : Nat) (g : Cfe → Cfe) (j : Nat) : (s.modCfe a g).fn j = s.fn j := (rfl)
@[simp] theorem State.modCfe_sqs (s : State) (a : Nat) (g : Cfe → Cfe) : (s.modCfe a g).sqs = s.sqs := (rfl)
@[simp] theorem State.modCfe_sq (s : State) (a : Nat) (g : Cfe → Cfe) (j : Nat) : (s.modCfe a g).sq j = s.sq j := (rfl)
@[simp] theorem State.modCfe_cqs (s : State) (a : Nat) (g : Cfe → Cfe) : (s.modCfe a g).cqs = s.cqs := (rfl)
@[simp] theorem State.modCfe_cq (s : State) (a : Nat) (g : Cfe → Cfe) (j : Nat) : (s.modCfe a g).cq j = s.cq j := (rfl)
@[simp] theorem State.modCfe_ledger (s : State) (a : Nat) (g : Cfe → Cfe) : (s.modCfe a g).ledger = s.ledger := (rfl)
@[simp] theorem State.modCfe_ldg (s : State) (a : Nat) (g : Cfe → Cfe) : (s.modCfe a g).ldg = s.ldg := (rfl)
@[simp] theorem State.modCfe_recs (s : State) (a : Nat) (g : Cfe → Cfe) : (s.modCfe a g).recs = s.recs := (rfl)
@[simp] theorem State.modCfe_recNext (s : State) (a : Nat) (g : Cfe → Cfe) : (s.modCfe a g).recNext = s.recNext := (rfl)
@[simp] theorem State.modCfe_nss (s : State) (a : Nat) (g : Cfe → Cfe) : (s.modCfe a g).nss = s.nss := (rfl)
@[simp] theorem State.modCfe_ns (s : State) (a : Nat) (g : Cfe → Cfe) (j : Nat) : (s.modCfe a g).ns j = s.ns j := (rfl)
@[simp] theorem State.modCfe_zones (s : State) (a : Nat) (g : Cfe → Cfe) : (s.modCfe a g).zones = s.zones := (rfl)
@[simp] theorem State.modCfe_zone (s : State) (a : Nat) (g : Cfe → Cfe) (j : Nat) : (s.modCfe a g).zone j = s.zone j := (rfl)
@[simp] theorem State.modCfe_stage (s : State) (a : Nat) (g : Cfe → Cfe) : (s.modCfe a g).stage = s.stage := (rfl)
@[simp] theorem State.modCfe_media (s : State) (a : Nat) (g : Cfe → Cfe) : (s.modCfe a g).media = s.media := (rfl)
@[simp] theorem State.modCfe_bays (s : State) (a : Nat) (g : Cfe → Cfe) : (s.modCfe a g).bays = s.bays := (rfl)
@[simp] theorem State.modCfe_bay (s : State) (a : Nat) (g : Cfe → Cfe) (j : Nat) : (s.modCfe a g).bay j = s.bay j := (rfl)
@[simp] theorem State.modCfe_doms (s : State) (a : Nat) (g : Cfe → Cfe) : (s.modCfe a g).doms = s.doms := (rfl)
@[simp] theorem State.modCfe_dom (s : State) (a : Nat) (g : Cfe → Cfe) (j : Nat) : (s.modCfe a g).dom j = s.dom j := (rfl)
@[simp] theorem State.modCfe_pwr (s : State) (a : Nat) (g : Cfe → Cfe) : (s.modCfe a g).pwr = s.pwr := (rfl)
@[simp] theorem State.modCfe_les (s : State) (a : Nat) (g : Cfe → Cfe) : (s.modCfe a g).les = s.les := (rfl)
@[simp] theorem State.modCfe_le (s : State) (a : Nat) (g : Cfe → Cfe) (j : Nat) : (s.modCfe a g).le j = s.le j := (rfl)
@[simp] theorem State.modCfe_trcs (s : State) (a : Nat) (g : Cfe → Cfe) : (s.modCfe a g).trcs = s.trcs := (rfl)
@[simp] theorem State.modCfe_trc (s : State) (a : Nat) (g : Cfe → Cfe) (j : Nat) : (s.modCfe a g).trc j = s.trc j := (rfl)
@[simp] theorem State.modCfe_trcSel (s : State) (a : Nat) (g : Cfe → Cfe) : (s.modCfe a g).trcSel = s.trcSel := (rfl)
@[simp] theorem State.modCfe_engines (s : State) (a : Nat) (g : Cfe → Cfe) : (s.modCfe a g).engines = s.engines := (rfl)
@[simp] theorem State.modCfe_eng (s : State) (a : Nat) (g : Cfe → Cfe) (j : Nat) : (s.modCfe a g).eng j = s.eng j := (rfl)
@[simp] theorem State.modCfe_pool (s : State) (a : Nat) (g : Cfe → Cfe) : (s.modCfe a g).pool = s.pool := (rfl)
@[simp] theorem State.modCfe_herds (s : State) (a : Nat) (g : Cfe → Cfe) : (s.modCfe a g).herds = s.herds := (rfl)
@[simp] theorem State.modCfe_herd (s : State) (a : Nat) (g : Cfe → Cfe) (j : Nat) : (s.modCfe a g).herd j = s.herd j := (rfl)
@[simp] theorem State.modCfe_mem (s : State) (a : Nat) (g : Cfe → Cfe) : (s.modCfe a g).mem = s.mem := (rfl)
@[simp] theorem State.modCfe_ram (s : State) (a : Nat) (g : Cfe → Cfe) : (s.modCfe a g).ram = s.ram := (rfl)
@[simp] theorem State.modCfe_cache (s : State) (a : Nat) (g : Cfe → Cfe) : (s.modCfe a g).cache = s.cache := (rfl)
@[simp] theorem State.modCfe_cal (s : State) (a : Nat) (g : Cfe → Cfe) : (s.modCfe a g).cal = s.cal := (rfl)
@[simp] theorem State.modCfe_thm (s : State) (a : Nat) (g : Cfe → Cfe) : (s.modCfe a g).thm = s.thm := (rfl)
@[simp] theorem State.modCfe_clk (s : State) (a : Nat) (g : Cfe → Cfe) : (s.modCfe a g).clk = s.clk := (rfl)
@[simp] theorem State.modCfe_isls (s : State) (a : Nat) (g : Cfe → Cfe) : (s.modCfe a g).isls = s.isls := (rfl)
@[simp] theorem State.modCfe_isl (s : State) (a : Nat) (g : Cfe → Cfe) (j : Nat) : (s.modCfe a g).isl j = s.isl j := (rfl)
@[simp] theorem State.modCfe_xings (s : State) (a : Nat) (g : Cfe → Cfe) : (s.modCfe a g).xings = s.xings := (rfl)
@[simp] theorem State.modCfe_xing (s : State) (a : Nat) (g : Cfe → Cfe) (j : Nat) : (s.modCfe a g).xing j = s.xing j := (rfl)
@[simp] theorem State.modCfe_mbxs (s : State) (a : Nat) (g : Cfe → Cfe) : (s.modCfe a g).mbxs = s.mbxs := (rfl)
@[simp] theorem State.modCfe_mbx (s : State) (a : Nat) (g : Cfe → Cfe) (j : Nat) : (s.modCfe a g).mbx j = s.mbx j := (rfl)
@[simp] theorem State.modCfe_evt (s : State) (a : Nat) (g : Cfe → Cfe) : (s.modCfe a g).evt = s.evt := (rfl)
@[simp] theorem State.modCfe_rings (s : State) (a : Nat) (g : Cfe → Cfe) : (s.modCfe a g).rings = s.rings := (rfl)
@[simp] theorem State.modCfe_ring (s : State) (a : Nat) (g : Cfe → Cfe) (j : Nat) : (s.modCfe a g).ring j = s.ring j := (rfl)
@[simp] theorem State.modCfe_accs (s : State) (a : Nat) (g : Cfe → Cfe) : (s.modCfe a g).accs = s.accs := (rfl)
@[simp] theorem State.modCfe_acc (s : State) (a : Nat) (g : Cfe → Cfe) (j : Nat) : (s.modCfe a g).acc j = s.acc j := (rfl)
@[simp] theorem State.modCfe_tally (s : State) (a : Nat) (g : Cfe → Cfe) : (s.modCfe a g).tally = s.tally := (rfl)
@[simp] theorem State.modCfe_boot (s : State) (a : Nat) (g : Cfe → Cfe) : (s.modCfe a g).boot = s.boot := (rfl)
@[simp] theorem State.modCfe_keys (s : State) (a : Nat) (g : Cfe → Cfe) : (s.modCfe a g).keys = s.keys := (rfl)
@[simp] theorem State.modCfe_key (s : State) (a : Nat) (g : Cfe → Cfe) (j : Nat) : (s.modCfe a g).key j = s.key j := (rfl)
@[simp] theorem State.modCfe_sans (s : State) (a : Nat) (g : Cfe → Cfe) : (s.modCfe a g).sans = s.sans := (rfl)
@[simp] theorem State.modCfe_fmts (s : State) (a : Nat) (g : Cfe → Cfe) : (s.modCfe a g).fmts = s.fmts := (rfl)
@[simp] theorem State.modCfe_opNext (s : State) (a : Nat) (g : Cfe → Cfe) : (s.modCfe a g).opNext = s.opNext := (rfl)
@[simp] theorem State.modFmt_pending (s : State) (a : Nat) (g : Fmt → Fmt) : (s.modFmt a g).pending = s.pending := (rfl)
@[simp] theorem State.modFmt_now (s : State) (a : Nat) (g : Fmt → Fmt) : (s.modFmt a g).now = s.now := (rfl)
@[simp] theorem State.modFmt_fresh (s : State) (a : Nat) (g : Fmt → Fmt) : (s.modFmt a g).fresh = s.fresh := (rfl)
@[simp] theorem State.modFmt_out (s : State) (a : Nat) (g : Fmt → Fmt) : (s.modFmt a g).out = s.out := (rfl)
@[simp] theorem State.modFmt_cfg (s : State) (a : Nat) (g : Fmt → Fmt) : (s.modFmt a g).cfg = s.cfg := (rfl)
@[simp] theorem State.modFmt_glb (s : State) (a : Nat) (g : Fmt → Fmt) : (s.modFmt a g).glb = s.glb := (rfl)
@[simp] theorem State.modFmt_ports (s : State) (a : Nat) (g : Fmt → Fmt) : (s.modFmt a g).ports = s.ports := (rfl)
@[simp] theorem State.modFmt_port (s : State) (a : Nat) (g : Fmt → Fmt) (j : Nat) : (s.modFmt a g).port j = s.port j := (rfl)
@[simp] theorem State.modFmt_fns (s : State) (a : Nat) (g : Fmt → Fmt) : (s.modFmt a g).fns = s.fns := (rfl)
@[simp] theorem State.modFmt_fn (s : State) (a : Nat) (g : Fmt → Fmt) (j : Nat) : (s.modFmt a g).fn j = s.fn j := (rfl)
@[simp] theorem State.modFmt_sqs (s : State) (a : Nat) (g : Fmt → Fmt) : (s.modFmt a g).sqs = s.sqs := (rfl)
@[simp] theorem State.modFmt_sq (s : State) (a : Nat) (g : Fmt → Fmt) (j : Nat) : (s.modFmt a g).sq j = s.sq j := (rfl)
@[simp] theorem State.modFmt_cqs (s : State) (a : Nat) (g : Fmt → Fmt) : (s.modFmt a g).cqs = s.cqs := (rfl)
@[simp] theorem State.modFmt_cq (s : State) (a : Nat) (g : Fmt → Fmt) (j : Nat) : (s.modFmt a g).cq j = s.cq j := (rfl)
@[simp] theorem State.modFmt_ledger (s : State) (a : Nat) (g : Fmt → Fmt) : (s.modFmt a g).ledger = s.ledger := (rfl)
@[simp] theorem State.modFmt_ldg (s : State) (a : Nat) (g : Fmt → Fmt) : (s.modFmt a g).ldg = s.ldg := (rfl)
@[simp] theorem State.modFmt_recs (s : State) (a : Nat) (g : Fmt → Fmt) : (s.modFmt a g).recs = s.recs := (rfl)
@[simp] theorem State.modFmt_recNext (s : State) (a : Nat) (g : Fmt → Fmt) : (s.modFmt a g).recNext = s.recNext := (rfl)
@[simp] theorem State.modFmt_nss (s : State) (a : Nat) (g : Fmt → Fmt) : (s.modFmt a g).nss = s.nss := (rfl)
@[simp] theorem State.modFmt_ns (s : State) (a : Nat) (g : Fmt → Fmt) (j : Nat) : (s.modFmt a g).ns j = s.ns j := (rfl)
@[simp] theorem State.modFmt_zones (s : State) (a : Nat) (g : Fmt → Fmt) : (s.modFmt a g).zones = s.zones := (rfl)
@[simp] theorem State.modFmt_zone (s : State) (a : Nat) (g : Fmt → Fmt) (j : Nat) : (s.modFmt a g).zone j = s.zone j := (rfl)
@[simp] theorem State.modFmt_stage (s : State) (a : Nat) (g : Fmt → Fmt) : (s.modFmt a g).stage = s.stage := (rfl)
@[simp] theorem State.modFmt_media (s : State) (a : Nat) (g : Fmt → Fmt) : (s.modFmt a g).media = s.media := (rfl)
@[simp] theorem State.modFmt_bays (s : State) (a : Nat) (g : Fmt → Fmt) : (s.modFmt a g).bays = s.bays := (rfl)
@[simp] theorem State.modFmt_bay (s : State) (a : Nat) (g : Fmt → Fmt) (j : Nat) : (s.modFmt a g).bay j = s.bay j := (rfl)
@[simp] theorem State.modFmt_doms (s : State) (a : Nat) (g : Fmt → Fmt) : (s.modFmt a g).doms = s.doms := (rfl)
@[simp] theorem State.modFmt_dom (s : State) (a : Nat) (g : Fmt → Fmt) (j : Nat) : (s.modFmt a g).dom j = s.dom j := (rfl)
@[simp] theorem State.modFmt_pwr (s : State) (a : Nat) (g : Fmt → Fmt) : (s.modFmt a g).pwr = s.pwr := (rfl)
@[simp] theorem State.modFmt_les (s : State) (a : Nat) (g : Fmt → Fmt) : (s.modFmt a g).les = s.les := (rfl)
@[simp] theorem State.modFmt_le (s : State) (a : Nat) (g : Fmt → Fmt) (j : Nat) : (s.modFmt a g).le j = s.le j := (rfl)
@[simp] theorem State.modFmt_trcs (s : State) (a : Nat) (g : Fmt → Fmt) : (s.modFmt a g).trcs = s.trcs := (rfl)
@[simp] theorem State.modFmt_trc (s : State) (a : Nat) (g : Fmt → Fmt) (j : Nat) : (s.modFmt a g).trc j = s.trc j := (rfl)
@[simp] theorem State.modFmt_trcSel (s : State) (a : Nat) (g : Fmt → Fmt) : (s.modFmt a g).trcSel = s.trcSel := (rfl)
@[simp] theorem State.modFmt_engines (s : State) (a : Nat) (g : Fmt → Fmt) : (s.modFmt a g).engines = s.engines := (rfl)
@[simp] theorem State.modFmt_eng (s : State) (a : Nat) (g : Fmt → Fmt) (j : Nat) : (s.modFmt a g).eng j = s.eng j := (rfl)
@[simp] theorem State.modFmt_pool (s : State) (a : Nat) (g : Fmt → Fmt) : (s.modFmt a g).pool = s.pool := (rfl)
@[simp] theorem State.modFmt_herds (s : State) (a : Nat) (g : Fmt → Fmt) : (s.modFmt a g).herds = s.herds := (rfl)
@[simp] theorem State.modFmt_herd (s : State) (a : Nat) (g : Fmt → Fmt) (j : Nat) : (s.modFmt a g).herd j = s.herd j := (rfl)
@[simp] theorem State.modFmt_mem (s : State) (a : Nat) (g : Fmt → Fmt) : (s.modFmt a g).mem = s.mem := (rfl)
@[simp] theorem State.modFmt_ram (s : State) (a : Nat) (g : Fmt → Fmt) : (s.modFmt a g).ram = s.ram := (rfl)
@[simp] theorem State.modFmt_cache (s : State) (a : Nat) (g : Fmt → Fmt) : (s.modFmt a g).cache = s.cache := (rfl)
@[simp] theorem State.modFmt_cal (s : State) (a : Nat) (g : Fmt → Fmt) : (s.modFmt a g).cal = s.cal := (rfl)
@[simp] theorem State.modFmt_thm (s : State) (a : Nat) (g : Fmt → Fmt) : (s.modFmt a g).thm = s.thm := (rfl)
@[simp] theorem State.modFmt_clk (s : State) (a : Nat) (g : Fmt → Fmt) : (s.modFmt a g).clk = s.clk := (rfl)
@[simp] theorem State.modFmt_isls (s : State) (a : Nat) (g : Fmt → Fmt) : (s.modFmt a g).isls = s.isls := (rfl)
@[simp] theorem State.modFmt_isl (s : State) (a : Nat) (g : Fmt → Fmt) (j : Nat) : (s.modFmt a g).isl j = s.isl j := (rfl)
@[simp] theorem State.modFmt_xings (s : State) (a : Nat) (g : Fmt → Fmt) : (s.modFmt a g).xings = s.xings := (rfl)
@[simp] theorem State.modFmt_xing (s : State) (a : Nat) (g : Fmt → Fmt) (j : Nat) : (s.modFmt a g).xing j = s.xing j := (rfl)
@[simp] theorem State.modFmt_mbxs (s : State) (a : Nat) (g : Fmt → Fmt) : (s.modFmt a g).mbxs = s.mbxs := (rfl)
@[simp] theorem State.modFmt_mbx (s : State) (a : Nat) (g : Fmt → Fmt) (j : Nat) : (s.modFmt a g).mbx j = s.mbx j := (rfl)
@[simp] theorem State.modFmt_evt (s : State) (a : Nat) (g : Fmt → Fmt) : (s.modFmt a g).evt = s.evt := (rfl)
@[simp] theorem State.modFmt_rings (s : State) (a : Nat) (g : Fmt → Fmt) : (s.modFmt a g).rings = s.rings := (rfl)
@[simp] theorem State.modFmt_ring (s : State) (a : Nat) (g : Fmt → Fmt) (j : Nat) : (s.modFmt a g).ring j = s.ring j := (rfl)
@[simp] theorem State.modFmt_accs (s : State) (a : Nat) (g : Fmt → Fmt) : (s.modFmt a g).accs = s.accs := (rfl)
@[simp] theorem State.modFmt_acc (s : State) (a : Nat) (g : Fmt → Fmt) (j : Nat) : (s.modFmt a g).acc j = s.acc j := (rfl)
@[simp] theorem State.modFmt_tally (s : State) (a : Nat) (g : Fmt → Fmt) : (s.modFmt a g).tally = s.tally := (rfl)
@[simp] theorem State.modFmt_boot (s : State) (a : Nat) (g : Fmt → Fmt) : (s.modFmt a g).boot = s.boot := (rfl)
@[simp] theorem State.modFmt_keys (s : State) (a : Nat) (g : Fmt → Fmt) : (s.modFmt a g).keys = s.keys := (rfl)
@[simp] theorem State.modFmt_key (s : State) (a : Nat) (g : Fmt → Fmt) (j : Nat) : (s.modFmt a g).key j = s.key j := (rfl)
@[simp] theorem State.modFmt_sans (s : State) (a : Nat) (g : Fmt → Fmt) : (s.modFmt a g).sans = s.sans := (rfl)
@[simp] theorem State.modFmt_fmts (s : State) (a : Nat) (g : Fmt → Fmt) : (s.modFmt a g).fmts = s.fmts := (rfl)
@[simp] theorem State.modFmt_opNext (s : State) (a : Nat) (g : Fmt → Fmt) : (s.modFmt a g).opNext = s.opNext := (rfl)
@[simp] theorem State.modLoop_pending (s : State) (a : Nat) (g : Loop → Loop) : (s.modLoop a g).pending = s.pending := (rfl)
@[simp] theorem State.modLoop_now (s : State) (a : Nat) (g : Loop → Loop) : (s.modLoop a g).now = s.now := (rfl)
@[simp] theorem State.modLoop_fresh (s : State) (a : Nat) (g : Loop → Loop) : (s.modLoop a g).fresh = s.fresh := (rfl)
@[simp] theorem State.modLoop_out (s : State) (a : Nat) (g : Loop → Loop) : (s.modLoop a g).out = s.out := (rfl)
@[simp] theorem State.modLoop_cfg (s : State) (a : Nat) (g : Loop → Loop) : (s.modLoop a g).cfg = s.cfg := (rfl)
@[simp] theorem State.modLoop_glb (s : State) (a : Nat) (g : Loop → Loop) : (s.modLoop a g).glb = s.glb := (rfl)
@[simp] theorem State.modLoop_ports (s : State) (a : Nat) (g : Loop → Loop) : (s.modLoop a g).ports = s.ports := (rfl)
@[simp] theorem State.modLoop_port (s : State) (a : Nat) (g : Loop → Loop) (j : Nat) : (s.modLoop a g).port j = s.port j := (rfl)
@[simp] theorem State.modLoop_fns (s : State) (a : Nat) (g : Loop → Loop) : (s.modLoop a g).fns = s.fns := (rfl)
@[simp] theorem State.modLoop_fn (s : State) (a : Nat) (g : Loop → Loop) (j : Nat) : (s.modLoop a g).fn j = s.fn j := (rfl)
@[simp] theorem State.modLoop_sqs (s : State) (a : Nat) (g : Loop → Loop) : (s.modLoop a g).sqs = s.sqs := (rfl)
@[simp] theorem State.modLoop_sq (s : State) (a : Nat) (g : Loop → Loop) (j : Nat) : (s.modLoop a g).sq j = s.sq j := (rfl)
@[simp] theorem State.modLoop_cqs (s : State) (a : Nat) (g : Loop → Loop) : (s.modLoop a g).cqs = s.cqs := (rfl)
@[simp] theorem State.modLoop_cq (s : State) (a : Nat) (g : Loop → Loop) (j : Nat) : (s.modLoop a g).cq j = s.cq j := (rfl)
@[simp] theorem State.modLoop_ledger (s : State) (a : Nat) (g : Loop → Loop) : (s.modLoop a g).ledger = s.ledger := (rfl)
@[simp] theorem State.modLoop_ldg (s : State) (a : Nat) (g : Loop → Loop) : (s.modLoop a g).ldg = s.ldg := (rfl)
@[simp] theorem State.modLoop_recs (s : State) (a : Nat) (g : Loop → Loop) : (s.modLoop a g).recs = s.recs := (rfl)
@[simp] theorem State.modLoop_recNext (s : State) (a : Nat) (g : Loop → Loop) : (s.modLoop a g).recNext = s.recNext := (rfl)
@[simp] theorem State.modLoop_nss (s : State) (a : Nat) (g : Loop → Loop) : (s.modLoop a g).nss = s.nss := (rfl)
@[simp] theorem State.modLoop_ns (s : State) (a : Nat) (g : Loop → Loop) (j : Nat) : (s.modLoop a g).ns j = s.ns j := (rfl)
@[simp] theorem State.modLoop_zones (s : State) (a : Nat) (g : Loop → Loop) : (s.modLoop a g).zones = s.zones := (rfl)
@[simp] theorem State.modLoop_zone (s : State) (a : Nat) (g : Loop → Loop) (j : Nat) : (s.modLoop a g).zone j = s.zone j := (rfl)
@[simp] theorem State.modLoop_stage (s : State) (a : Nat) (g : Loop → Loop) : (s.modLoop a g).stage = s.stage := (rfl)
@[simp] theorem State.modLoop_media (s : State) (a : Nat) (g : Loop → Loop) : (s.modLoop a g).media = s.media := (rfl)
@[simp] theorem State.modLoop_bays (s : State) (a : Nat) (g : Loop → Loop) : (s.modLoop a g).bays = s.bays := (rfl)
@[simp] theorem State.modLoop_bay (s : State) (a : Nat) (g : Loop → Loop) (j : Nat) : (s.modLoop a g).bay j = s.bay j := (rfl)
@[simp] theorem State.modLoop_doms (s : State) (a : Nat) (g : Loop → Loop) : (s.modLoop a g).doms = s.doms := (rfl)
@[simp] theorem State.modLoop_dom (s : State) (a : Nat) (g : Loop → Loop) (j : Nat) : (s.modLoop a g).dom j = s.dom j := (rfl)
@[simp] theorem State.modLoop_pwr (s : State) (a : Nat) (g : Loop → Loop) : (s.modLoop a g).pwr = s.pwr := (rfl)
@[simp] theorem State.modLoop_les (s : State) (a : Nat) (g : Loop → Loop) : (s.modLoop a g).les = s.les := (rfl)
@[simp] theorem State.modLoop_le (s : State) (a : Nat) (g : Loop → Loop) (j : Nat) : (s.modLoop a g).le j = s.le j := (rfl)
@[simp] theorem State.modLoop_trcs (s : State) (a : Nat) (g : Loop → Loop) : (s.modLoop a g).trcs = s.trcs := (rfl)
@[simp] theorem State.modLoop_trc (s : State) (a : Nat) (g : Loop → Loop) (j : Nat) : (s.modLoop a g).trc j = s.trc j := (rfl)
@[simp] theorem State.modLoop_trcSel (s : State) (a : Nat) (g : Loop → Loop) : (s.modLoop a g).trcSel = s.trcSel := (rfl)
@[simp] theorem State.modLoop_engines (s : State) (a : Nat) (g : Loop → Loop) : (s.modLoop a g).engines = s.engines := (rfl)
@[simp] theorem State.modLoop_eng (s : State) (a : Nat) (g : Loop → Loop) (j : Nat) : (s.modLoop a g).eng j = s.eng j := (rfl)
@[simp] theorem State.modLoop_pool (s : State) (a : Nat) (g : Loop → Loop) : (s.modLoop a g).pool = s.pool := (rfl)
@[simp] theorem State.modLoop_herds (s : State) (a : Nat) (g : Loop → Loop) : (s.modLoop a g).herds = s.herds := (rfl)
@[simp] theorem State.modLoop_herd (s : State) (a : Nat) (g : Loop → Loop) (j : Nat) : (s.modLoop a g).herd j = s.herd j := (rfl)
@[simp] theorem State.modLoop_mem (s : State) (a : Nat) (g : Loop → Loop) : (s.modLoop a g).mem = s.mem := (rfl)
@[simp] theorem State.modLoop_ram (s : State) (a : Nat) (g : Loop → Loop) : (s.modLoop a g).ram = s.ram := (rfl)
@[simp] theorem State.modLoop_cache (s : State) (a : Nat) (g : Loop → Loop) : (s.modLoop a g).cache = s.cache := (rfl)
@[simp] theorem State.modLoop_cal (s : State) (a : Nat) (g : Loop → Loop) : (s.modLoop a g).cal = s.cal := (rfl)
@[simp] theorem State.modLoop_thm (s : State) (a : Nat) (g : Loop → Loop) : (s.modLoop a g).thm = s.thm := (rfl)
@[simp] theorem State.modLoop_clk (s : State) (a : Nat) (g : Loop → Loop) : (s.modLoop a g).clk = s.clk := (rfl)
@[simp] theorem State.modLoop_isls (s : State) (a : Nat) (g : Loop → Loop) : (s.modLoop a g).isls = s.isls := (rfl)
@[simp] theorem State.modLoop_isl (s : State) (a : Nat) (g : Loop → Loop) (j : Nat) : (s.modLoop a g).isl j = s.isl j := (rfl)
@[simp] theorem State.modLoop_xings (s : State) (a : Nat) (g : Loop → Loop) : (s.modLoop a g).xings = s.xings := (rfl)
@[simp] theorem State.modLoop_xing (s : State) (a : Nat) (g : Loop → Loop) (j : Nat) : (s.modLoop a g).xing j = s.xing j := (rfl)
@[simp] theorem State.modLoop_mbxs (s : State) (a : Nat) (g : Loop → Loop) : (s.modLoop a g).mbxs = s.mbxs := (rfl)
@[simp] theorem State.modLoop_mbx (s : State) (a : Nat) (g : Loop → Loop) (j : Nat) : (s.modLoop a g).mbx j = s.mbx j := (rfl)
@[simp] theorem State.modLoop_evt (s : State) (a : Nat) (g : Loop → Loop) : (s.modLoop a g).evt = s.evt := (rfl)
@[simp] theorem State.modLoop_rings (s : State) (a : Nat) (g : Loop → Loop) : (s.modLoop a g).rings = s.rings := (rfl)
@[simp] theorem State.modLoop_ring (s : State) (a : Nat) (g : Loop → Loop) (j : Nat) : (s.modLoop a g).ring j = s.ring j := (rfl)
@[simp] theorem State.modLoop_accs (s : State) (a : Nat) (g : Loop → Loop) : (s.modLoop a g).accs = s.accs := (rfl)
@[simp] theorem State.modLoop_acc (s : State) (a : Nat) (g : Loop → Loop) (j : Nat) : (s.modLoop a g).acc j = s.acc j := (rfl)
@[simp] theorem State.modLoop_tally (s : State) (a : Nat) (g : Loop → Loop) : (s.modLoop a g).tally = s.tally := (rfl)
@[simp] theorem State.modLoop_boot (s : State) (a : Nat) (g : Loop → Loop) : (s.modLoop a g).boot = s.boot := (rfl)
@[simp] theorem State.modLoop_keys (s : State) (a : Nat) (g : Loop → Loop) : (s.modLoop a g).keys = s.keys := (rfl)
@[simp] theorem State.modLoop_key (s : State) (a : Nat) (g : Loop → Loop) (j : Nat) : (s.modLoop a g).key j = s.key j := (rfl)
@[simp] theorem State.modLoop_sans (s : State) (a : Nat) (g : Loop → Loop) : (s.modLoop a g).sans = s.sans := (rfl)
@[simp] theorem State.modLoop_fmts (s : State) (a : Nat) (g : Loop → Loop) : (s.modLoop a g).fmts = s.fmts := (rfl)
@[simp] theorem State.modLoop_opNext (s : State) (a : Nat) (g : Loop → Loop) : (s.modLoop a g).opNext = s.opNext := (rfl)
@[simp] theorem State.modCwy_pending (s : State) (a : Nat) (g : Cwy → Cwy) : (s.modCwy a g).pending = s.pending := (rfl)
@[simp] theorem State.modCwy_now (s : State) (a : Nat) (g : Cwy → Cwy) : (s.modCwy a g).now = s.now := (rfl)
@[simp] theorem State.modCwy_fresh (s : State) (a : Nat) (g : Cwy → Cwy) : (s.modCwy a g).fresh = s.fresh := (rfl)
@[simp] theorem State.modCwy_out (s : State) (a : Nat) (g : Cwy → Cwy) : (s.modCwy a g).out = s.out := (rfl)
@[simp] theorem State.modCwy_cfg (s : State) (a : Nat) (g : Cwy → Cwy) : (s.modCwy a g).cfg = s.cfg := (rfl)
@[simp] theorem State.modCwy_glb (s : State) (a : Nat) (g : Cwy → Cwy) : (s.modCwy a g).glb = s.glb := (rfl)
@[simp] theorem State.modCwy_ports (s : State) (a : Nat) (g : Cwy → Cwy) : (s.modCwy a g).ports = s.ports := (rfl)
@[simp] theorem State.modCwy_port (s : State) (a : Nat) (g : Cwy → Cwy) (j : Nat) : (s.modCwy a g).port j = s.port j := (rfl)
@[simp] theorem State.modCwy_fns (s : State) (a : Nat) (g : Cwy → Cwy) : (s.modCwy a g).fns = s.fns := (rfl)
@[simp] theorem State.modCwy_fn (s : State) (a : Nat) (g : Cwy → Cwy) (j : Nat) : (s.modCwy a g).fn j = s.fn j := (rfl)
@[simp] theorem State.modCwy_sqs (s : State) (a : Nat) (g : Cwy → Cwy) : (s.modCwy a g).sqs = s.sqs := (rfl)
@[simp] theorem State.modCwy_sq (s : State) (a : Nat) (g : Cwy → Cwy) (j : Nat) : (s.modCwy a g).sq j = s.sq j := (rfl)
@[simp] theorem State.modCwy_cqs (s : State) (a : Nat) (g : Cwy → Cwy) : (s.modCwy a g).cqs = s.cqs := (rfl)
@[simp] theorem State.modCwy_cq (s : State) (a : Nat) (g : Cwy → Cwy) (j : Nat) : (s.modCwy a g).cq j = s.cq j := (rfl)
@[simp] theorem State.modCwy_ledger (s : State) (a : Nat) (g : Cwy → Cwy) : (s.modCwy a g).ledger = s.ledger := (rfl)
@[simp] theorem State.modCwy_ldg (s : State) (a : Nat) (g : Cwy → Cwy) : (s.modCwy a g).ldg = s.ldg := (rfl)
@[simp] theorem State.modCwy_recs (s : State) (a : Nat) (g : Cwy → Cwy) : (s.modCwy a g).recs = s.recs := (rfl)
@[simp] theorem State.modCwy_recNext (s : State) (a : Nat) (g : Cwy → Cwy) : (s.modCwy a g).recNext = s.recNext := (rfl)
@[simp] theorem State.modCwy_nss (s : State) (a : Nat) (g : Cwy → Cwy) : (s.modCwy a g).nss = s.nss := (rfl)
@[simp] theorem State.modCwy_ns (s : State) (a : Nat) (g : Cwy → Cwy) (j : Nat) : (s.modCwy a g).ns j = s.ns j := (rfl)
@[simp] theorem State.modCwy_zones (s : State) (a : Nat) (g : Cwy → Cwy) : (s.modCwy a g).zones = s.zones := (rfl)
@[simp] theorem State.modCwy_zone (s : State) (a : Nat) (g : Cwy → Cwy) (j : Nat) : (s.modCwy a g).zone j = s.zone j := (rfl)
@[simp] theorem State.modCwy_stage (s : State) (a : Nat) (g : Cwy → Cwy) : (s.modCwy a g).stage = s.stage := (rfl)
@[simp] theorem State.modCwy_media (s : State) (a : Nat) (g : Cwy → Cwy) : (s.modCwy a g).media = s.media := (rfl)
@[simp] theorem State.modCwy_bays (s : State) (a : Nat) (g : Cwy → Cwy) : (s.modCwy a g).bays = s.bays := (rfl)
@[simp] theorem State.modCwy_bay (s : State) (a : Nat) (g : Cwy → Cwy) (j : Nat) : (s.modCwy a g).bay j = s.bay j := (rfl)
@[simp] theorem State.modCwy_doms (s : State) (a : Nat) (g : Cwy → Cwy) : (s.modCwy a g).doms = s.doms := (rfl)
@[simp] theorem State.modCwy_dom (s : State) (a : Nat) (g : Cwy → Cwy) (j : Nat) : (s.modCwy a g).dom j = s.dom j := (rfl)
@[simp] theorem State.modCwy_pwr (s : State) (a : Nat) (g : Cwy → Cwy) : (s.modCwy a g).pwr = s.pwr := (rfl)
@[simp] theorem State.modCwy_les (s : State) (a : Nat) (g : Cwy → Cwy) : (s.modCwy a g).les = s.les := (rfl)
@[simp] theorem State.modCwy_le (s : State) (a : Nat) (g : Cwy → Cwy) (j : Nat) : (s.modCwy a g).le j = s.le j := (rfl)
@[simp] theorem State.modCwy_trcs (s : State) (a : Nat) (g : Cwy → Cwy) : (s.modCwy a g).trcs = s.trcs := (rfl)
@[simp] theorem State.modCwy_trc (s : State) (a : Nat) (g : Cwy → Cwy) (j : Nat) : (s.modCwy a g).trc j = s.trc j := (rfl)
@[simp] theorem State.modCwy_trcSel (s : State) (a : Nat) (g : Cwy → Cwy) : (s.modCwy a g).trcSel = s.trcSel := (rfl)
@[simp] theorem State.modCwy_engines (s : State) (a : Nat) (g : Cwy → Cwy) : (s.modCwy a g).engines = s.engines := (rfl)
@[simp] theorem State.modCwy_eng (s : State) (a : Nat) (g : Cwy → Cwy) (j : Nat) : (s.modCwy a g).eng j = s.eng j := (rfl)
@[simp] theorem State.modCwy_pool (s : State) (a : Nat) (g : Cwy → Cwy) : (s.modCwy a g).pool = s.pool := (rfl)
@[simp] theorem State.modCwy_herds (s : State) (a : Nat) (g : Cwy → Cwy) : (s.modCwy a g).herds = s.herds := (rfl)
@[simp] theorem State.modCwy_herd (s : State) (a : Nat) (g : Cwy → Cwy) (j : Nat) : (s.modCwy a g).herd j = s.herd j := (rfl)
@[simp] theorem State.modCwy_mem (s : State) (a : Nat) (g : Cwy → Cwy) : (s.modCwy a g).mem = s.mem := (rfl)
@[simp] theorem State.modCwy_ram (s : State) (a : Nat) (g : Cwy → Cwy) : (s.modCwy a g).ram = s.ram := (rfl)
@[simp] theorem State.modCwy_cache (s : State) (a : Nat) (g : Cwy → Cwy) : (s.modCwy a g).cache = s.cache := (rfl)
@[simp] theorem State.modCwy_cal (s : State) (a : Nat) (g : Cwy → Cwy) : (s.modCwy a g).cal = s.cal := (rfl)
@[simp] theorem State.modCwy_thm (s : State) (a : Nat) (g : Cwy → Cwy) : (s.modCwy a g).thm = s.thm := (rfl)
@[simp] theorem State.modCwy_clk (s : State) (a : Nat) (g : Cwy → Cwy) : (s.modCwy a g).clk = s.clk := (rfl)
@[simp] theorem State.modCwy_isls (s : State) (a : Nat) (g : Cwy → Cwy) : (s.modCwy a g).isls = s.isls := (rfl)
@[simp] theorem State.modCwy_isl (s : State) (a : Nat) (g : Cwy → Cwy) (j : Nat) : (s.modCwy a g).isl j = s.isl j := (rfl)
@[simp] theorem State.modCwy_xings (s : State) (a : Nat) (g : Cwy → Cwy) : (s.modCwy a g).xings = s.xings := (rfl)
@[simp] theorem State.modCwy_xing (s : State) (a : Nat) (g : Cwy → Cwy) (j : Nat) : (s.modCwy a g).xing j = s.xing j := (rfl)
@[simp] theorem State.modCwy_mbxs (s : State) (a : Nat) (g : Cwy → Cwy) : (s.modCwy a g).mbxs = s.mbxs := (rfl)
@[simp] theorem State.modCwy_mbx (s : State) (a : Nat) (g : Cwy → Cwy) (j : Nat) : (s.modCwy a g).mbx j = s.mbx j := (rfl)
@[simp] theorem State.modCwy_evt (s : State) (a : Nat) (g : Cwy → Cwy) : (s.modCwy a g).evt = s.evt := (rfl)
@[simp] theorem State.modCwy_rings (s : State) (a : Nat) (g : Cwy → Cwy) : (s.modCwy a g).rings = s.rings := (rfl)
@[simp] theorem State.modCwy_ring (s : State) (a : Nat) (g : Cwy → Cwy) (j : Nat) : (s.modCwy a g).ring j = s.ring j := (rfl)
@[simp] theorem State.modCwy_accs (s : State) (a : Nat) (g : Cwy → Cwy) : (s.modCwy a g).accs = s.accs := (rfl)
@[simp] theorem State.modCwy_acc (s : State) (a : Nat) (g : Cwy → Cwy) (j : Nat) : (s.modCwy a g).acc j = s.acc j := (rfl)
@[simp] theorem State.modCwy_tally (s : State) (a : Nat) (g : Cwy → Cwy) : (s.modCwy a g).tally = s.tally := (rfl)
@[simp] theorem State.modCwy_boot (s : State) (a : Nat) (g : Cwy → Cwy) : (s.modCwy a g).boot = s.boot := (rfl)
@[simp] theorem State.modCwy_keys (s : State) (a : Nat) (g : Cwy → Cwy) : (s.modCwy a g).keys = s.keys := (rfl)
@[simp] theorem State.modCwy_key (s : State) (a : Nat) (g : Cwy → Cwy) (j : Nat) : (s.modCwy a g).key j = s.key j := (rfl)
@[simp] theorem State.modCwy_sans (s : State) (a : Nat) (g : Cwy → Cwy) : (s.modCwy a g).sans = s.sans := (rfl)
@[simp] theorem State.modCwy_fmts (s : State) (a : Nat) (g : Cwy → Cwy) : (s.modCwy a g).fmts = s.fmts := (rfl)
@[simp] theorem State.modCwy_opNext (s : State) (a : Nat) (g : Cwy → Cwy) : (s.modCwy a g).opNext = s.opNext := (rfl)
@[simp] theorem State.modGraze_pending (s : State) (a : Nat) (g : Graze → Graze) : (s.modGraze a g).pending = s.pending := (rfl)
@[simp] theorem State.modGraze_now (s : State) (a : Nat) (g : Graze → Graze) : (s.modGraze a g).now = s.now := (rfl)
@[simp] theorem State.modGraze_fresh (s : State) (a : Nat) (g : Graze → Graze) : (s.modGraze a g).fresh = s.fresh := (rfl)
@[simp] theorem State.modGraze_out (s : State) (a : Nat) (g : Graze → Graze) : (s.modGraze a g).out = s.out := (rfl)
@[simp] theorem State.modGraze_cfg (s : State) (a : Nat) (g : Graze → Graze) : (s.modGraze a g).cfg = s.cfg := (rfl)
@[simp] theorem State.modGraze_glb (s : State) (a : Nat) (g : Graze → Graze) : (s.modGraze a g).glb = s.glb := (rfl)
@[simp] theorem State.modGraze_ports (s : State) (a : Nat) (g : Graze → Graze) : (s.modGraze a g).ports = s.ports := (rfl)
@[simp] theorem State.modGraze_port (s : State) (a : Nat) (g : Graze → Graze) (j : Nat) : (s.modGraze a g).port j = s.port j := (rfl)
@[simp] theorem State.modGraze_fns (s : State) (a : Nat) (g : Graze → Graze) : (s.modGraze a g).fns = s.fns := (rfl)
@[simp] theorem State.modGraze_fn (s : State) (a : Nat) (g : Graze → Graze) (j : Nat) : (s.modGraze a g).fn j = s.fn j := (rfl)
@[simp] theorem State.modGraze_sqs (s : State) (a : Nat) (g : Graze → Graze) : (s.modGraze a g).sqs = s.sqs := (rfl)
@[simp] theorem State.modGraze_sq (s : State) (a : Nat) (g : Graze → Graze) (j : Nat) : (s.modGraze a g).sq j = s.sq j := (rfl)
@[simp] theorem State.modGraze_cqs (s : State) (a : Nat) (g : Graze → Graze) : (s.modGraze a g).cqs = s.cqs := (rfl)
@[simp] theorem State.modGraze_cq (s : State) (a : Nat) (g : Graze → Graze) (j : Nat) : (s.modGraze a g).cq j = s.cq j := (rfl)
@[simp] theorem State.modGraze_ledger (s : State) (a : Nat) (g : Graze → Graze) : (s.modGraze a g).ledger = s.ledger := (rfl)
@[simp] theorem State.modGraze_ldg (s : State) (a : Nat) (g : Graze → Graze) : (s.modGraze a g).ldg = s.ldg := (rfl)
@[simp] theorem State.modGraze_recs (s : State) (a : Nat) (g : Graze → Graze) : (s.modGraze a g).recs = s.recs := (rfl)
@[simp] theorem State.modGraze_recNext (s : State) (a : Nat) (g : Graze → Graze) : (s.modGraze a g).recNext = s.recNext := (rfl)
@[simp] theorem State.modGraze_nss (s : State) (a : Nat) (g : Graze → Graze) : (s.modGraze a g).nss = s.nss := (rfl)
@[simp] theorem State.modGraze_ns (s : State) (a : Nat) (g : Graze → Graze) (j : Nat) : (s.modGraze a g).ns j = s.ns j := (rfl)
@[simp] theorem State.modGraze_zones (s : State) (a : Nat) (g : Graze → Graze) : (s.modGraze a g).zones = s.zones := (rfl)
@[simp] theorem State.modGraze_zone (s : State) (a : Nat) (g : Graze → Graze) (j : Nat) : (s.modGraze a g).zone j = s.zone j := (rfl)
@[simp] theorem State.modGraze_stage (s : State) (a : Nat) (g : Graze → Graze) : (s.modGraze a g).stage = s.stage := (rfl)
@[simp] theorem State.modGraze_media (s : State) (a : Nat) (g : Graze → Graze) : (s.modGraze a g).media = s.media := (rfl)
@[simp] theorem State.modGraze_bays (s : State) (a : Nat) (g : Graze → Graze) : (s.modGraze a g).bays = s.bays := (rfl)
@[simp] theorem State.modGraze_bay (s : State) (a : Nat) (g : Graze → Graze) (j : Nat) : (s.modGraze a g).bay j = s.bay j := (rfl)
@[simp] theorem State.modGraze_doms (s : State) (a : Nat) (g : Graze → Graze) : (s.modGraze a g).doms = s.doms := (rfl)
@[simp] theorem State.modGraze_dom (s : State) (a : Nat) (g : Graze → Graze) (j : Nat) : (s.modGraze a g).dom j = s.dom j := (rfl)
@[simp] theorem State.modGraze_pwr (s : State) (a : Nat) (g : Graze → Graze) : (s.modGraze a g).pwr = s.pwr := (rfl)
@[simp] theorem State.modGraze_les (s : State) (a : Nat) (g : Graze → Graze) : (s.modGraze a g).les = s.les := (rfl)
@[simp] theorem State.modGraze_le (s : State) (a : Nat) (g : Graze → Graze) (j : Nat) : (s.modGraze a g).le j = s.le j := (rfl)
@[simp] theorem State.modGraze_trcs (s : State) (a : Nat) (g : Graze → Graze) : (s.modGraze a g).trcs = s.trcs := (rfl)
@[simp] theorem State.modGraze_trc (s : State) (a : Nat) (g : Graze → Graze) (j : Nat) : (s.modGraze a g).trc j = s.trc j := (rfl)
@[simp] theorem State.modGraze_trcSel (s : State) (a : Nat) (g : Graze → Graze) : (s.modGraze a g).trcSel = s.trcSel := (rfl)
@[simp] theorem State.modGraze_engines (s : State) (a : Nat) (g : Graze → Graze) : (s.modGraze a g).engines = s.engines := (rfl)
@[simp] theorem State.modGraze_eng (s : State) (a : Nat) (g : Graze → Graze) (j : Nat) : (s.modGraze a g).eng j = s.eng j := (rfl)
@[simp] theorem State.modGraze_pool (s : State) (a : Nat) (g : Graze → Graze) : (s.modGraze a g).pool = s.pool := (rfl)
@[simp] theorem State.modGraze_herds (s : State) (a : Nat) (g : Graze → Graze) : (s.modGraze a g).herds = s.herds := (rfl)
@[simp] theorem State.modGraze_herd (s : State) (a : Nat) (g : Graze → Graze) (j : Nat) : (s.modGraze a g).herd j = s.herd j := (rfl)
@[simp] theorem State.modGraze_mem (s : State) (a : Nat) (g : Graze → Graze) : (s.modGraze a g).mem = s.mem := (rfl)
@[simp] theorem State.modGraze_ram (s : State) (a : Nat) (g : Graze → Graze) : (s.modGraze a g).ram = s.ram := (rfl)
@[simp] theorem State.modGraze_cache (s : State) (a : Nat) (g : Graze → Graze) : (s.modGraze a g).cache = s.cache := (rfl)
@[simp] theorem State.modGraze_cal (s : State) (a : Nat) (g : Graze → Graze) : (s.modGraze a g).cal = s.cal := (rfl)
@[simp] theorem State.modGraze_thm (s : State) (a : Nat) (g : Graze → Graze) : (s.modGraze a g).thm = s.thm := (rfl)
@[simp] theorem State.modGraze_clk (s : State) (a : Nat) (g : Graze → Graze) : (s.modGraze a g).clk = s.clk := (rfl)
@[simp] theorem State.modGraze_isls (s : State) (a : Nat) (g : Graze → Graze) : (s.modGraze a g).isls = s.isls := (rfl)
@[simp] theorem State.modGraze_isl (s : State) (a : Nat) (g : Graze → Graze) (j : Nat) : (s.modGraze a g).isl j = s.isl j := (rfl)
@[simp] theorem State.modGraze_xings (s : State) (a : Nat) (g : Graze → Graze) : (s.modGraze a g).xings = s.xings := (rfl)
@[simp] theorem State.modGraze_xing (s : State) (a : Nat) (g : Graze → Graze) (j : Nat) : (s.modGraze a g).xing j = s.xing j := (rfl)
@[simp] theorem State.modGraze_mbxs (s : State) (a : Nat) (g : Graze → Graze) : (s.modGraze a g).mbxs = s.mbxs := (rfl)
@[simp] theorem State.modGraze_mbx (s : State) (a : Nat) (g : Graze → Graze) (j : Nat) : (s.modGraze a g).mbx j = s.mbx j := (rfl)
@[simp] theorem State.modGraze_evt (s : State) (a : Nat) (g : Graze → Graze) : (s.modGraze a g).evt = s.evt := (rfl)
@[simp] theorem State.modGraze_rings (s : State) (a : Nat) (g : Graze → Graze) : (s.modGraze a g).rings = s.rings := (rfl)
@[simp] theorem State.modGraze_ring (s : State) (a : Nat) (g : Graze → Graze) (j : Nat) : (s.modGraze a g).ring j = s.ring j := (rfl)
@[simp] theorem State.modGraze_accs (s : State) (a : Nat) (g : Graze → Graze) : (s.modGraze a g).accs = s.accs := (rfl)
@[simp] theorem State.modGraze_acc (s : State) (a : Nat) (g : Graze → Graze) (j : Nat) : (s.modGraze a g).acc j = s.acc j := (rfl)
@[simp] theorem State.modGraze_tally (s : State) (a : Nat) (g : Graze → Graze) : (s.modGraze a g).tally = s.tally := (rfl)
@[simp] theorem State.modGraze_boot (s : State) (a : Nat) (g : Graze → Graze) : (s.modGraze a g).boot = s.boot := (rfl)
@[simp] theorem State.modGraze_keys (s : State) (a : Nat) (g : Graze → Graze) : (s.modGraze a g).keys = s.keys := (rfl)
@[simp] theorem State.modGraze_key (s : State) (a : Nat) (g : Graze → Graze) (j : Nat) : (s.modGraze a g).key j = s.key j := (rfl)
@[simp] theorem State.modGraze_sans (s : State) (a : Nat) (g : Graze → Graze) : (s.modGraze a g).sans = s.sans := (rfl)
@[simp] theorem State.modGraze_fmts (s : State) (a : Nat) (g : Graze → Graze) : (s.modGraze a g).fmts = s.fmts := (rfl)
@[simp] theorem State.modGraze_opNext (s : State) (a : Nat) (g : Graze → Graze) : (s.modGraze a g).opNext = s.opNext := (rfl)
@[simp] theorem State.modHead_pending (s : State) (a h : Nat) (g : HeadSt → HeadSt) : (s.modHead a h g).pending = s.pending := (rfl)
@[simp] theorem State.modHead_now (s : State) (a h : Nat) (g : HeadSt → HeadSt) : (s.modHead a h g).now = s.now := (rfl)
@[simp] theorem State.modHead_fresh (s : State) (a h : Nat) (g : HeadSt → HeadSt) : (s.modHead a h g).fresh = s.fresh := (rfl)
@[simp] theorem State.modHead_out (s : State) (a h : Nat) (g : HeadSt → HeadSt) : (s.modHead a h g).out = s.out := (rfl)
@[simp] theorem State.modHead_cfg (s : State) (a h : Nat) (g : HeadSt → HeadSt) : (s.modHead a h g).cfg = s.cfg := (rfl)
@[simp] theorem State.modHead_glb (s : State) (a h : Nat) (g : HeadSt → HeadSt) : (s.modHead a h g).glb = s.glb := (rfl)
@[simp] theorem State.modHead_ports (s : State) (a h : Nat) (g : HeadSt → HeadSt) : (s.modHead a h g).ports = s.ports := (rfl)
@[simp] theorem State.modHead_port (s : State) (a h : Nat) (g : HeadSt → HeadSt) (j : Nat) : (s.modHead a h g).port j = s.port j := (rfl)
@[simp] theorem State.modHead_fns (s : State) (a h : Nat) (g : HeadSt → HeadSt) : (s.modHead a h g).fns = s.fns := (rfl)
@[simp] theorem State.modHead_fn (s : State) (a h : Nat) (g : HeadSt → HeadSt) (j : Nat) : (s.modHead a h g).fn j = s.fn j := (rfl)
@[simp] theorem State.modHead_sqs (s : State) (a h : Nat) (g : HeadSt → HeadSt) : (s.modHead a h g).sqs = s.sqs := (rfl)
@[simp] theorem State.modHead_sq (s : State) (a h : Nat) (g : HeadSt → HeadSt) (j : Nat) : (s.modHead a h g).sq j = s.sq j := (rfl)
@[simp] theorem State.modHead_cqs (s : State) (a h : Nat) (g : HeadSt → HeadSt) : (s.modHead a h g).cqs = s.cqs := (rfl)
@[simp] theorem State.modHead_cq (s : State) (a h : Nat) (g : HeadSt → HeadSt) (j : Nat) : (s.modHead a h g).cq j = s.cq j := (rfl)
@[simp] theorem State.modHead_ledger (s : State) (a h : Nat) (g : HeadSt → HeadSt) : (s.modHead a h g).ledger = s.ledger := (rfl)
@[simp] theorem State.modHead_ldg (s : State) (a h : Nat) (g : HeadSt → HeadSt) : (s.modHead a h g).ldg = s.ldg := (rfl)
@[simp] theorem State.modHead_recs (s : State) (a h : Nat) (g : HeadSt → HeadSt) : (s.modHead a h g).recs = s.recs := (rfl)
@[simp] theorem State.modHead_recNext (s : State) (a h : Nat) (g : HeadSt → HeadSt) : (s.modHead a h g).recNext = s.recNext := (rfl)
@[simp] theorem State.modHead_nss (s : State) (a h : Nat) (g : HeadSt → HeadSt) : (s.modHead a h g).nss = s.nss := (rfl)
@[simp] theorem State.modHead_ns (s : State) (a h : Nat) (g : HeadSt → HeadSt) (j : Nat) : (s.modHead a h g).ns j = s.ns j := (rfl)
@[simp] theorem State.modHead_zones (s : State) (a h : Nat) (g : HeadSt → HeadSt) : (s.modHead a h g).zones = s.zones := (rfl)
@[simp] theorem State.modHead_zone (s : State) (a h : Nat) (g : HeadSt → HeadSt) (j : Nat) : (s.modHead a h g).zone j = s.zone j := (rfl)
@[simp] theorem State.modHead_stage (s : State) (a h : Nat) (g : HeadSt → HeadSt) : (s.modHead a h g).stage = s.stage := (rfl)
@[simp] theorem State.modHead_media (s : State) (a h : Nat) (g : HeadSt → HeadSt) : (s.modHead a h g).media = s.media := (rfl)
@[simp] theorem State.modHead_bays (s : State) (a h : Nat) (g : HeadSt → HeadSt) : (s.modHead a h g).bays = s.bays := (rfl)
@[simp] theorem State.modHead_bay (s : State) (a h : Nat) (g : HeadSt → HeadSt) (j : Nat) : (s.modHead a h g).bay j = s.bay j := (rfl)
@[simp] theorem State.modHead_doms (s : State) (a h : Nat) (g : HeadSt → HeadSt) : (s.modHead a h g).doms = s.doms := (rfl)
@[simp] theorem State.modHead_dom (s : State) (a h : Nat) (g : HeadSt → HeadSt) (j : Nat) : (s.modHead a h g).dom j = s.dom j := (rfl)
@[simp] theorem State.modHead_pwr (s : State) (a h : Nat) (g : HeadSt → HeadSt) : (s.modHead a h g).pwr = s.pwr := (rfl)
@[simp] theorem State.modHead_les (s : State) (a h : Nat) (g : HeadSt → HeadSt) : (s.modHead a h g).les = s.les := (rfl)
@[simp] theorem State.modHead_le (s : State) (a h : Nat) (g : HeadSt → HeadSt) (j : Nat) : (s.modHead a h g).le j = s.le j := (rfl)
@[simp] theorem State.modHead_trcs (s : State) (a h : Nat) (g : HeadSt → HeadSt) : (s.modHead a h g).trcs = s.trcs := (rfl)
@[simp] theorem State.modHead_trc (s : State) (a h : Nat) (g : HeadSt → HeadSt) (j : Nat) : (s.modHead a h g).trc j = s.trc j := (rfl)
@[simp] theorem State.modHead_trcSel (s : State) (a h : Nat) (g : HeadSt → HeadSt) : (s.modHead a h g).trcSel = s.trcSel := (rfl)
@[simp] theorem State.modHead_engines (s : State) (a h : Nat) (g : HeadSt → HeadSt) : (s.modHead a h g).engines = s.engines := (rfl)
@[simp] theorem State.modHead_eng (s : State) (a h : Nat) (g : HeadSt → HeadSt) (j : Nat) : (s.modHead a h g).eng j = s.eng j := (rfl)
@[simp] theorem State.modHead_pool (s : State) (a h : Nat) (g : HeadSt → HeadSt) : (s.modHead a h g).pool = s.pool := (rfl)
@[simp] theorem State.modHead_herds (s : State) (a h : Nat) (g : HeadSt → HeadSt) : (s.modHead a h g).herds = s.herds := (rfl)
@[simp] theorem State.modHead_herd (s : State) (a h : Nat) (g : HeadSt → HeadSt) (j : Nat) : (s.modHead a h g).herd j = s.herd j := (rfl)
@[simp] theorem State.modHead_mem (s : State) (a h : Nat) (g : HeadSt → HeadSt) : (s.modHead a h g).mem = s.mem := (rfl)
@[simp] theorem State.modHead_ram (s : State) (a h : Nat) (g : HeadSt → HeadSt) : (s.modHead a h g).ram = s.ram := (rfl)
@[simp] theorem State.modHead_cache (s : State) (a h : Nat) (g : HeadSt → HeadSt) : (s.modHead a h g).cache = s.cache := (rfl)
@[simp] theorem State.modHead_cal (s : State) (a h : Nat) (g : HeadSt → HeadSt) : (s.modHead a h g).cal = s.cal := (rfl)
@[simp] theorem State.modHead_thm (s : State) (a h : Nat) (g : HeadSt → HeadSt) : (s.modHead a h g).thm = s.thm := (rfl)
@[simp] theorem State.modHead_clk (s : State) (a h : Nat) (g : HeadSt → HeadSt) : (s.modHead a h g).clk = s.clk := (rfl)
@[simp] theorem State.modHead_isls (s : State) (a h : Nat) (g : HeadSt → HeadSt) : (s.modHead a h g).isls = s.isls := (rfl)
@[simp] theorem State.modHead_isl (s : State) (a h : Nat) (g : HeadSt → HeadSt) (j : Nat) : (s.modHead a h g).isl j = s.isl j := (rfl)
@[simp] theorem State.modHead_xings (s : State) (a h : Nat) (g : HeadSt → HeadSt) : (s.modHead a h g).xings = s.xings := (rfl)
@[simp] theorem State.modHead_xing (s : State) (a h : Nat) (g : HeadSt → HeadSt) (j : Nat) : (s.modHead a h g).xing j = s.xing j := (rfl)
@[simp] theorem State.modHead_mbxs (s : State) (a h : Nat) (g : HeadSt → HeadSt) : (s.modHead a h g).mbxs = s.mbxs := (rfl)
@[simp] theorem State.modHead_mbx (s : State) (a h : Nat) (g : HeadSt → HeadSt) (j : Nat) : (s.modHead a h g).mbx j = s.mbx j := (rfl)
@[simp] theorem State.modHead_evt (s : State) (a h : Nat) (g : HeadSt → HeadSt) : (s.modHead a h g).evt = s.evt := (rfl)
@[simp] theorem State.modHead_rings (s : State) (a h : Nat) (g : HeadSt → HeadSt) : (s.modHead a h g).rings = s.rings := (rfl)
@[simp] theorem State.modHead_ring (s : State) (a h : Nat) (g : HeadSt → HeadSt) (j : Nat) : (s.modHead a h g).ring j = s.ring j := (rfl)
@[simp] theorem State.modHead_accs (s : State) (a h : Nat) (g : HeadSt → HeadSt) : (s.modHead a h g).accs = s.accs := (rfl)
@[simp] theorem State.modHead_acc (s : State) (a h : Nat) (g : HeadSt → HeadSt) (j : Nat) : (s.modHead a h g).acc j = s.acc j := (rfl)
@[simp] theorem State.modHead_tally (s : State) (a h : Nat) (g : HeadSt → HeadSt) : (s.modHead a h g).tally = s.tally := (rfl)
@[simp] theorem State.modHead_boot (s : State) (a h : Nat) (g : HeadSt → HeadSt) : (s.modHead a h g).boot = s.boot := (rfl)
@[simp] theorem State.modHead_keys (s : State) (a h : Nat) (g : HeadSt → HeadSt) : (s.modHead a h g).keys = s.keys := (rfl)
@[simp] theorem State.modHead_key (s : State) (a h : Nat) (g : HeadSt → HeadSt) (j : Nat) : (s.modHead a h g).key j = s.key j := (rfl)
@[simp] theorem State.modHead_sans (s : State) (a h : Nat) (g : HeadSt → HeadSt) : (s.modHead a h g).sans = s.sans := (rfl)
@[simp] theorem State.modHead_fmts (s : State) (a h : Nat) (g : HeadSt → HeadSt) : (s.modHead a h g).fmts = s.fmts := (rfl)
@[simp] theorem State.modHead_opNext (s : State) (a h : Nat) (g : HeadSt → HeadSt) : (s.modHead a h g).opNext = s.opNext := (rfl)
@[simp] theorem State.modSpin_pending (s : State) (b : Nat) (g : Spin → Spin) : (s.modSpin b g).pending = s.pending := (rfl)
@[simp] theorem State.modSpin_now (s : State) (b : Nat) (g : Spin → Spin) : (s.modSpin b g).now = s.now := (rfl)
@[simp] theorem State.modSpin_fresh (s : State) (b : Nat) (g : Spin → Spin) : (s.modSpin b g).fresh = s.fresh := (rfl)
@[simp] theorem State.modSpin_out (s : State) (b : Nat) (g : Spin → Spin) : (s.modSpin b g).out = s.out := (rfl)
@[simp] theorem State.modSpin_cfg (s : State) (b : Nat) (g : Spin → Spin) : (s.modSpin b g).cfg = s.cfg := (rfl)
@[simp] theorem State.modSpin_glb (s : State) (b : Nat) (g : Spin → Spin) : (s.modSpin b g).glb = s.glb := (rfl)
@[simp] theorem State.modSpin_ports (s : State) (b : Nat) (g : Spin → Spin) : (s.modSpin b g).ports = s.ports := (rfl)
@[simp] theorem State.modSpin_port (s : State) (b : Nat) (g : Spin → Spin) (j : Nat) : (s.modSpin b g).port j = s.port j := (rfl)
@[simp] theorem State.modSpin_fns (s : State) (b : Nat) (g : Spin → Spin) : (s.modSpin b g).fns = s.fns := (rfl)
@[simp] theorem State.modSpin_fn (s : State) (b : Nat) (g : Spin → Spin) (j : Nat) : (s.modSpin b g).fn j = s.fn j := (rfl)
@[simp] theorem State.modSpin_sqs (s : State) (b : Nat) (g : Spin → Spin) : (s.modSpin b g).sqs = s.sqs := (rfl)
@[simp] theorem State.modSpin_sq (s : State) (b : Nat) (g : Spin → Spin) (j : Nat) : (s.modSpin b g).sq j = s.sq j := (rfl)
@[simp] theorem State.modSpin_cqs (s : State) (b : Nat) (g : Spin → Spin) : (s.modSpin b g).cqs = s.cqs := (rfl)
@[simp] theorem State.modSpin_cq (s : State) (b : Nat) (g : Spin → Spin) (j : Nat) : (s.modSpin b g).cq j = s.cq j := (rfl)
@[simp] theorem State.modSpin_ledger (s : State) (b : Nat) (g : Spin → Spin) : (s.modSpin b g).ledger = s.ledger := (rfl)
@[simp] theorem State.modSpin_ldg (s : State) (b : Nat) (g : Spin → Spin) : (s.modSpin b g).ldg = s.ldg := (rfl)
@[simp] theorem State.modSpin_recs (s : State) (b : Nat) (g : Spin → Spin) : (s.modSpin b g).recs = s.recs := (rfl)
@[simp] theorem State.modSpin_recNext (s : State) (b : Nat) (g : Spin → Spin) : (s.modSpin b g).recNext = s.recNext := (rfl)
@[simp] theorem State.modSpin_nss (s : State) (b : Nat) (g : Spin → Spin) : (s.modSpin b g).nss = s.nss := (rfl)
@[simp] theorem State.modSpin_ns (s : State) (b : Nat) (g : Spin → Spin) (j : Nat) : (s.modSpin b g).ns j = s.ns j := (rfl)
@[simp] theorem State.modSpin_zones (s : State) (b : Nat) (g : Spin → Spin) : (s.modSpin b g).zones = s.zones := (rfl)
@[simp] theorem State.modSpin_zone (s : State) (b : Nat) (g : Spin → Spin) (j : Nat) : (s.modSpin b g).zone j = s.zone j := (rfl)
@[simp] theorem State.modSpin_stage (s : State) (b : Nat) (g : Spin → Spin) : (s.modSpin b g).stage = s.stage := (rfl)
@[simp] theorem State.modSpin_media (s : State) (b : Nat) (g : Spin → Spin) : (s.modSpin b g).media = s.media := (rfl)
@[simp] theorem State.modSpin_acts (s : State) (b : Nat) (g : Spin → Spin) : (s.modSpin b g).acts = s.acts := (rfl)
@[simp] theorem State.modSpin_act (s : State) (b : Nat) (g : Spin → Spin) (j : Nat) : (s.modSpin b g).act j = s.act j := (rfl)
@[simp] theorem State.modSpin_doms (s : State) (b : Nat) (g : Spin → Spin) : (s.modSpin b g).doms = s.doms := (rfl)
@[simp] theorem State.modSpin_dom (s : State) (b : Nat) (g : Spin → Spin) (j : Nat) : (s.modSpin b g).dom j = s.dom j := (rfl)
@[simp] theorem State.modSpin_pwr (s : State) (b : Nat) (g : Spin → Spin) : (s.modSpin b g).pwr = s.pwr := (rfl)
@[simp] theorem State.modSpin_les (s : State) (b : Nat) (g : Spin → Spin) : (s.modSpin b g).les = s.les := (rfl)
@[simp] theorem State.modSpin_le (s : State) (b : Nat) (g : Spin → Spin) (j : Nat) : (s.modSpin b g).le j = s.le j := (rfl)
@[simp] theorem State.modSpin_trcs (s : State) (b : Nat) (g : Spin → Spin) : (s.modSpin b g).trcs = s.trcs := (rfl)
@[simp] theorem State.modSpin_trc (s : State) (b : Nat) (g : Spin → Spin) (j : Nat) : (s.modSpin b g).trc j = s.trc j := (rfl)
@[simp] theorem State.modSpin_trcSel (s : State) (b : Nat) (g : Spin → Spin) : (s.modSpin b g).trcSel = s.trcSel := (rfl)
@[simp] theorem State.modSpin_engines (s : State) (b : Nat) (g : Spin → Spin) : (s.modSpin b g).engines = s.engines := (rfl)
@[simp] theorem State.modSpin_eng (s : State) (b : Nat) (g : Spin → Spin) (j : Nat) : (s.modSpin b g).eng j = s.eng j := (rfl)
@[simp] theorem State.modSpin_pool (s : State) (b : Nat) (g : Spin → Spin) : (s.modSpin b g).pool = s.pool := (rfl)
@[simp] theorem State.modSpin_herds (s : State) (b : Nat) (g : Spin → Spin) : (s.modSpin b g).herds = s.herds := (rfl)
@[simp] theorem State.modSpin_herd (s : State) (b : Nat) (g : Spin → Spin) (j : Nat) : (s.modSpin b g).herd j = s.herd j := (rfl)
@[simp] theorem State.modSpin_mem (s : State) (b : Nat) (g : Spin → Spin) : (s.modSpin b g).mem = s.mem := (rfl)
@[simp] theorem State.modSpin_ram (s : State) (b : Nat) (g : Spin → Spin) : (s.modSpin b g).ram = s.ram := (rfl)
@[simp] theorem State.modSpin_cache (s : State) (b : Nat) (g : Spin → Spin) : (s.modSpin b g).cache = s.cache := (rfl)
@[simp] theorem State.modSpin_cal (s : State) (b : Nat) (g : Spin → Spin) : (s.modSpin b g).cal = s.cal := (rfl)
@[simp] theorem State.modSpin_thm (s : State) (b : Nat) (g : Spin → Spin) : (s.modSpin b g).thm = s.thm := (rfl)
@[simp] theorem State.modSpin_clk (s : State) (b : Nat) (g : Spin → Spin) : (s.modSpin b g).clk = s.clk := (rfl)
@[simp] theorem State.modSpin_isls (s : State) (b : Nat) (g : Spin → Spin) : (s.modSpin b g).isls = s.isls := (rfl)
@[simp] theorem State.modSpin_isl (s : State) (b : Nat) (g : Spin → Spin) (j : Nat) : (s.modSpin b g).isl j = s.isl j := (rfl)
@[simp] theorem State.modSpin_xings (s : State) (b : Nat) (g : Spin → Spin) : (s.modSpin b g).xings = s.xings := (rfl)
@[simp] theorem State.modSpin_xing (s : State) (b : Nat) (g : Spin → Spin) (j : Nat) : (s.modSpin b g).xing j = s.xing j := (rfl)
@[simp] theorem State.modSpin_mbxs (s : State) (b : Nat) (g : Spin → Spin) : (s.modSpin b g).mbxs = s.mbxs := (rfl)
@[simp] theorem State.modSpin_mbx (s : State) (b : Nat) (g : Spin → Spin) (j : Nat) : (s.modSpin b g).mbx j = s.mbx j := (rfl)
@[simp] theorem State.modSpin_evt (s : State) (b : Nat) (g : Spin → Spin) : (s.modSpin b g).evt = s.evt := (rfl)
@[simp] theorem State.modSpin_rings (s : State) (b : Nat) (g : Spin → Spin) : (s.modSpin b g).rings = s.rings := (rfl)
@[simp] theorem State.modSpin_ring (s : State) (b : Nat) (g : Spin → Spin) (j : Nat) : (s.modSpin b g).ring j = s.ring j := (rfl)
@[simp] theorem State.modSpin_accs (s : State) (b : Nat) (g : Spin → Spin) : (s.modSpin b g).accs = s.accs := (rfl)
@[simp] theorem State.modSpin_acc (s : State) (b : Nat) (g : Spin → Spin) (j : Nat) : (s.modSpin b g).acc j = s.acc j := (rfl)
@[simp] theorem State.modSpin_tally (s : State) (b : Nat) (g : Spin → Spin) : (s.modSpin b g).tally = s.tally := (rfl)
@[simp] theorem State.modSpin_boot (s : State) (b : Nat) (g : Spin → Spin) : (s.modSpin b g).boot = s.boot := (rfl)
@[simp] theorem State.modSpin_keys (s : State) (b : Nat) (g : Spin → Spin) : (s.modSpin b g).keys = s.keys := (rfl)
@[simp] theorem State.modSpin_key (s : State) (b : Nat) (g : Spin → Spin) (j : Nat) : (s.modSpin b g).key j = s.key j := (rfl)
@[simp] theorem State.modSpin_sans (s : State) (b : Nat) (g : Spin → Spin) : (s.modSpin b g).sans = s.sans := (rfl)
@[simp] theorem State.modSpin_fmts (s : State) (b : Nat) (g : Spin → Spin) : (s.modSpin b g).fmts = s.fmts := (rfl)
@[simp] theorem State.modSpin_opNext (s : State) (b : Nat) (g : Spin → Spin) : (s.modSpin b g).opNext = s.opNext := (rfl)
@[simp] theorem State.modLink_pending (s : State) (b : Nat) (g : BayLink → BayLink) : (s.modLink b g).pending = s.pending := (rfl)
@[simp] theorem State.modLink_now (s : State) (b : Nat) (g : BayLink → BayLink) : (s.modLink b g).now = s.now := (rfl)
@[simp] theorem State.modLink_fresh (s : State) (b : Nat) (g : BayLink → BayLink) : (s.modLink b g).fresh = s.fresh := (rfl)
@[simp] theorem State.modLink_out (s : State) (b : Nat) (g : BayLink → BayLink) : (s.modLink b g).out = s.out := (rfl)
@[simp] theorem State.modLink_cfg (s : State) (b : Nat) (g : BayLink → BayLink) : (s.modLink b g).cfg = s.cfg := (rfl)
@[simp] theorem State.modLink_glb (s : State) (b : Nat) (g : BayLink → BayLink) : (s.modLink b g).glb = s.glb := (rfl)
@[simp] theorem State.modLink_ports (s : State) (b : Nat) (g : BayLink → BayLink) : (s.modLink b g).ports = s.ports := (rfl)
@[simp] theorem State.modLink_port (s : State) (b : Nat) (g : BayLink → BayLink) (j : Nat) : (s.modLink b g).port j = s.port j := (rfl)
@[simp] theorem State.modLink_fns (s : State) (b : Nat) (g : BayLink → BayLink) : (s.modLink b g).fns = s.fns := (rfl)
@[simp] theorem State.modLink_fn (s : State) (b : Nat) (g : BayLink → BayLink) (j : Nat) : (s.modLink b g).fn j = s.fn j := (rfl)
@[simp] theorem State.modLink_sqs (s : State) (b : Nat) (g : BayLink → BayLink) : (s.modLink b g).sqs = s.sqs := (rfl)
@[simp] theorem State.modLink_sq (s : State) (b : Nat) (g : BayLink → BayLink) (j : Nat) : (s.modLink b g).sq j = s.sq j := (rfl)
@[simp] theorem State.modLink_cqs (s : State) (b : Nat) (g : BayLink → BayLink) : (s.modLink b g).cqs = s.cqs := (rfl)
@[simp] theorem State.modLink_cq (s : State) (b : Nat) (g : BayLink → BayLink) (j : Nat) : (s.modLink b g).cq j = s.cq j := (rfl)
@[simp] theorem State.modLink_ledger (s : State) (b : Nat) (g : BayLink → BayLink) : (s.modLink b g).ledger = s.ledger := (rfl)
@[simp] theorem State.modLink_ldg (s : State) (b : Nat) (g : BayLink → BayLink) : (s.modLink b g).ldg = s.ldg := (rfl)
@[simp] theorem State.modLink_recs (s : State) (b : Nat) (g : BayLink → BayLink) : (s.modLink b g).recs = s.recs := (rfl)
@[simp] theorem State.modLink_recNext (s : State) (b : Nat) (g : BayLink → BayLink) : (s.modLink b g).recNext = s.recNext := (rfl)
@[simp] theorem State.modLink_nss (s : State) (b : Nat) (g : BayLink → BayLink) : (s.modLink b g).nss = s.nss := (rfl)
@[simp] theorem State.modLink_ns (s : State) (b : Nat) (g : BayLink → BayLink) (j : Nat) : (s.modLink b g).ns j = s.ns j := (rfl)
@[simp] theorem State.modLink_zones (s : State) (b : Nat) (g : BayLink → BayLink) : (s.modLink b g).zones = s.zones := (rfl)
@[simp] theorem State.modLink_zone (s : State) (b : Nat) (g : BayLink → BayLink) (j : Nat) : (s.modLink b g).zone j = s.zone j := (rfl)
@[simp] theorem State.modLink_stage (s : State) (b : Nat) (g : BayLink → BayLink) : (s.modLink b g).stage = s.stage := (rfl)
@[simp] theorem State.modLink_media (s : State) (b : Nat) (g : BayLink → BayLink) : (s.modLink b g).media = s.media := (rfl)
@[simp] theorem State.modLink_acts (s : State) (b : Nat) (g : BayLink → BayLink) : (s.modLink b g).acts = s.acts := (rfl)
@[simp] theorem State.modLink_act (s : State) (b : Nat) (g : BayLink → BayLink) (j : Nat) : (s.modLink b g).act j = s.act j := (rfl)
@[simp] theorem State.modLink_doms (s : State) (b : Nat) (g : BayLink → BayLink) : (s.modLink b g).doms = s.doms := (rfl)
@[simp] theorem State.modLink_dom (s : State) (b : Nat) (g : BayLink → BayLink) (j : Nat) : (s.modLink b g).dom j = s.dom j := (rfl)
@[simp] theorem State.modLink_pwr (s : State) (b : Nat) (g : BayLink → BayLink) : (s.modLink b g).pwr = s.pwr := (rfl)
@[simp] theorem State.modLink_les (s : State) (b : Nat) (g : BayLink → BayLink) : (s.modLink b g).les = s.les := (rfl)
@[simp] theorem State.modLink_le (s : State) (b : Nat) (g : BayLink → BayLink) (j : Nat) : (s.modLink b g).le j = s.le j := (rfl)
@[simp] theorem State.modLink_trcs (s : State) (b : Nat) (g : BayLink → BayLink) : (s.modLink b g).trcs = s.trcs := (rfl)
@[simp] theorem State.modLink_trc (s : State) (b : Nat) (g : BayLink → BayLink) (j : Nat) : (s.modLink b g).trc j = s.trc j := (rfl)
@[simp] theorem State.modLink_trcSel (s : State) (b : Nat) (g : BayLink → BayLink) : (s.modLink b g).trcSel = s.trcSel := (rfl)
@[simp] theorem State.modLink_engines (s : State) (b : Nat) (g : BayLink → BayLink) : (s.modLink b g).engines = s.engines := (rfl)
@[simp] theorem State.modLink_eng (s : State) (b : Nat) (g : BayLink → BayLink) (j : Nat) : (s.modLink b g).eng j = s.eng j := (rfl)
@[simp] theorem State.modLink_pool (s : State) (b : Nat) (g : BayLink → BayLink) : (s.modLink b g).pool = s.pool := (rfl)
@[simp] theorem State.modLink_herds (s : State) (b : Nat) (g : BayLink → BayLink) : (s.modLink b g).herds = s.herds := (rfl)
@[simp] theorem State.modLink_herd (s : State) (b : Nat) (g : BayLink → BayLink) (j : Nat) : (s.modLink b g).herd j = s.herd j := (rfl)
@[simp] theorem State.modLink_mem (s : State) (b : Nat) (g : BayLink → BayLink) : (s.modLink b g).mem = s.mem := (rfl)
@[simp] theorem State.modLink_ram (s : State) (b : Nat) (g : BayLink → BayLink) : (s.modLink b g).ram = s.ram := (rfl)
@[simp] theorem State.modLink_cache (s : State) (b : Nat) (g : BayLink → BayLink) : (s.modLink b g).cache = s.cache := (rfl)
@[simp] theorem State.modLink_cal (s : State) (b : Nat) (g : BayLink → BayLink) : (s.modLink b g).cal = s.cal := (rfl)
@[simp] theorem State.modLink_thm (s : State) (b : Nat) (g : BayLink → BayLink) : (s.modLink b g).thm = s.thm := (rfl)
@[simp] theorem State.modLink_clk (s : State) (b : Nat) (g : BayLink → BayLink) : (s.modLink b g).clk = s.clk := (rfl)
@[simp] theorem State.modLink_isls (s : State) (b : Nat) (g : BayLink → BayLink) : (s.modLink b g).isls = s.isls := (rfl)
@[simp] theorem State.modLink_isl (s : State) (b : Nat) (g : BayLink → BayLink) (j : Nat) : (s.modLink b g).isl j = s.isl j := (rfl)
@[simp] theorem State.modLink_xings (s : State) (b : Nat) (g : BayLink → BayLink) : (s.modLink b g).xings = s.xings := (rfl)
@[simp] theorem State.modLink_xing (s : State) (b : Nat) (g : BayLink → BayLink) (j : Nat) : (s.modLink b g).xing j = s.xing j := (rfl)
@[simp] theorem State.modLink_mbxs (s : State) (b : Nat) (g : BayLink → BayLink) : (s.modLink b g).mbxs = s.mbxs := (rfl)
@[simp] theorem State.modLink_mbx (s : State) (b : Nat) (g : BayLink → BayLink) (j : Nat) : (s.modLink b g).mbx j = s.mbx j := (rfl)
@[simp] theorem State.modLink_evt (s : State) (b : Nat) (g : BayLink → BayLink) : (s.modLink b g).evt = s.evt := (rfl)
@[simp] theorem State.modLink_rings (s : State) (b : Nat) (g : BayLink → BayLink) : (s.modLink b g).rings = s.rings := (rfl)
@[simp] theorem State.modLink_ring (s : State) (b : Nat) (g : BayLink → BayLink) (j : Nat) : (s.modLink b g).ring j = s.ring j := (rfl)
@[simp] theorem State.modLink_accs (s : State) (b : Nat) (g : BayLink → BayLink) : (s.modLink b g).accs = s.accs := (rfl)
@[simp] theorem State.modLink_acc (s : State) (b : Nat) (g : BayLink → BayLink) (j : Nat) : (s.modLink b g).acc j = s.acc j := (rfl)
@[simp] theorem State.modLink_tally (s : State) (b : Nat) (g : BayLink → BayLink) : (s.modLink b g).tally = s.tally := (rfl)
@[simp] theorem State.modLink_boot (s : State) (b : Nat) (g : BayLink → BayLink) : (s.modLink b g).boot = s.boot := (rfl)
@[simp] theorem State.modLink_keys (s : State) (b : Nat) (g : BayLink → BayLink) : (s.modLink b g).keys = s.keys := (rfl)
@[simp] theorem State.modLink_key (s : State) (b : Nat) (g : BayLink → BayLink) (j : Nat) : (s.modLink b g).key j = s.key j := (rfl)
@[simp] theorem State.modLink_sans (s : State) (b : Nat) (g : BayLink → BayLink) : (s.modLink b g).sans = s.sans := (rfl)
@[simp] theorem State.modLink_fmts (s : State) (b : Nat) (g : BayLink → BayLink) : (s.modLink b g).fmts = s.fmts := (rfl)
@[simp] theorem State.modLink_opNext (s : State) (b : Nat) (g : BayLink → BayLink) : (s.modLink b g).opNext = s.opNext := (rfl)
@[simp] theorem State.modCmd_pending (s : State) (k : Nat) (g : Cmd → Cmd) : (s.modCmd k g).pending = s.pending := (rfl)
@[simp] theorem State.modCmd_now (s : State) (k : Nat) (g : Cmd → Cmd) : (s.modCmd k g).now = s.now := (rfl)
@[simp] theorem State.modCmd_fresh (s : State) (k : Nat) (g : Cmd → Cmd) : (s.modCmd k g).fresh = s.fresh := (rfl)
@[simp] theorem State.modCmd_out (s : State) (k : Nat) (g : Cmd → Cmd) : (s.modCmd k g).out = s.out := (rfl)
@[simp] theorem State.modCmd_cfg (s : State) (k : Nat) (g : Cmd → Cmd) : (s.modCmd k g).cfg = s.cfg := (rfl)
@[simp] theorem State.modCmd_glb (s : State) (k : Nat) (g : Cmd → Cmd) : (s.modCmd k g).glb = s.glb := (rfl)
@[simp] theorem State.modCmd_ports (s : State) (k : Nat) (g : Cmd → Cmd) : (s.modCmd k g).ports = s.ports := (rfl)
@[simp] theorem State.modCmd_port (s : State) (k : Nat) (g : Cmd → Cmd) (j : Nat) : (s.modCmd k g).port j = s.port j := (rfl)
@[simp] theorem State.modCmd_fns (s : State) (k : Nat) (g : Cmd → Cmd) : (s.modCmd k g).fns = s.fns := (rfl)
@[simp] theorem State.modCmd_fn (s : State) (k : Nat) (g : Cmd → Cmd) (j : Nat) : (s.modCmd k g).fn j = s.fn j := (rfl)
@[simp] theorem State.modCmd_sqs (s : State) (k : Nat) (g : Cmd → Cmd) : (s.modCmd k g).sqs = s.sqs := (rfl)
@[simp] theorem State.modCmd_sq (s : State) (k : Nat) (g : Cmd → Cmd) (j : Nat) : (s.modCmd k g).sq j = s.sq j := (rfl)
@[simp] theorem State.modCmd_cqs (s : State) (k : Nat) (g : Cmd → Cmd) : (s.modCmd k g).cqs = s.cqs := (rfl)
@[simp] theorem State.modCmd_cq (s : State) (k : Nat) (g : Cmd → Cmd) (j : Nat) : (s.modCmd k g).cq j = s.cq j := (rfl)
@[simp] theorem State.modCmd_ldg (s : State) (k : Nat) (g : Cmd → Cmd) : (s.modCmd k g).ldg = s.ldg := (rfl)
@[simp] theorem State.modCmd_recs (s : State) (k : Nat) (g : Cmd → Cmd) : (s.modCmd k g).recs = s.recs := (rfl)
@[simp] theorem State.modCmd_recNext (s : State) (k : Nat) (g : Cmd → Cmd) : (s.modCmd k g).recNext = s.recNext := (rfl)
@[simp] theorem State.modCmd_nss (s : State) (k : Nat) (g : Cmd → Cmd) : (s.modCmd k g).nss = s.nss := (rfl)
@[simp] theorem State.modCmd_ns (s : State) (k : Nat) (g : Cmd → Cmd) (j : Nat) : (s.modCmd k g).ns j = s.ns j := (rfl)
@[simp] theorem State.modCmd_zones (s : State) (k : Nat) (g : Cmd → Cmd) : (s.modCmd k g).zones = s.zones := (rfl)
@[simp] theorem State.modCmd_zone (s : State) (k : Nat) (g : Cmd → Cmd) (j : Nat) : (s.modCmd k g).zone j = s.zone j := (rfl)
@[simp] theorem State.modCmd_stage (s : State) (k : Nat) (g : Cmd → Cmd) : (s.modCmd k g).stage = s.stage := (rfl)
@[simp] theorem State.modCmd_media (s : State) (k : Nat) (g : Cmd → Cmd) : (s.modCmd k g).media = s.media := (rfl)
@[simp] theorem State.modCmd_acts (s : State) (k : Nat) (g : Cmd → Cmd) : (s.modCmd k g).acts = s.acts := (rfl)
@[simp] theorem State.modCmd_act (s : State) (k : Nat) (g : Cmd → Cmd) (j : Nat) : (s.modCmd k g).act j = s.act j := (rfl)
@[simp] theorem State.modCmd_bays (s : State) (k : Nat) (g : Cmd → Cmd) : (s.modCmd k g).bays = s.bays := (rfl)
@[simp] theorem State.modCmd_bay (s : State) (k : Nat) (g : Cmd → Cmd) (j : Nat) : (s.modCmd k g).bay j = s.bay j := (rfl)
@[simp] theorem State.modCmd_doms (s : State) (k : Nat) (g : Cmd → Cmd) : (s.modCmd k g).doms = s.doms := (rfl)
@[simp] theorem State.modCmd_dom (s : State) (k : Nat) (g : Cmd → Cmd) (j : Nat) : (s.modCmd k g).dom j = s.dom j := (rfl)
@[simp] theorem State.modCmd_pwr (s : State) (k : Nat) (g : Cmd → Cmd) : (s.modCmd k g).pwr = s.pwr := (rfl)
@[simp] theorem State.modCmd_les (s : State) (k : Nat) (g : Cmd → Cmd) : (s.modCmd k g).les = s.les := (rfl)
@[simp] theorem State.modCmd_le (s : State) (k : Nat) (g : Cmd → Cmd) (j : Nat) : (s.modCmd k g).le j = s.le j := (rfl)
@[simp] theorem State.modCmd_trcs (s : State) (k : Nat) (g : Cmd → Cmd) : (s.modCmd k g).trcs = s.trcs := (rfl)
@[simp] theorem State.modCmd_trc (s : State) (k : Nat) (g : Cmd → Cmd) (j : Nat) : (s.modCmd k g).trc j = s.trc j := (rfl)
@[simp] theorem State.modCmd_trcSel (s : State) (k : Nat) (g : Cmd → Cmd) : (s.modCmd k g).trcSel = s.trcSel := (rfl)
@[simp] theorem State.modCmd_engines (s : State) (k : Nat) (g : Cmd → Cmd) : (s.modCmd k g).engines = s.engines := (rfl)
@[simp] theorem State.modCmd_eng (s : State) (k : Nat) (g : Cmd → Cmd) (j : Nat) : (s.modCmd k g).eng j = s.eng j := (rfl)
@[simp] theorem State.modCmd_pool (s : State) (k : Nat) (g : Cmd → Cmd) : (s.modCmd k g).pool = s.pool := (rfl)
@[simp] theorem State.modCmd_herds (s : State) (k : Nat) (g : Cmd → Cmd) : (s.modCmd k g).herds = s.herds := (rfl)
@[simp] theorem State.modCmd_herd (s : State) (k : Nat) (g : Cmd → Cmd) (j : Nat) : (s.modCmd k g).herd j = s.herd j := (rfl)
@[simp] theorem State.modCmd_mem (s : State) (k : Nat) (g : Cmd → Cmd) : (s.modCmd k g).mem = s.mem := (rfl)
@[simp] theorem State.modCmd_ram (s : State) (k : Nat) (g : Cmd → Cmd) : (s.modCmd k g).ram = s.ram := (rfl)
@[simp] theorem State.modCmd_cache (s : State) (k : Nat) (g : Cmd → Cmd) : (s.modCmd k g).cache = s.cache := (rfl)
@[simp] theorem State.modCmd_cal (s : State) (k : Nat) (g : Cmd → Cmd) : (s.modCmd k g).cal = s.cal := (rfl)
@[simp] theorem State.modCmd_thm (s : State) (k : Nat) (g : Cmd → Cmd) : (s.modCmd k g).thm = s.thm := (rfl)
@[simp] theorem State.modCmd_clk (s : State) (k : Nat) (g : Cmd → Cmd) : (s.modCmd k g).clk = s.clk := (rfl)
@[simp] theorem State.modCmd_isls (s : State) (k : Nat) (g : Cmd → Cmd) : (s.modCmd k g).isls = s.isls := (rfl)
@[simp] theorem State.modCmd_isl (s : State) (k : Nat) (g : Cmd → Cmd) (j : Nat) : (s.modCmd k g).isl j = s.isl j := (rfl)
@[simp] theorem State.modCmd_xings (s : State) (k : Nat) (g : Cmd → Cmd) : (s.modCmd k g).xings = s.xings := (rfl)
@[simp] theorem State.modCmd_xing (s : State) (k : Nat) (g : Cmd → Cmd) (j : Nat) : (s.modCmd k g).xing j = s.xing j := (rfl)
@[simp] theorem State.modCmd_mbxs (s : State) (k : Nat) (g : Cmd → Cmd) : (s.modCmd k g).mbxs = s.mbxs := (rfl)
@[simp] theorem State.modCmd_mbx (s : State) (k : Nat) (g : Cmd → Cmd) (j : Nat) : (s.modCmd k g).mbx j = s.mbx j := (rfl)
@[simp] theorem State.modCmd_evt (s : State) (k : Nat) (g : Cmd → Cmd) : (s.modCmd k g).evt = s.evt := (rfl)
@[simp] theorem State.modCmd_rings (s : State) (k : Nat) (g : Cmd → Cmd) : (s.modCmd k g).rings = s.rings := (rfl)
@[simp] theorem State.modCmd_ring (s : State) (k : Nat) (g : Cmd → Cmd) (j : Nat) : (s.modCmd k g).ring j = s.ring j := (rfl)
@[simp] theorem State.modCmd_accs (s : State) (k : Nat) (g : Cmd → Cmd) : (s.modCmd k g).accs = s.accs := (rfl)
@[simp] theorem State.modCmd_acc (s : State) (k : Nat) (g : Cmd → Cmd) (j : Nat) : (s.modCmd k g).acc j = s.acc j := (rfl)
@[simp] theorem State.modCmd_tally (s : State) (k : Nat) (g : Cmd → Cmd) : (s.modCmd k g).tally = s.tally := (rfl)
@[simp] theorem State.modCmd_boot (s : State) (k : Nat) (g : Cmd → Cmd) : (s.modCmd k g).boot = s.boot := (rfl)
@[simp] theorem State.modCmd_keys (s : State) (k : Nat) (g : Cmd → Cmd) : (s.modCmd k g).keys = s.keys := (rfl)
@[simp] theorem State.modCmd_key (s : State) (k : Nat) (g : Cmd → Cmd) (j : Nat) : (s.modCmd k g).key j = s.key j := (rfl)
@[simp] theorem State.modCmd_sans (s : State) (k : Nat) (g : Cmd → Cmd) : (s.modCmd k g).sans = s.sans := (rfl)
@[simp] theorem State.modCmd_fmts (s : State) (k : Nat) (g : Cmd → Cmd) : (s.modCmd k g).fmts = s.fmts := (rfl)
@[simp] theorem State.modCmd_opNext (s : State) (k : Nat) (g : Cmd → Cmd) : (s.modCmd k g).opNext = s.opNext := (rfl)
@[simp] theorem State.respondAs_pending (s : State) (k st : Nat) (bs : List Byte) : (s.respondAs k st bs).pending = s.pending := by unfold State.respondAs; dsimp only; split <;> simp
@[simp] theorem State.respondAs_now (s : State) (k st : Nat) (bs : List Byte) : (s.respondAs k st bs).now = s.now := by unfold State.respondAs; dsimp only; split <;> simp
@[simp] theorem State.respondAs_fresh (s : State) (k st : Nat) (bs : List Byte) : (s.respondAs k st bs).fresh = s.fresh := by unfold State.respondAs; dsimp only; split <;> simp
@[simp] theorem State.respondAs_out (s : State) (k st : Nat) (bs : List Byte) : (s.respondAs k st bs).out = s.out := by unfold State.respondAs; dsimp only; split <;> simp
@[simp] theorem State.respondAs_cfg (s : State) (k st : Nat) (bs : List Byte) : (s.respondAs k st bs).cfg = s.cfg := by unfold State.respondAs; dsimp only; split <;> simp
@[simp] theorem State.respondAs_glb (s : State) (k st : Nat) (bs : List Byte) : (s.respondAs k st bs).glb = s.glb := by unfold State.respondAs; dsimp only; split <;> simp
@[simp] theorem State.respondAs_ports (s : State) (k st : Nat) (bs : List Byte) : (s.respondAs k st bs).ports = s.ports := by unfold State.respondAs; dsimp only; split <;> simp
@[simp] theorem State.respondAs_port (s : State) (k st : Nat) (bs : List Byte) (j : Nat) : (s.respondAs k st bs).port j = s.port j := by unfold State.respondAs; dsimp only; split <;> simp
@[simp] theorem State.respondAs_sqs (s : State) (k st : Nat) (bs : List Byte) : (s.respondAs k st bs).sqs = s.sqs := by unfold State.respondAs; dsimp only; split <;> simp
@[simp] theorem State.respondAs_sq (s : State) (k st : Nat) (bs : List Byte) (j : Nat) : (s.respondAs k st bs).sq j = s.sq j := by unfold State.respondAs; dsimp only; split <;> simp
@[simp] theorem State.respondAs_cqs (s : State) (k st : Nat) (bs : List Byte) : (s.respondAs k st bs).cqs = s.cqs := by unfold State.respondAs; dsimp only; split <;> simp
@[simp] theorem State.respondAs_cq (s : State) (k st : Nat) (bs : List Byte) (j : Nat) : (s.respondAs k st bs).cq j = s.cq j := by unfold State.respondAs; dsimp only; split <;> simp
@[simp] theorem State.respondAs_ledger (s : State) (k st : Nat) (bs : List Byte) : (s.respondAs k st bs).ledger = s.ledger := by unfold State.respondAs; dsimp only; split <;> simp
@[simp] theorem State.respondAs_ldg (s : State) (k st : Nat) (bs : List Byte) : (s.respondAs k st bs).ldg = s.ldg := by unfold State.respondAs; dsimp only; split <;> simp
@[simp] theorem State.respondAs_recs (s : State) (k st : Nat) (bs : List Byte) : (s.respondAs k st bs).recs = s.recs := by unfold State.respondAs; dsimp only; split <;> simp
@[simp] theorem State.respondAs_recNext (s : State) (k st : Nat) (bs : List Byte) : (s.respondAs k st bs).recNext = s.recNext := by unfold State.respondAs; dsimp only; split <;> simp
@[simp] theorem State.respondAs_nss (s : State) (k st : Nat) (bs : List Byte) : (s.respondAs k st bs).nss = s.nss := by unfold State.respondAs; dsimp only; split <;> simp
@[simp] theorem State.respondAs_ns (s : State) (k st : Nat) (bs : List Byte) (j : Nat) : (s.respondAs k st bs).ns j = s.ns j := by unfold State.respondAs; dsimp only; split <;> simp
@[simp] theorem State.respondAs_zones (s : State) (k st : Nat) (bs : List Byte) : (s.respondAs k st bs).zones = s.zones := by unfold State.respondAs; dsimp only; split <;> simp
@[simp] theorem State.respondAs_zone (s : State) (k st : Nat) (bs : List Byte) (j : Nat) : (s.respondAs k st bs).zone j = s.zone j := by unfold State.respondAs; dsimp only; split <;> simp
@[simp] theorem State.respondAs_stage (s : State) (k st : Nat) (bs : List Byte) : (s.respondAs k st bs).stage = s.stage := by unfold State.respondAs; dsimp only; split <;> simp
@[simp] theorem State.respondAs_media (s : State) (k st : Nat) (bs : List Byte) : (s.respondAs k st bs).media = s.media := by unfold State.respondAs; dsimp only; split <;> simp
@[simp] theorem State.respondAs_acts (s : State) (k st : Nat) (bs : List Byte) : (s.respondAs k st bs).acts = s.acts := by unfold State.respondAs; dsimp only; split <;> simp
@[simp] theorem State.respondAs_act (s : State) (k st : Nat) (bs : List Byte) (j : Nat) : (s.respondAs k st bs).act j = s.act j := by unfold State.respondAs; dsimp only; split <;> simp
@[simp] theorem State.respondAs_bays (s : State) (k st : Nat) (bs : List Byte) : (s.respondAs k st bs).bays = s.bays := by unfold State.respondAs; dsimp only; split <;> simp
@[simp] theorem State.respondAs_bay (s : State) (k st : Nat) (bs : List Byte) (j : Nat) : (s.respondAs k st bs).bay j = s.bay j := by unfold State.respondAs; dsimp only; split <;> simp
@[simp] theorem State.respondAs_doms (s : State) (k st : Nat) (bs : List Byte) : (s.respondAs k st bs).doms = s.doms := by unfold State.respondAs; dsimp only; split <;> simp
@[simp] theorem State.respondAs_dom (s : State) (k st : Nat) (bs : List Byte) (j : Nat) : (s.respondAs k st bs).dom j = s.dom j := by unfold State.respondAs; dsimp only; split <;> simp
@[simp] theorem State.respondAs_pwr (s : State) (k st : Nat) (bs : List Byte) : (s.respondAs k st bs).pwr = s.pwr := by unfold State.respondAs; dsimp only; split <;> simp
@[simp] theorem State.respondAs_les (s : State) (k st : Nat) (bs : List Byte) : (s.respondAs k st bs).les = s.les := by unfold State.respondAs; dsimp only; split <;> simp
@[simp] theorem State.respondAs_le (s : State) (k st : Nat) (bs : List Byte) (j : Nat) : (s.respondAs k st bs).le j = s.le j := by unfold State.respondAs; dsimp only; split <;> simp
@[simp] theorem State.respondAs_trcs (s : State) (k st : Nat) (bs : List Byte) : (s.respondAs k st bs).trcs = s.trcs := by unfold State.respondAs; dsimp only; split <;> simp
@[simp] theorem State.respondAs_trc (s : State) (k st : Nat) (bs : List Byte) (j : Nat) : (s.respondAs k st bs).trc j = s.trc j := by unfold State.respondAs; dsimp only; split <;> simp
@[simp] theorem State.respondAs_trcSel (s : State) (k st : Nat) (bs : List Byte) : (s.respondAs k st bs).trcSel = s.trcSel := by unfold State.respondAs; dsimp only; split <;> simp
@[simp] theorem State.respondAs_engines (s : State) (k st : Nat) (bs : List Byte) : (s.respondAs k st bs).engines = s.engines := by unfold State.respondAs; dsimp only; split <;> simp
@[simp] theorem State.respondAs_eng (s : State) (k st : Nat) (bs : List Byte) (j : Nat) : (s.respondAs k st bs).eng j = s.eng j := by unfold State.respondAs; dsimp only; split <;> simp
@[simp] theorem State.respondAs_pool (s : State) (k st : Nat) (bs : List Byte) : (s.respondAs k st bs).pool = s.pool := by unfold State.respondAs; dsimp only; split <;> simp
@[simp] theorem State.respondAs_herds (s : State) (k st : Nat) (bs : List Byte) : (s.respondAs k st bs).herds = s.herds := by unfold State.respondAs; dsimp only; split <;> simp
@[simp] theorem State.respondAs_herd (s : State) (k st : Nat) (bs : List Byte) (j : Nat) : (s.respondAs k st bs).herd j = s.herd j := by unfold State.respondAs; dsimp only; split <;> simp
@[simp] theorem State.respondAs_mem (s : State) (k st : Nat) (bs : List Byte) : (s.respondAs k st bs).mem = s.mem := by unfold State.respondAs; dsimp only; split <;> simp
@[simp] theorem State.respondAs_ram (s : State) (k st : Nat) (bs : List Byte) : (s.respondAs k st bs).ram = s.ram := by unfold State.respondAs; dsimp only; split <;> simp
@[simp] theorem State.respondAs_cache (s : State) (k st : Nat) (bs : List Byte) : (s.respondAs k st bs).cache = s.cache := by unfold State.respondAs; dsimp only; split <;> simp
@[simp] theorem State.respondAs_cal (s : State) (k st : Nat) (bs : List Byte) : (s.respondAs k st bs).cal = s.cal := by unfold State.respondAs; dsimp only; split <;> simp
@[simp] theorem State.respondAs_thm (s : State) (k st : Nat) (bs : List Byte) : (s.respondAs k st bs).thm = s.thm := by unfold State.respondAs; dsimp only; split <;> simp
@[simp] theorem State.respondAs_clk (s : State) (k st : Nat) (bs : List Byte) : (s.respondAs k st bs).clk = s.clk := by unfold State.respondAs; dsimp only; split <;> simp
@[simp] theorem State.respondAs_isls (s : State) (k st : Nat) (bs : List Byte) : (s.respondAs k st bs).isls = s.isls := by unfold State.respondAs; dsimp only; split <;> simp
@[simp] theorem State.respondAs_isl (s : State) (k st : Nat) (bs : List Byte) (j : Nat) : (s.respondAs k st bs).isl j = s.isl j := by unfold State.respondAs; dsimp only; split <;> simp
@[simp] theorem State.respondAs_xings (s : State) (k st : Nat) (bs : List Byte) : (s.respondAs k st bs).xings = s.xings := by unfold State.respondAs; dsimp only; split <;> simp
@[simp] theorem State.respondAs_xing (s : State) (k st : Nat) (bs : List Byte) (j : Nat) : (s.respondAs k st bs).xing j = s.xing j := by unfold State.respondAs; dsimp only; split <;> simp
@[simp] theorem State.respondAs_rings (s : State) (k st : Nat) (bs : List Byte) : (s.respondAs k st bs).rings = s.rings := by unfold State.respondAs; dsimp only; split <;> simp
@[simp] theorem State.respondAs_ring (s : State) (k st : Nat) (bs : List Byte) (j : Nat) : (s.respondAs k st bs).ring j = s.ring j := by unfold State.respondAs; dsimp only; split <;> simp
@[simp] theorem State.respondAs_accs (s : State) (k st : Nat) (bs : List Byte) : (s.respondAs k st bs).accs = s.accs := by unfold State.respondAs; dsimp only; split <;> simp
@[simp] theorem State.respondAs_acc (s : State) (k st : Nat) (bs : List Byte) (j : Nat) : (s.respondAs k st bs).acc j = s.acc j := by unfold State.respondAs; dsimp only; split <;> simp
@[simp] theorem State.respondAs_tally (s : State) (k st : Nat) (bs : List Byte) : (s.respondAs k st bs).tally = s.tally := by unfold State.respondAs; dsimp only; split <;> simp
@[simp] theorem State.respondAs_boot (s : State) (k st : Nat) (bs : List Byte) : (s.respondAs k st bs).boot = s.boot := by unfold State.respondAs; dsimp only; split <;> simp
@[simp] theorem State.respondAs_keys (s : State) (k st : Nat) (bs : List Byte) : (s.respondAs k st bs).keys = s.keys := by unfold State.respondAs; dsimp only; split <;> simp
@[simp] theorem State.respondAs_key (s : State) (k st : Nat) (bs : List Byte) (j : Nat) : (s.respondAs k st bs).key j = s.key j := by unfold State.respondAs; dsimp only; split <;> simp
@[simp] theorem State.respondAs_sans (s : State) (k st : Nat) (bs : List Byte) : (s.respondAs k st bs).sans = s.sans := by unfold State.respondAs; dsimp only; split <;> simp
@[simp] theorem State.respondAs_fmts (s : State) (k st : Nat) (bs : List Byte) : (s.respondAs k st bs).fmts = s.fmts := by unfold State.respondAs; dsimp only; split <;> simp
@[simp] theorem State.respondAs_opNext (s : State) (k st : Nat) (bs : List Byte) : (s.respondAs k st bs).opNext = s.opNext := by unfold State.respondAs; dsimp only; split <;> simp
@[simp] theorem State.respond_pending (s : State) (k : Nat) (bs : List Byte) : (s.respond k bs).pending = s.pending := by unfold State.respond; simp
@[simp] theorem State.respond_now (s : State) (k : Nat) (bs : List Byte) : (s.respond k bs).now = s.now := by unfold State.respond; simp
@[simp] theorem State.respond_fresh (s : State) (k : Nat) (bs : List Byte) : (s.respond k bs).fresh = s.fresh := by unfold State.respond; simp
@[simp] theorem State.respond_out (s : State) (k : Nat) (bs : List Byte) : (s.respond k bs).out = s.out := by unfold State.respond; simp
@[simp] theorem State.respond_cfg (s : State) (k : Nat) (bs : List Byte) : (s.respond k bs).cfg = s.cfg := by unfold State.respond; simp
@[simp] theorem State.respond_glb (s : State) (k : Nat) (bs : List Byte) : (s.respond k bs).glb = s.glb := by unfold State.respond; simp
@[simp] theorem State.respond_ports (s : State) (k : Nat) (bs : List Byte) : (s.respond k bs).ports = s.ports := by unfold State.respond; simp
@[simp] theorem State.respond_port (s : State) (k : Nat) (bs : List Byte) (j : Nat) : (s.respond k bs).port j = s.port j := by unfold State.respond; simp
@[simp] theorem State.respond_sqs (s : State) (k : Nat) (bs : List Byte) : (s.respond k bs).sqs = s.sqs := by unfold State.respond; simp
@[simp] theorem State.respond_sq (s : State) (k : Nat) (bs : List Byte) (j : Nat) : (s.respond k bs).sq j = s.sq j := by unfold State.respond; simp
@[simp] theorem State.respond_cqs (s : State) (k : Nat) (bs : List Byte) : (s.respond k bs).cqs = s.cqs := by unfold State.respond; simp
@[simp] theorem State.respond_cq (s : State) (k : Nat) (bs : List Byte) (j : Nat) : (s.respond k bs).cq j = s.cq j := by unfold State.respond; simp
@[simp] theorem State.respond_ledger (s : State) (k : Nat) (bs : List Byte) : (s.respond k bs).ledger = s.ledger := by unfold State.respond; simp
@[simp] theorem State.respond_ldg (s : State) (k : Nat) (bs : List Byte) : (s.respond k bs).ldg = s.ldg := by unfold State.respond; simp
@[simp] theorem State.respond_recs (s : State) (k : Nat) (bs : List Byte) : (s.respond k bs).recs = s.recs := by unfold State.respond; simp
@[simp] theorem State.respond_recNext (s : State) (k : Nat) (bs : List Byte) : (s.respond k bs).recNext = s.recNext := by unfold State.respond; simp
@[simp] theorem State.respond_nss (s : State) (k : Nat) (bs : List Byte) : (s.respond k bs).nss = s.nss := by unfold State.respond; simp
@[simp] theorem State.respond_ns (s : State) (k : Nat) (bs : List Byte) (j : Nat) : (s.respond k bs).ns j = s.ns j := by unfold State.respond; simp
@[simp] theorem State.respond_zones (s : State) (k : Nat) (bs : List Byte) : (s.respond k bs).zones = s.zones := by unfold State.respond; simp
@[simp] theorem State.respond_zone (s : State) (k : Nat) (bs : List Byte) (j : Nat) : (s.respond k bs).zone j = s.zone j := by unfold State.respond; simp
@[simp] theorem State.respond_stage (s : State) (k : Nat) (bs : List Byte) : (s.respond k bs).stage = s.stage := by unfold State.respond; simp
@[simp] theorem State.respond_media (s : State) (k : Nat) (bs : List Byte) : (s.respond k bs).media = s.media := by unfold State.respond; simp
@[simp] theorem State.respond_acts (s : State) (k : Nat) (bs : List Byte) : (s.respond k bs).acts = s.acts := by unfold State.respond; simp
@[simp] theorem State.respond_act (s : State) (k : Nat) (bs : List Byte) (j : Nat) : (s.respond k bs).act j = s.act j := by unfold State.respond; simp
@[simp] theorem State.respond_bays (s : State) (k : Nat) (bs : List Byte) : (s.respond k bs).bays = s.bays := by unfold State.respond; simp
@[simp] theorem State.respond_bay (s : State) (k : Nat) (bs : List Byte) (j : Nat) : (s.respond k bs).bay j = s.bay j := by unfold State.respond; simp
@[simp] theorem State.respond_doms (s : State) (k : Nat) (bs : List Byte) : (s.respond k bs).doms = s.doms := by unfold State.respond; simp
@[simp] theorem State.respond_dom (s : State) (k : Nat) (bs : List Byte) (j : Nat) : (s.respond k bs).dom j = s.dom j := by unfold State.respond; simp
@[simp] theorem State.respond_pwr (s : State) (k : Nat) (bs : List Byte) : (s.respond k bs).pwr = s.pwr := by unfold State.respond; simp
@[simp] theorem State.respond_les (s : State) (k : Nat) (bs : List Byte) : (s.respond k bs).les = s.les := by unfold State.respond; simp
@[simp] theorem State.respond_le (s : State) (k : Nat) (bs : List Byte) (j : Nat) : (s.respond k bs).le j = s.le j := by unfold State.respond; simp
@[simp] theorem State.respond_trcs (s : State) (k : Nat) (bs : List Byte) : (s.respond k bs).trcs = s.trcs := by unfold State.respond; simp
@[simp] theorem State.respond_trc (s : State) (k : Nat) (bs : List Byte) (j : Nat) : (s.respond k bs).trc j = s.trc j := by unfold State.respond; simp
@[simp] theorem State.respond_trcSel (s : State) (k : Nat) (bs : List Byte) : (s.respond k bs).trcSel = s.trcSel := by unfold State.respond; simp
@[simp] theorem State.respond_engines (s : State) (k : Nat) (bs : List Byte) : (s.respond k bs).engines = s.engines := by unfold State.respond; simp
@[simp] theorem State.respond_eng (s : State) (k : Nat) (bs : List Byte) (j : Nat) : (s.respond k bs).eng j = s.eng j := by unfold State.respond; simp
@[simp] theorem State.respond_pool (s : State) (k : Nat) (bs : List Byte) : (s.respond k bs).pool = s.pool := by unfold State.respond; simp
@[simp] theorem State.respond_herds (s : State) (k : Nat) (bs : List Byte) : (s.respond k bs).herds = s.herds := by unfold State.respond; simp
@[simp] theorem State.respond_herd (s : State) (k : Nat) (bs : List Byte) (j : Nat) : (s.respond k bs).herd j = s.herd j := by unfold State.respond; simp
@[simp] theorem State.respond_mem (s : State) (k : Nat) (bs : List Byte) : (s.respond k bs).mem = s.mem := by unfold State.respond; simp
@[simp] theorem State.respond_ram (s : State) (k : Nat) (bs : List Byte) : (s.respond k bs).ram = s.ram := by unfold State.respond; simp
@[simp] theorem State.respond_cache (s : State) (k : Nat) (bs : List Byte) : (s.respond k bs).cache = s.cache := by unfold State.respond; simp
@[simp] theorem State.respond_cal (s : State) (k : Nat) (bs : List Byte) : (s.respond k bs).cal = s.cal := by unfold State.respond; simp
@[simp] theorem State.respond_thm (s : State) (k : Nat) (bs : List Byte) : (s.respond k bs).thm = s.thm := by unfold State.respond; simp
@[simp] theorem State.respond_clk (s : State) (k : Nat) (bs : List Byte) : (s.respond k bs).clk = s.clk := by unfold State.respond; simp
@[simp] theorem State.respond_isls (s : State) (k : Nat) (bs : List Byte) : (s.respond k bs).isls = s.isls := by unfold State.respond; simp
@[simp] theorem State.respond_isl (s : State) (k : Nat) (bs : List Byte) (j : Nat) : (s.respond k bs).isl j = s.isl j := by unfold State.respond; simp
@[simp] theorem State.respond_xings (s : State) (k : Nat) (bs : List Byte) : (s.respond k bs).xings = s.xings := by unfold State.respond; simp
@[simp] theorem State.respond_xing (s : State) (k : Nat) (bs : List Byte) (j : Nat) : (s.respond k bs).xing j = s.xing j := by unfold State.respond; simp
@[simp] theorem State.respond_rings (s : State) (k : Nat) (bs : List Byte) : (s.respond k bs).rings = s.rings := by unfold State.respond; simp
@[simp] theorem State.respond_ring (s : State) (k : Nat) (bs : List Byte) (j : Nat) : (s.respond k bs).ring j = s.ring j := by unfold State.respond; simp
@[simp] theorem State.respond_accs (s : State) (k : Nat) (bs : List Byte) : (s.respond k bs).accs = s.accs := by unfold State.respond; simp
@[simp] theorem State.respond_acc (s : State) (k : Nat) (bs : List Byte) (j : Nat) : (s.respond k bs).acc j = s.acc j := by unfold State.respond; simp
@[simp] theorem State.respond_tally (s : State) (k : Nat) (bs : List Byte) : (s.respond k bs).tally = s.tally := by unfold State.respond; simp
@[simp] theorem State.respond_boot (s : State) (k : Nat) (bs : List Byte) : (s.respond k bs).boot = s.boot := by unfold State.respond; simp
@[simp] theorem State.respond_keys (s : State) (k : Nat) (bs : List Byte) : (s.respond k bs).keys = s.keys := by unfold State.respond; simp
@[simp] theorem State.respond_key (s : State) (k : Nat) (bs : List Byte) (j : Nat) : (s.respond k bs).key j = s.key j := by unfold State.respond; simp
@[simp] theorem State.respond_sans (s : State) (k : Nat) (bs : List Byte) : (s.respond k bs).sans = s.sans := by unfold State.respond; simp
@[simp] theorem State.respond_fmts (s : State) (k : Nat) (bs : List Byte) : (s.respond k bs).fmts = s.fmts := by unfold State.respond; simp
@[simp] theorem State.respond_opNext (s : State) (k : Nat) (bs : List Byte) : (s.respond k bs).opNext = s.opNext := by unfold State.respond; simp

/-- An event touches no sub-unit of a row: latches are the only thing it changes. -/
theorem State.raise_eq (s : State) (e : Nat) :
    s.raise e = { s with evt := { s.evt with latch := latchIn ((List.range 4).filter (s.sees · e)) e s.evt.latch } } := rfl

@[simp] theorem State.act_modAdm (s : State) (k : Nat) (g : Adm → Adm) (j : Nat) : (s.modAdm k g).act j = if j = k then { s.act k with adm := g (s.act k).adm } else s.act j := Tab.get_put ..
@[simp] theorem State.act_modMed (s : State) (k : Nat) (g : Med → Med) (j : Nat) : (s.modMed k g).act j = if j = k then { s.act k with med := g (s.act k).med } else s.act j := Tab.get_put ..
@[simp] theorem State.act_modCfe (s : State) (k : Nat) (g : Cfe → Cfe) (j : Nat) : (s.modCfe k g).act j = if j = k then { s.act k with cfe := g (s.act k).cfe } else s.act j := Tab.get_put ..
@[simp] theorem State.act_modFmt (s : State) (k : Nat) (g : Fmt → Fmt) (j : Nat) : (s.modFmt k g).act j = if j = k then { s.act k with fmt := g (s.act k).fmt } else s.act j := Tab.get_put ..
@[simp] theorem State.act_modLoop (s : State) (k : Nat) (g : Loop → Loop) (j : Nat) : (s.modLoop k g).act j = if j = k then { s.act k with loop := g (s.act k).loop } else s.act j := Tab.get_put ..
@[simp] theorem State.act_modCwy (s : State) (k : Nat) (g : Cwy → Cwy) (j : Nat) : (s.modCwy k g).act j = if j = k then { s.act k with cwy := g (s.act k).cwy } else s.act j := Tab.get_put ..
@[simp] theorem State.act_modGraze (s : State) (k : Nat) (g : Graze → Graze) (j : Nat) : (s.modGraze k g).act j = if j = k then { s.act k with graze := g (s.act k).graze } else s.act j := Tab.get_put ..
@[simp] theorem State.bay_modSpin (s : State) (k : Nat) (g : Spin → Spin) (j : Nat) : (s.modSpin k g).bay j = if j = k then { s.bay k with spin := g (s.bay k).spin } else s.bay j := Tab.get_put ..
@[simp] theorem State.bay_modLink (s : State) (k : Nat) (g : BayLink → BayLink) (j : Nat) : (s.modLink k g).bay j = if j = k then { s.bay k with link := g (s.bay k).link } else s.bay j := Tab.get_put ..
@[simp] theorem State.act_modHead (s : State) (a h : Nat) (g : HeadSt → HeadSt) (j : Nat) :
    (s.modHead a h g).act j = if j = a then { s.act a with heads := Tab.upd (fun _ => {}) (s.act a).heads h g } else s.act j := Tab.get_put ..
@[simp] theorem State.head_modHead (s : State) (a h : Nat) (g : HeadSt → HeadSt) (b i : Nat) :
    (s.modHead a h g).head b i = if b = a ∧ i = h then g (s.head a h) else s.head b i := by
  unfold State.head; rw [State.act_modHead]; by_cases h1 : b = a <;> by_cases h2 : i = h <;> simp [h1, h2]
/-- What leaves the block is the newest of its outputs. -/
@[simp] theorem State.emit_out (s : State) (m : OutMsg) : (s.emit m).out = m :: s.out := by unfold State.emit; dsimp only; split <;> rfl
/-- A bit of the function view of `f` latches (15 R403). -/
@[simp] theorem State.fn_raiseFn (s : State) (f b : Nat) (j : Nat) :
    (s.raiseFn f b).fn j = if j = f then { s.fn f with fnLatch := (s.fn f).fnLatch ||| BitVec.ofNat 16 (2 ^ b) } else s.fn j := by
  unfold State.raiseFn; dsimp only; split <;> simp
/-- QH_ERRLOG and QH_ERRCNT of `f` take a queue fault, and bit 1 of its view latches (03 R65). -/
@[simp] theorem State.fn_logQueue (s : State) (f c : Nat) (b : Bool) (q j : Nat) :
    (s.logQueue f c b q).fn j = if j = f then
      { s.fn f with
        qhValid := true, qhCause := BitVec.ofNat 4 c, qhCq := b,
        qhQid := BitVec.ofNat 6 q, qhCnt := (s.fn f).qhCnt + 1, fnLatch := (s.fn f).fnLatch ||| 2 } else s.fn j := by
  unfold State.logQueue; by_cases h : j = f <;> simp [h]
@[simp] theorem State.fn_portFault (s : State) (f i j : Nat) :
    (s.portFault f i).fn j = if j = f then { s.fn f with fnLatch := (s.fn f).fnLatch ||| 0x8000 } else s.fn j := by
  unfold State.portFault; by_cases h : j = f <;> simp [h]
@[simp] theorem State.port_logPort (s : State) (f c j : Nat) :
    (s.logPort f c).port j = if j = portOf f then
      { s.port (portOf f) with errValid := true, errCause := BitVec.ofNat 4 c, errFunc := BitVec.ofNat 6 (f % 64) }
      else s.port j := Tab.get_put ..
/-- A response fills the mailbox's response buffer and ends the request (15 R387). -/
@[simp] theorem State.mbx_respond (s : State) (k : Nat) (bs : List Byte) (j : Nat) :
    (s.respond k bs).mbx j = if j = k then { s.mbx k with rspbuf := bs, rspSeq := (s.mbx k).rqSeq, rspOpcode := BitVec.ofNat 16 (s.mbx k).rqOp, rspValid := true, tstatus := 0, done := true, busy := false, owed := none, rqData := [] } else s.mbx j := by
  unfold State.respond State.respondAs; dsimp only; split <;> simp
/-- A BAR0 request a function may make acts as it says, and wakes the link. -/
theorem State.bar0_ok (s : State) (f : Nat) (posted : Bool) (k : State → State) (h : (s.fn f).enabled = true) (h1 : (s.fn f).d3 = false)
    (h2 : (s.fn f).mse = true) : s.bar0 f posted k = k (s.touch f) := by simp [State.bar0, h, h1, h2]
/-- A steward's write of a steward-only register acts as it says. -/
theorem State.stewardWrite_ok (s : State) (f : Nat) (k : State → State) (h : (s.fn f).enabled = true) (h1 : (s.fn f).d3 = false)
    (h2 : (s.fn f).mse = true) (h3 : isPf f = true) (h4 : s.isSteward f = true) : s.stewardWrite f k = k (s.touch f) := by
  have : (s.touch f).isSteward f = true := by simpa [State.isSteward, State.stewardPort] using h4
  simp [State.stewardWrite, State.bar0_ok, h, h1, h2, h3, this]
/-- A request in progress is served. -/
theorem State.serve_ok (s : State) (r : Requester) (op act : Nat) (k : List Byte → State) (p : List Byte)
    (h : s.request (mbxOf r) op = some p) (h1 : byteAt p 0 = act) : s.serve r op (some act) k = k p := by
  simp [State.serve, h, h1]
theorem State.serve_any (s : State) (r : Requester) (op : Nat) (k : List Byte → State) (p : List Byte)
    (h : s.request (mbxOf r) op = some p) : s.serve r op none k = k p := by simp [State.serve, h]

end Sys2Proof.Machine
end

