-- ==== Sys2Proof/Laws/Lock.lean ====
section
/-! SUPPORT. What leaves LCK_CTRL and DBG_CTRL alone: one lemma per operation of the block but their writes. -/
namespace Sys2Proof.Machine
open Sys2Proof
@[simp] theorem State.ite_locks (c : Prop) [Decidable c] (s t : State) : (if c then s else t).glb.locks = if c then s.glb.locks else t.glb.locks := by split <;> rfl
@[simp] theorem State.foldl_locks {α : Type} (g : State → α → State) (hg : ∀ s a, (g s a).glb.locks = s.glb.locks) (l : List α) (s : State) : (l.foldl g s).glb.locks = s.glb.locks := by
  induction l generalizing s with
  | nil => rfl
  | cons a t ih => simp [ih, hg]
@[simp] theorem State.each_locks {α : Type} (s : State) (l : List α) (g : State → α → State) (hg : ∀ s a, (g s a).glb.locks = s.glb.locks) : (s.each l g).glb.locks = s.glb.locks := State.foldl_locks g hg l s
theorem ite_some_locks {c : Prop} [Decidable c] {a b : Option State} {v : BitVec 7 × Bool × Bool} (ha : ∀ t, a = some t → t.glb.locks = v)
    (hb : ∀ t, b = some t → t.glb.locks = v) : ∀ t, (if c then a else b) = some t → t.glb.locks = v := by split <;> assumption
theorem foldl_fst_locks {α β : Type} (g : State × β → α → State × β) (hg : ∀ x a, (g x a).1.glb.locks = x.1.glb.locks) (l : List α) (x : State × β) : (l.foldl g x).1.glb.locks = x.1.glb.locks := by
  induction l generalizing x with
  | nil => rfl
  | cons a t ih => simp [ih, hg]
@[simp] theorem State.modGlb_steward_locks (s : State) (v : Glb → BitVec 2) : (State.modGlb s fun g => { g with steward := v g }).glb.locks = s.glb.locks := rfl
@[simp] theorem State.modGlb_jtagIr_locks (s : State) (v : Glb → BitVec 8) : (State.modGlb s fun g => { g with jtagIr := v g }).glb.locks = s.glb.locks := rfl
@[simp] theorem State.modGlb_captured_locks (s : State) (v : Glb → Tab (BitVec 32)) : (State.modGlb s fun g => { g with captured := v g }).glb.locks = s.glb.locks := rfl
@[simp] theorem State.modGlb_thermTrip_locks (s : State) (v : Glb → Bool) : (State.modGlb s fun g => { g with thermTrip := v g }).glb.locks = s.glb.locks := rfl
@[simp] theorem State.modGlb_shelfFault_locks (s : State) (v : Glb → Bool) : (State.modGlb s fun g => { g with shelfFault := v g }).glb.locks = s.glb.locks := rfl

@[simp] theorem State.modAdm_locks (s : State) (a : Nat) (g : Adm → Adm) : (State.modAdm s a g).glb.locks = s.glb.locks := by simp [State.modAdm]
@[simp] theorem State.modMed_locks (s : State) (a : Nat) (g : Med → Med) : (State.modMed s a g).glb.locks = s.glb.locks := by simp [State.modMed]
@[simp] theorem State.modCfe_locks (s : State) (a : Nat) (g : Cfe → Cfe) : (State.modCfe s a g).glb.locks = s.glb.locks := by simp [State.modCfe]
@[simp] theorem State.modFmt_locks (s : State) (a : Nat) (g : Fmt → Fmt) : (State.modFmt s a g).glb.locks = s.glb.locks := by simp [State.modFmt]
@[simp] theorem State.modLoop_locks (s : State) (a : Nat) (g : Loop → Loop) : (State.modLoop s a g).glb.locks = s.glb.locks := by simp [State.modLoop]
@[simp] theorem State.modCwy_locks (s : State) (a : Nat) (g : Cwy → Cwy) : (State.modCwy s a g).glb.locks = s.glb.locks := by simp [State.modCwy]
@[simp] theorem State.modGraze_locks (s : State) (a : Nat) (g : Graze → Graze) : (State.modGraze s a g).glb.locks = s.glb.locks := by simp [State.modGraze]
@[simp] theorem State.modHead_locks (s : State) (a h : Nat) (g : HeadSt → HeadSt) : (State.modHead s a h g).glb.locks = s.glb.locks := by simp [State.modHead]
@[simp] theorem State.modSpin_locks (s : State) (b : Nat) (g : Spin → Spin) : (State.modSpin s b g).glb.locks = s.glb.locks := by simp [State.modSpin]
@[simp] theorem State.modLink_locks (s : State) (b : Nat) (g : BayLink → BayLink) : (State.modLink s b g).glb.locks = s.glb.locks := by simp [State.modLink]
@[simp] theorem State.useFree_locks (s : State) : (State.useFree s).glb.locks = s.glb.locks := by simp [State.useFree]
@[simp] theorem State.touch_locks (s : State) (f : Nat) : (State.touch s f).glb.locks = s.glb.locks := by simp [State.touch]
@[simp] theorem State.sendTlp_locks (s : State) (f : Nat) : (State.sendTlp s f).glb.locks = s.glb.locks := by simp [State.sendTlp]
@[simp] theorem State.emit_locks (s : State) (m : OutMsg) : (State.emit s m).glb.locks = s.glb.locks := by unfold State.emit; (repeat' split) <;> simp
@[simp] theorem State.raise_locks (s : State) (src : Nat) : (State.raise s src).glb.locks = s.glb.locks := by simp [State.raise]
@[simp] theorem State.raiseFn_locks (s : State) (f b : Nat) : (State.raiseFn s f b).glb.locks = s.glb.locks := by simp [State.raiseFn]
@[simp] theorem State.raiseFns_locks (s : State) (fs : List Nat) (b : Nat) : (State.raiseFns s fs b).glb.locks = s.glb.locks := by simp [State.raiseFns]
@[simp] theorem State.logPort_locks (s : State) (f cause : Nat) : (State.logPort s f cause).glb.locks = s.glb.locks := by simp [State.logPort]
@[simp] theorem State.portFault_locks (s : State) (f i : Nat) : (State.portFault s f i).glb.locks = s.glb.locks := by simp [State.portFault]
@[simp] theorem State.ignoreWrite_locks (s : State) (f : Nat) : (State.ignoreWrite s f).glb.locks = s.glb.locks := by simp [State.ignoreWrite]
@[simp] theorem State.aerLog_locks (s : State) (f b : Nat) (adv : Bool) (hdr : Option Nat) : (State.aerLog s f b adv hdr).glb.locks = s.glb.locks := by simp [State.aerLog]
@[simp] theorem State.refuseReq_locks (s : State) (f cause : Nat) (posted : Bool) (hdr : Nat) : (State.refuseReq s f cause posted hdr).glb.locks = s.glb.locks := by unfold State.refuseReq; (repeat' split) <;> simp
@[simp] theorem State.refuseAny_locks (s : State) (f cause : Nat) (posted : Bool) : (State.refuseAny s f cause posted).glb.locks = s.glb.locks := by simp [State.refuseAny]
@[simp] theorem State.bar0_locks (s : State) (f : Nat) (posted : Bool) (k : State → State) (hk : ∀ x0, (k x0).glb.locks = x0.glb.locks) : (State.bar0 s f posted k).glb.locks = s.glb.locks := by unfold State.bar0; (try dsimp only); (repeat' split) <;> (try simp_all)
@[simp] theorem State.stewardWrite_locks (s : State) (f : Nat) (k : State → State) (hk : ∀ x0, (k x0).glb.locks = x0.glb.locks) : (State.stewardWrite s f k).glb.locks = s.glb.locks := by unfold State.stewardWrite; (try dsimp only); (repeat' split) <;> (try simp_all)
@[simp] theorem State.logQueue_locks (s : State) (f cause : Nat) (cq : Bool) (q : Nat) : (State.logQueue s f cause cq q).glb.locks = s.glb.locks := by simp [State.logQueue]
@[simp] theorem State.charge_locks (s : State) (f n : Nat) (g : Acc → Acc) : (State.charge s f n g).glb.locks = s.glb.locks := by simp [State.charge]
@[simp] theorem State.chargePoison_locks (s : State) (n : Nat) : (State.chargePoison s n).glb.locks = s.glb.locks := by simp [State.chargePoison]
@[simp] theorem State.modCmd_locks (s : State) (id : Nat) (g : Cmd → Cmd) : (State.modCmd s id g).glb.locks = s.glb.locks := by simp [State.modCmd]
@[simp] theorem State.tick_locks (s : State) : (State.tick s).glb.locks = s.glb.locks := by simp [State.tick]
@[simp] theorem State.mapFns_locks (s : State) (g : Nat → FnSt → FnSt) : (State.mapFns s g).glb.locks = s.glb.locks := by simp [State.mapFns]
@[simp] theorem State.mapCmds_locks (s : State) (g : Cmd → Cmd) : (State.mapCmds s g).glb.locks = s.glb.locks := by simp [State.mapCmds]
@[simp] theorem State.modStage_locks (s : State) (g : Staging → Staging) : (State.modStage s g).glb.locks = s.glb.locks := by simp [State.modStage]
@[simp] theorem State.mapR_locks (s : State) (g : RSlot → RSlot) : (State.mapR s g).glb.locks = s.glb.locks := by simp [State.mapR]
@[simp] theorem State.mapW_locks (s : State) (g : WSlot → WSlot) : (State.mapW s g).glb.locks = s.glb.locks := by simp [State.mapW]
@[simp] theorem State.mapRec_locks (s : State) (g : RecEntry → RecEntry) : (State.mapRec s g).glb.locks = s.glb.locks := by simp [State.mapRec]
@[simp] theorem State.mapFmt_locks (s : State) (g : FmtOp → FmtOp) : (State.mapFmt s g).glb.locks = s.glb.locks := by simp [State.mapFmt]
@[simp] theorem State.mapSan_locks (s : State) (g : SanOp → SanOp) : (State.mapSan s g).glb.locks = s.glb.locks := by simp [State.mapSan]
@[simp] theorem State.modMem_locks (s : State) (g : MemSt → MemSt) : (State.modMem s g).glb.locks = s.glb.locks := by simp [State.modMem]
@[simp] theorem State.modPool_locks (s : State) (g : Pool → Pool) : (State.modPool s g).glb.locks = s.glb.locks := by simp [State.modPool]
@[simp] theorem State.modBoot_locks (s : State) (g : Boot → Boot) : (State.modBoot s g).glb.locks = s.glb.locks := by simp [State.modBoot]
@[simp] theorem State.modCfg_locks (s : State) (g : Cfg → Cfg) : (State.modCfg s g).glb.locks = s.glb.locks := by simp [State.modCfg]

@[simp] theorem State.worn_locks (s : State) (a : Nat) (gs : List Nat) : (State.worn s a gs).glb.locks = s.glb.locks := by simp [State.worn]
@[simp] theorem State.setPlan_locks (s : State) (a : Nat) (q : List PlanOp) : (State.setPlan s a q).glb.locks = s.glb.locks := by simp [State.setPlan]
@[simp] theorem State.unplan_locks (s : State) (a id : Nat) : (State.unplan s a id).glb.locks = s.glb.locks := by simp [State.unplan]
@[simp] theorem State.replan_locks (s : State) (a : Nat) : (State.replan s a).glb.locks = s.glb.locks := by simp [State.replan]
@[simp] theorem State.replaceRead_locks (s : State) : (State.replaceRead s).glb.locks = s.glb.locks := by unfold State.replaceRead; (repeat' split) <;> simp
@[simp] theorem State.pin_locks (s : State) (id : Nat) (x : Sector) : (State.pin s id x).glb.locks = s.glb.locks := by
  have e : ∀ (u : State) (g : Staging), ({ u with stage := g } : State).glb.locks = u.glb.locks := fun _ _ => rfl
  unfold State.pin
  dsimp only
  split
  · exact e _ _
  · exact (e _ _).trans (State.replaceRead_locks s)
@[simp] theorem State.rewritten_locks (s : State) (n lba : Nat) : (State.rewritten s n lba).glb.locks = s.glb.locks := by simp [State.rewritten]
@[simp] theorem State.writeCommitted_locks (s : State) (n lba : Nat) : (State.writeCommitted s n lba).glb.locks = s.glb.locks := by simp [State.writeCommitted]
@[simp] theorem State.pruneStaged_locks (s : State) : (State.pruneStaged s).glb.locks = s.glb.locks := by simp [State.pruneStaged]
@[simp] theorem State.payAssist_locks (s : State) (a : Nat) (q : FmtCmd) (e : Nat) : (State.payAssist s a q e).glb.locks = s.glb.locks := by simp [State.payAssist]
@[simp] theorem State.sendAssist_locks (s : State) (a h : Nat) (lvl : AssistLevel) : (State.sendAssist s a h lvl).glb.locks = s.glb.locks := by simp [State.sendAssist]
@[simp] theorem State.openGate_locks (s : State) (a : Nat) (q : FmtCmd) : (State.openGate s a q).glb.locks = s.glb.locks := by simp [State.openGate]
@[simp] theorem State.closeGate_locks (s : State) (a : Nat) (lvl : AssistLevel) : (State.closeGate s a lvl).glb.locks = s.glb.locks := by unfold State.closeGate; (repeat' split) <;> simp
@[simp] theorem State.crossWedge_locks (s : State) (a : Nat) : (State.crossWedge s a).glb.locks = s.glb.locks := by unfold State.crossWedge; (repeat' split) <;> simp
@[simp] theorem State.cutQuantum_locks (s : State) (a : Nat) (r : Routine) : (State.cutQuantum s a r).glb.locks = s.glb.locks := by simp [State.cutQuantum]
@[simp] theorem State.wantSqueeze_locks (s : State) (a : Nat) (r : Routine) (c : Option FmtCmd) : (State.wantSqueeze s a r c).glb.locks = s.glb.locks := by unfold State.wantSqueeze; (repeat' split) <;> simp
@[simp] theorem State.lateInhibit_locks (s : State) (a : Nat) (cause : Option Nat) (toward : Bool) : (State.lateInhibit s a cause toward).glb.locks = s.glb.locks := by unfold State.lateInhibit; (try dsimp only); (repeat' split) <;> simp
@[simp] theorem State.abandonWrite_locks (s : State) (a : Nat) (cause : Option Nat) (toward : Bool) : (State.abandonWrite s a cause toward).glb.locks = s.glb.locks := by unfold State.abandonWrite; (repeat' split) <;> simp
@[simp] theorem State.putBack_locks (s : State) (a : Nat) : (State.putBack s a).glb.locks = s.glb.locks := by unfold State.putBack; (repeat' split) <;> simp
@[simp] theorem State.postEntry_locks (s : State) (f q : Nat) (c : Cpl) : (State.postEntry s f q c).glb.locks = s.glb.locks := by simp [State.postEntry]
@[simp] theorem State.releaseSlot_locks (s : State) (f q : Nat) : (State.releaseSlot s f q).glb.locks = s.glb.locks := by simp [State.releaseSlot]
@[simp] theorem State.tallyEnd_locks (s : State) (c : Cmd) (status : Nat) : (State.tallyEnd s c status).glb.locks = s.glb.locks := by simp [State.tallyEnd]
@[simp] theorem State.dropCmd_locks (s : State) (id : Nat) : (State.dropCmd s id).glb.locks = s.glb.locks := by simp [State.dropCmd]
@[simp] theorem State.ackStaged_locks (s : State) (id : Nat) : (State.ackStaged s id).glb.locks = s.glb.locks := by simp [State.ackStaged]
@[simp] theorem State.postCmd_locks (s : State) (c : Cmd) (status result : Nat) : (State.postCmd s c status result).glb.locks = s.glb.locks := by simp [State.postCmd]
@[simp] theorem State.queueRecovery_locks (s : State) (e : RecEntry) : (State.queueRecovery s e).glb.locks = s.glb.locks := by simp [State.queueRecovery]
@[simp] theorem State.dropAttempts_locks (s : State) (id : Nat) : (State.dropAttempts s id).glb.locks = s.glb.locks := by simp [State.dropAttempts]
@[simp] theorem State.release_locks (s : State) (c : Cmd) (ok : Bool) : (State.release s c ok).glb.locks = s.glb.locks := by simp [State.release]
@[simp] theorem State.postOrHold_locks (s : State) (c : Cmd) (status result : Nat) : (State.postOrHold s c status result).glb.locks = s.glb.locks := by simp [State.postOrHold]
@[simp] theorem State.recover_locks (s : State) (c : Cmd) : (s.recover c).1.glb.locks = s.glb.locks := by
  unfold State.recover; dsimp only; split <;> simp
@[simp] theorem State.endCmd_locks (s : State) (id status result : Nat) : (State.endCmd s id status result).glb.locks = s.glb.locks := by unfold State.endCmd; (repeat' split) <;> simp
@[simp] theorem State.postEarly_locks (s : State) : (State.postEarly s).glb.locks = s.glb.locks := by simp [State.postEarly]
@[simp] theorem State.removedFirst_locks (s : State) (b : Nat) : (State.removedFirst s b).glb.locks = s.glb.locks := by simp [State.removedFirst]
@[simp] theorem State.fixStatus_locks (s : State) (ids : List Nat) (status : Nat) : (State.fixStatus s ids status).glb.locks = s.glb.locks := by simp [State.fixStatus]
@[simp] theorem State.restores_locks (s : State) (id w : Nat) : (State.restores s id w).glb.locks = s.glb.locks := by simp [State.restores]
@[simp] theorem State.failZoneWrite_locks (s : State) (c : Cmd) : (State.failZoneWrite s c).glb.locks = s.glb.locks := by simp [State.failZoneWrite]
@[simp] theorem State.failZoneAction_locks (s : State) (c : Cmd) : (State.failZoneAction s c).glb.locks = s.glb.locks := by simp [State.failZoneAction]
@[simp] theorem State.undoZone_locks (s : State) (c : Cmd) : (State.undoZone s c).glb.locks = s.glb.locks := by simp [State.undoZone]
@[simp] theorem State.cutOffs_locks (s : State) (c : Cmd) : (State.cutOffs s c).glb.locks = s.glb.locks := by simp [State.cutOffs]
@[simp] theorem State.endAll_locks (s : State) (l : List (Nat × Nat × Nat)) : (State.endAll s l).glb.locks = s.glb.locks := by unfold State.endAll; (try dsimp only); (repeat' split) <;> (try simp) <;> (repeat' (first | (rw [State.each_locks]) | (intro _) | split)) <;> simp_all
@[simp] theorem State.commitStaged_locks (s : State) (c : Cmd) : (State.commitStaged s c).glb.locks = s.glb.locks := by simp [State.commitStaged]
@[simp] theorem State.drain_locks (s : State) : (State.drain s).glb.locks = s.glb.locks := by unfold State.drain; (try dsimp only); (repeat' split) <;> (try simp) <;> (repeat' (first | (rw [State.each_locks]) | (intro _) | split)) <;> simp_all
@[simp] theorem State.finish_locks (s : State) (id status result : Nat) : (State.finish s id status result).glb.locks = s.glb.locks := by simp [State.finish]
@[simp] theorem State.finishAll_locks (s : State) (ids : List Nat) (status : Nat) : (State.finishAll s ids status).glb.locks = s.glb.locks := by simp [State.finishAll]
@[simp] theorem State.cutOff_locks (s : State) (id : Nat) : (State.cutOff s id).glb.locks = s.glb.locks := by unfold State.cutOff; (repeat' split) <;> simp
@[simp] theorem State.capacityLoss_locks (s : State) (a : Nat) : (State.capacityLoss s a).glb.locks = s.glb.locks := by simp [State.capacityLoss]
@[simp] theorem State.serviceLost_locks (s : State) (a : Nat) (back : Option Nat) : (State.serviceLost s a back).glb.locks = s.glb.locks := by unfold State.serviceLost; (repeat' split) <;> simp
@[simp] theorem State.ringSq_locks (s : State) (f q i : Nat) : (State.ringSq s f q i).glb.locks = s.glb.locks := by unfold State.ringSq; (repeat' split) <;> simp
@[simp] theorem State.ringCq_locks (s : State) (f q i : Nat) : (State.ringCq s f q i).glb.locks = s.glb.locks := by unfold State.ringCq; (repeat' split) <;> simp
@[simp] theorem State.refreshNs_locks (s : State) : (State.refreshNs s).glb.locks = s.glb.locks := by simp [State.refreshNs]
@[simp] theorem State.failCheck_locks (s : State) (f q cq sqhd : Nat) (tag : Word) (status result : Nat) : (State.failCheck s f q cq sqhd tag status result).glb.locks = s.glb.locks := by simp [State.failCheck]
@[simp] theorem State.enterLedger_locks (s : State) (f q cq sqhd : Nat) (e : Entry) : (State.enterLedger s f q cq sqhd e).glb.locks = s.glb.locks := by simp [State.enterLedger]
@[simp] theorem State.runEntry_locks (s : State) (w : CheckWait) : (State.runEntry s w).glb.locks = s.glb.locks := by unfold State.runEntry; (try dsimp only); (repeat' split) <;> simp
@[simp] theorem State.checkEntry_locks (s : State) (w : CheckWait) (before : List CheckWait) : (State.checkEntry s w before).glb.locks = s.glb.locks := by simp [State.checkEntry]
@[simp] theorem State.runWaiting_locks (s : State) : (State.runWaiting s).glb.locks = s.glb.locks := by simp [State.runWaiting]
@[simp] theorem State.recordSegs_locks (s : State) (a : Nat) : (State.recordSegs s a).glb.locks = s.glb.locks := by simp [State.recordSegs]
@[simp] theorem State.landCheck_locks (s : State) (a : Nat) : (State.landCheck s a).glb.locks = s.glb.locks := by simp [State.landCheck]
@[simp] theorem State.startExit_locks (s : State) (b g pre mile : Nat) (tok : Bool) (kind : Nat) : (State.startExit s b g pre mile tok kind).glb.locks = s.glb.locks := by simp [State.startExit]
@[simp] theorem State.freed_locks (s : State) (a : Nat) : (State.freed s a).glb.locks = s.glb.locks := by simp [State.freed]
@[simp] theorem State.slotLimited_locks (s : State) (a : Nat) (l : Bool) : (State.slotLimited s a l).glb.locks = s.glb.locks := by simp [State.slotLimited]
@[simp] theorem State.holdCmd_locks (s : State) (c : Cmd) : (State.holdCmd s c).glb.locks = s.glb.locks := by simp [State.holdCmd]
@[simp] theorem State.refuse_locks (s : State) (c : Cmd) (act : Option Nat) (power : Bool) : (State.refuse s c act power).glb.locks = s.glb.locks := by unfold State.refuse; (repeat' split) <;> simp
@[simp] theorem State.admitCmd_locks (s : State) (c : Cmd) : (State.admitCmd s c).glb.locks = s.glb.locks := by simp [State.admitCmd]
@[simp] theorem State.aim_locks (s : State) (a : Nat) (o : PlanOp) : (State.aim s a o).glb.locks = s.glb.locks := by simp [State.aim]
@[simp] theorem State.setRate_locks (s : State) (a : Nat) (o : PlanOp) : (State.setRate s a o).glb.locks = s.glb.locks := by simp [State.setRate]
@[simp] theorem State.setHeater_locks (s : State) (a : Nat) (o : PlanOp) : (State.setHeater s a o).glb.locks = s.glb.locks := by simp [State.setHeater]
@[simp] theorem State.beginOp_locks (s : State) (a : Nat) (r : PlanOp) (rest : List PlanOp) : (State.beginOp s a r rest).glb.locks = s.glb.locks := by simp [State.beginOp]
@[simp] theorem State.startOp_locks (s : State) (a : Nat) (o : PlanOp) (trial : List PlanOp) : (State.startOp s a o trial).glb.locks = s.glb.locks := by unfold State.startOp; (repeat' split) <;> simp
@[simp] theorem State.replanBay_locks (s : State) (b : Nat) : (State.replanBay s b).glb.locks = s.glb.locks := by simp [State.replanBay]
@[simp] theorem State.tryRaise_locks (s : State) (b : Nat) : (State.tryRaise s b).glb.locks = s.glb.locks := by simp [State.tryRaise]
@[simp] theorem State.dropPauses_locks (s : State) (b : Nat) : (State.dropPauses s b).glb.locks = s.glb.locks := by simp [State.dropPauses]
@[simp] theorem State.longerPause_locks (s : State) (b g : Nat) : (State.longerPause s b g).glb.locks = s.glb.locks := by simp [State.longerPause]
@[simp] theorem State.lowerAnew_locks (s : State) (b g : Nat) : (State.lowerAnew s b g).glb.locks = s.glb.locks := by simp [State.lowerAnew]
@[simp] theorem State.planLower_locks (s : State) (b g : Nat) : (State.planLower s b g).glb.locks = s.glb.locks := by simp [State.planLower]
@[simp] theorem State.tryLower_locks (s : State) (b : Nat) : (State.tryLower s b).glb.locks = s.glb.locks := by unfold State.tryLower; (try dsimp only); (repeat' split) <;> simp
@[simp] theorem State.yieldQuantum_locks (s : State) (a : Nat) : (State.yieldQuantum s a).glb.locks = s.glb.locks := by unfold State.yieldQuantum; (repeat' split) <;> simp
@[simp] theorem State.joinIn_locks (s : State) (a : Nat) : (State.joinIn s a).glb.locks = s.glb.locks := by simp [State.joinIn]
@[simp] theorem State.dispatch_locks (s : State) (a : Nat) : (State.dispatch s a).glb.locks = s.glb.locks := by unfold State.dispatch; (try dsimp only); (repeat' split) <;> simp
@[simp] theorem State.dispatchAll_locks (s : State) (as : List Nat) : (State.dispatchAll s as).glb.locks = s.glb.locks := by simp [State.dispatchAll]
@[simp] theorem State.addPoison_locks (s : State) (e : PoisonEnt) : (State.addPoison s e).glb.locks = s.glb.locks := by unfold State.addPoison; (try dsimp only); (repeat' split) <;> simp
@[simp] theorem State.poisonLine_locks (s : State) (n x : Nat) : (State.poisonLine s n x).glb.locks = s.glb.locks := by simp [State.poisonLine]
@[simp] theorem State.clearLine_locks (s : State) (x : Nat) : (State.clearLine s x).glb.locks = s.glb.locks := by simp [State.clearLine]
@[simp] theorem State.putLine_locks (s : State) (x : Nat) (bs : List Byte) : (State.putLine s x bs).glb.locks = s.glb.locks := by simp [State.putLine]
@[simp] theorem State.writeOut_locks (s : State) (e : MergeEnt) (ok : Bool) : (State.writeOut s e ok).glb.locks = s.glb.locks := by simp [State.writeOut]
@[simp] theorem State.settle_locks (s : State) (k n : Nat) : (State.settle s k n).glb.locks = s.glb.locks := by simp [State.settle]
@[simp] theorem State.mergeWrite_locks (s : State) (k : Nat) (bs : List Byte) : (State.mergeWrite s k bs).glb.locks = s.glb.locks := by unfold State.mergeWrite; (try dsimp only); (repeat' split) <;> simp
@[simp] theorem State.missOn_locks (s : State) (ch n : Nat) : (State.missOn s ch n).glb.locks = s.glb.locks := by simp [State.missOn]
@[simp] theorem State.writeBuf_locks (s : State) (c : Cmd) (off : Nat) (d : List Byte) : (State.writeBuf s c off d).glb.locks = s.glb.locks := by
  unfold State.writeBuf
  rw [foldl_fst_locks]
  intro x a; simp
@[simp] theorem State.askHost_locks (s : State) (c : Cmd) (list : Bool) (addr len : Nat) : (State.askHost s c list addr len).glb.locks = s.glb.locks := by simp [State.askHost]
@[simp] theorem State.openBuf_locks (s : State) (id : Nat) : (State.openBuf s id).glb.locks = s.glb.locks := by unfold State.openBuf; (repeat' split) <;> simp
@[simp] theorem State.readyNow_locks (s : State) (c : Cmd) : (State.readyNow s c).glb.locks = s.glb.locks := by
  unfold State.readyNow
  rw [State.foldl_locks]
  intro s a; (repeat' split) <;> simp
@[simp] theorem State.readDone_locks (s : State) (id : Nat) : (State.readDone s id).glb.locks = s.glb.locks := by unfold State.readDone; (repeat' split) <;> simp
@[simp] theorem State.deliver_locks (s : State) (c : Cmd) (lba : Nat) (x : Sector) (sends : Bool) : (State.deliver s c lba x sends).glb.locks = s.glb.locks := by simp [State.deliver]
@[simp] theorem State.freeSlot_locks (s : State) (order : Nat) : (State.freeSlot s order).glb.locks = s.glb.locks := by simp [State.freeSlot]
@[simp] theorem State.freeLanded_locks (s : State) : (State.freeLanded s).glb.locks = s.glb.locks := by simp [State.freeLanded]
@[simp] theorem State.staleRecs_locks (s : State) (n lba len : Nat) : (State.staleRecs s n lba len).glb.locks = s.glb.locks := by simp [State.staleRecs]
@[simp] theorem State.dropCached_locks (s : State) (n lba len : Nat) : (State.dropCached s n lba len).glb.locks = s.glb.locks := by simp [State.dropCached]
@[simp] theorem State.stageWrite_locks (s : State) (c : Cmd) (d : List Byte) : (State.stageWrite s c d).glb.locks = s.glb.locks := by simp [State.stageWrite]
@[simp] theorem State.persisted_locks (s : State) (x : Sector) (src : Nat) : (State.persisted s x src).glb.locks = s.glb.locks := by simp [State.persisted]
@[simp] theorem State.commitFinal_locks (s : State) (x : Sector) (src : Nat) : (State.commitFinal s x src).glb.locks = s.glb.locks := by simp [State.commitFinal]
@[simp] theorem State.recordZone_locks (s : State) (n lba : Nat) : (State.recordZone s n lba).glb.locks = s.glb.locks := by simp [State.recordZone]
@[simp] theorem State.changeZone_locks (s : State) (n lba : Nat) (g : Zone → Zone) : (State.changeZone s n lba g).glb.locks = s.glb.locks := by simp [State.changeZone]
@[simp] theorem State.advanceCom_locks (s : State) (n lba : Nat) : (State.advanceCom s n lba).glb.locks = s.glb.locks := by simp [State.advanceCom]
@[simp] theorem State.putRecords_locks (s : State) (a : Nat) (kinds : List Nat) : (State.putRecords s a kinds).glb.locks = s.glb.locks := by simp [State.putRecords]
@[simp] theorem State.flushJournal_locks (s : State) (a : Nat) : (State.flushJournal s a).glb.locks = s.glb.locks := by simp [State.flushJournal]
@[simp] theorem State.landReserve_locks (s : State) (a id : Nat) (r : List Nat × Nat) : (State.landReserve s a id r).glb.locks = s.glb.locks := by simp [State.landReserve]
@[simp] theorem State.setMedia_locks (s : State) (b v : Nat) : (State.setMedia s b v).glb.locks = s.glb.locks := by simp [State.setMedia]
@[simp] theorem State.clearNs_locks (s : State) (n : Nat) : (State.clearNs s n).glb.locks = s.glb.locks := by simp [State.clearNs]
@[simp] theorem State.actFormatted_locks (s : State) (a pct : Nat) : (State.actFormatted s a pct).glb.locks = s.glb.locks := by simp [State.actFormatted]
@[simp] theorem State.fmtCheck_locks (s : State) (id : Nat) : (State.fmtCheck s id).glb.locks = s.glb.locks := by unfold State.fmtCheck; (repeat' split) <;> simp
@[simp] theorem State.fmtUnit_locks (s : State) (a id : Nat) : (State.fmtUnit s a id).glb.locks = s.glb.locks := by simp [State.fmtUnit]
@[simp] theorem State.fmtCert_locks (s : State) (a id k : Nat) : (State.fmtCert s a id k).glb.locks = s.glb.locks := by simp [State.fmtCert]
@[simp] theorem State.purgeNs_locks (s : State) (n : Nat) : (State.purgeNs s n).glb.locks = s.glb.locks := by simp [State.purgeNs]
@[simp] theorem State.sanTo_locks (s : State) (id st : Nat) : (State.sanTo s id st).glb.locks = s.glb.locks := by simp [State.sanTo]
@[simp] theorem State.sanTick_locks (s : State) (id : Nat) : (State.sanTick s id).glb.locks = s.glb.locks := by unfold State.sanTick; (repeat' split) <;> simp
@[simp] theorem State.sanUnit_locks (s : State) (a id : Nat) : (State.sanUnit s a id).glb.locks = s.glb.locks := by simp [State.sanUnit]
@[simp] theorem State.queueSan_locks (s : State) (o : SanOp) : (State.queueSan s o).glb.locks = s.glb.locks := by simp [State.queueSan]
@[simp] theorem State.eraseKey_locks (s : State) (slot : Nat) (target : BitVec 32) : (State.eraseKey s slot target).glb.locks = s.glb.locks := by simp [State.eraseKey]
@[simp] theorem State.runCrypto_locks (s : State) (o : SanOp) : (State.runCrypto s o).glb.locks = s.glb.locks := by simp [State.runCrypto]
@[simp] theorem State.sanRejoin_locks (s : State) (b : Nat) : (State.sanRejoin s b).glb.locks = s.glb.locks := by simp [State.sanRejoin]
theorem foldl_opt_locks {α : Type} (g : Option State × Bool → α → Option State × Bool) (v : BitVec 7 × Bool × Bool)
    (hg : ∀ x a, (∀ u, x.1 = some u → u.glb.locks = v) → ∀ u, (g x a).1 = some u → u.glb.locks = v) (l : List α) (x : Option State × Bool)
    (hx : ∀ u, x.1 = some u → u.glb.locks = v) : ∀ u, (l.foldl g x).1 = some u → u.glb.locks = v := by
  induction l generalizing x with
  | nil => exact hx
  | cons a t ih => exact ih _ (hg x a hx)
theorem State.tryPart_locks (s : State) (c : Cmd) (r : Nat → Nat) (a : Nat) (n : PlanOp) (b : Bool) : ∀ t, (s.tryPart c r a n b).1 = some t → t.glb.locks = s.glb.locks := by
  unfold State.tryPart
  intro t
  extract_lets bb s1 ceil q
  have hs : s1.glb.locks = s.glb.locks := by simp only [s1]; split <;> simp
  split
  · simp
  · split
    · refine foldl_opt_locks _ s.glb.locks ?_ _ _ (by simp) t
      intro x g hx u hu
      dsimp only at hu
      split at hu
      · exact hx u hu
      · split at hu
        · cases hu
        · split at hu
          · cases hu; simp [hs]
          · cases hu
    · dsimp only
      rw [Option.map_eq_some_iff]
      rintro ⟨p, _, rfl⟩
      simp [hs]
theorem State.tryParts_locks (c : Cmd) (u : Nat → Nat) (ops : List (Nat × PlanOp)) : ∀ (s keep : State),
    (∀ t, (s.tryParts c u ops keep).1 = .pass t → t.glb.locks = s.glb.locks) ∧ (s.tryParts c u ops keep).2.glb.locks = keep.glb.locks := by
  induction ops with
  | nil => exact fun s keep => ⟨fun t h => by (cases h; rfl), rfl⟩
  | cons x ops ih =>
    intro s keep
    obtain ⟨a, n⟩ := x
    unfold State.tryParts
    dsimp only
    split
    · rename_i s' h
      obtain ⟨h1, h2⟩ := ih (s'.slotLimited a (s.tryPart c u a n false).2) (keep.slotLimited a (s.tryPart c u a n false).2)
      refine ⟨fun t ht => ?_, by rw [h2]; simp⟩
      rw [h1 t ht, State.slotLimited_locks, State.tryPart_locks _ _ _ _ _ _ _ h]
    · exact ⟨fun t h => by (cases h), by simp⟩
@[simp] theorem State.admitOn_locks (s : State) (c : Cmd) (bytes : Nat) (ops : List (Nat × PlanOp)) (k : State → State) (hk : ∀ x0, (k x0).glb.locks = x0.glb.locks) : (State.admitOn s c bytes ops k).glb.locks = s.glb.locks := by
  unfold State.admitOn
  split
  · simp
  · split <;> rename_i h
    · have e := (State.tryParts_locks c (s.epochFor (ops.map (·.1))).1.reserve ops s s).2
      rw [h] at e
      simpa using e
    · simp [hk, (State.tryParts_locks c _ ops s s).1 _ (by rw [h])]
@[simp] theorem State.startRead_locks (s : State) (c : Cmd) (ps : List Part) : (State.startRead s c ps).glb.locks = s.glb.locks := by simp [State.startRead]
@[simp] theorem State.testRead_locks (s : State) (c : Cmd) (ps : List Part) : (State.testRead s c ps).glb.locks = s.glb.locks := by simp [State.testRead]
@[simp] theorem State.admitRead_locks (s : State) (id : Nat) : (State.admitRead s id).glb.locks = s.glb.locks := by unfold State.admitRead; (repeat' split) <;> simp
@[simp] theorem State.implicitClose_locks (s : State) (a : Nat) : (State.implicitClose s a).glb.locks = s.glb.locks := by unfold State.implicitClose; (try dsimp only); (repeat' split) <;> simp
@[simp] theorem State.zoneAdmit_locks (s : State) (c : Cmd) : (State.zoneAdmit s c).glb.locks = s.glb.locks := by simp [State.zoneAdmit]
@[simp] theorem State.admitWriteCmd_locks (s : State) (c : Cmd) : (State.admitWriteCmd s c).glb.locks = s.glb.locks := by simp [State.admitWriteCmd]
@[simp] theorem State.writeDone_locks (s : State) (c : Cmd) : (State.writeDone s c).glb.locks = s.glb.locks := by simp [State.writeDone]
@[simp] theorem State.writeFetched_locks (s : State) (id : Nat) (d : List Byte) : (State.writeFetched s id d).glb.locks = s.glb.locks := by unfold State.writeFetched; (repeat' split) <;> simp
@[simp] theorem State.copyWindow_locks (s : State) (id : Nat) : (State.copyWindow s id).glb.locks = s.glb.locks := by unfold State.copyWindow; (repeat' split) <;> simp
@[simp] theorem State.admitStaged_locks (s : State) (c : Cmd) : (State.admitStaged s c).glb.locks = s.glb.locks := by simp [State.admitStaged]
@[simp] theorem State.admitLandedConv_locks (s : State) (c : Cmd) : (State.admitLandedConv s c).glb.locks = s.glb.locks := by simp [State.admitLandedConv]
@[simp] theorem State.admitLandedZone_locks (s : State) (c : Cmd) : (State.admitLandedZone s c).glb.locks = s.glb.locks := by unfold State.admitLandedZone; (try dsimp only); (repeat' split) <;> simp
@[simp] theorem State.testStaging_locks (s : State) (c : Cmd) : (State.testStaging s c).glb.locks = s.glb.locks := by simp [State.testStaging]
@[simp] theorem State.testWrite_locks (s : State) (op : Nat) (c : Cmd) : (State.testWrite s op c).glb.locks = s.glb.locks := by unfold State.testWrite; (repeat' split) <;> simp
@[simp] theorem State.admitWrite_locks (s : State) (id op : Nat) : (State.admitWrite s id op).glb.locks = s.glb.locks := by unfold State.admitWrite; (repeat' split) <;> simp
@[simp] theorem State.admitZone_locks (s : State) (id act : Nat) (k : Cmd → State → State) (hk : ∀ x0 x1, (k x0 x1).glb.locks = x1.glb.locks) : (State.admitZone s id act k).glb.locks = s.glb.locks := by unfold State.admitZone; (try dsimp only); (repeat' split) <;> (try simp_all)
@[simp] theorem State.noteOpenCond_locks (s : State) (c : Cmd) (act : Nat) : (State.noteOpenCond s c act).glb.locks = s.glb.locks := by simp [State.noteOpenCond]
@[simp] theorem State.admitJournal_locks (s : State) (c : Cmd) (st : ZState) (wp : Nat) : (State.admitJournal s c st wp).glb.locks = s.glb.locks := by simp [State.admitJournal]
@[simp] theorem State.pushReport_locks (s : State) (id : Nat) : (State.pushReport s id).glb.locks = s.glb.locks := by unfold State.pushReport; (repeat' split) <;> simp
@[simp] theorem State.admitReport_locks (s : State) (c : Cmd) (d : List Byte) : (State.admitReport s c d).glb.locks = s.glb.locks := by simp [State.admitReport]
@[simp] theorem State.retest_locks (s : State) (id : Nat) : (State.retest s id).glb.locks = s.glb.locks := by
  have h1 : ∀ t, execZoneOpen id s = .next t → t.glb.locks = s.glb.locks := by intro t h; simp only [execZoneOpen, Host.Outcome.next.injEq] at h; subst h; (repeat' split) <;> simp
  have h2 : ∀ t, execZoneClose id s = .next t → t.glb.locks = s.glb.locks := by intro t h; simp only [execZoneClose, Host.Outcome.next.injEq] at h; subst h; (repeat' split) <;> simp
  have h3 : ∀ t, execZoneFinish id s = .next t → t.glb.locks = s.glb.locks := by intro t h; simp only [execZoneFinish, Host.Outcome.next.injEq] at h; subst h; (repeat' split) <;> simp
  have h4 : ∀ t, execZoneReset id s = .next t → t.glb.locks = s.glb.locks := by intro t h; simp only [execZoneReset, Host.Outcome.next.injEq] at h; subst h; (repeat' split) <;> simp
  have h5 : ∀ t, execZoneReport id s = .next t → t.glb.locks = s.glb.locks := by intro t h; simp only [execZoneReport, Host.Outcome.next.injEq] at h; subst h; (repeat' split) <;> simp
  have h6 : ∀ t, execFlush id s = .next t → t.glb.locks = s.glb.locks := by intro t h; simp only [execFlush, Host.Outcome.next.injEq] at h; subst h; (repeat' split) <;> simp
  have h7 : ∀ t, execRecoveryList id s = .next t → t.glb.locks = s.glb.locks := by intro t h; simp only [execRecoveryList, Host.Outcome.next.injEq] at h; subst h; (repeat' split) <;> simp
  have h8 : ∀ t, execContRead id s = .next t → t.glb.locks = s.glb.locks := by intro t h; simp only [execContRead, Host.Outcome.next.injEq] at h; subst h; (repeat' split) <;> simp
  unfold State.retest
  dsimp only
  split
  · rfl
  · split
    · rfl
    · (repeat' split) <;> first | (simp; done) | exact h1 _ (by with_reducible assumption) | exact h2 _ (by with_reducible assumption) | exact h3 _ (by with_reducible assumption) | exact h4 _ (by with_reducible assumption) | exact h5 _ (by with_reducible assumption) | exact h6 _ (by with_reducible assumption) | exact h7 _ (by with_reducible assumption) | exact h8 _ (by with_reducible assumption)
@[simp] theorem State.retestAll_locks (s : State) : (State.retestAll s).glb.locks = s.glb.locks := by simp [State.retestAll]
@[simp] theorem State.captured_locks (s : State) (id : Nat) (keys : List Nat) : (State.captured s id keys).glb.locks = s.glb.locks := by
  unfold State.captured
  split
  · rfl
  · dsimp only
    split
    all_goals
      simp
      rw [State.each_locks]
      intro s a; (repeat' split) <;> simp
@[simp] theorem State.moveBand_locks (s : State) (a band : Nat) : (State.moveBand s a band).glb.locks = s.glb.locks := by unfold State.moveBand; (try dsimp only); (repeat' split) <;> simp
@[simp] theorem State.refreshDone_locks (s : State) (a g : Nat) : (State.refreshDone s a g).glb.locks = s.glb.locks := by simp [State.refreshDone]
@[simp] theorem State.trialTurn_locks (s : State) (a h : Nat) : (State.trialTurn s a h).glb.locks = s.glb.locks := by simp [State.trialTurn]
@[simp] theorem State.grazeAdvance_locks (s : State) (a : Nat) (r : PlanOp) : (State.grazeAdvance s a r).glb.locks = s.glb.locks := by simp [State.grazeAdvance]
@[simp] theorem State.mediaEnd_locks (s : State) (a : Nat) : (State.mediaEnd s a).glb.locks = s.glb.locks := by unfold State.mediaEnd; (repeat' split) <;> simp
@[simp] theorem State.recTo_locks (s : State) (id : BitVec 16) (st : RecState) : (State.recTo s id st).glb.locks = s.glb.locks := by unfold State.recTo; (repeat' split) <;> simp
@[simp] theorem State.respondAs_locks (s : State) (k status : Nat) (bs : List Byte) : (State.respondAs s k status bs).glb.locks = s.glb.locks := by simp [State.respondAs]
@[simp] theorem State.respond_locks (s : State) (k : Nat) (bs : List Byte) : (State.respond s k bs).glb.locks = s.glb.locks := by simp [State.respond]
@[simp] theorem State.serve_locks (s : State) (r : Requester) (op : Nat) (act : Option Nat) (k : List Byte → State) (hk : ∀ x0, (k x0).glb.locks = s.glb.locks) : (State.serve s r op act k).glb.locks = s.glb.locks := by unfold State.serve; (try dsimp only); (repeat' split) <;> (try simp_all)
@[simp] theorem State.queueRefresh_locks (s : State) (a g order : Nat) : (State.queueRefresh s a g order).glb.locks = s.glb.locks := by simp [State.queueRefresh]
@[simp] theorem State.holdGroup_locks (s : State) (a g : Nat) : (State.holdGroup s a g).glb.locks = s.glb.locks := by simp [State.holdGroup]
@[simp] theorem State.checkpoint_locks (s : State) (a : Nat) : (State.checkpoint s a).glb.locks = s.glb.locks := by simp [State.checkpoint]
@[simp] theorem State.enterFormat_locks (s : State) (k : Nat) (o : FmtOp) : (State.enterFormat s k o).glb.locks = s.glb.locks := by simp [State.enterFormat]
@[simp] theorem State.refuseFormat_locks (s : State) (k reason : Nat) : (State.refuseFormat s k reason).glb.locks = s.glb.locks := by simp [State.refuseFormat]
@[simp] theorem State.queueFormat_locks (s : State) (o : FmtOp) : (State.queueFormat s o).glb.locks = s.glb.locks := by simp [State.queueFormat]
@[simp] theorem State.modSamples_locks (s : State) (a cmd key : Nat) (g : Retain → Retain) : (State.modSamples s a cmd key g).glb.locks = s.glb.locks := by simp [State.modSamples]
@[simp] theorem State.dropSamples_locks (s : State) (a cmd key : Nat) : (State.dropSamples s a cmd key).glb.locks = s.glb.locks := by simp [State.dropSamples]
@[simp] theorem State.retain_locks (s : State) (a : Nat) (e : Retain) : (State.retain s a e).glb.locks = s.glb.locks := by simp [State.retain]
@[simp] theorem State.retainSlot_locks (s : State) (a cmd key : Nat) : (State.retainSlot s a cmd key).glb.locks = s.glb.locks := by unfold State.retainSlot; (repeat' split) <;> simp
@[simp] theorem State.accumulate_locks (s : State) (a : Nat) (e : Retain) : (State.accumulate s a e).glb.locks = s.glb.locks := by unfold State.accumulate; (try dsimp only); (repeat' split) <;> simp
@[simp] theorem State.takeSlot_locks (s : State) (a : Nat) (e : Retain) : (State.takeSlot s a e).glb.locks = s.glb.locks := by unfold State.takeSlot; (try dsimp only); (repeat' split) <;> simp
@[simp] theorem State.askReplay_locks (s : State) (a : Nat) (q : FmtCmd) : (State.askReplay s a q).glb.locks = s.glb.locks := by simp [State.askReplay]
@[simp] theorem State.fillQueue_locks (s : State) (a : Nat) : (State.fillQueue s a).glb.locks = s.glb.locks := by simp [State.fillQueue]
@[simp] theorem State.stopReplays_locks (s : State) (a cmd key : Nat) : (State.stopReplays s a cmd key).glb.locks = s.glb.locks := by simp [State.stopReplays]
@[simp] theorem State.queueRewrite_locks (s : State) (a key : Nat) : (State.queueRewrite s a key).glb.locks = s.glb.locks := by simp [State.queueRewrite]
@[simp] theorem State.queueBand_locks (s : State) (a region : Nat) : (State.queueBand s a region).glb.locks = s.glb.locks := by simp [State.queueBand]
@[simp] theorem State.wantChanCal_locks (s : State) (a h : Nat) : (State.wantChanCal s a h).glb.locks = s.glb.locks := by simp [State.wantChanCal]
@[simp] theorem State.enterUnread_locks (s : State) (a key : Nat) (lost : Bool) : (State.enterUnread s a key lost).glb.locks = s.glb.locks := by simp [State.enterUnread]
@[simp] theorem State.loseSector_locks (s : State) (a key : Nat) : (State.loseSector s a key).glb.locks = s.glb.locks := by simp [State.loseSector]
@[simp] theorem State.marginal_locks (s : State) (a key rung : Nat) : (State.marginal s a key rung).glb.locks = s.glb.locks := by simp [State.marginal]
@[simp] theorem State.recSector_locks (s : State) (ref key : Nat) : (State.recSector s ref key).glb.locks = s.glb.locks := by unfold State.recSector; (repeat' split) <;> simp
@[simp] theorem State.recFail_locks (s : State) (ref : Nat) : (State.recFail s ref).glb.locks = s.glb.locks := by unfold State.recFail; (repeat' split) <;> simp
@[simp] theorem State.placeholder_locks (s : State) (a key : Nat) : (State.placeholder s a key).glb.locks = s.glb.locks := by simp [State.placeholder]
@[simp] theorem State.grazeGood_locks (s : State) (x : Attempt) : (State.grazeGood s x).glb.locks = s.glb.locks := by simp [State.grazeGood]
@[simp] theorem State.grazeLost_locks (s : State) (a order ref key : Nat) : (State.grazeLost s a order ref key).glb.locks = s.glb.locks := by simp [State.grazeLost]
@[simp] theorem State.bulkPassages_locks (s : State) (a : Nat) (c : Cmd) (key step n : Nat) : (State.bulkPassages s a c key step n).glb.locks = s.glb.locks := by simp [State.bulkPassages]
@[simp] theorem State.grazePassages_locks (s : State) (a : Nat) (e : Retain) (step n : Nat) : (State.grazePassages s a e step n).glb.locks = s.glb.locks := by simp [State.grazePassages]
@[simp] theorem State.giveUp_locks (s : State) (a : Nat) (e : Retain) : (State.giveUp s a e).glb.locks = s.glb.locks := by unfold State.giveUp; (try dsimp only); (repeat' split) <;> simp
@[simp] theorem State.startStep_locks (s : State) (a : Nat) (e : Retain) (step : Nat) : (State.startStep s a e step).glb.locks = s.glb.locks := by unfold State.startStep; (try dsimp only); (repeat' split) <;> simp
@[simp] theorem State.nextRung_locks (s : State) (a : Nat) (e : Retain) : (State.nextRung s a e).glb.locks = s.glb.locks := by unfold State.nextRung; (try dsimp only); (repeat' split) <;> simp
@[simp] theorem State.startReplays_locks (s : State) (a : Nat) (e : Retain) : (State.startReplays s a e).glb.locks = s.glb.locks := by simp [State.startReplays]
@[simp] theorem State.stopAttempts_locks (s : State) (a cmd key : Nat) : (State.stopAttempts s a cmd key).glb.locks = s.glb.locks := by simp [State.stopAttempts]
@[simp] theorem State.checkFailed_locks (s : State) (a : Nat) (e : Retain) : (State.checkFailed s a e).glb.locks = s.glb.locks := by simp [State.checkFailed]
@[simp] theorem State.afterFailure_locks (s : State) (a : Nat) (x : Attempt) : (State.afterFailure s a x).glb.locks = s.glb.locks := by simp [State.afterFailure]
@[simp] theorem State.countFraming_locks (s : State) (a : Nat) (f : Framing) : (State.countFraming s a f).glb.locks = s.glb.locks := by simp [State.countFraming]
@[simp] theorem State.eraseFor_locks (s : State) (a ps : Nat) : (State.eraseFor s a ps).glb.locks = s.glb.locks := by simp [State.eraseFor]
@[simp] theorem State.eraseSamples_locks (s : State) (a : Nat) : (State.eraseSamples s a).glb.locks = s.glb.locks := by simp [State.eraseSamples]
@[simp] theorem State.frameSector_locks (s : State) (a key : Nat) (q : FmtCmd) (sm1 sm2 : List Hit) (r0 r1 : List (BitVec 6)) : (State.frameSector s a key q sm1 sm2 r0 r1).glb.locks = s.glb.locks := by simp [State.frameSector]
@[simp] theorem State.chargeDec_locks (s : State) (cmd iters rounds : Nat) : (State.chargeDec s cmd iters rounds).glb.locks = s.glb.locks := by simp [State.chargeDec]
@[simp] theorem State.modAttempt_locks (s : State) (id : Nat) (g : Attempt → Attempt) : (State.modAttempt s id g).glb.locks = s.glb.locks := by simp [State.modAttempt]
@[simp] theorem State.freeEngine_locks (s : State) (e : Nat) : (State.freeEngine s e).glb.locks = s.glb.locks := by simp [State.freeEngine]
@[simp] theorem State.leavePool_locks (s : State) (x : Attempt) : (State.leavePool s x).glb.locks = s.glb.locks := by unfold State.leavePool; (repeat' split) <;> simp
@[simp] theorem State.endAttempt_locks (s : State) (x : Attempt) : (State.endAttempt s x).glb.locks = s.glb.locks := by simp [State.endAttempt]
@[simp] theorem State.assign_locks (s : State) (e : Nat) (x : Attempt) : (State.assign s e x).glb.locks = s.glb.locks := by simp [State.assign]
theorem serveAttempt_locks (x : State × List Nat) (a : Nat) : (serveAttempt x a).1.glb.locks = x.1.glb.locks := by
  unfold serveAttempt; dsimp only; (repeat' split) <;> simp_all
@[simp] theorem State.dispatchPool_locks (s : State) : (State.dispatchPool s).glb.locks = s.glb.locks := by
  unfold State.dispatchPool
  dsimp only
  rw [foldl_fst_locks _ serveAttempt_locks]
@[simp] theorem State.enterPool_locks (s : State) (x : Attempt) (t : Nat) : (State.enterPool s x t).glb.locks = s.glb.locks := by simp [State.enterPool]
@[simp] theorem State.stopLadder_locks (s : State) (x : Attempt) : (State.stopLadder s x).glb.locks = s.glb.locks := by simp [State.stopLadder]
@[simp] theorem State.adapt_locks (s : State) (x : Attempt) (v : TapSet) : (State.adapt s x v).glb.locks = s.glb.locks := by simp [State.adapt]
@[simp] theorem State.readySector_locks (s : State) (x : Attempt) : (State.readySector s x).glb.locks = s.glb.locks := by unfold State.readySector; (repeat' split) <;> simp
@[simp] theorem State.converged_locks (s : State) (x : Attempt) (o : DecOut) (taps : TapSet) : (State.converged s x o taps).glb.locks = s.glb.locks := by unfold State.converged; (try dsimp only); (repeat' split) <;> simp
@[simp] theorem State.roundStart_locks (s : State) (x : Attempt) (isl : Nat) : (State.roundStart s x isl).glb.locks = s.glb.locks := by simp [State.roundStart]
@[simp] theorem State.preempt_locks (s : State) (e : Nat) (x : Attempt) : (State.preempt s e x).glb.locks = s.glb.locks := by simp [State.preempt]
@[simp] theorem State.iterate_locks (s : State) (e : Nat) (x : Attempt) (zero : Bool) (o : DecOut) (taps : TapSet) : (State.iterate s e x zero o taps).glb.locks = s.glb.locks := by simp [State.iterate]
@[simp] theorem State.restartJob_locks (s : State) (e : Nat) : (State.restartJob s e).glb.locks = s.glb.locks := by unfold State.restartJob; (repeat' split) <;> simp
@[simp] theorem State.retireEngine_locks (s : State) (e st : Nat) : (State.retireEngine s e st).glb.locks = s.glb.locks := by simp [State.retireEngine]
@[simp] theorem State.leaveIsland_locks (s : State) (e : Nat) : (State.leaveIsland s e).glb.locks = s.glb.locks := by simp [State.leaveIsland]
@[simp] theorem State.failEngine_locks (s : State) (e : Nat) : (State.failEngine s e).glb.locks = s.glb.locks := by simp [State.failEngine]
@[simp] theorem State.decoderReply_locks (s : State) (k reason e : Nat) : (State.decoderReply s k reason e).glb.locks = s.glb.locks := by simp [State.decoderReply]
@[simp] theorem State.endRetest_locks (s : State) (k e : Nat) (pass : Bool) : (State.endRetest s k e pass).glb.locks = s.glb.locks := by simp [State.endRetest]
@[simp] theorem State.popFmt_locks (s : State) (a : Nat) : (State.popFmt s a).glb.locks = s.glb.locks := by simp [State.popFmt]
@[simp] theorem State.startRoutine_locks (s : State) (a : Nat) (q : FmtCmd) : (State.startRoutine s a q).glb.locks = s.glb.locks := by simp [State.startRoutine]
@[simp] theorem State.askRecord_locks (s : State) (a : Nat) : (State.askRecord s a).glb.locks = s.glb.locks := by simp [State.askRecord]
@[simp] theorem State.commitFinish_locks (s : State) (c : Cmd) : (State.commitFinish s c).glb.locks = s.glb.locks := by simp [State.commitFinish]
@[simp] theorem State.commitReset_locks (s : State) (c : Cmd) : (State.commitReset s c).glb.locks = s.glb.locks := by simp [State.commitReset]
@[simp] theorem State.zoneRecord_locks (s : State) (a : Nat) (c : Cmd) : (State.zoneRecord s a c).glb.locks = s.glb.locks := by simp [State.zoneRecord]
@[simp] theorem State.intentRecs_locks (s : State) (a : Nat) (keys : List Nat) : (State.intentRecs s a keys).glb.locks = s.glb.locks := by simp [State.intentRecs]
@[simp] theorem State.startWrite_locks (s : State) (a : Nat) (opc : Byte) : (State.startWrite s a opc).glb.locks = s.glb.locks := by unfold State.startWrite; (repeat' split) <;> simp
@[simp] theorem State.sendFrame_locks (s : State) (a : Nat) (q : FmtCmd) (key : Nat) (x : Sector) : (State.sendFrame s a q key x).glb.locks = s.glb.locks := by simp [State.sendFrame]
@[simp] theorem State.committedOf_locks (s : State) (id n lba : Nat) : (State.committedOf s id n lba).glb.locks = s.glb.locks := by unfold State.committedOf; (repeat' split) <;> simp
@[simp] theorem State.releaseSource_locks (s : State) (a key : Nat) : (State.releaseSource s a key).glb.locks = s.glb.locks := by simp [State.releaseSource]
@[simp] theorem State.commitBand_locks (s : State) (a spt : Nat) (x : Sector) (src : Nat) : (State.commitBand s a spt x src).glb.locks = s.glb.locks := by simp [State.commitBand]
@[simp] theorem State.commitLanding_locks (s : State) (a id : Nat) (w : WSlot) : (State.commitLanding s a id w).glb.locks = s.glb.locks := by unfold State.commitLanding; (repeat' split) <;> simp
@[simp] theorem State.writePoisoned_locks (s : State) (a : Nat) (q : FmtCmd) (w : WSlot) : (State.writePoisoned s a q w).glb.locks = s.glb.locks := by simp [State.writePoisoned]
@[simp] theorem State.commitKey_locks (s : State) (a : Nat) (q : FmtCmd) (key : Nat) : (State.commitKey s a q key).glb.locks = s.glb.locks := by unfold State.commitKey; (try dsimp only); (repeat' split) <;> simp
@[simp] theorem State.endWrite_locks (s : State) (a : Nat) : (State.endWrite s a).glb.locks = s.glb.locks := by simp [State.endWrite]
@[simp] theorem State.afterWrite_locks (s : State) (a id : Nat) : (State.afterWrite s a id).glb.locks = s.glb.locks := by unfold State.afterWrite; (repeat' split) <;> simp
@[simp] theorem State.splitRunning_locks (s : State) (a : Nat) (r : Routine) : (State.splitRunning s a r).glb.locks = s.glb.locks := by simp [State.splitRunning]
@[simp] theorem State.passWaymark_locks (s : State) (a : Nat) (r : Routine) (keys : List Nat) (at' : Nat × Nat) : (State.passWaymark s a r keys at').glb.locks = s.glb.locks := by unfold State.passWaymark; (try dsimp only); (repeat' split) <;> (try simp) <;> (repeat' (first | (rw [State.each_locks]) | (intro _) | split)) <;> simp_all
@[simp] theorem State.abandonAll_locks (s : State) (a : Nat) : (State.abandonAll s a).glb.locks = s.glb.locks := by unfold State.abandonAll; (repeat' split) <;> simp
@[simp] theorem State.resumeRoutine_locks (s : State) (a : Nat) (r : Routine) : (State.resumeRoutine s a r).glb.locks = s.glb.locks := by simp [State.resumeRoutine]
@[simp] theorem State.squeezeRewrite_locks (s : State) (a : Nat) (q : FmtCmd) (x : Nat) : (State.squeezeRewrite s a q x).glb.locks = s.glb.locks := by
  unfold State.squeezeRewrite
  extract_lets r k com start sec gen recs pass s1 s2
  have hp : ∀ s g, (pass s g).glb.locks = s.glb.locks := by
    intro s g
    simp only [pass, State.modFmt_locks]
    rw [State.each_locks]
    · split <;> simp
    · intro s p; split <;> simp
  have h1 : s1.glb.locks = s.glb.locks := by simp only [s1]; exact State.each_locks _ _ _ hp
  have h2 : s2.glb.locks = s.glb.locks := by simp only [s2]; simp [h1]
  split <;> simp [h2]
@[simp] theorem State.queueAssistCal_locks (s : State) (a h : Nat) : (State.queueAssistCal s a h).glb.locks = s.glb.locks := by simp [State.queueAssistCal]
@[simp] theorem State.headLost_locks (s : State) (a h : Nat) : (State.headLost s a h).glb.locks = s.glb.locks := by simp [State.headLost]
@[simp] theorem State.suspendHead_locks (s : State) (a h : Nat) : (State.suspendHead s a h).glb.locks = s.glb.locks := by simp [State.suspendHead]
@[simp] theorem State.feedbackFault_locks (s : State) (a h : Nat) : (State.feedbackFault s a h).glb.locks = s.glb.locks := by simp [State.feedbackFault]
@[simp] theorem State.roundGain_locks (s : State) (v : Int) : (s.roundGain v).2.glb.locks = s.glb.locks := by
  unfold State.roundGain; dsimp only; (repeat' split) <;> simp
@[simp] theorem State.assistLoop_locks (s : State) (a h sample : Nat) : (State.assistLoop s a h sample).glb.locks = s.glb.locks := by
  unfold State.assistLoop
  dsimp only
  split <;> simp
@[simp] theorem State.assistUse_locks (s : State) (a : Nat) (q : FmtCmd) (t energy : Nat) : (State.assistUse s a q t energy).glb.locks = s.glb.locks := by simp [State.assistUse]
@[simp] theorem State.wearCheck_locks (s : State) (a h : Nat) : (State.wearCheck s a h).glb.locks = s.glb.locks := by simp [State.wearCheck]
@[simp] theorem State.trip_locks (s : State) (spin : Bool) (i cond time : Nat) : (State.trip s spin i cond time).glb.locks = s.glb.locks := by simp [State.trip]
@[simp] theorem State.tripAct_locks (s : State) (a cond : Nat) : (State.tripAct s a cond).glb.locks = s.glb.locks := by simp [State.tripAct]
@[simp] theorem State.sampleTrc_locks (s : State) (e : Nat) (spin : Bool) (i : Nat) (val : Nat → Nat → Nat → Word) : (State.sampleTrc s e spin i val).glb.locks = s.glb.locks := by simp [State.sampleTrc]
@[simp] theorem State.countTrc_locks (s : State) (spin : Bool) (i : Nat) : (State.countTrc s spin i).glb.locks = s.glb.locks := by simp [State.countTrc]
@[simp] theorem State.raiseInhibit_locks (s : State) (a cause : Nat) (toward : Bool) : (State.raiseInhibit s a cause toward).glb.locks = s.glb.locks := by simp [State.raiseInhibit]
@[simp] theorem State.retract_locks (s : State) (a cause : Nat) : (State.retract s a cause).glb.locks = s.glb.locks := by simp [State.retract]
@[simp] theorem State.retractIdle_locks (s : State) (a : Nat) : (State.retractIdle s a).glb.locks = s.glb.locks := by simp [State.retractIdle]
@[simp] theorem State.enterRetract_locks (s : State) (a : Nat) (cause : BitVec 3) : (State.enterRetract s a cause).glb.locks = s.glb.locks := by simp [State.enterRetract]
@[simp] theorem State.enterLimp_locks (s : State) (a : Nat) : (State.enterLimp s a).glb.locks = s.glb.locks := by unfold State.enterLimp; (repeat' split) <;> simp
@[simp] theorem State.decideMig_locks (s : State) (a : Nat) (beyond : Bool) : (State.decideMig s a beyond).glb.locks = s.glb.locks := by unfold State.decideMig; (try dsimp only); (repeat' split) <;> simp
@[simp] theorem State.wantAction_locks (s : State) (b : Nat) (x : SpinAct) : (State.wantAction s b x).glb.locks = s.glb.locks := by simp [State.wantAction]
@[simp] theorem State.decideSpn_locks (s : State) (b : Nat) : (State.decideSpn s b).glb.locks = s.glb.locks := by unfold State.decideSpn; (try dsimp only); (repeat' split) <;> simp
@[simp] theorem State.placeSpindles_locks (s : State) : (State.placeSpindles s).glb.locks = s.glb.locks := by
  unfold State.placeSpindles
  rw [State.each_locks]
  intro s a; split <;> simp
@[simp] theorem State.evacuate_locks (s : State) (n : Nat) : (State.evacuate s n).glb.locks = s.glb.locks := by simp [State.evacuate]
@[simp] theorem State.retireLe_locks (s : State) (n st : Nat) : (State.retireLe s n st).glb.locks = s.glb.locks := by simp [State.retireLe]
@[simp] theorem State.predict_locks (s : State) (a : Nat) : (State.predict s a).glb.locks = s.glb.locks := by simp [State.predict]
@[simp] theorem State.overrunOf_locks (s : State) (a : Nat) : (State.overrunOf s a).glb.locks = s.glb.locks := by simp [State.overrunOf]
@[simp] theorem State.wearAt_locks (s : State) (b budget n : Nat) : (State.wearAt s b budget n).glb.locks = s.glb.locks := by simp [State.wearAt]
@[simp] theorem State.gaitHours_locks (s : State) (b : Nat) : (State.gaitHours s b).glb.locks = s.glb.locks := by simp [State.gaitHours]
@[simp] theorem State.requestLoad_locks (s : State) (a : Nat) : (State.requestLoad s a).glb.locks = s.glb.locks := by simp [State.requestLoad]
@[simp] theorem State.endPause_locks (s : State) (b : Nat) : (State.endPause s b).glb.locks = s.glb.locks := by simp [State.endPause]
@[simp] theorem State.loadsDone_locks (s : State) (b : Nat) : (State.loadsDone s b).glb.locks = s.glb.locks := by simp [State.loadsDone]
@[simp] theorem State.parked_locks (s : State) (a : Nat) : (State.parked s a).glb.locks = s.glb.locks := by simp [State.parked]
@[simp] theorem State.sendSpin_locks (s : State) (b mode tcomm step icmd : Nat) : (State.sendSpin s b mode tcomm step icmd).glb.locks = s.glb.locks := by simp [State.sendSpin]
@[simp] theorem State.startBrake_locks (s : State) (b : Nat) (short : Bool) : (State.startBrake s b short).glb.locks = s.glb.locks := by simp [State.startBrake]
@[simp] theorem State.askToken_locks (s : State) (b kind : Nat) : (State.askToken s b kind).glb.locks = s.glb.locks := by simp [State.askToken]
@[simp] theorem State.linksOff_locks (s : State) (b : Nat) : (State.linksOff s b).glb.locks = s.glb.locks := by simp [State.linksOff]
@[simp] theorem State.quarantine_locks (s : State) (b reason : Nat) : (State.quarantine s b reason).glb.locks = s.glb.locks := by simp [State.quarantine]
@[simp] theorem State.failBringUp_locks (s : State) (b reason : Nat) : (State.failBringUp s b reason).glb.locks = s.glb.locks := by simp [State.failBringUp]
@[simp] theorem State.offerSet_locks (s : State) (a : Nat) (set : Option CoeffSet) (rro : Option RroSet) : (State.offerSet s a set rro).glb.locks = s.glb.locks := by simp [State.offerSet]
@[simp] theorem State.peerReset_locks (s : State) (i : Nat) (flight : Tab Nat) : (State.peerReset s i flight).glb.locks = s.glb.locks := by simp [State.peerReset]
@[simp] theorem State.rearm_locks (s : State) (i : Nat) : (State.rearm s i).glb.locks = s.glb.locks := by simp [State.rearm]
@[simp] theorem State.segmentIn_locks (s : State) (c : Cmd) (bs : List Byte) : (State.segmentIn s c bs).glb.locks = s.glb.locks := by unfold State.segmentIn; (try dsimp only); (repeat' split) <;> simp
@[simp] theorem State.dataIn_locks (s : State) (c : Cmd) (bs : List Byte) : (State.dataIn s c bs).glb.locks = s.glb.locks := by simp [State.dataIn]
@[simp] theorem State.readFailed_locks (s : State) (id : Nat) : (State.readFailed s id).glb.locks = s.glb.locks := by simp [State.readFailed]
@[simp] theorem State.unexpected_locks (s : State) (f : Nat) : (State.unexpected s f).glb.locks = s.glb.locks := by simp [State.unexpected]
@[simp] theorem State.hostCompletion_locks (s : State) (f id : Nat) (list failed : Bool) (bs : List Byte) : (State.hostCompletion s f id list failed bs).glb.locks = s.glb.locks := by unfold State.hostCompletion; (try dsimp only); (repeat' split) <;> simp
@[simp] theorem State.postHeld_locks (s : State) (id : Nat) : (State.postHeld s id).glb.locks = s.glb.locks := by unfold State.postHeld; (repeat' split) <;> simp
@[simp] theorem State.issueAsks_locks (s : State) (c : Cmd) : (State.issueAsks s c).glb.locks = s.glb.locks := by simp [State.issueAsks]
@[simp] theorem State.resume_locks (s : State) (f : Nat) : (State.resume s f).glb.locks = s.glb.locks := by simp [State.resume]
@[simp] theorem State.bmeOff_locks (s : State) (f : Nat) : (State.bmeOff s f).glb.locks = s.glb.locks := by simp [State.bmeOff]
@[simp] theorem State.bmeOn_locks (s : State) (f : Nat) : (State.bmeOn s f).glb.locks = s.glb.locks := by simp [State.bmeOn]
@[simp] theorem State.tallyRemoved_locks (s : State) (c : Cmd) : (State.tallyRemoved s c).glb.locks = s.glb.locks := by simp [State.tallyRemoved]
@[simp] theorem State.removeCmd_locks (s : State) (c : Cmd) : (State.removeCmd s c).glb.locks = s.glb.locks := by simp [State.removeCmd]
@[simp] theorem State.removeAll_locks (s : State) (cs : List Cmd) : (State.removeAll s cs).glb.locks = s.glb.locks := by simp [State.removeAll]
@[simp] theorem State.resetQueues_locks (s : State) (f : Nat) : (State.resetQueues s f).glb.locks = s.glb.locks := by simp [State.resetQueues]
@[simp] theorem State.resetRegs_locks (s : State) (f : Nat) : (State.resetRegs s f).glb.locks = s.glb.locks := by simp [State.resetRegs]
@[simp] theorem State.resetFn_locks (s : State) (f : Nat) : (State.resetFn s f).glb.locks = s.glb.locks := by simp [State.resetFn]
@[simp] theorem State.vfsOff_locks (s : State) (f : Nat) : (State.vfsOff s f).glb.locks = s.glb.locks := by simp [State.vfsOff]
@[simp] theorem State.flr_locks (s : State) (f : Nat) : (State.flr s f).glb.locks = s.glb.locks := by simp [State.flr]
@[simp] theorem State.modHalf_locks (s : State) (p : Nat) (h : Bool) (g : Link → Link) : (State.modHalf s p h g).glb.locks = s.glb.locks := by simp [State.modHalf]
@[simp] theorem State.linkDown_locks (s : State) (p : Nat) (h : Bool) : (State.linkDown s p h).glb.locks = s.glb.locks := by simp [State.linkDown]
@[simp] theorem State.ramStore_locks (n : Nat) (s : State) (k : Nat) (bs : List Byte) : (State.ramStore n s k bs).glb.locks = s.glb.locks := by
  induction n generalizing s k bs with
  | zero => rfl
  | succ n ih =>
    unfold State.ramStore
    split
    · rfl
    · dsimp only; rw [ih]; split <;> simp
@[simp] theorem State.decodeBar2_locks (s : State) (p : Nat) (t : HeldTlp) : (State.decodeBar2 s p t).glb.locks = s.glb.locks := by simp [State.decodeBar2]
@[simp] theorem State.bar2_locks (s : State) (p : Nat) (t : HeldTlp) : (State.bar2 s p t).glb.locks = s.glb.locks := by simp [State.bar2]
@[simp] theorem State.commitWindow_locks (s : State) (p : Nat) (val : Word) : (State.commitWindow s p val).glb.locks = s.glb.locks := by simp [State.commitWindow]
@[simp] theorem State.moveSteward_locks (s : State) (p : Nat) : (State.moveSteward s p).glb.locks = s.glb.locks := by simp [State.moveSteward]
@[simp] theorem State.writeSteward_locks (s : State) (t : Nat) : (State.writeSteward s t).glb.locks = s.glb.locks := by simp [State.writeSteward]
@[simp] theorem State.predictGate_locks (s : State) (a cls : Nat) : (State.predictGate s a cls).glb.locks = s.glb.locks := by simp [State.predictGate]
@[simp] theorem State.wedgeSeen_locks (s : State) (a cls : Nat) (w : BitVec 10) : (State.wedgeSeen s a cls w).glb.locks = s.glb.locks := by simp [State.wedgeSeen]
@[simp] theorem State.skipWedge_locks (s : State) (a : Nat) : (State.skipWedge s a).glb.locks = s.glb.locks := by simp [State.skipWedge]
@[simp] theorem State.watchFrozen_locks (s : State) (a : Nat) (r : PosRec) : (State.watchFrozen s a r).glb.locks = s.glb.locks := by simp [State.watchFrozen]
@[simp] theorem State.frozen_locks (s : State) (a : Nat) : (State.frozen s a).glb.locks = s.glb.locks := by simp [State.frozen]
@[simp] theorem State.badRecord_locks (s : State) (a cls : Nat) : (State.badRecord s a cls).glb.locks = s.glb.locks := by simp [State.badRecord]
@[simp] theorem State.goodRecord_locks (s : State) (a : Nat) (r : PosRec) : (State.goodRecord s a r).glb.locks = s.glb.locks := by simp [State.goodRecord]
@[simp] theorem State.position_locks (s : State) (a : Nat) (rec : BitVec 128) : (State.position s a rec).glb.locks = s.glb.locks := by simp [State.position]
@[simp] theorem State.seekDone_locks (s : State) (a : Nat) : (State.seekDone s a).glb.locks = s.glb.locks := by simp [State.seekDone]
@[simp] theorem State.enterFollow_locks (s : State) (a : Nat) : (State.enterFollow s a).glb.locks = s.glb.locks := by simp [State.enterFollow]
@[simp] theorem State.toMode_locks (s : State) (a : Nat) (m : BitVec 3) : (State.toMode s a m).glb.locks = s.glb.locks := by simp [State.toMode]
@[simp] theorem State.loadFailed_locks (s : State) (a : Nat) : (State.loadFailed s a).glb.locks = s.glb.locks := by simp [State.loadFailed]
@[simp] theorem State.modeStep_locks (s : State) (a : Nat) (ok inWindow : Bool) : (State.modeStep s a ok inWindow).glb.locks = s.glb.locks := by simp [State.modeStep]
@[simp] theorem State.queueRunout_locks (s : State) (a h : Nat) : (State.queueRunout s a h).glb.locks = s.glb.locks := by simp [State.queueRunout]
@[simp] theorem State.runLoop_locks (s : State) (a : Nat) (o : LawOut) : (State.runLoop s a o).glb.locks = s.glb.locks := by unfold State.runLoop; (repeat' split) <;> simp
@[simp] theorem State.overrunRun_locks (s : State) (a : Nat) (o : LawOut) (budget : Nat) : (State.overrunRun s a o budget).glb.locks = s.glb.locks := by simp [State.overrunRun]
@[simp] theorem State.lineFault_locks (s : State) (a : Nat) (o : LawOut) (k : Nat) : (State.lineFault s a o k).glb.locks = s.glb.locks := by simp [State.lineFault]
@[simp] theorem State.spinOverrun_locks (s : State) (b : Nat) : (State.spinOverrun s b).glb.locks = s.glb.locks := by simp [State.spinOverrun]
@[simp] theorem State.takeMig_locks (s : State) (a : Nat) (mirrorOk : Bool) : (State.takeMig s a mirrorOk).glb.locks = s.glb.locks := by simp [State.takeMig]
@[simp] theorem State.loopReply_locks (s : State) (k reason n : Nat) : (State.loopReply s k reason n).glb.locks = s.glb.locks := by simp [State.loopReply]
@[simp] theorem State.endLeRetest_locks (s : State) (k n : Nat) (pass : Bool) : (State.endLeRetest s k n pass).glb.locks = s.glb.locks := by simp [State.endLeRetest]
@[simp] theorem State.diagWrite_locks (s : State) (f : Nat) (k : State → State) (hk : ∀ x0, (k x0).glb.locks = x0.glb.locks) : (State.diagWrite s f k).glb.locks = s.glb.locks := by unfold State.diagWrite; (try dsimp only); (repeat' split) <;> (try simp_all)
@[simp] theorem State.modPwr_locks (s : State) (g : Pwr → Pwr) : (State.modPwr s g).glb.locks = s.glb.locks := by simp [State.modPwr]
@[simp] theorem State.ceilingMoved_locks (s : State) (b : Nat) : (State.ceilingMoved s b).glb.locks = s.glb.locks := by simp [State.ceilingMoved]
@[simp] theorem State.ceilingsFrom_locks (s old : State) : (State.ceilingsFrom s old).glb.locks = s.glb.locks := by simp [State.ceilingsFrom]
@[simp] theorem State.reproject_locks (s : State) : (State.reproject s).glb.locks = s.glb.locks := by simp [State.reproject]
@[simp] theorem State.reachIdle_locks (s : State) (b : Nat) : (State.reachIdle s b).glb.locks = s.glb.locks := by simp [State.reachIdle]
@[simp] theorem State.calAtGait_locks (s : State) (b : Nat) : (State.calAtGait s b).glb.locks = s.glb.locks := by simp [State.calAtGait]
@[simp] theorem State.locked_locks (s : State) (b : Nat) : (State.locked s b).glb.locks = s.glb.locks := by simp [State.locked]
@[simp] theorem State.endWrites_locks (s : State) (b : Nat) : (State.endWrites s b).glb.locks = s.glb.locks := by simp [State.endWrites]
@[simp] theorem State.beginAlign_locks (s : State) (b : Nat) : (State.beginAlign s b).glb.locks = s.glb.locks := by simp [State.beginAlign]
@[simp] theorem State.beginSpin_locks (s : State) (b : Nat) : (State.beginSpin s b).glb.locks = s.glb.locks := by simp [State.beginSpin]
@[simp] theorem State.spinFailed_locks (s : State) (b : Nat) : (State.spinFailed s b).glb.locks = s.glb.locks := by simp [State.spinFailed]
@[simp] theorem State.startFloat_locks (s : State) (b : Nat) : (State.startFloat s b).glb.locks = s.glb.locks := by simp [State.startFloat]
@[simp] theorem State.observerLost_locks (s : State) (b : Nat) : (State.observerLost s b).glb.locks = s.glb.locks := by simp [State.observerLost]
@[simp] theorem State.atRest_locks (s : State) (b : Nat) : (State.atRest s b).glb.locks = s.glb.locks := by simp [State.atRest]
@[simp] theorem State.linkDetect_locks (s : State) (a : Nat) : (State.linkDetect s a).glb.locks = s.glb.locks := by simp [State.linkDetect]
@[simp] theorem State.faultCoast_locks (s : State) (b : Nat) : (State.faultCoast s b).glb.locks = s.glb.locks := by simp [State.faultCoast]
@[simp] theorem State.zeroCross_locks (s : State) (b : Nat) (rep : BitVec 64) : (State.zeroCross s b rep).glb.locks = s.glb.locks := by simp [State.zeroCross]
@[simp] theorem State.revolution_locks (s : State) (b n t : Nat) : (State.revolution s b n t).glb.locks = s.glb.locks := by simp [State.revolution]
@[simp] theorem State.spinReport_locks (s : State) (b : Nat) (rep : BitVec 64) : (State.spinReport s b rep).glb.locks = s.glb.locks := by simp [State.spinReport]
@[simp] theorem State.spinTick_locks (s : State) (b : Nat) : (State.spinTick s b).glb.locks = s.glb.locks := by simp [State.spinTick]
@[simp] theorem State.relocked_locks (s : State) (b : Nat) (cs : List (Nat × Nat)) : (State.relocked s b cs).glb.locks = s.glb.locks := by simp [State.relocked]
@[simp] theorem State.slowLower_locks (s : State) (b : Nat) : (State.slowLower s b).glb.locks = s.glb.locks := by simp [State.slowLower]
@[simp] theorem State.regenStops_locks (s : State) (d : Nat) : (State.regenStops s d).glb.locks = s.glb.locks := by simp [State.regenStops]
@[simp] theorem State.busCoasts_locks (s : State) (d : Nat) : (State.busCoasts s d).glb.locks = s.glb.locks := by simp [State.busCoasts]
@[simp] theorem State.coastEnds_locks (s : State) (d : Nat) : (State.coastEnds s d).glb.locks = s.glb.locks := by simp [State.coastEnds]
@[simp] theorem State.bayFault_locks (s : State) (b : Nat) : (State.bayFault s b).glb.locks = s.glb.locks := by simp [State.bayFault]
@[simp] theorem State.startBasic_locks (s : State) (a : Nat) : (State.startBasic s a).glb.locks = s.glb.locks := by simp [State.startBasic]
@[simp] theorem State.bringUp_locks (s : State) (b : Nat) : (State.bringUp s b).glb.locks = s.glb.locks := by simp [State.bringUp]
@[simp] theorem State.retarget_locks (s : State) (b g : Nat) : (State.retarget s b g).glb.locks = s.glb.locks := by simp [State.retarget]
@[simp] theorem State.wake_locks (s : State) (b : Nat) : (State.wake s b).glb.locks = s.glb.locks := by simp [State.wake]
@[simp] theorem State.grantToken_locks (s : State) (b : Nat) : (State.grantToken s b).glb.locks = s.glb.locks := by simp [State.grantToken]
@[simp] theorem State.enterPower_locks (s : State) (b : Nat) (want : BitVec 2) : (State.enterPower s b want).glb.locks = s.glb.locks := by simp [State.enterPower]
@[simp] theorem State.powerState_locks (s : State) (r : Requester) (st : Nat) (g : State → Nat → State) (hg : ∀ x0 x1, (g x0 x1).glb.locks = x0.glb.locks) : (State.powerState s r st g).glb.locks = s.glb.locks := by
  unfold State.powerState
  rw [State.serve_locks]
  intro p
  dsimp only
  (repeat' split) <;> simp [State.each_locks, hg]
@[simp] theorem State.askReset_locks (s : State) (at' action : Nat) : (State.askReset s at' action).glb.locks = s.glb.locks := by simp [State.askReset]
@[simp] theorem State.watchdogReset_locks (s : State) : (State.watchdogReset s).glb.locks = s.glb.locks := by simp [State.watchdogReset]
@[simp] theorem State.restartHerd_locks (s : State) (h : Nat) : (State.restartHerd s h).glb.locks = s.glb.locks := by simp [State.restartHerd]
@[simp] theorem State.restartCore_locks (s : State) : (State.restartCore s).glb.locks = s.glb.locks := by simp [State.restartCore]
@[simp] theorem State.writeDir_locks (s : State) (a : Nat) : (State.writeDir s a).glb.locks = s.glb.locks := by simp [State.writeDir]
@[simp] theorem State.landStaged_locks (s : State) (a : Nat) (closed : Option Nat) : (State.landStaged s a closed).glb.locks = s.glb.locks := by
  unfold State.landStaged
  split
  · rfl
  · simp
    rw [State.each_locks]
    intro s a; split <;> simp
@[simp] theorem State.replayHold_locks (s : State) (a : Nat) : (State.replayHold s a).glb.locks = s.glb.locks := by simp [State.replayHold]
@[simp] theorem State.rebuildIndex_locks (s : State) (a : Nat) : (State.rebuildIndex s a).glb.locks = s.glb.locks := by simp [State.rebuildIndex]
@[simp] theorem State.replayIntents_locks (s : State) (a : Nat) : (State.replayIntents s a).glb.locks = s.glb.locks := by unfold State.replayIntents; (try dsimp only); (repeat' split) <;> (try simp) <;> (repeat' (first | (rw [State.each_locks]) | (intro _) | split)) <;> simp_all
@[simp] theorem State.scanZone_locks (s : State) (a n lba : Nat) : (State.scanZone s a n lba).glb.locks = s.glb.locks := by unfold State.scanZone; (try dsimp only); (repeat' split) <;> (try simp) <;> (repeat' (first | (rw [State.each_locks]) | (intro _) | split)) <;> simp_all
@[simp] theorem State.replayJournal_locks (s : State) (a : Nat) : (State.replayJournal s a).glb.locks = s.glb.locks := by simp [State.replayJournal]
@[simp] theorem State.zonesTo_locks (s : State) (a h : Nat) (st : ZState) : (State.zonesTo s a h st).glb.locks = s.glb.locks := by simp [State.zonesTo]
@[simp] theorem State.halfHeads_locks (s : State) : (State.halfHeads s).glb.locks = s.glb.locks := by simp [State.halfHeads]
@[simp] theorem State.wipe_locks (s : State) : (State.wipe s false).glb.locks = s.glb.locks := rfl
@[simp] theorem State.enterTrailhead_locks (s : State) (cause : Nat) : (State.enterTrailhead s cause).glb.locks = s.glb.locks := by simp [State.enterTrailhead]
@[simp] theorem State.beginStart_locks (s : State) (cause : Nat) : (State.beginStart s cause).glb.locks = s.glb.locks := by simp [State.beginStart]
@[simp] theorem State.failStart_locks (s : State) (cause : Nat) : (State.failStart s cause).glb.locks = s.glb.locks := by simp [State.failStart]
@[simp] theorem State.writeDev_locks (s : State) (typ : Nat) (body : List Byte) : (State.writeDev s typ body).glb.locks = s.glb.locks := by simp [State.writeDev]
@[simp] theorem State.devFall_locks (s : State) (bad : List Nat) (typ : Nat) : (State.devFall s bad typ).glb.locks = s.glb.locks := by simp [State.devFall]
@[simp] theorem State.loadTrims_locks (s : State) (bad : List Nat) : (State.loadTrims s bad).glb.locks = s.glb.locks := by unfold State.loadTrims; (try dsimp only); (repeat' split) <;> simp
@[simp] theorem State.headFinal_locks (s : State) (a h : Nat) : (State.headFinal s a h).glb.locks = s.glb.locks := by simp [State.headFinal]
@[simp] theorem State.assistPasses_locks (s : State) (a h : Nat) (o : AsstCal) : (State.assistPasses s a h o).glb.locks = s.glb.locks := by simp [State.assistPasses]
@[simp] theorem State.assistFails_locks (s : State) (a h : Nat) : (State.assistFails s a h).glb.locks = s.glb.locks := by simp [State.assistFails]
@[simp] theorem State.channelDone_locks (s : State) (a h : Nat) (o : ChanCal) : (State.channelDone s a h o).glb.locks = s.glb.locks := by simp [State.channelDone]
@[simp] theorem State.servoDone_locks (s : State) (a h : Nat) (o : ChanCal) : (State.servoDone s a h o).glb.locks = s.glb.locks := by simp [State.servoDone]
@[simp] theorem State.queueCal_locks (s : State) (a h kind : Nat) : (State.queueCal s a h kind).glb.locks = s.glb.locks := by simp [State.queueCal]
@[simp] theorem State.grazeSays_locks (s : State) (r : Requester) (reason : Nat) : (State.grazeSays s r reason).glb.locks = s.glb.locks := by simp [State.grazeSays]
@[simp] theorem State.recal_locks (s : State) (r : Requester) (kind : Nat) (g : State → Nat → Nat → State) (hg : ∀ x0 x1 x2, (g x0 x1 x2).glb.locks = x0.glb.locks) : (State.recal s r kind g).glb.locks = s.glb.locks := by unfold State.recal; (try dsimp only); (repeat' split) <;> (try simp_all)
@[simp] theorem State.refreshSpn_locks (s : State) (b : Nat) : (State.refreshSpn s b).glb.locks = s.glb.locks := by simp [State.refreshSpn]
@[simp] theorem State.loopLost_locks (s : State) (a : Nat) : (State.loopLost s a).glb.locks = s.glb.locks := by simp [State.loopLost]
@[simp] theorem State.linkLost_locks (s : State) (a : Nat) (dWorks : Bool) : (State.linkLost s a dWorks).glb.locks = s.glb.locks := by simp [State.linkLost]
@[simp] theorem State.refreshSingle_locks (s : State) (a : Nat) : (State.refreshSingle s a).glb.locks = s.glb.locks := by simp [State.refreshSingle]
@[simp] theorem State.laneFails_locks (s : State) (a : Nat) (u1 lock : Bool) : (State.laneFails s a u1 lock).glb.locks = s.glb.locks := by simp [State.laneFails]
@[simp] theorem State.telemetry_locks (s : State) (a : Nat) (e : BitVec 64) : (State.telemetry s a e).glb.locks = s.glb.locks := by unfold State.telemetry; (repeat' split) <;> simp
@[simp] theorem State.downErrors_locks (s : State) (a : Nat) (cnt : BitVec 8) : (State.downErrors s a cnt).glb.locks = s.glb.locks := by simp [State.downErrors]
@[simp] theorem State.badFrame_locks (s : State) (a : Nat) (u1 lock : Bool) : (State.badFrame s a u1 lock).glb.locks = s.glb.locks := by simp [State.badFrame]
@[simp] theorem State.bringSpin_locks (s : State) (b : Nat) : (State.bringSpin s b).glb.locks = s.glb.locks := by simp [State.bringSpin]
@[simp] theorem State.trainingOver_locks (s : State) (b : Nat) : (State.trainingOver s b).glb.locks = s.glb.locks := by simp [State.trainingOver]
@[simp] theorem State.trainFailed_locks (s : State) (a : Nat) : (State.trainFailed s a).glb.locks = s.glb.locks := by simp [State.trainFailed]
@[simp] theorem State.useDesc_locks (s : State) (b : Nat) (d : Descriptor) : (State.useDesc s b d).glb.locks = s.glb.locks := by simp [State.useDesc]
@[simp] theorem State.descEnd_locks (s : State) (a : Nat) (d : Descriptor) (late : Bool) : (State.descEnd s a d late).glb.locks = s.glb.locks := by simp [State.descEnd]
@[simp] theorem State.linkReady_locks (s : State) (a : Nat) (o : TrainOut) (k0 k1 : Bool) : (State.linkReady s a o k0 k1).glb.locks = s.glb.locks := by simp [State.linkReady]
@[simp] theorem State.settleMedia_locks (s : State) (b : Nat) : (State.settleMedia s b).glb.locks = s.glb.locks := by simp [State.settleMedia]
@[simp] theorem State.settleWaiting_locks (s : State) : (State.settleWaiting s).glb.locks = s.glb.locks := by simp [State.settleWaiting]
@[simp] theorem State.actGone_locks (s : State) (a : Nat) : (State.actGone s a).glb.locks = s.glb.locks := by simp [State.actGone]
@[simp] theorem State.absentRec_locks (s : State) (a kind : Nat) : (State.absentRec s a kind).glb.locks = s.glb.locks := by simp [State.absentRec]
@[simp] theorem State.checkRecs_locks (s : State) (a side : Nat) (c : CalData) : (State.checkRecs s a side c).glb.locks = s.glb.locks := by simp [State.checkRecs]
@[simp] theorem State.calSide_locks (s : State) (a side : Nat) (c : CalData) : (State.calSide s a side c).glb.locks = s.glb.locks := by
  unfold State.calSide
  dsimp only
  rw [State.refreshSingle_locks, State.each_locks]
  · rw [State.checkRecs_locks, State.offerSet_locks]
    (repeat' split) <;> simp
  · intro s a; split <;> (try split) <;> simp
@[simp] theorem State.markHead_locks (s : State) (a h kind : Nat) : (State.markHead s a h kind).glb.locks = s.glb.locks := by simp [State.markHead]
@[simp] theorem State.checkFails_locks (s : State) (a h kind : Nat) : (State.checkFails s a h kind).glb.locks = s.glb.locks := by simp [State.checkFails]
@[simp] theorem State.linkReply_locks (s : State) (k reason a : Nat) (data : List Byte) : (State.linkReply s k reason a data).glb.locks = s.glb.locks := by simp [State.linkReply]
@[simp] theorem State.modThm_locks (s : State) (g : Thm → Thm) : (State.modThm s g).glb.locks = s.glb.locks := by simp [State.modThm]
@[simp] theorem State.endBayFlush_locks (s : State) (b : Nat) : (State.endBayFlush s b).glb.locks = s.glb.locks := by simp [State.endBayFlush]
@[simp] theorem State.bayEmergency_locks (s : State) (b : Nat) : (State.bayEmergency s b).glb.locks = s.glb.locks := by simp [State.bayEmergency]
@[simp] theorem State.stopGrazing_locks (s : State) (a : Nat) (h : Option Nat) : (State.stopGrazing s a h).glb.locks = s.glb.locks := by simp [State.stopGrazing]
@[simp] theorem State.bayEvent_locks (s old : State) (b : Nat) : (State.bayEvent s old b).glb.locks = s.glb.locks := by simp [State.bayEvent]
@[simp] theorem State.bayStep_locks (s : State) (b : Nat) (x : Scope) (kind3 : Bool) : (State.bayStep s b x kind3).glb.locks = s.glb.locks := by simp [State.bayStep]
@[simp] theorem State.dieStep_locks (s : State) (x : Scope) : (State.dieStep s x).glb.locks = s.glb.locks := by simp [State.dieStep]
@[simp] theorem State.headStep_locks (s : State) (a h : Nat) (x : Scope) : (State.headStep s a h x).glb.locks = s.glb.locks := by simp [State.headStep]
@[simp] theorem State.thermalReply_locks (s : State) (k b : Nat) : (State.thermalReply s k b).glb.locks = s.glb.locks := by simp [State.thermalReply]
@[simp] theorem State.thermalCtrl_locks (s : State) (r : Requester) (act : Nat) (own : Nat → Nat → Nat) (k : State → Nat → Nat → State) (hk : ∀ x0 x1 x2, (k x0 x1 x2).glb.locks = x0.glb.locks) : (State.thermalCtrl s r act own k).glb.locks = s.glb.locks := by unfold State.thermalCtrl; (try dsimp only); (repeat' split) <;> (try simp_all)
@[simp] theorem State.modCache_locks (s : State) (g : CacheSt → CacheSt) : (State.modCache s g).glb.locks = s.glb.locks := by simp [State.modCache]
@[simp] theorem State.startWalk_locks (s : State) (g : Nat) : (State.startWalk s g).glb.locks = s.glb.locks := by simp [State.startWalk]
@[simp] theorem State.wantGroup_locks (s : State) (g : Nat) : (State.wantGroup s g).glb.locks = s.glb.locks := by simp [State.wantGroup]
@[simp] theorem State.disableGroup_locks (s : State) (g : Nat) : (State.disableGroup s g).glb.locks = s.glb.locks := by simp [State.disableGroup]
@[simp] theorem State.enableGroup_locks (s : State) (g : Nat) : (State.enableGroup s g).glb.locks = s.glb.locks := by simp [State.enableGroup]
@[simp] theorem State.disableCache_locks (s : State) : (State.disableCache s).glb.locks = s.glb.locks := by simp [State.disableCache]
@[simp] theorem State.enableCache_locks (s : State) : (State.enableCache s).glb.locks = s.glb.locks := by simp [State.enableCache]
@[simp] theorem State.endWalk_locks (s : State) (g : Nat) : (State.endWalk s g).glb.locks = s.glb.locks := by simp [State.endWalk]
@[simp] theorem State.faultGroup_locks (s : State) (g : Nat) : (State.faultGroup s g).glb.locks = s.glb.locks := by simp [State.faultGroup]
@[simp] theorem State.poisonSlot_locks (s : State) (order : Nat) : (State.poisonSlot s order).glb.locks = s.glb.locks := by unfold State.poisonSlot; (try dsimp only); (repeat' split) <;> simp
@[simp] theorem State.fixedNow_locks (s : State) (key : Nat) : (State.fixedNow s key).glb.locks = s.glb.locks := by simp [State.fixedNow]
@[simp] theorem State.remapLine_locks (s : State) (x : Nat) : (State.remapLine s x).glb.locks = s.glb.locks := by simp [State.remapLine]
@[simp] theorem State.softRepair_locks (s : State) (x : SoftRec) : (State.softRepair s x).glb.locks = s.glb.locks := by simp [State.softRepair]
@[simp] theorem State.poisonOutcome_locks (s : State) (u : LineUse) : (s.poisonOutcome u).glb.locks = s.glb.locks := by
  cases u <;> simp only [State.poisonOutcome] <;> (try (repeat' split)) <;> simp
@[simp] theorem State.repairOutcome_locks (s : State) (u : LineUse) : (s.repairOutcome u).glb.locks = s.glb.locks := by
  cases u <;> simp only [State.repairOutcome] <;> (try (repeat' split)) <;> simp
@[simp] theorem State.poisonAt_locks (s : State) (x : Nat) (use : LineUse) : (State.poisonAt s x use).glb.locks = s.glb.locks := by simp [State.poisonAt]
@[simp] theorem State.scrubDram_locks (s : State) (r : ScrubRead) : (State.scrubDram s r).glb.locks = s.glb.locks := by simp [State.scrubDram]
@[simp] theorem State.scrubHeld_locks (s : State) (r : ScrubRead) (l : Line) : (State.scrubHeld s r l).glb.locks = s.glb.locks := by simp [State.scrubHeld]
@[simp] theorem State.scrubSram_locks (s : State) (r : ScrubRead) : (State.scrubSram s r).glb.locks = s.glb.locks := by simp [State.scrubSram]
@[simp] theorem State.layoutReply_locks (s : State) (k reason : Nat) (g : Nat → Area) : (State.layoutReply s k reason g).glb.locks = s.glb.locks := by simp [State.layoutReply]
@[simp] theorem State.layoutSays_locks (s : State) (k reason : Nat) : (State.layoutSays s k reason).glb.locks = s.glb.locks := by simp [State.layoutSays]
@[simp] theorem State.clearPoison_locks (s : State) (e : PoisonEnt) : (State.clearPoison s e).glb.locks = s.glb.locks := by simp [State.clearPoison]
@[simp] theorem State.fwReply_locks (s : State) (k reason slot : Nat) : (State.fwReply s k reason slot).glb.locks = s.glb.locks := by simp [State.fwReply]
theorem State.refusedAction_locks (s t : State) (k op : Nat) (p : List Byte) (h : s.refusedAction k op p = some t) : t.glb.locks = s.glb.locks := by
  revert t
  unfold State.refusedAction
  dsimp only
  repeat' apply ite_some_locks
  all_goals simp
@[simp] theorem State.goMbx_locks (s : State) (k : Nat) (seq : BitVec 16) : (State.goMbx s k seq).glb.locks = s.glb.locks := by
  unfold State.goMbx
  dsimp only
  (repeat' split) <;> try simp
  cases h : State.refusedAction _ _ _ _ with
  | none => simp
  | some t => simpa using State.refusedAction_locks _ _ _ _ _ h
@[simp] theorem State.writeReqbuf_locks (s : State) (k off : Nat) (data : List Byte) : (State.writeReqbuf s k off data).glb.locks = s.glb.locks := by simp [State.writeReqbuf]
@[simp] theorem State.writeMbxReq_locks (s : State) (k : Nat) (op len : BitVec 16) : (State.writeMbxReq s k op len).glb.locks = s.glb.locks := by simp [State.writeMbxReq]
@[simp] theorem State.sqGone_locks (s : State) (k key : Nat) : (State.sqGone s k key).glb.locks = s.glb.locks := by simp [State.sqGone]
@[simp] theorem State.smbus_locks (s : State) (pec : Bool) (g : State → State) (hg : ∀ x0, (g x0).glb.locks = x0.glb.locks) : (State.smbus s pec g).glb.locks = s.glb.locks := by unfold State.smbus; (try dsimp only); (repeat' split) <;> (try simp_all)
@[simp] theorem State.unfetch_locks (s : State) (key : Nat) : (State.unfetch s key).glb.locks = s.glb.locks := by simp [State.unfetch]
@[simp] theorem State.dropSaved_locks (s : State) (i : Nat) : (State.dropSaved s i).glb.locks = s.glb.locks := by simp [State.dropSaved]
@[simp] theorem State.loseSlots_locks (s : State) (a : Nat) : (State.loseSlots s a).glb.locks = s.glb.locks := by simp [State.loseSlots]
@[simp] theorem State.islandEffect_locks (s : State) (i : Nat) : (State.islandEffect s i).glb.locks = s.glb.locks := by simp [State.islandEffect]
@[simp] theorem State.resetIsland_locks (s : State) (i : Nat) (flight : Tab Nat) : (State.resetIsland s i flight).glb.locks = s.glb.locks := by simp [State.resetIsland]
@[simp] theorem State.askIslandReset_locks (s : State) (i : Nat) (flight : Tab Nat) : (State.askIslandReset s i flight).glb.locks = s.glb.locks := by simp [State.askIslandReset]
@[simp] theorem State.modClk_locks (s : State) (g : Clk → Clk) : (State.modClk s g).glb.locks = s.glb.locks := by simp [State.modClk]
@[simp] theorem State.discipline_locks (s : State) : (State.discipline s).glb.locks = s.glb.locks := by simp [State.discipline]
@[simp] theorem State.raiseGen_locks (s : State) (slot nsid : Nat) : (State.raiseGen s slot nsid).glb.locks = s.glb.locks := by simp [State.raiseGen]
@[simp] theorem State.dropNs_locks (s : State) (n : Nat) : (State.dropNs s n).glb.locks = s.glb.locks := by simp [State.dropNs]
@[simp] theorem State.stageGrant_locks (s : State) (r : Requester) (g : Bool) : (State.stageGrant s r g).glb.locks = s.glb.locks := by simp [State.stageGrant]
@[simp] theorem State.attach_locks (s : State) (n f : Nat) (on : Bool) : (State.attach s n f on).glb.locks = s.glb.locks := by simp [State.attach]
@[simp] theorem State.serveAttach_locks (s : State) (r : Requester) (g : Bool) : (State.serveAttach s r g).glb.locks = s.glb.locks := by simp [State.serveAttach]
@[simp] theorem State.putGrant_locks (s : State) (g : StagedGrant) : (State.putGrant s g).glb.locks = s.glb.locks := by simp [State.putGrant]
@[simp] theorem State.epochApplied_locks (s : State) : (State.epochApplied s).glb.locks = s.glb.locks := by simp [State.epochApplied]
@[simp] theorem State.reweigh_locks (s : State) (a : Nat) (was now : EpochCfg) : (State.reweigh s a was now).glb.locks = s.glb.locks := by simp [State.reweigh]
@[simp] theorem State.writePortRec_locks (s : State) (r : PortRec) : (State.writePortRec s r).glb.locks = s.glb.locks := by simp [State.writePortRec]
@[simp] theorem State.tallyRing_locks (s : State) (r : Requester) (act : Nat) (g : State → Nat → List Byte → Nat × State)
    (hg : ∀ s k p, (g s k p).2.glb.locks = s.glb.locks) : (s.tallyRing r act g).glb.locks = s.glb.locks := by
  unfold State.tallyRing
  rw [State.serve_locks]
  intro p
  dsimp only
  simp
  (repeat' split) <;> simp_all
@[simp] theorem State.tallyWrite_locks (s : State) (key : Nat) (body : List Byte) : (State.tallyWrite s key body).glb.locks = s.glb.locks := by simp [State.tallyWrite]
@[simp] theorem State.modSlot_locks (s : State) (n : Nat) (g : Slot → Slot) : (State.modSlot s n g).glb.locks = s.glb.locks := by simp [State.modSlot]
@[simp] theorem State.loadLayout_locks (s : State) (bad : List Nat) : (State.loadLayout s bad).glb.locks = s.glb.locks := by unfold State.loadLayout; (repeat' split) <;> simp
@[simp] theorem State.softApply_locks (s : State) (lost : List Nat) : (State.softApply s lost).glb.locks = s.glb.locks := by simp [State.softApply]
@[simp] theorem State.replaceLe_locks (s : State) (n : Nat) : (State.replaceLe s n).glb.locks = s.glb.locks := by
  unfold State.replaceLe
  dsimp only
  rw [State.each_locks, State.each_locks]
  · simp
  · intro s a; split <;> simp
  · intro s a; split <;> simp
@[simp] theorem State.resumeFormat_locks (s : State) (o : FmtOp) : (State.resumeFormat s o).glb.locks = s.glb.locks := by simp [State.resumeFormat]
@[simp] theorem State.resumeSan_locks (s : State) (o : SanOp) : (State.resumeSan s o).glb.locks = s.glb.locks := by simp [State.resumeSan]
@[simp] theorem State.islandsUp_locks (s : State) : (State.islandsUp s).glb.locks = s.glb.locks := by simp [State.islandsUp]
@[simp] theorem State.herdsUp_locks (s : State) (img : SlotCheck) : (State.herdsUp s img).glb.locks = s.glb.locks := by simp [State.herdsUp]
@[simp] theorem State.completeStart_locks (s : State) (img : SlotCheck) (failedDe failedLe : List Nat) : (State.completeStart s img failedDe failedLe).glb.locks = s.glb.locks := by simp [State.completeStart]
@[simp] theorem State.serveReset_locks (s : State) (r : Requester) (action : Nat) : (State.serveReset s r action).glb.locks = s.glb.locks := by simp [State.serveReset]
@[simp] theorem State.writeCommand_locks (s : State) (f : Nat) (v : BitVec 64) : (State.writeCommand s f v).glb.locks = s.glb.locks := by simp [State.writeCommand]
@[simp] theorem State.writeCfg_locks (s : State) (f : Nat) (sp : RegSpace) (i : Nat) (v : BitVec 64) : (State.writeCfg s f sp i v).glb.locks = s.glb.locks := by unfold State.writeCfg; (repeat' split) <;> simp
@[simp] theorem State.serveFw_locks (s : State) (r : Requester) (act : Nat) (ok : List Byte → Bool)
    (go : State → List Byte → State × Nat) (hg : ∀ s p, (go s p).1.glb.locks = s.glb.locks) : (s.serveFw r act ok go).glb.locks = s.glb.locks := by
  unfold State.serveFw
  rw [State.serve_locks]
  intro p
  dsimp only
  (repeat' split) <;> simp_all
@[simp] theorem State.prefer_locks (s : State) (n : Nat) : (State.prefer s n).glb.locks = s.glb.locks := by simp [State.prefer]
@[simp] theorem State.placeHolds_locks (s : State) (x : Act16) (u : Nat) : (State.placeHolds s x u).glb.locks = s.glb.locks := by simp [State.placeHolds]
@[simp] theorem State.endHold_locks (s : State) (as : List Nat) : (State.endHold s as).glb.locks = s.glb.locks := by simp [State.endHold]
@[simp] theorem State.actOver_locks (s : State) (st comp : Nat) : (State.actOver s st comp).glb.locks = s.glb.locks := by simp [State.actOver]
@[simp] theorem State.actDone_locks (s : State) (x : Act16) : (State.actDone s x).glb.locks = s.glb.locks := by simp [State.actDone]
@[simp] theorem State.rollNext_locks (s : State) (x : Act16) : (State.rollNext s x).glb.locks = s.glb.locks := by unfold State.rollNext; (repeat' split) <;> simp
@[simp] theorem State.actFails_locks (s : State) (x : Act16) (type : Nat) : (State.actFails s x type).glb.locks = s.glb.locks := by simp [State.actFails]
@[simp] theorem State.goUnit_locks (s : State) (x : Act16) (u : Nat) : (State.goUnit s x u).glb.locks = s.glb.locks := by simp [State.goUnit]
@[simp] theorem State.unitDone_locks (s : State) (x : Act16) : (State.unitDone s x).glb.locks = s.glb.locks := by simp [State.unitDone]
@[simp] theorem State.endRoutine_locks (s : State) (a : Nat) : (State.endRoutine s a).glb.locks = s.glb.locks := by simp [State.endRoutine]
@[simp] theorem State.beginFlush_locks (s : State) (a : Nat) : (State.beginFlush s a).glb.locks = s.glb.locks := by simp [State.beginFlush]
@[simp] theorem State.quarReply_locks (s : State) (k reason b : Nat) : (State.quarReply s k reason b).glb.locks = s.glb.locks := by simp [State.quarReply]
@[simp] theorem State.keyReply_locks (s : State) (k reason x : Nat) (blob : List Byte) : (State.keyReply s k reason x blob).glb.locks = s.glb.locks := by simp [State.keyReply]
@[simp] theorem State.sanReply_locks (s : State) (k reason id : Nat) : (State.sanReply s k reason id).glb.locks = s.glb.locks := by simp [State.sanReply]
@[simp] theorem State.enterSanitize_locks (s : State) (kind : Nat) (ns : List Nat) : (State.enterSanitize s kind ns).glb.locks = s.glb.locks := by simp [State.enterSanitize]
@[simp] theorem State.serveSanitize_locks (s : State) (r : Requester) (kind : Nat) : (State.serveSanitize s r kind).glb.locks = s.glb.locks := by simp [State.serveSanitize]
@[simp] theorem State.afterRead_locks (s : State) (f off : Nat) : (State.afterRead s f off).glb.locks = s.glb.locks := by simp [State.afterRead]
@[simp] theorem State.read4_locks (s : State) (f off : Nat) : (s.read4 f off).2.glb.locks = s.glb.locks := by
  unfold State.read4; (repeat' split) <;> simp
@[simp] theorem State.readReg_locks (s : State) (f off : Nat) (wide : Bool) : (State.readReg s f off wide).glb.locks = s.glb.locks := by
  unfold State.readReg
  dsimp only
  split <;> simp
@[simp] theorem State.access_locks (s : State) (f off : Nat) (wide posted : Bool) (k : State → State) (hk : ∀ x0, (k x0).glb.locks = x0.glb.locks) : (State.access s f off wide posted k).glb.locks = s.glb.locks := by unfold State.access; (try dsimp only); (repeat' split) <;> (try simp_all)
@[simp] theorem State.readBar0_locks (s : State) (f off : Nat) (wide : Bool) : (State.readBar0 s f off wide).glb.locks = s.glb.locks := by simp [State.readBar0]
@[simp] theorem State.noteDebug_locks (s old : State) : (State.noteDebug s old).glb.locks = s.glb.locks := by simp [State.noteDebug]
@[simp] theorem State.writeFwkey_locks (s : State) (v : Word) : (State.writeFwkey s v).glb.locks = s.glb.locks := by simp [State.writeFwkey]
@[simp] theorem State.clearLatch_locks (s : State) (p n : Nat) (v : Word) : (State.clearLatch s p n v).glb.locks = s.glb.locks := by simp [State.clearLatch]
@[simp] theorem State.clearFnLatch_locks (s : State) (f : Nat) (v : Word) : (State.clearFnLatch s f v).glb.locks = s.glb.locks := by simp [State.clearFnLatch]
@[simp] theorem State.modSel_locks (s : State) (p : Nat) (g : PfSel → PfSel) : (State.modSel s p g).glb.locks = s.glb.locks := by simp [State.modSel]
@[simp] theorem State.modStaged_locks (s : State) (g : EpochCfg → EpochCfg) : (State.modStaged s g).glb.locks = s.glb.locks := by simp [State.modStaged]
@[simp] theorem State.writeStaged_locks (s : State) (off : Nat) (v : Word) : (State.writeStaged s off v).glb.locks = s.glb.locks := by simp [State.writeStaged]
@[simp] theorem State.writeLcCtrl_locks (s : State) (v : Word) : (State.writeLcCtrl s v).glb.locks = s.glb.locks := by simp [State.writeLcCtrl]
@[simp] theorem State.writeClk_locks (s : State) (v : Word) : (State.writeClk s v).glb.locks = s.glb.locks := by simp [State.writeClk]
@[simp] theorem State.writePort_locks (s : State) (p off : Nat) (v : Word) : (State.writePort s p off v).glb.locks = s.glb.locks := by simp [State.writePort]
@[simp] theorem State.clearXing_locks (s : State) (p : Nat) (v : Word) : (State.clearXing s p v).glb.locks = s.glb.locks := by simp [State.clearXing]
@[simp] theorem State.writeDiag_locks (s : State) (off : Nat) (v : Word) : (State.writeDiag s off v).glb.locks = s.glb.locks := by simp [State.writeDiag]
@[simp] theorem State.writeTalHead_locks (s : State) (f k : Nat) (v : Word) : (State.writeTalHead s f k v).glb.locks = s.glb.locks := by simp [State.writeTalHead]
@[simp] theorem State.writeDb_locks (s : State) (f o : Nat) (v : Word) : (State.writeDb s f o v).glb.locks = s.glb.locks := by simp [State.writeDb]
@[simp] theorem State.writeFn_locks (s : State) (f off : Nat) (v : Word) : (State.writeFn s f off v).glb.locks = s.glb.locks := by simp [State.writeFn]
end Sys2Proof.Machine
end

