-- ==== Sys2Proof/Laws/Ram.lean ====
section
/-! SUPPORT. What leaves the bytes of the staging DRAM alone: one lemma per operation of the block that writes none. -/
namespace Sys2Proof.Machine
open Sys2Proof
@[simp] theorem State.ite_ram (c : Prop) [Decidable c] (s t : State) : (if c then s else t).ram = if c then s.ram else t.ram := by split <;> rfl
@[simp] theorem State.foldl_ram {α : Type} (g : State → α → State) (hg : ∀ s a, (g s a).ram = s.ram) (l : List α) (s : State) : (l.foldl g s).ram = s.ram := by
  induction l generalizing s with
  | nil => rfl
  | cons a t ih => simp [ih, hg]
@[simp] theorem State.each_ram {α : Type} (s : State) (l : List α) (g : State → α → State) (hg : ∀ s a, (g s a).ram = s.ram) : (s.each l g).ram = s.ram := State.foldl_ram g hg l s
theorem ite_some_ram {c : Prop} [Decidable c] {a b : Option State} {v : List Host.Cell} (ha : ∀ t, a = some t → t.ram = v)
    (hb : ∀ t, b = some t → t.ram = v) : ∀ t, (if c then a else b) = some t → t.ram = v := by split <;> assumption
theorem foldl_fst_ram {α β : Type} (g : State × β → α → State × β) (hg : ∀ x a, (g x a).1.ram = x.1.ram) (l : List α) (x : State × β) : (l.foldl g x).1.ram = x.1.ram := by
  induction l generalizing x with
  | nil => rfl
  | cons a t ih => simp [ih, hg]

@[simp] theorem State.sendTlp_ram (s : State) (f : Nat) : (State.sendTlp s f).ram = s.ram := by simp [State.sendTlp]
@[simp] theorem State.raiseFns_ram (s : State) (fs : List Nat) (b : Nat) : (State.raiseFns s fs b).ram = s.ram := by simp [State.raiseFns]
@[simp] theorem State.ignoreWrite_ram (s : State) (f : Nat) : (State.ignoreWrite s f).ram = s.ram := by simp [State.ignoreWrite]
@[simp] theorem State.aerLog_ram (s : State) (f b : Nat) (adv : Bool) (hdr : Option Nat) : (State.aerLog s f b adv hdr).ram = s.ram := by simp [State.aerLog]
@[simp] theorem State.refuseReq_ram (s : State) (f cause : Nat) (posted : Bool) (hdr : Nat) : (State.refuseReq s f cause posted hdr).ram = s.ram := by unfold State.refuseReq; (repeat' split) <;> simp
@[simp] theorem State.refuseAny_ram (s : State) (f cause : Nat) (posted : Bool) : (State.refuseAny s f cause posted).ram = s.ram := by simp [State.refuseAny]
@[simp] theorem State.bar0_ram (s : State) (f : Nat) (posted : Bool) (k : State → State) (hk : ∀ x0, (k x0).ram = x0.ram) : (State.bar0 s f posted k).ram = s.ram := by unfold State.bar0; (try dsimp only); (repeat' split) <;> (try simp_all)
@[simp] theorem State.stewardWrite_ram (s : State) (f : Nat) (k : State → State) (hk : ∀ x0, (k x0).ram = x0.ram) : (State.stewardWrite s f k).ram = s.ram := by unfold State.stewardWrite; (try dsimp only); (repeat' split) <;> (try simp_all)
@[simp] theorem State.charge_ram (s : State) (f n : Nat) (g : Acc → Acc) : (State.charge s f n g).ram = s.ram := by simp [State.charge]
@[simp] theorem State.chargePoison_ram (s : State) (n : Nat) : (State.chargePoison s n).ram = s.ram := by simp [State.chargePoison]
@[simp] theorem State.tick_ram (s : State) : (State.tick s).ram = s.ram := by simp [State.tick]
@[simp] theorem State.mapFns_ram (s : State) (g : Nat → FnSt → FnSt) : (State.mapFns s g).ram = s.ram := by simp [State.mapFns]
@[simp] theorem State.mapCmds_ram (s : State) (g : Cmd → Cmd) : (State.mapCmds s g).ram = s.ram := by simp [State.mapCmds]
@[simp] theorem State.modStage_ram (s : State) (g : Staging → Staging) : (State.modStage s g).ram = s.ram := by simp [State.modStage]
@[simp] theorem State.mapR_ram (s : State) (g : RSlot → RSlot) : (State.mapR s g).ram = s.ram := by simp [State.mapR]
@[simp] theorem State.mapW_ram (s : State) (g : WSlot → WSlot) : (State.mapW s g).ram = s.ram := by simp [State.mapW]
@[simp] theorem State.mapRec_ram (s : State) (g : RecEntry → RecEntry) : (State.mapRec s g).ram = s.ram := by simp [State.mapRec]
@[simp] theorem State.mapFmt_ram (s : State) (g : FmtOp → FmtOp) : (State.mapFmt s g).ram = s.ram := by simp [State.mapFmt]
@[simp] theorem State.mapSan_ram (s : State) (g : SanOp → SanOp) : (State.mapSan s g).ram = s.ram := by simp [State.mapSan]
@[simp] theorem State.modMem_ram (s : State) (g : MemSt → MemSt) : (State.modMem s g).ram = s.ram := by simp [State.modMem]
@[simp] theorem State.modPool_ram (s : State) (g : Pool → Pool) : (State.modPool s g).ram = s.ram := by simp [State.modPool]
@[simp] theorem State.modBoot_ram (s : State) (g : Boot → Boot) : (State.modBoot s g).ram = s.ram := by simp [State.modBoot]
@[simp] theorem State.modCfg_ram (s : State) (g : Cfg → Cfg) : (State.modCfg s g).ram = s.ram := by simp [State.modCfg]
@[simp] theorem State.modGlb_ram (s : State) (g : Glb → Glb) : (State.modGlb s g).ram = s.ram := by simp [State.modGlb]
@[simp] theorem State.worn_ram (s : State) (a : Nat) (gs : List Nat) : (State.worn s a gs).ram = s.ram := by simp [State.worn]
@[simp] theorem State.setPlan_ram (s : State) (a : Nat) (q : List PlanOp) : (State.setPlan s a q).ram = s.ram := by simp [State.setPlan]
@[simp] theorem State.unplan_ram (s : State) (a id : Nat) : (State.unplan s a id).ram = s.ram := by simp [State.unplan]
@[simp] theorem State.replan_ram (s : State) (a : Nat) : (State.replan s a).ram = s.ram := by simp [State.replan]
@[simp] theorem State.replaceRead_ram (s : State) : (State.replaceRead s).ram = s.ram := by unfold State.replaceRead; (repeat' split) <;> simp
@[simp] theorem State.pin_ram (s : State) (id : Nat) (x : Sector) : (State.pin s id x).ram = s.ram := by simp [State.pin]
@[simp] theorem State.rewritten_ram (s : State) (n lba : Nat) : (State.rewritten s n lba).ram = s.ram := by simp [State.rewritten]
@[simp] theorem State.writeCommitted_ram (s : State) (n lba : Nat) : (State.writeCommitted s n lba).ram = s.ram := by simp [State.writeCommitted]
@[simp] theorem State.pruneStaged_ram (s : State) : (State.pruneStaged s).ram = s.ram := by simp [State.pruneStaged]
@[simp] theorem State.payAssist_ram (s : State) (a : Nat) (q : FmtCmd) (e : Nat) : (State.payAssist s a q e).ram = s.ram := by simp [State.payAssist]
@[simp] theorem State.sendAssist_ram (s : State) (a h : Nat) (lvl : AssistLevel) : (State.sendAssist s a h lvl).ram = s.ram := by simp [State.sendAssist]
@[simp] theorem State.openGate_ram (s : State) (a : Nat) (q : FmtCmd) : (State.openGate s a q).ram = s.ram := by simp [State.openGate]
@[simp] theorem State.closeGate_ram (s : State) (a : Nat) (lvl : AssistLevel) : (State.closeGate s a lvl).ram = s.ram := by unfold State.closeGate; (repeat' split) <;> simp
@[simp] theorem State.crossWedge_ram (s : State) (a : Nat) : (State.crossWedge s a).ram = s.ram := by unfold State.crossWedge; (repeat' split) <;> simp
@[simp] theorem State.cutQuantum_ram (s : State) (a : Nat) (r : Routine) : (State.cutQuantum s a r).ram = s.ram := by simp [State.cutQuantum]
@[simp] theorem State.wantSqueeze_ram (s : State) (a : Nat) (r : Routine) (c : Option FmtCmd) : (State.wantSqueeze s a r c).ram = s.ram := by unfold State.wantSqueeze; (repeat' split) <;> simp
@[simp] theorem State.lateInhibit_ram (s : State) (a : Nat) (cause : Option Nat) (toward : Bool) : (State.lateInhibit s a cause toward).ram = s.ram := by unfold State.lateInhibit; (try dsimp only); (repeat' split) <;> simp
@[simp] theorem State.abandonWrite_ram (s : State) (a : Nat) (cause : Option Nat) (toward : Bool) : (State.abandonWrite s a cause toward).ram = s.ram := by unfold State.abandonWrite; (repeat' split) <;> simp
@[simp] theorem State.putBack_ram (s : State) (a : Nat) : (State.putBack s a).ram = s.ram := by unfold State.putBack; (repeat' split) <;> simp
@[simp] theorem State.postEntry_ram (s : State) (f q : Nat) (c : Cpl) : (State.postEntry s f q c).ram = s.ram := by simp [State.postEntry]
@[simp] theorem State.releaseSlot_ram (s : State) (f q : Nat) : (State.releaseSlot s f q).ram = s.ram := by simp [State.releaseSlot]
@[simp] theorem State.tallyEnd_ram (s : State) (c : Cmd) (status : Nat) : (State.tallyEnd s c status).ram = s.ram := by simp [State.tallyEnd]
@[simp] theorem State.dropCmd_ram (s : State) (id : Nat) : (State.dropCmd s id).ram = s.ram := by simp [State.dropCmd]
@[simp] theorem State.ackStaged_ram (s : State) (id : Nat) : (State.ackStaged s id).ram = s.ram := by simp [State.ackStaged]
@[simp] theorem State.postCmd_ram (s : State) (c : Cmd) (status result : Nat) : (State.postCmd s c status result).ram = s.ram := by simp [State.postCmd]
@[simp] theorem State.queueRecovery_ram (s : State) (e : RecEntry) : (State.queueRecovery s e).ram = s.ram := by simp [State.queueRecovery]
@[simp] theorem State.dropAttempts_ram (s : State) (id : Nat) : (State.dropAttempts s id).ram = s.ram := by simp [State.dropAttempts]
@[simp] theorem State.release_ram (s : State) (c : Cmd) (ok : Bool) : (State.release s c ok).ram = s.ram := by simp [State.release]
@[simp] theorem State.postOrHold_ram (s : State) (c : Cmd) (status result : Nat) : (State.postOrHold s c status result).ram = s.ram := by simp [State.postOrHold]
@[simp] theorem State.recover_ram (s : State) (c : Cmd) : (s.recover c).1.ram = s.ram := by
  unfold State.recover; dsimp only; split <;> simp
@[simp] theorem State.endCmd_ram (s : State) (id status result : Nat) : (State.endCmd s id status result).ram = s.ram := by unfold State.endCmd; (repeat' split) <;> simp
@[simp] theorem State.postEarly_ram (s : State) : (State.postEarly s).ram = s.ram := by simp [State.postEarly]
@[simp] theorem State.removedFirst_ram (s : State) (b : Nat) : (State.removedFirst s b).ram = s.ram := by simp [State.removedFirst]
@[simp] theorem State.fixStatus_ram (s : State) (ids : List Nat) (status : Nat) : (State.fixStatus s ids status).ram = s.ram := by simp [State.fixStatus]
@[simp] theorem State.restores_ram (s : State) (id w : Nat) : (State.restores s id w).ram = s.ram := by simp [State.restores]
@[simp] theorem State.failZoneWrite_ram (s : State) (c : Cmd) : (State.failZoneWrite s c).ram = s.ram := by simp [State.failZoneWrite]
@[simp] theorem State.failZoneAction_ram (s : State) (c : Cmd) : (State.failZoneAction s c).ram = s.ram := by simp [State.failZoneAction]
@[simp] theorem State.undoZone_ram (s : State) (c : Cmd) : (State.undoZone s c).ram = s.ram := by simp [State.undoZone]
@[simp] theorem State.cutOffs_ram (s : State) (c : Cmd) : (State.cutOffs s c).ram = s.ram := by simp [State.cutOffs]
@[simp] theorem State.endAll_ram (s : State) (l : List (Nat × Nat × Nat)) : (State.endAll s l).ram = s.ram := by unfold State.endAll; (try dsimp only); (repeat' split) <;> (try simp) <;> (repeat' (first | (rw [State.each_ram]) | (intro _) | split)) <;> simp_all
@[simp] theorem State.commitStaged_ram (s : State) (c : Cmd) : (State.commitStaged s c).ram = s.ram := by simp [State.commitStaged]
@[simp] theorem State.drain_ram (s : State) : (State.drain s).ram = s.ram := by unfold State.drain; (try dsimp only); (repeat' split) <;> (try simp) <;> (repeat' (first | (rw [State.each_ram]) | (intro _) | split)) <;> simp_all
@[simp] theorem State.finish_ram (s : State) (id status result : Nat) : (State.finish s id status result).ram = s.ram := by simp [State.finish]
@[simp] theorem State.finishAll_ram (s : State) (ids : List Nat) (status : Nat) : (State.finishAll s ids status).ram = s.ram := by simp [State.finishAll]
@[simp] theorem State.cutOff_ram (s : State) (id : Nat) : (State.cutOff s id).ram = s.ram := by unfold State.cutOff; (repeat' split) <;> simp
@[simp] theorem State.capacityLoss_ram (s : State) (a : Nat) : (State.capacityLoss s a).ram = s.ram := by simp [State.capacityLoss]
@[simp] theorem State.serviceLost_ram (s : State) (a : Nat) (back : Option Nat) : (State.serviceLost s a back).ram = s.ram := by unfold State.serviceLost; (repeat' split) <;> simp
@[simp] theorem State.ringSq_ram (s : State) (f q i : Nat) : (State.ringSq s f q i).ram = s.ram := by unfold State.ringSq; (repeat' split) <;> simp
@[simp] theorem State.ringCq_ram (s : State) (f q i : Nat) : (State.ringCq s f q i).ram = s.ram := by unfold State.ringCq; (repeat' split) <;> simp
@[simp] theorem State.refreshNs_ram (s : State) : (State.refreshNs s).ram = s.ram := by simp [State.refreshNs]
@[simp] theorem State.failCheck_ram (s : State) (f q cq sqhd : Nat) (tag : Word) (status result : Nat) : (State.failCheck s f q cq sqhd tag status result).ram = s.ram := by simp [State.failCheck]
@[simp] theorem State.enterLedger_ram (s : State) (f q cq sqhd : Nat) (e : Entry) : (State.enterLedger s f q cq sqhd e).ram = s.ram := by simp [State.enterLedger]
@[simp] theorem State.runEntry_ram (s : State) (w : CheckWait) : (State.runEntry s w).ram = s.ram := by unfold State.runEntry; (try dsimp only); (repeat' split) <;> simp
@[simp] theorem State.checkEntry_ram (s : State) (w : CheckWait) (before : List CheckWait) : (State.checkEntry s w before).ram = s.ram := by simp [State.checkEntry]
@[simp] theorem State.runWaiting_ram (s : State) : (State.runWaiting s).ram = s.ram := by simp [State.runWaiting]
@[simp] theorem State.recordSegs_ram (s : State) (a : Nat) : (State.recordSegs s a).ram = s.ram := by simp [State.recordSegs]
@[simp] theorem State.landCheck_ram (s : State) (a : Nat) : (State.landCheck s a).ram = s.ram := by simp [State.landCheck]
@[simp] theorem State.startExit_ram (s : State) (b g pre mile : Nat) (tok : Bool) (kind : Nat) : (State.startExit s b g pre mile tok kind).ram = s.ram := by simp [State.startExit]
@[simp] theorem State.freed_ram (s : State) (a : Nat) : (State.freed s a).ram = s.ram := by simp [State.freed]
@[simp] theorem State.slotLimited_ram (s : State) (a : Nat) (l : Bool) : (State.slotLimited s a l).ram = s.ram := by simp [State.slotLimited]
@[simp] theorem State.holdCmd_ram (s : State) (c : Cmd) : (State.holdCmd s c).ram = s.ram := by simp [State.holdCmd]
@[simp] theorem State.refuse_ram (s : State) (c : Cmd) (act : Option Nat) (power : Bool) : (State.refuse s c act power).ram = s.ram := by unfold State.refuse; (repeat' split) <;> simp
@[simp] theorem State.admitCmd_ram (s : State) (c : Cmd) : (State.admitCmd s c).ram = s.ram := by simp [State.admitCmd]
@[simp] theorem State.aim_ram (s : State) (a : Nat) (o : PlanOp) : (State.aim s a o).ram = s.ram := by simp [State.aim]
@[simp] theorem State.setRate_ram (s : State) (a : Nat) (o : PlanOp) : (State.setRate s a o).ram = s.ram := by simp [State.setRate]
@[simp] theorem State.setHeater_ram (s : State) (a : Nat) (o : PlanOp) : (State.setHeater s a o).ram = s.ram := by simp [State.setHeater]
@[simp] theorem State.beginOp_ram (s : State) (a : Nat) (r : PlanOp) (rest : List PlanOp) : (State.beginOp s a r rest).ram = s.ram := by simp [State.beginOp]
@[simp] theorem State.startOp_ram (s : State) (a : Nat) (o : PlanOp) (trial : List PlanOp) : (State.startOp s a o trial).ram = s.ram := by unfold State.startOp; (repeat' split) <;> simp
@[simp] theorem State.replanBay_ram (s : State) (b : Nat) : (State.replanBay s b).ram = s.ram := by simp [State.replanBay]
@[simp] theorem State.tryRaise_ram (s : State) (b : Nat) : (State.tryRaise s b).ram = s.ram := by simp [State.tryRaise]
@[simp] theorem State.dropPauses_ram (s : State) (b : Nat) : (State.dropPauses s b).ram = s.ram := by simp [State.dropPauses]
@[simp] theorem State.longerPause_ram (s : State) (b g : Nat) : (State.longerPause s b g).ram = s.ram := by simp [State.longerPause]
@[simp] theorem State.lowerAnew_ram (s : State) (b g : Nat) : (State.lowerAnew s b g).ram = s.ram := by simp [State.lowerAnew]
@[simp] theorem State.planLower_ram (s : State) (b g : Nat) : (State.planLower s b g).ram = s.ram := by simp [State.planLower]
@[simp] theorem State.tryLower_ram (s : State) (b : Nat) : (State.tryLower s b).ram = s.ram := by unfold State.tryLower; (try dsimp only); (repeat' split) <;> simp
@[simp] theorem State.yieldQuantum_ram (s : State) (a : Nat) : (State.yieldQuantum s a).ram = s.ram := by unfold State.yieldQuantum; (repeat' split) <;> simp
@[simp] theorem State.joinIn_ram (s : State) (a : Nat) : (State.joinIn s a).ram = s.ram := by simp [State.joinIn]
@[simp] theorem State.dispatch_ram (s : State) (a : Nat) : (State.dispatch s a).ram = s.ram := by unfold State.dispatch; (try dsimp only); (repeat' split) <;> simp
@[simp] theorem State.dispatchAll_ram (s : State) (as : List Nat) : (State.dispatchAll s as).ram = s.ram := by simp [State.dispatchAll]
@[simp] theorem State.addPoison_ram (s : State) (e : PoisonEnt) : (State.addPoison s e).ram = s.ram := by unfold State.addPoison; (try dsimp only); (repeat' split) <;> simp
@[simp] theorem State.clearLine_ram (s : State) (x : Nat) : (State.clearLine s x).ram = s.ram := by simp [State.clearLine]
@[simp] theorem State.missOn_ram (s : State) (ch n : Nat) : (State.missOn s ch n).ram = s.ram := by simp [State.missOn]
@[simp] theorem State.writeBuf_ram (s : State) (c : Cmd) (off : Nat) (d : List Byte) : (State.writeBuf s c off d).ram = s.ram := by
  unfold State.writeBuf
  rw [foldl_fst_ram]
  intro x a; simp
@[simp] theorem State.askHost_ram (s : State) (c : Cmd) (list : Bool) (addr len : Nat) : (State.askHost s c list addr len).ram = s.ram := by simp [State.askHost]
@[simp] theorem State.openBuf_ram (s : State) (id : Nat) : (State.openBuf s id).ram = s.ram := by unfold State.openBuf; (repeat' split) <;> simp
@[simp] theorem State.readyNow_ram (s : State) (c : Cmd) : (State.readyNow s c).ram = s.ram := by
  unfold State.readyNow
  rw [State.foldl_ram]
  intro s a; (repeat' split) <;> simp
@[simp] theorem State.readDone_ram (s : State) (id : Nat) : (State.readDone s id).ram = s.ram := by unfold State.readDone; (repeat' split) <;> simp
@[simp] theorem State.deliver_ram (s : State) (c : Cmd) (lba : Nat) (x : Sector) (sends : Bool) : (State.deliver s c lba x sends).ram = s.ram := by simp [State.deliver]
@[simp] theorem State.freeSlot_ram (s : State) (order : Nat) : (State.freeSlot s order).ram = s.ram := by simp [State.freeSlot]
@[simp] theorem State.freeLanded_ram (s : State) : (State.freeLanded s).ram = s.ram := by simp [State.freeLanded]
@[simp] theorem State.staleRecs_ram (s : State) (n lba len : Nat) : (State.staleRecs s n lba len).ram = s.ram := by simp [State.staleRecs]
@[simp] theorem State.dropCached_ram (s : State) (n lba len : Nat) : (State.dropCached s n lba len).ram = s.ram := by simp [State.dropCached]
@[simp] theorem State.stageWrite_ram (s : State) (c : Cmd) (d : List Byte) : (State.stageWrite s c d).ram = s.ram := by simp [State.stageWrite]
@[simp] theorem State.persisted_ram (s : State) (x : Sector) (src : Nat) : (State.persisted s x src).ram = s.ram := by simp [State.persisted]
@[simp] theorem State.commitFinal_ram (s : State) (x : Sector) (src : Nat) : (State.commitFinal s x src).ram = s.ram := by simp [State.commitFinal]
@[simp] theorem State.recordZone_ram (s : State) (n lba : Nat) : (State.recordZone s n lba).ram = s.ram := by simp [State.recordZone]
@[simp] theorem State.changeZone_ram (s : State) (n lba : Nat) (g : Zone → Zone) : (State.changeZone s n lba g).ram = s.ram := by simp [State.changeZone]
@[simp] theorem State.advanceCom_ram (s : State) (n lba : Nat) : (State.advanceCom s n lba).ram = s.ram := by simp [State.advanceCom]
@[simp] theorem State.putRecords_ram (s : State) (a : Nat) (kinds : List Nat) : (State.putRecords s a kinds).ram = s.ram := by simp [State.putRecords]
@[simp] theorem State.flushJournal_ram (s : State) (a : Nat) : (State.flushJournal s a).ram = s.ram := by simp [State.flushJournal]
@[simp] theorem State.landReserve_ram (s : State) (a id : Nat) (r : List Nat × Nat) : (State.landReserve s a id r).ram = s.ram := by simp [State.landReserve]
@[simp] theorem State.setMedia_ram (s : State) (b v : Nat) : (State.setMedia s b v).ram = s.ram := by simp [State.setMedia]
@[simp] theorem State.clearNs_ram (s : State) (n : Nat) : (State.clearNs s n).ram = s.ram := by simp [State.clearNs]
@[simp] theorem State.actFormatted_ram (s : State) (a pct : Nat) : (State.actFormatted s a pct).ram = s.ram := by simp [State.actFormatted]
@[simp] theorem State.fmtCheck_ram (s : State) (id : Nat) : (State.fmtCheck s id).ram = s.ram := by unfold State.fmtCheck; (repeat' split) <;> simp
@[simp] theorem State.fmtUnit_ram (s : State) (a id : Nat) : (State.fmtUnit s a id).ram = s.ram := by simp [State.fmtUnit]
@[simp] theorem State.fmtCert_ram (s : State) (a id k : Nat) : (State.fmtCert s a id k).ram = s.ram := by simp [State.fmtCert]
@[simp] theorem State.purgeNs_ram (s : State) (n : Nat) : (State.purgeNs s n).ram = s.ram := by simp [State.purgeNs]
@[simp] theorem State.sanTo_ram (s : State) (id st : Nat) : (State.sanTo s id st).ram = s.ram := by simp [State.sanTo]
@[simp] theorem State.sanTick_ram (s : State) (id : Nat) : (State.sanTick s id).ram = s.ram := by unfold State.sanTick; (repeat' split) <;> simp
@[simp] theorem State.sanUnit_ram (s : State) (a id : Nat) : (State.sanUnit s a id).ram = s.ram := by simp [State.sanUnit]
@[simp] theorem State.queueSan_ram (s : State) (o : SanOp) : (State.queueSan s o).ram = s.ram := by simp [State.queueSan]
@[simp] theorem State.eraseKey_ram (s : State) (slot : Nat) (target : BitVec 32) : (State.eraseKey s slot target).ram = s.ram := by simp [State.eraseKey]
@[simp] theorem State.runCrypto_ram (s : State) (o : SanOp) : (State.runCrypto s o).ram = s.ram := by simp [State.runCrypto]
@[simp] theorem State.sanRejoin_ram (s : State) (b : Nat) : (State.sanRejoin s b).ram = s.ram := by simp [State.sanRejoin]
theorem foldl_opt_ram {α : Type} (g : Option State × Bool → α → Option State × Bool) (v : List Host.Cell)
    (hg : ∀ x a, (∀ u, x.1 = some u → u.ram = v) → ∀ u, (g x a).1 = some u → u.ram = v) (l : List α) (x : Option State × Bool)
    (hx : ∀ u, x.1 = some u → u.ram = v) : ∀ u, (l.foldl g x).1 = some u → u.ram = v := by
  induction l generalizing x with
  | nil => exact hx
  | cons a t ih => exact ih _ (hg x a hx)
theorem State.tryPart_ram (s : State) (c : Cmd) (r : Nat → Nat) (a : Nat) (n : PlanOp) (b : Bool) : ∀ t, (s.tryPart c r a n b).1 = some t → t.ram = s.ram := by
  unfold State.tryPart
  intro t
  extract_lets bb s1 ceil q
  have hs : s1.ram = s.ram := by simp only [s1]; split <;> simp
  split
  · simp
  · split
    · refine foldl_opt_ram _ s.ram ?_ _ _ (by simp) t
      intro x g hx u hu
      dsimp only at hu
      split at hu
      · exact hx u hu
      · split at hu
        · cases hu
        · split at hu
          · cases hu; simp [hs]
          · cases hu
    · dsimp only
      rw [Option.map_eq_some_iff]
      rintro ⟨p, _, rfl⟩
      simp [hs]
theorem State.tryParts_ram (c : Cmd) (u : Nat → Nat) (ops : List (Nat × PlanOp)) : ∀ (s keep : State),
    (∀ t, (s.tryParts c u ops keep).1 = .pass t → t.ram = s.ram) ∧ (s.tryParts c u ops keep).2.ram = keep.ram := by
  induction ops with
  | nil => exact fun s keep => ⟨fun t h => by (cases h; rfl), rfl⟩
  | cons x ops ih =>
    intro s keep
    obtain ⟨a, n⟩ := x
    unfold State.tryParts
    dsimp only
    split
    · rename_i s' h
      obtain ⟨h1, h2⟩ := ih (s'.slotLimited a (s.tryPart c u a n false).2) (keep.slotLimited a (s.tryPart c u a n false).2)
      refine ⟨fun t ht => ?_, by rw [h2]; simp⟩
      rw [h1 t ht, State.slotLimited_ram, State.tryPart_ram _ _ _ _ _ _ _ h]
    · exact ⟨fun t h => by (cases h), by simp⟩
@[simp] theorem State.admitOn_ram (s : State) (c : Cmd) (bytes : Nat) (ops : List (Nat × PlanOp)) (k : State → State) (hk : ∀ x0, (k x0).ram = x0.ram) : (State.admitOn s c bytes ops k).ram = s.ram := by
  unfold State.admitOn
  split
  · simp
  · split <;> rename_i h
    · have e := (State.tryParts_ram c (s.epochFor (ops.map (·.1))).1.reserve ops s s).2
      rw [h] at e
      simpa using e
    · simp [hk, (State.tryParts_ram c _ ops s s).1 _ (by rw [h])]
@[simp] theorem State.startRead_ram (s : State) (c : Cmd) (ps : List Part) : (State.startRead s c ps).ram = s.ram := by simp [State.startRead]
@[simp] theorem State.testRead_ram (s : State) (c : Cmd) (ps : List Part) : (State.testRead s c ps).ram = s.ram := by simp [State.testRead]
@[simp] theorem State.admitRead_ram (s : State) (id : Nat) : (State.admitRead s id).ram = s.ram := by unfold State.admitRead; (repeat' split) <;> simp
@[simp] theorem State.implicitClose_ram (s : State) (a : Nat) : (State.implicitClose s a).ram = s.ram := by unfold State.implicitClose; (try dsimp only); (repeat' split) <;> simp
@[simp] theorem State.zoneAdmit_ram (s : State) (c : Cmd) : (State.zoneAdmit s c).ram = s.ram := by simp [State.zoneAdmit]
@[simp] theorem State.admitWriteCmd_ram (s : State) (c : Cmd) : (State.admitWriteCmd s c).ram = s.ram := by simp [State.admitWriteCmd]
@[simp] theorem State.writeDone_ram (s : State) (c : Cmd) : (State.writeDone s c).ram = s.ram := by simp [State.writeDone]
@[simp] theorem State.writeFetched_ram (s : State) (id : Nat) (d : List Byte) : (State.writeFetched s id d).ram = s.ram := by unfold State.writeFetched; (repeat' split) <;> simp
@[simp] theorem State.admitZone_ram (s : State) (id act : Nat) (k : Cmd → State → State) (hk : ∀ x0 x1, (k x0 x1).ram = x1.ram) : (State.admitZone s id act k).ram = s.ram := by unfold State.admitZone; (try dsimp only); (repeat' split) <;> (try simp_all)
@[simp] theorem State.noteOpenCond_ram (s : State) (c : Cmd) (act : Nat) : (State.noteOpenCond s c act).ram = s.ram := by simp [State.noteOpenCond]
@[simp] theorem State.admitJournal_ram (s : State) (c : Cmd) (st : ZState) (wp : Nat) : (State.admitJournal s c st wp).ram = s.ram := by simp [State.admitJournal]
@[simp] theorem State.pushReport_ram (s : State) (id : Nat) : (State.pushReport s id).ram = s.ram := by unfold State.pushReport; (repeat' split) <;> simp
@[simp] theorem State.admitReport_ram (s : State) (c : Cmd) (d : List Byte) : (State.admitReport s c d).ram = s.ram := by simp [State.admitReport]
@[simp] theorem State.captured_ram (s : State) (id : Nat) (keys : List Nat) : (State.captured s id keys).ram = s.ram := by
  unfold State.captured
  split
  · rfl
  · dsimp only
    split
    all_goals
      simp
      rw [State.each_ram]
      intro s a; (repeat' split) <;> simp
@[simp] theorem State.moveBand_ram (s : State) (a band : Nat) : (State.moveBand s a band).ram = s.ram := by unfold State.moveBand; (try dsimp only); (repeat' split) <;> simp
@[simp] theorem State.refreshDone_ram (s : State) (a g : Nat) : (State.refreshDone s a g).ram = s.ram := by simp [State.refreshDone]
@[simp] theorem State.trialTurn_ram (s : State) (a h : Nat) : (State.trialTurn s a h).ram = s.ram := by simp [State.trialTurn]
@[simp] theorem State.grazeAdvance_ram (s : State) (a : Nat) (r : PlanOp) : (State.grazeAdvance s a r).ram = s.ram := by simp [State.grazeAdvance]
@[simp] theorem State.mediaEnd_ram (s : State) (a : Nat) : (State.mediaEnd s a).ram = s.ram := by unfold State.mediaEnd; (repeat' split) <;> simp
@[simp] theorem State.recTo_ram (s : State) (id : BitVec 16) (st : RecState) : (State.recTo s id st).ram = s.ram := by unfold State.recTo; (repeat' split) <;> simp
@[simp] theorem State.serve_ram (s : State) (r : Requester) (op : Nat) (act : Option Nat) (k : List Byte → State) (hk : ∀ x0, (k x0).ram = s.ram) : (State.serve s r op act k).ram = s.ram := by unfold State.serve; (try dsimp only); (repeat' split) <;> (try simp_all)
@[simp] theorem State.queueRefresh_ram (s : State) (a g order : Nat) : (State.queueRefresh s a g order).ram = s.ram := by simp [State.queueRefresh]
@[simp] theorem State.holdGroup_ram (s : State) (a g : Nat) : (State.holdGroup s a g).ram = s.ram := by simp [State.holdGroup]
@[simp] theorem State.checkpoint_ram (s : State) (a : Nat) : (State.checkpoint s a).ram = s.ram := by simp [State.checkpoint]
@[simp] theorem State.enterFormat_ram (s : State) (k : Nat) (o : FmtOp) : (State.enterFormat s k o).ram = s.ram := by simp [State.enterFormat]
@[simp] theorem State.refuseFormat_ram (s : State) (k reason : Nat) : (State.refuseFormat s k reason).ram = s.ram := by simp [State.refuseFormat]
@[simp] theorem State.queueFormat_ram (s : State) (o : FmtOp) : (State.queueFormat s o).ram = s.ram := by simp [State.queueFormat]
@[simp] theorem State.modSamples_ram (s : State) (a cmd key : Nat) (g : Retain → Retain) : (State.modSamples s a cmd key g).ram = s.ram := by simp [State.modSamples]
@[simp] theorem State.dropSamples_ram (s : State) (a cmd key : Nat) : (State.dropSamples s a cmd key).ram = s.ram := by simp [State.dropSamples]
@[simp] theorem State.retain_ram (s : State) (a : Nat) (e : Retain) : (State.retain s a e).ram = s.ram := by simp [State.retain]
@[simp] theorem State.retainSlot_ram (s : State) (a cmd key : Nat) : (State.retainSlot s a cmd key).ram = s.ram := by unfold State.retainSlot; (repeat' split) <;> simp
@[simp] theorem State.accumulate_ram (s : State) (a : Nat) (e : Retain) : (State.accumulate s a e).ram = s.ram := by unfold State.accumulate; (try dsimp only); (repeat' split) <;> simp
@[simp] theorem State.takeSlot_ram (s : State) (a : Nat) (e : Retain) : (State.takeSlot s a e).ram = s.ram := by unfold State.takeSlot; (try dsimp only); (repeat' split) <;> simp
@[simp] theorem State.askReplay_ram (s : State) (a : Nat) (q : FmtCmd) : (State.askReplay s a q).ram = s.ram := by simp [State.askReplay]
@[simp] theorem State.fillQueue_ram (s : State) (a : Nat) : (State.fillQueue s a).ram = s.ram := by simp [State.fillQueue]
@[simp] theorem State.stopReplays_ram (s : State) (a cmd key : Nat) : (State.stopReplays s a cmd key).ram = s.ram := by simp [State.stopReplays]
@[simp] theorem State.queueRewrite_ram (s : State) (a key : Nat) : (State.queueRewrite s a key).ram = s.ram := by simp [State.queueRewrite]
@[simp] theorem State.queueBand_ram (s : State) (a region : Nat) : (State.queueBand s a region).ram = s.ram := by simp [State.queueBand]
@[simp] theorem State.wantChanCal_ram (s : State) (a h : Nat) : (State.wantChanCal s a h).ram = s.ram := by simp [State.wantChanCal]
@[simp] theorem State.enterUnread_ram (s : State) (a key : Nat) (lost : Bool) : (State.enterUnread s a key lost).ram = s.ram := by simp [State.enterUnread]
@[simp] theorem State.loseSector_ram (s : State) (a key : Nat) : (State.loseSector s a key).ram = s.ram := by simp [State.loseSector]
@[simp] theorem State.marginal_ram (s : State) (a key rung : Nat) : (State.marginal s a key rung).ram = s.ram := by simp [State.marginal]
@[simp] theorem State.recSector_ram (s : State) (ref key : Nat) : (State.recSector s ref key).ram = s.ram := by unfold State.recSector; (repeat' split) <;> simp
@[simp] theorem State.recFail_ram (s : State) (ref : Nat) : (State.recFail s ref).ram = s.ram := by unfold State.recFail; (repeat' split) <;> simp
@[simp] theorem State.placeholder_ram (s : State) (a key : Nat) : (State.placeholder s a key).ram = s.ram := by simp [State.placeholder]
@[simp] theorem State.grazeGood_ram (s : State) (x : Attempt) : (State.grazeGood s x).ram = s.ram := by simp [State.grazeGood]
@[simp] theorem State.grazeLost_ram (s : State) (a order ref key : Nat) : (State.grazeLost s a order ref key).ram = s.ram := by simp [State.grazeLost]
@[simp] theorem State.bulkPassages_ram (s : State) (a : Nat) (c : Cmd) (key step n : Nat) : (State.bulkPassages s a c key step n).ram = s.ram := by simp [State.bulkPassages]
@[simp] theorem State.grazePassages_ram (s : State) (a : Nat) (e : Retain) (step n : Nat) : (State.grazePassages s a e step n).ram = s.ram := by simp [State.grazePassages]
@[simp] theorem State.giveUp_ram (s : State) (a : Nat) (e : Retain) : (State.giveUp s a e).ram = s.ram := by unfold State.giveUp; (try dsimp only); (repeat' split) <;> simp
@[simp] theorem State.startStep_ram (s : State) (a : Nat) (e : Retain) (step : Nat) : (State.startStep s a e step).ram = s.ram := by unfold State.startStep; (try dsimp only); (repeat' split) <;> simp
@[simp] theorem State.nextRung_ram (s : State) (a : Nat) (e : Retain) : (State.nextRung s a e).ram = s.ram := by unfold State.nextRung; (try dsimp only); (repeat' split) <;> simp
@[simp] theorem State.startReplays_ram (s : State) (a : Nat) (e : Retain) : (State.startReplays s a e).ram = s.ram := by simp [State.startReplays]
@[simp] theorem State.stopAttempts_ram (s : State) (a cmd key : Nat) : (State.stopAttempts s a cmd key).ram = s.ram := by simp [State.stopAttempts]
@[simp] theorem State.checkFailed_ram (s : State) (a : Nat) (e : Retain) : (State.checkFailed s a e).ram = s.ram := by simp [State.checkFailed]
@[simp] theorem State.afterFailure_ram (s : State) (a : Nat) (x : Attempt) : (State.afterFailure s a x).ram = s.ram := by simp [State.afterFailure]
@[simp] theorem State.countFraming_ram (s : State) (a : Nat) (f : Framing) : (State.countFraming s a f).ram = s.ram := by simp [State.countFraming]
@[simp] theorem State.eraseFor_ram (s : State) (a ps : Nat) : (State.eraseFor s a ps).ram = s.ram := by simp [State.eraseFor]
@[simp] theorem State.eraseSamples_ram (s : State) (a : Nat) : (State.eraseSamples s a).ram = s.ram := by simp [State.eraseSamples]
@[simp] theorem State.frameSector_ram (s : State) (a key : Nat) (q : FmtCmd) (sm1 sm2 : List Hit) (r0 r1 : List (BitVec 6)) : (State.frameSector s a key q sm1 sm2 r0 r1).ram = s.ram := by simp [State.frameSector]
@[simp] theorem State.chargeDec_ram (s : State) (cmd iters rounds : Nat) : (State.chargeDec s cmd iters rounds).ram = s.ram := by simp [State.chargeDec]
@[simp] theorem State.modAttempt_ram (s : State) (id : Nat) (g : Attempt → Attempt) : (State.modAttempt s id g).ram = s.ram := by simp [State.modAttempt]
@[simp] theorem State.freeEngine_ram (s : State) (e : Nat) : (State.freeEngine s e).ram = s.ram := by simp [State.freeEngine]
@[simp] theorem State.leavePool_ram (s : State) (x : Attempt) : (State.leavePool s x).ram = s.ram := by unfold State.leavePool; (repeat' split) <;> simp
@[simp] theorem State.endAttempt_ram (s : State) (x : Attempt) : (State.endAttempt s x).ram = s.ram := by simp [State.endAttempt]
@[simp] theorem State.assign_ram (s : State) (e : Nat) (x : Attempt) : (State.assign s e x).ram = s.ram := by simp [State.assign]
theorem serveAttempt_ram (x : State × List Nat) (a : Nat) : (serveAttempt x a).1.ram = x.1.ram := by
  unfold serveAttempt; dsimp only; (repeat' split) <;> simp_all
@[simp] theorem State.dispatchPool_ram (s : State) : (State.dispatchPool s).ram = s.ram := by
  unfold State.dispatchPool
  dsimp only
  rw [foldl_fst_ram _ serveAttempt_ram]
@[simp] theorem State.enterPool_ram (s : State) (x : Attempt) (t : Nat) : (State.enterPool s x t).ram = s.ram := by simp [State.enterPool]
@[simp] theorem State.stopLadder_ram (s : State) (x : Attempt) : (State.stopLadder s x).ram = s.ram := by simp [State.stopLadder]
@[simp] theorem State.adapt_ram (s : State) (x : Attempt) (v : TapSet) : (State.adapt s x v).ram = s.ram := by simp [State.adapt]
@[simp] theorem State.readySector_ram (s : State) (x : Attempt) : (State.readySector s x).ram = s.ram := by unfold State.readySector; (repeat' split) <;> simp
@[simp] theorem State.converged_ram (s : State) (x : Attempt) (o : DecOut) (taps : TapSet) : (State.converged s x o taps).ram = s.ram := by unfold State.converged; (try dsimp only); (repeat' split) <;> simp
@[simp] theorem State.roundStart_ram (s : State) (x : Attempt) (isl : Nat) : (State.roundStart s x isl).ram = s.ram := by simp [State.roundStart]
@[simp] theorem State.preempt_ram (s : State) (e : Nat) (x : Attempt) : (State.preempt s e x).ram = s.ram := by simp [State.preempt]
@[simp] theorem State.iterate_ram (s : State) (e : Nat) (x : Attempt) (zero : Bool) (o : DecOut) (taps : TapSet) : (State.iterate s e x zero o taps).ram = s.ram := by simp [State.iterate]
@[simp] theorem State.restartJob_ram (s : State) (e : Nat) : (State.restartJob s e).ram = s.ram := by unfold State.restartJob; (repeat' split) <;> simp
@[simp] theorem State.retireEngine_ram (s : State) (e st : Nat) : (State.retireEngine s e st).ram = s.ram := by simp [State.retireEngine]
@[simp] theorem State.leaveIsland_ram (s : State) (e : Nat) : (State.leaveIsland s e).ram = s.ram := by simp [State.leaveIsland]
@[simp] theorem State.failEngine_ram (s : State) (e : Nat) : (State.failEngine s e).ram = s.ram := by simp [State.failEngine]
@[simp] theorem State.decoderReply_ram (s : State) (k reason e : Nat) : (State.decoderReply s k reason e).ram = s.ram := by simp [State.decoderReply]
@[simp] theorem State.endRetest_ram (s : State) (k e : Nat) (pass : Bool) : (State.endRetest s k e pass).ram = s.ram := by simp [State.endRetest]
@[simp] theorem State.popFmt_ram (s : State) (a : Nat) : (State.popFmt s a).ram = s.ram := by simp [State.popFmt]
@[simp] theorem State.startRoutine_ram (s : State) (a : Nat) (q : FmtCmd) : (State.startRoutine s a q).ram = s.ram := by simp [State.startRoutine]
@[simp] theorem State.askRecord_ram (s : State) (a : Nat) : (State.askRecord s a).ram = s.ram := by simp [State.askRecord]
@[simp] theorem State.commitFinish_ram (s : State) (c : Cmd) : (State.commitFinish s c).ram = s.ram := by simp [State.commitFinish]
@[simp] theorem State.commitReset_ram (s : State) (c : Cmd) : (State.commitReset s c).ram = s.ram := by simp [State.commitReset]
@[simp] theorem State.zoneRecord_ram (s : State) (a : Nat) (c : Cmd) : (State.zoneRecord s a c).ram = s.ram := by simp [State.zoneRecord]
@[simp] theorem State.intentRecs_ram (s : State) (a : Nat) (keys : List Nat) : (State.intentRecs s a keys).ram = s.ram := by simp [State.intentRecs]
@[simp] theorem State.startWrite_ram (s : State) (a : Nat) (opc : Byte) : (State.startWrite s a opc).ram = s.ram := by unfold State.startWrite; (repeat' split) <;> simp
@[simp] theorem State.sendFrame_ram (s : State) (a : Nat) (q : FmtCmd) (key : Nat) (x : Sector) : (State.sendFrame s a q key x).ram = s.ram := by simp [State.sendFrame]
@[simp] theorem State.committedOf_ram (s : State) (id n lba : Nat) : (State.committedOf s id n lba).ram = s.ram := by unfold State.committedOf; (repeat' split) <;> simp
@[simp] theorem State.releaseSource_ram (s : State) (a key : Nat) : (State.releaseSource s a key).ram = s.ram := by simp [State.releaseSource]
@[simp] theorem State.commitBand_ram (s : State) (a spt : Nat) (x : Sector) (src : Nat) : (State.commitBand s a spt x src).ram = s.ram := by simp [State.commitBand]
@[simp] theorem State.commitLanding_ram (s : State) (a id : Nat) (w : WSlot) : (State.commitLanding s a id w).ram = s.ram := by unfold State.commitLanding; (repeat' split) <;> simp
@[simp] theorem State.writePoisoned_ram (s : State) (a : Nat) (q : FmtCmd) (w : WSlot) : (State.writePoisoned s a q w).ram = s.ram := by simp [State.writePoisoned]
@[simp] theorem State.commitKey_ram (s : State) (a : Nat) (q : FmtCmd) (key : Nat) : (State.commitKey s a q key).ram = s.ram := by unfold State.commitKey; (try dsimp only); (repeat' split) <;> simp
@[simp] theorem State.endWrite_ram (s : State) (a : Nat) : (State.endWrite s a).ram = s.ram := by simp [State.endWrite]
@[simp] theorem State.afterWrite_ram (s : State) (a id : Nat) : (State.afterWrite s a id).ram = s.ram := by unfold State.afterWrite; (repeat' split) <;> simp
@[simp] theorem State.splitRunning_ram (s : State) (a : Nat) (r : Routine) : (State.splitRunning s a r).ram = s.ram := by simp [State.splitRunning]
@[simp] theorem State.passWaymark_ram (s : State) (a : Nat) (r : Routine) (keys : List Nat) (at' : Nat × Nat) : (State.passWaymark s a r keys at').ram = s.ram := by unfold State.passWaymark; (try dsimp only); (repeat' split) <;> (try simp) <;> (repeat' (first | (rw [State.each_ram]) | (intro _) | split)) <;> simp_all
@[simp] theorem State.abandonAll_ram (s : State) (a : Nat) : (State.abandonAll s a).ram = s.ram := by unfold State.abandonAll; (repeat' split) <;> simp
@[simp] theorem State.resumeRoutine_ram (s : State) (a : Nat) (r : Routine) : (State.resumeRoutine s a r).ram = s.ram := by simp [State.resumeRoutine]
@[simp] theorem State.squeezeRewrite_ram (s : State) (a : Nat) (q : FmtCmd) (x : Nat) : (State.squeezeRewrite s a q x).ram = s.ram := by
  unfold State.squeezeRewrite
  extract_lets r k com start sec gen recs pass s1 s2
  have hp : ∀ s g, (pass s g).ram = s.ram := by
    intro s g
    simp only [pass, State.modFmt_ram]
    rw [State.each_ram]
    · split <;> simp
    · intro s p; split <;> simp
  have h1 : s1.ram = s.ram := by simp only [s1]; exact State.each_ram _ _ _ hp
  have h2 : s2.ram = s.ram := by simp only [s2]; simp [h1]
  split <;> simp [h2]
@[simp] theorem State.queueAssistCal_ram (s : State) (a h : Nat) : (State.queueAssistCal s a h).ram = s.ram := by simp [State.queueAssistCal]
@[simp] theorem State.headLost_ram (s : State) (a h : Nat) : (State.headLost s a h).ram = s.ram := by simp [State.headLost]
@[simp] theorem State.suspendHead_ram (s : State) (a h : Nat) : (State.suspendHead s a h).ram = s.ram := by simp [State.suspendHead]
@[simp] theorem State.feedbackFault_ram (s : State) (a h : Nat) : (State.feedbackFault s a h).ram = s.ram := by simp [State.feedbackFault]
@[simp] theorem State.roundGain_ram (s : State) (v : Int) : (s.roundGain v).2.ram = s.ram := by
  unfold State.roundGain; dsimp only; (repeat' split) <;> simp
@[simp] theorem State.assistLoop_ram (s : State) (a h sample : Nat) : (State.assistLoop s a h sample).ram = s.ram := by
  unfold State.assistLoop
  dsimp only
  split <;> simp
@[simp] theorem State.assistUse_ram (s : State) (a : Nat) (q : FmtCmd) (t energy : Nat) : (State.assistUse s a q t energy).ram = s.ram := by simp [State.assistUse]
@[simp] theorem State.wearCheck_ram (s : State) (a h : Nat) : (State.wearCheck s a h).ram = s.ram := by simp [State.wearCheck]
@[simp] theorem State.trip_ram (s : State) (spin : Bool) (i cond time : Nat) : (State.trip s spin i cond time).ram = s.ram := by simp [State.trip]
@[simp] theorem State.tripAct_ram (s : State) (a cond : Nat) : (State.tripAct s a cond).ram = s.ram := by simp [State.tripAct]
@[simp] theorem State.sampleTrc_ram (s : State) (e : Nat) (spin : Bool) (i : Nat) (val : Nat → Nat → Nat → Word) : (State.sampleTrc s e spin i val).ram = s.ram := by simp [State.sampleTrc]
@[simp] theorem State.countTrc_ram (s : State) (spin : Bool) (i : Nat) : (State.countTrc s spin i).ram = s.ram := by simp [State.countTrc]
@[simp] theorem State.raiseInhibit_ram (s : State) (a cause : Nat) (toward : Bool) : (State.raiseInhibit s a cause toward).ram = s.ram := by simp [State.raiseInhibit]
@[simp] theorem State.retract_ram (s : State) (a cause : Nat) : (State.retract s a cause).ram = s.ram := by simp [State.retract]
@[simp] theorem State.retractIdle_ram (s : State) (a : Nat) : (State.retractIdle s a).ram = s.ram := by simp [State.retractIdle]
@[simp] theorem State.enterRetract_ram (s : State) (a : Nat) (cause : BitVec 3) : (State.enterRetract s a cause).ram = s.ram := by simp [State.enterRetract]
@[simp] theorem State.enterLimp_ram (s : State) (a : Nat) : (State.enterLimp s a).ram = s.ram := by unfold State.enterLimp; (repeat' split) <;> simp
@[simp] theorem State.decideMig_ram (s : State) (a : Nat) (beyond : Bool) : (State.decideMig s a beyond).ram = s.ram := by unfold State.decideMig; (try dsimp only); (repeat' split) <;> simp
@[simp] theorem State.wantAction_ram (s : State) (b : Nat) (x : SpinAct) : (State.wantAction s b x).ram = s.ram := by simp [State.wantAction]
@[simp] theorem State.decideSpn_ram (s : State) (b : Nat) : (State.decideSpn s b).ram = s.ram := by unfold State.decideSpn; (try dsimp only); (repeat' split) <;> simp
@[simp] theorem State.placeSpindles_ram (s : State) : (State.placeSpindles s).ram = s.ram := by
  unfold State.placeSpindles
  rw [State.each_ram]
  intro s a; split <;> simp
@[simp] theorem State.evacuate_ram (s : State) (n : Nat) : (State.evacuate s n).ram = s.ram := by simp [State.evacuate]
@[simp] theorem State.retireLe_ram (s : State) (n st : Nat) : (State.retireLe s n st).ram = s.ram := by simp [State.retireLe]
@[simp] theorem State.predict_ram (s : State) (a : Nat) : (State.predict s a).ram = s.ram := by simp [State.predict]
@[simp] theorem State.overrunOf_ram (s : State) (a : Nat) : (State.overrunOf s a).ram = s.ram := by simp [State.overrunOf]
@[simp] theorem State.wearAt_ram (s : State) (b budget n : Nat) : (State.wearAt s b budget n).ram = s.ram := by simp [State.wearAt]
@[simp] theorem State.gaitHours_ram (s : State) (b : Nat) : (State.gaitHours s b).ram = s.ram := by simp [State.gaitHours]
@[simp] theorem State.requestLoad_ram (s : State) (a : Nat) : (State.requestLoad s a).ram = s.ram := by simp [State.requestLoad]
@[simp] theorem State.endPause_ram (s : State) (b : Nat) : (State.endPause s b).ram = s.ram := by simp [State.endPause]
@[simp] theorem State.loadsDone_ram (s : State) (b : Nat) : (State.loadsDone s b).ram = s.ram := by simp [State.loadsDone]
@[simp] theorem State.parked_ram (s : State) (a : Nat) : (State.parked s a).ram = s.ram := by simp [State.parked]
@[simp] theorem State.sendSpin_ram (s : State) (b mode tcomm step icmd : Nat) : (State.sendSpin s b mode tcomm step icmd).ram = s.ram := by simp [State.sendSpin]
@[simp] theorem State.startBrake_ram (s : State) (b : Nat) (short : Bool) : (State.startBrake s b short).ram = s.ram := by simp [State.startBrake]
@[simp] theorem State.askToken_ram (s : State) (b kind : Nat) : (State.askToken s b kind).ram = s.ram := by simp [State.askToken]
@[simp] theorem State.linksOff_ram (s : State) (b : Nat) : (State.linksOff s b).ram = s.ram := by simp [State.linksOff]
@[simp] theorem State.quarantine_ram (s : State) (b reason : Nat) : (State.quarantine s b reason).ram = s.ram := by simp [State.quarantine]
@[simp] theorem State.failBringUp_ram (s : State) (b reason : Nat) : (State.failBringUp s b reason).ram = s.ram := by simp [State.failBringUp]
@[simp] theorem State.offerSet_ram (s : State) (a : Nat) (set : Option CoeffSet) (rro : Option RroSet) : (State.offerSet s a set rro).ram = s.ram := by simp [State.offerSet]
@[simp] theorem State.peerReset_ram (s : State) (i : Nat) (flight : Tab Nat) : (State.peerReset s i flight).ram = s.ram := by simp [State.peerReset]
@[simp] theorem State.rearm_ram (s : State) (i : Nat) : (State.rearm s i).ram = s.ram := by simp [State.rearm]
@[simp] theorem State.segmentIn_ram (s : State) (c : Cmd) (bs : List Byte) : (State.segmentIn s c bs).ram = s.ram := by unfold State.segmentIn; (try dsimp only); (repeat' split) <;> simp
@[simp] theorem State.dataIn_ram (s : State) (c : Cmd) (bs : List Byte) : (State.dataIn s c bs).ram = s.ram := by simp [State.dataIn]
@[simp] theorem State.readFailed_ram (s : State) (id : Nat) : (State.readFailed s id).ram = s.ram := by simp [State.readFailed]
@[simp] theorem State.unexpected_ram (s : State) (f : Nat) : (State.unexpected s f).ram = s.ram := by simp [State.unexpected]
@[simp] theorem State.hostCompletion_ram (s : State) (f id : Nat) (list failed : Bool) (bs : List Byte) : (State.hostCompletion s f id list failed bs).ram = s.ram := by unfold State.hostCompletion; (try dsimp only); (repeat' split) <;> simp
@[simp] theorem State.postHeld_ram (s : State) (id : Nat) : (State.postHeld s id).ram = s.ram := by unfold State.postHeld; (repeat' split) <;> simp
@[simp] theorem State.issueAsks_ram (s : State) (c : Cmd) : (State.issueAsks s c).ram = s.ram := by simp [State.issueAsks]
@[simp] theorem State.resume_ram (s : State) (f : Nat) : (State.resume s f).ram = s.ram := by simp [State.resume]
@[simp] theorem State.bmeOff_ram (s : State) (f : Nat) : (State.bmeOff s f).ram = s.ram := by simp [State.bmeOff]
@[simp] theorem State.bmeOn_ram (s : State) (f : Nat) : (State.bmeOn s f).ram = s.ram := by simp [State.bmeOn]
@[simp] theorem State.tallyRemoved_ram (s : State) (c : Cmd) : (State.tallyRemoved s c).ram = s.ram := by simp [State.tallyRemoved]
@[simp] theorem State.removeCmd_ram (s : State) (c : Cmd) : (State.removeCmd s c).ram = s.ram := by simp [State.removeCmd]
@[simp] theorem State.removeAll_ram (s : State) (cs : List Cmd) : (State.removeAll s cs).ram = s.ram := by simp [State.removeAll]
@[simp] theorem State.resetQueues_ram (s : State) (f : Nat) : (State.resetQueues s f).ram = s.ram := by simp [State.resetQueues]
@[simp] theorem State.resetRegs_ram (s : State) (f : Nat) : (State.resetRegs s f).ram = s.ram := by simp [State.resetRegs]
@[simp] theorem State.resetFn_ram (s : State) (f : Nat) : (State.resetFn s f).ram = s.ram := by simp [State.resetFn]
@[simp] theorem State.vfsOff_ram (s : State) (f : Nat) : (State.vfsOff s f).ram = s.ram := by simp [State.vfsOff]
@[simp] theorem State.flr_ram (s : State) (f : Nat) : (State.flr s f).ram = s.ram := by simp [State.flr]
@[simp] theorem State.modHalf_ram (s : State) (p : Nat) (h : Bool) (g : Link → Link) : (State.modHalf s p h g).ram = s.ram := by simp [State.modHalf]
@[simp] theorem State.linkDown_ram (s : State) (p : Nat) (h : Bool) : (State.linkDown s p h).ram = s.ram := by simp [State.linkDown]
@[simp] theorem State.commitWindow_ram (s : State) (p : Nat) (val : Word) : (State.commitWindow s p val).ram = s.ram := by simp [State.commitWindow]
@[simp] theorem State.moveSteward_ram (s : State) (p : Nat) : (State.moveSteward s p).ram = s.ram := by simp [State.moveSteward]
@[simp] theorem State.writeSteward_ram (s : State) (t : Nat) : (State.writeSteward s t).ram = s.ram := by simp [State.writeSteward]
@[simp] theorem State.predictGate_ram (s : State) (a cls : Nat) : (State.predictGate s a cls).ram = s.ram := by simp [State.predictGate]
@[simp] theorem State.wedgeSeen_ram (s : State) (a cls : Nat) (w : BitVec 10) : (State.wedgeSeen s a cls w).ram = s.ram := by simp [State.wedgeSeen]
@[simp] theorem State.skipWedge_ram (s : State) (a : Nat) : (State.skipWedge s a).ram = s.ram := by simp [State.skipWedge]
@[simp] theorem State.watchFrozen_ram (s : State) (a : Nat) (r : PosRec) : (State.watchFrozen s a r).ram = s.ram := by simp [State.watchFrozen]
@[simp] theorem State.frozen_ram (s : State) (a : Nat) : (State.frozen s a).ram = s.ram := by simp [State.frozen]
@[simp] theorem State.badRecord_ram (s : State) (a cls : Nat) : (State.badRecord s a cls).ram = s.ram := by simp [State.badRecord]
@[simp] theorem State.goodRecord_ram (s : State) (a : Nat) (r : PosRec) : (State.goodRecord s a r).ram = s.ram := by simp [State.goodRecord]
@[simp] theorem State.position_ram (s : State) (a : Nat) (rec : BitVec 128) : (State.position s a rec).ram = s.ram := by simp [State.position]
@[simp] theorem State.seekDone_ram (s : State) (a : Nat) : (State.seekDone s a).ram = s.ram := by simp [State.seekDone]
@[simp] theorem State.enterFollow_ram (s : State) (a : Nat) : (State.enterFollow s a).ram = s.ram := by simp [State.enterFollow]
@[simp] theorem State.toMode_ram (s : State) (a : Nat) (m : BitVec 3) : (State.toMode s a m).ram = s.ram := by simp [State.toMode]
@[simp] theorem State.loadFailed_ram (s : State) (a : Nat) : (State.loadFailed s a).ram = s.ram := by simp [State.loadFailed]
@[simp] theorem State.modeStep_ram (s : State) (a : Nat) (ok inWindow : Bool) : (State.modeStep s a ok inWindow).ram = s.ram := by simp [State.modeStep]
@[simp] theorem State.queueRunout_ram (s : State) (a h : Nat) : (State.queueRunout s a h).ram = s.ram := by simp [State.queueRunout]
@[simp] theorem State.runLoop_ram (s : State) (a : Nat) (o : LawOut) : (State.runLoop s a o).ram = s.ram := by unfold State.runLoop; (repeat' split) <;> simp
@[simp] theorem State.overrunRun_ram (s : State) (a : Nat) (o : LawOut) (budget : Nat) : (State.overrunRun s a o budget).ram = s.ram := by simp [State.overrunRun]
@[simp] theorem State.lineFault_ram (s : State) (a : Nat) (o : LawOut) (k : Nat) : (State.lineFault s a o k).ram = s.ram := by simp [State.lineFault]
@[simp] theorem State.spinOverrun_ram (s : State) (b : Nat) : (State.spinOverrun s b).ram = s.ram := by simp [State.spinOverrun]
@[simp] theorem State.takeMig_ram (s : State) (a : Nat) (mirrorOk : Bool) : (State.takeMig s a mirrorOk).ram = s.ram := by simp [State.takeMig]
@[simp] theorem State.loopReply_ram (s : State) (k reason n : Nat) : (State.loopReply s k reason n).ram = s.ram := by simp [State.loopReply]
@[simp] theorem State.endLeRetest_ram (s : State) (k n : Nat) (pass : Bool) : (State.endLeRetest s k n pass).ram = s.ram := by simp [State.endLeRetest]
@[simp] theorem State.diagWrite_ram (s : State) (f : Nat) (k : State → State) (hk : ∀ x0, (k x0).ram = x0.ram) : (State.diagWrite s f k).ram = s.ram := by unfold State.diagWrite; (try dsimp only); (repeat' split) <;> (try simp_all)
@[simp] theorem State.modPwr_ram (s : State) (g : Pwr → Pwr) : (State.modPwr s g).ram = s.ram := by simp [State.modPwr]
@[simp] theorem State.ceilingMoved_ram (s : State) (b : Nat) : (State.ceilingMoved s b).ram = s.ram := by simp [State.ceilingMoved]
@[simp] theorem State.ceilingsFrom_ram (s old : State) : (State.ceilingsFrom s old).ram = s.ram := by simp [State.ceilingsFrom]
@[simp] theorem State.reproject_ram (s : State) : (State.reproject s).ram = s.ram := by simp [State.reproject]
@[simp] theorem State.reachIdle_ram (s : State) (b : Nat) : (State.reachIdle s b).ram = s.ram := by simp [State.reachIdle]
@[simp] theorem State.calAtGait_ram (s : State) (b : Nat) : (State.calAtGait s b).ram = s.ram := by simp [State.calAtGait]
@[simp] theorem State.locked_ram (s : State) (b : Nat) : (State.locked s b).ram = s.ram := by simp [State.locked]
@[simp] theorem State.endWrites_ram (s : State) (b : Nat) : (State.endWrites s b).ram = s.ram := by simp [State.endWrites]
@[simp] theorem State.beginAlign_ram (s : State) (b : Nat) : (State.beginAlign s b).ram = s.ram := by simp [State.beginAlign]
@[simp] theorem State.beginSpin_ram (s : State) (b : Nat) : (State.beginSpin s b).ram = s.ram := by simp [State.beginSpin]
@[simp] theorem State.spinFailed_ram (s : State) (b : Nat) : (State.spinFailed s b).ram = s.ram := by simp [State.spinFailed]
@[simp] theorem State.startFloat_ram (s : State) (b : Nat) : (State.startFloat s b).ram = s.ram := by simp [State.startFloat]
@[simp] theorem State.observerLost_ram (s : State) (b : Nat) : (State.observerLost s b).ram = s.ram := by simp [State.observerLost]
@[simp] theorem State.atRest_ram (s : State) (b : Nat) : (State.atRest s b).ram = s.ram := by simp [State.atRest]
@[simp] theorem State.linkDetect_ram (s : State) (a : Nat) : (State.linkDetect s a).ram = s.ram := by simp [State.linkDetect]
@[simp] theorem State.faultCoast_ram (s : State) (b : Nat) : (State.faultCoast s b).ram = s.ram := by simp [State.faultCoast]
@[simp] theorem State.zeroCross_ram (s : State) (b : Nat) (rep : BitVec 64) : (State.zeroCross s b rep).ram = s.ram := by simp [State.zeroCross]
@[simp] theorem State.revolution_ram (s : State) (b n t : Nat) : (State.revolution s b n t).ram = s.ram := by simp [State.revolution]
@[simp] theorem State.spinReport_ram (s : State) (b : Nat) (rep : BitVec 64) : (State.spinReport s b rep).ram = s.ram := by simp [State.spinReport]
@[simp] theorem State.spinTick_ram (s : State) (b : Nat) : (State.spinTick s b).ram = s.ram := by simp [State.spinTick]
@[simp] theorem State.relocked_ram (s : State) (b : Nat) (cs : List (Nat × Nat)) : (State.relocked s b cs).ram = s.ram := by simp [State.relocked]
@[simp] theorem State.slowLower_ram (s : State) (b : Nat) : (State.slowLower s b).ram = s.ram := by simp [State.slowLower]
@[simp] theorem State.regenStops_ram (s : State) (d : Nat) : (State.regenStops s d).ram = s.ram := by simp [State.regenStops]
@[simp] theorem State.busCoasts_ram (s : State) (d : Nat) : (State.busCoasts s d).ram = s.ram := by simp [State.busCoasts]
@[simp] theorem State.coastEnds_ram (s : State) (d : Nat) : (State.coastEnds s d).ram = s.ram := by simp [State.coastEnds]
@[simp] theorem State.bayFault_ram (s : State) (b : Nat) : (State.bayFault s b).ram = s.ram := by simp [State.bayFault]
@[simp] theorem State.startBasic_ram (s : State) (a : Nat) : (State.startBasic s a).ram = s.ram := by simp [State.startBasic]
@[simp] theorem State.bringUp_ram (s : State) (b : Nat) : (State.bringUp s b).ram = s.ram := by simp [State.bringUp]
@[simp] theorem State.retarget_ram (s : State) (b g : Nat) : (State.retarget s b g).ram = s.ram := by simp [State.retarget]
@[simp] theorem State.wake_ram (s : State) (b : Nat) : (State.wake s b).ram = s.ram := by simp [State.wake]
@[simp] theorem State.grantToken_ram (s : State) (b : Nat) : (State.grantToken s b).ram = s.ram := by simp [State.grantToken]
@[simp] theorem State.enterPower_ram (s : State) (b : Nat) (want : BitVec 2) : (State.enterPower s b want).ram = s.ram := by simp [State.enterPower]
@[simp] theorem State.powerState_ram (s : State) (r : Requester) (st : Nat) (g : State → Nat → State) (hg : ∀ x0 x1, (g x0 x1).ram = x0.ram) : (State.powerState s r st g).ram = s.ram := by
  unfold State.powerState
  rw [State.serve_ram]
  intro p
  dsimp only
  (repeat' split) <;> simp [State.each_ram, hg]
@[simp] theorem State.askReset_ram (s : State) (at' action : Nat) : (State.askReset s at' action).ram = s.ram := by simp [State.askReset]
@[simp] theorem State.watchdogReset_ram (s : State) : (State.watchdogReset s).ram = s.ram := by simp [State.watchdogReset]
@[simp] theorem State.restartHerd_ram (s : State) (h : Nat) : (State.restartHerd s h).ram = s.ram := by simp [State.restartHerd]
@[simp] theorem State.restartCore_ram (s : State) : (State.restartCore s).ram = s.ram := by simp [State.restartCore]
@[simp] theorem State.writeDir_ram (s : State) (a : Nat) : (State.writeDir s a).ram = s.ram := by simp [State.writeDir]
@[simp] theorem State.landStaged_ram (s : State) (a : Nat) (closed : Option Nat) : (State.landStaged s a closed).ram = s.ram := by
  unfold State.landStaged
  split
  · rfl
  · simp
    rw [State.each_ram]
    intro s a; split <;> simp
@[simp] theorem State.replayHold_ram (s : State) (a : Nat) : (State.replayHold s a).ram = s.ram := by simp [State.replayHold]
@[simp] theorem State.rebuildIndex_ram (s : State) (a : Nat) : (State.rebuildIndex s a).ram = s.ram := by simp [State.rebuildIndex]
@[simp] theorem State.replayIntents_ram (s : State) (a : Nat) : (State.replayIntents s a).ram = s.ram := by unfold State.replayIntents; (try dsimp only); (repeat' split) <;> (try simp) <;> (repeat' (first | (rw [State.each_ram]) | (intro _) | split)) <;> simp_all
@[simp] theorem State.scanZone_ram (s : State) (a n lba : Nat) : (State.scanZone s a n lba).ram = s.ram := by unfold State.scanZone; (try dsimp only); (repeat' split) <;> (try simp) <;> (repeat' (first | (rw [State.each_ram]) | (intro _) | split)) <;> simp_all
@[simp] theorem State.replayJournal_ram (s : State) (a : Nat) : (State.replayJournal s a).ram = s.ram := by simp [State.replayJournal]
@[simp] theorem State.zonesTo_ram (s : State) (a h : Nat) (st : ZState) : (State.zonesTo s a h st).ram = s.ram := by simp [State.zonesTo]
@[simp] theorem State.halfHeads_ram (s : State) : (State.halfHeads s).ram = s.ram := by simp [State.halfHeads]
@[simp] theorem State.enterTrailhead_ram (s : State) (cause : Nat) : (State.enterTrailhead s cause).ram = s.ram := by simp [State.enterTrailhead]
@[simp] theorem State.beginStart_ram (s : State) (cause : Nat) : (State.beginStart s cause).ram = s.ram := by simp [State.beginStart]
@[simp] theorem State.writeDev_ram (s : State) (typ : Nat) (body : List Byte) : (State.writeDev s typ body).ram = s.ram := by simp [State.writeDev]
@[simp] theorem State.devFall_ram (s : State) (bad : List Nat) (typ : Nat) : (State.devFall s bad typ).ram = s.ram := by simp [State.devFall]
@[simp] theorem State.loadTrims_ram (s : State) (bad : List Nat) : (State.loadTrims s bad).ram = s.ram := by unfold State.loadTrims; (try dsimp only); (repeat' split) <;> simp
@[simp] theorem State.headFinal_ram (s : State) (a h : Nat) : (State.headFinal s a h).ram = s.ram := by simp [State.headFinal]
@[simp] theorem State.assistPasses_ram (s : State) (a h : Nat) (o : AsstCal) : (State.assistPasses s a h o).ram = s.ram := by simp [State.assistPasses]
@[simp] theorem State.assistFails_ram (s : State) (a h : Nat) : (State.assistFails s a h).ram = s.ram := by simp [State.assistFails]
@[simp] theorem State.channelDone_ram (s : State) (a h : Nat) (o : ChanCal) : (State.channelDone s a h o).ram = s.ram := by simp [State.channelDone]
@[simp] theorem State.servoDone_ram (s : State) (a h : Nat) (o : ChanCal) : (State.servoDone s a h o).ram = s.ram := by simp [State.servoDone]
@[simp] theorem State.queueCal_ram (s : State) (a h kind : Nat) : (State.queueCal s a h kind).ram = s.ram := by simp [State.queueCal]
@[simp] theorem State.grazeSays_ram (s : State) (r : Requester) (reason : Nat) : (State.grazeSays s r reason).ram = s.ram := by simp [State.grazeSays]
@[simp] theorem State.recal_ram (s : State) (r : Requester) (kind : Nat) (g : State → Nat → Nat → State) (hg : ∀ x0 x1 x2, (g x0 x1 x2).ram = x0.ram) : (State.recal s r kind g).ram = s.ram := by unfold State.recal; (try dsimp only); (repeat' split) <;> (try simp_all)
@[simp] theorem State.refreshSpn_ram (s : State) (b : Nat) : (State.refreshSpn s b).ram = s.ram := by simp [State.refreshSpn]
@[simp] theorem State.loopLost_ram (s : State) (a : Nat) : (State.loopLost s a).ram = s.ram := by simp [State.loopLost]
@[simp] theorem State.linkLost_ram (s : State) (a : Nat) (dWorks : Bool) : (State.linkLost s a dWorks).ram = s.ram := by simp [State.linkLost]
@[simp] theorem State.refreshSingle_ram (s : State) (a : Nat) : (State.refreshSingle s a).ram = s.ram := by simp [State.refreshSingle]
@[simp] theorem State.laneFails_ram (s : State) (a : Nat) (u1 lock : Bool) : (State.laneFails s a u1 lock).ram = s.ram := by simp [State.laneFails]
@[simp] theorem State.telemetry_ram (s : State) (a : Nat) (e : BitVec 64) : (State.telemetry s a e).ram = s.ram := by unfold State.telemetry; (repeat' split) <;> simp
@[simp] theorem State.downErrors_ram (s : State) (a : Nat) (cnt : BitVec 8) : (State.downErrors s a cnt).ram = s.ram := by simp [State.downErrors]
@[simp] theorem State.badFrame_ram (s : State) (a : Nat) (u1 lock : Bool) : (State.badFrame s a u1 lock).ram = s.ram := by simp [State.badFrame]
@[simp] theorem State.bringSpin_ram (s : State) (b : Nat) : (State.bringSpin s b).ram = s.ram := by simp [State.bringSpin]
@[simp] theorem State.trainingOver_ram (s : State) (b : Nat) : (State.trainingOver s b).ram = s.ram := by simp [State.trainingOver]
@[simp] theorem State.trainFailed_ram (s : State) (a : Nat) : (State.trainFailed s a).ram = s.ram := by simp [State.trainFailed]
@[simp] theorem State.useDesc_ram (s : State) (b : Nat) (d : Descriptor) : (State.useDesc s b d).ram = s.ram := by simp [State.useDesc]
@[simp] theorem State.descEnd_ram (s : State) (a : Nat) (d : Descriptor) (late : Bool) : (State.descEnd s a d late).ram = s.ram := by simp [State.descEnd]
@[simp] theorem State.linkReady_ram (s : State) (a : Nat) (o : TrainOut) (k0 k1 : Bool) : (State.linkReady s a o k0 k1).ram = s.ram := by simp [State.linkReady]
@[simp] theorem State.settleMedia_ram (s : State) (b : Nat) : (State.settleMedia s b).ram = s.ram := by simp [State.settleMedia]
@[simp] theorem State.settleWaiting_ram (s : State) : (State.settleWaiting s).ram = s.ram := by simp [State.settleWaiting]
@[simp] theorem State.actGone_ram (s : State) (a : Nat) : (State.actGone s a).ram = s.ram := by simp [State.actGone]
@[simp] theorem State.absentRec_ram (s : State) (a kind : Nat) : (State.absentRec s a kind).ram = s.ram := by simp [State.absentRec]
@[simp] theorem State.checkRecs_ram (s : State) (a side : Nat) (c : CalData) : (State.checkRecs s a side c).ram = s.ram := by simp [State.checkRecs]
@[simp] theorem State.calSide_ram (s : State) (a side : Nat) (c : CalData) : (State.calSide s a side c).ram = s.ram := by
  unfold State.calSide
  dsimp only
  rw [State.refreshSingle_ram, State.each_ram]
  · rw [State.checkRecs_ram, State.offerSet_ram]
    (repeat' split) <;> simp
  · intro s a; split <;> (try split) <;> simp
@[simp] theorem State.markHead_ram (s : State) (a h kind : Nat) : (State.markHead s a h kind).ram = s.ram := by simp [State.markHead]
@[simp] theorem State.checkFails_ram (s : State) (a h kind : Nat) : (State.checkFails s a h kind).ram = s.ram := by simp [State.checkFails]
@[simp] theorem State.linkReply_ram (s : State) (k reason a : Nat) (data : List Byte) : (State.linkReply s k reason a data).ram = s.ram := by simp [State.linkReply]
@[simp] theorem State.modThm_ram (s : State) (g : Thm → Thm) : (State.modThm s g).ram = s.ram := by simp [State.modThm]
@[simp] theorem State.endBayFlush_ram (s : State) (b : Nat) : (State.endBayFlush s b).ram = s.ram := by simp [State.endBayFlush]
@[simp] theorem State.bayEmergency_ram (s : State) (b : Nat) : (State.bayEmergency s b).ram = s.ram := by simp [State.bayEmergency]
@[simp] theorem State.stopGrazing_ram (s : State) (a : Nat) (h : Option Nat) : (State.stopGrazing s a h).ram = s.ram := by simp [State.stopGrazing]
@[simp] theorem State.bayEvent_ram (s old : State) (b : Nat) : (State.bayEvent s old b).ram = s.ram := by simp [State.bayEvent]
@[simp] theorem State.bayStep_ram (s : State) (b : Nat) (x : Scope) (kind3 : Bool) : (State.bayStep s b x kind3).ram = s.ram := by simp [State.bayStep]
@[simp] theorem State.dieStep_ram (s : State) (x : Scope) : (State.dieStep s x).ram = s.ram := by simp [State.dieStep]
@[simp] theorem State.headStep_ram (s : State) (a h : Nat) (x : Scope) : (State.headStep s a h x).ram = s.ram := by simp [State.headStep]
@[simp] theorem State.thermalReply_ram (s : State) (k b : Nat) : (State.thermalReply s k b).ram = s.ram := by simp [State.thermalReply]
@[simp] theorem State.thermalCtrl_ram (s : State) (r : Requester) (act : Nat) (own : Nat → Nat → Nat) (k : State → Nat → Nat → State) (hk : ∀ x0 x1 x2, (k x0 x1 x2).ram = x0.ram) : (State.thermalCtrl s r act own k).ram = s.ram := by unfold State.thermalCtrl; (try dsimp only); (repeat' split) <;> (try simp_all)
@[simp] theorem State.modCache_ram (s : State) (g : CacheSt → CacheSt) : (State.modCache s g).ram = s.ram := by simp [State.modCache]
@[simp] theorem State.startWalk_ram (s : State) (g : Nat) : (State.startWalk s g).ram = s.ram := by simp [State.startWalk]
@[simp] theorem State.wantGroup_ram (s : State) (g : Nat) : (State.wantGroup s g).ram = s.ram := by simp [State.wantGroup]
@[simp] theorem State.disableGroup_ram (s : State) (g : Nat) : (State.disableGroup s g).ram = s.ram := by simp [State.disableGroup]
@[simp] theorem State.enableGroup_ram (s : State) (g : Nat) : (State.enableGroup s g).ram = s.ram := by simp [State.enableGroup]
@[simp] theorem State.disableCache_ram (s : State) : (State.disableCache s).ram = s.ram := by simp [State.disableCache]
@[simp] theorem State.enableCache_ram (s : State) : (State.enableCache s).ram = s.ram := by simp [State.enableCache]
@[simp] theorem State.endWalk_ram (s : State) (g : Nat) : (State.endWalk s g).ram = s.ram := by simp [State.endWalk]
@[simp] theorem State.faultGroup_ram (s : State) (g : Nat) : (State.faultGroup s g).ram = s.ram := by simp [State.faultGroup]
@[simp] theorem State.poisonSlot_ram (s : State) (order : Nat) : (State.poisonSlot s order).ram = s.ram := by unfold State.poisonSlot; (try dsimp only); (repeat' split) <;> simp
@[simp] theorem State.fixedNow_ram (s : State) (key : Nat) : (State.fixedNow s key).ram = s.ram := by simp [State.fixedNow]
@[simp] theorem State.remapLine_ram (s : State) (x : Nat) : (State.remapLine s x).ram = s.ram := by simp [State.remapLine]
@[simp] theorem State.softRepair_ram (s : State) (x : SoftRec) : (State.softRepair s x).ram = s.ram := by simp [State.softRepair]
@[simp] theorem State.scrubSram_ram (s : State) (r : ScrubRead) : (State.scrubSram s r).ram = s.ram := by simp [State.scrubSram]
@[simp] theorem State.layoutReply_ram (s : State) (k reason : Nat) (g : Nat → Area) : (State.layoutReply s k reason g).ram = s.ram := by simp [State.layoutReply]
@[simp] theorem State.layoutSays_ram (s : State) (k reason : Nat) : (State.layoutSays s k reason).ram = s.ram := by simp [State.layoutSays]
@[simp] theorem State.clearPoison_ram (s : State) (e : PoisonEnt) : (State.clearPoison s e).ram = s.ram := by simp [State.clearPoison]
@[simp] theorem State.fwReply_ram (s : State) (k reason slot : Nat) : (State.fwReply s k reason slot).ram = s.ram := by simp [State.fwReply]
theorem State.refusedAction_ram (s t : State) (k op : Nat) (p : List Byte) (h : s.refusedAction k op p = some t) : t.ram = s.ram := by
  revert t
  unfold State.refusedAction
  dsimp only
  repeat' apply ite_some_ram
  all_goals simp
@[simp] theorem State.goMbx_ram (s : State) (k : Nat) (seq : BitVec 16) : (State.goMbx s k seq).ram = s.ram := by
  unfold State.goMbx
  dsimp only
  (repeat' split) <;> try simp
  cases h : State.refusedAction _ _ _ _ with
  | none => simp
  | some t => simpa using State.refusedAction_ram _ _ _ _ _ h
@[simp] theorem State.writeReqbuf_ram (s : State) (k off : Nat) (data : List Byte) : (State.writeReqbuf s k off data).ram = s.ram := by simp [State.writeReqbuf]
@[simp] theorem State.writeMbxReq_ram (s : State) (k : Nat) (op len : BitVec 16) : (State.writeMbxReq s k op len).ram = s.ram := by simp [State.writeMbxReq]
@[simp] theorem State.sqGone_ram (s : State) (k key : Nat) : (State.sqGone s k key).ram = s.ram := by simp [State.sqGone]
@[simp] theorem State.smbus_ram (s : State) (pec : Bool) (g : State → State) (hg : ∀ x0, (g x0).ram = x0.ram) : (State.smbus s pec g).ram = s.ram := by unfold State.smbus; (try dsimp only); (repeat' split) <;> (try simp_all)
@[simp] theorem State.unfetch_ram (s : State) (key : Nat) : (State.unfetch s key).ram = s.ram := by simp [State.unfetch]
@[simp] theorem State.dropSaved_ram (s : State) (i : Nat) : (State.dropSaved s i).ram = s.ram := by simp [State.dropSaved]
@[simp] theorem State.loseSlots_ram (s : State) (a : Nat) : (State.loseSlots s a).ram = s.ram := by simp [State.loseSlots]
@[simp] theorem State.islandEffect_ram (s : State) (i : Nat) : (State.islandEffect s i).ram = s.ram := by simp [State.islandEffect]
@[simp] theorem State.resetIsland_ram (s : State) (i : Nat) (flight : Tab Nat) : (State.resetIsland s i flight).ram = s.ram := by simp [State.resetIsland]
@[simp] theorem State.askIslandReset_ram (s : State) (i : Nat) (flight : Tab Nat) : (State.askIslandReset s i flight).ram = s.ram := by simp [State.askIslandReset]
@[simp] theorem State.modClk_ram (s : State) (g : Clk → Clk) : (State.modClk s g).ram = s.ram := by simp [State.modClk]
@[simp] theorem State.discipline_ram (s : State) : (State.discipline s).ram = s.ram := by simp [State.discipline]
@[simp] theorem State.raiseGen_ram (s : State) (slot nsid : Nat) : (State.raiseGen s slot nsid).ram = s.ram := by simp [State.raiseGen]
@[simp] theorem State.dropNs_ram (s : State) (n : Nat) : (State.dropNs s n).ram = s.ram := by simp [State.dropNs]
@[simp] theorem State.stageGrant_ram (s : State) (r : Requester) (g : Bool) : (State.stageGrant s r g).ram = s.ram := by simp [State.stageGrant]
@[simp] theorem State.attach_ram (s : State) (n f : Nat) (on : Bool) : (State.attach s n f on).ram = s.ram := by simp [State.attach]
@[simp] theorem State.serveAttach_ram (s : State) (r : Requester) (g : Bool) : (State.serveAttach s r g).ram = s.ram := by simp [State.serveAttach]
@[simp] theorem State.putGrant_ram (s : State) (g : StagedGrant) : (State.putGrant s g).ram = s.ram := by simp [State.putGrant]
@[simp] theorem State.epochApplied_ram (s : State) : (State.epochApplied s).ram = s.ram := by simp [State.epochApplied]
@[simp] theorem State.reweigh_ram (s : State) (a : Nat) (was now : EpochCfg) : (State.reweigh s a was now).ram = s.ram := by simp [State.reweigh]
@[simp] theorem State.writePortRec_ram (s : State) (r : PortRec) : (State.writePortRec s r).ram = s.ram := by simp [State.writePortRec]
@[simp] theorem State.tallyRing_ram (s : State) (r : Requester) (act : Nat) (g : State → Nat → List Byte → Nat × State)
    (hg : ∀ s k p, (g s k p).2.ram = s.ram) : (s.tallyRing r act g).ram = s.ram := by
  unfold State.tallyRing
  rw [State.serve_ram]
  intro p
  dsimp only
  simp
  (repeat' split) <;> simp_all
@[simp] theorem State.tallyWrite_ram (s : State) (key : Nat) (body : List Byte) : (State.tallyWrite s key body).ram = s.ram := by simp [State.tallyWrite]
@[simp] theorem State.modSlot_ram (s : State) (n : Nat) (g : Slot → Slot) : (State.modSlot s n g).ram = s.ram := by simp [State.modSlot]
@[simp] theorem State.loadLayout_ram (s : State) (bad : List Nat) : (State.loadLayout s bad).ram = s.ram := by unfold State.loadLayout; (repeat' split) <;> simp
@[simp] theorem State.softApply_ram (s : State) (lost : List Nat) : (State.softApply s lost).ram = s.ram := by simp [State.softApply]
@[simp] theorem State.replaceLe_ram (s : State) (n : Nat) : (State.replaceLe s n).ram = s.ram := by
  unfold State.replaceLe
  dsimp only
  rw [State.each_ram, State.each_ram]
  · simp
  · intro s a; split <;> simp
  · intro s a; split <;> simp
@[simp] theorem State.resumeFormat_ram (s : State) (o : FmtOp) : (State.resumeFormat s o).ram = s.ram := by simp [State.resumeFormat]
@[simp] theorem State.resumeSan_ram (s : State) (o : SanOp) : (State.resumeSan s o).ram = s.ram := by simp [State.resumeSan]
@[simp] theorem State.islandsUp_ram (s : State) : (State.islandsUp s).ram = s.ram := by simp [State.islandsUp]
@[simp] theorem State.herdsUp_ram (s : State) (img : SlotCheck) : (State.herdsUp s img).ram = s.ram := by simp [State.herdsUp]
@[simp] theorem State.completeStart_ram (s : State) (img : SlotCheck) (failedDe failedLe : List Nat) : (State.completeStart s img failedDe failedLe).ram = s.ram := by simp [State.completeStart]
@[simp] theorem State.serveReset_ram (s : State) (r : Requester) (action : Nat) : (State.serveReset s r action).ram = s.ram := by simp [State.serveReset]
@[simp] theorem State.writeCommand_ram (s : State) (f : Nat) (v : BitVec 64) : (State.writeCommand s f v).ram = s.ram := by simp [State.writeCommand]
@[simp] theorem State.serveFw_ram (s : State) (r : Requester) (act : Nat) (ok : List Byte → Bool)
    (go : State → List Byte → State × Nat) (hg : ∀ s p, (go s p).1.ram = s.ram) : (s.serveFw r act ok go).ram = s.ram := by
  unfold State.serveFw
  rw [State.serve_ram]
  intro p
  dsimp only
  (repeat' split) <;> simp_all
@[simp] theorem State.prefer_ram (s : State) (n : Nat) : (State.prefer s n).ram = s.ram := by simp [State.prefer]
@[simp] theorem State.placeHolds_ram (s : State) (x : Act16) (u : Nat) : (State.placeHolds s x u).ram = s.ram := by simp [State.placeHolds]
@[simp] theorem State.actOver_ram (s : State) (st comp : Nat) : (State.actOver s st comp).ram = s.ram := by simp [State.actOver]
@[simp] theorem State.actDone_ram (s : State) (x : Act16) : (State.actDone s x).ram = s.ram := by simp [State.actDone]
@[simp] theorem State.rollNext_ram (s : State) (x : Act16) : (State.rollNext s x).ram = s.ram := by unfold State.rollNext; (repeat' split) <;> simp
@[simp] theorem State.endRoutine_ram (s : State) (a : Nat) : (State.endRoutine s a).ram = s.ram := by simp [State.endRoutine]
@[simp] theorem State.beginFlush_ram (s : State) (a : Nat) : (State.beginFlush s a).ram = s.ram := by simp [State.beginFlush]
@[simp] theorem State.quarReply_ram (s : State) (k reason b : Nat) : (State.quarReply s k reason b).ram = s.ram := by simp [State.quarReply]
@[simp] theorem State.keyReply_ram (s : State) (k reason x : Nat) (blob : List Byte) : (State.keyReply s k reason x blob).ram = s.ram := by simp [State.keyReply]
@[simp] theorem State.sanReply_ram (s : State) (k reason id : Nat) : (State.sanReply s k reason id).ram = s.ram := by simp [State.sanReply]
@[simp] theorem State.enterSanitize_ram (s : State) (kind : Nat) (ns : List Nat) : (State.enterSanitize s kind ns).ram = s.ram := by simp [State.enterSanitize]
@[simp] theorem State.serveSanitize_ram (s : State) (r : Requester) (kind : Nat) : (State.serveSanitize s r kind).ram = s.ram := by simp [State.serveSanitize]
@[simp] theorem State.afterRead_ram (s : State) (f off : Nat) : (State.afterRead s f off).ram = s.ram := by simp [State.afterRead]
@[simp] theorem State.read4_ram (s : State) (f off : Nat) : (s.read4 f off).2.ram = s.ram := by
  unfold State.read4; (repeat' split) <;> simp
@[simp] theorem State.readReg_ram (s : State) (f off : Nat) (wide : Bool) : (State.readReg s f off wide).ram = s.ram := by
  unfold State.readReg
  dsimp only
  split <;> simp
@[simp] theorem State.access_ram (s : State) (f off : Nat) (wide posted : Bool) (k : State → State) (hk : ∀ x0, (k x0).ram = x0.ram) : (State.access s f off wide posted k).ram = s.ram := by unfold State.access; (try dsimp only); (repeat' split) <;> (try simp_all)
@[simp] theorem State.readBar0_ram (s : State) (f off : Nat) (wide : Bool) : (State.readBar0 s f off wide).ram = s.ram := by simp [State.readBar0]
@[simp] theorem State.noteDebug_ram (s old : State) : (State.noteDebug s old).ram = s.ram := by simp [State.noteDebug]
@[simp] theorem State.writeLck_ram (s : State) (v : Word) : (State.writeLck s v).ram = s.ram := by simp [State.writeLck]
@[simp] theorem State.writeDbg_ram (s : State) (v : Word) : (State.writeDbg s v).ram = s.ram := by simp [State.writeDbg]
@[simp] theorem State.writeFwkey_ram (s : State) (v : Word) : (State.writeFwkey s v).ram = s.ram := by simp [State.writeFwkey]
@[simp] theorem State.clearLatch_ram (s : State) (p n : Nat) (v : Word) : (State.clearLatch s p n v).ram = s.ram := by simp [State.clearLatch]
@[simp] theorem State.clearFnLatch_ram (s : State) (f : Nat) (v : Word) : (State.clearFnLatch s f v).ram = s.ram := by simp [State.clearFnLatch]
@[simp] theorem State.modSel_ram (s : State) (p : Nat) (g : PfSel → PfSel) : (State.modSel s p g).ram = s.ram := by simp [State.modSel]
@[simp] theorem State.modStaged_ram (s : State) (g : EpochCfg → EpochCfg) : (State.modStaged s g).ram = s.ram := by simp [State.modStaged]
@[simp] theorem State.writeStaged_ram (s : State) (off : Nat) (v : Word) : (State.writeStaged s off v).ram = s.ram := by simp [State.writeStaged]
@[simp] theorem State.writeLcCtrl_ram (s : State) (v : Word) : (State.writeLcCtrl s v).ram = s.ram := by simp [State.writeLcCtrl]
@[simp] theorem State.writeClk_ram (s : State) (v : Word) : (State.writeClk s v).ram = s.ram := by simp [State.writeClk]
@[simp] theorem State.writePort_ram (s : State) (p off : Nat) (v : Word) : (State.writePort s p off v).ram = s.ram := by simp [State.writePort]
@[simp] theorem State.clearXing_ram (s : State) (p : Nat) (v : Word) : (State.clearXing s p v).ram = s.ram := by simp [State.clearXing]
@[simp] theorem State.writeDiag_ram (s : State) (off : Nat) (v : Word) : (State.writeDiag s off v).ram = s.ram := by simp [State.writeDiag]
@[simp] theorem State.writeTalHead_ram (s : State) (f k : Nat) (v : Word) : (State.writeTalHead s f k v).ram = s.ram := by simp [State.writeTalHead]
@[simp] theorem State.writeDb_ram (s : State) (f o : Nat) (v : Word) : (State.writeDb s f o v).ram = s.ram := by simp [State.writeDb]
@[simp] theorem State.writeFn_ram (s : State) (f off : Nat) (v : Word) : (State.writeFn s f off v).ram = s.ram := by simp [State.writeFn]
theorem State.writeOwn_ram (s t : State) (off : Nat) (v : Word) (fl : Tab Nat) (h : s.writeOwn off v fl = some t) : t.ram = s.ram := by
  revert t
  unfold State.writeOwn
  repeat' apply ite_some_ram
  all_goals simp
@[simp] theorem State.writePf_ram (s : State) (f off : Nat) (v : Word) (flight : Tab Nat) : (State.writePf s f off v flight).ram = s.ram := by
  unfold State.writePf
  dsimp only
  (repeat' split) <;> first | (simp; done) | (rename_i h _; simpa using State.writeOwn_ram _ _ _ _ _ h)
@[simp] theorem State.write4_ram (s : State) (f off : Nat) (v : Word) (flight : Tab Nat) : (State.write4 s f off v flight).ram = s.ram := by simp [State.write4]
@[simp] theorem State.writeReg_ram (s : State) (f off : Nat) (wide : Bool) (data : BitVec 64) (flight : Tab Nat) : (State.writeReg s f off wide data flight).ram = s.ram := by simp [State.writeReg]
end Sys2Proof.Machine
end

