-- ==== Sys2Proof/Laws/Memory.lean ====
section
/-! SUPPORT. Bytes of the staging DRAM: what a write changes, and that every write keeps the canonical form. -/
namespace Sys2Proof.Machine

open Sys2Proof

/-- Every address listed is above `k`. -/
theorem Memory.wf_tail {a : Nat} {v : Byte} {m : List Host.Cell} (h : Memory.wf ((a, v) :: m) = true) :
    v ≠ 0 ∧ Memory.wf m = true ∧ ∀ c ∈ m, a < c.1 := by
  induction m generalizing a v with
  | nil => simpa [Memory.wf] using h
  | cons c m ih =>
    obtain ⟨b, w⟩ := c
    simp only [Memory.wf, Bool.and_eq_true, bne_iff_ne, decide_eq_true_eq] at h
    obtain ⟨⟨h1, h2⟩, h3⟩ := h
    refine ⟨h1, h3, fun c hc => ?_⟩
    rcases List.mem_cons.1 hc with rfl | hc
    · exact h2
    · exact Nat.lt_trans h2 ((ih h3).2.2 c hc)

theorem Memory.wf_cons {a : Nat} {v : Byte} {m : List Host.Cell} (hv : v ≠ 0) (hm : Memory.wf m = true) (h : ∀ c ∈ m, a < c.1) :
    Memory.wf ((a, v) :: m) = true := by
  cases m with
  | nil => simpa [Memory.wf] using hv
  | cons c m =>
    have := h c (by simp)
    simp only [Memory.wf, Bool.and_eq_true, bne_iff_ne, decide_eq_true_eq]
    exact ⟨⟨hv, this⟩, hm⟩

theorem mem_ramSet {m : List Host.Cell} {k : Nat} {v : Byte} {c : Host.Cell} (h : c ∈ ramSet m k v) : c.1 = k ∨ c ∈ m := by
  induction m with
  | nil => unfold ramSet at h; split at h <;> simp_all
  | cons x m ih =>
    obtain ⟨a, u⟩ := x
    unfold ramSet at h
    grind

/-- Writing one byte keeps the canonical form. -/
theorem ramSet_wf {m : List Host.Cell} (h : Memory.wf m = true) (k : Nat) (v : Byte) : Memory.wf (ramSet m k v) = true := by
  induction m with
  | nil => unfold ramSet; split <;> simp_all [Memory.wf]
  | cons x m ih =>
    obtain ⟨a, u⟩ := x
    obtain ⟨hu, hm, ha⟩ := Memory.wf_tail h
    unfold ramSet
    split
    · refine Memory.wf_cons hu (ih hm) fun c hc => ?_
      rcases mem_ramSet hc with hc | hc
      · omega
      · exact ha c hc
    · split
      · split
        · exact hm
        · subst_vars; exact Memory.wf_cons ‹_› hm ha
      · split
        · exact h
        · refine Memory.wf_cons ‹_› h fun c hc => ?_
          rcases List.mem_cons.1 hc with rfl | hc
          · dsimp only; omega
          · have := ha c hc; omega

theorem ramRead_below {m : List Host.Cell} {k : Nat} (h : ∀ c ∈ m, k < c.1) : ramRead m k = 0 := by
  induction m with
  | nil => rfl
  | cons x m ih =>
    obtain ⟨a, u⟩ := x
    have := h (a, u) (by simp)
    rw [ramRead, if_neg (by dsimp only at this; omega), ih fun c hc => h c (by simp [hc])]

/-- Reading a byte after one was written: that byte, or what was there. -/
theorem ramRead_ramSet {m : List Host.Cell} (h : Memory.wf m = true) (k j : Nat) (v : Byte) :
    ramRead (ramSet m k v) j = if j = k then v else ramRead m j := by
  induction m with
  | nil => unfold ramSet; grind [ramRead]
  | cons x m ih =>
    obtain ⟨a, u⟩ := x
    obtain ⟨_, hm, ha⟩ := Memory.wf_tail h
    have hb : a = k → ramRead m k = 0 := fun e => ramRead_below fun c hc => e ▸ ha c hc
    have hc : k < a → ramRead m k = 0 := fun e => ramRead_below fun c hc => by have := ha c hc; omega
    have ih := ih hm
    unfold ramSet
    grind [ramRead]

/-- Writing bytes from an address on keeps the canonical form. -/
theorem ramWrite_wf {m : List Host.Cell} (h : Memory.wf m = true) (k : Nat) (bs : List Byte) : Memory.wf (ramWrite m k bs) = true := by
  induction bs generalizing m k with
  | nil => exact h
  | cons b t ih => exact ih (ramSet_wf h k b) (k + 1)

/-- Reading a byte after bytes were written from `k` on: the byte written there, or what was there. -/
theorem ramRead_ramWrite {m : List Host.Cell} (h : Memory.wf m = true) (k j : Nat) (bs : List Byte) :
    ramRead (ramWrite m k bs) j = if k ≤ j ∧ j < k + bs.length then bs.getD (j - k) 0 else ramRead m j := by
  induction bs generalizing m k with
  | nil => simp [ramWrite] <;> omega
  | cons b t ih =>
    rw [ramWrite, ih (ramSet_wf h k b), ramRead_ramSet h]
    by_cases h1 : j = k
    · subst h1; simp <;> omega
    · by_cases h2 : k + 1 ≤ j ∧ j < k + 1 + t.length
      · have e : j - k = (j - (k + 1)) + 1 := by omega
        rw [if_pos h2, if_pos (by simp; omega), e]; simp
      · rw [if_neg h2, if_neg h1, if_neg (by simp; omega)]

theorem foldl_ramSet_wf (l : Tab Byte) (x : Nat) {m : List Host.Cell} (h : Memory.wf m = true) :
    Memory.wf (l.foldl (fun m (i, b) => ramSet m (x + i) b) m) = true := by
  induction l generalizing m with
  | nil => exact h
  | cons r t ih => exact ih (ramSet_wf h _ _)

theorem State.foldl_wf {α : Type} (g : State → α → State) (hg : ∀ s a, Memory.wf s.ram = true → Memory.wf (g s a).ram = true)
    (l : List α) (s : State) (h : Memory.wf s.ram = true) : Memory.wf (l.foldl g s).ram = true := by
  induction l generalizing s with
  | nil => exact h
  | cons a t ih => exact ih _ (hg s a h)

theorem State.each_wf {α : Type} (s : State) (l : List α) (g : State → α → State)
    (hg : ∀ s a, Memory.wf s.ram = true → Memory.wf (g s a).ram = true) (h : Memory.wf s.ram = true) :
    Memory.wf (s.each l g).ram = true := State.foldl_wf g hg l s h

theorem State.poisonLine_wf (s : State) (n x : Nat) (h : Memory.wf s.ram = true) : Memory.wf (s.poisonLine n x).ram = true := by
  unfold State.poisonLine
  dsimp only
  split
  · dsimp only
    apply ramWrite_wf
    simpa using h
  · simpa using h

theorem State.putLine_wf (s : State) (x : Nat) (bs : List Byte) (h : Memory.wf s.ram = true) : Memory.wf (s.putLine x bs).ram = true := by
  unfold State.putLine
  exact ramWrite_wf (by simpa using h) _ _

theorem State.writeOut_wf (s : State) (e : MergeEnt) (ok : Bool) (h : Memory.wf s.ram = true) : Memory.wf (s.writeOut e ok).ram = true := by
  unfold State.writeOut
  split
  · exact s.putLine_wf _ _ h
  · dsimp only
    apply foldl_ramSet_wf
    have hp := State.poisonLine_wf
    (repeat' split) <;> simp_all

theorem State.settle_wf (s : State) (k n : Nat) (h : Memory.wf s.ram = true) : Memory.wf (s.settle k n).ram = true :=
  State.each_wf _ _ _ (fun s e h => s.writeOut_wf e true h) h

theorem State.mergeWrite_wf (s : State) (k : Nat) (bs : List Byte) (h : Memory.wf s.ram = true) : Memory.wf (s.mergeWrite k bs).ram = true := by
  unfold State.mergeWrite
  dsimp only
  have hw := State.writeOut_wf
  split
  · apply hw; (repeat' split) <;> simp_all
  · (repeat' split) <;> simp_all

theorem State.ramStore_wf (n : Nat) (s : State) (k : Nat) (bs : List Byte) (h : Memory.wf s.ram = true) :
    Memory.wf (State.ramStore n s k bs).ram = true := by
  induction n generalizing s k bs with
  | zero => exact h
  | succ n ih =>
    unfold State.ramStore
    split
    · exact h
    · dsimp only
      apply ih
      split
      · exact s.putLine_wf _ _ h
      · exact s.mergeWrite_wf _ _ h

/-- A reset of any kind empties the staging DRAM (11 R307). -/
theorem State.wipe_ram (s : State) (cold : Bool) : (s.wipe cold).ram = [] := rfl

end Sys2Proof.Machine
end

