-- ==== Sys2Proof/Laws/Merge.lean ====
section
/-! SUPPORT. What leaves the merge buffer of the staging DRAM alone: one lemma per operation of the block that joins, drops and writes out no entry. -/
namespace Sys2Proof.Machine
open Sys2Proof
@[simp] theorem State.ite_merge (c : Prop) [Decidable c] (s t : State) : (if c then s else t).mem.merge = if c then s.mem.merge else t.mem.merge := by split <;> rfl
@[simp] theorem State.foldl_merge {α : Type} (g : State → α → State) (hg : ∀ s a, (g s a).mem.merge = s.mem.merge) (l : List α) (s : State) : (l.foldl g s).mem.merge = s.mem.merge := by
  induction l generalizing s with
  | nil => rfl
  | cons a t ih => simp [ih, hg]
@[simp] theorem State.each_merge {α : Type} (s : State) (l : List α) (g : State → α → State) (hg : ∀ s a, (g s a).mem.merge = s.mem.merge) : (s.each l g).mem.merge = s.mem.merge := State.foldl_merge g hg l s
theorem ite_some_merge {c : Prop} [Decidable c] {a b : Option State} {v : List MergeEnt} (ha : ∀ t, a = some t → t.mem.merge = v)
    (hb : ∀ t, b = some t → t.mem.merge = v) : ∀ t, (if c then a else b) = some t → t.mem.merge = v := by split <;> assumption
theorem foldl_fst_merge {α β : Type} (g : State × β → α → State × β) (hg : ∀ x a, (g x a).1.mem.merge = x.1.mem.merge) (l : List α) (x : State × β) : (l.foldl g x).1.mem.merge = x.1.mem.merge := by
  induction l generalizing x with
  | nil => rfl
  | cons a t ih => simp [ih, hg]

@[simp] theorem State.modAdm_merge (s : State) (a : Nat) (g : Adm → Adm) : (State.modAdm s a g).mem.merge = s.mem.merge := by simp [State.modAdm]
@[simp] theorem State.modMed_merge (s : State) (a : Nat) (g : Med → Med) : (State.modMed s a g).mem.merge = s.mem.merge := by simp [State.modMed]
@[simp] theorem State.modCfe_merge (s : State) (a : Nat) (g : Cfe → Cfe) : (State.modCfe s a g).mem.merge = s.mem.merge := by simp [State.modCfe]
@[simp] theorem State.modFmt_merge (s : State) (a : Nat) (g : Fmt → Fmt) : (State.modFmt s a g).mem.merge = s.mem.merge := by simp [State.modFmt]
@[simp] theorem State.modLoop_merge (s : State) (a : Nat) (g : Loop → Loop) : (State.modLoop s a g).mem.merge = s.mem.merge := by simp [State.modLoop]
@[simp] theorem State.modCwy_merge (s : State) (a : Nat) (g : Cwy → Cwy) : (State.modCwy s a g).mem.merge = s.mem.merge := by simp [State.modCwy]
@[simp] theorem State.modGraze_merge (s : State) (a : Nat) (g : Graze → Graze) : (State.modGraze s a g).mem.merge = s.mem.merge := by simp [State.modGraze]
@[simp] theorem State.modHead_merge (s : State) (a h : Nat) (g : HeadSt → HeadSt) : (State.modHead s a h g).mem.merge = s.mem.merge := by simp [State.modHead]
@[simp] theorem State.modSpin_merge (s : State) (b : Nat) (g : Spin → Spin) : (State.modSpin s b g).mem.merge = s.mem.merge := by simp [State.modSpin]
@[simp] theorem State.modLink_merge (s : State) (b : Nat) (g : BayLink → BayLink) : (State.modLink s b g).mem.merge = s.mem.merge := by simp [State.modLink]
@[simp] theorem State.useFree_merge (s : State) : (State.useFree s).mem.merge = s.mem.merge := by simp [State.useFree]
@[simp] theorem State.touch_merge (s : State) (f : Nat) : (State.touch s f).mem.merge = s.mem.merge := by simp [State.touch]
@[simp] theorem State.sendTlp_merge (s : State) (f : Nat) : (State.sendTlp s f).mem.merge = s.mem.merge := by simp [State.sendTlp]
@[simp] theorem State.emit_merge (s : State) (m : OutMsg) : (State.emit s m).mem.merge = s.mem.merge := by unfold State.emit; (repeat' split) <;> simp
@[simp] theorem State.raise_merge (s : State) (src : Nat) : (State.raise s src).mem.merge = s.mem.merge := by simp [State.raise]
@[simp] theorem State.raiseFn_merge (s : State) (f b : Nat) : (State.raiseFn s f b).mem.merge = s.mem.merge := by simp [State.raiseFn]
@[simp] theorem State.raiseFns_merge (s : State) (fs : List Nat) (b : Nat) : (State.raiseFns s fs b).mem.merge = s.mem.merge := by simp [State.raiseFns]
@[simp] theorem State.logPort_merge (s : State) (f cause : Nat) : (State.logPort s f cause).mem.merge = s.mem.merge := by simp [State.logPort]
@[simp] theorem State.portFault_merge (s : State) (f i : Nat) : (State.portFault s f i).mem.merge = s.mem.merge := by simp [State.portFault]
@[simp] theorem State.ignoreWrite_merge (s : State) (f : Nat) : (State.ignoreWrite s f).mem.merge = s.mem.merge := by simp [State.ignoreWrite]
@[simp] theorem State.aerLog_merge (s : State) (f b : Nat) (adv : Bool) (hdr : Option Nat) : (State.aerLog s f b adv hdr).mem.merge = s.mem.merge := by simp [State.aerLog]
@[simp] theorem State.refuseReq_merge (s : State) (f cause : Nat) (posted : Bool) (hdr : Nat) : (State.refuseReq s f cause posted hdr).mem.merge = s.mem.merge := by unfold State.refuseReq; (repeat' split) <;> simp
@[simp] theorem State.refuseAny_merge (s : State) (f cause : Nat) (posted : Bool) : (State.refuseAny s f cause posted).mem.merge = s.mem.merge := by simp [State.refuseAny]
@[simp] theorem State.bar0_merge (s : State) (f : Nat) (posted : Bool) (k : State → State) (hk : ∀ x0, (k x0).mem.merge = x0.mem.merge) : (State.bar0 s f posted k).mem.merge = s.mem.merge := by unfold State.bar0; (try dsimp only); (repeat' split) <;> (try simp_all)
@[simp] theorem State.stewardWrite_merge (s : State) (f : Nat) (k : State → State) (hk : ∀ x0, (k x0).mem.merge = x0.mem.merge) : (State.stewardWrite s f k).mem.merge = s.mem.merge := by unfold State.stewardWrite; (try dsimp only); (repeat' split) <;> (try simp_all)
@[simp] theorem State.logQueue_merge (s : State) (f cause : Nat) (cq : Bool) (q : Nat) : (State.logQueue s f cause cq q).mem.merge = s.mem.merge := by simp [State.logQueue]
@[simp] theorem State.charge_merge (s : State) (f n : Nat) (g : Acc → Acc) : (State.charge s f n g).mem.merge = s.mem.merge := by simp [State.charge]
@[simp] theorem State.chargePoison_merge (s : State) (n : Nat) : (State.chargePoison s n).mem.merge = s.mem.merge := by simp [State.chargePoison]
@[simp] theorem State.modCmd_merge (s : State) (id : Nat) (g : Cmd → Cmd) : (State.modCmd s id g).mem.merge = s.mem.merge := by simp [State.modCmd]
@[simp] theorem State.tick_merge (s : State) : (State.tick s).mem.merge = s.mem.merge := by simp [State.tick]
@[simp] theorem State.mapFns_merge (s : State) (g : Nat → FnSt → FnSt) : (State.mapFns s g).mem.merge = s.mem.merge := by simp [State.mapFns]
@[simp] theorem State.mapCmds_merge (s : State) (g : Cmd → Cmd) : (State.mapCmds s g).mem.merge = s.mem.merge := by simp [State.mapCmds]
@[simp] theorem State.modStage_merge (s : State) (g : Staging → Staging) : (State.modStage s g).mem.merge = s.mem.merge := by simp [State.modStage]
@[simp] theorem State.mapR_merge (s : State) (g : RSlot → RSlot) : (State.mapR s g).mem.merge = s.mem.merge := by simp [State.mapR]
@[simp] theorem State.mapW_merge (s : State) (g : WSlot → WSlot) : (State.mapW s g).mem.merge = s.mem.merge := by simp [State.mapW]
@[simp] theorem State.mapRec_merge (s : State) (g : RecEntry → RecEntry) : (State.mapRec s g).mem.merge = s.mem.merge := by simp [State.mapRec]
@[simp] theorem State.mapFmt_merge (s : State) (g : FmtOp → FmtOp) : (State.mapFmt s g).mem.merge = s.mem.merge := by simp [State.mapFmt]
@[simp] theorem State.mapSan_merge (s : State) (g : SanOp → SanOp) : (State.mapSan s g).mem.merge = s.mem.merge := by simp [State.mapSan]
@[simp] theorem State.modMem_merge (s : State) (g : MemSt → MemSt) (hg : ∀ x, (g x).merge = x.merge) : (State.modMem s g).mem.merge = s.mem.merge := hg _
@[simp] theorem State.modPool_merge (s : State) (g : Pool → Pool) : (State.modPool s g).mem.merge = s.mem.merge := by simp [State.modPool]
@[simp] theorem State.modBoot_merge (s : State) (g : Boot → Boot) : (State.modBoot s g).mem.merge = s.mem.merge := by simp [State.modBoot]
@[simp] theorem State.modCfg_merge (s : State) (g : Cfg → Cfg) : (State.modCfg s g).mem.merge = s.mem.merge := by simp [State.modCfg]
@[simp] theorem State.modGlb_merge (s : State) (g : Glb → Glb) : (State.modGlb s g).mem.merge = s.mem.merge := by simp [State.modGlb]
@[simp] theorem State.worn_merge (s : State) (a : Nat) (gs : List Nat) : (State.worn s a gs).mem.merge = s.mem.merge := by simp [State.worn]
@[simp] theorem State.setPlan_merge (s : State) (a : Nat) (q : List PlanOp) : (State.setPlan s a q).mem.merge = s.mem.merge := by simp [State.setPlan]
@[simp] theorem State.unplan_merge (s : State) (a id : Nat) : (State.unplan s a id).mem.merge = s.mem.merge := by simp [State.unplan]
@[simp] theorem State.replan_merge (s : State) (a : Nat) : (State.replan s a).mem.merge = s.mem.merge := by simp [State.replan]
@[simp] theorem State.replaceRead_merge (s : State) : (State.replaceRead s).mem.merge = s.mem.merge := by unfold State.replaceRead; (repeat' split) <;> simp
@[simp] theorem State.pin_merge (s : State) (id : Nat) (x : Sector) : (State.pin s id x).mem.merge = s.mem.merge := by
  have e : ∀ (u : State) (g : Staging), ({ u with stage := g } : State).mem.merge = u.mem.merge := fun _ _ => rfl
  unfold State.pin
  dsimp only
  split
  · exact e _ _
  · exact (e _ _).trans (State.replaceRead_merge s)
@[simp] theorem State.rewritten_merge (s : State) (n lba : Nat) : (State.rewritten s n lba).mem.merge = s.mem.merge := by simp [State.rewritten]
@[simp] theorem State.writeCommitted_merge (s : State) (n lba : Nat) : (State.writeCommitted s n lba).mem.merge = s.mem.merge := by simp [State.writeCommitted]
@[simp] theorem State.pruneStaged_merge (s : State) : (State.pruneStaged s).mem.merge = s.mem.merge := by simp [State.pruneStaged]
@[simp] theorem State.payAssist_merge (s : State) (a : Nat) (q : FmtCmd) (e : Nat) : (State.payAssist s a q e).mem.merge = s.mem.merge := by simp [State.payAssist]
@[simp] theorem State.sendAssist_merge (s : State) (a h : Nat) (lvl : AssistLevel) : (State.sendAssist s a h lvl).mem.merge = s.mem.merge := by simp [State.sendAssist]
@[simp] theorem State.openGate_merge (s : State) (a : Nat) (q : FmtCmd) : (State.openGate s a q).mem.merge = s.mem.merge := by simp [State.openGate]
@[simp] theorem State.closeGate_merge (s : State) (a : Nat) (lvl : AssistLevel) : (State.closeGate s a lvl).mem.merge = s.mem.merge := by unfold State.closeGate; (repeat' split) <;> simp
@[simp] theorem State.crossWedge_merge (s : State) (a : Nat) : (State.crossWedge s a).mem.merge = s.mem.merge := by unfold State.crossWedge; (repeat' split) <;> simp
@[simp] theorem State.cutQuantum_merge (s : State) (a : Nat) (r : Routine) : (State.cutQuantum s a r).mem.merge = s.mem.merge := by simp [State.cutQuantum]
@[simp] theorem State.wantSqueeze_merge (s : State) (a : Nat) (r : Routine) (c : Option FmtCmd) : (State.wantSqueeze s a r c).mem.merge = s.mem.merge := by unfold State.wantSqueeze; (repeat' split) <;> simp
@[simp] theorem State.lateInhibit_merge (s : State) (a : Nat) (cause : Option Nat) (toward : Bool) : (State.lateInhibit s a cause toward).mem.merge = s.mem.merge := by unfold State.lateInhibit; (try dsimp only); (repeat' split) <;> simp
@[simp] theorem State.abandonWrite_merge (s : State) (a : Nat) (cause : Option Nat) (toward : Bool) : (State.abandonWrite s a cause toward).mem.merge = s.mem.merge := by unfold State.abandonWrite; (repeat' split) <;> simp
@[simp] theorem State.putBack_merge (s : State) (a : Nat) : (State.putBack s a).mem.merge = s.mem.merge := by unfold State.putBack; (repeat' split) <;> simp
@[simp] theorem State.postEntry_merge (s : State) (f q : Nat) (c : Cpl) : (State.postEntry s f q c).mem.merge = s.mem.merge := by simp [State.postEntry]
@[simp] theorem State.releaseSlot_merge (s : State) (f q : Nat) : (State.releaseSlot s f q).mem.merge = s.mem.merge := by simp [State.releaseSlot]
@[simp] theorem State.tallyEnd_merge (s : State) (c : Cmd) (status : Nat) : (State.tallyEnd s c status).mem.merge = s.mem.merge := by simp [State.tallyEnd]
@[simp] theorem State.dropCmd_merge (s : State) (id : Nat) : (State.dropCmd s id).mem.merge = s.mem.merge := by simp [State.dropCmd]
@[simp] theorem State.ackStaged_merge (s : State) (id : Nat) : (State.ackStaged s id).mem.merge = s.mem.merge := by simp [State.ackStaged]
@[simp] theorem State.postCmd_merge (s : State) (c : Cmd) (status result : Nat) : (State.postCmd s c status result).mem.merge = s.mem.merge := by simp [State.postCmd]
@[simp] theorem State.queueRecovery_merge (s : State) (e : RecEntry) : (State.queueRecovery s e).mem.merge = s.mem.merge := by simp [State.queueRecovery]
@[simp] theorem State.dropAttempts_merge (s : State) (id : Nat) : (State.dropAttempts s id).mem.merge = s.mem.merge := by simp [State.dropAttempts]
@[simp] theorem State.release_merge (s : State) (c : Cmd) (ok : Bool) : (State.release s c ok).mem.merge = s.mem.merge := by simp [State.release]
@[simp] theorem State.postOrHold_merge (s : State) (c : Cmd) (status result : Nat) : (State.postOrHold s c status result).mem.merge = s.mem.merge := by simp [State.postOrHold]
@[simp] theorem State.recover_merge (s : State) (c : Cmd) : (s.recover c).1.mem.merge = s.mem.merge := by
  unfold State.recover; dsimp only; split <;> simp
@[simp] theorem State.endCmd_merge (s : State) (id status result : Nat) : (State.endCmd s id status result).mem.merge = s.mem.merge := by unfold State.endCmd; (repeat' split) <;> simp
@[simp] theorem State.postEarly_merge (s : State) : (State.postEarly s).mem.merge = s.mem.merge := by simp [State.postEarly]
@[simp] theorem State.removedFirst_merge (s : State) (b : Nat) : (State.removedFirst s b).mem.merge = s.mem.merge := by simp [State.removedFirst]
@[simp] theorem State.fixStatus_merge (s : State) (ids : List Nat) (status : Nat) : (State.fixStatus s ids status).mem.merge = s.mem.merge := by simp [State.fixStatus]
@[simp] theorem State.restores_merge (s : State) (id w : Nat) : (State.restores s id w).mem.merge = s.mem.merge := by simp [State.restores]
@[simp] theorem State.failZoneWrite_merge (s : State) (c : Cmd) : (State.failZoneWrite s c).mem.merge = s.mem.merge := by simp [State.failZoneWrite]
@[simp] theorem State.failZoneAction_merge (s : State) (c : Cmd) : (State.failZoneAction s c).mem.merge = s.mem.merge := by simp [State.failZoneAction]
@[simp] theorem State.undoZone_merge (s : State) (c : Cmd) : (State.undoZone s c).mem.merge = s.mem.merge := by simp [State.undoZone]
@[simp] theorem State.cutOffs_merge (s : State) (c : Cmd) : (State.cutOffs s c).mem.merge = s.mem.merge := by simp [State.cutOffs]
@[simp] theorem State.endAll_merge (s : State) (l : List (Nat × Nat × Nat)) : (State.endAll s l).mem.merge = s.mem.merge := by unfold State.endAll; (try dsimp only); (repeat' split) <;> (try simp) <;> (repeat' (first | (rw [State.each_merge]) | (intro _) | split)) <;> simp_all
@[simp] theorem State.commitStaged_merge (s : State) (c : Cmd) : (State.commitStaged s c).mem.merge = s.mem.merge := by simp [State.commitStaged]
@[simp] theorem State.drain_merge (s : State) : (State.drain s).mem.merge = s.mem.merge := by unfold State.drain; (try dsimp only); (repeat' split) <;> (try simp) <;> (repeat' (first | (rw [State.each_merge]) | (intro _) | split)) <;> simp_all
@[simp] theorem State.finish_merge (s : State) (id status result : Nat) : (State.finish s id status result).mem.merge = s.mem.merge := by simp [State.finish]
@[simp] theorem State.finishAll_merge (s : State) (ids : List Nat) (status : Nat) : (State.finishAll s ids status).mem.merge = s.mem.merge := by simp [State.finishAll]
@[simp] theorem State.cutOff_merge (s : State) (id : Nat) : (State.cutOff s id).mem.merge = s.mem.merge := by unfold State.cutOff; (repeat' split) <;> simp
@[simp] theorem State.capacityLoss_merge (s : State) (a : Nat) : (State.capacityLoss s a).mem.merge = s.mem.merge := by simp [State.capacityLoss]
@[simp] theorem State.serviceLost_merge (s : State) (a : Nat) (back : Option Nat) : (State.serviceLost s a back).mem.merge = s.mem.merge := by unfold State.serviceLost; (repeat' split) <;> simp
@[simp] theorem State.ringSq_merge (s : State) (f q i : Nat) : (State.ringSq s f q i).mem.merge = s.mem.merge := by unfold State.ringSq; (repeat' split) <;> simp
@[simp] theorem State.ringCq_merge (s : State) (f q i : Nat) : (State.ringCq s f q i).mem.merge = s.mem.merge := by unfold State.ringCq; (repeat' split) <;> simp
@[simp] theorem State.refreshNs_merge (s : State) : (State.refreshNs s).mem.merge = s.mem.merge := by simp [State.refreshNs]
@[simp] theorem State.failCheck_merge (s : State) (f q cq sqhd : Nat) (tag : Word) (status result : Nat) : (State.failCheck s f q cq sqhd tag status result).mem.merge = s.mem.merge := by simp [State.failCheck]
@[simp] theorem State.enterLedger_merge (s : State) (f q cq sqhd : Nat) (e : Entry) : (State.enterLedger s f q cq sqhd e).mem.merge = s.mem.merge := by simp [State.enterLedger]
@[simp] theorem State.runEntry_merge (s : State) (w : CheckWait) : (State.runEntry s w).mem.merge = s.mem.merge := by unfold State.runEntry; (try dsimp only); (repeat' split) <;> simp
@[simp] theorem State.checkEntry_merge (s : State) (w : CheckWait) (before : List CheckWait) : (State.checkEntry s w before).mem.merge = s.mem.merge := by simp [State.checkEntry]
@[simp] theorem State.runWaiting_merge (s : State) : (State.runWaiting s).mem.merge = s.mem.merge := by simp [State.runWaiting]
@[simp] theorem State.recordSegs_merge (s : State) (a : Nat) : (State.recordSegs s a).mem.merge = s.mem.merge := by simp [State.recordSegs]
@[simp] theorem State.landCheck_merge (s : State) (a : Nat) : (State.landCheck s a).mem.merge = s.mem.merge := by simp [State.landCheck]
@[simp] theorem State.startExit_merge (s : State) (b g pre mile : Nat) (tok : Bool) (kind : Nat) : (State.startExit s b g pre mile tok kind).mem.merge = s.mem.merge := by simp [State.startExit]
@[simp] theorem State.freed_merge (s : State) (a : Nat) : (State.freed s a).mem.merge = s.mem.merge := by simp [State.freed]
@[simp] theorem State.slotLimited_merge (s : State) (a : Nat) (l : Bool) : (State.slotLimited s a l).mem.merge = s.mem.merge := by simp [State.slotLimited]
@[simp] theorem State.holdCmd_merge (s : State) (c : Cmd) : (State.holdCmd s c).mem.merge = s.mem.merge := by simp [State.holdCmd]
@[simp] theorem State.refuse_merge (s : State) (c : Cmd) (act : Option Nat) (power : Bool) : (State.refuse s c act power).mem.merge = s.mem.merge := by unfold State.refuse; (repeat' split) <;> simp
@[simp] theorem State.admitCmd_merge (s : State) (c : Cmd) : (State.admitCmd s c).mem.merge = s.mem.merge := by simp [State.admitCmd]
@[simp] theorem State.aim_merge (s : State) (a : Nat) (o : PlanOp) : (State.aim s a o).mem.merge = s.mem.merge := by simp [State.aim]
@[simp] theorem State.setRate_merge (s : State) (a : Nat) (o : PlanOp) : (State.setRate s a o).mem.merge = s.mem.merge := by simp [State.setRate]
@[simp] theorem State.setHeater_merge (s : State) (a : Nat) (o : PlanOp) : (State.setHeater s a o).mem.merge = s.mem.merge := by simp [State.setHeater]
@[simp] theorem State.beginOp_merge (s : State) (a : Nat) (r : PlanOp) (rest : List PlanOp) : (State.beginOp s a r rest).mem.merge = s.mem.merge := by simp [State.beginOp]
@[simp] theorem State.startOp_merge (s : State) (a : Nat) (o : PlanOp) (trial : List PlanOp) : (State.startOp s a o trial).mem.merge = s.mem.merge := by unfold State.startOp; (repeat' split) <;> simp
@[simp] theorem State.replanBay_merge (s : State) (b : Nat) : (State.replanBay s b).mem.merge = s.mem.merge := by simp [State.replanBay]
@[simp] theorem State.tryRaise_merge (s : State) (b : Nat) : (State.tryRaise s b).mem.merge = s.mem.merge := by simp [State.tryRaise]
@[simp] theorem State.dropPauses_merge (s : State) (b : Nat) : (State.dropPauses s b).mem.merge = s.mem.merge := by simp [State.dropPauses]
@[simp] theorem State.longerPause_merge (s : State) (b g : Nat) : (State.longerPause s b g).mem.merge = s.mem.merge := by simp [State.longerPause]
@[simp] theorem State.lowerAnew_merge (s : State) (b g : Nat) : (State.lowerAnew s b g).mem.merge = s.mem.merge := by simp [State.lowerAnew]
@[simp] theorem State.planLower_merge (s : State) (b g : Nat) : (State.planLower s b g).mem.merge = s.mem.merge := by simp [State.planLower]
@[simp] theorem State.tryLower_merge (s : State) (b : Nat) : (State.tryLower s b).mem.merge = s.mem.merge := by unfold State.tryLower; (try dsimp only); (repeat' split) <;> simp
@[simp] theorem State.yieldQuantum_merge (s : State) (a : Nat) : (State.yieldQuantum s a).mem.merge = s.mem.merge := by unfold State.yieldQuantum; (repeat' split) <;> simp
@[simp] theorem State.joinIn_merge (s : State) (a : Nat) : (State.joinIn s a).mem.merge = s.mem.merge := by simp [State.joinIn]
@[simp] theorem State.dispatch_merge (s : State) (a : Nat) : (State.dispatch s a).mem.merge = s.mem.merge := by unfold State.dispatch; (try dsimp only); (repeat' split) <;> simp
@[simp] theorem State.dispatchAll_merge (s : State) (as : List Nat) : (State.dispatchAll s as).mem.merge = s.mem.merge := by simp [State.dispatchAll]
@[simp] theorem State.addPoison_merge (s : State) (e : PoisonEnt) : (State.addPoison s e).mem.merge = s.mem.merge := by unfold State.addPoison; (try dsimp only); (repeat' split) <;> simp
@[simp] theorem State.poisonLine_merge (s : State) (n x : Nat) : (State.poisonLine s n x).mem.merge = s.mem.merge := by simp [State.poisonLine]
@[simp] theorem State.clearLine_merge (s : State) (x : Nat) : (State.clearLine s x).mem.merge = s.mem.merge := by simp [State.clearLine]
@[simp] theorem State.missOn_merge (s : State) (ch n : Nat) : (State.missOn s ch n).mem.merge = s.mem.merge := by simp [State.missOn]
@[simp] theorem State.writeBuf_merge (s : State) (c : Cmd) (off : Nat) (d : List Byte) : (State.writeBuf s c off d).mem.merge = s.mem.merge := by
  unfold State.writeBuf
  rw [foldl_fst_merge]
  intro x a; simp
@[simp] theorem State.askHost_merge (s : State) (c : Cmd) (list : Bool) (addr len : Nat) : (State.askHost s c list addr len).mem.merge = s.mem.merge := by simp [State.askHost]
@[simp] theorem State.openBuf_merge (s : State) (id : Nat) : (State.openBuf s id).mem.merge = s.mem.merge := by unfold State.openBuf; (repeat' split) <;> simp
@[simp] theorem State.readyNow_merge (s : State) (c : Cmd) : (State.readyNow s c).mem.merge = s.mem.merge := by
  unfold State.readyNow
  rw [State.foldl_merge]
  intro s a; (repeat' split) <;> simp
@[simp] theorem State.readDone_merge (s : State) (id : Nat) : (State.readDone s id).mem.merge = s.mem.merge := by unfold State.readDone; (repeat' split) <;> simp
@[simp] theorem State.deliver_merge (s : State) (c : Cmd) (lba : Nat) (x : Sector) (sends : Bool) : (State.deliver s c lba x sends).mem.merge = s.mem.merge := by simp [State.deliver]
@[simp] theorem State.freeSlot_merge (s : State) (order : Nat) : (State.freeSlot s order).mem.merge = s.mem.merge := by simp [State.freeSlot]
@[simp] theorem State.freeLanded_merge (s : State) : (State.freeLanded s).mem.merge = s.mem.merge := by simp [State.freeLanded]
@[simp] theorem State.staleRecs_merge (s : State) (n lba len : Nat) : (State.staleRecs s n lba len).mem.merge = s.mem.merge := by simp [State.staleRecs]
@[simp] theorem State.dropCached_merge (s : State) (n lba len : Nat) : (State.dropCached s n lba len).mem.merge = s.mem.merge := by simp [State.dropCached]
@[simp] theorem State.stageWrite_merge (s : State) (c : Cmd) (d : List Byte) : (State.stageWrite s c d).mem.merge = s.mem.merge := by simp [State.stageWrite]
@[simp] theorem State.persisted_merge (s : State) (x : Sector) (src : Nat) : (State.persisted s x src).mem.merge = s.mem.merge := by simp [State.persisted]
@[simp] theorem State.commitFinal_merge (s : State) (x : Sector) (src : Nat) : (State.commitFinal s x src).mem.merge = s.mem.merge := by simp [State.commitFinal]
@[simp] theorem State.recordZone_merge (s : State) (n lba : Nat) : (State.recordZone s n lba).mem.merge = s.mem.merge := by simp [State.recordZone]
@[simp] theorem State.changeZone_merge (s : State) (n lba : Nat) (g : Zone → Zone) : (State.changeZone s n lba g).mem.merge = s.mem.merge := by simp [State.changeZone]
@[simp] theorem State.advanceCom_merge (s : State) (n lba : Nat) : (State.advanceCom s n lba).mem.merge = s.mem.merge := by simp [State.advanceCom]
@[simp] theorem State.putRecords_merge (s : State) (a : Nat) (kinds : List Nat) : (State.putRecords s a kinds).mem.merge = s.mem.merge := by simp [State.putRecords]
@[simp] theorem State.flushJournal_merge (s : State) (a : Nat) : (State.flushJournal s a).mem.merge = s.mem.merge := by simp [State.flushJournal]
@[simp] theorem State.landReserve_merge (s : State) (a id : Nat) (r : List Nat × Nat) : (State.landReserve s a id r).mem.merge = s.mem.merge := by simp [State.landReserve]
@[simp] theorem State.setMedia_merge (s : State) (b v : Nat) : (State.setMedia s b v).mem.merge = s.mem.merge := by simp [State.setMedia]
@[simp] theorem State.clearNs_merge (s : State) (n : Nat) : (State.clearNs s n).mem.merge = s.mem.merge := by simp [State.clearNs]
@[simp] theorem State.actFormatted_merge (s : State) (a pct : Nat) : (State.actFormatted s a pct).mem.merge = s.mem.merge := by simp [State.actFormatted]
@[simp] theorem State.fmtCheck_merge (s : State) (id : Nat) : (State.fmtCheck s id).mem.merge = s.mem.merge := by unfold State.fmtCheck; (repeat' split) <;> simp
@[simp] theorem State.fmtUnit_merge (s : State) (a id : Nat) : (State.fmtUnit s a id).mem.merge = s.mem.merge := by simp [State.fmtUnit]
@[simp] theorem State.fmtCert_merge (s : State) (a id k : Nat) : (State.fmtCert s a id k).mem.merge = s.mem.merge := by simp [State.fmtCert]
@[simp] theorem State.purgeNs_merge (s : State) (n : Nat) : (State.purgeNs s n).mem.merge = s.mem.merge := by simp [State.purgeNs]
@[simp] theorem State.sanTo_merge (s : State) (id st : Nat) : (State.sanTo s id st).mem.merge = s.mem.merge := by simp [State.sanTo]
@[simp] theorem State.sanTick_merge (s : State) (id : Nat) : (State.sanTick s id).mem.merge = s.mem.merge := by unfold State.sanTick; (repeat' split) <;> simp
@[simp] theorem State.sanUnit_merge (s : State) (a id : Nat) : (State.sanUnit s a id).mem.merge = s.mem.merge := by simp [State.sanUnit]
@[simp] theorem State.queueSan_merge (s : State) (o : SanOp) : (State.queueSan s o).mem.merge = s.mem.merge := by simp [State.queueSan]
@[simp] theorem State.eraseKey_merge (s : State) (slot : Nat) (target : BitVec 32) : (State.eraseKey s slot target).mem.merge = s.mem.merge := by simp [State.eraseKey]
@[simp] theorem State.runCrypto_merge (s : State) (o : SanOp) : (State.runCrypto s o).mem.merge = s.mem.merge := by simp [State.runCrypto]
@[simp] theorem State.sanRejoin_merge (s : State) (b : Nat) : (State.sanRejoin s b).mem.merge = s.mem.merge := by simp [State.sanRejoin]
theorem foldl_opt_merge {α : Type} (g : Option State × Bool → α → Option State × Bool) (v : List MergeEnt)
    (hg : ∀ x a, (∀ u, x.1 = some u → u.mem.merge = v) → ∀ u, (g x a).1 = some u → u.mem.merge = v) (l : List α) (x : Option State × Bool)
    (hx : ∀ u, x.1 = some u → u.mem.merge = v) : ∀ u, (l.foldl g x).1 = some u → u.mem.merge = v := by
  induction l generalizing x with
  | nil => exact hx
  | cons a t ih => exact ih _ (hg x a hx)
theorem State.tryPart_merge (s : State) (c : Cmd) (r : Nat → Nat) (a : Nat) (n : PlanOp) (b : Bool) : ∀ t, (s.tryPart c r a n b).1 = some t → t.mem.merge = s.mem.merge := by
  unfold State.tryPart
  intro t
  extract_lets bb s1 ceil q
  have hs : s1.mem.merge = s.mem.merge := by simp only [s1]; split <;> simp
  split
  · simp
  · split
    · refine foldl_opt_merge _ s.mem.merge ?_ _ _ (by simp) t
      intro x g hx u hu
      dsimp only at hu
      split at hu
      · exact hx u hu
      · split at hu
        · cases hu
        · split at hu
          · cases hu; simp [hs]
          · cases hu
    · dsimp only
      rw [Option.map_eq_some_iff]
      rintro ⟨p, _, rfl⟩
      simp [hs]
theorem State.tryParts_merge (c : Cmd) (u : Nat → Nat) (ops : List (Nat × PlanOp)) : ∀ (s keep : State),
    (∀ t, (s.tryParts c u ops keep).1 = .pass t → t.mem.merge = s.mem.merge) ∧ (s.tryParts c u ops keep).2.mem.merge = keep.mem.merge := by
  induction ops with
  | nil => exact fun s keep => ⟨fun t h => by (cases h; rfl), rfl⟩
  | cons x ops ih =>
    intro s keep
    obtain ⟨a, n⟩ := x
    unfold State.tryParts
    dsimp only
    split
    · rename_i s' h
      obtain ⟨h1, h2⟩ := ih (s'.slotLimited a (s.tryPart c u a n false).2) (keep.slotLimited a (s.tryPart c u a n false).2)
      refine ⟨fun t ht => ?_, by rw [h2]; simp⟩
      rw [h1 t ht, State.slotLimited_merge, State.tryPart_merge _ _ _ _ _ _ _ h]
    · exact ⟨fun t h => by (cases h), by simp⟩
@[simp] theorem State.admitOn_merge (s : State) (c : Cmd) (bytes : Nat) (ops : List (Nat × PlanOp)) (k : State → State) (hk : ∀ x0, (k x0).mem.merge = x0.mem.merge) : (State.admitOn s c bytes ops k).mem.merge = s.mem.merge := by
  unfold State.admitOn
  split
  · simp
  · split <;> rename_i h
    · have e := (State.tryParts_merge c (s.epochFor (ops.map (·.1))).1.reserve ops s s).2
      rw [h] at e
      simpa using e
    · simp [hk, (State.tryParts_merge c _ ops s s).1 _ (by rw [h])]
@[simp] theorem State.startRead_merge (s : State) (c : Cmd) (ps : List Part) : (State.startRead s c ps).mem.merge = s.mem.merge := by simp [State.startRead]
@[simp] theorem State.testRead_merge (s : State) (c : Cmd) (ps : List Part) : (State.testRead s c ps).mem.merge = s.mem.merge := by simp [State.testRead]
@[simp] theorem State.admitRead_merge (s : State) (id : Nat) : (State.admitRead s id).mem.merge = s.mem.merge := by unfold State.admitRead; (repeat' split) <;> simp
@[simp] theorem State.implicitClose_merge (s : State) (a : Nat) : (State.implicitClose s a).mem.merge = s.mem.merge := by unfold State.implicitClose; (try dsimp only); (repeat' split) <;> simp
@[simp] theorem State.zoneAdmit_merge (s : State) (c : Cmd) : (State.zoneAdmit s c).mem.merge = s.mem.merge := by simp [State.zoneAdmit]
@[simp] theorem State.admitWriteCmd_merge (s : State) (c : Cmd) : (State.admitWriteCmd s c).mem.merge = s.mem.merge := by simp [State.admitWriteCmd]
@[simp] theorem State.writeDone_merge (s : State) (c : Cmd) : (State.writeDone s c).mem.merge = s.mem.merge := by simp [State.writeDone]
@[simp] theorem State.writeFetched_merge (s : State) (id : Nat) (d : List Byte) : (State.writeFetched s id d).mem.merge = s.mem.merge := by unfold State.writeFetched; (repeat' split) <;> simp
@[simp] theorem State.admitZone_merge (s : State) (id act : Nat) (k : Cmd → State → State) (hk : ∀ x0 x1, (k x0 x1).mem.merge = x1.mem.merge) : (State.admitZone s id act k).mem.merge = s.mem.merge := by unfold State.admitZone; (try dsimp only); (repeat' split) <;> (try simp_all)
@[simp] theorem State.noteOpenCond_merge (s : State) (c : Cmd) (act : Nat) : (State.noteOpenCond s c act).mem.merge = s.mem.merge := by simp [State.noteOpenCond]
@[simp] theorem State.admitJournal_merge (s : State) (c : Cmd) (st : ZState) (wp : Nat) : (State.admitJournal s c st wp).mem.merge = s.mem.merge := by simp [State.admitJournal]
@[simp] theorem State.pushReport_merge (s : State) (id : Nat) : (State.pushReport s id).mem.merge = s.mem.merge := by unfold State.pushReport; (repeat' split) <;> simp
@[simp] theorem State.admitReport_merge (s : State) (c : Cmd) (d : List Byte) : (State.admitReport s c d).mem.merge = s.mem.merge := by simp [State.admitReport]
@[simp] theorem State.captured_merge (s : State) (id : Nat) (keys : List Nat) : (State.captured s id keys).mem.merge = s.mem.merge := by
  unfold State.captured
  split
  · rfl
  · dsimp only
    split
    all_goals
      simp
      rw [State.each_merge]
      intro s a; (repeat' split) <;> simp
@[simp] theorem State.moveBand_merge (s : State) (a band : Nat) : (State.moveBand s a band).mem.merge = s.mem.merge := by unfold State.moveBand; (try dsimp only); (repeat' split) <;> simp
@[simp] theorem State.refreshDone_merge (s : State) (a g : Nat) : (State.refreshDone s a g).mem.merge = s.mem.merge := by simp [State.refreshDone]
@[simp] theorem State.trialTurn_merge (s : State) (a h : Nat) : (State.trialTurn s a h).mem.merge = s.mem.merge := by simp [State.trialTurn]
@[simp] theorem State.grazeAdvance_merge (s : State) (a : Nat) (r : PlanOp) : (State.grazeAdvance s a r).mem.merge = s.mem.merge := by simp [State.grazeAdvance]
@[simp] theorem State.mediaEnd_merge (s : State) (a : Nat) : (State.mediaEnd s a).mem.merge = s.mem.merge := by unfold State.mediaEnd; (repeat' split) <;> simp
@[simp] theorem State.recTo_merge (s : State) (id : BitVec 16) (st : RecState) : (State.recTo s id st).mem.merge = s.mem.merge := by unfold State.recTo; (repeat' split) <;> simp
@[simp] theorem State.respondAs_merge (s : State) (k status : Nat) (bs : List Byte) : (State.respondAs s k status bs).mem.merge = s.mem.merge := by simp [State.respondAs]
@[simp] theorem State.respond_merge (s : State) (k : Nat) (bs : List Byte) : (State.respond s k bs).mem.merge = s.mem.merge := by simp [State.respond]
@[simp] theorem State.serve_merge (s : State) (r : Requester) (op : Nat) (act : Option Nat) (k : List Byte → State) (hk : ∀ x0, (k x0).mem.merge = s.mem.merge) : (State.serve s r op act k).mem.merge = s.mem.merge := by unfold State.serve; (try dsimp only); (repeat' split) <;> (try simp_all)
@[simp] theorem State.queueRefresh_merge (s : State) (a g order : Nat) : (State.queueRefresh s a g order).mem.merge = s.mem.merge := by simp [State.queueRefresh]
@[simp] theorem State.holdGroup_merge (s : State) (a g : Nat) : (State.holdGroup s a g).mem.merge = s.mem.merge := by simp [State.holdGroup]
@[simp] theorem State.checkpoint_merge (s : State) (a : Nat) : (State.checkpoint s a).mem.merge = s.mem.merge := by simp [State.checkpoint]
@[simp] theorem State.enterFormat_merge (s : State) (k : Nat) (o : FmtOp) : (State.enterFormat s k o).mem.merge = s.mem.merge := by simp [State.enterFormat]
@[simp] theorem State.refuseFormat_merge (s : State) (k reason : Nat) : (State.refuseFormat s k reason).mem.merge = s.mem.merge := by simp [State.refuseFormat]
@[simp] theorem State.queueFormat_merge (s : State) (o : FmtOp) : (State.queueFormat s o).mem.merge = s.mem.merge := by simp [State.queueFormat]
@[simp] theorem State.modSamples_merge (s : State) (a cmd key : Nat) (g : Retain → Retain) : (State.modSamples s a cmd key g).mem.merge = s.mem.merge := by simp [State.modSamples]
@[simp] theorem State.dropSamples_merge (s : State) (a cmd key : Nat) : (State.dropSamples s a cmd key).mem.merge = s.mem.merge := by simp [State.dropSamples]
@[simp] theorem State.retain_merge (s : State) (a : Nat) (e : Retain) : (State.retain s a e).mem.merge = s.mem.merge := by simp [State.retain]
@[simp] theorem State.retainSlot_merge (s : State) (a cmd key : Nat) : (State.retainSlot s a cmd key).mem.merge = s.mem.merge := by unfold State.retainSlot; (repeat' split) <;> simp
@[simp] theorem State.accumulate_merge (s : State) (a : Nat) (e : Retain) : (State.accumulate s a e).mem.merge = s.mem.merge := by unfold State.accumulate; (try dsimp only); (repeat' split) <;> simp
@[simp] theorem State.takeSlot_merge (s : State) (a : Nat) (e : Retain) : (State.takeSlot s a e).mem.merge = s.mem.merge := by unfold State.takeSlot; (try dsimp only); (repeat' split) <;> simp
@[simp] theorem State.askReplay_merge (s : State) (a : Nat) (q : FmtCmd) : (State.askReplay s a q).mem.merge = s.mem.merge := by simp [State.askReplay]
@[simp] theorem State.fillQueue_merge (s : State) (a : Nat) : (State.fillQueue s a).mem.merge = s.mem.merge := by simp [State.fillQueue]
@[simp] theorem State.stopReplays_merge (s : State) (a cmd key : Nat) : (State.stopReplays s a cmd key).mem.merge = s.mem.merge := by simp [State.stopReplays]
@[simp] theorem State.queueRewrite_merge (s : State) (a key : Nat) : (State.queueRewrite s a key).mem.merge = s.mem.merge := by simp [State.queueRewrite]
@[simp] theorem State.queueBand_merge (s : State) (a region : Nat) : (State.queueBand s a region).mem.merge = s.mem.merge := by simp [State.queueBand]
@[simp] theorem State.wantChanCal_merge (s : State) (a h : Nat) : (State.wantChanCal s a h).mem.merge = s.mem.merge := by simp [State.wantChanCal]
@[simp] theorem State.enterUnread_merge (s : State) (a key : Nat) (lost : Bool) : (State.enterUnread s a key lost).mem.merge = s.mem.merge := by simp [State.enterUnread]
@[simp] theorem State.loseSector_merge (s : State) (a key : Nat) : (State.loseSector s a key).mem.merge = s.mem.merge := by simp [State.loseSector]
@[simp] theorem State.marginal_merge (s : State) (a key rung : Nat) : (State.marginal s a key rung).mem.merge = s.mem.merge := by simp [State.marginal]
@[simp] theorem State.recSector_merge (s : State) (ref key : Nat) : (State.recSector s ref key).mem.merge = s.mem.merge := by unfold State.recSector; (repeat' split) <;> simp
@[simp] theorem State.recFail_merge (s : State) (ref : Nat) : (State.recFail s ref).mem.merge = s.mem.merge := by unfold State.recFail; (repeat' split) <;> simp
@[simp] theorem State.placeholder_merge (s : State) (a key : Nat) : (State.placeholder s a key).mem.merge = s.mem.merge := by simp [State.placeholder]
@[simp] theorem State.grazeGood_merge (s : State) (x : Attempt) : (State.grazeGood s x).mem.merge = s.mem.merge := by simp [State.grazeGood]
@[simp] theorem State.grazeLost_merge (s : State) (a order ref key : Nat) : (State.grazeLost s a order ref key).mem.merge = s.mem.merge := by simp [State.grazeLost]
@[simp] theorem State.bulkPassages_merge (s : State) (a : Nat) (c : Cmd) (key step n : Nat) : (State.bulkPassages s a c key step n).mem.merge = s.mem.merge := by simp [State.bulkPassages]
@[simp] theorem State.grazePassages_merge (s : State) (a : Nat) (e : Retain) (step n : Nat) : (State.grazePassages s a e step n).mem.merge = s.mem.merge := by simp [State.grazePassages]
@[simp] theorem State.giveUp_merge (s : State) (a : Nat) (e : Retain) : (State.giveUp s a e).mem.merge = s.mem.merge := by unfold State.giveUp; (try dsimp only); (repeat' split) <;> simp
@[simp] theorem State.startStep_merge (s : State) (a : Nat) (e : Retain) (step : Nat) : (State.startStep s a e step).mem.merge = s.mem.merge := by unfold State.startStep; (try dsimp only); (repeat' split) <;> simp
@[simp] theorem State.nextRung_merge (s : State) (a : Nat) (e : Retain) : (State.nextRung s a e).mem.merge = s.mem.merge := by unfold State.nextRung; (try dsimp only); (repeat' split) <;> simp
@[simp] theorem State.startReplays_merge (s : State) (a : Nat) (e : Retain) : (State.startReplays s a e).mem.merge = s.mem.merge := by simp [State.startReplays]
@[simp] theorem State.stopAttempts_merge (s : State) (a cmd key : Nat) : (State.stopAttempts s a cmd key).mem.merge = s.mem.merge := by simp [State.stopAttempts]
@[simp] theorem State.checkFailed_merge (s : State) (a : Nat) (e : Retain) : (State.checkFailed s a e).mem.merge = s.mem.merge := by simp [State.checkFailed]
@[simp] theorem State.afterFailure_merge (s : State) (a : Nat) (x : Attempt) : (State.afterFailure s a x).mem.merge = s.mem.merge := by simp [State.afterFailure]
@[simp] theorem State.countFraming_merge (s : State) (a : Nat) (f : Framing) : (State.countFraming s a f).mem.merge = s.mem.merge := by simp [State.countFraming]
@[simp] theorem State.eraseFor_merge (s : State) (a ps : Nat) : (State.eraseFor s a ps).mem.merge = s.mem.merge := by simp [State.eraseFor]
@[simp] theorem State.eraseSamples_merge (s : State) (a : Nat) : (State.eraseSamples s a).mem.merge = s.mem.merge := by simp [State.eraseSamples]
@[simp] theorem State.frameSector_merge (s : State) (a key : Nat) (q : FmtCmd) (sm1 sm2 : List Hit) (r0 r1 : List (BitVec 6)) : (State.frameSector s a key q sm1 sm2 r0 r1).mem.merge = s.mem.merge := by simp [State.frameSector]
@[simp] theorem State.chargeDec_merge (s : State) (cmd iters rounds : Nat) : (State.chargeDec s cmd iters rounds).mem.merge = s.mem.merge := by simp [State.chargeDec]
@[simp] theorem State.modAttempt_merge (s : State) (id : Nat) (g : Attempt → Attempt) : (State.modAttempt s id g).mem.merge = s.mem.merge := by simp [State.modAttempt]
@[simp] theorem State.freeEngine_merge (s : State) (e : Nat) : (State.freeEngine s e).mem.merge = s.mem.merge := by simp [State.freeEngine]
@[simp] theorem State.leavePool_merge (s : State) (x : Attempt) : (State.leavePool s x).mem.merge = s.mem.merge := by unfold State.leavePool; (repeat' split) <;> simp
@[simp] theorem State.endAttempt_merge (s : State) (x : Attempt) : (State.endAttempt s x).mem.merge = s.mem.merge := by simp [State.endAttempt]
@[simp] theorem State.assign_merge (s : State) (e : Nat) (x : Attempt) : (State.assign s e x).mem.merge = s.mem.merge := by simp [State.assign]
theorem serveAttempt_merge (x : State × List Nat) (a : Nat) : (serveAttempt x a).1.mem.merge = x.1.mem.merge := by
  unfold serveAttempt; dsimp only; (repeat' split) <;> simp_all
@[simp] theorem State.dispatchPool_merge (s : State) : (State.dispatchPool s).mem.merge = s.mem.merge := by
  unfold State.dispatchPool
  dsimp only
  rw [foldl_fst_merge _ serveAttempt_merge]
@[simp] theorem State.enterPool_merge (s : State) (x : Attempt) (t : Nat) : (State.enterPool s x t).mem.merge = s.mem.merge := by simp [State.enterPool]
@[simp] theorem State.stopLadder_merge (s : State) (x : Attempt) : (State.stopLadder s x).mem.merge = s.mem.merge := by simp [State.stopLadder]
@[simp] theorem State.adapt_merge (s : State) (x : Attempt) (v : TapSet) : (State.adapt s x v).mem.merge = s.mem.merge := by simp [State.adapt]
@[simp] theorem State.readySector_merge (s : State) (x : Attempt) : (State.readySector s x).mem.merge = s.mem.merge := by unfold State.readySector; (repeat' split) <;> simp
@[simp] theorem State.converged_merge (s : State) (x : Attempt) (o : DecOut) (taps : TapSet) : (State.converged s x o taps).mem.merge = s.mem.merge := by unfold State.converged; (try dsimp only); (repeat' split) <;> simp
@[simp] theorem State.roundStart_merge (s : State) (x : Attempt) (isl : Nat) : (State.roundStart s x isl).mem.merge = s.mem.merge := by simp [State.roundStart]
@[simp] theorem State.preempt_merge (s : State) (e : Nat) (x : Attempt) : (State.preempt s e x).mem.merge = s.mem.merge := by simp [State.preempt]
@[simp] theorem State.iterate_merge (s : State) (e : Nat) (x : Attempt) (zero : Bool) (o : DecOut) (taps : TapSet) : (State.iterate s e x zero o taps).mem.merge = s.mem.merge := by simp [State.iterate]
@[simp] theorem State.restartJob_merge (s : State) (e : Nat) : (State.restartJob s e).mem.merge = s.mem.merge := by unfold State.restartJob; (repeat' split) <;> simp
@[simp] theorem State.retireEngine_merge (s : State) (e st : Nat) : (State.retireEngine s e st).mem.merge = s.mem.merge := by simp [State.retireEngine]
@[simp] theorem State.leaveIsland_merge (s : State) (e : Nat) : (State.leaveIsland s e).mem.merge = s.mem.merge := by simp [State.leaveIsland]
@[simp] theorem State.failEngine_merge (s : State) (e : Nat) : (State.failEngine s e).mem.merge = s.mem.merge := by simp [State.failEngine]
@[simp] theorem State.decoderReply_merge (s : State) (k reason e : Nat) : (State.decoderReply s k reason e).mem.merge = s.mem.merge := by simp [State.decoderReply]
@[simp] theorem State.endRetest_merge (s : State) (k e : Nat) (pass : Bool) : (State.endRetest s k e pass).mem.merge = s.mem.merge := by simp [State.endRetest]
@[simp] theorem State.popFmt_merge (s : State) (a : Nat) : (State.popFmt s a).mem.merge = s.mem.merge := by simp [State.popFmt]
@[simp] theorem State.startRoutine_merge (s : State) (a : Nat) (q : FmtCmd) : (State.startRoutine s a q).mem.merge = s.mem.merge := by simp [State.startRoutine]
@[simp] theorem State.askRecord_merge (s : State) (a : Nat) : (State.askRecord s a).mem.merge = s.mem.merge := by simp [State.askRecord]
@[simp] theorem State.commitFinish_merge (s : State) (c : Cmd) : (State.commitFinish s c).mem.merge = s.mem.merge := by simp [State.commitFinish]
@[simp] theorem State.commitReset_merge (s : State) (c : Cmd) : (State.commitReset s c).mem.merge = s.mem.merge := by simp [State.commitReset]
@[simp] theorem State.zoneRecord_merge (s : State) (a : Nat) (c : Cmd) : (State.zoneRecord s a c).mem.merge = s.mem.merge := by simp [State.zoneRecord]
@[simp] theorem State.intentRecs_merge (s : State) (a : Nat) (keys : List Nat) : (State.intentRecs s a keys).mem.merge = s.mem.merge := by simp [State.intentRecs]
@[simp] theorem State.startWrite_merge (s : State) (a : Nat) (opc : Byte) : (State.startWrite s a opc).mem.merge = s.mem.merge := by unfold State.startWrite; (repeat' split) <;> simp
@[simp] theorem State.sendFrame_merge (s : State) (a : Nat) (q : FmtCmd) (key : Nat) (x : Sector) : (State.sendFrame s a q key x).mem.merge = s.mem.merge := by simp [State.sendFrame]
@[simp] theorem State.committedOf_merge (s : State) (id n lba : Nat) : (State.committedOf s id n lba).mem.merge = s.mem.merge := by unfold State.committedOf; (repeat' split) <;> simp
@[simp] theorem State.releaseSource_merge (s : State) (a key : Nat) : (State.releaseSource s a key).mem.merge = s.mem.merge := by simp [State.releaseSource]
@[simp] theorem State.commitBand_merge (s : State) (a spt : Nat) (x : Sector) (src : Nat) : (State.commitBand s a spt x src).mem.merge = s.mem.merge := by simp [State.commitBand]
@[simp] theorem State.commitLanding_merge (s : State) (a id : Nat) (w : WSlot) : (State.commitLanding s a id w).mem.merge = s.mem.merge := by unfold State.commitLanding; (repeat' split) <;> simp
@[simp] theorem State.writePoisoned_merge (s : State) (a : Nat) (q : FmtCmd) (w : WSlot) : (State.writePoisoned s a q w).mem.merge = s.mem.merge := by simp [State.writePoisoned]
@[simp] theorem State.commitKey_merge (s : State) (a : Nat) (q : FmtCmd) (key : Nat) : (State.commitKey s a q key).mem.merge = s.mem.merge := by unfold State.commitKey; (try dsimp only); (repeat' split) <;> simp
@[simp] theorem State.endWrite_merge (s : State) (a : Nat) : (State.endWrite s a).mem.merge = s.mem.merge := by simp [State.endWrite]
@[simp] theorem State.afterWrite_merge (s : State) (a id : Nat) : (State.afterWrite s a id).mem.merge = s.mem.merge := by unfold State.afterWrite; (repeat' split) <;> simp
@[simp] theorem State.splitRunning_merge (s : State) (a : Nat) (r : Routine) : (State.splitRunning s a r).mem.merge = s.mem.merge := by simp [State.splitRunning]
@[simp] theorem State.passWaymark_merge (s : State) (a : Nat) (r : Routine) (keys : List Nat) (at' : Nat × Nat) : (State.passWaymark s a r keys at').mem.merge = s.mem.merge := by unfold State.passWaymark; (try dsimp only); (repeat' split) <;> (try simp) <;> (repeat' (first | (rw [State.each_merge]) | (intro _) | split)) <;> simp_all
@[simp] theorem State.abandonAll_merge (s : State) (a : Nat) : (State.abandonAll s a).mem.merge = s.mem.merge := by unfold State.abandonAll; (repeat' split) <;> simp
@[simp] theorem State.resumeRoutine_merge (s : State) (a : Nat) (r : Routine) : (State.resumeRoutine s a r).mem.merge = s.mem.merge := by simp [State.resumeRoutine]
@[simp] theorem State.squeezeRewrite_merge (s : State) (a : Nat) (q : FmtCmd) (x : Nat) : (State.squeezeRewrite s a q x).mem.merge = s.mem.merge := by
  unfold State.squeezeRewrite
  extract_lets r k com start sec gen recs pass s1 s2
  have hp : ∀ s g, (pass s g).mem.merge = s.mem.merge := by
    intro s g
    simp only [pass, State.modFmt_merge]
    rw [State.each_merge]
    · split <;> simp
    · intro s p; split <;> simp
  have h1 : s1.mem.merge = s.mem.merge := by simp only [s1]; exact State.each_merge _ _ _ hp
  have h2 : s2.mem.merge = s.mem.merge := by simp only [s2]; simp [h1]
  split <;> simp [h2]
@[simp] theorem State.queueAssistCal_merge (s : State) (a h : Nat) : (State.queueAssistCal s a h).mem.merge = s.mem.merge := by simp [State.queueAssistCal]
@[simp] theorem State.headLost_merge (s : State) (a h : Nat) : (State.headLost s a h).mem.merge = s.mem.merge := by simp [State.headLost]
@[simp] theorem State.suspendHead_merge (s : State) (a h : Nat) : (State.suspendHead s a h).mem.merge = s.mem.merge := by simp [State.suspendHead]
@[simp] theorem State.feedbackFault_merge (s : State) (a h : Nat) : (State.feedbackFault s a h).mem.merge = s.mem.merge := by simp [State.feedbackFault]
@[simp] theorem State.roundGain_merge (s : State) (v : Int) : (s.roundGain v).2.mem.merge = s.mem.merge := by
  unfold State.roundGain; dsimp only; (repeat' split) <;> simp
@[simp] theorem State.assistLoop_merge (s : State) (a h sample : Nat) : (State.assistLoop s a h sample).mem.merge = s.mem.merge := by
  unfold State.assistLoop
  dsimp only
  split <;> simp
@[simp] theorem State.assistUse_merge (s : State) (a : Nat) (q : FmtCmd) (t energy : Nat) : (State.assistUse s a q t energy).mem.merge = s.mem.merge := by simp [State.assistUse]
@[simp] theorem State.wearCheck_merge (s : State) (a h : Nat) : (State.wearCheck s a h).mem.merge = s.mem.merge := by simp [State.wearCheck]
@[simp] theorem State.trip_merge (s : State) (spin : Bool) (i cond time : Nat) : (State.trip s spin i cond time).mem.merge = s.mem.merge := by simp [State.trip]
@[simp] theorem State.tripAct_merge (s : State) (a cond : Nat) : (State.tripAct s a cond).mem.merge = s.mem.merge := by simp [State.tripAct]
@[simp] theorem State.sampleTrc_merge (s : State) (e : Nat) (spin : Bool) (i : Nat) (val : Nat → Nat → Nat → Word) : (State.sampleTrc s e spin i val).mem.merge = s.mem.merge := by simp [State.sampleTrc]
@[simp] theorem State.countTrc_merge (s : State) (spin : Bool) (i : Nat) : (State.countTrc s spin i).mem.merge = s.mem.merge := by simp [State.countTrc]
@[simp] theorem State.raiseInhibit_merge (s : State) (a cause : Nat) (toward : Bool) : (State.raiseInhibit s a cause toward).mem.merge = s.mem.merge := by simp [State.raiseInhibit]
@[simp] theorem State.retract_merge (s : State) (a cause : Nat) : (State.retract s a cause).mem.merge = s.mem.merge := by simp [State.retract]
@[simp] theorem State.retractIdle_merge (s : State) (a : Nat) : (State.retractIdle s a).mem.merge = s.mem.merge := by simp [State.retractIdle]
@[simp] theorem State.enterRetract_merge (s : State) (a : Nat) (cause : BitVec 3) : (State.enterRetract s a cause).mem.merge = s.mem.merge := by simp [State.enterRetract]
@[simp] theorem State.enterLimp_merge (s : State) (a : Nat) : (State.enterLimp s a).mem.merge = s.mem.merge := by unfold State.enterLimp; (repeat' split) <;> simp
@[simp] theorem State.decideMig_merge (s : State) (a : Nat) (beyond : Bool) : (State.decideMig s a beyond).mem.merge = s.mem.merge := by unfold State.decideMig; (try dsimp only); (repeat' split) <;> simp
@[simp] theorem State.wantAction_merge (s : State) (b : Nat) (x : SpinAct) : (State.wantAction s b x).mem.merge = s.mem.merge := by simp [State.wantAction]
@[simp] theorem State.decideSpn_merge (s : State) (b : Nat) : (State.decideSpn s b).mem.merge = s.mem.merge := by unfold State.decideSpn; (try dsimp only); (repeat' split) <;> simp
@[simp] theorem State.placeSpindles_merge (s : State) : (State.placeSpindles s).mem.merge = s.mem.merge := by
  unfold State.placeSpindles
  rw [State.each_merge]
  intro s a; split <;> simp
@[simp] theorem State.evacuate_merge (s : State) (n : Nat) : (State.evacuate s n).mem.merge = s.mem.merge := by simp [State.evacuate]
@[simp] theorem State.retireLe_merge (s : State) (n st : Nat) : (State.retireLe s n st).mem.merge = s.mem.merge := by simp [State.retireLe]
@[simp] theorem State.predict_merge (s : State) (a : Nat) : (State.predict s a).mem.merge = s.mem.merge := by simp [State.predict]
@[simp] theorem State.overrunOf_merge (s : State) (a : Nat) : (State.overrunOf s a).mem.merge = s.mem.merge := by simp [State.overrunOf]
@[simp] theorem State.wearAt_merge (s : State) (b budget n : Nat) : (State.wearAt s b budget n).mem.merge = s.mem.merge := by simp [State.wearAt]
@[simp] theorem State.gaitHours_merge (s : State) (b : Nat) : (State.gaitHours s b).mem.merge = s.mem.merge := by simp [State.gaitHours]
@[simp] theorem State.requestLoad_merge (s : State) (a : Nat) : (State.requestLoad s a).mem.merge = s.mem.merge := by simp [State.requestLoad]
@[simp] theorem State.endPause_merge (s : State) (b : Nat) : (State.endPause s b).mem.merge = s.mem.merge := by simp [State.endPause]
@[simp] theorem State.loadsDone_merge (s : State) (b : Nat) : (State.loadsDone s b).mem.merge = s.mem.merge := by simp [State.loadsDone]
@[simp] theorem State.parked_merge (s : State) (a : Nat) : (State.parked s a).mem.merge = s.mem.merge := by simp [State.parked]
@[simp] theorem State.sendSpin_merge (s : State) (b mode tcomm step icmd : Nat) : (State.sendSpin s b mode tcomm step icmd).mem.merge = s.mem.merge := by simp [State.sendSpin]
@[simp] theorem State.startBrake_merge (s : State) (b : Nat) (short : Bool) : (State.startBrake s b short).mem.merge = s.mem.merge := by simp [State.startBrake]
@[simp] theorem State.askToken_merge (s : State) (b kind : Nat) : (State.askToken s b kind).mem.merge = s.mem.merge := by simp [State.askToken]
@[simp] theorem State.linksOff_merge (s : State) (b : Nat) : (State.linksOff s b).mem.merge = s.mem.merge := by simp [State.linksOff]
@[simp] theorem State.quarantine_merge (s : State) (b reason : Nat) : (State.quarantine s b reason).mem.merge = s.mem.merge := by simp [State.quarantine]
@[simp] theorem State.failBringUp_merge (s : State) (b reason : Nat) : (State.failBringUp s b reason).mem.merge = s.mem.merge := by simp [State.failBringUp]
@[simp] theorem State.offerSet_merge (s : State) (a : Nat) (set : Option CoeffSet) (rro : Option RroSet) : (State.offerSet s a set rro).mem.merge = s.mem.merge := by simp [State.offerSet]
@[simp] theorem State.peerReset_merge (s : State) (i : Nat) (flight : Tab Nat) : (State.peerReset s i flight).mem.merge = s.mem.merge := by simp [State.peerReset]
@[simp] theorem State.rearm_merge (s : State) (i : Nat) : (State.rearm s i).mem.merge = s.mem.merge := by simp [State.rearm]
@[simp] theorem State.segmentIn_merge (s : State) (c : Cmd) (bs : List Byte) : (State.segmentIn s c bs).mem.merge = s.mem.merge := by unfold State.segmentIn; (try dsimp only); (repeat' split) <;> simp
@[simp] theorem State.dataIn_merge (s : State) (c : Cmd) (bs : List Byte) : (State.dataIn s c bs).mem.merge = s.mem.merge := by simp [State.dataIn]
@[simp] theorem State.readFailed_merge (s : State) (id : Nat) : (State.readFailed s id).mem.merge = s.mem.merge := by simp [State.readFailed]
@[simp] theorem State.unexpected_merge (s : State) (f : Nat) : (State.unexpected s f).mem.merge = s.mem.merge := by simp [State.unexpected]
@[simp] theorem State.hostCompletion_merge (s : State) (f id : Nat) (list failed : Bool) (bs : List Byte) : (State.hostCompletion s f id list failed bs).mem.merge = s.mem.merge := by unfold State.hostCompletion; (try dsimp only); (repeat' split) <;> simp
@[simp] theorem State.postHeld_merge (s : State) (id : Nat) : (State.postHeld s id).mem.merge = s.mem.merge := by unfold State.postHeld; (repeat' split) <;> simp
@[simp] theorem State.issueAsks_merge (s : State) (c : Cmd) : (State.issueAsks s c).mem.merge = s.mem.merge := by simp [State.issueAsks]
@[simp] theorem State.resume_merge (s : State) (f : Nat) : (State.resume s f).mem.merge = s.mem.merge := by simp [State.resume]
@[simp] theorem State.bmeOff_merge (s : State) (f : Nat) : (State.bmeOff s f).mem.merge = s.mem.merge := by simp [State.bmeOff]
@[simp] theorem State.bmeOn_merge (s : State) (f : Nat) : (State.bmeOn s f).mem.merge = s.mem.merge := by simp [State.bmeOn]
@[simp] theorem State.tallyRemoved_merge (s : State) (c : Cmd) : (State.tallyRemoved s c).mem.merge = s.mem.merge := by simp [State.tallyRemoved]
@[simp] theorem State.removeCmd_merge (s : State) (c : Cmd) : (State.removeCmd s c).mem.merge = s.mem.merge := by simp [State.removeCmd]
@[simp] theorem State.removeAll_merge (s : State) (cs : List Cmd) : (State.removeAll s cs).mem.merge = s.mem.merge := by simp [State.removeAll]
@[simp] theorem State.resetQueues_merge (s : State) (f : Nat) : (State.resetQueues s f).mem.merge = s.mem.merge := by simp [State.resetQueues]
@[simp] theorem State.resetRegs_merge (s : State) (f : Nat) : (State.resetRegs s f).mem.merge = s.mem.merge := by simp [State.resetRegs]
@[simp] theorem State.resetFn_merge (s : State) (f : Nat) : (State.resetFn s f).mem.merge = s.mem.merge := by simp [State.resetFn]
@[simp] theorem State.vfsOff_merge (s : State) (f : Nat) : (State.vfsOff s f).mem.merge = s.mem.merge := by simp [State.vfsOff]
@[simp] theorem State.flr_merge (s : State) (f : Nat) : (State.flr s f).mem.merge = s.mem.merge := by simp [State.flr]
@[simp] theorem State.modHalf_merge (s : State) (p : Nat) (h : Bool) (g : Link → Link) : (State.modHalf s p h g).mem.merge = s.mem.merge := by simp [State.modHalf]
@[simp] theorem State.linkDown_merge (s : State) (p : Nat) (h : Bool) : (State.linkDown s p h).mem.merge = s.mem.merge := by simp [State.linkDown]
@[simp] theorem State.commitWindow_merge (s : State) (p : Nat) (val : Word) : (State.commitWindow s p val).mem.merge = s.mem.merge := by simp [State.commitWindow]
@[simp] theorem State.moveSteward_merge (s : State) (p : Nat) : (State.moveSteward s p).mem.merge = s.mem.merge := by simp [State.moveSteward]
@[simp] theorem State.writeSteward_merge (s : State) (t : Nat) : (State.writeSteward s t).mem.merge = s.mem.merge := by simp [State.writeSteward]
@[simp] theorem State.predictGate_merge (s : State) (a cls : Nat) : (State.predictGate s a cls).mem.merge = s.mem.merge := by simp [State.predictGate]
@[simp] theorem State.wedgeSeen_merge (s : State) (a cls : Nat) (w : BitVec 10) : (State.wedgeSeen s a cls w).mem.merge = s.mem.merge := by simp [State.wedgeSeen]
@[simp] theorem State.skipWedge_merge (s : State) (a : Nat) : (State.skipWedge s a).mem.merge = s.mem.merge := by simp [State.skipWedge]
@[simp] theorem State.watchFrozen_merge (s : State) (a : Nat) (r : PosRec) : (State.watchFrozen s a r).mem.merge = s.mem.merge := by simp [State.watchFrozen]
@[simp] theorem State.frozen_merge (s : State) (a : Nat) : (State.frozen s a).mem.merge = s.mem.merge := by simp [State.frozen]
@[simp] theorem State.badRecord_merge (s : State) (a cls : Nat) : (State.badRecord s a cls).mem.merge = s.mem.merge := by simp [State.badRecord]
@[simp] theorem State.goodRecord_merge (s : State) (a : Nat) (r : PosRec) : (State.goodRecord s a r).mem.merge = s.mem.merge := by simp [State.goodRecord]
@[simp] theorem State.position_merge (s : State) (a : Nat) (rec : BitVec 128) : (State.position s a rec).mem.merge = s.mem.merge := by simp [State.position]
@[simp] theorem State.seekDone_merge (s : State) (a : Nat) : (State.seekDone s a).mem.merge = s.mem.merge := by simp [State.seekDone]
@[simp] theorem State.enterFollow_merge (s : State) (a : Nat) : (State.enterFollow s a).mem.merge = s.mem.merge := by simp [State.enterFollow]
@[simp] theorem State.toMode_merge (s : State) (a : Nat) (m : BitVec 3) : (State.toMode s a m).mem.merge = s.mem.merge := by simp [State.toMode]
@[simp] theorem State.loadFailed_merge (s : State) (a : Nat) : (State.loadFailed s a).mem.merge = s.mem.merge := by simp [State.loadFailed]
@[simp] theorem State.modeStep_merge (s : State) (a : Nat) (ok inWindow : Bool) : (State.modeStep s a ok inWindow).mem.merge = s.mem.merge := by simp [State.modeStep]
@[simp] theorem State.queueRunout_merge (s : State) (a h : Nat) : (State.queueRunout s a h).mem.merge = s.mem.merge := by simp [State.queueRunout]
@[simp] theorem State.runLoop_merge (s : State) (a : Nat) (o : LawOut) : (State.runLoop s a o).mem.merge = s.mem.merge := by unfold State.runLoop; (repeat' split) <;> simp
@[simp] theorem State.overrunRun_merge (s : State) (a : Nat) (o : LawOut) (budget : Nat) : (State.overrunRun s a o budget).mem.merge = s.mem.merge := by simp [State.overrunRun]
@[simp] theorem State.lineFault_merge (s : State) (a : Nat) (o : LawOut) (k : Nat) : (State.lineFault s a o k).mem.merge = s.mem.merge := by simp [State.lineFault]
@[simp] theorem State.spinOverrun_merge (s : State) (b : Nat) : (State.spinOverrun s b).mem.merge = s.mem.merge := by simp [State.spinOverrun]
@[simp] theorem State.takeMig_merge (s : State) (a : Nat) (mirrorOk : Bool) : (State.takeMig s a mirrorOk).mem.merge = s.mem.merge := by simp [State.takeMig]
@[simp] theorem State.loopReply_merge (s : State) (k reason n : Nat) : (State.loopReply s k reason n).mem.merge = s.mem.merge := by simp [State.loopReply]
@[simp] theorem State.endLeRetest_merge (s : State) (k n : Nat) (pass : Bool) : (State.endLeRetest s k n pass).mem.merge = s.mem.merge := by simp [State.endLeRetest]
@[simp] theorem State.diagWrite_merge (s : State) (f : Nat) (k : State → State) (hk : ∀ x0, (k x0).mem.merge = x0.mem.merge) : (State.diagWrite s f k).mem.merge = s.mem.merge := by unfold State.diagWrite; (try dsimp only); (repeat' split) <;> (try simp_all)
@[simp] theorem State.modPwr_merge (s : State) (g : Pwr → Pwr) : (State.modPwr s g).mem.merge = s.mem.merge := by simp [State.modPwr]
@[simp] theorem State.ceilingMoved_merge (s : State) (b : Nat) : (State.ceilingMoved s b).mem.merge = s.mem.merge := by simp [State.ceilingMoved]
@[simp] theorem State.ceilingsFrom_merge (s old : State) : (State.ceilingsFrom s old).mem.merge = s.mem.merge := by simp [State.ceilingsFrom]
@[simp] theorem State.reproject_merge (s : State) : (State.reproject s).mem.merge = s.mem.merge := by simp [State.reproject]
@[simp] theorem State.reachIdle_merge (s : State) (b : Nat) : (State.reachIdle s b).mem.merge = s.mem.merge := by simp [State.reachIdle]
@[simp] theorem State.calAtGait_merge (s : State) (b : Nat) : (State.calAtGait s b).mem.merge = s.mem.merge := by simp [State.calAtGait]
@[simp] theorem State.locked_merge (s : State) (b : Nat) : (State.locked s b).mem.merge = s.mem.merge := by simp [State.locked]
@[simp] theorem State.endWrites_merge (s : State) (b : Nat) : (State.endWrites s b).mem.merge = s.mem.merge := by simp [State.endWrites]
@[simp] theorem State.beginAlign_merge (s : State) (b : Nat) : (State.beginAlign s b).mem.merge = s.mem.merge := by simp [State.beginAlign]
@[simp] theorem State.beginSpin_merge (s : State) (b : Nat) : (State.beginSpin s b).mem.merge = s.mem.merge := by simp [State.beginSpin]
@[simp] theorem State.spinFailed_merge (s : State) (b : Nat) : (State.spinFailed s b).mem.merge = s.mem.merge := by simp [State.spinFailed]
@[simp] theorem State.startFloat_merge (s : State) (b : Nat) : (State.startFloat s b).mem.merge = s.mem.merge := by simp [State.startFloat]
@[simp] theorem State.observerLost_merge (s : State) (b : Nat) : (State.observerLost s b).mem.merge = s.mem.merge := by simp [State.observerLost]
@[simp] theorem State.atRest_merge (s : State) (b : Nat) : (State.atRest s b).mem.merge = s.mem.merge := by simp [State.atRest]
@[simp] theorem State.linkDetect_merge (s : State) (a : Nat) : (State.linkDetect s a).mem.merge = s.mem.merge := by simp [State.linkDetect]
@[simp] theorem State.faultCoast_merge (s : State) (b : Nat) : (State.faultCoast s b).mem.merge = s.mem.merge := by simp [State.faultCoast]
@[simp] theorem State.zeroCross_merge (s : State) (b : Nat) (rep : BitVec 64) : (State.zeroCross s b rep).mem.merge = s.mem.merge := by simp [State.zeroCross]
@[simp] theorem State.revolution_merge (s : State) (b n t : Nat) : (State.revolution s b n t).mem.merge = s.mem.merge := by simp [State.revolution]
@[simp] theorem State.spinReport_merge (s : State) (b : Nat) (rep : BitVec 64) : (State.spinReport s b rep).mem.merge = s.mem.merge := by simp [State.spinReport]
@[simp] theorem State.spinTick_merge (s : State) (b : Nat) : (State.spinTick s b).mem.merge = s.mem.merge := by simp [State.spinTick]
@[simp] theorem State.relocked_merge (s : State) (b : Nat) (cs : List (Nat × Nat)) : (State.relocked s b cs).mem.merge = s.mem.merge := by simp [State.relocked]
@[simp] theorem State.slowLower_merge (s : State) (b : Nat) : (State.slowLower s b).mem.merge = s.mem.merge := by simp [State.slowLower]
@[simp] theorem State.regenStops_merge (s : State) (d : Nat) : (State.regenStops s d).mem.merge = s.mem.merge := by simp [State.regenStops]
@[simp] theorem State.busCoasts_merge (s : State) (d : Nat) : (State.busCoasts s d).mem.merge = s.mem.merge := by simp [State.busCoasts]
@[simp] theorem State.coastEnds_merge (s : State) (d : Nat) : (State.coastEnds s d).mem.merge = s.mem.merge := by simp [State.coastEnds]
@[simp] theorem State.bayFault_merge (s : State) (b : Nat) : (State.bayFault s b).mem.merge = s.mem.merge := by simp [State.bayFault]
@[simp] theorem State.startBasic_merge (s : State) (a : Nat) : (State.startBasic s a).mem.merge = s.mem.merge := by simp [State.startBasic]
@[simp] theorem State.bringUp_merge (s : State) (b : Nat) : (State.bringUp s b).mem.merge = s.mem.merge := by simp [State.bringUp]
@[simp] theorem State.retarget_merge (s : State) (b g : Nat) : (State.retarget s b g).mem.merge = s.mem.merge := by simp [State.retarget]
@[simp] theorem State.wake_merge (s : State) (b : Nat) : (State.wake s b).mem.merge = s.mem.merge := by simp [State.wake]
@[simp] theorem State.grantToken_merge (s : State) (b : Nat) : (State.grantToken s b).mem.merge = s.mem.merge := by simp [State.grantToken]
@[simp] theorem State.enterPower_merge (s : State) (b : Nat) (want : BitVec 2) : (State.enterPower s b want).mem.merge = s.mem.merge := by simp [State.enterPower]
@[simp] theorem State.powerState_merge (s : State) (r : Requester) (st : Nat) (g : State → Nat → State) (hg : ∀ x0 x1, (g x0 x1).mem.merge = x0.mem.merge) : (State.powerState s r st g).mem.merge = s.mem.merge := by
  unfold State.powerState
  rw [State.serve_merge]
  intro p
  dsimp only
  (repeat' split) <;> simp [State.each_merge, hg]
@[simp] theorem State.askReset_merge (s : State) (at' action : Nat) : (State.askReset s at' action).mem.merge = s.mem.merge := by simp [State.askReset]
@[simp] theorem State.watchdogReset_merge (s : State) : (State.watchdogReset s).mem.merge = s.mem.merge := by simp [State.watchdogReset]
@[simp] theorem State.restartHerd_merge (s : State) (h : Nat) : (State.restartHerd s h).mem.merge = s.mem.merge := by simp [State.restartHerd]
@[simp] theorem State.restartCore_merge (s : State) : (State.restartCore s).mem.merge = s.mem.merge := by simp [State.restartCore]
@[simp] theorem State.writeDir_merge (s : State) (a : Nat) : (State.writeDir s a).mem.merge = s.mem.merge := by simp [State.writeDir]
@[simp] theorem State.landStaged_merge (s : State) (a : Nat) (closed : Option Nat) : (State.landStaged s a closed).mem.merge = s.mem.merge := by
  unfold State.landStaged
  split
  · rfl
  · simp
    rw [State.each_merge]
    intro s a; split <;> simp
@[simp] theorem State.replayHold_merge (s : State) (a : Nat) : (State.replayHold s a).mem.merge = s.mem.merge := by simp [State.replayHold]
@[simp] theorem State.rebuildIndex_merge (s : State) (a : Nat) : (State.rebuildIndex s a).mem.merge = s.mem.merge := by simp [State.rebuildIndex]
@[simp] theorem State.replayIntents_merge (s : State) (a : Nat) : (State.replayIntents s a).mem.merge = s.mem.merge := by unfold State.replayIntents; (try dsimp only); (repeat' split) <;> (try simp) <;> (repeat' (first | (rw [State.each_merge]) | (intro _) | split)) <;> simp_all
@[simp] theorem State.scanZone_merge (s : State) (a n lba : Nat) : (State.scanZone s a n lba).mem.merge = s.mem.merge := by unfold State.scanZone; (try dsimp only); (repeat' split) <;> (try simp) <;> (repeat' (first | (rw [State.each_merge]) | (intro _) | split)) <;> simp_all
@[simp] theorem State.replayJournal_merge (s : State) (a : Nat) : (State.replayJournal s a).mem.merge = s.mem.merge := by simp [State.replayJournal]
@[simp] theorem State.zonesTo_merge (s : State) (a h : Nat) (st : ZState) : (State.zonesTo s a h st).mem.merge = s.mem.merge := by simp [State.zonesTo]
@[simp] theorem State.halfHeads_merge (s : State) : (State.halfHeads s).mem.merge = s.mem.merge := by simp [State.halfHeads]
@[simp] theorem State.enterTrailhead_merge (s : State) (cause : Nat) : (State.enterTrailhead s cause).mem.merge = s.mem.merge := by simp [State.enterTrailhead]
@[simp] theorem State.beginStart_merge (s : State) (cause : Nat) : (State.beginStart s cause).mem.merge = s.mem.merge := by simp [State.beginStart]
@[simp] theorem State.writeDev_merge (s : State) (typ : Nat) (body : List Byte) : (State.writeDev s typ body).mem.merge = s.mem.merge := by simp [State.writeDev]
@[simp] theorem State.devFall_merge (s : State) (bad : List Nat) (typ : Nat) : (State.devFall s bad typ).mem.merge = s.mem.merge := by simp [State.devFall]
@[simp] theorem State.loadTrims_merge (s : State) (bad : List Nat) : (State.loadTrims s bad).mem.merge = s.mem.merge := by unfold State.loadTrims; (try dsimp only); (repeat' split) <;> simp
@[simp] theorem State.headFinal_merge (s : State) (a h : Nat) : (State.headFinal s a h).mem.merge = s.mem.merge := by simp [State.headFinal]
@[simp] theorem State.assistPasses_merge (s : State) (a h : Nat) (o : AsstCal) : (State.assistPasses s a h o).mem.merge = s.mem.merge := by simp [State.assistPasses]
@[simp] theorem State.assistFails_merge (s : State) (a h : Nat) : (State.assistFails s a h).mem.merge = s.mem.merge := by simp [State.assistFails]
@[simp] theorem State.channelDone_merge (s : State) (a h : Nat) (o : ChanCal) : (State.channelDone s a h o).mem.merge = s.mem.merge := by simp [State.channelDone]
@[simp] theorem State.servoDone_merge (s : State) (a h : Nat) (o : ChanCal) : (State.servoDone s a h o).mem.merge = s.mem.merge := by simp [State.servoDone]
@[simp] theorem State.queueCal_merge (s : State) (a h kind : Nat) : (State.queueCal s a h kind).mem.merge = s.mem.merge := by simp [State.queueCal]
@[simp] theorem State.grazeSays_merge (s : State) (r : Requester) (reason : Nat) : (State.grazeSays s r reason).mem.merge = s.mem.merge := by simp [State.grazeSays]
@[simp] theorem State.recal_merge (s : State) (r : Requester) (kind : Nat) (g : State → Nat → Nat → State) (hg : ∀ x0 x1 x2, (g x0 x1 x2).mem.merge = x0.mem.merge) : (State.recal s r kind g).mem.merge = s.mem.merge := by unfold State.recal; (try dsimp only); (repeat' split) <;> (try simp_all)
@[simp] theorem State.refreshSpn_merge (s : State) (b : Nat) : (State.refreshSpn s b).mem.merge = s.mem.merge := by simp [State.refreshSpn]
@[simp] theorem State.loopLost_merge (s : State) (a : Nat) : (State.loopLost s a).mem.merge = s.mem.merge := by simp [State.loopLost]
@[simp] theorem State.linkLost_merge (s : State) (a : Nat) (dWorks : Bool) : (State.linkLost s a dWorks).mem.merge = s.mem.merge := by simp [State.linkLost]
@[simp] theorem State.refreshSingle_merge (s : State) (a : Nat) : (State.refreshSingle s a).mem.merge = s.mem.merge := by simp [State.refreshSingle]
@[simp] theorem State.laneFails_merge (s : State) (a : Nat) (u1 lock : Bool) : (State.laneFails s a u1 lock).mem.merge = s.mem.merge := by simp [State.laneFails]
@[simp] theorem State.telemetry_merge (s : State) (a : Nat) (e : BitVec 64) : (State.telemetry s a e).mem.merge = s.mem.merge := by unfold State.telemetry; (repeat' split) <;> simp
@[simp] theorem State.downErrors_merge (s : State) (a : Nat) (cnt : BitVec 8) : (State.downErrors s a cnt).mem.merge = s.mem.merge := by simp [State.downErrors]
@[simp] theorem State.badFrame_merge (s : State) (a : Nat) (u1 lock : Bool) : (State.badFrame s a u1 lock).mem.merge = s.mem.merge := by simp [State.badFrame]
@[simp] theorem State.bringSpin_merge (s : State) (b : Nat) : (State.bringSpin s b).mem.merge = s.mem.merge := by simp [State.bringSpin]
@[simp] theorem State.trainingOver_merge (s : State) (b : Nat) : (State.trainingOver s b).mem.merge = s.mem.merge := by simp [State.trainingOver]
@[simp] theorem State.trainFailed_merge (s : State) (a : Nat) : (State.trainFailed s a).mem.merge = s.mem.merge := by simp [State.trainFailed]
@[simp] theorem State.useDesc_merge (s : State) (b : Nat) (d : Descriptor) : (State.useDesc s b d).mem.merge = s.mem.merge := by simp [State.useDesc]
@[simp] theorem State.descEnd_merge (s : State) (a : Nat) (d : Descriptor) (late : Bool) : (State.descEnd s a d late).mem.merge = s.mem.merge := by simp [State.descEnd]
@[simp] theorem State.linkReady_merge (s : State) (a : Nat) (o : TrainOut) (k0 k1 : Bool) : (State.linkReady s a o k0 k1).mem.merge = s.mem.merge := by simp [State.linkReady]
@[simp] theorem State.settleMedia_merge (s : State) (b : Nat) : (State.settleMedia s b).mem.merge = s.mem.merge := by simp [State.settleMedia]
@[simp] theorem State.settleWaiting_merge (s : State) : (State.settleWaiting s).mem.merge = s.mem.merge := by simp [State.settleWaiting]
@[simp] theorem State.actGone_merge (s : State) (a : Nat) : (State.actGone s a).mem.merge = s.mem.merge := by simp [State.actGone]
@[simp] theorem State.absentRec_merge (s : State) (a kind : Nat) : (State.absentRec s a kind).mem.merge = s.mem.merge := by simp [State.absentRec]
@[simp] theorem State.checkRecs_merge (s : State) (a side : Nat) (c : CalData) : (State.checkRecs s a side c).mem.merge = s.mem.merge := by simp [State.checkRecs]
@[simp] theorem State.calSide_merge (s : State) (a side : Nat) (c : CalData) : (State.calSide s a side c).mem.merge = s.mem.merge := by
  unfold State.calSide
  dsimp only
  rw [State.refreshSingle_merge, State.each_merge]
  · rw [State.checkRecs_merge, State.offerSet_merge]
    (repeat' split) <;> simp
  · intro s a; split <;> (try split) <;> simp
@[simp] theorem State.markHead_merge (s : State) (a h kind : Nat) : (State.markHead s a h kind).mem.merge = s.mem.merge := by simp [State.markHead]
@[simp] theorem State.checkFails_merge (s : State) (a h kind : Nat) : (State.checkFails s a h kind).mem.merge = s.mem.merge := by simp [State.checkFails]
@[simp] theorem State.linkReply_merge (s : State) (k reason a : Nat) (data : List Byte) : (State.linkReply s k reason a data).mem.merge = s.mem.merge := by simp [State.linkReply]
@[simp] theorem State.modThm_merge (s : State) (g : Thm → Thm) : (State.modThm s g).mem.merge = s.mem.merge := by simp [State.modThm]
@[simp] theorem State.endBayFlush_merge (s : State) (b : Nat) : (State.endBayFlush s b).mem.merge = s.mem.merge := by simp [State.endBayFlush]
@[simp] theorem State.bayEmergency_merge (s : State) (b : Nat) : (State.bayEmergency s b).mem.merge = s.mem.merge := by simp [State.bayEmergency]
@[simp] theorem State.stopGrazing_merge (s : State) (a : Nat) (h : Option Nat) : (State.stopGrazing s a h).mem.merge = s.mem.merge := by simp [State.stopGrazing]
@[simp] theorem State.bayEvent_merge (s old : State) (b : Nat) : (State.bayEvent s old b).mem.merge = s.mem.merge := by simp [State.bayEvent]
@[simp] theorem State.bayStep_merge (s : State) (b : Nat) (x : Scope) (kind3 : Bool) : (State.bayStep s b x kind3).mem.merge = s.mem.merge := by simp [State.bayStep]
@[simp] theorem State.dieStep_merge (s : State) (x : Scope) : (State.dieStep s x).mem.merge = s.mem.merge := by simp [State.dieStep]
@[simp] theorem State.headStep_merge (s : State) (a h : Nat) (x : Scope) : (State.headStep s a h x).mem.merge = s.mem.merge := by simp [State.headStep]
@[simp] theorem State.thermalReply_merge (s : State) (k b : Nat) : (State.thermalReply s k b).mem.merge = s.mem.merge := by simp [State.thermalReply]
@[simp] theorem State.thermalCtrl_merge (s : State) (r : Requester) (act : Nat) (own : Nat → Nat → Nat) (k : State → Nat → Nat → State) (hk : ∀ x0 x1 x2, (k x0 x1 x2).mem.merge = x0.mem.merge) : (State.thermalCtrl s r act own k).mem.merge = s.mem.merge := by unfold State.thermalCtrl; (try dsimp only); (repeat' split) <;> (try simp_all)
@[simp] theorem State.modCache_merge (s : State) (g : CacheSt → CacheSt) : (State.modCache s g).mem.merge = s.mem.merge := by simp [State.modCache]
@[simp] theorem State.startWalk_merge (s : State) (g : Nat) : (State.startWalk s g).mem.merge = s.mem.merge := by simp [State.startWalk]
@[simp] theorem State.wantGroup_merge (s : State) (g : Nat) : (State.wantGroup s g).mem.merge = s.mem.merge := by simp [State.wantGroup]
@[simp] theorem State.disableGroup_merge (s : State) (g : Nat) : (State.disableGroup s g).mem.merge = s.mem.merge := by simp [State.disableGroup]
@[simp] theorem State.enableGroup_merge (s : State) (g : Nat) : (State.enableGroup s g).mem.merge = s.mem.merge := by simp [State.enableGroup]
@[simp] theorem State.disableCache_merge (s : State) : (State.disableCache s).mem.merge = s.mem.merge := by simp [State.disableCache]
@[simp] theorem State.enableCache_merge (s : State) : (State.enableCache s).mem.merge = s.mem.merge := by simp [State.enableCache]
@[simp] theorem State.endWalk_merge (s : State) (g : Nat) : (State.endWalk s g).mem.merge = s.mem.merge := by simp [State.endWalk]
@[simp] theorem State.faultGroup_merge (s : State) (g : Nat) : (State.faultGroup s g).mem.merge = s.mem.merge := by simp [State.faultGroup]
@[simp] theorem State.poisonSlot_merge (s : State) (order : Nat) : (State.poisonSlot s order).mem.merge = s.mem.merge := by unfold State.poisonSlot; (try dsimp only); (repeat' split) <;> simp
@[simp] theorem State.fixedNow_merge (s : State) (key : Nat) : (State.fixedNow s key).mem.merge = s.mem.merge := by simp [State.fixedNow]
@[simp] theorem State.remapLine_merge (s : State) (x : Nat) : (State.remapLine s x).mem.merge = s.mem.merge := by simp [State.remapLine]
@[simp] theorem State.softRepair_merge (s : State) (x : SoftRec) : (State.softRepair s x).mem.merge = s.mem.merge := by simp [State.softRepair]
@[simp] theorem State.poisonOutcome_merge (s : State) (u : LineUse) : (s.poisonOutcome u).mem.merge = s.mem.merge := by
  cases u <;> simp only [State.poisonOutcome] <;> (try (repeat' split)) <;> simp
@[simp] theorem State.repairOutcome_merge (s : State) (u : LineUse) : (s.repairOutcome u).mem.merge = s.mem.merge := by
  cases u <;> simp only [State.repairOutcome] <;> (try (repeat' split)) <;> simp
@[simp] theorem State.poisonAt_merge (s : State) (x : Nat) (use : LineUse) : (State.poisonAt s x use).mem.merge = s.mem.merge := by simp [State.poisonAt]
@[simp] theorem State.scrubHeld_merge (s : State) (r : ScrubRead) (l : Line) : (State.scrubHeld s r l).mem.merge = s.mem.merge := by simp [State.scrubHeld]
@[simp] theorem State.scrubSram_merge (s : State) (r : ScrubRead) : (State.scrubSram s r).mem.merge = s.mem.merge := by simp [State.scrubSram]
@[simp] theorem State.layoutReply_merge (s : State) (k reason : Nat) (g : Nat → Area) : (State.layoutReply s k reason g).mem.merge = s.mem.merge := by simp [State.layoutReply]
@[simp] theorem State.layoutSays_merge (s : State) (k reason : Nat) : (State.layoutSays s k reason).mem.merge = s.mem.merge := by simp [State.layoutSays]
@[simp] theorem State.clearPoison_merge (s : State) (e : PoisonEnt) : (State.clearPoison s e).mem.merge = s.mem.merge := by simp [State.clearPoison]
@[simp] theorem State.fwReply_merge (s : State) (k reason slot : Nat) : (State.fwReply s k reason slot).mem.merge = s.mem.merge := by simp [State.fwReply]
theorem State.refusedAction_merge (s t : State) (k op : Nat) (p : List Byte) (h : s.refusedAction k op p = some t) : t.mem.merge = s.mem.merge := by
  revert t
  unfold State.refusedAction
  dsimp only
  repeat' apply ite_some_merge
  all_goals simp
@[simp] theorem State.goMbx_merge (s : State) (k : Nat) (seq : BitVec 16) : (State.goMbx s k seq).mem.merge = s.mem.merge := by
  unfold State.goMbx
  dsimp only
  (repeat' split) <;> try simp
  cases h : State.refusedAction _ _ _ _ with
  | none => simp
  | some t => simpa using State.refusedAction_merge _ _ _ _ _ h
@[simp] theorem State.writeReqbuf_merge (s : State) (k off : Nat) (data : List Byte) : (State.writeReqbuf s k off data).mem.merge = s.mem.merge := by simp [State.writeReqbuf]
@[simp] theorem State.writeMbxReq_merge (s : State) (k : Nat) (op len : BitVec 16) : (State.writeMbxReq s k op len).mem.merge = s.mem.merge := by simp [State.writeMbxReq]
@[simp] theorem State.sqGone_merge (s : State) (k key : Nat) : (State.sqGone s k key).mem.merge = s.mem.merge := by simp [State.sqGone]
@[simp] theorem State.smbus_merge (s : State) (pec : Bool) (g : State → State) (hg : ∀ x0, (g x0).mem.merge = x0.mem.merge) : (State.smbus s pec g).mem.merge = s.mem.merge := by unfold State.smbus; (try dsimp only); (repeat' split) <;> (try simp_all)
@[simp] theorem State.unfetch_merge (s : State) (key : Nat) : (State.unfetch s key).mem.merge = s.mem.merge := by simp [State.unfetch]
@[simp] theorem State.dropSaved_merge (s : State) (i : Nat) : (State.dropSaved s i).mem.merge = s.mem.merge := by simp [State.dropSaved]
@[simp] theorem State.loseSlots_merge (s : State) (a : Nat) : (State.loseSlots s a).mem.merge = s.mem.merge := by simp [State.loseSlots]
@[simp] theorem State.islandEffect_merge (s : State) (i : Nat) : (State.islandEffect s i).mem.merge = s.mem.merge := by simp [State.islandEffect]
@[simp] theorem State.resetIsland_merge (s : State) (i : Nat) (flight : Tab Nat) : (State.resetIsland s i flight).mem.merge = s.mem.merge := by simp [State.resetIsland]
@[simp] theorem State.askIslandReset_merge (s : State) (i : Nat) (flight : Tab Nat) : (State.askIslandReset s i flight).mem.merge = s.mem.merge := by simp [State.askIslandReset]
@[simp] theorem State.modClk_merge (s : State) (g : Clk → Clk) : (State.modClk s g).mem.merge = s.mem.merge := by simp [State.modClk]
@[simp] theorem State.discipline_merge (s : State) : (State.discipline s).mem.merge = s.mem.merge := by simp [State.discipline]
@[simp] theorem State.raiseGen_merge (s : State) (slot nsid : Nat) : (State.raiseGen s slot nsid).mem.merge = s.mem.merge := by simp [State.raiseGen]
@[simp] theorem State.dropNs_merge (s : State) (n : Nat) : (State.dropNs s n).mem.merge = s.mem.merge := by simp [State.dropNs]
@[simp] theorem State.stageGrant_merge (s : State) (r : Requester) (g : Bool) : (State.stageGrant s r g).mem.merge = s.mem.merge := by simp [State.stageGrant]
@[simp] theorem State.attach_merge (s : State) (n f : Nat) (on : Bool) : (State.attach s n f on).mem.merge = s.mem.merge := by simp [State.attach]
@[simp] theorem State.serveAttach_merge (s : State) (r : Requester) (g : Bool) : (State.serveAttach s r g).mem.merge = s.mem.merge := by simp [State.serveAttach]
@[simp] theorem State.putGrant_merge (s : State) (g : StagedGrant) : (State.putGrant s g).mem.merge = s.mem.merge := by simp [State.putGrant]
@[simp] theorem State.epochApplied_merge (s : State) : (State.epochApplied s).mem.merge = s.mem.merge := by simp [State.epochApplied]
@[simp] theorem State.reweigh_merge (s : State) (a : Nat) (was now : EpochCfg) : (State.reweigh s a was now).mem.merge = s.mem.merge := by simp [State.reweigh]
@[simp] theorem State.writePortRec_merge (s : State) (r : PortRec) : (State.writePortRec s r).mem.merge = s.mem.merge := by simp [State.writePortRec]
@[simp] theorem State.tallyRing_merge (s : State) (r : Requester) (act : Nat) (g : State → Nat → List Byte → Nat × State)
    (hg : ∀ s k p, (g s k p).2.mem.merge = s.mem.merge) : (s.tallyRing r act g).mem.merge = s.mem.merge := by
  unfold State.tallyRing
  rw [State.serve_merge]
  intro p
  dsimp only
  simp
  (repeat' split) <;> simp_all
@[simp] theorem State.tallyWrite_merge (s : State) (key : Nat) (body : List Byte) : (State.tallyWrite s key body).mem.merge = s.mem.merge := by simp [State.tallyWrite]
@[simp] theorem State.modSlot_merge (s : State) (n : Nat) (g : Slot → Slot) : (State.modSlot s n g).mem.merge = s.mem.merge := by simp [State.modSlot]
@[simp] theorem State.loadLayout_merge (s : State) (bad : List Nat) : (State.loadLayout s bad).mem.merge = s.mem.merge := by unfold State.loadLayout; (try dsimp only); (repeat' split) <;> simp
@[simp] theorem State.softApply_merge (s : State) (lost : List Nat) : (State.softApply s lost).mem.merge = s.mem.merge := by simp [State.softApply]
@[simp] theorem State.replaceLe_merge (s : State) (n : Nat) : (State.replaceLe s n).mem.merge = s.mem.merge := by
  unfold State.replaceLe
  dsimp only
  rw [State.each_merge, State.each_merge]
  · simp
  · intro s a; split <;> simp
  · intro s a; split <;> simp
@[simp] theorem State.resumeFormat_merge (s : State) (o : FmtOp) : (State.resumeFormat s o).mem.merge = s.mem.merge := by simp [State.resumeFormat]
@[simp] theorem State.resumeSan_merge (s : State) (o : SanOp) : (State.resumeSan s o).mem.merge = s.mem.merge := by simp [State.resumeSan]
@[simp] theorem State.islandsUp_merge (s : State) : (State.islandsUp s).mem.merge = s.mem.merge := by simp [State.islandsUp]
@[simp] theorem State.herdsUp_merge (s : State) (img : SlotCheck) : (State.herdsUp s img).mem.merge = s.mem.merge := by simp [State.herdsUp]
@[simp] theorem State.completeStart_merge (s : State) (img : SlotCheck) (failedDe failedLe : List Nat) : (State.completeStart s img failedDe failedLe).mem.merge = s.mem.merge := by simp [State.completeStart]
@[simp] theorem State.serveReset_merge (s : State) (r : Requester) (action : Nat) : (State.serveReset s r action).mem.merge = s.mem.merge := by simp [State.serveReset]
@[simp] theorem State.writeCommand_merge (s : State) (f : Nat) (v : BitVec 64) : (State.writeCommand s f v).mem.merge = s.mem.merge := by simp [State.writeCommand]
@[simp] theorem State.writeCfg_merge (s : State) (f : Nat) (sp : RegSpace) (i : Nat) (v : BitVec 64) : (State.writeCfg s f sp i v).mem.merge = s.mem.merge := by unfold State.writeCfg; (repeat' split) <;> simp
@[simp] theorem State.serveFw_merge (s : State) (r : Requester) (act : Nat) (ok : List Byte → Bool)
    (go : State → List Byte → State × Nat) (hg : ∀ s p, (go s p).1.mem.merge = s.mem.merge) : (s.serveFw r act ok go).mem.merge = s.mem.merge := by
  unfold State.serveFw
  rw [State.serve_merge]
  intro p
  dsimp only
  (repeat' split) <;> simp_all
@[simp] theorem State.prefer_merge (s : State) (n : Nat) : (State.prefer s n).mem.merge = s.mem.merge := by simp [State.prefer]
@[simp] theorem State.placeHolds_merge (s : State) (x : Act16) (u : Nat) : (State.placeHolds s x u).mem.merge = s.mem.merge := by simp [State.placeHolds]
@[simp] theorem State.actOver_merge (s : State) (st comp : Nat) : (State.actOver s st comp).mem.merge = s.mem.merge := by simp [State.actOver]
@[simp] theorem State.actDone_merge (s : State) (x : Act16) : (State.actDone s x).mem.merge = s.mem.merge := by simp [State.actDone]
@[simp] theorem State.rollNext_merge (s : State) (x : Act16) : (State.rollNext s x).mem.merge = s.mem.merge := by unfold State.rollNext; (repeat' split) <;> simp
@[simp] theorem State.endRoutine_merge (s : State) (a : Nat) : (State.endRoutine s a).mem.merge = s.mem.merge := by simp [State.endRoutine]
@[simp] theorem State.beginFlush_merge (s : State) (a : Nat) : (State.beginFlush s a).mem.merge = s.mem.merge := by simp [State.beginFlush]
@[simp] theorem State.quarReply_merge (s : State) (k reason b : Nat) : (State.quarReply s k reason b).mem.merge = s.mem.merge := by simp [State.quarReply]
@[simp] theorem State.keyReply_merge (s : State) (k reason x : Nat) (blob : List Byte) : (State.keyReply s k reason x blob).mem.merge = s.mem.merge := by simp [State.keyReply]
@[simp] theorem State.sanReply_merge (s : State) (k reason id : Nat) : (State.sanReply s k reason id).mem.merge = s.mem.merge := by simp [State.sanReply]
@[simp] theorem State.enterSanitize_merge (s : State) (kind : Nat) (ns : List Nat) : (State.enterSanitize s kind ns).mem.merge = s.mem.merge := by simp [State.enterSanitize]
@[simp] theorem State.serveSanitize_merge (s : State) (r : Requester) (kind : Nat) : (State.serveSanitize s r kind).mem.merge = s.mem.merge := by simp [State.serveSanitize]
@[simp] theorem State.afterRead_merge (s : State) (f off : Nat) : (State.afterRead s f off).mem.merge = s.mem.merge := by simp [State.afterRead]
@[simp] theorem State.read4_merge (s : State) (f off : Nat) : (s.read4 f off).2.mem.merge = s.mem.merge := by
  unfold State.read4; (repeat' split) <;> simp
@[simp] theorem State.readReg_merge (s : State) (f off : Nat) (wide : Bool) : (State.readReg s f off wide).mem.merge = s.mem.merge := by
  unfold State.readReg
  dsimp only
  split <;> simp
@[simp] theorem State.access_merge (s : State) (f off : Nat) (wide posted : Bool) (k : State → State) (hk : ∀ x0, (k x0).mem.merge = x0.mem.merge) : (State.access s f off wide posted k).mem.merge = s.mem.merge := by unfold State.access; (try dsimp only); (repeat' split) <;> (try simp_all)
@[simp] theorem State.readBar0_merge (s : State) (f off : Nat) (wide : Bool) : (State.readBar0 s f off wide).mem.merge = s.mem.merge := by simp [State.readBar0]
@[simp] theorem State.noteDebug_merge (s old : State) : (State.noteDebug s old).mem.merge = s.mem.merge := by simp [State.noteDebug]
@[simp] theorem State.writeLck_merge (s : State) (v : Word) : (State.writeLck s v).mem.merge = s.mem.merge := by simp [State.writeLck]
@[simp] theorem State.writeDbg_merge (s : State) (v : Word) : (State.writeDbg s v).mem.merge = s.mem.merge := by simp [State.writeDbg]
@[simp] theorem State.writeFwkey_merge (s : State) (v : Word) : (State.writeFwkey s v).mem.merge = s.mem.merge := by simp [State.writeFwkey]
@[simp] theorem State.clearLatch_merge (s : State) (p n : Nat) (v : Word) : (State.clearLatch s p n v).mem.merge = s.mem.merge := by simp [State.clearLatch]
@[simp] theorem State.clearFnLatch_merge (s : State) (f : Nat) (v : Word) : (State.clearFnLatch s f v).mem.merge = s.mem.merge := by simp [State.clearFnLatch]
@[simp] theorem State.modSel_merge (s : State) (p : Nat) (g : PfSel → PfSel) : (State.modSel s p g).mem.merge = s.mem.merge := by simp [State.modSel]
@[simp] theorem State.modStaged_merge (s : State) (g : EpochCfg → EpochCfg) : (State.modStaged s g).mem.merge = s.mem.merge := by simp [State.modStaged]
@[simp] theorem State.writeStaged_merge (s : State) (off : Nat) (v : Word) : (State.writeStaged s off v).mem.merge = s.mem.merge := by simp [State.writeStaged]
@[simp] theorem State.writeLcCtrl_merge (s : State) (v : Word) : (State.writeLcCtrl s v).mem.merge = s.mem.merge := by simp [State.writeLcCtrl]
@[simp] theorem State.writeClk_merge (s : State) (v : Word) : (State.writeClk s v).mem.merge = s.mem.merge := by simp [State.writeClk]
@[simp] theorem State.writePort_merge (s : State) (p off : Nat) (v : Word) : (State.writePort s p off v).mem.merge = s.mem.merge := by simp [State.writePort]
@[simp] theorem State.clearXing_merge (s : State) (p : Nat) (v : Word) : (State.clearXing s p v).mem.merge = s.mem.merge := by simp [State.clearXing]
@[simp] theorem State.writeDiag_merge (s : State) (off : Nat) (v : Word) : (State.writeDiag s off v).mem.merge = s.mem.merge := by simp [State.writeDiag]
@[simp] theorem State.writeTalHead_merge (s : State) (f k : Nat) (v : Word) : (State.writeTalHead s f k v).mem.merge = s.mem.merge := by simp [State.writeTalHead]
@[simp] theorem State.writeDb_merge (s : State) (f o : Nat) (v : Word) : (State.writeDb s f o v).mem.merge = s.mem.merge := by simp [State.writeDb]
@[simp] theorem State.writeFn_merge (s : State) (f off : Nat) (v : Word) : (State.writeFn s f off v).mem.merge = s.mem.merge := by simp [State.writeFn]
theorem State.writeOwn_merge (s t : State) (off : Nat) (v : Word) (fl : Tab Nat) (h : s.writeOwn off v fl = some t) : t.mem.merge = s.mem.merge := by
  revert t
  unfold State.writeOwn
  repeat' apply ite_some_merge
  all_goals simp
@[simp] theorem State.writePf_merge (s : State) (f off : Nat) (v : Word) (flight : Tab Nat) : (State.writePf s f off v flight).mem.merge = s.mem.merge := by
  unfold State.writePf
  dsimp only
  (repeat' split) <;> first | (simp; done) | (rename_i h _; simpa using State.writeOwn_merge _ _ _ _ _ h)
@[simp] theorem State.write4_merge (s : State) (f off : Nat) (v : Word) (flight : Tab Nat) : (State.write4 s f off v flight).mem.merge = s.mem.merge := by simp [State.write4]
@[simp] theorem State.writeReg_merge (s : State) (f off : Nat) (wide : Bool) (data : BitVec 64) (flight : Tab Nat) : (State.writeReg s f off wide data flight).mem.merge = s.mem.merge := by simp [State.writeReg]
end Sys2Proof.Machine
end

