-- ==== Sys2Proof/Laws/Queue.lean ====
section
/-! SUPPORT. Every operation of the block leaves the queue of waiting commands alone. -/
namespace Sys2Proof.Machine
open Sys2Proof
@[simp] theorem State.ite_pending (c : Prop) [Decidable c] (s t : State) : (if c then s else t).pending = if c then s.pending else t.pending := by split <;> rfl
@[simp] theorem State.foldl_pending {α : Type} (g : State → α → State) (hg : ∀ s a, (g s a).pending = s.pending) (l : List α) (s : State) : (l.foldl g s).pending = s.pending := by
  induction l generalizing s with
  | nil => rfl
  | cons a t ih => simp [ih, hg]
@[simp] theorem State.each_pending {α : Type} (s : State) (l : List α) (g : State → α → State) (hg : ∀ s a, (g s a).pending = s.pending) : (s.each l g).pending = s.pending := State.foldl_pending g hg l s
theorem ite_some_pending {c : Prop} [Decidable c] {a b : Option State} {v : List Sys2Proof.Instr} (ha : ∀ t, a = some t → t.pending = v)
    (hb : ∀ t, b = some t → t.pending = v) : ∀ t, (if c then a else b) = some t → t.pending = v := by split <;> assumption
theorem foldl_fst_pending {α β : Type} (g : State × β → α → State × β) (hg : ∀ x a, (g x a).1.pending = x.1.pending) (l : List α) (x : State × β) : (l.foldl g x).1.pending = x.1.pending := by
  induction l generalizing x with
  | nil => rfl
  | cons a t ih => simp [ih, hg]

@[simp] theorem State.sendTlp_pending (s : State) (f : Nat) : (State.sendTlp s f).pending = s.pending := by simp [State.sendTlp]
@[simp] theorem State.raiseFns_pending (s : State) (fs : List Nat) (b : Nat) : (State.raiseFns s fs b).pending = s.pending := by simp [State.raiseFns]
@[simp] theorem State.ignoreWrite_pending (s : State) (f : Nat) : (State.ignoreWrite s f).pending = s.pending := by simp [State.ignoreWrite]
@[simp] theorem State.aerLog_pending (s : State) (f b : Nat) (adv : Bool) (hdr : Option Nat) : (State.aerLog s f b adv hdr).pending = s.pending := by simp [State.aerLog]
@[simp] theorem State.refuseReq_pending (s : State) (f cause : Nat) (posted : Bool) (hdr : Nat) : (State.refuseReq s f cause posted hdr).pending = s.pending := by unfold State.refuseReq; (repeat' split) <;> simp
@[simp] theorem State.refuseAny_pending (s : State) (f cause : Nat) (posted : Bool) : (State.refuseAny s f cause posted).pending = s.pending := by simp [State.refuseAny]
@[simp] theorem State.bar0_pending (s : State) (f : Nat) (posted : Bool) (k : State → State) (hk : ∀ x0, (k x0).pending = x0.pending) : (State.bar0 s f posted k).pending = s.pending := by unfold State.bar0; (try dsimp only); (repeat' split) <;> (try simp_all)
@[simp] theorem State.stewardWrite_pending (s : State) (f : Nat) (k : State → State) (hk : ∀ x0, (k x0).pending = x0.pending) : (State.stewardWrite s f k).pending = s.pending := by unfold State.stewardWrite; (try dsimp only); (repeat' split) <;> (try simp_all)
@[simp] theorem State.charge_pending (s : State) (f n : Nat) (g : Acc → Acc) : (State.charge s f n g).pending = s.pending := by simp [State.charge]
@[simp] theorem State.chargePoison_pending (s : State) (n : Nat) : (State.chargePoison s n).pending = s.pending := by simp [State.chargePoison]
@[simp] theorem State.tick_pending (s : State) : (State.tick s).pending = s.pending := by simp [State.tick]
@[simp] theorem State.mapFns_pending (s : State) (g : Nat → FnSt → FnSt) : (State.mapFns s g).pending = s.pending := by simp [State.mapFns]
@[simp] theorem State.mapCmds_pending (s : State) (g : Cmd → Cmd) : (State.mapCmds s g).pending = s.pending := by simp [State.mapCmds]
@[simp] theorem State.modStage_pending (s : State) (g : Staging → Staging) : (State.modStage s g).pending = s.pending := by simp [State.modStage]
@[simp] theorem State.mapR_pending (s : State) (g : RSlot → RSlot) : (State.mapR s g).pending = s.pending := by simp [State.mapR]
@[simp] theorem State.mapW_pending (s : State) (g : WSlot → WSlot) : (State.mapW s g).pending = s.pending := by simp [State.mapW]
@[simp] theorem State.mapRec_pending (s : State) (g : RecEntry → RecEntry) : (State.mapRec s g).pending = s.pending := by simp [State.mapRec]
@[simp] theorem State.mapFmt_pending (s : State) (g : FmtOp → FmtOp) : (State.mapFmt s g).pending = s.pending := by simp [State.mapFmt]
@[simp] theorem State.mapSan_pending (s : State) (g : SanOp → SanOp) : (State.mapSan s g).pending = s.pending := by simp [State.mapSan]
@[simp] theorem State.modMem_pending (s : State) (g : MemSt → MemSt) : (State.modMem s g).pending = s.pending := by simp [State.modMem]
@[simp] theorem State.modPool_pending (s : State) (g : Pool → Pool) : (State.modPool s g).pending = s.pending := by simp [State.modPool]
@[simp] theorem State.modBoot_pending (s : State) (g : Boot → Boot) : (State.modBoot s g).pending = s.pending := by simp [State.modBoot]
@[simp] theorem State.modCfg_pending (s : State) (g : Cfg → Cfg) : (State.modCfg s g).pending = s.pending := by simp [State.modCfg]
@[simp] theorem State.modGlb_pending (s : State) (g : Glb → Glb) : (State.modGlb s g).pending = s.pending := by simp [State.modGlb]
@[simp] theorem State.worn_pending (s : State) (a : Nat) (gs : List Nat) : (State.worn s a gs).pending = s.pending := by simp [State.worn]
@[simp] theorem State.setPlan_pending (s : State) (a : Nat) (q : List PlanOp) : (State.setPlan s a q).pending = s.pending := by simp [State.setPlan]
@[simp] theorem State.unplan_pending (s : State) (a id : Nat) : (State.unplan s a id).pending = s.pending := by simp [State.unplan]
@[simp] theorem State.replan_pending (s : State) (a : Nat) : (State.replan s a).pending = s.pending := by simp [State.replan]
@[simp] theorem State.replaceRead_pending (s : State) : (State.replaceRead s).pending = s.pending := by unfold State.replaceRead; (repeat' split) <;> simp
@[simp] theorem State.pin_pending (s : State) (id : Nat) (x : Sector) : (State.pin s id x).pending = s.pending := by simp [State.pin]
@[simp] theorem State.rewritten_pending (s : State) (n lba : Nat) : (State.rewritten s n lba).pending = s.pending := by simp [State.rewritten]
@[simp] theorem State.writeCommitted_pending (s : State) (n lba : Nat) : (State.writeCommitted s n lba).pending = s.pending := by simp [State.writeCommitted]
@[simp] theorem State.pruneStaged_pending (s : State) : (State.pruneStaged s).pending = s.pending := by simp [State.pruneStaged]
@[simp] theorem State.payAssist_pending (s : State) (a : Nat) (q : FmtCmd) (e : Nat) : (State.payAssist s a q e).pending = s.pending := by simp [State.payAssist]
@[simp] theorem State.sendAssist_pending (s : State) (a h : Nat) (lvl : AssistLevel) : (State.sendAssist s a h lvl).pending = s.pending := by simp [State.sendAssist]
@[simp] theorem State.openGate_pending (s : State) (a : Nat) (q : FmtCmd) : (State.openGate s a q).pending = s.pending := by simp [State.openGate]
@[simp] theorem State.closeGate_pending (s : State) (a : Nat) (lvl : AssistLevel) : (State.closeGate s a lvl).pending = s.pending := by unfold State.closeGate; (repeat' split) <;> simp
@[simp] theorem State.crossWedge_pending (s : State) (a : Nat) : (State.crossWedge s a).pending = s.pending := by unfold State.crossWedge; (repeat' split) <;> simp
@[simp] theorem State.cutQuantum_pending (s : State) (a : Nat) (r : Routine) : (State.cutQuantum s a r).pending = s.pending := by simp [State.cutQuantum]
@[simp] theorem State.wantSqueeze_pending (s : State) (a : Nat) (r : Routine) (c : Option FmtCmd) : (State.wantSqueeze s a r c).pending = s.pending := by unfold State.wantSqueeze; (repeat' split) <;> simp
@[simp] theorem State.lateInhibit_pending (s : State) (a : Nat) (cause : Option Nat) (toward : Bool) : (State.lateInhibit s a cause toward).pending = s.pending := by unfold State.lateInhibit; (try dsimp only); (repeat' split) <;> simp
@[simp] theorem State.abandonWrite_pending (s : State) (a : Nat) (cause : Option Nat) (toward : Bool) : (State.abandonWrite s a cause toward).pending = s.pending := by unfold State.abandonWrite; (repeat' split) <;> simp
@[simp] theorem State.putBack_pending (s : State) (a : Nat) : (State.putBack s a).pending = s.pending := by unfold State.putBack; (repeat' split) <;> simp
@[simp] theorem State.postEntry_pending (s : State) (f q : Nat) (c : Cpl) : (State.postEntry s f q c).pending = s.pending := by simp [State.postEntry]
@[simp] theorem State.releaseSlot_pending (s : State) (f q : Nat) : (State.releaseSlot s f q).pending = s.pending := by simp [State.releaseSlot]
@[simp] theorem State.tallyEnd_pending (s : State) (c : Cmd) (status : Nat) : (State.tallyEnd s c status).pending = s.pending := by simp [State.tallyEnd]
@[simp] theorem State.dropCmd_pending (s : State) (id : Nat) : (State.dropCmd s id).pending = s.pending := by simp [State.dropCmd]
@[simp] theorem State.ackStaged_pending (s : State) (id : Nat) : (State.ackStaged s id).pending = s.pending := by simp [State.ackStaged]
@[simp] theorem State.postCmd_pending (s : State) (c : Cmd) (status result : Nat) : (State.postCmd s c status result).pending = s.pending := by simp [State.postCmd]
@[simp] theorem State.queueRecovery_pending (s : State) (e : RecEntry) : (State.queueRecovery s e).pending = s.pending := by simp [State.queueRecovery]
@[simp] theorem State.dropAttempts_pending (s : State) (id : Nat) : (State.dropAttempts s id).pending = s.pending := by simp [State.dropAttempts]
@[simp] theorem State.release_pending (s : State) (c : Cmd) (ok : Bool) : (State.release s c ok).pending = s.pending := by simp [State.release]
@[simp] theorem State.postOrHold_pending (s : State) (c : Cmd) (status result : Nat) : (State.postOrHold s c status result).pending = s.pending := by simp [State.postOrHold]
@[simp] theorem State.recover_pending (s : State) (c : Cmd) : (s.recover c).1.pending = s.pending := by
  unfold State.recover; dsimp only; split <;> simp
@[simp] theorem State.endCmd_pending (s : State) (id status result : Nat) : (State.endCmd s id status result).pending = s.pending := by unfold State.endCmd; (repeat' split) <;> simp
@[simp] theorem State.postEarly_pending (s : State) : (State.postEarly s).pending = s.pending := by simp [State.postEarly]
@[simp] theorem State.removedFirst_pending (s : State) (b : Nat) : (State.removedFirst s b).pending = s.pending := by simp [State.removedFirst]
@[simp] theorem State.fixStatus_pending (s : State) (ids : List Nat) (status : Nat) : (State.fixStatus s ids status).pending = s.pending := by simp [State.fixStatus]
@[simp] theorem State.restores_pending (s : State) (id w : Nat) : (State.restores s id w).pending = s.pending := by simp [State.restores]
@[simp] theorem State.failZoneWrite_pending (s : State) (c : Cmd) : (State.failZoneWrite s c).pending = s.pending := by simp [State.failZoneWrite]
@[simp] theorem State.failZoneAction_pending (s : State) (c : Cmd) : (State.failZoneAction s c).pending = s.pending := by simp [State.failZoneAction]
@[simp] theorem State.undoZone_pending (s : State) (c : Cmd) : (State.undoZone s c).pending = s.pending := by simp [State.undoZone]
@[simp] theorem State.cutOffs_pending (s : State) (c : Cmd) : (State.cutOffs s c).pending = s.pending := by simp [State.cutOffs]
@[simp] theorem State.endAll_pending (s : State) (l : List (Nat × Nat × Nat)) : (State.endAll s l).pending = s.pending := by unfold State.endAll; (try dsimp only); (repeat' split) <;> (try simp) <;> (repeat' (first | (rw [State.each_pending]) | (intro _) | split)) <;> simp_all
@[simp] theorem State.commitStaged_pending (s : State) (c : Cmd) : (State.commitStaged s c).pending = s.pending := by simp [State.commitStaged]
@[simp] theorem State.drain_pending (s : State) : (State.drain s).pending = s.pending := by unfold State.drain; (try dsimp only); (repeat' split) <;> (try simp) <;> (repeat' (first | (rw [State.each_pending]) | (intro _) | split)) <;> simp_all
@[simp] theorem State.finish_pending (s : State) (id status result : Nat) : (State.finish s id status result).pending = s.pending := by simp [State.finish]
@[simp] theorem State.finishAll_pending (s : State) (ids : List Nat) (status : Nat) : (State.finishAll s ids status).pending = s.pending := by simp [State.finishAll]
@[simp] theorem State.cutOff_pending (s : State) (id : Nat) : (State.cutOff s id).pending = s.pending := by unfold State.cutOff; (repeat' split) <;> simp
@[simp] theorem State.capacityLoss_pending (s : State) (a : Nat) : (State.capacityLoss s a).pending = s.pending := by simp [State.capacityLoss]
@[simp] theorem State.serviceLost_pending (s : State) (a : Nat) (back : Option Nat) : (State.serviceLost s a back).pending = s.pending := by unfold State.serviceLost; (repeat' split) <;> simp
@[simp] theorem State.ringSq_pending (s : State) (f q i : Nat) : (State.ringSq s f q i).pending = s.pending := by unfold State.ringSq; (repeat' split) <;> simp
@[simp] theorem State.ringCq_pending (s : State) (f q i : Nat) : (State.ringCq s f q i).pending = s.pending := by unfold State.ringCq; (repeat' split) <;> simp
@[simp] theorem State.refreshNs_pending (s : State) : (State.refreshNs s).pending = s.pending := by simp [State.refreshNs]
@[simp] theorem State.failCheck_pending (s : State) (f q cq sqhd : Nat) (tag : Word) (status result : Nat) : (State.failCheck s f q cq sqhd tag status result).pending = s.pending := by simp [State.failCheck]
@[simp] theorem State.enterLedger_pending (s : State) (f q cq sqhd : Nat) (e : Entry) : (State.enterLedger s f q cq sqhd e).pending = s.pending := by simp [State.enterLedger]
@[simp] theorem State.runEntry_pending (s : State) (w : CheckWait) : (State.runEntry s w).pending = s.pending := by unfold State.runEntry; (try dsimp only); (repeat' split) <;> simp
@[simp] theorem State.checkEntry_pending (s : State) (w : CheckWait) (before : List CheckWait) : (State.checkEntry s w before).pending = s.pending := by simp [State.checkEntry]
@[simp] theorem State.runWaiting_pending (s : State) : (State.runWaiting s).pending = s.pending := by simp [State.runWaiting]
@[simp] theorem State.recordSegs_pending (s : State) (a : Nat) : (State.recordSegs s a).pending = s.pending := by simp [State.recordSegs]
@[simp] theorem State.landCheck_pending (s : State) (a : Nat) : (State.landCheck s a).pending = s.pending := by simp [State.landCheck]
@[simp] theorem State.startExit_pending (s : State) (b g pre mile : Nat) (tok : Bool) (kind : Nat) : (State.startExit s b g pre mile tok kind).pending = s.pending := by simp [State.startExit]
@[simp] theorem State.freed_pending (s : State) (a : Nat) : (State.freed s a).pending = s.pending := by simp [State.freed]
@[simp] theorem State.slotLimited_pending (s : State) (a : Nat) (l : Bool) : (State.slotLimited s a l).pending = s.pending := by simp [State.slotLimited]
@[simp] theorem State.holdCmd_pending (s : State) (c : Cmd) : (State.holdCmd s c).pending = s.pending := by simp [State.holdCmd]
@[simp] theorem State.refuse_pending (s : State) (c : Cmd) (act : Option Nat) (power : Bool) : (State.refuse s c act power).pending = s.pending := by unfold State.refuse; (repeat' split) <;> simp
@[simp] theorem State.admitCmd_pending (s : State) (c : Cmd) : (State.admitCmd s c).pending = s.pending := by simp [State.admitCmd]
@[simp] theorem State.aim_pending (s : State) (a : Nat) (o : PlanOp) : (State.aim s a o).pending = s.pending := by simp [State.aim]
@[simp] theorem State.setRate_pending (s : State) (a : Nat) (o : PlanOp) : (State.setRate s a o).pending = s.pending := by simp [State.setRate]
@[simp] theorem State.setHeater_pending (s : State) (a : Nat) (o : PlanOp) : (State.setHeater s a o).pending = s.pending := by simp [State.setHeater]
@[simp] theorem State.beginOp_pending (s : State) (a : Nat) (r : PlanOp) (rest : List PlanOp) : (State.beginOp s a r rest).pending = s.pending := by simp [State.beginOp]
@[simp] theorem State.startOp_pending (s : State) (a : Nat) (o : PlanOp) (trial : List PlanOp) : (State.startOp s a o trial).pending = s.pending := by unfold State.startOp; (repeat' split) <;> simp
@[simp] theorem State.replanBay_pending (s : State) (b : Nat) : (State.replanBay s b).pending = s.pending := by simp [State.replanBay]
@[simp] theorem State.tryRaise_pending (s : State) (b : Nat) : (State.tryRaise s b).pending = s.pending := by simp [State.tryRaise]
@[simp] theorem State.dropPauses_pending (s : State) (b : Nat) : (State.dropPauses s b).pending = s.pending := by simp [State.dropPauses]
@[simp] theorem State.longerPause_pending (s : State) (b g : Nat) : (State.longerPause s b g).pending = s.pending := by simp [State.longerPause]
@[simp] theorem State.lowerAnew_pending (s : State) (b g : Nat) : (State.lowerAnew s b g).pending = s.pending := by simp [State.lowerAnew]
@[simp] theorem State.planLower_pending (s : State) (b g : Nat) : (State.planLower s b g).pending = s.pending := by simp [State.planLower]
@[simp] theorem State.tryLower_pending (s : State) (b : Nat) : (State.tryLower s b).pending = s.pending := by unfold State.tryLower; (try dsimp only); (repeat' split) <;> simp
@[simp] theorem State.yieldQuantum_pending (s : State) (a : Nat) : (State.yieldQuantum s a).pending = s.pending := by unfold State.yieldQuantum; (repeat' split) <;> simp
@[simp] theorem State.joinIn_pending (s : State) (a : Nat) : (State.joinIn s a).pending = s.pending := by simp [State.joinIn]
@[simp] theorem State.dispatch_pending (s : State) (a : Nat) : (State.dispatch s a).pending = s.pending := by unfold State.dispatch; (try dsimp only); (repeat' split) <;> simp
@[simp] theorem State.dispatchAll_pending (s : State) (as : List Nat) : (State.dispatchAll s as).pending = s.pending := by simp [State.dispatchAll]
@[simp] theorem State.addPoison_pending (s : State) (e : PoisonEnt) : (State.addPoison s e).pending = s.pending := by unfold State.addPoison; (try dsimp only); (repeat' split) <;> simp
@[simp] theorem State.poisonLine_pending (s : State) (n x : Nat) : (State.poisonLine s n x).pending = s.pending := by simp [State.poisonLine]
@[simp] theorem State.clearLine_pending (s : State) (x : Nat) : (State.clearLine s x).pending = s.pending := by simp [State.clearLine]
@[simp] theorem State.putLine_pending (s : State) (x : Nat) (bs : List Byte) : (State.putLine s x bs).pending = s.pending := by simp [State.putLine]
@[simp] theorem State.writeOut_pending (s : State) (e : MergeEnt) (ok : Bool) : (State.writeOut s e ok).pending = s.pending := by simp [State.writeOut]
@[simp] theorem State.settle_pending (s : State) (k n : Nat) : (State.settle s k n).pending = s.pending := by simp [State.settle]
@[simp] theorem State.mergeWrite_pending (s : State) (k : Nat) (bs : List Byte) : (State.mergeWrite s k bs).pending = s.pending := by unfold State.mergeWrite; (try dsimp only); (repeat' split) <;> simp
@[simp] theorem State.missOn_pending (s : State) (ch n : Nat) : (State.missOn s ch n).pending = s.pending := by simp [State.missOn]
@[simp] theorem State.writeBuf_pending (s : State) (c : Cmd) (off : Nat) (d : List Byte) : (State.writeBuf s c off d).pending = s.pending := by
  unfold State.writeBuf
  rw [foldl_fst_pending]
  intro x a; simp
@[simp] theorem State.askHost_pending (s : State) (c : Cmd) (list : Bool) (addr len : Nat) : (State.askHost s c list addr len).pending = s.pending := by simp [State.askHost]
@[simp] theorem State.openBuf_pending (s : State) (id : Nat) : (State.openBuf s id).pending = s.pending := by unfold State.openBuf; (repeat' split) <;> simp
@[simp] theorem State.readyNow_pending (s : State) (c : Cmd) : (State.readyNow s c).pending = s.pending := by
  unfold State.readyNow
  rw [State.foldl_pending]
  intro s a; (repeat' split) <;> simp
@[simp] theorem State.readDone_pending (s : State) (id : Nat) : (State.readDone s id).pending = s.pending := by unfold State.readDone; (repeat' split) <;> simp
@[simp] theorem State.deliver_pending (s : State) (c : Cmd) (lba : Nat) (x : Sector) (sends : Bool) : (State.deliver s c lba x sends).pending = s.pending := by simp [State.deliver]
@[simp] theorem State.freeSlot_pending (s : State) (order : Nat) : (State.freeSlot s order).pending = s.pending := by simp [State.freeSlot]
@[simp] theorem State.freeLanded_pending (s : State) : (State.freeLanded s).pending = s.pending := by simp [State.freeLanded]
@[simp] theorem State.staleRecs_pending (s : State) (n lba len : Nat) : (State.staleRecs s n lba len).pending = s.pending := by simp [State.staleRecs]
@[simp] theorem State.dropCached_pending (s : State) (n lba len : Nat) : (State.dropCached s n lba len).pending = s.pending := by simp [State.dropCached]
@[simp] theorem State.stageWrite_pending (s : State) (c : Cmd) (d : List Byte) : (State.stageWrite s c d).pending = s.pending := by simp [State.stageWrite]
@[simp] theorem State.persisted_pending (s : State) (x : Sector) (src : Nat) : (State.persisted s x src).pending = s.pending := by simp [State.persisted]
@[simp] theorem State.commitFinal_pending (s : State) (x : Sector) (src : Nat) : (State.commitFinal s x src).pending = s.pending := by simp [State.commitFinal]
@[simp] theorem State.recordZone_pending (s : State) (n lba : Nat) : (State.recordZone s n lba).pending = s.pending := by simp [State.recordZone]
@[simp] theorem State.changeZone_pending (s : State) (n lba : Nat) (g : Zone → Zone) : (State.changeZone s n lba g).pending = s.pending := by simp [State.changeZone]
@[simp] theorem State.advanceCom_pending (s : State) (n lba : Nat) : (State.advanceCom s n lba).pending = s.pending := by simp [State.advanceCom]
@[simp] theorem State.putRecords_pending (s : State) (a : Nat) (kinds : List Nat) : (State.putRecords s a kinds).pending = s.pending := by simp [State.putRecords]
@[simp] theorem State.flushJournal_pending (s : State) (a : Nat) : (State.flushJournal s a).pending = s.pending := by simp [State.flushJournal]
@[simp] theorem State.landReserve_pending (s : State) (a id : Nat) (r : List Nat × Nat) : (State.landReserve s a id r).pending = s.pending := by simp [State.landReserve]
@[simp] theorem State.setMedia_pending (s : State) (b v : Nat) : (State.setMedia s b v).pending = s.pending := by simp [State.setMedia]
@[simp] theorem State.clearNs_pending (s : State) (n : Nat) : (State.clearNs s n).pending = s.pending := by simp [State.clearNs]
@[simp] theorem State.actFormatted_pending (s : State) (a pct : Nat) : (State.actFormatted s a pct).pending = s.pending := by simp [State.actFormatted]
@[simp] theorem State.fmtCheck_pending (s : State) (id : Nat) : (State.fmtCheck s id).pending = s.pending := by unfold State.fmtCheck; (repeat' split) <;> simp
@[simp] theorem State.fmtUnit_pending (s : State) (a id : Nat) : (State.fmtUnit s a id).pending = s.pending := by simp [State.fmtUnit]
@[simp] theorem State.fmtCert_pending (s : State) (a id k : Nat) : (State.fmtCert s a id k).pending = s.pending := by simp [State.fmtCert]
@[simp] theorem State.purgeNs_pending (s : State) (n : Nat) : (State.purgeNs s n).pending = s.pending := by simp [State.purgeNs]
@[simp] theorem State.sanTo_pending (s : State) (id st : Nat) : (State.sanTo s id st).pending = s.pending := by simp [State.sanTo]
@[simp] theorem State.sanTick_pending (s : State) (id : Nat) : (State.sanTick s id).pending = s.pending := by unfold State.sanTick; (repeat' split) <;> simp
@[simp] theorem State.sanUnit_pending (s : State) (a id : Nat) : (State.sanUnit s a id).pending = s.pending := by simp [State.sanUnit]
@[simp] theorem State.queueSan_pending (s : State) (o : SanOp) : (State.queueSan s o).pending = s.pending := by simp [State.queueSan]
@[simp] theorem State.eraseKey_pending (s : State) (slot : Nat) (target : BitVec 32) : (State.eraseKey s slot target).pending = s.pending := by simp [State.eraseKey]
@[simp] theorem State.runCrypto_pending (s : State) (o : SanOp) : (State.runCrypto s o).pending = s.pending := by simp [State.runCrypto]
@[simp] theorem State.sanRejoin_pending (s : State) (b : Nat) : (State.sanRejoin s b).pending = s.pending := by simp [State.sanRejoin]
theorem foldl_opt_pending {α : Type} (g : Option State × Bool → α → Option State × Bool) (v : List Sys2Proof.Instr)
    (hg : ∀ x a, (∀ u, x.1 = some u → u.pending = v) → ∀ u, (g x a).1 = some u → u.pending = v) (l : List α) (x : Option State × Bool)
    (hx : ∀ u, x.1 = some u → u.pending = v) : ∀ u, (l.foldl g x).1 = some u → u.pending = v := by
  induction l generalizing x with
  | nil => exact hx
  | cons a t ih => exact ih _ (hg x a hx)
theorem State.tryPart_pending (s : State) (c : Cmd) (r : Nat → Nat) (a : Nat) (n : PlanOp) (b : Bool) : ∀ t, (s.tryPart c r a n b).1 = some t → t.pending = s.pending := by
  unfold State.tryPart
  intro t
  extract_lets bb s1 ceil q
  have hs : s1.pending = s.pending := by simp only [s1]; split <;> simp
  split
  · simp
  · split
    · refine foldl_opt_pending _ s.pending ?_ _ _ (by simp) t
      intro x g hx u hu
      dsimp only at hu
      split at hu
      · exact hx u hu
      · split at hu
        · cases hu
        · split at hu
          · cases hu; simp [hs]
          · cases hu
    · dsimp only
      rw [Option.map_eq_some_iff]
      rintro ⟨p, _, rfl⟩
      simp [hs]
theorem State.tryParts_pending (c : Cmd) (u : Nat → Nat) (ops : List (Nat × PlanOp)) : ∀ (s keep : State),
    (∀ t, (s.tryParts c u ops keep).1 = .pass t → t.pending = s.pending) ∧ (s.tryParts c u ops keep).2.pending = keep.pending := by
  induction ops with
  | nil => exact fun s keep => ⟨fun t h => by (cases h; rfl), rfl⟩
  | cons x ops ih =>
    intro s keep
    obtain ⟨a, n⟩ := x
    unfold State.tryParts
    dsimp only
    split
    · rename_i s' h
      obtain ⟨h1, h2⟩ := ih (s'.slotLimited a (s.tryPart c u a n false).2) (keep.slotLimited a (s.tryPart c u a n false).2)
      refine ⟨fun t ht => ?_, by rw [h2]; simp⟩
      rw [h1 t ht, State.slotLimited_pending, State.tryPart_pending _ _ _ _ _ _ _ h]
    · exact ⟨fun t h => by (cases h), by simp⟩
@[simp] theorem State.admitOn_pending (s : State) (c : Cmd) (bytes : Nat) (ops : List (Nat × PlanOp)) (k : State → State) (hk : ∀ x0, (k x0).pending = x0.pending) : (State.admitOn s c bytes ops k).pending = s.pending := by
  unfold State.admitOn
  split
  · simp
  · split <;> rename_i h
    · have e := (State.tryParts_pending c (s.epochFor (ops.map (·.1))).1.reserve ops s s).2
      rw [h] at e
      simpa using e
    · simp [hk, (State.tryParts_pending c _ ops s s).1 _ (by rw [h])]
@[simp] theorem State.startRead_pending (s : State) (c : Cmd) (ps : List Part) : (State.startRead s c ps).pending = s.pending := by simp [State.startRead]
@[simp] theorem State.testRead_pending (s : State) (c : Cmd) (ps : List Part) : (State.testRead s c ps).pending = s.pending := by simp [State.testRead]
@[simp] theorem State.admitRead_pending (s : State) (id : Nat) : (State.admitRead s id).pending = s.pending := by unfold State.admitRead; (repeat' split) <;> simp
@[simp] theorem State.implicitClose_pending (s : State) (a : Nat) : (State.implicitClose s a).pending = s.pending := by unfold State.implicitClose; (try dsimp only); (repeat' split) <;> simp
@[simp] theorem State.zoneAdmit_pending (s : State) (c : Cmd) : (State.zoneAdmit s c).pending = s.pending := by simp [State.zoneAdmit]
@[simp] theorem State.admitWriteCmd_pending (s : State) (c : Cmd) : (State.admitWriteCmd s c).pending = s.pending := by simp [State.admitWriteCmd]
@[simp] theorem State.writeDone_pending (s : State) (c : Cmd) : (State.writeDone s c).pending = s.pending := by simp [State.writeDone]
@[simp] theorem State.writeFetched_pending (s : State) (id : Nat) (d : List Byte) : (State.writeFetched s id d).pending = s.pending := by unfold State.writeFetched; (repeat' split) <;> simp
@[simp] theorem State.copyWindow_pending (s : State) (id : Nat) : (State.copyWindow s id).pending = s.pending := by unfold State.copyWindow; (repeat' split) <;> simp
@[simp] theorem State.admitStaged_pending (s : State) (c : Cmd) : (State.admitStaged s c).pending = s.pending := by simp [State.admitStaged]
@[simp] theorem State.admitLandedConv_pending (s : State) (c : Cmd) : (State.admitLandedConv s c).pending = s.pending := by simp [State.admitLandedConv]
@[simp] theorem State.admitLandedZone_pending (s : State) (c : Cmd) : (State.admitLandedZone s c).pending = s.pending := by unfold State.admitLandedZone; (try dsimp only); (repeat' split) <;> simp
@[simp] theorem State.testStaging_pending (s : State) (c : Cmd) : (State.testStaging s c).pending = s.pending := by simp [State.testStaging]
@[simp] theorem State.testWrite_pending (s : State) (op : Nat) (c : Cmd) : (State.testWrite s op c).pending = s.pending := by unfold State.testWrite; (repeat' split) <;> simp
@[simp] theorem State.admitWrite_pending (s : State) (id op : Nat) : (State.admitWrite s id op).pending = s.pending := by unfold State.admitWrite; (repeat' split) <;> simp
@[simp] theorem State.admitZone_pending (s : State) (id act : Nat) (k : Cmd → State → State) (hk : ∀ x0 x1, (k x0 x1).pending = x1.pending) : (State.admitZone s id act k).pending = s.pending := by unfold State.admitZone; (try dsimp only); (repeat' split) <;> (try simp_all)
@[simp] theorem State.noteOpenCond_pending (s : State) (c : Cmd) (act : Nat) : (State.noteOpenCond s c act).pending = s.pending := by simp [State.noteOpenCond]
@[simp] theorem State.admitJournal_pending (s : State) (c : Cmd) (st : ZState) (wp : Nat) : (State.admitJournal s c st wp).pending = s.pending := by simp [State.admitJournal]
@[simp] theorem State.pushReport_pending (s : State) (id : Nat) : (State.pushReport s id).pending = s.pending := by unfold State.pushReport; (repeat' split) <;> simp
@[simp] theorem State.admitReport_pending (s : State) (c : Cmd) (d : List Byte) : (State.admitReport s c d).pending = s.pending := by simp [State.admitReport]
@[simp] theorem State.retest_pending (s : State) (id : Nat) : (State.retest s id).pending = s.pending := by
  have h1 : ∀ t, execZoneOpen id s = .next t → t.pending = s.pending := by intro t h; simp only [execZoneOpen, Host.Outcome.next.injEq] at h; subst h; (repeat' split) <;> simp
  have h2 : ∀ t, execZoneClose id s = .next t → t.pending = s.pending := by intro t h; simp only [execZoneClose, Host.Outcome.next.injEq] at h; subst h; (repeat' split) <;> simp
  have h3 : ∀ t, execZoneFinish id s = .next t → t.pending = s.pending := by intro t h; simp only [execZoneFinish, Host.Outcome.next.injEq] at h; subst h; (repeat' split) <;> simp
  have h4 : ∀ t, execZoneReset id s = .next t → t.pending = s.pending := by intro t h; simp only [execZoneReset, Host.Outcome.next.injEq] at h; subst h; (repeat' split) <;> simp
  have h5 : ∀ t, execZoneReport id s = .next t → t.pending = s.pending := by intro t h; simp only [execZoneReport, Host.Outcome.next.injEq] at h; subst h; (repeat' split) <;> simp
  have h6 : ∀ t, execFlush id s = .next t → t.pending = s.pending := by intro t h; simp only [execFlush, Host.Outcome.next.injEq] at h; subst h; (repeat' split) <;> simp
  have h7 : ∀ t, execRecoveryList id s = .next t → t.pending = s.pending := by intro t h; simp only [execRecoveryList, Host.Outcome.next.injEq] at h; subst h; (repeat' split) <;> simp
  have h8 : ∀ t, execContRead id s = .next t → t.pending = s.pending := by intro t h; simp only [execContRead, Host.Outcome.next.injEq] at h; subst h; (repeat' split) <;> simp
  unfold State.retest
  dsimp only
  split
  · rfl
  · split
    · rfl
    · (repeat' split) <;> first | (simp; done) | exact h1 _ (by with_reducible assumption) | exact h2 _ (by with_reducible assumption) | exact h3 _ (by with_reducible assumption) | exact h4 _ (by with_reducible assumption) | exact h5 _ (by with_reducible assumption) | exact h6 _ (by with_reducible assumption) | exact h7 _ (by with_reducible assumption) | exact h8 _ (by with_reducible assumption)
@[simp] theorem State.retestAll_pending (s : State) : (State.retestAll s).pending = s.pending := by simp [State.retestAll]
@[simp] theorem State.captured_pending (s : State) (id : Nat) (keys : List Nat) : (State.captured s id keys).pending = s.pending := by
  unfold State.captured
  split
  · rfl
  · dsimp only
    split
    all_goals
      simp
      rw [State.each_pending]
      intro s a; (repeat' split) <;> simp
@[simp] theorem State.moveBand_pending (s : State) (a band : Nat) : (State.moveBand s a band).pending = s.pending := by unfold State.moveBand; (try dsimp only); (repeat' split) <;> simp
@[simp] theorem State.refreshDone_pending (s : State) (a g : Nat) : (State.refreshDone s a g).pending = s.pending := by simp [State.refreshDone]
@[simp] theorem State.trialTurn_pending (s : State) (a h : Nat) : (State.trialTurn s a h).pending = s.pending := by simp [State.trialTurn]
@[simp] theorem State.grazeAdvance_pending (s : State) (a : Nat) (r : PlanOp) : (State.grazeAdvance s a r).pending = s.pending := by simp [State.grazeAdvance]
@[simp] theorem State.mediaEnd_pending (s : State) (a : Nat) : (State.mediaEnd s a).pending = s.pending := by unfold State.mediaEnd; (repeat' split) <;> simp
@[simp] theorem State.recTo_pending (s : State) (id : BitVec 16) (st : RecState) : (State.recTo s id st).pending = s.pending := by unfold State.recTo; (repeat' split) <;> simp
@[simp] theorem State.serve_pending (s : State) (r : Requester) (op : Nat) (act : Option Nat) (k : List Byte → State) (hk : ∀ x0, (k x0).pending = s.pending) : (State.serve s r op act k).pending = s.pending := by unfold State.serve; (try dsimp only); (repeat' split) <;> (try simp_all)
@[simp] theorem State.queueRefresh_pending (s : State) (a g order : Nat) : (State.queueRefresh s a g order).pending = s.pending := by simp [State.queueRefresh]
@[simp] theorem State.holdGroup_pending (s : State) (a g : Nat) : (State.holdGroup s a g).pending = s.pending := by simp [State.holdGroup]
@[simp] theorem State.checkpoint_pending (s : State) (a : Nat) : (State.checkpoint s a).pending = s.pending := by simp [State.checkpoint]
@[simp] theorem State.enterFormat_pending (s : State) (k : Nat) (o : FmtOp) : (State.enterFormat s k o).pending = s.pending := by simp [State.enterFormat]
@[simp] theorem State.refuseFormat_pending (s : State) (k reason : Nat) : (State.refuseFormat s k reason).pending = s.pending := by simp [State.refuseFormat]
@[simp] theorem State.queueFormat_pending (s : State) (o : FmtOp) : (State.queueFormat s o).pending = s.pending := by simp [State.queueFormat]
@[simp] theorem State.modSamples_pending (s : State) (a cmd key : Nat) (g : Retain → Retain) : (State.modSamples s a cmd key g).pending = s.pending := by simp [State.modSamples]
@[simp] theorem State.dropSamples_pending (s : State) (a cmd key : Nat) : (State.dropSamples s a cmd key).pending = s.pending := by simp [State.dropSamples]
@[simp] theorem State.retain_pending (s : State) (a : Nat) (e : Retain) : (State.retain s a e).pending = s.pending := by simp [State.retain]
@[simp] theorem State.retainSlot_pending (s : State) (a cmd key : Nat) : (State.retainSlot s a cmd key).pending = s.pending := by unfold State.retainSlot; (repeat' split) <;> simp
@[simp] theorem State.accumulate_pending (s : State) (a : Nat) (e : Retain) : (State.accumulate s a e).pending = s.pending := by unfold State.accumulate; (try dsimp only); (repeat' split) <;> simp
@[simp] theorem State.takeSlot_pending (s : State) (a : Nat) (e : Retain) : (State.takeSlot s a e).pending = s.pending := by unfold State.takeSlot; (try dsimp only); (repeat' split) <;> simp
@[simp] theorem State.askReplay_pending (s : State) (a : Nat) (q : FmtCmd) : (State.askReplay s a q).pending = s.pending := by simp [State.askReplay]
@[simp] theorem State.fillQueue_pending (s : State) (a : Nat) : (State.fillQueue s a).pending = s.pending := by simp [State.fillQueue]
@[simp] theorem State.stopReplays_pending (s : State) (a cmd key : Nat) : (State.stopReplays s a cmd key).pending = s.pending := by simp [State.stopReplays]
@[simp] theorem State.queueRewrite_pending (s : State) (a key : Nat) : (State.queueRewrite s a key).pending = s.pending := by simp [State.queueRewrite]
@[simp] theorem State.queueBand_pending (s : State) (a region : Nat) : (State.queueBand s a region).pending = s.pending := by simp [State.queueBand]
@[simp] theorem State.wantChanCal_pending (s : State) (a h : Nat) : (State.wantChanCal s a h).pending = s.pending := by simp [State.wantChanCal]
@[simp] theorem State.enterUnread_pending (s : State) (a key : Nat) (lost : Bool) : (State.enterUnread s a key lost).pending = s.pending := by simp [State.enterUnread]
@[simp] theorem State.loseSector_pending (s : State) (a key : Nat) : (State.loseSector s a key).pending = s.pending := by simp [State.loseSector]
@[simp] theorem State.marginal_pending (s : State) (a key rung : Nat) : (State.marginal s a key rung).pending = s.pending := by simp [State.marginal]
@[simp] theorem State.recSector_pending (s : State) (ref key : Nat) : (State.recSector s ref key).pending = s.pending := by unfold State.recSector; (repeat' split) <;> simp
@[simp] theorem State.recFail_pending (s : State) (ref : Nat) : (State.recFail s ref).pending = s.pending := by unfold State.recFail; (repeat' split) <;> simp
@[simp] theorem State.placeholder_pending (s : State) (a key : Nat) : (State.placeholder s a key).pending = s.pending := by simp [State.placeholder]
@[simp] theorem State.grazeGood_pending (s : State) (x : Attempt) : (State.grazeGood s x).pending = s.pending := by simp [State.grazeGood]
@[simp] theorem State.grazeLost_pending (s : State) (a order ref key : Nat) : (State.grazeLost s a order ref key).pending = s.pending := by simp [State.grazeLost]
@[simp] theorem State.bulkPassages_pending (s : State) (a : Nat) (c : Cmd) (key step n : Nat) : (State.bulkPassages s a c key step n).pending = s.pending := by simp [State.bulkPassages]
@[simp] theorem State.grazePassages_pending (s : State) (a : Nat) (e : Retain) (step n : Nat) : (State.grazePassages s a e step n).pending = s.pending := by simp [State.grazePassages]
@[simp] theorem State.giveUp_pending (s : State) (a : Nat) (e : Retain) : (State.giveUp s a e).pending = s.pending := by unfold State.giveUp; (try dsimp only); (repeat' split) <;> simp
@[simp] theorem State.startStep_pending (s : State) (a : Nat) (e : Retain) (step : Nat) : (State.startStep s a e step).pending = s.pending := by unfold State.startStep; (try dsimp only); (repeat' split) <;> simp
@[simp] theorem State.nextRung_pending (s : State) (a : Nat) (e : Retain) : (State.nextRung s a e).pending = s.pending := by unfold State.nextRung; (try dsimp only); (repeat' split) <;> simp
@[simp] theorem State.startReplays_pending (s : State) (a : Nat) (e : Retain) : (State.startReplays s a e).pending = s.pending := by simp [State.startReplays]
@[simp] theorem State.stopAttempts_pending (s : State) (a cmd key : Nat) : (State.stopAttempts s a cmd key).pending = s.pending := by simp [State.stopAttempts]
@[simp] theorem State.checkFailed_pending (s : State) (a : Nat) (e : Retain) : (State.checkFailed s a e).pending = s.pending := by simp [State.checkFailed]
@[simp] theorem State.afterFailure_pending (s : State) (a : Nat) (x : Attempt) : (State.afterFailure s a x).pending = s.pending := by simp [State.afterFailure]
@[simp] theorem State.countFraming_pending (s : State) (a : Nat) (f : Framing) : (State.countFraming s a f).pending = s.pending := by simp [State.countFraming]
@[simp] theorem State.eraseFor_pending (s : State) (a ps : Nat) : (State.eraseFor s a ps).pending = s.pending := by simp [State.eraseFor]
@[simp] theorem State.eraseSamples_pending (s : State) (a : Nat) : (State.eraseSamples s a).pending = s.pending := by simp [State.eraseSamples]
@[simp] theorem State.frameSector_pending (s : State) (a key : Nat) (q : FmtCmd) (sm1 sm2 : List Hit) (r0 r1 : List (BitVec 6)) : (State.frameSector s a key q sm1 sm2 r0 r1).pending = s.pending := by simp [State.frameSector]
@[simp] theorem State.chargeDec_pending (s : State) (cmd iters rounds : Nat) : (State.chargeDec s cmd iters rounds).pending = s.pending := by simp [State.chargeDec]
@[simp] theorem State.modAttempt_pending (s : State) (id : Nat) (g : Attempt → Attempt) : (State.modAttempt s id g).pending = s.pending := by simp [State.modAttempt]
@[simp] theorem State.freeEngine_pending (s : State) (e : Nat) : (State.freeEngine s e).pending = s.pending := by simp [State.freeEngine]
@[simp] theorem State.leavePool_pending (s : State) (x : Attempt) : (State.leavePool s x).pending = s.pending := by unfold State.leavePool; (repeat' split) <;> simp
@[simp] theorem State.endAttempt_pending (s : State) (x : Attempt) : (State.endAttempt s x).pending = s.pending := by simp [State.endAttempt]
@[simp] theorem State.assign_pending (s : State) (e : Nat) (x : Attempt) : (State.assign s e x).pending = s.pending := by simp [State.assign]
theorem serveAttempt_pending (x : State × List Nat) (a : Nat) : (serveAttempt x a).1.pending = x.1.pending := by
  unfold serveAttempt; dsimp only; (repeat' split) <;> simp_all
@[simp] theorem State.dispatchPool_pending (s : State) : (State.dispatchPool s).pending = s.pending := by
  unfold State.dispatchPool
  dsimp only
  rw [foldl_fst_pending _ serveAttempt_pending]
@[simp] theorem State.enterPool_pending (s : State) (x : Attempt) (t : Nat) : (State.enterPool s x t).pending = s.pending := by simp [State.enterPool]
@[simp] theorem State.stopLadder_pending (s : State) (x : Attempt) : (State.stopLadder s x).pending = s.pending := by simp [State.stopLadder]
@[simp] theorem State.adapt_pending (s : State) (x : Attempt) (v : TapSet) : (State.adapt s x v).pending = s.pending := by simp [State.adapt]
@[simp] theorem State.readySector_pending (s : State) (x : Attempt) : (State.readySector s x).pending = s.pending := by unfold State.readySector; (repeat' split) <;> simp
@[simp] theorem State.converged_pending (s : State) (x : Attempt) (o : DecOut) (taps : TapSet) : (State.converged s x o taps).pending = s.pending := by unfold State.converged; (try dsimp only); (repeat' split) <;> simp
@[simp] theorem State.roundStart_pending (s : State) (x : Attempt) (isl : Nat) : (State.roundStart s x isl).pending = s.pending := by simp [State.roundStart]
@[simp] theorem State.preempt_pending (s : State) (e : Nat) (x : Attempt) : (State.preempt s e x).pending = s.pending := by simp [State.preempt]
@[simp] theorem State.iterate_pending (s : State) (e : Nat) (x : Attempt) (zero : Bool) (o : DecOut) (taps : TapSet) : (State.iterate s e x zero o taps).pending = s.pending := by simp [State.iterate]
@[simp] theorem State.restartJob_pending (s : State) (e : Nat) : (State.restartJob s e).pending = s.pending := by unfold State.restartJob; (repeat' split) <;> simp
@[simp] theorem State.retireEngine_pending (s : State) (e st : Nat) : (State.retireEngine s e st).pending = s.pending := by simp [State.retireEngine]
@[simp] theorem State.leaveIsland_pending (s : State) (e : Nat) : (State.leaveIsland s e).pending = s.pending := by simp [State.leaveIsland]
@[simp] theorem State.failEngine_pending (s : State) (e : Nat) : (State.failEngine s e).pending = s.pending := by simp [State.failEngine]
@[simp] theorem State.decoderReply_pending (s : State) (k reason e : Nat) : (State.decoderReply s k reason e).pending = s.pending := by simp [State.decoderReply]
@[simp] theorem State.endRetest_pending (s : State) (k e : Nat) (pass : Bool) : (State.endRetest s k e pass).pending = s.pending := by simp [State.endRetest]
@[simp] theorem State.popFmt_pending (s : State) (a : Nat) : (State.popFmt s a).pending = s.pending := by simp [State.popFmt]
@[simp] theorem State.startRoutine_pending (s : State) (a : Nat) (q : FmtCmd) : (State.startRoutine s a q).pending = s.pending := by simp [State.startRoutine]
@[simp] theorem State.askRecord_pending (s : State) (a : Nat) : (State.askRecord s a).pending = s.pending := by simp [State.askRecord]
@[simp] theorem State.commitFinish_pending (s : State) (c : Cmd) : (State.commitFinish s c).pending = s.pending := by simp [State.commitFinish]
@[simp] theorem State.commitReset_pending (s : State) (c : Cmd) : (State.commitReset s c).pending = s.pending := by simp [State.commitReset]
@[simp] theorem State.zoneRecord_pending (s : State) (a : Nat) (c : Cmd) : (State.zoneRecord s a c).pending = s.pending := by simp [State.zoneRecord]
@[simp] theorem State.intentRecs_pending (s : State) (a : Nat) (keys : List Nat) : (State.intentRecs s a keys).pending = s.pending := by simp [State.intentRecs]
@[simp] theorem State.startWrite_pending (s : State) (a : Nat) (opc : Byte) : (State.startWrite s a opc).pending = s.pending := by unfold State.startWrite; (repeat' split) <;> simp
@[simp] theorem State.sendFrame_pending (s : State) (a : Nat) (q : FmtCmd) (key : Nat) (x : Sector) : (State.sendFrame s a q key x).pending = s.pending := by simp [State.sendFrame]
@[simp] theorem State.committedOf_pending (s : State) (id n lba : Nat) : (State.committedOf s id n lba).pending = s.pending := by unfold State.committedOf; (repeat' split) <;> simp
@[simp] theorem State.releaseSource_pending (s : State) (a key : Nat) : (State.releaseSource s a key).pending = s.pending := by simp [State.releaseSource]
@[simp] theorem State.commitBand_pending (s : State) (a spt : Nat) (x : Sector) (src : Nat) : (State.commitBand s a spt x src).pending = s.pending := by simp [State.commitBand]
@[simp] theorem State.commitLanding_pending (s : State) (a id : Nat) (w : WSlot) : (State.commitLanding s a id w).pending = s.pending := by unfold State.commitLanding; (repeat' split) <;> simp
@[simp] theorem State.writePoisoned_pending (s : State) (a : Nat) (q : FmtCmd) (w : WSlot) : (State.writePoisoned s a q w).pending = s.pending := by simp [State.writePoisoned]
@[simp] theorem State.commitKey_pending (s : State) (a : Nat) (q : FmtCmd) (key : Nat) : (State.commitKey s a q key).pending = s.pending := by unfold State.commitKey; (try dsimp only); (repeat' split) <;> simp
@[simp] theorem State.endWrite_pending (s : State) (a : Nat) : (State.endWrite s a).pending = s.pending := by simp [State.endWrite]
@[simp] theorem State.afterWrite_pending (s : State) (a id : Nat) : (State.afterWrite s a id).pending = s.pending := by unfold State.afterWrite; (repeat' split) <;> simp
@[simp] theorem State.splitRunning_pending (s : State) (a : Nat) (r : Routine) : (State.splitRunning s a r).pending = s.pending := by simp [State.splitRunning]
@[simp] theorem State.passWaymark_pending (s : State) (a : Nat) (r : Routine) (keys : List Nat) (at' : Nat × Nat) : (State.passWaymark s a r keys at').pending = s.pending := by unfold State.passWaymark; (try dsimp only); (repeat' split) <;> (try simp) <;> (repeat' (first | (rw [State.each_pending]) | (intro _) | split)) <;> simp_all
@[simp] theorem State.abandonAll_pending (s : State) (a : Nat) : (State.abandonAll s a).pending = s.pending := by unfold State.abandonAll; (repeat' split) <;> simp
@[simp] theorem State.resumeRoutine_pending (s : State) (a : Nat) (r : Routine) : (State.resumeRoutine s a r).pending = s.pending := by simp [State.resumeRoutine]
@[simp] theorem State.squeezeRewrite_pending (s : State) (a : Nat) (q : FmtCmd) (x : Nat) : (State.squeezeRewrite s a q x).pending = s.pending := by
  unfold State.squeezeRewrite
  extract_lets r k com start sec gen recs pass s1 s2
  have hp : ∀ s g, (pass s g).pending = s.pending := by
    intro s g
    simp only [pass, State.modFmt_pending]
    rw [State.each_pending]
    · split <;> simp
    · intro s p; split <;> simp
  have h1 : s1.pending = s.pending := by simp only [s1]; exact State.each_pending _ _ _ hp
  have h2 : s2.pending = s.pending := by simp only [s2]; simp [h1]
  split <;> simp [h2]
@[simp] theorem State.queueAssistCal_pending (s : State) (a h : Nat) : (State.queueAssistCal s a h).pending = s.pending := by simp [State.queueAssistCal]
@[simp] theorem State.headLost_pending (s : State) (a h : Nat) : (State.headLost s a h).pending = s.pending := by simp [State.headLost]
@[simp] theorem State.suspendHead_pending (s : State) (a h : Nat) : (State.suspendHead s a h).pending = s.pending := by simp [State.suspendHead]
@[simp] theorem State.feedbackFault_pending (s : State) (a h : Nat) : (State.feedbackFault s a h).pending = s.pending := by simp [State.feedbackFault]
@[simp] theorem State.roundGain_pending (s : State) (v : Int) : (s.roundGain v).2.pending = s.pending := by
  unfold State.roundGain; dsimp only; (repeat' split) <;> simp
@[simp] theorem State.assistLoop_pending (s : State) (a h sample : Nat) : (State.assistLoop s a h sample).pending = s.pending := by
  unfold State.assistLoop
  dsimp only
  split <;> simp
@[simp] theorem State.assistUse_pending (s : State) (a : Nat) (q : FmtCmd) (t energy : Nat) : (State.assistUse s a q t energy).pending = s.pending := by simp [State.assistUse]
@[simp] theorem State.wearCheck_pending (s : State) (a h : Nat) : (State.wearCheck s a h).pending = s.pending := by simp [State.wearCheck]
@[simp] theorem State.trip_pending (s : State) (spin : Bool) (i cond time : Nat) : (State.trip s spin i cond time).pending = s.pending := by simp [State.trip]
@[simp] theorem State.tripAct_pending (s : State) (a cond : Nat) : (State.tripAct s a cond).pending = s.pending := by simp [State.tripAct]
@[simp] theorem State.sampleTrc_pending (s : State) (e : Nat) (spin : Bool) (i : Nat) (val : Nat → Nat → Nat → Word) : (State.sampleTrc s e spin i val).pending = s.pending := by simp [State.sampleTrc]
@[simp] theorem State.countTrc_pending (s : State) (spin : Bool) (i : Nat) : (State.countTrc s spin i).pending = s.pending := by simp [State.countTrc]
@[simp] theorem State.raiseInhibit_pending (s : State) (a cause : Nat) (toward : Bool) : (State.raiseInhibit s a cause toward).pending = s.pending := by simp [State.raiseInhibit]
@[simp] theorem State.retract_pending (s : State) (a cause : Nat) : (State.retract s a cause).pending = s.pending := by simp [State.retract]
@[simp] theorem State.retractIdle_pending (s : State) (a : Nat) : (State.retractIdle s a).pending = s.pending := by simp [State.retractIdle]
@[simp] theorem State.enterRetract_pending (s : State) (a : Nat) (cause : BitVec 3) : (State.enterRetract s a cause).pending = s.pending := by simp [State.enterRetract]
@[simp] theorem State.enterLimp_pending (s : State) (a : Nat) : (State.enterLimp s a).pending = s.pending := by unfold State.enterLimp; (repeat' split) <;> simp
@[simp] theorem State.decideMig_pending (s : State) (a : Nat) (beyond : Bool) : (State.decideMig s a beyond).pending = s.pending := by unfold State.decideMig; (try dsimp only); (repeat' split) <;> simp
@[simp] theorem State.wantAction_pending (s : State) (b : Nat) (x : SpinAct) : (State.wantAction s b x).pending = s.pending := by simp [State.wantAction]
@[simp] theorem State.decideSpn_pending (s : State) (b : Nat) : (State.decideSpn s b).pending = s.pending := by unfold State.decideSpn; (try dsimp only); (repeat' split) <;> simp
@[simp] theorem State.placeSpindles_pending (s : State) : (State.placeSpindles s).pending = s.pending := by
  unfold State.placeSpindles
  rw [State.each_pending]
  intro s a; split <;> simp
@[simp] theorem State.evacuate_pending (s : State) (n : Nat) : (State.evacuate s n).pending = s.pending := by simp [State.evacuate]
@[simp] theorem State.retireLe_pending (s : State) (n st : Nat) : (State.retireLe s n st).pending = s.pending := by simp [State.retireLe]
@[simp] theorem State.predict_pending (s : State) (a : Nat) : (State.predict s a).pending = s.pending := by simp [State.predict]
@[simp] theorem State.overrunOf_pending (s : State) (a : Nat) : (State.overrunOf s a).pending = s.pending := by simp [State.overrunOf]
@[simp] theorem State.wearAt_pending (s : State) (b budget n : Nat) : (State.wearAt s b budget n).pending = s.pending := by simp [State.wearAt]
@[simp] theorem State.gaitHours_pending (s : State) (b : Nat) : (State.gaitHours s b).pending = s.pending := by simp [State.gaitHours]
@[simp] theorem State.requestLoad_pending (s : State) (a : Nat) : (State.requestLoad s a).pending = s.pending := by simp [State.requestLoad]
@[simp] theorem State.endPause_pending (s : State) (b : Nat) : (State.endPause s b).pending = s.pending := by simp [State.endPause]
@[simp] theorem State.loadsDone_pending (s : State) (b : Nat) : (State.loadsDone s b).pending = s.pending := by simp [State.loadsDone]
@[simp] theorem State.parked_pending (s : State) (a : Nat) : (State.parked s a).pending = s.pending := by simp [State.parked]
@[simp] theorem State.sendSpin_pending (s : State) (b mode tcomm step icmd : Nat) : (State.sendSpin s b mode tcomm step icmd).pending = s.pending := by simp [State.sendSpin]
@[simp] theorem State.startBrake_pending (s : State) (b : Nat) (short : Bool) : (State.startBrake s b short).pending = s.pending := by simp [State.startBrake]
@[simp] theorem State.askToken_pending (s : State) (b kind : Nat) : (State.askToken s b kind).pending = s.pending := by simp [State.askToken]
@[simp] theorem State.linksOff_pending (s : State) (b : Nat) : (State.linksOff s b).pending = s.pending := by simp [State.linksOff]
@[simp] theorem State.quarantine_pending (s : State) (b reason : Nat) : (State.quarantine s b reason).pending = s.pending := by simp [State.quarantine]
@[simp] theorem State.failBringUp_pending (s : State) (b reason : Nat) : (State.failBringUp s b reason).pending = s.pending := by simp [State.failBringUp]
@[simp] theorem State.offerSet_pending (s : State) (a : Nat) (set : Option CoeffSet) (rro : Option RroSet) : (State.offerSet s a set rro).pending = s.pending := by simp [State.offerSet]
@[simp] theorem State.peerReset_pending (s : State) (i : Nat) (flight : Tab Nat) : (State.peerReset s i flight).pending = s.pending := by simp [State.peerReset]
@[simp] theorem State.rearm_pending (s : State) (i : Nat) : (State.rearm s i).pending = s.pending := by simp [State.rearm]
@[simp] theorem State.segmentIn_pending (s : State) (c : Cmd) (bs : List Byte) : (State.segmentIn s c bs).pending = s.pending := by unfold State.segmentIn; (try dsimp only); (repeat' split) <;> simp
@[simp] theorem State.dataIn_pending (s : State) (c : Cmd) (bs : List Byte) : (State.dataIn s c bs).pending = s.pending := by simp [State.dataIn]
@[simp] theorem State.readFailed_pending (s : State) (id : Nat) : (State.readFailed s id).pending = s.pending := by simp [State.readFailed]
@[simp] theorem State.unexpected_pending (s : State) (f : Nat) : (State.unexpected s f).pending = s.pending := by simp [State.unexpected]
@[simp] theorem State.hostCompletion_pending (s : State) (f id : Nat) (list failed : Bool) (bs : List Byte) : (State.hostCompletion s f id list failed bs).pending = s.pending := by unfold State.hostCompletion; (try dsimp only); (repeat' split) <;> simp
@[simp] theorem State.postHeld_pending (s : State) (id : Nat) : (State.postHeld s id).pending = s.pending := by unfold State.postHeld; (repeat' split) <;> simp
@[simp] theorem State.issueAsks_pending (s : State) (c : Cmd) : (State.issueAsks s c).pending = s.pending := by simp [State.issueAsks]
@[simp] theorem State.resume_pending (s : State) (f : Nat) : (State.resume s f).pending = s.pending := by simp [State.resume]
@[simp] theorem State.bmeOff_pending (s : State) (f : Nat) : (State.bmeOff s f).pending = s.pending := by simp [State.bmeOff]
@[simp] theorem State.bmeOn_pending (s : State) (f : Nat) : (State.bmeOn s f).pending = s.pending := by simp [State.bmeOn]
@[simp] theorem State.tallyRemoved_pending (s : State) (c : Cmd) : (State.tallyRemoved s c).pending = s.pending := by simp [State.tallyRemoved]
@[simp] theorem State.removeCmd_pending (s : State) (c : Cmd) : (State.removeCmd s c).pending = s.pending := by simp [State.removeCmd]
@[simp] theorem State.removeAll_pending (s : State) (cs : List Cmd) : (State.removeAll s cs).pending = s.pending := by simp [State.removeAll]
@[simp] theorem State.resetQueues_pending (s : State) (f : Nat) : (State.resetQueues s f).pending = s.pending := by simp [State.resetQueues]
@[simp] theorem State.resetRegs_pending (s : State) (f : Nat) : (State.resetRegs s f).pending = s.pending := by simp [State.resetRegs]
@[simp] theorem State.resetFn_pending (s : State) (f : Nat) : (State.resetFn s f).pending = s.pending := by simp [State.resetFn]
@[simp] theorem State.vfsOff_pending (s : State) (f : Nat) : (State.vfsOff s f).pending = s.pending := by simp [State.vfsOff]
@[simp] theorem State.flr_pending (s : State) (f : Nat) : (State.flr s f).pending = s.pending := by simp [State.flr]
@[simp] theorem State.modHalf_pending (s : State) (p : Nat) (h : Bool) (g : Link → Link) : (State.modHalf s p h g).pending = s.pending := by simp [State.modHalf]
@[simp] theorem State.linkDown_pending (s : State) (p : Nat) (h : Bool) : (State.linkDown s p h).pending = s.pending := by simp [State.linkDown]
@[simp] theorem State.ramStore_pending (n : Nat) (s : State) (k : Nat) (bs : List Byte) : (State.ramStore n s k bs).pending = s.pending := by
  induction n generalizing s k bs with
  | zero => rfl
  | succ n ih =>
    unfold State.ramStore
    split
    · rfl
    · dsimp only; rw [ih]; split <;> simp
@[simp] theorem State.decodeBar2_pending (s : State) (p : Nat) (t : HeldTlp) : (State.decodeBar2 s p t).pending = s.pending := by simp [State.decodeBar2]
@[simp] theorem State.bar2_pending (s : State) (p : Nat) (t : HeldTlp) : (State.bar2 s p t).pending = s.pending := by simp [State.bar2]
@[simp] theorem State.commitWindow_pending (s : State) (p : Nat) (val : Word) : (State.commitWindow s p val).pending = s.pending := by simp [State.commitWindow]
@[simp] theorem State.moveSteward_pending (s : State) (p : Nat) : (State.moveSteward s p).pending = s.pending := by simp [State.moveSteward]
@[simp] theorem State.writeSteward_pending (s : State) (t : Nat) : (State.writeSteward s t).pending = s.pending := by simp [State.writeSteward]
@[simp] theorem State.predictGate_pending (s : State) (a cls : Nat) : (State.predictGate s a cls).pending = s.pending := by simp [State.predictGate]
@[simp] theorem State.wedgeSeen_pending (s : State) (a cls : Nat) (w : BitVec 10) : (State.wedgeSeen s a cls w).pending = s.pending := by simp [State.wedgeSeen]
@[simp] theorem State.skipWedge_pending (s : State) (a : Nat) : (State.skipWedge s a).pending = s.pending := by simp [State.skipWedge]
@[simp] theorem State.watchFrozen_pending (s : State) (a : Nat) (r : PosRec) : (State.watchFrozen s a r).pending = s.pending := by simp [State.watchFrozen]
@[simp] theorem State.frozen_pending (s : State) (a : Nat) : (State.frozen s a).pending = s.pending := by simp [State.frozen]
@[simp] theorem State.badRecord_pending (s : State) (a cls : Nat) : (State.badRecord s a cls).pending = s.pending := by simp [State.badRecord]
@[simp] theorem State.goodRecord_pending (s : State) (a : Nat) (r : PosRec) : (State.goodRecord s a r).pending = s.pending := by simp [State.goodRecord]
@[simp] theorem State.position_pending (s : State) (a : Nat) (rec : BitVec 128) : (State.position s a rec).pending = s.pending := by simp [State.position]
@[simp] theorem State.seekDone_pending (s : State) (a : Nat) : (State.seekDone s a).pending = s.pending := by simp [State.seekDone]
@[simp] theorem State.enterFollow_pending (s : State) (a : Nat) : (State.enterFollow s a).pending = s.pending := by simp [State.enterFollow]
@[simp] theorem State.toMode_pending (s : State) (a : Nat) (m : BitVec 3) : (State.toMode s a m).pending = s.pending := by simp [State.toMode]
@[simp] theorem State.loadFailed_pending (s : State) (a : Nat) : (State.loadFailed s a).pending = s.pending := by simp [State.loadFailed]
@[simp] theorem State.modeStep_pending (s : State) (a : Nat) (ok inWindow : Bool) : (State.modeStep s a ok inWindow).pending = s.pending := by simp [State.modeStep]
@[simp] theorem State.queueRunout_pending (s : State) (a h : Nat) : (State.queueRunout s a h).pending = s.pending := by simp [State.queueRunout]
@[simp] theorem State.runLoop_pending (s : State) (a : Nat) (o : LawOut) : (State.runLoop s a o).pending = s.pending := by unfold State.runLoop; (repeat' split) <;> simp
@[simp] theorem State.overrunRun_pending (s : State) (a : Nat) (o : LawOut) (budget : Nat) : (State.overrunRun s a o budget).pending = s.pending := by simp [State.overrunRun]
@[simp] theorem State.lineFault_pending (s : State) (a : Nat) (o : LawOut) (k : Nat) : (State.lineFault s a o k).pending = s.pending := by simp [State.lineFault]
@[simp] theorem State.spinOverrun_pending (s : State) (b : Nat) : (State.spinOverrun s b).pending = s.pending := by simp [State.spinOverrun]
@[simp] theorem State.takeMig_pending (s : State) (a : Nat) (mirrorOk : Bool) : (State.takeMig s a mirrorOk).pending = s.pending := by simp [State.takeMig]
@[simp] theorem State.loopReply_pending (s : State) (k reason n : Nat) : (State.loopReply s k reason n).pending = s.pending := by simp [State.loopReply]
@[simp] theorem State.endLeRetest_pending (s : State) (k n : Nat) (pass : Bool) : (State.endLeRetest s k n pass).pending = s.pending := by simp [State.endLeRetest]
@[simp] theorem State.diagWrite_pending (s : State) (f : Nat) (k : State → State) (hk : ∀ x0, (k x0).pending = x0.pending) : (State.diagWrite s f k).pending = s.pending := by unfold State.diagWrite; (try dsimp only); (repeat' split) <;> (try simp_all)
@[simp] theorem State.modPwr_pending (s : State) (g : Pwr → Pwr) : (State.modPwr s g).pending = s.pending := by simp [State.modPwr]
@[simp] theorem State.ceilingMoved_pending (s : State) (b : Nat) : (State.ceilingMoved s b).pending = s.pending := by simp [State.ceilingMoved]
@[simp] theorem State.ceilingsFrom_pending (s old : State) : (State.ceilingsFrom s old).pending = s.pending := by simp [State.ceilingsFrom]
@[simp] theorem State.reproject_pending (s : State) : (State.reproject s).pending = s.pending := by simp [State.reproject]
@[simp] theorem State.reachIdle_pending (s : State) (b : Nat) : (State.reachIdle s b).pending = s.pending := by simp [State.reachIdle]
@[simp] theorem State.calAtGait_pending (s : State) (b : Nat) : (State.calAtGait s b).pending = s.pending := by simp [State.calAtGait]
@[simp] theorem State.locked_pending (s : State) (b : Nat) : (State.locked s b).pending = s.pending := by simp [State.locked]
@[simp] theorem State.endWrites_pending (s : State) (b : Nat) : (State.endWrites s b).pending = s.pending := by simp [State.endWrites]
@[simp] theorem State.beginAlign_pending (s : State) (b : Nat) : (State.beginAlign s b).pending = s.pending := by simp [State.beginAlign]
@[simp] theorem State.beginSpin_pending (s : State) (b : Nat) : (State.beginSpin s b).pending = s.pending := by simp [State.beginSpin]
@[simp] theorem State.spinFailed_pending (s : State) (b : Nat) : (State.spinFailed s b).pending = s.pending := by simp [State.spinFailed]
@[simp] theorem State.startFloat_pending (s : State) (b : Nat) : (State.startFloat s b).pending = s.pending := by simp [State.startFloat]
@[simp] theorem State.observerLost_pending (s : State) (b : Nat) : (State.observerLost s b).pending = s.pending := by simp [State.observerLost]
@[simp] theorem State.atRest_pending (s : State) (b : Nat) : (State.atRest s b).pending = s.pending := by simp [State.atRest]
@[simp] theorem State.linkDetect_pending (s : State) (a : Nat) : (State.linkDetect s a).pending = s.pending := by simp [State.linkDetect]
@[simp] theorem State.faultCoast_pending (s : State) (b : Nat) : (State.faultCoast s b).pending = s.pending := by simp [State.faultCoast]
@[simp] theorem State.zeroCross_pending (s : State) (b : Nat) (rep : BitVec 64) : (State.zeroCross s b rep).pending = s.pending := by simp [State.zeroCross]
@[simp] theorem State.revolution_pending (s : State) (b n t : Nat) : (State.revolution s b n t).pending = s.pending := by simp [State.revolution]
@[simp] theorem State.spinReport_pending (s : State) (b : Nat) (rep : BitVec 64) : (State.spinReport s b rep).pending = s.pending := by simp [State.spinReport]
@[simp] theorem State.spinTick_pending (s : State) (b : Nat) : (State.spinTick s b).pending = s.pending := by simp [State.spinTick]
@[simp] theorem State.relocked_pending (s : State) (b : Nat) (cs : List (Nat × Nat)) : (State.relocked s b cs).pending = s.pending := by simp [State.relocked]
@[simp] theorem State.slowLower_pending (s : State) (b : Nat) : (State.slowLower s b).pending = s.pending := by simp [State.slowLower]
@[simp] theorem State.regenStops_pending (s : State) (d : Nat) : (State.regenStops s d).pending = s.pending := by simp [State.regenStops]
@[simp] theorem State.busCoasts_pending (s : State) (d : Nat) : (State.busCoasts s d).pending = s.pending := by simp [State.busCoasts]
@[simp] theorem State.coastEnds_pending (s : State) (d : Nat) : (State.coastEnds s d).pending = s.pending := by simp [State.coastEnds]
@[simp] theorem State.bayFault_pending (s : State) (b : Nat) : (State.bayFault s b).pending = s.pending := by simp [State.bayFault]
@[simp] theorem State.startBasic_pending (s : State) (a : Nat) : (State.startBasic s a).pending = s.pending := by simp [State.startBasic]
@[simp] theorem State.bringUp_pending (s : State) (b : Nat) : (State.bringUp s b).pending = s.pending := by simp [State.bringUp]
@[simp] theorem State.retarget_pending (s : State) (b g : Nat) : (State.retarget s b g).pending = s.pending := by simp [State.retarget]
@[simp] theorem State.wake_pending (s : State) (b : Nat) : (State.wake s b).pending = s.pending := by simp [State.wake]
@[simp] theorem State.grantToken_pending (s : State) (b : Nat) : (State.grantToken s b).pending = s.pending := by simp [State.grantToken]
@[simp] theorem State.enterPower_pending (s : State) (b : Nat) (want : BitVec 2) : (State.enterPower s b want).pending = s.pending := by simp [State.enterPower]
@[simp] theorem State.powerState_pending (s : State) (r : Requester) (st : Nat) (g : State → Nat → State) (hg : ∀ x0 x1, (g x0 x1).pending = x0.pending) : (State.powerState s r st g).pending = s.pending := by
  unfold State.powerState
  rw [State.serve_pending]
  intro p
  dsimp only
  (repeat' split) <;> simp [State.each_pending, hg]
@[simp] theorem State.askReset_pending (s : State) (at' action : Nat) : (State.askReset s at' action).pending = s.pending := by simp [State.askReset]
@[simp] theorem State.watchdogReset_pending (s : State) : (State.watchdogReset s).pending = s.pending := by simp [State.watchdogReset]
@[simp] theorem State.restartHerd_pending (s : State) (h : Nat) : (State.restartHerd s h).pending = s.pending := by simp [State.restartHerd]
@[simp] theorem State.restartCore_pending (s : State) : (State.restartCore s).pending = s.pending := by simp [State.restartCore]
@[simp] theorem State.writeDir_pending (s : State) (a : Nat) : (State.writeDir s a).pending = s.pending := by simp [State.writeDir]
@[simp] theorem State.landStaged_pending (s : State) (a : Nat) (closed : Option Nat) : (State.landStaged s a closed).pending = s.pending := by
  unfold State.landStaged
  split
  · rfl
  · simp
    rw [State.each_pending]
    intro s a; split <;> simp
@[simp] theorem State.replayHold_pending (s : State) (a : Nat) : (State.replayHold s a).pending = s.pending := by simp [State.replayHold]
@[simp] theorem State.rebuildIndex_pending (s : State) (a : Nat) : (State.rebuildIndex s a).pending = s.pending := by simp [State.rebuildIndex]
@[simp] theorem State.replayIntents_pending (s : State) (a : Nat) : (State.replayIntents s a).pending = s.pending := by unfold State.replayIntents; (try dsimp only); (repeat' split) <;> (try simp) <;> (repeat' (first | (rw [State.each_pending]) | (intro _) | split)) <;> simp_all
@[simp] theorem State.scanZone_pending (s : State) (a n lba : Nat) : (State.scanZone s a n lba).pending = s.pending := by unfold State.scanZone; (try dsimp only); (repeat' split) <;> (try simp) <;> (repeat' (first | (rw [State.each_pending]) | (intro _) | split)) <;> simp_all
@[simp] theorem State.replayJournal_pending (s : State) (a : Nat) : (State.replayJournal s a).pending = s.pending := by simp [State.replayJournal]
@[simp] theorem State.zonesTo_pending (s : State) (a h : Nat) (st : ZState) : (State.zonesTo s a h st).pending = s.pending := by simp [State.zonesTo]
@[simp] theorem State.halfHeads_pending (s : State) : (State.halfHeads s).pending = s.pending := by simp [State.halfHeads]
@[simp] theorem State.wipe_pending (s : State) (cold : Bool) : (State.wipe s cold).pending = s.pending := rfl
@[simp] theorem State.enterTrailhead_pending (s : State) (cause : Nat) : (State.enterTrailhead s cause).pending = s.pending := by simp [State.enterTrailhead]
@[simp] theorem State.beginStart_pending (s : State) (cause : Nat) : (State.beginStart s cause).pending = s.pending := by simp [State.beginStart]
@[simp] theorem State.failStart_pending (s : State) (cause : Nat) : (State.failStart s cause).pending = s.pending := by simp [State.failStart]
@[simp] theorem State.writeDev_pending (s : State) (typ : Nat) (body : List Byte) : (State.writeDev s typ body).pending = s.pending := by simp [State.writeDev]
@[simp] theorem State.devFall_pending (s : State) (bad : List Nat) (typ : Nat) : (State.devFall s bad typ).pending = s.pending := by simp [State.devFall]
@[simp] theorem State.loadTrims_pending (s : State) (bad : List Nat) : (State.loadTrims s bad).pending = s.pending := by unfold State.loadTrims; (try dsimp only); (repeat' split) <;> simp
@[simp] theorem State.headFinal_pending (s : State) (a h : Nat) : (State.headFinal s a h).pending = s.pending := by simp [State.headFinal]
@[simp] theorem State.assistPasses_pending (s : State) (a h : Nat) (o : AsstCal) : (State.assistPasses s a h o).pending = s.pending := by simp [State.assistPasses]
@[simp] theorem State.assistFails_pending (s : State) (a h : Nat) : (State.assistFails s a h).pending = s.pending := by simp [State.assistFails]
@[simp] theorem State.channelDone_pending (s : State) (a h : Nat) (o : ChanCal) : (State.channelDone s a h o).pending = s.pending := by simp [State.channelDone]
@[simp] theorem State.servoDone_pending (s : State) (a h : Nat) (o : ChanCal) : (State.servoDone s a h o).pending = s.pending := by simp [State.servoDone]
@[simp] theorem State.queueCal_pending (s : State) (a h kind : Nat) : (State.queueCal s a h kind).pending = s.pending := by simp [State.queueCal]
@[simp] theorem State.grazeSays_pending (s : State) (r : Requester) (reason : Nat) : (State.grazeSays s r reason).pending = s.pending := by simp [State.grazeSays]
@[simp] theorem State.recal_pending (s : State) (r : Requester) (kind : Nat) (g : State → Nat → Nat → State) (hg : ∀ x0 x1 x2, (g x0 x1 x2).pending = x0.pending) : (State.recal s r kind g).pending = s.pending := by unfold State.recal; (try dsimp only); (repeat' split) <;> (try simp_all)
@[simp] theorem State.refreshSpn_pending (s : State) (b : Nat) : (State.refreshSpn s b).pending = s.pending := by simp [State.refreshSpn]
@[simp] theorem State.loopLost_pending (s : State) (a : Nat) : (State.loopLost s a).pending = s.pending := by simp [State.loopLost]
@[simp] theorem State.linkLost_pending (s : State) (a : Nat) (dWorks : Bool) : (State.linkLost s a dWorks).pending = s.pending := by simp [State.linkLost]
@[simp] theorem State.refreshSingle_pending (s : State) (a : Nat) : (State.refreshSingle s a).pending = s.pending := by simp [State.refreshSingle]
@[simp] theorem State.laneFails_pending (s : State) (a : Nat) (u1 lock : Bool) : (State.laneFails s a u1 lock).pending = s.pending := by simp [State.laneFails]
@[simp] theorem State.telemetry_pending (s : State) (a : Nat) (e : BitVec 64) : (State.telemetry s a e).pending = s.pending := by unfold State.telemetry; (repeat' split) <;> simp
@[simp] theorem State.downErrors_pending (s : State) (a : Nat) (cnt : BitVec 8) : (State.downErrors s a cnt).pending = s.pending := by simp [State.downErrors]
@[simp] theorem State.badFrame_pending (s : State) (a : Nat) (u1 lock : Bool) : (State.badFrame s a u1 lock).pending = s.pending := by simp [State.badFrame]
@[simp] theorem State.bringSpin_pending (s : State) (b : Nat) : (State.bringSpin s b).pending = s.pending := by simp [State.bringSpin]
@[simp] theorem State.trainingOver_pending (s : State) (b : Nat) : (State.trainingOver s b).pending = s.pending := by simp [State.trainingOver]
@[simp] theorem State.trainFailed_pending (s : State) (a : Nat) : (State.trainFailed s a).pending = s.pending := by simp [State.trainFailed]
@[simp] theorem State.useDesc_pending (s : State) (b : Nat) (d : Descriptor) : (State.useDesc s b d).pending = s.pending := by simp [State.useDesc]
@[simp] theorem State.descEnd_pending (s : State) (a : Nat) (d : Descriptor) (late : Bool) : (State.descEnd s a d late).pending = s.pending := by simp [State.descEnd]
@[simp] theorem State.linkReady_pending (s : State) (a : Nat) (o : TrainOut) (k0 k1 : Bool) : (State.linkReady s a o k0 k1).pending = s.pending := by simp [State.linkReady]
@[simp] theorem State.settleMedia_pending (s : State) (b : Nat) : (State.settleMedia s b).pending = s.pending := by simp [State.settleMedia]
@[simp] theorem State.settleWaiting_pending (s : State) : (State.settleWaiting s).pending = s.pending := by simp [State.settleWaiting]
@[simp] theorem State.actGone_pending (s : State) (a : Nat) : (State.actGone s a).pending = s.pending := by simp [State.actGone]
@[simp] theorem State.absentRec_pending (s : State) (a kind : Nat) : (State.absentRec s a kind).pending = s.pending := by simp [State.absentRec]
@[simp] theorem State.checkRecs_pending (s : State) (a side : Nat) (c : CalData) : (State.checkRecs s a side c).pending = s.pending := by simp [State.checkRecs]
@[simp] theorem State.calSide_pending (s : State) (a side : Nat) (c : CalData) : (State.calSide s a side c).pending = s.pending := by
  unfold State.calSide
  dsimp only
  rw [State.refreshSingle_pending, State.each_pending]
  · rw [State.checkRecs_pending, State.offerSet_pending]
    (repeat' split) <;> simp
  · intro s a; split <;> (try split) <;> simp
@[simp] theorem State.markHead_pending (s : State) (a h kind : Nat) : (State.markHead s a h kind).pending = s.pending := by simp [State.markHead]
@[simp] theorem State.checkFails_pending (s : State) (a h kind : Nat) : (State.checkFails s a h kind).pending = s.pending := by simp [State.checkFails]
@[simp] theorem State.linkReply_pending (s : State) (k reason a : Nat) (data : List Byte) : (State.linkReply s k reason a data).pending = s.pending := by simp [State.linkReply]
@[simp] theorem State.modThm_pending (s : State) (g : Thm → Thm) : (State.modThm s g).pending = s.pending := by simp [State.modThm]
@[simp] theorem State.endBayFlush_pending (s : State) (b : Nat) : (State.endBayFlush s b).pending = s.pending := by simp [State.endBayFlush]
@[simp] theorem State.bayEmergency_pending (s : State) (b : Nat) : (State.bayEmergency s b).pending = s.pending := by simp [State.bayEmergency]
@[simp] theorem State.stopGrazing_pending (s : State) (a : Nat) (h : Option Nat) : (State.stopGrazing s a h).pending = s.pending := by simp [State.stopGrazing]
@[simp] theorem State.bayEvent_pending (s old : State) (b : Nat) : (State.bayEvent s old b).pending = s.pending := by simp [State.bayEvent]
@[simp] theorem State.bayStep_pending (s : State) (b : Nat) (x : Scope) (kind3 : Bool) : (State.bayStep s b x kind3).pending = s.pending := by simp [State.bayStep]
@[simp] theorem State.dieStep_pending (s : State) (x : Scope) : (State.dieStep s x).pending = s.pending := by simp [State.dieStep]
@[simp] theorem State.headStep_pending (s : State) (a h : Nat) (x : Scope) : (State.headStep s a h x).pending = s.pending := by simp [State.headStep]
@[simp] theorem State.thermalReply_pending (s : State) (k b : Nat) : (State.thermalReply s k b).pending = s.pending := by simp [State.thermalReply]
@[simp] theorem State.thermalCtrl_pending (s : State) (r : Requester) (act : Nat) (own : Nat → Nat → Nat) (k : State → Nat → Nat → State) (hk : ∀ x0 x1 x2, (k x0 x1 x2).pending = x0.pending) : (State.thermalCtrl s r act own k).pending = s.pending := by unfold State.thermalCtrl; (try dsimp only); (repeat' split) <;> (try simp_all)
@[simp] theorem State.modCache_pending (s : State) (g : CacheSt → CacheSt) : (State.modCache s g).pending = s.pending := by simp [State.modCache]
@[simp] theorem State.startWalk_pending (s : State) (g : Nat) : (State.startWalk s g).pending = s.pending := by simp [State.startWalk]
@[simp] theorem State.wantGroup_pending (s : State) (g : Nat) : (State.wantGroup s g).pending = s.pending := by simp [State.wantGroup]
@[simp] theorem State.disableGroup_pending (s : State) (g : Nat) : (State.disableGroup s g).pending = s.pending := by simp [State.disableGroup]
@[simp] theorem State.enableGroup_pending (s : State) (g : Nat) : (State.enableGroup s g).pending = s.pending := by simp [State.enableGroup]
@[simp] theorem State.disableCache_pending (s : State) : (State.disableCache s).pending = s.pending := by simp [State.disableCache]
@[simp] theorem State.enableCache_pending (s : State) : (State.enableCache s).pending = s.pending := by simp [State.enableCache]
@[simp] theorem State.endWalk_pending (s : State) (g : Nat) : (State.endWalk s g).pending = s.pending := by simp [State.endWalk]
@[simp] theorem State.faultGroup_pending (s : State) (g : Nat) : (State.faultGroup s g).pending = s.pending := by simp [State.faultGroup]
@[simp] theorem State.poisonSlot_pending (s : State) (order : Nat) : (State.poisonSlot s order).pending = s.pending := by unfold State.poisonSlot; (try dsimp only); (repeat' split) <;> simp
@[simp] theorem State.fixedNow_pending (s : State) (key : Nat) : (State.fixedNow s key).pending = s.pending := by simp [State.fixedNow]
@[simp] theorem State.remapLine_pending (s : State) (x : Nat) : (State.remapLine s x).pending = s.pending := by simp [State.remapLine]
@[simp] theorem State.softRepair_pending (s : State) (x : SoftRec) : (State.softRepair s x).pending = s.pending := by simp [State.softRepair]
@[simp] theorem State.poisonOutcome_pending (s : State) (u : LineUse) : (s.poisonOutcome u).pending = s.pending := by
  cases u <;> simp only [State.poisonOutcome] <;> (try (repeat' split)) <;> simp
@[simp] theorem State.repairOutcome_pending (s : State) (u : LineUse) : (s.repairOutcome u).pending = s.pending := by
  cases u <;> simp only [State.repairOutcome] <;> (try (repeat' split)) <;> simp
@[simp] theorem State.poisonAt_pending (s : State) (x : Nat) (use : LineUse) : (State.poisonAt s x use).pending = s.pending := by simp [State.poisonAt]
@[simp] theorem State.scrubDram_pending (s : State) (r : ScrubRead) : (State.scrubDram s r).pending = s.pending := by simp [State.scrubDram]
@[simp] theorem State.scrubHeld_pending (s : State) (r : ScrubRead) (l : Line) : (State.scrubHeld s r l).pending = s.pending := by simp [State.scrubHeld]
@[simp] theorem State.scrubSram_pending (s : State) (r : ScrubRead) : (State.scrubSram s r).pending = s.pending := by simp [State.scrubSram]
@[simp] theorem State.layoutReply_pending (s : State) (k reason : Nat) (g : Nat → Area) : (State.layoutReply s k reason g).pending = s.pending := by simp [State.layoutReply]
@[simp] theorem State.layoutSays_pending (s : State) (k reason : Nat) : (State.layoutSays s k reason).pending = s.pending := by simp [State.layoutSays]
@[simp] theorem State.clearPoison_pending (s : State) (e : PoisonEnt) : (State.clearPoison s e).pending = s.pending := by simp [State.clearPoison]
@[simp] theorem State.fwReply_pending (s : State) (k reason slot : Nat) : (State.fwReply s k reason slot).pending = s.pending := by simp [State.fwReply]
theorem State.refusedAction_pending (s t : State) (k op : Nat) (p : List Byte) (h : s.refusedAction k op p = some t) : t.pending = s.pending := by
  revert t
  unfold State.refusedAction
  dsimp only
  repeat' apply ite_some_pending
  all_goals simp
@[simp] theorem State.goMbx_pending (s : State) (k : Nat) (seq : BitVec 16) : (State.goMbx s k seq).pending = s.pending := by
  unfold State.goMbx
  dsimp only
  (repeat' split) <;> try simp
  cases h : State.refusedAction _ _ _ _ with
  | none => simp
  | some t => simpa using State.refusedAction_pending _ _ _ _ _ h
@[simp] theorem State.writeReqbuf_pending (s : State) (k off : Nat) (data : List Byte) : (State.writeReqbuf s k off data).pending = s.pending := by simp [State.writeReqbuf]
@[simp] theorem State.writeMbxReq_pending (s : State) (k : Nat) (op len : BitVec 16) : (State.writeMbxReq s k op len).pending = s.pending := by simp [State.writeMbxReq]
@[simp] theorem State.sqGone_pending (s : State) (k key : Nat) : (State.sqGone s k key).pending = s.pending := by simp [State.sqGone]
@[simp] theorem State.smbus_pending (s : State) (pec : Bool) (g : State → State) (hg : ∀ x0, (g x0).pending = x0.pending) : (State.smbus s pec g).pending = s.pending := by unfold State.smbus; (try dsimp only); (repeat' split) <;> (try simp_all)
@[simp] theorem State.unfetch_pending (s : State) (key : Nat) : (State.unfetch s key).pending = s.pending := by simp [State.unfetch]
@[simp] theorem State.dropSaved_pending (s : State) (i : Nat) : (State.dropSaved s i).pending = s.pending := by simp [State.dropSaved]
@[simp] theorem State.loseSlots_pending (s : State) (a : Nat) : (State.loseSlots s a).pending = s.pending := by simp [State.loseSlots]
@[simp] theorem State.islandEffect_pending (s : State) (i : Nat) : (State.islandEffect s i).pending = s.pending := by simp [State.islandEffect]
@[simp] theorem State.resetIsland_pending (s : State) (i : Nat) (flight : Tab Nat) : (State.resetIsland s i flight).pending = s.pending := by simp [State.resetIsland]
@[simp] theorem State.askIslandReset_pending (s : State) (i : Nat) (flight : Tab Nat) : (State.askIslandReset s i flight).pending = s.pending := by simp [State.askIslandReset]
@[simp] theorem State.modClk_pending (s : State) (g : Clk → Clk) : (State.modClk s g).pending = s.pending := by simp [State.modClk]
@[simp] theorem State.discipline_pending (s : State) : (State.discipline s).pending = s.pending := by simp [State.discipline]
@[simp] theorem State.raiseGen_pending (s : State) (slot nsid : Nat) : (State.raiseGen s slot nsid).pending = s.pending := by simp [State.raiseGen]
@[simp] theorem State.dropNs_pending (s : State) (n : Nat) : (State.dropNs s n).pending = s.pending := by simp [State.dropNs]
@[simp] theorem State.stageGrant_pending (s : State) (r : Requester) (g : Bool) : (State.stageGrant s r g).pending = s.pending := by simp [State.stageGrant]
@[simp] theorem State.attach_pending (s : State) (n f : Nat) (on : Bool) : (State.attach s n f on).pending = s.pending := by simp [State.attach]
@[simp] theorem State.serveAttach_pending (s : State) (r : Requester) (g : Bool) : (State.serveAttach s r g).pending = s.pending := by simp [State.serveAttach]
@[simp] theorem State.putGrant_pending (s : State) (g : StagedGrant) : (State.putGrant s g).pending = s.pending := by simp [State.putGrant]
@[simp] theorem State.epochApplied_pending (s : State) : (State.epochApplied s).pending = s.pending := by simp [State.epochApplied]
@[simp] theorem State.reweigh_pending (s : State) (a : Nat) (was now : EpochCfg) : (State.reweigh s a was now).pending = s.pending := by simp [State.reweigh]
@[simp] theorem State.writePortRec_pending (s : State) (r : PortRec) : (State.writePortRec s r).pending = s.pending := by simp [State.writePortRec]
@[simp] theorem State.tallyRing_pending (s : State) (r : Requester) (act : Nat) (g : State → Nat → List Byte → Nat × State)
    (hg : ∀ s k p, (g s k p).2.pending = s.pending) : (s.tallyRing r act g).pending = s.pending := by
  unfold State.tallyRing
  rw [State.serve_pending]
  intro p
  dsimp only
  simp
  (repeat' split) <;> simp_all
@[simp] theorem State.tallyWrite_pending (s : State) (key : Nat) (body : List Byte) : (State.tallyWrite s key body).pending = s.pending := by simp [State.tallyWrite]
@[simp] theorem State.modSlot_pending (s : State) (n : Nat) (g : Slot → Slot) : (State.modSlot s n g).pending = s.pending := by simp [State.modSlot]
@[simp] theorem State.loadLayout_pending (s : State) (bad : List Nat) : (State.loadLayout s bad).pending = s.pending := by unfold State.loadLayout; (repeat' split) <;> simp
@[simp] theorem State.softApply_pending (s : State) (lost : List Nat) : (State.softApply s lost).pending = s.pending := by simp [State.softApply]
@[simp] theorem State.replaceLe_pending (s : State) (n : Nat) : (State.replaceLe s n).pending = s.pending := by
  unfold State.replaceLe
  dsimp only
  rw [State.each_pending, State.each_pending]
  · simp
  · intro s a; split <;> simp
  · intro s a; split <;> simp
@[simp] theorem State.resumeFormat_pending (s : State) (o : FmtOp) : (State.resumeFormat s o).pending = s.pending := by simp [State.resumeFormat]
@[simp] theorem State.resumeSan_pending (s : State) (o : SanOp) : (State.resumeSan s o).pending = s.pending := by simp [State.resumeSan]
@[simp] theorem State.islandsUp_pending (s : State) : (State.islandsUp s).pending = s.pending := by simp [State.islandsUp]
@[simp] theorem State.herdsUp_pending (s : State) (img : SlotCheck) : (State.herdsUp s img).pending = s.pending := by simp [State.herdsUp]
@[simp] theorem State.completeStart_pending (s : State) (img : SlotCheck) (failedDe failedLe : List Nat) : (State.completeStart s img failedDe failedLe).pending = s.pending := by simp [State.completeStart]
@[simp] theorem State.serveReset_pending (s : State) (r : Requester) (action : Nat) : (State.serveReset s r action).pending = s.pending := by simp [State.serveReset]
@[simp] theorem State.writeCommand_pending (s : State) (f : Nat) (v : BitVec 64) : (State.writeCommand s f v).pending = s.pending := by simp [State.writeCommand]
@[simp] theorem State.writeCfg_pending (s : State) (f : Nat) (sp : RegSpace) (i : Nat) (v : BitVec 64) : (State.writeCfg s f sp i v).pending = s.pending := by unfold State.writeCfg; (repeat' split) <;> simp
@[simp] theorem State.serveFw_pending (s : State) (r : Requester) (act : Nat) (ok : List Byte → Bool)
    (go : State → List Byte → State × Nat) (hg : ∀ s p, (go s p).1.pending = s.pending) : (s.serveFw r act ok go).pending = s.pending := by
  unfold State.serveFw
  rw [State.serve_pending]
  intro p
  dsimp only
  (repeat' split) <;> simp_all
@[simp] theorem State.prefer_pending (s : State) (n : Nat) : (State.prefer s n).pending = s.pending := by simp [State.prefer]
@[simp] theorem State.placeHolds_pending (s : State) (x : Act16) (u : Nat) : (State.placeHolds s x u).pending = s.pending := by simp [State.placeHolds]
@[simp] theorem State.endHold_pending (s : State) (as : List Nat) : (State.endHold s as).pending = s.pending := by simp [State.endHold]
@[simp] theorem State.actOver_pending (s : State) (st comp : Nat) : (State.actOver s st comp).pending = s.pending := by simp [State.actOver]
@[simp] theorem State.actDone_pending (s : State) (x : Act16) : (State.actDone s x).pending = s.pending := by simp [State.actDone]
@[simp] theorem State.rollNext_pending (s : State) (x : Act16) : (State.rollNext s x).pending = s.pending := by unfold State.rollNext; (repeat' split) <;> simp
@[simp] theorem State.actFails_pending (s : State) (x : Act16) (type : Nat) : (State.actFails s x type).pending = s.pending := by simp [State.actFails]
@[simp] theorem State.goUnit_pending (s : State) (x : Act16) (u : Nat) : (State.goUnit s x u).pending = s.pending := by simp [State.goUnit]
@[simp] theorem State.unitDone_pending (s : State) (x : Act16) : (State.unitDone s x).pending = s.pending := by simp [State.unitDone]
@[simp] theorem State.endRoutine_pending (s : State) (a : Nat) : (State.endRoutine s a).pending = s.pending := by simp [State.endRoutine]
@[simp] theorem State.beginFlush_pending (s : State) (a : Nat) : (State.beginFlush s a).pending = s.pending := by simp [State.beginFlush]
@[simp] theorem State.quarReply_pending (s : State) (k reason b : Nat) : (State.quarReply s k reason b).pending = s.pending := by simp [State.quarReply]
@[simp] theorem State.keyReply_pending (s : State) (k reason x : Nat) (blob : List Byte) : (State.keyReply s k reason x blob).pending = s.pending := by simp [State.keyReply]
@[simp] theorem State.sanReply_pending (s : State) (k reason id : Nat) : (State.sanReply s k reason id).pending = s.pending := by simp [State.sanReply]
@[simp] theorem State.enterSanitize_pending (s : State) (kind : Nat) (ns : List Nat) : (State.enterSanitize s kind ns).pending = s.pending := by simp [State.enterSanitize]
@[simp] theorem State.serveSanitize_pending (s : State) (r : Requester) (kind : Nat) : (State.serveSanitize s r kind).pending = s.pending := by simp [State.serveSanitize]
@[simp] theorem State.afterRead_pending (s : State) (f off : Nat) : (State.afterRead s f off).pending = s.pending := by simp [State.afterRead]
@[simp] theorem State.read4_pending (s : State) (f off : Nat) : (s.read4 f off).2.pending = s.pending := by
  unfold State.read4; (repeat' split) <;> simp
@[simp] theorem State.readReg_pending (s : State) (f off : Nat) (wide : Bool) : (State.readReg s f off wide).pending = s.pending := by
  unfold State.readReg
  dsimp only
  split <;> simp
@[simp] theorem State.access_pending (s : State) (f off : Nat) (wide posted : Bool) (k : State → State) (hk : ∀ x0, (k x0).pending = x0.pending) : (State.access s f off wide posted k).pending = s.pending := by unfold State.access; (try dsimp only); (repeat' split) <;> (try simp_all)
@[simp] theorem State.readBar0_pending (s : State) (f off : Nat) (wide : Bool) : (State.readBar0 s f off wide).pending = s.pending := by simp [State.readBar0]
@[simp] theorem State.noteDebug_pending (s old : State) : (State.noteDebug s old).pending = s.pending := by simp [State.noteDebug]
@[simp] theorem State.writeLck_pending (s : State) (v : Word) : (State.writeLck s v).pending = s.pending := by simp [State.writeLck]
@[simp] theorem State.writeDbg_pending (s : State) (v : Word) : (State.writeDbg s v).pending = s.pending := by simp [State.writeDbg]
@[simp] theorem State.writeFwkey_pending (s : State) (v : Word) : (State.writeFwkey s v).pending = s.pending := by simp [State.writeFwkey]
@[simp] theorem State.clearLatch_pending (s : State) (p n : Nat) (v : Word) : (State.clearLatch s p n v).pending = s.pending := by simp [State.clearLatch]
@[simp] theorem State.clearFnLatch_pending (s : State) (f : Nat) (v : Word) : (State.clearFnLatch s f v).pending = s.pending := by simp [State.clearFnLatch]
@[simp] theorem State.modSel_pending (s : State) (p : Nat) (g : PfSel → PfSel) : (State.modSel s p g).pending = s.pending := by simp [State.modSel]
@[simp] theorem State.modStaged_pending (s : State) (g : EpochCfg → EpochCfg) : (State.modStaged s g).pending = s.pending := by simp [State.modStaged]
@[simp] theorem State.writeStaged_pending (s : State) (off : Nat) (v : Word) : (State.writeStaged s off v).pending = s.pending := by simp [State.writeStaged]
@[simp] theorem State.writeLcCtrl_pending (s : State) (v : Word) : (State.writeLcCtrl s v).pending = s.pending := by simp [State.writeLcCtrl]
@[simp] theorem State.writeClk_pending (s : State) (v : Word) : (State.writeClk s v).pending = s.pending := by simp [State.writeClk]
@[simp] theorem State.writePort_pending (s : State) (p off : Nat) (v : Word) : (State.writePort s p off v).pending = s.pending := by simp [State.writePort]
@[simp] theorem State.clearXing_pending (s : State) (p : Nat) (v : Word) : (State.clearXing s p v).pending = s.pending := by simp [State.clearXing]
@[simp] theorem State.writeDiag_pending (s : State) (off : Nat) (v : Word) : (State.writeDiag s off v).pending = s.pending := by simp [State.writeDiag]
@[simp] theorem State.writeTalHead_pending (s : State) (f k : Nat) (v : Word) : (State.writeTalHead s f k v).pending = s.pending := by simp [State.writeTalHead]
@[simp] theorem State.writeDb_pending (s : State) (f o : Nat) (v : Word) : (State.writeDb s f o v).pending = s.pending := by simp [State.writeDb]
@[simp] theorem State.writeFn_pending (s : State) (f off : Nat) (v : Word) : (State.writeFn s f off v).pending = s.pending := by simp [State.writeFn]
theorem State.writeOwn_pending (s t : State) (off : Nat) (v : Word) (fl : Tab Nat) (h : s.writeOwn off v fl = some t) : t.pending = s.pending := by
  revert t
  unfold State.writeOwn
  repeat' apply ite_some_pending
  all_goals simp
@[simp] theorem State.writePf_pending (s : State) (f off : Nat) (v : Word) (flight : Tab Nat) : (State.writePf s f off v flight).pending = s.pending := by
  unfold State.writePf
  dsimp only
  (repeat' split) <;> first | (simp; done) | (rename_i h _; simpa using State.writeOwn_pending _ _ _ _ _ h)
@[simp] theorem State.write4_pending (s : State) (f off : Nat) (v : Word) (flight : Tab Nat) : (State.write4 s f off v flight).pending = s.pending := by simp [State.write4]
@[simp] theorem State.writeReg_pending (s : State) (f off : Nat) (wide : Bool) (data : BitVec 64) (flight : Tab Nat) : (State.writeReg s f off wide data flight).pending = s.pending := by simp [State.writeReg]
end Sys2Proof.Machine
end

