-- ==== Sys2Proof/Laws/Reach.lean ====
section
/-! SUPPORT. A register access that reaches the block acts as its register says. -/
namespace Sys2Proof.Machine

open Sys2Proof

theorem State.bar0_mmio {s : State} {f : Nat} (h : s.mmio f = true) (posted : Bool) (k : State → State) :
    s.bar0 f posted k = k (s.touch f) := by
  simp only [State.mmio, Bool.and_eq_true, Bool.not_eq_true'] at h
  exact s.bar0_ok f posted k h.1.1 h.1.2 h.2

theorem State.stewardWrite_mmio {s : State} {f : Nat} (h : s.stewardMmio f = true) (k : State → State) :
    s.stewardWrite f k = k (s.touch f) := by
  simp only [State.stewardMmio, State.mmio, Bool.and_eq_true, Bool.not_eq_true'] at h
  exact s.stewardWrite_ok f k h.1.1.1.1 h.1.1.1.2 h.1.1.2 h.1.2 h.2

end Sys2Proof.Machine
end

