-- ==== Sys2Proof/Laws/Svn.lean ====
section
/-! SUPPORT. What leaves the fused minimum security version alone: one lemma per operation of the block. -/
namespace Sys2Proof.Machine
open Sys2Proof
@[simp] theorem State.ite_svn (c : Prop) [Decidable c] (s t : State) : (if c then s else t).boot.svnMin = if c then s.boot.svnMin else t.boot.svnMin := by split <;> rfl
@[simp] theorem State.foldl_svn {α : Type} (g : State → α → State) (hg : ∀ s a, (g s a).boot.svnMin = s.boot.svnMin) (l : List α) (s : State) : (l.foldl g s).boot.svnMin = s.boot.svnMin := by
  induction l generalizing s with
  | nil => rfl
  | cons a t ih => simp [ih, hg]
@[simp] theorem State.each_svn {α : Type} (s : State) (l : List α) (g : State → α → State) (hg : ∀ s a, (g s a).boot.svnMin = s.boot.svnMin) : (s.each l g).boot.svnMin = s.boot.svnMin := State.foldl_svn g hg l s
theorem ite_some_svn {c : Prop} [Decidable c] {a b : Option State} {v : BitVec 7} (ha : ∀ t, a = some t → t.boot.svnMin = v)
    (hb : ∀ t, b = some t → t.boot.svnMin = v) : ∀ t, (if c then a else b) = some t → t.boot.svnMin = v := by split <;> assumption
theorem foldl_fst_svn {α β : Type} (g : State × β → α → State × β) (hg : ∀ x a, (g x a).1.boot.svnMin = x.1.boot.svnMin) (l : List α) (x : State × β) : (l.foldl g x).1.boot.svnMin = x.1.boot.svnMin := by
  induction l generalizing x with
  | nil => rfl
  | cons a t ih => simp [ih, hg]
@[simp] theorem Boot.push_svnMin (b : Boot) (slot cause : Nat) : (b.push slot cause).svnMin = b.svnMin := by simp [Boot.push]

@[simp] theorem State.modAdm_svn (s : State) (a : Nat) (g : Adm → Adm) : (State.modAdm s a g).boot.svnMin = s.boot.svnMin := by simp [State.modAdm]
@[simp] theorem State.modMed_svn (s : State) (a : Nat) (g : Med → Med) : (State.modMed s a g).boot.svnMin = s.boot.svnMin := by simp [State.modMed]
@[simp] theorem State.modCfe_svn (s : State) (a : Nat) (g : Cfe → Cfe) : (State.modCfe s a g).boot.svnMin = s.boot.svnMin := by simp [State.modCfe]
@[simp] theorem State.modFmt_svn (s : State) (a : Nat) (g : Fmt → Fmt) : (State.modFmt s a g).boot.svnMin = s.boot.svnMin := by simp [State.modFmt]
@[simp] theorem State.modLoop_svn (s : State) (a : Nat) (g : Loop → Loop) : (State.modLoop s a g).boot.svnMin = s.boot.svnMin := by simp [State.modLoop]
@[simp] theorem State.modCwy_svn (s : State) (a : Nat) (g : Cwy → Cwy) : (State.modCwy s a g).boot.svnMin = s.boot.svnMin := by simp [State.modCwy]
@[simp] theorem State.modGraze_svn (s : State) (a : Nat) (g : Graze → Graze) : (State.modGraze s a g).boot.svnMin = s.boot.svnMin := by simp [State.modGraze]
@[simp] theorem State.modHead_svn (s : State) (a h : Nat) (g : HeadSt → HeadSt) : (State.modHead s a h g).boot.svnMin = s.boot.svnMin := by simp [State.modHead]
@[simp] theorem State.modSpin_svn (s : State) (b : Nat) (g : Spin → Spin) : (State.modSpin s b g).boot.svnMin = s.boot.svnMin := by simp [State.modSpin]
@[simp] theorem State.modLink_svn (s : State) (b : Nat) (g : BayLink → BayLink) : (State.modLink s b g).boot.svnMin = s.boot.svnMin := by simp [State.modLink]
@[simp] theorem State.useFree_svn (s : State) : (State.useFree s).boot.svnMin = s.boot.svnMin := by simp [State.useFree]
@[simp] theorem State.touch_svn (s : State) (f : Nat) : (State.touch s f).boot.svnMin = s.boot.svnMin := by simp [State.touch]
@[simp] theorem State.sendTlp_svn (s : State) (f : Nat) : (State.sendTlp s f).boot.svnMin = s.boot.svnMin := by simp [State.sendTlp]
@[simp] theorem State.emit_svn (s : State) (m : OutMsg) : (State.emit s m).boot.svnMin = s.boot.svnMin := by unfold State.emit; (repeat' split) <;> simp
@[simp] theorem State.raise_svn (s : State) (src : Nat) : (State.raise s src).boot.svnMin = s.boot.svnMin := by simp [State.raise]
@[simp] theorem State.raiseFn_svn (s : State) (f b : Nat) : (State.raiseFn s f b).boot.svnMin = s.boot.svnMin := by simp [State.raiseFn]
@[simp] theorem State.raiseFns_svn (s : State) (fs : List Nat) (b : Nat) : (State.raiseFns s fs b).boot.svnMin = s.boot.svnMin := by simp [State.raiseFns]
@[simp] theorem State.logPort_svn (s : State) (f cause : Nat) : (State.logPort s f cause).boot.svnMin = s.boot.svnMin := by simp [State.logPort]
@[simp] theorem State.portFault_svn (s : State) (f i : Nat) : (State.portFault s f i).boot.svnMin = s.boot.svnMin := by simp [State.portFault]
@[simp] theorem State.ignoreWrite_svn (s : State) (f : Nat) : (State.ignoreWrite s f).boot.svnMin = s.boot.svnMin := by simp [State.ignoreWrite]
@[simp] theorem State.aerLog_svn (s : State) (f b : Nat) (adv : Bool) (hdr : Option Nat) : (State.aerLog s f b adv hdr).boot.svnMin = s.boot.svnMin := by simp [State.aerLog]
@[simp] theorem State.refuseReq_svn (s : State) (f cause : Nat) (posted : Bool) (hdr : Nat) : (State.refuseReq s f cause posted hdr).boot.svnMin = s.boot.svnMin := by unfold State.refuseReq; (repeat' split) <;> simp
@[simp] theorem State.refuseAny_svn (s : State) (f cause : Nat) (posted : Bool) : (State.refuseAny s f cause posted).boot.svnMin = s.boot.svnMin := by simp [State.refuseAny]
@[simp] theorem State.bar0_svn (s : State) (f : Nat) (posted : Bool) (k : State → State) (hk : ∀ x0, (k x0).boot.svnMin = x0.boot.svnMin) : (State.bar0 s f posted k).boot.svnMin = s.boot.svnMin := by unfold State.bar0; (try dsimp only); (repeat' split) <;> (try simp_all)
@[simp] theorem State.stewardWrite_svn (s : State) (f : Nat) (k : State → State) (hk : ∀ x0, (k x0).boot.svnMin = x0.boot.svnMin) : (State.stewardWrite s f k).boot.svnMin = s.boot.svnMin := by unfold State.stewardWrite; (try dsimp only); (repeat' split) <;> (try simp_all)
@[simp] theorem State.logQueue_svn (s : State) (f cause : Nat) (cq : Bool) (q : Nat) : (State.logQueue s f cause cq q).boot.svnMin = s.boot.svnMin := by simp [State.logQueue]
@[simp] theorem State.charge_svn (s : State) (f n : Nat) (g : Acc → Acc) : (State.charge s f n g).boot.svnMin = s.boot.svnMin := by simp [State.charge]
@[simp] theorem State.chargePoison_svn (s : State) (n : Nat) : (State.chargePoison s n).boot.svnMin = s.boot.svnMin := by simp [State.chargePoison]
@[simp] theorem State.modCmd_svn (s : State) (id : Nat) (g : Cmd → Cmd) : (State.modCmd s id g).boot.svnMin = s.boot.svnMin := by simp [State.modCmd]
@[simp] theorem State.tick_svn (s : State) : (State.tick s).boot.svnMin = s.boot.svnMin := by simp [State.tick]
@[simp] theorem State.mapFns_svn (s : State) (g : Nat → FnSt → FnSt) : (State.mapFns s g).boot.svnMin = s.boot.svnMin := by simp [State.mapFns]
@[simp] theorem State.mapCmds_svn (s : State) (g : Cmd → Cmd) : (State.mapCmds s g).boot.svnMin = s.boot.svnMin := by simp [State.mapCmds]
@[simp] theorem State.modStage_svn (s : State) (g : Staging → Staging) : (State.modStage s g).boot.svnMin = s.boot.svnMin := by simp [State.modStage]
@[simp] theorem State.mapR_svn (s : State) (g : RSlot → RSlot) : (State.mapR s g).boot.svnMin = s.boot.svnMin := by simp [State.mapR]
@[simp] theorem State.mapW_svn (s : State) (g : WSlot → WSlot) : (State.mapW s g).boot.svnMin = s.boot.svnMin := by simp [State.mapW]
@[simp] theorem State.mapRec_svn (s : State) (g : RecEntry → RecEntry) : (State.mapRec s g).boot.svnMin = s.boot.svnMin := by simp [State.mapRec]
@[simp] theorem State.mapFmt_svn (s : State) (g : FmtOp → FmtOp) : (State.mapFmt s g).boot.svnMin = s.boot.svnMin := by simp [State.mapFmt]
@[simp] theorem State.mapSan_svn (s : State) (g : SanOp → SanOp) : (State.mapSan s g).boot.svnMin = s.boot.svnMin := by simp [State.mapSan]
@[simp] theorem State.modMem_svn (s : State) (g : MemSt → MemSt) : (State.modMem s g).boot.svnMin = s.boot.svnMin := by simp [State.modMem]
@[simp] theorem State.modPool_svn (s : State) (g : Pool → Pool) : (State.modPool s g).boot.svnMin = s.boot.svnMin := by simp [State.modPool]
@[simp] theorem State.modBoot_svn (s : State) (g : Boot → Boot) (hg : ∀ x, (g x).svnMin = x.svnMin) : (State.modBoot s g).boot.svnMin = s.boot.svnMin := hg _
@[simp] theorem State.modCfg_svn (s : State) (g : Cfg → Cfg) : (State.modCfg s g).boot.svnMin = s.boot.svnMin := by simp [State.modCfg]
@[simp] theorem State.modGlb_svn (s : State) (g : Glb → Glb) : (State.modGlb s g).boot.svnMin = s.boot.svnMin := by simp [State.modGlb]
@[simp] theorem State.worn_svn (s : State) (a : Nat) (gs : List Nat) : (State.worn s a gs).boot.svnMin = s.boot.svnMin := by simp [State.worn]
@[simp] theorem State.setPlan_svn (s : State) (a : Nat) (q : List PlanOp) : (State.setPlan s a q).boot.svnMin = s.boot.svnMin := by simp [State.setPlan]
@[simp] theorem State.unplan_svn (s : State) (a id : Nat) : (State.unplan s a id).boot.svnMin = s.boot.svnMin := by simp [State.unplan]
@[simp] theorem State.replan_svn (s : State) (a : Nat) : (State.replan s a).boot.svnMin = s.boot.svnMin := by simp [State.replan]
@[simp] theorem State.replaceRead_svn (s : State) : (State.replaceRead s).boot.svnMin = s.boot.svnMin := by unfold State.replaceRead; (repeat' split) <;> simp
@[simp] theorem State.pin_svn (s : State) (id : Nat) (x : Sector) : (State.pin s id x).boot.svnMin = s.boot.svnMin := by
  have e : ∀ (u : State) (g : Staging), ({ u with stage := g } : State).boot.svnMin = u.boot.svnMin := fun _ _ => rfl
  unfold State.pin
  dsimp only
  split
  · exact e _ _
  · exact (e _ _).trans (State.replaceRead_svn s)
@[simp] theorem State.rewritten_svn (s : State) (n lba : Nat) : (State.rewritten s n lba).boot.svnMin = s.boot.svnMin := by simp [State.rewritten]
@[simp] theorem State.writeCommitted_svn (s : State) (n lba : Nat) : (State.writeCommitted s n lba).boot.svnMin = s.boot.svnMin := by simp [State.writeCommitted]
@[simp] theorem State.pruneStaged_svn (s : State) : (State.pruneStaged s).boot.svnMin = s.boot.svnMin := by simp [State.pruneStaged]
@[simp] theorem State.payAssist_svn (s : State) (a : Nat) (q : FmtCmd) (e : Nat) : (State.payAssist s a q e).boot.svnMin = s.boot.svnMin := by simp [State.payAssist]
@[simp] theorem State.sendAssist_svn (s : State) (a h : Nat) (lvl : AssistLevel) : (State.sendAssist s a h lvl).boot.svnMin = s.boot.svnMin := by simp [State.sendAssist]
@[simp] theorem State.openGate_svn (s : State) (a : Nat) (q : FmtCmd) : (State.openGate s a q).boot.svnMin = s.boot.svnMin := by simp [State.openGate]
@[simp] theorem State.closeGate_svn (s : State) (a : Nat) (lvl : AssistLevel) : (State.closeGate s a lvl).boot.svnMin = s.boot.svnMin := by unfold State.closeGate; (repeat' split) <;> simp
@[simp] theorem State.crossWedge_svn (s : State) (a : Nat) : (State.crossWedge s a).boot.svnMin = s.boot.svnMin := by unfold State.crossWedge; (repeat' split) <;> simp
@[simp] theorem State.cutQuantum_svn (s : State) (a : Nat) (r : Routine) : (State.cutQuantum s a r).boot.svnMin = s.boot.svnMin := by simp [State.cutQuantum]
@[simp] theorem State.wantSqueeze_svn (s : State) (a : Nat) (r : Routine) (c : Option FmtCmd) : (State.wantSqueeze s a r c).boot.svnMin = s.boot.svnMin := by unfold State.wantSqueeze; (repeat' split) <;> simp
@[simp] theorem State.lateInhibit_svn (s : State) (a : Nat) (cause : Option Nat) (toward : Bool) : (State.lateInhibit s a cause toward).boot.svnMin = s.boot.svnMin := by unfold State.lateInhibit; (try dsimp only); (repeat' split) <;> simp
@[simp] theorem State.abandonWrite_svn (s : State) (a : Nat) (cause : Option Nat) (toward : Bool) : (State.abandonWrite s a cause toward).boot.svnMin = s.boot.svnMin := by unfold State.abandonWrite; (repeat' split) <;> simp
@[simp] theorem State.putBack_svn (s : State) (a : Nat) : (State.putBack s a).boot.svnMin = s.boot.svnMin := by unfold State.putBack; (repeat' split) <;> simp
@[simp] theorem State.postEntry_svn (s : State) (f q : Nat) (c : Cpl) : (State.postEntry s f q c).boot.svnMin = s.boot.svnMin := by simp [State.postEntry]
@[simp] theorem State.releaseSlot_svn (s : State) (f q : Nat) : (State.releaseSlot s f q).boot.svnMin = s.boot.svnMin := by simp [State.releaseSlot]
@[simp] theorem State.tallyEnd_svn (s : State) (c : Cmd) (status : Nat) : (State.tallyEnd s c status).boot.svnMin = s.boot.svnMin := by simp [State.tallyEnd]
@[simp] theorem State.dropCmd_svn (s : State) (id : Nat) : (State.dropCmd s id).boot.svnMin = s.boot.svnMin := by simp [State.dropCmd]
@[simp] theorem State.ackStaged_svn (s : State) (id : Nat) : (State.ackStaged s id).boot.svnMin = s.boot.svnMin := by simp [State.ackStaged]
@[simp] theorem State.postCmd_svn (s : State) (c : Cmd) (status result : Nat) : (State.postCmd s c status result).boot.svnMin = s.boot.svnMin := by simp [State.postCmd]
@[simp] theorem State.queueRecovery_svn (s : State) (e : RecEntry) : (State.queueRecovery s e).boot.svnMin = s.boot.svnMin := by simp [State.queueRecovery]
@[simp] theorem State.dropAttempts_svn (s : State) (id : Nat) : (State.dropAttempts s id).boot.svnMin = s.boot.svnMin := by simp [State.dropAttempts]
@[simp] theorem State.release_svn (s : State) (c : Cmd) (ok : Bool) : (State.release s c ok).boot.svnMin = s.boot.svnMin := by simp [State.release]
@[simp] theorem State.postOrHold_svn (s : State) (c : Cmd) (status result : Nat) : (State.postOrHold s c status result).boot.svnMin = s.boot.svnMin := by simp [State.postOrHold]
@[simp] theorem State.recover_svn (s : State) (c : Cmd) : (s.recover c).1.boot.svnMin = s.boot.svnMin := by
  unfold State.recover; dsimp only; split <;> simp
@[simp] theorem State.endCmd_svn (s : State) (id status result : Nat) : (State.endCmd s id status result).boot.svnMin = s.boot.svnMin := by unfold State.endCmd; (repeat' split) <;> simp
@[simp] theorem State.postEarly_svn (s : State) : (State.postEarly s).boot.svnMin = s.boot.svnMin := by simp [State.postEarly]
@[simp] theorem State.removedFirst_svn (s : State) (b : Nat) : (State.removedFirst s b).boot.svnMin = s.boot.svnMin := by simp [State.removedFirst]
@[simp] theorem State.fixStatus_svn (s : State) (ids : List Nat) (status : Nat) : (State.fixStatus s ids status).boot.svnMin = s.boot.svnMin := by simp [State.fixStatus]
@[simp] theorem State.restores_svn (s : State) (id w : Nat) : (State.restores s id w).boot.svnMin = s.boot.svnMin := by simp [State.restores]
@[simp] theorem State.failZoneWrite_svn (s : State) (c : Cmd) : (State.failZoneWrite s c).boot.svnMin = s.boot.svnMin := by simp [State.failZoneWrite]
@[simp] theorem State.failZoneAction_svn (s : State) (c : Cmd) : (State.failZoneAction s c).boot.svnMin = s.boot.svnMin := by simp [State.failZoneAction]
@[simp] theorem State.undoZone_svn (s : State) (c : Cmd) : (State.undoZone s c).boot.svnMin = s.boot.svnMin := by simp [State.undoZone]
@[simp] theorem State.cutOffs_svn (s : State) (c : Cmd) : (State.cutOffs s c).boot.svnMin = s.boot.svnMin := by simp [State.cutOffs]
@[simp] theorem State.endAll_svn (s : State) (l : List (Nat × Nat × Nat)) : (State.endAll s l).boot.svnMin = s.boot.svnMin := by unfold State.endAll; (try dsimp only); (repeat' split) <;> (try simp) <;> (repeat' (first | (rw [State.each_svn]) | (intro _) | split)) <;> simp_all
@[simp] theorem State.commitStaged_svn (s : State) (c : Cmd) : (State.commitStaged s c).boot.svnMin = s.boot.svnMin := by simp [State.commitStaged]
@[simp] theorem State.drain_svn (s : State) : (State.drain s).boot.svnMin = s.boot.svnMin := by unfold State.drain; (try dsimp only); (repeat' split) <;> (try simp) <;> (repeat' (first | (rw [State.each_svn]) | (intro _) | split)) <;> simp_all
@[simp] theorem State.finish_svn (s : State) (id status result : Nat) : (State.finish s id status result).boot.svnMin = s.boot.svnMin := by simp [State.finish]
@[simp] theorem State.finishAll_svn (s : State) (ids : List Nat) (status : Nat) : (State.finishAll s ids status).boot.svnMin = s.boot.svnMin := by simp [State.finishAll]
@[simp] theorem State.cutOff_svn (s : State) (id : Nat) : (State.cutOff s id).boot.svnMin = s.boot.svnMin := by unfold State.cutOff; (repeat' split) <;> simp
@[simp] theorem State.capacityLoss_svn (s : State) (a : Nat) : (State.capacityLoss s a).boot.svnMin = s.boot.svnMin := by simp [State.capacityLoss]
@[simp] theorem State.serviceLost_svn (s : State) (a : Nat) (back : Option Nat) : (State.serviceLost s a back).boot.svnMin = s.boot.svnMin := by unfold State.serviceLost; (repeat' split) <;> simp
@[simp] theorem State.ringSq_svn (s : State) (f q i : Nat) : (State.ringSq s f q i).boot.svnMin = s.boot.svnMin := by unfold State.ringSq; (repeat' split) <;> simp
@[simp] theorem State.ringCq_svn (s : State) (f q i : Nat) : (State.ringCq s f q i).boot.svnMin = s.boot.svnMin := by unfold State.ringCq; (repeat' split) <;> simp
@[simp] theorem State.refreshNs_svn (s : State) : (State.refreshNs s).boot.svnMin = s.boot.svnMin := by simp [State.refreshNs]
@[simp] theorem State.failCheck_svn (s : State) (f q cq sqhd : Nat) (tag : Word) (status result : Nat) : (State.failCheck s f q cq sqhd tag status result).boot.svnMin = s.boot.svnMin := by simp [State.failCheck]
@[simp] theorem State.enterLedger_svn (s : State) (f q cq sqhd : Nat) (e : Entry) : (State.enterLedger s f q cq sqhd e).boot.svnMin = s.boot.svnMin := by simp [State.enterLedger]
@[simp] theorem State.runEntry_svn (s : State) (w : CheckWait) : (State.runEntry s w).boot.svnMin = s.boot.svnMin := by unfold State.runEntry; (try dsimp only); (repeat' split) <;> simp
@[simp] theorem State.checkEntry_svn (s : State) (w : CheckWait) (before : List CheckWait) : (State.checkEntry s w before).boot.svnMin = s.boot.svnMin := by simp [State.checkEntry]
@[simp] theorem State.runWaiting_svn (s : State) : (State.runWaiting s).boot.svnMin = s.boot.svnMin := by simp [State.runWaiting]
@[simp] theorem State.recordSegs_svn (s : State) (a : Nat) : (State.recordSegs s a).boot.svnMin = s.boot.svnMin := by simp [State.recordSegs]
@[simp] theorem State.landCheck_svn (s : State) (a : Nat) : (State.landCheck s a).boot.svnMin = s.boot.svnMin := by simp [State.landCheck]
@[simp] theorem State.startExit_svn (s : State) (b g pre mile : Nat) (tok : Bool) (kind : Nat) : (State.startExit s b g pre mile tok kind).boot.svnMin = s.boot.svnMin := by simp [State.startExit]
@[simp] theorem State.freed_svn (s : State) (a : Nat) : (State.freed s a).boot.svnMin = s.boot.svnMin := by simp [State.freed]
@[simp] theorem State.slotLimited_svn (s : State) (a : Nat) (l : Bool) : (State.slotLimited s a l).boot.svnMin = s.boot.svnMin := by simp [State.slotLimited]
@[simp] theorem State.holdCmd_svn (s : State) (c : Cmd) : (State.holdCmd s c).boot.svnMin = s.boot.svnMin := by simp [State.holdCmd]
@[simp] theorem State.refuse_svn (s : State) (c : Cmd) (act : Option Nat) (power : Bool) : (State.refuse s c act power).boot.svnMin = s.boot.svnMin := by unfold State.refuse; (repeat' split) <;> simp
@[simp] theorem State.admitCmd_svn (s : State) (c : Cmd) : (State.admitCmd s c).boot.svnMin = s.boot.svnMin := by simp [State.admitCmd]
@[simp] theorem State.aim_svn (s : State) (a : Nat) (o : PlanOp) : (State.aim s a o).boot.svnMin = s.boot.svnMin := by simp [State.aim]
@[simp] theorem State.setRate_svn (s : State) (a : Nat) (o : PlanOp) : (State.setRate s a o).boot.svnMin = s.boot.svnMin := by simp [State.setRate]
@[simp] theorem State.setHeater_svn (s : State) (a : Nat) (o : PlanOp) : (State.setHeater s a o).boot.svnMin = s.boot.svnMin := by simp [State.setHeater]
@[simp] theorem State.beginOp_svn (s : State) (a : Nat) (r : PlanOp) (rest : List PlanOp) : (State.beginOp s a r rest).boot.svnMin = s.boot.svnMin := by simp [State.beginOp]
@[simp] theorem State.startOp_svn (s : State) (a : Nat) (o : PlanOp) (trial : List PlanOp) : (State.startOp s a o trial).boot.svnMin = s.boot.svnMin := by unfold State.startOp; (repeat' split) <;> simp
@[simp] theorem State.replanBay_svn (s : State) (b : Nat) : (State.replanBay s b).boot.svnMin = s.boot.svnMin := by simp [State.replanBay]
@[simp] theorem State.tryRaise_svn (s : State) (b : Nat) : (State.tryRaise s b).boot.svnMin = s.boot.svnMin := by simp [State.tryRaise]
@[simp] theorem State.dropPauses_svn (s : State) (b : Nat) : (State.dropPauses s b).boot.svnMin = s.boot.svnMin := by simp [State.dropPauses]
@[simp] theorem State.longerPause_svn (s : State) (b g : Nat) : (State.longerPause s b g).boot.svnMin = s.boot.svnMin := by simp [State.longerPause]
@[simp] theorem State.lowerAnew_svn (s : State) (b g : Nat) : (State.lowerAnew s b g).boot.svnMin = s.boot.svnMin := by simp [State.lowerAnew]
@[simp] theorem State.planLower_svn (s : State) (b g : Nat) : (State.planLower s b g).boot.svnMin = s.boot.svnMin := by simp [State.planLower]
@[simp] theorem State.tryLower_svn (s : State) (b : Nat) : (State.tryLower s b).boot.svnMin = s.boot.svnMin := by unfold State.tryLower; (try dsimp only); (repeat' split) <;> simp
@[simp] theorem State.yieldQuantum_svn (s : State) (a : Nat) : (State.yieldQuantum s a).boot.svnMin = s.boot.svnMin := by unfold State.yieldQuantum; (repeat' split) <;> simp
@[simp] theorem State.joinIn_svn (s : State) (a : Nat) : (State.joinIn s a).boot.svnMin = s.boot.svnMin := by simp [State.joinIn]
@[simp] theorem State.dispatch_svn (s : State) (a : Nat) : (State.dispatch s a).boot.svnMin = s.boot.svnMin := by unfold State.dispatch; (try dsimp only); (repeat' split) <;> simp
@[simp] theorem State.dispatchAll_svn (s : State) (as : List Nat) : (State.dispatchAll s as).boot.svnMin = s.boot.svnMin := by simp [State.dispatchAll]
@[simp] theorem State.addPoison_svn (s : State) (e : PoisonEnt) : (State.addPoison s e).boot.svnMin = s.boot.svnMin := by unfold State.addPoison; (try dsimp only); (repeat' split) <;> simp
@[simp] theorem State.poisonLine_svn (s : State) (n x : Nat) : (State.poisonLine s n x).boot.svnMin = s.boot.svnMin := by simp [State.poisonLine]
@[simp] theorem State.clearLine_svn (s : State) (x : Nat) : (State.clearLine s x).boot.svnMin = s.boot.svnMin := by simp [State.clearLine]
@[simp] theorem State.putLine_svn (s : State) (x : Nat) (bs : List Byte) : (State.putLine s x bs).boot.svnMin = s.boot.svnMin := by simp [State.putLine]
@[simp] theorem State.writeOut_svn (s : State) (e : MergeEnt) (ok : Bool) : (State.writeOut s e ok).boot.svnMin = s.boot.svnMin := by simp [State.writeOut]
@[simp] theorem State.settle_svn (s : State) (k n : Nat) : (State.settle s k n).boot.svnMin = s.boot.svnMin := by simp [State.settle]
@[simp] theorem State.mergeWrite_svn (s : State) (k : Nat) (bs : List Byte) : (State.mergeWrite s k bs).boot.svnMin = s.boot.svnMin := by unfold State.mergeWrite; (try dsimp only); (repeat' split) <;> simp
@[simp] theorem State.missOn_svn (s : State) (ch n : Nat) : (State.missOn s ch n).boot.svnMin = s.boot.svnMin := by simp [State.missOn]
@[simp] theorem State.writeBuf_svn (s : State) (c : Cmd) (off : Nat) (d : List Byte) : (State.writeBuf s c off d).boot.svnMin = s.boot.svnMin := by
  unfold State.writeBuf
  rw [foldl_fst_svn]
  intro x a; simp
@[simp] theorem State.askHost_svn (s : State) (c : Cmd) (list : Bool) (addr len : Nat) : (State.askHost s c list addr len).boot.svnMin = s.boot.svnMin := by simp [State.askHost]
@[simp] theorem State.openBuf_svn (s : State) (id : Nat) : (State.openBuf s id).boot.svnMin = s.boot.svnMin := by unfold State.openBuf; (repeat' split) <;> simp
@[simp] theorem State.readyNow_svn (s : State) (c : Cmd) : (State.readyNow s c).boot.svnMin = s.boot.svnMin := by
  unfold State.readyNow
  rw [State.foldl_svn]
  intro s a; (repeat' split) <;> simp
@[simp] theorem State.readDone_svn (s : State) (id : Nat) : (State.readDone s id).boot.svnMin = s.boot.svnMin := by unfold State.readDone; (repeat' split) <;> simp
@[simp] theorem State.deliver_svn (s : State) (c : Cmd) (lba : Nat) (x : Sector) (sends : Bool) : (State.deliver s c lba x sends).boot.svnMin = s.boot.svnMin := by simp [State.deliver]
@[simp] theorem State.freeSlot_svn (s : State) (order : Nat) : (State.freeSlot s order).boot.svnMin = s.boot.svnMin := by simp [State.freeSlot]
@[simp] theorem State.freeLanded_svn (s : State) : (State.freeLanded s).boot.svnMin = s.boot.svnMin := by simp [State.freeLanded]
@[simp] theorem State.staleRecs_svn (s : State) (n lba len : Nat) : (State.staleRecs s n lba len).boot.svnMin = s.boot.svnMin := by simp [State.staleRecs]
@[simp] theorem State.dropCached_svn (s : State) (n lba len : Nat) : (State.dropCached s n lba len).boot.svnMin = s.boot.svnMin := by simp [State.dropCached]
@[simp] theorem State.stageWrite_svn (s : State) (c : Cmd) (d : List Byte) : (State.stageWrite s c d).boot.svnMin = s.boot.svnMin := by simp [State.stageWrite]
@[simp] theorem State.persisted_svn (s : State) (x : Sector) (src : Nat) : (State.persisted s x src).boot.svnMin = s.boot.svnMin := by simp [State.persisted]
@[simp] theorem State.commitFinal_svn (s : State) (x : Sector) (src : Nat) : (State.commitFinal s x src).boot.svnMin = s.boot.svnMin := by simp [State.commitFinal]
@[simp] theorem State.recordZone_svn (s : State) (n lba : Nat) : (State.recordZone s n lba).boot.svnMin = s.boot.svnMin := by simp [State.recordZone]
@[simp] theorem State.changeZone_svn (s : State) (n lba : Nat) (g : Zone → Zone) : (State.changeZone s n lba g).boot.svnMin = s.boot.svnMin := by simp [State.changeZone]
@[simp] theorem State.advanceCom_svn (s : State) (n lba : Nat) : (State.advanceCom s n lba).boot.svnMin = s.boot.svnMin := by simp [State.advanceCom]
@[simp] theorem State.putRecords_svn (s : State) (a : Nat) (kinds : List Nat) : (State.putRecords s a kinds).boot.svnMin = s.boot.svnMin := by simp [State.putRecords]
@[simp] theorem State.flushJournal_svn (s : State) (a : Nat) : (State.flushJournal s a).boot.svnMin = s.boot.svnMin := by simp [State.flushJournal]
@[simp] theorem State.landReserve_svn (s : State) (a id : Nat) (r : List Nat × Nat) : (State.landReserve s a id r).boot.svnMin = s.boot.svnMin := by simp [State.landReserve]
@[simp] theorem State.setMedia_svn (s : State) (b v : Nat) : (State.setMedia s b v).boot.svnMin = s.boot.svnMin := by simp [State.setMedia]
@[simp] theorem State.clearNs_svn (s : State) (n : Nat) : (State.clearNs s n).boot.svnMin = s.boot.svnMin := by simp [State.clearNs]
@[simp] theorem State.actFormatted_svn (s : State) (a pct : Nat) : (State.actFormatted s a pct).boot.svnMin = s.boot.svnMin := by simp [State.actFormatted]
@[simp] theorem State.fmtCheck_svn (s : State) (id : Nat) : (State.fmtCheck s id).boot.svnMin = s.boot.svnMin := by unfold State.fmtCheck; (repeat' split) <;> simp
@[simp] theorem State.fmtUnit_svn (s : State) (a id : Nat) : (State.fmtUnit s a id).boot.svnMin = s.boot.svnMin := by simp [State.fmtUnit]
@[simp] theorem State.fmtCert_svn (s : State) (a id k : Nat) : (State.fmtCert s a id k).boot.svnMin = s.boot.svnMin := by simp [State.fmtCert]
@[simp] theorem State.purgeNs_svn (s : State) (n : Nat) : (State.purgeNs s n).boot.svnMin = s.boot.svnMin := by simp [State.purgeNs]
@[simp] theorem State.sanTo_svn (s : State) (id st : Nat) : (State.sanTo s id st).boot.svnMin = s.boot.svnMin := by simp [State.sanTo]
@[simp] theorem State.sanTick_svn (s : State) (id : Nat) : (State.sanTick s id).boot.svnMin = s.boot.svnMin := by unfold State.sanTick; (repeat' split) <;> simp
@[simp] theorem State.sanUnit_svn (s : State) (a id : Nat) : (State.sanUnit s a id).boot.svnMin = s.boot.svnMin := by simp [State.sanUnit]
@[simp] theorem State.queueSan_svn (s : State) (o : SanOp) : (State.queueSan s o).boot.svnMin = s.boot.svnMin := by simp [State.queueSan]
@[simp] theorem State.eraseKey_svn (s : State) (slot : Nat) (target : BitVec 32) : (State.eraseKey s slot target).boot.svnMin = s.boot.svnMin := by simp [State.eraseKey]
@[simp] theorem State.runCrypto_svn (s : State) (o : SanOp) : (State.runCrypto s o).boot.svnMin = s.boot.svnMin := by simp [State.runCrypto]
@[simp] theorem State.sanRejoin_svn (s : State) (b : Nat) : (State.sanRejoin s b).boot.svnMin = s.boot.svnMin := by simp [State.sanRejoin]
theorem foldl_opt_svn {α : Type} (g : Option State × Bool → α → Option State × Bool) (v : BitVec 7)
    (hg : ∀ x a, (∀ u, x.1 = some u → u.boot.svnMin = v) → ∀ u, (g x a).1 = some u → u.boot.svnMin = v) (l : List α) (x : Option State × Bool)
    (hx : ∀ u, x.1 = some u → u.boot.svnMin = v) : ∀ u, (l.foldl g x).1 = some u → u.boot.svnMin = v := by
  induction l generalizing x with
  | nil => exact hx
  | cons a t ih => exact ih _ (hg x a hx)
theorem State.tryPart_svn (s : State) (c : Cmd) (r : Nat → Nat) (a : Nat) (n : PlanOp) (b : Bool) : ∀ t, (s.tryPart c r a n b).1 = some t → t.boot.svnMin = s.boot.svnMin := by
  unfold State.tryPart
  intro t
  extract_lets bb s1 ceil q
  have hs : s1.boot.svnMin = s.boot.svnMin := by simp only [s1]; split <;> simp
  split
  · simp
  · split
    · refine foldl_opt_svn _ s.boot.svnMin ?_ _ _ (by simp) t
      intro x g hx u hu
      dsimp only at hu
      split at hu
      · exact hx u hu
      · split at hu
        · cases hu
        · split at hu
          · cases hu; simp [hs]
          · cases hu
    · dsimp only
      rw [Option.map_eq_some_iff]
      rintro ⟨p, _, rfl⟩
      simp [hs]
theorem State.tryParts_svn (c : Cmd) (u : Nat → Nat) (ops : List (Nat × PlanOp)) : ∀ (s keep : State),
    (∀ t, (s.tryParts c u ops keep).1 = .pass t → t.boot.svnMin = s.boot.svnMin) ∧ (s.tryParts c u ops keep).2.boot.svnMin = keep.boot.svnMin := by
  induction ops with
  | nil => exact fun s keep => ⟨fun t h => by (cases h; rfl), rfl⟩
  | cons x ops ih =>
    intro s keep
    obtain ⟨a, n⟩ := x
    unfold State.tryParts
    dsimp only
    split
    · rename_i s' h
      obtain ⟨h1, h2⟩ := ih (s'.slotLimited a (s.tryPart c u a n false).2) (keep.slotLimited a (s.tryPart c u a n false).2)
      refine ⟨fun t ht => ?_, by rw [h2]; simp⟩
      rw [h1 t ht, State.slotLimited_svn, State.tryPart_svn _ _ _ _ _ _ _ h]
    · exact ⟨fun t h => by (cases h), by simp⟩
@[simp] theorem State.admitOn_svn (s : State) (c : Cmd) (bytes : Nat) (ops : List (Nat × PlanOp)) (k : State → State) (hk : ∀ x0, (k x0).boot.svnMin = x0.boot.svnMin) : (State.admitOn s c bytes ops k).boot.svnMin = s.boot.svnMin := by
  unfold State.admitOn
  split
  · simp
  · split <;> rename_i h
    · have e := (State.tryParts_svn c (s.epochFor (ops.map (·.1))).1.reserve ops s s).2
      rw [h] at e
      simpa using e
    · simp [hk, (State.tryParts_svn c _ ops s s).1 _ (by rw [h])]
@[simp] theorem State.startRead_svn (s : State) (c : Cmd) (ps : List Part) : (State.startRead s c ps).boot.svnMin = s.boot.svnMin := by simp [State.startRead]
@[simp] theorem State.testRead_svn (s : State) (c : Cmd) (ps : List Part) : (State.testRead s c ps).boot.svnMin = s.boot.svnMin := by simp [State.testRead]
@[simp] theorem State.admitRead_svn (s : State) (id : Nat) : (State.admitRead s id).boot.svnMin = s.boot.svnMin := by unfold State.admitRead; (repeat' split) <;> simp
@[simp] theorem State.implicitClose_svn (s : State) (a : Nat) : (State.implicitClose s a).boot.svnMin = s.boot.svnMin := by unfold State.implicitClose; (try dsimp only); (repeat' split) <;> simp
@[simp] theorem State.zoneAdmit_svn (s : State) (c : Cmd) : (State.zoneAdmit s c).boot.svnMin = s.boot.svnMin := by simp [State.zoneAdmit]
@[simp] theorem State.admitWriteCmd_svn (s : State) (c : Cmd) : (State.admitWriteCmd s c).boot.svnMin = s.boot.svnMin := by simp [State.admitWriteCmd]
@[simp] theorem State.writeDone_svn (s : State) (c : Cmd) : (State.writeDone s c).boot.svnMin = s.boot.svnMin := by simp [State.writeDone]
@[simp] theorem State.writeFetched_svn (s : State) (id : Nat) (d : List Byte) : (State.writeFetched s id d).boot.svnMin = s.boot.svnMin := by unfold State.writeFetched; (repeat' split) <;> simp
@[simp] theorem State.copyWindow_svn (s : State) (id : Nat) : (State.copyWindow s id).boot.svnMin = s.boot.svnMin := by unfold State.copyWindow; (repeat' split) <;> simp
@[simp] theorem State.admitStaged_svn (s : State) (c : Cmd) : (State.admitStaged s c).boot.svnMin = s.boot.svnMin := by simp [State.admitStaged]
@[simp] theorem State.admitLandedConv_svn (s : State) (c : Cmd) : (State.admitLandedConv s c).boot.svnMin = s.boot.svnMin := by simp [State.admitLandedConv]
@[simp] theorem State.admitLandedZone_svn (s : State) (c : Cmd) : (State.admitLandedZone s c).boot.svnMin = s.boot.svnMin := by unfold State.admitLandedZone; (try dsimp only); (repeat' split) <;> simp
@[simp] theorem State.testStaging_svn (s : State) (c : Cmd) : (State.testStaging s c).boot.svnMin = s.boot.svnMin := by simp [State.testStaging]
@[simp] theorem State.testWrite_svn (s : State) (op : Nat) (c : Cmd) : (State.testWrite s op c).boot.svnMin = s.boot.svnMin := by unfold State.testWrite; (repeat' split) <;> simp
@[simp] theorem State.admitWrite_svn (s : State) (id op : Nat) : (State.admitWrite s id op).boot.svnMin = s.boot.svnMin := by unfold State.admitWrite; (repeat' split) <;> simp
@[simp] theorem State.admitZone_svn (s : State) (id act : Nat) (k : Cmd → State → State) (hk : ∀ x0 x1, (k x0 x1).boot.svnMin = x1.boot.svnMin) : (State.admitZone s id act k).boot.svnMin = s.boot.svnMin := by unfold State.admitZone; (try dsimp only); (repeat' split) <;> (try simp_all)
@[simp] theorem State.noteOpenCond_svn (s : State) (c : Cmd) (act : Nat) : (State.noteOpenCond s c act).boot.svnMin = s.boot.svnMin := by simp [State.noteOpenCond]
@[simp] theorem State.admitJournal_svn (s : State) (c : Cmd) (st : ZState) (wp : Nat) : (State.admitJournal s c st wp).boot.svnMin = s.boot.svnMin := by simp [State.admitJournal]
@[simp] theorem State.pushReport_svn (s : State) (id : Nat) : (State.pushReport s id).boot.svnMin = s.boot.svnMin := by unfold State.pushReport; (repeat' split) <;> simp
@[simp] theorem State.admitReport_svn (s : State) (c : Cmd) (d : List Byte) : (State.admitReport s c d).boot.svnMin = s.boot.svnMin := by simp [State.admitReport]
@[simp] theorem State.retest_svn (s : State) (id : Nat) : (State.retest s id).boot.svnMin = s.boot.svnMin := by
  have h1 : ∀ t, execZoneOpen id s = .next t → t.boot.svnMin = s.boot.svnMin := by intro t h; simp only [execZoneOpen, Host.Outcome.next.injEq] at h; subst h; (repeat' split) <;> simp
  have h2 : ∀ t, execZoneClose id s = .next t → t.boot.svnMin = s.boot.svnMin := by intro t h; simp only [execZoneClose, Host.Outcome.next.injEq] at h; subst h; (repeat' split) <;> simp
  have h3 : ∀ t, execZoneFinish id s = .next t → t.boot.svnMin = s.boot.svnMin := by intro t h; simp only [execZoneFinish, Host.Outcome.next.injEq] at h; subst h; (repeat' split) <;> simp
  have h4 : ∀ t, execZoneReset id s = .next t → t.boot.svnMin = s.boot.svnMin := by intro t h; simp only [execZoneReset, Host.Outcome.next.injEq] at h; subst h; (repeat' split) <;> simp
  have h5 : ∀ t, execZoneReport id s = .next t → t.boot.svnMin = s.boot.svnMin := by intro t h; simp only [execZoneReport, Host.Outcome.next.injEq] at h; subst h; (repeat' split) <;> simp
  have h6 : ∀ t, execFlush id s = .next t → t.boot.svnMin = s.boot.svnMin := by intro t h; simp only [execFlush, Host.Outcome.next.injEq] at h; subst h; (repeat' split) <;> simp
  have h7 : ∀ t, execRecoveryList id s = .next t → t.boot.svnMin = s.boot.svnMin := by intro t h; simp only [execRecoveryList, Host.Outcome.next.injEq] at h; subst h; (repeat' split) <;> simp
  have h8 : ∀ t, execContRead id s = .next t → t.boot.svnMin = s.boot.svnMin := by intro t h; simp only [execContRead, Host.Outcome.next.injEq] at h; subst h; (repeat' split) <;> simp
  unfold State.retest
  dsimp only
  split
  · rfl
  · split
    · rfl
    · (repeat' split) <;> first | (simp; done) | exact h1 _ (by with_reducible assumption) | exact h2 _ (by with_reducible assumption) | exact h3 _ (by with_reducible assumption) | exact h4 _ (by with_reducible assumption) | exact h5 _ (by with_reducible assumption) | exact h6 _ (by with_reducible assumption) | exact h7 _ (by with_reducible assumption) | exact h8 _ (by with_reducible assumption)
@[simp] theorem State.retestAll_svn (s : State) : (State.retestAll s).boot.svnMin = s.boot.svnMin := by simp [State.retestAll]
@[simp] theorem State.captured_svn (s : State) (id : Nat) (keys : List Nat) : (State.captured s id keys).boot.svnMin = s.boot.svnMin := by
  unfold State.captured
  split
  · rfl
  · dsimp only
    split
    all_goals
      simp
      rw [State.each_svn]
      intro s a; (repeat' split) <;> simp
@[simp] theorem State.moveBand_svn (s : State) (a band : Nat) : (State.moveBand s a band).boot.svnMin = s.boot.svnMin := by unfold State.moveBand; (try dsimp only); (repeat' split) <;> simp
@[simp] theorem State.refreshDone_svn (s : State) (a g : Nat) : (State.refreshDone s a g).boot.svnMin = s.boot.svnMin := by simp [State.refreshDone]
@[simp] theorem State.trialTurn_svn (s : State) (a h : Nat) : (State.trialTurn s a h).boot.svnMin = s.boot.svnMin := by simp [State.trialTurn]
@[simp] theorem State.grazeAdvance_svn (s : State) (a : Nat) (r : PlanOp) : (State.grazeAdvance s a r).boot.svnMin = s.boot.svnMin := by simp [State.grazeAdvance]
@[simp] theorem State.mediaEnd_svn (s : State) (a : Nat) : (State.mediaEnd s a).boot.svnMin = s.boot.svnMin := by unfold State.mediaEnd; (repeat' split) <;> simp
@[simp] theorem State.recTo_svn (s : State) (id : BitVec 16) (st : RecState) : (State.recTo s id st).boot.svnMin = s.boot.svnMin := by unfold State.recTo; (repeat' split) <;> simp
@[simp] theorem State.respondAs_svn (s : State) (k status : Nat) (bs : List Byte) : (State.respondAs s k status bs).boot.svnMin = s.boot.svnMin := by simp [State.respondAs]
@[simp] theorem State.respond_svn (s : State) (k : Nat) (bs : List Byte) : (State.respond s k bs).boot.svnMin = s.boot.svnMin := by simp [State.respond]
@[simp] theorem State.serve_svn (s : State) (r : Requester) (op : Nat) (act : Option Nat) (k : List Byte → State) (hk : ∀ x0, (k x0).boot.svnMin = s.boot.svnMin) : (State.serve s r op act k).boot.svnMin = s.boot.svnMin := by unfold State.serve; (try dsimp only); (repeat' split) <;> (try simp_all)
@[simp] theorem State.queueRefresh_svn (s : State) (a g order : Nat) : (State.queueRefresh s a g order).boot.svnMin = s.boot.svnMin := by simp [State.queueRefresh]
@[simp] theorem State.holdGroup_svn (s : State) (a g : Nat) : (State.holdGroup s a g).boot.svnMin = s.boot.svnMin := by simp [State.holdGroup]
@[simp] theorem State.checkpoint_svn (s : State) (a : Nat) : (State.checkpoint s a).boot.svnMin = s.boot.svnMin := by simp [State.checkpoint]
@[simp] theorem State.enterFormat_svn (s : State) (k : Nat) (o : FmtOp) : (State.enterFormat s k o).boot.svnMin = s.boot.svnMin := by simp [State.enterFormat]
@[simp] theorem State.refuseFormat_svn (s : State) (k reason : Nat) : (State.refuseFormat s k reason).boot.svnMin = s.boot.svnMin := by simp [State.refuseFormat]
@[simp] theorem State.queueFormat_svn (s : State) (o : FmtOp) : (State.queueFormat s o).boot.svnMin = s.boot.svnMin := by simp [State.queueFormat]
@[simp] theorem State.modSamples_svn (s : State) (a cmd key : Nat) (g : Retain → Retain) : (State.modSamples s a cmd key g).boot.svnMin = s.boot.svnMin := by simp [State.modSamples]
@[simp] theorem State.dropSamples_svn (s : State) (a cmd key : Nat) : (State.dropSamples s a cmd key).boot.svnMin = s.boot.svnMin := by simp [State.dropSamples]
@[simp] theorem State.retain_svn (s : State) (a : Nat) (e : Retain) : (State.retain s a e).boot.svnMin = s.boot.svnMin := by simp [State.retain]
@[simp] theorem State.retainSlot_svn (s : State) (a cmd key : Nat) : (State.retainSlot s a cmd key).boot.svnMin = s.boot.svnMin := by unfold State.retainSlot; (repeat' split) <;> simp
@[simp] theorem State.accumulate_svn (s : State) (a : Nat) (e : Retain) : (State.accumulate s a e).boot.svnMin = s.boot.svnMin := by unfold State.accumulate; (try dsimp only); (repeat' split) <;> simp
@[simp] theorem State.takeSlot_svn (s : State) (a : Nat) (e : Retain) : (State.takeSlot s a e).boot.svnMin = s.boot.svnMin := by unfold State.takeSlot; (try dsimp only); (repeat' split) <;> simp
@[simp] theorem State.askReplay_svn (s : State) (a : Nat) (q : FmtCmd) : (State.askReplay s a q).boot.svnMin = s.boot.svnMin := by simp [State.askReplay]
@[simp] theorem State.fillQueue_svn (s : State) (a : Nat) : (State.fillQueue s a).boot.svnMin = s.boot.svnMin := by simp [State.fillQueue]
@[simp] theorem State.stopReplays_svn (s : State) (a cmd key : Nat) : (State.stopReplays s a cmd key).boot.svnMin = s.boot.svnMin := by simp [State.stopReplays]
@[simp] theorem State.queueRewrite_svn (s : State) (a key : Nat) : (State.queueRewrite s a key).boot.svnMin = s.boot.svnMin := by simp [State.queueRewrite]
@[simp] theorem State.queueBand_svn (s : State) (a region : Nat) : (State.queueBand s a region).boot.svnMin = s.boot.svnMin := by simp [State.queueBand]
@[simp] theorem State.wantChanCal_svn (s : State) (a h : Nat) : (State.wantChanCal s a h).boot.svnMin = s.boot.svnMin := by simp [State.wantChanCal]
@[simp] theorem State.enterUnread_svn (s : State) (a key : Nat) (lost : Bool) : (State.enterUnread s a key lost).boot.svnMin = s.boot.svnMin := by simp [State.enterUnread]
@[simp] theorem State.loseSector_svn (s : State) (a key : Nat) : (State.loseSector s a key).boot.svnMin = s.boot.svnMin := by simp [State.loseSector]
@[simp] theorem State.marginal_svn (s : State) (a key rung : Nat) : (State.marginal s a key rung).boot.svnMin = s.boot.svnMin := by simp [State.marginal]
@[simp] theorem State.recSector_svn (s : State) (ref key : Nat) : (State.recSector s ref key).boot.svnMin = s.boot.svnMin := by unfold State.recSector; (repeat' split) <;> simp
@[simp] theorem State.recFail_svn (s : State) (ref : Nat) : (State.recFail s ref).boot.svnMin = s.boot.svnMin := by unfold State.recFail; (repeat' split) <;> simp
@[simp] theorem State.placeholder_svn (s : State) (a key : Nat) : (State.placeholder s a key).boot.svnMin = s.boot.svnMin := by simp [State.placeholder]
@[simp] theorem State.grazeGood_svn (s : State) (x : Attempt) : (State.grazeGood s x).boot.svnMin = s.boot.svnMin := by simp [State.grazeGood]
@[simp] theorem State.grazeLost_svn (s : State) (a order ref key : Nat) : (State.grazeLost s a order ref key).boot.svnMin = s.boot.svnMin := by simp [State.grazeLost]
@[simp] theorem State.bulkPassages_svn (s : State) (a : Nat) (c : Cmd) (key step n : Nat) : (State.bulkPassages s a c key step n).boot.svnMin = s.boot.svnMin := by simp [State.bulkPassages]
@[simp] theorem State.grazePassages_svn (s : State) (a : Nat) (e : Retain) (step n : Nat) : (State.grazePassages s a e step n).boot.svnMin = s.boot.svnMin := by simp [State.grazePassages]
@[simp] theorem State.giveUp_svn (s : State) (a : Nat) (e : Retain) : (State.giveUp s a e).boot.svnMin = s.boot.svnMin := by unfold State.giveUp; (try dsimp only); (repeat' split) <;> simp
@[simp] theorem State.startStep_svn (s : State) (a : Nat) (e : Retain) (step : Nat) : (State.startStep s a e step).boot.svnMin = s.boot.svnMin := by unfold State.startStep; (try dsimp only); (repeat' split) <;> simp
@[simp] theorem State.nextRung_svn (s : State) (a : Nat) (e : Retain) : (State.nextRung s a e).boot.svnMin = s.boot.svnMin := by unfold State.nextRung; (try dsimp only); (repeat' split) <;> simp
@[simp] theorem State.startReplays_svn (s : State) (a : Nat) (e : Retain) : (State.startReplays s a e).boot.svnMin = s.boot.svnMin := by simp [State.startReplays]
@[simp] theorem State.stopAttempts_svn (s : State) (a cmd key : Nat) : (State.stopAttempts s a cmd key).boot.svnMin = s.boot.svnMin := by simp [State.stopAttempts]
@[simp] theorem State.checkFailed_svn (s : State) (a : Nat) (e : Retain) : (State.checkFailed s a e).boot.svnMin = s.boot.svnMin := by simp [State.checkFailed]
@[simp] theorem State.afterFailure_svn (s : State) (a : Nat) (x : Attempt) : (State.afterFailure s a x).boot.svnMin = s.boot.svnMin := by simp [State.afterFailure]
@[simp] theorem State.countFraming_svn (s : State) (a : Nat) (f : Framing) : (State.countFraming s a f).boot.svnMin = s.boot.svnMin := by simp [State.countFraming]
@[simp] theorem State.eraseFor_svn (s : State) (a ps : Nat) : (State.eraseFor s a ps).boot.svnMin = s.boot.svnMin := by simp [State.eraseFor]
@[simp] theorem State.eraseSamples_svn (s : State) (a : Nat) : (State.eraseSamples s a).boot.svnMin = s.boot.svnMin := by simp [State.eraseSamples]
@[simp] theorem State.frameSector_svn (s : State) (a key : Nat) (q : FmtCmd) (sm1 sm2 : List Hit) (r0 r1 : List (BitVec 6)) : (State.frameSector s a key q sm1 sm2 r0 r1).boot.svnMin = s.boot.svnMin := by simp [State.frameSector]
@[simp] theorem State.chargeDec_svn (s : State) (cmd iters rounds : Nat) : (State.chargeDec s cmd iters rounds).boot.svnMin = s.boot.svnMin := by simp [State.chargeDec]
@[simp] theorem State.modAttempt_svn (s : State) (id : Nat) (g : Attempt → Attempt) : (State.modAttempt s id g).boot.svnMin = s.boot.svnMin := by simp [State.modAttempt]
@[simp] theorem State.freeEngine_svn (s : State) (e : Nat) : (State.freeEngine s e).boot.svnMin = s.boot.svnMin := by simp [State.freeEngine]
@[simp] theorem State.leavePool_svn (s : State) (x : Attempt) : (State.leavePool s x).boot.svnMin = s.boot.svnMin := by unfold State.leavePool; (repeat' split) <;> simp
@[simp] theorem State.endAttempt_svn (s : State) (x : Attempt) : (State.endAttempt s x).boot.svnMin = s.boot.svnMin := by simp [State.endAttempt]
@[simp] theorem State.assign_svn (s : State) (e : Nat) (x : Attempt) : (State.assign s e x).boot.svnMin = s.boot.svnMin := by simp [State.assign]
theorem serveAttempt_svn (x : State × List Nat) (a : Nat) : (serveAttempt x a).1.boot.svnMin = x.1.boot.svnMin := by
  unfold serveAttempt; dsimp only; (repeat' split) <;> simp_all
@[simp] theorem State.dispatchPool_svn (s : State) : (State.dispatchPool s).boot.svnMin = s.boot.svnMin := by
  unfold State.dispatchPool
  dsimp only
  rw [foldl_fst_svn _ serveAttempt_svn]
@[simp] theorem State.enterPool_svn (s : State) (x : Attempt) (t : Nat) : (State.enterPool s x t).boot.svnMin = s.boot.svnMin := by simp [State.enterPool]
@[simp] theorem State.stopLadder_svn (s : State) (x : Attempt) : (State.stopLadder s x).boot.svnMin = s.boot.svnMin := by simp [State.stopLadder]
@[simp] theorem State.adapt_svn (s : State) (x : Attempt) (v : TapSet) : (State.adapt s x v).boot.svnMin = s.boot.svnMin := by simp [State.adapt]
@[simp] theorem State.readySector_svn (s : State) (x : Attempt) : (State.readySector s x).boot.svnMin = s.boot.svnMin := by unfold State.readySector; (repeat' split) <;> simp
@[simp] theorem State.converged_svn (s : State) (x : Attempt) (o : DecOut) (taps : TapSet) : (State.converged s x o taps).boot.svnMin = s.boot.svnMin := by unfold State.converged; (try dsimp only); (repeat' split) <;> simp
@[simp] theorem State.roundStart_svn (s : State) (x : Attempt) (isl : Nat) : (State.roundStart s x isl).boot.svnMin = s.boot.svnMin := by simp [State.roundStart]
@[simp] theorem State.preempt_svn (s : State) (e : Nat) (x : Attempt) : (State.preempt s e x).boot.svnMin = s.boot.svnMin := by simp [State.preempt]
@[simp] theorem State.iterate_svn (s : State) (e : Nat) (x : Attempt) (zero : Bool) (o : DecOut) (taps : TapSet) : (State.iterate s e x zero o taps).boot.svnMin = s.boot.svnMin := by simp [State.iterate]
@[simp] theorem State.restartJob_svn (s : State) (e : Nat) : (State.restartJob s e).boot.svnMin = s.boot.svnMin := by unfold State.restartJob; (repeat' split) <;> simp
@[simp] theorem State.retireEngine_svn (s : State) (e st : Nat) : (State.retireEngine s e st).boot.svnMin = s.boot.svnMin := by simp [State.retireEngine]
@[simp] theorem State.leaveIsland_svn (s : State) (e : Nat) : (State.leaveIsland s e).boot.svnMin = s.boot.svnMin := by simp [State.leaveIsland]
@[simp] theorem State.failEngine_svn (s : State) (e : Nat) : (State.failEngine s e).boot.svnMin = s.boot.svnMin := by simp [State.failEngine]
@[simp] theorem State.decoderReply_svn (s : State) (k reason e : Nat) : (State.decoderReply s k reason e).boot.svnMin = s.boot.svnMin := by simp [State.decoderReply]
@[simp] theorem State.endRetest_svn (s : State) (k e : Nat) (pass : Bool) : (State.endRetest s k e pass).boot.svnMin = s.boot.svnMin := by simp [State.endRetest]
@[simp] theorem State.popFmt_svn (s : State) (a : Nat) : (State.popFmt s a).boot.svnMin = s.boot.svnMin := by simp [State.popFmt]
@[simp] theorem State.startRoutine_svn (s : State) (a : Nat) (q : FmtCmd) : (State.startRoutine s a q).boot.svnMin = s.boot.svnMin := by simp [State.startRoutine]
@[simp] theorem State.askRecord_svn (s : State) (a : Nat) : (State.askRecord s a).boot.svnMin = s.boot.svnMin := by simp [State.askRecord]
@[simp] theorem State.commitFinish_svn (s : State) (c : Cmd) : (State.commitFinish s c).boot.svnMin = s.boot.svnMin := by simp [State.commitFinish]
@[simp] theorem State.commitReset_svn (s : State) (c : Cmd) : (State.commitReset s c).boot.svnMin = s.boot.svnMin := by simp [State.commitReset]
@[simp] theorem State.zoneRecord_svn (s : State) (a : Nat) (c : Cmd) : (State.zoneRecord s a c).boot.svnMin = s.boot.svnMin := by simp [State.zoneRecord]
@[simp] theorem State.intentRecs_svn (s : State) (a : Nat) (keys : List Nat) : (State.intentRecs s a keys).boot.svnMin = s.boot.svnMin := by simp [State.intentRecs]
@[simp] theorem State.startWrite_svn (s : State) (a : Nat) (opc : Byte) : (State.startWrite s a opc).boot.svnMin = s.boot.svnMin := by unfold State.startWrite; (repeat' split) <;> simp
@[simp] theorem State.sendFrame_svn (s : State) (a : Nat) (q : FmtCmd) (key : Nat) (x : Sector) : (State.sendFrame s a q key x).boot.svnMin = s.boot.svnMin := by simp [State.sendFrame]
@[simp] theorem State.committedOf_svn (s : State) (id n lba : Nat) : (State.committedOf s id n lba).boot.svnMin = s.boot.svnMin := by unfold State.committedOf; (repeat' split) <;> simp
@[simp] theorem State.releaseSource_svn (s : State) (a key : Nat) : (State.releaseSource s a key).boot.svnMin = s.boot.svnMin := by simp [State.releaseSource]
@[simp] theorem State.commitBand_svn (s : State) (a spt : Nat) (x : Sector) (src : Nat) : (State.commitBand s a spt x src).boot.svnMin = s.boot.svnMin := by simp [State.commitBand]
@[simp] theorem State.commitLanding_svn (s : State) (a id : Nat) (w : WSlot) : (State.commitLanding s a id w).boot.svnMin = s.boot.svnMin := by unfold State.commitLanding; (repeat' split) <;> simp
@[simp] theorem State.writePoisoned_svn (s : State) (a : Nat) (q : FmtCmd) (w : WSlot) : (State.writePoisoned s a q w).boot.svnMin = s.boot.svnMin := by simp [State.writePoisoned]
@[simp] theorem State.commitKey_svn (s : State) (a : Nat) (q : FmtCmd) (key : Nat) : (State.commitKey s a q key).boot.svnMin = s.boot.svnMin := by unfold State.commitKey; (try dsimp only); (repeat' split) <;> simp
@[simp] theorem State.endWrite_svn (s : State) (a : Nat) : (State.endWrite s a).boot.svnMin = s.boot.svnMin := by simp [State.endWrite]
@[simp] theorem State.afterWrite_svn (s : State) (a id : Nat) : (State.afterWrite s a id).boot.svnMin = s.boot.svnMin := by unfold State.afterWrite; (repeat' split) <;> simp
@[simp] theorem State.splitRunning_svn (s : State) (a : Nat) (r : Routine) : (State.splitRunning s a r).boot.svnMin = s.boot.svnMin := by simp [State.splitRunning]
@[simp] theorem State.passWaymark_svn (s : State) (a : Nat) (r : Routine) (keys : List Nat) (at' : Nat × Nat) : (State.passWaymark s a r keys at').boot.svnMin = s.boot.svnMin := by unfold State.passWaymark; (try dsimp only); (repeat' split) <;> (try simp) <;> (repeat' (first | (rw [State.each_svn]) | (intro _) | split)) <;> simp_all
@[simp] theorem State.abandonAll_svn (s : State) (a : Nat) : (State.abandonAll s a).boot.svnMin = s.boot.svnMin := by unfold State.abandonAll; (repeat' split) <;> simp
@[simp] theorem State.resumeRoutine_svn (s : State) (a : Nat) (r : Routine) : (State.resumeRoutine s a r).boot.svnMin = s.boot.svnMin := by simp [State.resumeRoutine]
@[simp] theorem State.squeezeRewrite_svn (s : State) (a : Nat) (q : FmtCmd) (x : Nat) : (State.squeezeRewrite s a q x).boot.svnMin = s.boot.svnMin := by
  unfold State.squeezeRewrite
  extract_lets r k com start sec gen recs pass s1 s2
  have hp : ∀ s g, (pass s g).boot.svnMin = s.boot.svnMin := by
    intro s g
    simp only [pass, State.modFmt_svn]
    rw [State.each_svn]
    · split <;> simp
    · intro s p; split <;> simp
  have h1 : s1.boot.svnMin = s.boot.svnMin := by simp only [s1]; exact State.each_svn _ _ _ hp
  have h2 : s2.boot.svnMin = s.boot.svnMin := by simp only [s2]; simp [h1]
  split <;> simp [h2]
@[simp] theorem State.queueAssistCal_svn (s : State) (a h : Nat) : (State.queueAssistCal s a h).boot.svnMin = s.boot.svnMin := by simp [State.queueAssistCal]
@[simp] theorem State.headLost_svn (s : State) (a h : Nat) : (State.headLost s a h).boot.svnMin = s.boot.svnMin := by simp [State.headLost]
@[simp] theorem State.suspendHead_svn (s : State) (a h : Nat) : (State.suspendHead s a h).boot.svnMin = s.boot.svnMin := by simp [State.suspendHead]
@[simp] theorem State.feedbackFault_svn (s : State) (a h : Nat) : (State.feedbackFault s a h).boot.svnMin = s.boot.svnMin := by simp [State.feedbackFault]
@[simp] theorem State.roundGain_svn (s : State) (v : Int) : (s.roundGain v).2.boot.svnMin = s.boot.svnMin := by
  unfold State.roundGain; dsimp only; (repeat' split) <;> simp
@[simp] theorem State.assistLoop_svn (s : State) (a h sample : Nat) : (State.assistLoop s a h sample).boot.svnMin = s.boot.svnMin := by
  unfold State.assistLoop
  dsimp only
  split <;> simp
@[simp] theorem State.assistUse_svn (s : State) (a : Nat) (q : FmtCmd) (t energy : Nat) : (State.assistUse s a q t energy).boot.svnMin = s.boot.svnMin := by simp [State.assistUse]
@[simp] theorem State.wearCheck_svn (s : State) (a h : Nat) : (State.wearCheck s a h).boot.svnMin = s.boot.svnMin := by simp [State.wearCheck]
@[simp] theorem State.trip_svn (s : State) (spin : Bool) (i cond time : Nat) : (State.trip s spin i cond time).boot.svnMin = s.boot.svnMin := by simp [State.trip]
@[simp] theorem State.tripAct_svn (s : State) (a cond : Nat) : (State.tripAct s a cond).boot.svnMin = s.boot.svnMin := by simp [State.tripAct]
@[simp] theorem State.sampleTrc_svn (s : State) (e : Nat) (spin : Bool) (i : Nat) (val : Nat → Nat → Nat → Word) : (State.sampleTrc s e spin i val).boot.svnMin = s.boot.svnMin := by simp [State.sampleTrc]
@[simp] theorem State.countTrc_svn (s : State) (spin : Bool) (i : Nat) : (State.countTrc s spin i).boot.svnMin = s.boot.svnMin := by simp [State.countTrc]
@[simp] theorem State.raiseInhibit_svn (s : State) (a cause : Nat) (toward : Bool) : (State.raiseInhibit s a cause toward).boot.svnMin = s.boot.svnMin := by simp [State.raiseInhibit]
@[simp] theorem State.retract_svn (s : State) (a cause : Nat) : (State.retract s a cause).boot.svnMin = s.boot.svnMin := by simp [State.retract]
@[simp] theorem State.retractIdle_svn (s : State) (a : Nat) : (State.retractIdle s a).boot.svnMin = s.boot.svnMin := by simp [State.retractIdle]
@[simp] theorem State.enterRetract_svn (s : State) (a : Nat) (cause : BitVec 3) : (State.enterRetract s a cause).boot.svnMin = s.boot.svnMin := by simp [State.enterRetract]
@[simp] theorem State.enterLimp_svn (s : State) (a : Nat) : (State.enterLimp s a).boot.svnMin = s.boot.svnMin := by unfold State.enterLimp; (repeat' split) <;> simp
@[simp] theorem State.decideMig_svn (s : State) (a : Nat) (beyond : Bool) : (State.decideMig s a beyond).boot.svnMin = s.boot.svnMin := by unfold State.decideMig; (try dsimp only); (repeat' split) <;> simp
@[simp] theorem State.wantAction_svn (s : State) (b : Nat) (x : SpinAct) : (State.wantAction s b x).boot.svnMin = s.boot.svnMin := by simp [State.wantAction]
@[simp] theorem State.decideSpn_svn (s : State) (b : Nat) : (State.decideSpn s b).boot.svnMin = s.boot.svnMin := by unfold State.decideSpn; (try dsimp only); (repeat' split) <;> simp
@[simp] theorem State.placeSpindles_svn (s : State) : (State.placeSpindles s).boot.svnMin = s.boot.svnMin := by
  unfold State.placeSpindles
  rw [State.each_svn]
  intro s a; split <;> simp
@[simp] theorem State.evacuate_svn (s : State) (n : Nat) : (State.evacuate s n).boot.svnMin = s.boot.svnMin := by simp [State.evacuate]
@[simp] theorem State.retireLe_svn (s : State) (n st : Nat) : (State.retireLe s n st).boot.svnMin = s.boot.svnMin := by simp [State.retireLe]
@[simp] theorem State.predict_svn (s : State) (a : Nat) : (State.predict s a).boot.svnMin = s.boot.svnMin := by simp [State.predict]
@[simp] theorem State.overrunOf_svn (s : State) (a : Nat) : (State.overrunOf s a).boot.svnMin = s.boot.svnMin := by simp [State.overrunOf]
@[simp] theorem State.wearAt_svn (s : State) (b budget n : Nat) : (State.wearAt s b budget n).boot.svnMin = s.boot.svnMin := by simp [State.wearAt]
@[simp] theorem State.gaitHours_svn (s : State) (b : Nat) : (State.gaitHours s b).boot.svnMin = s.boot.svnMin := by simp [State.gaitHours]
@[simp] theorem State.requestLoad_svn (s : State) (a : Nat) : (State.requestLoad s a).boot.svnMin = s.boot.svnMin := by simp [State.requestLoad]
@[simp] theorem State.endPause_svn (s : State) (b : Nat) : (State.endPause s b).boot.svnMin = s.boot.svnMin := by simp [State.endPause]
@[simp] theorem State.loadsDone_svn (s : State) (b : Nat) : (State.loadsDone s b).boot.svnMin = s.boot.svnMin := by simp [State.loadsDone]
@[simp] theorem State.parked_svn (s : State) (a : Nat) : (State.parked s a).boot.svnMin = s.boot.svnMin := by simp [State.parked]
@[simp] theorem State.sendSpin_svn (s : State) (b mode tcomm step icmd : Nat) : (State.sendSpin s b mode tcomm step icmd).boot.svnMin = s.boot.svnMin := by simp [State.sendSpin]
@[simp] theorem State.startBrake_svn (s : State) (b : Nat) (short : Bool) : (State.startBrake s b short).boot.svnMin = s.boot.svnMin := by simp [State.startBrake]
@[simp] theorem State.askToken_svn (s : State) (b kind : Nat) : (State.askToken s b kind).boot.svnMin = s.boot.svnMin := by simp [State.askToken]
@[simp] theorem State.linksOff_svn (s : State) (b : Nat) : (State.linksOff s b).boot.svnMin = s.boot.svnMin := by simp [State.linksOff]
@[simp] theorem State.quarantine_svn (s : State) (b reason : Nat) : (State.quarantine s b reason).boot.svnMin = s.boot.svnMin := by simp [State.quarantine]
@[simp] theorem State.failBringUp_svn (s : State) (b reason : Nat) : (State.failBringUp s b reason).boot.svnMin = s.boot.svnMin := by simp [State.failBringUp]
@[simp] theorem State.offerSet_svn (s : State) (a : Nat) (set : Option CoeffSet) (rro : Option RroSet) : (State.offerSet s a set rro).boot.svnMin = s.boot.svnMin := by simp [State.offerSet]
@[simp] theorem State.peerReset_svn (s : State) (i : Nat) (flight : Tab Nat) : (State.peerReset s i flight).boot.svnMin = s.boot.svnMin := by simp [State.peerReset]
@[simp] theorem State.rearm_svn (s : State) (i : Nat) : (State.rearm s i).boot.svnMin = s.boot.svnMin := by simp [State.rearm]
@[simp] theorem State.segmentIn_svn (s : State) (c : Cmd) (bs : List Byte) : (State.segmentIn s c bs).boot.svnMin = s.boot.svnMin := by unfold State.segmentIn; (try dsimp only); (repeat' split) <;> simp
@[simp] theorem State.dataIn_svn (s : State) (c : Cmd) (bs : List Byte) : (State.dataIn s c bs).boot.svnMin = s.boot.svnMin := by simp [State.dataIn]
@[simp] theorem State.readFailed_svn (s : State) (id : Nat) : (State.readFailed s id).boot.svnMin = s.boot.svnMin := by simp [State.readFailed]
@[simp] theorem State.unexpected_svn (s : State) (f : Nat) : (State.unexpected s f).boot.svnMin = s.boot.svnMin := by simp [State.unexpected]
@[simp] theorem State.hostCompletion_svn (s : State) (f id : Nat) (list failed : Bool) (bs : List Byte) : (State.hostCompletion s f id list failed bs).boot.svnMin = s.boot.svnMin := by unfold State.hostCompletion; (try dsimp only); (repeat' split) <;> simp
@[simp] theorem State.postHeld_svn (s : State) (id : Nat) : (State.postHeld s id).boot.svnMin = s.boot.svnMin := by unfold State.postHeld; (repeat' split) <;> simp
@[simp] theorem State.issueAsks_svn (s : State) (c : Cmd) : (State.issueAsks s c).boot.svnMin = s.boot.svnMin := by simp [State.issueAsks]
@[simp] theorem State.resume_svn (s : State) (f : Nat) : (State.resume s f).boot.svnMin = s.boot.svnMin := by simp [State.resume]
@[simp] theorem State.bmeOff_svn (s : State) (f : Nat) : (State.bmeOff s f).boot.svnMin = s.boot.svnMin := by simp [State.bmeOff]
@[simp] theorem State.bmeOn_svn (s : State) (f : Nat) : (State.bmeOn s f).boot.svnMin = s.boot.svnMin := by simp [State.bmeOn]
@[simp] theorem State.tallyRemoved_svn (s : State) (c : Cmd) : (State.tallyRemoved s c).boot.svnMin = s.boot.svnMin := by simp [State.tallyRemoved]
@[simp] theorem State.removeCmd_svn (s : State) (c : Cmd) : (State.removeCmd s c).boot.svnMin = s.boot.svnMin := by simp [State.removeCmd]
@[simp] theorem State.removeAll_svn (s : State) (cs : List Cmd) : (State.removeAll s cs).boot.svnMin = s.boot.svnMin := by simp [State.removeAll]
@[simp] theorem State.resetQueues_svn (s : State) (f : Nat) : (State.resetQueues s f).boot.svnMin = s.boot.svnMin := by simp [State.resetQueues]
@[simp] theorem State.resetRegs_svn (s : State) (f : Nat) : (State.resetRegs s f).boot.svnMin = s.boot.svnMin := by simp [State.resetRegs]
@[simp] theorem State.resetFn_svn (s : State) (f : Nat) : (State.resetFn s f).boot.svnMin = s.boot.svnMin := by simp [State.resetFn]
@[simp] theorem State.vfsOff_svn (s : State) (f : Nat) : (State.vfsOff s f).boot.svnMin = s.boot.svnMin := by simp [State.vfsOff]
@[simp] theorem State.flr_svn (s : State) (f : Nat) : (State.flr s f).boot.svnMin = s.boot.svnMin := by simp [State.flr]
@[simp] theorem State.modHalf_svn (s : State) (p : Nat) (h : Bool) (g : Link → Link) : (State.modHalf s p h g).boot.svnMin = s.boot.svnMin := by simp [State.modHalf]
@[simp] theorem State.linkDown_svn (s : State) (p : Nat) (h : Bool) : (State.linkDown s p h).boot.svnMin = s.boot.svnMin := by simp [State.linkDown]
@[simp] theorem State.ramStore_svn (n : Nat) (s : State) (k : Nat) (bs : List Byte) : (State.ramStore n s k bs).boot.svnMin = s.boot.svnMin := by
  induction n generalizing s k bs with
  | zero => rfl
  | succ n ih =>
    unfold State.ramStore
    split
    · rfl
    · dsimp only; rw [ih]; split <;> simp
@[simp] theorem State.decodeBar2_svn (s : State) (p : Nat) (t : HeldTlp) : (State.decodeBar2 s p t).boot.svnMin = s.boot.svnMin := by simp [State.decodeBar2]
@[simp] theorem State.bar2_svn (s : State) (p : Nat) (t : HeldTlp) : (State.bar2 s p t).boot.svnMin = s.boot.svnMin := by simp [State.bar2]
@[simp] theorem State.commitWindow_svn (s : State) (p : Nat) (val : Word) : (State.commitWindow s p val).boot.svnMin = s.boot.svnMin := by simp [State.commitWindow]
@[simp] theorem State.moveSteward_svn (s : State) (p : Nat) : (State.moveSteward s p).boot.svnMin = s.boot.svnMin := by simp [State.moveSteward]
@[simp] theorem State.writeSteward_svn (s : State) (t : Nat) : (State.writeSteward s t).boot.svnMin = s.boot.svnMin := by simp [State.writeSteward]
@[simp] theorem State.predictGate_svn (s : State) (a cls : Nat) : (State.predictGate s a cls).boot.svnMin = s.boot.svnMin := by simp [State.predictGate]
@[simp] theorem State.wedgeSeen_svn (s : State) (a cls : Nat) (w : BitVec 10) : (State.wedgeSeen s a cls w).boot.svnMin = s.boot.svnMin := by simp [State.wedgeSeen]
@[simp] theorem State.skipWedge_svn (s : State) (a : Nat) : (State.skipWedge s a).boot.svnMin = s.boot.svnMin := by simp [State.skipWedge]
@[simp] theorem State.watchFrozen_svn (s : State) (a : Nat) (r : PosRec) : (State.watchFrozen s a r).boot.svnMin = s.boot.svnMin := by simp [State.watchFrozen]
@[simp] theorem State.frozen_svn (s : State) (a : Nat) : (State.frozen s a).boot.svnMin = s.boot.svnMin := by simp [State.frozen]
@[simp] theorem State.badRecord_svn (s : State) (a cls : Nat) : (State.badRecord s a cls).boot.svnMin = s.boot.svnMin := by simp [State.badRecord]
@[simp] theorem State.goodRecord_svn (s : State) (a : Nat) (r : PosRec) : (State.goodRecord s a r).boot.svnMin = s.boot.svnMin := by simp [State.goodRecord]
@[simp] theorem State.position_svn (s : State) (a : Nat) (rec : BitVec 128) : (State.position s a rec).boot.svnMin = s.boot.svnMin := by simp [State.position]
@[simp] theorem State.seekDone_svn (s : State) (a : Nat) : (State.seekDone s a).boot.svnMin = s.boot.svnMin := by simp [State.seekDone]
@[simp] theorem State.enterFollow_svn (s : State) (a : Nat) : (State.enterFollow s a).boot.svnMin = s.boot.svnMin := by simp [State.enterFollow]
@[simp] theorem State.toMode_svn (s : State) (a : Nat) (m : BitVec 3) : (State.toMode s a m).boot.svnMin = s.boot.svnMin := by simp [State.toMode]
@[simp] theorem State.loadFailed_svn (s : State) (a : Nat) : (State.loadFailed s a).boot.svnMin = s.boot.svnMin := by simp [State.loadFailed]
@[simp] theorem State.modeStep_svn (s : State) (a : Nat) (ok inWindow : Bool) : (State.modeStep s a ok inWindow).boot.svnMin = s.boot.svnMin := by simp [State.modeStep]
@[simp] theorem State.queueRunout_svn (s : State) (a h : Nat) : (State.queueRunout s a h).boot.svnMin = s.boot.svnMin := by simp [State.queueRunout]
@[simp] theorem State.runLoop_svn (s : State) (a : Nat) (o : LawOut) : (State.runLoop s a o).boot.svnMin = s.boot.svnMin := by unfold State.runLoop; (repeat' split) <;> simp
@[simp] theorem State.overrunRun_svn (s : State) (a : Nat) (o : LawOut) (budget : Nat) : (State.overrunRun s a o budget).boot.svnMin = s.boot.svnMin := by simp [State.overrunRun]
@[simp] theorem State.lineFault_svn (s : State) (a : Nat) (o : LawOut) (k : Nat) : (State.lineFault s a o k).boot.svnMin = s.boot.svnMin := by simp [State.lineFault]
@[simp] theorem State.spinOverrun_svn (s : State) (b : Nat) : (State.spinOverrun s b).boot.svnMin = s.boot.svnMin := by simp [State.spinOverrun]
@[simp] theorem State.takeMig_svn (s : State) (a : Nat) (mirrorOk : Bool) : (State.takeMig s a mirrorOk).boot.svnMin = s.boot.svnMin := by simp [State.takeMig]
@[simp] theorem State.loopReply_svn (s : State) (k reason n : Nat) : (State.loopReply s k reason n).boot.svnMin = s.boot.svnMin := by simp [State.loopReply]
@[simp] theorem State.endLeRetest_svn (s : State) (k n : Nat) (pass : Bool) : (State.endLeRetest s k n pass).boot.svnMin = s.boot.svnMin := by simp [State.endLeRetest]
@[simp] theorem State.diagWrite_svn (s : State) (f : Nat) (k : State → State) (hk : ∀ x0, (k x0).boot.svnMin = x0.boot.svnMin) : (State.diagWrite s f k).boot.svnMin = s.boot.svnMin := by unfold State.diagWrite; (try dsimp only); (repeat' split) <;> (try simp_all)
@[simp] theorem State.modPwr_svn (s : State) (g : Pwr → Pwr) : (State.modPwr s g).boot.svnMin = s.boot.svnMin := by simp [State.modPwr]
@[simp] theorem State.ceilingMoved_svn (s : State) (b : Nat) : (State.ceilingMoved s b).boot.svnMin = s.boot.svnMin := by simp [State.ceilingMoved]
@[simp] theorem State.ceilingsFrom_svn (s old : State) : (State.ceilingsFrom s old).boot.svnMin = s.boot.svnMin := by simp [State.ceilingsFrom]
@[simp] theorem State.reproject_svn (s : State) : (State.reproject s).boot.svnMin = s.boot.svnMin := by simp [State.reproject]
@[simp] theorem State.reachIdle_svn (s : State) (b : Nat) : (State.reachIdle s b).boot.svnMin = s.boot.svnMin := by simp [State.reachIdle]
@[simp] theorem State.calAtGait_svn (s : State) (b : Nat) : (State.calAtGait s b).boot.svnMin = s.boot.svnMin := by simp [State.calAtGait]
@[simp] theorem State.locked_svn (s : State) (b : Nat) : (State.locked s b).boot.svnMin = s.boot.svnMin := by simp [State.locked]
@[simp] theorem State.endWrites_svn (s : State) (b : Nat) : (State.endWrites s b).boot.svnMin = s.boot.svnMin := by simp [State.endWrites]
@[simp] theorem State.beginAlign_svn (s : State) (b : Nat) : (State.beginAlign s b).boot.svnMin = s.boot.svnMin := by simp [State.beginAlign]
@[simp] theorem State.beginSpin_svn (s : State) (b : Nat) : (State.beginSpin s b).boot.svnMin = s.boot.svnMin := by simp [State.beginSpin]
@[simp] theorem State.spinFailed_svn (s : State) (b : Nat) : (State.spinFailed s b).boot.svnMin = s.boot.svnMin := by simp [State.spinFailed]
@[simp] theorem State.startFloat_svn (s : State) (b : Nat) : (State.startFloat s b).boot.svnMin = s.boot.svnMin := by simp [State.startFloat]
@[simp] theorem State.observerLost_svn (s : State) (b : Nat) : (State.observerLost s b).boot.svnMin = s.boot.svnMin := by simp [State.observerLost]
@[simp] theorem State.atRest_svn (s : State) (b : Nat) : (State.atRest s b).boot.svnMin = s.boot.svnMin := by simp [State.atRest]
@[simp] theorem State.linkDetect_svn (s : State) (a : Nat) : (State.linkDetect s a).boot.svnMin = s.boot.svnMin := by simp [State.linkDetect]
@[simp] theorem State.faultCoast_svn (s : State) (b : Nat) : (State.faultCoast s b).boot.svnMin = s.boot.svnMin := by simp [State.faultCoast]
@[simp] theorem State.zeroCross_svn (s : State) (b : Nat) (rep : BitVec 64) : (State.zeroCross s b rep).boot.svnMin = s.boot.svnMin := by simp [State.zeroCross]
@[simp] theorem State.revolution_svn (s : State) (b n t : Nat) : (State.revolution s b n t).boot.svnMin = s.boot.svnMin := by simp [State.revolution]
@[simp] theorem State.spinReport_svn (s : State) (b : Nat) (rep : BitVec 64) : (State.spinReport s b rep).boot.svnMin = s.boot.svnMin := by simp [State.spinReport]
@[simp] theorem State.spinTick_svn (s : State) (b : Nat) : (State.spinTick s b).boot.svnMin = s.boot.svnMin := by simp [State.spinTick]
@[simp] theorem State.relocked_svn (s : State) (b : Nat) (cs : List (Nat × Nat)) : (State.relocked s b cs).boot.svnMin = s.boot.svnMin := by simp [State.relocked]
@[simp] theorem State.slowLower_svn (s : State) (b : Nat) : (State.slowLower s b).boot.svnMin = s.boot.svnMin := by simp [State.slowLower]
@[simp] theorem State.regenStops_svn (s : State) (d : Nat) : (State.regenStops s d).boot.svnMin = s.boot.svnMin := by simp [State.regenStops]
@[simp] theorem State.busCoasts_svn (s : State) (d : Nat) : (State.busCoasts s d).boot.svnMin = s.boot.svnMin := by simp [State.busCoasts]
@[simp] theorem State.coastEnds_svn (s : State) (d : Nat) : (State.coastEnds s d).boot.svnMin = s.boot.svnMin := by simp [State.coastEnds]
@[simp] theorem State.bayFault_svn (s : State) (b : Nat) : (State.bayFault s b).boot.svnMin = s.boot.svnMin := by simp [State.bayFault]
@[simp] theorem State.startBasic_svn (s : State) (a : Nat) : (State.startBasic s a).boot.svnMin = s.boot.svnMin := by simp [State.startBasic]
@[simp] theorem State.bringUp_svn (s : State) (b : Nat) : (State.bringUp s b).boot.svnMin = s.boot.svnMin := by simp [State.bringUp]
@[simp] theorem State.retarget_svn (s : State) (b g : Nat) : (State.retarget s b g).boot.svnMin = s.boot.svnMin := by simp [State.retarget]
@[simp] theorem State.wake_svn (s : State) (b : Nat) : (State.wake s b).boot.svnMin = s.boot.svnMin := by simp [State.wake]
@[simp] theorem State.grantToken_svn (s : State) (b : Nat) : (State.grantToken s b).boot.svnMin = s.boot.svnMin := by simp [State.grantToken]
@[simp] theorem State.enterPower_svn (s : State) (b : Nat) (want : BitVec 2) : (State.enterPower s b want).boot.svnMin = s.boot.svnMin := by simp [State.enterPower]
@[simp] theorem State.powerState_svn (s : State) (r : Requester) (st : Nat) (g : State → Nat → State) (hg : ∀ x0 x1, (g x0 x1).boot.svnMin = x0.boot.svnMin) : (State.powerState s r st g).boot.svnMin = s.boot.svnMin := by
  unfold State.powerState
  rw [State.serve_svn]
  intro p
  dsimp only
  (repeat' split) <;> simp [State.each_svn, hg]
@[simp] theorem State.askReset_svn (s : State) (at' action : Nat) : (State.askReset s at' action).boot.svnMin = s.boot.svnMin := by simp [State.askReset]
@[simp] theorem State.watchdogReset_svn (s : State) : (State.watchdogReset s).boot.svnMin = s.boot.svnMin := by simp [State.watchdogReset]
@[simp] theorem State.restartHerd_svn (s : State) (h : Nat) : (State.restartHerd s h).boot.svnMin = s.boot.svnMin := by simp [State.restartHerd]
@[simp] theorem State.restartCore_svn (s : State) : (State.restartCore s).boot.svnMin = s.boot.svnMin := by simp [State.restartCore]
@[simp] theorem State.writeDir_svn (s : State) (a : Nat) : (State.writeDir s a).boot.svnMin = s.boot.svnMin := by simp [State.writeDir]
@[simp] theorem State.landStaged_svn (s : State) (a : Nat) (closed : Option Nat) : (State.landStaged s a closed).boot.svnMin = s.boot.svnMin := by
  unfold State.landStaged
  split
  · rfl
  · simp
    rw [State.each_svn]
    intro s a; split <;> simp
@[simp] theorem State.replayHold_svn (s : State) (a : Nat) : (State.replayHold s a).boot.svnMin = s.boot.svnMin := by simp [State.replayHold]
@[simp] theorem State.rebuildIndex_svn (s : State) (a : Nat) : (State.rebuildIndex s a).boot.svnMin = s.boot.svnMin := by simp [State.rebuildIndex]
@[simp] theorem State.replayIntents_svn (s : State) (a : Nat) : (State.replayIntents s a).boot.svnMin = s.boot.svnMin := by unfold State.replayIntents; (try dsimp only); (repeat' split) <;> (try simp) <;> (repeat' (first | (rw [State.each_svn]) | (intro _) | split)) <;> simp_all
@[simp] theorem State.scanZone_svn (s : State) (a n lba : Nat) : (State.scanZone s a n lba).boot.svnMin = s.boot.svnMin := by unfold State.scanZone; (try dsimp only); (repeat' split) <;> (try simp) <;> (repeat' (first | (rw [State.each_svn]) | (intro _) | split)) <;> simp_all
@[simp] theorem State.replayJournal_svn (s : State) (a : Nat) : (State.replayJournal s a).boot.svnMin = s.boot.svnMin := by simp [State.replayJournal]
@[simp] theorem State.zonesTo_svn (s : State) (a h : Nat) (st : ZState) : (State.zonesTo s a h st).boot.svnMin = s.boot.svnMin := by simp [State.zonesTo]
@[simp] theorem State.halfHeads_svn (s : State) : (State.halfHeads s).boot.svnMin = s.boot.svnMin := by simp [State.halfHeads]
@[simp] theorem State.wipe_svn (s : State) (cold : Bool) : (State.wipe s cold).boot.svnMin = s.boot.svnMin := rfl
@[simp] theorem State.enterTrailhead_svn (s : State) (cause : Nat) : (State.enterTrailhead s cause).boot.svnMin = s.boot.svnMin := by simp [State.enterTrailhead]
@[simp] theorem State.beginStart_svn (s : State) (cause : Nat) : (State.beginStart s cause).boot.svnMin = s.boot.svnMin := by simp [State.beginStart]
@[simp] theorem State.failStart_svn (s : State) (cause : Nat) : (State.failStart s cause).boot.svnMin = s.boot.svnMin := by simp [State.failStart]
@[simp] theorem State.writeDev_svn (s : State) (typ : Nat) (body : List Byte) : (State.writeDev s typ body).boot.svnMin = s.boot.svnMin := by simp [State.writeDev]
@[simp] theorem State.devFall_svn (s : State) (bad : List Nat) (typ : Nat) : (State.devFall s bad typ).boot.svnMin = s.boot.svnMin := by simp [State.devFall]
@[simp] theorem State.loadTrims_svn (s : State) (bad : List Nat) : (State.loadTrims s bad).boot.svnMin = s.boot.svnMin := by unfold State.loadTrims; (try dsimp only); (repeat' split) <;> simp
@[simp] theorem State.headFinal_svn (s : State) (a h : Nat) : (State.headFinal s a h).boot.svnMin = s.boot.svnMin := by simp [State.headFinal]
@[simp] theorem State.assistPasses_svn (s : State) (a h : Nat) (o : AsstCal) : (State.assistPasses s a h o).boot.svnMin = s.boot.svnMin := by simp [State.assistPasses]
@[simp] theorem State.assistFails_svn (s : State) (a h : Nat) : (State.assistFails s a h).boot.svnMin = s.boot.svnMin := by simp [State.assistFails]
@[simp] theorem State.channelDone_svn (s : State) (a h : Nat) (o : ChanCal) : (State.channelDone s a h o).boot.svnMin = s.boot.svnMin := by simp [State.channelDone]
@[simp] theorem State.servoDone_svn (s : State) (a h : Nat) (o : ChanCal) : (State.servoDone s a h o).boot.svnMin = s.boot.svnMin := by simp [State.servoDone]
@[simp] theorem State.queueCal_svn (s : State) (a h kind : Nat) : (State.queueCal s a h kind).boot.svnMin = s.boot.svnMin := by simp [State.queueCal]
@[simp] theorem State.grazeSays_svn (s : State) (r : Requester) (reason : Nat) : (State.grazeSays s r reason).boot.svnMin = s.boot.svnMin := by simp [State.grazeSays]
@[simp] theorem State.recal_svn (s : State) (r : Requester) (kind : Nat) (g : State → Nat → Nat → State) (hg : ∀ x0 x1 x2, (g x0 x1 x2).boot.svnMin = x0.boot.svnMin) : (State.recal s r kind g).boot.svnMin = s.boot.svnMin := by unfold State.recal; (try dsimp only); (repeat' split) <;> (try simp_all)
@[simp] theorem State.refreshSpn_svn (s : State) (b : Nat) : (State.refreshSpn s b).boot.svnMin = s.boot.svnMin := by simp [State.refreshSpn]
@[simp] theorem State.loopLost_svn (s : State) (a : Nat) : (State.loopLost s a).boot.svnMin = s.boot.svnMin := by simp [State.loopLost]
@[simp] theorem State.linkLost_svn (s : State) (a : Nat) (dWorks : Bool) : (State.linkLost s a dWorks).boot.svnMin = s.boot.svnMin := by simp [State.linkLost]
@[simp] theorem State.refreshSingle_svn (s : State) (a : Nat) : (State.refreshSingle s a).boot.svnMin = s.boot.svnMin := by simp [State.refreshSingle]
@[simp] theorem State.laneFails_svn (s : State) (a : Nat) (u1 lock : Bool) : (State.laneFails s a u1 lock).boot.svnMin = s.boot.svnMin := by simp [State.laneFails]
@[simp] theorem State.telemetry_svn (s : State) (a : Nat) (e : BitVec 64) : (State.telemetry s a e).boot.svnMin = s.boot.svnMin := by unfold State.telemetry; (repeat' split) <;> simp
@[simp] theorem State.downErrors_svn (s : State) (a : Nat) (cnt : BitVec 8) : (State.downErrors s a cnt).boot.svnMin = s.boot.svnMin := by simp [State.downErrors]
@[simp] theorem State.badFrame_svn (s : State) (a : Nat) (u1 lock : Bool) : (State.badFrame s a u1 lock).boot.svnMin = s.boot.svnMin := by simp [State.badFrame]
@[simp] theorem State.bringSpin_svn (s : State) (b : Nat) : (State.bringSpin s b).boot.svnMin = s.boot.svnMin := by simp [State.bringSpin]
@[simp] theorem State.trainingOver_svn (s : State) (b : Nat) : (State.trainingOver s b).boot.svnMin = s.boot.svnMin := by simp [State.trainingOver]
@[simp] theorem State.trainFailed_svn (s : State) (a : Nat) : (State.trainFailed s a).boot.svnMin = s.boot.svnMin := by simp [State.trainFailed]
@[simp] theorem State.useDesc_svn (s : State) (b : Nat) (d : Descriptor) : (State.useDesc s b d).boot.svnMin = s.boot.svnMin := by simp [State.useDesc]
@[simp] theorem State.descEnd_svn (s : State) (a : Nat) (d : Descriptor) (late : Bool) : (State.descEnd s a d late).boot.svnMin = s.boot.svnMin := by simp [State.descEnd]
@[simp] theorem State.linkReady_svn (s : State) (a : Nat) (o : TrainOut) (k0 k1 : Bool) : (State.linkReady s a o k0 k1).boot.svnMin = s.boot.svnMin := by simp [State.linkReady]
@[simp] theorem State.settleMedia_svn (s : State) (b : Nat) : (State.settleMedia s b).boot.svnMin = s.boot.svnMin := by simp [State.settleMedia]
@[simp] theorem State.settleWaiting_svn (s : State) : (State.settleWaiting s).boot.svnMin = s.boot.svnMin := by simp [State.settleWaiting]
@[simp] theorem State.actGone_svn (s : State) (a : Nat) : (State.actGone s a).boot.svnMin = s.boot.svnMin := by simp [State.actGone]
@[simp] theorem State.absentRec_svn (s : State) (a kind : Nat) : (State.absentRec s a kind).boot.svnMin = s.boot.svnMin := by simp [State.absentRec]
@[simp] theorem State.checkRecs_svn (s : State) (a side : Nat) (c : CalData) : (State.checkRecs s a side c).boot.svnMin = s.boot.svnMin := by simp [State.checkRecs]
@[simp] theorem State.calSide_svn (s : State) (a side : Nat) (c : CalData) : (State.calSide s a side c).boot.svnMin = s.boot.svnMin := by
  unfold State.calSide
  dsimp only
  rw [State.refreshSingle_svn, State.each_svn]
  · rw [State.checkRecs_svn, State.offerSet_svn]
    (repeat' split) <;> simp
  · intro s a; split <;> (try split) <;> simp
@[simp] theorem State.markHead_svn (s : State) (a h kind : Nat) : (State.markHead s a h kind).boot.svnMin = s.boot.svnMin := by simp [State.markHead]
@[simp] theorem State.checkFails_svn (s : State) (a h kind : Nat) : (State.checkFails s a h kind).boot.svnMin = s.boot.svnMin := by simp [State.checkFails]
@[simp] theorem State.linkReply_svn (s : State) (k reason a : Nat) (data : List Byte) : (State.linkReply s k reason a data).boot.svnMin = s.boot.svnMin := by simp [State.linkReply]
@[simp] theorem State.modThm_svn (s : State) (g : Thm → Thm) : (State.modThm s g).boot.svnMin = s.boot.svnMin := by simp [State.modThm]
@[simp] theorem State.endBayFlush_svn (s : State) (b : Nat) : (State.endBayFlush s b).boot.svnMin = s.boot.svnMin := by simp [State.endBayFlush]
@[simp] theorem State.bayEmergency_svn (s : State) (b : Nat) : (State.bayEmergency s b).boot.svnMin = s.boot.svnMin := by simp [State.bayEmergency]
@[simp] theorem State.stopGrazing_svn (s : State) (a : Nat) (h : Option Nat) : (State.stopGrazing s a h).boot.svnMin = s.boot.svnMin := by simp [State.stopGrazing]
@[simp] theorem State.bayEvent_svn (s old : State) (b : Nat) : (State.bayEvent s old b).boot.svnMin = s.boot.svnMin := by simp [State.bayEvent]
@[simp] theorem State.bayStep_svn (s : State) (b : Nat) (x : Scope) (kind3 : Bool) : (State.bayStep s b x kind3).boot.svnMin = s.boot.svnMin := by simp [State.bayStep]
@[simp] theorem State.dieStep_svn (s : State) (x : Scope) : (State.dieStep s x).boot.svnMin = s.boot.svnMin := by simp [State.dieStep]
@[simp] theorem State.headStep_svn (s : State) (a h : Nat) (x : Scope) : (State.headStep s a h x).boot.svnMin = s.boot.svnMin := by simp [State.headStep]
@[simp] theorem State.thermalReply_svn (s : State) (k b : Nat) : (State.thermalReply s k b).boot.svnMin = s.boot.svnMin := by simp [State.thermalReply]
@[simp] theorem State.thermalCtrl_svn (s : State) (r : Requester) (act : Nat) (own : Nat → Nat → Nat) (k : State → Nat → Nat → State) (hk : ∀ x0 x1 x2, (k x0 x1 x2).boot.svnMin = x0.boot.svnMin) : (State.thermalCtrl s r act own k).boot.svnMin = s.boot.svnMin := by unfold State.thermalCtrl; (try dsimp only); (repeat' split) <;> (try simp_all)
@[simp] theorem State.modCache_svn (s : State) (g : CacheSt → CacheSt) : (State.modCache s g).boot.svnMin = s.boot.svnMin := by simp [State.modCache]
@[simp] theorem State.startWalk_svn (s : State) (g : Nat) : (State.startWalk s g).boot.svnMin = s.boot.svnMin := by simp [State.startWalk]
@[simp] theorem State.wantGroup_svn (s : State) (g : Nat) : (State.wantGroup s g).boot.svnMin = s.boot.svnMin := by simp [State.wantGroup]
@[simp] theorem State.disableGroup_svn (s : State) (g : Nat) : (State.disableGroup s g).boot.svnMin = s.boot.svnMin := by simp [State.disableGroup]
@[simp] theorem State.enableGroup_svn (s : State) (g : Nat) : (State.enableGroup s g).boot.svnMin = s.boot.svnMin := by simp [State.enableGroup]
@[simp] theorem State.disableCache_svn (s : State) : (State.disableCache s).boot.svnMin = s.boot.svnMin := by simp [State.disableCache]
@[simp] theorem State.enableCache_svn (s : State) : (State.enableCache s).boot.svnMin = s.boot.svnMin := by simp [State.enableCache]
@[simp] theorem State.endWalk_svn (s : State) (g : Nat) : (State.endWalk s g).boot.svnMin = s.boot.svnMin := by simp [State.endWalk]
@[simp] theorem State.faultGroup_svn (s : State) (g : Nat) : (State.faultGroup s g).boot.svnMin = s.boot.svnMin := by simp [State.faultGroup]
@[simp] theorem State.poisonSlot_svn (s : State) (order : Nat) : (State.poisonSlot s order).boot.svnMin = s.boot.svnMin := by unfold State.poisonSlot; (try dsimp only); (repeat' split) <;> simp
@[simp] theorem State.fixedNow_svn (s : State) (key : Nat) : (State.fixedNow s key).boot.svnMin = s.boot.svnMin := by simp [State.fixedNow]
@[simp] theorem State.remapLine_svn (s : State) (x : Nat) : (State.remapLine s x).boot.svnMin = s.boot.svnMin := by simp [State.remapLine]
@[simp] theorem State.softRepair_svn (s : State) (x : SoftRec) : (State.softRepair s x).boot.svnMin = s.boot.svnMin := by simp [State.softRepair]
@[simp] theorem State.poisonOutcome_svn (s : State) (u : LineUse) : (s.poisonOutcome u).boot.svnMin = s.boot.svnMin := by
  cases u <;> simp only [State.poisonOutcome] <;> (try (repeat' split)) <;> simp
@[simp] theorem State.repairOutcome_svn (s : State) (u : LineUse) : (s.repairOutcome u).boot.svnMin = s.boot.svnMin := by
  cases u <;> simp only [State.repairOutcome] <;> (try (repeat' split)) <;> simp
@[simp] theorem State.poisonAt_svn (s : State) (x : Nat) (use : LineUse) : (State.poisonAt s x use).boot.svnMin = s.boot.svnMin := by simp [State.poisonAt]
@[simp] theorem State.scrubDram_svn (s : State) (r : ScrubRead) : (State.scrubDram s r).boot.svnMin = s.boot.svnMin := by simp [State.scrubDram]
@[simp] theorem State.scrubHeld_svn (s : State) (r : ScrubRead) (l : Line) : (State.scrubHeld s r l).boot.svnMin = s.boot.svnMin := by simp [State.scrubHeld]
@[simp] theorem State.scrubSram_svn (s : State) (r : ScrubRead) : (State.scrubSram s r).boot.svnMin = s.boot.svnMin := by simp [State.scrubSram]
@[simp] theorem State.layoutReply_svn (s : State) (k reason : Nat) (g : Nat → Area) : (State.layoutReply s k reason g).boot.svnMin = s.boot.svnMin := by simp [State.layoutReply]
@[simp] theorem State.layoutSays_svn (s : State) (k reason : Nat) : (State.layoutSays s k reason).boot.svnMin = s.boot.svnMin := by simp [State.layoutSays]
@[simp] theorem State.clearPoison_svn (s : State) (e : PoisonEnt) : (State.clearPoison s e).boot.svnMin = s.boot.svnMin := by simp [State.clearPoison]
@[simp] theorem State.fwReply_svn (s : State) (k reason slot : Nat) : (State.fwReply s k reason slot).boot.svnMin = s.boot.svnMin := by simp [State.fwReply]
theorem State.refusedAction_svn (s t : State) (k op : Nat) (p : List Byte) (h : s.refusedAction k op p = some t) : t.boot.svnMin = s.boot.svnMin := by
  revert t
  unfold State.refusedAction
  dsimp only
  repeat' apply ite_some_svn
  all_goals simp
@[simp] theorem State.goMbx_svn (s : State) (k : Nat) (seq : BitVec 16) : (State.goMbx s k seq).boot.svnMin = s.boot.svnMin := by
  unfold State.goMbx
  dsimp only
  (repeat' split) <;> try simp
  cases h : State.refusedAction _ _ _ _ with
  | none => simp
  | some t => simpa using State.refusedAction_svn _ _ _ _ _ h
@[simp] theorem State.writeReqbuf_svn (s : State) (k off : Nat) (data : List Byte) : (State.writeReqbuf s k off data).boot.svnMin = s.boot.svnMin := by simp [State.writeReqbuf]
@[simp] theorem State.writeMbxReq_svn (s : State) (k : Nat) (op len : BitVec 16) : (State.writeMbxReq s k op len).boot.svnMin = s.boot.svnMin := by simp [State.writeMbxReq]
@[simp] theorem State.sqGone_svn (s : State) (k key : Nat) : (State.sqGone s k key).boot.svnMin = s.boot.svnMin := by simp [State.sqGone]
@[simp] theorem State.smbus_svn (s : State) (pec : Bool) (g : State → State) (hg : ∀ x0, (g x0).boot.svnMin = x0.boot.svnMin) : (State.smbus s pec g).boot.svnMin = s.boot.svnMin := by unfold State.smbus; (try dsimp only); (repeat' split) <;> (try simp_all)
@[simp] theorem State.unfetch_svn (s : State) (key : Nat) : (State.unfetch s key).boot.svnMin = s.boot.svnMin := by simp [State.unfetch]
@[simp] theorem State.dropSaved_svn (s : State) (i : Nat) : (State.dropSaved s i).boot.svnMin = s.boot.svnMin := by simp [State.dropSaved]
@[simp] theorem State.loseSlots_svn (s : State) (a : Nat) : (State.loseSlots s a).boot.svnMin = s.boot.svnMin := by simp [State.loseSlots]
@[simp] theorem State.islandEffect_svn (s : State) (i : Nat) : (State.islandEffect s i).boot.svnMin = s.boot.svnMin := by simp [State.islandEffect]
@[simp] theorem State.resetIsland_svn (s : State) (i : Nat) (flight : Tab Nat) : (State.resetIsland s i flight).boot.svnMin = s.boot.svnMin := by simp [State.resetIsland]
@[simp] theorem State.askIslandReset_svn (s : State) (i : Nat) (flight : Tab Nat) : (State.askIslandReset s i flight).boot.svnMin = s.boot.svnMin := by simp [State.askIslandReset]
@[simp] theorem State.modClk_svn (s : State) (g : Clk → Clk) : (State.modClk s g).boot.svnMin = s.boot.svnMin := by simp [State.modClk]
@[simp] theorem State.discipline_svn (s : State) : (State.discipline s).boot.svnMin = s.boot.svnMin := by simp [State.discipline]
@[simp] theorem State.raiseGen_svn (s : State) (slot nsid : Nat) : (State.raiseGen s slot nsid).boot.svnMin = s.boot.svnMin := by simp [State.raiseGen]
@[simp] theorem State.dropNs_svn (s : State) (n : Nat) : (State.dropNs s n).boot.svnMin = s.boot.svnMin := by simp [State.dropNs]
@[simp] theorem State.stageGrant_svn (s : State) (r : Requester) (g : Bool) : (State.stageGrant s r g).boot.svnMin = s.boot.svnMin := by simp [State.stageGrant]
@[simp] theorem State.attach_svn (s : State) (n f : Nat) (on : Bool) : (State.attach s n f on).boot.svnMin = s.boot.svnMin := by simp [State.attach]
@[simp] theorem State.serveAttach_svn (s : State) (r : Requester) (g : Bool) : (State.serveAttach s r g).boot.svnMin = s.boot.svnMin := by simp [State.serveAttach]
@[simp] theorem State.putGrant_svn (s : State) (g : StagedGrant) : (State.putGrant s g).boot.svnMin = s.boot.svnMin := by simp [State.putGrant]
@[simp] theorem State.epochApplied_svn (s : State) : (State.epochApplied s).boot.svnMin = s.boot.svnMin := by simp [State.epochApplied]
@[simp] theorem State.reweigh_svn (s : State) (a : Nat) (was now : EpochCfg) : (State.reweigh s a was now).boot.svnMin = s.boot.svnMin := by simp [State.reweigh]
@[simp] theorem State.writePortRec_svn (s : State) (r : PortRec) : (State.writePortRec s r).boot.svnMin = s.boot.svnMin := by simp [State.writePortRec]
@[simp] theorem State.tallyRing_svn (s : State) (r : Requester) (act : Nat) (g : State → Nat → List Byte → Nat × State)
    (hg : ∀ s k p, (g s k p).2.boot.svnMin = s.boot.svnMin) : (s.tallyRing r act g).boot.svnMin = s.boot.svnMin := by
  unfold State.tallyRing
  rw [State.serve_svn]
  intro p
  dsimp only
  simp
  (repeat' split) <;> simp_all
@[simp] theorem State.tallyWrite_svn (s : State) (key : Nat) (body : List Byte) : (State.tallyWrite s key body).boot.svnMin = s.boot.svnMin := by simp [State.tallyWrite]
@[simp] theorem State.modSlot_svn (s : State) (n : Nat) (g : Slot → Slot) : (State.modSlot s n g).boot.svnMin = s.boot.svnMin := by simp [State.modSlot]
@[simp] theorem State.loadLayout_svn (s : State) (bad : List Nat) : (State.loadLayout s bad).boot.svnMin = s.boot.svnMin := by unfold State.loadLayout; (repeat' split) <;> simp
@[simp] theorem State.softApply_svn (s : State) (lost : List Nat) : (State.softApply s lost).boot.svnMin = s.boot.svnMin := by simp [State.softApply]
@[simp] theorem State.replaceLe_svn (s : State) (n : Nat) : (State.replaceLe s n).boot.svnMin = s.boot.svnMin := by
  unfold State.replaceLe
  dsimp only
  rw [State.each_svn, State.each_svn]
  · simp
  · intro s a; split <;> simp
  · intro s a; split <;> simp
@[simp] theorem State.resumeFormat_svn (s : State) (o : FmtOp) : (State.resumeFormat s o).boot.svnMin = s.boot.svnMin := by simp [State.resumeFormat]
@[simp] theorem State.resumeSan_svn (s : State) (o : SanOp) : (State.resumeSan s o).boot.svnMin = s.boot.svnMin := by simp [State.resumeSan]
@[simp] theorem State.islandsUp_svn (s : State) : (State.islandsUp s).boot.svnMin = s.boot.svnMin := by simp [State.islandsUp]
@[simp] theorem State.herdsUp_svn (s : State) (img : SlotCheck) : (State.herdsUp s img).boot.svnMin = s.boot.svnMin := by simp [State.herdsUp]
@[simp] theorem State.completeStart_svn (s : State) (img : SlotCheck) (failedDe failedLe : List Nat) : (State.completeStart s img failedDe failedLe).boot.svnMin = s.boot.svnMin := by simp [State.completeStart]
@[simp] theorem State.serveReset_svn (s : State) (r : Requester) (action : Nat) : (State.serveReset s r action).boot.svnMin = s.boot.svnMin := by simp [State.serveReset]
@[simp] theorem State.writeCommand_svn (s : State) (f : Nat) (v : BitVec 64) : (State.writeCommand s f v).boot.svnMin = s.boot.svnMin := by simp [State.writeCommand]
@[simp] theorem State.writeCfg_svn (s : State) (f : Nat) (sp : RegSpace) (i : Nat) (v : BitVec 64) : (State.writeCfg s f sp i v).boot.svnMin = s.boot.svnMin := by unfold State.writeCfg; (repeat' split) <;> simp
@[simp] theorem State.serveFw_svn (s : State) (r : Requester) (act : Nat) (ok : List Byte → Bool)
    (go : State → List Byte → State × Nat) (hg : ∀ s p, (go s p).1.boot.svnMin = s.boot.svnMin) : (s.serveFw r act ok go).boot.svnMin = s.boot.svnMin := by
  unfold State.serveFw
  rw [State.serve_svn]
  intro p
  dsimp only
  (repeat' split) <;> simp_all
@[simp] theorem State.prefer_svn (s : State) (n : Nat) : (State.prefer s n).boot.svnMin = s.boot.svnMin := by simp [State.prefer]
@[simp] theorem State.placeHolds_svn (s : State) (x : Act16) (u : Nat) : (State.placeHolds s x u).boot.svnMin = s.boot.svnMin := by simp [State.placeHolds]
@[simp] theorem State.endHold_svn (s : State) (as : List Nat) : (State.endHold s as).boot.svnMin = s.boot.svnMin := by simp [State.endHold]
@[simp] theorem State.actOver_svn (s : State) (st comp : Nat) : (State.actOver s st comp).boot.svnMin = s.boot.svnMin := by simp [State.actOver]
@[simp] theorem State.actDone_svn (s : State) (x : Act16) : (State.actDone s x).boot.svnMin = s.boot.svnMin := by simp [State.actDone]
@[simp] theorem State.rollNext_svn (s : State) (x : Act16) : (State.rollNext s x).boot.svnMin = s.boot.svnMin := by unfold State.rollNext; (repeat' split) <;> simp
@[simp] theorem State.actFails_svn (s : State) (x : Act16) (type : Nat) : (State.actFails s x type).boot.svnMin = s.boot.svnMin := by simp [State.actFails]
@[simp] theorem State.goUnit_svn (s : State) (x : Act16) (u : Nat) : (State.goUnit s x u).boot.svnMin = s.boot.svnMin := by simp [State.goUnit]
@[simp] theorem State.unitDone_svn (s : State) (x : Act16) : (State.unitDone s x).boot.svnMin = s.boot.svnMin := by simp [State.unitDone]
@[simp] theorem State.endRoutine_svn (s : State) (a : Nat) : (State.endRoutine s a).boot.svnMin = s.boot.svnMin := by simp [State.endRoutine]
@[simp] theorem State.beginFlush_svn (s : State) (a : Nat) : (State.beginFlush s a).boot.svnMin = s.boot.svnMin := by simp [State.beginFlush]
@[simp] theorem State.quarReply_svn (s : State) (k reason b : Nat) : (State.quarReply s k reason b).boot.svnMin = s.boot.svnMin := by simp [State.quarReply]
@[simp] theorem State.keyReply_svn (s : State) (k reason x : Nat) (blob : List Byte) : (State.keyReply s k reason x blob).boot.svnMin = s.boot.svnMin := by simp [State.keyReply]
@[simp] theorem State.sanReply_svn (s : State) (k reason id : Nat) : (State.sanReply s k reason id).boot.svnMin = s.boot.svnMin := by simp [State.sanReply]
@[simp] theorem State.enterSanitize_svn (s : State) (kind : Nat) (ns : List Nat) : (State.enterSanitize s kind ns).boot.svnMin = s.boot.svnMin := by simp [State.enterSanitize]
@[simp] theorem State.serveSanitize_svn (s : State) (r : Requester) (kind : Nat) : (State.serveSanitize s r kind).boot.svnMin = s.boot.svnMin := by simp [State.serveSanitize]
@[simp] theorem State.afterRead_svn (s : State) (f off : Nat) : (State.afterRead s f off).boot.svnMin = s.boot.svnMin := by simp [State.afterRead]
@[simp] theorem State.read4_svn (s : State) (f off : Nat) : (s.read4 f off).2.boot.svnMin = s.boot.svnMin := by
  unfold State.read4; (repeat' split) <;> simp
@[simp] theorem State.readReg_svn (s : State) (f off : Nat) (wide : Bool) : (State.readReg s f off wide).boot.svnMin = s.boot.svnMin := by
  unfold State.readReg
  dsimp only
  split <;> simp
@[simp] theorem State.access_svn (s : State) (f off : Nat) (wide posted : Bool) (k : State → State) (hk : ∀ x0, (k x0).boot.svnMin = x0.boot.svnMin) : (State.access s f off wide posted k).boot.svnMin = s.boot.svnMin := by unfold State.access; (try dsimp only); (repeat' split) <;> (try simp_all)
@[simp] theorem State.readBar0_svn (s : State) (f off : Nat) (wide : Bool) : (State.readBar0 s f off wide).boot.svnMin = s.boot.svnMin := by simp [State.readBar0]
@[simp] theorem State.noteDebug_svn (s old : State) : (State.noteDebug s old).boot.svnMin = s.boot.svnMin := by simp [State.noteDebug]
@[simp] theorem State.writeLck_svn (s : State) (v : Word) : (State.writeLck s v).boot.svnMin = s.boot.svnMin := by simp [State.writeLck]
@[simp] theorem State.writeDbg_svn (s : State) (v : Word) : (State.writeDbg s v).boot.svnMin = s.boot.svnMin := by simp [State.writeDbg]
@[simp] theorem State.writeFwkey_svn (s : State) (v : Word) : (State.writeFwkey s v).boot.svnMin = s.boot.svnMin := by simp [State.writeFwkey]
@[simp] theorem State.clearLatch_svn (s : State) (p n : Nat) (v : Word) : (State.clearLatch s p n v).boot.svnMin = s.boot.svnMin := by simp [State.clearLatch]
@[simp] theorem State.clearFnLatch_svn (s : State) (f : Nat) (v : Word) : (State.clearFnLatch s f v).boot.svnMin = s.boot.svnMin := by simp [State.clearFnLatch]
@[simp] theorem State.modSel_svn (s : State) (p : Nat) (g : PfSel → PfSel) : (State.modSel s p g).boot.svnMin = s.boot.svnMin := by simp [State.modSel]
@[simp] theorem State.modStaged_svn (s : State) (g : EpochCfg → EpochCfg) : (State.modStaged s g).boot.svnMin = s.boot.svnMin := by simp [State.modStaged]
@[simp] theorem State.writeStaged_svn (s : State) (off : Nat) (v : Word) : (State.writeStaged s off v).boot.svnMin = s.boot.svnMin := by simp [State.writeStaged]
@[simp] theorem State.writeLcCtrl_svn (s : State) (v : Word) : (State.writeLcCtrl s v).boot.svnMin = s.boot.svnMin := by simp [State.writeLcCtrl]
@[simp] theorem State.writeClk_svn (s : State) (v : Word) : (State.writeClk s v).boot.svnMin = s.boot.svnMin := by simp [State.writeClk]
@[simp] theorem State.writePort_svn (s : State) (p off : Nat) (v : Word) : (State.writePort s p off v).boot.svnMin = s.boot.svnMin := by simp [State.writePort]
@[simp] theorem State.clearXing_svn (s : State) (p : Nat) (v : Word) : (State.clearXing s p v).boot.svnMin = s.boot.svnMin := by simp [State.clearXing]
@[simp] theorem State.writeDiag_svn (s : State) (off : Nat) (v : Word) : (State.writeDiag s off v).boot.svnMin = s.boot.svnMin := by simp [State.writeDiag]
@[simp] theorem State.writeTalHead_svn (s : State) (f k : Nat) (v : Word) : (State.writeTalHead s f k v).boot.svnMin = s.boot.svnMin := by simp [State.writeTalHead]
@[simp] theorem State.writeDb_svn (s : State) (f o : Nat) (v : Word) : (State.writeDb s f o v).boot.svnMin = s.boot.svnMin := by simp [State.writeDb]
@[simp] theorem State.writeFn_svn (s : State) (f off : Nat) (v : Word) : (State.writeFn s f off v).boot.svnMin = s.boot.svnMin := by simp [State.writeFn]
theorem State.writeOwn_svn (s t : State) (off : Nat) (v : Word) (fl : Tab Nat) (h : s.writeOwn off v fl = some t) : t.boot.svnMin = s.boot.svnMin := by
  revert t
  unfold State.writeOwn
  repeat' apply ite_some_svn
  all_goals simp
@[simp] theorem State.writePf_svn (s : State) (f off : Nat) (v : Word) (flight : Tab Nat) : (State.writePf s f off v flight).boot.svnMin = s.boot.svnMin := by
  unfold State.writePf
  dsimp only
  (repeat' split) <;> first | (simp; done) | (rename_i h _; simpa using State.writeOwn_svn _ _ _ _ _ h)
@[simp] theorem State.write4_svn (s : State) (f off : Nat) (v : Word) (flight : Tab Nat) : (State.write4 s f off v flight).boot.svnMin = s.boot.svnMin := by simp [State.write4]
@[simp] theorem State.writeReg_svn (s : State) (f off : Nat) (wide : Bool) (data : BitVec 64) (flight : Tab Nat) : (State.writeReg s f off wide data flight).boot.svnMin = s.boot.svnMin := by simp [State.writeReg]
end Sys2Proof.Machine
end

