-- ==== Sys2Proof/Laws/Time.lean ====
section
/-! SUPPORT. What leaves device time alone: one lemma per operation of the block but the tick and the discipline to PPS_IN. -/
namespace Sys2Proof.Machine
open Sys2Proof
@[simp] theorem State.ite_now (c : Prop) [Decidable c] (s t : State) : (if c then s else t).now = if c then s.now else t.now := by split <;> rfl
@[simp] theorem State.foldl_now {α : Type} (g : State → α → State) (hg : ∀ s a, (g s a).now = s.now) (l : List α) (s : State) : (l.foldl g s).now = s.now := by
  induction l generalizing s with
  | nil => rfl
  | cons a t ih => simp [ih, hg]
@[simp] theorem State.each_now {α : Type} (s : State) (l : List α) (g : State → α → State) (hg : ∀ s a, (g s a).now = s.now) : (s.each l g).now = s.now := State.foldl_now g hg l s
theorem ite_some_now {c : Prop} [Decidable c] {a b : Option State} {v : Nat} (ha : ∀ t, a = some t → t.now = v)
    (hb : ∀ t, b = some t → t.now = v) : ∀ t, (if c then a else b) = some t → t.now = v := by split <;> assumption
theorem foldl_fst_now {α β : Type} (g : State × β → α → State × β) (hg : ∀ x a, (g x a).1.now = x.1.now) (l : List α) (x : State × β) : (l.foldl g x).1.now = x.1.now := by
  induction l generalizing x with
  | nil => rfl
  | cons a t ih => simp [ih, hg]

@[simp] theorem State.sendTlp_now (s : State) (f : Nat) : (State.sendTlp s f).now = s.now := by simp [State.sendTlp]
@[simp] theorem State.raiseFns_now (s : State) (fs : List Nat) (b : Nat) : (State.raiseFns s fs b).now = s.now := by simp [State.raiseFns]
@[simp] theorem State.ignoreWrite_now (s : State) (f : Nat) : (State.ignoreWrite s f).now = s.now := by simp [State.ignoreWrite]
@[simp] theorem State.aerLog_now (s : State) (f b : Nat) (adv : Bool) (hdr : Option Nat) : (State.aerLog s f b adv hdr).now = s.now := by simp [State.aerLog]
@[simp] theorem State.refuseReq_now (s : State) (f cause : Nat) (posted : Bool) (hdr : Nat) : (State.refuseReq s f cause posted hdr).now = s.now := by unfold State.refuseReq; (repeat' split) <;> simp
@[simp] theorem State.refuseAny_now (s : State) (f cause : Nat) (posted : Bool) : (State.refuseAny s f cause posted).now = s.now := by simp [State.refuseAny]
@[simp] theorem State.bar0_now (s : State) (f : Nat) (posted : Bool) (k : State → State) (hk : ∀ x0, (k x0).now = x0.now) : (State.bar0 s f posted k).now = s.now := by unfold State.bar0; (try dsimp only); (repeat' split) <;> (try simp_all)
@[simp] theorem State.stewardWrite_now (s : State) (f : Nat) (k : State → State) (hk : ∀ x0, (k x0).now = x0.now) : (State.stewardWrite s f k).now = s.now := by unfold State.stewardWrite; (try dsimp only); (repeat' split) <;> (try simp_all)
@[simp] theorem State.charge_now (s : State) (f n : Nat) (g : Acc → Acc) : (State.charge s f n g).now = s.now := by simp [State.charge]
@[simp] theorem State.chargePoison_now (s : State) (n : Nat) : (State.chargePoison s n).now = s.now := by simp [State.chargePoison]
@[simp] theorem State.mapFns_now (s : State) (g : Nat → FnSt → FnSt) : (State.mapFns s g).now = s.now := by simp [State.mapFns]
@[simp] theorem State.mapCmds_now (s : State) (g : Cmd → Cmd) : (State.mapCmds s g).now = s.now := by simp [State.mapCmds]
@[simp] theorem State.modStage_now (s : State) (g : Staging → Staging) : (State.modStage s g).now = s.now := by simp [State.modStage]
@[simp] theorem State.mapR_now (s : State) (g : RSlot → RSlot) : (State.mapR s g).now = s.now := by simp [State.mapR]
@[simp] theorem State.mapW_now (s : State) (g : WSlot → WSlot) : (State.mapW s g).now = s.now := by simp [State.mapW]
@[simp] theorem State.mapRec_now (s : State) (g : RecEntry → RecEntry) : (State.mapRec s g).now = s.now := by simp [State.mapRec]
@[simp] theorem State.mapFmt_now (s : State) (g : FmtOp → FmtOp) : (State.mapFmt s g).now = s.now := by simp [State.mapFmt]
@[simp] theorem State.mapSan_now (s : State) (g : SanOp → SanOp) : (State.mapSan s g).now = s.now := by simp [State.mapSan]
@[simp] theorem State.modMem_now (s : State) (g : MemSt → MemSt) : (State.modMem s g).now = s.now := by simp [State.modMem]
@[simp] theorem State.modPool_now (s : State) (g : Pool → Pool) : (State.modPool s g).now = s.now := by simp [State.modPool]
@[simp] theorem State.modBoot_now (s : State) (g : Boot → Boot) : (State.modBoot s g).now = s.now := by simp [State.modBoot]
@[simp] theorem State.modCfg_now (s : State) (g : Cfg → Cfg) : (State.modCfg s g).now = s.now := by simp [State.modCfg]
@[simp] theorem State.modGlb_now (s : State) (g : Glb → Glb) : (State.modGlb s g).now = s.now := by simp [State.modGlb]
@[simp] theorem State.worn_now (s : State) (a : Nat) (gs : List Nat) : (State.worn s a gs).now = s.now := by simp [State.worn]
@[simp] theorem State.setPlan_now (s : State) (a : Nat) (q : List PlanOp) : (State.setPlan s a q).now = s.now := by simp [State.setPlan]
@[simp] theorem State.unplan_now (s : State) (a id : Nat) : (State.unplan s a id).now = s.now := by simp [State.unplan]
@[simp] theorem State.replan_now (s : State) (a : Nat) : (State.replan s a).now = s.now := by simp [State.replan]
@[simp] theorem State.replaceRead_now (s : State) : (State.replaceRead s).now = s.now := by unfold State.replaceRead; (repeat' split) <;> simp
@[simp] theorem State.pin_now (s : State) (id : Nat) (x : Sector) : (State.pin s id x).now = s.now := by simp [State.pin]
@[simp] theorem State.rewritten_now (s : State) (n lba : Nat) : (State.rewritten s n lba).now = s.now := by simp [State.rewritten]
@[simp] theorem State.writeCommitted_now (s : State) (n lba : Nat) : (State.writeCommitted s n lba).now = s.now := by simp [State.writeCommitted]
@[simp] theorem State.pruneStaged_now (s : State) : (State.pruneStaged s).now = s.now := by simp [State.pruneStaged]
@[simp] theorem State.payAssist_now (s : State) (a : Nat) (q : FmtCmd) (e : Nat) : (State.payAssist s a q e).now = s.now := by simp [State.payAssist]
@[simp] theorem State.sendAssist_now (s : State) (a h : Nat) (lvl : AssistLevel) : (State.sendAssist s a h lvl).now = s.now := by simp [State.sendAssist]
@[simp] theorem State.openGate_now (s : State) (a : Nat) (q : FmtCmd) : (State.openGate s a q).now = s.now := by simp [State.openGate]
@[simp] theorem State.closeGate_now (s : State) (a : Nat) (lvl : AssistLevel) : (State.closeGate s a lvl).now = s.now := by unfold State.closeGate; (repeat' split) <;> simp
@[simp] theorem State.crossWedge_now (s : State) (a : Nat) : (State.crossWedge s a).now = s.now := by unfold State.crossWedge; (repeat' split) <;> simp
@[simp] theorem State.cutQuantum_now (s : State) (a : Nat) (r : Routine) : (State.cutQuantum s a r).now = s.now := by simp [State.cutQuantum]
@[simp] theorem State.wantSqueeze_now (s : State) (a : Nat) (r : Routine) (c : Option FmtCmd) : (State.wantSqueeze s a r c).now = s.now := by unfold State.wantSqueeze; (repeat' split) <;> simp
@[simp] theorem State.lateInhibit_now (s : State) (a : Nat) (cause : Option Nat) (toward : Bool) : (State.lateInhibit s a cause toward).now = s.now := by unfold State.lateInhibit; (try dsimp only); (repeat' split) <;> simp
@[simp] theorem State.abandonWrite_now (s : State) (a : Nat) (cause : Option Nat) (toward : Bool) : (State.abandonWrite s a cause toward).now = s.now := by unfold State.abandonWrite; (repeat' split) <;> simp
@[simp] theorem State.putBack_now (s : State) (a : Nat) : (State.putBack s a).now = s.now := by unfold State.putBack; (repeat' split) <;> simp
@[simp] theorem State.postEntry_now (s : State) (f q : Nat) (c : Cpl) : (State.postEntry s f q c).now = s.now := by simp [State.postEntry]
@[simp] theorem State.releaseSlot_now (s : State) (f q : Nat) : (State.releaseSlot s f q).now = s.now := by simp [State.releaseSlot]
@[simp] theorem State.tallyEnd_now (s : State) (c : Cmd) (status : Nat) : (State.tallyEnd s c status).now = s.now := by simp [State.tallyEnd]
@[simp] theorem State.dropCmd_now (s : State) (id : Nat) : (State.dropCmd s id).now = s.now := by simp [State.dropCmd]
@[simp] theorem State.ackStaged_now (s : State) (id : Nat) : (State.ackStaged s id).now = s.now := by simp [State.ackStaged]
@[simp] theorem State.postCmd_now (s : State) (c : Cmd) (status result : Nat) : (State.postCmd s c status result).now = s.now := by simp [State.postCmd]
@[simp] theorem State.queueRecovery_now (s : State) (e : RecEntry) : (State.queueRecovery s e).now = s.now := by simp [State.queueRecovery]
@[simp] theorem State.dropAttempts_now (s : State) (id : Nat) : (State.dropAttempts s id).now = s.now := by simp [State.dropAttempts]
@[simp] theorem State.release_now (s : State) (c : Cmd) (ok : Bool) : (State.release s c ok).now = s.now := by simp [State.release]
@[simp] theorem State.postOrHold_now (s : State) (c : Cmd) (status result : Nat) : (State.postOrHold s c status result).now = s.now := by simp [State.postOrHold]
@[simp] theorem State.recover_now (s : State) (c : Cmd) : (s.recover c).1.now = s.now := by
  unfold State.recover; dsimp only; split <;> simp
@[simp] theorem State.endCmd_now (s : State) (id status result : Nat) : (State.endCmd s id status result).now = s.now := by unfold State.endCmd; (repeat' split) <;> simp
@[simp] theorem State.postEarly_now (s : State) : (State.postEarly s).now = s.now := by simp [State.postEarly]
@[simp] theorem State.removedFirst_now (s : State) (b : Nat) : (State.removedFirst s b).now = s.now := by simp [State.removedFirst]
@[simp] theorem State.fixStatus_now (s : State) (ids : List Nat) (status : Nat) : (State.fixStatus s ids status).now = s.now := by simp [State.fixStatus]
@[simp] theorem State.restores_now (s : State) (id w : Nat) : (State.restores s id w).now = s.now := by simp [State.restores]
@[simp] theorem State.failZoneWrite_now (s : State) (c : Cmd) : (State.failZoneWrite s c).now = s.now := by simp [State.failZoneWrite]
@[simp] theorem State.failZoneAction_now (s : State) (c : Cmd) : (State.failZoneAction s c).now = s.now := by simp [State.failZoneAction]
@[simp] theorem State.undoZone_now (s : State) (c : Cmd) : (State.undoZone s c).now = s.now := by simp [State.undoZone]
@[simp] theorem State.cutOffs_now (s : State) (c : Cmd) : (State.cutOffs s c).now = s.now := by simp [State.cutOffs]
@[simp] theorem State.endAll_now (s : State) (l : List (Nat × Nat × Nat)) : (State.endAll s l).now = s.now := by unfold State.endAll; (try dsimp only); (repeat' split) <;> (try simp) <;> (repeat' (first | (rw [State.each_now]) | (intro _) | split)) <;> simp_all
@[simp] theorem State.commitStaged_now (s : State) (c : Cmd) : (State.commitStaged s c).now = s.now := by simp [State.commitStaged]
@[simp] theorem State.drain_now (s : State) : (State.drain s).now = s.now := by unfold State.drain; (try dsimp only); (repeat' split) <;> (try simp) <;> (repeat' (first | (rw [State.each_now]) | (intro _) | split)) <;> simp_all
@[simp] theorem State.finish_now (s : State) (id status result : Nat) : (State.finish s id status result).now = s.now := by simp [State.finish]
@[simp] theorem State.finishAll_now (s : State) (ids : List Nat) (status : Nat) : (State.finishAll s ids status).now = s.now := by simp [State.finishAll]
@[simp] theorem State.cutOff_now (s : State) (id : Nat) : (State.cutOff s id).now = s.now := by unfold State.cutOff; (repeat' split) <;> simp
@[simp] theorem State.capacityLoss_now (s : State) (a : Nat) : (State.capacityLoss s a).now = s.now := by simp [State.capacityLoss]
@[simp] theorem State.serviceLost_now (s : State) (a : Nat) (back : Option Nat) : (State.serviceLost s a back).now = s.now := by unfold State.serviceLost; (repeat' split) <;> simp
@[simp] theorem State.ringSq_now (s : State) (f q i : Nat) : (State.ringSq s f q i).now = s.now := by unfold State.ringSq; (repeat' split) <;> simp
@[simp] theorem State.ringCq_now (s : State) (f q i : Nat) : (State.ringCq s f q i).now = s.now := by unfold State.ringCq; (repeat' split) <;> simp
@[simp] theorem State.refreshNs_now (s : State) : (State.refreshNs s).now = s.now := by simp [State.refreshNs]
@[simp] theorem State.failCheck_now (s : State) (f q cq sqhd : Nat) (tag : Word) (status result : Nat) : (State.failCheck s f q cq sqhd tag status result).now = s.now := by simp [State.failCheck]
@[simp] theorem State.enterLedger_now (s : State) (f q cq sqhd : Nat) (e : Entry) : (State.enterLedger s f q cq sqhd e).now = s.now := by simp [State.enterLedger]
@[simp] theorem State.runEntry_now (s : State) (w : CheckWait) : (State.runEntry s w).now = s.now := by unfold State.runEntry; (try dsimp only); (repeat' split) <;> simp
@[simp] theorem State.checkEntry_now (s : State) (w : CheckWait) (before : List CheckWait) : (State.checkEntry s w before).now = s.now := by simp [State.checkEntry]
@[simp] theorem State.runWaiting_now (s : State) : (State.runWaiting s).now = s.now := by simp [State.runWaiting]
@[simp] theorem State.recordSegs_now (s : State) (a : Nat) : (State.recordSegs s a).now = s.now := by simp [State.recordSegs]
@[simp] theorem State.landCheck_now (s : State) (a : Nat) : (State.landCheck s a).now = s.now := by simp [State.landCheck]
@[simp] theorem State.startExit_now (s : State) (b g pre mile : Nat) (tok : Bool) (kind : Nat) : (State.startExit s b g pre mile tok kind).now = s.now := by simp [State.startExit]
@[simp] theorem State.freed_now (s : State) (a : Nat) : (State.freed s a).now = s.now := by simp [State.freed]
@[simp] theorem State.slotLimited_now (s : State) (a : Nat) (l : Bool) : (State.slotLimited s a l).now = s.now := by simp [State.slotLimited]
@[simp] theorem State.holdCmd_now (s : State) (c : Cmd) : (State.holdCmd s c).now = s.now := by simp [State.holdCmd]
@[simp] theorem State.refuse_now (s : State) (c : Cmd) (act : Option Nat) (power : Bool) : (State.refuse s c act power).now = s.now := by unfold State.refuse; (repeat' split) <;> simp
@[simp] theorem State.admitCmd_now (s : State) (c : Cmd) : (State.admitCmd s c).now = s.now := by simp [State.admitCmd]
@[simp] theorem State.aim_now (s : State) (a : Nat) (o : PlanOp) : (State.aim s a o).now = s.now := by simp [State.aim]
@[simp] theorem State.setRate_now (s : State) (a : Nat) (o : PlanOp) : (State.setRate s a o).now = s.now := by simp [State.setRate]
@[simp] theorem State.setHeater_now (s : State) (a : Nat) (o : PlanOp) : (State.setHeater s a o).now = s.now := by simp [State.setHeater]
@[simp] theorem State.beginOp_now (s : State) (a : Nat) (r : PlanOp) (rest : List PlanOp) : (State.beginOp s a r rest).now = s.now := by simp [State.beginOp]
@[simp] theorem State.startOp_now (s : State) (a : Nat) (o : PlanOp) (trial : List PlanOp) : (State.startOp s a o trial).now = s.now := by unfold State.startOp; (repeat' split) <;> simp
@[simp] theorem State.replanBay_now (s : State) (b : Nat) : (State.replanBay s b).now = s.now := by simp [State.replanBay]
@[simp] theorem State.tryRaise_now (s : State) (b : Nat) : (State.tryRaise s b).now = s.now := by simp [State.tryRaise]
@[simp] theorem State.dropPauses_now (s : State) (b : Nat) : (State.dropPauses s b).now = s.now := by simp [State.dropPauses]
@[simp] theorem State.longerPause_now (s : State) (b g : Nat) : (State.longerPause s b g).now = s.now := by simp [State.longerPause]
@[simp] theorem State.lowerAnew_now (s : State) (b g : Nat) : (State.lowerAnew s b g).now = s.now := by simp [State.lowerAnew]
@[simp] theorem State.planLower_now (s : State) (b g : Nat) : (State.planLower s b g).now = s.now := by simp [State.planLower]
@[simp] theorem State.tryLower_now (s : State) (b : Nat) : (State.tryLower s b).now = s.now := by unfold State.tryLower; (try dsimp only); (repeat' split) <;> simp
@[simp] theorem State.yieldQuantum_now (s : State) (a : Nat) : (State.yieldQuantum s a).now = s.now := by unfold State.yieldQuantum; (repeat' split) <;> simp
@[simp] theorem State.joinIn_now (s : State) (a : Nat) : (State.joinIn s a).now = s.now := by simp [State.joinIn]
@[simp] theorem State.dispatch_now (s : State) (a : Nat) : (State.dispatch s a).now = s.now := by unfold State.dispatch; (try dsimp only); (repeat' split) <;> simp
@[simp] theorem State.dispatchAll_now (s : State) (as : List Nat) : (State.dispatchAll s as).now = s.now := by simp [State.dispatchAll]
@[simp] theorem State.addPoison_now (s : State) (e : PoisonEnt) : (State.addPoison s e).now = s.now := by unfold State.addPoison; (try dsimp only); (repeat' split) <;> simp
@[simp] theorem State.poisonLine_now (s : State) (n x : Nat) : (State.poisonLine s n x).now = s.now := by simp [State.poisonLine]
@[simp] theorem State.clearLine_now (s : State) (x : Nat) : (State.clearLine s x).now = s.now := by simp [State.clearLine]
@[simp] theorem State.putLine_now (s : State) (x : Nat) (bs : List Byte) : (State.putLine s x bs).now = s.now := by simp [State.putLine]
@[simp] theorem State.writeOut_now (s : State) (e : MergeEnt) (ok : Bool) : (State.writeOut s e ok).now = s.now := by simp [State.writeOut]
@[simp] theorem State.settle_now (s : State) (k n : Nat) : (State.settle s k n).now = s.now := by simp [State.settle]
@[simp] theorem State.mergeWrite_now (s : State) (k : Nat) (bs : List Byte) : (State.mergeWrite s k bs).now = s.now := by unfold State.mergeWrite; (try dsimp only); (repeat' split) <;> simp
@[simp] theorem State.missOn_now (s : State) (ch n : Nat) : (State.missOn s ch n).now = s.now := by simp [State.missOn]
@[simp] theorem State.writeBuf_now (s : State) (c : Cmd) (off : Nat) (d : List Byte) : (State.writeBuf s c off d).now = s.now := by
  unfold State.writeBuf
  rw [foldl_fst_now]
  intro x a; simp
@[simp] theorem State.askHost_now (s : State) (c : Cmd) (list : Bool) (addr len : Nat) : (State.askHost s c list addr len).now = s.now := by simp [State.askHost]
@[simp] theorem State.openBuf_now (s : State) (id : Nat) : (State.openBuf s id).now = s.now := by unfold State.openBuf; (repeat' split) <;> simp
@[simp] theorem State.readyNow_now (s : State) (c : Cmd) : (State.readyNow s c).now = s.now := by
  unfold State.readyNow
  rw [State.foldl_now]
  intro s a; (repeat' split) <;> simp
@[simp] theorem State.readDone_now (s : State) (id : Nat) : (State.readDone s id).now = s.now := by unfold State.readDone; (repeat' split) <;> simp
@[simp] theorem State.deliver_now (s : State) (c : Cmd) (lba : Nat) (x : Sector) (sends : Bool) : (State.deliver s c lba x sends).now = s.now := by simp [State.deliver]
@[simp] theorem State.freeSlot_now (s : State) (order : Nat) : (State.freeSlot s order).now = s.now := by simp [State.freeSlot]
@[simp] theorem State.freeLanded_now (s : State) : (State.freeLanded s).now = s.now := by simp [State.freeLanded]
@[simp] theorem State.staleRecs_now (s : State) (n lba len : Nat) : (State.staleRecs s n lba len).now = s.now := by simp [State.staleRecs]
@[simp] theorem State.dropCached_now (s : State) (n lba len : Nat) : (State.dropCached s n lba len).now = s.now := by simp [State.dropCached]
@[simp] theorem State.stageWrite_now (s : State) (c : Cmd) (d : List Byte) : (State.stageWrite s c d).now = s.now := by simp [State.stageWrite]
@[simp] theorem State.persisted_now (s : State) (x : Sector) (src : Nat) : (State.persisted s x src).now = s.now := by simp [State.persisted]
@[simp] theorem State.commitFinal_now (s : State) (x : Sector) (src : Nat) : (State.commitFinal s x src).now = s.now := by simp [State.commitFinal]
@[simp] theorem State.recordZone_now (s : State) (n lba : Nat) : (State.recordZone s n lba).now = s.now := by simp [State.recordZone]
@[simp] theorem State.changeZone_now (s : State) (n lba : Nat) (g : Zone → Zone) : (State.changeZone s n lba g).now = s.now := by simp [State.changeZone]
@[simp] theorem State.advanceCom_now (s : State) (n lba : Nat) : (State.advanceCom s n lba).now = s.now := by simp [State.advanceCom]
@[simp] theorem State.putRecords_now (s : State) (a : Nat) (kinds : List Nat) : (State.putRecords s a kinds).now = s.now := by simp [State.putRecords]
@[simp] theorem State.flushJournal_now (s : State) (a : Nat) : (State.flushJournal s a).now = s.now := by simp [State.flushJournal]
@[simp] theorem State.landReserve_now (s : State) (a id : Nat) (r : List Nat × Nat) : (State.landReserve s a id r).now = s.now := by simp [State.landReserve]
@[simp] theorem State.setMedia_now (s : State) (b v : Nat) : (State.setMedia s b v).now = s.now := by simp [State.setMedia]
@[simp] theorem State.clearNs_now (s : State) (n : Nat) : (State.clearNs s n).now = s.now := by simp [State.clearNs]
@[simp] theorem State.actFormatted_now (s : State) (a pct : Nat) : (State.actFormatted s a pct).now = s.now := by simp [State.actFormatted]
@[simp] theorem State.fmtCheck_now (s : State) (id : Nat) : (State.fmtCheck s id).now = s.now := by unfold State.fmtCheck; (repeat' split) <;> simp
@[simp] theorem State.fmtUnit_now (s : State) (a id : Nat) : (State.fmtUnit s a id).now = s.now := by simp [State.fmtUnit]
@[simp] theorem State.fmtCert_now (s : State) (a id k : Nat) : (State.fmtCert s a id k).now = s.now := by simp [State.fmtCert]
@[simp] theorem State.purgeNs_now (s : State) (n : Nat) : (State.purgeNs s n).now = s.now := by simp [State.purgeNs]
@[simp] theorem State.sanTo_now (s : State) (id st : Nat) : (State.sanTo s id st).now = s.now := by simp [State.sanTo]
@[simp] theorem State.sanTick_now (s : State) (id : Nat) : (State.sanTick s id).now = s.now := by unfold State.sanTick; (repeat' split) <;> simp
@[simp] theorem State.sanUnit_now (s : State) (a id : Nat) : (State.sanUnit s a id).now = s.now := by simp [State.sanUnit]
@[simp] theorem State.queueSan_now (s : State) (o : SanOp) : (State.queueSan s o).now = s.now := by simp [State.queueSan]
@[simp] theorem State.eraseKey_now (s : State) (slot : Nat) (target : BitVec 32) : (State.eraseKey s slot target).now = s.now := by simp [State.eraseKey]
@[simp] theorem State.runCrypto_now (s : State) (o : SanOp) : (State.runCrypto s o).now = s.now := by simp [State.runCrypto]
@[simp] theorem State.sanRejoin_now (s : State) (b : Nat) : (State.sanRejoin s b).now = s.now := by simp [State.sanRejoin]
theorem foldl_opt_now {α : Type} (g : Option State × Bool → α → Option State × Bool) (v : Nat)
    (hg : ∀ x a, (∀ u, x.1 = some u → u.now = v) → ∀ u, (g x a).1 = some u → u.now = v) (l : List α) (x : Option State × Bool)
    (hx : ∀ u, x.1 = some u → u.now = v) : ∀ u, (l.foldl g x).1 = some u → u.now = v := by
  induction l generalizing x with
  | nil => exact hx
  | cons a t ih => exact ih _ (hg x a hx)
theorem State.tryPart_now (s : State) (c : Cmd) (r : Nat → Nat) (a : Nat) (n : PlanOp) (b : Bool) : ∀ t, (s.tryPart c r a n b).1 = some t → t.now = s.now := by
  unfold State.tryPart
  intro t
  extract_lets bb s1 ceil q
  have hs : s1.now = s.now := by simp only [s1]; split <;> simp
  split
  · simp
  · split
    · refine foldl_opt_now _ s.now ?_ _ _ (by simp) t
      intro x g hx u hu
      dsimp only at hu
      split at hu
      · exact hx u hu
      · split at hu
        · cases hu
        · split at hu
          · cases hu; simp [hs]
          · cases hu
    · dsimp only
      rw [Option.map_eq_some_iff]
      rintro ⟨p, _, rfl⟩
      simp [hs]
theorem State.tryParts_now (c : Cmd) (u : Nat → Nat) (ops : List (Nat × PlanOp)) : ∀ (s keep : State),
    (∀ t, (s.tryParts c u ops keep).1 = .pass t → t.now = s.now) ∧ (s.tryParts c u ops keep).2.now = keep.now := by
  induction ops with
  | nil => exact fun s keep => ⟨fun t h => by (cases h; rfl), rfl⟩
  | cons x ops ih =>
    intro s keep
    obtain ⟨a, n⟩ := x
    unfold State.tryParts
    dsimp only
    split
    · rename_i s' h
      obtain ⟨h1, h2⟩ := ih (s'.slotLimited a (s.tryPart c u a n false).2) (keep.slotLimited a (s.tryPart c u a n false).2)
      refine ⟨fun t ht => ?_, by rw [h2]; simp⟩
      rw [h1 t ht, State.slotLimited_now, State.tryPart_now _ _ _ _ _ _ _ h]
    · exact ⟨fun t h => by (cases h), by simp⟩
@[simp] theorem State.admitOn_now (s : State) (c : Cmd) (bytes : Nat) (ops : List (Nat × PlanOp)) (k : State → State) (hk : ∀ x0, (k x0).now = x0.now) : (State.admitOn s c bytes ops k).now = s.now := by
  unfold State.admitOn
  split
  · simp
  · split <;> rename_i h
    · have e := (State.tryParts_now c (s.epochFor (ops.map (·.1))).1.reserve ops s s).2
      rw [h] at e
      simpa using e
    · simp [hk, (State.tryParts_now c _ ops s s).1 _ (by rw [h])]
@[simp] theorem State.startRead_now (s : State) (c : Cmd) (ps : List Part) : (State.startRead s c ps).now = s.now := by simp [State.startRead]
@[simp] theorem State.testRead_now (s : State) (c : Cmd) (ps : List Part) : (State.testRead s c ps).now = s.now := by simp [State.testRead]
@[simp] theorem State.admitRead_now (s : State) (id : Nat) : (State.admitRead s id).now = s.now := by unfold State.admitRead; (repeat' split) <;> simp
@[simp] theorem State.implicitClose_now (s : State) (a : Nat) : (State.implicitClose s a).now = s.now := by unfold State.implicitClose; (try dsimp only); (repeat' split) <;> simp
@[simp] theorem State.zoneAdmit_now (s : State) (c : Cmd) : (State.zoneAdmit s c).now = s.now := by simp [State.zoneAdmit]
@[simp] theorem State.admitWriteCmd_now (s : State) (c : Cmd) : (State.admitWriteCmd s c).now = s.now := by simp [State.admitWriteCmd]
@[simp] theorem State.writeDone_now (s : State) (c : Cmd) : (State.writeDone s c).now = s.now := by simp [State.writeDone]
@[simp] theorem State.writeFetched_now (s : State) (id : Nat) (d : List Byte) : (State.writeFetched s id d).now = s.now := by unfold State.writeFetched; (repeat' split) <;> simp
@[simp] theorem State.copyWindow_now (s : State) (id : Nat) : (State.copyWindow s id).now = s.now := by unfold State.copyWindow; (repeat' split) <;> simp
@[simp] theorem State.admitStaged_now (s : State) (c : Cmd) : (State.admitStaged s c).now = s.now := by simp [State.admitStaged]
@[simp] theorem State.admitLandedConv_now (s : State) (c : Cmd) : (State.admitLandedConv s c).now = s.now := by simp [State.admitLandedConv]
@[simp] theorem State.admitLandedZone_now (s : State) (c : Cmd) : (State.admitLandedZone s c).now = s.now := by unfold State.admitLandedZone; (try dsimp only); (repeat' split) <;> simp
@[simp] theorem State.testStaging_now (s : State) (c : Cmd) : (State.testStaging s c).now = s.now := by simp [State.testStaging]
@[simp] theorem State.testWrite_now (s : State) (op : Nat) (c : Cmd) : (State.testWrite s op c).now = s.now := by unfold State.testWrite; (repeat' split) <;> simp
@[simp] theorem State.admitWrite_now (s : State) (id op : Nat) : (State.admitWrite s id op).now = s.now := by unfold State.admitWrite; (repeat' split) <;> simp
@[simp] theorem State.admitZone_now (s : State) (id act : Nat) (k : Cmd → State → State) (hk : ∀ x0 x1, (k x0 x1).now = x1.now) : (State.admitZone s id act k).now = s.now := by unfold State.admitZone; (try dsimp only); (repeat' split) <;> (try simp_all)
@[simp] theorem State.noteOpenCond_now (s : State) (c : Cmd) (act : Nat) : (State.noteOpenCond s c act).now = s.now := by simp [State.noteOpenCond]
@[simp] theorem State.admitJournal_now (s : State) (c : Cmd) (st : ZState) (wp : Nat) : (State.admitJournal s c st wp).now = s.now := by simp [State.admitJournal]
@[simp] theorem State.pushReport_now (s : State) (id : Nat) : (State.pushReport s id).now = s.now := by unfold State.pushReport; (repeat' split) <;> simp
@[simp] theorem State.admitReport_now (s : State) (c : Cmd) (d : List Byte) : (State.admitReport s c d).now = s.now := by simp [State.admitReport]
@[simp] theorem State.retest_now (s : State) (id : Nat) : (State.retest s id).now = s.now := by
  have h1 : ∀ t, execZoneOpen id s = .next t → t.now = s.now := by intro t h; simp only [execZoneOpen, Host.Outcome.next.injEq] at h; subst h; (repeat' split) <;> simp
  have h2 : ∀ t, execZoneClose id s = .next t → t.now = s.now := by intro t h; simp only [execZoneClose, Host.Outcome.next.injEq] at h; subst h; (repeat' split) <;> simp
  have h3 : ∀ t, execZoneFinish id s = .next t → t.now = s.now := by intro t h; simp only [execZoneFinish, Host.Outcome.next.injEq] at h; subst h; (repeat' split) <;> simp
  have h4 : ∀ t, execZoneReset id s = .next t → t.now = s.now := by intro t h; simp only [execZoneReset, Host.Outcome.next.injEq] at h; subst h; (repeat' split) <;> simp
  have h5 : ∀ t, execZoneReport id s = .next t → t.now = s.now := by intro t h; simp only [execZoneReport, Host.Outcome.next.injEq] at h; subst h; (repeat' split) <;> simp
  have h6 : ∀ t, execFlush id s = .next t → t.now = s.now := by intro t h; simp only [execFlush, Host.Outcome.next.injEq] at h; subst h; (repeat' split) <;> simp
  have h7 : ∀ t, execRecoveryList id s = .next t → t.now = s.now := by intro t h; simp only [execRecoveryList, Host.Outcome.next.injEq] at h; subst h; (repeat' split) <;> simp
  have h8 : ∀ t, execContRead id s = .next t → t.now = s.now := by intro t h; simp only [execContRead, Host.Outcome.next.injEq] at h; subst h; (repeat' split) <;> simp
  unfold State.retest
  dsimp only
  split
  · rfl
  · split
    · rfl
    · (repeat' split) <;> first | (simp; done) | exact h1 _ (by with_reducible assumption) | exact h2 _ (by with_reducible assumption) | exact h3 _ (by with_reducible assumption) | exact h4 _ (by with_reducible assumption) | exact h5 _ (by with_reducible assumption) | exact h6 _ (by with_reducible assumption) | exact h7 _ (by with_reducible assumption) | exact h8 _ (by with_reducible assumption)
@[simp] theorem State.retestAll_now (s : State) : (State.retestAll s).now = s.now := by simp [State.retestAll]
@[simp] theorem State.captured_now (s : State) (id : Nat) (keys : List Nat) : (State.captured s id keys).now = s.now := by
  unfold State.captured
  split
  · rfl
  · dsimp only
    split
    all_goals
      simp
      rw [State.each_now]
      intro s a; (repeat' split) <;> simp
@[simp] theorem State.moveBand_now (s : State) (a band : Nat) : (State.moveBand s a band).now = s.now := by unfold State.moveBand; (try dsimp only); (repeat' split) <;> simp
@[simp] theorem State.refreshDone_now (s : State) (a g : Nat) : (State.refreshDone s a g).now = s.now := by simp [State.refreshDone]
@[simp] theorem State.trialTurn_now (s : State) (a h : Nat) : (State.trialTurn s a h).now = s.now := by simp [State.trialTurn]
@[simp] theorem State.grazeAdvance_now (s : State) (a : Nat) (r : PlanOp) : (State.grazeAdvance s a r).now = s.now := by simp [State.grazeAdvance]
@[simp] theorem State.mediaEnd_now (s : State) (a : Nat) : (State.mediaEnd s a).now = s.now := by unfold State.mediaEnd; (repeat' split) <;> simp
@[simp] theorem State.recTo_now (s : State) (id : BitVec 16) (st : RecState) : (State.recTo s id st).now = s.now := by unfold State.recTo; (repeat' split) <;> simp
@[simp] theorem State.serve_now (s : State) (r : Requester) (op : Nat) (act : Option Nat) (k : List Byte → State) (hk : ∀ x0, (k x0).now = s.now) : (State.serve s r op act k).now = s.now := by unfold State.serve; (try dsimp only); (repeat' split) <;> (try simp_all)
@[simp] theorem State.queueRefresh_now (s : State) (a g order : Nat) : (State.queueRefresh s a g order).now = s.now := by simp [State.queueRefresh]
@[simp] theorem State.holdGroup_now (s : State) (a g : Nat) : (State.holdGroup s a g).now = s.now := by simp [State.holdGroup]
@[simp] theorem State.checkpoint_now (s : State) (a : Nat) : (State.checkpoint s a).now = s.now := by simp [State.checkpoint]
@[simp] theorem State.enterFormat_now (s : State) (k : Nat) (o : FmtOp) : (State.enterFormat s k o).now = s.now := by simp [State.enterFormat]
@[simp] theorem State.refuseFormat_now (s : State) (k reason : Nat) : (State.refuseFormat s k reason).now = s.now := by simp [State.refuseFormat]
@[simp] theorem State.queueFormat_now (s : State) (o : FmtOp) : (State.queueFormat s o).now = s.now := by simp [State.queueFormat]
@[simp] theorem State.modSamples_now (s : State) (a cmd key : Nat) (g : Retain → Retain) : (State.modSamples s a cmd key g).now = s.now := by simp [State.modSamples]
@[simp] theorem State.dropSamples_now (s : State) (a cmd key : Nat) : (State.dropSamples s a cmd key).now = s.now := by simp [State.dropSamples]
@[simp] theorem State.retain_now (s : State) (a : Nat) (e : Retain) : (State.retain s a e).now = s.now := by simp [State.retain]
@[simp] theorem State.retainSlot_now (s : State) (a cmd key : Nat) : (State.retainSlot s a cmd key).now = s.now := by unfold State.retainSlot; (repeat' split) <;> simp
@[simp] theorem State.accumulate_now (s : State) (a : Nat) (e : Retain) : (State.accumulate s a e).now = s.now := by unfold State.accumulate; (try dsimp only); (repeat' split) <;> simp
@[simp] theorem State.takeSlot_now (s : State) (a : Nat) (e : Retain) : (State.takeSlot s a e).now = s.now := by unfold State.takeSlot; (try dsimp only); (repeat' split) <;> simp
@[simp] theorem State.askReplay_now (s : State) (a : Nat) (q : FmtCmd) : (State.askReplay s a q).now = s.now := by simp [State.askReplay]
@[simp] theorem State.fillQueue_now (s : State) (a : Nat) : (State.fillQueue s a).now = s.now := by simp [State.fillQueue]
@[simp] theorem State.stopReplays_now (s : State) (a cmd key : Nat) : (State.stopReplays s a cmd key).now = s.now := by simp [State.stopReplays]
@[simp] theorem State.queueRewrite_now (s : State) (a key : Nat) : (State.queueRewrite s a key).now = s.now := by simp [State.queueRewrite]
@[simp] theorem State.queueBand_now (s : State) (a region : Nat) : (State.queueBand s a region).now = s.now := by simp [State.queueBand]
@[simp] theorem State.wantChanCal_now (s : State) (a h : Nat) : (State.wantChanCal s a h).now = s.now := by simp [State.wantChanCal]
@[simp] theorem State.enterUnread_now (s : State) (a key : Nat) (lost : Bool) : (State.enterUnread s a key lost).now = s.now := by simp [State.enterUnread]
@[simp] theorem State.loseSector_now (s : State) (a key : Nat) : (State.loseSector s a key).now = s.now := by simp [State.loseSector]
@[simp] theorem State.marginal_now (s : State) (a key rung : Nat) : (State.marginal s a key rung).now = s.now := by simp [State.marginal]
@[simp] theorem State.recSector_now (s : State) (ref key : Nat) : (State.recSector s ref key).now = s.now := by unfold State.recSector; (repeat' split) <;> simp
@[simp] theorem State.recFail_now (s : State) (ref : Nat) : (State.recFail s ref).now = s.now := by unfold State.recFail; (repeat' split) <;> simp
@[simp] theorem State.placeholder_now (s : State) (a key : Nat) : (State.placeholder s a key).now = s.now := by simp [State.placeholder]
@[simp] theorem State.grazeGood_now (s : State) (x : Attempt) : (State.grazeGood s x).now = s.now := by simp [State.grazeGood]
@[simp] theorem State.grazeLost_now (s : State) (a order ref key : Nat) : (State.grazeLost s a order ref key).now = s.now := by simp [State.grazeLost]
@[simp] theorem State.bulkPassages_now (s : State) (a : Nat) (c : Cmd) (key step n : Nat) : (State.bulkPassages s a c key step n).now = s.now := by simp [State.bulkPassages]
@[simp] theorem State.grazePassages_now (s : State) (a : Nat) (e : Retain) (step n : Nat) : (State.grazePassages s a e step n).now = s.now := by simp [State.grazePassages]
@[simp] theorem State.giveUp_now (s : State) (a : Nat) (e : Retain) : (State.giveUp s a e).now = s.now := by unfold State.giveUp; (try dsimp only); (repeat' split) <;> simp
@[simp] theorem State.startStep_now (s : State) (a : Nat) (e : Retain) (step : Nat) : (State.startStep s a e step).now = s.now := by unfold State.startStep; (try dsimp only); (repeat' split) <;> simp
@[simp] theorem State.nextRung_now (s : State) (a : Nat) (e : Retain) : (State.nextRung s a e).now = s.now := by unfold State.nextRung; (try dsimp only); (repeat' split) <;> simp
@[simp] theorem State.startReplays_now (s : State) (a : Nat) (e : Retain) : (State.startReplays s a e).now = s.now := by simp [State.startReplays]
@[simp] theorem State.stopAttempts_now (s : State) (a cmd key : Nat) : (State.stopAttempts s a cmd key).now = s.now := by simp [State.stopAttempts]
@[simp] theorem State.checkFailed_now (s : State) (a : Nat) (e : Retain) : (State.checkFailed s a e).now = s.now := by simp [State.checkFailed]
@[simp] theorem State.afterFailure_now (s : State) (a : Nat) (x : Attempt) : (State.afterFailure s a x).now = s.now := by simp [State.afterFailure]
@[simp] theorem State.countFraming_now (s : State) (a : Nat) (f : Framing) : (State.countFraming s a f).now = s.now := by simp [State.countFraming]
@[simp] theorem State.eraseFor_now (s : State) (a ps : Nat) : (State.eraseFor s a ps).now = s.now := by simp [State.eraseFor]
@[simp] theorem State.eraseSamples_now (s : State) (a : Nat) : (State.eraseSamples s a).now = s.now := by simp [State.eraseSamples]
@[simp] theorem State.frameSector_now (s : State) (a key : Nat) (q : FmtCmd) (sm1 sm2 : List Hit) (r0 r1 : List (BitVec 6)) : (State.frameSector s a key q sm1 sm2 r0 r1).now = s.now := by simp [State.frameSector]
@[simp] theorem State.chargeDec_now (s : State) (cmd iters rounds : Nat) : (State.chargeDec s cmd iters rounds).now = s.now := by simp [State.chargeDec]
@[simp] theorem State.modAttempt_now (s : State) (id : Nat) (g : Attempt → Attempt) : (State.modAttempt s id g).now = s.now := by simp [State.modAttempt]
@[simp] theorem State.freeEngine_now (s : State) (e : Nat) : (State.freeEngine s e).now = s.now := by simp [State.freeEngine]
@[simp] theorem State.leavePool_now (s : State) (x : Attempt) : (State.leavePool s x).now = s.now := by unfold State.leavePool; (repeat' split) <;> simp
@[simp] theorem State.endAttempt_now (s : State) (x : Attempt) : (State.endAttempt s x).now = s.now := by simp [State.endAttempt]
@[simp] theorem State.assign_now (s : State) (e : Nat) (x : Attempt) : (State.assign s e x).now = s.now := by simp [State.assign]
theorem serveAttempt_now (x : State × List Nat) (a : Nat) : (serveAttempt x a).1.now = x.1.now := by
  unfold serveAttempt; dsimp only; (repeat' split) <;> simp_all
@[simp] theorem State.dispatchPool_now (s : State) : (State.dispatchPool s).now = s.now := by
  unfold State.dispatchPool
  dsimp only
  rw [foldl_fst_now _ serveAttempt_now]
@[simp] theorem State.enterPool_now (s : State) (x : Attempt) (t : Nat) : (State.enterPool s x t).now = s.now := by simp [State.enterPool]
@[simp] theorem State.stopLadder_now (s : State) (x : Attempt) : (State.stopLadder s x).now = s.now := by simp [State.stopLadder]
@[simp] theorem State.adapt_now (s : State) (x : Attempt) (v : TapSet) : (State.adapt s x v).now = s.now := by simp [State.adapt]
@[simp] theorem State.readySector_now (s : State) (x : Attempt) : (State.readySector s x).now = s.now := by unfold State.readySector; (repeat' split) <;> simp
@[simp] theorem State.converged_now (s : State) (x : Attempt) (o : DecOut) (taps : TapSet) : (State.converged s x o taps).now = s.now := by unfold State.converged; (try dsimp only); (repeat' split) <;> simp
@[simp] theorem State.roundStart_now (s : State) (x : Attempt) (isl : Nat) : (State.roundStart s x isl).now = s.now := by simp [State.roundStart]
@[simp] theorem State.preempt_now (s : State) (e : Nat) (x : Attempt) : (State.preempt s e x).now = s.now := by simp [State.preempt]
@[simp] theorem State.iterate_now (s : State) (e : Nat) (x : Attempt) (zero : Bool) (o : DecOut) (taps : TapSet) : (State.iterate s e x zero o taps).now = s.now := by simp [State.iterate]
@[simp] theorem State.restartJob_now (s : State) (e : Nat) : (State.restartJob s e).now = s.now := by unfold State.restartJob; (repeat' split) <;> simp
@[simp] theorem State.retireEngine_now (s : State) (e st : Nat) : (State.retireEngine s e st).now = s.now := by simp [State.retireEngine]
@[simp] theorem State.leaveIsland_now (s : State) (e : Nat) : (State.leaveIsland s e).now = s.now := by simp [State.leaveIsland]
@[simp] theorem State.failEngine_now (s : State) (e : Nat) : (State.failEngine s e).now = s.now := by simp [State.failEngine]
@[simp] theorem State.decoderReply_now (s : State) (k reason e : Nat) : (State.decoderReply s k reason e).now = s.now := by simp [State.decoderReply]
@[simp] theorem State.endRetest_now (s : State) (k e : Nat) (pass : Bool) : (State.endRetest s k e pass).now = s.now := by simp [State.endRetest]
@[simp] theorem State.popFmt_now (s : State) (a : Nat) : (State.popFmt s a).now = s.now := by simp [State.popFmt]
@[simp] theorem State.startRoutine_now (s : State) (a : Nat) (q : FmtCmd) : (State.startRoutine s a q).now = s.now := by simp [State.startRoutine]
@[simp] theorem State.askRecord_now (s : State) (a : Nat) : (State.askRecord s a).now = s.now := by simp [State.askRecord]
@[simp] theorem State.commitFinish_now (s : State) (c : Cmd) : (State.commitFinish s c).now = s.now := by simp [State.commitFinish]
@[simp] theorem State.commitReset_now (s : State) (c : Cmd) : (State.commitReset s c).now = s.now := by simp [State.commitReset]
@[simp] theorem State.zoneRecord_now (s : State) (a : Nat) (c : Cmd) : (State.zoneRecord s a c).now = s.now := by simp [State.zoneRecord]
@[simp] theorem State.intentRecs_now (s : State) (a : Nat) (keys : List Nat) : (State.intentRecs s a keys).now = s.now := by simp [State.intentRecs]
@[simp] theorem State.startWrite_now (s : State) (a : Nat) (opc : Byte) : (State.startWrite s a opc).now = s.now := by unfold State.startWrite; (repeat' split) <;> simp
@[simp] theorem State.sendFrame_now (s : State) (a : Nat) (q : FmtCmd) (key : Nat) (x : Sector) : (State.sendFrame s a q key x).now = s.now := by simp [State.sendFrame]
@[simp] theorem State.committedOf_now (s : State) (id n lba : Nat) : (State.committedOf s id n lba).now = s.now := by unfold State.committedOf; (repeat' split) <;> simp
@[simp] theorem State.releaseSource_now (s : State) (a key : Nat) : (State.releaseSource s a key).now = s.now := by simp [State.releaseSource]
@[simp] theorem State.commitBand_now (s : State) (a spt : Nat) (x : Sector) (src : Nat) : (State.commitBand s a spt x src).now = s.now := by simp [State.commitBand]
@[simp] theorem State.commitLanding_now (s : State) (a id : Nat) (w : WSlot) : (State.commitLanding s a id w).now = s.now := by unfold State.commitLanding; (repeat' split) <;> simp
@[simp] theorem State.writePoisoned_now (s : State) (a : Nat) (q : FmtCmd) (w : WSlot) : (State.writePoisoned s a q w).now = s.now := by simp [State.writePoisoned]
@[simp] theorem State.commitKey_now (s : State) (a : Nat) (q : FmtCmd) (key : Nat) : (State.commitKey s a q key).now = s.now := by unfold State.commitKey; (try dsimp only); (repeat' split) <;> simp
@[simp] theorem State.endWrite_now (s : State) (a : Nat) : (State.endWrite s a).now = s.now := by simp [State.endWrite]
@[simp] theorem State.afterWrite_now (s : State) (a id : Nat) : (State.afterWrite s a id).now = s.now := by unfold State.afterWrite; (repeat' split) <;> simp
@[simp] theorem State.splitRunning_now (s : State) (a : Nat) (r : Routine) : (State.splitRunning s a r).now = s.now := by simp [State.splitRunning]
@[simp] theorem State.passWaymark_now (s : State) (a : Nat) (r : Routine) (keys : List Nat) (at' : Nat × Nat) : (State.passWaymark s a r keys at').now = s.now := by unfold State.passWaymark; (try dsimp only); (repeat' split) <;> (try simp) <;> (repeat' (first | (rw [State.each_now]) | (intro _) | split)) <;> simp_all
@[simp] theorem State.abandonAll_now (s : State) (a : Nat) : (State.abandonAll s a).now = s.now := by unfold State.abandonAll; (repeat' split) <;> simp
@[simp] theorem State.resumeRoutine_now (s : State) (a : Nat) (r : Routine) : (State.resumeRoutine s a r).now = s.now := by simp [State.resumeRoutine]
@[simp] theorem State.squeezeRewrite_now (s : State) (a : Nat) (q : FmtCmd) (x : Nat) : (State.squeezeRewrite s a q x).now = s.now := by
  unfold State.squeezeRewrite
  extract_lets r k com start sec gen recs pass s1 s2
  have hp : ∀ s g, (pass s g).now = s.now := by
    intro s g
    simp only [pass, State.modFmt_now]
    rw [State.each_now]
    · split <;> simp
    · intro s p; split <;> simp
  have h1 : s1.now = s.now := by simp only [s1]; exact State.each_now _ _ _ hp
  have h2 : s2.now = s.now := by simp only [s2]; simp [h1]
  split <;> simp [h2]
@[simp] theorem State.queueAssistCal_now (s : State) (a h : Nat) : (State.queueAssistCal s a h).now = s.now := by simp [State.queueAssistCal]
@[simp] theorem State.headLost_now (s : State) (a h : Nat) : (State.headLost s a h).now = s.now := by simp [State.headLost]
@[simp] theorem State.suspendHead_now (s : State) (a h : Nat) : (State.suspendHead s a h).now = s.now := by simp [State.suspendHead]
@[simp] theorem State.feedbackFault_now (s : State) (a h : Nat) : (State.feedbackFault s a h).now = s.now := by simp [State.feedbackFault]
@[simp] theorem State.roundGain_now (s : State) (v : Int) : (s.roundGain v).2.now = s.now := by
  unfold State.roundGain; dsimp only; (repeat' split) <;> simp
@[simp] theorem State.assistLoop_now (s : State) (a h sample : Nat) : (State.assistLoop s a h sample).now = s.now := by
  unfold State.assistLoop
  dsimp only
  split <;> simp
@[simp] theorem State.assistUse_now (s : State) (a : Nat) (q : FmtCmd) (t energy : Nat) : (State.assistUse s a q t energy).now = s.now := by simp [State.assistUse]
@[simp] theorem State.wearCheck_now (s : State) (a h : Nat) : (State.wearCheck s a h).now = s.now := by simp [State.wearCheck]
@[simp] theorem State.trip_now (s : State) (spin : Bool) (i cond time : Nat) : (State.trip s spin i cond time).now = s.now := by simp [State.trip]
@[simp] theorem State.tripAct_now (s : State) (a cond : Nat) : (State.tripAct s a cond).now = s.now := by simp [State.tripAct]
@[simp] theorem State.sampleTrc_now (s : State) (e : Nat) (spin : Bool) (i : Nat) (val : Nat → Nat → Nat → Word) : (State.sampleTrc s e spin i val).now = s.now := by simp [State.sampleTrc]
@[simp] theorem State.countTrc_now (s : State) (spin : Bool) (i : Nat) : (State.countTrc s spin i).now = s.now := by simp [State.countTrc]
@[simp] theorem State.raiseInhibit_now (s : State) (a cause : Nat) (toward : Bool) : (State.raiseInhibit s a cause toward).now = s.now := by simp [State.raiseInhibit]
@[simp] theorem State.retract_now (s : State) (a cause : Nat) : (State.retract s a cause).now = s.now := by simp [State.retract]
@[simp] theorem State.retractIdle_now (s : State) (a : Nat) : (State.retractIdle s a).now = s.now := by simp [State.retractIdle]
@[simp] theorem State.enterRetract_now (s : State) (a : Nat) (cause : BitVec 3) : (State.enterRetract s a cause).now = s.now := by simp [State.enterRetract]
@[simp] theorem State.enterLimp_now (s : State) (a : Nat) : (State.enterLimp s a).now = s.now := by unfold State.enterLimp; (repeat' split) <;> simp
@[simp] theorem State.decideMig_now (s : State) (a : Nat) (beyond : Bool) : (State.decideMig s a beyond).now = s.now := by unfold State.decideMig; (try dsimp only); (repeat' split) <;> simp
@[simp] theorem State.wantAction_now (s : State) (b : Nat) (x : SpinAct) : (State.wantAction s b x).now = s.now := by simp [State.wantAction]
@[simp] theorem State.decideSpn_now (s : State) (b : Nat) : (State.decideSpn s b).now = s.now := by unfold State.decideSpn; (try dsimp only); (repeat' split) <;> simp
@[simp] theorem State.placeSpindles_now (s : State) : (State.placeSpindles s).now = s.now := by
  unfold State.placeSpindles
  rw [State.each_now]
  intro s a; split <;> simp
@[simp] theorem State.evacuate_now (s : State) (n : Nat) : (State.evacuate s n).now = s.now := by simp [State.evacuate]
@[simp] theorem State.retireLe_now (s : State) (n st : Nat) : (State.retireLe s n st).now = s.now := by simp [State.retireLe]
@[simp] theorem State.predict_now (s : State) (a : Nat) : (State.predict s a).now = s.now := by simp [State.predict]
@[simp] theorem State.overrunOf_now (s : State) (a : Nat) : (State.overrunOf s a).now = s.now := by simp [State.overrunOf]
@[simp] theorem State.wearAt_now (s : State) (b budget n : Nat) : (State.wearAt s b budget n).now = s.now := by simp [State.wearAt]
@[simp] theorem State.gaitHours_now (s : State) (b : Nat) : (State.gaitHours s b).now = s.now := by simp [State.gaitHours]
@[simp] theorem State.requestLoad_now (s : State) (a : Nat) : (State.requestLoad s a).now = s.now := by simp [State.requestLoad]
@[simp] theorem State.endPause_now (s : State) (b : Nat) : (State.endPause s b).now = s.now := by simp [State.endPause]
@[simp] theorem State.loadsDone_now (s : State) (b : Nat) : (State.loadsDone s b).now = s.now := by simp [State.loadsDone]
@[simp] theorem State.parked_now (s : State) (a : Nat) : (State.parked s a).now = s.now := by simp [State.parked]
@[simp] theorem State.sendSpin_now (s : State) (b mode tcomm step icmd : Nat) : (State.sendSpin s b mode tcomm step icmd).now = s.now := by simp [State.sendSpin]
@[simp] theorem State.startBrake_now (s : State) (b : Nat) (short : Bool) : (State.startBrake s b short).now = s.now := by simp [State.startBrake]
@[simp] theorem State.askToken_now (s : State) (b kind : Nat) : (State.askToken s b kind).now = s.now := by simp [State.askToken]
@[simp] theorem State.linksOff_now (s : State) (b : Nat) : (State.linksOff s b).now = s.now := by simp [State.linksOff]
@[simp] theorem State.quarantine_now (s : State) (b reason : Nat) : (State.quarantine s b reason).now = s.now := by simp [State.quarantine]
@[simp] theorem State.failBringUp_now (s : State) (b reason : Nat) : (State.failBringUp s b reason).now = s.now := by simp [State.failBringUp]
@[simp] theorem State.offerSet_now (s : State) (a : Nat) (set : Option CoeffSet) (rro : Option RroSet) : (State.offerSet s a set rro).now = s.now := by simp [State.offerSet]
@[simp] theorem State.peerReset_now (s : State) (i : Nat) (flight : Tab Nat) : (State.peerReset s i flight).now = s.now := by simp [State.peerReset]
@[simp] theorem State.rearm_now (s : State) (i : Nat) : (State.rearm s i).now = s.now := by simp [State.rearm]
@[simp] theorem State.segmentIn_now (s : State) (c : Cmd) (bs : List Byte) : (State.segmentIn s c bs).now = s.now := by unfold State.segmentIn; (try dsimp only); (repeat' split) <;> simp
@[simp] theorem State.dataIn_now (s : State) (c : Cmd) (bs : List Byte) : (State.dataIn s c bs).now = s.now := by simp [State.dataIn]
@[simp] theorem State.readFailed_now (s : State) (id : Nat) : (State.readFailed s id).now = s.now := by simp [State.readFailed]
@[simp] theorem State.unexpected_now (s : State) (f : Nat) : (State.unexpected s f).now = s.now := by simp [State.unexpected]
@[simp] theorem State.hostCompletion_now (s : State) (f id : Nat) (list failed : Bool) (bs : List Byte) : (State.hostCompletion s f id list failed bs).now = s.now := by unfold State.hostCompletion; (try dsimp only); (repeat' split) <;> simp
@[simp] theorem State.postHeld_now (s : State) (id : Nat) : (State.postHeld s id).now = s.now := by unfold State.postHeld; (repeat' split) <;> simp
@[simp] theorem State.issueAsks_now (s : State) (c : Cmd) : (State.issueAsks s c).now = s.now := by simp [State.issueAsks]
@[simp] theorem State.resume_now (s : State) (f : Nat) : (State.resume s f).now = s.now := by simp [State.resume]
@[simp] theorem State.bmeOff_now (s : State) (f : Nat) : (State.bmeOff s f).now = s.now := by simp [State.bmeOff]
@[simp] theorem State.bmeOn_now (s : State) (f : Nat) : (State.bmeOn s f).now = s.now := by simp [State.bmeOn]
@[simp] theorem State.tallyRemoved_now (s : State) (c : Cmd) : (State.tallyRemoved s c).now = s.now := by simp [State.tallyRemoved]
@[simp] theorem State.removeCmd_now (s : State) (c : Cmd) : (State.removeCmd s c).now = s.now := by simp [State.removeCmd]
@[simp] theorem State.removeAll_now (s : State) (cs : List Cmd) : (State.removeAll s cs).now = s.now := by simp [State.removeAll]
@[simp] theorem State.resetQueues_now (s : State) (f : Nat) : (State.resetQueues s f).now = s.now := by simp [State.resetQueues]
@[simp] theorem State.resetRegs_now (s : State) (f : Nat) : (State.resetRegs s f).now = s.now := by simp [State.resetRegs]
@[simp] theorem State.resetFn_now (s : State) (f : Nat) : (State.resetFn s f).now = s.now := by simp [State.resetFn]
@[simp] theorem State.vfsOff_now (s : State) (f : Nat) : (State.vfsOff s f).now = s.now := by simp [State.vfsOff]
@[simp] theorem State.flr_now (s : State) (f : Nat) : (State.flr s f).now = s.now := by simp [State.flr]
@[simp] theorem State.modHalf_now (s : State) (p : Nat) (h : Bool) (g : Link → Link) : (State.modHalf s p h g).now = s.now := by simp [State.modHalf]
@[simp] theorem State.linkDown_now (s : State) (p : Nat) (h : Bool) : (State.linkDown s p h).now = s.now := by simp [State.linkDown]
@[simp] theorem State.ramStore_now (n : Nat) (s : State) (k : Nat) (bs : List Byte) : (State.ramStore n s k bs).now = s.now := by
  induction n generalizing s k bs with
  | zero => rfl
  | succ n ih =>
    unfold State.ramStore
    split
    · rfl
    · dsimp only; rw [ih]; split <;> simp
@[simp] theorem State.decodeBar2_now (s : State) (p : Nat) (t : HeldTlp) : (State.decodeBar2 s p t).now = s.now := by simp [State.decodeBar2]
@[simp] theorem State.bar2_now (s : State) (p : Nat) (t : HeldTlp) : (State.bar2 s p t).now = s.now := by simp [State.bar2]
@[simp] theorem State.commitWindow_now (s : State) (p : Nat) (val : Word) : (State.commitWindow s p val).now = s.now := by simp [State.commitWindow]
@[simp] theorem State.moveSteward_now (s : State) (p : Nat) : (State.moveSteward s p).now = s.now := by simp [State.moveSteward]
@[simp] theorem State.writeSteward_now (s : State) (t : Nat) : (State.writeSteward s t).now = s.now := by simp [State.writeSteward]
@[simp] theorem State.predictGate_now (s : State) (a cls : Nat) : (State.predictGate s a cls).now = s.now := by simp [State.predictGate]
@[simp] theorem State.wedgeSeen_now (s : State) (a cls : Nat) (w : BitVec 10) : (State.wedgeSeen s a cls w).now = s.now := by simp [State.wedgeSeen]
@[simp] theorem State.skipWedge_now (s : State) (a : Nat) : (State.skipWedge s a).now = s.now := by simp [State.skipWedge]
@[simp] theorem State.watchFrozen_now (s : State) (a : Nat) (r : PosRec) : (State.watchFrozen s a r).now = s.now := by simp [State.watchFrozen]
@[simp] theorem State.frozen_now (s : State) (a : Nat) : (State.frozen s a).now = s.now := by simp [State.frozen]
@[simp] theorem State.badRecord_now (s : State) (a cls : Nat) : (State.badRecord s a cls).now = s.now := by simp [State.badRecord]
@[simp] theorem State.goodRecord_now (s : State) (a : Nat) (r : PosRec) : (State.goodRecord s a r).now = s.now := by simp [State.goodRecord]
@[simp] theorem State.position_now (s : State) (a : Nat) (rec : BitVec 128) : (State.position s a rec).now = s.now := by simp [State.position]
@[simp] theorem State.seekDone_now (s : State) (a : Nat) : (State.seekDone s a).now = s.now := by simp [State.seekDone]
@[simp] theorem State.enterFollow_now (s : State) (a : Nat) : (State.enterFollow s a).now = s.now := by simp [State.enterFollow]
@[simp] theorem State.toMode_now (s : State) (a : Nat) (m : BitVec 3) : (State.toMode s a m).now = s.now := by simp [State.toMode]
@[simp] theorem State.loadFailed_now (s : State) (a : Nat) : (State.loadFailed s a).now = s.now := by simp [State.loadFailed]
@[simp] theorem State.modeStep_now (s : State) (a : Nat) (ok inWindow : Bool) : (State.modeStep s a ok inWindow).now = s.now := by simp [State.modeStep]
@[simp] theorem State.queueRunout_now (s : State) (a h : Nat) : (State.queueRunout s a h).now = s.now := by simp [State.queueRunout]
@[simp] theorem State.runLoop_now (s : State) (a : Nat) (o : LawOut) : (State.runLoop s a o).now = s.now := by unfold State.runLoop; (repeat' split) <;> simp
@[simp] theorem State.overrunRun_now (s : State) (a : Nat) (o : LawOut) (budget : Nat) : (State.overrunRun s a o budget).now = s.now := by simp [State.overrunRun]
@[simp] theorem State.lineFault_now (s : State) (a : Nat) (o : LawOut) (k : Nat) : (State.lineFault s a o k).now = s.now := by simp [State.lineFault]
@[simp] theorem State.spinOverrun_now (s : State) (b : Nat) : (State.spinOverrun s b).now = s.now := by simp [State.spinOverrun]
@[simp] theorem State.takeMig_now (s : State) (a : Nat) (mirrorOk : Bool) : (State.takeMig s a mirrorOk).now = s.now := by simp [State.takeMig]
@[simp] theorem State.loopReply_now (s : State) (k reason n : Nat) : (State.loopReply s k reason n).now = s.now := by simp [State.loopReply]
@[simp] theorem State.endLeRetest_now (s : State) (k n : Nat) (pass : Bool) : (State.endLeRetest s k n pass).now = s.now := by simp [State.endLeRetest]
@[simp] theorem State.diagWrite_now (s : State) (f : Nat) (k : State → State) (hk : ∀ x0, (k x0).now = x0.now) : (State.diagWrite s f k).now = s.now := by unfold State.diagWrite; (try dsimp only); (repeat' split) <;> (try simp_all)
@[simp] theorem State.modPwr_now (s : State) (g : Pwr → Pwr) : (State.modPwr s g).now = s.now := by simp [State.modPwr]
@[simp] theorem State.ceilingMoved_now (s : State) (b : Nat) : (State.ceilingMoved s b).now = s.now := by simp [State.ceilingMoved]
@[simp] theorem State.ceilingsFrom_now (s old : State) : (State.ceilingsFrom s old).now = s.now := by simp [State.ceilingsFrom]
@[simp] theorem State.reproject_now (s : State) : (State.reproject s).now = s.now := by simp [State.reproject]
@[simp] theorem State.reachIdle_now (s : State) (b : Nat) : (State.reachIdle s b).now = s.now := by simp [State.reachIdle]
@[simp] theorem State.calAtGait_now (s : State) (b : Nat) : (State.calAtGait s b).now = s.now := by simp [State.calAtGait]
@[simp] theorem State.locked_now (s : State) (b : Nat) : (State.locked s b).now = s.now := by simp [State.locked]
@[simp] theorem State.endWrites_now (s : State) (b : Nat) : (State.endWrites s b).now = s.now := by simp [State.endWrites]
@[simp] theorem State.beginAlign_now (s : State) (b : Nat) : (State.beginAlign s b).now = s.now := by simp [State.beginAlign]
@[simp] theorem State.beginSpin_now (s : State) (b : Nat) : (State.beginSpin s b).now = s.now := by simp [State.beginSpin]
@[simp] theorem State.spinFailed_now (s : State) (b : Nat) : (State.spinFailed s b).now = s.now := by simp [State.spinFailed]
@[simp] theorem State.startFloat_now (s : State) (b : Nat) : (State.startFloat s b).now = s.now := by simp [State.startFloat]
@[simp] theorem State.observerLost_now (s : State) (b : Nat) : (State.observerLost s b).now = s.now := by simp [State.observerLost]
@[simp] theorem State.atRest_now (s : State) (b : Nat) : (State.atRest s b).now = s.now := by simp [State.atRest]
@[simp] theorem State.linkDetect_now (s : State) (a : Nat) : (State.linkDetect s a).now = s.now := by simp [State.linkDetect]
@[simp] theorem State.faultCoast_now (s : State) (b : Nat) : (State.faultCoast s b).now = s.now := by simp [State.faultCoast]
@[simp] theorem State.zeroCross_now (s : State) (b : Nat) (rep : BitVec 64) : (State.zeroCross s b rep).now = s.now := by simp [State.zeroCross]
@[simp] theorem State.revolution_now (s : State) (b n t : Nat) : (State.revolution s b n t).now = s.now := by simp [State.revolution]
@[simp] theorem State.spinReport_now (s : State) (b : Nat) (rep : BitVec 64) : (State.spinReport s b rep).now = s.now := by simp [State.spinReport]
@[simp] theorem State.spinTick_now (s : State) (b : Nat) : (State.spinTick s b).now = s.now := by simp [State.spinTick]
@[simp] theorem State.relocked_now (s : State) (b : Nat) (cs : List (Nat × Nat)) : (State.relocked s b cs).now = s.now := by simp [State.relocked]
@[simp] theorem State.slowLower_now (s : State) (b : Nat) : (State.slowLower s b).now = s.now := by simp [State.slowLower]
@[simp] theorem State.regenStops_now (s : State) (d : Nat) : (State.regenStops s d).now = s.now := by simp [State.regenStops]
@[simp] theorem State.busCoasts_now (s : State) (d : Nat) : (State.busCoasts s d).now = s.now := by simp [State.busCoasts]
@[simp] theorem State.coastEnds_now (s : State) (d : Nat) : (State.coastEnds s d).now = s.now := by simp [State.coastEnds]
@[simp] theorem State.bayFault_now (s : State) (b : Nat) : (State.bayFault s b).now = s.now := by simp [State.bayFault]
@[simp] theorem State.startBasic_now (s : State) (a : Nat) : (State.startBasic s a).now = s.now := by simp [State.startBasic]
@[simp] theorem State.bringUp_now (s : State) (b : Nat) : (State.bringUp s b).now = s.now := by simp [State.bringUp]
@[simp] theorem State.retarget_now (s : State) (b g : Nat) : (State.retarget s b g).now = s.now := by simp [State.retarget]
@[simp] theorem State.wake_now (s : State) (b : Nat) : (State.wake s b).now = s.now := by simp [State.wake]
@[simp] theorem State.grantToken_now (s : State) (b : Nat) : (State.grantToken s b).now = s.now := by simp [State.grantToken]
@[simp] theorem State.enterPower_now (s : State) (b : Nat) (want : BitVec 2) : (State.enterPower s b want).now = s.now := by simp [State.enterPower]
@[simp] theorem State.powerState_now (s : State) (r : Requester) (st : Nat) (g : State → Nat → State) (hg : ∀ x0 x1, (g x0 x1).now = x0.now) : (State.powerState s r st g).now = s.now := by
  unfold State.powerState
  rw [State.serve_now]
  intro p
  dsimp only
  (repeat' split) <;> simp [State.each_now, hg]
@[simp] theorem State.askReset_now (s : State) (at' action : Nat) : (State.askReset s at' action).now = s.now := by simp [State.askReset]
@[simp] theorem State.watchdogReset_now (s : State) : (State.watchdogReset s).now = s.now := by simp [State.watchdogReset]
@[simp] theorem State.restartHerd_now (s : State) (h : Nat) : (State.restartHerd s h).now = s.now := by simp [State.restartHerd]
@[simp] theorem State.restartCore_now (s : State) : (State.restartCore s).now = s.now := by simp [State.restartCore]
@[simp] theorem State.writeDir_now (s : State) (a : Nat) : (State.writeDir s a).now = s.now := by simp [State.writeDir]
@[simp] theorem State.landStaged_now (s : State) (a : Nat) (closed : Option Nat) : (State.landStaged s a closed).now = s.now := by
  unfold State.landStaged
  split
  · rfl
  · simp
    rw [State.each_now]
    intro s a; split <;> simp
@[simp] theorem State.replayHold_now (s : State) (a : Nat) : (State.replayHold s a).now = s.now := by simp [State.replayHold]
@[simp] theorem State.rebuildIndex_now (s : State) (a : Nat) : (State.rebuildIndex s a).now = s.now := by simp [State.rebuildIndex]
@[simp] theorem State.replayIntents_now (s : State) (a : Nat) : (State.replayIntents s a).now = s.now := by unfold State.replayIntents; (try dsimp only); (repeat' split) <;> (try simp) <;> (repeat' (first | (rw [State.each_now]) | (intro _) | split)) <;> simp_all
@[simp] theorem State.scanZone_now (s : State) (a n lba : Nat) : (State.scanZone s a n lba).now = s.now := by unfold State.scanZone; (try dsimp only); (repeat' split) <;> (try simp) <;> (repeat' (first | (rw [State.each_now]) | (intro _) | split)) <;> simp_all
@[simp] theorem State.replayJournal_now (s : State) (a : Nat) : (State.replayJournal s a).now = s.now := by simp [State.replayJournal]
@[simp] theorem State.zonesTo_now (s : State) (a h : Nat) (st : ZState) : (State.zonesTo s a h st).now = s.now := by simp [State.zonesTo]
@[simp] theorem State.halfHeads_now (s : State) : (State.halfHeads s).now = s.now := by simp [State.halfHeads]
@[simp] theorem State.wipe_now (s : State) (cold : Bool) : (State.wipe s cold).now = s.now := rfl
@[simp] theorem State.enterTrailhead_now (s : State) (cause : Nat) : (State.enterTrailhead s cause).now = s.now := by simp [State.enterTrailhead]
@[simp] theorem State.beginStart_now (s : State) (cause : Nat) : (State.beginStart s cause).now = s.now := by simp [State.beginStart]
@[simp] theorem State.failStart_now (s : State) (cause : Nat) : (State.failStart s cause).now = s.now := by simp [State.failStart]
@[simp] theorem State.writeDev_now (s : State) (typ : Nat) (body : List Byte) : (State.writeDev s typ body).now = s.now := by simp [State.writeDev]
@[simp] theorem State.devFall_now (s : State) (bad : List Nat) (typ : Nat) : (State.devFall s bad typ).now = s.now := by simp [State.devFall]
@[simp] theorem State.loadTrims_now (s : State) (bad : List Nat) : (State.loadTrims s bad).now = s.now := by unfold State.loadTrims; (try dsimp only); (repeat' split) <;> simp
@[simp] theorem State.headFinal_now (s : State) (a h : Nat) : (State.headFinal s a h).now = s.now := by simp [State.headFinal]
@[simp] theorem State.assistPasses_now (s : State) (a h : Nat) (o : AsstCal) : (State.assistPasses s a h o).now = s.now := by simp [State.assistPasses]
@[simp] theorem State.assistFails_now (s : State) (a h : Nat) : (State.assistFails s a h).now = s.now := by simp [State.assistFails]
@[simp] theorem State.channelDone_now (s : State) (a h : Nat) (o : ChanCal) : (State.channelDone s a h o).now = s.now := by simp [State.channelDone]
@[simp] theorem State.servoDone_now (s : State) (a h : Nat) (o : ChanCal) : (State.servoDone s a h o).now = s.now := by simp [State.servoDone]
@[simp] theorem State.queueCal_now (s : State) (a h kind : Nat) : (State.queueCal s a h kind).now = s.now := by simp [State.queueCal]
@[simp] theorem State.grazeSays_now (s : State) (r : Requester) (reason : Nat) : (State.grazeSays s r reason).now = s.now := by simp [State.grazeSays]
@[simp] theorem State.recal_now (s : State) (r : Requester) (kind : Nat) (g : State → Nat → Nat → State) (hg : ∀ x0 x1 x2, (g x0 x1 x2).now = x0.now) : (State.recal s r kind g).now = s.now := by unfold State.recal; (try dsimp only); (repeat' split) <;> (try simp_all)
@[simp] theorem State.refreshSpn_now (s : State) (b : Nat) : (State.refreshSpn s b).now = s.now := by simp [State.refreshSpn]
@[simp] theorem State.loopLost_now (s : State) (a : Nat) : (State.loopLost s a).now = s.now := by simp [State.loopLost]
@[simp] theorem State.linkLost_now (s : State) (a : Nat) (dWorks : Bool) : (State.linkLost s a dWorks).now = s.now := by simp [State.linkLost]
@[simp] theorem State.refreshSingle_now (s : State) (a : Nat) : (State.refreshSingle s a).now = s.now := by simp [State.refreshSingle]
@[simp] theorem State.laneFails_now (s : State) (a : Nat) (u1 lock : Bool) : (State.laneFails s a u1 lock).now = s.now := by simp [State.laneFails]
@[simp] theorem State.telemetry_now (s : State) (a : Nat) (e : BitVec 64) : (State.telemetry s a e).now = s.now := by unfold State.telemetry; (repeat' split) <;> simp
@[simp] theorem State.downErrors_now (s : State) (a : Nat) (cnt : BitVec 8) : (State.downErrors s a cnt).now = s.now := by simp [State.downErrors]
@[simp] theorem State.badFrame_now (s : State) (a : Nat) (u1 lock : Bool) : (State.badFrame s a u1 lock).now = s.now := by simp [State.badFrame]
@[simp] theorem State.bringSpin_now (s : State) (b : Nat) : (State.bringSpin s b).now = s.now := by simp [State.bringSpin]
@[simp] theorem State.trainingOver_now (s : State) (b : Nat) : (State.trainingOver s b).now = s.now := by simp [State.trainingOver]
@[simp] theorem State.trainFailed_now (s : State) (a : Nat) : (State.trainFailed s a).now = s.now := by simp [State.trainFailed]
@[simp] theorem State.useDesc_now (s : State) (b : Nat) (d : Descriptor) : (State.useDesc s b d).now = s.now := by simp [State.useDesc]
@[simp] theorem State.descEnd_now (s : State) (a : Nat) (d : Descriptor) (late : Bool) : (State.descEnd s a d late).now = s.now := by simp [State.descEnd]
@[simp] theorem State.linkReady_now (s : State) (a : Nat) (o : TrainOut) (k0 k1 : Bool) : (State.linkReady s a o k0 k1).now = s.now := by simp [State.linkReady]
@[simp] theorem State.settleMedia_now (s : State) (b : Nat) : (State.settleMedia s b).now = s.now := by simp [State.settleMedia]
@[simp] theorem State.settleWaiting_now (s : State) : (State.settleWaiting s).now = s.now := by simp [State.settleWaiting]
@[simp] theorem State.actGone_now (s : State) (a : Nat) : (State.actGone s a).now = s.now := by simp [State.actGone]
@[simp] theorem State.absentRec_now (s : State) (a kind : Nat) : (State.absentRec s a kind).now = s.now := by simp [State.absentRec]
@[simp] theorem State.checkRecs_now (s : State) (a side : Nat) (c : CalData) : (State.checkRecs s a side c).now = s.now := by simp [State.checkRecs]
@[simp] theorem State.calSide_now (s : State) (a side : Nat) (c : CalData) : (State.calSide s a side c).now = s.now := by
  unfold State.calSide
  dsimp only
  rw [State.refreshSingle_now, State.each_now]
  · rw [State.checkRecs_now, State.offerSet_now]
    (repeat' split) <;> simp
  · intro s a; split <;> (try split) <;> simp
@[simp] theorem State.markHead_now (s : State) (a h kind : Nat) : (State.markHead s a h kind).now = s.now := by simp [State.markHead]
@[simp] theorem State.checkFails_now (s : State) (a h kind : Nat) : (State.checkFails s a h kind).now = s.now := by simp [State.checkFails]
@[simp] theorem State.linkReply_now (s : State) (k reason a : Nat) (data : List Byte) : (State.linkReply s k reason a data).now = s.now := by simp [State.linkReply]
@[simp] theorem State.modThm_now (s : State) (g : Thm → Thm) : (State.modThm s g).now = s.now := by simp [State.modThm]
@[simp] theorem State.endBayFlush_now (s : State) (b : Nat) : (State.endBayFlush s b).now = s.now := by simp [State.endBayFlush]
@[simp] theorem State.bayEmergency_now (s : State) (b : Nat) : (State.bayEmergency s b).now = s.now := by simp [State.bayEmergency]
@[simp] theorem State.stopGrazing_now (s : State) (a : Nat) (h : Option Nat) : (State.stopGrazing s a h).now = s.now := by simp [State.stopGrazing]
@[simp] theorem State.bayEvent_now (s old : State) (b : Nat) : (State.bayEvent s old b).now = s.now := by simp [State.bayEvent]
@[simp] theorem State.bayStep_now (s : State) (b : Nat) (x : Scope) (kind3 : Bool) : (State.bayStep s b x kind3).now = s.now := by simp [State.bayStep]
@[simp] theorem State.dieStep_now (s : State) (x : Scope) : (State.dieStep s x).now = s.now := by simp [State.dieStep]
@[simp] theorem State.headStep_now (s : State) (a h : Nat) (x : Scope) : (State.headStep s a h x).now = s.now := by simp [State.headStep]
@[simp] theorem State.thermalReply_now (s : State) (k b : Nat) : (State.thermalReply s k b).now = s.now := by simp [State.thermalReply]
@[simp] theorem State.thermalCtrl_now (s : State) (r : Requester) (act : Nat) (own : Nat → Nat → Nat) (k : State → Nat → Nat → State) (hk : ∀ x0 x1 x2, (k x0 x1 x2).now = x0.now) : (State.thermalCtrl s r act own k).now = s.now := by unfold State.thermalCtrl; (try dsimp only); (repeat' split) <;> (try simp_all)
@[simp] theorem State.modCache_now (s : State) (g : CacheSt → CacheSt) : (State.modCache s g).now = s.now := by simp [State.modCache]
@[simp] theorem State.startWalk_now (s : State) (g : Nat) : (State.startWalk s g).now = s.now := by simp [State.startWalk]
@[simp] theorem State.wantGroup_now (s : State) (g : Nat) : (State.wantGroup s g).now = s.now := by simp [State.wantGroup]
@[simp] theorem State.disableGroup_now (s : State) (g : Nat) : (State.disableGroup s g).now = s.now := by simp [State.disableGroup]
@[simp] theorem State.enableGroup_now (s : State) (g : Nat) : (State.enableGroup s g).now = s.now := by simp [State.enableGroup]
@[simp] theorem State.disableCache_now (s : State) : (State.disableCache s).now = s.now := by simp [State.disableCache]
@[simp] theorem State.enableCache_now (s : State) : (State.enableCache s).now = s.now := by simp [State.enableCache]
@[simp] theorem State.endWalk_now (s : State) (g : Nat) : (State.endWalk s g).now = s.now := by simp [State.endWalk]
@[simp] theorem State.faultGroup_now (s : State) (g : Nat) : (State.faultGroup s g).now = s.now := by simp [State.faultGroup]
@[simp] theorem State.poisonSlot_now (s : State) (order : Nat) : (State.poisonSlot s order).now = s.now := by unfold State.poisonSlot; (try dsimp only); (repeat' split) <;> simp
@[simp] theorem State.fixedNow_now (s : State) (key : Nat) : (State.fixedNow s key).now = s.now := by simp [State.fixedNow]
@[simp] theorem State.remapLine_now (s : State) (x : Nat) : (State.remapLine s x).now = s.now := by simp [State.remapLine]
@[simp] theorem State.softRepair_now (s : State) (x : SoftRec) : (State.softRepair s x).now = s.now := by simp [State.softRepair]
@[simp] theorem State.poisonOutcome_now (s : State) (u : LineUse) : (s.poisonOutcome u).now = s.now := by
  cases u <;> simp only [State.poisonOutcome] <;> (try (repeat' split)) <;> simp
@[simp] theorem State.repairOutcome_now (s : State) (u : LineUse) : (s.repairOutcome u).now = s.now := by
  cases u <;> simp only [State.repairOutcome] <;> (try (repeat' split)) <;> simp
@[simp] theorem State.poisonAt_now (s : State) (x : Nat) (use : LineUse) : (State.poisonAt s x use).now = s.now := by simp [State.poisonAt]
@[simp] theorem State.scrubDram_now (s : State) (r : ScrubRead) : (State.scrubDram s r).now = s.now := by simp [State.scrubDram]
@[simp] theorem State.scrubHeld_now (s : State) (r : ScrubRead) (l : Line) : (State.scrubHeld s r l).now = s.now := by simp [State.scrubHeld]
@[simp] theorem State.scrubSram_now (s : State) (r : ScrubRead) : (State.scrubSram s r).now = s.now := by simp [State.scrubSram]
@[simp] theorem State.layoutReply_now (s : State) (k reason : Nat) (g : Nat → Area) : (State.layoutReply s k reason g).now = s.now := by simp [State.layoutReply]
@[simp] theorem State.layoutSays_now (s : State) (k reason : Nat) : (State.layoutSays s k reason).now = s.now := by simp [State.layoutSays]
@[simp] theorem State.clearPoison_now (s : State) (e : PoisonEnt) : (State.clearPoison s e).now = s.now := by simp [State.clearPoison]
@[simp] theorem State.fwReply_now (s : State) (k reason slot : Nat) : (State.fwReply s k reason slot).now = s.now := by simp [State.fwReply]
theorem State.refusedAction_now (s t : State) (k op : Nat) (p : List Byte) (h : s.refusedAction k op p = some t) : t.now = s.now := by
  revert t
  unfold State.refusedAction
  dsimp only
  repeat' apply ite_some_now
  all_goals simp
@[simp] theorem State.goMbx_now (s : State) (k : Nat) (seq : BitVec 16) : (State.goMbx s k seq).now = s.now := by
  unfold State.goMbx
  dsimp only
  (repeat' split) <;> try simp
  cases h : State.refusedAction _ _ _ _ with
  | none => simp
  | some t => simpa using State.refusedAction_now _ _ _ _ _ h
@[simp] theorem State.writeReqbuf_now (s : State) (k off : Nat) (data : List Byte) : (State.writeReqbuf s k off data).now = s.now := by simp [State.writeReqbuf]
@[simp] theorem State.writeMbxReq_now (s : State) (k : Nat) (op len : BitVec 16) : (State.writeMbxReq s k op len).now = s.now := by simp [State.writeMbxReq]
@[simp] theorem State.sqGone_now (s : State) (k key : Nat) : (State.sqGone s k key).now = s.now := by simp [State.sqGone]
@[simp] theorem State.smbus_now (s : State) (pec : Bool) (g : State → State) (hg : ∀ x0, (g x0).now = x0.now) : (State.smbus s pec g).now = s.now := by unfold State.smbus; (try dsimp only); (repeat' split) <;> (try simp_all)
@[simp] theorem State.unfetch_now (s : State) (key : Nat) : (State.unfetch s key).now = s.now := by simp [State.unfetch]
@[simp] theorem State.dropSaved_now (s : State) (i : Nat) : (State.dropSaved s i).now = s.now := by simp [State.dropSaved]
@[simp] theorem State.loseSlots_now (s : State) (a : Nat) : (State.loseSlots s a).now = s.now := by simp [State.loseSlots]
@[simp] theorem State.islandEffect_now (s : State) (i : Nat) : (State.islandEffect s i).now = s.now := by simp [State.islandEffect]
@[simp] theorem State.resetIsland_now (s : State) (i : Nat) (flight : Tab Nat) : (State.resetIsland s i flight).now = s.now := by simp [State.resetIsland]
@[simp] theorem State.askIslandReset_now (s : State) (i : Nat) (flight : Tab Nat) : (State.askIslandReset s i flight).now = s.now := by simp [State.askIslandReset]
@[simp] theorem State.modClk_now (s : State) (g : Clk → Clk) : (State.modClk s g).now = s.now := by simp [State.modClk]
@[simp] theorem State.raiseGen_now (s : State) (slot nsid : Nat) : (State.raiseGen s slot nsid).now = s.now := by simp [State.raiseGen]
@[simp] theorem State.dropNs_now (s : State) (n : Nat) : (State.dropNs s n).now = s.now := by simp [State.dropNs]
@[simp] theorem State.stageGrant_now (s : State) (r : Requester) (g : Bool) : (State.stageGrant s r g).now = s.now := by simp [State.stageGrant]
@[simp] theorem State.attach_now (s : State) (n f : Nat) (on : Bool) : (State.attach s n f on).now = s.now := by simp [State.attach]
@[simp] theorem State.serveAttach_now (s : State) (r : Requester) (g : Bool) : (State.serveAttach s r g).now = s.now := by simp [State.serveAttach]
@[simp] theorem State.putGrant_now (s : State) (g : StagedGrant) : (State.putGrant s g).now = s.now := by simp [State.putGrant]
@[simp] theorem State.epochApplied_now (s : State) : (State.epochApplied s).now = s.now := by simp [State.epochApplied]
@[simp] theorem State.reweigh_now (s : State) (a : Nat) (was now : EpochCfg) : (State.reweigh s a was now).now = s.now := by simp [State.reweigh]
@[simp] theorem State.writePortRec_now (s : State) (r : PortRec) : (State.writePortRec s r).now = s.now := by simp [State.writePortRec]
@[simp] theorem State.tallyRing_now (s : State) (r : Requester) (act : Nat) (g : State → Nat → List Byte → Nat × State)
    (hg : ∀ s k p, (g s k p).2.now = s.now) : (s.tallyRing r act g).now = s.now := by
  unfold State.tallyRing
  rw [State.serve_now]
  intro p
  dsimp only
  simp
  (repeat' split) <;> simp_all
@[simp] theorem State.tallyWrite_now (s : State) (key : Nat) (body : List Byte) : (State.tallyWrite s key body).now = s.now := by simp [State.tallyWrite]
@[simp] theorem State.modSlot_now (s : State) (n : Nat) (g : Slot → Slot) : (State.modSlot s n g).now = s.now := by simp [State.modSlot]
@[simp] theorem State.loadLayout_now (s : State) (bad : List Nat) : (State.loadLayout s bad).now = s.now := by unfold State.loadLayout; (repeat' split) <;> simp
@[simp] theorem State.softApply_now (s : State) (lost : List Nat) : (State.softApply s lost).now = s.now := by simp [State.softApply]
@[simp] theorem State.replaceLe_now (s : State) (n : Nat) : (State.replaceLe s n).now = s.now := by
  unfold State.replaceLe
  dsimp only
  rw [State.each_now, State.each_now]
  · simp
  · intro s a; split <;> simp
  · intro s a; split <;> simp
@[simp] theorem State.resumeFormat_now (s : State) (o : FmtOp) : (State.resumeFormat s o).now = s.now := by simp [State.resumeFormat]
@[simp] theorem State.resumeSan_now (s : State) (o : SanOp) : (State.resumeSan s o).now = s.now := by simp [State.resumeSan]
@[simp] theorem State.islandsUp_now (s : State) : (State.islandsUp s).now = s.now := by simp [State.islandsUp]
@[simp] theorem State.herdsUp_now (s : State) (img : SlotCheck) : (State.herdsUp s img).now = s.now := by simp [State.herdsUp]
@[simp] theorem State.completeStart_now (s : State) (img : SlotCheck) (failedDe failedLe : List Nat) : (State.completeStart s img failedDe failedLe).now = s.now := by simp [State.completeStart]
@[simp] theorem State.serveReset_now (s : State) (r : Requester) (action : Nat) : (State.serveReset s r action).now = s.now := by simp [State.serveReset]
@[simp] theorem State.writeCommand_now (s : State) (f : Nat) (v : BitVec 64) : (State.writeCommand s f v).now = s.now := by simp [State.writeCommand]
@[simp] theorem State.writeCfg_now (s : State) (f : Nat) (sp : RegSpace) (i : Nat) (v : BitVec 64) : (State.writeCfg s f sp i v).now = s.now := by unfold State.writeCfg; (repeat' split) <;> simp
@[simp] theorem State.serveFw_now (s : State) (r : Requester) (act : Nat) (ok : List Byte → Bool)
    (go : State → List Byte → State × Nat) (hg : ∀ s p, (go s p).1.now = s.now) : (s.serveFw r act ok go).now = s.now := by
  unfold State.serveFw
  rw [State.serve_now]
  intro p
  dsimp only
  (repeat' split) <;> simp_all
@[simp] theorem State.prefer_now (s : State) (n : Nat) : (State.prefer s n).now = s.now := by simp [State.prefer]
@[simp] theorem State.placeHolds_now (s : State) (x : Act16) (u : Nat) : (State.placeHolds s x u).now = s.now := by simp [State.placeHolds]
@[simp] theorem State.endHold_now (s : State) (as : List Nat) : (State.endHold s as).now = s.now := by simp [State.endHold]
@[simp] theorem State.actOver_now (s : State) (st comp : Nat) : (State.actOver s st comp).now = s.now := by simp [State.actOver]
@[simp] theorem State.actDone_now (s : State) (x : Act16) : (State.actDone s x).now = s.now := by simp [State.actDone]
@[simp] theorem State.rollNext_now (s : State) (x : Act16) : (State.rollNext s x).now = s.now := by unfold State.rollNext; (repeat' split) <;> simp
@[simp] theorem State.actFails_now (s : State) (x : Act16) (type : Nat) : (State.actFails s x type).now = s.now := by simp [State.actFails]
@[simp] theorem State.goUnit_now (s : State) (x : Act16) (u : Nat) : (State.goUnit s x u).now = s.now := by simp [State.goUnit]
@[simp] theorem State.unitDone_now (s : State) (x : Act16) : (State.unitDone s x).now = s.now := by simp [State.unitDone]
@[simp] theorem State.endRoutine_now (s : State) (a : Nat) : (State.endRoutine s a).now = s.now := by simp [State.endRoutine]
@[simp] theorem State.beginFlush_now (s : State) (a : Nat) : (State.beginFlush s a).now = s.now := by simp [State.beginFlush]
@[simp] theorem State.quarReply_now (s : State) (k reason b : Nat) : (State.quarReply s k reason b).now = s.now := by simp [State.quarReply]
@[simp] theorem State.keyReply_now (s : State) (k reason x : Nat) (blob : List Byte) : (State.keyReply s k reason x blob).now = s.now := by simp [State.keyReply]
@[simp] theorem State.sanReply_now (s : State) (k reason id : Nat) : (State.sanReply s k reason id).now = s.now := by simp [State.sanReply]
@[simp] theorem State.enterSanitize_now (s : State) (kind : Nat) (ns : List Nat) : (State.enterSanitize s kind ns).now = s.now := by simp [State.enterSanitize]
@[simp] theorem State.serveSanitize_now (s : State) (r : Requester) (kind : Nat) : (State.serveSanitize s r kind).now = s.now := by simp [State.serveSanitize]
@[simp] theorem State.afterRead_now (s : State) (f off : Nat) : (State.afterRead s f off).now = s.now := by simp [State.afterRead]
@[simp] theorem State.read4_now (s : State) (f off : Nat) : (s.read4 f off).2.now = s.now := by
  unfold State.read4; (repeat' split) <;> simp
@[simp] theorem State.readReg_now (s : State) (f off : Nat) (wide : Bool) : (State.readReg s f off wide).now = s.now := by
  unfold State.readReg
  dsimp only
  split <;> simp
@[simp] theorem State.access_now (s : State) (f off : Nat) (wide posted : Bool) (k : State → State) (hk : ∀ x0, (k x0).now = x0.now) : (State.access s f off wide posted k).now = s.now := by unfold State.access; (try dsimp only); (repeat' split) <;> (try simp_all)
@[simp] theorem State.readBar0_now (s : State) (f off : Nat) (wide : Bool) : (State.readBar0 s f off wide).now = s.now := by simp [State.readBar0]
@[simp] theorem State.noteDebug_now (s old : State) : (State.noteDebug s old).now = s.now := by simp [State.noteDebug]
@[simp] theorem State.writeLck_now (s : State) (v : Word) : (State.writeLck s v).now = s.now := by simp [State.writeLck]
@[simp] theorem State.writeDbg_now (s : State) (v : Word) : (State.writeDbg s v).now = s.now := by simp [State.writeDbg]
@[simp] theorem State.writeFwkey_now (s : State) (v : Word) : (State.writeFwkey s v).now = s.now := by simp [State.writeFwkey]
@[simp] theorem State.clearLatch_now (s : State) (p n : Nat) (v : Word) : (State.clearLatch s p n v).now = s.now := by simp [State.clearLatch]
@[simp] theorem State.clearFnLatch_now (s : State) (f : Nat) (v : Word) : (State.clearFnLatch s f v).now = s.now := by simp [State.clearFnLatch]
@[simp] theorem State.modSel_now (s : State) (p : Nat) (g : PfSel → PfSel) : (State.modSel s p g).now = s.now := by simp [State.modSel]
@[simp] theorem State.modStaged_now (s : State) (g : EpochCfg → EpochCfg) : (State.modStaged s g).now = s.now := by simp [State.modStaged]
@[simp] theorem State.writeStaged_now (s : State) (off : Nat) (v : Word) : (State.writeStaged s off v).now = s.now := by simp [State.writeStaged]
@[simp] theorem State.writeLcCtrl_now (s : State) (v : Word) : (State.writeLcCtrl s v).now = s.now := by simp [State.writeLcCtrl]
@[simp] theorem State.writeClk_now (s : State) (v : Word) : (State.writeClk s v).now = s.now := by simp [State.writeClk]
@[simp] theorem State.writePort_now (s : State) (p off : Nat) (v : Word) : (State.writePort s p off v).now = s.now := by simp [State.writePort]
@[simp] theorem State.clearXing_now (s : State) (p : Nat) (v : Word) : (State.clearXing s p v).now = s.now := by simp [State.clearXing]
@[simp] theorem State.writeDiag_now (s : State) (off : Nat) (v : Word) : (State.writeDiag s off v).now = s.now := by simp [State.writeDiag]
@[simp] theorem State.writeTalHead_now (s : State) (f k : Nat) (v : Word) : (State.writeTalHead s f k v).now = s.now := by simp [State.writeTalHead]
@[simp] theorem State.writeDb_now (s : State) (f o : Nat) (v : Word) : (State.writeDb s f o v).now = s.now := by simp [State.writeDb]
@[simp] theorem State.writeFn_now (s : State) (f off : Nat) (v : Word) : (State.writeFn s f off v).now = s.now := by simp [State.writeFn]
theorem State.writeOwn_now (s t : State) (off : Nat) (v : Word) (fl : Tab Nat) (h : s.writeOwn off v fl = some t) : t.now = s.now := by
  revert t
  unfold State.writeOwn
  repeat' apply ite_some_now
  all_goals simp
@[simp] theorem State.writePf_now (s : State) (f off : Nat) (v : Word) (flight : Tab Nat) : (State.writePf s f off v flight).now = s.now := by
  unfold State.writePf
  dsimp only
  (repeat' split) <;> first | (simp; done) | (rename_i h _; simpa using State.writeOwn_now _ _ _ _ _ h)
@[simp] theorem State.write4_now (s : State) (f off : Nat) (v : Word) (flight : Tab Nat) : (State.write4 s f off v flight).now = s.now := by simp [State.write4]
@[simp] theorem State.writeReg_now (s : State) (f off : Nat) (wide : Bool) (data : BitVec 64) (flight : Tab Nat) : (State.writeReg s f off wide data flight).now = s.now := by simp [State.writeReg]
end Sys2Proof.Machine
end

