-- ==== Sys2Proof/Tests/Slice0.lean ====
section
/-! SUPPORT. Tests of the model against the spec's own words, ill-formed commands that the check refuses, and witnesses of the
statements' hypotheses. -/
namespace Sys2Proof

/-! ### Well-formedness: one ill-formed command for each check -/

theorem test_wf_failed_completion_has_no_data : (Instr.hostDataCompletion 0 1 false true [0]).wf = false := by decide
theorem test_wf_perst_flight_rises : (Instr.perstAssert 0 [(2, 1), (1, 1)]).wf = false := by decide
theorem test_wf_bar2_write_has_bytes : (Instr.bar2Write 0 0 []).wf = false := by decide
theorem test_wf_bar2_read_has_bytes : (Instr.bar2Read 0 0 0).wf = false := by decide
theorem test_wf_register_write_aligned : (Instr.registerWrite 0 .bar0 4 true 0 []).wf = false := by decide
theorem test_wf_register_write_config_word : (Instr.registerWrite 0 .command 0 true 0 []).wf = false := by decide
theorem test_wf_register_write_narrow : (Instr.registerWrite 0 .bar0 0x8600 false 0x100000000 []).wf = false := by decide
theorem test_wf_register_write_flight_rises : (Instr.registerWrite 0 .bar0 0x70034 false 0 [(1, 1), (1, 1)]).wf = false := by decide
theorem test_wf_register_read_aligned : (Instr.registerLowHalfRead 0 { off := 2 } false).wf = false := by decide
theorem test_wf_register_read_config_word : (Instr.registerLowHalfRead 0 { sp := .command } true).wf = false := by decide
theorem test_wf_framing_offset : (Instr.sectorFraming 0 0 [{ e := 25 }] [] {}).wf = false := by decide
theorem test_wf_framing_distance : (Instr.sectorFraming 0 0 [] [{ dist := 33 }] {}).wf = false := by decide
theorem test_wf_replay_offset : (Instr.replayLlrsReady { sm2 := [{ e := 27 }] }).wf = false := by decide
theorem test_wf_overrun_spindle : (Instr.runOverrun true 72 1).wf = false := by decide
theorem test_wf_migration_spindle : (Instr.migrationTaken true 143 true).wf = false := by decide
theorem test_wf_laws_rise : (Instr.coeffSetLoad 0 0 { laws := [(3, {}), (2, {})] } none).wf = false := by decide
theorem test_wf_law_order : (Instr.coeffSetLoad 0 0 { laws := [(3, { a := List.replicate 13 [], b := List.replicate 13 0 })] } none).wf = false := by
  decide
theorem test_wf_runout_entry : (Instr.coeffSetLoad 0 0 {} (some { tabs := [(655360, {})] })).wf = false := by decide
theorem test_wf_frame_has_three_words : (Instr.upstreamFrame 0 false { tele := [0, 0], blocks := List.replicate 27 0 }).wf = false := by decide
theorem test_wf_frame_has_sample_blocks : (Instr.upstreamFrame 0 false { tele := [0, 0, 0], blocks := [0] }).wf = false := by decide
theorem test_wf_descriptor_heads : (Instr.trainingPhaseEnd 0 { desc := { headsA := 17 } }).wf = false := by decide
theorem test_wf_calibration_identity : (Instr.calibrationCheckEnd 0 { identity := 4 }).wf = false := by decide
theorem test_wf_calibration_tables_rise : (Instr.calibrationCheckEnd 0 { seekA := [(1, 0), (0, 0)] }).wf = false := by decide
theorem test_wf_scrub_line_aligned : (Instr.scrubLineRead { addr := 64 }).wf = false := by decide
theorem test_wf_scrub_set : (Instr.scrubLineRead { level := 1, set := 65536 }).wf = false := by decide
theorem test_wf_scrub_engine : (Instr.scrubLineRead { level := 3, unit := 2, num := 32 }).wf = false := by decide
theorem test_wf_scrub_level : (Instr.scrubLineRead { level := 4 }).wf = false := by decide
theorem test_wf_sensor_key : (Instr.thermalEvaluation [{ cls := 0, key := 96 }]).wf = false := by decide
theorem test_wf_sensor_class : (Instr.thermalEvaluation [{ cls := 3 }]).wf = false := by decide
theorem test_wf_island_number : (Instr.islandReset 0 217 []).wf = false := by decide
theorem test_wf_island_flight_rises : (Instr.islandReset 0 1 [(5, 1), (4, 1)]).wf = false := by decide
theorem test_wf_hard_fault_flight_rises : (Instr.islandHardFaultReset 1 [(5, 1), (4, 1)]).wf = false := by decide
theorem test_wf_smbus_length : (Instr.smbusRequestWrite 0 [] true).wf = false := by decide
theorem test_wf_start_engine : (Instr.startComplete {} [64] []).wf = false := by decide
theorem test_wf_start_loop_engine : (Instr.startComplete {} [] [32]).wf = false := by decide
theorem test_wf_header_is_4_KiB : (Instr.slotVerifyEnd { head := List.replicate 4097 0 }).wf = false := by decide +kernel
theorem test_wf_landed_rises : (Instr.deviceLevelReset [(1, none), (0, none)]).wf = false := by decide
theorem test_wf_landed_actuator : (Instr.deviceLevelReset [(144, none)]).wf = false := by decide

/-- A command with no operand but types is well formed, and the encodings of the limits are admitted. -/
theorem test_wf_limits : (Instr.sectorFraming 0 0 [{ e := -24, dist := 32 }] [{ e := -26 }] {}).wf = true ∧
    (Instr.bar2Read 0 0 4096).wf = true ∧ (Instr.coeffSetLoad 0 0 { laws := [(3, { a := List.replicate 12 [], b := List.replicate 12 0 })] } none).wf = true := by decide

namespace Machine

/-- A shelf in service: P0.PF may move data, bay 0 is READY at Gallop, and namespace 1 holds one extent of actuator 0 whose first sector is
written. -/
def shelf : State :=
  { State.reset with
    boot := { State.reset.boot with running := true }
    fns := [(0, { enabled := true, bme := true, mse := true })]
    ports := [(0, { h0 := { up := true, width := 16, rate := 5 }, crs := false })]
    nss := [(1, { present := true, sectors := 65536, perAct := 1, actset := [0], space := [(0, [0])], ports := [0], attached := [0] })]
    keys := [(0, { loaded := true })]
    media := [(2 ^ 48, { nsid := 1, lba := 0 })]
    acts := [(0, { cwy := { state := 5 } }), (1, { cwy := { state := 5 } })]
    bays := [(0, { spin := { gait := 3, target := 3, pstate := 0, pwant := 0, ceilPwr := 3 }, link := { present := true, media := 2 } })] }

/-- The shelf with one command in its ledger. -/
def shelfWith (c : Cmd) : State := { shelf with ledger := [c] }
/-- The shelf with one request of the steward in progress. -/
def shelfAsk (op : Nat) (p : List Byte) : State := { shelf with mbxs := [(0, { busy := true, rqOp := op, rqData := p })] }
/-- The shelf with actuator 0 changed. -/
def shelfAct (x : ActSt) : State := { shelf with acts := [(0, x), (1, { cwy := { state := 5 } })] }
/-- An image whose header is right for a shelf with the hash of 96 zero bytes fused for key slot 0: one empty component. -/
def goodImage : FlashImage :=
  { head := [1, 0, 0, 0] ++ List.replicate 8 0 ++ [0, 1] ++ List.replicate 50 0 ++ [1] ++ List.replicate 15 0 ++ sha384 [] }
theorem test_witness_accepted_doorbells_move_the_queue_indices :
    (∃ (f : FnId) (q : Fin 64) (val : Word) (s : State), s.mmio f.val = true ∧ s.boot.trailhead = false ∧ (s.sq (64 * f.val + q.val)).doorbellCause (val.toNat % 65536) = none) ∧
    (∃ (f : FnId) (q : Fin 64) (val : Word) (s : State), s.mmio f.val = true ∧ s.boot.trailhead = false ∧ (s.cq (64 * f.val + q.val)).doorbellCause (val.toNat % 65536) = none) ∧
    (∃ (f : FnId) (q : Fin 64) (val : Word) (s : State), s.mmio f.val = true) :=
  ⟨⟨1, 63, 15, { State.reset with fns := [(1, { enabled := true, mse := true })], sqs := [(127, { size := 16 })] }, by decide⟩,
   ⟨255, 0, 3, { State.reset with fns := [(255, { enabled := true, mse := true })], cqs := [(16320, { size := 4, tail := 3 })] }, by decide⟩,
   ⟨0, 0, 0, { State.reset with fns := [(0, { enabled := true, mse := true })] }, by decide⟩⟩

theorem test_witness_ignored_doorbells_change_no_queue :
    (∃ (f : FnId) (q : Fin 64) (val : Word) (s : State), s.mmio f.val = true ∧ s.boot.trailhead = false ∧ ((let x := s.sq (64 * f.val + q.val)
       x.size = 0 ∨ x.size ≤ val.toNat % 65536 ∨
         (val.toNat % 65536 + x.size - x.head) % x.size < (x.tail + x.size - x.head) % x.size))) ∧
    (∃ (f : FnId) (q : Fin 64) (val : Word) (s : State), s.mmio f.val = true ∧ s.boot.trailhead = false ∧ ((let x := s.cq (64 * f.val + q.val)
       x.size = 0 ∨ x.size ≤ val.toNat % 65536 ∨
         (x.tail + x.size - x.head) % x.size < (val.toNat % 65536 + x.size - x.head) % x.size))) :=
  ⟨⟨64, 0, 2, { State.reset with fns := [(64, { enabled := true, mse := true })], sqs := [(4096, { size := 4, tail := 3 })] }, by decide⟩,
   ⟨64, 0, 4, { State.reset with fns := [(64, { enabled := true, mse := true })], cqs := [(4096, { size := 4, tail := 3 })] }, by decide⟩⟩

theorem test_witness_fetch_reads_the_next_entry_once_aslot_is_reserved :
    (∃ (p : PortId) (k : Nat) (s : State), s.nextSq p.val = some k) ∧
    (∃ (f : FnId) (q : Fin 64) (s : State), (s.sq (64 * f.val + q.val)).fetching ≠ 0) :=
  ⟨⟨3, 12288, { State.reset with fns := [(192, { enabled := true, bme := true })], boot := { State.reset.boot with running := true }, sqs := [(12288, { size := 2, tail := 1 })], cqs := [(12288, { size := 2 })] }, by decide⟩,
   ⟨7, 63, { State.reset with sqs := [(511, { size := 2, fetching := 1 })] }, by decide⟩⟩

theorem test_witness_an_entry_that_passes_the_checks_enters_the_ledger :
    (∃ (f : FnId) (q : Fin 64) (e : BitVec 512) (s : State), (s.sq (64 * f.val + q.val)).size ≠ 0 ∧ (s.sq (64 * f.val + q.val)).fetching ≠ 0 ∧ (s.sq (64 * f.val + q.val)).stopped = false ∧ s.boot.postStop = false ∧ ((let u := s.modSq (64 * f.val + q.val) fun x => { x with fetching := x.fetching - 1 }
       (s.ldg.checking.any fun w => w.fn == f.val && w.sq == q.val) = false ∧ u.checkWaits f.val (Entry.of e) s.ldg.checking = false ∧
         u.checks f.val (Entry.of e) = none ∧ u.ledgerRoom f.val = true))) ∧
    (∃ (f : FnId) (q : Fin 64) (e : BitVec 512) (st r : Nat) (s : State), (s.sq (64 * f.val + q.val)).size ≠ 0 ∧ (s.sq (64 * f.val + q.val)).fetching ≠ 0 ∧ (s.sq (64 * f.val + q.val)).stopped = false ∧ s.boot.postStop = false ∧ (s.fn f.val).bme = true ∧ (s.fn f.val).d3 = false ∧ ((let u := s.modSq (64 * f.val + q.val) fun x => { x with fetching := x.fetching - 1 }
       (s.ldg.checking.any fun w => w.fn == f.val && w.sq == q.val) = false ∧ u.checkWaits f.val (Entry.of e) s.ldg.checking = false ∧
         u.checks f.val (Entry.of e) = some (st, r)))) ∧
    (∃ (f : FnId) (q : Fin 64) (e : BitVec 512) (s : State), (s.sq (64 * f.val + q.val)).size ≠ 0 ∧ (s.sq (64 * f.val + q.val)).fetching ≠ 0 ∧ s.boot.postStop = false) :=
  ⟨⟨0, 0, 9, { State.reset with sqs := [(0, { size := 2, fetching := 1 })] }, by decide +kernel⟩,
   ⟨0, 0, 0, Sts.invalidField, 0, { State.reset with fns := [(0, { enabled := true, bme := true })], sqs := [(0, { size := 2, fetching := 1 })], cqs := [(0, { size := 2 })] }, by decide +kernel⟩,
   ⟨0, 0, 9, { State.reset with sqs := [(0, { size := 2, fetching := 1, stopped := true })] }, by decide⟩⟩

theorem test_witness_aread_is_admitted_on_its_plans_or_on_the_host_port :
    (∃ (id : Nat) (c d : Cmd) (s : State), s.cmd? id = some c ∧ d = s.asIo c ∧ d.waiting 1 = true ∧ s.arrivalsHeld (((s.ns c.nsid).parts c.slba c.len).map (·.act)) = false ∧ s.offMedia d = true ∧ s.hostPasses d (d.len * 4096) = true) ∧
    (∃ (id : Nat) (c d : Cmd) (ps : List Part) (t u : State) (s : State), s.cmd? id = some c ∧ ps = (s.ns c.nsid).parts c.slba c.len ∧ d = s.asIo c ∧ d.waiting 1 = true ∧ s.arrivalsHeld (ps.map (·.act)) = false ∧ (s.linkLow d.fn && d.len != 0 && !(s.hostPasses d (d.len * 4096))) = false ∧ s.offMedia d = false ∧ (s.tryParts d (s.epochFor (ps.map (·.act))).1.reserve (ps.map fun p => s.partOp d p true 0) s = (.pass t, u))) :=
  ⟨⟨1, { id := 1, op := 1, dc := 7 }, { id := 1, op := 1, dc := 7 }, shelfWith { id := 1, op := 1, dc := 7 }, by decide⟩,
   ⟨1, { id := 1, op := 1, nsid := 1, len := 1, dc := 6 }, (shelfWith { id := 1, op := 1, nsid := 1, len := 1, dc := 6 }).asIo { id := 1, op := 1, nsid := 1, len := 1, dc := 6 },
    [{ act := 0, pos := 0, count := 1 }], _, _, shelfWith { id := 1, op := 1, nsid := 1, len := 1, dc := 6 }, by decide, by decide, by decide, by decide, by decide, by decide, by decide, rfl⟩⟩

theorem test_witness_astaged_write_reserves_staging_and_is_admitted :
    (∃ (id : Nat) (c d : Cmd) (u : State) (s : State), s.cmd? id = some c ∧ d = s.asWrite 2 c ∧ u = s.freeLanded ∧ d.waiting 2 = true ∧ s.step8 2 d.slba d.len 0 d.nsid = none ∧ s.arrivalsHeld (((s.ns d.nsid).parts d.slba d.len).map (·.act)) = false ∧ ((s.ns d.nsid).zoned || !s.onDeadHead d) = true ∧ d.len ≤ u.stageFree ∧ d.dur = false ∧ u.hostPasses d (d.len * 4096) = true) ∧
    (∃ (id : Nat) (c d : Cmd) (u : State) (s : State), s.cmd? id = some c ∧ d = s.asWrite 3 c ∧ u = s.freeLanded ∧ d.waiting 3 = true ∧ s.step8 3 (d.slba / 65536 * 65536) d.len 0 d.nsid = none ∧ s.arrivalsHeld (((s.ns d.nsid).parts d.slba d.len).map (·.act)) = false ∧ ((s.ns d.nsid).zoned || !s.onDeadHead d) = true ∧ d.len ≤ u.stageFree ∧ d.dur = false ∧ u.hostPasses d (d.len * 4096) = true) ∧
    (∃ (id : Nat) (c d : Cmd) (ps : List Part) (u t v : State) (s : State), s.cmd? id = some c ∧ d = s.asWrite 2 c ∧ u = s.freeLanded ∧ ps = (u.ns d.nsid).parts d.slba d.len ∧ d.waiting 2 = true ∧ (s.ns d.nsid).zoned = false ∧ (u.ns d.nsid).zoned = false ∧ s.onDeadHead d = false ∧ s.arrivalsHeld (((s.ns d.nsid).parts d.slba d.len).map (·.act)) = false ∧ s.step8 2 d.slba d.len 0 d.nsid = none ∧ d.len ≤ u.stageFree ∧ d.dur = true ∧ (u.linkLow d.fn && (if d.win then 0 else d.len * 4096) != 0 && !(u.hostPasses d (if d.win then 0 else d.len * 4096))) = false ∧ (u.tryParts d (u.epochFor (ps.map (·.act))).1.reserve (ps.map fun p => u.partOp d p false (u.intentNs d p.act)) u = (.pass t, v))) :=
  ⟨⟨1, { id := 1, op := 2, nsid := 1, len := 16, dc := 1 }, (shelfWith { id := 1, op := 2, nsid := 1, len := 16, dc := 1 }).asWrite 2 { id := 1, op := 2, nsid := 1, len := 16, dc := 1 }, (shelfWith { id := 1, op := 2, nsid := 1, len := 16, dc := 1 }).freeLanded, shelfWith { id := 1, op := 2, nsid := 1, len := 16, dc := 1 }, by decide +kernel⟩,
   ⟨1, { id := 1, op := 3, nsid := 2, len := 16, dc := 1 }, ({ shelfWith { id := 1, op := 3, nsid := 2, len := 16, dc := 1 } with nss := [(2, { present := true, zoned := true, sectors := 65536, perAct := 1, actset := [0], space := [(0, [0])], attached := [0] })] }).asWrite 3 { id := 1, op := 3, nsid := 2, len := 16, dc := 1 }, ({ shelfWith { id := 1, op := 3, nsid := 2, len := 16, dc := 1 } with nss := [(2, { present := true, zoned := true, sectors := 65536, perAct := 1, actset := [0], space := [(0, [0])], attached := [0] })] }).freeLanded, { shelfWith { id := 1, op := 3, nsid := 2, len := 16, dc := 1 } with nss := [(2, { present := true, zoned := true, sectors := 65536, perAct := 1, actset := [0], space := [(0, [0])], attached := [0] })] }, by decide +kernel⟩,
   ⟨1, { id := 1, op := 2, nsid := 1, len := 1, dur := true, dc := 6 }, (shelfWith { id := 1, op := 2, nsid := 1, len := 1, dur := true, dc := 6 }).asWrite 2 { id := 1, op := 2, nsid := 1, len := 1, dur := true, dc := 6 },
    [{ act := 0, pos := 0, count := 1 }], (shelfWith { id := 1, op := 2, nsid := 1, len := 1, dur := true, dc := 6 }).freeLanded, _, _, shelfWith { id := 1, op := 2, nsid := 1, len := 1, dur := true, dc := 6 },
    by decide, by decide, by decide, by decide, by decide, by decide, by decide, by decide, by decide, by decide, by decide, by decide, by decide, rfl⟩⟩

theorem test_witness_zone_actions_change_the_admitted_state :
    (∃ (id : Nat) (c d : Cmd) (s : State), s.cmd? id = some c ∧ d = s.timed c [s.actOf c.nsid c.slba] ∧ d.waiting 4 = true ∧ d.act4 = 1 ∧ s.step8 4 d.slba 0 1 d.nsid = none ∧ s.arrivalsHeld [s.actOf d.nsid d.slba] = false ∧ s.hostPasses d 0 = true) ∧
    (∃ (id : Nat) (c d : Cmd) (s : State), s.cmd? id = some c ∧ d = s.timed c [s.actOf c.nsid c.slba] ∧ d.waiting 4 = true ∧ d.act4 = 2 ∧ s.step8 4 d.slba 0 2 d.nsid = none ∧ s.arrivalsHeld [s.actOf d.nsid d.slba] = false ∧ s.hostPasses d 0 = true) ∧
    (∃ (id : Nat) (c d : Cmd) (s : State), s.cmd? id = some c ∧ d = s.timed c [s.actOf c.nsid c.slba] ∧ d.waiting 4 = true ∧ d.act4 = 3 ∧ s.step8 4 d.slba 0 3 d.nsid = none ∧ s.arrivalsHeld [s.actOf d.nsid d.slba] = false) ∧
    (∃ (id : Nat) (c d : Cmd) (s : State), s.cmd? id = some c ∧ d = s.timed c [s.actOf c.nsid c.slba] ∧ d.waiting 4 = true ∧ d.act4 = 4 ∧ s.step8 4 d.slba 0 4 d.nsid = none ∧ s.arrivalsHeld [s.actOf d.nsid d.slba] = false) ∧
    (∃ (c : Cmd) (st : ZState) (wp : Nat) (t v : State) (op : PlanOp) (s : State), op = (let p := s.placeOf (s.actOf c.nsid c.slba) reservedRegion 0
         { cmd := c.id, kind := .journal, fn := c.fn, dc := c.dc, milestone := c.milestone.getD 0, arrival := c.arrival,
           allowance := s.partAllowance c (s.actOf c.nsid c.slba), track := p.track, head := p.head, angle := p.angle, spt := p.spt, pos := reservedRegion * 65536,
           count := 1, read := false, slot := false : PlanOp }) ∧ s.tryParts c (s.epochFor [s.actOf c.nsid c.slba]).1.reserve [(s.actOf c.nsid c.slba, op)] s = (.pass t, v)) :=
  ⟨⟨1, { id := 1, op := 4, nsid := 2, act4 := 1, slba := 65536, dc := 6 }, ({ shelfWith { id := 1, op := 4, nsid := 2, act4 := 1, slba := 65536, dc := 6 } with nss := [(2, { present := true, zoned := true, sectors := 131072, perAct := 2, actset := [0], space := [(0, [0, 1])], attached := [0] })] }).timed { id := 1, op := 4, nsid := 2, act4 := 1, slba := 65536, dc := 6 } [0], { shelfWith { id := 1, op := 4, nsid := 2, act4 := 1, slba := 65536, dc := 6 } with nss := [(2, { present := true, zoned := true, sectors := 131072, perAct := 2, actset := [0], space := [(0, [0, 1])], attached := [0] })] }, by decide⟩,
   ⟨1, { id := 1, op := 4, nsid := 2, act4 := 2, slba := 65536, dc := 6 }, ({ shelfWith { id := 1, op := 4, nsid := 2, act4 := 2, slba := 65536, dc := 6 } with nss := [(2, { present := true, zoned := true, sectors := 131072, perAct := 2, actset := [0], space := [(0, [0, 1])], attached := [0] })], zones := [(2 * 2 ^ 24 + 1, { adm := .implicitOpen, com := .implicitOpen, admWp := 5, comWp := 5 })] }).timed { id := 1, op := 4, nsid := 2, act4 := 2, slba := 65536, dc := 6 } [0], { shelfWith { id := 1, op := 4, nsid := 2, act4 := 2, slba := 65536, dc := 6 } with nss := [(2, { present := true, zoned := true, sectors := 131072, perAct := 2, actset := [0], space := [(0, [0, 1])], attached := [0] })], zones := [(2 * 2 ^ 24 + 1, { adm := .implicitOpen, com := .implicitOpen, admWp := 5, comWp := 5 })] }, by decide⟩,
   ⟨1, { id := 1, op := 4, nsid := 2, act4 := 3, slba := 65536, dc := 6 }, ({ shelfWith { id := 1, op := 4, nsid := 2, act4 := 3, slba := 65536, dc := 6 } with nss := [(2, { present := true, zoned := true, sectors := 131072, perAct := 2, actset := [0], space := [(0, [0, 1])], attached := [0] })] }).timed { id := 1, op := 4, nsid := 2, act4 := 3, slba := 65536, dc := 6 } [0], { shelfWith { id := 1, op := 4, nsid := 2, act4 := 3, slba := 65536, dc := 6 } with nss := [(2, { present := true, zoned := true, sectors := 131072, perAct := 2, actset := [0], space := [(0, [0, 1])], attached := [0] })] }, by decide⟩,
   ⟨1, { id := 1, op := 4, nsid := 2, act4 := 4, slba := 65536, dc := 6 }, ({ shelfWith { id := 1, op := 4, nsid := 2, act4 := 4, slba := 65536, dc := 6 } with nss := [(2, { present := true, zoned := true, sectors := 131072, perAct := 2, actset := [0], space := [(0, [0, 1])], attached := [0] })] }).timed { id := 1, op := 4, nsid := 2, act4 := 4, slba := 65536, dc := 6 } [0], { shelfWith { id := 1, op := 4, nsid := 2, act4 := 4, slba := 65536, dc := 6 } with nss := [(2, { present := true, zoned := true, sectors := 131072, perAct := 2, actset := [0], space := [(0, [0, 1])], attached := [0] })] }, by decide⟩,
   ⟨({ shelfWith { id := 1, op := 4, nsid := 2, act4 := 3, slba := 65536, dc := 6 } with nss := [(2, { present := true, zoned := true, sectors := 131072, perAct := 2, actset := [0], space := [(0, [0, 1])], attached := [0] })] }).timed { id := 1, op := 4, nsid := 2, act4 := 3, slba := 65536, dc := 6 } [0], .full, 65536, _, _, _, { shelfWith { id := 1, op := 4, nsid := 2, act4 := 3, slba := 65536, dc := 6 } with nss := [(2, { present := true, zoned := true, sectors := 131072, perAct := 2, actset := [0], space := [(0, [0, 1])], attached := [0] })] }, rfl, rfl⟩⟩

theorem test_witness_reports_are_admitted_with_their_descriptors :
    (∃ (id : Nat) (c d : Cmd) (s : State), s.cmd? id = some c ∧ d = s.timed c [s.actOf c.nsid c.slba] ∧ d.waiting 5 = true ∧ s.arrivalsHeld [s.actOf d.nsid d.slba] = false) ∧
    (∃ (id : Nat) (c d : Cmd) (s : State), s.cmd? id = some c ∧ d = s.timed c [] ∧ d.waiting 0x0A = true) ∧
    (∃ (id : Nat) (c d : Cmd) (s : State), s.cmd? id = some c ∧ d = s.timed c [] ∧ d.waiting 0x0B = true ∧ s.hostPasses d (d.len * 4096) = true) ∧
    (∃ (f q cq sqhd : Nat) (e : Entry) (s : State), e.opc = 0x0B) :=
  ⟨⟨1, { id := 1, op := 5, nsid := 2, slba := 0, arg0 := 2, dc := 7 }, ({ shelfWith { id := 1, op := 5, nsid := 2, slba := 0, arg0 := 2, dc := 7 } with nss := [(2, { present := true, zoned := true, sectors := 131072, perAct := 2, actset := [0], space := [(0, [0, 1])], attached := [0] })] }).timed { id := 1, op := 5, nsid := 2, slba := 0, arg0 := 2, dc := 7 } [0], { shelfWith { id := 1, op := 5, nsid := 2, slba := 0, arg0 := 2, dc := 7 } with nss := [(2, { present := true, zoned := true, sectors := 131072, perAct := 2, actset := [0], space := [(0, [0, 1])], attached := [0] })] }, by decide⟩,
   ⟨1, { id := 1, op := 0x0A, arg0 := 1, dc := 7 }, { id := 1, op := 0x0A, arg0 := 1, dc := 7 }, shelfWith { id := 1, op := 0x0A, arg0 := 1, dc := 7 }, by decide⟩,
   ⟨1, { id := 1, op := 0x0B, len := 1, dc := 7 }, { id := 1, op := 0x0B, len := 1, dc := 7 }, shelfWith { id := 1, op := 0x0B, len := 1, dc := 7 }, by decide⟩,
   ⟨0, 0, 0, 0, { opc := 0x0B, dur := false, cont := false, sgl := false, win := false, nsid := 1, tag := 5, slba := 0, len := 8, reldl := 0, dc := 7, dptr := 0, dcnt := 0, arg0 := 1, arg1 := 0, rsv := true }, shelf, by decide⟩⟩

theorem test_witness_flush_and_abort_end_as_the_rules_say :
    (∃ (id : Nat) (c d : Cmd) (ws : List WSlot) (s : State), s.cmd? id = some c ∧ d = s.timed c [] ∧ ws = s.covered c.fn c.nsid c.arrival ∧ ((ws.filter fun w => !w.poisoned) = []) ∧ d.waiting 8 = true ∧ s.hostPasses d 0 = true) ∧
    (∃ (id : Nat) (c : Cmd) (s : State), s.cmd? id = some c ∧ c.op = 8 ∧ c.phase = .admitted ∧ c.covered = []) ∧
    (∃ (id : Nat) (c : Cmd) (ts : List Cmd) (s : State), s.cmd? id = some c ∧ c.waiting 9 = true ∧ ts = (s.targets c.fn (c.arg1 % 64) (reg32 c.arg0)).filter (·.id != id)) ∧
    (∃ (id : Nat) (c : Cmd) (s : State), s.cmd? id = some c ∧ c.op = 9 ∧ c.phase = .admitted ∧ ((s.ledger.any fun d => d.fn == c.fn && d.sq == c.arg1 % 64 && d.tag == reg32 c.arg0 && d.phase == .heldCpl
        && d.status == some Sts.abortedByHost && d.id < c.id) = false)) :=
  ⟨⟨1, { id := 1, op := 8, dc := 7 }, { id := 1, op := 8, dc := 7 }, [], shelfWith { id := 1, op := 8, dc := 7 }, by decide⟩,
   ⟨1, { id := 1, op := 8, phase := .admitted }, shelfWith { id := 1, op := 8, phase := .admitted }, by decide⟩,
   ⟨2, { id := 2, op := 9, arg0 := 7, arg1 := 0 }, [{ id := 1, tag := 7, op := 1 }], { shelf with ledger := [{ id := 1, tag := 7, op := 1 }, { id := 2, op := 9, arg0 := 7, arg1 := 0 }] }, by decide⟩,
   ⟨2, { id := 2, op := 9, phase := .admitted }, shelfWith { id := 2, op := 9, phase := .admitted }, by decide⟩⟩

theorem test_witness_time_ends_commands_and_recovery_entries :
    (∃ (id : Nat) (c : Cmd) (d : Nat) (s : State), s.cmd? id = some c ∧ c.deadline = some d ∧ c.phase = .admitted ∧ c.status = none ∧ d ≤ s.now + 20000) ∧
    (∃ (id : Nat) (c : Cmd) (s : State), s.cmd? id = some c ∧ c.phase = .held ∧ (c.op ≠ 4 ∨ (1 ≤ c.act4 ∧ c.act4 ≤ 4)) ∧ (c.op = 1 ∨ c.op = 2 ∨ c.op = 3 ∨ c.op = 4 ∨ c.op = 5 ∨ c.op = 8 ∨ c.op = 0x0A ∨ c.op = 0x0B)) ∧
    (∃ (a : ActId) (r : PlanOp) (s : State), (s.act a.val).adm.running = some r ∧ (s.act a.val).fmt.holds r = false ∧ (s.act a.val).fmt.cutShort r = none ∧ r.kind = .journal ∧ r.cmd ≠ 0 ∧ r.read = false) ∧
    (∃ (k : Fin 4096) (s : State), (s.key k.val).unloading = true ∧ ((s.ledger.any fun c => c.wasAdm && c.phase != .heldCpl && c.nsid != 0 && (s.ns c.nsid).keyslot == k.val) = false)) ∧
    (∃ (id : BitVec 16) (r : RecEntry) (s : State), r ∈ s.recs ∧ r.id = id ∧ r.st ≠ .pending ∧ r.time + 600000000000 ≤ s.now) ∧
    (∃ (id : BitVec 16) (r : RecEntry) (s : State), (s.recs.find? (·.id == id)) = some r ∧ r.st = .pending ∧ r.born + 60000000000 ≤ s.now) :=
  ⟨⟨1, { id := 1, op := 1, phase := .admitted, deadline := some 20000 }, 20000, shelfWith { id := 1, op := 1, phase := .admitted, deadline := some 20000 }, by decide⟩,
   ⟨1, { id := 1, op := 1, phase := .held }, shelfWith { id := 1, op := 1, phase := .held }, by decide⟩,
   ⟨0, { cmd := 1, kind := .journal, read := false }, { shelf with acts := [(0, { adm := { running := some { cmd := 1, kind := .journal, read := false } } })] }, by decide⟩,
   ⟨4095, { shelf with keys := [(4095, { loaded := true, unloading := true })] }, by decide⟩,
   ⟨3, { id := 3, st := .recovered }, { shelf with now := 600000000000, recs := [{ id := 3, st := .recovered }] }, by decide⟩,
   ⟨3, { id := 3 }, { shelf with now := 60000000000, recs := [{ id := 3 }] }, by decide⟩⟩

theorem test_witness_bus_master_enable_stops_and_resumes_afunction :
    (∃ (f : FnId) (s : State), s.cfgOk f.val = true ∧ (s.fn f.val).bme = true) ∧
    (∃ (f : FnId) (s : State), s.cfgOk f.val = true ∧ (s.fn f.val).bme = false) ∧
    (∃ (f : FnId) (s : State), s.cfgOk f.val = true) ∧
    (∃ (id : Nat) (c : Cmd) (st : Nat) (s : State), s.cmd? id = some c ∧ c.status = some st ∧ c.silent = false ∧ c.noEntry = false ∧ c.cqGone = false) :=
  ⟨⟨0, shelf, by decide⟩,
   ⟨0, { shelf with fns := [] }, by decide⟩,
   ⟨0, shelf, by decide⟩,
   ⟨1, { id := 1, phase := .heldCpl, status := some 0 }, 0, shelfWith { id := 1, phase := .heldCpl, status := some 0 }, by decide⟩⟩

theorem test_witness_links_and_functions_are_reset_alone :
    (∃ (f : FnId) (s : State), s.cfgOk f.val = true) ∧
    (∃ (p : PortId) (half : Bool) (w : BitVec 5) (r : BitVec 3) (s : State), (s.port p.val).perst = false ∧ (s.half p.val half).up = false ∧ s.trains p.val half w.toNat r.toNat = true) ∧
    (∃ (p : PortId) (half : Bool) (s : State), (s.half p.val half).up = true) ∧
    (∃ (p : PortId) (half : Bool) (w : BitVec 5) (r : BitVec 3) (s : State), (s.half p.val half).up = true ∧ s.trains p.val half w.toNat r.toNat = true) ∧
    (∃ (p : PortId) (fl : Tab Nat) (s : State), (s.port p.val).perst = false ∧ (s.port p.val).h0.up = true ∧ s.bif p.val = false) ∧
    (∃ (p : PortId) (s : State), (s.port p.val).perst = true) ∧
    (∃ (p : PortId) (half sub : Bool) (s : State), (s.half p.val half).up = true ∧ (s.half p.val half).aspm.getLsbD 1 = true ∧ s.linkBusy p.val half = false ∧ (s.half p.val half).idleSince + 1000 * max 8 (s.port p.val).l1Idle.toNat ≤ s.now) ∧
    (∃ (f : FnId) (n : Fin 64) (s : State), s.cfgOk f.val = true ∧ s.vfsUnder f.val ≠ [] ∧ (s.boot.trailhead && f.val == 0) = false ∧ (((s.vfsUnder f.val).any fun v => (s.fn v).enabled) = false)) ∧
    (∃ (f : FnId) (n : Fin 64) (s : State), s.cfgOk f.val = true ∧ s.vfsUnder f.val ≠ [] ∧ (s.boot.trailhead && f.val == 0) = false) :=
  ⟨⟨192, { shelf with ports := [(3, { crs := false })] }, by decide⟩,
   ⟨3, false, 16, 5, shelf, by decide⟩,
   ⟨0, false, shelf, by decide⟩,
   ⟨0, false, 1, 1, shelf, by decide⟩,
   ⟨0, [], shelf, by decide⟩,
   ⟨3, { shelf with ports := [(3, { perst := true })] }, by decide⟩,
   ⟨0, false, true, { shelf with now := 64000, ports := [(0, { h0 := { up := true, aspm := 2 } })] }, by decide⟩,
   ⟨0, 63, shelf, by decide⟩,
   ⟨0, 0, shelf, by decide⟩⟩

theorem test_witness_refused_requests_take_the_first_cause_in_order :
    ∃ (s : State) (f cause hdr : Nat), (cause = 4 ∨ cause = 9 ∨ cause = 1 ∨ cause = 2) :=
  ⟨shelf, 0, 4, 0, by decide⟩

theorem test_witness_the_transit_window_maps_stores_and_switches :
    (∃ (p : PortId) (off : BitVec 36) (data : List Byte) (s : State), (s.fn (64 * p.val)).mse = true ∧ (s.fn (64 * p.val)).d3 = false ∧ (s.port p.val).pend = false ∧ (s.port p.val).wcur.en = true ∧ off.toNat + data.length ≤ (s.port p.val).wcur.limit + 1 ∧ s.bar2Size p.val ≠ 0) ∧
    (∃ (p : PortId) (off : BitVec 36) (len : Fin 4097) (s : State), (s.fn (64 * p.val)).mse = true ∧ (s.fn (64 * p.val)).d3 = false ∧ (s.port p.val).pend = false ∧ (s.port p.val).wcur.en = true ∧ off.toNat + len.val ≤ (s.port p.val).wcur.limit + 1 ∧ s.bar2Size p.val ≠ 0) ∧
    (∃ (f : FnId) (val : Word) (s : State), s.mmio f.val = true ∧ isPf f.val = true ∧ s.boot.trailhead = false ∧ s.glb.lck.getLsbD 2 = false) ∧
    (∃ (p : PortId) (s : State), (s.port p.val).pend = true) ∧
    (∃ (f : FnId) (val : Word) (s : State), s.stewardMmio f.val = true ∧ s.boot.trailhead = false ∧ s.glb.lck.getLsbD 0 = false ∧ val.toNat % 4 ≠ s.glb.steward.toNat ∧ (s.touch f.val).stewardReady (val.toNat % 4) = true) :=
  ⟨⟨0, 0, List.replicate 4096 7, { shelf with ports := [(0, { twnSize := 0, wcur := { en := true, limit := 1048575 } })] }, by decide +kernel⟩,
   ⟨0, 1048572, 4, { shelf with ports := [(0, { twnSize := 0, wcur := { en := true, limit := 1048575 } })] }, by decide +kernel⟩,
   ⟨0, 1, shelf, by decide⟩,
   ⟨3, { shelf with ports := [(3, { pend := true })] }, by decide⟩,
   ⟨0, 1, { shelf with ports := [(1, { h0 := { up := true } })], fns := [(0, { enabled := true, mse := true }), (64, { enabled := true, mse := true })] }, by decide⟩⟩

theorem test_witness_adata_completion_is_matched_or_logged :
    (∃ (f : FnId) (id : Nat) (list : Bool) (data : List Byte) (r : RdReq) (c : Cmd) (u : State) (s : State), (s.fn f.val).read? id list = some r ∧ data ≠ [] ∧ data.length ≤ r.left ∧ (list = true → data.length = r.left) ∧ (u = (s.touch f.val).modFn f.val fun x => { x with rdOut := takeRead id list data.length x.rdOut }) ∧ u.cmd? id = some c ∧ c.phase ≠ .heldCpl) ∧
    (∃ (f : FnId) (id : Nat) (list : Bool) (data : List Byte) (r : RdReq) (c : Cmd) (u : State) (s : State), (s.fn f.val).read? id list = some r ∧ (u = (s.touch f.val).modFn f.val fun x => { x with rdOut := takeRead id list r.left x.rdOut }) ∧ u.cmd? id = some c ∧ c.phase ≠ .heldCpl) ∧
    (∃ (f : FnId) (id : Nat) (list : Bool) (data : List Byte) (r : RdReq) (u : State) (s : State), (s.fn f.val).read? id list = some r ∧ s.cmd? id = none ∧ (u = (s.touch f.val).modFn f.val fun x => { x with rdOut := takeRead id list r.left x.rdOut })) ∧
    (∃ (f : FnId) (id : Nat) (list failed : Bool) (data : List Byte) (s : State), (s.fn f.val).read? id list = none) ∧
    (∃ (f : FnId) (id : Nat) (c : Cmd) (s : State), (((s.fn f.val).rdOut.any fun r => r.id == id && decide (r.at_ + s.ctoNs f.val ≤ s.now)) = true) ∧ s.cmd? id = some c ∧ c.phase ≠ .heldCpl) ∧
    (∃ (id lba : Nat) (c : Cmd) (r : RSlot) (s : State), s.cmd? id = some c ∧ (c.op = 1 ∨ c.op = 0x0B) ∧ c.phase = .admitted ∧ c.ready.contains lba = true ∧ s.pastCutoff c = false ∧ (s.fn c.fn).bme = true ∧ (s.fn c.fn).d3 = false ∧ (lba - c.slba + 1) * 4096 ≤ c.bufLen ∧ s.pinned id c.nsid lba = some r) ∧
    (∃ (id lba : Nat) (crc : BitVec 64) (c : Cmd) (r : RSlot) (e : Retain) (s : State), s.cmd? id = some c ∧ (c.op = 1 ∨ c.op = 0x0B) ∧ c.phase = .admitted ∧ c.ready.contains lba = true ∧ s.pastCutoff c = false ∧ (s.fn c.fn).bme = true ∧ (s.fn c.fn).d3 = false ∧ (lba - c.slba + 1) * 4096 ≤ c.bufLen ∧ s.pinned id c.nsid lba = some r ∧ s.samples (s.actOf c.nsid lba) id (secKey c.nsid lba) = some e ∧ crc ≠ r.sec.crc ∧ e.replayMax = 0 ∧ e.rung < 2) :=
  ⟨⟨0, 1, false, List.replicate 8 7, { id := 1, left := 8 }, { id := 1, op := 2, len := 1, nsid := 1, walk := 8 }, _, { shelfWith { id := 1, op := 2, len := 1, nsid := 1, walk := 8 } with fns := [(0, { enabled := true, bme := true, mse := true, rdOut := [{ id := 1, left := 8 }] })] }, by decide, by decide, by decide, by decide, rfl, by decide, by decide⟩,
   ⟨0, 1, false, [], { id := 1, left := 8 }, { id := 1, op := 2, len := 1, nsid := 1 }, _, { shelfWith { id := 1, op := 2, len := 1, nsid := 1 } with fns := [(0, { enabled := true, bme := true, mse := true, rdOut := [{ id := 1, left := 8 }] })] }, by decide, rfl, by decide, by decide⟩,
   ⟨0, 1, false, [], { id := 1, left := 8 }, _, { shelf with fns := [(0, { enabled := true, bme := true, mse := true, rdOut := [{ id := 1, left := 8 }] })] }, by decide, by decide, rfl⟩,
   ⟨0, 1, false, true, [], shelf, by decide⟩,
   ⟨0, 1, { id := 1, op := 2, len := 1, nsid := 1 }, { shelfWith { id := 1, op := 2, len := 1, nsid := 1 } with now := 32000000, fns := [(0, { enabled := true, bme := true, mse := true, rdOut := [{ id := 1, left := 8 }] })] }, by decide⟩,
   ⟨1, 0, { id := 1, op := 1, len := 1, nsid := 1, phase := .admitted, ready := [0], bufs := [(0, 4096)] }, { sec := { nsid := 1 }, pins := [1] }, { shelfWith { id := 1, op := 1, len := 1, nsid := 1, phase := .admitted, ready := [0], bufs := [(0, 4096)] } with stage := { shelf.stage with rslots := [{ sec := { nsid := 1 }, pins := [1] }] } }, by decide⟩,
   ⟨1, 0, ({ nsid := 1 } : Sector).crc + 1, { id := 1, op := 1, len := 1, nsid := 1, phase := .admitted, ready := [0], bufs := [(0, 4096)] }, { sec := { nsid := 1 }, pins := [1] }, { cmd := 1, key := 2 ^ 48 }, { shelfWith { id := 1, op := 1, len := 1, nsid := 1, phase := .admitted, ready := [0], bufs := [(0, 4096)] } with stage := { shelf.stage with rslots := [{ sec := { nsid := 1 }, pins := [1] }] }, acts := [(0, { cfe := { slots := [{ cmd := 1, key := 2 ^ 48 }] } })] }, by decide, by decide, by decide, by decide, by decide, by decide, by decide, by decide, by decide, by decide, fun h => absurd h (by generalize ({ nsid := 1 } : Sector).crc = v; bv_omega), by decide, by decide⟩⟩

theorem test_witness_adjacent_track_counters_refresh_and_hold :
    (∃ (a : ActId) (g : Nat) (s : State), (s.bay (bayOf a.val)).link.atiLimit ≤ (s.act a.val).med.atiOf g ∧ (((s.act a.val).graze.pending.any fun o => (o.order == 3 || o.order == 7) && o.ref == g) = false)) ∧
    (∃ (a : ActId) (g : Nat) (s : State), 2 * (s.bay (bayOf a.val)).link.atiLimit ≤ (s.act a.val).med.atiOf g ∧ (s.act a.val).med.atiHeld.contains g = false) ∧
    (∃ (s : State) (a g order : Nat), (order = 3 ∨ order = 7)) ∧
    (∃ (a : ActId) (s : State), (s.act a.val).med.ckptAt + 60000000000 ≤ s.now ∧ s.boot.postStop = false) :=
  ⟨⟨0, 5, { shelfAct { med := { ati := [(5, 4000000)] } } with bays := [(0, { link := { atiLimit := 4000000 } })] }, by decide⟩,
   ⟨0, 5, { shelfAct { med := { ati := [(5, 4000000)] } } with bays := [(0, { link := { atiLimit := 2000000 } })] }, by decide⟩,
   ⟨shelf, 0, 0, 7, by decide⟩,
   ⟨0, { shelf with now := 60000000000 }, by decide⟩⟩

theorem test_witness_formats_enter_wait_and_report :
    (∃ (r : Requester) (p : List Byte) (n : Nat) (s : State), s.request (mbxOf r) 0x0510 = some p ∧ byteAt p 0 = 1 ∧ s.fromSteward r = true ∧ reservedZero p [(0, 1), (2, 2)] = true ∧ n = fieldAt p 2 2 ∧ 0 < n ∧ n ≤ 4096 ∧ (s.ns n).present = true ∧ ((s.fmts.any fun o => o.nsFmt && o.nsid == n && o.st != 3) = false) ∧ s.sanRunning n = false) ∧
    (∃ (r : Requester) (p : List Byte) (s : State), s.request (mbxOf r) 0x0510 = some p ∧ byteAt p 0 = 2 ∧ s.fromSteward r = true ∧ reservedZero p [(0, 1), (1, 1), (4, 1)] = true ∧ byteAt p 4 < 144 ∧ 0 < byteAt p 1 ∧ byteAt p 1 ≤ 10 ∧ s.formatting (byteAt p 4) = false ∧ s.carriesNs (byteAt p 4) = false ∧ ((s.act (byteAt p 4)).med.landing.any (·.st == .live)) = false) ∧
    (∃ (id : Nat) (o : FmtOp) (s : State), ((s.fmts.find? fun o => o.id == id && o.st == 0) = some o) ∧ o.nsFmt = true ∧ ((s.ledger.any fun c => c.nsid == o.nsid && c.phase != .heldCpl) = false)) ∧
    (∃ (id : Nat) (o : FmtOp) (s : State), ((s.fmts.find? fun o => o.id == id && o.st == 0) = some o) ∧ o.nsFmt = false) ∧
    (∃ (r : Requester) (p : List Byte) (o : FmtOp) (s : State), s.request (mbxOf r) 0x0511 = some p ∧ ((s.fmts.find? fun o => o.id == fieldAt p 0 4 && s.seesFormat r o) = some o) ∧ reservedZero p [(0, 4)] = true) ∧
    (∃ (r : Requester) (p : List Byte) (s : State), s.request (mbxOf r) 0x0511 = some p ∧ ((s.fmts.find? fun o => o.id == fieldAt p 0 4 && s.seesFormat r o) = none)) :=
  ⟨⟨.fn 0, [1, 0, 1, 0, 0, 0, 0, 0], 1, shelfAsk 0x0510 [1, 0, 1, 0, 0, 0, 0, 0], by decide⟩,
   ⟨.fn 0, [2, 10, 0, 0, 1, 0, 0, 0], shelfAsk 0x0510 [2, 10, 0, 0, 1, 0, 0, 0], by decide⟩,
   ⟨7, { id := 7, nsFmt := true, nsid := 1 }, { shelf with fmts := [{ id := 7, nsFmt := true, nsid := 1 }] }, by decide⟩,
   ⟨7, { id := 7, nsFmt := false }, { shelf with fmts := [{ id := 7, nsFmt := false }] }, by decide⟩,
   ⟨.fn 0, [7, 0, 0, 0], { id := 7, nsFmt := true, nsid := 1 }, { shelfAsk 0x0511 [7, 0, 0, 0] with fmts := [{ id := 7, nsFmt := true, nsid := 1 }] }, by decide⟩,
   ⟨.fn 0, [7, 0, 0, 0], shelfAsk 0x0511 [7, 0, 0, 0], by decide⟩⟩

theorem test_witness_framing_takes_the_first_accepted_hit :
    (∃ (w : Int) (thr : Nat) (sm1 sm2 : List Hit) (h : Hit), h ∈ sm1 ∧ h.dist ≤ thr ∧ -w ≤ h.e ∧ h.e ≤ w ∧ (0 ≤ h.e ∨ ∃ m ∈ sm2, m.dist ≤ thr ∧ -2 ≤ m.e - h.e ∧ m.e - h.e ≤ 2) ∧ (∀ k ∈ sm1, k.dist ≤ thr → -w ≤ k.e → k.e < h.e → k.e < 0 ∧ ∀ m ∈ sm2, m.dist ≤ thr → m.e - k.e < -2 ∨ 2 < m.e - k.e)) ∧
    (∃ (w : Int) (thr : Nat) (sm1 sm2 : List Hit) (m : Hit), m ∈ sm2 ∧ m.dist ≤ thr ∧ -w ≤ m.e ∧ m.e ≤ w ∧ (∀ k ∈ sm2, k.dist ≤ thr → -w ≤ k.e → k.e ≤ w → m.e.natAbs < k.e.natAbs ∨ m.e.natAbs = k.e.natAbs ∧ m.e ≤ k.e) ∧ (∀ k ∈ sm1, k.dist ≤ thr → -w ≤ k.e → k.e ≤ w → k.e < 0 ∧ ∀ m ∈ sm2, m.dist ≤ thr → m.e - k.e < -2 ∨ 2 < m.e - k.e)) ∧
    (∃ (w : Int) (thr : Nat) (sm1 sm2 : List Hit), (∀ m ∈ sm2, m.dist ≤ thr → m.e < -w ∨ w < m.e) ∧ (∀ k ∈ sm1, k.dist ≤ thr → -w ≤ k.e → k.e ≤ w → k.e < 0 ∧ ∀ m ∈ sm2, m.dist ≤ thr → m.e - k.e < -2 ∨ 2 < m.e - k.e)) :=
  ⟨⟨12, 4, [⟨-9, 4⟩, ⟨1, 1⟩], [⟨1, 0⟩], ⟨1, 1⟩, by decide⟩,
   ⟨24, 6, [⟨-9, 4⟩], [⟨1, 0⟩, ⟨-1, 6⟩], ⟨-1, 6⟩, by decide, by decide, by decide, by decide, by decide, by decide⟩,
   ⟨12, 4, [⟨-9, 4⟩, ⟨1, 5⟩], [⟨13, 0⟩], by decide⟩⟩

theorem test_witness_detected_sectors_enter_the_decoder_pool :
    (∃ (a : ActId) (key : Nat) (sm1 sm2 : List Hit) (r0 r1 : List (BitVec 6)) (r : Routine) (s : State), (s.act a.val).fmt.running = some r ∧ (r.req.opc = 1 ∨ r.req.opc = 3) ∧ r.req.keys.contains key = true) ∧
    (∃ (a : ActId) (h : HeadId) (s : State), 256 ≤ (s.head a.val h.val).tapClamp) ∧
    (∃ (a : ActId) (cmd key : Nat) (e : Retain) (c : Cmd) (s : State), s.samples a.val cmd key = some e ∧ e.noticed = false ∧ e.framed = true ∧ e.kTot ≤ e.k ∧ s.cmd? cmd = some c ∧ e.padAt + 4000 ≤ s.now) ∧
    (∃ (e : Fin 64) (zero : Bool) (out : DecOut) (taps : TapSet) (x : Attempt) (s : State), s.jobOf e.val = some x ∧ (s.eng e.val).iterAt + 400 ≤ s.now) ∧
    (∃ (e : Nat) (x : Attempt) (out : DecOut) (taps : TapSet) (s : State), x.cls = 1) ∧
    (∃ (e : Fin 64) (x : Attempt) (n : Nat) (s : State), s.jobOf e.val = some x ∧ x.redAt = some n ∧ n ≤ x.iters) ∧
    (∃ (a : ActId) (sm1 sm2 : List Hit) (r : Routine) (e : Retain) (s : State), (s.act a.val).fmt.running = some r ∧ r.req.opc = 2 ∧ r.startAt + 10000 ≤ s.now ∧ s.samples a.val r.req.cmd (r.req.keys.headD 0) = some e) :=
  ⟨⟨0, 2 ^ 48, [⟨-12, 0⟩], [⟨-14, 0⟩], [], [], { req := { opc := 1, cmd := 1, keys := [2 ^ 48] } }, shelfAct { fmt := { running := some { req := { opc := 1, cmd := 1, keys := [2 ^ 48] } } } }, by decide⟩,
   ⟨0, 15, shelfAct { heads := [(15, { tapClamp := 256 })] }, by decide⟩,
   ⟨0, 1, 2 ^ 48, { cmd := 1, key := 2 ^ 48 }, { id := 1, op := 1 }, { shelfAct { cfe := { slots := [{ cmd := 1, key := 2 ^ 48 }] } } with now := 4000, ledger := [{ id := 1, op := 1 }] }, by decide⟩,
   ⟨63, true, {}, {}, { id := 1, engine := some 63 }, { shelf with now := 400, engines := [(63, { job := some 1 })], pool := { shelf.pool with attempts := [{ id := 1, engine := some 63 }] } }, by decide⟩,
   ⟨0, { cmd := 1 }, {}, {}, shelf, by decide⟩,
   ⟨0, { id := 1, engine := some 0, redAt := some 12, iters := 12 }, 12, { shelf with engines := [(0, { job := some 1 })], pool := { shelf.pool with attempts := [{ id := 1, engine := some 0, redAt := some 12, iters := 12 }] } }, by decide⟩,
   ⟨0, [], [], { req := { opc := 2, cmd := 1, keys := [2 ^ 48] } }, { cmd := 1, key := 2 ^ 48, replayMax := 3 }, { shelfAct { fmt := { running := some { req := { opc := 2, cmd := 1, keys := [2 ^ 48] } } }, cfe := { retained := [{ cmd := 1, key := 2 ^ 48, replayMax := 3 }] } } with now := 10000 }, by decide⟩⟩

theorem test_witness_engines_are_tested_retired_and_returned :
    (∃ (e : Fin 64) (memory : Bool) (s : State), ((s.eng e.val).state = 0 ∨ (s.eng e.val).state = 4) ∧ (s.isl (148 + e.val / 4)).reset = false ∧ (memory = true ∨ (s.eng e.val).job = none)) ∧
    (∃ (e : Fin 64) (s : State), (s.eng e.val).state = 0 ∧ (s.isl (148 + e.val / 4)).reset = false ∧ (s.eng e.val).job = none) ∧
    (∃ (r : Requester) (p : List Byte) (s : State), s.request (mbxOf r) 0x0610 = some p ∧ byteAt p 0 = 1 ∧ s.fromSteward r = true ∧ decoderFields p = true ∧ s.slotsHeld ≤ decodeSlots (s.enginesIn - 2) ∧ (s.eng (byteAt p 1 % 64)).state = 0 ∧ (s.eng (byteAt p 1 % 64)).job = none) ∧
    (∃ (r : Requester) (p : List Byte) (s : State), s.request (mbxOf r) 0x0610 = some p ∧ byteAt p 0 = 1 ∧ s.fromSteward r = true ∧ decoderFields p = true ∧ s.slotsHeld ≤ decodeSlots (s.enginesIn - 2) ∧ (s.eng (byteAt p 1 % 64)).state = 0 ∧ (s.eng (byteAt p 1 % 64)).job ≠ none) ∧
    (∃ (r : Requester) (p : List Byte) (s : State), s.request (mbxOf r) 0x0610 = some p ∧ byteAt p 0 = 2 ∧ s.fromSteward r = true ∧ decoderFields p = true ∧ (s.eng (byteAt p 1 % 64)).fails < 3) ∧
    (∃ (r : Requester) (p : List Byte) (s : State), s.request (mbxOf r) 0x0610 = some p ∧ byteAt p 0 = 3 ∧ s.seesAll r = true ∧ decoderFields p = true) ∧
    (∃ (f : FnId) (p : List Byte) (s : State), s.isSteward f.val = false ∧ s.request f.val 0x0610 = some p) :=
  ⟨⟨63, true, shelf, by decide⟩,
   ⟨0, shelf, by decide⟩,
   ⟨.fn 0, [1, 63, 0, 0, 0, 0, 0, 0], shelfAsk 0x0610 [1, 63, 0, 0, 0, 0, 0, 0], by decide +kernel⟩,
   ⟨.fn 0, [1, 63, 0, 0, 0, 0, 0, 0], { shelfAsk 0x0610 [1, 63, 0, 0, 0, 0, 0, 0] with engines := [(63, { job := some 1 })] }, by decide +kernel⟩,
   ⟨.fn 0, [2, 63, 0, 0, 0, 0, 0, 0], shelfAsk 0x0610 [2, 63, 0, 0, 0, 0, 0, 0], by decide⟩,
   ⟨.fn 0, [3, 63, 0, 0, 0, 0, 0, 0], shelfAsk 0x0610 [3, 63, 0, 0, 0, 0, 0, 0], by decide⟩,
   ⟨64, [1, 0, 0, 0, 0, 0, 0, 0], { shelf with mbxs := [(64, { busy := true, rqOp := 0x0610, rqData := [1, 0, 0, 0, 0, 0, 0, 0] })] }, by decide⟩⟩

theorem test_witness_routines_start_from_the_dispatch_queue :
    (∃ (a : ActId) (q : FmtCmd) (s : State), s.nextRoutine a.val 1 = some q) ∧
    (∃ (a : ActId) (q : FmtCmd) (s : State), s.nextRoutine a.val 2 = some q) ∧
    (∃ (a : ActId) (q : FmtCmd) (s : State), s.nextRoutine a.val 3 = some q) ∧
    (∃ (a : ActId) (q : FmtCmd) (s : State), s.nextRoutine a.val 0x10 = some q) ∧
    (∃ (a : ActId) (q : FmtCmd) (s : State), s.nextRoutine a.val 0x11 = some q) ∧
    (∃ (a : ActId) (q : FmtCmd) (s : State), s.nextRoutine a.val 0x12 = some q) ∧
    (∃ (a : ActId) (q : FmtCmd) (t : List FmtCmd) (c : Cmd) (s : State), (s.act a.val).fmt.queue = q :: t ∧ s.validOpc a.val q.opc = false ∧ (s.act a.val).fmt.running = none ∧ (s.act a.val).fmt.hold = false ∧ (s.isl a.val).reset = false ∧ s.cmd? q.cmd = some c ∧ c.dc ≠ 7) :=
  ⟨⟨0, { opc := 1, cmd := 1, fn := 0, keys := [2 ^ 48] }, shelfAct { fmt := { queue := [{ opc := 1, cmd := 1, fn := 0, keys := [2 ^ 48] }] } }, by decide⟩,
   ⟨0, { opc := 2, cmd := 1, fn := 0, keys := [2 ^ 48] }, shelfAct { fmt := { queue := [{ opc := 2, cmd := 1, fn := 0, keys := [2 ^ 48] }] } }, by decide⟩,
   ⟨0, { opc := 3, cmd := 1, fn := 0, keys := [2 ^ 48] }, shelfAct { fmt := { queue := [{ opc := 3, cmd := 1, fn := 0, keys := [2 ^ 48] }] } }, by decide⟩,
   ⟨0, { opc := 0x10, cmd := 1, fn := 0, keys := [2 ^ 48] }, { shelfAct { fmt := { queue := [{ opc := 0x10, cmd := 1, fn := 0, keys := [2 ^ 48] }] }, loop := { winh := false } } with bays := [(0, { spin := { state := 5, gait := 3, target := 3 } })] }, by decide⟩,
   ⟨0, { opc := 0x11, cmd := 1, fn := 0, keys := [2 ^ 48] }, { shelfAct { fmt := { queue := [{ opc := 0x11, cmd := 1, fn := 0, keys := [2 ^ 48] }] }, loop := { winh := false } } with bays := [(0, { spin := { state := 5, gait := 3, target := 3 } })] }, by decide⟩,
   ⟨0, { opc := 0x12, cmd := 1, fn := 0, keys := [2 ^ 48] }, { shelfAct { fmt := { queue := [{ opc := 0x12, cmd := 1, fn := 0, keys := [2 ^ 48] }] }, loop := { winh := false } } with bays := [(0, { spin := { state := 5, gait := 3, target := 3 } })] }, by decide⟩,
   ⟨0, { opc := 68, cmd := 1, fn := 0, keys := [2 ^ 48] }, [], { id := 1, op := 1 }, { shelfAct { fmt := { queue := [{ opc := 68, cmd := 1, fn := 0, keys := [2 ^ 48] }] } } with ledger := [{ id := 1, op := 1 }] }, by decide⟩⟩

theorem test_witness_writes_pass_waymarks_and_restart :
    (∃ (a : ActId) (r : Routine) (u v : State) (s : State), (s.act a.val).fmt.running = some r ∧ (r.req.opc = 0x10 ∨ r.req.opc = 0x11 ∨ r.req.opc = 0x12) ∧ u = s.cutOff r.req.cmd ∧ (r.req.cmd = 0 ∨ u.cmd? r.req.cmd ≠ none) ∧ u.intentsWritten a.val r.req (u.group a.val r.req r.done).1 = true ∧ (u.group a.val r.req r.done).1 ≠ [] ∧ v = u.passWaymark a.val r (u.group a.val r.req r.done).1 (u.group a.val r.req r.done).2 ∧ r.req.keys.length ≤ ((v.act a.val).fmt.running.getD r).done) ∧
    (∃ (a : ActId) (r : Routine) (s : State), (s.act a.val).fmt.running = some r ∧ (r.req.opc = 0x10 ∨ r.req.opc = 0x11 ∨ r.req.opc = 0x12) ∧ r.req.cmd ≠ 0 ∧ s.cmd? r.req.cmd = none) ∧
    (∃ (a : ActId) (q : FmtCmd) (s : State), s.nextRoutine a.val 0x13 = some q ∧ q.keys ≠ []) ∧
    (∃ (a : ActId) (q : FmtCmd) (u : State) (s : State), s.nextRoutine a.val 0x13 = some q ∧ q.keys = [] ∧ (u = (s.popFmt a.val).modCfe a.val fun c => { c with band := false, refTrack := none })) ∧
    (∃ (a : ActId) (s : State), (s.act a.val).fmt.jbuf ≠ [] ∧ (s.act a.val).fmt.jlast + 10000000000 ≤ s.now ∧ ((s.act a.val).graze.pending.any (·.order == 4)) = false) ∧
    (∃ (a : ActId) (r : Routine) (s : State), (s.act a.val).fmt.waiting = some r ∧ s.mayRestart a.val r = true ∧ r.req.cmd ≠ 0) ∧
    (∃ (a : ActId) (q : FmtCmd) (s : State), s.nextRoutine a.val 4 = some q ∧ (s.act a.val).fmt.wsusp.getLsbD q.head = false) ∧
    (∃ (a : ActId) (sample : BitVec 10) (ua rosc : Nat) (r : Routine) (u : State) (s : State), (s.act a.val).fmt.running = some r ∧ writes r.req.opc = true ∧ (s.act a.val).fmt.gate = true ∧ (u = s.modHead a.val r.req.head fun x => { x with rosc := rosc })) :=
  ⟨⟨0, { req := { opc := 0x11, cmd := 0, fn := 0, keys := [2 ^ 48] } }, _, _, shelfAct { fmt := { running := some { req := { opc := 0x11, cmd := 0, fn := 0, keys := [2 ^ 48] } } } }, by decide, by decide, rfl, by decide, by decide, by decide, rfl, by decide⟩,
   ⟨0, { req := { opc := 0x11, cmd := 1, fn := 0, keys := [2 ^ 48] }, endAt := true }, shelfAct { fmt := { running := some { req := { opc := 0x11, cmd := 1, fn := 0, keys := [2 ^ 48] }, endAt := true } } }, by decide⟩,
   ⟨0, { opc := 0x13, cmd := 1, fn := 0, keys := [2 ^ 48] }, { shelfAct { fmt := { queue := [{ opc := 0x13, cmd := 1, fn := 0, keys := [2 ^ 48] }] }, loop := { winh := false } } with bays := [(0, { spin := { state := 5, gait := 3, target := 3 } })] }, by decide⟩,
   ⟨0, { opc := 0x13, cmd := 1, fn := 0, keys := [] }, _, { { shelfAct { fmt := { queue := [{ opc := 0x13, cmd := 1, fn := 0, keys := [2 ^ 48] }] }, loop := { winh := false } } with bays := [(0, { spin := { state := 5, gait := 3, target := 3 } })] } with acts := [(0, { fmt := { queue := [{ opc := 0x13, cmd := 1, fn := 0, keys := [] }] }, loop := { winh := false } })] }, by decide, by decide, rfl⟩,
   ⟨0, { shelfAct { fmt := { jbuf := [{}] } } with now := 10000000000 }, by decide⟩,
   ⟨0, { req := { opc := 1, cmd := 1, fn := 0, keys := [2 ^ 48] } }, shelfAct { fmt := { waiting := some { req := { opc := 1, cmd := 1, fn := 0, keys := [2 ^ 48] } } } }, by decide⟩,
   ⟨0, { opc := 4, cmd := 1, fn := 0, keys := [2 ^ 48] }, shelfAct { fmt := { queue := [{ opc := 4, cmd := 1, fn := 0, keys := [2 ^ 48] }], sqzWait := true, sqzBand := some { opc := 0x11, cmd := 1, fn := 0, keys := [2 ^ 48] } } }, by decide⟩,
   ⟨0, 512, 1000, 50, { req := { opc := 0x11, cmd := 1, fn := 0, keys := [2 ^ 48] } }, _, shelfAct { fmt := { gate := true, running := some { req := { opc := 0x11, cmd := 1, fn := 0, keys := [2 ^ 48] } } } }, by decide, by decide, by decide, rfl⟩⟩

theorem test_witness_assist_use_is_measured_and_reported :
    (∃ (s : State), s.pwr.dutyAt + 100000000 ≤ s.now) ∧
    (∃ (r : Requester) (p : List Byte) (s : State), s.request (mbxOf r) 0x0710 = some p ∧ reservedZero p [(0, 2)] = true ∧ byteAt p 0 < 144 ∧ byteAt p 1 < 16 ∧ (s.head (byteAt p 0) (byteAt p 1)).present = true ∧ s.seesAct r (byteAt p 0) = true) ∧
    (∃ (a : ActId) (o : AsstCal) (q : FmtCmd) (s : State), s.nextRoutine a.val 0x20 = some q) ∧
    (∃ (a : ActId) (o : ChanCal) (q : FmtCmd) (s : State), s.nextRoutine a.val 0x21 = some q) :=
  ⟨⟨{ shelf with now := 100000000 }, by decide⟩,
   ⟨.fn 0, [143, 15, 0, 0], { shelfAsk 0x0710 [143, 15, 0, 0] with acts := [(143, { heads := [(15, { present := true })] })] }, by decide⟩,
   ⟨0, {}, { opc := 0x20, cmd := 1, fn := 0, keys := [2 ^ 48] }, { shelfAct { fmt := { queue := [{ opc := 0x20, cmd := 1, fn := 0, keys := [2 ^ 48] }] }, loop := { winh := false } } with bays := [(0, { spin := { state := 5, gait := 3, target := 3 } })] }, by decide⟩,
   ⟨0, {}, { opc := 0x21, cmd := 1, fn := 0, keys := [2 ^ 48] }, shelfAct { fmt := { queue := [{ opc := 0x21, cmd := 1, fn := 0, keys := [2 ^ 48] }] } }, by decide⟩⟩

theorem test_witness_wedge_records_are_classified_and_run :
    (∃ (a : ActId) (hi lo : BitVec 64) (s : State), s.processed a.val = true ∧ (s.loop a.val).tracking = true) ∧
    (∃ (a : ActId) (hi lo : BitVec 64) (s : State), s.processed a.val = false) ∧
    (∃ (a : ActId) (s : State), s.processed a.val = true ∧ (s.loop a.val).tracking = true) ∧
    (∃ (a : ActId) (o : LawOut) (s : State), (s.loop a.val).runDue = true ∧ (s.loop a.val).noEngine = false ∧ ((s.le (s.loop a.val).engine.toNat).state = 0 ∨ (s.le (s.loop a.val).engine.toNat).state = 2) ∧ lawBeyond o = false ∧ o.line = none) ∧
    (∃ (a : ActId) (o : LawOut) (k : Nat) (s : State), (s.loop a.val).runDue = true ∧ (s.loop a.val).noEngine = false ∧ ((s.le (s.loop a.val).engine.toNat).state = 0 ∨ (s.le (s.loop a.val).engine.toNat).state = 2) ∧ lawBeyond o = false ∧ o.line = some k) ∧
    (∃ (a : ActId) (o : LawOut) (s : State), (s.loop a.val).runDue = true ∧ (s.loop a.val).noEngine = false ∧ ((s.le (s.loop a.val).engine.toNat).state = 0 ∨ (s.le (s.loop a.val).engine.toNat).state = 2) ∧ lawBeyond o = true) ∧
    (∃ (a : ActId) (s : State), (s.act a.val).cwy.state = 5) ∧
    (∃ (l : Loop), l.limp = false) ∧
    (∃ (a : ActId) (s : State), (s.loop a.val).winh = true ∧ (s.loop a.val).limp = false ∧ (s.loop a.val).mode ≠ 5 ∧ (s.loop a.val).needFollow = false ∧ 4 ≤ (s.loop a.val).winhOk ∧ (s.loop a.val).winhTime + 1000 * s.cfg.winhMin.toNat ≤ s.now) :=
  ⟨⟨0, 0, 0, shelfAct { loop := { mode := 3 } }, by decide⟩,
   ⟨0, 0, 0, { shelfAct { loop := { mode := 3, limp := true, limpK := 2 } } with bays := [(0, { spin := { gait := 3 } })] }, by decide⟩,
   ⟨0, shelfAct { loop := { mode := 3 } }, by decide⟩,
   ⟨0, {}, shelfAct { loop := { runDue := true } }, by decide⟩,
   ⟨0, { line := some 7 }, 7, shelfAct { loop := { runDue := true } }, by decide⟩,
   ⟨0, { start := 3701, cycles := 0 }, shelfAct { loop := { runDue := true } }, by decide, by decide, by decide, by simp [lawBeyond]; omega⟩,
   ⟨1, shelf, by decide⟩,
   ⟨{}, rfl⟩,
   ⟨0, { shelfAct { loop := { winh := true, winhOk := 4, mode := 3, needFollow := false } } with now := 1000000000 }, by decide⟩⟩

theorem test_witness_loops_move_park_and_reload :
    (∃ (a : ActId) (mirrorOk : Bool) (s : State), (s.loop a.val).migPend = true ∧ (s.le (s.loop a.val).migTo).state = 0 ∧ (s.loop a.val).mode ≠ 5 ∧ (s.loop a.val).retractReq = none) ∧
    (∃ (b : ActId) (m : Bool) (n : Nat) (s : State), (s.bay b.val).link.spnMigTo = some n ∧ (s.le n).state = 0) ∧
    (∃ (a : ActId) (s : State), (s.loop a.val).limp = true ∧ (s.act a.val).fmt.running = none ∧ (s.loop a.val).mode ≠ 5 ∧ s.limpTarget a.val = some (s.loop a.val).engine.toNat) ∧
    (∃ (a : ActId) (s : State), (s.loop a.val).mode = 5 ∧ s.linkUp a.val = true ∧ (s.loop a.val).pendCause ≠ 3) ∧
    (∃ (a : ActId) (s : State), (s.loop a.val).mode = 5 ∧ (s.loop a.val).retractAt + 100000000 ≤ s.now) ∧
    (∃ (a : ActId) (s : State), (s.loop a.val).mode = 0 ∧ 0 < (s.loop a.val).reloadAt ∧ (s.loop a.val).reloadAt ≤ s.now ∧ (s.bay (bayOf a.val)).spin.gait ≠ 0 ∧ (s.bay (bayOf a.val)).spin.action = none ∧ s.linkUp a.val = true) ∧
    (∃ (a : ActId) (ver : BitVec 16) (set : CoeffSet) (rro : Option RroSet) (s : State), (∀ r ∈ set.laws, r.2.counted ≤ r.2.stated ∧ r.2.stated ≤ 480)) :=
  ⟨⟨0, true, shelfAct { loop := { migPend := true, migTo := 31, mode := 3 } }, by decide⟩,
   ⟨71, true, 31, { shelf with bays := [(71, { link := { spnMigTo := some 31 } })] }, by decide⟩,
   ⟨0, shelfAct { loop := { limp := true, mode := 3 } }, by decide +kernel⟩,
   ⟨0, shelfAct { loop := { mode := 5 }, cwy := { state := 5 } }, by decide⟩,
   ⟨0, { shelfAct { loop := { mode := 5 } } with now := 100000000 }, by decide⟩,
   ⟨0, { shelfAct { loop := { reloadAt := 1 }, cwy := { state := 5 } } with now := 1 }, by decide⟩,
   ⟨0, 7, { laws := [(3, {})] }, none, shelf, by decide⟩⟩

theorem test_witness_loop_engines_are_managed :
    (∃ (n : Fin 32) (s : State), (s.le n.val).state = 0) ∧
    (∃ (n : Fin 32) (s : State), (s.le n.val).state = 3 ∧ (s.isl (164 + n.val / 4)).reset = false) ∧
    (∃ (r : Requester) (p : List Byte) (n : Nat) (s : State), s.request (mbxOf r) 0x0810 = some p ∧ byteAt p 0 = 1 ∧ s.fromSteward r = true ∧ loopFields p 144 true = true ∧ s.destOf p (s.loop (byteAt p 1)).engine.toNat (s.loop (byteAt p 1)).weight false = some n) ∧
    (∃ (r : Requester) (p : List Byte) (n : Nat) (s : State), s.request (mbxOf r) 0x0810 = some p ∧ byteAt p 0 = 2 ∧ s.fromSteward r = true ∧ loopFields p 72 true = true ∧ s.destOf p (s.bay (byteAt p 1)).link.spnEngine.toNat 60 true = some n) ∧
    (∃ (r : Requester) (p : List Byte) (s : State), s.request (mbxOf r) 0x0810 = some p ∧ byteAt p 0 = 3 ∧ s.fromSteward r = true ∧ loopFields p 32 false = true ∧ (s.le (byteAt p 1)).state = 0 ∧ s.retireStrands (byteAt p 1) = false) ∧
    (∃ (r : Requester) (p : List Byte) (s : State), s.request (mbxOf r) 0x0810 = some p ∧ byteAt p 0 = 4 ∧ s.fromSteward r = true ∧ loopFields p 32 false = true ∧ (s.le (byteAt p 1)).fails.toNat < 3 ∧ (s.le (byteAt p 1)).state ≠ 0) ∧
    (∃ (r : Requester) (p : List Byte) (s : State), s.request (mbxOf r) 0x0810 = some p ∧ byteAt p 0 = 5 ∧ s.fromSteward r = true ∧ loopFields p 144 false = true ∧ (s.loop (byteAt p 1)).mode = 0) ∧
    (∃ (r : Requester) (p : List Byte) (s : State), s.request (mbxOf r) 0x0810 = some p ∧ byteAt p 0 = 6 ∧ s.seesAll r = true ∧ loopFields p 32 false = true) ∧
    (∃ (f : FnId) (n : Fin 32) (val : Word) (s : State), s.stewardMmio f.val = true ∧ s.diagOpen = true) :=
  ⟨⟨31, shelf, by decide⟩,
   ⟨31, { shelf with les := [(31, { state := 3 })] }, by decide⟩,
   ⟨.fn 0, [1, 143, 31, 0, 0, 0, 0, 0], 31, shelfAsk 0x0810 [1, 143, 31, 0, 0, 0, 0, 0], by decide +kernel⟩,
   ⟨.fn 0, [2, 71, 31, 0, 0, 0, 0, 0], 31, shelfAsk 0x0810 [2, 71, 31, 0, 0, 0, 0, 0], by decide +kernel⟩,
   ⟨.fn 0, [3, 31, 0, 0, 0, 0, 0, 0], shelfAsk 0x0810 [3, 31, 0, 0, 0, 0, 0, 0], by decide +kernel⟩,
   ⟨.fn 0, [4, 31, 0, 0, 0, 0, 0, 0], { shelfAsk 0x0810 [4, 31, 0, 0, 0, 0, 0, 0] with les := [(31, { state := 2 })] }, by decide⟩,
   ⟨.fn 0, [5, 143, 0, 0, 0, 0, 0, 0], shelfAsk 0x0810 [5, 143, 0, 0, 0, 0, 0, 0], by decide⟩,
   ⟨.fn 0, [6, 31, 0, 0, 0, 0, 0, 0], shelfAsk 0x0810 [6, 31, 0, 0, 0, 0, 0, 0], by decide⟩,
   ⟨0, 31, 0, { shelf with glb := { shelf.glb with diagEn := true } }, by decide⟩⟩

theorem test_witness_spindles_align_spin_float_and_stop :
    (∃ (b : BayId) (s : State), (s.loop (2 * b.val)).mode = 0 ∧ (s.loop (2 * b.val + 1)).mode = 0) ∧
    (∃ (b : BayId) (time fields : BitVec 32) (s : State), (s.spin b.val).repSeq ≠ some (ZcRep.of (time ++ fields)).seq ∧ s.bayUp b.val = true ∧ (s.spin b.val).observer = false) ∧
    (∃ (b : BayId) (s : State), ((s.spin b.val).state = 1 ∨ (s.spin b.val).state = 2 ∧ (s.spin b.val).openAt + openNs (s.spin b.val).openN ≤ s.now)) ∧
    (∃ (b : BayId) (rep : BitVec 64) (s : State), (s.bay b.val).link.spnNoEngine = false ∧ s.leDead (s.bay b.val).link.spnEngine.toNat = false) ∧
    (∃ (b : BayId) (s : State), (s.spin b.val).spinUp = true ∧ (s.spin b.val).state = 1 ∧ (s.spin b.val).alignAt + 200000000 ≤ s.now) ∧
    (∃ (b : BayId) (s : State), (s.spin b.val).state ≠ 6 ∧ (s.spin b.val).observer = true ∧ (s.spin b.val).interval ≠ 0 ∧ ((s.spin b.val).interval / 3 : Nat) ≤ after32 s.now ((s.spin b.val).predAt + (s.spin b.val).closed * (s.spin b.val).interval)) ∧
    (∃ (b : BayId) (s : State), (s.spin b.val).state = 6 ∧ (s.spin b.val).relocking = false ∧ (s.spin b.val).action = none ∧ (s.spin b.val).ticked + elecNs (s.spin b.val).rpm.toNat ≤ s.now) ∧
    (∃ (b : BayId) (cs : List (Nat × Nat)) (s : State), (s.spin b.val).state = 6 ∧ (s.spin b.val).relocking = true ∧ relockFit (s.spin b.val).captures = some cs) ∧
    (∃ (b : BayId) (s : State), ((s.spin b.val).state = 8 ∨ (s.spin b.val).state = 9) ∧ (s.spin b.val).lastCross + 100000000 ≤ s.now ∧ (s.spin b.val).stopAt = 0 ∧ (s.spin b.val).rpm.toNat < 1000) ∧
    (∃ (b : BayId) (s : State), (s.spin b.val).state = 9 ∧ (s.spin b.val).stopAt ≠ 0 ∧ (s.spin b.val).stopAt + 1000000000 ≤ s.now) :=
  ⟨⟨0, { shelf with bays := [(0, { spin := { pstate := 0, pwant := 0, action := some .recover, state := 7 } })] }, by decide⟩,
   ⟨0, 0, 0xFF, shelf, by decide⟩,
   ⟨0, { shelf with bays := [(0, { spin := { pstate := 0, pwant := 0, state := 1 } })] }, by decide⟩,
   ⟨0, 0, { shelf with bays := [(0, { spin := { pstate := 0, pwant := 0, state := 2, tick := true } })] }, by decide⟩,
   ⟨0, { shelf with bays := [(0, { spin := { pstate := 0, pwant := 0, state := 1, spinUp := true } })], now := 200000000 }, by decide⟩,
   ⟨0, { shelf with bays := [(0, { spin := { pstate := 0, pwant := 0, state := 5, observer := true, interval := 3 } })], now := 1000 }, by decide⟩,
   ⟨0, { shelf with bays := [(0, { spin := { pstate := 0, pwant := 0, state := 6, rpm := 7200 } })], now := 1000000000 }, by decide⟩,
   ⟨0, [(0, 0), (100, 1), (200, 2), (300, 3)], { shelf with bays := [(0, { spin := { pstate := 0, pwant := 0, state := 6, relocking := true, captures := [(0, 0), (100, 1), (200, 2), (300, 3)] } })] }, by decide⟩,
   ⟨0, { shelf with bays := [(0, { spin := { pstate := 0, pwant := 0, state := 8, rpm := 999 } })], now := 100000000 }, by decide⟩,
   ⟨0, { shelf with bays := [(0, { spin := { pstate := 0, pwant := 0, state := 9, stopAt := 1 } })], now := 1000000001 }, by decide⟩⟩

theorem test_witness_bus_voltage_and_power_cap_act :
    (∃ (d : Fin 4) (v : BitVec 12) (s : State), (s.dom d.val).chop = false ∧ v.toNat ≤ s.regenMv ∧ v.toNat ≤ 1380 ∧ 10 * s.cfg.tripV ≤ v.toNat ∧ (s.dom d.val).regenOff = false ∧ (s.dom d.val).coast = false) ∧
    (∃ (d : Fin 4) (s : State), s.lowDomains.contains d.val = true ∧ s.lowDomains.length ≤ 2 ∧ (s.dom d.val).domfault = false) ∧
    (∃ (d : Fin 4) (s : State), (s.dom d.val).domfault = true ∧ heldFor (s.dom d.val).goodAt s.now 100000000 = true) ∧
    (∃ (duty : Fin 101) (s : State), (duty.val < 10 ∨ 90 < duty.val) ∧ 1 ≤ s.pwr.badWins ∧ s.pwr.dflt = false) ∧
    (∃ (duty : Fin 101) (x : Nat) (s : State), 10 ≤ duty.val ∧ duty.val ≤ 90 ∧ s.pwr.lastDuty = some x ∧ x ≤ duty.val + 1 ∧ duty.val ≤ x + 1 ∧ s.pwr.dflt = false) ∧
    (∃ (d : Fin 4) (b : Nat) (s : State), (s.tokenQueue d.val).find? s.tokenServes = some b ∧ ((s.spin b).tokKind ≠ 2 ∨ (s.spin b).moving = true)) :=
  ⟨⟨3, 1200, shelf, by decide⟩,
   ⟨3, { shelf with now := 10000, doms := [(3, { lowAt := some 0 })] }, by decide⟩,
   ⟨3, { shelf with now := 100000000, doms := [(3, { goodAt := some 0, domfault := true })] }, by decide⟩,
   ⟨91, { shelf with pwr := { shelf.pwr with badWins := 1, dflt := false } }, by decide⟩,
   ⟨90, 89, { shelf with pwr := { shelf.pwr with lastDuty := some 89, dflt := false } }, by decide⟩,
   ⟨0, 0, { shelf with bays := [(0, { spin := { tokwait := true, goal := 3, ceilPwr := 3, tokKind := 1 }, link := { present := true } })] }, by decide +kernel⟩⟩

theorem test_witness_gait_and_power_states_follow_use :
    (∃ (b : BayId) (u : Nat → Nat) (s : State), (s.spin b.val).pstate = 0 ∧ s.ceil b.val ≠ 0 ∧ (s.spin b.val).moving = false ∧ (u = fun g => max (utilOf (s.spin b.val).gait.toNat g (s.shares (2 * b.val)).1 (s.shares (2 * b.val)).2)
        (utilOf (s.spin b.val).gait.toNat g (s.shares (2 * b.val + 1)).1 (s.shares (2 * b.val + 1)).2)) ∧ (s.spin b.val).gait.toNat < s.targetGait b.val u) ∧
    (∃ (b : BayId) (s : State), (s.spin b.val).pstate = 0 ∧ s.noAdmitted b.val = true ∧ 0 < s.devCfg.timer.idleT.toNat ∧ (s.spin b.val).lastCmd + s.devCfg.timer.idleT.toNat * 1000000000 ≤ s.now) ∧
    (∃ (b : BayId) (s : State), ((s.spin b.val).pstate = 0 ∨ (s.spin b.val).pstate = 1) ∧ s.noAdmitted b.val = true ∧ 0 < s.devCfg.timer.stbyT.toNat ∧ (s.spin b.val).lastCmd + s.devCfg.timer.stbyT.toNat * 1000000000 ≤ s.now) ∧
    (∃ (b : BayId) (s : State), (s.devCfg.timer.idleT = 0 ∨ s.noAdmitted b.val = false)) ∧
    (∃ (b : Nat) (s : State), (s.spin b).pstate ≠ 2 ∧ (¬((s.spin b).pstate = 3 ∧ (s.spin b).pwant = 2))) ∧
    (∃ (b : BayId) (s : State), (s.spin b.val).pstate = 3 ∧ (s.spin b.val).pwant = 2 ∧ s.standbyClear b.val = true ∧ (s.spin b.val).standbyRet = false ∧ ((s.spin b.val).moving = false ∨ (s.spin b.val).goal = 0) ∧ (s.spin b.val).state ≠ 0) ∧
    (∃ (r : Requester) (p : List Byte) (s : State), s.request (mbxOf r) 0x0910 = some p ∧ s.powerRefused r p (byteAt p 1 == 0) = none) ∧
    (∃ (r : Requester) (p : List Byte) (s : State), s.request (mbxOf r) 0x0911 = some p ∧ reservedZero p [(0, 1)] = true ∧ byteAt p 0 < 72 ∧ s.seesAll r = true) :=
  ⟨⟨0, _, { shelf with bays := [(0, { spin := { pstate := 0, pwant := 0, gait := 1, state := 5, ceilPwr := 3 } })] , acts := [(0, { adm := { seekLog := [(0, 1000000000)] } })], now := 1000000000 }, by decide, by decide, by decide, rfl, by decide +kernel⟩,
   ⟨0, { shelf with now := 10000000000000, cfg := { shelf.cfg with applied := { shelf.cfg.applied with timer := { idleT := 60 } } } }, by decide⟩,
   ⟨0, { shelf with now := 10000000000000, cfg := { shelf.cfg with applied := { shelf.cfg.applied with timer := { stbyT := 60 } } } }, by decide⟩,
   ⟨0, shelf, by decide⟩,
   ⟨0, shelf, by decide⟩,
   ⟨0, { shelf with bays := [(0, { spin := { pstate := 3, pwant := 2, state := 5 } })] }, by decide⟩,
   ⟨.fn 0, [0, 1, 0, 0], shelfAsk 0x0910 [0, 1, 0, 0], by decide +kernel⟩,
   ⟨.fn 0, [0, 0, 0, 0], shelfAsk 0x0911 [0, 0, 0, 0], by decide⟩⟩

theorem test_witness_links_train_fail_and_retrain :
    (∃ (a : ActId) (u1 : Bool) (fr : UpFrame) (s : State), (s.cwy a.val).state = 5 ∧ (if u1 = true then (s.cwy a.val).u1Ok else (s.cwy a.val).u0Ok) = true) ∧
    (∃ (a : ActId) (s : State), (s.cwy a.val).state = 5 ∧ (s.cwy a.val).lastOk + 2000 ≤ s.now) ∧
    (∃ (a : ActId) (s : State), (s.cwy a.val).state = 6 ∧ (s.cwy a.val).emrg = true ∧ (s.cwy a.val).lostAt + 1000000 ≤ s.now) ∧
    (∃ (a : ActId) (s : State), (s.cwy a.val).state = 6 ∧ 0 < (s.cwy a.val).retryAt ∧ (s.cwy a.val).retryAt ≤ s.now ∧ (s.bay (bayOf a.val)).link.present = true ∧ (s.bay (bayOf a.val)).link.quar = 0 ∧ (s.dom (domOf (bayOf a.val))).domfault = false) ∧
    (∃ (a : ActId) (o : TrainOut) (s : State), (s.cwy a.val).state = 2 ∧ s.now ≤ (s.cwy a.val).phaseAt + 20000000 ∧ o.dLock = true ∧ (o.u0Lock = true ∨ o.u1Lock = true)) ∧
    (∃ (a : ActId) (o : TrainOut) (s : State), (s.cwy a.val).state = 2 ∧ ((s.cwy a.val).phaseAt + 20000000 < s.now ∨ o.dLock = false ∨ o.u0Lock = false ∧ o.u1Lock = false)) ∧
    (∃ (a : ActId) (o : TrainOut) (s : State), (s.cwy a.val).state = 3) ∧
    (∃ (a : ActId) (o : TrainOut) (s : State), (s.cwy a.val).state = 4 ∧ s.now ≤ (s.cwy a.val).phaseAt + 10000000 ∧ o.dPrbs = true ∧ echoOk o.echo = true ∧ (((s.cwy a.val).tr0 = true ∧ o.u0Prbs = true) ∨ ((s.cwy a.val).tr1 = true ∧ o.u1Prbs = true))) :=
  ⟨⟨0, true, {}, { shelf with acts := [(0, { cwy := { state := 5, u0Ok := true, u1Ok := true } })] }, by decide⟩,
   ⟨0, { shelf with now := 2000 }, by decide⟩,
   ⟨0, { shelf with now := 1000000, acts := [(0, { cwy := { state := 6, emrg := true } })] }, by decide⟩,
   ⟨0, { shelf with now := 5, acts := [(0, { cwy := { state := 6, retryAt := 5 } })] }, by decide⟩,
   ⟨0, { dLock := true, u0Lock := true }, { shelf with acts := [(0, { cwy := { state := 2 } })] }, by decide⟩,
   ⟨0, { dLock := false }, { shelf with acts := [(0, { cwy := { state := 2 } })] }, by decide⟩,
   ⟨0, {}, { shelf with acts := [(0, { cwy := { state := 3 } })] }, by decide⟩,
   ⟨0, { dPrbs := true, u1Prbs := true, echo := List.replicate 16 (100, 20) }, { shelf with acts := [(0, { cwy := { state := 4, tr1 := true } })] }, by decide⟩⟩

theorem test_witness_bays_come_go_and_are_controlled :
    (∃ (b : BayId) (s : State), (s.bay b.val).link.present = false) ∧
    (∃ (b : BayId) (s : State), (s.bay b.val).link.present = true) ∧
    (∃ (b : BayId) (s : State), heldFor (s.bay b.val).link.retryAt s.now 0 = true ∧ (s.bay b.val).link.present = true ∧ (s.bay b.val).link.quar = 0) ∧
    (∃ (b : BayId) (c : CalData) (s : State), (s.bay b.val).link.step = 4 ∧ hdaFalls c.recs = 0 ∧ hdaMissing c.recs = true) ∧
    (∃ (b : BayId) (c : CalData) (s : State), (s.bay b.val).link.step = 4 ∧ hdaFalls c.recs = 0 ∧ hdaMissing c.recs = false ∧ s.sidePasses b.val 0 c = true ∧ s.sidePasses b.val 1 c = true ∧ hdaBaseline c.recs = [] ∧ c.chanBad = [] ∧ c.asstBad = []) ∧
    (∃ (r : Requester) (p : List Byte) (s : State), s.request (mbxOf r) 0x0A10 = some p ∧ byteAt p 0 = 1 ∧ s.fromSteward r = true ∧ linkFields p 144 false = true ∧ s.bayOut (bayOf (byteAt p 1)) = false ∧ (s.bay (bayOf (byteAt p 1))).link.off = false ∧ (s.loop (byteAt p 1)).mode = 0 ∧ ((s.spin (bayOf (byteAt p 1))).state = 0 ∨ s.linkUp (otherSide (byteAt p 1)) = true)) ∧
    (∃ (r : Requester) (p : List Byte) (s : State), s.request (mbxOf r) 0x0A10 = some p ∧ byteAt p 0 = 2 ∧ s.seesAll r = true ∧ linkFields p 72 false = true ∧ s.bayOut (byteAt p 1) = false) ∧
    (∃ (r : Requester) (p : List Byte) (s : State), s.request (mbxOf r) 0x0A10 = some p ∧ byteAt p 0 = 3 ∧ s.seesAll r = true ∧ linkFields p 72 false = true ∧ (s.bay (byteAt p 1)).link.prep = true ∧ (s.bay (byteAt p 1)).link.off = true) ∧
    (∃ (r : Requester) (p : List Byte) (s : State), s.request (mbxOf r) 0x0A10 = some p) :=
  ⟨⟨71, shelf, by decide⟩,
   ⟨0, shelf, by decide⟩,
   ⟨0, { shelf with now := 5, bays := [(0, { link := { present := true, retryAt := some 5 } })] }, by decide⟩,
   ⟨0, { recs := [{ typ := 8, scope := 1 }] }, { shelf with bays := [(0, { link := { step := 4 } })] }, by decide⟩,
   ⟨0, { followA := true, followB := true }, { shelf with bays := [(0, { link := { step := 4, headsA := 1, headsB := 1 } })] }, by decide⟩,
   ⟨.fn 0, [1, 0, 0, 0], shelfAsk 0x0A10 [1, 0, 0, 0], by decide⟩,
   ⟨.sideband, [2, 0, 0, 0], { shelf with mbxs := [(256, { busy := true, rqOp := 0x0A10, rqData := [2, 0, 0, 0] })] }, by decide⟩,
   ⟨.fn 0, [3, 0, 0, 0], { shelfAsk 0x0A10 [3, 0, 0, 0] with bays := [(0, { link := { present := true, prep := true, off := true } })] }, by decide⟩,
   ⟨.fn 0, [4, 143, 0, 0], shelfAsk 0x0A10 [4, 143, 0, 0], by decide⟩⟩

theorem test_witness_lines_are_scrubbed_and_groups_walked :
    (∃ (r : ScrubRead) (s : State), r.level = 0 ∧ r.fails = false ∧ s.mem.scrubDone + 1 < 390070272 + s.mem.remap.length ∧ s.mem.merge = []) ∧
    (∃ (ok : Bool) (e : MergeEnt) (t : List MergeEnt) (s : State), s.mem.merge = e :: t ∧ e.at_ + 8000 ≤ s.now ∧ (ok = true ∨ e.bytes.length = 128)) ∧
    (∃ (f : FnId) (g : Fin 8) (s : State), s.stewardMmio f.val = true) ∧
    (∃ (f : FnId) (s : State), s.stewardMmio f.val = true ∧ s.cache.cdis = false ∧ s.cache.wgon = 0xFF ∧ s.cache.walking = 0) ∧
    (∃ (f : FnId) (s : State), s.stewardMmio f.val = true ∧ s.cache.cdis = true) ∧
    (∃ (g : Fin 8) (s : State), s.cache.walking.getLsbD g.val = true ∧ s.cache.cdis = false ∧ s.cache.wgdis.getLsbD g.val = true) :=
  ⟨⟨{}, shelf, by decide⟩,
   ⟨true, { line := 128, bytes := [(0, 7)] }, [], { shelf with now := 8000, mem := { shelf.mem with merge := [{ line := 128, bytes := [(0, 7)] }] } }, by decide⟩,
   ⟨0, 7, shelf, by decide⟩,
   ⟨0, shelf, by decide⟩,
   ⟨0, { shelf with cache := { shelf.cache with cdis := true } }, by decide⟩,
   ⟨7, { shelf with cache := { shelf.cache with walking := 0x80, wgdis := 0x80 } }, by decide⟩⟩

theorem test_witness_the_layout_and_the_poison_list_are_managed :
    (∃ (r : Requester) (p : List Byte) (s : State), s.request (mbxOf r) 0x0B10 = some p ∧ byteAt p 0 = 1 ∧ layoutFields p false = true) ∧
    (∃ (r : Requester) (p : List Byte) (s : State), s.request (mbxOf r) 0x0B10 = some p ∧ byteAt p 0 = 2 ∧ layoutFields p false = true) ∧
    (∃ (r : Requester) (p : List Byte) (s : State), s.request (mbxOf r) 0x0B10 = some p ∧ byteAt p 0 = 3 ∧ s.fromSteward r = true ∧ layoutFields p true = true) ∧
    (∃ (r : Requester) (p : List Byte) (s : State), s.request (mbxOf r) 0x0B10 = some p ∧ byteAt p 0 = 4 ∧ s.fromSteward r = true ∧ layoutFields p false = true ∧ s.mem.pendLay ≠ none) ∧
    (∃ (r : Requester) (p : List Byte) (s : State), s.request (mbxOf r) 0x0B11 = some p ∧ byteAt p 0 = 1 ∧ reservedZero p [(0, 1), (4, 4)] = true) ∧
    (∃ (r : Requester) (p : List Byte) (e : PoisonEnt) (s : State), s.request (mbxOf r) 0x0B11 = some p ∧ byteAt p 0 = 2 ∧ s.fromSteward r = true ∧ reservedZero p [(0, 1), (4, 4)] = true ∧ ((s.mem.plist.find? fun e => e.id.toNat == fieldAt p 4 4) = some e)) :=
  ⟨⟨.fn 0, [1, 0, 0, 0, 0, 0, 0, 0], shelfAsk 0x0B10 [1, 0, 0, 0, 0, 0, 0, 0], by decide⟩,
   ⟨.fn 0, [2, 0, 0, 0, 0, 0, 0, 0], shelfAsk 0x0B10 [2, 0, 0, 0, 0, 0, 0, 0], by decide⟩,
   ⟨.fn 0, 3 :: List.replicate 71 0, shelfAsk 0x0B10 (3 :: List.replicate 71 0), by decide +kernel⟩,
   ⟨.fn 0, [4, 0, 0, 0, 0, 0, 0, 0], { shelfAsk 0x0B10 [4, 0, 0, 0, 0, 0, 0, 0] with mem := { shelf.mem with pendLay := some [] } }, by decide⟩,
   ⟨.fn 0, [1, 0, 0, 0, 0, 0, 0, 0], shelfAsk 0x0B11 [1, 0, 0, 0, 0, 0, 0, 0], by decide⟩,
   ⟨.fn 0, [2, 0, 0, 0, 9, 0, 0, 0], { id := 9, kind := 1, nsid := 1 }, { shelfAsk 0x0B11 [2, 0, 0, 0, 9, 0, 0, 0] with mem := { shelf.mem with plist := [{ id := 9, kind := 1, nsid := 1 }] } }, by decide⟩⟩

theorem test_witness_grazing_is_scheduled_and_controlled :
    (∃ (a : ActId) (h : HeadId) (kind gait : Fin 4) (s : State), (s.head a.val h.val).present = true ∧ s.calDue a.val h.val kind.val = true) ∧
    (∃ (a : ActId) (h : HeadId) (s : State), (s.head a.val h.val).calDue ≠ 0 ∧ (s.head a.val h.val).calDue ≤ s.now) ∧
    (∃ (a : ActId) (s : State), (s.act a.val).graze.marg8 ≠ [] ∧ (s.act a.val).graze.passEnd ≠ 0 ∧ (s.act a.val).graze.passEnd + within 7 120 28 s.cfg.scrubDNow.toNat * 10800000000000 ≤ s.now) ∧
    (∃ (a : ActId) (s : State), (s.act a.val).adm.running = none ∧ s.admittedOn a.val = [] ∧ (s.bay (bayOf a.val)).spin.gait = 0 ∧ (s.act a.val).graze.newGait = false) ∧
    (∃ (r : Requester) (p : List Byte) (s : State), s.request (mbxOf r) 0x0C10 = some p ∧ byteAt p 0 = 1 ∧ reservedZero p [(0, 8)] = true ∧ byteAt p 1 < 144 ∧ byteAt p 2 = 0 ∧ byteAt p 3 = 0 ∧ s.seesAll r = true) ∧
    (∃ (r : Requester) (p : List Byte) (s : State), s.request (mbxOf r) 0x0C10 = some p ∧ byteAt p 0 = 2 ∧ reservedZero p [(0, 8)] = true ∧ byteAt p 1 < 144 ∧ byteAt p 2 = 0 ∧ byteAt p 3 = 0 ∧ s.fromSteward r = true ∧ (((s.act (byteAt p 1)).graze.unread.any fun u => u.index == fieldAt p 4 4) = true)) ∧
    (∃ (r : Requester) (p : List Byte) (s : State), s.request (mbxOf r) 0x0C10 = some p ∧ byteAt p 0 = 2 ∧ reservedZero p [(0, 8)] = true ∧ byteAt p 1 < 144 ∧ byteAt p 2 < 16 ∧ (s.head (byteAt p 1) (byteAt p 2)).present = true ∧ s.fromSteward r = true) ∧
    (∃ (r : Requester) (p : List Byte) (s : State), s.request (mbxOf r) 0x0C10 = some p ∧ byteAt p 0 = 3 ∧ reservedZero p [(0, 8)] = true ∧ byteAt p 1 < 144 ∧ byteAt p 2 = 0 ∧ byteAt p 3 = 0 ∧ s.seesAct r (byteAt p 1) = true) ∧
    (∃ (r : Requester) (p : List Byte) (s : State), s.request (mbxOf r) 0x0C10 = some p ∧ byteAt p 0 = 4 ∧ reservedZero p [(0, 8)] = true ∧ byteAt p 1 < 144 ∧ byteAt p 2 = 0 ∧ byteAt p 3 = 0 ∧ s.fromSteward r = true) :=
  ⟨⟨0, 0, 1, 0, shelfAct { heads := [(0, { present := true, markChan := true })] }, by decide⟩,
   ⟨0, 0, { shelfAct { heads := [(0, { calDue := 5 })] } with now := 5 }, by decide⟩,
   ⟨0, { shelfAct { graze := { marg8 := [5], passEnd := 1 } } with now := 10 ^ 18 }, by decide⟩,
   ⟨143, shelf, by decide⟩,
   ⟨.fn 0, [1, 143, 0, 0, 0, 0, 0, 0], shelfAsk 0x0C10 [1, 143, 0, 0, 0, 0, 0, 0], by decide⟩,
   ⟨.fn 0, [2, 0, 0, 0, 9, 0, 0, 0], { shelfAsk 0x0C10 [2, 0, 0, 0, 9, 0, 0, 0] with acts := [(0, { graze := { unread := [{ index := 9 }] } })] }, by decide⟩,
   ⟨.fn 0, [2, 0, 0, 3, 0, 0, 0, 0], { shelfAsk 0x0C10 [2, 0, 0, 3, 0, 0, 0, 0] with acts := [(0, { heads := [(0, { present := true })] })] }, by decide⟩,
   ⟨.fn 0, [3, 143, 0, 0, 0, 0, 0, 0], shelfAsk 0x0C10 [3, 143, 0, 0, 0, 0, 0, 0], by decide⟩,
   ⟨.fn 0, [4, 143, 0, 0, 0, 0, 0, 0], shelfAsk 0x0C10 [4, 143, 0, 0, 0, 0, 0, 0], by decide⟩⟩

theorem test_witness_calref_and_temperatures_are_watched :
    (∃ (uv10 : BitVec 18) (s : State), 122500 ≤ uv10.toNat ∧ uv10.toNat ≤ 127500 ∧ s.cal.refFault = false) ∧
    (∃ (uv10 : BitVec 18) (s : State), (uv10.toNat < 122500 ∨ 127500 < uv10.toNat) ∧ s.cal.refFault = false ∧ s.cal.disagree = 2) ∧
    (∃ (uv10 : BitVec 18) (s : State), 122500 ≤ uv10.toNat ∧ uv10.toNat ≤ 127500 ∧ s.cal.refFault = true ∧ s.cal.agree = 9) ∧
    (∃ (b : BayId) (s : State), (s.bayScope b.val).level = 2 ∧ (s.bayScope b.val).stepAt + 2000000000 ≤ s.now ∧ 1 < (s.bayScope b.val).ceil.toNat) ∧
    (∃ (n : Fin 96) (s : State), (s.thm.sens 0 n.val).broken = false ∧ s.glb.coldRst = false) ∧
    (∃ (r : Requester) (p : List Byte) (s : State), s.request (mbxOf r) 0x0D10 = some p ∧ reservedZero p [(0, 3)] = true ∧ byteAt p 1 < 72 ∧ byteAt p 2 < 4 ∧ s.seesAll r = true ∧ (s.bay (byteAt p 1)).link.present = true) :=
  ⟨⟨127500, shelf, by decide⟩,
   ⟨0, { shelf with cal := { shelf.cal with disagree := 2 } }, by decide⟩,
   ⟨125000, { shelf with cal := { shelf.cal with refFault := true, agree := 9 } }, by decide⟩,
   ⟨0, { shelf with now := 2000000000, thm := { shelf.thm with bayScope := [(0, { level := 2, ceil := 3 })] } }, by decide⟩,
   ⟨95, shelf, by decide⟩,
   ⟨.fn 0, [3, 0, 3, 0, 0, 0, 0, 0], { shelfAsk 0x0D10 [3, 0, 3, 0, 0, 0, 0, 0] with thm := { shelf.thm with bay := [(3, { subst := true })] } }, by decide⟩⟩

theorem test_witness_clocks_and_crossings_recover :
    (∃ (f : FnId) (isl : BitVec 8) (flight : Tab Nat) (s : State), s.stewardMmio f.val = true ∧ s.diagOpen = true ∧ (isl.toNat < 144 ∨ 148 ≤ isl.toNat ∧ isl.toNat < 172) ∧ (s.isl isl.toNat).reset = false) ∧
    (∃ (f : FnId) (isl : BitVec 8) (flight : Tab Nat) (s : State), s.stewardMmio f.val = true ∧ (s.diagOpen = false ∨ 144 ≤ isl.toNat ∧ isl.toNat < 148 ∨ 172 ≤ isl.toNat)) ∧
    (∃ (isl : Fin 217) (flight : Tab Nat) (s : State), (s.isl isl.val).reset = false) ∧
    (∃ (isl : Fin 217) (s : State), (s.isl isl.val).reset = true ∧ (isl.val < 144 ∨ 148 ≤ isl.val ∧ isl.val < 184 ∨ 192 ≤ isl.val)) ∧
    (∃ (a : ActId) (s : State), (s.isl a.val).ready = true ∧ (s.isl a.val).switching = false ∧ s.transfers a.val = false) ∧
    (∃ (falling : Bool) (t : Nat) (s : State), s.clk.ppsEn = true ∧ s.clk.ppsFall = falling ∧ s.clk.lastEdge = some t ∧ t + 999900000 ≤ s.now ∧ s.now ≤ t + 1000100000 ∧ s.clk.pps = 2) ∧
    (∃ (s : State), s.clk.pps = 2 ∧ s.clk.lastQual + 2000000000 ≤ s.now) :=
  ⟨⟨0, 171, [], { shelf with glb := { shelf.glb with diagEn := true } }, by decide⟩,
   ⟨0, 172, [], shelf, by decide⟩,
   ⟨216, [], shelf, by decide⟩,
   ⟨171, { shelf with isls := [(171, { reset := true })] }, by decide⟩,
   ⟨143, { shelf with isls := [(143, { ready := true })] }, by decide⟩,
   ⟨false, 0, { shelf with now := 1000000000, clk := { shelf.clk with ppsEn := true, pps := 2, lastEdge := some 0 } }, by decide⟩,
   ⟨{ shelf with now := 2000000000, clk := { shelf.clk with pps := 2 } }, by decide⟩⟩

theorem test_witness_the_mailbox_serves_one_request_at_atime :
    (∃ (s : State), s.glb.coldRst = false) ∧
    (∃ (off : BitVec 16) (data : List Byte) (s : State), s.glb.coldRst = false ∧ data ≠ [] ∧ data.length ≤ 240 ∧ (s.mbx 256).busy = false) ∧
    (∃ (op len seq : BitVec 16) (s : State), s.glb.coldRst = false ∧ (s.mbx 256).busy = false) ∧
    (∃ (s : State), s.glb.coldRst = false) ∧
    (∃ (r : Requester) (key : Nat) (pass : Bool) (s : State), (s.mbx (mbxOf r)).owed = some (.sqDelete key) ∧ s.sqPending key = false) ∧
    (∃ (r : Requester) (e : Nat) (pass : Bool) (s : State), (s.mbx (mbxOf r)).owed = some (.deRetest e)) ∧
    (∃ (r : Requester) (s : State), s.request (mbxOf r) 0x0F01 = some []) :=
  ⟨⟨shelf, by decide⟩,
   ⟨0, [7], shelf, by decide⟩,
   ⟨0x0F01, 0, 9, shelf, by decide⟩,
   ⟨shelf, by decide⟩,
   ⟨.fn 0, 63, true, { shelf with mbxs := [(0, { busy := true, owed := some (.sqDelete 63) })] }, by decide⟩,
   ⟨.fn 0, 63, true, { shelf with mbxs := [(0, { busy := true, owed := some (.deRetest 63) })] }, by decide⟩,
   ⟨.fn 0, shelfAsk 0x0F01 [], by decide⟩⟩

theorem test_witness_queues_are_created_deleted_and_reset :
    (∃ (r : Requester) (p : List Byte) (s : State), s.request (mbxOf r) 0x0F10 = some p ∧ s.queueRefused (reqFn r) p ≠ 0) ∧
    (∃ (r : Requester) (p : List Byte) (s : State), s.request (mbxOf r) 0x0F10 = some p ∧ s.queueRefused (reqFn r) p = 0) ∧
    (∃ (r : Requester) (p : List Byte) (x : Cq) (s : State), s.request (mbxOf r) 0x0F11 = some p ∧ reservedZero p [(0, 2)] = true ∧ byteAt p 0 = 1 ∧ byteAt p 1 ≤ 63 ∧ s.cqs.find (64 * reqFn r + byteAt p 1) = some x) ∧
    (∃ (r : Requester) (p : List Byte) (x : Sq) (s : State), s.request (mbxOf r) 0x0F11 = some p ∧ reservedZero p [(0, 2)] = true ∧ byteAt p 0 = 0 ∧ byteAt p 1 ≤ 63 ∧ s.sqs.find (64 * reqFn r + byteAt p 1) = some x) ∧
    (∃ (r : Requester) (p : List Byte) (f : Nat) (s : State), s.request (mbxOf r) 0x0F12 = some p ∧ reservedZero p [(2, 2)] = true ∧ f = (if fieldAt p 2 2 = 0xFFFF then reqFn r else fieldAt p 2 2) ∧ s.mayResetQueues (reqFn r) f = true) :=
  ⟨⟨.fn 0, [], shelfAsk 0x0F10 [], by decide⟩,
   ⟨.fn 0, [1, 63, 0, 0, 2, 0, 0, 0, 0, 16, 0, 0, 0, 0, 0, 0], shelfAsk 0x0F10 [1, 63, 0, 0, 2, 0, 0, 0, 0, 16, 0, 0, 0, 0, 0, 0], by decide⟩,
   ⟨.fn 0, [1, 63], { size := 2 }, { shelfAsk 0x0F11 [1, 63] with cqs := [(63, { size := 2 })] }, by decide⟩,
   ⟨.fn 0, [0, 63], { size := 2 }, { shelfAsk 0x0F11 [0, 63] with sqs := [(63, { size := 2 })] }, by decide⟩,
   ⟨.fn 0, [0, 0, 255, 255], 0, shelfAsk 0x0F12 [0, 0, 255, 255], by decide⟩⟩

theorem test_witness_namespaces_are_created_granted_and_attached :
    (∃ (r : Requester) (p : List Byte) (s : State), s.request (mbxOf r) 0x0F20 = some p ∧ s.nsRefused p = 0) ∧
    (∃ (r : Requester) (p : List Byte) (s : State), s.request (mbxOf r) 0x0F21 = some p ∧ reservedZero p [(2, 2)] = true ∧ (s.ns (fieldAt p 2 2)).present = true ∧ (s.ns (fieldAt p 2 2)).ports = [] ∧ ((s.ledger.any fun c => c.nsid == fieldAt p 2 2 && !c.noEntry) = false)) ∧
    (∃ (r : Requester) (p : List Byte) (g : Bool) (s : State), s.request (mbxOf r) 0x0F22 = some p ∧ byteAt p 4 = bit g ∧ reservedZero p [(1, 4)] = true ∧ byteAt p 1 ≤ 3 ∧ (s.ns (fieldAt p 2 2)).present = true) ∧
    (∃ (r : Requester) (p : List Byte) (g : Bool) (s : State), s.request (mbxOf r) 0x0F23 = some p ∧ byteAt p 6 = bit g ∧ reservedZero p [(2, 5)] = true ∧ fieldAt p 4 2 ≤ 255 ∧ (s.ns (fieldAt p 2 2)).present = true ∧ (s.ns (fieldAt p 2 2)).ports.contains (portOf (fieldAt p 4 2)) = true ∧ (s.isSteward (reqFn r) = true ∨ portOf (reqFn r) = portOf (fieldAt p 4 2))) ∧
    (∃ (r : Requester) (p : List Byte) (s : State), s.request (mbxOf r) 0x0F24 = some p ∧ reservedZero p [(2, 2)] = true ∧ 0 < fieldAt p 2 2 ∧ fieldAt p 2 2 ≤ 4096 ∧ (s.ns (fieldAt p 2 2)).present = true ∧ s.seesNs r (s.ns (fieldAt p 2 2)) = true) :=
  ⟨⟨.fn 0, [1, 0, 2, 0, 0, 0, 5, 0, 1, 0, 0, 0, 0, 0, 0, 0, 1, 0], { shelfAsk 0x0F20 [1, 0, 2, 0, 0, 0, 5, 0, 1, 0, 0, 0, 0, 0, 0, 0, 1, 0] with acts := [(0, { med := { bands := 9 } })] }, by decide⟩,
   ⟨.fn 0, [0, 0, 7, 0], { shelfAsk 0x0F21 [0, 0, 7, 0] with nss := [(7, { present := true })] }, by decide⟩,
   ⟨.fn 0, [0, 3, 1, 0, 1], true, shelfAsk 0x0F22 [0, 3, 1, 0, 1], by decide⟩,
   ⟨.fn 0, [0, 0, 1, 0, 0, 0, 1], true, shelfAsk 0x0F23 [0, 0, 1, 0, 0, 0, 1], by decide⟩,
   ⟨.fn 0, [0, 0, 1, 0], shelfAsk 0x0F24 [0, 0, 1, 0], by decide⟩⟩

theorem test_witness_epochs_commit_apply_and_are_recorded :
    (∃ (r : Requester) (s : State), s.request (mbxOf r) 0x0F30 = some []) ∧
    (∃ (r : Requester) (s : State), s.request (mbxOf r) 0x0F30 = some [] ∧ s.cfg.left = [] ∧ s.cfg.staged.bad = [] ∧ ((s.cfg.stagedGrants.any fun g => g.grant && !(s.ns g.nsid).present) = false) ∧ (((List.range 144).filter fun a => !s.safeNow a) ≠ [])) ∧
    (∃ (a : ActId) (s : State), s.cfg.left.contains a.val = true) ∧
    (∃ (r : Requester) (s : State), s.request (mbxOf r) 0x0F31 = some []) ∧
    (∃ (s : State), s.cfg.flashPend = true) ∧
    (∃ (r : Requester) (p : List Byte) (key : Nat) (s : State), s.request (mbxOf r) 0x0F40 = some p ∧ reservedZero p [(0, 2), (4, 12)] = true ∧ byteAt p 1 ≤ 2 ∧ (byteAt p 1 = 0 ∨ isPf (reqFn r) = true) ∧ key = 4 * reqFn r + byteAt p 1) ∧
    (∃ (r : Requester) (p : List Byte) (s : State), s.request (mbxOf r) 0x0F50 = some p ∧ reservedZero p [(0, 1)] = true ∧ byteAt p 0 ≤ 3 ∧ s.glb.lck.getLsbD 0 = false ∧ (s.port s.stewardPort).h0.up = false ∧ (s.port s.stewardPort).h1.up = false ∧ (s.port s.stewardPort).downAt + 1000000000 < s.now ∧ s.stewardReady (byteAt p 0) = true) ∧
    (∃ (spin dec : Nat) (tr : Option (Nat × Nat)) (s : State), (s.tally.minute + 1) * 60000000000 ≤ s.now) :=
  ⟨⟨.fn 0, shelfAsk 0x0F30 [], by decide⟩,
   ⟨.fn 0, { shelfAsk 0x0F30 [] with acts := [(0, { loop := { mode := 3 }, cwy := { state := 5 } })] }, by decide +kernel⟩,
   ⟨143, { shelf with cfg := { shelf.cfg with left := [143] } }, by decide⟩,
   ⟨.fn 0, shelfAsk 0x0F31 [], by decide⟩,
   ⟨{ shelf with cfg := { shelf.cfg with flashPend := true } }, by decide⟩,
   ⟨.fn 0, [1, 2, 0, 0, 16, 0, 0, 0, 0, 16, 0, 0, 0, 0, 0, 0], 2, shelfAsk 0x0F40 [1, 2, 0, 0, 16, 0, 0, 0, 0, 16, 0, 0, 0, 0, 0, 0], by decide⟩,
   ⟨.sideband, [1, 0, 0, 0], { shelf with now := 1000000001, ports := [(1, { h0 := { up := true } })], fns := [(64, { mse := true })], mbxs := [(256, { busy := true, rqOp := 0x0F50, rqData := [1, 0, 0, 0] })] }, by decide⟩,
   ⟨0, 0, none, { shelf with now := 60000000000 }, by decide⟩⟩

theorem test_witness_cold_resets_and_starts_run_as_stated :
    (∃ (ns : Nat) (s : State), (ns < 1000 ∨ s.glb.coldRst = true)) ∧
    (∃ (ns : Nat) (s : State), 10000 ≤ ns ∧ s.glb.coldRst = false) ∧
    (∃ (st : Straps) (bad lost : List Nat) (s : State), s.glb.coldRst = true) ∧
    (∃ (img : FlashImage) (c : SlotCheck) (de le : List Nat) (s : State), s.boot.starting = true ∧ s.glb.coldRst = false ∧ s.now ≤ s.boot.startAt + 30000000000 ∧ c = s.readImage s.boot.slot.toNat img ∧ s.imageCause s.boot.slot.toNat c = none) ∧
    (∃ (s : State), s.boot.starting = true ∧ s.glb.coldRst = false) ∧
    (∃ (s : State), s.glb.coldRst = false ∧ s.boot.trailhead = false ∧ s.boot.starting = false ∧ s.boot.running = true) ∧
    (∃ (h : Fin 18) (s : State), s.boot.running = true ∧ s.boot.trailhead = false ∧ (s.herd h.val).running = true) ∧
    (∃ (h : Fin 18) (t : Nat) (s : State), (s.herd h.val).restart = some t) :=
  ⟨⟨999, shelf, by decide⟩,
   ⟨10000, shelf, by decide⟩,
   ⟨{}, [], [], { shelf with glb := { shelf.glb with coldRst := true } }, by decide⟩,
   ⟨goodImage, _, [], [], { shelf with boot := { shelf.boot with starting := true, running := false, slot := 1, fwkey := 1, keyHash := [(0, sha384 (List.replicate 96 0))] } }, rfl, rfl, by decide, rfl, by decide +kernel⟩,
   ⟨{ shelf with boot := { shelf.boot with starting := true, running := false } }, by decide⟩,
   ⟨shelf, by decide⟩,
   ⟨17, { shelf with herds := [(17, { running := true })] }, by decide⟩,
   ⟨17, 5, { shelf with herds := [(17, { restart := some 5 })] }, by decide⟩⟩

theorem test_witness_one_cold_reset_pulse_is_undefined :
    (∃ (c : Instr) (s : State), (∀ ns, c = .coldRstAssert ns → ns < 1000 ∨ 10000 ≤ ns ∨ s.glb.coldRst = true)) ∧
    (∃ (ns : Nat) (s : State), 1000 ≤ ns ∧ ns < 10000 ∧ s.glb.coldRst = false) :=
  ⟨⟨.timerefLost, shelf, by intro ns h; cases h⟩,
   ⟨1000, shelf, by decide⟩⟩

theorem test_witness_device_resets_and_power_loss :
    (∃ (r : Requester) (p : List Byte) (s : State), s.request (mbxOf r) 0x0E50 = some p ∧ s.fromSteward r = true ∧ reservedZero p [(0, 1)] = true ∧ s.boot.trailhead = false) ∧
    (∃ (landed : Tab (Option Nat)) (due action : Nat) (s : State), s.boot.resetReq = some (due, action) ∧ due ≤ s.now ∧ s.glb.coldRst = false ∧ action ≠ 4) ∧
    (∃ (s : State), 3 ≤ s.lowDomains.length ∧ s.boot.lossAt = none ∧ s.glb.coldRst = false) ∧
    (∃ (b : BayId) (la lb : Option Nat) (s : State), s.boot.bayFlush.contains b.val = true ∧ s.flushOver b.val la lb = true) ∧
    (∃ (b : Nat) (s : State), s.boot.bayFlush.contains b = true) ∧
    (∃ (r : Requester) (p : List Byte) (s : State), s.request (mbxOf r) 0x0E20 = some p ∧ reservedZero p [(0, 2)] = true ∧ byteAt p 1 ≤ 71 ∧ s.fromSteward r = true) :=
  ⟨⟨.fn 0, [2, 0, 0, 0], shelfAsk 0x0E50 [2, 0, 0, 0], by decide⟩,
   ⟨[], 0, 1, { shelf with boot := { shelf.boot with resetReq := some (0, 1) } }, by decide⟩,
   ⟨{ shelf with now := 10000, doms := [(1, { lowAt := some 0 }), (2, { lowAt := some 0 }), (3, { lowAt := some 0 })], cfg := { shelf.cfg with tmax := 2 } }, by decide⟩,
   ⟨0, none, none, { shelf with boot := { shelf.boot with bayFlush := [0], lossAt := some 0 }, now := 10 ^ 12 }, by decide⟩,
   ⟨0, { shelf with boot := { shelf.boot with bayFlush := [0] } }, by decide⟩,
   ⟨.fn 0, [2, 71, 0, 0], shelfAsk 0x0E20 [2, 71, 0, 0], by decide⟩⟩

theorem test_witness_slots_are_written_verified_and_chosen :
    (∃ (r : Requester) (p : List Byte) (s : State), s.request (mbxOf r) 0x0E10 = some p ∧ byteAt p 0 = 1 ∧ s.fromSteward r = true ∧ s.boot.trailhead = false ∧ writeFields p = true ∧ s.slotFixed (byteAt p 1) = false ∧ s.fwBusy = false) ∧
    (∃ (r : Requester) (p : List Byte) (s : State), s.request (mbxOf r) 0x0E10 = some p ∧ byteAt p 0 = 2 ∧ s.fromSteward r = true ∧ slotFields p = true ∧ byteAt p 1 ≠ 0 ∧ s.fwBusy = false) ∧
    (∃ (r : Requester) (p : List Byte) (s : State), s.request (mbxOf r) 0x0E10 = some p ∧ byteAt p 0 = 7 ∧ s.fromSteward r = true ∧ slotFields p = true ∧ s.slotFixed (byteAt p 1) = false ∧ s.fwBusy = false) ∧
    (∃ (r : Requester) (p : List Byte) (s : State), s.request (mbxOf r) 0x0E10 = some p ∧ byteAt p 0 = 4 ∧ noFields p = true) ∧
    (∃ (r : Requester) (p : List Byte) (s : State), s.request (mbxOf r) 0x0E10 = some p ∧ byteAt p 0 = 5 ∧ s.fromSteward r = true ∧ s.boot.trailhead = false ∧ noFields p = true) ∧
    (∃ (r : Requester) (p : List Byte) (s : State), s.request (mbxOf r) 0x0E10 = some p ∧ byteAt p 0 = 6 ∧ s.fromSteward r = true ∧ slotFields p = true ∧ byteAt p 1 ≠ 0 ∧ s.fwBusy = false ∧ s.slotBar (byteAt p 1) = 0) ∧
    (∃ (s : State), s.boot.fwState = 1) ∧
    (∃ (img : FlashImage) (s : State), s.boot.fwState = 3 ∧ s.boot.trailhead = false) :=
  ⟨⟨.fn 0, [1, 2, 0, 0, 0, 0, 0, 0, 0, 0, 0, 0, 16, 0, 0, 0] ++ List.replicate 16 7, shelfAsk 0x0E10 ([1, 2, 0, 0, 0, 0, 0, 0, 0, 0, 0, 0, 16, 0, 0, 0] ++ List.replicate 16 7), by decide⟩,
   ⟨.fn 0, [2, 2, 0, 0], shelfAsk 0x0E10 [2, 2, 0, 0], by decide⟩,
   ⟨.fn 0, [7, 2, 0, 0], shelfAsk 0x0E10 [7, 2, 0, 0], by decide⟩,
   ⟨.sideband, [4, 0, 0, 0], { shelf with mbxs := [(256, { busy := true, rqOp := 0x0E10, rqData := [4, 0, 0, 0] })] }, by decide⟩,
   ⟨.fn 0, [5, 0, 0, 0], shelfAsk 0x0E10 [5, 0, 0, 0], by decide⟩,
   ⟨.fn 0, [6, 2, 0, 0], { shelfAsk 0x0E10 [6, 2, 0, 0] with boot := { shelf.boot with slots := [(2, { verified := true })], fwkey := 1 } }, by decide⟩,
   ⟨{ shelf with boot := { shelf.boot with fwState := 1, fwSlot := 2 } }, by decide⟩,
   ⟨{}, { shelf with boot := { shelf.boot with fwState := 3, fwSlot := 2 } }, by decide⟩⟩

theorem test_witness_activations_hold_switch_and_roll_back :
    (∃ (r : Requester) (p : List Byte) (s : State), s.request (mbxOf r) 0x0E10 = some p ∧ byteAt p 0 = 3 ∧ s.fromSteward r = true ∧ s.boot.trailhead = false ∧ reservedZero p [(0, 1), (2, 2)] = true ∧ (fieldAt p 2 2 = 0 ∨ 20 ≤ fieldAt p 2 2 ∧ fieldAt p 2 2 ≤ 200) ∧ s.fwBusy = false ∧ s.cfg.left = [] ∧ s.slotBar s.actSlot = 0) ∧
    (∃ (r : Requester) (p : List Byte) (x : Act16) (s : State), s.request (mbxOf r) 0x0E10 = some p ∧ byteAt p 0 = 8 ∧ s.fromSteward r = true ∧ s.boot.trailhead = false ∧ noFields p = true ∧ s.boot.act = some x ∧ x.rolling = false) ∧
    (∃ (x : Act16) (s : State), s.boot.act = some x ∧ x.hold = false ∧ x.unit = 7 ∧ x.rolling = false ∧ ((List.range 144).all s.holdFits) = true) ∧
    (∃ (x : Act16) (s : State), s.boot.act = some x ∧ (x.unit < 7 ∨ x.unit = 7 ∧ x.hold = true) ∧ x.rolling = false) ∧
    (∃ (x : Act16) (s : State), s.boot.act = some x ∧ x.rolling = false ∧ (x.unit < 7 ∨ x.hold = true ∧ x.unit = 7) ∧ x.switchAt + 1000000000 ≤ s.now) ∧
    (∃ (h : Fin 18) (ok : Bool) (x : Act16) (s : State), s.boot.act = some x ∧ x.hold = true ∧ x.unit = 8 + h.val ∧ (((holdActs x.unit).any fun a => (s.act a).fmt.running.isSome) = false) ∧ x.rolling = false ∧ x.todo.contains 3 = true) :=
  ⟨⟨.fn 0, [3, 0, 0, 0], { shelfAsk 0x0E10 [3, 0, 0, 0] with boot := { shelf.boot with slot := 1, slots := [(2, { verified := true })], fwkey := 1 } }, by decide⟩,
   ⟨.fn 0, [8, 0, 0, 0], { slot := 2, todo := [2], unit := 7, hold := true }, { shelfAsk 0x0E10 [8, 0, 0, 0] with boot := { shelf.boot with act := some { slot := 2, todo := [2], unit := 7, hold := true } } }, by decide⟩,
   ⟨{ slot := 2, todo := [1], unit := 7 }, { shelf with boot := { shelf.boot with act := some { slot := 2, todo := [1], unit := 7 } } }, by decide +kernel⟩,
   ⟨{ slot := 2, todo := [1], unit := 6 }, { shelf with boot := { shelf.boot with act := some { slot := 2, todo := [1], unit := 6 } } }, by decide⟩,
   ⟨{ slot := 2, todo := [1], unit := 6 }, { shelf with now := 1000000000, boot := { shelf.boot with act := some { slot := 2, todo := [1], unit := 6 } } }, by decide⟩,
   ⟨17, true, { slot := 2, todo := [3], unit := 25, hold := true }, { shelf with boot := { shelf.boot with act := some { slot := 2, todo := [3], unit := 25, hold := true } } }, by decide⟩⟩

theorem test_witness_keys_are_generated_loaded_and_unloaded :
    (∃ (r : Requester) (p : List Byte) (k : Nat) (s : State), s.request (mbxOf r) 0x0E30 = some p ∧ byteAt p 0 = 1 ∧ k = (s.ns (fieldAt p 2 2)).keyslot ∧ s.keyRefused r p [(0, 1), (2, 2)] false = 0 ∧ s.glb.jtagDbg = false ∧ s.sanRunning (fieldAt p 2 2) = false ∧ (s.key k).generated = false) ∧
    (∃ (r : Requester) (p : List Byte) (k : Nat) (s : State), s.request (mbxOf r) 0x0E30 = some p ∧ (byteAt p 0 = 1 ∨ byteAt p 0 = 2) ∧ k = (s.ns (fieldAt p 2 2)).keyslot ∧ s.keyRefused r p (if byteAt p 0 = 1 then [(0, 1), (2, 2)] else [(0, 1), (2, 2), (8, 88)]) false = 0 ∧ s.glb.jtagDbg = true) ∧
    (∃ (r : Requester) (p : List Byte) (k : Nat) (s : State), s.request (mbxOf r) 0x0E30 = some p ∧ byteAt p 0 = 2 ∧ k = (s.ns (fieldAt p 2 2)).keyslot ∧ s.keyRefused r p [(0, 1), (2, 2), (8, 88)] false = 0 ∧ s.glb.jtagDbg = false ∧ s.sanRunning (fieldAt p 2 2) = false ∧ s.keyLoaded k = false ∧ p.length = 96) ∧
    (∃ (r : Requester) (p : List Byte) (k : Nat) (s : State), s.request (mbxOf r) 0x0E30 = some p ∧ byteAt p 0 = 3 ∧ k = (s.ns (fieldAt p 2 2)).keyslot ∧ s.keyRefused r p [(0, 1), (2, 2)] false = 0) ∧
    (∃ (r : Requester) (p : List Byte) (k : Nat) (s : State), s.request (mbxOf r) 0x0E30 = some p ∧ byteAt p 0 = 4 ∧ k = (s.ns (fieldAt p 2 2)).keyslot) :=
  ⟨⟨.fn 0, [1, 0, 1, 0, 0, 0, 0, 0], 0, { shelfAsk 0x0E30 [1, 0, 1, 0, 0, 0, 0, 0] with keys := [] }, by decide⟩,
   ⟨.fn 0, [1, 0, 1, 0, 0, 0, 0, 0], 0, { shelfAsk 0x0E30 [1, 0, 1, 0, 0, 0, 0, 0] with glb := { shelf.glb with jtagDbg := true } }, by decide⟩,
   ⟨.fn 0, [2, 0, 1, 0, 0, 0, 0, 0] ++ List.replicate 88 9, 0, { shelfAsk 0x0E30 ([2, 0, 1, 0, 0, 0, 0, 0] ++ List.replicate 88 9) with keys := [] }, by decide⟩,
   ⟨.fn 0, [3, 0, 1, 0, 0, 0, 0, 0], 0, shelfAsk 0x0E30 [3, 0, 1, 0, 0, 0, 0, 0], by decide⟩,
   ⟨.sideband, [4, 0, 1, 0, 0, 0, 0, 0], 0, { shelf with mbxs := [(256, { busy := true, rqOp := 0x0E30, rqData := [4, 0, 1, 0, 0, 0, 0, 0] })] }, by decide⟩⟩

theorem test_witness_sanitizes_erase_keys_and_report :
    (∃ (r : Requester) (p : List Byte) (n : Nat) (s : State), s.request (mbxOf r) 0x0E40 = some p ∧ n = fieldAt p 2 2 ∧ s.fromSteward r = true ∧ reservedZero p [(0, 4)] = true ∧ byteAt p 0 = 0 ∧ (s.ns n).present = true ∧ s.boot.sanPolicy = 0 ∧ s.sanRunning n = false) ∧
    (∃ (s : State) (kind n : Nat), (s.ns n).present = true) ∧
    (∃ (id : Nat) (o : SanOp) (s : State), ((s.sans.find? fun o => o.id == id && o.st == 0) = some o) ∧ ((s.ledger.any fun c => o.nsids.contains c.nsid && !c.noEntry) = false)) ∧
    (∃ (r : Requester) (p : List Byte) (o : SanOp) (s : State), s.request (mbxOf r) 0x0E41 = some p ∧ ((s.sans.find? fun o => o.id == fieldAt p 0 4 && reservedZero p [(0, 4)]) = some o)) :=
  ⟨⟨.fn 0, [0, 2, 1, 0, 0, 0, 0, 0], 1, shelfAsk 0x0E40 [0, 2, 1, 0, 0, 0, 0, 0], by decide⟩,
   ⟨shelf, 1, 1, by decide⟩,
   ⟨5, { id := 5, kind := 1, nsids := [1] }, { shelf with sans := [{ id := 5, kind := 1, nsids := [1] }] }, by decide⟩,
   ⟨.fn 0, [5, 0, 0, 0], { id := 5, kind := 1, nsids := [1] }, { shelfAsk 0x0E41 [5, 0, 0, 0] with sans := [{ id := 5, kind := 1, nsids := [1] }] }, by decide⟩⟩

theorem test_witness_sanitize_policy_is_held_by_its_mode :
    (∃ (r : Requester) (p : List Byte) (n : Nat) (s : State), s.request (mbxOf r) 0x0E40 = some p ∧ n = fieldAt p 2 2 ∧ s.fromSteward r = true ∧ reservedZero p [(0, 4)] = true ∧ byteAt p 0 = 0 ∧ (s.ns n).present = true ∧ s.sanRunning n = false) ∧
    (∃ (c : Instr) (s t : State), exec c s = .next t ∧ ((∀ ns, c ≠ .coldRstAssert ns) ∧ ∀ st l u, c ≠ .coldRstDeassert st l u) ∧ s.glb.lck.getLsbD 6 = true) :=
  ⟨⟨.fn 0, [0, 2, 1, 0, 0, 0, 0, 0], 1, shelfAsk 0x0E40 [0, 2, 1, 0, 0, 0, 0, 0], by decide⟩,
   ⟨.timerefRestored, { shelf with glb := { shelf.glb with lck := 0x40 } }, _, rfl, by simp, by decide⟩⟩

theorem test_witness_lock_bits_stay_set_until_acold_reset :
    (∃ (c : Instr) (s t : State), exec c s = .next t ∧ ((∀ ns, c ≠ .coldRstAssert ns) ∧ ∀ st l u, c ≠ .coldRstDeassert st l u)) ∧
    (∃ (f : FnId) (v : Word) (s : State), s.isSteward f.val = false) ∧
    (∃ (f : FnId) (v : Word) (s : State), s.stewardMmio f.val = true) :=
  ⟨⟨.timerefRestored, shelf, _, rfl, by simp⟩,
   ⟨64, 0xFFFFFFFF, shelf, by decide⟩,
   ⟨0, 0x7F, shelf, by decide⟩⟩

theorem test_witness_the_security_registers_act_as_stated :
    (∃ (f : FnId) (v : Word) (s : State), s.stewardMmio f.val = true) ∧
    (∃ (f : FnId) (v : Word) (s : State), s.stewardMmio f.val = true) :=
  ⟨⟨0, 3, shelf, by decide⟩,
   ⟨0, 3, shelf, by decide⟩⟩

theorem test_witness_registers_are_read_and_written :
    (∃ (f : FnId) (off : BitVec 22) (wide : Bool) (data : BitVec 64) (fl : Tab Nat) (s : State), s.mmio f.val = true ∧ (isPf f.val = true ∨ off.toNat < 0x10000) ∧ aligned off.toNat wide = true ∧ (inDiag f.val off.toNat = false ∨ (s.isSteward f.val && s.diagOpen) = true)) ∧
    (∃ (f : FnId) (s : State), s.mmio f.val = true ∧ isPf f.val = true ∧ s.boot.trailhead = false ∧ (s.sel (portOf f.val)).adm.toNat < 144 ∧ (s.sel (portOf f.val)).cfe.toNat < 144) ∧
    (∃ (f : FnId) (v : BitVec 32) (s : State), s.mmio f.val = true ∧ isPf f.val = true) ∧
    (∃ (f : FnId) (data : BitVec 64) (fl : Tab Nat) (s : State), s.cfgOk f.val = true) ∧
    (∃ (f : FnId) (off : BitVec 22) (wide : Bool) (s : State), s.mmio f.val = true ∧ isPf f.val = true ∧ aligned off.toNat wide = false) :=
  ⟨⟨64, 0x8600, false, 3, [], shelf.modFn 64 fun x => { x with enabled := true, mse := true }, by decide⟩,
   ⟨0, shelf, by decide⟩,
   ⟨64, 5, shelf.modFn 64 fun x => { x with enabled := true, mse := true }, by decide⟩,
   ⟨0, 6, [], shelf, by decide⟩,
   ⟨0, 4, true, shelf, by decide⟩⟩

theorem test_witness_events_latch_in_entitled_views_until_the_owner_clears :
    (∃ (src p n b : Nat) (s : State), p < 4 ∧ src < 2048 ∧ n < 64 ∧ b < 32) ∧
    (∃ (f : FnId) (n : Fin 64) (v : Word) (s : State), s.mmio f.val = true) ∧
    (∃ (f : FnId) (v : Word) (s : State), s.mmio f.val = true) :=
  ⟨⟨0x6AC, 0, 53, 12, shelf, by decide⟩,
   ⟨0, 0, 1, shelf, by decide⟩,
   ⟨0, 1, shelf, by decide⟩⟩

theorem test_witness_no_command_touches_the_queue :
    ∃ (c : Instr) (s t : State), exec c s = .next t :=
  ⟨.timerefRestored, shelf, _, rfl⟩

theorem test_witness_device_time_moves_by_ticks_discipline_and_reset :
    (∃ (s : State), s.pending = [] ∧ s.clk.slewLeft = 0 ∧ (∀ c ∈ s.ledger, c.early = false)) ∧
    (∃ (s : State), s.pending = []) ∧
    (∃ (c : Instr) (s t : State), exec c s = .next t ∧ ((∀ st l u, c ≠ .coldRstDeassert st l u) ∧ ∀ ok, c ≠ .ppsEdge ok)) :=
  ⟨⟨shelf, by decide⟩,
   ⟨{ shelf with clk := { shelf.clk with slewLeft := 3 } }, by decide⟩,
   ⟨.timerefRestored, shelf, _, rfl, by simp⟩⟩

theorem test_witness_the_fused_minimum_version_never_falls :
    ∃ (c : Instr) (s t : State), exec c s = .next t :=
  ⟨.timerefRestored, shelf, _, rfl⟩

theorem test_witness_staging_bytes_change_only_by_stores_and_resets :
    ∃ (c : Instr) (s t : State), mayStoreStaging c = false ∧ exec c s = .next t :=
  ⟨.timerefRestored, shelf, _, by decide, rfl⟩

theorem test_witness_astep_keeps_the_staging_dram_in_one_form :
    ∃ (s t : State), Memory.wf s.ram = true ∧ s.mergeWf = true ∧ step s = .next t :=
  ⟨shelf, _, by decide, by decide, rfl⟩

theorem test_witness_the_window_reads_back_what_was_stored :
    (∃ (p : PortId) (off : BitVec 36) (data : List Byte) (s : State), Memory.wf s.ram = true ∧ s.mergeWf = true ∧ s.mmio (64 * p.val) = true ∧ (s.port p.val).pend = false ∧ (s.port p.val).wcur.en = true ∧ off.toNat + data.length ≤ (s.port p.val).wcur.limit + 1 ∧ s.bar2Size p.val ≠ 0) ∧
    (∃ (p : PortId) (off : BitVec 36) (len : Fin 4097) (s : State), Memory.wf s.ram = true ∧ s.mergeWf = true ∧ s.mmio (64 * p.val) = true ∧ (s.port p.val).pend = false ∧ (s.port p.val).wcur.en = true ∧ off.toNat + len.val ≤ (s.port p.val).wcur.limit + 1 ∧ s.bar2Size p.val ≠ 0) :=
  ⟨⟨0, 0, [1, 2], { shelf with ports := [(0, { h0 := { up := true, width := 16, rate := 5 }, crs := false, wcur := { base := 0, limit := 0xFFFFF, en := true } })] }, by decide⟩,
   ⟨0, 0, 4, { shelf with ports := [(0, { h0 := { up := true, width := 16, rate := 5 }, crs := false, wcur := { base := 0, limit := 0xFFFFF, en := true } })] }, by decide⟩⟩

/-! ### Worked examples of the spec -/

/-- 06 Table 6.2: the hit at e = -9 is rejected, the one at e = 1 accepted, and the codeword starts at bit 177. -/
theorem test_table_6_2 : frameIn 12 4 [{ e := -9, dist := 4 }, { e := 1, dist := 1 }] [{ e := 1 }] = { ok := true, first := 177, rejected := 1 } := by
  decide
/-- 06 Table 6.2, the contrary case: an SM2 hit at e = -8 confirms the early hit, and the codeword starts at bit 167. -/
theorem test_table_6_2_early : (frameIn 12 4 [{ e := -9, dist := 4 }, { e := 1, dist := 1 }] [{ e := -8 }, { e := 1 }]).first = 167 := by
  decide
/-- 05, the zoned example: zone 0x1A3 of the set 32, 33, 34 lies on actuator 34, in the band of entry 139 of its list. -/
theorem test_zone_place :
    ({ ({} : Ns) with zoned := true, actset := [32, 33, 34], space := [(34, List.replicate 139 0 ++ [7])] } : Ns).locate (65536 * 0x1A3)
      = (34, 2 ^ 20 + 7, 0) := by
  decide
/-- 05, the striped example: 512 sectors from LBA 1,193,046 are three parts of 170, 256 and 86 sectors. -/
theorem test_stripe_parts :
    ((({ ({} : Ns) with actset := [8, 9, 10, 11], unit := 8 } : Ns).parts 1193046 512).map fun p => (p.act, p.count))
      = [(8, 170), (9, 256), (10, 86)] := by
  decide
/-- 05, the reference HDA at 3 %: 2,673 extents and 109,061 zones, from a geometry of its nominal capacities. -/
theorem test_reference_layout :
    (let m := ({ ({} : Med) with convPct := 3, sparePct := 10, heads := 12,
                                 zones := [{ tracks := 620245, spt := 1000, convPitch := 100000, shinPitch := 79161 }] } : Med).layOut
     (m.extents, m.bands)) = (2673, 109061) := by
  decide
/-- 03, the completion example: the eight words of a successful append on SQ 2, offset 12,096. -/
theorem test_completion_words :
    ({ tag := 0x51A7, status := 0, sq := 2, adm := 10000000000, cpl := 10003650500, act := 34, sqhd := 65, energy := 1850, result := 12096 } : Cpl).words
      true 0 = [0x51A7, 0x80020000, 0x540BE400, 0x97C40002, 0x00025443, 0x00410022, 0x73A, 0x2F40] := by
  decide
/-- SHA-384 of the empty message, by the standard the spec names (FIPS 180-4). -/
theorem test_sha384_empty : (sha384 []).take 4 = [0x38, 0xB0, 0x60, 0xA7] := by
  decide +kernel
/-- 14, the channel island example: RATE for 3.8 GS/s gives a period of 2.105 ns. -/
theorem test_channel_period : channelPs 8856 = 2105 := by
  decide

end Machine

end Sys2Proof
end

/-! ## O6: the admission of a STAGED WRITE or ZONE_APPEND, and of a LANDED WRITE to a conventional namespace -/

namespace Sys2Proof.Machine

open Sys2Proof

/-! ### What the two commands run -/

theorem exec_write (id : Nat) (s : State) : exec (.write id) s = .next (s.admitWrite id 2).runWaiting := rfl

theorem exec_zoneAppend (id : Nat) (s : State) : exec (.zoneAppend id) s = .next (s.admitWrite id 3).runWaiting := rfl

theorem State.admitWrite_of_cmd {s : State} {id : Nat} {c : Cmd} (hcmd : s.cmd? id = some c) (op : Nat) :
    s.admitWrite id op = s.testWrite op (s.asWrite op c) := by
  simp only [State.admitWrite, hcmd]

/-! ### The tests of a write, each passed -/

/-- A write that waits, meets no failure of step 8, is not held and lies on no dead head goes on to its staging (02 R45). -/
theorem State.testWrite_reaches_staging {s : State} {op : Nat} {d : Cmd} (hwait : d.waiting op = true)
    (hstep : s.step8 op (if op = 3 then d.slba / 65536 * 65536 else d.slba) d.len 0 d.nsid = none)
    (hheld : s.arrivalsHeld (((s.ns d.nsid).parts d.slba d.len).map (·.act)) = false)
    (hhead : ((s.ns d.nsid).zoned || !s.onDeadHead d) = true) :
    s.testWrite op d = s.freeLanded.testStaging d := by
  have hlive : ¬ (!(s.ns d.nsid).zoned ∧ s.onDeadHead d) := by
    rintro ⟨hconv, hdead⟩
    have hzoned : (s.ns d.nsid).zoned = true := by simpa [hdead] using hhead
    simp [hzoned] at hconv
  simp only [State.testWrite, hwait, hstep, hheld, hlive, Bool.not_true, Bool.false_eq_true, if_false]

theorem State.testStaging_staged {u : State} {d : Cmd} (hfree : d.len ≤ u.stageFree) (hdur : d.dur = false) :
    u.testStaging d = u.admitStaged d := by
  simp [State.testStaging, Nat.not_lt.mpr hfree, hdur]

theorem State.testStaging_landedConv {u : State} {d : Cmd} (hfree : d.len ≤ u.stageFree) (hdur : d.dur = true)
    (hconv : (u.ns d.nsid).zoned = false) : u.testStaging d = u.admitLandedConv d := by
  simp [State.testStaging, Nat.not_lt.mpr hfree, hdur, hconv]

theorem State.admitStaged_of_hostPasses {u : State} {d : Cmd} (hhost : u.hostPasses d (d.len * 4096) = true) :
    u.admitStaged d =
      ((u.admitWriteCmd { d with hostModel := true, promised := if d.win then 0 else d.len * 4096 }).openBuf d.id).copyWindow d.id := by
  simp only [State.admitStaged, hhost, if_true]

/-- Operations that pass the link and every plan are put in force and their actuators reach a dispatch decision (02 R44). -/
theorem State.admitOn_of_pass {u t v : State} {d : Cmd} {bytes : Nat} {ops : List (Nat × PlanOp)} (k : State → State)
    (hlink : (u.linkLow d.fn && bytes != 0 && !(u.hostPasses d bytes)) = false)
    (hplan : u.tryParts d (u.epochFor (ops.map (·.1))).1.reserve ops u = (.pass t, v)) :
    u.admitOn d bytes ops k = (k t).dispatchAll (ops.map (·.1)) := by
  simp only [State.admitOn, hlink, hplan, Bool.false_eq_true, if_false]

/-- The operation of a part runs on the actuator of that part. -/
theorem State.map_partOp_act (u : State) (d : Cmd) (ps : List Part) (read : Bool) (pre : Part → Nat) :
    (ps.map fun p => u.partOp d p read (pre p)).map (·.1) = ps.map (·.act) := by
  rw [List.map_map]; rfl

/-! ### The admissions -/

/-- A STAGED write or append whose tests all pass is admitted on the host-port model, after the freeing of landed slots (11 R311). -/
theorem State.admitWrite_staged {s : State} {id op : Nat} {c d : Cmd} (hcmd : s.cmd? id = some c) (hd : d = s.asWrite op c)
    (hwait : d.waiting op = true)
    (hstep : s.step8 op (if op = 3 then d.slba / 65536 * 65536 else d.slba) d.len 0 d.nsid = none)
    (hheld : s.arrivalsHeld (((s.ns d.nsid).parts d.slba d.len).map (·.act)) = false)
    (hhead : ((s.ns d.nsid).zoned || !s.onDeadHead d) = true) (hfree : d.len ≤ s.freeLanded.stageFree) (hdur : d.dur = false)
    (hhost : s.freeLanded.hostPasses d (d.len * 4096) = true) :
    s.admitWrite id op =
      ((s.freeLanded.admitWriteCmd
        { d with hostModel := true, promised := if d.win then 0 else d.len * 4096 }).openBuf d.id).copyWindow d.id := by
  rw [State.admitWrite_of_cmd hcmd, ← hd, State.testWrite_reaches_staging hwait hstep hheld hhead,
    State.testStaging_staged hfree hdur, State.admitStaged_of_hostPasses hhost]

/-- A LANDED write to a conventional namespace is admitted on the plans of its parts, once every one of them has passed. -/
theorem State.admitLandedConv_of_pass {u t v : State} {d : Cmd} {ps : List Part} (hps : ps = (u.ns d.nsid).parts d.slba d.len)
    (hlink : (u.linkLow d.fn && (if d.win then 0 else d.len * 4096) != 0
      && !(u.hostPasses d (if d.win then 0 else d.len * 4096))) = false)
    (hplan : u.tryParts d (u.epochFor (ps.map (·.act))).1.reserve (ps.map fun p => u.partOp d p false (u.intentNs d p.act)) u
      = (.pass t, v)) :
    u.admitLandedConv d =
      (((t.admitWriteCmd { d with parts := ps, promised := if d.win then 0 else d.len * 4096 }).openBuf d.id).copyWindow d.id).dispatchAll
        ((ps.map fun p => u.partOp d p false (u.intentNs d p.act)).map (·.1)) := by
  subst hps
  exact State.admitOn_of_pass _ hlink (by rwa [State.map_partOp_act])

/-- Settles O6: WRITE and ZONE_APPEND run one admission, whose tests are passed one after the other; the STAGED form ends on the
host-port model, the LANDED form of a conventional namespace on the plans. -/
theorem aStagedWriteReservesStagingAndIsAdmitted : Obligations.AStagedWriteReservesStagingAndIsAdmitted := by
  refine ⟨?staged, ?append, ?landed⟩
  case staged =>
    intro id c d u s hcmd hd hu hwait hstep hheld hhead hfree hdur hhost
    subst hu
    rw [exec_write, State.admitWrite_staged hcmd hd hwait hstep hheld hhead hfree hdur hhost]
  case append =>
    intro id c d u s hcmd hd hu hwait hstep hheld hhead hfree hdur hhost
    subst hu
    rw [exec_zoneAppend, State.admitWrite_staged hcmd hd hwait hstep hheld hhead hfree hdur hhost]
  case landed =>
    intro id c d ps u t v s hcmd hd hu hps hwait _ hconv hlive hheld hstep hfree hdur hlink hplan
    subst hu
    rw [exec_write, State.admitWrite_of_cmd hcmd, ← hd,
      State.testWrite_reaches_staging hwait hstep hheld (by simp [hlive]),
      State.testStaging_landedConv hfree hdur hconv, State.admitLandedConv_of_pass hps hlink hplan]

end Sys2Proof.Machine

/-! ## O4: the arrival of a fetched submission entry -/

namespace Sys2Proof.Machine

open Sys2Proof

/-! ### The arrival -/

/-- The state once one entry of SQ `k` that was being fetched has come. -/
def State.fetchedOne (s : State) (k : Nat) : State := s.modSq k fun x => { x with fetching := x.fetching - 1 }

/-- The entry `e` that arrives on SQ `q` of function `f`, with the head of its SQ after its fetch. -/
def State.arrival (s : State) (f : FnId) (q : Fin 64) (e : BitVec 512) : CheckWait :=
  let x := s.sq (64 * f.val + q.val)
  { fn := f.val, sq := q.val, cq := x.cq, sqhd := (x.head + x.size - x.fetching + 1) % x.size, entry := e }

/-- SQ `k` awaits an entry whose arrival has an effect. -/
structure State.Awaits (s : State) (k : Nat) : Prop where
  /-- the SQ exists -/
  size_ne : (s.sq k).size ≠ 0
  /-- a fetch of one of its entries is under way -/
  fetching_ne : (s.sq k).fetching ≠ 0
  /-- neither a power loss nor a device-level reset has stopped the posting of completions -/
  not_postStop : s.boot.postStop = false

/-- Such an entry is discarded by a stopped SQ, which gives its completion slot back; the checks of any other take their turn (03 R67,
R70, R82). -/
theorem exec_submissionEntryArrival_of_awaits {s : State} {f : FnId} {q : Fin 64} (e : BitVec 512)
    (hawaits : s.Awaits (64 * f.val + q.val)) :
    exec (.submissionEntryArrival f q e) s = .next (
      if (s.sq (64 * f.val + q.val)).stopped then
        (s.fetchedOne (64 * f.val + q.val)).releaseSlot f.val (s.sq (64 * f.val + q.val)).cq
      else (s.fetchedOne (64 * f.val + q.val)).checkEntry (s.arrival f q e) s.ldg.checking) :=
  congrArg Host.Outcome.next (if_neg (by
    simp only [hawaits.size_ne, hawaits.fetching_ne, hawaits.not_postStop, Bool.false_eq_true, or_self, not_false_eq_true]))

theorem exec_submissionEntryArrival_stopped {s : State} {f : FnId} {q : Fin 64} (e : BitVec 512)
    (hawaits : s.Awaits (64 * f.val + q.val)) (hstop : (s.sq (64 * f.val + q.val)).stopped = true) :
    exec (.submissionEntryArrival f q e) s =
      .next ((s.fetchedOne (64 * f.val + q.val)).releaseSlot f.val (s.sq (64 * f.val + q.val)).cq) := by
  rw [exec_submissionEntryArrival_of_awaits e hawaits, if_pos hstop]

theorem exec_submissionEntryArrival_checks {s : State} {f : FnId} {q : Fin 64} (e : BitVec 512)
    (hawaits : s.Awaits (64 * f.val + q.val)) (hrun : (s.sq (64 * f.val + q.val)).stopped = false) :
    exec (.submissionEntryArrival f q e) s =
      .next ((s.fetchedOne (64 * f.val + q.val)).checkEntry (s.arrival f q e) s.ldg.checking) := by
  rw [exec_submissionEntryArrival_of_awaits e hawaits, if_neg (Bool.eq_false_iff.1 hrun)]

/-! ### The turn of an entry -/

/-- Must the checks of entry `w` wait for one of the entries `ws`, or for an arrival on its zone (03 R82, R85)? -/
def State.mustWait (s : State) (w : CheckWait) (ws : List CheckWait) : Bool :=
  (ws.any fun x => x.fn == w.fn && x.sq == w.sq) || s.checkWaits w.fn (Entry.of w.entry) ws

theorem State.checkEntry_of_mustWait {s : State} {w : CheckWait} {ws : List CheckWait} (h : s.mustWait w ws = true) :
    s.checkEntry w ws = { s with ldg := { s.ldg with checking := s.ldg.checking ++ [w] } } := if_pos h

theorem State.checkEntry_of_turn {s : State} {w : CheckWait} {ws : List CheckWait} (h : s.mustWait w ws = false) :
    s.checkEntry w ws = s.runEntry w := if_neg (Bool.eq_false_iff.1 h)

/-- An entry that waits behind no other is checked as it comes. -/
theorem exec_submissionEntryArrival_turn {s : State} {f : FnId} {q : Fin 64} {e : BitVec 512}
    (hawaits : s.Awaits (64 * f.val + q.val)) (hrun : (s.sq (64 * f.val + q.val)).stopped = false)
    (hqueue : (s.ldg.checking.any fun w => w.fn == f.val && w.sq == q.val) = false)
    (hzone : (s.fetchedOne (64 * f.val + q.val)).checkWaits f.val (Entry.of e) s.ldg.checking = false) :
    exec (.submissionEntryArrival f q e) s =
      .next ((s.fetchedOne (64 * f.val + q.val)).runEntry (s.arrival f q e)) := by
  have hturn : (s.fetchedOne (64 * f.val + q.val)).mustWait (s.arrival f q e) s.ldg.checking = false :=
    Bool.or_eq_false_iff.2 ⟨hqueue, hzone⟩
  rw [exec_submissionEntryArrival_checks e hawaits hrun, State.checkEntry_of_turn hturn]

/-! ### The outcome of the checks -/

theorem State.runEntry_of_fail {s : State} {w : CheckWait} {st r : Nat} (h : s.checks w.fn (Entry.of w.entry) = some (st, r)) :
    s.runEntry w = s.failCheck w.fn w.sq w.cq w.sqhd (Entry.of w.entry).tag st r := by
  simp only [State.runEntry, h]

theorem State.runEntry_of_room {s : State} {w : CheckWait} (h : s.checks w.fn (Entry.of w.entry) = none)
    (hroom : s.ledgerRoom w.fn = true) : s.runEntry w = s.enterLedger w.fn w.sq w.cq w.sqhd (Entry.of w.entry) := by
  simp only [State.runEntry, h, hroom, if_true]

theorem State.runEntry_of_full {s : State} {w : CheckWait} (h : s.checks w.fn (Entry.of w.entry) = none)
    (hfull : s.ledgerRoom w.fn = false) :
    s.runEntry w =
      (({ s with ldg := { s.ldg with full := s.ldg.full + 1 } }).charge w.fn (Entry.of w.entry).nsid fun y =>
        { y with refLdg := satInc16 y.refLdg }).failCheck w.fn w.sq w.cq w.sqhd (Entry.of w.entry).tag Sts.ledgerFull 0 := by
  simp only [State.runEntry, h, hfull, Bool.false_eq_true, if_false]

/-- A failed check of a function that may post is answered at once (03 R70). -/
theorem State.failCheck_of_posts {s : State} {f : Nat} (q cq sqhd : Nat) (tag : Word) (st r : Nat) (hbme : (s.fn f).bme = true)
    (hd3 : (s.fn f).d3 = false) :
    s.failCheck f q cq sqhd tag st r =
      s.postEntry f cq { tag := tag, status := st, sq := q, adm := s.now, cpl := s.now, sqhd := sqhd, result := r } := by
  simp only [State.failCheck, hbme, hd3, Bool.not_false, Bool.and_self, if_true]

/-! ### The ledger entry -/

/-- A pin changes the staging alone. -/
theorem State.pin_changes_stage (s : State) (id : Nat) (x : Sector) : ∃ g, s.pin id x = { s with stage := g } := by
  have hrepl : ∃ g, s.replaceRead = { s with stage := g } := by
    unfold State.replaceRead
    split
    · exact ⟨s.stage, rfl⟩
    · split
      · exact ⟨s.stage, rfl⟩
      · exact ⟨_, rfl⟩
  obtain ⟨g, hg⟩ := hrepl
  unfold State.pin
  dsimp only
  split
  · exact ⟨_, rfl⟩
  · rw [hg]; exact ⟨_, rfl⟩

theorem State.each_pin_changes_stage (s : State) (id : Nat) (xs : List Sector) :
    ∃ g, (s.each xs fun s x => s.pin id x) = { s with stage := g } := by
  induction xs generalizing s with
  | nil => exact ⟨s.stage, rfl⟩
  | cons x xs ih =>
    obtain ⟨g, hg⟩ := s.pin_changes_stage id x
    obtain ⟨g', hg'⟩ := ih (s.pin id x)
    exact ⟨g', hg'.trans (by rw [hg])⟩

/-- A new entry stands last in the ledger, with the fields of its submission entry and its arrival at the present time; a CONT_READ also
changes the Recovery List and the staging (02 R31, 03 R72, R93). -/
theorem State.enterLedger_eq (s : State) (f q cq sqhd : Nat) (e : Entry) :
    ∃ (c : Cmd) (w : BitVec 18) (rs : List RecEntry) (g : Staging),
      s.enterLedger f q cq sqhd e =
        { s with ledger := s.ledger ++ [c], ldg := { s.ldg with next := s.ldg.next + 1, hwm := w }, recs := rs, stage := g } ∧
      (e.opc ≠ 0x0B → rs = s.recs ∧ g = s.stage) ∧
      c.id = s.ldg.next ∧ c.fn = f ∧ c.sq = q ∧ c.cq = cq ∧ c.tag = e.tag ∧ c.op = BitVec.ofNat 8 e.opc ∧ c.nsid = e.nsid ∧
      c.slba = e.slba ∧ c.len = e.len ∧ c.dc = e.dc ∧ c.reldl = e.reldl ∧ c.arrival = s.now ∧ c.phase = .arrived := by
  by_cases hcont : e.opc = 0x0B
  · obtain ⟨g, hg⟩ := State.each_pin_changes_stage _ _ _
    exact ⟨_, _, _, g, (if_pos hcont).trans hg, absurd hcont, rfl, rfl, rfl, rfl, rfl, rfl, rfl, rfl, rfl, rfl, rfl, rfl, rfl⟩
  · exact ⟨_, _, _, _, if_neg hcont, fun _ => ⟨rfl, rfl⟩, rfl, rfl, rfl, rfl, rfl, rfl, rfl, rfl, rfl, rfl, rfl, rfl, rfl⟩

/-- Settles O4: an arriving entry is discarded, waits, or has its turn, and then its checks enter it, refuse it, or find the ledger full. -/
theorem anEntryThatPassesTheChecksEntersTheLedger : Obligations.AnEntryThatPassesTheChecksEntersTheLedger := by
  refine ⟨?enters, ?fails, ?others⟩
  case enters =>
    rintro f q e s hsize hfetch hrun hpost ⟨hqueue, hzone, hpass, hroom⟩
    rw [exec_submissionEntryArrival_turn ⟨hsize, hfetch, hpost⟩ hrun hqueue hzone,
      State.runEntry_of_room (s := s.fetchedOne (64 * f.val + q.val)) (w := s.arrival f q e) hpass hroom]
    obtain ⟨c, w, rs, g, heq, hkeep, hfields⟩ := State.enterLedger_eq (s.fetchedOne (64 * f.val + q.val)) f.val q.val
      (s.arrival f q e).cq (s.arrival f q e).sqhd (Entry.of e)
    exact ⟨_, congrArg Host.Outcome.next heq, rfl, hkeep, rfl, rfl, c, rfl, hfields⟩
  case fails =>
    rintro f q e st r s hsize hfetch hrun hpost hbme hd3 ⟨hqueue, hzone, hfail⟩
    rw [exec_submissionEntryArrival_turn ⟨hsize, hfetch, hpost⟩ hrun hqueue hzone,
      State.runEntry_of_fail (s := s.fetchedOne (64 * f.val + q.val)) (w := s.arrival f q e) hfail]
    exact congrArg Host.Outcome.next (State.failCheck_of_posts (s := s.fetchedOne (64 * f.val + q.val)) _ _ _ _ _ _ hbme hd3)
  case others =>
    intro f q e s hsize hfetch hpost
    have hawaits : s.Awaits (64 * f.val + q.val) := ⟨hsize, hfetch, hpost⟩
    refine ⟨?discarded, ?waits, ?full⟩
    case discarded => exact exec_submissionEntryArrival_stopped e hawaits
    case waits =>
      intro hrun hwait
      rw [exec_submissionEntryArrival_checks e hawaits hrun,
        State.checkEntry_of_mustWait (s := s.fetchedOne (64 * f.val + q.val)) (w := s.arrival f q e) (Bool.or_eq_true_iff.2 hwait)]
      rfl
    case full =>
      intro hrun hqueue hzone hpass hfull
      rw [exec_submissionEntryArrival_turn hawaits hrun hqueue hzone,
        State.runEntry_of_full (s := s.fetchedOne (64 * f.val + q.val)) (w := s.arrival f q e) hpass hfull]
      rfl

end Sys2Proof.Machine

/-! ## O5: the admission of a READ, on the host-port model or on the plans of its actuators -/

namespace Sys2Proof.Machine

open Sys2Proof

theorem exec_read (id : Nat) (s : State) : exec (.read id) s = .next (s.admitRead id) := rfl

theorem State.admitRead_of_cmd {s : State} {id : Nat} {c : Cmd} (hcmd : s.cmd? id = some c) :
    s.admitRead id = s.testRead (s.asIo c) ((s.ns c.nsid).parts c.slba c.len) := by
  simp only [State.admitRead, hcmd]

/-- A READ that waits on no held actuator and needs no media is put in force once it passes the host-port model (02 R45). -/
theorem State.testRead_of_hostPasses {s : State} {d : Cmd} {ps : List Part} (hwait : d.waiting 1 = true)
    (hheld : s.arrivalsHeld (ps.map (·.act)) = false) (hoff : s.offMedia d = true) (hhost : s.hostPasses d (d.len * 4096) = true) :
    s.testRead d ps =
      (((s.admitCmd { d with hostModel := true, promised := d.len * 4096 }).readyNow d).openBuf d.id).readDone d.id := by
  simp only [State.testRead, hwait, hheld, hoff, hhost, Bool.not_true, Bool.false_eq_true, if_false, if_true]

/-- A READ that needs the media is tested on the plans of its parts (02 R44). -/
theorem State.testRead_reaches_plans {s : State} {d : Cmd} {ps : List Part} (hwait : d.waiting 1 = true)
    (hheld : s.arrivalsHeld (ps.map (·.act)) = false) (hmedia : s.offMedia d = false) :
    s.testRead d ps =
      s.admitOn d (d.len * 4096) (ps.map fun p => s.partOp d p true 0) fun t => t.startRead d ps := by
  simp only [State.testRead, hwait, hheld, hmedia, Bool.not_true, Bool.false_eq_true, if_false]

/-- A READ moves data over the link exactly when it has sectors. -/
theorem len_mul_sector_bne_zero (n : Nat) : (n * 4096 != 0) = (n != 0) := by
  rw [Bool.eq_iff_iff, bne_iff_ne, bne_iff_ne]
  omega

/-- Settles O5: the tests of a READ are passed one after the other, and end on the host-port model or on the plans. -/
theorem aReadIsAdmittedOnItsPlansOrOnTheHostPort : Obligations.AReadIsAdmittedOnItsPlansOrOnTheHostPort := by
  refine ⟨?hostPort, ?plans⟩
  case hostPort =>
    intro id c d s hcmd hd hwait hheld hoff hhost
    rw [exec_read, State.admitRead_of_cmd hcmd, ← hd, State.testRead_of_hostPasses hwait hheld hoff hhost]
  case plans =>
    intro id c d ps t u s hcmd hps hd hwait hheld hlink hmedia hplan
    rw [← len_mul_sector_bne_zero] at hlink
    rw [exec_read, State.admitRead_of_cmd hcmd, ← hd, ← hps, State.testRead_reaches_plans hwait hheld hmedia,
      State.admitOn_of_pass _ hlink (by rwa [State.map_partOp_act])]

end Sys2Proof.Machine

/-! ## O10: what time ends, and what the end of a media operation frees -/

namespace Sys2Proof.Machine

open Sys2Proof

/-! ### The deadline watch -/

theorem exec_deadlineCutoff (id : Nat) (s : State) : exec (.deadlineCutoff id) s = .next (s.cutOff id) := rfl

/-- An admitted command without a final status is past its cut-off from 20 µs before its deadline on (02 R48). -/
theorem State.pastCutoff_of_due {s : State} {c : Cmd} {d : Nat} (hdeadline : c.deadline = some d) (hadm : c.phase = .admitted)
    (hopen : c.status = none) (hdue : d ≤ s.now + 20000) : s.pastCutoff c = true := by
  simp only [State.pastCutoff, hadm, beq_self_eq_true, hopen, Option.isNone_none, Bool.and_self, hdeadline, Option.any_some, hdue,
    decide_true]

theorem State.cutOff_of_pastCutoff {s : State} {id : Nat} {c : Cmd} (hcmd : s.cmd? id = some c) (hpast : s.pastCutoff c = true) :
    s.cutOff id = s.finish id Sts.unrecoveredInDeadline 0 := by
  simp only [State.cutOff, hcmd, hpast, if_true]

/-! ### Held commands tested again -/

theorem exec_dc7Retest (id : Nat) (s : State) : exec (.dc7Retest id) s = .next (s.retest id).runWaiting := rfl

/-- The instruction of the admission test of command `c` in entry `id`, by its opcode and its zone action. -/
def Cmd.ownTest (c : Cmd) (id : Nat) : Instr :=
  if c.op = 1 then .read id else if c.op = 2 then .write id else if c.op = 3 then .zoneAppend id else if c.op = 5 then .zoneReport id
  else if c.op = 8 then .flush id else if c.op = 0x0A then .recoveryList id else if c.op = 0x0B then .contRead id
  else if c.act4 = 1 then .zoneOpen id else if c.act4 = 2 then .zoneClose id else if c.act4 = 3 then .zoneFinish id else .zoneReset id

/-- A held write or append is tested again as its own instruction tests it, which also runs the entries that waited for its zone (02 R34,
03 R82). -/
theorem exec_ownTest_of_write {s : State} {id : Nat} {c : Cmd} (hcmd : s.cmd? id = some c) (hheld : c.phase = .held)
    (hop : c.op = 2 ∨ c.op = 3) : exec (c.ownTest id) s = .next (s.retest id).runWaiting := by
  rcases hop with hop | hop
  all_goals
    delta Cmd.ownTest
    simp only [State.retest, hcmd, hheld, hop]
    rfl

theorem exec_ownTest_of_zoneAction {s : State} {id : Nat} {c : Cmd} (hcmd : s.cmd? id = some c) (hheld : c.phase = .held)
    (hop : c.op = 4) (hact : 1 ≤ c.act4 ∧ c.act4 ≤ 4) : exec (c.ownTest id) s = .next (s.retest id) := by
  obtain hact | hact | hact | hact : c.act4 = 1 ∨ c.act4 = 2 ∨ c.act4 = 3 ∨ c.act4 = 4 := by omega
  all_goals
    delta Cmd.ownTest
    simp only [State.retest, hcmd, hheld, hop, hact]
    rfl

theorem exec_ownTest_of_read_or_flush {s : State} {id : Nat} {c : Cmd} (hcmd : s.cmd? id = some c) (hheld : c.phase = .held)
    (hop : c.op = 1 ∨ c.op = 5 ∨ c.op = 8 ∨ c.op = 0x0A ∨ c.op = 0x0B) : exec (c.ownTest id) s = .next (s.retest id) := by
  rcases hop with hop | hop | hop | hop | hop
  all_goals
    delta Cmd.ownTest
    simp only [State.retest, hcmd, hheld, hop]
    rfl

/-! ### The end of a media operation, keys and the Recovery List -/

theorem exec_mediaOperationEnd (a : ActId) (s : State) : exec (.mediaOperationEnd a) s = .next (s.mediaEnd a.val) := rfl

/-- A key being unloaded is gone once no admitted command of its namespaces is left (03 R71, 16 R430). -/
theorem exec_keyUnloadComplete_of_idle {s : State} {k : Fin 4096} (hun : (s.key k.val).unloading = true)
    (hidle : (s.ledger.any fun c => c.wasAdm && c.phase != .heldCpl && c.nsid != 0 && (s.ns c.nsid).keyslot == k.val) = false) :
    exec (.keyUnloadComplete k) s = .next ((s.setKey k.val { s.key k.val with loaded := false, unloading := false }).raise 0x7A1) :=
  congrArg Host.Outcome.next (if_pos (by rw [hun, hidle]; rfl))

/-- A Recovery List entry is dropped once it has been RECOVERED, FAILED or STALE for 600 s (03 R92). -/
theorem exec_recoveryEntryExpiry (id : BitVec 16) (s : State) :
    exec (.recoveryEntryExpiry id) s =
      .next { s with recs := s.recs.filter fun r => !(r.id == id && r.st != .pending && decide (r.time + 600000000000 ≤ s.now)) } := rfl

/-- A PENDING entry fails 60 s after its creation, and its background reads are dropped (06 R182). -/
theorem exec_backgroundRecoveryTimeout_of_due {s : State} {id : BitVec 16} {r : RecEntry}
    (hrec : s.recs.find? (·.id == id) = some r) (hpend : r.st = .pending) (hdue : r.born + 60000000000 ≤ s.now) :
    exec (.backgroundRecoveryTimeout id) s =
      .next ((s.each (s.ns r.nsid).actset fun s a => s.modGraze a fun g =>
        { g with pending := g.pending.filter fun o => !(o.order == 5 && o.ref == id.toNat) }).recTo id .failed) := by
  change execBackgroundRecoveryTimeout id s = _
  simp only [execBackgroundRecoveryTimeout, hrec, hpend, hdue, and_self, if_true]

/-- Settles O10: each clause is one of the lemmas above, for the instruction it names. -/
theorem timeEndsCommandsAndRecoveryEntries : Obligations.TimeEndsCommandsAndRecoveryEntries := by
  refine ⟨?cutoff, ?cutOffs, ?retest, ?mediaEnd, ?keyUnload, ?expiry, ?timeout⟩
  case cutoff =>
    intro id c d s hcmd hdeadline hadm hopen hdue
    rw [exec_deadlineCutoff, State.cutOff_of_pastCutoff hcmd (State.pastCutoff_of_due hdeadline hadm hopen hdue)]
  case cutOffs => intro c s; rfl
  case retest =>
    intro id c s hcmd hheld haction hop
    by_cases hwrite : c.op = 2 ∨ c.op = 3
    · exact ⟨_, exec_ownTest_of_write hcmd hheld hwrite, by rw [if_pos hwrite, exec_dc7Retest]⟩
    · have hown : exec (c.ownTest id) s = .next (s.retest id) := by
        by_cases hzone : c.op = 4
        · exact exec_ownTest_of_zoneAction hcmd hheld hzone (haction.resolve_left fun hother => hother hzone)
        · obtain ⟨hnowrite, hnoappend⟩ := not_or.1 hwrite
          exact exec_ownTest_of_read_or_flush hcmd hheld (by simpa only [hnowrite, hnoappend, hzone, false_or] using hop)
      exact ⟨_, hown, by rw [if_neg hwrite, exec_dc7Retest]⟩
  case mediaEnd =>
    intro a r s hrun hholds hcut hkind hcmd hread
    rw [exec_mediaOperationEnd]
    simp only [State.mediaEnd, hrun, hholds, hcut, hkind, hcmd, hread, Option.isSome_none, Bool.false_and, Bool.false_eq_true,
      reduceCtorEq, false_and, if_false]
    rfl
  case keyUnload =>
    intro k s hun hidle
    exact exec_keyUnloadComplete_of_idle hun hidle
  case expiry =>
    intro id r s hmem hid hst hold
    refine ⟨_, exec_recoveryEntryExpiry id s, rfl, ?gone, ?others⟩
    case gone =>
      simp only [List.mem_filter, hid, beq_self_eq_true, Bool.true_and, bne_iff_ne.2 hst, hold, decide_true, Bool.not_true,
        Bool.false_eq_true, and_false, not_false_eq_true]
    case others =>
      intro q hq hne
      simp only [List.mem_filter, hq, beq_eq_false_iff_ne.2 hne, Bool.false_and, Bool.not_false, and_self]
  case timeout =>
    intro id r s hrec hpend hdue
    exact exec_backgroundRecoveryTimeout_of_due hrec hpend hdue

end Sys2Proof.Machine

/-! ## O45: the steps of a live activation -/

namespace Sys2Proof.Machine

open Sys2Proof

/-! ### FW_CTRL requests -/

/-- The slot a FW_CTRL response describes: the one its request names, or none (16 Table 16.10). -/
def repliedSlot (p : List Byte) : Nat := if byteAt p 1 ≤ 2 then byteAt p 1 else 3

/-- A FW_CTRL request of the steward with right fields, outside Trailhead mode, is answered with what its action does (16 R434). -/
theorem State.serveFw_of_steward {s : State} {r : Requester} {act : Nat} {p : List Byte} {ok : List Byte → Bool}
    (go : State → List Byte → State × Nat) (hreq : s.request (mbxOf r) 0x0E10 = some p) (hact : byteAt p 0 = act)
    (hstew : s.fromSteward r = true) (htrail : s.boot.trailhead = false) (hok : ok p = true) :
    s.serveFw r act ok go = (go s p).1.fwReply (mbxOf r) (go s p).2 (repliedSlot p) := by
  rw [State.serveFw, State.serve_ok s r _ act _ p hreq hact]
  simp only [hstew, htrail, hok, Bool.not_true, Bool.and_false, Bool.false_and, Bool.false_eq_true, if_false]
  rfl

/-! ### Steps of an activation -/

/-- Core 0, unit 7, switches with every actuator held (16 Table 16.7). -/
theorem holdActs_core0 : holdActs 7 = List.range 144 := if_pos rfl

theorem range144_isEmpty : (List.range 144).isEmpty = false := by
  simp only [List.isEmpty_eq_false_iff, ne_eq, List.range_eq_nil, reduceCtorEq, not_false_eq_true]

/-- Settles O45: each clause evaluates the step of its instruction on the unit in turn. -/
theorem activationsHoldSwitchAndRollBack : Obligations.ActivationsHoldSwitchAndRollBack := by
  refine ⟨?activate, ?cancel, ?hold, ?core, ?timeout, ?herd⟩
  case activate =>
    intro r p s hreq hact hstew htrail hzero hpause hbusy hcfg hbar
    have hok : (reservedZero p [(0, 1), (2, 2)] && (fieldAt p 2 2 == 0 || decide (20 ≤ fieldAt p 2 2 ∧ fieldAt p 2 2 ≤ 200))) = true := by
      simpa only [hzero, Bool.true_and, Bool.or_eq_true, beq_iff_eq, decide_eq_true_eq] using hpause
    refine congrArg Host.Outcome.next ((State.serveFw_of_steward _ hreq hact hstew htrail hok).trans ?_)
    simp only [hbusy, hcfg, hbar, List.isEmpty_nil, Bool.not_true, Bool.or_false, Bool.false_eq_true, ne_eq, not_true_eq_false, if_false]
    rfl
  case cancel =>
    intro r p x s hreq hact hstew htrail hzero hactv hroll
    refine congrArg Host.Outcome.next ((State.serveFw_of_steward _ hreq hact hstew htrail hzero).trans ?_)
    simp only [hactv, hroll, Bool.false_eq_true, if_false]
    rfl
  case hold =>
    intro x s hactv hhold hunit hroll hfits
    change execActivationHoldStart s = _
    simp only [execActivationHoldStart, hactv, hhold, hunit, hroll, holdActs_core0, range144_isEmpty, hfits, Bool.not_true,
      Bool.or_false, Bool.false_eq_true, if_false, Nat.reduceLeDiff, decide_false, Bool.false_and]
    rfl
  case core =>
    intro x s hactv hunit hroll
    have hready : ¬ (7 < x.unit ∨ (x.unit = 7 ∧ !x.hold)) := by
      rcases hunit with h | ⟨h, hhold⟩
      · omega
      · simp only [h, Nat.lt_irrefl, hhold, Bool.not_true, Bool.false_eq_true, and_false, or_self, not_false_eq_true]
    change execMarkhorCoreSwitch s = _
    simp only [execMarkhorCoreSwitch, hactv, hready, hroll, Bool.false_eq_true, if_false]
  case timeout =>
    intro x s hactv hroll hunit hlate
    have hcore : (decide (x.unit < 7) || (x.hold && (x.unit == 7 || x.todo.contains 2))) = true := by
      rcases hunit with h | ⟨hhold, h⟩
      · simp only [h, decide_true, Bool.true_or]
      · simp only [h, hhold, beq_self_eq_true, Bool.true_or, Bool.and_self, Bool.or_true]
    change execCoreSwitchTimeout s = _
    simp only [execCoreSwitchTimeout, hactv, hroll, hcore, Nat.not_lt.2 hlate, decide_false, Bool.not_true, Bool.or_false,
      Bool.false_eq_true, if_false]
  case herd =>
    intro h ok x s hactv hhold hunit hidle hroll hmc
    have hheld : (!x.hold || x.unit != 8 + h.val || (holdActs x.unit).any fun a => (s.act a).fmt.running.isSome) = false := by
      rw [hidle, hhold, hunit, bne_self_eq_false]
      rfl
    change execFormatterIdle h ok s = _
    simp only [execFormatterIdle, hactv, hheld, hroll, hmc, Bool.false_eq_true, if_false, if_true, Bool.true_and]
    cases ok
    · rfl
    · rfl

end Sys2Proof.Machine

/-! ## O1: accepted doorbell writes -/

namespace Sys2Proof.Machine

open Sys2Proof

theorem State.ringSq_of_accepted {s : State} {f q i : Nat} (h : (s.sq (64 * f + q)).doorbellCause i = none) :
    s.ringSq f q i = s.modSq (64 * f + q) fun x => { x with tail := i } := by
  simp only [State.ringSq, h]

theorem State.ringCq_of_accepted {s : State} {f q i : Nat} (h : (s.cq (64 * f + q)).doorbellCause i = none) :
    s.ringCq f q i = s.modCq (64 * f + q) fun x => { x with head := i } := by
  simp only [State.ringCq, h]

/-- A doorbell write that reaches BAR0 wakes the link; its lower half rings the queue (03 R64, 04 R113). -/
theorem exec_sqDoorbell_of_mmio {s : State} {f : FnId} (hmmio : s.mmio f.val = true) (q : Fin 64) (upper : Bool) (val : Word) :
    exec (.sqDoorbell f q upper val) s =
      .next (if upper || s.boot.trailhead then s.touch f.val else (s.touch f.val).ringSq f.val q.val (val.toNat % 65536)) :=
  congrArg Host.Outcome.next (State.bar0_mmio hmmio _ _)

theorem exec_cqDoorbell_of_mmio {s : State} {f : FnId} (hmmio : s.mmio f.val = true) (q : Fin 64) (upper : Bool) (val : Word) :
    exec (.cqDoorbell f q upper val) s =
      .next (if upper || s.boot.trailhead then s.touch f.val else (s.touch f.val).ringCq f.val q.val (val.toNat % 65536)) :=
  congrArg Host.Outcome.next (State.bar0_mmio hmmio _ _)

/-- Settles O1: past BAR0 the half written decides, and the queue's own test, which the wake of the link leaves as it was. -/
theorem acceptedDoorbellsMoveTheQueueIndices : Obligations.AcceptedDoorbellsMoveTheQueueIndices := by
  refine ⟨?sq, ?cq, ?upper⟩
  case sq =>
    intro f q val s hmmio htrail hacc
    rw [exec_sqDoorbell_of_mmio hmmio, htrail, Bool.or_self, if_neg Bool.false_ne_true, State.ringSq_of_accepted (s := s.touch f.val) hacc]
  case cq =>
    intro f q val s hmmio htrail hacc
    rw [exec_cqDoorbell_of_mmio hmmio, htrail, Bool.or_self, if_neg Bool.false_ne_true, State.ringCq_of_accepted (s := s.touch f.val) hacc]
  case upper =>
    intro f q val s hmmio
    exact ⟨exec_sqDoorbell_of_mmio hmmio q true val, exec_cqDoorbell_of_mmio hmmio q true val⟩

end Sys2Proof.Machine

/-! ## O3: the fetch of the next submission entry, and a fetch read in error -/

namespace Sys2Proof.Machine

open Sys2Proof

/-- The state once the read of the entry at the head of SQ `k` is issued on port `p`, with a slot of its CQ reserved (03 R63, R66). -/
def State.issueFetch (s : State) (p k : Nat) : State :=
  (((s.modPort p fun y => { y with rrNext := k, rrLeft := if 0 < y.rrLeft ∧ y.rrNext = k then y.rrLeft - 1 else 7 }).modSq k fun y =>
    { y with head := (y.head + 1) % y.size, fetching := y.fetching + 1 }).modCq (k / 64 * 64 + (s.sq k).cq) fun y =>
    { y with reserved := y.reserved + 1 }).emit
      (.hostRead (k / 64) ((s.sq k).base + 64 * (s.sq k).head) 64 (s.fn (k / 64)).relaxed)

theorem exec_submissionFetchIssue_of_next {s : State} {p : PortId} {k : Nat} (hnext : s.nextSq p.val = some k) :
    exec (.submissionFetchIssue p) s = .next (s.issueFetch p.val k) := by
  change execSubmissionFetchIssue p s = _
  simp only [execSubmissionFetchIssue, hnext]
  rfl

/-- A fetch changes its port's turn and link, the two queues, and the outputs. -/
theorem State.issueFetch_frame (s : State) (p k : Nat) :
    s.issueFetch p k =
      { s with
        ports := (s.issueFetch p k).ports, sqs := (s.issueFetch p k).sqs, cqs := (s.issueFetch p k).cqs, out := (s.issueFetch p k).out } :=
  rfl

@[simp] theorem State.issueFetch_out (s : State) (p k : Nat) :
    (s.issueFetch p k).out = .hostRead (k / 64) ((s.sq k).base + 64 * (s.sq k).head) 64 (s.fn (k / 64)).relaxed :: s.out :=
  State.emit_out ..

@[simp] theorem State.issueFetch_sq (s : State) (p k j : Nat) :
    (s.issueFetch p k).sq j =
      if j = k then { s.sq k with head := ((s.sq k).head + 1) % (s.sq k).size, fetching := (s.sq k).fetching + 1 } else s.sq j := by
  simp only [State.issueFetch, State.emit_sq, State.modCq_sq, State.sq_modSq, State.modPort_sq]

@[simp] theorem State.issueFetch_cq (s : State) (p k j : Nat) :
    (s.issueFetch p k).cq j =
      if j = k / 64 * 64 + (s.sq k).cq then
        { s.cq (k / 64 * 64 + (s.sq k).cq) with reserved := (s.cq (k / 64 * 64 + (s.sq k).cq)).reserved + 1 }
      else s.cq j := by
  simp only [State.issueFetch, State.emit_cq, State.cq_modCq, State.modSq_cq, State.modPort_cq]

/-- Settles O3: the first clause reads the issued fetch field by field; the second is the arm of a fetch read under way that
returns an error and no timeout. -/
theorem fetchReadsTheNextEntryOnceASlotIsReserved : Obligations.FetchReadsTheNextEntryOnceASlotIsReserved := by
  refine ⟨?issue, ?error⟩
  case issue =>
    intro p k s hnext
    refine ⟨s.issueFetch p.val k, exec_submissionFetchIssue_of_next hnext, s.issueFetch_frame p.val k, s.issueFetch_out p.val k, ?_, ?_, ?_, ?_⟩
    · rw [State.issueFetch_sq, if_pos rfl]
    · intro j hj
      rw [State.issueFetch_sq, if_neg hj]
    · rw [State.issueFetch_cq, if_pos rfl]
    · intro j hj
      rw [State.issueFetch_cq, if_neg hj]
  case error =>
    intro f q s hfetch
    exact congrArg Host.Outcome.next (if_neg hfetch)

end Sys2Proof.Machine

/-! ## O8: the admission of reports and of a CONT_READ -/

namespace Sys2Proof.Machine

open Sys2Proof

/-- Settles O8: each report passes its own tests in turn; the readers and pins of a CONT_READ are what `enterLedger` does once the entry
is in the ledger. -/
theorem reportsAreAdmittedWithTheirDescriptors : Obligations.ReportsAreAdmittedWithTheirDescriptors := by
  refine ⟨?zoneReport, ?recoveryList, ?contRead, ?pins⟩
  case zoneReport =>
    intro id c d s hcmd hd hwait hheld
    subst hd
    change execZoneReport id s = _
    simp only [execZoneReport, hcmd, hwait, hheld, Bool.not_true, Bool.false_eq_true, if_false]
  case recoveryList =>
    intro id c d s hcmd hd hwait
    subst hd
    change execRecoveryList id s = _
    simp only [execRecoveryList, hcmd, hwait, Bool.not_true, Bool.false_eq_true, if_false]
  case contRead =>
    intro id c d s hcmd hd hwait hhost
    subst hd
    change execContRead id s = _
    simp only [execContRead, hcmd, hwait, hhost, Bool.not_true, Bool.false_eq_true, if_false, if_true]
  case pins =>
    intro f q cq sqhd e s hopc
    refine ⟨_, ?frame, if_pos hopc⟩
    rfl

end Sys2Proof.Machine

/-! ## O9: FLUSH and ABORT, at their admission and at their completion -/

namespace Sys2Proof.Machine

open Sys2Proof

/-- What is planned on no actuator is held by none. -/
@[simp] theorem State.arrivalsHeld_nil (s : State) : s.arrivalsHeld [] = false := rfl

theorem sortBy_nil {α : Type} (le : α → α → Bool) : sortBy le [] = [] := rfl

/-- Settles O9: a FLUSH with nothing staged is planned on no actuator, so that the host-port model alone tests it. -/
theorem flushAndAbortEndAsTheRulesSay : Obligations.FlushAndAbortEndAsTheRulesSay := by
  refine ⟨?flush, ?flushComplete, ?abort, ?abortComplete⟩
  case flush =>
    intro id c d ws s hcmd hd hws hnone hwait hhost
    subst hd hws
    change execFlush id s = _
    simp only [execFlush, hcmd, hnone, List.map_nil, List.eraseDups_nil, sortBy_nil, hwait, State.arrivalsHeld_nil, List.isEmpty_nil,
      hhost, Bool.not_true, Bool.false_eq_true, if_false, if_true]
  case flushComplete =>
    intro id c s hcmd hop hadm hnone
    change execFlushComplete id s = _
    simp only [execFlushComplete, hcmd, hop, hadm, hnone, List.isEmpty_nil, and_self, if_true]
  case abort =>
    intro id c ts s hcmd hwait hts
    subst hts
    change execAbort id s = _
    simp only [execAbort, hcmd, hwait, Bool.not_true, Bool.false_eq_true, if_false]
  case abortComplete =>
    intro id c s hcmd hop hadm hfree
    change execAbortComplete id s = _
    simp only [execAbortComplete, hcmd, hop, hadm, hfree, Bool.not_false, and_self, if_true]

end Sys2Proof.Machine

/-! ## O38: the queue messages of the mailbox -/

namespace Sys2Proof.Machine

open Sys2Proof

/-- A request of a QUEUE_DELETE whose reserved bytes are 0, for a queue of either type and a number in range, has its fields right
(15 Table 15.5). -/
theorem queueDelete_fields_valid {p : List Byte} (hzero : reservedZero p [(0, 2)] = true) (htype : byteAt p 0 ≤ 1)
    (hqid : byteAt p 1 ≤ 63) : ¬ (!reservedZero p [(0, 2)] ∨ 1 < byteAt p 0 ∨ 63 < byteAt p 1) := by
  simp only [hzero, Bool.not_true, Bool.false_eq_true, Nat.not_lt.2 htype, Nat.not_lt.2 hqid, or_self, not_false_eq_true]

/-- Settles O38: a message in progress is served, and the tests of its request select the arm of each clause. -/
theorem queuesAreCreatedDeletedAndReset : Obligations.QueuesAreCreatedDeletedAndReset := by
  refine ⟨?refused, ?created, ?deletedCq, ?deletedSq, ?reset⟩
  case refused =>
    intro r p s hreq hbad
    exact congrArg Host.Outcome.next ((State.serve_any s r _ _ p hreq).trans (if_pos hbad))
  case created =>
    intro r p s hreq hok
    have hmade : ¬ s.queueRefused (reqFn r) p ≠ 0 := not_not_intro hok
    exact ⟨fun hcq => congrArg Host.Outcome.next ((State.serve_any s r _ _ p hreq).trans ((if_neg hmade).trans (if_pos hcq))),
      fun hsq => congrArg Host.Outcome.next ((State.serve_any s r _ _ p hreq).trans ((if_neg hmade).trans (if_neg hsq)))⟩
  case deletedCq =>
    intro r p x s hreq hzero htype hqid hcq
    refine congrArg Host.Outcome.next
      ((State.serve_any s r _ _ p hreq).trans ((if_neg (queueDelete_fields_valid hzero (Nat.le_of_eq htype) hqid)).trans ?_))
    rw [if_pos htype, hcq, Option.isNone_some, if_neg Bool.false_ne_true]
  case deletedSq =>
    intro r p x s hreq hzero htype hqid hsq
    refine congrArg Host.Outcome.next
      ((State.serve_any s r _ _ p hreq).trans ((if_neg (queueDelete_fields_valid hzero (by omega) hqid)).trans ?_))
    rw [if_neg (by omega), hsq, Option.isNone_some, if_neg Bool.false_ne_true]
  case reset =>
    intro r p f s hreq hzero hf hmay
    subst hf
    refine congrArg Host.Outcome.next ((State.serve_any s r _ _ p hreq).trans (if_neg ?_))
    simp only [hzero, hmay, Bool.not_true, Bool.false_eq_true, or_self, not_false_eq_true]

end Sys2Proof.Machine

/-! ## O57: what leaves the bytes of the staging DRAM alone -/

namespace Sys2Proof.Machine

open Sys2Proof

/-- A command on `s` with the outcome `o` leaves the bytes of the staging DRAM alone. -/
def KeepsRam (s : State) (o : Host.Outcome State Fault Refusal) : Prop := ∀ t, o = .next t → t.ram = s.ram

theorem keepsRam_next {s t : State} (h : t.ram = s.ram) : KeepsRam s (.next t) := by
  rintro _ ⟨⟩
  exact h

/-! ### Operations on the way to a command -/

@[simp] theorem State.writeCfg_ram (s : State) (f : Nat) (sp : RegSpace) (i : Nat) (v : BitVec 64) : (s.writeCfg f sp i v).ram = s.ram := by
  unfold State.writeCfg
  (repeat' split) <;> simp

@[simp] theorem State.wrapped_ram (s : State) : s.wrapped.2.ram = s.ram := by simp [State.wrapped]

@[simp] theorem State.exitMs_ram (s : State) (b : Nat) : (s.exitMs b).2.ram = s.ram := by
  unfold State.exitMs
  dsimp only
  split <;> simp

/-! ### Mailbox messages: what serves the request decides -/

theorem keepsRam_serve {s : State} {r : Requester} {op : Nat} {act : Option Nat} {k : List Byte → State} (hk : ∀ p, (k p).ram = s.ram) :
    KeepsRam s (.next (s.serve r op act k)) :=
  keepsRam_next (State.serve_ram _ _ _ _ _ hk)

theorem keepsRam_serveFw {s : State} {r : Requester} {act : Nat} {ok : List Byte → Bool} {go : State → List Byte → State × Nat}
    (hgo : ∀ s p, (go s p).1.ram = s.ram) : KeepsRam s (.next (s.serveFw r act ok go)) :=
  keepsRam_next (State.serveFw_ram _ _ _ _ _ hgo)

theorem keepsRam_tallyRing {s : State} {r : Requester} {act : Nat} {g : State → Nat → List Byte → Nat × State}
    (hg : ∀ s k p, (g s k p).2.ram = s.ram) : KeepsRam s (.next (s.tallyRing r act g)) :=
  keepsRam_next (State.tallyRing_ram _ _ _ _ hg)

/-! ### Every command -/

theorem exec_keepsRam (c : Instr) (s : State) (hc : mayStoreStaging c = false) : KeepsRam s (exec c s) := by
  cases c
  -- these may store
  case bar2Read | bar2Write | coldRstAssert | coldRstDeassert | coreSwitchTimeout | dc7Retest | deviceLevelReset | formatterIdle |
      fwActivate | fwCancelActivation | herdFirmwareRestartEnd | markhorCoreSwitch | markhorWatchdog | mergeEntryAge | scrubLineRead |
      startImageInvalid | startTimeout | windowSwitch | write | zoneAppend => cases hc
  -- shared operations in turn, each with its own rule
  case sqDoorbell | cqDoorbell | submissionEntryArrival | sqFetchError | read | zoneOpen | zoneClose | zoneFinish | zoneReset |
      mediaOperationEnd | deadlineCutoff | keyUnloadComplete | recoveryEntryExpiry | hostDataCompletion | hostCompletionTimeout |
      bmeClear | bmeSet | functionLevelReset | pcieLinkUp | pcieLinkDown | pcieRetrain | perstAssert | perstDeassert |
      refusedRequest | twnCommit | l1Entry | glbStewardWrite | cfgAdmStatRead | cfgCfeStatRead | cfgDecWaitmaxRead | evtLatchClear |
      evtFnLatchClear | powerLossDeclared | holdupFlushEnd | atiLimitReached | atiHoldLimit | atiCheckpoint | mediaFormatNamespace |
      mediaFormatActuator | tapClampLimit | decoderSelfTest | decoderRetire | decoderRetest | decoderStatus | writeConv | writeBand |
      writeLanding | journalWriteDue | dutyWindowEnd | assistStatus | positionRecord | recordMissingTimeout | runOverrun |
      commandSlotDeparture | writeInhibitRelease | parkReport | retractEmrgTimeout | reloadRequest | loopEngineSelfTest |
      coeffSetLoad | loopRetireEngine | loopRetestEngine | loopReloadActuator | loopEngineStatus | traceArm | traceForce |
      zeroCrossingReport | commutationTick | spinUpPhaseTimer | observerWindowClose | floatPeriodEnd | busSample |
      spindleStopDetected | shortedHoldEnd | domainFault | domainRestore | gaitTargetRecompute | powerProjection | pwrcapWindow |
      idleTimerExpiry | standbyTimerExpiry | standbyEntryReady | powerStateActive | powerStateIdle | powerStateStandby |
      upstreamFrame | upstreamSilenceTimeout | emrgPeriodEnd | causewayRetrain | trainingPhaseEnd | insertionDeclared |
      removalDeclared | bringUpRetry | calibrationCheckEnd | linkRetrainActuator | linkPrepareRemoval | linkCancelPreparation |
      linkStatus | linkReadDescriptor | wayGroupDisable | wayGroupEnable | cacheDisable | cacheEnable | wayGroupWalkEnd |
      layoutReadInForce | layoutWritePending | layoutDiscardPending | poisonRead | calibrationDue | planEmptyPeriod | assistCalRetry |
      calrefCheck | grazeReadUnreadable | grazeClearEntry | grazeRecalChannel | grazeRecalServo | grazeRecalAssist | grazeWearStatus |
      grazePlanEmptyRequest | thermalEvaluation | thermtrip | thermalBayStatus | thermalSubstitute | thermalEndSubstitution |
      islandReset | crossingRearm | timerefLost | timerefRestored | ppsEdge | ppsLost | smbusRequestWrite | smbusStatusRead |
      smbusReadOffset | smbusResponseRead | identify | queueCreate | queueDelete | queueReset | nsCreate | nsDelete | nsGrant |
      nsRevoke | nsAttach | nsDetach | nsInfo | cfgStatus | epochSafePoint | tallyRingStatus | stewardMove | tallyMinuteEnd |
      startComplete | chamoisWatchdog | deviceReset | trailheadReset | fwStatus | fwRaiseSvn | quarantineStatus | quarantineRelease |
      keyLoad | keyUnload | keyStatus | sanitizeCryptoErase | sanitizeOverwrite | lckCtrlWrite | dbgCtrlWrite | bootFwkeyWrite |
      slotEraseEnd | slotVerifyEnd | d3hotTransition | vfEnableChange | jtagInstruction | smbusRequestStart | islandHardFaultReset |
      marginalRereadDue => exact keepsRam_next (by simp)
  -- mailbox messages whose reply depends on the request
  case fwErase | fwSetPreferred | fwVerify | fwWrite =>
    exact keepsRam_serveFw fun s p => by dsimp only; (repeat' split) <;> simp
  case tallyRingCreate | tallyRingDelete =>
    exact keepsRam_tallyRing fun s k p => by split <;> simp
  case keyGenerate | loopMigrateActuator | loopMigrateSpindle | poisonClear | powerStatus =>
    refine keepsRam_serve fun p => ?_
    dsimp only
    (repeat' split) <;> simp
  case sanitizeStatus | mediaFormatStatus =>
    refine keepsRam_serve fun p => ?_
    (repeat' split) <;> simp
  -- the kind of the operand decides
  case registerWrite f sp off wide data flight =>
    refine keepsRam_next ?_
    cases sp <;> simp
  case ceilingStepTimer b =>
    cases b <;> exact keepsRam_next (by simp)
  -- what one look-up finds decides
  case submissionFetchIssue | zoneReport | flush | abort | recoveryList | contRead | flushComplete | abortComplete |
      backgroundRecoveryTimeout | registerLowHalfRead | formatStart | sectorFraming | detectionNotice | iterationBoundary | readRun |
      readReplay | readAverage | assistCal | channelCal | waymarkPassed | assistFeedback | spinUpTokenGrant | layoutReadPending |
      clockSwitch | mailboxDeferredResponse | flashRecordWritten | activationHoldStart | sanitizeWaitEnd =>
    refine keepsRam_next ?_
    split <;> simp
  -- what several look-ups in turn find decides
  case roundRedetectionDone | actuatorRun | spindleActionStart =>
    refine keepsRam_next ?_
    (repeat' split) <;> simp
  case sectorDelivery | replayLlrsReady | squeezeCheck | writeRecord | romFaultRoutine | routineRestart | migrationTaken | limpExit |
      spindleRun | relockAttemptEnd | cfgCommit =>
    refine keepsRam_next ?_
    dsimp only
    (repeat' split) <;> simp

/-- Settles O57: a command outside the list leaves the listed bytes themselves as they were. -/
theorem stagingBytesChangeOnlyByStoresAndResets : Obligations.StagingBytesChangeOnlyByStoresAndResets := by
  intro c s t hc hexec a
  rw [exec_keepsRam c s hc t hexec]

end Sys2Proof.Machine

/-! ## O60: a byte written through the transit window is the byte read back -/

/-! ### Sparse tables with rising rows -/

namespace Sys2Proof

theorem rising_iff {α : Type} (t : Tab α) : rising t = true ↔ t.Pairwise (·.1 < ·.1) := by
  induction t with
  | nil => simp [rising]
  | cons r t ih =>
    cases t with
    | nil => simp [rising]
    | cons r' t =>
      have htrans : r.1 < r'.1 → (r' :: t).Pairwise (·.1 < ·.1) → ∀ q ∈ t, r.1 < q.1 := fun h hp q hq =>
        Nat.lt_trans h (List.rel_of_pairwise_cons hp hq)
      simp only [rising, Bool.and_eq_true, decide_eq_true_eq, ih, List.pairwise_cons (a := r), List.forall_mem_cons]
      exact ⟨fun ⟨h, hp⟩ => ⟨⟨h, htrans h hp⟩, hp⟩, fun ⟨h, hp⟩ => ⟨h.1, hp⟩⟩

theorem Tab.find_eq_none {α : Type} {t : Tab α} {k : Nat} (h : ∀ r ∈ t, r.1 ≠ k) : Tab.find t k = none := by
  induction t with
  | nil => rfl
  | cons r t ih => rw [Tab.find, if_neg (h r List.mem_cons_self), ih fun q hq => h q (List.mem_cons_of_mem r hq)]

theorem Tab.find_del {α : Type} (t : Tab α) (k j : Nat) : Tab.find (Tab.del t k) j = if j = k then none else Tab.find t j := by
  induction t with
  | nil => simp [Tab.del, Tab.find]
  | cons r t ih =>
    have ih : Tab.find (t.filter fun r => r.1 != k) j = if j = k then none else Tab.find t j := ih
    by_cases h : r.1 = k
    · by_cases hj : j = k <;> simp_all [Tab.del, Tab.find, Ne.symm]
    · by_cases hj : r.1 = j <;> simp_all [Tab.del, Tab.find]

theorem Tab.find_ins {α : Type} (t : Tab α) {k : Nat} (v : α) (j : Nat) (h : ∀ r ∈ t, r.1 ≠ k) :
    Tab.find (Tab.ins k v t) j = if j = k then some v else Tab.find t j := by
  induction t with
  | nil => simp [Tab.ins, Tab.find, eq_comm]
  | cons r t ih =>
    have hr : r.1 ≠ k := h r List.mem_cons_self
    have ih := ih fun q hq => h q (List.mem_cons_of_mem r hq)
    by_cases hlt : k < r.1
    · simp only [Tab.ins, hlt, if_true, Tab.find, eq_comm]
    · simp only [Tab.ins, hlt, if_false, Tab.find, ih]
      by_cases hj : r.1 = j
      · simp [hj ▸ hr, hj]
      · simp [hj]

/-- Looking a row up after a row was put in. -/
theorem Tab.find_put {α : Type} (t : Tab α) (k : Nat) (v : α) (j : Nat) :
    Tab.find (t.put k v) j = if j = k then some v else Tab.find t j := by
  rw [Tab.put, Tab.find_ins, Tab.find_del]
  · split <;> rfl
  · intro r hr
    simpa using (List.mem_filter.1 hr).2

theorem Tab.mem_ins {α : Type} {t : Tab α} {k : Nat} {v : α} {r : Nat × α} : r ∈ Tab.ins k v t ↔ r = (k, v) ∨ r ∈ t := by
  induction t with
  | nil => simp [Tab.ins]
  | cons q t ih =>
    unfold Tab.ins
    split
    · simp
    · rw [List.mem_cons, ih, List.mem_cons]
      exact or_left_comm

theorem Tab.pairwise_ins {α : Type} {t : Tab α} {k : Nat} (v : α) (ht : t.Pairwise (·.1 < ·.1)) (hk : ∀ r ∈ t, r.1 ≠ k) :
    (Tab.ins k v t).Pairwise (·.1 < ·.1) := by
  induction t with
  | nil => simp [Tab.ins]
  | cons r t ih =>
    obtain ⟨hr, htail⟩ := List.pairwise_cons.1 ht
    unfold Tab.ins
    split
    next hlt =>
      refine List.pairwise_cons.2 ⟨fun q hq => ?_, ht⟩
      rcases List.mem_cons.1 hq with rfl | hq
      · exact hlt
      · exact Nat.lt_trans hlt (hr q hq)
    next hge =>
      have hne : r.1 ≠ k := hk r List.mem_cons_self
      refine List.pairwise_cons.2 ⟨fun q hq => ?_, ih htail fun q hq => hk q (List.mem_cons_of_mem r hq)⟩
      rcases Tab.mem_ins.1 hq with rfl | hq
      · exact Nat.lt_of_le_of_ne (Nat.le_of_not_lt hge) hne
      · exact hr q hq

theorem Tab.mem_put {α : Type} {t : Tab α} {k : Nat} {v : α} {r : Nat × α} (h : r ∈ t.put k v) : r = (k, v) ∨ r ∈ t :=
  (Tab.mem_ins.1 h).imp_right fun hr => (List.mem_filter.1 hr).1

/-- Putting a row in keeps the rows rising. -/
theorem Tab.pairwise_put {α : Type} {t : Tab α} (k : Nat) (v : α) (ht : t.Pairwise (·.1 < ·.1)) : (t.put k v).Pairwise (·.1 < ·.1) :=
  Tab.pairwise_ins v (ht.filter _) fun r hr => by simpa using (List.mem_filter.1 hr).2

/-- Rising rows that fill the numbers from `j` on are numbered one after the other. -/
theorem Tab.keys_eq_range' {α : Type} {t : Tab α} {j : Nat} (ht : t.Pairwise (·.1 < ·.1)) (hge : ∀ r ∈ t, j ≤ r.1)
    (hlt : ∀ r ∈ t, r.1 < j + t.length) : t.map (·.1) = List.range' j t.length := by
  induction t generalizing j with
  | nil => rfl
  | cons r t ih =>
    obtain ⟨hr, ht⟩ := List.pairwise_cons.1 ht
    have hj : j ≤ r.1 := hge r List.mem_cons_self
    have htail : t.map (·.1) = List.range' (j + 1) t.length := by
      refine ih ht (fun q hq => Nat.lt_of_le_of_lt hj (hr q hq)) fun q hq => ?_
      have := hlt q (List.mem_cons_of_mem r hq)
      rw [List.length_cons] at this
      omega
    have hhead : r.1 = j := by
      cases t with
      | nil =>
        have := hlt r List.mem_cons_self
        rw [List.length_singleton] at this
        omega
      | cons q t =>
        have hq : q.1 = j + 1 := (List.cons.inj htail).1
        have := hr q List.mem_cons_self
        omega
    rw [List.map_cons, List.length_cons, List.range'_succ, htail, hhead]

end Sys2Proof

namespace Sys2Proof.Machine

open Sys2Proof

/-! ### Bytes put into a line of the DRAM -/

/-- The DRAM with the bytes of a merge entry put at their offsets in the line at `x` (11 R328). -/
def ramMerge (m : List Host.Cell) (x : Nat) (l : Tab Byte) : List Host.Cell := l.foldl (fun m (i, b) => ramSet m (x + i) b) m

/-- Bytes at every offset from `j` on are bytes written one after the other. -/
theorem ramWrite_eq_ramMerge (m : List Host.Cell) (x j : Nat) {l : Tab Byte} (h : l.map (·.1) = List.range' j l.length) :
    ramWrite m (x + j) (l.map (·.2)) = ramMerge m x l := by
  induction l generalizing m j with
  | nil => rfl
  | cons r l ih =>
    rw [List.map_cons, List.length_cons, List.range'_succ, List.cons.injEq] at h
    obtain ⟨hr, hl⟩ := h
    rw [List.map_cons, ramWrite, Nat.add_assoc, ih _ _ hl, ← hr]
    rfl

theorem ramRead_ramMerge {m : List Host.Cell} (hm : Memory.wf m = true) (x a : Nat) {l : Tab Byte} (hl : l.Pairwise (·.1 < ·.1)) :
    ramRead (ramMerge m x l) a = if x ≤ a then (Tab.find l (a - x)).getD (ramRead m a) else ramRead m a := by
  induction l generalizing m with
  | nil => simp [ramMerge, Tab.find]
  | cons r l ih =>
    obtain ⟨hr, hl⟩ := List.pairwise_cons.1 hl
    have hgone : Tab.find l r.1 = none := Tab.find_eq_none fun q hq => Nat.ne_of_gt (hr q hq)
    rw [ramMerge, List.foldl_cons, ← ramMerge, ih (ramSet_wf hm _ _) hl, ramRead_ramSet hm, Tab.find]
    by_cases hx : x ≤ a
    · by_cases hi : r.1 = a - x
      · rw [if_pos hx, if_pos hx, if_pos (by omega), if_pos hi, ← hi, hgone]
        rfl
      · rw [if_pos hx, if_pos hx, if_neg (by omega), if_neg hi]
    · rw [if_neg hx, if_neg hx, if_neg (by omega)]

/-! ### The merge buffer as a read sees it (11 R328) -/

/-- A merge entry holds bytes of one aligned line, at rising offsets; all 128 of them while it is about to be written out. -/
structure MergeEnt.Fits (e : MergeEnt) : Prop where
  /-- its line is aligned -/
  aligned : e.line % 128 = 0
  /-- its bytes stand in order -/
  rising : e.bytes.Pairwise (·.1 < ·.1)
  /-- its bytes are bytes of the line -/
  lt : ∀ r ∈ e.bytes, r.1 < 128

theorem MergeEnt.fits_of_wf {e : MergeEnt} (h : e.wf = true) : e.Fits := by
  simp only [MergeEnt.wf, Bool.and_eq_true, decide_eq_true_eq, List.all_eq_true] at h
  obtain ⟨⟨⟨haligned, hrising⟩, hlt⟩, _⟩ := h
  exact ⟨haligned, (rising_iff _).1 hrising, hlt⟩

/-- The staging DRAM is canonical, and the merge buffer holds entries of distinct lines. -/
structure State.Sound (s : State) : Prop where
  /-- the DRAM is canonical -/
  ram : Memory.wf s.ram = true
  /-- each entry is one of bytes of its line -/
  fits : ∀ e ∈ s.mem.merge, e.Fits
  /-- no line has two entries -/
  nodup : (s.mem.merge.map (·.line)).Nodup

theorem State.sound_of_wf {s : State} (hram : Memory.wf s.ram = true) (hmerge : s.mergeWf = true) : s.Sound := by
  simp only [State.mergeWf, Bool.and_eq_true, decide_eq_true_eq, List.all_eq_true] at hmerge
  obtain ⟨⟨_, hwf⟩, hnodup⟩ := hmerge
  exact ⟨hram, fun e he => MergeEnt.fits_of_wf (hwf e he), hnodup⟩

/-- The byte the merge buffer holds at an address. -/
def mergedByte (l : List MergeEnt) (a : Nat) : Option Byte :=
  (l.find? (·.line == lineOf a)).bind fun e => Tab.find e.bytes (a - lineOf a)

theorem State.stagedByte_eq (s : State) (a : Nat) : s.stagedByte a = (mergedByte s.mem.merge a).getD (ramRead s.ram a) := by
  unfold State.stagedByte mergedByte
  cases s.mem.merge.find? fun e => e.line == lineOf a with
  | none => rfl
  | some e => cases h : Tab.find e.bytes (a - lineOf a) <;> simp [h]

theorem State.stagedByte_congr {s t : State} (hmerge : t.mem.merge = s.mem.merge) (hram : t.ram = s.ram) (a : Nat) :
    t.stagedByte a = s.stagedByte a := by
  rw [State.stagedByte_eq, State.stagedByte_eq, hmerge, hram]

theorem State.Sound.congr {s t : State} (hs : s.Sound) (hmerge : t.mem.merge = s.mem.merge) (hram : t.ram = s.ram) : t.Sound :=
  ⟨hram ▸ hs.ram, hmerge ▸ hs.fits, hmerge ▸ hs.nodup⟩

theorem mergedByte_cons (e : MergeEnt) (l : List MergeEnt) (a : Nat) :
    mergedByte (e :: l) a = if e.line = lineOf a then Tab.find e.bytes (a - lineOf a) else mergedByte l a := by
  by_cases h : e.line = lineOf a <;> simp [mergedByte, h]

/-- A line with no entry has no merged byte. -/
theorem mergedByte_eq_none {l : List MergeEnt} {a : Nat} (h : ∀ e ∈ l, e.line ≠ lineOf a) : mergedByte l a = none := by
  rw [mergedByte, List.find?_eq_none.2 fun e he => by simpa using h e he]
  rfl

theorem mergedByte_of_mem {l : List MergeEnt} {e : MergeEnt} {a : Nat} (hl : (l.map (·.line)).Nodup) (he : e ∈ l)
    (ha : e.line = lineOf a) : mergedByte l a = Tab.find e.bytes (a - e.line) := by
  induction l with
  | nil => cases he
  | cons e' l ih =>
    obtain ⟨hnot, hl⟩ := List.nodup_cons.1 hl
    rw [mergedByte_cons]
    rcases List.mem_cons.1 he with rfl | he
    · rw [if_pos ha, ha]
    · rw [if_neg fun h => hnot (List.mem_map.2 ⟨e, he, ha.trans h.symm⟩), ih hl he]

/-- Dropping the entry of a line leaves the bytes of every other line. -/
theorem mergedByte_filter (l : List MergeEnt) (x a : Nat) :
    mergedByte (l.filter (·.line != x)) a = if lineOf a = x then none else mergedByte l a := by
  by_cases hx : lineOf a = x
  · rw [if_pos hx]
    exact mergedByte_eq_none fun e he => by simpa [hx] using (List.mem_filter.1 he).2
  · rw [if_neg hx]
    induction l with
    | nil => rfl
    | cons e l ih =>
      rw [List.filter_cons, mergedByte_cons]
      split
      next hne => rw [mergedByte_cons, ih]
      next heq =>
        have hline : e.line = x := by simpa using heq
        rw [ih, if_neg fun h => hx (h.symm.trans hline)]

/-! ### A whole line, and the write-out of an entry -/

theorem State.putLine_merge_eq (s : State) (x : Nat) (bs : List Byte) :
    (s.putLine x bs).mem.merge = s.mem.merge.filter (·.line != x) := by
  simp only [State.putLine, State.clearLine_merge]
  rfl

theorem State.putLine_ram_eq (s : State) (x : Nat) (bs : List Byte) : (s.putLine x bs).ram = ramWrite s.ram x bs := rfl

@[simp] theorem State.clearLine_out (s : State) (x : Nat) : (s.clearLine x).out = s.out := by
  unfold State.clearLine
  split <;> rfl

@[simp] theorem State.putLine_out (s : State) (x : Nat) (bs : List Byte) : (s.putLine x bs).out = s.out := by
  simp only [State.putLine, State.clearLine_out]
  rfl

theorem State.writeOut_merge_eq (s : State) (e : MergeEnt) : (s.writeOut e true).mem.merge = s.mem.merge.filter (·.line != e.line) := by
  unfold State.writeOut
  split
  · exact s.putLine_merge_eq _ _
  · dsimp only
    split <;> rfl

@[simp] theorem State.writeOut_out (s : State) (e : MergeEnt) : (s.writeOut e true).out = s.out := by
  unfold State.writeOut
  split
  · exact s.putLine_out _ _
  · dsimp only
    split <;> rfl

/-- Written out as a whole line or merged into it, an entry's bytes come to stand at their offsets (11 R328, R329). -/
theorem State.writeOut_ram_eq (s : State) {e : MergeEnt} (he : e.Fits) : (s.writeOut e true).ram = ramMerge s.ram e.line e.bytes := by
  unfold State.writeOut
  split
  next hfull =>
    have hkeys : e.bytes.map (·.1) = List.range' 0 e.bytes.length :=
      Tab.keys_eq_range' he.rising (fun r _ => Nat.zero_le r.1) fun r hr => by
        rw [hfull, Nat.zero_add]
        exact he.lt r hr
    exact ramWrite_eq_ramMerge s.ram e.line 0 hkeys
  next =>
    dsimp only
    split <;> rfl

theorem State.Sound.of_filter {s t : State} (hs : s.Sound) {p : MergeEnt → Bool} (hmerge : t.mem.merge = s.mem.merge.filter p)
    (hram : Memory.wf t.ram = true) : t.Sound where
  ram := hram
  fits e he := hs.fits e (List.mem_filter.1 (hmerge ▸ he)).1
  nodup := hmerge ▸ hs.nodup.sublist (List.filter_sublist.map _)

theorem State.Sound.writeOut {s : State} (hs : s.Sound) (e : MergeEnt) : (s.writeOut e true).Sound :=
  hs.of_filter (s.writeOut_merge_eq e) (s.writeOut_wf e true hs.ram)

theorem State.Sound.putLine {s : State} (hs : s.Sound) (x : Nat) (bs : List Byte) : (s.putLine x bs).Sound :=
  hs.of_filter (s.putLine_merge_eq x bs) (s.putLine_wf x bs hs.ram)

theorem lineOf_le (a : Nat) : lineOf a ≤ a := Nat.div_mul_le_self a 128

/-- An address lies in the aligned line at `x` exactly when its line is that one. -/
theorem lineOf_eq_iff {x : Nat} (hx : x % 128 = 0) (a : Nat) : lineOf a = x ↔ x ≤ a ∧ a < x + 128 := by
  unfold lineOf
  omega

/-- The write-out of an entry changes no byte a read gives. -/
theorem State.stagedByte_writeOut {s : State} (hs : s.Sound) {e : MergeEnt} (he : e ∈ s.mem.merge) (a : Nat) :
    (s.writeOut e true).stagedByte a = s.stagedByte a := by
  have hfits : e.Fits := hs.fits e he
  rw [State.stagedByte_eq, State.stagedByte_eq, s.writeOut_merge_eq, s.writeOut_ram_eq hfits, mergedByte_filter,
    ramRead_ramMerge hs.ram _ _ hfits.rising]
  by_cases hline : lineOf a = e.line
  · obtain ⟨hle, _⟩ := (lineOf_eq_iff hfits.aligned a).1 hline
    rw [if_pos hline, if_pos hle, mergedByte_of_mem hs.nodup he hline.symm]
    rfl
  · rw [if_neg hline]
    by_cases hle : e.line ≤ a
    · have hgone : Tab.find e.bytes (a - e.line) = none := Tab.find_eq_none fun r hr heq => hline <| by
        have := hfits.lt r hr
        exact (lineOf_eq_iff hfits.aligned a).2 (by omega)
      rw [if_pos hle, hgone]
      rfl
    · rw [if_neg hle]

/-! ### Bytes stored -/

/-- `t` is `s` with the bytes `bs` stored from the address `k` on: a read gives them, and every other byte as before. -/
structure State.Stored (s t : State) (k : Nat) (bs : List Byte) : Prop where
  /-- staging stays sound -/
  sound : t.Sound
  /-- what a read gives -/
  byte : ∀ a, t.stagedByte a = if k ≤ a ∧ a < k + bs.length then bs.getD (a - k) 0 else s.stagedByte a

theorem State.stored_nil {s : State} (hs : s.Sound) (k : Nat) : s.Stored s k [] :=
  ⟨hs, fun a => by rw [if_neg (by simp only [List.length_nil]; omega)]⟩

theorem State.Stored.append {s t u : State} {k : Nat} {bs cs : List Byte} (h : s.Stored t k bs) (h' : t.Stored u (k + bs.length) cs) :
    s.Stored u k (bs ++ cs) := by
  refine ⟨h'.sound, fun a => ?_⟩
  rw [h'.byte, h.byte, List.length_append]
  by_cases hb : k ≤ a ∧ a < k + bs.length
  · rw [if_neg (by omega), if_pos hb, if_pos (by omega), List.getD_eq_getElem?_getD, List.getD_eq_getElem?_getD,
      List.getElem?_append_left (by omega)]
  · by_cases hc : k + bs.length ≤ a ∧ a < k + bs.length + cs.length
    · rw [if_pos hc, if_pos (by omega), List.getD_eq_getElem?_getD, List.getD_eq_getElem?_getD,
        List.getElem?_append_right (by omega), Nat.sub_sub]
    · rw [if_neg hc, if_neg hb, if_neg (by omega)]

/-- A whole-line write stores its line, whatever the merge buffer held of it (11 R329). -/
theorem State.stored_putLine {s : State} (hs : s.Sound) {x : Nat} (hx : x % 128 = 0) {bs : List Byte} (hbs : bs.length = 128) :
    s.Stored (s.putLine x bs) x bs := by
  refine ⟨hs.putLine x bs, fun a => ?_⟩
  rw [State.stagedByte_eq, State.stagedByte_eq, s.putLine_merge_eq, s.putLine_ram_eq, mergedByte_filter, ramRead_ramWrite hs.ram, hbs]
  by_cases hline : lineOf a = x
  · have hin : x ≤ a ∧ a < x + 128 := (lineOf_eq_iff hx a).1 hline
    rw [if_pos hline, if_pos hin, if_pos hin]
    rfl
  · have hout : ¬ (x ≤ a ∧ a < x + 128) := fun h => hline ((lineOf_eq_iff hx a).2 h)
    rw [if_neg hline, if_neg hout, if_neg hout]

/-! ### A narrow write (11 R328) -/

/-- The bytes `bs` put at offset `o` of a line and up. -/
def joinBytes (o : Nat) (bs : List Byte) (t : Tab Byte) : Tab Byte :=
  ((bs.zipIdx).map fun (b, i) => (o + i, b)).foldl (fun t (i, b) => t.put i b) t

theorem joinBytes_nil (o : Nat) (t : Tab Byte) : joinBytes o [] t = t := rfl

theorem joinBytes_cons (o : Nat) (b : Byte) (bs : List Byte) (t : Tab Byte) : joinBytes o (b :: bs) t = joinBytes (o + 1) bs (t.put o b) := by
  simp only [joinBytes, List.zipIdx_cons', List.map_cons, List.foldl_cons, List.map_map]
  congr 2
  funext ⟨c, i⟩
  simp only [Function.comp_apply, Prod.map_apply, id_eq, Prod.mk.injEq, and_true]
  omega

theorem find_joinBytes (o : Nat) (bs : List Byte) (t : Tab Byte) (j : Nat) :
    Tab.find (joinBytes o bs t) j = if o ≤ j ∧ j < o + bs.length then some (bs.getD (j - o) 0) else Tab.find t j := by
  induction bs generalizing o t with
  | nil => rw [joinBytes_nil, if_neg (by simp only [List.length_nil]; omega)]
  | cons b bs ih =>
    rw [joinBytes_cons, ih, Tab.find_put, List.length_cons]
    by_cases hj : j = o
    · rw [if_neg (by omega), if_pos hj, if_pos (by omega), hj, Nat.sub_self, List.getD_cons_zero]
    · by_cases hin : o + 1 ≤ j ∧ j < o + 1 + bs.length
      · rw [if_pos hin, if_pos (by omega), show j - o = (j - (o + 1)) + 1 by omega, List.getD_cons_succ]
      · rw [if_neg hin, if_neg hj, if_neg (by omega)]

theorem MergeEnt.Fits.join {e : MergeEnt} (he : e.Fits) {o : Nat} {bs : List Byte} (hlt : o + bs.length ≤ 128) :
    ({ e with bytes := joinBytes o bs e.bytes } : MergeEnt).Fits := by
  induction bs generalizing e o with
  | nil => exact he
  | cons b bs ih =>
    rw [List.length_cons] at hlt
    have hput : ({ e with bytes := e.bytes.put o b } : MergeEnt).Fits :=
      { aligned := he.aligned
        rising := Tab.pairwise_put o b he.rising
        lt := fun r hr => (Tab.mem_put hr).elim (fun h => by rw [h]; dsimp only; omega) (he.lt r) }
    rw [joinBytes_cons]
    exact ih hput (by omega)

/-- With 32 entries held, the oldest goes to make room (11 R328). -/
def State.mergeRoom (s : State) : State :=
  match s.mem.merge with
  | e :: _ => if 32 ≤ s.mem.merge.length then s.writeOut e true else s
  | [] => s

/-- The bytes `bs` from offset `o` on join the entry of the line at `x`, or take one. -/
def State.mergeJoin (s : State) (x o : Nat) (bs : List Byte) : State :=
  if s.mem.merge.any (·.line == x) then
    s.modMem fun m => { m with merge := m.merge.map fun e => if e.line = x then { e with bytes := joinBytes o bs e.bytes } else e }
  else s.mergeRoom.modMem fun m => { m with merge := m.merge ++ [{ line := x, bytes := joinBytes o bs [], at_ := s.mergeRoom.now }] }

theorem State.mergeWrite_eq (s : State) (k : Nat) (bs : List Byte) :
    s.mergeWrite k bs =
      match (s.mergeJoin (lineOf k) (k - lineOf k) bs).mem.merge.find? fun e => e.line == lineOf k && e.bytes.length == 128 with
      | some e => (s.mergeJoin (lineOf k) (k - lineOf k) bs).writeOut e true
      | none => s.mergeJoin (lineOf k) (k - lineOf k) bs := rfl

theorem State.mergeRoom_of (s : State) : s.mergeRoom = s ∨ ∃ e ∈ s.mem.merge, s.mergeRoom = s.writeOut e true := by
  unfold State.mergeRoom
  split
  next e l hl =>
    split
    · exact .inr ⟨e, hl ▸ List.mem_cons_self, rfl⟩
    · exact .inl rfl
  next => exact .inl rfl

theorem State.Sound.mergeRoom {s : State} (hs : s.Sound) : s.mergeRoom.Sound := by
  rcases s.mergeRoom_of with h | ⟨e, _, h⟩
  · rwa [h]
  · rw [h]
    exact hs.writeOut e

theorem State.stagedByte_mergeRoom {s : State} (hs : s.Sound) (a : Nat) : s.mergeRoom.stagedByte a = s.stagedByte a := by
  rcases s.mergeRoom_of with h | ⟨e, he, h⟩
  · rw [h]
  · rw [h, State.stagedByte_writeOut hs he]

theorem State.mergeRoom_subset (s : State) : s.mergeRoom.mem.merge ⊆ s.mem.merge := by
  rcases s.mergeRoom_of with h | ⟨e, _, h⟩
  · rw [h]
    exact List.Subset.refl _
  · rw [h, s.writeOut_merge_eq]
    exact List.filter_sublist.subset

/-- Bytes that come to stand in the merge buffer alone, at offset `o` of the line at `x` and up, are stored there. -/
theorem State.stored_of_merged {s t : State} {x o : Nat} {bs : List Byte} (hx : x % 128 = 0) (hfit : o + bs.length ≤ 128) (ht : t.Sound)
    (hram : t.ram = s.ram)
    (hmerged : ∀ a, mergedByte t.mem.merge a =
      if lineOf a = x ∧ o ≤ a - x ∧ a - x < o + bs.length then some (bs.getD (a - x - o) 0) else mergedByte s.mem.merge a) :
    s.Stored t (x + o) bs := by
  refine ⟨ht, fun a => ?_⟩
  have hrange : (lineOf a = x ∧ o ≤ a - x ∧ a - x < o + bs.length) ↔ x + o ≤ a ∧ a < x + o + bs.length := by
    rw [lineOf_eq_iff hx]
    omega
  rw [State.stagedByte_eq, State.stagedByte_eq, hmerged, hram, Nat.sub_sub]
  by_cases h : x + o ≤ a ∧ a < x + o + bs.length
  · rw [if_pos (hrange.2 h), if_pos h]
    rfl
  · rw [if_neg fun h' => h (hrange.1 h'), if_neg h]

/-- The entry of the line at `x` with the bytes `bs` joined. -/
def MergeEnt.joined (x o : Nat) (bs : List Byte) (e : MergeEnt) : MergeEnt :=
  if e.line = x then { e with bytes := joinBytes o bs e.bytes } else e

@[simp] theorem MergeEnt.joined_line (x o : Nat) (bs : List Byte) (e : MergeEnt) : (e.joined x o bs).line = e.line := by
  unfold MergeEnt.joined
  split <;> rfl

theorem MergeEnt.joined_of_line {x o : Nat} {bs : List Byte} {e : MergeEnt} (h : e.line = x) :
    e.joined x o bs = { e with bytes := joinBytes o bs e.bytes } := if_pos h

theorem mergedByte_map_joined_of_ne (l : List MergeEnt) {x a : Nat} (o : Nat) (bs : List Byte) (h : lineOf a ≠ x) :
    mergedByte (l.map (MergeEnt.joined x o bs)) a = mergedByte l a := by
  induction l with
  | nil => rfl
  | cons e l ih =>
    rw [List.map_cons, mergedByte_cons, mergedByte_cons, MergeEnt.joined_line, ih]
    by_cases hline : e.line = lineOf a
    · rw [if_pos hline, if_pos hline, MergeEnt.joined, if_neg fun hx => h (hline.symm.trans hx)]
    · rw [if_neg hline, if_neg hline]

theorem mergedByte_append_of_fresh {l : List MergeEnt} {e : MergeEnt} (h : ∀ e' ∈ l, e'.line ≠ e.line) (a : Nat) :
    mergedByte (l ++ [e]) a = if lineOf a = e.line then Tab.find e.bytes (a - e.line) else mergedByte l a := by
  induction l with
  | nil => simp only [List.nil_append, mergedByte_cons, eq_comm]; split <;> simp [*]
  | cons e' l ih =>
    rw [List.cons_append, mergedByte_cons, mergedByte_cons, ih fun q hq => h q (List.mem_cons_of_mem e' hq)]
    by_cases hline : e'.line = lineOf a
    · rw [if_pos hline, if_pos hline, if_neg fun hx => h e' List.mem_cons_self (hline.trans hx)]
    · rw [if_neg hline, if_neg hline]

/-- Bytes that join the entry of their line are stored (11 R328). -/
theorem State.stored_join {s : State} (hs : s.Sound) {x o : Nat} {bs : List Byte} (hfit : o + bs.length ≤ 128)
    {e : MergeEnt} (he : e ∈ s.mem.merge) (hline : e.line = x) :
    s.Stored (s.modMem fun m => { m with merge := m.merge.map (MergeEnt.joined x o bs) }) (x + o) bs := by
  have hlines : (s.mem.merge.map (MergeEnt.joined x o bs)).map (·.line) = s.mem.merge.map (·.line) := by
    simp only [List.map_map, Function.comp_def, MergeEnt.joined_line]
  have hsound : (s.modMem fun m => { m with merge := m.merge.map (MergeEnt.joined x o bs) }).Sound :=
    { ram := hs.ram
      fits := fun e' he' => by
        obtain ⟨e, he, rfl⟩ := List.mem_map.1 he'
        unfold MergeEnt.joined
        split
        · exact (hs.fits e he).join hfit
        · exact hs.fits e he
      nodup := hlines ▸ hs.nodup }
  refine State.stored_of_merged (hline ▸ (hs.fits e he).aligned) hfit hsound rfl fun a => ?_
  by_cases hx : lineOf a = x
  · have hmem : e.joined x o bs ∈ s.mem.merge.map (MergeEnt.joined x o bs) := List.mem_map_of_mem he
    have hnow := mergedByte_of_mem (a := a) (hlines ▸ hs.nodup) hmem (by rw [MergeEnt.joined_line, hline, hx])
    refine hnow.trans ?_
    rw [mergedByte_of_mem hs.nodup he (hline.trans hx.symm), MergeEnt.joined_line, MergeEnt.joined_of_line hline, find_joinBytes, hline]
    simp only [hx, true_and]
  · rw [if_neg fun h => hx h.1]
    exact mergedByte_map_joined_of_ne _ o bs hx

/-- Bytes that take an entry of their own are stored (11 R328). -/
theorem State.stored_append {s : State} (hs : s.Sound) {x o t : Nat} {bs : List Byte} (hx : x % 128 = 0) (hfit : o + bs.length ≤ 128)
    (hfresh : ∀ e ∈ s.mem.merge, e.line ≠ x) :
    s.Stored (s.modMem fun m => { m with merge := m.merge ++ [{ line := x, bytes := joinBytes o bs [], at_ := t }] }) (x + o) bs := by
  have hempty : ({ line := x, bytes := [], at_ := t } : MergeEnt).Fits := ⟨hx, List.Pairwise.nil, fun r hr => nomatch hr⟩
  have hsound : (s.modMem fun m => { m with merge := m.merge ++ [{ line := x, bytes := joinBytes o bs [], at_ := t }] }).Sound :=
    { ram := hs.ram
      fits := fun e he => by
        rcases List.mem_append.1 he with he | he
        · exact hs.fits e he
        · exact List.mem_singleton.1 he ▸ hempty.join hfit
      nodup := by
        change ((s.mem.merge ++ [_]).map _).Nodup
        rw [List.map_append, List.nodup_append]
        refine ⟨hs.nodup, List.pairwise_singleton _ _, fun a ha b hb => ?_⟩
        obtain ⟨e, he, rfl⟩ := List.mem_map.1 ha
        rw [List.map_singleton, List.mem_singleton] at hb
        exact hb ▸ hfresh e he }
  refine State.stored_of_merged hx hfit hsound rfl fun a => (mergedByte_append_of_fresh hfresh a).trans ?_
  by_cases hline : lineOf a = x
  · have hnone : mergedByte s.mem.merge a = none := mergedByte_eq_none fun e he => hline ▸ hfresh e he
    simp only [hline, if_true, true_and, find_joinBytes, hnone, Tab.find]
  · rw [if_neg hline, if_neg fun h => hline h.1]

theorem State.stored_mergeJoin {s : State} (hs : s.Sound) {x o : Nat} {bs : List Byte} (hx : x % 128 = 0) (hfit : o + bs.length ≤ 128) :
    s.Stored (s.mergeJoin x o bs) (x + o) bs := by
  unfold State.mergeJoin
  split
  next hany =>
    obtain ⟨e, he, hline⟩ := List.any_eq_true.1 hany
    exact State.stored_join hs hfit he (by simpa using hline)
  next hnone =>
    have hfresh : ∀ e ∈ s.mergeRoom.mem.merge, e.line ≠ x := fun e he heq =>
      hnone (List.any_eq_true.2 ⟨e, s.mergeRoom_subset he, by simpa using heq⟩)
    have hroom := State.stored_append (t := s.mergeRoom.now) hs.mergeRoom hx hfit hfresh
    exact ⟨hroom.sound, fun a => by rw [hroom.byte, State.stagedByte_mergeRoom hs]⟩

/-- A narrow write within a line stores its bytes, in the merge buffer or, its mask full, in the DRAM (11 R328). -/
theorem State.stored_mergeWrite {s : State} (hs : s.Sound) {k : Nat} {bs : List Byte} (hfit : k + bs.length ≤ lineOf k + 128) :
    s.Stored (s.mergeWrite k bs) k bs := by
  have hle : lineOf k ≤ k := lineOf_le k
  have hjoin : s.Stored (s.mergeJoin (lineOf k) (k - lineOf k) bs) k bs := by
    have := State.stored_mergeJoin hs (x := lineOf k) (o := k - lineOf k) (bs := bs) (Nat.mul_mod_left _ _) (by omega)
    rwa [Nat.add_sub_cancel' hle] at this
  rw [State.mergeWrite_eq]
  split
  next e hfull =>
    exact ⟨hjoin.sound.writeOut e, fun a => by rw [State.stagedByte_writeOut hjoin.sound (List.mem_of_find?_eq_some hfull), hjoin.byte]⟩
  next => exact hjoin

/-- A store of bytes across lines stores them all: one step of its recursion a line (04 R114). -/
theorem State.stored_ramStore {n : Nat} {s : State} (hs : s.Sound) {k : Nat} {bs : List Byte} (hn : bs.length ≤ n) :
    s.Stored (State.ramStore n s k bs) k bs := by
  induction n generalizing s k bs with
  | zero =>
    rw [List.length_eq_zero_iff.1 (Nat.le_zero.1 hn)]
    exact State.stored_nil hs k
  | succ n ih =>
    unfold State.ramStore
    split
    next => exact State.stored_nil hs k
    next hne =>
      have hle : lineOf k ≤ k := lineOf_le k
      have hlt : k < lineOf k + 128 := ((lineOf_eq_iff (Nat.mul_mod_left _ _) k).1 rfl).2
      have hpos : 0 < bs.length := List.length_pos_iff.2 hne
      generalize hc : min (lineOf k + 128 - k) bs.length = c
      have htake : (bs.take c).length = c := by rw [List.length_take]; omega
      have hfirst : s.Stored (if c = 128 then s.putLine k (bs.take 128) else s.mergeWrite k (bs.take c)) k (bs.take c) := by
        split
        next hwhole =>
          have haligned : k % 128 = 0 := by unfold lineOf at hc hlt; omega
          rw [hwhole] at htake ⊢
          exact State.stored_putLine hs haligned htake
        next => exact State.stored_mergeWrite hs (by omega)
      have hrest := ih hfirst.sound (k := k + c) (bs := bs.drop c) (by rw [List.length_drop]; omega)
      have hboth := hfirst.append (by rwa [htake])
      rwa [List.take_append_drop] at hboth

/-! ### The write-out before a read (11 R328) -/

/-- Writing entries of the merge buffer out one after the other changes no byte a read gives, and leaves the buffer the rest. -/
theorem State.each_writeOut {s : State} (hs : s.Sound) {l : List MergeEnt} (hsub : l ⊆ s.mem.merge) (hl : (l.map (·.line)).Nodup) :
    (∀ a, (s.each l fun s e => s.writeOut e true).stagedByte a = s.stagedByte a) ∧
      (s.each l fun s e => s.writeOut e true).mem.merge = s.mem.merge.filter (fun e => !(l.map (·.line)).contains e.line) ∧
      (s.each l fun s e => s.writeOut e true).out = s.out := by
  induction l generalizing s with
  | nil => exact ⟨fun _ => rfl, (List.filter_eq_self.2 fun _ _ => rfl).symm, rfl⟩
  | cons e l ih =>
    obtain ⟨hnot, hl⟩ := List.nodup_cons.1 hl
    have he : e ∈ s.mem.merge := hsub List.mem_cons_self
    have hsub' : l ⊆ (s.writeOut e true).mem.merge := fun e' he' => by
      rw [s.writeOut_merge_eq]
      refine List.mem_filter.2 ⟨hsub (List.mem_cons_of_mem e he'), bne_iff_ne.2 fun heq => hnot ?_⟩
      exact List.mem_map.2 ⟨e', he', heq⟩
    obtain ⟨hbyte, hmerge, hout⟩ := ih (hs.writeOut e) hsub' hl
    refine ⟨fun a => (hbyte a).trans (State.stagedByte_writeOut hs he a), hmerge.trans ?_, hout.trans (s.writeOut_out e)⟩
    rw [s.writeOut_merge_eq, List.filter_filter]
    congr 1
    funext e'
    rw [List.map_cons, List.contains_cons, Bool.not_or, Bool.and_comm]
    rfl

/-- The entries of the lines that a range of `n` bytes at `k` touches. -/
def State.settled (s : State) (k n : Nat) : List MergeEnt := s.mem.merge.filter fun e => decide (k < e.line + 128 ∧ e.line < k + n)

theorem State.settle_writes_out {s : State} (hs : s.Sound) (k n : Nat) :
    (∀ a, (s.settle k n).stagedByte a = s.stagedByte a) ∧
      (s.settle k n).mem.merge = s.mem.merge.filter (fun e => !((s.settled k n).map (·.line)).contains e.line) ∧
      (s.settle k n).out = s.out :=
  State.each_writeOut hs List.filter_sublist.subset (hs.nodup.sublist (List.filter_sublist.map _))

/-- Once a range is settled, its bytes stand in the DRAM as a read gives them. -/
theorem State.ramRead_settle {s : State} (hs : s.Sound) {k n a : Nat} (hk : k ≤ a) (ha : a < k + n) :
    ramRead (s.settle k n).ram a = s.stagedByte a := by
  obtain ⟨hbyte, hmerge, _⟩ := State.settle_writes_out hs k n
  have hnone : mergedByte (s.settle k n).mem.merge a = none := mergedByte_eq_none fun e he hline => by
    obtain ⟨hmem, hleft⟩ := List.mem_filter.1 (hmerge ▸ he)
    obtain ⟨hle, hlt⟩ := (lineOf_eq_iff (hs.fits e hmem).aligned a).1 hline.symm
    have hin : e ∈ s.settled k n := List.mem_filter.2 ⟨hmem, decide_eq_true (by omega)⟩
    have hline' : e.line ∈ (s.settled k n).map (·.line) := List.mem_map_of_mem hin
    simp [hline'] at hleft
  rw [← hbyte, State.stagedByte_eq, hnone]
  rfl

theorem State.ramBytes_settle {s : State} (hs : s.Sound) (k n : Nat) :
    ramBytes (s.settle k n).ram k n = (List.range n).map fun i => s.stagedByte (k + i) := by
  refine List.map_congr_left fun i hi => ?_
  have := List.mem_range.1 hi
  exact State.ramRead_settle hs (by omega) (by omega)

/-! ### The window (04 R114) -/

/-- A TLP received changes the links of a port alone. -/
theorem State.touch_port (s : State) (f p : Nat) : ∃ h0 h1, (s.touch f).port p = { s.port p with h0 := h0, h1 := h1 } := by
  rw [State.touch, State.port_modPort]
  split
  next heq =>
    subst heq
    split
    · exact ⟨_, _, rfl⟩
    · exact ⟨_, _, rfl⟩
  next => exact ⟨_, _, rfl⟩

/-- A request that is inside the window of port `p` in force, with none pending, is decoded under it. -/
structure State.InWindow (s : State) (p off n : Nat) : Prop where
  /-- the PF decodes memory requests -/
  mmio : s.mmio (64 * p) = true
  /-- no switch is pending -/
  pend : (s.port p).pend = false
  /-- the window is open -/
  open_ : (s.port p).wcur.en = true
  /-- the request lies inside it -/
  inside : off + n ≤ (s.port p).wcur.limit + 1
  /-- the port has a BAR2 -/
  bar2 : s.bar2Size p ≠ 0

/-- What a request of `n` bytes inside the window acts on: its link awake, and its lines counted as misses of the line cache (04 R113,
11 R313). -/
def State.windowed (s : State) (p off n : Nat) : State :=
  (s.touch (64 * p)).missOn (8 + p) (linesIn ((s.port p).wcur.base + off) n)

/-- That state with the lines of the range written out of the merge buffer (11 R328). -/
def State.windowSettled (s : State) (p off n : Nat) : State := (s.windowed p off n).settle ((s.port p).wcur.base + off) n

/-- Inside the window a request is written, or settled and read, at BASE + offset. -/
theorem State.bar2_inWindow {s : State} {p : Nat} {t : HeldTlp} (h : s.InWindow p t.off (if t.write then t.bytes.length else t.len)) :
    s.bar2 p t =
      if t.write then State.ramStore t.bytes.length (s.windowed p t.off t.bytes.length) ((s.port p).wcur.base + t.off) t.bytes
      else (s.windowSettled p t.off t.len).emit
        (.bar2Data p (ramBytes (s.windowSettled p t.off t.len).ram ((s.port p).wcur.base + t.off) t.len)) := by
  obtain ⟨hmmio, hpend, hopen, hin, hbar2⟩ := h
  obtain ⟨h0, h1, hport⟩ := s.touch_port (64 * p) p
  simp only [State.mmio, Bool.and_eq_true, Bool.not_eq_true'] at hmmio
  obtain ⟨⟨_, hd3⟩, hmse⟩ := hmmio
  have hsize : (s.touch (64 * p)).bar2Size p ≠ 0 := by simpa only [State.bar2Size, hport, State.touch_boot] using hbar2
  simp only [State.bar2, hd3, hmse, hport, hpend, State.decodeBar2, hopen, hin, State.windowSettled, State.windowed]
  cases t.write <;> simp [hsize]

theorem exec_bar2Write_inWindow {s : State} {p : PortId} {off : BitVec 36} {data : List Byte} (h : s.InWindow p.val off.toNat data.length) :
    exec (.bar2Write p off data) s =
      .next (State.ramStore data.length (s.windowed p.val off.toNat data.length) ((s.port p.val).wcur.base + off.toNat) data) :=
  congrArg Host.Outcome.next ((State.bar2_inWindow (t := { write := true, off := off.toNat, bytes := data }) h).trans (if_pos rfl))

theorem exec_bar2Read_inWindow {s : State} {p : PortId} {off : BitVec 36} {len : Fin 4097} (h : s.InWindow p.val off.toNat len.val) :
    exec (.bar2Read p off len) s =
      .next ((s.windowSettled p.val off.toNat len.val).emit
        (.bar2Data p.val (ramBytes (s.windowSettled p.val off.toNat len.val).ram ((s.port p.val).wcur.base + off.toNat) len.val))) :=
  congrArg Host.Outcome.next ((State.bar2_inWindow (t := { off := off.toNat, len := len.val }) h).trans (if_neg Bool.false_ne_true))

theorem State.sound_windowed {s : State} (hs : s.Sound) (p off n : Nat) : (s.windowed p off n).Sound :=
  hs.congr rfl rfl

theorem State.stagedByte_windowed (s : State) (p off n a : Nat) : (s.windowed p off n).stagedByte a = s.stagedByte a :=
  State.stagedByte_congr rfl rfl a

/-- Settles O60: inside the window a write is a store of its bytes, and a read writes its range out of the merge buffer and reads it. -/
theorem theWindowReadsBackWhatWasStored : Obligations.TheWindowReadsBackWhatWasStored := by
  refine ⟨?write, ?read⟩
  case write =>
    intro p off data s hram hmerge hmmio hpend hopen hin hbar2
    have hw := State.sound_windowed (State.sound_of_wf hram hmerge) p.val off.toNat data.length
    have hstored := State.stored_ramStore hw (k := (s.port p.val).wcur.base + off.toNat) (Nat.le_refl data.length)
    refine ⟨_, exec_bar2Write_inWindow ⟨hmmio, hpend, hopen, hin, hbar2⟩, fun a => ?_⟩
    rw [hstored.byte, State.stagedByte_windowed]
  case read =>
    intro p off len s hram hmerge hmmio hpend hopen hin hbar2
    have hw := State.sound_windowed (State.sound_of_wf hram hmerge) p.val off.toNat len.val
    obtain ⟨hbyte, _, hout⟩ := State.settle_writes_out hw ((s.port p.val).wcur.base + off.toNat) len.val
    refine ⟨_, exec_bar2Read_inWindow ⟨hmmio, hpend, hopen, hin, hbar2⟩, fun a => ?_, ?_⟩
    · rw [State.stagedByte_congr (State.emit_merge _ _) (State.emit_ram _ _), State.windowSettled, hbyte, State.stagedByte_windowed]
    · rw [State.emit_out, State.windowSettled, State.ramBytes_settle hw, hout]
      simp only [State.stagedByte_windowed]
      rfl

end Sys2Proof.Machine

/-! ## O11: Bus Master Enable and D3hot stop a function, and what was held resumes -/

namespace Sys2Proof.Machine

open Sys2Proof

theorem State.bmeOff_of_bme {s : State} {f : Nat} (h : (s.fn f).bme = true) :
    s.bmeOff f =
      if (s.modFn f fun x => { x with bme := false }).readsOut f then (s.modFn f fun x => { x with bme := false }).portFault f 5
      else s.modFn f fun x => { x with bme := false } := by
  simp only [State.bmeOff, h, Bool.not_true, Bool.false_eq_true, if_false]

theorem State.bmeOn_of_enabled {s : State} {f : Nat} (hbme : (s.fn f).bme = false) (hon : (s.fn f).enabled = true) :
    s.bmeOn f = (s.modFn f fun x => { x with bme := true }).resume f := by
  simp only [State.bmeOn, hbme, hon, Bool.not_true, Bool.or_self, Bool.false_eq_true, if_false]

theorem State.enabled_of_cfgOk {s : State} {f : Nat} (h : s.cfgOk f = true) : (s.fn f).enabled = true :=
  (Bool.and_eq_true_iff.1 h).1

/-- Settles O11: a configuration write is taken, and decides between the clear, the resumption and the held completions' post. -/
theorem busMasterEnableStopsAndResumesAFunction : Obligations.BusMasterEnableStopsAndResumesAFunction := by
  refine ⟨?clear, ?set, ?d3hot, ?held⟩
  case clear =>
    intro f s hcfg hbme
    exact congrArg Host.Outcome.next ((if_pos hcfg).trans (State.bmeOff_of_bme hbme))
  case set =>
    intro f s hcfg hbme
    exact congrArg Host.Outcome.next ((if_pos hcfg).trans (State.bmeOn_of_enabled hbme (State.enabled_of_cfgOk hcfg)))
  case d3hot =>
    intro f s hcfg
    have htaken : ¬ (!s.cfgOk f.val) = true := by rw [hcfg]; exact Bool.false_ne_true
    exact ⟨congrArg Host.Outcome.next (if_neg htaken), congrArg Host.Outcome.next (if_neg htaken)⟩
  case held =>
    intro id c st s hcmd hstatus hsilent hentry hcq
    simp only [State.postHeld, hcmd, hstatus, hsilent, hentry, hcq, Option.getD_some, Bool.false_eq_true, if_false]

end Sys2Proof.Machine

/-! ## O13: a refused request takes the first cause it meets -/

namespace Sys2Proof.Machine

open Sys2Proof

/-- Of the function's state, the log of an error changes the AER registers alone. -/
theorem State.aerLog_fn (s : State) (f b : Nat) (adv : Bool) (hdr : Option Nat) :
    ∃ cor, ((s.aerLog f b adv hdr).fn f) =
      { s.fn f with
        aer := { (s.fn f).aer with
          unc := (s.fn f).aer.unc ||| bit32 b, cor := cor, hdr := (hdr.map (BitVec.ofNat 128)).getD (s.fn f).aer.hdr } } := by
  refine ⟨if (adv && !(s.fn f).aer.sev.getLsbD b) = true then (s.fn f).aer.cor ||| bit32 13 else (s.fn f).aer.cor, ?_⟩
  unfold State.aerLog
  dsimp only
  (repeat' split) <;> simp [*]

/-- Settles O13: the tests stand in the order of the causes, and a refusal differs with its cause only in the AER bit and the event. -/
theorem refusedRequestsTakeTheFirstCauseInOrder : Obligations.RefusedRequestsTakeTheFirstCauseInOrder := by
  refine ⟨?order, ?unsupported, ?poisoned, ?aer, ?log⟩
  case order =>
    intro f u p m d w post hdr s
    rfl
  case unsupported =>
    rintro s f cause hdr (rfl | rfl | rfl | rfl) <;> exact ⟨rfl, rfl⟩
  case poisoned =>
    intro s f hdr
    exact ⟨rfl, rfl, rfl, rfl⟩
  case aer =>
    intro s f b hdr adv
    obtain ⟨cor, hfn⟩ := s.aerLog_fn f b adv (some hdr)
    exact ⟨by rw [hfn], by rw [hfn]; rfl⟩
  case log =>
    intro s f cause
    rfl

end Sys2Proof.Machine

/-! ## O51: the registers a function decodes are read and written -/

namespace Sys2Proof.Machine

open Sys2Proof

/-! ### An access to BAR0 -/

/-- An access at an offset of the function's BAR0 meets the alignment test first, and then the DIAG test (04 Table 4.5). -/
theorem State.access_mmio {s : State} {f off : Nat} {wide posted : Bool} {k : State → State} (hmmio : s.mmio f = true)
    (hin : isPf f = true ∨ off < 0x10000) :
    s.access f off wide posted k =
      if !aligned off wide then (s.touch f).refuseAny f 1 posted
      else if inDiag f off && !(s.isSteward f && s.diagOpen) then (s.touch f).refuseAny f 2 posted
      else k (s.touch f) := by
  have hown : ¬ (!isPf f && decide (0x10000 ≤ off)) = true := by
    rcases hin with h | h
    · simp [h]
    · simp [Nat.not_le.2 h]
  rw [State.access, if_neg hown, State.bar0_mmio hmmio]
  rfl

theorem State.access_of_decoded {s : State} {f off : Nat} {wide posted : Bool} {k : State → State} (hmmio : s.mmio f = true)
    (hin : isPf f = true ∨ off < 0x10000) (halign : aligned off wide = true)
    (hdiag : inDiag f off = false ∨ (s.isSteward f && s.diagOpen) = true) : s.access f off wide posted k = k (s.touch f) := by
  have hopen : ¬ (inDiag f off && !(s.isSteward f && s.diagOpen)) = true := by
    rcases hdiag with h | h <;> simp [h]
  rw [State.access_mmio hmmio hin, halign, Bool.not_true, if_neg Bool.false_ne_true, if_neg hopen]

theorem State.access_of_misaligned {s : State} {f off : Nat} {wide posted : Bool} {k : State → State} (hmmio : s.mmio f = true)
    (hin : isPf f = true ∨ off < 0x10000) (halign : aligned off wide = false) :
    s.access f off wide posted k = (s.touch f).refuseAny f 1 posted := by
  rw [State.access_mmio hmmio hin, halign, Bool.not_false, if_pos rfl]

/-- Below the DIAG range an offset is in no DIAG register. -/
theorem inDiag_of_lt {f off : Nat} (h : off < 0x200000) : inDiag f off = false := by
  rw [inDiag, decide_eq_false (Nat.not_le.2 h), Bool.and_false]

/-! ### Reads (17 R438) -/

/-- A 4-byte read at no half of a 64-bit register returns the register and then clears what a read of it clears. -/
theorem State.readReg_narrow {s : State} {f off : Nat} (hlow : lowHalf off = false) (hhigh : lowHalf (off - 4) = false) :
    s.readReg f off false = (s.afterRead f off).emit (.regData f off ((s.regRead f off).zeroExtend 64)) := by
  simp only [State.readReg, State.read4, hlow, hhigh, Bool.and_false, Bool.false_eq_true, if_false, Bool.not_false, if_true]

/-- A narrow read of a PF's register below DIAG that is no half of a 64-bit register. -/
theorem State.readBar0_narrow {s : State} {f off : Nat} (hmmio : s.mmio f = true) (hpf : isPf f = true) (hoff : off < 0x200000)
    (halign : aligned off false = true) (hlow : lowHalf off = false) (hhigh : lowHalf (off - 4) = false) :
    s.readBar0 f off false = ((s.touch f).afterRead f off).emit (.regData f off (((s.touch f).regRead f off).zeroExtend 64)) := by
  rw [State.readBar0, State.access_of_decoded hmmio (.inl hpf) halign (.inl (inDiag_of_lt hoff)), State.readReg_narrow hlow hhigh]

theorem State.afterRead_admStat {s : State} {f : Nat} (hpf : isPf f = true) (htrail : s.boot.trailhead = false)
    (hsel : (s.sel (portOf f)).adm.toNat < 144) :
    s.afterRead f 0x8604 = s.modAdm (s.sel (portOf f)).adm.toNat fun a => { a with slotLimit := false } := by
  simp only [State.afterRead, hpf, htrail, hsel, Bool.not_true, Bool.or_self, Bool.false_eq_true, if_false, and_self, if_true]

theorem State.afterRead_cfeStat {s : State} {f : Nat} (hpf : isPf f = true) (htrail : s.boot.trailhead = false)
    (hsel : (s.sel (portOf f)).cfe.toNat < 144) :
    s.afterRead f 0x8904 = s.modCfe (s.sel (portOf f)).cfe.toNat fun c => { c with retainFull := false } := by
  simp [State.afterRead, hpf, htrail, hsel]

theorem State.afterRead_decWaitmax {s : State} {f : Nat} (hpf : isPf f = true) (htrail : s.boot.trailhead = false) :
    s.afterRead f 0x8A20 = s.modPool fun q => { q with waitmax := 0 } := by
  simp [State.afterRead, hpf, htrail]

/-! ### Writes of a PF (17 R440) -/

theorem exec_registerWrite_of_decoded {s : State} {f : FnId} {off : BitVec 22} {wide : Bool} (data : BitVec 64) (fl : Tab Nat)
    (hmmio : s.mmio f.val = true) (hin : isPf f.val = true ∨ off.toNat < 0x10000) (halign : aligned off.toNat wide = true)
    (hdiag : inDiag f.val off.toNat = false ∨ (s.isSteward f.val && s.diagOpen) = true) :
    exec (.registerWrite f .bar0 off wide data fl) s = .next ((s.touch f.val).writeReg f.val off.toNat wide data fl) :=
  congrArg Host.Outcome.next (State.access_of_decoded hmmio hin halign hdiag)

/-- A 4-byte write of a PF's register below DIAG. -/
theorem exec_registerWrite_narrow {s : State} {f : FnId} {off : BitVec 22} (v : BitVec 32) (fl : Tab Nat) (hmmio : s.mmio f.val = true)
    (hpf : isPf f.val = true) (hoff : off.toNat < 0x200000) (halign : aligned off.toNat false = true) :
    exec (.registerWrite f .bar0 off false (v.zeroExtend 64) fl) s = .next ((s.touch f.val).writePf f.val off.toNat v fl) := by
  have hword : ((v.zeroExtend 64).setWidth 32 : BitVec 32) = v := by
    simp only [BitVec.truncate_eq_setWidth, BitVec.setWidth_setWidth_of_le, BitVec.setWidth_eq, Nat.reduceLeDiff]
  rw [exec_registerWrite_of_decoded _ _ hmmio (.inl hpf) halign (.inl (inDiag_of_lt hoff)), State.writeReg, if_neg Bool.false_ne_true,
    hword, State.write4, if_pos hpf]

theorem State.writePf_admSel (s : State) (f : Nat) (v : Word) (fl : Tab Nat) :
    s.writePf f 0x8600 v fl = s.modSel (portOf f) fun _ => { s.sel (portOf f) with adm := fld v 0 8 } := rfl

/-- A staged copy that a PF other than the steward writes stays as it is. -/
theorem State.writePf_staged {s : State} {f off : Nat} (v : Word) (fl : Tab Nat) (hoff : isStaged off = true)
    (hnot : s.isSteward f = false) : s.writePf f off v fl = s.ignoreWrite f := by
  simp only [State.writePf, hoff, hnot, if_true, Bool.false_eq_true, if_false]

theorem State.sel_modSel (s : State) (p : Nat) (g : PfSel → PfSel) (q : Nat) :
    (s.modSel p g).sel q = if q = p then g (s.sel p) else s.sel q := Tab.get_upd ..

/-! ### Configuration space -/

theorem exec_registerWrite_cfg {s : State} {f : FnId} {sp : RegSpace} (off : BitVec 22) (wide : Bool) (data : BitVec 64) (fl : Tab Nat)
    (hcfg : s.cfgOk f.val = true) (hsp : sp ≠ .bar0) :
    exec (.registerWrite f sp off wide data fl) s = .next (s.writeCfg f.val sp off.toNat data) := by
  cases sp with
  | bar0 => exact absurd rfl hsp
  | _ => exact congrArg Host.Outcome.next (if_pos hcfg)

theorem exec_registerLowHalfRead_cfg {s : State} {f : FnId} {sp : RegSpace} (off : BitVec 22) (wide : Bool) (hcfg : s.cfgOk f.val = true)
    (hsp : sp ≠ .bar0) :
    exec (.registerLowHalfRead f { sp := sp, off := off } wide) s =
      .next (s.emit (.regData f.val off.toNat ((s.cfgWord f.val sp off.toNat).zeroExtend 64))) := by
  cases sp with
  | bar0 => exact absurd rfl hsp
  | _ => exact congrArg Host.Outcome.next (if_pos hcfg)

/-- Settles O51: an access passes its tests, and the register at its offset, or the control register named, says what it does. -/
theorem registersAreReadAndWritten : Obligations.RegistersAreReadAndWritten := by
  refine ⟨?access, ?clearOnRead, ?selected, ?config, ?misaligned⟩
  case access =>
    intro f off wide data fl s hmmio hin halign hdiag
    refine ⟨exec_registerWrite_of_decoded data fl hmmio hin halign hdiag, ?_⟩
    refine congrArg Host.Outcome.next ((State.access_of_decoded hmmio hin halign hdiag).trans ?_)
    cases wide <;> rfl
  case clearOnRead =>
    intro f s hmmio hpf htrail hadm hcfe
    refine ⟨?adm, ?cfe, ?waitmax⟩
    case adm =>
      refine congrArg Host.Outcome.next ((State.readBar0_narrow hmmio hpf (by decide) (by decide) (by decide) (by decide)).trans ?_)
      rw [State.afterRead_admStat (s := s.touch f.val) hpf htrail hadm]
      rfl
    case cfe =>
      refine congrArg Host.Outcome.next ((State.readBar0_narrow hmmio hpf (by decide) (by decide) (by decide) (by decide)).trans ?_)
      rw [State.afterRead_cfeStat (s := s.touch f.val) hpf htrail hcfe]
      rfl
    case waitmax =>
      refine congrArg Host.Outcome.next ((State.readBar0_narrow hmmio hpf (by decide) (by decide) (by decide) (by decide)).trans ?_)
      rw [State.afterRead_decWaitmax (s := s.touch f.val) hpf htrail]
  case selected =>
    intro f v s hmmio hpf
    refine ⟨⟨_, exec_registerWrite_narrow v [] hmmio hpf (by decide) (by decide), ?own, ?others⟩, fun hnot => ?staged⟩
    case own =>
      refine (congrArg PfSel.adm ((s.touch f.val).sel_modSel (portOf f.val) _ _)).trans ?_
      rw [if_pos rfl]
      exact (BitVec.setWidth_eq_extractLsb' (by decide)).symm
    case others =>
      intro p hp
      exact ((s.touch f.val).sel_modSel (portOf f.val) _ p).trans (if_neg hp)
    case staged =>
      exact (exec_registerWrite_narrow v [] hmmio hpf (by decide) (by decide)).trans
        (congrArg Host.Outcome.next (State.writePf_staged (s := s.touch f.val) v [] (by decide) hnot))
  case config =>
    intro f data fl s hcfg
    exact ⟨exec_registerWrite_cfg 0 false data fl hcfg (by decide), exec_registerWrite_cfg 0 false data fl hcfg (by decide),
      exec_registerWrite_cfg 0 false data fl hcfg (by decide), fun sp off wide hsp => exec_registerLowHalfRead_cfg off wide hcfg hsp⟩
  case misaligned =>
    intro f off wide s hmmio hpf halign
    exact congrArg Host.Outcome.next (State.access_of_misaligned hmmio (.inl hpf) halign)

end Sys2Proof.Machine

/-! ## O7: the zone actions, at admission -/

namespace Sys2Proof.Machine

open Sys2Proof

/-! ### The tests of a zone action, each passed -/

/-- A zone action that waits, meets no failure of step 8 and is not held is put in force, and then the entries that waited for its zone
are checked behind it (03 R82, 05 R131). -/
theorem State.admitZone_reaches_action {s : State} {id act : Nat} {c d : Cmd} (k : Cmd → State → State) (hcmd : s.cmd? id = some c)
    (hd : d = s.timed c [s.actOf c.nsid c.slba]) (hwait : d.waiting 4 = true) (hact : d.act4 = act)
    (hstep : s.step8 4 d.slba 0 act d.nsid = none) (hheld : s.arrivalsHeld [s.actOf d.nsid d.slba] = false) :
    s.admitZone id act k = (k d s).runWaiting := by
  simp only [State.admitZone, hcmd, ← hd, hwait, hact, hstep, hheld, Bool.not_true, bne_self_eq_false, Bool.or_self, Bool.false_eq_true,
    if_false]

/-! ### The band-journal write of a FINISH or RESET -/

/-- A journal write moves no host data, so that no link can hold it up. -/
theorem State.linkLow_no_bytes (s : State) (f : Nat) (b : Bool) : (s.linkLow f && (0 : Nat) != 0 && b) = false := by
  rw [bne_self_eq_false, Bool.and_false, Bool.false_and]

/-- Settles O7: the four actions pass the same tests; OPEN and CLOSE end on the host-port model, FINISH and RESET on the plan of a
journal write. -/
theorem zoneActionsChangeTheAdmittedState : Obligations.ZoneActionsChangeTheAdmittedState := by
  refine ⟨?opens, ?closes, ?finishes, ?resets, ?journal⟩
  case opens =>
    intro id c d s hcmd hd hwait hact hstep hheld hhost
    exact congrArg Host.Outcome.next
      ((State.admitZone_reaches_action _ hcmd hd hwait hact hstep hheld).trans (congrArg State.runWaiting (if_pos hhost)))
  case closes =>
    intro id c d s hcmd hd hwait hact hstep hheld hhost
    exact congrArg Host.Outcome.next
      ((State.admitZone_reaches_action _ hcmd hd hwait hact hstep hheld).trans (congrArg State.runWaiting (if_pos hhost)))
  case finishes =>
    intro id c d s hcmd hd hwait hact hstep hheld
    exact congrArg Host.Outcome.next (State.admitZone_reaches_action _ hcmd hd hwait hact hstep hheld)
  case resets =>
    intro id c d s hcmd hd hwait hact hstep hheld
    exact congrArg Host.Outcome.next (State.admitZone_reaches_action _ hcmd hd hwait hact hstep hheld)
  case journal =>
    intro c st wp t v op s hop hplan
    subst hop
    exact State.admitOn_of_pass _ (s.linkLow_no_bytes c.fn _) hplan

end Sys2Proof.Machine

/-! ## O16: the limits of the ATI counters, and their checkpoint -/

namespace Sys2Proof.Machine

open Sys2Proof

/-- A group not yet held is held, and its refresh goes ahead of order 4 (05 R147). -/
theorem State.holdGroup_of_free {s : State} {a g : Nat} (hfree : (s.act a).med.atiHeld.contains g = false) :
    s.holdGroup a g = (s.modMed a fun m => { m with atiHeld := m.atiHeld ++ [g] }).queueRefresh a g 3 :=
  if_neg (Bool.eq_false_iff.1 hfree)

/-- Settles O16: each event finds its limit met or its time come, and then queues, holds or checkpoints. -/
theorem adjacentTrackCountersRefreshAndHold : Obligations.AdjacentTrackCountersRefreshAndHold := by
  refine ⟨?limit, ?hold, ?refresh, ?checkpoint⟩
  case limit =>
    intro a g s hlimit hnew
    exact congrArg Host.Outcome.next ((if_neg (Nat.not_lt.2 hlimit)).trans (if_neg (Bool.eq_false_iff.1 hnew)))
  case hold =>
    intro a g s hlimit hfree
    exact congrArg Host.Outcome.next ((if_neg (Nat.not_lt.2 hlimit)).trans (State.holdGroup_of_free hfree))
  case refresh =>
    intro s a g order _
    rfl
  case checkpoint =>
    intro a s hdue hpost
    have hruns : ¬ (s.now < (s.act a.val).med.ckptAt + 60000000000 ∨ s.boot.postStop = true) :=
      not_or.2 ⟨Nat.not_lt.2 hdue, Bool.eq_false_iff.1 hpost⟩
    exact congrArg Host.Outcome.next (if_neg hruns)

end Sys2Proof.Machine

/-! ## O17: format operations -/

namespace Sys2Proof.Machine

open Sys2Proof

/-! ### The fields of a MEDIA_FORMAT (05 Table 5.8) -/

/-- A MEDIA_FORMAT of the steward that names a present namespace, its other bytes 0, is not refused for its fields. -/
theorem State.formatNamespace_fields_valid {s : State} {r : Requester} {p : List Byte} {n : Nat} (hstew : s.fromSteward r = true)
    (hzero : reservedZero p [(0, 1), (2, 2)] = true) (hpos : 0 < n) (hmax : n ≤ 4096) (hpresent : (s.ns n).present = true) :
    (!s.fromSteward r || !reservedZero p [(0, 1), (2, 2)] || n == 0 || decide (4096 < n) || !(s.ns n).present) = false := by
  simp only [hstew, hzero, hpresent, beq_eq_false_iff_ne.2 (Nat.ne_of_gt hpos), decide_eq_false (Nat.not_lt.2 hmax), Bool.not_true,
    Bool.or_self]

/-- A MEDIA_FORMAT of the steward that names an actuator and a conventional share of 1 to 10 per cent, its other bytes 0, is not refused
for its fields. -/
theorem State.formatActuator_fields_valid {s : State} {r : Requester} {p : List Byte} (hstew : s.fromSteward r = true)
    (hzero : reservedZero p [(0, 1), (1, 1), (4, 1)] = true) (hact : byteAt p 4 < 144) (hpos : 0 < byteAt p 1) (hmax : byteAt p 1 ≤ 10) :
    (!s.fromSteward r || !reservedZero p [(0, 1), (1, 1), (4, 1)] || decide (143 < byteAt p 4) || byteAt p 1 == 0
      || decide (10 < byteAt p 1)) = false := by
  simp only [hstew, hzero, decide_eq_false (Nat.not_lt.2 (Nat.le_of_lt_succ hact)), beq_eq_false_iff_ne.2 (Nat.ne_of_gt hpos),
    decide_eq_false (Nat.not_lt.2 hmax), Bool.not_true, Bool.or_self]

/-- Settles O17: a request is served and passes the tests of its fields and its bars; an operation that waits has no bar left. -/
theorem formatsEnterWaitAndReport : Obligations.FormatsEnterWaitAndReport := by
  refine ⟨?ofNamespace, ?ofActuator, ?enter, ?startNamespace, ?startActuator, ?seen, ?unseen⟩
  case ofNamespace =>
    intro r p n s hreq hkind hstew hzero hn hpos hmax hpresent hfmt hsan
    subst hn
    refine congrArg Host.Outcome.next ((State.serve_ok s r _ _ _ p hreq hkind).trans ?_)
    dsimp only
    rw [State.formatNamespace_fields_valid hstew hzero hpos hmax hpresent, hfmt, hsan]
    simp only [Bool.false_eq_true, if_false]
  case ofActuator =>
    intro r p s hreq hkind hstew hzero hact hpos hmax hfmt hns hlive
    refine congrArg Host.Outcome.next ((State.serve_ok s r _ _ _ p hreq hkind).trans ?_)
    dsimp only
    rw [State.formatActuator_fields_valid hstew hzero hact hpos hmax, hfmt, hns, hlive]
    simp only [Bool.or_self, Bool.false_eq_true, if_false]
  case enter =>
    intro s k o
    rfl
  case startNamespace =>
    intro id o s hfmt hkind hidle
    change execFormatStart id s = _
    simp only [execFormatStart, hfmt, hkind, hidle, Bool.and_false, Bool.false_eq_true, if_false, if_true]
  case startActuator =>
    intro id o s hfmt hkind
    change execFormatStart id s = _
    simp only [execFormatStart, hfmt, hkind, Bool.false_and, Bool.false_eq_true, if_false, decide_eq_true_eq]
  case seen =>
    intro r p o s hreq hfmt hzero
    refine congrArg Host.Outcome.next ((State.serve_any s r _ _ p hreq).trans ?_)
    simp only [hfmt, hzero, if_true]
  case unseen =>
    intro r p s hreq hnone
    refine congrArg Host.Outcome.next ((State.serve_any s r _ _ p hreq).trans ?_)
    simp only [hnone]

end Sys2Proof.Machine

/-! ## O43: device-level resets, power loss and the quarantine of a bay -/

namespace Sys2Proof.Machine

open Sys2Proof

/-! ### What changes the actuators one after the other leaves the configuration alone -/

theorem State.each_cfg {α : Type} (s : State) (l : List α) {g : State → α → State} (hg : ∀ s a, (g s a).cfg = s.cfg) :
    (s.each l g).cfg = s.cfg := by
  induction l generalizing s with
  | nil => rfl
  | cons a l ih => exact (ih (g s a)).trans (hg s a)

@[simp] theorem State.endRoutine_cfg (s : State) (a : Nat) : (s.endRoutine a).cfg = s.cfg := s.modFmt_cfg a _

/-! ### DEVICE_RESET (16 R434) -/

/-- Outside Trailhead mode a DEVICE_RESET of the steward, its other bytes 0, is answered and falls due 10 ms later. -/
theorem State.serveReset_of_steward {s : State} {r : Requester} {p : List Byte} {action : Nat} (hreq : s.request (mbxOf r) 0x0E50 = some p)
    (haction : byteAt p 0 = action) (hstew : s.fromSteward r = true) (hzero : reservedZero p [(0, 1)] = true)
    (htrail : s.boot.trailhead = false) :
    s.serveReset r action = (s.respond (mbxOf r) (reasonOnly 0 0)).askReset (s.now + 10000000) action := by
  have hstays (t : Nat) : ((s.respond (mbxOf r) (reasonOnly 0 0)).askReset t action).boot.trailhead = false := by
    simpa only [State.askReset, State.modBoot, State.respond_boot] using htrail
  refine (State.serve_ok s r _ _ _ p hreq haction).trans ?_
  simp only [hstew, hzero, hstays, Bool.not_true, Bool.false_and, Bool.false_eq_true, if_false]

/-! ### Power loss (05 R141, R142) -/

/-- The state once a power loss is declared: posting has stopped, its event latches, and every routine ends (05 R141). -/
def State.lossDeclared (s : State) : State :=
  ((s.modBoot fun b => { b with postStop := true, lossAt := some s.now, lossMark := true }).raise 0x762).each (List.range 144)
    State.endRoutine

@[simp] theorem State.lossDeclared_cfg (s : State) : s.lossDeclared.cfg = s.cfg := State.each_cfg _ _ State.endRoutine_cfg

@[simp] theorem State.lossDeclared_now (s : State) : s.lossDeclared.now = s.now := State.each_now _ _ _ State.endRoutine_now

theorem exec_powerLossDeclared_of_low {s : State} (hlow : 3 ≤ s.lowDomains.length) (hfirst : s.boot.lossAt = none)
    (hcold : s.glb.coldRst = false) :
    exec .powerLossDeclared s =
      .next (if s.lossDeclared.cfg.tmax = 0 then s.lossDeclared.askReset (s.lossDeclared.now + 10000000) 4
        else if (List.range 144).filter s.lossDeclared.loaded = [] then s.lossDeclared.askReset s.lossDeclared.now 4
        else (s.lossDeclared.each ((List.range 144).filter s.lossDeclared.loaded) State.beginFlush).modBoot fun b =>
          { b with bayFlush := (((List.range 144).filter s.lossDeclared.loaded).map bayOf).eraseDups }) := by
  change execPowerLossDeclared s = _
  simp only [execPowerLossDeclared, decide_eq_false (Nat.not_lt.2 hlow), hfirst, hcold, Option.isSome_none, Bool.or_self,
    Bool.false_eq_true, if_false, List.isEmpty_iff]
  rfl

/-! ### QUARANTINE_CTRL (16 R434) -/

/-- The steward may see every bay (15 Table 15.8). -/
theorem State.showsBay_of_steward {s : State} {r : Requester} (h : s.fromSteward r = true) (b : Nat) : s.showsBay r b = true := by
  cases r with
  | fn f => exact Bool.or_eq_true_iff.2 (.inl h)
  | sideband => exact absurd h Bool.false_ne_true

/-- A QUARANTINE_CTRL that names a bay, its other bytes 0, has its fields right (16 Table 16.10). -/
theorem quarantine_fields_valid {p : List Byte} (hzero : reservedZero p [(0, 2)] = true) (hbay : byteAt p 1 ≤ 71) :
    ¬ (!reservedZero p [(0, 2)] ∨ 71 < byteAt p 1) := by
  simp only [hzero, Bool.not_true, Bool.false_eq_true, Nat.not_lt.2 hbay, or_self, not_false_eq_true]

theorem exec_quarantineRelease_of_steward {s : State} {r : Requester} {p : List Byte} (hreq : s.request (mbxOf r) 0x0E20 = some p)
    (haction : byteAt p 0 = 2) (hstew : s.fromSteward r = true) (hzero : reservedZero p [(0, 2)] = true) (hbay : byteAt p 1 ≤ 71) :
    exec (.quarantineRelease r) s =
      .next (if (s.bay (byteAt p 1)).link.quar = 0 then s.quarReply (mbxOf r) 3 (byteAt p 1)
        else
          let t := s.modLink (byteAt p 1) fun l => { l with quar := 0, quarSerial := [], failed := 0 }
          ((t.setMedia (byteAt p 1) (if (t.bay (byteAt p 1)).link.present then 1 else 0)).bringUp (byteAt p 1)).quarReply (mbxOf r) 0
            (byteAt p 1)) := by
  refine congrArg Host.Outcome.next ((State.serve_ok s r _ _ _ p hreq haction).trans ?_)
  simp only [hstew, quarantine_fields_valid hzero hbay, Bool.not_true, Bool.false_eq_true, if_false]

/-- Settles O43: a request is served and passes its tests; a reset falls due, a loss is declared and a flush ends with their conditions
met. -/
theorem deviceResetsAndPowerLoss : Obligations.DeviceResetsAndPowerLoss := by
  refine ⟨?request, ?due, ?loss, ?flushEnd, ?bayEnd, ?quarantine⟩
  case request =>
    intro r p s hreq hstew hzero htrail
    exact ⟨fun h => congrArg Host.Outcome.next (State.serveReset_of_steward hreq h hstew hzero htrail),
      fun h => congrArg Host.Outcome.next (State.serveReset_of_steward hreq h hstew hzero htrail)⟩
  case due =>
    intro landed due action s hask hdue hcold hloss
    change execDeviceLevelReset landed s = _
    simp only [execDeviceLevelReset, hask, Nat.not_lt.2 hdue, hcold, hloss, bne_iff_ne.2 hloss, Bool.and_true, Bool.false_eq_true,
      or_self, if_false]
  case loss =>
    intro s hlow hfirst hcold
    exact ⟨congrArg Cfg.tmax s.lossDeclared_cfg, s.lossDeclared_now, exec_powerLossDeclared_of_low hlow hfirst hcold⟩
  case flushEnd =>
    intro b la lb s hflush hover
    change execHoldupFlushEnd b la lb s = _
    simp only [execHoldupFlushEnd, hflush, hover, Bool.not_true, Bool.or_self, Bool.false_eq_true, if_false]
  case bayEnd =>
    intro b s hflush
    simp only [State.endBayFlush, hflush, Bool.not_true, Bool.false_eq_true, if_false, List.isEmpty_iff]
  case quarantine =>
    intro r p s hreq hzero hbay hstew
    refine ⟨fun hstatus => ?status, fun hrelease hnone => ?absent, fun hrelease hquar => ?released⟩
    case status =>
      refine congrArg Host.Outcome.next ((State.serve_ok s r _ _ _ p hreq hstatus).trans ?_)
      simp only [quarantine_fields_valid hzero hbay, State.showsBay_of_steward hstew, Bool.not_true, Bool.false_eq_true, if_false]
    case absent => rw [exec_quarantineRelease_of_steward hreq hrelease hstew hzero hbay, if_pos hnone]
    case released => rw [exec_quarantineRelease_of_steward hreq hrelease hstew hzero hbay, if_neg hquar]

end Sys2Proof.Machine

/-! ## O18: the order in which framing takes the hits -/

namespace Sys2Proof.Machine

open Sys2Proof

/-! ### Sorting -/

theorem mem_insBy {α : Type} {le : α → α → Bool} {x y : α} {l : List α} : x ∈ insBy le y l ↔ x = y ∨ x ∈ l := by
  induction l with
  | nil => exact List.mem_cons
  | cons z t ih =>
    rw [insBy]
    cases le y z with
    | true => exact List.mem_cons
    | false =>
      change x ∈ z :: insBy le y t ↔ _
      rw [List.mem_cons, List.mem_cons, ih, or_left_comm]

theorem mem_sortBy {α : Type} {le : α → α → Bool} {x : α} {l : List α} : x ∈ sortBy le l ↔ x ∈ l := by
  induction l with
  | nil => exact Iff.rfl
  | cons y t ih => exact mem_insBy.trans ((or_congr_right ih).trans List.mem_cons.symm)

theorem insBy_pairwise {α : Type} {le : α → α → Bool} (htotal : ∀ x y, le x y = true ∨ le y x = true)
    (htrans : ∀ x y z, le x y = true → le y z = true → le x z = true) (x : α) {l : List α} (hl : l.Pairwise (le · · = true)) :
    (insBy le x l).Pairwise (le · · = true) := by
  induction l with
  | nil => exact List.pairwise_singleton _ x
  | cons y t ih =>
    obtain ⟨hy, ht⟩ := List.pairwise_cons.1 hl
    rw [insBy]
    cases hxy : le x y with
    | true => exact List.pairwise_cons.2 ⟨List.forall_mem_cons.2 ⟨hxy, fun z hz => htrans x y z hxy (hy z hz)⟩, hl⟩
    | false =>
      have hyx : le y x = true := (htotal x y).resolve_left (Bool.eq_false_iff.1 hxy)
      exact List.pairwise_cons.2 ⟨fun z hz => (mem_insBy.1 hz).elim (fun heq => heq ▸ hyx) (hy z), ih ht⟩

theorem sortBy_pairwise {α : Type} {le : α → α → Bool} (htotal : ∀ x y, le x y = true ∨ le y x = true)
    (htrans : ∀ x y z, le x y = true → le y z = true → le x z = true) (l : List α) : (sortBy le l).Pairwise (le · · = true) := by
  induction l with
  | nil => exact List.Pairwise.nil
  | cons x t ih => exact insBy_pairwise htotal htrans x ih

/-! ### The hits of a window (06 R163) -/

/-- The hits that count: within the threshold and the window. -/
theorem mem_hitsIn {w : Int} {thr : Nat} {hs : List Hit} {h : Hit} :
    h ∈ hitsIn w thr hs ↔ h ∈ hs ∧ h.dist ≤ thr ∧ -w ≤ h.e ∧ h.e ≤ w := by
  rw [hitsIn, mem_sortBy, List.mem_filter, decide_eq_true_iff]

theorem hitsIn_increasing (w : Int) (thr : Nat) (hs : List Hit) : (hitsIn w thr hs).Pairwise (·.e ≤ ·.e) := by
  refine (sortBy_pairwise (fun x y => ?_) (fun x y z => ?_) _).imp of_decide_eq_true
  · simpa only [decide_eq_true_iff] using Int.le_total x.e y.e
  · simpa only [decide_eq_true_iff] using Int.le_trans

/-! ### SM1: the first accepted hit (06 R164, rules 1 to 3) -/

/-- An SM1 hit is accepted: it is not early, or SM2 matches it. -/
def accepts (thr : Nat) (sm2 : List Hit) (h : Hit) : Bool := decide (0 ≤ h.e) || matched thr sm2 h

theorem accepts_iff {thr : Nat} {sm2 : List Hit} {h : Hit} :
    accepts thr sm2 h = true ↔ 0 ≤ h.e ∨ ∃ m ∈ sm2, m.dist ≤ thr ∧ -2 ≤ m.e - h.e ∧ m.e - h.e ≤ 2 := by
  simp only [accepts, matched, Bool.or_eq_true, List.any_eq_true, decide_eq_true_iff]
  refine or_congr_right (exists_congr fun m => and_congr_right fun _ => and_congr_right fun _ => ?_)
  omega

theorem not_accepts_iff {thr : Nat} {sm2 : List Hit} {h : Hit} :
    accepts thr sm2 h = false ↔ h.e < 0 ∧ ∀ m ∈ sm2, m.dist ≤ thr → m.e - h.e < -2 ∨ 2 < m.e - h.e := by
  simp only [accepts, matched, Bool.or_eq_false_iff, List.any_eq_false, decide_eq_true_iff, decide_eq_false_iff_not]
  refine and_congr Int.not_le (forall_congr' fun m => forall_congr' fun _ => ?_)
  omega

/-- With no accepted hit the scan ends empty, every hit rejected. -/
theorem scanSm1_of_none {thr : Nat} {sm2 l : List Hit} (hl : ∀ k ∈ l, accepts thr sm2 k = false) (n : Nat) :
    (scanSm1 thr sm2 l n).1 = none := by
  induction l generalizing n with
  | nil => rfl
  | cons x t ih =>
    obtain ⟨hx, ht⟩ := List.forall_mem_cons.1 hl
    rw [scanSm1, ← accepts, hx]
    exact ih ht _

/-- In a list of increasing e, the scan finds the e of an accepted hit before which none is accepted. -/
theorem scanSm1_of_first {thr : Nat} {sm2 l : List Hit} {h : Hit} (hinc : l.Pairwise (·.e ≤ ·.e)) (hmem : h ∈ l)
    (hacc : accepts thr sm2 h = true) (hfirst : ∀ k ∈ l, k.e < h.e → accepts thr sm2 k = false) (n : Nat) :
    ∃ k t, (scanSm1 thr sm2 l n).1 = some (k, t) ∧ k.e = h.e := by
  induction l generalizing n with
  | nil => nomatch hmem
  | cons x t ih =>
    obtain ⟨hle, hinc⟩ := List.pairwise_cons.1 hinc
    obtain ⟨hx, ht⟩ := List.forall_mem_cons.1 hfirst
    rw [scanSm1, ← accepts]
    cases hxacc : accepts thr sm2 x with
    | true =>
      have hxle : x.e ≤ h.e := (List.mem_cons.1 hmem).elim (fun heq => heq ▸ Int.le_refl _) (hle h)
      have hnot : ¬ x.e < h.e := fun hlt => Bool.false_ne_true ((hx hlt).symm.trans hxacc)
      exact ⟨x, t, rfl, by omega⟩
    | false =>
      have hne : h ≠ x := fun heq => Bool.false_ne_true (hxacc.symm.trans (heq ▸ hacc))
      exact ih hinc ((List.mem_cons.1 hmem).resolve_left hne) ht _

/-! ### SM2: the nearest hit (06 R164, rule 4) -/

/-- Hit `x` is nearer e = 0 than `y`, or as near and not later. -/
def NearerHit (x y : Hit) : Prop := x.e.natAbs < y.e.natAbs ∨ x.e.natAbs = y.e.natAbs ∧ x.e ≤ y.e

theorem e_eq_of_nearer {x y : Hit} (hxy : NearerHit x y) (hyx : NearerHit y x) : x.e = y.e := by
  unfold NearerHit at hxy hyx
  omega

/-- Of hits in increasing e, one is taken if there is any, and none is nearer. -/
theorem nearest_of_increasing {l : List Hit} (hinc : l.Pairwise (·.e ≤ ·.e)) (hne : l ≠ []) :
    ∃ x ∈ l, nearest l = some x ∧ ∀ k ∈ l, NearerHit x k := by
  induction l with
  | nil => exact absurd rfl hne
  | cons y t ih =>
    obtain ⟨hle, hinc⟩ := List.pairwise_cons.1 hinc
    by_cases ht : t = []
    · subst ht
      exact ⟨y, List.mem_singleton_self y, rfl, fun k hk => List.mem_singleton.1 hk ▸ .inr ⟨rfl, Int.le_refl _⟩⟩
    · obtain ⟨x, hx, hnear, hall⟩ := ih hinc ht
      have hyx := hle x hx
      rw [nearest, hnear]
      by_cases hlt : x.e.natAbs < y.e.natAbs
      · exact ⟨x, List.mem_cons_of_mem y hx, if_pos hlt, List.forall_mem_cons.2 ⟨.inl hlt, hall⟩⟩
      · refine ⟨y, List.mem_cons_self, if_neg hlt, List.forall_mem_cons.2 ⟨.inr ⟨rfl, Int.le_refl _⟩, fun k hk => ?_⟩⟩
        have hxk := hall k hk
        have hyk := hle k hk
        unfold NearerHit at hxk ⊢
        omega

/-! ### The framing -/

/-- A sector whose scan finds a hit is framed from SM1. -/
theorem frameIn_of_scan {w : Int} {thr : Nat} {sm1 sm2 t : List Hit} {k : Hit}
    (hscan : (scanSm1 thr sm2 (hitsIn w thr sm1) 0).1 = some (k, t)) :
    (frameIn w thr sm1 sm2).ok = true ∧ (frameIn w thr sm1 sm2).sm2 = false ∧ (frameIn w thr sm1 sm2).first = 48 + k.e + 128 := by
  simp only [frameIn, hscan, and_self]

/-- A sector whose scan finds none is framed from the SM2 hit of rule 4. -/
theorem frameIn_of_nearest {w : Int} {thr : Nat} {sm1 sm2 : List Hit} {m : Hit}
    (hscan : (scanSm1 thr sm2 (hitsIn w thr sm1) 0).1 = none) (hnear : nearest (hitsIn w thr sm2) = some m) :
    (frameIn w thr sm1 sm2).ok = true ∧ (frameIn w thr sm1 sm2).sm2 = true ∧ (frameIn w thr sm1 sm2).first = 144 + m.e + 32 := by
  simp only [frameIn, hscan, hnear, and_self]

theorem frameIn_of_no_hit {w : Int} {thr : Nat} {sm1 sm2 : List Hit} (hscan : (scanSm1 thr sm2 (hitsIn w thr sm1) 0).1 = none)
    (hown : hitsIn w thr sm2 = []) : (frameIn w thr sm1 sm2).ok = false := by
  simp only [frameIn, hscan, hown, nearest]

/-- Where no SM1 hit of the window is accepted, the scan finds none. -/
theorem scanSm1_hitsIn_of_none {w : Int} {thr : Nat} {sm1 sm2 : List Hit} (hrej : ∀ k ∈ sm1, k.dist ≤ thr → -w ≤ k.e → k.e ≤ w →
    k.e < 0 ∧ ∀ m ∈ sm2, m.dist ≤ thr → m.e - k.e < -2 ∨ 2 < m.e - k.e) : (scanSm1 thr sm2 (hitsIn w thr sm1) 0).1 = none := by
  refine scanSm1_of_none (fun k hk => ?_) 0
  obtain ⟨hmem, hdist, hlo, hhi⟩ := mem_hitsIn.1 hk
  exact not_accepts_iff.2 (hrej k hmem hdist hlo hhi)

/-- Settles O18: the scan stops at the e of the first accepted SM1 hit, and with none the nearest SM2 hit has the e of any other that none
is nearer than. -/
theorem framingTakesTheFirstAcceptedHit : Obligations.FramingTakesTheFirstAcceptedHit := by
  refine ⟨?fromSm1, ?fromSm2, ?unframed⟩
  case fromSm1 =>
    intro w thr sm1 sm2 h hmem hdist hlo hhi hacc hfirst
    have hbefore (k : Hit) (hk : k ∈ hitsIn w thr sm1) (hlt : k.e < h.e) : accepts thr sm2 k = false := by
      obtain ⟨hkmem, hkdist, hklo, -⟩ := mem_hitsIn.1 hk
      exact not_accepts_iff.2 (hfirst k hkmem hkdist hklo hlt)
    obtain ⟨k, t, hscan, he⟩ :=
      scanSm1_of_first (hitsIn_increasing w thr sm1) (mem_hitsIn.2 ⟨hmem, hdist, hlo, hhi⟩) (accepts_iff.2 hacc) hbefore 0
    exact he ▸ frameIn_of_scan hscan
  case fromSm2 =>
    intro w thr sm1 sm2 m hmem hdist hlo hhi hmin hrej
    have hm : m ∈ hitsIn w thr sm2 := mem_hitsIn.2 ⟨hmem, hdist, hlo, hhi⟩
    obtain ⟨x, hx, hnear, hall⟩ := nearest_of_increasing (hitsIn_increasing w thr sm2) (List.ne_nil_of_mem hm)
    obtain ⟨hxmem, hxdist, hxlo, hxhi⟩ := mem_hitsIn.1 hx
    have he : m.e = x.e := e_eq_of_nearer (hmin x hxmem hxdist hxlo hxhi) (hall m hm)
    exact he ▸ frameIn_of_nearest (scanSm1_hitsIn_of_none hrej) hnear
  case unframed =>
    intro w thr sm1 sm2 hno hrej
    refine frameIn_of_no_hit (scanSm1_hitsIn_of_none hrej) (List.eq_nil_iff_forall_not_mem.2 fun m hm => ?_)
    obtain ⟨hmem, hdist, hlo, hhi⟩ := mem_hitsIn.1 hm
    have := hno m hmem hdist
    omega

end Sys2Proof.Machine

/-! ## O19: a sector's way from its framing through the decoder pool -/

namespace Sys2Proof.Machine

open Sys2Proof

/-- Settles O19: each event finds what it acts on, and its time come; an iteration of class 1 work lends no engine, so a syndrome of zero
ends the attempt with its iteration counted. -/
theorem detectedSectorsEnterTheDecoderPool : Obligations.DetectedSectorsEnterTheDecoderPool := by
  refine ⟨?framing, ?clamp, ?notice, ?boundary, ?converges, ?redetection, ?replay⟩
  case framing =>
    intro a key sm1 sm2 r0 r1 r s hrun hopc hkey
    have hreads : (r.req.opc == 1 || r.req.opc == 3) = true := by simpa only [Bool.or_eq_true, beq_iff_eq] using hopc
    change execSectorFraming a key sm1 sm2 { r0 := r0, r1 := r1 } s = _
    simp only [execSectorFraming, hrun, hreads, hkey, Bool.and_self, if_true]
  case clamp =>
    intro a h s hclamp
    exact congrArg Host.Outcome.next (if_neg (Nat.not_lt.2 hclamp))
  case notice =>
    intro a cmd key e c s hsamples hpending hframed hpasses hcmd hdue
    change execDetectionNotice a cmd key s = _
    simp only [execDetectionNotice, hsamples, hpending, hframed, Nat.not_lt.2 hpasses, hcmd, Nat.not_lt.2 hdue, Nat.max_eq_left hdue,
      Option.isNone_some, Bool.and_false, Bool.not_true, Bool.or_self, decide_false, Bool.false_eq_true, if_false]
  case boundary =>
    intro e zero out taps x s hjob hdue
    change execIterationBoundary e zero out taps s = _
    simp only [execIterationBoundary, hjob, Nat.not_lt.2 hdue, if_false]
  case converges =>
    intro e x out taps s hcls
    have hown : (x.cls != 1) = false := bne_eq_false_iff_eq.2 hcls
    simp only [State.iterate, hown, State.modAttempt_now, Bool.false_eq_true, if_false, if_true]
  case redetection =>
    intro e x n s hjob hround hreached
    change execRoundRedetectionDone e s = _
    simp only [execRoundRedetectionDone, hjob, hround, hreached, if_true]
  case replay =>
    intro a sm1 sm2 r e s hrun hopc hdue hsamples
    have hends : (r.req.opc != 2 || decide (s.now < r.startAt + 10000)) = false :=
      Bool.or_eq_false_iff.2 ⟨bne_eq_false_iff_eq.2 hopc, decide_eq_false (Nat.not_lt.2 hdue)⟩
    change execReplayLlrsReady { act := a, sm1 := sm1, sm2 := sm2 } s = _
    simp only [execReplayLlrsReady, hrun, hends, hsamples, Bool.false_eq_true, if_false]

end Sys2Proof.Machine

/-! ## O21: what starts at the front of a formatter's queue -/

namespace Sys2Proof.Machine

open Sys2Proof

@[simp] theorem State.popFmt_ledger (s : State) (a : Nat) : (s.popFmt a).ledger = s.ledger := by
  simp only [State.popFmt, State.fillQueue, State.modCfe_ledger, State.modFmt_ledger]

/-- A write routine starts with its gate open, its count at the sectors committed before (07 R196, R203). -/
theorem State.startWrite_of_next {s : State} {a : Nat} {opc : Byte} {q : FmtCmd} (hnext : s.nextRoutine a opc = some q) :
    s.startWrite a opc =
      (((s.startRoutine a q).openGate a q).modCfe a fun c => { c with band := false, refTrack := none }).modFmt a fun f =>
        { f with count := BitVec.ofNat 16 q.prior } := by
  simp only [State.startWrite, hnext]

/-- Settles O21: the front command may start, and the routine of its opcode runs; one without a valid entry is taken off the queue, and
its host command, which that leaves in the ledger, ends. -/
theorem routinesStartFromTheDispatchQueue : Obligations.RoutinesStartFromTheDispatchQueue := by
  refine ⟨?read, ?replay, ?average, ?start, ?conv, ?band, ?landing, ?romFault⟩
  case read =>
    intro a q s hnext
    change execReadRun a s = _
    simp only [execReadRun, hnext]
  case replay =>
    intro a q s hnext
    change execReadReplay a s = _
    simp only [execReadReplay, hnext]
  case average =>
    intro a q s hnext
    change execReadAverage a s = _
    simp only [execReadAverage, hnext]
  case start => exact fun s a q => rfl
  case conv => exact fun a q s hnext => congrArg Host.Outcome.next (State.startWrite_of_next hnext)
  case band => exact fun a q s hnext => congrArg Host.Outcome.next (State.startWrite_of_next hnext)
  case landing => exact fun a q s hnext => congrArg Host.Outcome.next (State.startWrite_of_next hnext)
  case romFault =>
    intro a q t c s hqueue hinvalid hidle hfree hreset hcmd hdc
    have hfind : s.ledger.find? (·.id == q.cmd) = some c := hcmd
    change execRomFaultRoutine a s = _
    simp only [execRomFaultRoutine, hqueue, hinvalid, hidle, hfree, hreset, State.cmd?, State.modAdm_ledger, State.modFmt_ledger,
      State.popFmt_ledger, hfind, hdc, Option.isSome_none, Bool.or_self, Bool.false_eq_true, if_false]

end Sys2Proof.Machine

/-! ## O22: waymarks, records, restarts, squeeze checks and the assist loop -/

namespace Sys2Proof.Machine

open Sys2Proof

/-- The cut-off of a command that has left the ledger changes nothing. -/
theorem State.cutOff_of_none {s : State} {id : Nat} (hnone : s.cmd? id = none) : s.cutOff id = s := by
  simp only [State.cutOff, hnone]

/-! ### Waymarks (07 R195) -/

/-- The routines 0x10, 0x11 and 0x12 write sectors, whose groups have waymarks. -/
theorem writesSectors_of_opc {opc : Byte} (hopc : opc = 0x10 ∨ opc = 0x11 ∨ opc = 0x12) :
    (!(opc == 0x10 || opc == 0x11 || opc == 0x12)) = false := by
  obtain rfl | rfl | rfl := hopc <;> rfl

/-- A routine of the device's own, and one whose command is still in the ledger, is not abandoned. -/
theorem State.keepsRoutine {s : State} {id : Nat} (hcmd : id = 0 ∨ s.cmd? id ≠ none) : (id != 0 && (s.cmd? id).isNone) = false := by
  rcases hcmd with hown | hlive
  · rw [hown, bne_self_eq_false, Bool.false_and]
  · rw [Option.isNone_eq_false_iff.2 (Option.isSome_iff_ne_none.2 hlive), Bool.and_false]

/-- Once its waymark passes, the last group ends the routine and updates its command. -/
theorem exec_waymarkPassed_of_last {s u v : State} {a : ActId} {r : Routine} (hrun : (s.act a.val).fmt.running = some r)
    (hopc : r.req.opc = 0x10 ∨ r.req.opc = 0x11 ∨ r.req.opc = 0x12) (hu : u = s.cutOff r.req.cmd)
    (hcmd : r.req.cmd = 0 ∨ u.cmd? r.req.cmd ≠ none) (hintents : u.intentsWritten a.val r.req (u.group a.val r.req r.done).1 = true)
    (hkeys : (u.group a.val r.req r.done).1 ≠ [])
    (hv : v = u.passWaymark a.val r (u.group a.val r.req r.done).1 (u.group a.val r.req r.done).2)
    (hlast : r.req.keys.length ≤ ((v.act a.val).fmt.running.getD r).done) :
    exec (.waymarkPassed a) s = .next ((v.endWrite a.val).afterWrite a.val r.req.cmd) := by
  have hsome : (u.group a.val r.req r.done).1.isEmpty = false := List.isEmpty_eq_false_iff.2 hkeys
  change execWaymarkPassed a s = _
  simp only [execWaymarkPassed, hrun, ← hu, writesSectors_of_opc hopc, State.keepsRoutine hcmd, hintents, hsome, ← hv, hlast,
    Bool.not_true, Bool.false_eq_true, true_or, if_true, if_false]

/-- A routine whose command has left the ledger ends without a waymark, and counts as abandoned. -/
theorem exec_waymarkPassed_of_commandless {s : State} {a : ActId} {r : Routine} (hrun : (s.act a.val).fmt.running = some r)
    (hopc : r.req.opc = 0x10 ∨ r.req.opc = 0x11 ∨ r.req.opc = 0x12) (hhost : r.req.cmd ≠ 0) (hgone : s.cmd? r.req.cmd = none) :
    exec (.waymarkPassed a) s = .next ((s.endWrite a.val).modFmt a.val fun f => { f with abandon := f.abandon + 1 }) := by
  change execWaymarkPassed a s = _
  simp only [execWaymarkPassed, hrun, State.cutOff_of_none hgone, writesSectors_of_opc hopc, bne_iff_ne.2 hhost, hgone,
    Option.isNone_none, Bool.and_self, Bool.false_eq_true, if_true, if_false]

/-- Settles O22: a write routine's group is whole and its command live or gone, a record or check is the next to run, the journal and the
waiting routine are due, and a sample finds its gate open. -/
theorem writesPassWaymarksAndRestart : Obligations.WritesPassWaymarksAndRestart := by
  refine ⟨?last, ?commandless, ?intents, ?record, ?journal, ?restart, ?squeeze, ?feedback⟩
  case last => exact fun a r u v s => exec_waymarkPassed_of_last
  case commandless => exact fun a r s => exec_waymarkPassed_of_commandless
  case intents =>
    intro a q s hnext hkeys
    change execWriteRecord a s = _
    simp only [execWriteRecord, hnext, List.isEmpty_eq_false_iff.2 hkeys, Bool.not_false, if_true]
  case record =>
    intro a q u s hnext hkeys hu
    refine ⟨fun c hcmd hzone => ?zone, fun hnone horder => ?grazing⟩ <;> change execWriteRecord a s = _
    case zone =>
      simp only [execWriteRecord, hnext, hkeys, List.isEmpty_nil, ← hu, hcmd, hzone, Bool.not_true, Bool.false_eq_true, if_true, if_false]
    case grazing =>
      simp only [execWriteRecord, hnext, hkeys, List.isEmpty_nil, ← hu, hnone, horder, Bool.not_true, Bool.false_eq_true, if_true,
        if_false]
  case journal =>
    intro a s hbuf hdue hnew
    change execJournalWriteDue a s = _
    simp only [execJournalWriteDue, List.isEmpty_eq_false_iff.2 hbuf, decide_eq_false (Nat.not_lt.2 hdue), hnew, Bool.or_self,
      Bool.false_eq_true, if_false]
  case restart =>
    intro a r s hwait hmay hhost
    change execRoutineRestart a s = _
    simp only [execRoutineRestart, hwait, hmay, hhost, Bool.not_true, Bool.false_eq_true, ne_eq, not_false_eq_true, if_true, if_false]
  case squeeze =>
    intro a q s hnext hwrites
    refine ⟨?passed, fun x b hband hchecked => ?failed⟩
    case passed =>
      change execSqueezeCheck a none s = _
      simp only [execSqueezeCheck, hnext, hwrites, Option.filter_none, Bool.false_eq_true, if_false]
    case failed =>
      change execSqueezeCheck a (some x) s = _
      simp only [execSqueezeCheck, hnext, hwrites, hband, Option.filter_some, hchecked, Bool.false_eq_true, if_true, if_false]
  case feedback =>
    intro a sample ua rosc r u s hrun hwrites hgate hu
    subst hu
    change execAssistFeedback a sample { ua := ua, rosc := rosc } s = _
    simp only [execAssistFeedback, hrun, hwrites, hgate, Bool.not_true, Bool.or_self, Bool.false_eq_true, if_false]

end Sys2Proof.Machine

/-! ## O23: duty windows, ASSIST_STATUS and calibration routines -/

namespace Sys2Proof.Machine

open Sys2Proof

/-- An ASSIST_STATUS that names a head there is, its other bytes 0, has its fields right (07 R215). -/
theorem State.assistStatus_fields_valid {s : State} {p : List Byte} (hzero : reservedZero p [(0, 2)] = true) (hact : byteAt p 0 < 144)
    (hhead : byteAt p 1 < 16) (hpresent : (s.head (byteAt p 0) (byteAt p 1)).present = true) :
    (!reservedZero p [(0, 2)] || decide (143 < byteAt p 0) || decide (15 < byteAt p 1)
      || !(s.head (byteAt p 0) (byteAt p 1)).present) = false := by
  simp only [hzero, decide_eq_false (Nat.not_lt.2 (Nat.le_of_lt_succ hact)), decide_eq_false (Nat.not_lt.2 (Nat.le_of_lt_succ hhead)),
    hpresent, Bool.not_true, Bool.or_self]

/-- Settles O23: the window is over, the request is served and passes its tests, and the calibration routine is the next to run. -/
theorem assistUseIsMeasuredAndReported : Obligations.AssistUseIsMeasuredAndReported := by
  refine ⟨?duty, ?status, ?assistCal, ?channelCal⟩
  case duty => exact fun s hdue => congrArg Host.Outcome.next (if_neg (Nat.not_lt.2 hdue))
  case status =>
    intro r p s hreq hzero hact hhead hpresent hsees
    refine congrArg Host.Outcome.next ((State.serve_any s r _ _ p hreq).trans ?_)
    dsimp only
    rw [State.assistStatus_fields_valid hzero hact hhead hpresent, hsees]
    simp only [Bool.not_true, Bool.false_eq_true, if_false]
  case assistCal =>
    intro a o q s hnext
    change execAssistCal a o s = _
    simp only [execAssistCal, hnext]
  case channelCal =>
    intro a o q s hnext
    change execChannelCal a o s = _
    simp only [execChannelCal, hnext]

end Sys2Proof.Machine

/-! ## O26: self-tests, LOOP_CTRL and the trace commands -/

namespace Sys2Proof.Machine

open Sys2Proof

/-- A LOOP_CTRL request in progress of the action served, whose requester may ask it and whose fields are right, is carried out (08 R250). -/
theorem State.serveLoop_carried_out {s : State} {r : Requester} {p : List Byte} {action lim : Nat} {mig allowed : Bool}
    {go : List Byte → State} (hreq : s.request (mbxOf r) 0x0810 = some p) (haction : byteAt p 0 = action) (hallowed : allowed = true)
    (hfields : loopFields p lim mig = true) :
    (s.serve r 0x0810 (some action) fun p =>
      if !allowed then s.loopReply (mbxOf r) 7 0 else if !loopFields p lim mig then s.loopReply (mbxOf r) 1 0 else go p) = go p := by
  rw [State.serve_ok s r _ _ _ p hreq haction, hallowed, hfields]
  rfl

/-- A write of the steward to a DIAG register is taken while the DIAG window is open (04 Table 4.5). -/
theorem State.diagWrite_mmio {s : State} {f : Nat} (hmmio : s.stewardMmio f = true) (hopen : s.diagOpen = true) (k : State → State) :
    s.diagWrite f k = k (s.touch f) := by
  obtain ⟨hpf, hstew⟩ := Bool.and_eq_true_iff.1 hmmio
  obtain ⟨hbar0, -⟩ := Bool.and_eq_true_iff.1 hpf
  exact (State.bar0_mmio hbar0 true _).trans (if_pos (Bool.and_eq_true_iff.2 ⟨hstew, hopen⟩))

/-- Settles O26: a self-test acts by the state of its engine, a LOOP_CTRL request is served and passes its tests, and a trace command is
a DIAG write (08 R248, R250, R251). -/
theorem loopEnginesAreManaged : Obligations.LoopEnginesAreManaged := by
  refine ⟨?inService, ?inReset, ?actuator, ?spindle, ?retire, ?retest, ?reload, ?status, ?trace⟩
  case inService =>
    intro n s hservice
    exact ⟨congrArg Host.Outcome.next (if_pos hservice), congrArg Host.Outcome.next (if_pos hservice)⟩
  case inReset =>
    intro n s hstate hisl
    have hout : (s.le n.val).state ≠ 0 := by rw [hstate]; decide
    have hready : (s.le n.val).state = 3 ∧ (!(s.isl (164 + n.val / 4)).reset) = true := ⟨hstate, congrArg not hisl⟩
    exact congrArg Host.Outcome.next ((if_neg hout).trans (if_pos hready))
  case actuator =>
    intro r p n s hreq haction hstew hfields hdest
    refine congrArg Host.Outcome.next ((State.serveLoop_carried_out hreq haction hstew hfields).trans ?_)
    simp only [hdest]
  case spindle =>
    intro r p n s hreq haction hstew hfields hdest
    refine congrArg Host.Outcome.next ((State.serveLoop_carried_out hreq haction hstew hfields).trans ?_)
    simp only [hdest]
  case retire =>
    intro r p s hreq haction hstew hfields hservice hroom
    refine congrArg Host.Outcome.next ((State.serveLoop_carried_out hreq haction hstew hfields).trans ?_)
    simp only [hservice, hroom, ne_eq, not_true_eq_false, Bool.false_eq_true, if_false]
  case retest =>
    intro r p s hreq haction hstew hfields hfails hout
    exact congrArg Host.Outcome.next ((State.serveLoop_carried_out hreq haction hstew hfields).trans
      ((if_neg (Nat.not_le.2 hfails)).trans (if_neg hout)))
  case reload =>
    intro r p s hreq haction hstew hfields hparked
    exact congrArg Host.Outcome.next ((State.serveLoop_carried_out hreq haction hstew hfields).trans (if_neg (not_not_intro hparked)))
  case status =>
    intro r p s hreq haction hsees hfields
    exact congrArg Host.Outcome.next (State.serveLoop_carried_out hreq haction hsees hfields)
  case trace =>
    intro f n val s hmmio hopen
    exact ⟨congrArg Host.Outcome.next (State.diagWrite_mmio hmmio hopen _),
      congrArg Host.Outcome.next (State.diagWrite_mmio hmmio hopen _)⟩

end Sys2Proof.Machine

/-! ## O28: bus samples, domain faults, the cap window and the spin-up tokens -/

namespace Sys2Proof.Machine

open Sys2Proof

/-! ### Bus samples (09 R269) -/

/-- A condition that does not hold has held since no time. -/
@[simp] theorem since_false (t : Option Nat) (now : Nat) : since false t now = none := rfl

/-- A sample between VTRIP and REGEN_V, with the chopper off as before and neither regeneration off nor a coast in force, only records the bus. -/
theorem exec_busSample_of_normal {d : Fin 4} {v : BitVec 12} {s : State} (hchop : (s.dom d.val).chop = false) (hregen : v.toNat ≤ s.regenMv)
    (hhigh : v.toNat ≤ 1380) (htrip : 10 * s.cfg.tripV ≤ v.toNat) (hoff : (s.dom d.val).regenOff = false)
    (hcoast : (s.dom d.val).coast = false) :
    exec (.busSample d v false) s =
      .next (s.modDom d.val fun x =>
        { x with busv := v, chop := false, lowAt := none, goodAt := since (decide (10 * s.cfg.tripV + 40 < v.toNat)) x.goodAt s.now,
                 belowAt := since (decide (v.toNat < s.regenMv)) x.belowAt s.now,
                 clearAt := since (decide (v.toNat + 30 < s.regenMv)) x.clearAt s.now }) := by
  have hlow : ¬ v.toNat < 10 * s.cfg.tripV := Nat.not_lt.2 htrip
  have hover : ¬ s.regenMv < v.toNat := Nat.not_lt.2 hregen
  have hpeak : ¬ 1380 < v.toNat := Nat.not_lt.2 hhigh
  change execBusSample d v false s = _
  simp only [execBusSample, hchop, hlow, hover, hpeak, hoff, hcoast, State.dom_modDom, since_false, decide_false, Bool.false_eq_true,
    or_self, false_and, Bool.false_and, if_true, if_false]

/-! ### Domain faults (09 R271, R272) -/

/-- A domain whose bus has been low for 10 µs faults while at most two are and it is not at fault already. -/
theorem exec_domainFault_of_low {d : Fin 4} {s : State} (hlow : s.lowDomains.contains d.val = true) (hcount : s.lowDomains.length ≤ 2)
    (hfault : (s.dom d.val).domfault = false) :
    exec (.domainFault d) s =
      .next ((((s.modDom d.val fun x => { x with domfault := true }).raise (0x740 + 8 * d.val + 3)).each
        ((baysOf d.val).filter fun b => (((s.modDom d.val fun x => { x with domfault := true }).raise (0x740 + 8 * d.val + 3)).bay b).link.present)
        State.bayFault).reproject) := by
  have hnone : ¬ (!s.lowDomains.contains d.val || decide (2 < s.lowDomains.length) || (s.dom d.val).domfault) = true := by
    simp only [hlow, hfault, decide_eq_false (Nat.not_lt.2 hcount), Bool.not_true, Bool.or_self, Bool.false_eq_true, not_false_eq_true]
  exact congrArg Host.Outcome.next (if_neg hnone)

/-! ### The cap window (09 R261) -/

/-- Two windows that agree to 1 % and lie between 10 and 90 % set the cap; without the default cap in force there is no event. -/
theorem exec_pwrcapWindow_of_repeated {duty : Fin 101} {x : Nat} {s : State} (hmin : 10 ≤ duty.val) (hmax : duty.val ≤ 90)
    (hlast : s.pwr.lastDuty = some x) (hup : x ≤ duty.val + 1) (hdown : duty.val ≤ x + 1) (hdflt : s.pwr.dflt = false) :
    exec (.pwrcapWindow duty) s =
      .next (((s.modPwr fun p => { p with duty := BitVec.ofNat 8 duty.val, lastDuty := some duty.val, badWins := 0 }).modPwr fun p =>
        { p with capMil := capOf duty.val, capPct := BitVec.ofNat 8 (capOf duty.val / 1000), dflt := false }).reproject) := by
  have hin : ¬ (duty.val < 10 ∨ 90 < duty.val) := not_or.2 ⟨Nat.not_lt.2 hmin, Nat.not_lt.2 hmax⟩
  have hagree : (s.pwr.lastDuty.any fun x => decide (x ≤ duty.val + 1 ∧ duty.val ≤ x + 1)) = true := by
    simp only [hlast, Option.any_some, hup, hdown, and_self, decide_true]
  change execPwrcapWindow duty s = _
  simp only [execPwrcapWindow, hin, hagree, hdflt, Bool.false_eq_true, if_true, if_false]

/-- A second window outside 10 to 90 % sets the default cap of 60 %, where it is not in force already. -/
theorem exec_pwrcapWindow_of_second_invalid {duty : Fin 101} {s : State} (hout : duty.val < 10 ∨ 90 < duty.val) (hbad : 1 ≤ s.pwr.badWins)
    (hdflt : s.pwr.dflt = false) :
    exec (.pwrcapWindow duty) s =
      .next ((((s.modPwr fun p => { p with duty := BitVec.ofNat 8 duty.val, lastDuty := none, badWins := p.badWins + 1 }).modPwr fun p =>
        { p with capMil := 60000, capPct := 60, dflt := true }).raise 0x760).reproject) := by
  have hdue : ¬ (s.pwr.badWins + 1 < 2 ∨ s.pwr.dflt = true) :=
    not_or.2 ⟨Nat.not_lt.2 (Nat.succ_le_succ hbad), Bool.eq_false_iff.1 hdflt⟩
  exact congrArg Host.Outcome.next ((if_pos hout).trans (if_neg hdue))

/-- Settles O28: the sample is normal, the domain is low or good for long enough, the window is the second of its kind, and the queue has a
bay to serve. -/
theorem busVoltageAndPowerCapAct : Obligations.BusVoltageAndPowerCapAct := by
  refine ⟨?sample, ?fault, ?restore, ?capDefault, ?capSet, fun mw s => rfl, ?token⟩
  case sample => exact fun d v s => exec_busSample_of_normal
  case fault => exact fun d s => exec_domainFault_of_low
  case restore =>
    intro d s hfault hgood
    change execDomainRestore d s = _
    simp only [execDomainRestore, hfault, hgood, Bool.not_true, Bool.or_self, Bool.false_eq_true, if_false]
  case capDefault => exact fun duty s => exec_pwrcapWindow_of_second_invalid
  case capSet => exact fun duty x s => exec_pwrcapWindow_of_repeated
  case token =>
    intro d b s hfirst hstart
    have hspin : ¬ ((s.spin b).tokKind = 2 ∧ (!(s.spin b).moving) = true) := fun ⟨hraise, hstill⟩ =>
      hstart.elim (· hraise) fun hmoving => by simp [hmoving] at hstill
    change execSpinUpTokenGrant d s = _
    simp only [execSpinUpTokenGrant, hfirst, hspin, if_false]

end Sys2Proof.Machine

/-! ## O29: the gait target, and the power states of a bay -/

namespace Sys2Proof.Machine

open Sys2Proof

/-! ### The gait target (09 R260, R263) -/

/-- What leaves the power ceiling of a bay alone leaves its gait ceiling alone. -/
theorem State.ceil_modSpin_same {s : State} {b : Nat} {g : Spin → Spin} (hpwr : (g (s.spin b)).ceilPwr = (s.spin b).ceilPwr) :
    (s.modSpin b g).ceil b = s.ceil b := by
  have hbay : ((s.modSpin b g).bay b).spin.ceilPwr = (s.bay b).spin.ceilPwr := by rw [State.bay_modSpin, if_pos rfl]; exact hpwr
  exact congrArg (min ·.toNat (s.thermalCeil b)) hbay

/-- An active bay at rest in its gait, its ceiling above Rest, takes a higher target by dispatching both its actuators. -/
theorem exec_gaitTargetRecompute_of_higher {b : BayId} {u : Nat → Nat} {s : State} (hactive : (s.spin b.val).pstate = 0)
    (hceil : s.ceil b.val ≠ 0) (hstill : (s.spin b.val).moving = false)
    (hu : u = fun g => max (utilOf (s.spin b.val).gait.toNat g (s.shares (2 * b.val)).1 (s.shares (2 * b.val)).2)
      (utilOf (s.spin b.val).gait.toNat g (s.shares (2 * b.val + 1)).1 (s.shares (2 * b.val + 1)).2))
    (hhigher : (s.spin b.val).gait.toNat < s.targetGait b.val u) :
    exec (.gaitTargetRecompute b () () () ()) s =
      .next (((s.modSpin b.val fun p =>
        { p with utils := (List.range 4).foldl (fun m g => m.put g (u g)) p.utils, target := BitVec.ofNat 2 (s.targetGait b.val u),
                 lowSince := none }).dispatch (2 * b.val)).dispatch (2 * b.val + 1)) := by
  have hlower : ¬ s.targetGait b.val u < (s.spin b.val).gait.toNat := Nat.not_lt.2 (Nat.le_of_lt hhigher)
  subst hu
  change execGaitTargetRecompute b () () () () s = _
  simp only [execGaitTargetRecompute, State.ceil_modSpin_same, hactive, hceil, hstill, hhigher, hlower, since, decide_false, Bool.and_false,
    ne_eq, not_true_eq_false, Bool.false_eq_true, false_and, if_true, if_false]

/-! ### The timers of Idle and Standby (09 R278) -/

/-- A bay without an admitted command for a time that is not 0 has been quiet for it. -/
theorem State.quietFor_of_noAdmitted {s : State} {b t : Nat} (hnone : s.noAdmitted b = true) (hpos : 0 < t)
    (hlong : (s.spin b).lastCmd + t * 1000000000 ≤ s.now) : s.quietFor b t = true := by
  simp only [State.quietFor, hnone, hpos, hlong, decide_true, Bool.and_self]

/-- No bay is quiet for a timer that is off, nor while it holds an admitted command. -/
theorem State.not_quietFor {s : State} {b t : Nat} (hbusy : t = 0 ∨ s.noAdmitted b = false) : ¬ s.quietFor b t = true := by
  rcases hbusy with hoff | hadmitted
  · simp [State.quietFor, hoff]
  · simp [State.quietFor, hadmitted]

/-! ### Power states (09 R275, R279) -/

/-- A bay that neither is in Standby nor enters it begins the entry. -/
theorem State.enterPower_standby {s : State} {b : Nat} (hstate : (s.spin b).pstate ≠ 2)
    (hentry : ¬ ((s.spin b).pstate = 3 ∧ (s.spin b).pwant = 2)) :
    s.enterPower b 2 = s.modSpin b fun p => { p with pstate := 3, pwant := 2 } :=
  (if_neg (not_or.2 ⟨hstate, hentry⟩)).trans (if_neg (by decide))

/-- A POWER_STATE request of the state served that is not refused acts on every bay it names and answers their count. -/
theorem State.powerState_accepted {s : State} {r : Requester} {p : List Byte} {st : Nat} {g : State → Nat → State}
    (hreq : s.request (mbxOf r) 0x0910 = some p) (hstate : byteAt p 1 = st) (haccepted : s.powerRefused r p (byteAt p 1 == 0) = none) :
    s.powerState r st g = (s.each (s.powerBays p) g).respond (mbxOf r) (leBytes 2 0 ++ leBytes 2 (s.powerBays p).length) := by
  subst hstate
  refine (State.serve_any s r _ _ p hreq).trans ?_
  simp only [haccepted, ne_eq, not_true_eq_false, if_false]

/-- Settles O29: the target rises, the bay is quiet or not, the Standby entry is clear, and the requests are served and pass their tests. -/
theorem gaitAndPowerStatesFollowUse : Obligations.GaitAndPowerStatesFollowUse := by
  refine ⟨?gait, ?idle, ?standby, ?busy, ?enter, ?ready, ?states, ?status⟩
  case gait => exact fun b u s => exec_gaitTargetRecompute_of_higher
  case idle =>
    exact fun b s hactive hnone hpos hlong =>
      congrArg Host.Outcome.next (if_pos ⟨hactive, State.quietFor_of_noAdmitted hnone hpos hlong⟩)
  case standby =>
    exact fun b s hawake hnone hpos hlong =>
      congrArg Host.Outcome.next (if_pos ⟨hawake, State.quietFor_of_noAdmitted hnone hpos hlong⟩)
  case busy =>
    intro b s hbusy
    have hloud : ¬ s.quietFor b.val s.devCfg.timer.idleT.toNat = true := State.not_quietFor (hbusy.imp_left (congrArg BitVec.toNat))
    exact congrArg Host.Outcome.next (if_neg fun h => hloud h.2)
  case enter => exact fun b s => State.enterPower_standby
  case ready =>
    intro b s hentry hwant hclear hret hmotion hturns
    have hparked : ¬ ((s.spin b.val).moving = true ∧ (s.spin b.val).goal ≠ 0) := fun ⟨hmoving, hgoal⟩ =>
      hmotion.elim (fun hstill => Bool.false_ne_true (hstill.symm.trans hmoving)) hgoal
    change execStandbyEntryReady b s = _
    simp only [execStandbyEntryReady, hentry, hwant, hclear, hret, hparked, hturns, Bool.not_true, Bool.false_eq_true, ne_eq,
      not_true_eq_false, or_self, if_false]
  case states =>
    intro r p s hreq haccepted
    exact ⟨fun hidle => congrArg Host.Outcome.next (State.powerState_accepted hreq hidle haccepted),
      fun hstandby => congrArg Host.Outcome.next (State.powerState_accepted hreq hstandby haccepted),
      fun hactive => congrArg Host.Outcome.next (State.powerState_accepted hreq hactive haccepted)⟩
  case status =>
    intro r p s hreq hzero hbay hsees
    refine congrArg Host.Outcome.next ((State.serve_any s r _ _ p hreq).trans ?_)
    simp only [hzero, hsees, decide_eq_false (Nat.not_le.2 hbay), Bool.not_true, Bool.or_self, Bool.false_and, Bool.false_eq_true, if_false]

end Sys2Proof.Machine

/-! ## O30: upstream frames, the loss of a link and its training -/

namespace Sys2Proof.Machine

open Sys2Proof

/-- The tests of BASIC fail exactly when the phase is late, lane D is not locked, or neither upstream lane is (10 R297, Table 10.6). -/
theorem basicFails_iff {limit now : Nat} {dLock u0Lock u1Lock : Bool} :
    (decide (limit < now) || !dLock || !(u0Lock || u1Lock)) = true ↔
      limit < now ∨ dLock = false ∨ u0Lock = false ∧ u1Lock = false := by
  simp [or_assoc]

/-- TRAIN passes its tests within its time, with lane D's pattern, with that of an upstream lane that BASIC locked, and with good echo
rounds (10 R298, Table 10.6). -/
theorem trainPasses {limit now : Nat} {dPrbs tr0 u0Prbs tr1 u1Prbs echo : Bool} (htime : now ≤ limit) (hdown : dPrbs = true)
    (hup : tr0 = true ∧ u0Prbs = true ∨ tr1 = true ∧ u1Prbs = true) (hecho : echo = true) :
    ¬ (decide (limit < now) || !dPrbs || !(tr0 && u0Prbs || tr1 && u1Prbs) || !echo) = true := by
  have hlane : (tr0 && u0Prbs || tr1 && u1Prbs) = true :=
    Bool.or_eq_true_iff.2 (hup.imp Bool.and_eq_true_iff.2 Bool.and_eq_true_iff.2)
  rw [decide_eq_false (Nat.not_lt.2 htime), hdown, hlane, hecho]
  decide

/-- Settles O30: a frame comes on a lane in use; a silence, a loss or the wait for a retry has lasted its time; a training phase passes
its tests or fails one (10 R291, R293, R295, R297 to R299). -/
theorem linksTrainFailAndRetrain : Obligations.LinksTrainFailAndRetrain := by
  refine ⟨?frame, ?silence, ?emrgEnd, ?retrain, ?basic, ?basicFails, ?descriptor, ?train⟩
  case frame =>
    intro a u1 fr s hactive hlane
    have hused : ¬ ((s.cwy a.val).state ≠ 5 ∨ (!(if u1 = true then (s.cwy a.val).u1Ok else (s.cwy a.val).u0Ok)) = true) := by
      simp only [hactive, hlane, ne_eq, not_true_eq_false, Bool.not_true, Bool.false_eq_true, or_self, not_false_eq_true]
    exact congrArg Host.Outcome.next (if_neg hused)
  case silence => exact fun a s hactive hsilent => congrArg Host.Outcome.next (if_pos ⟨hactive, hsilent⟩)
  case emrgEnd => exact fun a s hlost hemrg hover => congrArg Host.Outcome.next (if_pos ⟨hlost, hemrg, hover⟩)
  case retrain =>
    intro a s hlost hset hdue hpresent hquar hdom
    have hhealthy : (!(s.dom (domOf (bayOf a.val))).domfault) = true := congrArg not hdom
    exact congrArg Host.Outcome.next (if_pos ⟨hlost, hset, hdue, hpresent, hquar, hhealthy⟩)
  case basic =>
    intro a o s hstate htime hdown hup
    have hlocked : ¬ ((s.cwy a.val).phaseAt + 20000000 < s.now ∨ o.dLock = false ∨ o.u0Lock = false ∧ o.u1Lock = false) := by
      rintro (hlate | hnoDown | ⟨hnoU0, hnoU1⟩)
      · exact Nat.not_lt.2 htime hlate
      · exact Bool.false_ne_true (hnoDown.symm.trans hdown)
      · exact hup.elim (Bool.eq_false_iff.1 hnoU0) (Bool.eq_false_iff.1 hnoU1)
    exact congrArg Host.Outcome.next ((if_pos hstate).trans (if_neg (mt basicFails_iff.1 hlocked)))
  case basicFails =>
    exact fun a o s hstate hfails => congrArg Host.Outcome.next ((if_pos hstate).trans (if_pos (basicFails_iff.2 hfails)))
  case descriptor =>
    intro a o s hstate
    have hbasic : (s.cwy a.val).state ≠ 2 := by rw [hstate]; decide
    exact congrArg Host.Outcome.next ((if_neg hbasic).trans (if_pos hstate))
  case train =>
    intro a o s hstate htime hdown hecho hup
    have hbasic : (s.cwy a.val).state ≠ 2 := by rw [hstate]; decide
    have hdesc : (s.cwy a.val).state ≠ 3 := by rw [hstate]; decide
    exact congrArg Host.Outcome.next
      ((if_neg hbasic).trans ((if_neg hdesc).trans ((if_pos hstate).trans (if_neg (trainPasses htime hdown hup hecho)))))

end Sys2Proof.Machine

/-! ## O58 and O59: the canonical form of the staging DRAM and the merge buffer -/

namespace Sys2Proof

/-- Rising rows numbered from `j` on and below `n` are at most `n - j`. -/
theorem Tab.length_le_of_lt {α : Type} {t : Tab α} {j n : Nat} (hjn : j ≤ n) (ht : t.Pairwise (·.1 < ·.1)) (hge : ∀ r ∈ t, j ≤ r.1)
    (hlt : ∀ r ∈ t, r.1 < n) : j + t.length ≤ n := by
  induction t generalizing j with
  | nil => exact hjn
  | cons r t ih =>
    obtain ⟨hr, ht⟩ := List.pairwise_cons.1 ht
    have hj : j ≤ r.1 := hge r List.mem_cons_self
    have hn : r.1 < n := hlt r List.mem_cons_self
    have htail : j + 1 + t.length ≤ n :=
      ih (Nat.lt_of_le_of_lt hj hn) ht (fun q hq => Nat.lt_of_le_of_lt hj (hr q hq)) fun q hq => hlt q (List.mem_cons_of_mem r hq)
    rw [List.length_cons]
    omega

end Sys2Proof

namespace Sys2Proof.Machine

open Sys2Proof

/-- A command on `s` with the outcome `o` leaves the merge buffer alone. -/
def KeepsMerge (s : State) (o : Host.Outcome State Fault Refusal) : Prop := ∀ t, o = .next t → t.mem.merge = s.mem.merge

theorem keepsMerge_next {s t : State} (h : t.mem.merge = s.mem.merge) : KeepsMerge s (.next t) := by
  rintro _ ⟨⟩
  exact h

/-! ### Operations on the way to a command -/

@[simp] theorem State.wrapped_merge (s : State) : s.wrapped.2.mem.merge = s.mem.merge := by simp [State.wrapped]

@[simp] theorem State.exitMs_merge (s : State) (b : Nat) : (s.exitMs b).2.mem.merge = s.mem.merge := by
  unfold State.exitMs
  dsimp only
  split <;> simp

/-! ### Mailbox messages: what serves the request decides -/

theorem keepsMerge_serve {s : State} {r : Requester} {op : Nat} {act : Option Nat} {k : List Byte → State}
    (hk : ∀ p, (k p).mem.merge = s.mem.merge) : KeepsMerge s (.next (s.serve r op act k)) :=
  keepsMerge_next (State.serve_merge _ _ _ _ _ hk)

theorem keepsMerge_serveFw {s : State} {r : Requester} {act : Nat} {ok : List Byte → Bool} {go : State → List Byte → State × Nat}
    (hgo : ∀ s p, (go s p).1.mem.merge = s.mem.merge) : KeepsMerge s (.next (s.serveFw r act ok go)) :=
  keepsMerge_next (State.serveFw_merge _ _ _ _ _ hgo)

theorem keepsMerge_tallyRing {s : State} {r : Requester} {act : Nat} {g : State → Nat → List Byte → Nat × State}
    (hg : ∀ s k p, (g s k p).2.mem.merge = s.mem.merge) : KeepsMerge s (.next (s.tallyRing r act g)) :=
  keepsMerge_next (State.tallyRing_merge _ _ _ _ hg)

/-! ### Every command that stores nothing -/

/-- A command that stores nothing in staging leaves the merge buffer alone. -/
theorem exec_keepsMerge (c : Instr) (s : State) (hc : mayStoreStaging c = false) : KeepsMerge s (exec c s) := by
  cases c
  -- these may store
  case bar2Read | bar2Write | coldRstAssert | coldRstDeassert | coreSwitchTimeout | dc7Retest | deviceLevelReset | formatterIdle |
      fwActivate | fwCancelActivation | herdFirmwareRestartEnd | markhorCoreSwitch | markhorWatchdog | mergeEntryAge | scrubLineRead |
      startImageInvalid | startTimeout | windowSwitch | write | zoneAppend => cases hc
  -- mailbox messages whose reply depends on the request
  case fwErase | fwSetPreferred | fwVerify | fwWrite =>
    exact keepsMerge_serveFw fun s p => by dsimp only; (repeat' split) <;> simp
  case tallyRingCreate | tallyRingDelete =>
    exact keepsMerge_tallyRing fun s k p => by split <;> simp
  case sanitizeStatus | mediaFormatStatus =>
    exact keepsMerge_serve fun p => by (repeat' split) <;> simp
  case keyGenerate | loopMigrateActuator | loopMigrateSpindle | poisonClear | powerStatus =>
    exact keepsMerge_serve fun p => by dsimp only; (repeat' split) <;> simp
  -- the kind of the operand decides
  case registerWrite f sp off wide data flight => cases sp <;> exact keepsMerge_next (by simp)
  case ceilingStepTimer b => cases b <;> exact keepsMerge_next (by simp)
  -- what look-ups in turn find decides
  case submissionFetchIssue | zoneReport | flush | abort | recoveryList | contRead | flushComplete | abortComplete |
      backgroundRecoveryTimeout | registerLowHalfRead | formatStart | sectorFraming | detectionNotice | iterationBoundary | readRun |
      readReplay | readAverage | assistCal | channelCal | waymarkPassed | assistFeedback | spinUpTokenGrant | layoutReadPending |
      clockSwitch | mailboxDeferredResponse | flashRecordWritten | activationHoldStart | sanitizeWaitEnd | roundRedetectionDone |
      actuatorRun | spindleActionStart =>
    exact keepsMerge_next (by (repeat' split) <;> simp)
  case sectorDelivery | replayLlrsReady | squeezeCheck | writeRecord | romFaultRoutine | routineRestart | migrationTaken | limpExit |
      spindleRun | relockAttemptEnd | cfgCommit =>
    exact keepsMerge_next (by dsimp only; (repeat' split) <;> simp)
  -- shared operations in turn, each with its own rule
  all_goals exact keepsMerge_next (by simp)

/-! ### The canonical form of the merge buffer (11 R328) -/

theorem MergeEnt.wf_iff (e : MergeEnt) : e.wf = true ↔ e.Fits ∧ e.bytes.length < 128 := by
  refine ⟨fun h => ⟨MergeEnt.fits_of_wf h, ?_⟩, fun ⟨⟨haligned, hrising, hlt⟩, hlen⟩ => ?_⟩
  · simp only [MergeEnt.wf, Bool.and_eq_true, decide_eq_true_eq] at h
    exact h.2
  · simp only [MergeEnt.wf, Bool.and_eq_true, decide_eq_true_eq, List.all_eq_true]
    exact ⟨⟨⟨haligned, (rising_iff _).2 hrising⟩, hlt⟩, hlen⟩

/-- Staging is sound, and the merge buffer holds at most 32 entries, none of them of all 128 bytes of its line. -/
structure State.Canonical (s : State) : Prop where
  /-- the DRAM and the lines of the merge buffer -/
  sound : s.Sound
  /-- the buffer's 32 places -/
  room : s.mem.merge.length ≤ 32
  /-- a full mask has gone at once -/
  narrow : ∀ e ∈ s.mem.merge, e.bytes.length < 128

theorem State.canonical_iff (s : State) : s.Canonical ↔ Memory.wf s.ram = true ∧ s.mergeWf = true := by
  constructor
  · rintro ⟨⟨hram, hfits, hnodup⟩, hroom, hnarrow⟩
    simp only [State.mergeWf, Bool.and_eq_true, decide_eq_true_eq, List.all_eq_true]
    exact ⟨hram, ⟨hroom, fun e he => e.wf_iff.2 ⟨hfits e he, hnarrow e he⟩⟩, hnodup⟩
  · rintro ⟨hram, hmerge⟩
    have hsound : s.Sound := State.sound_of_wf hram hmerge
    simp only [State.mergeWf, Bool.and_eq_true, decide_eq_true_eq, List.all_eq_true] at hmerge
    obtain ⟨⟨hroom, hwf⟩, _⟩ := hmerge
    exact ⟨hsound, hroom, fun e he => (e.wf_iff.1 (hwf e he)).2⟩

theorem State.Canonical.congr {s t : State} (hs : s.Canonical) (hmerge : t.mem.merge = s.mem.merge) (hram : t.ram = s.ram) : t.Canonical :=
  ⟨hs.sound.congr hmerge hram, hmerge ▸ hs.room, hmerge ▸ hs.narrow⟩

/-- Dropping entries keeps the form, whatever is written to the DRAM. -/
theorem State.Canonical.of_filter {s t : State} (hs : s.Canonical) {p : MergeEnt → Bool} (hmerge : t.mem.merge = s.mem.merge.filter p)
    (hram : Memory.wf t.ram = true) : t.Canonical where
  sound := hs.sound.of_filter hmerge hram
  room := hmerge ▸ Nat.le_trans (List.length_filter_le ..) hs.room
  narrow e he := hs.narrow e (List.mem_filter.1 (hmerge ▸ he)).1

theorem State.canonical_of_empty {s : State} (hmerge : s.mem.merge = []) (hram : s.ram = []) : s.Canonical := by
  refine s.canonical_iff.2 ⟨by rw [hram]; rfl, ?_⟩
  simp only [State.mergeWf, hmerge]
  decide

theorem State.Canonical.each {α : Type} {s : State} (hs : s.Canonical) (l : List α) {g : State → α → State}
    (hg : ∀ s a, s.Canonical → (g s a).Canonical) : (s.each l g).Canonical := by
  induction l generalizing s with
  | nil => exact hs
  | cons a l ih => exact ih (hg s a hs)

/-! ### Stores and write-outs (11 R328, R329, R330; 04 R114) -/

theorem State.writeOut_merge_filter (s : State) (e : MergeEnt) (ok : Bool) :
    (s.writeOut e ok).mem.merge = s.mem.merge.filter (·.line != e.line) := by
  unfold State.writeOut
  split
  · exact s.putLine_merge_eq _ _
  · dsimp only
    (repeat' split) <;> simp [State.modMem]

theorem State.Canonical.writeOut {s : State} (hs : s.Canonical) (e : MergeEnt) (ok : Bool) : (s.writeOut e ok).Canonical :=
  hs.of_filter (s.writeOut_merge_filter e ok) (s.writeOut_wf e ok hs.sound.ram)

theorem State.Canonical.putLine {s : State} (hs : s.Canonical) (x : Nat) (bs : List Byte) : (s.putLine x bs).Canonical :=
  hs.of_filter (s.putLine_merge_eq x bs) (s.putLine_wf x bs hs.sound.ram)

theorem State.Canonical.settle {s : State} (hs : s.Canonical) (k n : Nat) : (s.settle k n).Canonical :=
  hs.each _ fun _ e h => h.writeOut e true

/-- Once there is room, the buffer holds at most 31 entries. -/
theorem State.mergeRoom_length {s : State} (hs : s.Canonical) : s.mergeRoom.mem.merge.length < 32 := by
  have hroom := hs.room
  unfold State.mergeRoom
  split
  next e l hl =>
    split
    next =>
      have hgone : ((e :: l).filter (·.line != e.line)).length < (e :: l).length :=
        List.length_filter_lt_length_iff_exists.2 ⟨e, List.mem_cons_self, by simp⟩
      rw [State.writeOut_merge_eq, hl]
      rw [hl] at hroom
      omega
    next hfew => omega
  next hl => rw [hl]; decide

theorem State.mergeJoin_length {s : State} (hs : s.Canonical) (x o : Nat) (bs : List Byte) : (s.mergeJoin x o bs).mem.merge.length ≤ 32 := by
  unfold State.mergeJoin
  split
  · exact Nat.le_trans (Nat.le_of_eq (List.length_map ..)) hs.room
  · exact Nat.le_trans (Nat.le_of_eq List.length_append) (State.mergeRoom_length hs)

/-- Bytes that join one line fill no other. -/
theorem State.mergeJoin_narrow {s : State} (hs : s.Canonical) {x o : Nat} {bs : List Byte} {e : MergeEnt}
    (he : e ∈ (s.mergeJoin x o bs).mem.merge) (hline : e.line ≠ x) : e.bytes.length < 128 := by
  unfold State.mergeJoin at he
  split at he
  · obtain ⟨e', he', rfl⟩ := List.mem_map.1 he
    split at hline
    next h => exact absurd h hline
    next h => rw [if_neg h]; exact hs.narrow e' he'
  · rcases List.mem_append.1 he with he | he
    · exact hs.narrow e (s.mergeRoom_subset he)
    · exact absurd (congrArg MergeEnt.line (List.mem_singleton.1 he)) hline

/-- A narrow write within a line keeps the form: its line's entry, where its mask is full, goes at once. -/
theorem State.Canonical.mergeWrite {s : State} (hs : s.Canonical) {k : Nat} {bs : List Byte} (hfit : k + bs.length ≤ lineOf k + 128) :
    (s.mergeWrite k bs).Canonical := by
  have hle : lineOf k ≤ k := lineOf_le k
  have hsound := (State.stored_mergeJoin hs.sound (x := lineOf k) (o := k - lineOf k) (bs := bs) (Nat.mul_mod_left _ _) (by omega)).sound
  have hroom := State.mergeJoin_length hs (lineOf k) (k - lineOf k) bs
  rw [State.mergeWrite_eq]
  split
  next e hfull =>
    have hline : e.line = lineOf k := by
      have hboth := List.find?_some hfull
      simp only [Bool.and_eq_true, beq_iff_eq] at hboth
      exact hboth.1
    refine ⟨hsound.writeOut e, ?_, fun e' he' => ?_⟩
    · rw [State.writeOut_merge_eq]
      exact Nat.le_trans (List.length_filter_le ..) hroom
    · rw [State.writeOut_merge_eq] at he'
      obtain ⟨hmem, hne⟩ := List.mem_filter.1 he'
      exact State.mergeJoin_narrow hs hmem (hline ▸ bne_iff_ne.1 hne)
  next hnone =>
    refine ⟨hsound, hroom, fun e he => ?_⟩
    by_cases hline : e.line = lineOf k
    · have hnot : e.bytes.length ≠ 128 := by simpa [hline] using List.find?_eq_none.1 hnone e he
      have := Tab.length_le_of_lt (Nat.zero_le 128) (hsound.fits e he).rising (fun r _ => Nat.zero_le r.1) (hsound.fits e he).lt
      omega
    · exact State.mergeJoin_narrow hs he hline

theorem State.Canonical.ramStore {s : State} (hs : s.Canonical) (n k : Nat) (bs : List Byte) : (State.ramStore n s k bs).Canonical := by
  induction n generalizing s k bs with
  | zero => exact hs
  | succ n ih =>
    unfold State.ramStore
    split
    next => exact hs
    next =>
      refine ih ?_ _ _
      split
      · exact hs.putLine _ _
      · refine hs.mergeWrite ?_
        have hlt : k < lineOf k + 128 := ((lineOf_eq_iff (Nat.mul_mod_left _ _) k).1 rfl).2
        rw [List.length_take]
        omega

/-! ### The transit window (04 R114 to R116) -/

theorem State.Canonical.decodeBar2 {s : State} (hs : s.Canonical) (p : Nat) (t : HeldTlp) : (s.decodeBar2 p t).Canonical := by
  have hmiss (n : Nat) : (s.missOn (8 + p) n).Canonical := hs.congr rfl rfl
  cases hw : t.write <;> simp only [State.decodeBar2, hw, if_true, Bool.false_eq_true, if_false]
  case false =>
    split
    · exact hs.congr (State.refuseAny_merge ..) (State.refuseAny_ram ..)
    · exact ((hmiss _).settle _ _).congr (State.emit_merge ..) (State.emit_ram ..)
  case true =>
    split
    · exact hs.congr (State.refuseAny_merge ..) (State.refuseAny_ram ..)
    · exact (hmiss _).ramStore _ _ _

theorem State.Canonical.bar2 {s : State} (hs : s.Canonical) (p : Nat) (t : HeldTlp) : (s.bar2 p t).Canonical := by
  unfold State.bar2
  dsimp only
  have ht : (s.touch (64 * p)).Canonical := hs.congr (by simp) (by simp)
  split
  · exact ht.congr (by simp) (by simp)
  · split
    · exact ht.congr (by simp) (by simp)
    · exact ht.decodeBar2 p t

/-! ### Admission of writes (01 R17, R18; 04 R110) -/

theorem State.Canonical.copyWindow {s : State} (hs : s.Canonical) (id : Nat) : (s.copyWindow id).Canonical := by
  unfold State.copyWindow
  split
  · exact hs
  · split
    · exact hs
    · exact (hs.settle _ _).congr ((State.writeFetched_merge ..).trans (State.modCmd_merge ..))
        ((State.writeFetched_ram ..).trans (State.modCmd_ram ..))

/-- An admission on plans keeps the form where what it puts in force does. -/
theorem State.Canonical.admitOn {s : State} (hs : s.Canonical) (c : Cmd) (bytes : Nat) (ops : List (Nat × PlanOp)) {k : State → State}
    (hk : ∀ t, t.Canonical → (k t).Canonical) : (s.admitOn c bytes ops k).Canonical := by
  unfold State.admitOn
  split
  · exact hs.congr (by simp) (by simp)
  · split
    next h =>
      have hmerge := (State.tryParts_merge c (s.epochFor (ops.map (·.1))).1.reserve ops s s).2
      have hram := (State.tryParts_ram c (s.epochFor (ops.map (·.1))).1.reserve ops s s).2
      rw [h] at hmerge hram
      exact hs.congr (by simpa using hmerge) (by simpa using hram)
    next t _ h =>
      have ht : t.Canonical := hs.congr ((State.tryParts_merge c _ ops s s).1 t (by rw [h])) ((State.tryParts_ram c _ ops s s).1 t (by rw [h]))
      exact (hk t ht).congr (by simp) (by simp)

/-- What puts an admitted write in force copies its window last. -/
theorem State.Canonical.openCopy {s t : State} (hs : s.Canonical) (id : Nat) (hmerge : t.mem.merge = s.mem.merge) (hram : t.ram = s.ram) :
    ((t.openBuf id).copyWindow id).Canonical :=
  ((hs.congr hmerge hram).congr (t := t.openBuf id) (by simp) (by simp)).copyWindow id

theorem State.Canonical.admitStaged {s : State} (hs : s.Canonical) (c : Cmd) : (s.admitStaged c).Canonical := by
  unfold State.admitStaged
  split
  · exact hs.openCopy c.id (by simp) (by simp)
  · exact hs.congr (by simp) (by simp)

theorem State.Canonical.admitLandedConv {s : State} (hs : s.Canonical) (c : Cmd) : (s.admitLandedConv c).Canonical :=
  hs.admitOn _ _ _ fun _ ht => ht.openCopy c.id (by simp) (by simp)

theorem State.Canonical.admitLandedZone {s : State} (hs : s.Canonical) (c : Cmd) : (s.admitLandedZone c).Canonical := by
  unfold State.admitLandedZone
  dsimp only
  split
  · exact hs.admitOn _ _ _ fun _ ht => ht.openCopy c.id (by simp) (by simp)
  · split
    · split
      · exact hs.admitOn _ _ _ fun _ ht => ht.openCopy c.id (by simp) (by simp)
      · exact hs
    · exact hs.congr (by simp) (by simp)

theorem State.Canonical.testStaging {s : State} (hs : s.Canonical) (c : Cmd) : (s.testStaging c).Canonical := by
  unfold State.testStaging
  split
  · exact hs.congr (by simp) (by simp)
  · split
    · exact hs.admitStaged c
    · split
      · exact hs.admitLandedZone c
      · exact hs.admitLandedConv c

theorem State.Canonical.testWrite {s : State} (hs : s.Canonical) (op : Nat) (c : Cmd) : (s.testWrite op c).Canonical := by
  unfold State.testWrite
  dsimp only
  split
  · exact hs
  · split
    · exact hs.congr (by simp) (by simp)
    · split
      · exact hs.congr (by simp) (by simp)
      · split
        · split <;> exact hs.congr (by simp) (by simp)
        · exact (hs.congr (t := s.freeLanded) (by simp) (by simp)).testStaging c

theorem State.Canonical.admitWrite {s : State} (hs : s.Canonical) (id op : Nat) : (s.admitWrite id op).Canonical := by
  unfold State.admitWrite
  split
  · exact hs
  · exact hs.testWrite op _

/-! ### Held commands tested again (02 R34, R55) -/

/-- A command that stores nothing in staging keeps the form, for it leaves the bytes and the merge buffer alone. -/
theorem State.Canonical.exec_of_not_mayStoreStaging {s t : State} (hs : s.Canonical) {c : Instr} (hc : mayStoreStaging c = false)
    (h : exec c s = .next t) : t.Canonical := hs.congr (exec_keepsMerge c s hc t h) (exec_keepsRam c s hc t h)

theorem State.Canonical.runWaiting {s : State} (hs : s.Canonical) : s.runWaiting.Canonical := hs.congr (by simp) (by simp)

theorem State.Canonical.retest {s : State} (hs : s.Canonical) (id : Nat) : (s.retest id).Canonical := by
  have hexec {c : Instr} (hc : mayStoreStaging c = false) {t : State} (h : exec c s = .next t) : t.Canonical :=
    hs.exec_of_not_mayStoreStaging hc h
  unfold State.retest
  dsimp only
  split
  · exact hs
  · split
    · exact hs
    · split
      · exact hs.congr (by simp) (by simp)
      · exact hs.admitWrite id 2
      · exact hs.admitWrite id 3
      · split
        · exact hexec (c := .zoneOpen id) rfl rfl
        · exact hexec (c := .zoneClose id) rfl rfl
        · exact hexec (c := .zoneFinish id) rfl rfl
        · exact hexec (c := .zoneReset id) rfl rfl
      · exact hexec (c := .zoneReport id) rfl rfl
      · exact hexec (c := .flush id) rfl rfl
      · exact hexec (c := .recoveryList id) rfl rfl
      · exact hexec (c := .contRead id) rfl rfl
      · exact hs

theorem State.Canonical.retestAll {s : State} (hs : s.Canonical) : s.retestAll.Canonical :=
  (hs.each _ fun _ id h => h.retest id).runWaiting

theorem State.Canonical.endHold {s : State} (hs : s.Canonical) (as : List Nat) : (s.endHold as).Canonical := by
  unfold State.endHold
  dsimp only
  refine (State.Canonical.retestAll (hs.congr ?_ ?_)).congr (State.dispatchAll_merge _ _) (State.dispatchAll_ram _ _) <;> simp

/-! ### A live activation (16 R422, R423) -/

theorem State.Canonical.actFails {s : State} (hs : s.Canonical) (x : Act16) (type : Nat) : (s.actFails x type).Canonical := by
  unfold State.actFails
  dsimp only
  split
  · exact (hs.endHold _).congr (State.rollNext_merge ..) (State.rollNext_ram ..)
  · exact hs.congr (by simp) (by simp)

theorem State.Canonical.goUnit {s : State} (hs : s.Canonical) (x : Act16) (u : Nat) : (s.goUnit x u).Canonical := by
  unfold State.goUnit
  dsimp only
  split
  · exact hs.congr (by simp) (by simp)
  · split
    · split
      · exact hs.actFails _ _
      · exact hs.congr (by simp) (by simp)
    · exact hs.congr (by simp) (by simp)

theorem State.Canonical.unitDone {s : State} (hs : s.Canonical) (x : Act16) : (s.unitDone x).Canonical := by
  have hheld : (if x.hold then s.endHold (holdActs x.unit) else s).Canonical := by
    split
    · exact hs.endHold _
    · exact hs
  unfold State.unitDone
  dsimp only
  split
  · exact hheld.congr (by simp) (by simp)
  · exact hheld.goUnit _ _

theorem State.Canonical.serveFw {s : State} (hs : s.Canonical) (r : Requester) (act : Nat) (ok : List Byte → Bool)
    {go : State → List Byte → State × Nat} (hgo : ∀ p, (go s p).1.Canonical) : (s.serveFw r act ok go).Canonical := by
  unfold State.serveFw State.serve
  dsimp only
  split
  · exact hs
  · split
    · split
      · exact hs.congr (by simp) (by simp)
      · split
        · exact hs.congr (by simp) (by simp)
        · split
          · exact hs.congr (by simp) (by simp)
          · exact (hgo _).congr (State.fwReply_merge ..) (State.fwReply_ram ..)
    · exact hs

/-! ### The scrubber and the age of a merge entry (11 R328, R330, R331) -/

@[simp] theorem State.poisonOutcome_ram (s : State) (u : LineUse) : (s.poisonOutcome u).ram = s.ram := by
  cases u <;> simp only [State.poisonOutcome] <;> (try (repeat' split)) <;> simp

@[simp] theorem State.repairOutcome_ram (s : State) (u : LineUse) : (s.repairOutcome u).ram = s.ram := by
  cases u <;> simp only [State.repairOutcome]
  case cached => simp

theorem State.Canonical.poisonAt {s : State} (hs : s.Canonical) (x : Nat) (use : LineUse) : (s.poisonAt x use).Canonical := by
  have hline : (s.poisonLine ((s.areaOf x).getD 0) x).Canonical :=
    hs.of_filter (p := fun _ => true) ((State.poisonLine_merge ..).trans (List.filter_eq_self.2 fun _ _ => rfl).symm)
      (State.poisonLine_wf _ _ _ hs.sound.ram)
  exact hline.congr (State.poisonOutcome_merge ..) (State.poisonOutcome_ram ..)

theorem State.Canonical.scrubHeld {s : State} (hs : s.Canonical) (r : ScrubRead) (l : Line) : (s.scrubHeld r l).Canonical := by
  unfold State.scrubHeld
  dsimp only
  have hread : (if s.mem.poisoned.contains l.addr then s
      else if l.dirty && (r.level == 1 || l.dirtyAt s.now) then s.poisonAt l.addr r.use
      else s.modCache fun c => { c with crcfix := c.crcfix + 1 }).Canonical := by
    split
    · exact hs
    · split
      · exact hs.poisonAt _ _
      · exact hs.congr (by simp) (by simp)
  exact hread.congr (by simp) (by simp)

theorem State.Canonical.scrubDram {s : State} (hs : s.Canonical) (r : ScrubRead) : (s.scrubDram r).Canonical := by
  unfold State.scrubDram
  extract_lets x n read hard handled fixed remapped counted
  have hread : read.Canonical := (hs.settle _ _).congr (State.modCache_merge ..) (State.modCache_ram ..)
  have hhandled : handled.Canonical := by
    unfold handled
    split
    · exact hread.congr rfl rfl
    · split
      · exact hread.congr (by simp) (by simp)
      · exact hread.poisonAt _ _
  have hfixed : fixed.Canonical := by
    unfold fixed
    split
    · exact hread
    · exact hhandled.congr (State.fixedNow_merge ..) (State.fixedNow_ram ..)
  have hremapped : remapped.Canonical := by
    unfold remapped
    split
    · exact hfixed.congr (State.remapLine_merge ..) (State.remapLine_ram ..)
    · exact hfixed
  have hcounted : counted.Canonical := hremapped.congr rfl rfl
  split
  · exact hcounted
  · exact hcounted.congr (by simp) (by simp)

/-! ### Resets (11 R307, 16 R415, R419) -/

@[simp] theorem State.wipe_merge (s : State) (cold : Bool) : (s.wipe cold).mem.merge = [] := by
  cases cold <;> rfl

theorem State.failStart_canonical (s : State) (cause : Nat) : (s.failStart cause).Canonical := by
  unfold State.failStart
  exact State.canonical_of_empty (by simp) (by simp [State.wipe_ram])

/-- A command on `s` with the outcome `o` keeps staging canonical. -/
def KeepsCanonical (s : State) (o : Host.Outcome State Fault Refusal) : Prop := ∀ t, o = .next t → s.Canonical → t.Canonical

theorem keepsCanonical_next {s t : State} (h : s.Canonical → t.Canonical) : KeepsCanonical s (.next t) := by
  rintro _ ⟨⟩
  exact h

/-! ### Commands that store, read or scrub -/

theorem keepsCanonical_windowSwitch (p : PortId) (s : State) : KeepsCanonical s (execWindowSwitch p s) := by
  refine keepsCanonical_next fun hs => ?_
  split
  · exact hs
  · have hswitched : ((s.modPort p.val fun x =>
        { x with wcur := x.wpend, switchCnt := x.switchCnt + 1, pend := false, held := [] }).raise (portEvt p.val 9)).Canonical :=
      hs.congr (by simp) (by simp)
    exact (hswitched.each _ fun _ t h => h.decodeBar2 p.val t).each _ fun _ id h => h.copyWindow id

theorem keepsCanonical_scrubLineRead (r : ScrubRead) (s : State) : KeepsCanonical s (execScrubLineRead r s) := by
  refine keepsCanonical_next fun hs => ?_
  split
  · exact hs.scrubDram r
  · split
    · exact hs
    · split
      · split
        · exact hs.scrubHeld r _
        · exact hs
      · split
        · split
          · exact hs.scrubHeld r _
          · exact hs
        · exact hs.congr (by simp) (by simp)

theorem keepsCanonical_mergeEntryAge (ok : Bool) (s : State) : KeepsCanonical s (execMergeEntryAge ok s) := by
  refine keepsCanonical_next fun hs => ?_
  split
  · exact hs
  · split
    · exact hs
    · split
      · exact (hs.congr (t := s.modMem fun m => { m with crcfix := m.crcfix + 1 }) rfl rfl).writeOut _ _
      · exact hs.writeOut _ _

/-! ### Commands that reset the device -/

theorem keepsCanonical_coldRstAssert (ns : Nat) (s : State) : KeepsCanonical s (execColdRstAssert ns s) := by
  unfold execColdRstAssert
  split
  · exact keepsCanonical_next id
  · split
    · exact fun t h => nomatch h
    · exact keepsCanonical_next fun _ => State.canonical_of_empty (by simp) (by simp [State.wipe_ram])

theorem keepsCanonical_coldRstDeassert (st : Straps) (bad lost : List Nat) (s : State) :
    KeepsCanonical s (execColdRstDeassert st bad lost s) := by
  refine keepsCanonical_next fun hs => ?_
  split
  · exact hs
  · split <;> exact State.canonical_of_empty (by simp) (by simp [State.wipe_ram])

theorem keepsCanonical_deviceLevelReset (landed : Tab (Option Nat)) (s : State) :
    KeepsCanonical s (execDeviceLevelReset landed s) := by
  refine keepsCanonical_next fun hs => ?_
  split
  · exact hs
  · split
    · exact hs
    · dsimp only
      split <;> exact State.canonical_of_empty (by simp) (by simp [State.wipe_ram])

theorem keepsCanonical_startImageInvalid (img : FlashImage) (s : State) : KeepsCanonical s (execStartImageInvalid img s) := by
  refine keepsCanonical_next fun hs => ?_
  split
  · exact hs
  · split
    · exact State.failStart_canonical _ _
    · exact hs

theorem keepsCanonical_startTimeout (s : State) : KeepsCanonical s (execStartTimeout s) := by
  refine keepsCanonical_next fun hs => ?_
  split
  · exact State.failStart_canonical _ _
  · exact hs

theorem keepsCanonical_markhorWatchdog (s : State) : KeepsCanonical s (execMarkhorWatchdog s) := by
  refine keepsCanonical_next fun hs => ?_
  split
  · exact hs
  · split
    · exact State.failStart_canonical _ _
    · split
      · exact hs.congr (by simp) (by simp)
      · exact hs

/-! ### Commands that end a hold -/

theorem keepsCanonical_herdFirmwareRestartEnd (h : Fin 18) (s : State) : KeepsCanonical s (execHerdFirmwareRestartEnd h s) := by
  refine keepsCanonical_next fun hs => ?_
  split
  · exact hs
  · exact (hs.congr (by simp) (by simp)).retestAll

theorem keepsCanonical_fwActivate (r : Requester) (s : State) : KeepsCanonical s (execFwActivate r s) := by
  refine keepsCanonical_next fun hs => hs.serveFw _ _ _ fun p => ?_
  dsimp only
  split
  · exact hs
  · split
    · exact hs
    · exact (hs.congr (by simp) (by simp)).goUnit _ _

theorem keepsCanonical_fwCancelActivation (r : Requester) (s : State) : KeepsCanonical s (execFwCancelActivation r s) := by
  refine keepsCanonical_next fun hs => hs.serveFw _ _ _ fun _ => ?_
  split
  · dsimp only
    split
    · exact hs
    · exact hs.actFails _ _
  · exact hs

theorem keepsCanonical_markhorCoreSwitch (s : State) : KeepsCanonical s (execMarkhorCoreSwitch s) := by
  refine keepsCanonical_next fun hs => ?_
  split
  · exact hs
  · split
    · exact hs
    · refine State.Canonical.unitDone ?_ _
      split
      · exact hs
      · exact hs.congr (by simp) (by simp)

theorem keepsCanonical_coreSwitchTimeout (s : State) : KeepsCanonical s (execCoreSwitchTimeout s) := by
  refine keepsCanonical_next fun hs => ?_
  split
  · exact hs
  · dsimp only
    split
    · exact hs
    · exact hs.actFails _ _

theorem keepsCanonical_formatterIdle (h : Fin 18) (digestOk : Bool) (s : State) : KeepsCanonical s (execFormatterIdle h digestOk s) := by
  refine keepsCanonical_next fun hs => ?_
  have hherd (c : Bool) (g : Herd → Herd) : (if c then s.modHerd h.val g else s).Canonical := hs.congr (by simp) (by simp)
  split
  · exact hs
  · split
    · exact hs
    · dsimp only
      split
      · exact (hherd _ _).unitDone _
      · split
        · exact (hs.congr (by simp) (by simp)).actFails _ _
        · exact (hherd _ _).unitDone _

/-! ### Every command, and every step -/

/-- Every command keeps staging canonical. -/
theorem exec_keepsCanonical (c : Instr) (s : State) : KeepsCanonical s (exec c s) := by
  cases c
  case bar2Read | bar2Write => exact keepsCanonical_next fun hs => hs.bar2 _ _
  case windowSwitch => exact keepsCanonical_windowSwitch _ s
  case write | zoneAppend => exact keepsCanonical_next fun hs => (hs.admitWrite _ _).runWaiting
  case dc7Retest => exact keepsCanonical_next fun hs => (hs.retest _).runWaiting
  case scrubLineRead => exact keepsCanonical_scrubLineRead _ s
  case mergeEntryAge => exact keepsCanonical_mergeEntryAge _ s
  case coldRstAssert => exact keepsCanonical_coldRstAssert _ s
  case coldRstDeassert => exact keepsCanonical_coldRstDeassert _ _ _ s
  case startImageInvalid => exact keepsCanonical_startImageInvalid _ s
  case startTimeout => exact keepsCanonical_startTimeout s
  case markhorWatchdog => exact keepsCanonical_markhorWatchdog s
  case deviceLevelReset => exact keepsCanonical_deviceLevelReset _ s
  case herdFirmwareRestartEnd => exact keepsCanonical_herdFirmwareRestartEnd _ s
  case fwActivate => exact keepsCanonical_fwActivate _ s
  case fwCancelActivation => exact keepsCanonical_fwCancelActivation _ s
  case markhorCoreSwitch => exact keepsCanonical_markhorCoreSwitch s
  case coreSwitchTimeout => exact keepsCanonical_coreSwitchTimeout s
  case formatterIdle => exact keepsCanonical_formatterIdle _ _ s
  -- the others store nothing
  all_goals exact fun t h hs => hs.exec_of_not_mayStoreStaging rfl h

/-- A step is a tick, which leaves staging alone, or a command. -/
theorem step_keepsCanonical (s : State) : KeepsCanonical s (step s) := by
  unfold step
  split
  next => exact keepsCanonical_next fun hs => hs.congr (by simp) (by simp)
  next c rest _ => exact fun t h hs => exec_keepsCanonical c { s with pending := rest } t h (hs.congr rfl rfl)

/-- Settles O58: a step is a tick or a command, and every write of the DRAM and of the merge buffer keeps their form (11 R307, R328, R329). -/
theorem aStepKeepsTheStagingDramInOneForm : Obligations.AStepKeepsTheStagingDramInOneForm := by
  intro s t hram hmerge hstep
  exact t.canonical_iff.1 (step_keepsCanonical s t hstep (s.canonical_iff.2 ⟨hram, hmerge⟩))

/-- Settles O59: at reset no byte is listed and no entry is held. -/
theorem resetStagingIsCanonical : Obligations.ResetStagingIsCanonical := by
  obtain ⟨hram, hmerge⟩ := (State.canonical_iff _).1 (State.canonical_of_empty (s := State.reset) rfl rfl)
  exact ⟨hram, hmerge, rfl⟩

end Sys2Proof.Machine

/-! ## O48, O49, O50, O54 and O56: what the locks hold, and what only few commands may write -/

namespace Sys2Proof.Machine

open Sys2Proof

/-! ### What a request or an access can come to -/

/-- A mailbox message serves no request, or the request of its opcode (15 R387). -/
theorem State.serve_induction {P : State → Prop} {s : State} {r : Requester} {op : Nat} {act : Option Nat} {k : List Byte → State}
    (hidle : P s) (hserved : ∀ p, P (k p)) : P (s.serve r op act k) := by
  unfold State.serve
  split
  · exact hidle
  · split
    · exact hserved _
    · exact hidle

/-- A FW_CTRL request is answered with a REASON, or with what its action does (16 R434). -/
theorem State.serveFw_induction {P : State → Prop} {s : State} {r : Requester} {act : Nat} {ok : List Byte → Bool}
    {go : State → List Byte → State × Nat} (hs : P s) (hreply : ∀ u k reason n, P u → P (u.fwReply k reason n))
    (hgo : ∀ p, P (go s p).1) : P (s.serveFw r act ok go) := by
  refine State.serve_induction hs fun p => ?_
  dsimp only
  split
  · exact hreply _ _ _ _ hs
  · split
    · exact hreply _ _ _ _ hs
    · split
      · exact hreply _ _ _ _ hs
      · exact hreply _ _ _ _ (hgo p)

/-- A request to BAR0 is lost on a function that does not exist, refused, or served (04 Table 4.5). -/
theorem State.bar0_induction {P : State → Prop} {s : State} {f : Nat} {posted : Bool} {k : State → State} (hlost : P s)
    (hrefused : ∀ cause, P ((s.touch f).refuseAny f cause posted)) (hserved : P (k (s.touch f))) : P (s.bar0 f posted k) := by
  unfold State.bar0
  split
  · exact hlost
  · dsimp only
    split
    · exact hrefused 9
    · exact hserved

/-- An access is lost, refused, or, if aligned, served (04 R105, 17 R442). -/
theorem State.access_induction {P : State → Prop} {s : State} {f off : Nat} {wide posted : Bool} {k : State → State} (hlost : P s)
    (hrefused : ∀ cause, P ((s.touch f).refuseAny f cause posted)) (hserved : aligned off wide = true → P (k (s.touch f))) :
    P (s.access f off wide posted k) := by
  unfold State.access
  split
  · exact hlost
  · refine State.bar0_induction hlost hrefused ?_
    split
    · exact hrefused 1
    · next halign =>
      split
      · exact hrefused 2
      · exact hserved (by simpa using halign)

theorem State.touch_isSteward (s : State) (f g : Nat) : (s.touch f).isSteward g = s.isSteward g := by
  simp [State.isSteward, State.stewardPort]

/-- A write to a steward-only register is lost, refused, no register of the function's, ignored, or, if the steward's, served (04 R101,
17 R440, R442). -/
theorem State.stewardWrite_induction {P : State → Prop} {s : State} {f : Nat} {k : State → State} (hlost : P s)
    (hrefused : ∀ cause, P ((s.touch f).refuseAny f cause true)) (hvf : P (s.touch f)) (hignored : P ((s.touch f).ignoreWrite f))
    (hserved : s.isSteward f = true → P (k (s.touch f))) : P (s.stewardWrite f k) := by
  unfold State.stewardWrite
  refine State.bar0_induction hlost hrefused ?_
  split
  · exact hvf
  · split
    · next hsteward => exact hserved (s.touch_isSteward f f ▸ hsteward)
    · exact hignored

end Sys2Proof.Machine

/-! ## SAN_POLICY.MODE: one lemma per operation of the block but the write of its register (16 R433) -/

namespace Sys2Proof.Machine

open Sys2Proof

section
variable (s : State)

@[simp] theorem State.ite_sanPolicy (c : Prop) [Decidable c] (s t : State) :
    (if c then s else t).boot.sanPolicy = if c then s.boot.sanPolicy else t.boot.sanPolicy :=
  apply_ite (·.boot.sanPolicy) c s t

@[simp] theorem State.foldl_sanPolicy {α : Type} (g : State → α → State) (hg : ∀ u x, (g u x).boot.sanPolicy = u.boot.sanPolicy)
    (l : List α) : (l.foldl g s).boot.sanPolicy = s.boot.sanPolicy := by
  induction l generalizing s with
  | nil => rfl
  | cons x l ih => rw [List.foldl_cons, ih, hg]

/-! ### Shared operations -/

@[simp] theorem State.each_sanPolicy {α : Type} (l : List α) (g : State → α → State)
    (hg : ∀ u x, (g u x).boot.sanPolicy = u.boot.sanPolicy) : (s.each l g).boot.sanPolicy = s.boot.sanPolicy :=
  s.foldl_sanPolicy g hg l

theorem ite_some_sanPolicy {c : Prop} [Decidable c] {a b : Option State} {v : BitVec 2} (ha : ∀ t, a = some t → t.boot.sanPolicy = v)
    (hb : ∀ t, b = some t → t.boot.sanPolicy = v) : ∀ t, (if c then a else b) = some t → t.boot.sanPolicy = v := by split <;> assumption

theorem foldl_fst_sanPolicy {α β : Type} (g : State × β → α → State × β) (hg : ∀ x a, (g x a).1.boot.sanPolicy = x.1.boot.sanPolicy)
    (l : List α) (x : State × β) : (l.foldl g x).1.boot.sanPolicy = x.1.boot.sanPolicy := by
  induction l generalizing x with
  | nil => rfl
  | cons a l ih => rw [List.foldl_cons, ih, hg]

/-! ### Resets and starts -/

@[simp] theorem Boot.endRun_sanPolicy (b : Boot) (cause : Nat) : (b.endRun cause).sanPolicy = b.sanPolicy := by
  unfold Boot.endRun
  (repeat' split) <;> rfl

@[simp] theorem Boot.push_sanPolicy (b : Boot) (slot cause : Nat) : (b.push slot cause).sanPolicy = b.sanPolicy := rfl

/-! ### Shared operations -/

@[simp] theorem State.modFmt_sanPolicy (a : Nat) (g : Fmt → Fmt) : (s.modFmt a g).boot.sanPolicy = s.boot.sanPolicy := by simp [State.modFmt]
@[simp] theorem State.raiseFns_sanPolicy (fs : List Nat) (b : Nat) : (s.raiseFns fs b).boot.sanPolicy = s.boot.sanPolicy := by simp [State.raiseFns]
@[simp] theorem State.ignoreWrite_sanPolicy (f : Nat) : (s.ignoreWrite f).boot.sanPolicy = s.boot.sanPolicy := by simp [State.ignoreWrite]

@[simp] theorem State.aerLog_sanPolicy (f b : Nat) (adv : Bool) (hdr : Option Nat) :
    (s.aerLog f b adv hdr).boot.sanPolicy = s.boot.sanPolicy := by simp [State.aerLog]

@[simp] theorem State.refuseReq_sanPolicy (f cause : Nat) (posted : Bool) (hdr : Nat) :
    (s.refuseReq f cause posted hdr).boot.sanPolicy = s.boot.sanPolicy := by
  unfold State.refuseReq
  dsimp only
  split <;> simp

@[simp] theorem State.refuseAny_sanPolicy (f cause : Nat) (posted : Bool) :
    (s.refuseAny f cause posted).boot.sanPolicy = s.boot.sanPolicy := by simp [State.refuseAny]

@[simp] theorem State.bar0_sanPolicy (f : Nat) (posted : Bool) (k : State → State) (hk : ∀ u, (k u).boot.sanPolicy = u.boot.sanPolicy) :
    (s.bar0 f posted k).boot.sanPolicy = s.boot.sanPolicy :=
  State.bar0_induction (P := fun t => t.boot.sanPolicy = s.boot.sanPolicy) rfl (by simp) (hk _)

@[simp] theorem State.stewardWrite_sanPolicy (f : Nat) (k : State → State) (hk : ∀ u, (k u).boot.sanPolicy = u.boot.sanPolicy) :
    (s.stewardWrite f k).boot.sanPolicy = s.boot.sanPolicy :=
  State.stewardWrite_induction (P := fun t => t.boot.sanPolicy = s.boot.sanPolicy) rfl (by simp) rfl (by simp) fun _ => hk _

@[simp] theorem State.charge_sanPolicy (f n : Nat) (g : Acc → Acc) : (s.charge f n g).boot.sanPolicy = s.boot.sanPolicy := by simp [State.charge]
@[simp] theorem State.chargePoison_sanPolicy (n : Nat) : (s.chargePoison n).boot.sanPolicy = s.boot.sanPolicy := by simp [State.chargePoison]
@[simp] theorem State.mapFns_sanPolicy (g : Nat → FnSt → FnSt) : (s.mapFns g).boot.sanPolicy = s.boot.sanPolicy := by simp [State.mapFns]
@[simp] theorem State.mapCmds_sanPolicy (g : Cmd → Cmd) : (s.mapCmds g).boot.sanPolicy = s.boot.sanPolicy := by simp [State.mapCmds]
@[simp] theorem State.modStage_sanPolicy (g : Staging → Staging) : (s.modStage g).boot.sanPolicy = s.boot.sanPolicy := by simp [State.modStage]
@[simp] theorem State.mapR_sanPolicy (g : RSlot → RSlot) : (s.mapR g).boot.sanPolicy = s.boot.sanPolicy := by simp [State.mapR]
@[simp] theorem State.mapW_sanPolicy (g : WSlot → WSlot) : (s.mapW g).boot.sanPolicy = s.boot.sanPolicy := by simp [State.mapW]
@[simp] theorem State.mapRec_sanPolicy (g : RecEntry → RecEntry) : (s.mapRec g).boot.sanPolicy = s.boot.sanPolicy := by simp [State.mapRec]
@[simp] theorem State.mapFmt_sanPolicy (g : FmtOp → FmtOp) : (s.mapFmt g).boot.sanPolicy = s.boot.sanPolicy := by simp [State.mapFmt]
@[simp] theorem State.mapSan_sanPolicy (g : SanOp → SanOp) : (s.mapSan g).boot.sanPolicy = s.boot.sanPolicy := by simp [State.mapSan]
@[simp] theorem State.modMem_sanPolicy (g : MemSt → MemSt) : (s.modMem g).boot.sanPolicy = s.boot.sanPolicy := by simp [State.modMem]
@[simp] theorem State.modPool_sanPolicy (g : Pool → Pool) : (s.modPool g).boot.sanPolicy = s.boot.sanPolicy := by simp [State.modPool]

@[simp] theorem State.modBoot_sanPolicy (g : Boot → Boot) (hg : ∀ x, (g x).sanPolicy = x.sanPolicy) :
    (s.modBoot g).boot.sanPolicy = s.boot.sanPolicy := hg _

@[simp] theorem State.modCfg_sanPolicy (g : Cfg → Cfg) : (s.modCfg g).boot.sanPolicy = s.boot.sanPolicy := by simp [State.modCfg]
@[simp] theorem State.modGlb_sanPolicy (g : Glb → Glb) : (s.modGlb g).boot.sanPolicy = s.boot.sanPolicy := by simp [State.modGlb]

/-! ### Plans -/

@[simp] theorem State.worn_sanPolicy (a : Nat) (gs : List Nat) : (s.worn a gs).boot.sanPolicy = s.boot.sanPolicy := by simp [State.worn]
@[simp] theorem State.setPlan_sanPolicy (a : Nat) (q : List PlanOp) : (s.setPlan a q).boot.sanPolicy = s.boot.sanPolicy := by simp [State.setPlan]
@[simp] theorem State.unplan_sanPolicy (a id : Nat) : (s.unplan a id).boot.sanPolicy = s.boot.sanPolicy := by simp [State.unplan]
@[simp] theorem State.replan_sanPolicy (a : Nat) : (s.replan a).boot.sanPolicy = s.boot.sanPolicy := by simp [State.replan]

/-! ### Copies of sectors -/

@[simp] theorem State.replaceRead_sanPolicy : s.replaceRead.boot.sanPolicy = s.boot.sanPolicy := by
  unfold State.replaceRead
  (repeat' split) <;> simp

@[simp] theorem State.pin_sanPolicy (id : Nat) (x : Sector) : (s.pin id x).boot.sanPolicy = s.boot.sanPolicy := by
  -- stated of a variable, so that the kernel compares no fields of `replaceRead`
  have hstage (u : State) (g : Staging) : ({ u with stage := g } : State).boot.sanPolicy = u.boot.sanPolicy := rfl
  unfold State.pin
  dsimp only
  split
  · exact hstage _ _
  · exact (hstage _ _).trans s.replaceRead_sanPolicy

@[simp] theorem State.rewritten_sanPolicy (n lba : Nat) : (s.rewritten n lba).boot.sanPolicy = s.boot.sanPolicy := by simp [State.rewritten]

@[simp] theorem State.writeCommitted_sanPolicy (n lba : Nat) :
    (s.writeCommitted n lba).boot.sanPolicy = s.boot.sanPolicy := by simp [State.writeCommitted]

@[simp] theorem State.pruneStaged_sanPolicy : s.pruneStaged.boot.sanPolicy = s.boot.sanPolicy := by simp [State.pruneStaged]

/-! ### Routines and assist use -/

@[simp] theorem State.payAssist_sanPolicy (a : Nat) (q : FmtCmd) (e : Nat) :
    (s.payAssist a q e).boot.sanPolicy = s.boot.sanPolicy := by simp [State.payAssist]

@[simp] theorem State.sendAssist_sanPolicy (a h : Nat) (lvl : AssistLevel) :
    (s.sendAssist a h lvl).boot.sanPolicy = s.boot.sanPolicy := by simp [State.sendAssist]

@[simp] theorem State.openGate_sanPolicy (a : Nat) (q : FmtCmd) : (s.openGate a q).boot.sanPolicy = s.boot.sanPolicy := by simp [State.openGate]

@[simp] theorem State.closeGate_sanPolicy (a : Nat) (lvl : AssistLevel) : (s.closeGate a lvl).boot.sanPolicy = s.boot.sanPolicy := by
  unfold State.closeGate
  split <;> simp

@[simp] theorem State.crossWedge_sanPolicy (a : Nat) : (s.crossWedge a).boot.sanPolicy = s.boot.sanPolicy := by
  unfold State.crossWedge
  split <;> simp

@[simp] theorem State.cutQuantum_sanPolicy (a : Nat) (r : Routine) :
    (s.cutQuantum a r).boot.sanPolicy = s.boot.sanPolicy := by simp [State.cutQuantum]

@[simp] theorem State.wantSqueeze_sanPolicy (a : Nat) (r : Routine) (c : Option FmtCmd) :
    (s.wantSqueeze a r c).boot.sanPolicy = s.boot.sanPolicy := by
  unfold State.wantSqueeze
  split <;> simp

@[simp] theorem State.lateInhibit_sanPolicy (a : Nat) (cause : Option Nat) (toward : Bool) :
    (s.lateInhibit a cause toward).boot.sanPolicy = s.boot.sanPolicy := by
  unfold State.lateInhibit
  dsimp only
  split <;> simp

@[simp] theorem State.abandonWrite_sanPolicy (a : Nat) (cause : Option Nat) (toward : Bool) :
    (s.abandonWrite a cause toward).boot.sanPolicy = s.boot.sanPolicy := by
  unfold State.abandonWrite
  split <;> simp

@[simp] theorem State.putBack_sanPolicy (a : Nat) : (s.putBack a).boot.sanPolicy = s.boot.sanPolicy := by
  unfold State.putBack
  (repeat' split) <;> simp

/-! ### Completions -/

@[simp] theorem State.postEntry_sanPolicy (f q : Nat) (c : Cpl) : (s.postEntry f q c).boot.sanPolicy = s.boot.sanPolicy := by simp [State.postEntry]
@[simp] theorem State.releaseSlot_sanPolicy (f q : Nat) : (s.releaseSlot f q).boot.sanPolicy = s.boot.sanPolicy := by simp [State.releaseSlot]

@[simp] theorem State.tallyEnd_sanPolicy (c : Cmd) (status : Nat) :
    (s.tallyEnd c status).boot.sanPolicy = s.boot.sanPolicy := by simp [State.tallyEnd]

@[simp] theorem State.dropCmd_sanPolicy (id : Nat) : (s.dropCmd id).boot.sanPolicy = s.boot.sanPolicy := by simp [State.dropCmd]
@[simp] theorem State.ackStaged_sanPolicy (id : Nat) : (s.ackStaged id).boot.sanPolicy = s.boot.sanPolicy := by simp [State.ackStaged]

@[simp] theorem State.postCmd_sanPolicy (c : Cmd) (status result : Nat) :
    (s.postCmd c status result).boot.sanPolicy = s.boot.sanPolicy := by simp [State.postCmd]

@[simp] theorem State.queueRecovery_sanPolicy (e : RecEntry) : (s.queueRecovery e).boot.sanPolicy = s.boot.sanPolicy := by simp [State.queueRecovery]
@[simp] theorem State.dropAttempts_sanPolicy (id : Nat) : (s.dropAttempts id).boot.sanPolicy = s.boot.sanPolicy := by simp [State.dropAttempts]
@[simp] theorem State.release_sanPolicy (c : Cmd) (ok : Bool) : (s.release c ok).boot.sanPolicy = s.boot.sanPolicy := by simp [State.release]

@[simp] theorem State.postOrHold_sanPolicy (c : Cmd) (status result : Nat) :
    (s.postOrHold c status result).boot.sanPolicy = s.boot.sanPolicy := by simp [State.postOrHold]

@[simp] theorem State.recover_sanPolicy (c : Cmd) : (s.recover c).1.boot.sanPolicy = s.boot.sanPolicy := by
  unfold State.recover
  dsimp only
  split <;> simp

@[simp] theorem State.endCmd_sanPolicy (id status result : Nat) : (s.endCmd id status result).boot.sanPolicy = s.boot.sanPolicy := by
  unfold State.endCmd
  (repeat' split) <;> simp

@[simp] theorem State.postEarly_sanPolicy : s.postEarly.boot.sanPolicy = s.boot.sanPolicy := by simp [State.postEarly]
@[simp] theorem State.removedFirst_sanPolicy (b : Nat) : (s.removedFirst b).boot.sanPolicy = s.boot.sanPolicy := by simp [State.removedFirst]

@[simp] theorem State.fixStatus_sanPolicy (ids : List Nat) (status : Nat) :
    (s.fixStatus ids status).boot.sanPolicy = s.boot.sanPolicy := by simp [State.fixStatus]

@[simp] theorem State.restores_sanPolicy (id w : Nat) : (s.restores id w).boot.sanPolicy = s.boot.sanPolicy := by simp [State.restores]
@[simp] theorem State.failZoneWrite_sanPolicy (c : Cmd) : (s.failZoneWrite c).boot.sanPolicy = s.boot.sanPolicy := by simp [State.failZoneWrite]
@[simp] theorem State.failZoneAction_sanPolicy (c : Cmd) : (s.failZoneAction c).boot.sanPolicy = s.boot.sanPolicy := by simp [State.failZoneAction]
@[simp] theorem State.undoZone_sanPolicy (c : Cmd) : (s.undoZone c).boot.sanPolicy = s.boot.sanPolicy := by simp [State.undoZone]
@[simp] theorem State.cutOffs_sanPolicy (c : Cmd) : (s.cutOffs c).boot.sanPolicy = s.boot.sanPolicy := by simp [State.cutOffs]

@[simp] theorem State.endAll_sanPolicy (l : List (Nat × Nat × Nat)) : (s.endAll l).boot.sanPolicy = s.boot.sanPolicy := by
  simp only [State.endAll, State.each_sanPolicy, State.undoZone_sanPolicy, State.endCmd_sanPolicy, implies_true]
  refine State.each_sanPolicy _ _ _ fun u r => ?_
  (repeat' split) <;> simp

@[simp] theorem State.commitStaged_sanPolicy (c : Cmd) : (s.commitStaged c).boot.sanPolicy = s.boot.sanPolicy := by simp [State.commitStaged]

@[simp] theorem State.drain_sanPolicy : s.drain.boot.sanPolicy = s.boot.sanPolicy := by
  refine State.each_sanPolicy _ _ _ fun u i => ?_
  (repeat' split) <;> simp

@[simp] theorem State.finish_sanPolicy (id status result : Nat) :
    (s.finish id status result).boot.sanPolicy = s.boot.sanPolicy := by simp [State.finish]

@[simp] theorem State.finishAll_sanPolicy (ids : List Nat) (status : Nat) :
    (s.finishAll ids status).boot.sanPolicy = s.boot.sanPolicy := by simp [State.finishAll]

@[simp] theorem State.cutOff_sanPolicy (id : Nat) : (s.cutOff id).boot.sanPolicy = s.boot.sanPolicy := by
  unfold State.cutOff
  split <;> simp

@[simp] theorem State.capacityLoss_sanPolicy (a : Nat) : (s.capacityLoss a).boot.sanPolicy = s.boot.sanPolicy := by simp [State.capacityLoss]

@[simp] theorem State.serviceLost_sanPolicy (a : Nat) (back : Option Nat) : (s.serviceLost a back).boot.sanPolicy = s.boot.sanPolicy := by
  unfold State.serviceLost
  split <;> simp

/-! ### Doorbells and submission entries -/

@[simp] theorem State.ringSq_sanPolicy (f q i : Nat) : (s.ringSq f q i).boot.sanPolicy = s.boot.sanPolicy := by
  unfold State.ringSq
  split <;> simp

@[simp] theorem State.ringCq_sanPolicy (f q i : Nat) : (s.ringCq f q i).boot.sanPolicy = s.boot.sanPolicy := by
  unfold State.ringCq
  split <;> simp

@[simp] theorem State.refreshNs_sanPolicy : s.refreshNs.boot.sanPolicy = s.boot.sanPolicy := by simp [State.refreshNs]

@[simp] theorem State.failCheck_sanPolicy (f q cq sqhd : Nat) (tag : Word) (status result : Nat) :
    (s.failCheck f q cq sqhd tag status result).boot.sanPolicy = s.boot.sanPolicy := by simp [State.failCheck]

@[simp] theorem State.enterLedger_sanPolicy (f q cq sqhd : Nat) (e : Entry) :
    (s.enterLedger f q cq sqhd e).boot.sanPolicy = s.boot.sanPolicy := by simp [State.enterLedger]

@[simp] theorem State.runEntry_sanPolicy (w : CheckWait) : (s.runEntry w).boot.sanPolicy = s.boot.sanPolicy := by
  unfold State.runEntry
  dsimp only
  split <;> simp

@[simp] theorem State.checkEntry_sanPolicy (w : CheckWait) (before : List CheckWait) :
    (s.checkEntry w before).boot.sanPolicy = s.boot.sanPolicy := by simp [State.checkEntry]

@[simp] theorem State.runWaiting_sanPolicy : s.runWaiting.boot.sanPolicy = s.boot.sanPolicy := by simp [State.runWaiting]

/-! ### Slack and segments -/

@[simp] theorem State.recordSegs_sanPolicy (a : Nat) : (s.recordSegs a).boot.sanPolicy = s.boot.sanPolicy := by simp [State.recordSegs]
@[simp] theorem State.landCheck_sanPolicy (a : Nat) : (s.landCheck a).boot.sanPolicy = s.boot.sanPolicy := by simp [State.landCheck]

/-! ### Admission tests -/

@[simp] theorem State.startExit_sanPolicy (b g pre mile : Nat) (tok : Bool) (kind : Nat) :
    (s.startExit b g pre mile tok kind).boot.sanPolicy = s.boot.sanPolicy := by simp [State.startExit]

@[simp] theorem State.freed_sanPolicy (a : Nat) : (s.freed a).boot.sanPolicy = s.boot.sanPolicy := by simp [State.freed]

@[simp] theorem State.slotLimited_sanPolicy (a : Nat) (l : Bool) :
    (s.slotLimited a l).boot.sanPolicy = s.boot.sanPolicy := by simp [State.slotLimited]

@[simp] theorem State.holdCmd_sanPolicy (c : Cmd) : (s.holdCmd c).boot.sanPolicy = s.boot.sanPolicy := by simp [State.holdCmd]

@[simp] theorem State.refuse_sanPolicy (c : Cmd) (act : Option Nat) (power : Bool) : (s.refuse c act power).boot.sanPolicy = s.boot.sanPolicy := by
  unfold State.refuse
  (repeat' split) <;> simp

@[simp] theorem State.admitCmd_sanPolicy (c : Cmd) : (s.admitCmd c).boot.sanPolicy = s.boot.sanPolicy := by simp [State.admitCmd]

/-! ### Dispatch -/

@[simp] theorem State.aim_sanPolicy (a : Nat) (o : PlanOp) : (s.aim a o).boot.sanPolicy = s.boot.sanPolicy := by simp [State.aim]
@[simp] theorem State.setRate_sanPolicy (a : Nat) (o : PlanOp) : (s.setRate a o).boot.sanPolicy = s.boot.sanPolicy := by simp [State.setRate]
@[simp] theorem State.setHeater_sanPolicy (a : Nat) (o : PlanOp) : (s.setHeater a o).boot.sanPolicy = s.boot.sanPolicy := by simp [State.setHeater]

@[simp] theorem State.beginOp_sanPolicy (a : Nat) (r : PlanOp) (rest : List PlanOp) :
    (s.beginOp a r rest).boot.sanPolicy = s.boot.sanPolicy := by simp [State.beginOp]

@[simp] theorem State.startOp_sanPolicy (a : Nat) (o : PlanOp) (trial : List PlanOp) : (s.startOp a o trial).boot.sanPolicy = s.boot.sanPolicy := by
  unfold State.startOp
  split <;> simp

@[simp] theorem State.replanBay_sanPolicy (b : Nat) : (s.replanBay b).boot.sanPolicy = s.boot.sanPolicy := by simp [State.replanBay]
@[simp] theorem State.tryRaise_sanPolicy (b : Nat) : (s.tryRaise b).boot.sanPolicy = s.boot.sanPolicy := by simp [State.tryRaise]
@[simp] theorem State.dropPauses_sanPolicy (b : Nat) : (s.dropPauses b).boot.sanPolicy = s.boot.sanPolicy := by simp [State.dropPauses]
@[simp] theorem State.longerPause_sanPolicy (b g : Nat) : (s.longerPause b g).boot.sanPolicy = s.boot.sanPolicy := by simp [State.longerPause]
@[simp] theorem State.lowerAnew_sanPolicy (b g : Nat) : (s.lowerAnew b g).boot.sanPolicy = s.boot.sanPolicy := by simp [State.lowerAnew]
@[simp] theorem State.planLower_sanPolicy (b g : Nat) : (s.planLower b g).boot.sanPolicy = s.boot.sanPolicy := by simp [State.planLower]

@[simp] theorem State.tryLower_sanPolicy (b : Nat) : (s.tryLower b).boot.sanPolicy = s.boot.sanPolicy := by
  unfold State.tryLower
  dsimp only
  split <;> simp

@[simp] theorem State.yieldQuantum_sanPolicy (a : Nat) : (s.yieldQuantum a).boot.sanPolicy = s.boot.sanPolicy := by
  unfold State.yieldQuantum
  split <;> simp

@[simp] theorem State.joinIn_sanPolicy (a : Nat) : (s.joinIn a).boot.sanPolicy = s.boot.sanPolicy := by simp [State.joinIn]

@[simp] theorem State.dispatch_sanPolicy (a : Nat) : (s.dispatch a).boot.sanPolicy = s.boot.sanPolicy := by
  unfold State.dispatch
  dsimp only
  (repeat' split) <;> simp

@[simp] theorem State.dispatchAll_sanPolicy (as : List Nat) : (s.dispatchAll as).boot.sanPolicy = s.boot.sanPolicy := by simp [State.dispatchAll]

/-! ### Memory and poison -/

@[simp] theorem State.addPoison_sanPolicy (e : PoisonEnt) : (s.addPoison e).boot.sanPolicy = s.boot.sanPolicy := by
  unfold State.addPoison
  dsimp only
  (repeat' split) <;> simp

@[simp] theorem State.poisonLine_sanPolicy (n x : Nat) : (s.poisonLine n x).boot.sanPolicy = s.boot.sanPolicy := by simp [State.poisonLine]
@[simp] theorem State.clearLine_sanPolicy (x : Nat) : (s.clearLine x).boot.sanPolicy = s.boot.sanPolicy := by simp [State.clearLine]
@[simp] theorem State.putLine_sanPolicy (x : Nat) (bs : List Byte) : (s.putLine x bs).boot.sanPolicy = s.boot.sanPolicy := by simp [State.putLine]
@[simp] theorem State.writeOut_sanPolicy (e : MergeEnt) (ok : Bool) : (s.writeOut e ok).boot.sanPolicy = s.boot.sanPolicy := by simp [State.writeOut]
@[simp] theorem State.settle_sanPolicy (k n : Nat) : (s.settle k n).boot.sanPolicy = s.boot.sanPolicy := by simp [State.settle]

@[simp] theorem State.mergeWrite_sanPolicy (k : Nat) (bs : List Byte) : (s.mergeWrite k bs).boot.sanPolicy = s.boot.sanPolicy := by
  unfold State.mergeWrite
  dsimp only
  (repeat' split) <;> simp

@[simp] theorem State.missOn_sanPolicy (ch n : Nat) : (s.missOn ch n).boot.sanPolicy = s.boot.sanPolicy := by simp [State.missOn]

/-! ### Data of commands -/

@[simp] theorem State.writeBuf_sanPolicy (c : Cmd) (off : Nat) (d : List Byte) : (s.writeBuf c off d).boot.sanPolicy = s.boot.sanPolicy :=
  foldl_fst_sanPolicy _ (fun x a => by simp) _ _

@[simp] theorem State.askHost_sanPolicy (c : Cmd) (list : Bool) (addr len : Nat) :
    (s.askHost c list addr len).boot.sanPolicy = s.boot.sanPolicy := by simp [State.askHost]

@[simp] theorem State.openBuf_sanPolicy (id : Nat) : (s.openBuf id).boot.sanPolicy = s.boot.sanPolicy := by
  unfold State.openBuf
  split <;> simp

@[simp] theorem State.readyNow_sanPolicy (c : Cmd) : (s.readyNow c).boot.sanPolicy = s.boot.sanPolicy := by
  refine State.foldl_sanPolicy _ _ (fun u l => ?_) _
  (repeat' split) <;> simp

@[simp] theorem State.readDone_sanPolicy (id : Nat) : (s.readDone id).boot.sanPolicy = s.boot.sanPolicy := by
  unfold State.readDone
  split <;> simp

@[simp] theorem State.deliver_sanPolicy (c : Cmd) (lba : Nat) (x : Sector) (sends : Bool) :
    (s.deliver c lba x sends).boot.sanPolicy = s.boot.sanPolicy := by simp [State.deliver]

@[simp] theorem State.freeSlot_sanPolicy (order : Nat) : (s.freeSlot order).boot.sanPolicy = s.boot.sanPolicy := by simp [State.freeSlot]
@[simp] theorem State.freeLanded_sanPolicy : s.freeLanded.boot.sanPolicy = s.boot.sanPolicy := by simp [State.freeLanded]
@[simp] theorem State.staleRecs_sanPolicy (n lba len : Nat) : (s.staleRecs n lba len).boot.sanPolicy = s.boot.sanPolicy := by simp [State.staleRecs]

@[simp] theorem State.dropCached_sanPolicy (n lba len : Nat) :
    (s.dropCached n lba len).boot.sanPolicy = s.boot.sanPolicy := by simp [State.dropCached]

@[simp] theorem State.stageWrite_sanPolicy (c : Cmd) (d : List Byte) :
    (s.stageWrite c d).boot.sanPolicy = s.boot.sanPolicy := by simp [State.stageWrite]

@[simp] theorem State.persisted_sanPolicy (x : Sector) (src : Nat) :
    (s.persisted x src).boot.sanPolicy = s.boot.sanPolicy := by simp [State.persisted]

@[simp] theorem State.commitFinal_sanPolicy (x : Sector) (src : Nat) :
    (s.commitFinal x src).boot.sanPolicy = s.boot.sanPolicy := by simp [State.commitFinal]

@[simp] theorem State.recordZone_sanPolicy (n lba : Nat) : (s.recordZone n lba).boot.sanPolicy = s.boot.sanPolicy := by simp [State.recordZone]

@[simp] theorem State.changeZone_sanPolicy (n lba : Nat) (g : Zone → Zone) :
    (s.changeZone n lba g).boot.sanPolicy = s.boot.sanPolicy := by simp [State.changeZone]

@[simp] theorem State.advanceCom_sanPolicy (n lba : Nat) : (s.advanceCom n lba).boot.sanPolicy = s.boot.sanPolicy := by simp [State.advanceCom]

@[simp] theorem State.putRecords_sanPolicy (a : Nat) (kinds : List Nat) :
    (s.putRecords a kinds).boot.sanPolicy = s.boot.sanPolicy := by simp [State.putRecords]

@[simp] theorem State.flushJournal_sanPolicy (a : Nat) : (s.flushJournal a).boot.sanPolicy = s.boot.sanPolicy := by simp [State.flushJournal]

@[simp] theorem State.landReserve_sanPolicy (a id : Nat) (r : List Nat × Nat) :
    (s.landReserve a id r).boot.sanPolicy = s.boot.sanPolicy := by simp [State.landReserve]

/-! ### Formats and sanitizes -/

@[simp] theorem State.setMedia_sanPolicy (b v : Nat) : (s.setMedia b v).boot.sanPolicy = s.boot.sanPolicy := by simp [State.setMedia]
@[simp] theorem State.clearNs_sanPolicy (n : Nat) : (s.clearNs n).boot.sanPolicy = s.boot.sanPolicy := by simp [State.clearNs]
@[simp] theorem State.actFormatted_sanPolicy (a pct : Nat) : (s.actFormatted a pct).boot.sanPolicy = s.boot.sanPolicy := by simp [State.actFormatted]

@[simp] theorem State.fmtCheck_sanPolicy (id : Nat) : (s.fmtCheck id).boot.sanPolicy = s.boot.sanPolicy := by
  unfold State.fmtCheck
  split <;> simp

@[simp] theorem State.fmtUnit_sanPolicy (a id : Nat) : (s.fmtUnit a id).boot.sanPolicy = s.boot.sanPolicy := by simp [State.fmtUnit]
@[simp] theorem State.fmtCert_sanPolicy (a id k : Nat) : (s.fmtCert a id k).boot.sanPolicy = s.boot.sanPolicy := by simp [State.fmtCert]
@[simp] theorem State.purgeNs_sanPolicy (n : Nat) : (s.purgeNs n).boot.sanPolicy = s.boot.sanPolicy := by simp [State.purgeNs]
@[simp] theorem State.sanTo_sanPolicy (id st : Nat) : (s.sanTo id st).boot.sanPolicy = s.boot.sanPolicy := by simp [State.sanTo]

@[simp] theorem State.sanTick_sanPolicy (id : Nat) : (s.sanTick id).boot.sanPolicy = s.boot.sanPolicy := by
  unfold State.sanTick
  split <;> simp

@[simp] theorem State.sanUnit_sanPolicy (a id : Nat) : (s.sanUnit a id).boot.sanPolicy = s.boot.sanPolicy := by simp [State.sanUnit]
@[simp] theorem State.queueSan_sanPolicy (o : SanOp) : (s.queueSan o).boot.sanPolicy = s.boot.sanPolicy := by simp [State.queueSan]

@[simp] theorem State.eraseKey_sanPolicy (slot : Nat) (target : BitVec 32) :
    (s.eraseKey slot target).boot.sanPolicy = s.boot.sanPolicy := by simp [State.eraseKey]

@[simp] theorem State.runCrypto_sanPolicy (o : SanOp) : (s.runCrypto o).boot.sanPolicy = s.boot.sanPolicy := by simp [State.runCrypto]
@[simp] theorem State.sanRejoin_sanPolicy (b : Nat) : (s.sanRejoin b).boot.sanPolicy = s.boot.sanPolicy := by simp [State.sanRejoin]

theorem foldl_opt_sanPolicy {α : Type} (g : Option State × Bool → α → Option State × Bool) (v : BitVec 2)
    (hg : ∀ x a, (∀ u, x.1 = some u → u.boot.sanPolicy = v) → ∀ u, (g x a).1 = some u → u.boot.sanPolicy = v) (l : List α)
    (x : Option State × Bool) (hx : ∀ u, x.1 = some u → u.boot.sanPolicy = v) :
    ∀ u, (l.foldl g x).1 = some u → u.boot.sanPolicy = v := by
  induction l generalizing x with
  | nil => exact hx
  | cons a l ih => exact ih _ (hg x a hx)

/-! ### Admission tests -/

theorem State.tryPart_sanPolicy (c : Cmd) (r : Nat → Nat) (a : Nat) (n : PlanOp) (free : Bool) :
    ∀ t, (s.tryPart c r a n free).1 = some t → t.boot.sanPolicy = s.boot.sanPolicy := by
  unfold State.tryPart
  extract_lets b u ceil q
  have hu : u.boot.sanPolicy = s.boot.sanPolicy := by simp [u]
  split
  · simp
  · split
    · refine foldl_opt_sanPolicy _ _ (fun acc g hacc => ?_) _ _ (by simp)
      dsimp only
      split
      · exact hacc
      · split
        · simp
        · split <;> simp [hu]
    · simp [hu]

theorem State.tryParts_sanPolicy (c : Cmd) (u : Nat → Nat) (ops : List (Nat × PlanOp)) (keep : State) :
    (∀ t, (s.tryParts c u ops keep).1 = .pass t → t.boot.sanPolicy = s.boot.sanPolicy) ∧
      (s.tryParts c u ops keep).2.boot.sanPolicy = keep.boot.sanPolicy := by
  induction ops generalizing s keep with
  | nil => exact ⟨fun t h => by (cases h; rfl), rfl⟩
  | cons x ops ih =>
    unfold State.tryParts
    dsimp only
    split
    · next t ht =>
      have hpart := s.tryPart_sanPolicy c u x.1 x.2 false t ht
      obtain ⟨hpass, hkeep⟩ := ih (t.slotLimited x.1 _) (keep.slotLimited x.1 _)
      exact ⟨fun t h => by rw [hpass t h, State.slotLimited_sanPolicy, hpart], by rw [hkeep, State.slotLimited_sanPolicy]⟩
    · exact ⟨fun t h => by (cases h), State.slotLimited_sanPolicy ..⟩

/-! ### Commands -/

@[simp] theorem State.admitOn_sanPolicy (c : Cmd) (bytes : Nat) (ops : List (Nat × PlanOp)) (k : State → State)
    (hk : ∀ u, (k u).boot.sanPolicy = u.boot.sanPolicy) : (s.admitOn c bytes ops k).boot.sanPolicy = s.boot.sanPolicy := by
  obtain ⟨hpass, hkeep⟩ := s.tryParts_sanPolicy c (s.epochFor (ops.map (·.1))).1.reserve ops s
  unfold State.admitOn
  split
  · simp
  · split
    · next hfail =>
      rw [hfail] at hkeep
      simpa using hkeep
    · next hok => simp [hk, hpass _ (congrArg Prod.fst hok)]

@[simp] theorem State.startRead_sanPolicy (c : Cmd) (ps : List Part) :
    (s.startRead c ps).boot.sanPolicy = s.boot.sanPolicy := by simp [State.startRead]

@[simp] theorem State.testRead_sanPolicy (c : Cmd) (ps : List Part) : (s.testRead c ps).boot.sanPolicy = s.boot.sanPolicy := by simp [State.testRead]

@[simp] theorem State.admitRead_sanPolicy (id : Nat) : (s.admitRead id).boot.sanPolicy = s.boot.sanPolicy := by
  unfold State.admitRead
  split <;> simp

@[simp] theorem State.implicitClose_sanPolicy (a : Nat) : (s.implicitClose a).boot.sanPolicy = s.boot.sanPolicy := by
  unfold State.implicitClose
  dsimp only
  (repeat' split) <;> simp

@[simp] theorem State.zoneAdmit_sanPolicy (c : Cmd) : (s.zoneAdmit c).boot.sanPolicy = s.boot.sanPolicy := by simp [State.zoneAdmit]
@[simp] theorem State.admitWriteCmd_sanPolicy (c : Cmd) : (s.admitWriteCmd c).boot.sanPolicy = s.boot.sanPolicy := by simp [State.admitWriteCmd]
@[simp] theorem State.writeDone_sanPolicy (c : Cmd) : (s.writeDone c).boot.sanPolicy = s.boot.sanPolicy := by simp [State.writeDone]

@[simp] theorem State.writeFetched_sanPolicy (id : Nat) (d : List Byte) : (s.writeFetched id d).boot.sanPolicy = s.boot.sanPolicy := by
  unfold State.writeFetched
  split <;> simp

@[simp] theorem State.copyWindow_sanPolicy (id : Nat) : (s.copyWindow id).boot.sanPolicy = s.boot.sanPolicy := by
  unfold State.copyWindow
  split <;> simp

@[simp] theorem State.admitStaged_sanPolicy (c : Cmd) : (s.admitStaged c).boot.sanPolicy = s.boot.sanPolicy := by simp [State.admitStaged]
@[simp] theorem State.admitLandedConv_sanPolicy (c : Cmd) : (s.admitLandedConv c).boot.sanPolicy = s.boot.sanPolicy := by simp [State.admitLandedConv]

@[simp] theorem State.admitLandedZone_sanPolicy (c : Cmd) : (s.admitLandedZone c).boot.sanPolicy = s.boot.sanPolicy := by
  unfold State.admitLandedZone
  dsimp only
  (repeat' split) <;> simp

@[simp] theorem State.testStaging_sanPolicy (c : Cmd) : (s.testStaging c).boot.sanPolicy = s.boot.sanPolicy := by simp [State.testStaging]

@[simp] theorem State.testWrite_sanPolicy (op : Nat) (c : Cmd) : (s.testWrite op c).boot.sanPolicy = s.boot.sanPolicy := by
  unfold State.testWrite
  (repeat' split) <;> simp

@[simp] theorem State.admitWrite_sanPolicy (id op : Nat) : (s.admitWrite id op).boot.sanPolicy = s.boot.sanPolicy := by
  unfold State.admitWrite
  split <;> simp

@[simp] theorem State.admitZone_sanPolicy (id act : Nat) (k : Cmd → State → State) (hk :
    ∀ u v, (k u v).boot.sanPolicy = v.boot.sanPolicy) : (s.admitZone id act k).boot.sanPolicy = s.boot.sanPolicy := by
  unfold State.admitZone
  dsimp only
  (repeat' split) <;> simp [hk]

@[simp] theorem State.noteOpenCond_sanPolicy (c : Cmd) (act : Nat) :
    (s.noteOpenCond c act).boot.sanPolicy = s.boot.sanPolicy := by simp [State.noteOpenCond]

@[simp] theorem State.admitJournal_sanPolicy (c : Cmd) (st : ZState) (wp : Nat) :
    (s.admitJournal c st wp).boot.sanPolicy = s.boot.sanPolicy := by simp [State.admitJournal]

@[simp] theorem State.pushReport_sanPolicy (id : Nat) : (s.pushReport id).boot.sanPolicy = s.boot.sanPolicy := by
  unfold State.pushReport
  split <;> simp

@[simp] theorem State.admitReport_sanPolicy (c : Cmd) (d : List Byte) :
    (s.admitReport c d).boot.sanPolicy = s.boot.sanPolicy := by simp [State.admitReport]

@[simp] theorem State.retest_sanPolicy (id : Nat) : (s.retest id).boot.sanPolicy = s.boot.sanPolicy := by
  simp only [State.retest, execZoneOpen, execZoneClose, execZoneFinish, execZoneReset, execZoneReport, execFlush, execRecoveryList,
    execContRead]
  (repeat' split) <;> simp

@[simp] theorem State.retestAll_sanPolicy : s.retestAll.boot.sanPolicy = s.boot.sanPolicy := by simp [State.retestAll]

@[simp] theorem State.captured_sanPolicy (id : Nat) (keys : List Nat) : (s.captured id keys).boot.sanPolicy = s.boot.sanPolicy := by
  unfold State.captured
  split
  · rfl
  · dsimp only
    split <;> simp only [State.finish_sanPolicy, State.readDone_sanPolicy] <;> refine State.each_sanPolicy _ _ _ fun u l => ?_ <;>
      (repeat' split) <;> simp

@[simp] theorem State.moveBand_sanPolicy (a band : Nat) : (s.moveBand a band).boot.sanPolicy = s.boot.sanPolicy := by
  unfold State.moveBand
  dsimp only
  split <;> simp

@[simp] theorem State.refreshDone_sanPolicy (a g : Nat) : (s.refreshDone a g).boot.sanPolicy = s.boot.sanPolicy := by simp [State.refreshDone]
@[simp] theorem State.trialTurn_sanPolicy (a h : Nat) : (s.trialTurn a h).boot.sanPolicy = s.boot.sanPolicy := by simp [State.trialTurn]

@[simp] theorem State.grazeAdvance_sanPolicy (a : Nat) (r : PlanOp) :
    (s.grazeAdvance a r).boot.sanPolicy = s.boot.sanPolicy := by simp [State.grazeAdvance]

@[simp] theorem State.mediaEnd_sanPolicy (a : Nat) : (s.mediaEnd a).boot.sanPolicy = s.boot.sanPolicy := by
  unfold State.mediaEnd
  split <;> simp

@[simp] theorem State.recTo_sanPolicy (id : BitVec 16) (st : RecState) : (s.recTo id st).boot.sanPolicy = s.boot.sanPolicy := by
  unfold State.recTo
  split <;> simp

/-! ### Mailbox requests -/

@[simp] theorem State.serve_sanPolicy (r : Requester) (op : Nat) (act : Option Nat) (k : List Byte → State)
    (hk : ∀ p, (k p).boot.sanPolicy = s.boot.sanPolicy) : (s.serve r op act k).boot.sanPolicy = s.boot.sanPolicy :=
  State.serve_induction (P := fun t => t.boot.sanPolicy = s.boot.sanPolicy) rfl hk

/-! ### Media -/

@[simp] theorem State.queueRefresh_sanPolicy (a g order : Nat) :
    (s.queueRefresh a g order).boot.sanPolicy = s.boot.sanPolicy := by simp [State.queueRefresh]

@[simp] theorem State.holdGroup_sanPolicy (a g : Nat) : (s.holdGroup a g).boot.sanPolicy = s.boot.sanPolicy := by simp [State.holdGroup]
@[simp] theorem State.checkpoint_sanPolicy (a : Nat) : (s.checkpoint a).boot.sanPolicy = s.boot.sanPolicy := by simp [State.checkpoint]

@[simp] theorem State.enterFormat_sanPolicy (k : Nat) (o : FmtOp) :
    (s.enterFormat k o).boot.sanPolicy = s.boot.sanPolicy := by simp [State.enterFormat]

@[simp] theorem State.refuseFormat_sanPolicy (k reason : Nat) :
    (s.refuseFormat k reason).boot.sanPolicy = s.boot.sanPolicy := by simp [State.refuseFormat]

@[simp] theorem State.queueFormat_sanPolicy (o : FmtOp) : (s.queueFormat o).boot.sanPolicy = s.boot.sanPolicy := by simp [State.queueFormat]

/-! ### The recovery ladder -/

@[simp] theorem State.modSamples_sanPolicy (a cmd key : Nat) (g : Retain → Retain) :
    (s.modSamples a cmd key g).boot.sanPolicy = s.boot.sanPolicy := by simp [State.modSamples]

@[simp] theorem State.dropSamples_sanPolicy (a cmd key : Nat) :
    (s.dropSamples a cmd key).boot.sanPolicy = s.boot.sanPolicy := by simp [State.dropSamples]

@[simp] theorem State.retain_sanPolicy (a : Nat) (e : Retain) : (s.retain a e).boot.sanPolicy = s.boot.sanPolicy := by simp [State.retain]

@[simp] theorem State.retainSlot_sanPolicy (a cmd key : Nat) : (s.retainSlot a cmd key).boot.sanPolicy = s.boot.sanPolicy := by
  unfold State.retainSlot
  split <;> simp

@[simp] theorem State.accumulate_sanPolicy (a : Nat) (e : Retain) : (s.accumulate a e).boot.sanPolicy = s.boot.sanPolicy := by
  unfold State.accumulate
  dsimp only
  split <;> simp

@[simp] theorem State.takeSlot_sanPolicy (a : Nat) (e : Retain) : (s.takeSlot a e).boot.sanPolicy = s.boot.sanPolicy := by
  unfold State.takeSlot
  dsimp only
  split <;> simp

@[simp] theorem State.askReplay_sanPolicy (a : Nat) (q : FmtCmd) : (s.askReplay a q).boot.sanPolicy = s.boot.sanPolicy := by simp [State.askReplay]
@[simp] theorem State.fillQueue_sanPolicy (a : Nat) : (s.fillQueue a).boot.sanPolicy = s.boot.sanPolicy := by simp [State.fillQueue]

@[simp] theorem State.stopReplays_sanPolicy (a cmd key : Nat) :
    (s.stopReplays a cmd key).boot.sanPolicy = s.boot.sanPolicy := by simp [State.stopReplays]

@[simp] theorem State.queueRewrite_sanPolicy (a key : Nat) : (s.queueRewrite a key).boot.sanPolicy = s.boot.sanPolicy := by simp [State.queueRewrite]
@[simp] theorem State.queueBand_sanPolicy (a region : Nat) : (s.queueBand a region).boot.sanPolicy = s.boot.sanPolicy := by simp [State.queueBand]
@[simp] theorem State.wantChanCal_sanPolicy (a h : Nat) : (s.wantChanCal a h).boot.sanPolicy = s.boot.sanPolicy := by simp [State.wantChanCal]

@[simp] theorem State.enterUnread_sanPolicy (a key : Nat) (lost : Bool) :
    (s.enterUnread a key lost).boot.sanPolicy = s.boot.sanPolicy := by simp [State.enterUnread]

@[simp] theorem State.loseSector_sanPolicy (a key : Nat) : (s.loseSector a key).boot.sanPolicy = s.boot.sanPolicy := by simp [State.loseSector]
@[simp] theorem State.marginal_sanPolicy (a key rung : Nat) : (s.marginal a key rung).boot.sanPolicy = s.boot.sanPolicy := by simp [State.marginal]

@[simp] theorem State.recSector_sanPolicy (ref key : Nat) : (s.recSector ref key).boot.sanPolicy = s.boot.sanPolicy := by
  unfold State.recSector
  split <;> simp

@[simp] theorem State.recFail_sanPolicy (ref : Nat) : (s.recFail ref).boot.sanPolicy = s.boot.sanPolicy := by
  unfold State.recFail
  split <;> simp

@[simp] theorem State.placeholder_sanPolicy (a key : Nat) : (s.placeholder a key).boot.sanPolicy = s.boot.sanPolicy := by simp [State.placeholder]
@[simp] theorem State.grazeGood_sanPolicy (x : Attempt) : (s.grazeGood x).boot.sanPolicy = s.boot.sanPolicy := by simp [State.grazeGood]

@[simp] theorem State.grazeLost_sanPolicy (a order ref key : Nat) :
    (s.grazeLost a order ref key).boot.sanPolicy = s.boot.sanPolicy := by simp [State.grazeLost]

@[simp] theorem State.bulkPassages_sanPolicy (a : Nat) (c : Cmd) (key step n : Nat) :
    (s.bulkPassages a c key step n).boot.sanPolicy = s.boot.sanPolicy := by simp [State.bulkPassages]

@[simp] theorem State.grazePassages_sanPolicy (a : Nat) (e : Retain) (step n : Nat) :
    (s.grazePassages a e step n).boot.sanPolicy = s.boot.sanPolicy := by simp [State.grazePassages]

@[simp] theorem State.giveUp_sanPolicy (a : Nat) (e : Retain) : (s.giveUp a e).boot.sanPolicy = s.boot.sanPolicy := by
  unfold State.giveUp
  dsimp only
  (repeat' split) <;> simp

@[simp] theorem State.startStep_sanPolicy (a : Nat) (e : Retain) (step : Nat) : (s.startStep a e step).boot.sanPolicy = s.boot.sanPolicy := by
  unfold State.startStep
  dsimp only
  (repeat' split) <;> simp

@[simp] theorem State.nextRung_sanPolicy (a : Nat) (e : Retain) : (s.nextRung a e).boot.sanPolicy = s.boot.sanPolicy := by
  unfold State.nextRung
  dsimp only
  (repeat' split) <;> simp

@[simp] theorem State.startReplays_sanPolicy (a : Nat) (e : Retain) :
    (s.startReplays a e).boot.sanPolicy = s.boot.sanPolicy := by simp [State.startReplays]

@[simp] theorem State.stopAttempts_sanPolicy (a cmd key : Nat) :
    (s.stopAttempts a cmd key).boot.sanPolicy = s.boot.sanPolicy := by simp [State.stopAttempts]

@[simp] theorem State.checkFailed_sanPolicy (a : Nat) (e : Retain) :
    (s.checkFailed a e).boot.sanPolicy = s.boot.sanPolicy := by simp [State.checkFailed]

@[simp] theorem State.afterFailure_sanPolicy (a : Nat) (x : Attempt) :
    (s.afterFailure a x).boot.sanPolicy = s.boot.sanPolicy := by simp [State.afterFailure]

/-! ### The read channel -/

@[simp] theorem State.countFraming_sanPolicy (a : Nat) (f : Framing) :
    (s.countFraming a f).boot.sanPolicy = s.boot.sanPolicy := by simp [State.countFraming]

@[simp] theorem State.eraseFor_sanPolicy (a ps : Nat) : (s.eraseFor a ps).boot.sanPolicy = s.boot.sanPolicy := by simp [State.eraseFor]
@[simp] theorem State.eraseSamples_sanPolicy (a : Nat) : (s.eraseSamples a).boot.sanPolicy = s.boot.sanPolicy := by simp [State.eraseSamples]

@[simp] theorem State.frameSector_sanPolicy (a key : Nat) (q : FmtCmd) (sm1 sm2 : List Hit) (r0 r1 : List (BitVec 6)) :
    (s.frameSector a key q sm1 sm2 r0 r1).boot.sanPolicy = s.boot.sanPolicy := by simp [State.frameSector]

@[simp] theorem State.chargeDec_sanPolicy (cmd iters rounds : Nat) :
    (s.chargeDec cmd iters rounds).boot.sanPolicy = s.boot.sanPolicy := by simp [State.chargeDec]

@[simp] theorem State.modAttempt_sanPolicy (id : Nat) (g : Attempt → Attempt) :
    (s.modAttempt id g).boot.sanPolicy = s.boot.sanPolicy := by simp [State.modAttempt]

@[simp] theorem State.freeEngine_sanPolicy (e : Nat) : (s.freeEngine e).boot.sanPolicy = s.boot.sanPolicy := by simp [State.freeEngine]

@[simp] theorem State.leavePool_sanPolicy (x : Attempt) : (s.leavePool x).boot.sanPolicy = s.boot.sanPolicy := by
  unfold State.leavePool
  split <;> simp

@[simp] theorem State.endAttempt_sanPolicy (x : Attempt) : (s.endAttempt x).boot.sanPolicy = s.boot.sanPolicy := by simp [State.endAttempt]
@[simp] theorem State.assign_sanPolicy (e : Nat) (x : Attempt) : (s.assign e x).boot.sanPolicy = s.boot.sanPolicy := by simp [State.assign]

theorem serveAttempt_sanPolicy (x : State × List Nat) (a : Nat) : (serveAttempt x a).1.boot.sanPolicy = x.1.boot.sanPolicy := by
  unfold serveAttempt
  dsimp only
  (repeat' split) <;> simp

@[simp] theorem State.dispatchPool_sanPolicy : s.dispatchPool.boot.sanPolicy = s.boot.sanPolicy :=
  foldl_fst_sanPolicy _ serveAttempt_sanPolicy _ _

@[simp] theorem State.enterPool_sanPolicy (x : Attempt) (t : Nat) : (s.enterPool x t).boot.sanPolicy = s.boot.sanPolicy := by simp [State.enterPool]
@[simp] theorem State.stopLadder_sanPolicy (x : Attempt) : (s.stopLadder x).boot.sanPolicy = s.boot.sanPolicy := by simp [State.stopLadder]
@[simp] theorem State.adapt_sanPolicy (x : Attempt) (v : TapSet) : (s.adapt x v).boot.sanPolicy = s.boot.sanPolicy := by simp [State.adapt]

@[simp] theorem State.readySector_sanPolicy (x : Attempt) : (s.readySector x).boot.sanPolicy = s.boot.sanPolicy := by
  unfold State.readySector
  split <;> simp

@[simp] theorem State.converged_sanPolicy (x : Attempt) (o : DecOut) (taps : TapSet) : (s.converged x o taps).boot.sanPolicy = s.boot.sanPolicy := by
  unfold State.converged
  dsimp only
  (repeat' split) <;> simp

@[simp] theorem State.roundStart_sanPolicy (x : Attempt) (isl : Nat) :
    (s.roundStart x isl).boot.sanPolicy = s.boot.sanPolicy := by simp [State.roundStart]

@[simp] theorem State.preempt_sanPolicy (e : Nat) (x : Attempt) : (s.preempt e x).boot.sanPolicy = s.boot.sanPolicy := by simp [State.preempt]

@[simp] theorem State.iterate_sanPolicy (e : Nat) (x : Attempt) (zero : Bool) (o : DecOut) (taps : TapSet) :
    (s.iterate e x zero o taps).boot.sanPolicy = s.boot.sanPolicy := by simp [State.iterate]

@[simp] theorem State.restartJob_sanPolicy (e : Nat) : (s.restartJob e).boot.sanPolicy = s.boot.sanPolicy := by
  unfold State.restartJob
  split <;> simp

@[simp] theorem State.retireEngine_sanPolicy (e st : Nat) : (s.retireEngine e st).boot.sanPolicy = s.boot.sanPolicy := by simp [State.retireEngine]
@[simp] theorem State.leaveIsland_sanPolicy (e : Nat) : (s.leaveIsland e).boot.sanPolicy = s.boot.sanPolicy := by simp [State.leaveIsland]
@[simp] theorem State.failEngine_sanPolicy (e : Nat) : (s.failEngine e).boot.sanPolicy = s.boot.sanPolicy := by simp [State.failEngine]

@[simp] theorem State.decoderReply_sanPolicy (k reason e : Nat) :
    (s.decoderReply k reason e).boot.sanPolicy = s.boot.sanPolicy := by simp [State.decoderReply]

@[simp] theorem State.endRetest_sanPolicy (k e : Nat) (pass : Bool) :
    (s.endRetest k e pass).boot.sanPolicy = s.boot.sanPolicy := by simp [State.endRetest]

/-! ### The formatter -/

@[simp] theorem State.popFmt_sanPolicy (a : Nat) : (s.popFmt a).boot.sanPolicy = s.boot.sanPolicy := by simp [State.popFmt]

@[simp] theorem State.startRoutine_sanPolicy (a : Nat) (q : FmtCmd) :
    (s.startRoutine a q).boot.sanPolicy = s.boot.sanPolicy := by simp [State.startRoutine]

@[simp] theorem State.askRecord_sanPolicy (a : Nat) : (s.askRecord a).boot.sanPolicy = s.boot.sanPolicy := by simp [State.askRecord]
@[simp] theorem State.commitFinish_sanPolicy (c : Cmd) : (s.commitFinish c).boot.sanPolicy = s.boot.sanPolicy := by simp [State.commitFinish]
@[simp] theorem State.commitReset_sanPolicy (c : Cmd) : (s.commitReset c).boot.sanPolicy = s.boot.sanPolicy := by simp [State.commitReset]
@[simp] theorem State.zoneRecord_sanPolicy (a : Nat) (c : Cmd) : (s.zoneRecord a c).boot.sanPolicy = s.boot.sanPolicy := by simp [State.zoneRecord]

@[simp] theorem State.intentRecs_sanPolicy (a : Nat) (keys : List Nat) :
    (s.intentRecs a keys).boot.sanPolicy = s.boot.sanPolicy := by simp [State.intentRecs]

@[simp] theorem State.startWrite_sanPolicy (a : Nat) (opc : Byte) : (s.startWrite a opc).boot.sanPolicy = s.boot.sanPolicy := by
  unfold State.startWrite
  split <;> simp

@[simp] theorem State.sendFrame_sanPolicy (a : Nat) (q : FmtCmd) (key : Nat) (x : Sector) :
    (s.sendFrame a q key x).boot.sanPolicy = s.boot.sanPolicy := by simp [State.sendFrame]

@[simp] theorem State.committedOf_sanPolicy (id n lba : Nat) : (s.committedOf id n lba).boot.sanPolicy = s.boot.sanPolicy := by
  unfold State.committedOf
  split <;> simp

@[simp] theorem State.releaseSource_sanPolicy (a key : Nat) :
    (s.releaseSource a key).boot.sanPolicy = s.boot.sanPolicy := by simp [State.releaseSource]

@[simp] theorem State.commitBand_sanPolicy (a spt : Nat) (x : Sector) (src : Nat) :
    (s.commitBand a spt x src).boot.sanPolicy = s.boot.sanPolicy := by simp [State.commitBand]

@[simp] theorem State.commitLanding_sanPolicy (a id : Nat) (w : WSlot) : (s.commitLanding a id w).boot.sanPolicy = s.boot.sanPolicy := by
  unfold State.commitLanding
  split <;> simp

@[simp] theorem State.writePoisoned_sanPolicy (a : Nat) (q : FmtCmd) (w : WSlot) :
    (s.writePoisoned a q w).boot.sanPolicy = s.boot.sanPolicy := by simp [State.writePoisoned]

@[simp] theorem State.commitKey_sanPolicy (a : Nat) (q : FmtCmd) (key : Nat) : (s.commitKey a q key).boot.sanPolicy = s.boot.sanPolicy := by
  unfold State.commitKey
  dsimp only
  (repeat' split) <;> simp

@[simp] theorem State.endWrite_sanPolicy (a : Nat) : (s.endWrite a).boot.sanPolicy = s.boot.sanPolicy := by simp [State.endWrite]

@[simp] theorem State.afterWrite_sanPolicy (a id : Nat) : (s.afterWrite a id).boot.sanPolicy = s.boot.sanPolicy := by
  unfold State.afterWrite
  split <;> simp

@[simp] theorem State.splitRunning_sanPolicy (a : Nat) (r : Routine) :
    (s.splitRunning a r).boot.sanPolicy = s.boot.sanPolicy := by simp [State.splitRunning]

@[simp] theorem State.passWaymark_sanPolicy (a : Nat) (r : Routine) (keys : List Nat) (at' : Nat × Nat) :
    (s.passWaymark a r keys at').boot.sanPolicy = s.boot.sanPolicy := by
  simp only [State.passWaymark, State.ite_sanPolicy, State.askRecord_sanPolicy, ite_self, State.modFmt_sanPolicy,
    State.commitKey_sanPolicy, State.each_sanPolicy, implies_true]
  refine (State.each_sanPolicy _ _ _ fun u k => ?_).trans (by simp)
  split <;> simp

@[simp] theorem State.abandonAll_sanPolicy (a : Nat) : (s.abandonAll a).boot.sanPolicy = s.boot.sanPolicy := by
  unfold State.abandonAll
  split <;> simp

@[simp] theorem State.resumeRoutine_sanPolicy (a : Nat) (r : Routine) :
    (s.resumeRoutine a r).boot.sanPolicy = s.boot.sanPolicy := by simp [State.resumeRoutine]

@[simp] theorem State.squeezeRewrite_sanPolicy (a : Nat) (q : FmtCmd) (x : Nat) : (s.squeezeRewrite a q x).boot.sanPolicy = s.boot.sanPolicy := by
  unfold State.squeezeRewrite
  extract_lets r k com start sec gen recs pass t u
  have hpass (u : State) (g : Nat × Nat) : (pass u g).boot.sanPolicy = u.boot.sanPolicy := by
    refine (State.modFmt_sanPolicy ..).trans ((State.each_sanPolicy _ _ _ fun u p => ?_).trans ?_)
    · split <;> simp
    · split <;> simp
  have hu : u.boot.sanPolicy = s.boot.sanPolicy := State.each_sanPolicy _ _ _ hpass
  split <;> simp [hu]

@[simp] theorem State.queueAssistCal_sanPolicy (a h : Nat) :
    (s.queueAssistCal a h).boot.sanPolicy = s.boot.sanPolicy := by simp [State.queueAssistCal]

@[simp] theorem State.headLost_sanPolicy (a h : Nat) : (s.headLost a h).boot.sanPolicy = s.boot.sanPolicy := by simp [State.headLost]
@[simp] theorem State.suspendHead_sanPolicy (a h : Nat) : (s.suspendHead a h).boot.sanPolicy = s.boot.sanPolicy := by simp [State.suspendHead]
@[simp] theorem State.feedbackFault_sanPolicy (a h : Nat) : (s.feedbackFault a h).boot.sanPolicy = s.boot.sanPolicy := by simp [State.feedbackFault]

@[simp] theorem State.roundGain_sanPolicy (v : Int) : (s.roundGain v).2.boot.sanPolicy = s.boot.sanPolicy := by
  unfold State.roundGain
  dsimp only
  (repeat' split) <;> simp

@[simp] theorem State.assistLoop_sanPolicy (a h sample : Nat) : (s.assistLoop a h sample).boot.sanPolicy = s.boot.sanPolicy := by
  unfold State.assistLoop
  dsimp only
  split <;> simp

@[simp] theorem State.assistUse_sanPolicy (a : Nat) (q : FmtCmd) (t energy : Nat) :
    (s.assistUse a q t energy).boot.sanPolicy = s.boot.sanPolicy := by simp [State.assistUse]

@[simp] theorem State.wearCheck_sanPolicy (a h : Nat) : (s.wearCheck a h).boot.sanPolicy = s.boot.sanPolicy := by simp [State.wearCheck]

/-! ### Servo loops -/

@[simp] theorem State.trip_sanPolicy (spin : Bool) (i cond time : Nat) :
    (s.trip spin i cond time).boot.sanPolicy = s.boot.sanPolicy := by simp [State.trip]

@[simp] theorem State.tripAct_sanPolicy (a cond : Nat) : (s.tripAct a cond).boot.sanPolicy = s.boot.sanPolicy := by simp [State.tripAct]

@[simp] theorem State.sampleTrc_sanPolicy (e : Nat) (spin : Bool) (i : Nat) (val : Nat → Nat → Nat → Word) :
    (s.sampleTrc e spin i val).boot.sanPolicy = s.boot.sanPolicy := by simp [State.sampleTrc]

@[simp] theorem State.countTrc_sanPolicy (spin : Bool) (i : Nat) : (s.countTrc spin i).boot.sanPolicy = s.boot.sanPolicy := by simp [State.countTrc]

@[simp] theorem State.raiseInhibit_sanPolicy (a cause : Nat) (toward : Bool) :
    (s.raiseInhibit a cause toward).boot.sanPolicy = s.boot.sanPolicy := by simp [State.raiseInhibit]

@[simp] theorem State.retract_sanPolicy (a cause : Nat) : (s.retract a cause).boot.sanPolicy = s.boot.sanPolicy := by simp [State.retract]
@[simp] theorem State.retractIdle_sanPolicy (a : Nat) : (s.retractIdle a).boot.sanPolicy = s.boot.sanPolicy := by simp [State.retractIdle]

@[simp] theorem State.enterRetract_sanPolicy (a : Nat) (cause : BitVec 3) :
    (s.enterRetract a cause).boot.sanPolicy = s.boot.sanPolicy := by simp [State.enterRetract]

@[simp] theorem State.enterLimp_sanPolicy (a : Nat) : (s.enterLimp a).boot.sanPolicy = s.boot.sanPolicy := by
  unfold State.enterLimp
  split <;> simp

@[simp] theorem State.decideMig_sanPolicy (a : Nat) (beyond : Bool) : (s.decideMig a beyond).boot.sanPolicy = s.boot.sanPolicy := by
  unfold State.decideMig
  dsimp only
  (repeat' split) <;> simp

@[simp] theorem State.wantAction_sanPolicy (b : Nat) (x : SpinAct) :
    (s.wantAction b x).boot.sanPolicy = s.boot.sanPolicy := by simp [State.wantAction]

@[simp] theorem State.decideSpn_sanPolicy (b : Nat) : (s.decideSpn b).boot.sanPolicy = s.boot.sanPolicy := by
  unfold State.decideSpn
  dsimp only
  (repeat' split) <;> simp

@[simp] theorem State.placeSpindles_sanPolicy : s.placeSpindles.boot.sanPolicy = s.boot.sanPolicy := by
  refine State.each_sanPolicy _ _ _ fun u b => ?_
  split <;> simp

@[simp] theorem State.evacuate_sanPolicy (n : Nat) : (s.evacuate n).boot.sanPolicy = s.boot.sanPolicy := by simp [State.evacuate]
@[simp] theorem State.retireLe_sanPolicy (n st : Nat) : (s.retireLe n st).boot.sanPolicy = s.boot.sanPolicy := by simp [State.retireLe]
@[simp] theorem State.predict_sanPolicy (a : Nat) : (s.predict a).boot.sanPolicy = s.boot.sanPolicy := by simp [State.predict]
@[simp] theorem State.overrunOf_sanPolicy (a : Nat) : (s.overrunOf a).boot.sanPolicy = s.boot.sanPolicy := by simp [State.overrunOf]
@[simp] theorem State.wearAt_sanPolicy (b budget n : Nat) : (s.wearAt b budget n).boot.sanPolicy = s.boot.sanPolicy := by simp [State.wearAt]
@[simp] theorem State.gaitHours_sanPolicy (b : Nat) : (s.gaitHours b).boot.sanPolicy = s.boot.sanPolicy := by simp [State.gaitHours]
@[simp] theorem State.requestLoad_sanPolicy (a : Nat) : (s.requestLoad a).boot.sanPolicy = s.boot.sanPolicy := by simp [State.requestLoad]
@[simp] theorem State.endPause_sanPolicy (b : Nat) : (s.endPause b).boot.sanPolicy = s.boot.sanPolicy := by simp [State.endPause]
@[simp] theorem State.loadsDone_sanPolicy (b : Nat) : (s.loadsDone b).boot.sanPolicy = s.boot.sanPolicy := by simp [State.loadsDone]
@[simp] theorem State.parked_sanPolicy (a : Nat) : (s.parked a).boot.sanPolicy = s.boot.sanPolicy := by simp [State.parked]

@[simp] theorem State.sendSpin_sanPolicy (b mode tcomm step icmd : Nat) :
    (s.sendSpin b mode tcomm step icmd).boot.sanPolicy = s.boot.sanPolicy := by simp [State.sendSpin]

@[simp] theorem State.startBrake_sanPolicy (b : Nat) (short : Bool) :
    (s.startBrake b short).boot.sanPolicy = s.boot.sanPolicy := by simp [State.startBrake]

@[simp] theorem State.askToken_sanPolicy (b kind : Nat) : (s.askToken b kind).boot.sanPolicy = s.boot.sanPolicy := by simp [State.askToken]
@[simp] theorem State.linksOff_sanPolicy (b : Nat) : (s.linksOff b).boot.sanPolicy = s.boot.sanPolicy := by simp [State.linksOff]
@[simp] theorem State.quarantine_sanPolicy (b reason : Nat) : (s.quarantine b reason).boot.sanPolicy = s.boot.sanPolicy := by simp [State.quarantine]

@[simp] theorem State.failBringUp_sanPolicy (b reason : Nat) :
    (s.failBringUp b reason).boot.sanPolicy = s.boot.sanPolicy := by simp [State.failBringUp]

/-! ### The loop law -/

@[simp] theorem State.offerSet_sanPolicy (a : Nat) (set : Option CoeffSet) (rro : Option RroSet) :
    (s.offerSet a set rro).boot.sanPolicy = s.boot.sanPolicy := by simp [State.offerSet]

/-! ### Crossings -/

@[simp] theorem State.peerReset_sanPolicy (i : Nat) (flight : Tab Nat) :
    (s.peerReset i flight).boot.sanPolicy = s.boot.sanPolicy := by simp [State.peerReset]

@[simp] theorem State.rearm_sanPolicy (i : Nat) : (s.rearm i).boot.sanPolicy = s.boot.sanPolicy := by simp [State.rearm]

/-! ### Host ports -/

@[simp] theorem State.segmentIn_sanPolicy (c : Cmd) (bs : List Byte) : (s.segmentIn c bs).boot.sanPolicy = s.boot.sanPolicy := by
  unfold State.segmentIn
  dsimp only
  (repeat' split) <;> simp

@[simp] theorem State.dataIn_sanPolicy (c : Cmd) (bs : List Byte) : (s.dataIn c bs).boot.sanPolicy = s.boot.sanPolicy := by simp [State.dataIn]
@[simp] theorem State.readFailed_sanPolicy (id : Nat) : (s.readFailed id).boot.sanPolicy = s.boot.sanPolicy := by simp [State.readFailed]
@[simp] theorem State.unexpected_sanPolicy (f : Nat) : (s.unexpected f).boot.sanPolicy = s.boot.sanPolicy := by simp [State.unexpected]

@[simp] theorem State.hostCompletion_sanPolicy (f id : Nat) (list failed : Bool) (bs : List Byte) :
    (s.hostCompletion f id list failed bs).boot.sanPolicy = s.boot.sanPolicy := by
  unfold State.hostCompletion
  dsimp only
  (repeat' split) <;> simp

@[simp] theorem State.postHeld_sanPolicy (id : Nat) : (s.postHeld id).boot.sanPolicy = s.boot.sanPolicy := by
  unfold State.postHeld
  split <;> simp

@[simp] theorem State.issueAsks_sanPolicy (c : Cmd) : (s.issueAsks c).boot.sanPolicy = s.boot.sanPolicy := by simp [State.issueAsks]
@[simp] theorem State.resume_sanPolicy (f : Nat) : (s.resume f).boot.sanPolicy = s.boot.sanPolicy := by simp [State.resume]
@[simp] theorem State.bmeOff_sanPolicy (f : Nat) : (s.bmeOff f).boot.sanPolicy = s.boot.sanPolicy := by simp [State.bmeOff]
@[simp] theorem State.bmeOn_sanPolicy (f : Nat) : (s.bmeOn f).boot.sanPolicy = s.boot.sanPolicy := by simp [State.bmeOn]
@[simp] theorem State.tallyRemoved_sanPolicy (c : Cmd) : (s.tallyRemoved c).boot.sanPolicy = s.boot.sanPolicy := by simp [State.tallyRemoved]
@[simp] theorem State.removeCmd_sanPolicy (c : Cmd) : (s.removeCmd c).boot.sanPolicy = s.boot.sanPolicy := by simp [State.removeCmd]
@[simp] theorem State.removeAll_sanPolicy (cs : List Cmd) : (s.removeAll cs).boot.sanPolicy = s.boot.sanPolicy := by simp [State.removeAll]
@[simp] theorem State.resetQueues_sanPolicy (f : Nat) : (s.resetQueues f).boot.sanPolicy = s.boot.sanPolicy := by simp [State.resetQueues]
@[simp] theorem State.resetRegs_sanPolicy (f : Nat) : (s.resetRegs f).boot.sanPolicy = s.boot.sanPolicy := by simp [State.resetRegs]
@[simp] theorem State.resetFn_sanPolicy (f : Nat) : (s.resetFn f).boot.sanPolicy = s.boot.sanPolicy := by simp [State.resetFn]
@[simp] theorem State.vfsOff_sanPolicy (f : Nat) : (s.vfsOff f).boot.sanPolicy = s.boot.sanPolicy := by simp [State.vfsOff]
@[simp] theorem State.flr_sanPolicy (f : Nat) : (s.flr f).boot.sanPolicy = s.boot.sanPolicy := by simp [State.flr]

@[simp] theorem State.modHalf_sanPolicy (p : Nat) (h : Bool) (g : Link → Link) :
    (s.modHalf p h g).boot.sanPolicy = s.boot.sanPolicy := by simp [State.modHalf]

@[simp] theorem State.linkDown_sanPolicy (p : Nat) (h : Bool) : (s.linkDown p h).boot.sanPolicy = s.boot.sanPolicy := by simp [State.linkDown]

/-! ### Memory and poison -/

@[simp] theorem State.ramStore_sanPolicy (n k : Nat) (bs : List Byte) : (s.ramStore n k bs).boot.sanPolicy = s.boot.sanPolicy := by
  induction n generalizing s k bs with
  | zero => rfl
  | succ n ih =>
    unfold State.ramStore
    split
    · rfl
    · dsimp only
      rw [ih]
      split <;> simp

/-! ### Host ports -/

@[simp] theorem State.decodeBar2_sanPolicy (p : Nat) (t : HeldTlp) :
    (s.decodeBar2 p t).boot.sanPolicy = s.boot.sanPolicy := by simp [State.decodeBar2]

@[simp] theorem State.bar2_sanPolicy (p : Nat) (t : HeldTlp) : (s.bar2 p t).boot.sanPolicy = s.boot.sanPolicy := by simp [State.bar2]

@[simp] theorem State.commitWindow_sanPolicy (p : Nat) (val : Word) :
    (s.commitWindow p val).boot.sanPolicy = s.boot.sanPolicy := by simp [State.commitWindow]

@[simp] theorem State.moveSteward_sanPolicy (p : Nat) : (s.moveSteward p).boot.sanPolicy = s.boot.sanPolicy := by simp [State.moveSteward]
@[simp] theorem State.writeSteward_sanPolicy (t : Nat) : (s.writeSteward t).boot.sanPolicy = s.boot.sanPolicy := by simp [State.writeSteward]

/-! ### The servo -/

@[simp] theorem State.predictGate_sanPolicy (a cls : Nat) : (s.predictGate a cls).boot.sanPolicy = s.boot.sanPolicy := by simp [State.predictGate]

@[simp] theorem State.wedgeSeen_sanPolicy (a cls : Nat) (w : BitVec 10) :
    (s.wedgeSeen a cls w).boot.sanPolicy = s.boot.sanPolicy := by simp [State.wedgeSeen]

@[simp] theorem State.skipWedge_sanPolicy (a : Nat) : (s.skipWedge a).boot.sanPolicy = s.boot.sanPolicy := by simp [State.skipWedge]

@[simp] theorem State.watchFrozen_sanPolicy (a : Nat) (r : PosRec) :
    (s.watchFrozen a r).boot.sanPolicy = s.boot.sanPolicy := by simp [State.watchFrozen]

@[simp] theorem State.frozen_sanPolicy (a : Nat) : (s.frozen a).boot.sanPolicy = s.boot.sanPolicy := by simp [State.frozen]
@[simp] theorem State.badRecord_sanPolicy (a cls : Nat) : (s.badRecord a cls).boot.sanPolicy = s.boot.sanPolicy := by simp [State.badRecord]
@[simp] theorem State.goodRecord_sanPolicy (a : Nat) (r : PosRec) : (s.goodRecord a r).boot.sanPolicy = s.boot.sanPolicy := by simp [State.goodRecord]

@[simp] theorem State.position_sanPolicy (a : Nat) (rec : BitVec 128) :
    (s.position a rec).boot.sanPolicy = s.boot.sanPolicy := by simp [State.position]

@[simp] theorem State.seekDone_sanPolicy (a : Nat) : (s.seekDone a).boot.sanPolicy = s.boot.sanPolicy := by simp [State.seekDone]
@[simp] theorem State.enterFollow_sanPolicy (a : Nat) : (s.enterFollow a).boot.sanPolicy = s.boot.sanPolicy := by simp [State.enterFollow]
@[simp] theorem State.toMode_sanPolicy (a : Nat) (m : BitVec 3) : (s.toMode a m).boot.sanPolicy = s.boot.sanPolicy := by simp [State.toMode]
@[simp] theorem State.loadFailed_sanPolicy (a : Nat) : (s.loadFailed a).boot.sanPolicy = s.boot.sanPolicy := by simp [State.loadFailed]

@[simp] theorem State.modeStep_sanPolicy (a : Nat) (ok inWindow : Bool) :
    (s.modeStep a ok inWindow).boot.sanPolicy = s.boot.sanPolicy := by simp [State.modeStep]

@[simp] theorem State.queueRunout_sanPolicy (a h : Nat) : (s.queueRunout a h).boot.sanPolicy = s.boot.sanPolicy := by simp [State.queueRunout]

@[simp] theorem State.runLoop_sanPolicy (a : Nat) (o : LawOut) : (s.runLoop a o).boot.sanPolicy = s.boot.sanPolicy := by
  unfold State.runLoop
  split <;> simp

@[simp] theorem State.overrunRun_sanPolicy (a : Nat) (o : LawOut) (budget : Nat) :
    (s.overrunRun a o budget).boot.sanPolicy = s.boot.sanPolicy := by simp [State.overrunRun]

@[simp] theorem State.lineFault_sanPolicy (a : Nat) (o : LawOut) (k : Nat) :
    (s.lineFault a o k).boot.sanPolicy = s.boot.sanPolicy := by simp [State.lineFault]

@[simp] theorem State.spinOverrun_sanPolicy (b : Nat) : (s.spinOverrun b).boot.sanPolicy = s.boot.sanPolicy := by simp [State.spinOverrun]

@[simp] theorem State.takeMig_sanPolicy (a : Nat) (mirrorOk : Bool) :
    (s.takeMig a mirrorOk).boot.sanPolicy = s.boot.sanPolicy := by simp [State.takeMig]

@[simp] theorem State.loopReply_sanPolicy (k reason n : Nat) : (s.loopReply k reason n).boot.sanPolicy = s.boot.sanPolicy := by simp [State.loopReply]

@[simp] theorem State.endLeRetest_sanPolicy (k n : Nat) (pass : Bool) :
    (s.endLeRetest k n pass).boot.sanPolicy = s.boot.sanPolicy := by simp [State.endLeRetest]

@[simp] theorem State.diagWrite_sanPolicy (f : Nat) (k : State → State) (hk :
    ∀ u, (k u).boot.sanPolicy = u.boot.sanPolicy) : (s.diagWrite f k).boot.sanPolicy = s.boot.sanPolicy := by simp [State.diagWrite, hk]

/-! ### Spindles -/

@[simp] theorem State.modPwr_sanPolicy (g : Pwr → Pwr) : (s.modPwr g).boot.sanPolicy = s.boot.sanPolicy := by simp [State.modPwr]
@[simp] theorem State.ceilingMoved_sanPolicy (b : Nat) : (s.ceilingMoved b).boot.sanPolicy = s.boot.sanPolicy := by simp [State.ceilingMoved]
@[simp] theorem State.ceilingsFrom_sanPolicy (old : State) : (s.ceilingsFrom old).boot.sanPolicy = s.boot.sanPolicy := by simp [State.ceilingsFrom]
@[simp] theorem State.reproject_sanPolicy : s.reproject.boot.sanPolicy = s.boot.sanPolicy := by simp [State.reproject]
@[simp] theorem State.reachIdle_sanPolicy (b : Nat) : (s.reachIdle b).boot.sanPolicy = s.boot.sanPolicy := by simp [State.reachIdle]
@[simp] theorem State.calAtGait_sanPolicy (b : Nat) : (s.calAtGait b).boot.sanPolicy = s.boot.sanPolicy := by simp [State.calAtGait]
@[simp] theorem State.locked_sanPolicy (b : Nat) : (s.locked b).boot.sanPolicy = s.boot.sanPolicy := by simp [State.locked]
@[simp] theorem State.endWrites_sanPolicy (b : Nat) : (s.endWrites b).boot.sanPolicy = s.boot.sanPolicy := by simp [State.endWrites]
@[simp] theorem State.beginAlign_sanPolicy (b : Nat) : (s.beginAlign b).boot.sanPolicy = s.boot.sanPolicy := by simp [State.beginAlign]
@[simp] theorem State.beginSpin_sanPolicy (b : Nat) : (s.beginSpin b).boot.sanPolicy = s.boot.sanPolicy := by simp [State.beginSpin]
@[simp] theorem State.spinFailed_sanPolicy (b : Nat) : (s.spinFailed b).boot.sanPolicy = s.boot.sanPolicy := by simp [State.spinFailed]
@[simp] theorem State.startFloat_sanPolicy (b : Nat) : (s.startFloat b).boot.sanPolicy = s.boot.sanPolicy := by simp [State.startFloat]
@[simp] theorem State.observerLost_sanPolicy (b : Nat) : (s.observerLost b).boot.sanPolicy = s.boot.sanPolicy := by simp [State.observerLost]
@[simp] theorem State.atRest_sanPolicy (b : Nat) : (s.atRest b).boot.sanPolicy = s.boot.sanPolicy := by simp [State.atRest]

/-! ### Spindles and power -/

@[simp] theorem State.linkDetect_sanPolicy (a : Nat) : (s.linkDetect a).boot.sanPolicy = s.boot.sanPolicy := by simp [State.linkDetect]
@[simp] theorem State.faultCoast_sanPolicy (b : Nat) : (s.faultCoast b).boot.sanPolicy = s.boot.sanPolicy := by simp [State.faultCoast]

@[simp] theorem State.zeroCross_sanPolicy (b : Nat) (rep : BitVec 64) :
    (s.zeroCross b rep).boot.sanPolicy = s.boot.sanPolicy := by simp [State.zeroCross]

@[simp] theorem State.revolution_sanPolicy (b n t : Nat) : (s.revolution b n t).boot.sanPolicy = s.boot.sanPolicy := by simp [State.revolution]

@[simp] theorem State.spinReport_sanPolicy (b : Nat) (rep : BitVec 64) :
    (s.spinReport b rep).boot.sanPolicy = s.boot.sanPolicy := by simp [State.spinReport]

@[simp] theorem State.spinTick_sanPolicy (b : Nat) : (s.spinTick b).boot.sanPolicy = s.boot.sanPolicy := by simp [State.spinTick]

@[simp] theorem State.relocked_sanPolicy (b : Nat) (cs : List (Nat × Nat)) :
    (s.relocked b cs).boot.sanPolicy = s.boot.sanPolicy := by simp [State.relocked]

@[simp] theorem State.slowLower_sanPolicy (b : Nat) : (s.slowLower b).boot.sanPolicy = s.boot.sanPolicy := by simp [State.slowLower]
@[simp] theorem State.regenStops_sanPolicy (d : Nat) : (s.regenStops d).boot.sanPolicy = s.boot.sanPolicy := by simp [State.regenStops]
@[simp] theorem State.busCoasts_sanPolicy (d : Nat) : (s.busCoasts d).boot.sanPolicy = s.boot.sanPolicy := by simp [State.busCoasts]
@[simp] theorem State.coastEnds_sanPolicy (d : Nat) : (s.coastEnds d).boot.sanPolicy = s.boot.sanPolicy := by simp [State.coastEnds]
@[simp] theorem State.bayFault_sanPolicy (b : Nat) : (s.bayFault b).boot.sanPolicy = s.boot.sanPolicy := by simp [State.bayFault]
@[simp] theorem State.startBasic_sanPolicy (a : Nat) : (s.startBasic a).boot.sanPolicy = s.boot.sanPolicy := by simp [State.startBasic]
@[simp] theorem State.bringUp_sanPolicy (b : Nat) : (s.bringUp b).boot.sanPolicy = s.boot.sanPolicy := by simp [State.bringUp]
@[simp] theorem State.retarget_sanPolicy (b g : Nat) : (s.retarget b g).boot.sanPolicy = s.boot.sanPolicy := by simp [State.retarget]
@[simp] theorem State.wake_sanPolicy (b : Nat) : (s.wake b).boot.sanPolicy = s.boot.sanPolicy := by simp [State.wake]
@[simp] theorem State.grantToken_sanPolicy (b : Nat) : (s.grantToken b).boot.sanPolicy = s.boot.sanPolicy := by simp [State.grantToken]

@[simp] theorem State.enterPower_sanPolicy (b : Nat) (want : BitVec 2) :
    (s.enterPower b want).boot.sanPolicy = s.boot.sanPolicy := by simp [State.enterPower]

@[simp] theorem State.powerState_sanPolicy (r : Requester) (st : Nat) (g : State → Nat → State)
    (hg : ∀ u b, (g u b).boot.sanPolicy = u.boot.sanPolicy) : (s.powerState r st g).boot.sanPolicy = s.boot.sanPolicy := by
  refine State.serve_sanPolicy _ _ _ _ _ fun p => ?_
  (repeat' split) <;> simp [hg]

/-! ### Resets and starts -/

@[simp] theorem State.askReset_sanPolicy (at' action : Nat) : (s.askReset at' action).boot.sanPolicy = s.boot.sanPolicy := by simp [State.askReset]
@[simp] theorem State.watchdogReset_sanPolicy : s.watchdogReset.boot.sanPolicy = s.boot.sanPolicy := by simp [State.watchdogReset]
@[simp] theorem State.restartHerd_sanPolicy (h : Nat) : (s.restartHerd h).boot.sanPolicy = s.boot.sanPolicy := by simp [State.restartHerd]
@[simp] theorem State.restartCore_sanPolicy : s.restartCore.boot.sanPolicy = s.boot.sanPolicy := by simp [State.restartCore]
@[simp] theorem State.writeDir_sanPolicy (a : Nat) : (s.writeDir a).boot.sanPolicy = s.boot.sanPolicy := by simp [State.writeDir]

@[simp] theorem State.landStaged_sanPolicy (a : Nat) (closed : Option Nat) : (s.landStaged a closed).boot.sanPolicy = s.boot.sanPolicy := by
  unfold State.landStaged
  split
  · rfl
  · simp only [State.modMed_boot, State.putRecords_sanPolicy, State.checkpoint_sanPolicy, State.flushJournal_sanPolicy]
    refine State.each_sanPolicy _ _ _ fun u w => ?_
    split <;> simp

@[simp] theorem State.replayHold_sanPolicy (a : Nat) : (s.replayHold a).boot.sanPolicy = s.boot.sanPolicy := by simp [State.replayHold]
@[simp] theorem State.rebuildIndex_sanPolicy (a : Nat) : (s.rebuildIndex a).boot.sanPolicy = s.boot.sanPolicy := by simp [State.rebuildIndex]

@[simp] theorem State.replayIntents_sanPolicy (a : Nat) : (s.replayIntents a).boot.sanPolicy = s.boot.sanPolicy := by
  refine State.each_sanPolicy _ _ _ fun u k => ?_
  split <;> rfl

@[simp] theorem State.scanZone_sanPolicy (a n lba : Nat) : (s.scanZone a n lba).boot.sanPolicy = s.boot.sanPolicy := by
  simp only [State.scanZone, State.changeZone_sanPolicy]
  refine State.each_sanPolicy _ _ _ fun u i => ?_
  (repeat' split) <;> rfl

@[simp] theorem State.replayJournal_sanPolicy (a : Nat) : (s.replayJournal a).boot.sanPolicy = s.boot.sanPolicy := by simp [State.replayJournal]
@[simp] theorem State.zonesTo_sanPolicy (a h : Nat) (st : ZState) : (s.zonesTo a h st).boot.sanPolicy = s.boot.sanPolicy := by simp [State.zonesTo]
@[simp] theorem State.halfHeads_sanPolicy : s.halfHeads.boot.sanPolicy = s.boot.sanPolicy := by simp [State.halfHeads]

@[simp] theorem State.wipe_sanPolicy (cold : Bool) : (s.wipe cold).boot.sanPolicy = s.boot.sanPolicy := rfl

@[simp] theorem State.enterTrailhead_sanPolicy (cause : Nat) :
    (s.enterTrailhead cause).boot.sanPolicy = s.boot.sanPolicy := by simp [State.enterTrailhead]

@[simp] theorem State.beginStart_sanPolicy (cause : Nat) : (s.beginStart cause).boot.sanPolicy = s.boot.sanPolicy := by simp [State.beginStart]
@[simp] theorem State.failStart_sanPolicy (cause : Nat) : (s.failStart cause).boot.sanPolicy = s.boot.sanPolicy := by simp [State.failStart]

/-! ### Device records -/

@[simp] theorem State.writeDev_sanPolicy (typ : Nat) (body : List Byte) :
    (s.writeDev typ body).boot.sanPolicy = s.boot.sanPolicy := by simp [State.writeDev]

/-! ### Grazing -/

@[simp] theorem State.headFinal_sanPolicy (a h : Nat) : (s.headFinal a h).boot.sanPolicy = s.boot.sanPolicy := by simp [State.headFinal]

@[simp] theorem State.assistPasses_sanPolicy (a h : Nat) (o : AsstCal) :
    (s.assistPasses a h o).boot.sanPolicy = s.boot.sanPolicy := by simp [State.assistPasses]

@[simp] theorem State.assistFails_sanPolicy (a h : Nat) : (s.assistFails a h).boot.sanPolicy = s.boot.sanPolicy := by simp [State.assistFails]

@[simp] theorem State.channelDone_sanPolicy (a h : Nat) (o : ChanCal) :
    (s.channelDone a h o).boot.sanPolicy = s.boot.sanPolicy := by simp [State.channelDone]

@[simp] theorem State.servoDone_sanPolicy (a h : Nat) (o : ChanCal) :
    (s.servoDone a h o).boot.sanPolicy = s.boot.sanPolicy := by simp [State.servoDone]

@[simp] theorem State.queueCal_sanPolicy (a h kind : Nat) : (s.queueCal a h kind).boot.sanPolicy = s.boot.sanPolicy := by simp [State.queueCal]

@[simp] theorem State.grazeSays_sanPolicy (r : Requester) (reason : Nat) :
    (s.grazeSays r reason).boot.sanPolicy = s.boot.sanPolicy := by simp [State.grazeSays]

@[simp] theorem State.recal_sanPolicy (r : Requester) (kind : Nat) (g : State → Nat → Nat → State) (hg :
    ∀ u v w, (g u v w).boot.sanPolicy = u.boot.sanPolicy) : (s.recal r kind g).boot.sanPolicy = s.boot.sanPolicy := by simp [State.recal, hg]

/-! ### The Causeway and bays -/

@[simp] theorem State.refreshSpn_sanPolicy (b : Nat) : (s.refreshSpn b).boot.sanPolicy = s.boot.sanPolicy := by simp [State.refreshSpn]
@[simp] theorem State.loopLost_sanPolicy (a : Nat) : (s.loopLost a).boot.sanPolicy = s.boot.sanPolicy := by simp [State.loopLost]

@[simp] theorem State.linkLost_sanPolicy (a : Nat) (dWorks : Bool) :
    (s.linkLost a dWorks).boot.sanPolicy = s.boot.sanPolicy := by simp [State.linkLost]

@[simp] theorem State.refreshSingle_sanPolicy (a : Nat) : (s.refreshSingle a).boot.sanPolicy = s.boot.sanPolicy := by simp [State.refreshSingle]

@[simp] theorem State.laneFails_sanPolicy (a : Nat) (u1 lock : Bool) :
    (s.laneFails a u1 lock).boot.sanPolicy = s.boot.sanPolicy := by simp [State.laneFails]

@[simp] theorem State.telemetry_sanPolicy (a : Nat) (e : BitVec 64) : (s.telemetry a e).boot.sanPolicy = s.boot.sanPolicy := by
  unfold State.telemetry
  split <;> simp

@[simp] theorem State.downErrors_sanPolicy (a : Nat) (cnt : BitVec 8) :
    (s.downErrors a cnt).boot.sanPolicy = s.boot.sanPolicy := by simp [State.downErrors]

@[simp] theorem State.badFrame_sanPolicy (a : Nat) (u1 lock : Bool) :
    (s.badFrame a u1 lock).boot.sanPolicy = s.boot.sanPolicy := by simp [State.badFrame]

@[simp] theorem State.bringSpin_sanPolicy (b : Nat) : (s.bringSpin b).boot.sanPolicy = s.boot.sanPolicy := by simp [State.bringSpin]
@[simp] theorem State.trainingOver_sanPolicy (b : Nat) : (s.trainingOver b).boot.sanPolicy = s.boot.sanPolicy := by simp [State.trainingOver]
@[simp] theorem State.trainFailed_sanPolicy (a : Nat) : (s.trainFailed a).boot.sanPolicy = s.boot.sanPolicy := by simp [State.trainFailed]
@[simp] theorem State.useDesc_sanPolicy (b : Nat) (d : Descriptor) : (s.useDesc b d).boot.sanPolicy = s.boot.sanPolicy := by simp [State.useDesc]

@[simp] theorem State.descEnd_sanPolicy (a : Nat) (d : Descriptor) (late : Bool) :
    (s.descEnd a d late).boot.sanPolicy = s.boot.sanPolicy := by simp [State.descEnd]

@[simp] theorem State.linkReady_sanPolicy (a : Nat) (o : TrainOut) (k0 k1 : Bool) :
    (s.linkReady a o k0 k1).boot.sanPolicy = s.boot.sanPolicy := by simp [State.linkReady]

@[simp] theorem State.settleMedia_sanPolicy (b : Nat) : (s.settleMedia b).boot.sanPolicy = s.boot.sanPolicy := by simp [State.settleMedia]
@[simp] theorem State.settleWaiting_sanPolicy : s.settleWaiting.boot.sanPolicy = s.boot.sanPolicy := by simp [State.settleWaiting]
@[simp] theorem State.actGone_sanPolicy (a : Nat) : (s.actGone a).boot.sanPolicy = s.boot.sanPolicy := by simp [State.actGone]
@[simp] theorem State.absentRec_sanPolicy (a kind : Nat) : (s.absentRec a kind).boot.sanPolicy = s.boot.sanPolicy := by simp [State.absentRec]

@[simp] theorem State.checkRecs_sanPolicy (a side : Nat) (c : CalData) :
    (s.checkRecs a side c).boot.sanPolicy = s.boot.sanPolicy := by simp [State.checkRecs]

@[simp] theorem State.calSide_sanPolicy (a side : Nat) (c : CalData) : (s.calSide a side c).boot.sanPolicy = s.boot.sanPolicy := by
  refine (State.refreshSingle_sanPolicy ..).trans ((State.each_sanPolicy _ _ _ fun u h => ?_).trans (by simp))
  (repeat' split) <;> simp

@[simp] theorem State.markHead_sanPolicy (a h kind : Nat) : (s.markHead a h kind).boot.sanPolicy = s.boot.sanPolicy := by simp [State.markHead]
@[simp] theorem State.checkFails_sanPolicy (a h kind : Nat) : (s.checkFails a h kind).boot.sanPolicy = s.boot.sanPolicy := by simp [State.checkFails]

@[simp] theorem State.linkReply_sanPolicy (k reason a : Nat) (data : List Byte) :
    (s.linkReply k reason a data).boot.sanPolicy = s.boot.sanPolicy := by simp [State.linkReply]

/-! ### Thermal management -/

@[simp] theorem State.modThm_sanPolicy (g : Thm → Thm) : (s.modThm g).boot.sanPolicy = s.boot.sanPolicy := by simp [State.modThm]
@[simp] theorem State.endBayFlush_sanPolicy (b : Nat) : (s.endBayFlush b).boot.sanPolicy = s.boot.sanPolicy := by simp [State.endBayFlush]
@[simp] theorem State.bayEmergency_sanPolicy (b : Nat) : (s.bayEmergency b).boot.sanPolicy = s.boot.sanPolicy := by simp [State.bayEmergency]

@[simp] theorem State.stopGrazing_sanPolicy (a : Nat) (h : Option Nat) :
    (s.stopGrazing a h).boot.sanPolicy = s.boot.sanPolicy := by simp [State.stopGrazing]

@[simp] theorem State.bayEvent_sanPolicy (old : State) (b : Nat) : (s.bayEvent old b).boot.sanPolicy = s.boot.sanPolicy := by simp [State.bayEvent]

@[simp] theorem State.bayStep_sanPolicy (b : Nat) (x : Scope) (kind3 : Bool) :
    (s.bayStep b x kind3).boot.sanPolicy = s.boot.sanPolicy := by simp [State.bayStep]

@[simp] theorem State.dieStep_sanPolicy (x : Scope) : (s.dieStep x).boot.sanPolicy = s.boot.sanPolicy := by simp [State.dieStep]
@[simp] theorem State.headStep_sanPolicy (a h : Nat) (x : Scope) : (s.headStep a h x).boot.sanPolicy = s.boot.sanPolicy := by simp [State.headStep]
@[simp] theorem State.thermalReply_sanPolicy (k b : Nat) : (s.thermalReply k b).boot.sanPolicy = s.boot.sanPolicy := by simp [State.thermalReply]

@[simp] theorem State.thermalCtrl_sanPolicy (r : Requester) (act : Nat) (own : Nat → Nat → Nat) (k : State → Nat → Nat → State) (hk :
    ∀ u v w, (k u v w).boot.sanPolicy = u.boot.sanPolicy) : (s.thermalCtrl r act own k).boot.sanPolicy = s.boot.sanPolicy :=
  by simp [State.thermalCtrl, hk]

/-! ### The line cache -/

@[simp] theorem State.modCache_sanPolicy (g : CacheSt → CacheSt) : (s.modCache g).boot.sanPolicy = s.boot.sanPolicy := by simp [State.modCache]
@[simp] theorem State.startWalk_sanPolicy (g : Nat) : (s.startWalk g).boot.sanPolicy = s.boot.sanPolicy := by simp [State.startWalk]
@[simp] theorem State.wantGroup_sanPolicy (g : Nat) : (s.wantGroup g).boot.sanPolicy = s.boot.sanPolicy := by simp [State.wantGroup]
@[simp] theorem State.disableGroup_sanPolicy (g : Nat) : (s.disableGroup g).boot.sanPolicy = s.boot.sanPolicy := by simp [State.disableGroup]
@[simp] theorem State.enableGroup_sanPolicy (g : Nat) : (s.enableGroup g).boot.sanPolicy = s.boot.sanPolicy := by simp [State.enableGroup]
@[simp] theorem State.disableCache_sanPolicy : s.disableCache.boot.sanPolicy = s.boot.sanPolicy := by simp [State.disableCache]
@[simp] theorem State.enableCache_sanPolicy : s.enableCache.boot.sanPolicy = s.boot.sanPolicy := by simp [State.enableCache]
@[simp] theorem State.endWalk_sanPolicy (g : Nat) : (s.endWalk g).boot.sanPolicy = s.boot.sanPolicy := by simp [State.endWalk]
@[simp] theorem State.faultGroup_sanPolicy (g : Nat) : (s.faultGroup g).boot.sanPolicy = s.boot.sanPolicy := by simp [State.faultGroup]

/-! ### Scrubbing and layouts -/

@[simp] theorem State.poisonSlot_sanPolicy (order : Nat) : (s.poisonSlot order).boot.sanPolicy = s.boot.sanPolicy := by
  unfold State.poisonSlot
  dsimp only
  (repeat' split) <;> simp

@[simp] theorem State.fixedNow_sanPolicy (key : Nat) : (s.fixedNow key).boot.sanPolicy = s.boot.sanPolicy := by simp [State.fixedNow]
@[simp] theorem State.remapLine_sanPolicy (x : Nat) : (s.remapLine x).boot.sanPolicy = s.boot.sanPolicy := by simp [State.remapLine]
@[simp] theorem State.softRepair_sanPolicy (x : SoftRec) : (s.softRepair x).boot.sanPolicy = s.boot.sanPolicy := by simp [State.softRepair]

@[simp] theorem State.poisonOutcome_sanPolicy (u : LineUse) : (s.poisonOutcome u).boot.sanPolicy = s.boot.sanPolicy := by
  cases u
  case markhor shared => cases shared <;> simp [State.poisonOutcome]
  case ledger id =>
    simp only [State.poisonOutcome]
    (repeat' split) <;> simp
  all_goals simp [State.poisonOutcome]

@[simp] theorem State.repairOutcome_sanPolicy (u : LineUse) : (s.repairOutcome u).boot.sanPolicy = s.boot.sanPolicy := by
  cases u <;> simp [State.repairOutcome]

@[simp] theorem State.poisonAt_sanPolicy (x : Nat) (use : LineUse) : (s.poisonAt x use).boot.sanPolicy = s.boot.sanPolicy := by simp [State.poisonAt]
@[simp] theorem State.scrubDram_sanPolicy (r : ScrubRead) : (s.scrubDram r).boot.sanPolicy = s.boot.sanPolicy := by simp [State.scrubDram]

@[simp] theorem State.scrubHeld_sanPolicy (r : ScrubRead) (l : Line) :
    (s.scrubHeld r l).boot.sanPolicy = s.boot.sanPolicy := by simp [State.scrubHeld]

@[simp] theorem State.scrubSram_sanPolicy (r : ScrubRead) : (s.scrubSram r).boot.sanPolicy = s.boot.sanPolicy := by simp [State.scrubSram]

@[simp] theorem State.layoutReply_sanPolicy (k reason : Nat) (g : Nat → Area) :
    (s.layoutReply k reason g).boot.sanPolicy = s.boot.sanPolicy := by simp [State.layoutReply]

@[simp] theorem State.layoutSays_sanPolicy (k reason : Nat) : (s.layoutSays k reason).boot.sanPolicy = s.boot.sanPolicy := by simp [State.layoutSays]
@[simp] theorem State.clearPoison_sanPolicy (e : PoisonEnt) : (s.clearPoison e).boot.sanPolicy = s.boot.sanPolicy := by simp [State.clearPoison]

/-! ### Mailboxes -/

@[simp] theorem State.fwReply_sanPolicy (k reason slot : Nat) : (s.fwReply k reason slot).boot.sanPolicy = s.boot.sanPolicy := by simp [State.fwReply]

theorem State.refusedAction_sanPolicy (t : State) (k op : Nat) (p : List Byte) (h : s.refusedAction k op p = some t) :
    t.boot.sanPolicy = s.boot.sanPolicy := by
  revert t
  unfold State.refusedAction
  dsimp only
  repeat' apply ite_some_sanPolicy
  all_goals simp

@[simp] theorem State.goMbx_sanPolicy (k : Nat) (seq : BitVec 16) : (s.goMbx k seq).boot.sanPolicy = s.boot.sanPolicy := by
  have hrefused (t : State) (op : Nat) (p : List Byte) : ((t.refusedAction k op p).getD t).boot.sanPolicy = t.boot.sanPolicy := by
    cases h : t.refusedAction k op p with
    | none => rfl
    | some u => exact State.refusedAction_sanPolicy _ _ _ _ _ h
  unfold State.goMbx
  dsimp only
  (repeat' split) <;> simp [hrefused]

@[simp] theorem State.writeReqbuf_sanPolicy (k off : Nat) (data : List Byte) :
    (s.writeReqbuf k off data).boot.sanPolicy = s.boot.sanPolicy := by simp [State.writeReqbuf]

@[simp] theorem State.writeMbxReq_sanPolicy (k : Nat) (op len : BitVec 16) :
    (s.writeMbxReq k op len).boot.sanPolicy = s.boot.sanPolicy := by simp [State.writeMbxReq]

@[simp] theorem State.sqGone_sanPolicy (k key : Nat) : (s.sqGone k key).boot.sanPolicy = s.boot.sanPolicy := by simp [State.sqGone]

@[simp] theorem State.smbus_sanPolicy (pec : Bool) (g : State → State) (hg :
    ∀ u, (g u).boot.sanPolicy = u.boot.sanPolicy) : (s.smbus pec g).boot.sanPolicy = s.boot.sanPolicy := by simp [State.smbus, hg]

@[simp] theorem State.unfetch_sanPolicy (key : Nat) : (s.unfetch key).boot.sanPolicy = s.boot.sanPolicy := by simp [State.unfetch]

/-! ### Clock islands -/

@[simp] theorem State.dropSaved_sanPolicy (i : Nat) : (s.dropSaved i).boot.sanPolicy = s.boot.sanPolicy := by simp [State.dropSaved]
@[simp] theorem State.loseSlots_sanPolicy (a : Nat) : (s.loseSlots a).boot.sanPolicy = s.boot.sanPolicy := by simp [State.loseSlots]
@[simp] theorem State.islandEffect_sanPolicy (i : Nat) : (s.islandEffect i).boot.sanPolicy = s.boot.sanPolicy := by simp [State.islandEffect]

@[simp] theorem State.resetIsland_sanPolicy (i : Nat) (flight : Tab Nat) :
    (s.resetIsland i flight).boot.sanPolicy = s.boot.sanPolicy := by simp [State.resetIsland]

@[simp] theorem State.askIslandReset_sanPolicy (i : Nat) (flight : Tab Nat) :
    (s.askIslandReset i flight).boot.sanPolicy = s.boot.sanPolicy := by simp [State.askIslandReset]

@[simp] theorem State.modClk_sanPolicy (g : Clk → Clk) : (s.modClk g).boot.sanPolicy = s.boot.sanPolicy := by simp [State.modClk]
@[simp] theorem State.discipline_sanPolicy : s.discipline.boot.sanPolicy = s.boot.sanPolicy := by simp [State.discipline]

/-! ### Namespaces and epochs -/

@[simp] theorem State.raiseGen_sanPolicy (slot nsid : Nat) : (s.raiseGen slot nsid).boot.sanPolicy = s.boot.sanPolicy := by simp [State.raiseGen]
@[simp] theorem State.dropNs_sanPolicy (n : Nat) : (s.dropNs n).boot.sanPolicy = s.boot.sanPolicy := by simp [State.dropNs]

@[simp] theorem State.stageGrant_sanPolicy (r : Requester) (g : Bool) :
    (s.stageGrant r g).boot.sanPolicy = s.boot.sanPolicy := by simp [State.stageGrant]

@[simp] theorem State.attach_sanPolicy (n f : Nat) (on : Bool) : (s.attach n f on).boot.sanPolicy = s.boot.sanPolicy := by simp [State.attach]

@[simp] theorem State.serveAttach_sanPolicy (r : Requester) (g : Bool) :
    (s.serveAttach r g).boot.sanPolicy = s.boot.sanPolicy := by simp [State.serveAttach]

@[simp] theorem State.putGrant_sanPolicy (g : StagedGrant) : (s.putGrant g).boot.sanPolicy = s.boot.sanPolicy := by simp [State.putGrant]
@[simp] theorem State.epochApplied_sanPolicy : s.epochApplied.boot.sanPolicy = s.boot.sanPolicy := by simp [State.epochApplied]

@[simp] theorem State.reweigh_sanPolicy (a : Nat) (was now : EpochCfg) :
    (s.reweigh a was now).boot.sanPolicy = s.boot.sanPolicy := by simp [State.reweigh]

@[simp] theorem State.writePortRec_sanPolicy (r : PortRec) : (s.writePortRec r).boot.sanPolicy = s.boot.sanPolicy := by simp [State.writePortRec]

@[simp] theorem State.tallyWrite_sanPolicy (key : Nat) (body : List Byte) :
    (s.tallyWrite key body).boot.sanPolicy = s.boot.sanPolicy := by simp [State.tallyWrite]

/-! ### Firmware slots and starts -/

@[simp] theorem State.modSlot_sanPolicy (n : Nat) (g : Slot → Slot) : (s.modSlot n g).boot.sanPolicy = s.boot.sanPolicy := by simp [State.modSlot]

@[simp] theorem State.replaceLe_sanPolicy (n : Nat) : (s.replaceLe n).boot.sanPolicy = s.boot.sanPolicy := by
  refine (State.each_sanPolicy _ _ _ fun u b => ?_).trans ((State.each_sanPolicy _ _ _ fun u a => ?_).trans (by simp))
  · split <;> simp
  · split <;> simp

@[simp] theorem State.resumeFormat_sanPolicy (o : FmtOp) : (s.resumeFormat o).boot.sanPolicy = s.boot.sanPolicy := by simp [State.resumeFormat]
@[simp] theorem State.resumeSan_sanPolicy (o : SanOp) : (s.resumeSan o).boot.sanPolicy = s.boot.sanPolicy := by simp [State.resumeSan]
@[simp] theorem State.islandsUp_sanPolicy : s.islandsUp.boot.sanPolicy = s.boot.sanPolicy := by simp [State.islandsUp]
@[simp] theorem State.herdsUp_sanPolicy (img : SlotCheck) : (s.herdsUp img).boot.sanPolicy = s.boot.sanPolicy := by simp [State.herdsUp]

@[simp] theorem State.completeStart_sanPolicy (img : SlotCheck) (failedDe failedLe : List Nat) :
    (s.completeStart img failedDe failedLe).boot.sanPolicy = s.boot.sanPolicy := by simp [State.completeStart]

@[simp] theorem State.serveReset_sanPolicy (r : Requester) (action : Nat) :
    (s.serveReset r action).boot.sanPolicy = s.boot.sanPolicy := by simp [State.serveReset]

/-! ### Configuration space -/

@[simp] theorem State.writeCommand_sanPolicy (f : Nat) (v : BitVec 64) :
    (s.writeCommand f v).boot.sanPolicy = s.boot.sanPolicy := by simp [State.writeCommand]

@[simp] theorem State.writeCfg_sanPolicy (f : Nat) (sp : RegSpace) (i : Nat) (v : BitVec 64) :
    (s.writeCfg f sp i v).boot.sanPolicy = s.boot.sanPolicy := by
  unfold State.writeCfg
  (repeat' split) <;> simp

/-! ### Activation -/

@[simp] theorem State.serveFw_sanPolicy (r : Requester) (act : Nat) (ok : List Byte → Bool) (go : State → List Byte → State × Nat)
    (hg : ∀ u p, (go u p).1.boot.sanPolicy = u.boot.sanPolicy) : (s.serveFw r act ok go).boot.sanPolicy = s.boot.sanPolicy :=
  State.serveFw_induction (P := fun t => t.boot.sanPolicy = s.boot.sanPolicy) rfl (fun u k reason n hu => by simpa using hu)
    fun p => hg s p

@[simp] theorem State.prefer_sanPolicy (n : Nat) : (s.prefer n).boot.sanPolicy = s.boot.sanPolicy := by simp [State.prefer]
@[simp] theorem State.placeHolds_sanPolicy (x : Act16) (u : Nat) : (s.placeHolds x u).boot.sanPolicy = s.boot.sanPolicy := by simp [State.placeHolds]
@[simp] theorem State.endHold_sanPolicy (as : List Nat) : (s.endHold as).boot.sanPolicy = s.boot.sanPolicy := by simp [State.endHold]
@[simp] theorem State.actOver_sanPolicy (st comp : Nat) : (s.actOver st comp).boot.sanPolicy = s.boot.sanPolicy := by simp [State.actOver]
@[simp] theorem State.actDone_sanPolicy (x : Act16) : (s.actDone x).boot.sanPolicy = s.boot.sanPolicy := by simp [State.actDone]

@[simp] theorem State.rollNext_sanPolicy (x : Act16) : (s.rollNext x).boot.sanPolicy = s.boot.sanPolicy := by
  unfold State.rollNext
  split <;> simp

@[simp] theorem State.actFails_sanPolicy (x : Act16) (type : Nat) : (s.actFails x type).boot.sanPolicy = s.boot.sanPolicy := by simp [State.actFails]
@[simp] theorem State.goUnit_sanPolicy (x : Act16) (u : Nat) : (s.goUnit x u).boot.sanPolicy = s.boot.sanPolicy := by simp [State.goUnit]
@[simp] theorem State.unitDone_sanPolicy (x : Act16) : (s.unitDone x).boot.sanPolicy = s.boot.sanPolicy := by simp [State.unitDone]

/-! ### Power loss -/

@[simp] theorem State.endRoutine_sanPolicy (a : Nat) : (s.endRoutine a).boot.sanPolicy = s.boot.sanPolicy := by simp [State.endRoutine]
@[simp] theorem State.beginFlush_sanPolicy (a : Nat) : (s.beginFlush a).boot.sanPolicy = s.boot.sanPolicy := by simp [State.beginFlush]

/-! ### Quarantine, keys and sanitize -/

@[simp] theorem State.quarReply_sanPolicy (k reason b : Nat) : (s.quarReply k reason b).boot.sanPolicy = s.boot.sanPolicy := by simp [State.quarReply]

@[simp] theorem State.keyReply_sanPolicy (k reason x : Nat) (blob : List Byte) :
    (s.keyReply k reason x blob).boot.sanPolicy = s.boot.sanPolicy := by simp [State.keyReply]

@[simp] theorem State.sanReply_sanPolicy (k reason id : Nat) : (s.sanReply k reason id).boot.sanPolicy = s.boot.sanPolicy := by simp [State.sanReply]

@[simp] theorem State.enterSanitize_sanPolicy (kind : Nat) (ns : List Nat) :
    (s.enterSanitize kind ns).boot.sanPolicy = s.boot.sanPolicy := by simp [State.enterSanitize]

@[simp] theorem State.serveSanitize_sanPolicy (r : Requester) (kind : Nat) :
    (s.serveSanitize r kind).boot.sanPolicy = s.boot.sanPolicy := by simp [State.serveSanitize]

/-! ### Registers -/

@[simp] theorem State.afterRead_sanPolicy (f off : Nat) : (s.afterRead f off).boot.sanPolicy = s.boot.sanPolicy := by simp [State.afterRead]

@[simp] theorem State.read4_sanPolicy (f off : Nat) : (s.read4 f off).2.boot.sanPolicy = s.boot.sanPolicy := by
  unfold State.read4
  (repeat' split) <;> simp

@[simp] theorem State.readReg_sanPolicy (f off : Nat) (wide : Bool) : (s.readReg f off wide).boot.sanPolicy = s.boot.sanPolicy := by
  unfold State.readReg
  dsimp only
  split <;> simp

@[simp] theorem State.access_sanPolicy (f off : Nat) (wide posted : Bool) (k : State → State)
    (hk : ∀ u, (k u).boot.sanPolicy = u.boot.sanPolicy) : (s.access f off wide posted k).boot.sanPolicy = s.boot.sanPolicy :=
  State.access_induction (P := fun t => t.boot.sanPolicy = s.boot.sanPolicy) rfl (by simp) fun _ => hk _

@[simp] theorem State.readBar0_sanPolicy (f off : Nat) (wide : Bool) :
    (s.readBar0 f off wide).boot.sanPolicy = s.boot.sanPolicy := by simp [State.readBar0]

@[simp] theorem State.noteDebug_sanPolicy (old : State) : (s.noteDebug old).boot.sanPolicy = s.boot.sanPolicy := by simp [State.noteDebug]
@[simp] theorem State.writeLck_sanPolicy (v : Word) : (s.writeLck v).boot.sanPolicy = s.boot.sanPolicy := by simp [State.writeLck]
@[simp] theorem State.writeDbg_sanPolicy (v : Word) : (s.writeDbg v).boot.sanPolicy = s.boot.sanPolicy := by simp [State.writeDbg]
@[simp] theorem State.writeFwkey_sanPolicy (v : Word) : (s.writeFwkey v).boot.sanPolicy = s.boot.sanPolicy := by simp [State.writeFwkey]

@[simp] theorem State.clearLatch_sanPolicy (p n : Nat) (v : Word) :
    (s.clearLatch p n v).boot.sanPolicy = s.boot.sanPolicy := by simp [State.clearLatch]

@[simp] theorem State.clearFnLatch_sanPolicy (f : Nat) (v : Word) :
    (s.clearFnLatch f v).boot.sanPolicy = s.boot.sanPolicy := by simp [State.clearFnLatch]

@[simp] theorem State.modSel_sanPolicy (p : Nat) (g : PfSel → PfSel) : (s.modSel p g).boot.sanPolicy = s.boot.sanPolicy := by simp [State.modSel]
@[simp] theorem State.modStaged_sanPolicy (g : EpochCfg → EpochCfg) : (s.modStaged g).boot.sanPolicy = s.boot.sanPolicy := by simp [State.modStaged]

@[simp] theorem State.writeStaged_sanPolicy (off : Nat) (v : Word) :
    (s.writeStaged off v).boot.sanPolicy = s.boot.sanPolicy := by simp [State.writeStaged]

@[simp] theorem State.writeLcCtrl_sanPolicy (v : Word) : (s.writeLcCtrl v).boot.sanPolicy = s.boot.sanPolicy := by simp [State.writeLcCtrl]
@[simp] theorem State.writeClk_sanPolicy (v : Word) : (s.writeClk v).boot.sanPolicy = s.boot.sanPolicy := by simp [State.writeClk]

@[simp] theorem State.writePort_sanPolicy (p off : Nat) (v : Word) :
    (s.writePort p off v).boot.sanPolicy = s.boot.sanPolicy := by simp [State.writePort]

@[simp] theorem State.clearXing_sanPolicy (p : Nat) (v : Word) : (s.clearXing p v).boot.sanPolicy = s.boot.sanPolicy := by simp [State.clearXing]
@[simp] theorem State.writeDiag_sanPolicy (off : Nat) (v : Word) : (s.writeDiag off v).boot.sanPolicy = s.boot.sanPolicy := by simp [State.writeDiag]

@[simp] theorem State.writeTalHead_sanPolicy (f k : Nat) (v : Word) :
    (s.writeTalHead f k v).boot.sanPolicy = s.boot.sanPolicy := by simp [State.writeTalHead]

@[simp] theorem State.writeDb_sanPolicy (f o : Nat) (v : Word) : (s.writeDb f o v).boot.sanPolicy = s.boot.sanPolicy := by simp [State.writeDb]
@[simp] theorem State.writeFn_sanPolicy (f off : Nat) (v : Word) : (s.writeFn f off v).boot.sanPolicy = s.boot.sanPolicy := by simp [State.writeFn]

end

end Sys2Proof.Machine

/-! ## O54, O56, O48, O49 and O50: what only few commands may write -/

namespace Sys2Proof.Machine

open Sys2Proof

/-- What few commands may write: the queue of waiting commands, LCK_CTRL and DBG_CTRL, BOOT_SVN.MIN and SAN_POLICY.MODE. -/
def State.guarded (s : State) : List Instr × (BitVec 7 × Bool × Bool) × BitVec 7 × BitVec 2 :=
  (s.pending, s.glb.locks, s.boot.svnMin, s.boot.sanPolicy)

theorem State.guarded_eq_iff {s t : State} :
    t.guarded = s.guarded ↔
      t.pending = s.pending ∧ t.glb.locks = s.glb.locks ∧ t.boot.svnMin = s.boot.svnMin ∧ t.boot.sanPolicy = s.boot.sanPolicy := by
  simp only [State.guarded, Prod.mk.injEq]

/-- A command on `s` with the outcome `o` writes nothing guarded. -/
def KeepsGuarded (s : State) (o : Host.Outcome State Fault Refusal) : Prop := ∀ t, o = .next t → t.guarded = s.guarded

theorem keepsGuarded_next {s t : State} (h : t.guarded = s.guarded) : KeepsGuarded s (.next t) := by
  rintro _ ⟨⟩
  exact h

theorem keepsGuarded_serve {s : State} {r : Requester} {op : Nat} {act : Option Nat} {k : List Byte → State}
    (hk : ∀ p, (k p).guarded = s.guarded) : KeepsGuarded s (.next (s.serve r op act k)) :=
  keepsGuarded_next (State.serve_induction (P := fun t => t.guarded = s.guarded) rfl hk)

theorem keepsGuarded_serveFw {s : State} {r : Requester} {act : Nat} {ok : List Byte → Bool} {go : State → List Byte → State × Nat}
    (hgo : ∀ p, (go s p).1.guarded = s.guarded) : KeepsGuarded s (.next (s.serveFw r act ok go)) :=
  keepsGuarded_next (State.serveFw_induction (P := fun t => t.guarded = s.guarded) rfl
    (fun u k reason n hu => Eq.trans (by simp [State.guarded]) hu) hgo)

@[simp] theorem Boot.endRun_svnMin (b : Boot) (cause : Nat) : (b.endRun cause).svnMin = b.svnMin := by
  unfold Boot.endRun
  (repeat' split) <;> rfl

/-! ### The commands that write nothing guarded -/

/-- The commands that may write a guarded field: a cold reset, a register write, and the raise of BOOT_SVN.MIN. -/
def mayWriteGuarded : Instr → Bool
  | .coldRstAssert .. | .coldRstDeassert .. | .registerWrite .. | .lckCtrlWrite .. | .dbgCtrlWrite .. | .fwRaiseSvn .. => true
  | _ => false

theorem exec_keepsGuarded (c : Instr) (s : State) (hc : mayWriteGuarded c = false) : KeepsGuarded s (exec c s) := by
  cases c
  -- these may write
  case coldRstAssert | coldRstDeassert | registerWrite | lckCtrlWrite | dbgCtrlWrite | fwRaiseSvn => cases hc
  -- mailbox messages whose reply depends on the request
  case fwErase | fwSetPreferred | fwVerify | fwWrite | fwActivate =>
    exact keepsGuarded_serveFw fun p => by dsimp only; (repeat' split) <;> simp [State.guarded]
  case fwCancelActivation =>
    exact keepsGuarded_serveFw fun p => by (repeat' split) <;> simp [State.guarded]
  case sanitizeStatus | mediaFormatStatus =>
    exact keepsGuarded_serve fun p => by (repeat' split) <;> simp [State.guarded]
  case loopMigrateActuator | loopMigrateSpindle | poisonClear | tallyRingCreate | tallyRingDelete | tallyRingStatus =>
    exact keepsGuarded_serve fun p => by dsimp only; (repeat' split) <;> simp [State.guarded]
  case keyGenerate =>
    exact keepsGuarded_serve fun p => by dsimp only; (repeat' split) <;> simp [State.guarded, State.wrapped]
  case powerStatus =>
    exact keepsGuarded_serve fun p => by dsimp only [State.exitMs]; (repeat' split) <;> simp [State.guarded]
  -- the kind of the operand decides
  case ceilingStepTimer b => cases b <;> exact keepsGuarded_next (by simp [State.guarded])
  -- what look-ups in turn find decides
  case submissionFetchIssue | zoneReport | flush | abort | recoveryList | contRead | flushComplete | abortComplete |
      backgroundRecoveryTimeout | registerLowHalfRead | formatStart | sectorFraming | detectionNotice | iterationBoundary | readRun |
      readReplay | readAverage | assistCal | channelCal | waymarkPassed | assistFeedback | spinUpTokenGrant | layoutReadPending |
      clockSwitch | mailboxDeferredResponse | flashRecordWritten | activationHoldStart | sanitizeWaitEnd | roundRedetectionDone |
      actuatorRun | spindleActionStart | startImageInvalid | markhorCoreSwitch | scrubLineRead | mergeEntryAge =>
    exact keepsGuarded_next (by (repeat' split) <;> simp [State.guarded])
  case sectorDelivery | replayLlrsReady | squeezeCheck | writeRecord | romFaultRoutine | routineRestart | migrationTaken | limpExit |
      spindleRun | relockAttemptEnd | cfgCommit | formatterIdle | coreSwitchTimeout | deviceLevelReset =>
    exact keepsGuarded_next (by dsimp only; (repeat' split) <;> simp [State.guarded])
  -- shared operations in turn, each with its own rule
  all_goals exact keepsGuarded_next (by simp [State.guarded])

/-! ### Cold resets and the raise of BOOT_SVN.MIN -/

theorem coldRstAssert_keeps {ns : Nat} {s t : State} (h : exec (.coldRstAssert ns) s = .next t) :
    t.pending = s.pending ∧ t.boot.svnMin = s.boot.svnMin := by
  simp only [exec, execColdRstAssert] at h
  split at h
  · cases h
    exact ⟨rfl, rfl⟩
  · split at h
    · cases h
    · cases h
      exact ⟨rfl, rfl⟩

theorem coldRstDeassert_keeps {st : Straps} {bad lost : List Nat} {s t : State} (h : exec (.coldRstDeassert st bad lost) s = .next t) :
    t.pending = s.pending ∧ t.boot.svnMin = s.boot.svnMin := by
  cases h
  split
  · exact ⟨rfl, rfl⟩
  · dsimp only
    split <;> simp

theorem fwRaiseSvn_keeps {r : Requester} {s t : State} (h : exec (.fwRaiseSvn r) s = .next t) :
    t.pending = s.pending ∧ t.glb.locks = s.glb.locks ∧ t.boot.sanPolicy = s.boot.sanPolicy := by
  cases h
  exact ⟨State.serveFw_pending _ _ _ _ _ fun u p => rfl, State.serveFw_locks _ _ _ _ _ fun u p => rfl,
    State.serveFw_sanPolicy _ _ _ _ _ fun u p => rfl⟩

/-- Of the 7 bits of MIN, the larger of a MIN and a version within the 64 fuse bits is at least MIN (16 R413). -/
theorem svnMin_le_raised (m : BitVec 7) (n : BitVec 32) : m ≤ BitVec.ofNat 7 (max m.toNat (min 64 n.toNat)) := by
  have hm : m.toNat < 128 := m.isLt
  rw [BitVec.le_def, BitVec.toNat_ofNat, Nat.mod_eq_of_lt (by omega)]
  exact Nat.le_max_left ..

theorem fwRaiseSvn_svnMin_le {r : Requester} {s t : State} (h : exec (.fwRaiseSvn r) s = .next t) : s.boot.svnMin ≤ t.boot.svnMin := by
  cases h
  exact State.serveFw_induction (P := fun t => s.boot.svnMin ≤ t.boot.svnMin) (BitVec.le_refl _)
    (fun u k reason n hu => by simpa using hu) fun p => svnMin_le_raised s.boot.svnMin s.boot.svnRun

/-! ### The queue, and the fused minimum version -/

/-- Settles O54: no command writes the queue, not even one of those that may write what else is guarded. -/
theorem noCommandTouchesTheQueue : Obligations.NoCommandTouchesTheQueue := by
  intro c s t h
  cases hc : mayWriteGuarded c with
  | false => exact (State.guarded_eq_iff.1 (exec_keepsGuarded c s hc t h)).1
  | true =>
    cases c
    case coldRstAssert => exact (coldRstAssert_keeps h).1
    case coldRstDeassert => exact (coldRstDeassert_keeps h).1
    case fwRaiseSvn => exact (fwRaiseSvn_keeps h).1
    case lckCtrlWrite | dbgCtrlWrite =>
      cases h
      simp
    case registerWrite f sp off wide data fl =>
      cases h
      cases sp <;> simp
    all_goals cases hc

/-- BOOT_SVN.MIN lies in fuses, which a cold reset keeps, and only FW_CTRL action 5 blows one (16 R413). -/
theorem exec_svnMin {c : Instr} {s t : State} (h : exec c s = .next t) (hraise : ∀ r, c ≠ .fwRaiseSvn r) :
    t.boot.svnMin = s.boot.svnMin := by
  cases hc : mayWriteGuarded c with
  | false =>
    obtain ⟨_, _, hsvn, _⟩ := State.guarded_eq_iff.1 (exec_keepsGuarded c s hc t h)
    exact hsvn
  | true =>
    cases c
    case coldRstAssert => exact (coldRstAssert_keeps h).2
    case coldRstDeassert => exact (coldRstDeassert_keeps h).2
    case fwRaiseSvn r => exact absurd rfl (hraise r)
    case lckCtrlWrite | dbgCtrlWrite =>
      cases h
      simp
    case registerWrite f sp off wide data fl =>
      cases h
      cases sp <;> simp
    all_goals cases hc

/-- Settles O56: FW_CTRL action 5 raises the minimum version, and every other command leaves it. -/
theorem theFusedMinimumVersionNeverFalls : Obligations.TheFusedMinimumVersionNeverFalls := by
  intro c s t h
  refine ⟨?_, exec_svnMin h⟩
  by_cases hraise : ∃ r, c = .fwRaiseSvn r
  · obtain ⟨r, rfl⟩ := hraise
    exact fwRaiseSvn_svnMin_le h
  · rw [exec_svnMin h (not_exists.1 hraise)]
    exact BitVec.le_refl _

end Sys2Proof.Machine

/-! ## O49, O48 and O50: the locks -/

namespace Sys2Proof.Machine

open Sys2Proof

/-! ### What a step keeps of the locks -/

/-- From `s` to `t` the locks hold: a lock bit stays set, and SAN_POLICY.MODE stays while its lock is set (16 R425, R433). -/
def LocksHold (s t : State) : Prop :=
  t.glb.lck &&& s.glb.lck = s.glb.lck ∧ (s.glb.lck.getLsbD 6 = true → t.boot.sanPolicy = s.boot.sanPolicy)

theorem Glb.locks_eq_iff {g : Glb} {lck : BitVec 7} {diag jtag : Bool} :
    g.locks = (lck, diag, jtag) ↔ g.lck = lck ∧ g.diagEn = diag ∧ g.jtagDbg = jtag := by
  rw [Glb.locks, Prod.mk.injEq, Prod.mk.injEq]

theorem lck_of_locks {s t : State} (h : t.glb.locks = s.glb.locks) : t.glb.lck = s.glb.lck := congrArg Prod.fst h

theorem or_and_left {w : Nat} (a b : BitVec w) : (a ||| b) &&& a = a := by
  ext i hi
  simp +contextual

theorem LocksHold.of_eq {s t : State} (hlocks : t.glb.locks = s.glb.locks) (hpolicy : t.boot.sanPolicy = s.boot.sanPolicy) : LocksHold s t :=
  ⟨by rw [lck_of_locks hlocks, BitVec.and_self], fun _ => hpolicy⟩

theorem LocksHold.trans {s t u : State} (hst : LocksHold s t) (htu : LocksHold t u) : LocksHold s u := by
  obtain ⟨hset, hmode⟩ := hst
  obtain ⟨hset', hmode'⟩ := htu
  refine ⟨by rw [← hset, ← BitVec.and_assoc, hset'], fun hlock => (hmode' ?_).trans (hmode hlock)⟩
  rw [← hset, BitVec.getLsbD_and, Bool.and_eq_true] at hlock
  exact hlock.1

theorem State.noteDebug_glb (s old : State) : (s.noteDebug old).glb = s.glb := by
  unfold State.noteDebug
  split <;> rfl

theorem State.writeLck_lck (s : State) (v : Word) : (s.writeLck v).glb.lck = s.glb.lck ||| v.setWidth 7 := by
  unfold State.writeLck
  dsimp only
  split
  · next heq => exact heq.symm
  · rw [State.noteDebug_glb]
    rfl

/-- The steward's write of DBG_CTRL as LCK_CTRL.DIAG and LCK_CTRL.JTAG let it act (16 R426, R427). -/
theorem State.writeDbg_locks (s : State) (v : Word) :
    (s.writeDbg v).glb.locks = (s.glb.lck, if s.glb.lck.getLsbD 4 then s.glb.diagEn else v.getLsbD 0,
      v.getLsbD 1 && !s.glb.lck.getLsbD 5 && (s.glb.jtagDbg || s.keysLoaded == 0)) :=
  congrArg Glb.locks (State.noteDebug_glb ..)

theorem State.writeDbg_lck (s : State) (v : Word) : (s.writeDbg v).glb.lck = s.glb.lck := congrArg Prod.fst (s.writeDbg_locks v)

/-! ### Register writes (16 R425, R426, R433; 17 R440) -/

/-- A steward-only register that is neither LCK_CTRL nor DBG_CTRL changes neither. -/
theorem State.writeOwn_locks {s t : State} {off : Nat} {v : Word} {fl : Tab Nat} (h : s.writeOwn off v fl = some t) (hlck : off ≠ 0x4000)
    (hdbg : off ≠ 0x4004) : t.glb.locks = s.glb.locks := by
  revert t
  simp only [State.writeOwn, if_neg hlck, if_neg hdbg]
  repeat' apply ite_some_locks
  all_goals simp

/-- SAN_POLICY is written at its own offset, and only while its lock is clear. -/
theorem State.writeOwn_sanPolicy {s t : State} {off : Nat} {v : Word} {fl : Tab Nat} (h : s.writeOwn off v fl = some t)
    (hpolicy : off = 0x80700 → s.glb.lck.getLsbD 6 = true) : t.boot.sanPolicy = s.boot.sanPolicy := by
  by_cases hoff : off = 0x80700
  · have hsame : s.writeOwn off v fl = some s := by simp [State.writeOwn, hoff, hpolicy hoff]
    rw [← Option.some.inj (hsame.symm.trans h)]
  · revert t
    simp only [State.writeOwn, if_neg hoff]
    repeat' apply ite_some_sanPolicy
    all_goals simp

theorem State.writeOwn_locksHold {s t : State} {off : Nat} {v : Word} {fl : Tab Nat} (h : s.writeOwn off v fl = some t) : LocksHold s t := by
  refine ⟨?_, fun hlock => State.writeOwn_sanPolicy h fun _ => hlock⟩
  by_cases hlck : off = 0x4000
  · subst hlck
    obtain rfl : s.writeLck v = t := Option.some.inj h
    rw [State.writeLck_lck, or_and_left]
  · by_cases hdbg : off = 0x4004
    · subst hdbg
      obtain rfl : s.writeDbg v = t := Option.some.inj h
      rw [State.writeDbg_lck, BitVec.and_self]
    · rw [lck_of_locks (State.writeOwn_locks h hlck hdbg), BitVec.and_self]

theorem State.writePf_locksHold (s : State) (f off : Nat) (v : Word) (fl : Tab Nat) : LocksHold s (s.writePf f off v fl) := by
  unfold State.writePf
  dsimp only
  split
  · exact .of_eq (by simp) (by simp)
  · split
    · next t hown =>
      split
      · exact State.writeOwn_locksHold hown
      · exact .of_eq (by simp) (by simp)
    · split
      · exact .of_eq (by simp) (by simp)
      · exact .of_eq (by simp) (by simp)

theorem State.writePf_locks {s : State} {f off : Nat} (v : Word) (fl : Tab Nat)
    (h : s.isSteward f = false ∨ off ≠ 0x4000 ∧ off ≠ 0x4004) : (s.writePf f off v fl).glb.locks = s.glb.locks := by
  unfold State.writePf
  dsimp only
  split
  · simp
  · split
    · next t hown =>
      split
      · next hsteward =>
        obtain hnot | ⟨hlck, hdbg⟩ := h
        · simp [hnot] at hsteward
        · exact State.writeOwn_locks hown hlck hdbg
      · simp
    · split <;> simp

theorem State.write4_locksHold (s : State) (f off : Nat) (v : Word) (fl : Tab Nat) : LocksHold s (s.write4 f off v fl) := by
  unfold State.write4
  split
  · exact s.writePf_locksHold f off v fl
  · exact .of_eq (by simp) (by simp)

theorem State.write4_locks {s : State} {f off : Nat} (v : Word) (fl : Tab Nat)
    (h : s.isSteward f = false ∨ off ≠ 0x4000 ∧ off ≠ 0x4004) : (s.write4 f off v fl).glb.locks = s.glb.locks := by
  unfold State.write4
  split
  · exact State.writePf_locks v fl h
  · simp

theorem State.isSteward_of_not_pf {s : State} {f : Nat} (h : isPf f = false) : s.isSteward f = false := by
  rw [State.isSteward, show (f % 64 == 0) = false from h, Bool.false_and]

theorem State.ignoreWrite_isSteward (s : State) (f g : Nat) : (s.ignoreWrite f).isSteward g = s.isSteward g := by
  simp [State.isSteward, State.stewardPort, State.ignoreWrite]

/-- A function that is not the steward does not become it by writing LCK_CTRL. -/
theorem State.write4_lckCtrl_isSteward {s : State} {f : Nat} (v : Word) (fl : Tab Nat) (hnot : s.isSteward f = false) :
    (s.write4 f 0x4000 v fl).isSteward f = false := by
  cases hpf : isPf f with
  | false => exact State.isSteward_of_not_pf hpf
  | true =>
    have hignored : s.write4 f 0x4000 v fl = s.ignoreWrite f := by
      simp [State.write4, State.writePf, State.writeOwn, isStaged, hpf, hnot]
    rw [hignored, State.ignoreWrite_isSteward, hnot]

theorem State.writeReg_locksHold (s : State) (f off : Nat) (wide : Bool) (data : BitVec 64) (fl : Tab Nat) :
    LocksHold s (s.writeReg f off wide data fl) := by
  unfold State.writeReg
  dsimp only
  split
  · exact (s.write4_locksHold f off _ fl).trans (State.write4_locksHold ..)
  · exact s.write4_locksHold f off _ fl

/-- Of the two halves of an aligned 8-byte access that meets LCK_CTRL or DBG_CTRL, the lower is LCK_CTRL, which a function that is not the
steward leaves as it was, its authority with it. -/
theorem State.writeReg_locks {s : State} {f off : Nat} {wide : Bool} (data : BitVec 64) (fl : Tab Nat) (hnot : s.isSteward f = false)
    (halign : aligned off wide = true) : (s.writeReg f off wide data fl).glb.locks = s.glb.locks := by
  have hlow : (s.write4 f off (data.setWidth 32) fl).glb.locks = s.glb.locks := State.write4_locks _ fl (.inl hnot)
  unfold State.writeReg
  dsimp only
  split
  · next hwide =>
    refine (State.write4_locks _ fl ?_).trans hlow
    by_cases hoff : off = 0x4000
    · exact .inl (hoff ▸ State.write4_lckCtrl_isSteward _ fl hnot)
    · have hlow8 : off % 8 = 0 := by simpa [aligned, hwide] using halign
      exact .inr ⟨by omega, by omega⟩
  · exact hlow

/-! ### Accesses by a function that is not the steward -/

theorem State.aerLog_glb (s : State) (f b : Nat) (adv : Bool) (hdr : Option Nat) : (s.aerLog f b adv hdr).glb = s.glb := by
  unfold State.aerLog
  dsimp only
  (repeat' split) <;> simp

theorem State.refuseAny_glb (s : State) (f cause : Nat) (posted : Bool) : (s.refuseAny f cause posted).glb = s.glb := by
  unfold State.refuseAny State.refuseReq
  dsimp only
  (repeat' split) <;> simp [State.aerLog_glb]

theorem State.stewardWrite_glb {s : State} {f : Nat} (k : State → State) (hnot : s.isSteward f = false) : (s.stewardWrite f k).glb = s.glb :=
  State.stewardWrite_induction (P := fun t => t.glb = s.glb) rfl (fun cause => State.refuseAny_glb ..) rfl (by simp [State.ignoreWrite])
    fun hsteward => absurd hsteward (by simp [hnot])

/-! ### Locks and SAN_POLICY.MODE along every command -/

theorem State.stewardWrite_locksHold {s : State} {f : Nat} {k : State → State} (hk : ∀ u, LocksHold u (k u)) :
    LocksHold s (s.stewardWrite f k) :=
  State.stewardWrite_induction (.of_eq rfl rfl) (fun cause => .of_eq (by simp) (by simp)) (.of_eq rfl rfl) (.of_eq (by simp) (by simp))
    fun _ => LocksHold.trans (.of_eq rfl rfl) (hk _)

theorem State.access_locksHold {s : State} {f off : Nat} {wide posted : Bool} {k : State → State} (hk : ∀ u, LocksHold u (k u)) :
    LocksHold s (s.access f off wide posted k) :=
  State.access_induction (.of_eq rfl rfl) (fun cause => .of_eq (by simp) (by simp)) fun _ => LocksHold.trans (.of_eq rfl rfl) (hk _)

theorem State.writeLck_locksHold (s : State) (v : Word) : LocksHold s (s.writeLck v) :=
  State.writeOwn_locksHold (off := 0x4000) (fl := []) rfl

theorem State.writeDbg_locksHold (s : State) (v : Word) : LocksHold s (s.writeDbg v) :=
  State.writeOwn_locksHold (off := 0x4004) (fl := []) rfl

/-- The commands of a cold reset: the assertion of COLD_RST_N, and its end (18 R449). -/
def coldReset : Instr → Bool
  | .coldRstAssert .. | .coldRstDeassert .. => true
  | _ => false

theorem coldReset_eq_false_iff (c : Instr) :
    coldReset c = false ↔ (∀ ns, c ≠ .coldRstAssert ns) ∧ ∀ st bad lost, c ≠ .coldRstDeassert st bad lost := by
  cases c <;> simp [coldReset]

/-- Along every command but a cold reset's the locks hold (16 R425, R433). -/
theorem exec_locksHold {c : Instr} {s t : State} (h : exec c s = .next t) (hc : coldReset c = false) : LocksHold s t := by
  cases hg : mayWriteGuarded c with
  | false =>
    obtain ⟨_, hlocks, _, hpolicy⟩ := State.guarded_eq_iff.1 (exec_keepsGuarded c s hg t h)
    exact .of_eq hlocks hpolicy
  | true =>
    cases c
    case coldRstAssert | coldRstDeassert => cases hc
    case lckCtrlWrite f v =>
      cases h
      exact State.stewardWrite_locksHold fun u => u.writeLck_locksHold v
    case dbgCtrlWrite f v =>
      cases h
      exact State.stewardWrite_locksHold fun u => u.writeDbg_locksHold v
    case fwRaiseSvn r =>
      obtain ⟨_, hlocks, hpolicy⟩ := fwRaiseSvn_keeps h
      exact .of_eq hlocks hpolicy
    case registerWrite f sp off wide data fl =>
      cases h
      cases sp
      case bar0 => exact State.access_locksHold fun u => u.writeReg_locksHold ..
      all_goals exact .of_eq (by simp) (by simp)
    all_goals cases hg

theorem State.isSteward_of_stewardWrite {s : State} {f : Nat} {k : State → State} (hne : (s.stewardWrite f k).glb.locks ≠ s.glb.locks) :
    s.isSteward f = true := by
  by_contra hnot
  exact hne (congrArg Glb.locks (State.stewardWrite_glb k (Bool.eq_false_of_not_eq_true hnot)))

theorem State.isSteward_of_writeReg {s : State} {f off : Nat} {wide : Bool} {data : BitVec 64} {fl : Tab Nat}
    (hne : (s.access f off wide true fun u => u.writeReg f off wide data fl).glb.locks ≠ s.glb.locks) : s.isSteward f = true := by
  by_contra hnot
  refine hne (State.access_induction (P := fun t => t.glb.locks = s.glb.locks) rfl (by simp) fun halign => ?_)
  rw [State.writeReg_locks data fl (by simpa [State.touch_isSteward] using hnot) halign, State.touch_glb]

/-- LCK_CTRL and DBG_CTRL are the steward's to write (16 R425, R426; 17 R440). -/
theorem exec_changes_locks {c : Instr} {s t : State} (h : exec c s = .next t) (hc : coldReset c = false) (hne : t.glb.locks ≠ s.glb.locks) :
    ∃ f : FnId, s.isSteward f.val = true ∧
      ((∃ v, c = .lckCtrlWrite f v) ∨ (∃ v, c = .dbgCtrlWrite f v) ∨ ∃ off w d fl, c = .registerWrite f .bar0 off w d fl) := by
  cases hg : mayWriteGuarded c with
  | false =>
    obtain ⟨_, hlocks, _, _⟩ := State.guarded_eq_iff.1 (exec_keepsGuarded c s hg t h)
    exact absurd hlocks hne
  | true =>
    cases c
    case coldRstAssert | coldRstDeassert => cases hc
    case lckCtrlWrite f v =>
      cases h
      exact ⟨f, State.isSteward_of_stewardWrite hne, .inl ⟨v, rfl⟩⟩
    case dbgCtrlWrite f v =>
      cases h
      exact ⟨f, State.isSteward_of_stewardWrite hne, .inr (.inl ⟨v, rfl⟩)⟩
    case fwRaiseSvn r =>
      obtain ⟨_, hlocks, _⟩ := fwRaiseSvn_keeps h
      exact absurd hlocks hne
    case registerWrite f sp off wide data fl =>
      cases h
      cases sp
      case bar0 => exact ⟨f, State.isSteward_of_writeReg hne, .inr (.inr ⟨off, wide, data, fl, rfl⟩)⟩
      all_goals exact absurd (by simp) hne
    all_goals cases hg

/-- Settles O49: along every command the locks hold, only the steward's writes change them, and its write of LCK_CTRL ORs. -/
theorem lockBitsStaySetUntilAColdReset : Obligations.LockBitsStaySetUntilAColdReset := by
  refine ⟨?held, ?ignored, ?written⟩
  case held =>
    intro c s t h hc
    have hc := (coldReset_eq_false_iff c).2 hc
    refine ⟨(exec_locksHold h hc).1, fun hne => exec_changes_locks h hc fun heq => ?_⟩
    obtain ⟨hlck, hdiag, hjtag⟩ := Glb.locks_eq_iff.1 heq
    simp [hlck, hdiag, hjtag] at hne
  case ignored =>
    intro f v s hnot
    exact ⟨_, ⟨rfl, State.stewardWrite_glb _ hnot⟩, _, rfl, State.stewardWrite_glb _ hnot⟩
  case written =>
    intro f v s hsteward
    refine ⟨_, congrArg Host.Outcome.next (State.stewardWrite_mmio hsteward _), State.writeLck_lck _ v, fun hset => ?_⟩
    exact if_neg hset

/-! ### SAN_POLICY.MODE (16 R433) -/

/-- A SANITIZE of one namespace by the steward, with right fields and none running, is the policy's to refuse (16 R431, R433). -/
theorem State.serveSanitize_of_steward {s : State} {r : Requester} {p : List Byte} {kind : Nat} (hreq : s.request (mbxOf r) 0x0E40 = some p)
    (hsteward : s.fromSteward r = true) (hzero : reservedZero p [(0, 4)] = true) (hscope : byteAt p 0 = 0)
    (hpresent : (s.ns (fieldAt p 2 2)).present = true) (hrunning : s.sanRunning (fieldAt p 2 2) = false) (hkind : byteAt p 1 = kind) :
    s.serveSanitize r kind =
      if sanForbids s.boot.sanPolicy kind then s.sanReply (mbxOf r) 3 0
      else (s.enterSanitize kind [fieldAt p 2 2]).sanReply (mbxOf r) 0 s.opNext := by
  rw [State.serveSanitize, State.serve_any s r _ _ p hreq]
  simp [hsteward, hzero, hscope, hpresent, hrunning, hkind]

/-- Settles O48: a sanitize of the steward meets the policy after the tests of its fields, and the mode is one of the things the locks hold. -/
theorem sanitizePolicyIsHeldByItsMode : Obligations.SanitizePolicyIsHeldByItsMode := by
  refine ⟨?policy, ?locked⟩
  case policy =>
    intro r p n s hreq hn hsteward hzero hscope hpresent hrunning
    subst hn
    have hserved (kind : Nat) (hkind : byteAt p 1 = kind) :=
      State.serveSanitize_of_steward hreq hsteward hzero hscope hpresent hrunning hkind
    refine ⟨fun hmode => ⟨?_, ?_⟩, fun hmode => ⟨?_, ?_⟩, fun hmode => ⟨?_, ?_⟩⟩ <;> intro hkind <;>
      refine congrArg Host.Outcome.next ((hserved _ hkind).trans ?_) <;> simp [hmode, sanForbids]
  case locked =>
    intro c s t h hc hlock
    exact (exec_locksHold h ((coldReset_eq_false_iff c).2 hc)).2 hlock

/-! ### DBG_CTRL, BOOT_FWKEY and JTAG (16 R413, R426, R427) -/

theorem State.touch_keysLoaded (s : State) (f : Nat) : (s.touch f).keysLoaded = s.keysLoaded := rfl

/-- Settles O50: the steward's write reaches its register, which acts as the locks and the loaded keys let it. -/
theorem theSecurityRegistersActAsStated : Obligations.TheSecurityRegistersActAsStated := by
  refine ⟨?dbgCtrl, ?fwkey, ?jtag⟩
  case dbgCtrl =>
    intro f v s hsteward
    obtain ⟨hlck, hdiag, hjtag⟩ := Glb.locks_eq_iff.1 ((s.touch f.val).writeDbg_locks v)
    refine ⟨_, congrArg Host.Outcome.next (State.stewardWrite_mmio hsteward _), hlck, hdiag, fun hon => ?_, fun hask hopen hnone => ?_⟩
    · rw [hjtag] at hon
      simp only [Bool.and_eq_true, Bool.not_eq_true'] at hon
      exact hon.1
    · rw [hjtag, State.touch_keysLoaded, State.touch_glb, hask, hopen, hnone]
      simp
  case fwkey =>
    intro f v s hsteward
    have hexec : exec (.bootFwkeyWrite f v) s = .next ((s.touch f.val).writeFwkey v) :=
      congrArg Host.Outcome.next (State.stewardWrite_mmio hsteward _)
    refine ⟨fun hignored => hexec.trans (congrArg Host.Outcome.next (if_pos hignored)), fun hset hopen hnew => ?_⟩
    rw [hexec]
    refine congrArg Host.Outcome.next ((if_neg ?_).trans (if_neg hnew))
    rintro (hzero | hlock)
    · exact hset hzero
    · exact Bool.false_ne_true (hopen.symm.trans hlock)
  case jtag =>
    intro op s
    refine congrArg (fun g => Host.Outcome.next (s.modGlb g)) (funext fun g => ?_)
    cases op <;> cases hj : g.jtagDbg <;> simp [jtagCode]

end Sys2Proof.Machine

/-! ## O53: a step runs the front command -/

namespace Sys2Proof.Machine

open Sys2Proof

/-- Settles O53: the front command is the one a step matches. -/
theorem aStepRunsTheFrontCommand : Obligations.AStepRunsTheFrontCommand := by
  intro c rest s
  rfl

end Sys2Proof.Machine

/-! ## O42: the one pulse of COLD_RST_N that is undefined -/

namespace Sys2Proof.Machine

open Sys2Proof

theorem coldRstAssert_next {ns : Nat} {s : State} (h : ns < 1000 ∨ 10000 ≤ ns ∨ s.glb.coldRst = true) :
    ∃ t, exec (.coldRstAssert ns) s = .next t := by
  simp only [exec, execColdRstAssert]
  split
  · exact ⟨_, rfl⟩
  · next hpulse =>
    have hlong : ¬ ns < 10000 := by
      obtain ⟨hmin, hrun⟩ := not_or.1 hpulse
      obtain h | h | h := h
      · exact absurd h hmin
      · exact Nat.not_lt.2 h
      · exact absurd h hrun
    exact ⟨_, if_neg hlong⟩

/-- Settles O42: every other command is written as a next state, and the two tests of a pulse leave out the undefined range alone. -/
theorem oneColdResetPulseIsUndefined : Obligations.OneColdResetPulseIsUndefined := by
  refine ⟨?next, ?stops⟩
  case next =>
    intro c s hpulse
    cases c
    case coldRstAssert ns => exact coldRstAssert_next (hpulse ns rfl)
    case ceilingStepTimer b => cases b <;> exact ⟨_, rfl⟩
    all_goals exact ⟨_, rfl⟩
  case stops =>
    intro ns s hmin hmax hrun
    have hstart : ¬ (ns < 1000 ∨ s.glb.coldRst = true) := by simp [hrun, hmin]
    exact (if_neg hstart).trans (if_pos hmax)

end Sys2Proof.Machine

/-! ## O52: events latch in the entitled views -/

namespace Sys2Proof.Machine

open Sys2Proof

/-- An occurrence sets its bit in the row of each port named, and in no other row. -/
theorem latchIn_get (ports : List Nat) (src k : Nat) (t : Tab Word) :
    Tab.get (fun _ => 0) (latchIn ports src t) k =
      if ports.any (fun p => k == 64 * p + src / 32) then Tab.get (fun _ => 0) t k ||| bit32 src else Tab.get (fun _ => 0) t k := by
  unfold latchIn
  induction ports generalizing t with
  | nil => rfl
  | cons p ports ih =>
    rw [List.foldl_cons, ih, Tab.get_upd, List.any_cons]
    by_cases hk : k = 64 * p + src / 32
    · subst hk
      simp [BitVec.or_assoc]
    · simp [hk]

theorem bit32_getLsbD (i b : Nat) (hb : b < 32) : (bit32 i).getLsbD b = decide (i % 32 = b) := by
  rw [bit32, BitVec.getLsbD_ofNat, decide_eq_true hb, Bool.true_and, Nat.testBit_two_pow]

/-- An occurrence of a source sets its own bit of an entitled view, and no other bit (15 R401). -/
theorem State.raise_latch_getLsbD {s : State} {src p n b : Nat} (hp : p < 4) (hsrc : src < 2048) (hn : n < 64) (hb : b < 32) :
    (Tab.get (fun _ => 0) (s.raise src).evt.latch (64 * p + n)).getLsbD b =
      ((Tab.get (fun _ => 0) s.evt.latch (64 * p + n)).getLsbD b || (s.sees p src && decide (src / 32 = n ∧ src % 32 = b))) := by
  have hrow : (((List.range 4).filter (s.sees · src)).any fun q => 64 * p + n == 64 * q + src / 32) = (s.sees p src && decide (src / 32 = n)) := by
    rw [Bool.eq_iff_iff]
    simp only [List.any_eq_true, List.mem_filter, List.mem_range, beq_iff_eq, Bool.and_eq_true, decide_eq_true_eq]
    refine ⟨fun ⟨q, ⟨hq, hsees⟩, heq⟩ => ?_, fun ⟨hsees, hlatch⟩ => ⟨p, ⟨hp, hsees⟩, by omega⟩⟩
    obtain rfl : q = p := by omega
    exact ⟨hsees, by omega⟩
  unfold State.raise
  dsimp only
  rw [latchIn_get, hrow]
  by_cases hset : (s.sees p src && decide (src / 32 = n)) = true
  · rw [if_pos hset, BitVec.getLsbD_or, bit32_getLsbD _ _ hb]
    simp only [Bool.and_eq_true, decide_eq_true_eq] at hset
    simp [hset]
  · rw [if_neg hset]
    have hclear : (s.sees p src && decide (src / 32 = n ∧ src % 32 = b)) = false := by
      rw [← Bool.not_eq_true, Bool.and_eq_true, decide_eq_true_eq]
      rintro ⟨hsees, hlatch, -⟩
      exact hset (by rw [hsees, hlatch]; simp)
    rw [hclear, Bool.or_false]

theorem State.clearLatch_get (s : State) (p n : Nat) (v : Word) (k : Nat) :
    Tab.get (fun _ => 0) (s.clearLatch p n v).evt.latch k =
      if k = 64 * p + n then Tab.get (fun _ => 0) s.evt.latch k &&& ~~~v else Tab.get (fun _ => 0) s.evt.latch k := by
  rw [State.clearLatch, Tab.get_upd]
  split
  · next hk => rw [hk]
  · rfl

/-- Settles O52: a raise sets one bit in each entitled row of the latches, and a W1C write changes one row, or the function's own latch. -/
theorem eventsLatchInEntitledViewsUntilTheOwnerClears : Obligations.EventsLatchInEntitledViewsUntilTheOwnerClears := by
  refine ⟨fun src p n b s hp hsrc hn hb => State.raise_latch_getLsbD hp hsrc hn hb, ?view, ?function⟩
  case view =>
    intro f n v s hmmio
    refine ⟨_, congrArg Host.Outcome.next (State.bar0_mmio hmmio true _), fun hvf => ?_, fun hpf => ?_⟩
    · exact if_neg (ne_true_of_eq_false hvf)
    · rw [if_pos hpf]
      exact ⟨rfl, rfl, fun k => State.clearLatch_get ..⟩
  case function =>
    intro f v s hmmio
    exact congrArg Host.Outcome.next (State.bar0_mmio hmmio true _)

end Sys2Proof.Machine

/-! ## O35: CALREF and temperatures -/

namespace Sys2Proof.Machine

open Sys2Proof

/-- In units of 10 µV, more than 2 % off the nominal 1.2500 V of the bandgap (12 R353). -/
theorem calref_disagrees_iff {n : Nat} : 2500 < ((n : Int) - 125000).natAbs ↔ n < 122500 ∨ 127500 < n := by omega

/-- A THERMAL_CTRL request of the steward or the sideband about a present bay is done when its action has no REASON of its own (13 R370). -/
theorem State.thermalCtrl_of_seesAll {s : State} {r : Requester} {p : List Byte} {act : Nat} (own : Nat → Nat → Nat)
    (k : State → Nat → Nat → State) (hreq : s.request (mbxOf r) 0x0D10 = some p) (hact : byteAt p 0 = act)
    (hzero : reservedZero p [(0, 3)] = true) (hbay : byteAt p 1 < 72) (hkind : byteAt p 2 < if act = 1 then 1 else 4)
    (hsees : s.seesAll r = true) (hpresent : (s.bay (byteAt p 1)).link.present = true) (hown : own (byteAt p 1) (byteAt p 2) = 0) :
    s.thermalCtrl r act own k = (k s (byteAt p 1) (byteAt p 2)).thermalReply (mbxOf r) (byteAt p 1) := by
  rw [State.thermalCtrl, State.serve_ok s r _ act _ p hreq hact]
  simp [hzero, hbay, hkind, hsees, State.seesBay, hpresent, hown]

/-- Settles O35: a measurement agrees or not, a scope or comparator is where its timer or trip acts, and a THERMAL_CTRL request passes its
tests. -/
theorem calrefAndTemperaturesAreWatched : Obligations.CalrefAndTemperaturesAreWatched := by
  refine ⟨?agrees, ?third, ?tenth, ?evaluation, ?ceiling, ?trip, ?control⟩
  case agrees =>
    intro uv10 s hlo hhi hgood
    simp [exec, execCalrefCheck, calref_disagrees_iff, Nat.not_lt.2 hlo, Nat.not_lt.2 hhi, hgood]
  case third =>
    intro uv10 s hoff hgood hcount
    simp [exec, execCalrefCheck, calref_disagrees_iff, hoff, hgood, hcount]
  case tenth =>
    intro uv10 s hlo hhi hbad hcount
    simp [exec, execCalrefCheck, calref_disagrees_iff, Nat.not_lt.2 hlo, Nat.not_lt.2 hhi, hbad, hcount]
  case evaluation =>
    intro rs s
    dsimp only [exec, execThermalEvaluation]
  case ceiling =>
    intro b s hlevel htime hceil
    simp [exec, execCeilingStepTimer, hlevel, htime, hceil]
  case trip =>
    intro n s hworks hrun
    simp [exec, execThermtrip, hworks, hrun]
  case control =>
    intro r p s hreq hzero hbay hkind hsees hpresent
    refine ⟨fun hact hnone => ?_, fun hact hbroken hthere => ?_, fun hact hsubst => ?_⟩
    · exact congrArg Host.Outcome.next (State.thermalCtrl_of_seesAll _ _ hreq hact hzero hbay (by simp [hnone]) hsees hpresent rfl)
    · exact congrArg Host.Outcome.next
        (State.thermalCtrl_of_seesAll _ _ hreq hact hzero hbay hkind hsees hpresent (by simp [hbroken, hthere]))
    · exact congrArg Host.Outcome.next
        (State.thermalCtrl_of_seesAll _ _ hreq hact hzero hbay hkind hsees hpresent (by simp [hsubst]))

end Sys2Proof.Machine

/-! ## O36: clock islands, TIMEREF and PPS_IN -/

namespace Sys2Proof.Machine

open Sys2Proof

/-- Settles O36: each event finds its island, reference or edge in the state that the clause names. -/
theorem clocksAndCrossingsRecover : Obligations.ClocksAndCrossingsRecover := by
  refine ⟨?steward, ?other, ?hardFault, ?rearm, ?starts, ?ends, ?timeref, ?edge, ?lost⟩
  case steward =>
    intro f isl flight s hsteward hopen hisl hup
    refine congrArg Host.Outcome.next ((State.stewardWrite_mmio hsteward _).trans ((if_pos ?_).trans (if_neg (ne_true_of_eq_false hup))))
    have hopen : (s.touch f.val).diagOpen = true := hopen
    simp [hopen, hisl]
  case other =>
    intro f isl flight s hsteward hno
    refine congrArg Host.Outcome.next ((State.stewardWrite_mmio hsteward _).trans (if_neg ?_))
    simp only [Bool.and_eq_true, Bool.or_eq_true, decide_eq_true_eq]
    rintro ⟨hopen, hisl⟩
    obtain hshut | hport | hlate := hno
    · exact Bool.false_ne_true (hshut.symm.trans hopen)
    · omega
    · omega
  case hardFault =>
    intro isl flight s hup
    exact congrArg Host.Outcome.next (if_neg (ne_true_of_eq_false hup))
  case rearm =>
    intro isl s hreset hisl
    refine congrArg Host.Outcome.next ((if_neg ?_).trans (if_neg ?_))
    · simp [hreset]
      omega
    · omega
  case starts =>
    intro a s hready hstill hidle
    simp [exec, execClockSwitch, hready, hstill, hidle]
  case ends =>
    intro a s
    exact ⟨fun hswitching => congrArg Host.Outcome.next (if_pos hswitching), fun hrecov hstill =>
      congrArg Host.Outcome.next (if_pos (by rw [hrecov, hstill]; rfl))⟩
  case timeref =>
    intro s
    exact ⟨fun hgood => congrArg Host.Outcome.next (if_neg (ne_true_of_eq_false hgood)), fun hheld => congrArg Host.Outcome.next (if_pos hheld)⟩
  case edge =>
    intro falling t s hen hfall hlast hmin hmax hlocked
    have hsecond : 999900000 ≤ s.now - t ∧ s.now - t ≤ 1000100000 := by omega
    simp [exec, execPpsEdge, hen, hfall, hlast, hsecond, hlocked]
  case lost =>
    intro s hlocked htime
    exact congrArg Host.Outcome.next (if_pos ⟨hlocked, htime⟩)

end Sys2Proof.Machine

/-! ## O39: namespaces -/

namespace Sys2Proof.Machine

open Sys2Proof

/-- A grant or revocation with right fields is staged, in place of an earlier one of its namespace and port, or meets its lock (15 R396). -/
theorem State.stageGrant_of_fields {s : State} {r : Requester} {p : List Byte} {g : Bool} (hreq : s.request (mbxOf r) 0x0F22 = some p)
    (hgrant : byteAt p 4 = bit g) (hzero : reservedZero p [(1, 4)] = true) (hport : byteAt p 1 ≤ 3)
    (hpresent : (s.ns (fieldAt p 2 2)).present = true) :
    s.stageGrant r g = if s.glb.lck.getLsbD 1 = true then s.respond (mbxOf r) (reasonOnly 2 0)
      else (s.modCfg fun c =>
        { c with stagedGrants := (c.stagedGrants.filter fun x => !(x.nsid == fieldAt p 2 2 && x.port == byteAt p 1))
            ++ [{ nsid := fieldAt p 2 2, port := byteAt p 1, grant := g }] }).respond (mbxOf r) (reasonOnly 0 0) := by
  rw [State.stageGrant, State.serve_any s r _ _ p hreq]
  simp [hgrant, hzero, Nat.not_lt.2 hport, hpresent]

/-- An attachment to a granted port by the steward or a function of the port acts, or meets its lock (15 R396). -/
theorem State.serveAttach_of_fields {s : State} {r : Requester} {p : List Byte} {g : Bool} (hreq : s.request (mbxOf r) 0x0F23 = some p)
    (hattach : byteAt p 6 = bit g) (hzero : reservedZero p [(2, 5)] = true) (hfn : fieldAt p 4 2 ≤ 255)
    (hpresent : (s.ns (fieldAt p 2 2)).present = true) (hgranted : (s.ns (fieldAt p 2 2)).ports.contains (portOf (fieldAt p 4 2)) = true)
    (hmay : s.isSteward (reqFn r) = true ∨ portOf (reqFn r) = portOf (fieldAt p 4 2)) :
    s.serveAttach r g = if s.glb.lck.getLsbD 1 = true then s.respond (mbxOf r) (reasonOnly 2 0)
      else (s.attach (fieldAt p 2 2) (fieldAt p 4 2) g).respond (mbxOf r) (reasonOnly 0 0) := by
  have hnot : ¬ ((!s.isSteward (reqFn r)) = true ∧ portOf (reqFn r) ≠ portOf (fieldAt p 4 2)) := by
    rintro ⟨hother, hport⟩
    obtain h | h := hmay
    · simp [h] at hother
    · exact hport h
  have hfields : ¬ ((!reservedZero p [(2, 5)]) = true ∨ 255 < fieldAt p 4 2 ∨ (!(s.ns (fieldAt p 2 2)).present) = true) := by
    simp [hzero, Nat.not_lt.2 hfn, hpresent]
  rw [State.serveAttach, State.serve_any s r _ _ p hreq]
  dsimp only
  rw [if_neg (not_not_intro hattach), if_neg hfields, hgranted, Bool.not_true, if_neg Bool.false_ne_true, if_neg hnot]

/-- Settles O39: each request is served and passes the tests of its fields, its authority and its namespace. -/
theorem namespacesAreCreatedGrantedAndAttached : Obligations.NamespacesAreCreatedGrantedAndAttached := by
  refine ⟨?create, ?delete, ?grant, ?attach, ?info⟩
  case create =>
    intro r p s hreq hok
    exact congrArg Host.Outcome.next ((State.serve_any s r _ _ p hreq).trans (if_neg (not_not_intro hok)))
  case delete =>
    intro r p s hreq hzero hpresent hports hledger
    refine congrArg Host.Outcome.next ((State.serve_any s r _ _ p hreq).trans ?_)
    simp [hzero, hpresent, hports, hledger]
  case grant =>
    intro r p g s hreq hgrant hzero hport hpresent
    have hserved := State.stageGrant_of_fields hreq hgrant hzero hport hpresent
    exact ⟨fun hg => congrArg Host.Outcome.next (hg ▸ hserved), fun hg => congrArg Host.Outcome.next (hg ▸ hserved)⟩
  case attach =>
    intro r p g s hreq hattach hzero hfn hpresent hgranted hmay
    have hserved := State.serveAttach_of_fields hreq hattach hzero hfn hpresent hgranted hmay
    exact ⟨fun hg => congrArg Host.Outcome.next (hg ▸ hserved), fun hg => congrArg Host.Outcome.next (hg ▸ hserved)⟩
  case info =>
    intro r p s hreq hzero hmin hmax hpresent hsees
    refine congrArg Host.Outcome.next ((State.serve_any s r _ _ p hreq).trans ?_)
    simp [hzero, Nat.pos_iff_ne_zero.1 hmin, Nat.not_lt.2 hmax, hpresent, hsees]

end Sys2Proof.Machine
